-- ==== Sys2Proof/Word.lean ====
section
/-! DEFINITION. The words of the DRL-5256: bytes, 32-bit register words and 64-bit pattern words (R7). -/

namespace Sys2Proof

/-- One byte of pattern memory, of a register or of a record (R7). -/
abbrev Byte := BitVec 8

/-- One 32-bit register word of BAR0 or BAR4 (R402). -/
abbrev Word := BitVec 32

/-- One 64-bit pattern word (R131). -/
abbrev Word64 := BitVec 64

end Sys2Proof
end

