-- ==== Sys2Proof/Syntax.lean ====
section
/-! DEFINITION. The commands of the block: one constructor of `Instr` per row of the opcode table, with the operands the row needs: who
writes, what is addressed, what is written, and for an event what the outside world shows (log 1, log 2). -/

namespace Sys2Proof

/-- What the synthesiser has measured when REF enters holdover (R39, R41): for how many milliseconds the source had been followed, the mean
ratio of REF to crystal in units of 2^-32, and the rms spread of the one-millisecond measurements in units of 2^-8 ppb. -/
structure HoldMeas where
  followedMs : Nat
  ratio : Nat
  spread : Nat
deriving DecidableEq, Repr

/-- A time value that a master can read coherently (R48): time base b (0 device, 1 + n partition n), the mirror of the device time base in
partition page n, or the epoch of site s in partition page n. -/
inductive TimeRef where
  | base (b : Nat)
  | mirror (n : Nat)
  | epoch (n s : Nat)
deriving DecidableEq, Repr

/-- What the receiver of a time-link port sees of a frame (R68, R69): its length in bytes with its FCS, and the fields that decide about it. -/
structure RxFrame where
  length : Nat
  fcsOk : Bool
  tagged : Bool
  etherType : Nat
  dest : Nat
  domain : Nat
  version : Nat
  msgType : Nat
deriving DecidableEq, Repr

/-- A received IEEE 1588 event or general message (R81): sequenceId, twoStepFlag, the timestamp it carries and its correctionField in time
units, the requestingPortIdentity it carries or its source, and where its internal receive stamp point lies, in time units after the present tick of the
link time base. -/
structure PtpMsg where
  seqId : Nat
  twoStep : Bool
  stamp : Nat
  corr : Int
  portId : Nat
  rxAt : Nat
deriving DecidableEq, Repr

/-- The grandmaster fields of an Announce (R83): grandmasterIdentity, clockClass, clockAccuracy, priority1, priority2 and timeTraceable. -/
structure GmFields where
  identity : Nat
  clockClass : Nat
  accuracy : Nat
  priority1 : Nat
  priority2 : Nat
  traceable : Bool
deriving DecidableEq, Repr

/-- What fails its check in one execution of an analysis-unit instruction (R342): its program word, or an uncorrectable data word. -/
structure AuUpset where
  prog : Bool
  data : Option Nat
deriving DecidableEq, Repr

/-- What a calibration run has measured on the 17 instances of a bank (R350–R355): for TDC_LIN the hits of the 768 codes, and of each of 24 groups in each
quarter of the run; for EDGE the mean stamps in fs of the 667 steps, DRV then DEN then strobe, and for DESKEW the path delays in fs; the slot at whose input a transition was seen (R354); and the
junction temperature at the end in 1/16 °C. -/
structure CalMeas where
  counts : List (List Nat)
  quarters : List (List Nat)
  values : List (List Int)
  active : Option Nat
  temp : Int
deriving DecidableEq, Repr

/-- One part entry of a manifest (Table 19-4) as the ROM finds it: its TYPE, VERSION, OFFSET and LENGTH, whether the flash reads the part without an error, and whether its
digest agrees. -/
structure PartEntry where
  ty : Nat
  version : Nat
  offset : Nat
  length : Nat
  readOk : Bool
  digestOk : Bool
deriving DecidableEq, Repr

/-- What firmware files a proposal for (Table 20-6): CAUSE of `LCS_PROP_HEAD`; for a furrow's SRAM column, the AON ticks of the corrected bits in it; for a lane, whether its
adaptation was at a limit of its range on its last locks, latest first. -/
structure WearFacts where
  cause : Nat
  corrected : List Nat
  limits : List Bool
deriving DecidableEq, Repr

/-- A port that trains while the ROM checks the parts of a slot behind the PCIe PHY settings (R480): its speed code and its width. -/
structure PortLink where
  port : Nat
  speed : Nat
  width : Nat
deriving DecidableEq, Repr

/-- The level of the PERST_N ball of a port (R461). -/
structure PortPin where
  port : Nat
  perst : Bool
deriving DecidableEq, Repr

/-- A slot of the boot flash, from its bytes (Tables 19-3 to 19-6): whether its manifest can be read, MAGIC, FORMAT, NPARTS, whether its reserved bytes are zero, KEY, SHA-384 of
PUBKEY as the number that the 12 fuse words of a key row would hold, whether SIG verifies, SVN, VERSION, the parts; of the PCIe PHY settings part BIFUR and the subsystem
IDs; of the power sequence table the domains it names, as a bit mask; of the time-link PHY settings the latencies of the lanes; and the ports that train while the ROM checks
the rest. -/
structure SlotImage where
  readable : Bool
  magic : Nat
  format : Nat
  nparts : Nat
  reservedZero : Bool
  key : Nat
  keyHash : Nat
  sigOk : Bool
  svn : Nat
  version : Nat
  parts : List PartEntry
  bifur : Nat
  subsys : Nat
  domains : Nat
  txLat : List Nat
  rxLat : List Nat
  links : List PortLink
deriving DecidableEq, Repr

/-- A slot of the boot flash as the ROM finds it: whether its manifest reads without an error, and its bytes from slot offset 0 on, those not listed zero (Table 19-3); whether SIG verifies
under PUBKEY; the types of the parts that a read error meets, and of those whose bytes have another SHA-384 than DIGEST; the bytes of the PCIe PHY settings part, and what the
parts hold whose layout the spec leaves to firmware (R476): the domains of the power sequence table, as a bit mask, and the latencies of the lanes; and the ports that train while
the ROM checks the rest (R480). -/
structure SlotBytes where
  readable : Bool
  manifest : List Nat
  sigOk : Bool
  unread : List Nat
  digestBad : List Nat
  pcie : List Nat
  domains : Nat
  txLat : List Nat
  rxLat : List Nat
  links : List PortLink
deriving DecidableEq, Repr

/-- The boot flash as the ROM finds it (R472): whether SFDP and the commands needed are there, its JEDEC ID, its size in MiB, and the two slots. -/
structure FlashFacts where
  usable : Bool
  ident : Nat
  sizeMib : Nat
  slotA : SlotBytes
  slotB : SlotBytes
deriving DecidableEq, Repr


/-- The commands of the DRL-5256, one per row of the opcode table. -/
inductive Instr where
  /-- R34: The synthesiser detects loss of the selected reference source, enters holdover and raises REF_LOSS. -/
  | refLoss (src : Nat) (meas : HoldMeas)
  /-- R34: The AON domain detects a crystal failure and raises XTAL_FAIL, which is severe at once. -/
  | xtalFail
  /-- R35: A source has been free of loss conditions for QUAL × 10 ms and becomes qualified. -/
  | sourceQualified (src : Nat)
  /-- R35: Privileged software writes TIM_REF_CTRL.SEL to change the followed reference source. -/
  | refSelectWrite (m : Nat) (word : Nat) (meas : HoldMeas)
  /-- R36: The REF frequency reaches the new source's frequency and SLEWING clears. -/
  | refSlewDone
  /-- R41: Every 1 ms in holdover, the device updates TIM_HOLD_EST. -/
  | holdEstUpdate
  /-- R44: A time base adds its INCREMENT at its 10 ns tick. -/
  | timeBaseTick (b : Nat)
  /-- R45: A write of INC_GO to TIM_DTB_CMD or TIM_PTB_CMD requests a new INCREMENT at the next tick. -/
  | incGo (m b : Nat) (word : Nat)
  /-- R45: A write of ADJ_GO requests a step of the time base by ADJUST at the next tick. -/
  | adjGo (m b : Nat) (word : Nat)
  /-- R45: A write of SET_GO requests that the time base take the SET value at the next tick. -/
  | setGo (m b : Nat) (word : Nat)
  /-- R46: At the first tick after a command write, the time base judges the command and applies it or refuses it as a whole. -/
  | timeCommandApply (b : Nat)
  /-- R48: A read of the SUBNS word of a time value latches the whole value into the reading master's snapshot. -/
  | timeSnapshotRead (m : Nat) (tv : TimeRef)
  /-- R53: Every 1 ms while a site runs, the device updates the site's DRIFT. -/
  | driftUpdate (site : Nat)
  /-- R51: The headgate of a PRIMING site opens once its weirs and start time are met, and the site starts RUNNING with its epoch set. -/
  | headgateOpen (site : Nat) (onTime : Bool)
  /-- R58: A write of TIM_TP_CTRL.MODE = 1 arms a pulse in once mode. -/
  | tpArmOnce (m p : Nat) (tbsel pol : Bool)
  /-- R58: A write of TIM_TP_CTRL.MODE = 2 arms a pulse in periodic mode. -/
  | tpArmPeriodic (m p : Nat) (tbsel pol : Bool)
  /-- R58: A write of TIM_TP_CTRL.MODE = 0 disarms the pulse at once. -/
  | tpDisarm (m p : Nat) (tbsel pol : Bool)
  /-- R57: Privileged software writes TIM_TP_OWNER, and a change of owner disarms the pulse. -/
  | tpOwnerWrite (m : Nat) (word : Nat)
  /-- R59: The selected time base reaches a scheduled point, the pulse output is asserted and TP_FIRED is raised. -/
  | tpFired (p : Nat)
  /-- R59: The pulse has been asserted for WIDTH and the output returns to its inactive level. -/
  | tpWidthEnd (p : Nat)
  /-- R70: Setting TLK_P_CTRL.EN puts the port in SEARCH and starts sending idle blocks. -/
  | linkEnable (m port : Nat) (dm : Nat) (nopartFlt : Bool)
  /-- R69: Clearing TLK_P_CTRL.EN makes the port DISABLED. -/
  | linkDisable (m port : Nat) (dm : Nat) (nopartFlt : Bool)
  /-- R70: The receiver achieves Clause 49 block lock with HI_BER clear, and the port enters LOCKED. -/
  | blockLock (l : Nat)
  /-- R70: The 50 ms search window ends without lock, and the port enters NO_PARTNER. -/
  | noPartner (port : Nat)
  /-- R71: Every 100 ms in NO_PARTNER, the receiver restarts its adaptation and RETRIES increments. -/
  | adaptRestart (port : Nat)
  /-- R72: Block lock is lost in LOCKED, and the port freezes and returns to SEARCH. -/
  | lockLoss (l : Nat)
  /-- R73: The BER monitor reports HI_BER, so the port is not LOCKED and the cause is raised. -/
  | hiBer (l : Nat)
  /-- R73: The BER monitor clears and the port returns to LOCKED. -/
  | hiBerClear (l : Nat)
  /-- R74: A write of TLK_L_TXEQ sets the transmit taps at the next block boundary, or is refused with PHY_CFG. -/
  | txeqWrite (m l : Nat) (word : Nat)
  /-- R75: The receiver freezes its adaptation on low transition density, on loss of lock or by FREEZE. -/
  | adaptFreeze (l density : Nat)
  /-- R76: A frozen receiver resumes adaptation after a 4,096-UI window with density of 30 % or more. -/
  | adaptResume (l density : Nat)
  /-- R76: A write of TLK_L_RXCTRL.PRESET loads the presets and discards the frozen values. -/
  | rxPreset (m l : Nat) (freeze : Bool)
  /-- R77: A write of TLK_L_PRBS.GEN_EN replaces or restores the lane's transmit data. -/
  | prbsGenEn (m l : Nat) (word : Nat)
  /-- R78: A write of TLK_L_PRBS.CHK_EN directs receive data to the checker or back to the port. -/
  | prbsChkEn (m l : Nat) (word : Nat)
  /-- R80: A write of INJ_ONE inverts one transmitted bit at the next 66-bit boundary. -/
  | injOne (m l : Nat) (word : Nat)
  /-- R80: A write of INJ_RATE sets or disables periodic bit inversion, or is refused with PHY_CFG. -/
  | injRate (m l : Nat) (word : Nat)
  /-- R79: A read of TLK_L_PRBS_ERR returns the error count and clears it. -/
  | prbsErrRead (m l errs : Nat)
  /-- R69: A received frame is checked and either passed to the protocol engine or dropped into RX_DROP. -/
  | frameReceive (port : Nat) (f : RxFrame)
  /-- R86: The slave port receives a Sync, and with complete delay data it computes the offset and mean path delay. -/
  | sync (port : Nat) (msg : PtpMsg)
  /-- R94: The slave port receives a Follow_Up and matches it to the latest Sync by sequenceId. -/
  | followUp (port : Nat) (msg : PtpMsg)
  /-- R85: The master port receives a Delay_Req and answers with a Delay_Resp. -/
  | delayReq (port : Nat) (msg : PtpMsg)
  /-- R94: The slave port receives a Delay_Resp and accepts it only if it matches the outstanding request. -/
  | delayResp (port : Nat) (msg : PtpMsg)
  /-- R89: A port receives a Pdelay_Req and answers with a one-step Pdelay_Resp. -/
  | pdelayReq (port : Nat) (msg : PtpMsg) (txAt : Nat)
  /-- R94: A port receives a Pdelay_Resp and accepts it only if it matches the outstanding request. -/
  | pdelayResp (port : Nat) (msg : PtpMsg)
  /-- R81: A port receives a Pdelay_Resp_Follow_Up from a two-step peer. -/
  | pdelayRespFollowUp (port : Nat) (msg : PtpMsg)
  /-- R83: The slave port receives an Announce and takes the grandmaster fields and stepsRemoved from it. -/
  | announce (port : Nat) (gm : GmFields) (steps : Nat)
  /-- R88: At each Sync interval, the master port sends a one-step Sync with the timestamp inserted on the fly. -/
  | syncTransmit (port sentAt : Nat)
  /-- R83: At each Announce interval, the master port sends an Announce. -/
  | announceTransmit (port : Nat)
  /-- R94: The slave port sends a Delay_Req and holds it as the outstanding request. -/
  | delayReqTransmit (port sentAt : Nat)
  /-- R94: A peer-to-peer port sends a Pdelay_Req and holds it as the outstanding request. -/
  | pdelayReqTransmit (port sentAt : Nat)
  /-- R92: No valid Announce arrives within announceReceiptTimeout intervals, and TL0 declares its master lost. -/
  | announceReceiptTimeout
  /-- R92: No valid Sync arrives within 3 Sync intervals, and TL0 declares its master lost. -/
  | syncReceiptTimeout
  /-- R95: A completed complement pair writes TLK_MAP to assign lanes to ports, or is refused with PHY_CFG. -/
  | tlkMapWrite (m comp : Nat)
  /-- R98: The SITE_DEFINE command defines a site from a quad mask. -/
  | siteDefine (p : Nat)
  /-- R122: The SITE_DELETE command returns a site to FREE. -/
  | siteDelete (p : Nat)
  /-- R102: The PAL_LOAD command loads a palette set of one route or of every route of the site. -/
  | palLoad (p : Nat)
  /-- R120: The RUN command is checked, the route state is initialised, and the site enters PRIMING. -/
  | run (p : Nat)
  /-- R222: A RUN held while a furrow of the site has RESET_PENDING is carried out when RESET_PENDING clears. -/
  | runDeferredStart (site : Nat)
  /-- R126: The HALT command stops the site at the next vector boundary or at the next decision point. -/
  | halt (p : Nat)
  /-- R122: The CLEAR command returns a site in POISON or SAFE to IDLE. -/
  | clear (p : Nat)
  /-- R121: The STATUS command returns the site control entry and the vector number. -/
  | status (p : Nat)
  /-- R408: A write of MBX_CMD_PROD hands new commands to firmware, or is refused with MBX_ERR. -/
  | mailboxDoorbell (p v : Nat)
  /-- R409: Host software advances MBX_RSP_CONS to free response slots, or the write is refused with MBX_ERR. -/
  | mbxRspConsWrite (p v : Nat)
  /-- R112: A write of CMP_SITE_JREQ makes a jump request pending for the named alternate. -/
  | jumpRequest (m n i word : Nat)
  /-- R112: A synchronised rising edge on TRIGIN0–3 acts as a jump request source and an acquisition trigger source. -/
  | triginEdge (n : Nat)
  /-- R211: The lead quad's read side fetches the next entry of the site's read sequence once it is visible and readable. -/
  | entryFetch (site : Nat) (upset : Option Nat)
  /-- R219: The main resume position J after a jump reaches the lead quad, and main entries become fetchable. -/
  | resumePositionArrival (site : Nat)
  /-- R210: A step broadcast by the lead quad reaches another quad of the site, which performs the same step. -/
  | siteStepBroadcast (quad : Nat)
  /-- R211: At the fetch deadline of a vector period, the read side presents the fetched entry or an idle item, with its edges and strobes. -/
  | vectorPeriod (quad : Bool) (k : Nat)
  /-- R124: An open ordinary stop takes effect at its vector boundary: furrows release, caravans are withdrawn and the site enters its stopped state. -/
  | stopAtBoundary (site : Nat)
  /-- R222: Within 32 CORE cycles after a stop's discard, every pointer of the furrow is cleared and RESET_PENDING clears. -/
  | furrowClear (quad : Nat)
  /-- R131: The NOP pattern instruction has no effect. -/
  | nop (e : Nat)
  /-- R142: VEC with LOAD = 0 emits COUNT vectors of V2 or VX data from a data pointer. -/
  | vec (e : Nat)
  /-- R142: VEC with LOAD = 1 loads a data pointer and emits nothing. -/
  | vecLoad (e : Nat)
  /-- R143: VECI emits one immediate vector. -/
  | veci (e : Nat)
  /-- R144: The RPT pattern instruction emits COUNT copies of the last vector. -/
  | rpt (e : Nat)
  /-- R144: FILL emits COUNT vectors with one symbol on every pin. -/
  | fill (e : Nat)
  /-- R145: PAL sets the current palette set and timing set and may set a pending coherent switch. -/
  | pal (e : Nat)
  /-- R146: STREAM emits COUNT vectors from the streaming ring bound to a stream slot. -/
  | stream (e : Nat)
  /-- R163: An engine stalled on absent ring data resumes when the needed data becomes readable. -/
  | ringDataResume (e : Nat)
  /-- R147: SCAN emits COUNT scan vectors of serial data on up to four pins over a background vector. -/
  | scan (e : Nat)
  /-- R148: LOOP opens a counted loop. -/
  | loop (e : Nat)
  /-- R148: ENDL closes a counted loop, branching back or popping the frame. -/
  | endl (e : Nat)
  /-- R148: The CALL pattern instruction pushes a call frame and transfers to the target. -/
  | call (e : Nat)
  /-- R148: The RET pattern instruction returns from a subroutine. -/
  | ret (e : Nat)
  /-- R148: JMP transfers control unconditionally. -/
  | jmp (e : Nat)
  /-- R150: SEG closes the current segment and opens a new one. -/
  | seg (e : Nat)
  /-- R151: ALT arms an alternate for the current segment's boundary. -/
  | alt (e : Nat)
  /-- R154: MARK opens a MATCH block at the next vector. -/
  | mark (e : Nat)
  /-- R154: MATCH closes a MATCH block at the next vector with an iteration limit. -/
  | match (e : Nat)
  /-- R158: WAITT emits a hold entry that carries a vector-time or partition-time target. -/
  | waitt (e : Nat)
  /-- R157: TRIG records a code that is written to the route's progress register at commit, with the TRIG interrupt. -/
  | trig (e : Nat)
  /-- R156: LABEL sets a pending label number for the next vector. -/
  | label (e : Nat)
  /-- R156: FLAG sets pending masks to set or clear FLAG1–FLAG3 at the next vector. -/
  | flag (e : Nat)
  /-- R149: The HALT instruction ends the program, and its caravan records the route's end position. -/
  | haltInstruction (e : Nat)
  /-- R173: Firmware submits a caravan descriptor through its private queue, and the dispatcher checks it. -/
  | firmwareSubmission (raw : Nat)
  /-- R410: A write of DESC_CTRL configures or enables a descriptor ring. -/
  | descCtrlWrite (n d word : Nat)
  /-- R410: Host software increases DESC_PROD to offer new descriptors, or the write is refused with RING_ERR. -/
  | descProdWrite (n d v : Nat)
  /-- R410: The dispatcher reads descriptors from a host ring and accepts or refuses each one. -/
  | descriptorFetch (n d raw : Nat)
  /-- R411: Host software advances DESC_CPL_CONS to free completion places. -/
  | descCplConsWrite (n d v : Nat)
  /-- R185: In the last CORE cycle of each tick, the dispatcher releases due caravans and assigns up to four to engines. -/
  | dispatchDecision
  /-- R183: In the first four cycles of the next tick, an assigned caravan is handed to its engine, which loads the route-state record. -/
  | caravanHandover (ok : Bool)
  /-- R22: At the commit point, the staged entries become visible and the route state and ring positions advance. -/
  | caravanCommit (e : Nat)
  /-- R177: A chained token leaves RETIRING for WAITING or READY once a waystation place is free. -/
  | retiringExit
  /-- R169: An engine detects a machine check, its caravan is discarded and requeued at the head of the route's ready list. -/
  | machineCheck (e cause : Nat)
  /-- R168: An engine completes no instruction and writes no slice for 2^20 cycles, and takes MC_HANG. -/
  | mcHang (e : Nat)
  /-- R168: Firmware rewrites the failing control-store word, checks the store and clears CS_HOLD. -/
  | csRewriteDone (k : Nat)
  /-- R177: A read of DIS_POOL_A latches all six token counts for the reading master. -/
  | poolCountRead (m : Nat)
  /-- R187: Privileged software writes the engine shares, which apply from the next decision or are refused with DIS_CFG. -/
  | disShareWrite (m word : Nat)
  /-- R199: Each bank write port grants one engine slice per cycle by round-robin, and the slice is written three cycles later. -/
  | sluiceGrant (b : Nat)
  /-- R206: A pointer record crosses between CORE and QVC through its pointer queue and updates the receiving copy. -/
  | pointerQueueTransfer (quad : Nat) (toWriteSide : Bool)
  /-- R215: The site decision path delivers a MATCH pass's decision, and dwell repetitions continue until the next boundary. -/
  | matchDecision (site : Nat)
  /-- R216: At the boundary that ends the dwell, each quad continues past the block, rewinds to the mark or stops. -/
  | dwellEnd (site : Nat)
  /-- R228: A write of BNK_CTRL.MODE changes the bank mode and enters the safe state for 10 µs. -/
  | modeChange (m b mode : Nat)
  /-- R228: 10 µs after a mode change, CHANGING clears and the pins present idle items. -/
  | modeChangeEnd (b : Nat)
  /-- R235: BNK_TS_CMD.LOAD starts the check and copy of the set window into a timing set. -/
  | tsLoad (m b word : Nat)
  /-- R235: BNK_TS_CMD.READ starts the copy of a timing set into the set window. -/
  | tsRead (m b word : Nat)
  /-- R236: A timing-set load or read ends, the outcome is written to BNK_TS_STAT and TS_DONE is raised. -/
  | tsDone (b : Nat)
  /-- R246: A write of BNK_FOLLOW enables, disables or changes follow mode, or is refused with BNK_CFG. -/
  | followWrite (m b word : Nat)
  /-- R247: The tracking loop takes a followed DUT clock edge and updates the followed period. -/
  | followedEdge (b : Nat)
  /-- R249: No followed edge is accepted for 640 ns, and the bank holds its period and sets HOLD. -/
  | followHold (b : Nat)
  /-- R252: A write of BNK_PIN_TXEQ sets the direct-mode taps from the next vector boundary, or is refused. -/
  | pinTxeqWrite (m b j word : Nat)
  /-- R256: A write of BNK_PEC_TX_CTL queues a PE control port transfer, or is refused with PEC_ERR. -/
  | pecTxPush (m b word : Nat)
  /-- R256: The head transfer starts, at once or when its site presents vector VN, and CS_N falls. -/
  | pecTransferStart (n : Nat)
  /-- R255: A transfer ends, CS_N rises and the receive word is queued when RX = 1. -/
  | pecTransferEnd (n miso : Nat)
  /-- R256: A read of BNK_PEC_RX_HI pops the receive queue. -/
  | pecRxPop (m b : Nat)
  /-- R257: A write of BNK_PEC_CFG that clears EN or changes SEL empties the transfer queue. -/
  | pecCfgWrite (m b word : Nat)
  /-- R258: A completed complement pair writes BNK_SPARE to name the pin slot the spare timing slice replaces. -/
  | bnkSpareWrite (m b comp : Nat)
  /-- R31: A pending spare mapping takes effect at the resource's next idle moment. -/
  | spareSubstitution (kind inst : Nat)
  /-- R265: The compare block judges a pin's strobe and updates its counters, the site result and the ledger queue. -/
  | strobeJudge (p level : Nat) (dev : Option Nat)
  /-- R273: The site decision path delivers a site fail, and with STOP_FF = 1 a FAIL_STOP stop opens. -/
  | siteFailDelivery (i : Nat)
  /-- R279: One entry leaves the ledger queue for the ring under the credit limit, or is lost to the loss marker. -/
  | ledgerDrain (n cycles : Nat)
  /-- R275: Pattern memory acknowledges a ledger entry write and CMP_LED_WCNT advances. -/
  | ledgerWriteAck (n : Nat)
  /-- R274: A write of CMP_LED_CTRL enables or disables the ledger, or is refused with LED_CFG. -/
  | ledgerCtrlWrite (m n word : Nat)
  /-- R278: Host software writes CMP_LED_RCNT to free ledger places. -/
  | ledgerRcntWrite (m n v : Nat)
  /-- R279: A write of CMP_LED_RATE changes the drain rate and trims the credit at once. -/
  | ledRateWrite (m n word : Nat)
  /-- R270: Host software writes a pin's CMP_PIN_FCNT. -/
  | pinFcntWrite (m p v : Nat)
  /-- R288: Writing ACQ_C_CTRL.ARM samples the channel registers and arms the channel, or refuses the arm. -/
  | acqArm (m b word : Nat)
  /-- R289: Writing ACQ_C_CTRL.DISARM returns the channel to IDLE and abandons any record. -/
  | acqDisarm (m b word : Nat)
  /-- R285: Writing ACQ_C_CTRL.FORCE presents a HOST trigger at the current vector. -/
  | acqForce (m b word : Nat)
  /-- R287: A channel ARMED for ACQ_C_AUTO µs without a trigger takes an AUTO trigger. -/
  | acqAutoTrigger (b : Nat)
  /-- R297: A channel's writer drains backlog words into its record within its partition's write share. -/
  | acqWriterDrain (b n : Nat)
  /-- R293: After all data writes are acknowledged, the header is written, WCNT advances and RECORD_DONE is raised. -/
  | recordDone (b : Nat)
  /-- R296: A channel ends REARM after exactly 2 µs and enters ARMED, or FULL when no slot is free. -/
  | acqRearmEnd (b : Nat)
  /-- R296: Host software writes ACQ_C_RCNT, which frees slots and lets a FULL channel arm. -/
  | acqRcntWrite (m b v : Nat)
  /-- R299: A write of BNK_MASK configures a pin's mask test, or is refused with ACQ_CFG. -/
  | maskWrite (m b j idx word : Nat)
  /-- R300: The device detects a mask violation and counts it, raises MASK_VIOL and presents it to triggers and jumps. -/
  | maskViolation (b j vn : Nat)
  /-- R302: Privileged software writes ACQ_TO_OWNER, and a change of owner sets MODE to 0. -/
  | trigoutOwnerWrite (m word : Nat)
  /-- R302: A TRIGOUT pulse has lasted WIDTH and the output returns to its inactive level. -/
  | trigoutWidthEnd (t : Nat)
  /-- R307: A selected input transition reaches the converter and is prescaled, merged, held off or accepted and stamped. -/
  | converterEdge (p t : Nat) (cml rising merge held : Bool)
  /-- R313: Every 256 CORE cycles, each pin regains one stamp credit, up to 64. -/
  | stampCreditRefill (p : Nat)
  /-- R312: At the epoch and whenever vector time reaches a multiple of 2^48 units, the stream carries an era marker. -/
  | eraMarker (b site : Nat)
  /-- R316: An entry of the bank's stamp stream is written to its stamp ring, or dropped while a STOP ring is full. -/
  | stampRingWrite (b : Nat)
  /-- R316: A write of EDG_SR_CTRL configures or enables the stamp ring, or is refused with EDG_CFG. -/
  | stampRingCtrlWrite (m b word : Nat)
  /-- R316: Host software writes EDG_SR_RCNT to free stamp-ring places. -/
  | stampRingRcntWrite (m b v : Nat)
  /-- R309: A write of EDG_PIN_CFG configures a converter and clears its counters when EN is set, or is refused. -/
  | edgPinCfgWrite (m p word : Nat)
  /-- R318: A frequency-count gate ends, and N, T and the status are latched with FC_DONE. -/
  | fcDone (p : Nat)
  /-- R318: A read of EDG_FC_N latches T and the status of the same gate for the reader. -/
  | fcNRead (m p : Nat)
  /-- R321: A read of EDG_LOST that returns nonzero re-arms STAMP_LOST. -/
  | edgLostRead (m p : Nat)
  /-- R319: A completed complement pair writes EDG_SPARE to name the converter the spare replaces. -/
  | edgSpareWrite (m b comp : Nat)
  /-- R324: Privileged software assigns an analysis unit to a partition, which starts clearing. -/
  | auAssignWrite (m u word : Nat)
  /-- R324: An analysis unit finishes clearing its state and CLEARING clears. -/
  | auClearDone (u : Nat)
  /-- R341: Writing AU_CTRL.GO starts the unit at AU_START. -/
  | auGo (m u word : Nat)
  /-- R341: Writing AU_CTRL.HALT stops the unit at its next boundary. -/
  | auHalt (m u word : Nat)
  /-- R341: Writing AU_CTRL.RESET clears the register file, stack, flags and tap. -/
  | auReset (m u word : Nat)
  /-- R336: A write of AU_DOORBELL sets the HOST interrupt pending. -/
  | auDoorbell (m u word : Nat)
  /-- R337: The unit takes an enabled pending interrupt at an allowed boundary. -/
  | auInterrupt (u : Nat)
  /-- R342: A host read of data memory through the window takes one AUC cycle and raises DMEM_ECC on an uncorrectable word. -/
  | auDataWindowRead (m u idx : Nat) (bad : Bool)
  /-- R327: The NOP instruction of an analysis unit. -/
  | auNop (u : Nat) (up : AuUpset)
  /-- R331: CMAC multiplies two memory operands and accumulates into A0 or A1. -/
  | cmac (u : Nat) (up : AuUpset)
  /-- R327: CMACX multiplies a register and a memory operand and accumulates. -/
  | cmacx (u : Nat) (up : AuUpset)
  /-- R333: RND rounds and saturates an accumulator into a data register. -/
  | rnd (u : Nat) (up : AuUpset)
  /-- R327: MVA moves part of an accumulator to a data register. -/
  | mva (u : Nat) (up : AuUpset)
  /-- R327: LD loads a data register from data memory with post-modify. -/
  | ld (u : Nat) (up : AuUpset)
  /-- R327: ST stores a data register to data memory with post-modify. -/
  | st (u : Nat) (up : AuUpset)
  /-- R327: LDI loads an immediate into a data register. -/
  | ldi (u : Nat) (up : AuUpset)
  /-- R327: ALU performs an arithmetic, logic, shift, compare or saturate operation. -/
  | alu (u : Nat) (up : AuUpset)
  /-- R327: ADDI adds a signed immediate to a data register. -/
  | addi (u : Nat) (up : AuUpset)
  /-- R330: LDA writes one field of an address register. -/
  | lda (u : Nat) (up : AuUpset)
  /-- R340: TAPD pops the oldest tap entry and yields its time-interval error, or stalls on an empty tap. -/
  | tapd (u : Nat) (up : AuUpset) (waited : Nat)
  /-- R334: BR branches on a condition after two delay slots. -/
  | br (u : Nat) (up : AuUpset)
  /-- R334: The CALL instruction of an analysis unit pushes a return address and transfers. -/
  | auCall (u : Nat) (up : AuUpset)
  /-- R334: The RET instruction of an analysis unit returns after two delay slots. -/
  | auRet (u : Nat) (up : AuUpset)
  /-- R334: RETI returns and sets IE. -/
  | reti (u : Nat) (up : AuUpset)
  /-- R335: The RPT instruction of an analysis unit repeats the next instruction COUNT times. -/
  | auRpt (u : Nat) (up : AuUpset)
  /-- R335: RPTR repeats the next instruction a register-given number of times. -/
  | rptr (u : Nat) (up : AuUpset)
  /-- R335: RPTB repeats a block of instructions COUNT times. -/
  | rptb (u : Nat) (up : AuUpset)
  /-- R327: WAIT idles until an enabled interrupt is pending or the tap is not empty. -/
  | wait (u : Nat) (up : AuUpset) (waited : Nat)
  /-- R341: The HALT instruction of an analysis unit enters HALTED and raises DONE. -/
  | auHaltInstruction (u : Nat) (up : AuUpset)
  /-- R327: SIG writes AU_MSG.CODE and raises MSG. -/
  | sig (u : Nat) (up : AuUpset)
  /-- R332: CLRF clears the named sticky flags. -/
  | clrf (u : Nat) (up : AuUpset)
  /-- R345: A completed complement pair writes AU_SPARE to name the unit that AU16 replaces. -/
  | auSpareWrite (m comp : Nat)
  /-- R345: The copy of a unit's state to the spare completes, ACTIVE sets and the unit returns to its state. -/
  | auSubstDone
  /-- R361: CAL_REQ.GO or CAL_P_REQ.GO files a calibration request for banks and classes. -/
  | calRequest (m : Nat) (part : Option Nat) (word : Nat)
  /-- R361: CAL_REQ.CANCEL drops pending calibration requests. -/
  | calCancel (m word : Nat)
  /-- R362: With CAL_AUTO.EN, firmware files a request on interval, temperature change or a DUE bit. -/
  | calAutoRequest (b : Nat)
  /-- R361: A pending class starts on an idle bank. -/
  | calClassStart (temp : Int)
  /-- R355: A calibration run ends, and after the second run the class is judged, accepted and installed or rejected. -/
  | calRunDone (b : Nat) (meas : CalMeas)
  /-- R361: A running calibration aborts at its next step with ABORTED. -/
  | calAbort (b : Nat)
  /-- R358: The records of an accepted class are written to the boot flash, and COUNT advances. -/
  | calRecordWrite (b : Nat) (ok : Bool)
  /-- R378: A requester's read or write arrives at a memory channel and is ranked by class and deadline. -/
  | memoryRequest (r : Nat) (part : Option Nat) (addr len : Nat) (data : Option (List Nat)) (now fails : Nat)
  /-- R377: A block read returns, decoded and corrected, to its requester. -/
  | memoryReadDone (c now : Nat) (errs : List Nat) (phy : Nat)
  /-- R379: A block write is acknowledged by pattern memory. -/
  | memoryWriteAck (c now : Nat) (errs : List Nat) (phy : Nat)
  /-- R380: Every 1 ms, the controller reads the stack temperature and sets or clears HOT_RATE and MEM_HOT. -/
  | stackTempRead (t : Option Int)
  /-- R382: At each refresh tick, a channel's owed count rises by one. -/
  | refreshTick (c : Nat)
  /-- R382: A channel issues a refresh unit when its owed count and load allow. -/
  | refreshUnit (c : Nat)
  /-- R385: Privileged software writes MEM_SPEED.TARGET to request or cancel a change of operating point. -/
  | speedTargetWrite (m word : Nat)
  /-- R385: In a cycle with no site PRIMING or RUNNING, the pending speed change begins with self-refresh entry. -/
  | speedChangeEntry (command : Bool)
  /-- R385: The speed change completes, ACTIVE takes TARGET and held requests are served. -/
  | speedDone
  /-- R388: The scrub reads the next block, rewrites corrected data and poisons uncorrectable blocks. -/
  | scrubRead (errs : List Nat)
  /-- R393: An approved frame retirement starts once the owning partition has no site running. -/
  | retirementStart (h : Nat)
  /-- R394: The frame copy completes and the page map points to the spare frame. -/
  | retirementDone (bad : Nat) (row : Option Nat)
  /-- R370: A write of MEM_MAP_Q starts a page-map lookup. -/
  | mapLookup (m word : Nat)
  /-- R370: The page-map lookup completes and MEM_MAP_ENT holds the entry. -/
  | mapLookupDone (fails : Nat)
  /-- R406: Privileged software writes HIF_QUOTA to grow or shrink partition quotas. -/
  | quotaWrite (m word : Nat)
  /-- R372: The clearing of newly assigned regions ends and CLEAR_DONE is raised. -/
  | clearDone (n : Nat)
  /-- R403: A host write through BAR2 stores data in the partition's pattern space, or is discarded. -/
  | bar2Write (n x : Nat) (data : List Nat) (ep : Bool)
  /-- R403: A host read through BAR2 returns pattern data split at block boundaries. -/
  | bar2Read (n x len : Nat) (ue : List Nat)
  /-- R403: A Resizable BAR write changes the BAR2 size and realigns HIF_P_WIN. -/
  | bar2Resize (n k : Nat)
  /-- R403: Host software writes HIF_P_WIN to move the BAR2 window, or the write is refused. -/
  | hifPWinWrite (m n word : Nat)
  /-- R405: Privileged software gives a bank a new owner, which places it in its safe state and starts the move. -/
  | bankOwnerChange (m : Nat) (hi : Bool) (word : Nat)
  /-- R405: A moved bank's registers and storage are reset and MOVING clears. -/
  | bankMoveDone (b : Nat)
  /-- R412: A write of RING_CTRL configures or enables a streaming ring. -/
  | ringCtrlWrite (n r word : Nat)
  /-- R413: In direct mode, host software advances RING_WR after writing ring data. -/
  | ringWrWrite (n r v : Nat)
  /-- R413: A write of RING_FETCH_LEN pushes a fetch entry into the ring's queue. -/
  | ringFetchPush (n r len : Nat)
  /-- R413: A fetch entry starts reading host data once it fits behind RING_RD. -/
  | ringFetchStart (n r : Nat)
  /-- R413: The fetched data has been written to the area and RING_WR advances. -/
  | ringFetchDone (n r : Nat) (data : List Nat)
  /-- R416: A device read ends in a completion timeout, Unsupported Request or Completer Abort, which disables the ring. -/
  | dmaErr (n : Nat) (stream : Bool) (k : Nat)
  /-- R417: Host software clears a vector's mask, and a pending vector sends its message. -/
  | msixUnmask (n v : Nat)
  /-- R417: A W1C write of INT_RAW clears interrupt bits and re-raises the vector if a pending bit remains. -/
  | intRawClear (m addr word : Nat)
  /-- R427: A write of INT_SET sets INT_RAW bits as hardware events do. -/
  | intSetWrite (m addr word : Nat)
  /-- R418: PERST_N, function level reset or link loss resets a partition's sites, queues and rings. -/
  | partitionReset (n cause : Nat)
  /-- R418: Within 100 µs of a partition reset, its registers are back at reset values and PRESET clears. -/
  | partitionResetDone (n : Nat)
  /-- R461: A PCIe port begins link training once PD22 is on, its PHY settings are applied and PERST_N is high. -/
  | pcieLinkTrainingStart (pin : PortPin)
  /-- R428: A write to a register with no row of its own is stored, refused or ignored by its access code. -/
  | registerWrite (m addr len be word : Nat) (meas : HoldMeas)
  /-- R431: A write of V to a CPL field opens that master's pair without changing the field. -/
  | complementPairOpen (m addr v : Nat)
  /-- R432: An open pair has no complement by the end of cycle 64 and is discarded. -/
  | cplPairTimeout (m addr : Nat)
  /-- R436: A write of the low word of a 64-bit field stores it in the master's write shadow. -/
  | lowWordWrite (m addr v : Nat)
  /-- R436: A write of the high word writes both words of the 64-bit field from the shadow, or is discarded. -/
  | highWordWrite (m addr v : Nat)
  /-- R436: A read of the low word latches the high word into the master's read shadow. -/
  | lowWordRead (m addr len : Nat)
  /-- R437: Writing LOCK makes every RWL field of the page read only. -/
  | lockWrite (m addr word : Nat)
  /-- R430: Every 100 µs, the device checks every configuration register of a page against its parity. -/
  | parityScan (addr : Nat) (upsets : List (Nat × Nat))
  /-- R434: Writing BLK_CTRL.EN = 1 starts the start-up of the page's function or sets ON_PENDING. -/
  | functionEnable (m addr : Nat)
  /-- R463: Writing BLK_CTRL.EN = 0 starts the shutdown of the page's function, or is refused with PWR_CFG. -/
  | functionDisable (m addr : Nat)
  /-- R464: A domain shutdown completes: outputs are safe, signals clamped and power removed. -/
  | shutdownDone (d : Nat)
  /-- R464: A domain start-up completes with retained state restored and ON set. -/
  | startupDone (d : Nat)
  /-- R445: A severe cause's grace timer expires with the cause still set, and the page escalates by FLT_ACTION. -/
  | graceExpiry (addr c : Nat)
  /-- R445: A block reset by escalation completes and the page's registers return to reset values. -/
  | blockResetDone (addr : Nat)
  /-- R449: A W1C write of FLT_CAUSE clears each cause whose condition is not live and refuses the rest. -/
  | faultClear (m addr word : Nat)
  /-- R452: A control core misses its watchdog and FW_WDOG is raised. -/
  | fwWdog
  /-- R455: A write of MGT_EVLOG_IDX latches an event-log entry for the writing master. -/
  | evlogIdxWrite (m word : Nat)
  /-- R454: A write of MGT_EVLOG_MARK writes a MARK entry. -/
  | evlogMark (m word : Nat)
  /-- R461: VSTBY reaches 2.7 V and the power-up sequence runs through to boot. -/
  | powerOnReset (vin hbmKept : Bool)
  /-- R459: VIN below 2.6 V for more than 10 µs turns off every switched domain and puts outputs at safe levels. -/
  | brownOut
  /-- R459: After a brown-out, VIN exceeds 2.7 V and the device powers up again. -/
  | vinRestore
  /-- R460: A junction temperature of 125 °C or more forces a brown-out. -/
  | junctionOvertemp (t : Int)
  /-- R460: The VIN current reaches PWR_ILIM, the core rail folds back and OVERCURRENT is raised. -/
  | overcurrent (i : Nat)
  /-- R502: VIN falls below 2.7 V and the VIN_LOW cause is raised. -/
  | vinLow (mv : Nat)
  /-- R502: A rail goes out of regulation and REG_FAULT is raised, severe at once. -/
  | regFault
  /-- R502: PWR_TJ rises above 105 °C and TJ_HOT is raised, severe at once. -/
  | tjHot (t : Int)
  /-- R460: A completed complement pair writes PWR_ILIM. -/
  | pwrIlimWrite (m comp : Nat)
  /-- R466: RST_N held low for at least 1 µs resets the whole device except the always-on domain. -/
  | rstNAssert
  /-- R461: RST_N rises and the power-up continues from the stage reached. -/
  | rstNRelease
  /-- R467: A partition writes PWR_P_SLEEP.VOTE. -/
  | sleepVote (m n word : Nat)
  /-- R467: SLEEP_REQ rises and, with SREQ_EN, stops running sites ahead of sleep. -/
  | sleepReq
  /-- R468: The device decides to sleep and begins sleep entry. -/
  | sleepDecision
  /-- R468: Sleep entry completes with the stack in self-refresh and domains off, or is cancelled with SLEEP_ABORT. -/
  | sleepEntryDone
  /-- R469: A rising edge on WAKE starts wake. -/
  | wake
  /-- R469: A host requests L1 exit on a port and wake starts. -/
  | l1ExitRequest (n : Nat)
  /-- R469: The device time base reaches PWR_WAKE_TIME and wake starts. -/
  | wakeTime
  /-- R469: The falling edge of SLEEP_REQ starts wake. -/
  | sleepReqFall
  /-- R470: 1,800 µs after the wake source, time bases are set, STATE becomes ON and WAKE_DONE is raised. -/
  | wakeDone (meas : HoldMeas)
  /-- R479: The ROM checks candidate slots from the flash and hands control to the firmware of the first that passes. -/
  | romBoot (facts : FlashFacts)
  /-- R481: Firmware sets BOOT_STAT.READY, confirming a trial boot. -/
  | bootReady
  /-- R481: A trial boot is not confirmed within 5 s, so the ROM restarts and fails the slot with NO_CONFIRM. -/
  | confirmTimeout
  /-- R491: The erasures selected for the RETURN cycle finish and ERASED is blown. -/
  | returnErasureDone
  /-- R482: BOOT_UPD_CMD.WRITE starts writing the inactive slot from pattern space. -/
  | updateWrite (m word : Nat)
  /-- R482: The slot write ends, the slot is WRITTEN or EMPTY and UPD_DONE is raised. -/
  | updDone (ok ue : Bool)
  /-- R482: BOOT_UPD_CMD.PEND sets a WRITTEN inactive slot to PENDING. -/
  | updatePend (m word : Nat)
  /-- R482: BOOT_UPD_CMD.UNPEND returns a PENDING slot to WRITTEN. -/
  | updateUnpend (m word : Nat)
  /-- R484: BOOT_UPD_CMD.RECOVER sets RECOVER in the directory for the next boot. -/
  | recoverRequest (m word : Nat)
  /-- R474: A flash operation completes and the next queued one may start. -/
  | flashOperationDone
  /-- R485: The recovery ERASE command erases a slot and sets it EMPTY. -/
  | recErase
  /-- R485: The recovery WRITE command programs a chunk from the buffer into the slot. -/
  | recWrite
  /-- R485: The recovery VERIFY command checks the slot by Table 19-6. -/
  | recVerify
  /-- R485: The recovery COMMIT command sets the verified slot PENDING and restarts the device. -/
  | recCommit
  /-- R485: A recovery command ends with BUSY = 0 and its result in REC_STAT. -/
  | recCommandDone (ok : Bool) (image : SlotBytes)
  /-- R488: A write of LCS_FUSE_SEL latches the selected fuse word into LCS_FUSE_RD. -/
  | fuseSelect (m word : Nat)
  /-- R488: A complement-pair write of LCS_FUSE_CMD.PROG starts blowing the bits of LCS_FUSE_DATA, or is refused. -/
  | fuseProgram (m comp : Nat)
  /-- R488: Fuse programming ends with its result and FUSE_DONE, or FUSE_ERR on a verify failure. -/
  | fuseDone (blown : Nat)
  /-- R490: A complement-pair write of LCS_TRANS requests a life-cycle transition, which blows its bits and restarts the device. -/
  | lifeCycleTransition (m comp : Nat)
  /-- R493: LCS_ATTEST.GO requests an attestation tag over a challenge. -/
  | attest (m word : Nat)
  /-- R493: Firmware writes the attestation tag and raises ATTEST_DONE. -/
  | attestDone
  /-- R495: The TAP instruction EXTEST drives the boundary cells, with the device held as if RST_N were low. -/
  | extest
  /-- R494: The TAP instruction SAMPLE/PRELOAD samples the balls without effect on the device. -/
  | samplePreload
  /-- R494: The TAP instruction IDCODE selects the identification register. -/
  | idcode
  /-- R495: The TAP instruction CLAMP holds the outputs, with the device held as if RST_N were low. -/
  | clamp
  /-- R495: The TAP instruction HIGHZ places outputs at high impedance, with the device held in reset. -/
  | highz
  /-- R495: The TAP instruction EXTEST_PULSE tests AC-coupled pairs, with the device held in reset. -/
  | extestPulse
  /-- R495: The TAP instruction EXTEST_TRAIN tests AC-coupled pairs with pulse trains, with the device held in reset. -/
  | extestTrain
  /-- R494: The TAP instruction DEBUG connects master 5 in MANUFACTURE and RETURN. -/
  | debug
  /-- R494: The TAP instruction BYPASS, or any unassigned opcode, selects the bypass register. -/
  | bypass
  /-- R496: Every 24 h, firmware measures the ageing monitors against the FACTORY frequencies. -/
  | ageingMeasurement (slow : List (Nat × Nat))
  /-- R497: Firmware files a spare proposal when wear evidence crosses its threshold. -/
  | proposal (kind inst : Nat) (facts : WearFacts)
  /-- R497: A complement-pair write of LCS_PROP_CTL.APPROVE approves a proposal by ID. -/
  | proposalApprove (m comp : Nat)
  /-- R497: A complement-pair write of LCS_PROP_CTL.REJECT rejects a proposal by ID. -/
  | proposalReject (m comp : Nat)
  /-- R498: A complement-pair write of PTB_UNLOCK = 1 unlocks the perturbation page and announces it. -/
  | ptbUnlock (m comp : Nat)
  /-- R498: A write of 0 to PTB_UNLOCK locks the page and clears every slot EN. -/
  | ptbLock (m comp : Nat)
  /-- R498: PTB_TIMEOUT expires after an unlock, and the page locks again. -/
  | ptbTimeout
  /-- R499: A write of a perturbation slot arms or changes a perturbation, or is refused with PTB_CFG. -/
  | ptbSlotWrite (m k r word : Nat)
  /-- R499: An armed perturbation injects its disturbance at its rate or once. -/
  | ptbInjection (k : Nat)
  /-- R79: The PRBS31 checker, seeded from 31 received bits, sees 64 further error-free bits and sets CHK_LOCK. -/
  | chkLock (l : Nat)
  /-- R79: The PRBS31 checker sees 64 or more errors within 1,024 bits, clears CHK_LOCK and reseeds. -/
  | chkLockLoss (l errs : Nat)
  /-- R461: Link training of a PCIe port completes, the data link comes up and HIF_DEV_STAT.PORT_UP sets. -/
  | dataLinkUp (n speed width : Nat)
  /-- R490: The fuse bits of an accepted life-cycle transition are blown and verified, TRANS_DONE is raised, BUSY clears and the device restarts as after RST_N. -/
  | transDone (lc erase : Nat)
  /-- R459: VSTBY is removed, and the device holds every regulator off whatever VIN does, the path to a full power-on reset. -/
  | vstbyLoss
  /-- R502: VIN rises back to 2.7 V or more without a brown-out, PWR_STAT.VIN_OK sets and the VIN_LOW condition stops being live. -/
  | vinOk (mv : Nat)
  /-- R460: The VIN current falls below PWR_ILIM, the core-rail fold-back ends and the OVERCURRENT condition stops being live. -/
  | currentBelowLimit (i : Nat)
  /-- R502: A rail returns to regulation and the REG_FAULT condition stops being live. -/
  | railInRegulation
  /-- R502: The junction temperature reading falls to 105 °C or below and the TJ_HOT condition stops being live. -/
  | tjBelowLimit (t : Int)
deriving DecidableEq, Repr

end Sys2Proof
end

