-- ==== Sys2Proof/Decode.lean ====
section
/-! DEFINITION. The words of the command table. Every row of spec/opcode_table.json has an empty list of fields: commands of this block are not
encoded in words, so no word spells one. -/

namespace Sys2Proof

/-- The command that a word of the table spells: none, since no row of the table gives bits. -/
def decodeTableWord (_nbits _w : Nat) : Option Instr := none

end Sys2Proof
end

