-- ==== Sys2Proof/Config.lean ====
section
/-! DEFINITION. What an implementation of the DRL-5256 fixes and the spec leaves open: free values, as opaque constants without a body.
No proof can see a value of them, so a claim holds whatever they are (assumption log 3). -/

namespace Sys2Proof

/-- A fresh open value each time it is asked: the model applies it to the counter `State.freeCtr`, which the step advances (log 3).
Used wherever the spec says that a value results and does not say which. -/
opaque Config.freeValue : Nat → BitVec 64

/-- The 32 data bits of a word of the engine microcode (R167): part version and word address. The microword format is internal to the maker's firmware, and the
spec gives no microcode (log 95). -/
opaque Config.microcode : Nat → Nat → BitVec 32

/-- The subsystem vendor ID and subsystem ID where no manifest gives them (log 102): 0 of the slot that was booted before the state of reset, 1 of the recovery function
(Tables 15-7 and 19-5). -/
opaque Config.subsystem : Nat → BitVec 32

/-- The stack has a spare row for a listed row, given the rows it has repaired (R396): the spec gives no count of spare rows (log 37). -/
opaque Config.spareRow : List Nat → Nat → Bool

/-- The nominal values built into Nelhiest (R359), by class, bank, slot and place in the payload: the spec gives no value (log 103). -/
opaque Config.calNominal : Nat → Nat → Nat → Nat → Int

end Sys2Proof
end

