-- ==== Sys2Proof/Machine/Page.lean ====
section
/-! DEFINITION. Register pages (R422, R423) and register fields. A field is named by its page and its place in the page; its one key is the
bit address of its lowest bit with its row's number. -/

namespace Sys2Proof.Machine

/-- The register pages of BAR0 (Table 16-1 and the page tables of the block chapters), the BAR4 of each port (R421) and the BAR0 of the
recovery function (Table 19-9). -/
inductive Page where
  | mgtDev | mgtPart (n : Nat)
  | hifDev | hifPart (n : Nat)
  | timDev | timPart (n : Nat) | timPulse (p : Nat)
  | tlkCtl | tlkPort (n : Nat) | tlkLane (l : Nat)
  | disDev | disPart (n : Nat) | disGrp (g : Nat)
  | eng (e : Nat)
  | bnk (b : Nat)
  | cmpDev | cmpPart (n : Nat) | cmpPin (g : Nat)
  | acqDev | acqTo (t : Nat)
  | edg
  | au (u : Nat)
  | calDev | calPart (n : Nat)
  | memDev | memPart (n : Nat)
  | pwrDev | pwrPart (n : Nat)
  | boot | lcs | ptb
  | bar4 (p : Nat)
  | recov
deriving DecidableEq, Repr

/-- Base address of a page in BAR0 (Table 16-1). BAR4 of port p and the recovery BAR0 are not in BAR0: they stand at bases above its
16 MiB, so that one address space holds them all (log 5). -/
def pageBase : Page → Nat
  | .mgtDev => 0 | .mgtPart n => 0x1000 + n * 0x1000
  | .hifDev => 0x10000 | .hifPart n => 0x11000 + n * 0x1000
  | .timDev => 0x20000 | .timPart n => 0x21000 + n * 0x1000 | .timPulse p => 0x25000 + p * 0x1000
  | .tlkCtl => 0x30000 | .tlkPort n => 0x31000 + n * 0x1000 | .tlkLane l => 0x33000 + l * 0x1000
  | .disDev => 0x40000 | .disPart n => 0x41000 + n * 0x1000 | .disGrp g => 0x48000 + g * 0x1000
  | .eng e => 0x50000 + e * 0x1000
  | .bnk b => 0x100000 + b * 0x10000
  | .cmpDev => 0x200000 | .cmpPart n => 0x201000 + n * 0x1000 | .cmpPin g => 0x208000 + g * 0x1000
  | .acqDev => 0x210000 | .acqTo t => 0x211000 + t * 0x1000
  | .edg => 0x220000
  | .au u => 0x230000 + u * 0x10000
  | .calDev => 0x400000 | .calPart n => 0x401000 + n * 0x1000
  | .memDev => 0x410000 | .memPart n => 0x411000 + n * 0x1000
  | .pwrDev => 0x420000 | .pwrPart n => 0x421000 + n * 0x1000
  | .boot => 0x430000 | .lcs => 0x431000 | .ptb => 0x440000
  | .bar4 p => 0x10000000 + p * 0x10000000
  | .recov => 0x50000000

/-- Size of a page in bytes: 64 KiB for BNK and AU pages, 1 MiB for a BAR4, 64 KiB for the recovery BAR0, 4 KiB for every other (R422). -/
def pageSize : Page → Nat
  | .bnk _ => 0x10000 | .au _ => 0x10000 | .bar4 _ => 0x100000 | .recov => 0x10000
  | _ => 0x1000

/-- The indices of a page are those the spec gives (Table 16-1). -/
def pageOk : Page → Bool
  | .mgtPart n => n < 4 | .hifPart n => n < 4 | .timPart n => n < 4 | .timPulse p => p < 4
  | .tlkPort n => n < 2 | .tlkLane l => l < 3 | .disPart n => n < 4 | .disGrp g => g < 8
  | .eng e => e < 68 | .bnk b => b < 16 | .cmpPart n => n < 4 | .cmpPin g => g < 4
  | .acqTo t => t < 4 | .au u => u < 19 | .calPart n => n < 4 | .memPart n => n < 4
  | .pwrPart n => n < 4 | .bar4 p => p < 4
  | _ => true

/-- Block type code of a page (Table 16-1). -/
def pageType : Page → Nat
  | .mgtDev => 1 | .mgtPart _ => 1 | .hifDev => 2 | .hifPart _ => 2
  | .timDev => 3 | .timPart _ => 3 | .timPulse _ => 3
  | .tlkCtl => 4 | .tlkPort _ => 4 | .tlkLane _ => 4
  | .disDev => 5 | .disPart _ => 5 | .disGrp _ => 5 | .eng _ => 6 | .bnk _ => 7
  | .cmpDev => 8 | .cmpPart _ => 8 | .cmpPin _ => 8 | .acqDev => 9 | .acqTo _ => 9
  | .edg => 10 | .au _ => 11 | .calDev => 12 | .calPart _ => 12 | .memDev => 13 | .memPart _ => 13
  | .pwrDev => 14 | .pwrPart _ => 14 | .boot => 15 | .lcs => 16 | .ptb => 17
  | .bar4 _ => 0 | .recov => 0

/-- Instance number of a page, as each block's page table gives it. -/
def pageInst : Page → Nat
  | .mgtPart n => 1 + n | .hifPart n => 1 + n | .timPart n => 1 + n | .timPulse p => 5 + p
  | .tlkPort n => 1 + n | .tlkLane l => 3 + l | .disPart n => 1 + n | .disGrp g => 5 + g
  | .eng e => e | .bnk b => b | .cmpPart n => 1 + n | .cmpPin g => 5 + g | .acqTo t => 1 + t
  | .au u => u | .calPart n => 1 + n | .memPart n => 1 + n | .pwrPart n => 1 + n
  | _ => 0

/-- Every page of BAR0, in address order. -/
def allPages : List Page :=
  [.mgtDev] ++ (List.range 4).map .mgtPart ++ [.hifDev] ++ (List.range 4).map .hifPart ++
  [.timDev] ++ (List.range 4).map .timPart ++ (List.range 4).map .timPulse ++
  [.tlkCtl] ++ (List.range 2).map .tlkPort ++ (List.range 3).map .tlkLane ++
  [.disDev] ++ (List.range 4).map .disPart ++ (List.range 8).map .disGrp ++
  (List.range 68).map .eng ++ (List.range 16).map .bnk ++
  [.cmpDev] ++ (List.range 4).map .cmpPart ++ (List.range 4).map .cmpPin ++
  [.acqDev] ++ (List.range 4).map .acqTo ++ [.edg] ++ (List.range 19).map .au ++
  [.calDev] ++ (List.range 4).map .calPart ++ [.memDev] ++ (List.range 4).map .memPart ++
  [.pwrDev] ++ (List.range 4).map .pwrPart ++ [.boot, .lcs, .ptb]

/-- The page and the offset in it of a BAR0 address; `none` outside every page (R422). -/
def pageOfAddr (a : Nat) : Option (Page × Nat) :=
  (allPages.find? fun p => decide (pageBase p ≤ a) && decide (a < pageBase p + pageSize p)).map
    fun p => (p, a - pageBase p)

/-- A register field: byte offset of its (low) word in the page, lowest bit, width, reset value, and the number of its row among the register tables (below 1024; the
entries of an array share their row's). A field of more than 32 bits runs on into the next word (R435). -/
structure Fld where
  off : Nat
  lo : Nat
  width : Nat
  reset : Nat
  num : Nat
deriving DecidableEq, Repr

/-- The one key of a field: the bit address of its lowest bit, and its row's number. -/
def fldKey (p : Page) (f : Fld) : Nat := ((pageBase p + f.off) * 64 + f.lo) * 1024 + f.num

/-- Access codes of Table 0-3 without the qualifiers PRV and CPL. -/
inductive Acc where
  | ro | rw | w1c | w1s | wo | rc | rwl
deriving DecidableEq, Repr

/-- One row of a register table: a field of entry i, repeated `count` times at `stride` bytes, its access code and the qualifiers of R13. -/
structure RegRow where
  fld : Nat → Fld
  stride : Nat
  count : Nat
  acc : Acc
  prv : Bool
  cpl : Bool

end Sys2Proof.Machine
end

