-- ==== Sys2Proof/Machine/RegMap.lean ====
section
/-! DEFINITION. The register fields of every page, from the register tables of the spec, one named field per row: place, width and reset
value; then the rows of each page with their access codes (Table 0-3). A reset value the spec leaves to fuses, manifest or flash is 0
unless another is named (log 6). -/

namespace Sys2Proof.Machine

/-! ### TIM device page (Table 2-2) and, with the same offsets, partition time bases (R63) -/

/-- `TIM_REF_CTRL_SEL` (Table 2-2). -/
def F.TIM_REF_CTRL_SEL : Fld := ⟨0x100, 0, 2, 2, 1⟩
/-- `TIM_REF_CTRL_REVERT` (Table 2-2). -/
def F.TIM_REF_CTRL_REVERT : Fld := ⟨0x100, 2, 1, 0, 2⟩
/-- `TIM_REF_CTRL_SLEW` (Table 2-2). -/
def F.TIM_REF_CTRL_SLEW : Fld := ⟨0x100, 8, 8, 0xa, 3⟩
/-- `TIM_REF_CTRL_QUAL` (Table 2-2). -/
def F.TIM_REF_CTRL_QUAL : Fld := ⟨0x100, 16, 8, 1, 4⟩
/-- `TIM_REF_STAT_ACTIVE` (Table 2-2). -/
def F.TIM_REF_STAT_ACTIVE : Fld := ⟨0x104, 0, 2, 2, 5⟩
/-- `TIM_REF_STAT_HOLDOVER` (Table 2-2). -/
def F.TIM_REF_STAT_HOLDOVER : Fld := ⟨0x104, 2, 1, 0, 6⟩
/-- `TIM_REF_STAT_SLEWING` (Table 2-2). -/
def F.TIM_REF_STAT_SLEWING : Fld := ⟨0x104, 3, 1, 0, 7⟩
/-- `TIM_REF_STAT_REFCLK_OK` (Table 2-2). -/
def F.TIM_REF_STAT_REFCLK_OK : Fld := ⟨0x104, 4, 1, 0, 8⟩
/-- `TIM_REF_STAT_TL0_OK` (Table 2-2). -/
def F.TIM_REF_STAT_TL0_OK : Fld := ⟨0x104, 5, 1, 0, 9⟩
/-- `TIM_REF_STAT_XTAL_OK` (Table 2-2). -/
def F.TIM_REF_STAT_XTAL_OK : Fld := ⟨0x104, 6, 1, 1, 10⟩
/-- `TIM_HOLD_EST` (Table 2-2). -/
def F.TIM_HOLD_EST : Fld := ⟨0x108, 0, 32, 0, 11⟩
/-- `TIM_HOLD_TIME` (Table 2-2). -/
def F.TIM_HOLD_TIME : Fld := ⟨0x10c, 0, 32, 0, 12⟩
/-- `TIM_AGEING_AGE` (Table 2-2). -/
def F.TIM_AGEING_AGE : Fld := ⟨0x110, 0, 16, 0, 13⟩
/-- `TIM_AGEING_AGE_UNC` (Table 2-2). -/
def F.TIM_AGEING_AGE_UNC : Fld := ⟨0x110, 16, 16, 0x100, 14⟩
/-- `TIM_FREQ_UNC` (Table 2-2). -/
def F.TIM_FREQ_UNC : Fld := ⟨0x114, 0, 32, 0, 15⟩
/-- `TIM_XTAL_OFFS` (Table 2-2). -/
def F.TIM_XTAL_OFFS : Fld := ⟨0x118, 0, 32, 0, 16⟩
/-- `TIM_HOLD_LIM` (Table 2-2). -/
def F.TIM_HOLD_LIM : Fld := ⟨0x11c, 0, 32, 0xffffffff, 17⟩
/-- `TIM_DTB_SUBNS` (Table 2-2). -/
def F.TIM_DTB_SUBNS : Fld := ⟨0x120, 0, 16, 0, 18⟩
/-- `TIM_DTB_NS` (Table 2-2). -/
def F.TIM_DTB_NS : Fld := ⟨0x124, 0, 32, 0, 19⟩
/-- `TIM_DTB_SEC_LO` (Table 2-2). -/
def F.TIM_DTB_SEC_LO : Fld := ⟨0x128, 0, 32, 0, 20⟩
/-- `TIM_DTB_SEC_HI` (Table 2-2). -/
def F.TIM_DTB_SEC_HI : Fld := ⟨0x12c, 0, 16, 0, 21⟩
/-- `TIM_DTB_INC_LO` (Table 2-2). -/
def F.TIM_DTB_INC_LO : Fld := ⟨0x130, 0, 32, 0, 22⟩
/-- `TIM_DTB_INC_HI` (Table 2-2). -/
def F.TIM_DTB_INC_HI : Fld := ⟨0x134, 0, 16, 0xa, 23⟩
/-- `TIM_DTB_ADJ_LO` (Table 2-2). -/
def F.TIM_DTB_ADJ_LO : Fld := ⟨0x138, 0, 32, 0, 24⟩
/-- `TIM_DTB_ADJ_HI` (Table 2-2). -/
def F.TIM_DTB_ADJ_HI : Fld := ⟨0x13c, 0, 32, 0, 25⟩
/-- `TIM_DTB_SET_SUBNS` (Table 2-2). -/
def F.TIM_DTB_SET_SUBNS : Fld := ⟨0x140, 0, 16, 0, 26⟩
/-- `TIM_DTB_SET_NS` (Table 2-2). -/
def F.TIM_DTB_SET_NS : Fld := ⟨0x144, 0, 32, 0, 27⟩
/-- `TIM_DTB_SET_SEC_LO` (Table 2-2). -/
def F.TIM_DTB_SET_SEC_LO : Fld := ⟨0x148, 0, 32, 0, 28⟩
/-- `TIM_DTB_SET_SEC_HI` (Table 2-2). -/
def F.TIM_DTB_SET_SEC_HI : Fld := ⟨0x14c, 0, 16, 0, 29⟩
/-- `TIM_DTB_CMD_INC_GO` (Table 2-2). -/
def F.TIM_DTB_CMD_INC_GO : Fld := ⟨0x150, 0, 1, 0, 30⟩
/-- `TIM_DTB_CMD_ADJ_GO` (Table 2-2). -/
def F.TIM_DTB_CMD_ADJ_GO : Fld := ⟨0x150, 1, 1, 0, 31⟩
/-- `TIM_DTB_CMD_SET_GO` (Table 2-2). -/
def F.TIM_DTB_CMD_SET_GO : Fld := ⟨0x150, 2, 1, 0, 32⟩
/-- `TIM_TP_OWNER` (Table 2-2). -/
def F.TIM_TP_OWNER : Fld := ⟨0x154, 0, 8, 0, 33⟩

/-! ### TIM site table (Table 2-5) -/

/-- `EPOCH_SUBNS` of entry i (Table 2-5). -/
def F.EPOCH_SUBNS (i : Nat) : Fld := ⟨0x400 + 0x20 * i, 0, 16, 0, 34⟩
/-- `EPOCH_NS` of entry i (Table 2-5). -/
def F.EPOCH_NS (i : Nat) : Fld := ⟨0x404 + 0x20 * i, 0, 32, 0, 35⟩
/-- `EPOCH_SEC_LO` of entry i (Table 2-5). -/
def F.EPOCH_SEC_LO (i : Nat) : Fld := ⟨0x408 + 0x20 * i, 0, 32, 0, 36⟩
/-- `EPOCH_SEC_HI` of entry i (Table 2-5). -/
def F.EPOCH_SEC_HI (i : Nat) : Fld := ⟨0x40c + 0x20 * i, 0, 16, 0, 37⟩
/-- `SITE_VALID` of entry i (Table 2-5). -/
def F.SITE_VALID (i : Nat) : Fld := ⟨0x40c + 0x20 * i, 16, 1, 0, 38⟩
/-- `SITE_LATE` of entry i (Table 2-5). -/
def F.SITE_LATE (i : Nat) : Fld := ⟨0x40c + 0x20 * i, 17, 1, 0, 39⟩
/-- `SITE_RUNNING` of entry i (Table 2-5). -/
def F.SITE_RUNNING (i : Nat) : Fld := ⟨0x40c + 0x20 * i, 18, 1, 0, 40⟩
/-- `SITE_VCOUNT` of entry i (Table 2-5). -/
def F.SITE_VCOUNT (i : Nat) : Fld := ⟨0x410 + 0x20 * i, 0, 64, 0, 41⟩
/-- `SITE_DRIFT` of entry i (Table 2-5). -/
def F.SITE_DRIFT (i : Nat) : Fld := ⟨0x418 + 0x20 * i, 0, 64, 0, 42⟩

/-! ### TIM pulse page (Table 2-6) -/

/-- `TIM_TP_CTRL_MODE` (Table 2-6). -/
def F.TIM_TP_CTRL_MODE : Fld := ⟨0x100, 0, 2, 0, 43⟩
/-- `TIM_TP_CTRL_TBSEL` (Table 2-6). -/
def F.TIM_TP_CTRL_TBSEL : Fld := ⟨0x100, 2, 1, 0, 44⟩
/-- `TIM_TP_CTRL_POL` (Table 2-6). -/
def F.TIM_TP_CTRL_POL : Fld := ⟨0x100, 3, 1, 0, 45⟩
/-- `TIM_TP_STAT_ARMED` (Table 2-6). -/
def F.TIM_TP_STAT_ARMED : Fld := ⟨0x104, 0, 1, 0, 46⟩
/-- `TIM_TP_STAT_ACTIVE` (Table 2-6). -/
def F.TIM_TP_STAT_ACTIVE : Fld := ⟨0x104, 1, 1, 0, 47⟩
/-- `TIM_TP_FIRED` (Table 2-6). -/
def F.TIM_TP_FIRED : Fld := ⟨0x108, 0, 32, 0, 48⟩
/-- `TIM_TP_SKIP` (Table 2-6). -/
def F.TIM_TP_SKIP : Fld := ⟨0x10c, 0, 32, 0, 49⟩
/-- `TIM_TP_START_SUBNS` (Table 2-6). -/
def F.TIM_TP_START_SUBNS : Fld := ⟨0x110, 0, 16, 0, 50⟩
/-- `TIM_TP_START_NS` (Table 2-6). -/
def F.TIM_TP_START_NS : Fld := ⟨0x114, 0, 32, 0, 51⟩
/-- `TIM_TP_START_SEC_LO` (Table 2-6). -/
def F.TIM_TP_START_SEC_LO : Fld := ⟨0x118, 0, 32, 0, 52⟩
/-- `TIM_TP_START_SEC_HI` (Table 2-6). -/
def F.TIM_TP_START_SEC_HI : Fld := ⟨0x11c, 0, 16, 0, 53⟩
/-- `TIM_TP_PER_SUBNS` (Table 2-6). -/
def F.TIM_TP_PER_SUBNS : Fld := ⟨0x120, 0, 16, 0, 54⟩
/-- `TIM_TP_PER_NS` (Table 2-6). -/
def F.TIM_TP_PER_NS : Fld := ⟨0x124, 0, 32, 0, 55⟩
/-- `TIM_TP_WIDTH` (Table 2-6). -/
def F.TIM_TP_WIDTH : Fld := ⟨0x128, 0, 24, 0, 56⟩

/-! ### TLK control page (Table 3-7) -/

/-- `TLK_CTRL_ROLE` (Table 3-7). -/
def F.TLK_CTRL_ROLE : Fld := ⟨0x100, 0, 2, 0, 57⟩
/-- `TLK_CTRL_TBSEL` (Table 3-7). -/
def F.TLK_CTRL_TBSEL : Fld := ⟨0x100, 2, 3, 0, 58⟩
/-- `TLK_CTRL_SERVO_EN` (Table 3-7). -/
def F.TLK_CTRL_SERVO_EN : Fld := ⟨0x100, 5, 1, 0, 59⟩
/-- `TLK_CTRL_DOMAIN` (Table 3-7). -/
def F.TLK_CTRL_DOMAIN : Fld := ⟨0x100, 8, 8, 0, 60⟩
/-- `TLK_CLK_ID_LO` (Table 3-7). -/
def F.TLK_CLK_ID_LO : Fld := ⟨0x104, 0, 32, 0, 61⟩
/-- `TLK_CLK_ID_HI` (Table 3-7). -/
def F.TLK_CLK_ID_HI : Fld := ⟨0x108, 0, 32, 0, 62⟩
/-- `TLK_MAC_LO` (Table 3-7). -/
def F.TLK_MAC_LO : Fld := ⟨0x10c, 0, 32, 0, 63⟩
/-- `TLK_MAC_HI` (Table 3-7). -/
def F.TLK_MAC_HI : Fld := ⟨0x110, 0, 16, 0, 64⟩
/-- `TLK_MAP_TL0_LANE` (Table 3-7). -/
def F.TLK_MAP_TL0_LANE : Fld := ⟨0x114, 0, 2, 0, 65⟩
/-- `TLK_MAP_TL1_LANE` (Table 3-7). -/
def F.TLK_MAP_TL1_LANE : Fld := ⟨0x114, 2, 2, 1, 66⟩
/-- `TLK_SERVO_GAIN_KP` (Table 3-7). -/
def F.TLK_SERVO_GAIN_KP : Fld := ⟨0x118, 0, 16, 0xb3, 67⟩
/-- `TLK_SERVO_GAIN_KI` (Table 3-7). -/
def F.TLK_SERVO_GAIN_KI : Fld := ⟨0x118, 16, 16, 0x4d, 68⟩
/-- `TLK_SERVO_STEP` (Table 3-7). -/
def F.TLK_SERVO_STEP : Fld := ⟨0x11c, 0, 32, 0x3e8, 69⟩
/-- `TLK_GM_DS` (Table 3-7). -/
def F.TLK_GM_DS : Fld := ⟨0x120, 0, 32, 0x80fefef8, 70⟩
/-- `TLK_HOLD_CLASS` (Table 3-7). -/
def F.TLK_HOLD_CLASS : Fld := ⟨0x124, 0, 8, 7, 71⟩

/-! ### TLK port page (Table 3-9) -/

/-- `TLK_P_CTRL_EN` (Table 3-9). -/
def F.TLK_P_CTRL_EN : Fld := ⟨0x100, 0, 1, 0, 72⟩
/-- `TLK_P_CTRL_DM` (Table 3-9). -/
def F.TLK_P_CTRL_DM : Fld := ⟨0x100, 1, 2, 0, 73⟩
/-- `TLK_P_CTRL_NOPART_FLT` (Table 3-9). -/
def F.TLK_P_CTRL_NOPART_FLT : Fld := ⟨0x100, 3, 1, 0, 74⟩
/-- `TLK_P_STAT_LINK` (Table 3-9). -/
def F.TLK_P_STAT_LINK : Fld := ⟨0x104, 0, 3, 0, 75⟩
/-- `TLK_P_STAT_PTP` (Table 3-9). -/
def F.TLK_P_STAT_PTP : Fld := ⟨0x104, 4, 3, 0, 76⟩
/-- `TLK_P_STAT_STEPS` (Table 3-9). -/
def F.TLK_P_STAT_STEPS : Fld := ⟨0x104, 8, 8, 0, 77⟩
/-- `TLK_P_INTV_SYNC` (Table 3-9). -/
def F.TLK_P_INTV_SYNC : Fld := ⟨0x108, 0, 8, 0xfd, 78⟩
/-- `TLK_P_INTV_DREQ` (Table 3-9). -/
def F.TLK_P_INTV_DREQ : Fld := ⟨0x108, 8, 8, 0xfd, 79⟩
/-- `TLK_P_INTV_ANN` (Table 3-9). -/
def F.TLK_P_INTV_ANN : Fld := ⟨0x108, 16, 8, 0, 80⟩
/-- `TLK_P_INTV_ART` (Table 3-9). -/
def F.TLK_P_INTV_ART : Fld := ⟨0x108, 24, 8, 3, 81⟩
/-- `TLK_P_ASYM` (Table 3-9). -/
def F.TLK_P_ASYM : Fld := ⟨0x10c, 0, 32, 0, 82⟩
/-- `TLK_P_OFFSET` (Table 3-9). -/
def F.TLK_P_OFFSET : Fld := ⟨0x110, 0, 64, 0, 83⟩
/-- `TLK_P_MPD` (Table 3-9). -/
def F.TLK_P_MPD : Fld := ⟨0x118, 0, 64, 0, 84⟩
/-- `SYNC_TX` (Table 3-9). -/
def F.SYNC_TX : Fld := ⟨0x50, 0, 32, 0, 85⟩
/-- `SYNC_RX` (Table 3-9). -/
def F.SYNC_RX : Fld := ⟨0x54, 0, 32, 0, 86⟩
/-- `RX_DROP` (Table 3-9). -/
def F.RX_DROP : Fld := ⟨0x58, 0, 32, 0, 87⟩
/-- `SEQ_MISMATCH` (Table 3-9). -/
def F.SEQ_MISMATCH : Fld := ⟨0x5c, 0, 32, 0, 88⟩
/-- `DM_MISMATCH` (Table 3-9). -/
def F.DM_MISMATCH : Fld := ⟨0x60, 0, 32, 0, 89⟩
/-- `TLK_RETRIES` (Table 3-9). -/
def F.TLK_RETRIES : Fld := ⟨0x64, 0, 32, 0, 90⟩

/-! ### TLK lane page (Table 3-10) -/

/-- `TLK_L_TXEQ_C_PRE` (Table 3-10). -/
def F.TLK_L_TXEQ_C_PRE : Fld := ⟨0x100, 0, 4, 0, 91⟩
/-- `TLK_L_TXEQ_C_MAIN` (Table 3-10). -/
def F.TLK_L_TXEQ_C_MAIN : Fld := ⟨0x100, 8, 6, 0x36, 92⟩
/-- `TLK_L_TXEQ_C_POST` (Table 3-10). -/
def F.TLK_L_TXEQ_C_POST : Fld := ⟨0x100, 16, 5, 9, 93⟩
/-- `TLK_L_RXCTRL_FREEZE` (Table 3-10). -/
def F.TLK_L_RXCTRL_FREEZE : Fld := ⟨0x104, 0, 1, 0, 94⟩
/-- `TLK_L_RXCTRL_PRESET` (Table 3-10). -/
def F.TLK_L_RXCTRL_PRESET : Fld := ⟨0x104, 1, 1, 0, 95⟩
/-- `TLK_L_RXSTAT_BLOCK_LOCK` (Table 3-10). -/
def F.TLK_L_RXSTAT_BLOCK_LOCK : Fld := ⟨0x108, 0, 1, 0, 96⟩
/-- `TLK_L_RXSTAT_HI_BER` (Table 3-10). -/
def F.TLK_L_RXSTAT_HI_BER : Fld := ⟨0x108, 1, 1, 0, 97⟩
/-- `TLK_L_RXSTAT_FROZEN` (Table 3-10). -/
def F.TLK_L_RXSTAT_FROZEN : Fld := ⟨0x108, 2, 1, 0, 98⟩
/-- `TLK_L_RXSTAT_DENSITY` (Table 3-10). -/
def F.TLK_L_RXSTAT_DENSITY : Fld := ⟨0x108, 8, 7, 0, 99⟩
/-- `TLK_L_PRBS_GEN_EN` (Table 3-10). -/
def F.TLK_L_PRBS_GEN_EN : Fld := ⟨0x10c, 0, 1, 0, 100⟩
/-- `TLK_L_PRBS_CHK_EN` (Table 3-10). -/
def F.TLK_L_PRBS_CHK_EN : Fld := ⟨0x10c, 1, 1, 0, 101⟩
/-- `TLK_L_PRBS_INJ_ONE` (Table 3-10). -/
def F.TLK_L_PRBS_INJ_ONE : Fld := ⟨0x10c, 2, 1, 0, 102⟩
/-- `TLK_L_PRBS_INJ_RATE` (Table 3-10). -/
def F.TLK_L_PRBS_INJ_RATE : Fld := ⟨0x10c, 8, 6, 0, 103⟩
/-- `TLK_L_PRBS_CHK_LOCK` (Table 3-10). -/
def F.TLK_L_PRBS_CHK_LOCK : Fld := ⟨0x10c, 16, 1, 0, 104⟩
/-- `TLK_L_PRBS_ERR` (Table 3-10). -/
def F.TLK_L_PRBS_ERR : Fld := ⟨0x110, 0, 32, 0, 105⟩
/-- `TLK_L_TX_LAT` (Table 3-10). -/
def F.TLK_L_TX_LAT : Fld := ⟨0x118, 0, 32, 0, 106⟩
/-- `TLK_L_RX_LAT` (Table 3-10). -/
def F.TLK_L_RX_LAT : Fld := ⟨0x11c, 0, 32, 0, 107⟩

/-! ### CMP site control (Table 4-10) -/

/-- `CMP_SITE_STATE_STATE` of entry i (Table 4-10). -/
def F.CMP_SITE_STATE_STATE (i : Nat) : Fld := ⟨0x800 + 0x10 * i, 0, 4, 0, 108⟩
/-- `CMP_SITE_STATE_ALT_LATE` of entry i (Table 4-10). -/
def F.CMP_SITE_STATE_ALT_LATE (i : Nat) : Fld := ⟨0x800 + 0x10 * i, 8, 1, 0, 109⟩
/-- `CMP_SITE_STATE_HALT_PEND` of entry i (Table 4-10). -/
def F.CMP_SITE_STATE_HALT_PEND (i : Nat) : Fld := ⟨0x800 + 0x10 * i, 9, 1, 0, 110⟩
/-- `CMP_SITE_STATE_PEND` of entry i (Table 4-10). -/
def F.CMP_SITE_STATE_PEND (i : Nat) : Fld := ⟨0x800 + 0x10 * i, 16, 2, 0, 111⟩
/-- `CMP_SITE_CAUSES` of entry i (Table 4-10). -/
def F.CMP_SITE_CAUSES (i : Nat) : Fld := ⟨0x804 + 0x10 * i, 0, 7, 0, 112⟩
/-- `CMP_SITE_JREQ_ALT` of entry i (Table 4-10). -/
def F.CMP_SITE_JREQ_ALT (i : Nat) : Fld := ⟨0x808 + 0x10 * i, 0, 2, 0, 113⟩
/-- `CMP_SITE_FLAGS_FLAG0` of entry i (Table 4-10). -/
def F.CMP_SITE_FLAGS_FLAG0 (i : Nat) : Fld := ⟨0x80c + 0x10 * i, 0, 1, 0, 114⟩
/-- `CMP_SITE_FLAGS_FLAG1_3` of entry i (Table 4-10). -/
def F.CMP_SITE_FLAGS_FLAG1_3 (i : Nat) : Fld := ⟨0x80c + 0x10 * i, 1, 3, 0, 115⟩
/-- `CMP_SITE_FLAGS_JDISC` of entry i (Table 4-10). -/
def F.CMP_SITE_FLAGS_JDISC (i : Nat) : Fld := ⟨0x80c + 0x10 * i, 16, 16, 0, 116⟩

/-! ### DIS device page (Table 6-13) -/

/-- `DIS_TICK` (Table 6-13). -/
def F.DIS_TICK : Fld := ⟨0x100, 0, 64, 0, 117⟩
/-- `DIS_POOL_A_FREE` (Table 6-13). -/
def F.DIS_POOL_A_FREE : Fld := ⟨0x108, 0, 14, 0x2000, 118⟩
/-- `DIS_POOL_A_WAITING` (Table 6-13). -/
def F.DIS_POOL_A_WAITING : Fld := ⟨0x108, 16, 14, 0, 119⟩
/-- `DIS_POOL_B_READY` (Table 6-13). -/
def F.DIS_POOL_B_READY : Fld := ⟨0x10c, 0, 14, 0, 120⟩
/-- `DIS_POOL_B_SERVICE` (Table 6-13). -/
def F.DIS_POOL_B_SERVICE : Fld := ⟨0x10c, 16, 14, 0, 121⟩
/-- `DIS_POOL_C_RETIRING` (Table 6-13). -/
def F.DIS_POOL_C_RETIRING : Fld := ⟨0x110, 0, 14, 0, 122⟩
/-- `DIS_POOL_C_HANDOVER` (Table 6-13). -/
def F.DIS_POOL_C_HANDOVER : Fld := ⟨0x110, 16, 1, 0, 123⟩
/-- `DIS_SHARE_0` (Table 6-13). -/
def F.DIS_SHARE_0 : Fld := ⟨0x114, 0, 7, 0x10, 124⟩
/-- `DIS_SHARE_1` (Table 6-13). -/
def F.DIS_SHARE_1 : Fld := ⟨0x114, 8, 7, 0x10, 125⟩
/-- `DIS_SHARE_2` (Table 6-13). -/
def F.DIS_SHARE_2 : Fld := ⟨0x114, 16, 7, 0x10, 126⟩
/-- `DIS_SHARE_3` (Table 6-13). -/
def F.DIS_SHARE_3 : Fld := ⟨0x114, 24, 7, 0x10, 127⟩
/-- `DIS_SHARE_ACT_0` (Table 6-13). -/
def F.DIS_SHARE_ACT_0 : Fld := ⟨0x118, 0, 7, 0x10, 128⟩
/-- `DIS_SHARE_ACT_1` (Table 6-13). -/
def F.DIS_SHARE_ACT_1 : Fld := ⟨0x118, 8, 7, 0x10, 129⟩
/-- `DIS_SHARE_ACT_2` (Table 6-13). -/
def F.DIS_SHARE_ACT_2 : Fld := ⟨0x118, 16, 7, 0x10, 130⟩
/-- `DIS_SHARE_ACT_3` (Table 6-13). -/
def F.DIS_SHARE_ACT_3 : Fld := ⟨0x118, 24, 7, 0x10, 131⟩
/-- `DIS_POOL_QUOTA_0` (Table 6-13). -/
def F.DIS_POOL_QUOTA_0 : Fld := ⟨0x11c, 0, 14, 0x800, 132⟩
/-- `DIS_POOL_QUOTA_1` (Table 6-13). -/
def F.DIS_POOL_QUOTA_1 : Fld := ⟨0x11c, 16, 14, 0x800, 133⟩
/-- `DIS_POOL_QUOTA_2` (Table 6-13). -/
def F.DIS_POOL_QUOTA_2 : Fld := ⟨0x120, 0, 14, 0x800, 134⟩
/-- `DIS_POOL_QUOTA_3` (Table 6-13). -/
def F.DIS_POOL_QUOTA_3 : Fld := ⟨0x120, 16, 14, 0x800, 135⟩
/-- `DIS_WAY_QUOTA_0` (Table 6-13). -/
def F.DIS_WAY_QUOTA_0 : Fld := ⟨0x124, 0, 13, 0x400, 136⟩
/-- `DIS_WAY_QUOTA_1` (Table 6-13). -/
def F.DIS_WAY_QUOTA_1 : Fld := ⟨0x124, 16, 13, 0x400, 137⟩
/-- `DIS_WAY_QUOTA_2` (Table 6-13). -/
def F.DIS_WAY_QUOTA_2 : Fld := ⟨0x128, 0, 13, 0x400, 138⟩
/-- `DIS_WAY_QUOTA_3` (Table 6-13). -/
def F.DIS_WAY_QUOTA_3 : Fld := ⟨0x128, 16, 13, 0x400, 139⟩
/-- `DIS_HINT_0` (Table 6-13). -/
def F.DIS_HINT_0 : Fld := ⟨0x12c, 0, 3, 0, 140⟩
/-- `DIS_HINT_1` (Table 6-13). -/
def F.DIS_HINT_1 : Fld := ⟨0x12c, 4, 3, 0, 141⟩
/-- `DIS_HINT_2` (Table 6-13). -/
def F.DIS_HINT_2 : Fld := ⟨0x12c, 8, 3, 0, 142⟩
/-- `DIS_HINT_3` (Table 6-13). -/
def F.DIS_HINT_3 : Fld := ⟨0x12c, 12, 3, 0, 143⟩
/-- `DIS_JUMP_CFG_CAP` (Table 6-13). -/
def F.DIS_JUMP_CFG_CAP : Fld := ⟨0x130, 0, 14, 0x800, 144⟩
/-- `DIS_CLU_STAT_CS_HOLD` (Table 6-13). -/
def F.DIS_CLU_STAT_CS_HOLD : Fld := ⟨0x134, 0, 4, 0, 145⟩
/-- `DIS_CLU_STAT_POWERED` (Table 6-13). -/
def F.DIS_CLU_STAT_POWERED : Fld := ⟨0x134, 4, 4, 0, 146⟩
/-- `DIS_MCHK_LAST_ENGINE` (Table 6-13). -/
def F.DIS_MCHK_LAST_ENGINE : Fld := ⟨0x138, 0, 7, 0, 147⟩
/-- `DIS_MCHK_LAST_CAUSE` (Table 6-13). -/
def F.DIS_MCHK_LAST_CAUSE : Fld := ⟨0x138, 8, 3, 0, 148⟩
/-- `DIS_MCHK_LAST_ROUTE` (Table 6-13). -/
def F.DIS_MCHK_LAST_ROUTE : Fld := ⟨0x138, 16, 6, 0, 149⟩
/-- `DIS_MCHK_LAST_SITE` (Table 6-13). -/
def F.DIS_MCHK_LAST_SITE : Fld := ⟨0x138, 24, 6, 0, 150⟩
/-- `HINT_IGNORED` (Table 6-13). -/
def F.HINT_IGNORED : Fld := ⟨0x50, 0, 32, 0, 151⟩
/-- `QUARANTINES` (Table 6-13). -/
def F.QUARANTINES : Fld := ⟨0x54, 0, 32, 0, 152⟩

/-! ### DIS partition page (Table 6-14) -/

/-- `DIS_P_STAT_TOKENS` (Table 6-14). -/
def F.DIS_P_STAT_TOKENS : Fld := ⟨0x100, 0, 14, 0, 153⟩
/-- `DIS_P_STAT_WAITING` (Table 6-14). -/
def F.DIS_P_STAT_WAITING : Fld := ⟨0x100, 16, 13, 0, 154⟩
/-- `DIS_P_SHARE_CONF` (Table 6-14). -/
def F.DIS_P_SHARE_CONF : Fld := ⟨0x104, 0, 7, 0, 155⟩
/-- `DIS_P_SHARE_ACT` (Table 6-14). -/
def F.DIS_P_SHARE_ACT : Fld := ⟨0x104, 8, 7, 0, 156⟩
/-- `DIS_P_SHARE_BUSY` (Table 6-14). -/
def F.DIS_P_SHARE_BUSY : Fld := ⟨0x104, 16, 7, 0, 157⟩
/-- `DIS_P_REFUSE_STATUS` (Table 6-14). -/
def F.DIS_P_REFUSE_STATUS : Fld := ⟨0x108, 0, 4, 0, 158⟩
/-- `DIS_P_REFUSE_ROUTE` (Table 6-14). -/
def F.DIS_P_REFUSE_ROUTE : Fld := ⟨0x108, 4, 6, 0, 159⟩
/-- `DIS_P_REFUSE_SITE` (Table 6-14). -/
def F.DIS_P_REFUSE_SITE : Fld := ⟨0x108, 10, 6, 0, 160⟩
/-- `DIS_P_REFUSE_SOURCE` (Table 6-14). -/
def F.DIS_P_REFUSE_SOURCE : Fld := ⟨0x108, 16, 2, 0, 161⟩
/-- `DIS_P_REFUSE_RING` (Table 6-14). -/
def F.DIS_P_REFUSE_RING : Fld := ⟨0x108, 20, 4, 0, 162⟩
/-- `SUBMITTED` (Table 6-14). -/
def F.SUBMITTED : Fld := ⟨0x50, 0, 64, 0, 163⟩
/-- `COMMITTED` (Table 6-14). -/
def F.COMMITTED : Fld := ⟨0x58, 0, 64, 0, 164⟩
/-- `SUB_REFUSED` (Table 6-14). -/
def F.SUB_REFUSED : Fld := ⟨0x60, 0, 32, 0, 165⟩
/-- `DIS_RETRIES` (Table 6-14). -/
def F.DIS_RETRIES : Fld := ⟨0x64, 0, 32, 0, 166⟩
/-- `BP_EVENTS` (Table 6-14). -/
def F.BP_EVENTS : Fld := ⟨0x68, 0, 32, 0, 167⟩

/-! ### DIS route entries (Table 6-15) -/

/-- `DIS_R_STAT_ACTIVE` of entry i (Table 6-15). -/
def F.DIS_R_STAT_ACTIVE (i : Nat) : Fld := ⟨0x100 + 0x100 * i, 0, 1, 0, 168⟩
/-- `DIS_R_STAT_IN_SERVICE` of entry i (Table 6-15). -/
def F.DIS_R_STAT_IN_SERVICE (i : Nat) : Fld := ⟨0x100 + 0x100 * i, 1, 1, 0, 169⟩
/-- `DIS_R_STAT_ENDED` of entry i (Table 6-15). -/
def F.DIS_R_STAT_ENDED (i : Nat) : Fld := ⟨0x100 + 0x100 * i, 2, 1, 0, 170⟩
/-- `DIS_R_STAT_CAPPED` of entry i (Table 6-15). -/
def F.DIS_R_STAT_CAPPED (i : Nat) : Fld := ⟨0x100 + 0x100 * i, 3, 1, 0, 171⟩
/-- `DIS_R_STAT_HELD` of entry i (Table 6-15). -/
def F.DIS_R_STAT_HELD (i : Nat) : Fld := ⟨0x100 + 0x100 * i, 4, 1, 0, 172⟩
/-- `DIS_R_STAT_SITE` of entry i (Table 6-15). -/
def F.DIS_R_STAT_SITE (i : Nat) : Fld := ⟨0x100 + 0x100 * i, 8, 6, 0, 173⟩
/-- `DIS_R_STAT_ENGINE` of entry i (Table 6-15). -/
def F.DIS_R_STAT_ENGINE (i : Nat) : Fld := ⟨0x100 + 0x100 * i, 16, 7, 0, 174⟩
/-- `DIS_R_DEPTH_WAITING` of entry i (Table 6-15). -/
def F.DIS_R_DEPTH_WAITING (i : Nat) : Fld := ⟨0x104 + 0x100 * i, 0, 14, 0, 175⟩
/-- `DIS_R_DEPTH_READY` of entry i (Table 6-15). -/
def F.DIS_R_DEPTH_READY (i : Nat) : Fld := ⟨0x104 + 0x100 * i, 16, 14, 0, 176⟩
/-- `DIS_R_PROGRESS_CODE` of entry i (Table 6-15). -/
def F.DIS_R_PROGRESS_CODE (i : Nat) : Fld := ⟨0x108 + 0x100 * i, 0, 8, 0, 177⟩
/-- `DIS_R_PFAULT_CODE` of entry i (Table 6-15). -/
def F.DIS_R_PFAULT_CODE (i : Nat) : Fld := ⟨0x10c + 0x100 * i, 0, 8, 0, 178⟩
/-- `DIS_R_PFAULT_HEAD` of entry i (Table 6-15). -/
def F.DIS_R_PFAULT_HEAD (i : Nat) : Fld := ⟨0x10c + 0x100 * i, 8, 1, 0, 179⟩
/-- `DIS_R_PFAULT_VALID` of entry i (Table 6-15). -/
def F.DIS_R_PFAULT_VALID (i : Nat) : Fld := ⟨0x10c + 0x100 * i, 9, 1, 0, 180⟩
/-- `DIS_R_PFADDR` of entry i (Table 6-15). -/
def F.DIS_R_PFADDR (i : Nat) : Fld := ⟨0x110 + 0x100 * i, 0, 35, 0, 181⟩
/-- `DIS_R_COMMITS` of entry i (Table 6-15). -/
def F.DIS_R_COMMITS (i : Nat) : Fld := ⟨0x118 + 0x100 * i, 0, 64, 0, 182⟩
/-- `DIS_R_SPACE_WAIT` of entry i (Table 6-15). -/
def F.DIS_R_SPACE_WAIT (i : Nat) : Fld := ⟨0x120 + 0x100 * i, 0, 32, 0, 183⟩
/-- `DIS_R_WHIST` bin j of route entry i (Table 6-15). -/
def F.DIS_R_WHIST (i j : Nat) : Fld := ⟨0x140 + 0x100 * i + 4 * j, 0, 32, 0, 184⟩

/-! ### ENG page (Table 6-16) -/

/-- `ENG_STAT_STATE` of engine e (Table 6-16). -/
def F.ENG_STAT_STATE (e : Nat) : Fld := ⟨0x100, 0, 3, if e % 17 = 16 then 4 else 1, 185⟩
/-- `ENG_STAT_CLUSTER` of engine e (Table 6-16). -/
def F.ENG_STAT_CLUSTER (e : Nat) : Fld := ⟨0x100, 4, 2, e / 17, 186⟩
/-- `ENG_STAT_PARTITION` (Table 6-16). -/
def F.ENG_STAT_PARTITION : Fld := ⟨0x100, 8, 2, 0, 187⟩
/-- `ENG_STAT_ROUTE` (Table 6-16). -/
def F.ENG_STAT_ROUTE : Fld := ⟨0x100, 16, 6, 0, 188⟩
/-- `ENG_MCHK_COUNT` (Table 6-16). -/
def F.ENG_MCHK_COUNT : Fld := ⟨0x104, 0, 2, 0, 189⟩
/-- `ENG_MCHK_CAUSE` (Table 6-16). -/
def F.ENG_MCHK_CAUSE : Fld := ⟨0x104, 8, 3, 0, 190⟩
/-- `ENG_BUSY` (Table 6-16). -/
def F.ENG_BUSY : Fld := ⟨0x50, 0, 64, 0, 191⟩
/-- `ENG_STALL` (Table 6-16). -/
def F.ENG_STALL : Fld := ⟨0x58, 0, 64, 0, 192⟩
/-- `ENG_COMMITS` (Table 6-16). -/
def F.ENG_COMMITS : Fld := ⟨0x60, 0, 64, 0, 193⟩
/-- `ENG_MCHK_TOTAL` (Table 6-16). -/
def F.ENG_MCHK_TOTAL : Fld := ⟨0x68, 0, 32, 0, 194⟩

/-! ### BNK furrow registers (Table 7-5) -/

/-- `FUR_CTRL_IDLE_DRIVE` of entry i (Table 7-5). -/
def F.FUR_CTRL_IDLE_DRIVE (i : Nat) : Fld := ⟨0x8000 + 0x400 * i, 0, 1, 0, 195⟩
/-- `FUR_CTRL_IDLE_TS` of entry i (Table 7-5). -/
def F.FUR_CTRL_IDLE_TS (i : Nat) : Fld := ⟨0x8000 + 0x400 * i, 8, 6, 0, 196⟩
/-- `FUR_WEIR_LEVEL` of entry i (Table 7-5). -/
def F.FUR_WEIR_LEVEL (i : Nat) : Fld := ⟨0x8004 + 0x400 * i, 0, 15, 0x2000, 197⟩
/-- `FUR_STAT_FILL` of entry i (Table 7-5). -/
def F.FUR_STAT_FILL (i : Nat) : Fld := ⟨0x8008 + 0x400 * i, 0, 15, 0, 198⟩
/-- `FUR_STAT_MARKED` of entry i (Table 7-5). -/
def F.FUR_STAT_MARKED (i : Nat) : Fld := ⟨0x8008 + 0x400 * i, 16, 1, 0, 199⟩
/-- `FUR_STAT_DWELLING` of entry i (Table 7-5). -/
def F.FUR_STAT_DWELLING (i : Nat) : Fld := ⟨0x8008 + 0x400 * i, 17, 1, 0, 200⟩
/-- `FUR_STAT_EMPTY` of entry i (Table 7-5). -/
def F.FUR_STAT_EMPTY (i : Nat) : Fld := ⟨0x8008 + 0x400 * i, 18, 1, 1, 201⟩
/-- `FUR_STAT_FULL` of entry i (Table 7-5). -/
def F.FUR_STAT_FULL (i : Nat) : Fld := ⟨0x8008 + 0x400 * i, 19, 1, 0, 202⟩
/-- `FUR_STAT_SIDE` of entry i (Table 7-5). -/
def F.FUR_STAT_SIDE (i : Nat) : Fld := ⟨0x8008 + 0x400 * i, 20, 2, 0, 203⟩
/-- `FUR_STAT_RESET_PENDING` of entry i (Table 7-5). -/
def F.FUR_STAT_RESET_PENDING (i : Nat) : Fld := ⟨0x8008 + 0x400 * i, 22, 1, 0, 204⟩
/-- `FUR_WPTR_VIS` of entry i (Table 7-5). -/
def F.FUR_WPTR_VIS (i : Nat) : Fld := ⟨0x8010 + 0x400 * i, 0, 15, 0, 205⟩
/-- `FUR_WPTR_STG` of entry i (Table 7-5). -/
def F.FUR_WPTR_STG (i : Nat) : Fld := ⟨0x8010 + 0x400 * i, 16, 15, 0, 206⟩
/-- `FUR_RES_RES` of entry i (Table 7-5). -/
def F.FUR_RES_RES (i : Nat) : Fld := ⟨0x8014 + 0x400 * i, 0, 15, 0, 207⟩
/-- `FUR_RES_REL_W` of entry i (Table 7-5). -/
def F.FUR_RES_REL_W (i : Nat) : Fld := ⟨0x8014 + 0x400 * i, 16, 15, 0, 208⟩
/-- `FUR_RPTR_RD` of entry i (Table 7-5). -/
def F.FUR_RPTR_RD (i : Nat) : Fld := ⟨0x8018 + 0x400 * i, 0, 15, 0, 209⟩
/-- `FUR_RPTR_PR` of entry i (Table 7-5). -/
def F.FUR_RPTR_PR (i : Nat) : Fld := ⟨0x8018 + 0x400 * i, 16, 15, 0, 210⟩
/-- `FUR_MK` of entry i (Table 7-5). -/
def F.FUR_MK (i : Nat) : Fld := ⟨0x801c + 0x400 * i, 0, 15, 0, 211⟩
/-- `FUR_SIDE_VIS0` of entry i (Table 7-5). -/
def F.FUR_SIDE_VIS0 (i : Nat) : Fld := ⟨0x8020 + 0x400 * i, 0, 11, 0, 212⟩
/-- `FUR_SIDE_VIS1` of entry i (Table 7-5). -/
def F.FUR_SIDE_VIS1 (i : Nat) : Fld := ⟨0x8020 + 0x400 * i, 16, 11, 0, 213⟩
/-- `FUR_TAGS_MAIN_FREE` of entry i (Table 7-5). -/
def F.FUR_TAGS_MAIN_FREE (i : Nat) : Fld := ⟨0x8024 + 0x400 * i, 0, 11, 0x400, 214⟩
/-- `FUR_TAGS_SIDE_FREE` of entry i (Table 7-5). -/
def F.FUR_TAGS_SIDE_FREE (i : Nat) : Fld := ⟨0x8024 + 0x400 * i, 16, 8, 0x80, 215⟩
/-- `FUR_DWELL_LAST` of entry i (Table 7-5). -/
def F.FUR_DWELL_LAST (i : Nat) : Fld := ⟨0x8028 + 0x400 * i, 0, 16, 0, 216⟩
/-- `FUR_DWELL_MAX` of entry i (Table 7-5). -/
def F.FUR_DWELL_MAX (i : Nat) : Fld := ⟨0x8028 + 0x400 * i, 16, 16, 0, 217⟩
/-- `FUR_PASS` of entry i (Table 7-5). -/
def F.FUR_PASS (i : Nat) : Fld := ⟨0x802c + 0x400 * i, 0, 32, 0, 218⟩
/-- `FUR_REWINDS` of entry i (Table 7-5). -/
def F.FUR_REWINDS (i : Nat) : Fld := ⟨0x8030 + 0x400 * i, 0, 32, 0, 219⟩
/-- `FUR_WAIT_PAST` of entry i (Table 7-5). -/
def F.FUR_WAIT_PAST (i : Nat) : Fld := ⟨0x8034 + 0x400 * i, 0, 32, 0, 220⟩
/-- `FUR_PAR_ERR` of entry i (Table 7-5). -/
def F.FUR_PAR_ERR (i : Nat) : Fld := ⟨0x8038 + 0x400 * i, 0, 32, 0, 221⟩
/-- `FUR_PAR_POS_POS` of entry i (Table 7-5). -/
def F.FUR_PAR_POS_POS (i : Nat) : Fld := ⟨0x803c + 0x400 * i, 0, 15, 0, 222⟩
/-- `FUR_PAR_POS_QUAD` of entry i (Table 7-5). -/
def F.FUR_PAR_POS_QUAD (i : Nat) : Fld := ⟨0x803c + 0x400 * i, 16, 2, 0, 223⟩
/-- `FUR_UR_VN` of entry i (Table 7-5). -/
def F.FUR_UR_VN (i : Nat) : Fld := ⟨0x8040 + 0x400 * i, 0, 64, 0, 224⟩
/-- `FUR_UR_LEN` of entry i (Table 7-5). -/
def F.FUR_UR_LEN (i : Nat) : Fld := ⟨0x8048 + 0x400 * i, 0, 32, 0, 225⟩
/-- `FUR_UR_GAPS` of entry i (Table 7-5). -/
def F.FUR_UR_GAPS (i : Nat) : Fld := ⟨0x804c + 0x400 * i, 0, 32, 0, 226⟩
/-- `FUR_UR_IDLE` of entry i (Table 7-5). -/
def F.FUR_UR_IDLE (i : Nat) : Fld := ⟨0x8050 + 0x400 * i, 0, 64, 0, 227⟩

/-! ### BNK page (Tables 8-11, 8-13, 10-8, 11-3) -/

/-- `BNK_CTRL_MODE` (Table 8-11). -/
def F.BNK_CTRL_MODE : Fld := ⟨0x100, 0, 1, 0, 228⟩
/-- `BNK_STAT_MODE_ACT` (Table 8-11). -/
def F.BNK_STAT_MODE_ACT : Fld := ⟨0x104, 0, 1, 0, 229⟩
/-- `BNK_STAT_SAFE` (Table 8-11). -/
def F.BNK_STAT_SAFE : Fld := ⟨0x104, 1, 1, 0, 230⟩
/-- `BNK_STAT_CHANGING` (Table 8-11). -/
def F.BNK_STAT_CHANGING : Fld := ⟨0x104, 2, 1, 0, 231⟩
/-- `BNK_STAT_DROP_PIN` (Table 8-11). -/
def F.BNK_STAT_DROP_PIN : Fld := ⟨0x104, 8, 4, 0, 232⟩
/-- `BNK_DIR_CFG_STD` (Table 8-11). -/
def F.BNK_DIR_CFG_STD : Fld := ⟨0x108, 0, 1, 0, 233⟩
/-- `BNK_DIR_CFG_RX_TERM` (Table 8-11). -/
def F.BNK_DIR_CFG_RX_TERM : Fld := ⟨0x108, 1, 1, 1, 234⟩
/-- `BNK_SPARE_PIN` (Table 8-11). -/
def F.BNK_SPARE_PIN : Fld := ⟨0x10c, 0, 4, 0, 235⟩
/-- `BNK_SPARE_VALID` (Table 8-11). -/
def F.BNK_SPARE_VALID : Fld := ⟨0x10c, 4, 1, 0, 236⟩
/-- `BNK_SPARE_ACTIVE` (Table 8-11). -/
def F.BNK_SPARE_ACTIVE : Fld := ⟨0x10c, 8, 1, 0, 237⟩
/-- `BNK_TS_CMD_SET` (Table 8-11). -/
def F.BNK_TS_CMD_SET : Fld := ⟨0x110, 0, 6, 0, 238⟩
/-- `BNK_TS_CMD_LOAD` (Table 8-11). -/
def F.BNK_TS_CMD_LOAD : Fld := ⟨0x110, 8, 1, 0, 239⟩
/-- `BNK_TS_CMD_READ` (Table 8-11). -/
def F.BNK_TS_CMD_READ : Fld := ⟨0x110, 9, 1, 0, 240⟩
/-- `BNK_TS_STAT_BUSY` (Table 8-11). -/
def F.BNK_TS_STAT_BUSY : Fld := ⟨0x114, 0, 1, 0, 241⟩
/-- `BNK_TS_STAT_ERR` (Table 8-11). -/
def F.BNK_TS_STAT_ERR : Fld := ⟨0x114, 4, 4, 0, 242⟩
/-- `BNK_TS_STAT_PIN` (Table 8-11). -/
def F.BNK_TS_STAT_PIN : Fld := ⟨0x114, 8, 4, 0, 243⟩
/-- `BNK_TS_STAT_SET` (Table 8-11). -/
def F.BNK_TS_STAT_SET : Fld := ⟨0x114, 16, 6, 0, 244⟩
/-- `BNK_FOLLOW_EN` (Table 8-11). -/
def F.BNK_FOLLOW_EN : Fld := ⟨0x120, 0, 1, 0, 245⟩
/-- `BNK_FOLLOW_PIN` (Table 8-11). -/
def F.BNK_FOLLOW_PIN : Fld := ⟨0x120, 1, 4, 0, 246⟩
/-- `BNK_FOLLOW_FALL` (Table 8-11). -/
def F.BNK_FOLLOW_FALL : Fld := ⟨0x120, 5, 1, 0, 247⟩
/-- `BNK_FOLLOW_MUL` (Table 8-11). -/
def F.BNK_FOLLOW_MUL : Fld := ⟨0x120, 8, 4, 1, 248⟩
/-- `BNK_FOLLOW_DIV` (Table 8-11). -/
def F.BNK_FOLLOW_DIV : Fld := ⟨0x120, 12, 4, 1, 249⟩
/-- `BNK_FOLLOW_BW` (Table 8-11). -/
def F.BNK_FOLLOW_BW : Fld := ⟨0x120, 16, 3, 2, 250⟩
/-- `BNK_FOLLOW_SCALE` (Table 8-11). -/
def F.BNK_FOLLOW_SCALE : Fld := ⟨0x120, 20, 1, 1, 251⟩
/-- `BNK_FOLLOW_PHASE` (Table 8-11). -/
def F.BNK_FOLLOW_PHASE : Fld := ⟨0x124, 0, 32, 0, 252⟩
/-- `BNK_FOLLOW_STAT_LOCK` (Table 8-11). -/
def F.BNK_FOLLOW_STAT_LOCK : Fld := ⟨0x128, 0, 1, 0, 253⟩
/-- `BNK_FOLLOW_STAT_HOLD` (Table 8-11). -/
def F.BNK_FOLLOW_STAT_HOLD : Fld := ⟨0x128, 1, 1, 0, 254⟩
/-- `BNK_FOLLOW_STAT_RANGE` (Table 8-11). -/
def F.BNK_FOLLOW_STAT_RANGE : Fld := ⟨0x128, 2, 1, 0, 255⟩
/-- `BNK_FOLLOW_PER` (Table 8-11). -/
def F.BNK_FOLLOW_PER : Fld := ⟨0x130, 0, 56, 0, 256⟩
/-- `EDGE_LATE` (Table 8-11). -/
def F.EDGE_LATE : Fld := ⟨0x50, 0, 32, 0, 257⟩
/-- `EDGE_DROP` (Table 8-11). -/
def F.EDGE_DROP : Fld := ⟨0x54, 0, 32, 0, 258⟩
/-- `PEC_LATE` (Table 8-11). -/
def F.PEC_LATE : Fld := ⟨0x58, 0, 32, 0, 259⟩
/-- `PEC_DISC` (Table 8-11). -/
def F.PEC_DISC : Fld := ⟨0x5c, 0, 32, 0, 260⟩
/-- `FOLLOW_HOLDS` (Table 8-11). -/
def F.FOLLOW_HOLDS : Fld := ⟨0x60, 0, 32, 0, 261⟩
/-- `BNK_PEC_CFG_EN` (Table 8-13). -/
def F.BNK_PEC_CFG_EN : Fld := ⟨0x600, 0, 1, 0, 262⟩
/-- `BNK_PEC_CFG_CPOL` (Table 8-13). -/
def F.BNK_PEC_CFG_CPOL : Fld := ⟨0x600, 1, 1, 0, 263⟩
/-- `BNK_PEC_CFG_CPHA` (Table 8-13). -/
def F.BNK_PEC_CFG_CPHA : Fld := ⟨0x600, 2, 1, 0, 264⟩
/-- `BNK_PEC_CFG_DIV` (Table 8-13). -/
def F.BNK_PEC_CFG_DIV : Fld := ⟨0x600, 4, 7, 3, 265⟩
/-- `BNK_PEC_CFG_GAP` (Table 8-13). -/
def F.BNK_PEC_CFG_GAP : Fld := ⟨0x600, 12, 4, 1, 266⟩
/-- `BNK_PEC_CFG_SEL` (Table 8-13). -/
def F.BNK_PEC_CFG_SEL : Fld := ⟨0x600, 16, 1, 0, 267⟩
/-- `BNK_PEC_STAT_TX_LEVEL` (Table 8-13). -/
def F.BNK_PEC_STAT_TX_LEVEL : Fld := ⟨0x604, 0, 6, 0, 268⟩
/-- `BNK_PEC_STAT_RX_LEVEL` (Table 8-13). -/
def F.BNK_PEC_STAT_RX_LEVEL : Fld := ⟨0x604, 8, 5, 0, 269⟩
/-- `BNK_PEC_STAT_BUSY` (Table 8-13). -/
def F.BNK_PEC_STAT_BUSY : Fld := ⟨0x604, 16, 1, 0, 270⟩
/-- `BNK_PEC_STAT_WAITING` (Table 8-13). -/
def F.BNK_PEC_STAT_WAITING : Fld := ⟨0x604, 17, 1, 0, 271⟩
/-- `BNK_PEC_TX_LO` (Table 8-13). -/
def F.BNK_PEC_TX_LO : Fld := ⟨0x608, 0, 32, 0, 272⟩
/-- `BNK_PEC_TX_HI` (Table 8-13). -/
def F.BNK_PEC_TX_HI : Fld := ⟨0x60c, 0, 32, 0, 273⟩
/-- `BNK_PEC_TX_VN` (Table 8-13). -/
def F.BNK_PEC_TX_VN : Fld := ⟨0x610, 0, 64, 0, 274⟩
/-- `BNK_PEC_TX_CTL_LEN` (Table 8-13). -/
def F.BNK_PEC_TX_CTL_LEN : Fld := ⟨0x618, 0, 7, 0, 275⟩
/-- `BNK_PEC_TX_CTL_WHEN` (Table 8-13). -/
def F.BNK_PEC_TX_CTL_WHEN : Fld := ⟨0x618, 8, 1, 0, 276⟩
/-- `BNK_PEC_TX_CTL_SITE` (Table 8-13). -/
def F.BNK_PEC_TX_CTL_SITE : Fld := ⟨0x618, 16, 6, 0, 277⟩
/-- `BNK_PEC_TX_CTL_RX` (Table 8-13). -/
def F.BNK_PEC_TX_CTL_RX : Fld := ⟨0x618, 24, 1, 0, 278⟩
/-- `BNK_PEC_RX_LO` (Table 8-13). -/
def F.BNK_PEC_RX_LO : Fld := ⟨0x620, 0, 32, 0, 279⟩
/-- `BNK_PEC_RX_HI` (Table 8-13). -/
def F.BNK_PEC_RX_HI : Fld := ⟨0x624, 0, 32, 0, 280⟩
/-- `ACQ_C_CTRL_ARM` (Table 10-8). -/
def F.ACQ_C_CTRL_ARM : Fld := ⟨0x5000, 0, 1, 0, 281⟩
/-- `ACQ_C_CTRL_DISARM` (Table 10-8). -/
def F.ACQ_C_CTRL_DISARM : Fld := ⟨0x5000, 1, 1, 0, 282⟩
/-- `ACQ_C_CTRL_FORCE` (Table 10-8). -/
def F.ACQ_C_CTRL_FORCE : Fld := ⟨0x5000, 2, 1, 0, 283⟩
/-- `ACQ_C_CTRL_CONT` (Table 10-8). -/
def F.ACQ_C_CTRL_CONT : Fld := ⟨0x5000, 3, 1, 0, 284⟩
/-- `ACQ_C_CTRL_AUTO` (Table 10-8). -/
def F.ACQ_C_CTRL_AUTO : Fld := ⟨0x5000, 4, 1, 0, 285⟩
/-- `ACQ_C_CTRL_WRAP_POST` (Table 10-8). -/
def F.ACQ_C_CTRL_WRAP_POST : Fld := ⟨0x5000, 5, 1, 0, 286⟩
/-- `ACQ_C_CTRL_LMODE` (Table 10-8). -/
def F.ACQ_C_CTRL_LMODE : Fld := ⟨0x5000, 6, 1, 0, 287⟩
/-- `ACQ_C_CTRL_MASK_STOP` (Table 10-8). -/
def F.ACQ_C_CTRL_MASK_STOP : Fld := ⟨0x5000, 7, 1, 0, 288⟩
/-- `ACQ_C_CTRL_SITE` (Table 10-8). -/
def F.ACQ_C_CTRL_SITE : Fld := ⟨0x5000, 8, 6, 0, 289⟩
/-- `ACQ_C_TRIG_SRC_EN` (Table 10-8). -/
def F.ACQ_C_TRIG_SRC_EN : Fld := ⟨0x5004, 0, 10, 0, 290⟩
/-- `ACQ_C_TRIG_ANY_LABEL` (Table 10-8). -/
def F.ACQ_C_TRIG_ANY_LABEL : Fld := ⟨0x5004, 10, 1, 0, 291⟩
/-- `ACQ_C_TRIG_LINK_BANK` (Table 10-8). -/
def F.ACQ_C_TRIG_LINK_BANK : Fld := ⟨0x5004, 12, 4, 0, 292⟩
/-- `ACQ_C_TRIG_LABEL` (Table 10-8). -/
def F.ACQ_C_TRIG_LABEL : Fld := ⟨0x5004, 16, 16, 0, 293⟩
/-- `ACQ_C_PRE` (Table 10-8). -/
def F.ACQ_C_PRE : Fld := ⟨0x5008, 0, 18, 0, 294⟩
/-- `ACQ_C_POST` (Table 10-8). -/
def F.ACQ_C_POST : Fld := ⟨0x500c, 0, 32, 1, 295⟩
/-- `ACQ_C_TVN` (Table 10-8). -/
def F.ACQ_C_TVN : Fld := ⟨0x5010, 0, 64, 0, 296⟩
/-- `ACQ_C_AUTO` (Table 10-8). -/
def F.ACQ_C_AUTO : Fld := ⟨0x5018, 0, 16, 0, 297⟩
/-- `ACQ_C_AREA_LO` (Table 10-8). -/
def F.ACQ_C_AREA_LO : Fld := ⟨0x5020, 12, 20, 0, 298⟩
/-- `ACQ_C_AREA_HI` (Table 10-8). -/
def F.ACQ_C_AREA_HI : Fld := ⟨0x5024, 0, 3, 0, 299⟩
/-- `ACQ_C_SLOT_SLOT` (Table 10-8). -/
def F.ACQ_C_SLOT_SLOT : Fld := ⟨0x5028, 0, 5, 0xc, 300⟩
/-- `ACQ_C_SLOT_NSLOT` (Table 10-8). -/
def F.ACQ_C_SLOT_NSLOT : Fld := ⟨0x5028, 8, 4, 0, 301⟩
/-- `ACQ_C_WCNT` (Table 10-8). -/
def F.ACQ_C_WCNT : Fld := ⟨0x5030, 0, 64, 0, 302⟩
/-- `ACQ_C_RCNT` (Table 10-8). -/
def F.ACQ_C_RCNT : Fld := ⟨0x5038, 0, 64, 0, 303⟩
/-- `ACQ_C_STAT_STATE` (Table 10-8). -/
def F.ACQ_C_STAT_STATE : Fld := ⟨0x5040, 0, 3, 0, 304⟩
/-- `ACQ_C_STAT_LOG2D` (Table 10-8). -/
def F.ACQ_C_STAT_LOG2D : Fld := ⟨0x5040, 4, 4, 0, 305⟩
/-- `ACQ_C_STAT_BACKLOG` (Table 10-8). -/
def F.ACQ_C_STAT_BACKLOG : Fld := ⟨0x5040, 8, 18, 0, 306⟩
/-- `ACQ_C_ERR` (Table 10-8). -/
def F.ACQ_C_ERR : Fld := ⟨0x5044, 0, 4, 0, 307⟩
/-- `ACQ_C_LASTTVN` (Table 10-8). -/
def F.ACQ_C_LASTTVN : Fld := ⟨0x5048, 0, 64, 0, 308⟩
/-- `ACQ_C_MFIRST_VN` (Table 10-8). -/
def F.ACQ_C_MFIRST_VN : Fld := ⟨0x5050, 0, 64, 0, 309⟩
/-- `ACQ_C_MFIRST_PIN` (Table 10-8). -/
def F.ACQ_C_MFIRST_PIN : Fld := ⟨0x5058, 0, 4, 0, 310⟩
/-- `ACQ_C_MFIRST_VALID` (Table 10-8). -/
def F.ACQ_C_MFIRST_VALID : Fld := ⟨0x5058, 8, 1, 0, 311⟩
/-- `ACQ_C_MFIRST_STOPPED` (Table 10-8). -/
def F.ACQ_C_MFIRST_STOPPED : Fld := ⟨0x5058, 9, 1, 0, 312⟩
/-- `BNK_MASK_MODE` of entry i (Table 10-8). -/
def F.BNK_MASK_MODE (i : Nat) : Fld := ⟨0x5100 + 0x10 * i, 0, 2, 0, 313⟩
/-- `BNK_MASK_EDGE` of entry i (Table 10-8). -/
def F.BNK_MASK_EDGE (i : Nat) : Fld := ⟨0x5100 + 0x10 * i, 4, 2, 0, 314⟩
/-- `BNK_MASK_MO` of entry i (Table 10-8). -/
def F.BNK_MASK_MO (i : Nat) : Fld := ⟨0x5104 + 0x10 * i, 0, 32, 0, 315⟩
/-- `BNK_MASK_MC` of entry i (Table 10-8). -/
def F.BNK_MASK_MC (i : Nat) : Fld := ⟨0x5108 + 0x10 * i, 0, 32, 0, 316⟩
/-- `BNK_MASK_VIOL` of entry i (Table 10-8). -/
def F.BNK_MASK_VIOL (i : Nat) : Fld := ⟨0x510c + 0x10 * i, 0, 32, 0, 317⟩
/-- `TRIG_MISSED` (Table 10-8). -/
def F.TRIG_MISSED : Fld := ⟨0x80, 0, 32, 0, 318⟩
/-- `ACQ_RECORDS` (Table 10-8). -/
def F.ACQ_RECORDS : Fld := ⟨0x84, 0, 32, 0, 319⟩
/-- `DECIM_CHANGES` (Table 10-8). -/
def F.DECIM_CHANGES : Fld := ⟨0x88, 0, 32, 0, 320⟩
/-- `EDG_SR_CTRL_EN` (Table 11-3). -/
def F.EDG_SR_CTRL_EN : Fld := ⟨0x4000, 0, 1, 0, 321⟩
/-- `EDG_SR_CTRL_MODE` (Table 11-3). -/
def F.EDG_SR_CTRL_MODE : Fld := ⟨0x4000, 1, 1, 0, 322⟩
/-- `EDG_SR_CTRL_SIZE` (Table 11-3). -/
def F.EDG_SR_CTRL_SIZE : Fld := ⟨0x4000, 8, 5, 8, 323⟩
/-- `EDG_SR_BASE_LO` (Table 11-3). -/
def F.EDG_SR_BASE_LO : Fld := ⟨0x4004, 12, 20, 0, 324⟩
/-- `EDG_SR_BASE_HI` (Table 11-3). -/
def F.EDG_SR_BASE_HI : Fld := ⟨0x4008, 0, 3, 0, 325⟩
/-- `EDG_SR_WCNT` (Table 11-3). -/
def F.EDG_SR_WCNT : Fld := ⟨0x4010, 0, 64, 0, 326⟩
/-- `EDG_SR_RCNT` (Table 11-3). -/
def F.EDG_SR_RCNT : Fld := ⟨0x4018, 0, 64, 0, 327⟩
/-- `EDG_SR_STAT_QLEVEL` (Table 11-3). -/
def F.EDG_SR_STAT_QLEVEL : Fld := ⟨0x4020, 0, 11, 0, 328⟩
/-- `EDG_SR_STAT_FULL` (Table 11-3). -/
def F.EDG_SR_STAT_FULL : Fld := ⟨0x4020, 16, 1, 0, 329⟩
/-- `EDG_SPARE_PIN` (Table 11-3). -/
def F.EDG_SPARE_PIN : Fld := ⟨0x4024, 0, 4, 0, 330⟩
/-- `EDG_SPARE_VALID` (Table 11-3). -/
def F.EDG_SPARE_VALID : Fld := ⟨0x4024, 4, 1, 0, 331⟩
/-- `EDG_SPARE_ACTIVE` (Table 11-3). -/
def F.EDG_SPARE_ACTIVE : Fld := ⟨0x4024, 8, 1, 0, 332⟩
/-- `SR_DROP` (Table 11-3). -/
def F.SR_DROP : Fld := ⟨0xa0, 0, 32, 0, 333⟩

/-! ### BNK pin configuration (Table 8-12) -/

/-- `BNK_PIN_CFG_DEN_POL` of entry i (Table 8-12). -/
def F.BNK_PIN_CFG_DEN_POL (i : Nat) : Fld := ⟨0x200 + 0x10 * i, 0, 1, 0, 334⟩
/-- `BNK_PIN_TXEQ_C_PRE` of entry i (Table 8-12). -/
def F.BNK_PIN_TXEQ_C_PRE (i : Nat) : Fld := ⟨0x204 + 0x10 * i, 0, 3, 0, 335⟩
/-- `BNK_PIN_TXEQ_C_MAIN` of entry i (Table 8-12). -/
def F.BNK_PIN_TXEQ_C_MAIN (i : Nat) : Fld := ⟨0x204 + 0x10 * i, 8, 6, 0x28, 336⟩
/-- `BNK_PIN_TXEQ_C_POST` of entry i (Table 8-12). -/
def F.BNK_PIN_TXEQ_C_POST (i : Nat) : Fld := ⟨0x204 + 0x10 * i, 16, 5, 0, 337⟩
/-- `BNK_PIN_RXEQ_CTLE` of entry i (Table 8-12). -/
def F.BNK_PIN_RXEQ_CTLE (i : Nat) : Fld := ⟨0x208 + 0x10 * i, 0, 2, 0, 338⟩

/-! ### CMP partition page (Table 9-7) -/

/-- `CMP_LED_CTRL_EN` (Table 9-7). -/
def F.CMP_LED_CTRL_EN : Fld := ⟨0x100, 0, 1, 0, 339⟩
/-- `CMP_LED_CTRL_MODE` (Table 9-7). -/
def F.CMP_LED_CTRL_MODE : Fld := ⟨0x100, 1, 1, 0, 340⟩
/-- `CMP_LED_CTRL_SIZE` (Table 9-7). -/
def F.CMP_LED_CTRL_SIZE : Fld := ⟨0x100, 8, 5, 8, 341⟩
/-- `CMP_LED_BASE_LO` (Table 9-7). -/
def F.CMP_LED_BASE_LO : Fld := ⟨0x104, 12, 20, 0, 342⟩
/-- `CMP_LED_BASE_HI` (Table 9-7). -/
def F.CMP_LED_BASE_HI : Fld := ⟨0x108, 0, 3, 0, 343⟩
/-- `CMP_LED_RATE` (Table 9-7). -/
def F.CMP_LED_RATE : Fld := ⟨0x10c, 0, 13, 0x100, 344⟩
/-- `CMP_LED_WM` (Table 9-7). -/
def F.CMP_LED_WM : Fld := ⟨0x110, 0, 27, 0, 345⟩
/-- `CMP_LED_WCNT` (Table 9-7). -/
def F.CMP_LED_WCNT : Fld := ⟨0x118, 0, 64, 0, 346⟩
/-- `CMP_LED_RCNT` (Table 9-7). -/
def F.CMP_LED_RCNT : Fld := ⟨0x120, 0, 64, 0, 347⟩
/-- `CMP_LED_STAT_QLEVEL` (Table 9-7). -/
def F.CMP_LED_STAT_QLEVEL : Fld := ⟨0x128, 0, 10, 0, 348⟩
/-- `CMP_LED_STAT_FULL` (Table 9-7). -/
def F.CMP_LED_STAT_FULL : Fld := ⟨0x128, 16, 1, 0, 349⟩
/-- `CMP_LED_STAT_SUMMARY` (Table 9-7). -/
def F.CMP_LED_STAT_SUMMARY : Fld := ⟨0x128, 17, 1, 0, 350⟩
/-- `CMP_LED_STAT_LOSS_PEND` (Table 9-7). -/
def F.CMP_LED_STAT_LOSS_PEND : Fld := ⟨0x128, 18, 1, 0, 351⟩
/-- `CMP_SITE_EVT` (Table 9-7). -/
def F.CMP_SITE_EVT : Fld := ⟨0x130, 0, 64, 0, 352⟩
/-- `LED_LOST` (Table 9-7). -/
def F.LED_LOST : Fld := ⟨0x50, 0, 32, 0, 353⟩
/-- `LED_SUMMARIES` (Table 9-7). -/
def F.LED_SUMMARIES : Fld := ⟨0x54, 0, 32, 0, 354⟩
/-- `DISCARDED` (Table 9-7). -/
def F.DISCARDED : Fld := ⟨0x58, 0, 32, 0, 355⟩

/-! ### CMP site results (Table 9-8) -/

/-- `CMP_SR_FFVN` of entry i (Table 9-8). -/
def F.CMP_SR_FFVN (i : Nat) : Fld := ⟨0xc00 + 0x10 * i, 0, 64, 0, 356⟩
/-- `CMP_SR_FCNT` of entry i (Table 9-8). -/
def F.CMP_SR_FCNT (i : Nat) : Fld := ⟨0xc08 + 0x10 * i, 0, 32, 0, 357⟩
/-- `CMP_SR_STAT_FF_VALID` of entry i (Table 9-8). -/
def F.CMP_SR_STAT_FF_VALID (i : Nat) : Fld := ⟨0xc0c + 0x10 * i, 0, 1, 0, 358⟩

/-! ### CMP pin records (Table 9-9) -/

/-- `CMP_PIN_FCNT` of entry i (Table 9-9). -/
def F.CMP_PIN_FCNT (i : Nat) : Fld := ⟨0x100 + 0x10 * i, 0, 32, 0, 359⟩
/-- `CMP_PIN_STAT_FF_VALID` of entry i (Table 9-9). -/
def F.CMP_PIN_STAT_FF_VALID (i : Nat) : Fld := ⟨0x104 + 0x10 * i, 0, 1, 0, 360⟩
/-- `CMP_PIN_FFVN` of entry i (Table 9-9). -/
def F.CMP_PIN_FFVN (i : Nat) : Fld := ⟨0x108 + 0x10 * i, 0, 64, 0, 361⟩

/-! ### ACQ device page (Table 10-10) -/

/-- `ACQ_SHARE_0` (Table 10-10). -/
def F.ACQ_SHARE_0 : Fld := ⟨0x100, 0, 9, 0x60, 362⟩
/-- `ACQ_SHARE_1` (Table 10-10). -/
def F.ACQ_SHARE_1 : Fld := ⟨0x100, 16, 9, 0x60, 363⟩
/-- `ACQ_SHARE_2` (Table 10-10). -/
def F.ACQ_SHARE_2 : Fld := ⟨0x104, 0, 9, 0x60, 364⟩
/-- `ACQ_SHARE_3` (Table 10-10). -/
def F.ACQ_SHARE_3 : Fld := ⟨0x104, 16, 9, 0x60, 365⟩
/-- `ACQ_TO_OWNER` (Table 10-10). -/
def F.ACQ_TO_OWNER : Fld := ⟨0x108, 0, 8, 0, 366⟩

/-! ### ACQ TRIGOUT page (Table 10-10) -/

/-- `ACQ_TO_CTRL_MODE` (Table 10-10). -/
def F.ACQ_TO_CTRL_MODE : Fld := ⟨0x100, 0, 2, 0, 367⟩
/-- `ACQ_TO_CTRL_POL` (Table 10-10). -/
def F.ACQ_TO_CTRL_POL : Fld := ⟨0x100, 2, 1, 0, 368⟩
/-- `ACQ_TO_CTRL_SITE` (Table 10-10). -/
def F.ACQ_TO_CTRL_SITE : Fld := ⟨0x100, 8, 6, 0, 369⟩
/-- `ACQ_TO_CTRL_BANK` (Table 10-10). -/
def F.ACQ_TO_CTRL_BANK : Fld := ⟨0x100, 16, 4, 0, 370⟩
/-- `ACQ_TO_WIDTH` (Table 10-10). -/
def F.ACQ_TO_WIDTH : Fld := ⟨0x104, 0, 16, 0xa, 371⟩
/-- `ACQ_TO_DELAY` (Table 10-10). -/
def F.ACQ_TO_DELAY : Fld := ⟨0x108, 0, 32, 0, 372⟩
/-- `TO_MERGED` (Table 10-10). -/
def F.TO_MERGED : Fld := ⟨0x50, 0, 32, 0, 373⟩

/-! ### BNK converter control (Table 11-4) -/

/-- `EDG_PIN_CFG_EN` of entry i (Table 11-4). -/
def F.EDG_PIN_CFG_EN (i : Nat) : Fld := ⟨0x4100 + 0x40 * i, 0, 1, 0, 374⟩
/-- `EDG_PIN_CFG_EDGE` of entry i (Table 11-4). -/
def F.EDG_PIN_CFG_EDGE (i : Nat) : Fld := ⟨0x4100 + 0x40 * i, 1, 2, 1, 375⟩
/-- `EDG_PIN_CFG_SRC` of entry i (Table 11-4). -/
def F.EDG_PIN_CFG_SRC (i : Nat) : Fld := ⟨0x4100 + 0x40 * i, 3, 1, 0, 376⟩
/-- `EDG_PIN_CFG_PRE` of entry i (Table 11-4). -/
def F.EDG_PIN_CFG_PRE (i : Nat) : Fld := ⟨0x4100 + 0x40 * i, 4, 4, 0, 377⟩
/-- `EDG_PIN_CFG_RING` of entry i (Table 11-4). -/
def F.EDG_PIN_CFG_RING (i : Nat) : Fld := ⟨0x4100 + 0x40 * i, 8, 1, 0, 378⟩
/-- `EDG_PIN_CFG_AU_EN` of entry i (Table 11-4). -/
def F.EDG_PIN_CFG_AU_EN (i : Nat) : Fld := ⟨0x4100 + 0x40 * i, 12, 1, 0, 379⟩
/-- `EDG_PIN_CFG_AU` of entry i (Table 11-4). -/
def F.EDG_PIN_CFG_AU (i : Nat) : Fld := ⟨0x4100 + 0x40 * i, 16, 4, 0, 380⟩
/-- `EDG_PIN_HOLDOFF` of entry i (Table 11-4). -/
def F.EDG_PIN_HOLDOFF (i : Nat) : Fld := ⟨0x4104 + 0x40 * i, 0, 12, 0, 381⟩
/-- `EDG_FC_GATE` of entry i (Table 11-4). -/
def F.EDG_FC_GATE (i : Nat) : Fld := ⟨0x4108 + 0x40 * i, 0, 24, 0, 382⟩
/-- `EDG_FC_STAT_VALID` of entry i (Table 11-4). -/
def F.EDG_FC_STAT_VALID (i : Nat) : Fld := ⟨0x410c + 0x40 * i, 0, 1, 0, 383⟩
/-- `EDG_FC_STAT_NOEDGE` of entry i (Table 11-4). -/
def F.EDG_FC_STAT_NOEDGE (i : Nat) : Fld := ⟨0x410c + 0x40 * i, 1, 1, 0, 384⟩
/-- `EDG_FC_STAT_SKIP` of entry i (Table 11-4). -/
def F.EDG_FC_STAT_SKIP (i : Nat) : Fld := ⟨0x410c + 0x40 * i, 2, 1, 0, 385⟩
/-- `EDG_FC_N` of entry i (Table 11-4). -/
def F.EDG_FC_N (i : Nat) : Fld := ⟨0x4110 + 0x40 * i, 0, 32, 0, 386⟩
/-- `EDG_FC_T` of entry i (Table 11-4). -/
def F.EDG_FC_T (i : Nat) : Fld := ⟨0x4118 + 0x40 * i, 0, 64, 0, 387⟩
/-- `EDG_STAMPS` of entry i (Table 11-4). -/
def F.EDG_STAMPS (i : Nat) : Fld := ⟨0x4120 + 0x40 * i, 0, 48, 0, 388⟩
/-- `EDG_ACCEPTED` of entry i (Table 11-4). -/
def F.EDG_ACCEPTED (i : Nat) : Fld := ⟨0x4128 + 0x40 * i, 0, 64, 0, 389⟩
/-- `EDG_MERGED` of entry i (Table 11-4). -/
def F.EDG_MERGED (i : Nat) : Fld := ⟨0x4130 + 0x40 * i, 0, 32, 0, 390⟩
/-- `EDG_HELD` of entry i (Table 11-4). -/
def F.EDG_HELD (i : Nat) : Fld := ⟨0x4134 + 0x40 * i, 0, 32, 0, 391⟩
/-- `EDG_LOST` of entry i (Table 11-4). -/
def F.EDG_LOST (i : Nat) : Fld := ⟨0x4138 + 0x40 * i, 0, 32, 0, 392⟩

/-! ### AU page (Table 12-6) -/

/-- `AU_ASSIGN_PART` (Table 12-6). -/
def F.AU_ASSIGN_PART : Fld := ⟨0x100, 0, 2, 0, 393⟩
/-- `AU_ASSIGN_CLEARING` (Table 12-6). -/
def F.AU_ASSIGN_CLEARING : Fld := ⟨0x100, 8, 1, 0, 394⟩
/-- `AU_CTRL_GO` (Table 12-6). -/
def F.AU_CTRL_GO : Fld := ⟨0x104, 0, 1, 0, 395⟩
/-- `AU_CTRL_HALT` (Table 12-6). -/
def F.AU_CTRL_HALT : Fld := ⟨0x104, 1, 1, 0, 396⟩
/-- `AU_CTRL_RESET` (Table 12-6). -/
def F.AU_CTRL_RESET : Fld := ⟨0x104, 2, 1, 0, 397⟩
/-- `AU_CTRL_SAT_EN` (Table 12-6). -/
def F.AU_CTRL_SAT_EN : Fld := ⟨0x104, 3, 1, 0, 398⟩
/-- `AU_CTRL_IE` (Table 12-6). -/
def F.AU_CTRL_IE : Fld := ⟨0x104, 4, 1, 0, 399⟩
/-- `AU_STAT_STATE` (Table 12-6). -/
def F.AU_STAT_STATE : Fld := ⟨0x108, 0, 3, 0, 400⟩
/-- `AU_STAT_PC` (Table 12-6). -/
def F.AU_STAT_PC : Fld := ⟨0x108, 4, 12, 0, 401⟩
/-- `AU_STAT_DEPTH` (Table 12-6). -/
def F.AU_STAT_DEPTH : Fld := ⟨0x108, 16, 4, 0, 402⟩
/-- `AU_STAT_IE` (Table 12-6). -/
def F.AU_STAT_IE : Fld := ⟨0x108, 20, 1, 0, 403⟩
/-- `AU_START` (Table 12-6). -/
def F.AU_START : Fld := ⟨0x10c, 0, 12, 0, 404⟩
/-- `AU_FLAGS_OVF_A0` (Table 12-6). -/
def F.AU_FLAGS_OVF_A0 : Fld := ⟨0x110, 0, 1, 0, 405⟩
/-- `AU_FLAGS_OVF_A1` (Table 12-6). -/
def F.AU_FLAGS_OVF_A1 : Fld := ⟨0x110, 1, 1, 0, 406⟩
/-- `AU_FLAGS_RSAT` (Table 12-6). -/
def F.AU_FLAGS_RSAT : Fld := ⟨0x110, 2, 1, 0, 407⟩
/-- `AU_FLAGS_TAPSAT` (Table 12-6). -/
def F.AU_FLAGS_TAPSAT : Fld := ⟨0x110, 3, 1, 0, 408⟩
/-- `AU_FLAGS_Z` (Table 12-6). -/
def F.AU_FLAGS_Z : Fld := ⟨0x110, 8, 1, 0, 409⟩
/-- `AU_FLAGS_N` (Table 12-6). -/
def F.AU_FLAGS_N : Fld := ⟨0x110, 9, 1, 0, 410⟩
/-- `AU_FAULT_INFO_CODE` (Table 12-6). -/
def F.AU_FAULT_INFO_CODE : Fld := ⟨0x114, 0, 4, 0, 411⟩
/-- `AU_FAULT_INFO_PC` (Table 12-6). -/
def F.AU_FAULT_INFO_PC : Fld := ⟨0x114, 4, 12, 0, 412⟩
/-- `AU_FAULT_INFO_ADDR` (Table 12-6). -/
def F.AU_FAULT_INFO_ADDR : Fld := ⟨0x114, 16, 14, 0, 413⟩
/-- `AU_MSG_CODE` (Table 12-6). -/
def F.AU_MSG_CODE : Fld := ⟨0x118, 0, 8, 0, 414⟩
/-- `AU_DOORBELL` (Table 12-6). -/
def F.AU_DOORBELL : Fld := ⟨0x11c, 0, 1, 0, 415⟩
/-- `AU_IEN_HOST` (Table 12-6). -/
def F.AU_IEN_HOST : Fld := ⟨0x120, 0, 1, 0, 416⟩
/-- `AU_IEN_TAP` (Table 12-6). -/
def F.AU_IEN_TAP : Fld := ⟨0x120, 1, 1, 0, 417⟩
/-- `AU_TAP_EN` (Table 12-6). -/
def F.AU_TAP_EN : Fld := ⟨0x124, 0, 1, 0, 418⟩
/-- `AU_TAP_AUTOREF` (Table 12-6). -/
def F.AU_TAP_AUTOREF : Fld := ⟨0x124, 1, 1, 0, 419⟩
/-- `AU_TAP_THR` (Table 12-6). -/
def F.AU_TAP_THR : Fld := ⟨0x124, 16, 11, 1, 420⟩
/-- `AU_TAP_STAT_LEVEL` (Table 12-6). -/
def F.AU_TAP_STAT_LEVEL : Fld := ⟨0x128, 0, 11, 0, 421⟩
/-- `AU_REFT_FRAC` (Table 12-6). -/
def F.AU_REFT_FRAC : Fld := ⟨0x130, 0, 16, 0, 422⟩
/-- `AU_REFT` (Table 12-6). -/
def F.AU_REFT : Fld := ⟨0x134, 0, 64, 0, 423⟩
/-- `AU_REFSTEP_FRAC` (Table 12-6). -/
def F.AU_REFSTEP_FRAC : Fld := ⟨0x140, 0, 16, 0, 424⟩
/-- `AU_REFSTEP` (Table 12-6). -/
def F.AU_REFSTEP : Fld := ⟨0x144, 0, 32, 0, 425⟩
/-- `AU_DWIN_HALF` (Table 12-6). -/
def F.AU_DWIN_HALF : Fld := ⟨0x148, 0, 1, 0, 426⟩
/-- `AU_SPARE_UNIT` (Table 12-6). -/
def F.AU_SPARE_UNIT : Fld := ⟨0x14c, 0, 4, 0, 427⟩
/-- `AU_SPARE_VALID` (Table 12-6). -/
def F.AU_SPARE_VALID : Fld := ⟨0x14c, 4, 1, 0, 428⟩
/-- `AU_SPARE_ACTIVE` (Table 12-6). -/
def F.AU_SPARE_ACTIVE : Fld := ⟨0x14c, 8, 1, 0, 429⟩
/-- `AU_CU_FW_HELD` (Table 12-6). -/
def F.AU_CU_FW_HELD : Fld := ⟨0x150, 0, 1, 0, 430⟩
/-- `AU_X` of entry i (Table 12-6). -/
def F.AU_X (i : Nat) : Fld := ⟨0x400 + 4 * i, 0, 32, 0, 431⟩
/-- `AU_A_RE` of entry i (Table 12-6). -/
def F.AU_A_RE (i : Nat) : Fld := ⟨0x420 + 0x10 * i, 0, 40, 0, 432⟩
/-- `AU_A_IM` of entry i (Table 12-6). -/
def F.AU_A_IM (i : Nat) : Fld := ⟨0x428 + 0x10 * i, 0, 40, 0, 433⟩
/-- `AU_AR_PTR` of entry i (Table 12-6). -/
def F.AU_AR_PTR (i : Nat) : Fld := ⟨0x440 + 0x10 * i, 0, 14, 0, 434⟩
/-- `AU_AR_BASE` of entry i (Table 12-6). -/
def F.AU_AR_BASE (i : Nat) : Fld := ⟨0x444 + 0x10 * i, 0, 14, 0, 435⟩
/-- `AU_AR_LEN` of entry i (Table 12-6). -/
def F.AU_AR_LEN (i : Nat) : Fld := ⟨0x448 + 0x10 * i, 0, 14, 0, 436⟩
/-- `AU_AR_MOD` of entry i (Table 12-6). -/
def F.AU_AR_MOD (i : Nat) : Fld := ⟨0x44c + 0x10 * i, 0, 14, 0, 437⟩
/-- `AU_INSNS` (Table 12-6). -/
def F.AU_INSNS : Fld := ⟨0x50, 0, 64, 0, 438⟩
/-- `AU_STALLS` (Table 12-6). -/
def F.AU_STALLS : Fld := ⟨0x58, 0, 64, 0, 439⟩
/-- `AU_TAP_LOST` (Table 12-6). -/
def F.AU_TAP_LOST : Fld := ⟨0x60, 0, 32, 0, 440⟩
/-- `AU_TAP_OFF` (Table 12-6). -/
def F.AU_TAP_OFF : Fld := ⟨0x64, 0, 32, 0, 441⟩

/-! ### CAL device page (Table 13-5) -/

/-- `CAL_REQ_CLASSES` (Table 13-5). -/
def F.CAL_REQ_CLASSES : Fld := ⟨0x100, 0, 3, 0, 442⟩
/-- `CAL_REQ_GO` (Table 13-5). -/
def F.CAL_REQ_GO : Fld := ⟨0x100, 8, 1, 0, 443⟩
/-- `CAL_REQ_CANCEL` (Table 13-5). -/
def F.CAL_REQ_CANCEL : Fld := ⟨0x100, 9, 1, 0, 444⟩
/-- `CAL_REQ_BANKS` (Table 13-5). -/
def F.CAL_REQ_BANKS : Fld := ⟨0x100, 16, 16, 0, 445⟩
/-- `CAL_AUTO_EN` (Table 13-5). -/
def F.CAL_AUTO_EN : Fld := ⟨0x104, 0, 1, 0, 446⟩
/-- `CAL_AUTO_TEMP_TRIG` (Table 13-5). -/
def F.CAL_AUTO_TEMP_TRIG : Fld := ⟨0x104, 8, 8, 0xa, 447⟩
/-- `CAL_AUTO_INTERVAL` (Table 13-5). -/
def F.CAL_AUTO_INTERVAL : Fld := ⟨0x104, 16, 16, 0, 448⟩
/-- `CAL_TOL` (Table 13-5). -/
def F.CAL_TOL : Fld := ⟨0x108, 0, 24, 0x100808, 449⟩
/-- `CAL_STAT_BUSY` (Table 13-5). -/
def F.CAL_STAT_BUSY : Fld := ⟨0x10c, 0, 1, 0, 450⟩
/-- `CAL_STAT_CLASS` (Table 13-5). -/
def F.CAL_STAT_CLASS : Fld := ⟨0x10c, 1, 3, 0, 451⟩
/-- `CAL_STAT_BANK` (Table 13-5). -/
def F.CAL_STAT_BANK : Fld := ⟨0x10c, 4, 4, 0, 452⟩
/-- `CAL_STAT_PENDING` (Table 13-5). -/
def F.CAL_STAT_PENDING : Fld := ⟨0x10c, 16, 16, 0, 453⟩
/-- `CAL_LAST_REASON` (Table 13-5). -/
def F.CAL_LAST_REASON : Fld := ⟨0x110, 0, 4, 0, 454⟩
/-- `CAL_LAST_CLASS` (Table 13-5). -/
def F.CAL_LAST_CLASS : Fld := ⟨0x110, 4, 3, 0, 455⟩
/-- `CAL_LAST_BANK` (Table 13-5). -/
def F.CAL_LAST_BANK : Fld := ⟨0x110, 8, 4, 0, 456⟩
/-- `CAL_LAST_SLOT` (Table 13-5). -/
def F.CAL_LAST_SLOT : Fld := ⟨0x110, 12, 5, 0, 457⟩
/-- `CAL_LAST_PERSIST` (Table 13-5). -/
def F.CAL_LAST_PERSIST : Fld := ⟨0x110, 24, 1, 0, 458⟩
/-- `CAL_C_COUNT` of entry i (Table 13-5). -/
def F.CAL_C_COUNT (i : Nat) : Fld := ⟨0x120 + 0x10 * i, 0, 32, 0, 459⟩
/-- `CAL_C_REJECTS` of entry i (Table 13-5). -/
def F.CAL_C_REJECTS (i : Nat) : Fld := ⟨0x124 + 0x10 * i, 0, 32, 0, 460⟩
/-- `CAL_C_TIME_LO` of entry i (Table 13-5). -/
def F.CAL_C_TIME_LO (i : Nat) : Fld := ⟨0x128 + 0x10 * i, 0, 32, 0, 461⟩
/-- `CAL_C_TIME_HI` of entry i (Table 13-5). -/
def F.CAL_C_TIME_HI (i : Nat) : Fld := ⟨0x12c + 0x10 * i, 0, 16, 0, 462⟩
/-- `CAL_BANK_VALID` of entry i (Table 13-5). -/
def F.CAL_BANK_VALID (i : Nat) : Fld := ⟨0x200 + 4 * i, 0, 3, 0, 463⟩
/-- `CAL_BANK_NOMINAL` of entry i (Table 13-5). -/
def F.CAL_BANK_NOMINAL (i : Nat) : Fld := ⟨0x200 + 4 * i, 4, 3, 0, 464⟩
/-- `CAL_BANK_DUE` of entry i (Table 13-5). -/
def F.CAL_BANK_DUE (i : Nat) : Fld := ⟨0x200 + 4 * i, 8, 2, 0, 465⟩
/-- `CAL_BANK_TEMP` of entry i (Table 13-5). -/
def F.CAL_BANK_TEMP (i : Nat) : Fld := ⟨0x200 + 4 * i, 16, 8, 0, 466⟩
/-- `CAL_ABORTS` (Table 13-5). -/
def F.CAL_ABORTS : Fld := ⟨0x50, 0, 32, 0, 467⟩
/-- `FLASH_ERR` (Table 13-5). -/
def F.FLASH_ERR : Fld := ⟨0x54, 0, 32, 0, 468⟩

/-! ### MEM device page (Table 14-8) -/

/-- `MEM_SPEED_TARGET` (Table 14-8). -/
def F.MEM_SPEED_TARGET : Fld := ⟨0x100, 0, 1, 0, 469⟩
/-- `MEM_SPEED_ACTIVE` (Table 14-8). -/
def F.MEM_SPEED_ACTIVE : Fld := ⟨0x100, 4, 1, 0, 470⟩
/-- `MEM_SPEED_PENDING` (Table 14-8). -/
def F.MEM_SPEED_PENDING : Fld := ⟨0x100, 8, 1, 0, 471⟩
/-- `MEM_TEMP_TEMP` (Table 14-8). -/
def F.MEM_TEMP_TEMP : Fld := ⟨0x104, 0, 8, 0, 472⟩
/-- `MEM_TEMP_VALID` (Table 14-8). -/
def F.MEM_TEMP_VALID : Fld := ⟨0x104, 8, 1, 0, 473⟩
/-- `MEM_TEMP_HOT_RATE` (Table 14-8). -/
def F.MEM_TEMP_HOT_RATE : Fld := ⟨0x104, 16, 1, 0, 474⟩
/-- `MEM_TEMP_SEVERE` (Table 14-8). -/
def F.MEM_TEMP_SEVERE : Fld := ⟨0x104, 17, 1, 0, 475⟩
/-- `MEM_REF_CFG_THR` (Table 14-8). -/
def F.MEM_REF_CFG_THR : Fld := ⟨0x108, 0, 8, 0x55, 476⟩
/-- `MEM_AGE_C3` (Table 14-8). -/
def F.MEM_AGE_C3 : Fld := ⟨0x10c, 0, 16, 0x7d0, 477⟩
/-- `MEM_AGE_C4` (Table 14-8). -/
def F.MEM_AGE_C4 : Fld := ⟨0x10c, 16, 16, 0x3e8, 478⟩
/-- `MEM_HOT_BW` (Table 14-8). -/
def F.MEM_HOT_BW : Fld := ⟨0x110, 0, 8, 8, 479⟩
/-- `MEM_SCRUB_EN` (Table 14-8). -/
def F.MEM_SCRUB_EN : Fld := ⟨0x114, 0, 1, 1, 480⟩
/-- `MEM_SCRUB_POS` (Table 14-8). -/
def F.MEM_SCRUB_POS : Fld := ⟨0x118, 0, 26, 0, 481⟩
/-- `MEM_LANE_THR` (Table 14-8). -/
def F.MEM_LANE_THR : Fld := ⟨0x11c, 0, 16, 0x400, 482⟩
/-- `MEM_LANE_SEL` (Table 14-8). -/
def F.MEM_LANE_SEL : Fld := ⟨0x120, 0, 4, 0, 483⟩
/-- `MEM_LANE_MASK0` (Table 14-8). -/
def F.MEM_LANE_MASK0 : Fld := ⟨0x124, 0, 32, 0, 484⟩
/-- `MEM_LANE_MASK1` (Table 14-8). -/
def F.MEM_LANE_MASK1 : Fld := ⟨0x128, 0, 32, 0, 485⟩
/-- `MEM_LANE_MASK2` (Table 14-8). -/
def F.MEM_LANE_MASK2 : Fld := ⟨0x12c, 0, 8, 0, 486⟩
/-- `MEM_MAP_Q` (Table 14-8). -/
def F.MEM_MAP_Q : Fld := ⟨0x130, 0, 25, 0, 487⟩
/-- `MEM_MAP_ENT` (Table 14-8). -/
def F.MEM_MAP_ENT : Fld := ⟨0x134, 0, 64, 0, 488⟩
/-- `MEM_SPARES` (Table 14-8). -/
def F.MEM_SPARES : Fld := ⟨0x140, 0, 21, 0x100000, 489⟩
/-- `MEM_UE_FRAME_FRAME` (Table 14-8). -/
def F.MEM_UE_FRAME_FRAME : Fld := ⟨0x148, 0, 26, 0, 490⟩
/-- `MEM_UE_FRAME_BLOCK` (Table 14-8). -/
def F.MEM_UE_FRAME_BLOCK : Fld := ⟨0x148, 26, 4, 0, 491⟩
/-- `MEM_UE_INFO_CLASS` (Table 14-8). -/
def F.MEM_UE_INFO_CLASS : Fld := ⟨0x14c, 0, 3, 0, 492⟩
/-- `MEM_UE_INFO_PART` (Table 14-8). -/
def F.MEM_UE_INFO_PART : Fld := ⟨0x14c, 3, 2, 0, 493⟩
/-- `MEM_UE_INFO_RESERVED` (Table 14-8). -/
def F.MEM_UE_INFO_RESERVED : Fld := ⟨0x14c, 5, 1, 0, 494⟩
/-- `MEM_UE_INFO_WRITE` (Table 14-8). -/
def F.MEM_UE_INFO_WRITE : Fld := ⟨0x14c, 8, 1, 0, 495⟩
/-- `MEM_UE_INFO_VALID` (Table 14-8). -/
def F.MEM_UE_INFO_VALID : Fld := ⟨0x14c, 9, 1, 0, 496⟩
/-- `MEM_UE_TIME` (Table 14-8). -/
def F.MEM_UE_TIME : Fld := ⟨0x150, 0, 32, 0, 497⟩
/-- `MEM_GRAIN_G_0` (Table 14-8). -/
def F.MEM_GRAIN_G_0 : Fld := ⟨0x160, 0, 3, 0, 498⟩
/-- `MEM_GRAIN_SET_0` (Table 14-8). -/
def F.MEM_GRAIN_SET_0 : Fld := ⟨0x160, 3, 1, 0, 499⟩
/-- `MEM_GRAIN_G_1` (Table 14-8). -/
def F.MEM_GRAIN_G_1 : Fld := ⟨0x160, 4, 3, 0, 500⟩
/-- `MEM_GRAIN_SET_1` (Table 14-8). -/
def F.MEM_GRAIN_SET_1 : Fld := ⟨0x160, 7, 1, 0, 501⟩
/-- `MEM_GRAIN_G_2` (Table 14-8). -/
def F.MEM_GRAIN_G_2 : Fld := ⟨0x160, 8, 3, 0, 502⟩
/-- `MEM_GRAIN_SET_2` (Table 14-8). -/
def F.MEM_GRAIN_SET_2 : Fld := ⟨0x160, 11, 1, 0, 503⟩
/-- `MEM_GRAIN_G_3` (Table 14-8). -/
def F.MEM_GRAIN_G_3 : Fld := ⟨0x160, 12, 3, 0, 504⟩
/-- `MEM_GRAIN_SET_3` (Table 14-8). -/
def F.MEM_GRAIN_SET_3 : Fld := ⟨0x160, 15, 1, 0, 505⟩
/-- `MEM_CE_BLOCKS` (Table 14-8). -/
def F.MEM_CE_BLOCKS : Fld := ⟨0x50, 0, 32, 0, 506⟩
/-- `MEM_CE_SYMBOLS` (Table 14-8). -/
def F.MEM_CE_SYMBOLS : Fld := ⟨0x54, 0, 32, 0, 507⟩
/-- `MEM_UE` (Table 14-8). -/
def F.MEM_UE : Fld := ⟨0x58, 0, 32, 0, 508⟩
/-- `MEM_SCRUB_PASSES` (Table 14-8). -/
def F.MEM_SCRUB_PASSES : Fld := ⟨0x5c, 0, 32, 0, 509⟩
/-- `MEM_RETIRED` (Table 14-8). -/
def F.MEM_RETIRED : Fld := ⟨0x60, 0, 32, 0, 510⟩
/-- `MEM_REF_CATCHUP` (Table 14-8). -/
def F.MEM_REF_CATCHUP : Fld := ⟨0x64, 0, 32, 0, 511⟩
/-- `MEM_SPEED_ABORT` (Table 14-8). -/
def F.MEM_SPEED_ABORT : Fld := ⟨0x68, 0, 32, 0, 512⟩

/-! ### MEM partition page (Table 14-9) -/

/-- `MEM_P_STAT_QUOTA` (Table 14-9). -/
def F.MEM_P_STAT_QUOTA : Fld := ⟨0x100, 0, 6, 0, 513⟩
/-- `MEM_P_STAT_CLEARING` (Table 14-9). -/
def F.MEM_P_STAT_CLEARING : Fld := ⟨0x100, 8, 1, 0, 514⟩
/-- `MEM_P_STAT_GRAIN` (Table 14-9). -/
def F.MEM_P_STAT_GRAIN : Fld := ⟨0x100, 16, 3, 0, 515⟩
/-- `MEM_P_UE_ADDR_LO` (Table 14-9). -/
def F.MEM_P_UE_ADDR_LO : Fld := ⟨0x104, 10, 22, 0, 516⟩
/-- `MEM_P_UE_ADDR_HI` (Table 14-9). -/
def F.MEM_P_UE_ADDR_HI : Fld := ⟨0x108, 0, 3, 0, 517⟩
/-- `MEM_P_UE_INFO_BLOCK` (Table 14-9). -/
def F.MEM_P_UE_INFO_BLOCK : Fld := ⟨0x10c, 0, 4, 0, 518⟩
/-- `MEM_P_UE_INFO_CLASS` (Table 14-9). -/
def F.MEM_P_UE_INFO_CLASS : Fld := ⟨0x10c, 4, 3, 0, 519⟩
/-- `MEM_P_UE_INFO_WRITE` (Table 14-9). -/
def F.MEM_P_UE_INFO_WRITE : Fld := ⟨0x10c, 8, 1, 0, 520⟩
/-- `MEM_P_UE_INFO_VALID` (Table 14-9). -/
def F.MEM_P_UE_INFO_VALID : Fld := ⟨0x10c, 9, 1, 0, 521⟩
/-- `MEM_P_UE` (Table 14-9). -/
def F.MEM_P_UE : Fld := ⟨0x50, 0, 32, 0, 522⟩
/-- `MEM_P_CE` (Table 14-9). -/
def F.MEM_P_CE : Fld := ⟨0x54, 0, 32, 0, 523⟩
/-- `MEM_P_C1_BYTES` (Table 14-9). -/
def F.MEM_P_C1_BYTES : Fld := ⟨0x58, 0, 64, 0, 524⟩
/-- `MEM_P_C2_BYTES` (Table 14-9). -/
def F.MEM_P_C2_BYTES : Fld := ⟨0x60, 0, 64, 0, 525⟩
/-- `MEM_P_C3_BYTES` (Table 14-9). -/
def F.MEM_P_C3_BYTES : Fld := ⟨0x68, 0, 64, 0, 526⟩

/-! ### HIF device page (Table 15-8) -/

/-- `HIF_DEV_STAT_BIFUR` (Table 15-8). -/
def F.HIF_DEV_STAT_BIFUR : Fld := ⟨0x100, 0, 2, 2, 527⟩
/-- `HIF_DEV_STAT_PRIV` (Table 15-8). -/
def F.HIF_DEV_STAT_PRIV : Fld := ⟨0x100, 2, 1, 1, 528⟩
/-- `HIF_DEV_STAT_MOVING` (Table 15-8). -/
def F.HIF_DEV_STAT_MOVING : Fld := ⟨0x100, 3, 1, 0, 529⟩
/-- `HIF_DEV_STAT_PORT_UP` (Table 15-8). -/
def F.HIF_DEV_STAT_PORT_UP : Fld := ⟨0x100, 4, 4, 0, 530⟩
/-- `HIF_DEV_STAT_PRESET` (Table 15-8). -/
def F.HIF_DEV_STAT_PRESET : Fld := ⟨0x100, 8, 4, 0, 531⟩
/-- `HIF_BANK_OWN_LO` (Table 15-8). -/
def F.HIF_BANK_OWN_LO : Fld := ⟨0x104, 0, 32, 0, 532⟩
/-- `HIF_BANK_OWN_HI` (Table 15-8). -/
def F.HIF_BANK_OWN_HI : Fld := ⟨0x108, 0, 32, 0, 533⟩
/-- `HIF_QUOTA_0` (Table 15-8). -/
def F.HIF_QUOTA_0 : Fld := ⟨0x10c, 0, 6, 0x20, 534⟩
/-- `HIF_QUOTA_1` (Table 15-8). -/
def F.HIF_QUOTA_1 : Fld := ⟨0x10c, 8, 6, 0, 535⟩
/-- `HIF_QUOTA_2` (Table 15-8). -/
def F.HIF_QUOTA_2 : Fld := ⟨0x10c, 16, 6, 0, 536⟩
/-- `HIF_QUOTA_3` (Table 15-8). -/
def F.HIF_QUOTA_3 : Fld := ⟨0x10c, 24, 6, 0, 537⟩

/-! ### HIF partition page (Table 15-8) -/

/-- `HIF_P_LINK_SPEED` (Table 15-8). -/
def F.HIF_P_LINK_SPEED : Fld := ⟨0x100, 0, 3, 0, 538⟩
/-- `HIF_P_LINK_WIDTH` (Table 15-8). -/
def F.HIF_P_LINK_WIDTH : Fld := ⟨0x100, 4, 4, 0, 539⟩
/-- `HIF_P_WIN` (Table 15-8). -/
def F.HIF_P_WIN : Fld := ⟨0x104, 0, 7, 0, 540⟩
/-- `HIF_P_IMAP` of entry i (Table 15-8). -/
def F.HIF_P_IMAP (i : Nat) : Fld := ⟨0x200 + 4 * i, 0, 32, 0x03020100 + 0x04040404 * i, 541⟩
/-- `BAD_ACCESS` (Table 15-8). -/
def F.BAD_ACCESS : Fld := ⟨0x50, 0, 32, 0, 542⟩
/-- `OOR_ACCESS` (Table 15-8). -/
def F.OOR_ACCESS : Fld := ⟨0x54, 0, 32, 0, 543⟩
/-- `NONOWN_WR` (Table 15-8). -/
def F.NONOWN_WR : Fld := ⟨0x58, 0, 32, 0, 544⟩
/-- `POISON_RX` (Table 15-8). -/
def F.POISON_RX : Fld := ⟨0x5c, 0, 32, 0, 545⟩
/-- `CPL_LOST` (Table 15-8). -/
def F.CPL_LOST : Fld := ⟨0x60, 0, 32, 0, 546⟩

/-! ### BAR4 (Table 15-9) -/

/-- `MBX_CMD_SLOT` of entry i (Table 15-9). -/
def F.MBX_CMD_SLOT (i : Nat) : Fld := ⟨0 + 4 * i, 0, 32, 0, 547⟩
/-- `MBX_RSP_SLOT` of entry i (Table 15-9). -/
def F.MBX_RSP_SLOT (i : Nat) : Fld := ⟨0x4000 + 4 * i, 0, 32, 0, 548⟩
/-- `MBX_CMD_PROD` (Table 15-9). -/
def F.MBX_CMD_PROD : Fld := ⟨0x8000, 0, 32, 0, 549⟩
/-- `MBX_CMD_CONS` (Table 15-9). -/
def F.MBX_CMD_CONS : Fld := ⟨0x8004, 0, 32, 0, 550⟩
/-- `MBX_RSP_PROD` (Table 15-9). -/
def F.MBX_RSP_PROD : Fld := ⟨0x8008, 0, 32, 0, 551⟩
/-- `MBX_RSP_CONS` (Table 15-9). -/
def F.MBX_RSP_CONS : Fld := ⟨0x800c, 0, 32, 0, 552⟩
/-- `DESC_CTRL_EN` of entry i (Table 15-9). -/
def F.DESC_CTRL_EN (i : Nat) : Fld := ⟨0x10000 + 0x100 * i, 0, 1, 0, 553⟩
/-- `DESC_CTRL_SIZE` of entry i (Table 15-9). -/
def F.DESC_CTRL_SIZE (i : Nat) : Fld := ⟨0x10000 + 0x100 * i, 8, 5, 4, 554⟩
/-- `DESC_BASE` of entry i (Table 15-9). -/
def F.DESC_BASE (i : Nat) : Fld := ⟨0x10004 + 0x100 * i, 12, 52, 0, 555⟩
/-- `DESC_CPL_BASE` of entry i (Table 15-9). -/
def F.DESC_CPL_BASE (i : Nat) : Fld := ⟨0x1000c + 0x100 * i, 12, 52, 0, 556⟩
/-- `DESC_PROD` of entry i (Table 15-9). -/
def F.DESC_PROD (i : Nat) : Fld := ⟨0x10014 + 0x100 * i, 0, 32, 0, 557⟩
/-- `DESC_CONS` of entry i (Table 15-9). -/
def F.DESC_CONS (i : Nat) : Fld := ⟨0x10018 + 0x100 * i, 0, 32, 0, 558⟩
/-- `DESC_CPL_PROD` of entry i (Table 15-9). -/
def F.DESC_CPL_PROD (i : Nat) : Fld := ⟨0x1001c + 0x100 * i, 0, 32, 0, 559⟩
/-- `DESC_CPL_CONS` of entry i (Table 15-9). -/
def F.DESC_CPL_CONS (i : Nat) : Fld := ⟨0x10020 + 0x100 * i, 0, 32, 0, 560⟩
/-- `DESC_STAT_ERROR` of entry i (Table 15-9). -/
def F.DESC_STAT_ERROR (i : Nat) : Fld := ⟨0x10024 + 0x100 * i, 0, 1, 0, 561⟩
/-- `DESC_STAT_HELD` of entry i (Table 15-9). -/
def F.DESC_STAT_HELD (i : Nat) : Fld := ⟨0x10024 + 0x100 * i, 1, 1, 0, 562⟩
/-- `RING_CTRL_EN` of entry i (Table 15-9). -/
def F.RING_CTRL_EN (i : Nat) : Fld := ⟨0x20000 + 0x100 * i, 0, 1, 0, 563⟩
/-- `RING_CTRL_MODE` of entry i (Table 15-9). -/
def F.RING_CTRL_MODE (i : Nat) : Fld := ⟨0x20000 + 0x100 * i, 1, 1, 0, 564⟩
/-- `RING_CTRL_PAGE` of entry i (Table 15-9). -/
def F.RING_CTRL_PAGE (i : Nat) : Fld := ⟨0x20000 + 0x100 * i, 2, 3, 0, 565⟩
/-- `RING_CTRL_NPAGES` of entry i (Table 15-9). -/
def F.RING_CTRL_NPAGES (i : Nat) : Fld := ⟨0x20000 + 0x100 * i, 8, 9, 2, 566⟩
/-- `RING_BASE_LO` of entry i (Table 15-9). -/
def F.RING_BASE_LO (i : Nat) : Fld := ⟨0x20004 + 0x100 * i, 16, 16, 0, 567⟩
/-- `RING_BASE_HI` of entry i (Table 15-9). -/
def F.RING_BASE_HI (i : Nat) : Fld := ⟨0x20008 + 0x100 * i, 0, 3, 0, 568⟩
/-- `RING_LOW` of entry i (Table 15-9). -/
def F.RING_LOW (i : Nat) : Fld := ⟨0x2000c + 0x100 * i, 0, 23, 0, 569⟩
/-- `RING_WR` of entry i (Table 15-9). -/
def F.RING_WR (i : Nat) : Fld := ⟨0x20010 + 0x100 * i, 0, 64, 0, 570⟩
/-- `RING_RD` of entry i (Table 15-9). -/
def F.RING_RD (i : Nat) : Fld := ⟨0x20018 + 0x100 * i, 0, 64, 0, 571⟩
/-- `RING_STAT_UNDERRUN` of entry i (Table 15-9). -/
def F.RING_STAT_UNDERRUN (i : Nat) : Fld := ⟨0x20020 + 0x100 * i, 0, 1, 0, 572⟩
/-- `RING_STAT_ERROR` of entry i (Table 15-9). -/
def F.RING_STAT_ERROR (i : Nat) : Fld := ⟨0x20020 + 0x100 * i, 1, 1, 0, 573⟩
/-- `RING_STAT_BOUND` of entry i (Table 15-9). -/
def F.RING_STAT_BOUND (i : Nat) : Fld := ⟨0x20020 + 0x100 * i, 2, 1, 0, 574⟩
/-- `RING_STAT_FQ_LEVEL` of entry i (Table 15-9). -/
def F.RING_STAT_FQ_LEVEL (i : Nat) : Fld := ⟨0x20020 + 0x100 * i, 8, 7, 0, 575⟩
/-- `RING_STAT_ROUTE` of entry i (Table 15-9). -/
def F.RING_STAT_ROUTE (i : Nat) : Fld := ⟨0x20020 + 0x100 * i, 16, 6, 0, 576⟩
/-- `RING_FETCH_ADDR` of entry i (Table 15-9). -/
def F.RING_FETCH_ADDR (i : Nat) : Fld := ⟨0x20028 + 0x100 * i, 6, 58, 0, 577⟩
/-- `RING_FETCH_LEN` of entry i (Table 15-9). -/
def F.RING_FETCH_LEN (i : Nat) : Fld := ⟨0x20030 + 0x100 * i, 0, 23, 0, 578⟩
/-- `RING_STALLS` of entry i (Table 15-9). -/
def F.RING_STALLS (i : Nat) : Fld := ⟨0x20034 + 0x100 * i, 0, 32, 0, 579⟩
/-- `MSIX_TABLE` of entry i (Table 15-9). -/
def F.MSIX_TABLE (i : Nat) : Fld := ⟨0xf0000 + 4 * i, 0, 32, if i % 4 = 3 then 1 else 0, 580⟩
/-- `MSIX_PBA` of entry i (Table 15-9). -/
def F.MSIX_PBA (i : Nat) : Fld := ⟨0xf8000 + 4 * i, 0, 32, 0, 581⟩

/-! ### Common page header (Table 16-2) -/

/-- `BLK_ID_LAYOUT` (Table 16-2). -/
def F.BLK_ID_LAYOUT : Fld := ⟨0, 0, 8, 1, 582⟩
/-- `BLK_ID_INSTANCE` (Table 16-2). -/
def F.BLK_ID_INSTANCE : Fld := ⟨0, 8, 8, 0, 583⟩
/-- `BLK_ID_TYPE` (Table 16-2). -/
def F.BLK_ID_TYPE : Fld := ⟨0, 16, 16, 0, 584⟩
/-- `BLK_CAP_SIZE` (Table 16-2). -/
def F.BLK_CAP_SIZE : Fld := ⟨4, 0, 4, 0, 585⟩
/-- `BLK_CAP_EN_IMPL` (Table 16-2). -/
def F.BLK_CAP_EN_IMPL : Fld := ⟨4, 4, 1, 0, 586⟩
/-- `BLK_CAP_PDOM` (Table 16-2). -/
def F.BLK_CAP_PDOM : Fld := ⟨4, 8, 6, 0, 587⟩
/-- `BLK_CAP_NCNT` (Table 16-2). -/
def F.BLK_CAP_NCNT : Fld := ⟨4, 16, 8, 0, 588⟩
/-- `BLK_CTRL_EN` (Table 16-2). -/
def F.BLK_CTRL_EN : Fld := ⟨8, 0, 1, 1, 589⟩
/-- `BLK_STAT_ON` (Table 16-2). -/
def F.BLK_STAT_ON : Fld := ⟨0xc, 0, 1, 1, 590⟩
/-- `BLK_STAT_ON_PENDING` (Table 16-2). -/
def F.BLK_STAT_ON_PENDING : Fld := ⟨0xc, 1, 1, 0, 591⟩
/-- `BLK_STAT_OFF_PENDING` (Table 16-2). -/
def F.BLK_STAT_OFF_PENDING : Fld := ⟨0xc, 2, 1, 0, 592⟩
/-- `BLK_STAT_SAFE` (Table 16-2). -/
def F.BLK_STAT_SAFE : Fld := ⟨0xc, 3, 1, 0, 593⟩
/-- `BLK_STAT_LOCKED` (Table 16-2). -/
def F.BLK_STAT_LOCKED : Fld := ⟨0xc, 4, 1, 0, 594⟩
/-- `INT_RAW` (Table 16-2). -/
def F.INT_RAW : Fld := ⟨0x10, 0, 32, 0, 595⟩
/-- `INT_EN` (Table 16-2). -/
def F.INT_EN : Fld := ⟨0x14, 0, 32, 0, 596⟩
/-- `INT_PEND` (Table 16-2). -/
def F.INT_PEND : Fld := ⟨0x18, 0, 32, 0, 597⟩
/-- `INT_SET` (Table 16-2). -/
def F.INT_SET : Fld := ⟨0x1c, 0, 32, 0, 598⟩
/-- `FLT_CAUSE` (Table 16-2). -/
def F.FLT_CAUSE : Fld := ⟨0x20, 0, 32, 0, 599⟩
/-- `FLT_LIVE` (Table 16-2). -/
def F.FLT_LIVE : Fld := ⟨0x24, 0, 32, 0, 600⟩
/-- `FLT_SEVERE` (Table 16-2). -/
def F.FLT_SEVERE : Fld := ⟨0x28, 0, 32, 0, 601⟩
/-- `FLT_CNT` (Table 16-2). -/
def F.FLT_CNT : Fld := ⟨0x2c, 0, 32, 0, 602⟩
/-- `FLT_WIN` (Table 16-2). -/
def F.FLT_WIN : Fld := ⟨0x30, 0, 24, 0xf4240, 603⟩
/-- `FLT_THR` (Table 16-2). -/
def F.FLT_THR : Fld := ⟨0x34, 0, 16, 0x10, 604⟩
/-- `FLT_GRACE` (Table 16-2). -/
def F.FLT_GRACE : Fld := ⟨0x38, 0, 16, 0x64, 605⟩
/-- `FLT_ACTION` (Table 16-2). -/
def F.FLT_ACTION : Fld := ⟨0x3c, 0, 2, 0, 606⟩
/-- `FLT_ERRPIN` (Table 16-2). -/
def F.FLT_ERRPIN : Fld := ⟨0x40, 0, 32, 0, 607⟩
/-- `PAR_STAT_OFFSET` (Table 16-2). -/
def F.PAR_STAT_OFFSET : Fld := ⟨0x44, 0, 16, 0, 608⟩
/-- `PAR_STAT_VALID` (Table 16-2). -/
def F.PAR_STAT_VALID : Fld := ⟨0x44, 16, 1, 0, 609⟩
/-- `PAR_STAT_COUNT` (Table 16-2). -/
def F.PAR_STAT_COUNT : Fld := ⟨0x44, 24, 8, 0, 610⟩
/-- `LOCK` (Table 16-2). -/
def F.LOCK : Fld := ⟨0x48, 0, 1, 0, 611⟩
/-- `OWNER` (Table 16-2). -/
def F.OWNER : Fld := ⟨0x4c, 0, 3, 0, 612⟩
/-- `WRITE_LOCKED` (Table 16-2). -/
def F.WRITE_LOCKED : Fld := ⟨0xf8, 0, 32, 0, 613⟩
/-- `CPL_ERR` (Table 16-2). -/
def F.CPL_ERR : Fld := ⟨0xfc, 0, 32, 0, 614⟩

/-! ### MGT device page (Table 17-7) -/

/-- `MGT_ERR_LOW` (Table 17-7). -/
def F.MGT_ERR_LOW : Fld := ⟨0x100, 0, 1, 0, 615⟩
/-- `MGT_ERR_SEVERE` (Table 17-7). -/
def F.MGT_ERR_SEVERE : Fld := ⟨0x100, 1, 1, 0, 616⟩
/-- `MGT_ERR_HALTED` (Table 17-7). -/
def F.MGT_ERR_HALTED : Fld := ⟨0x100, 2, 1, 0, 617⟩
/-- `MGT_SEV_BLK` (Table 17-7). -/
def F.MGT_SEV_BLK : Fld := ⟨0x104, 1, 17, 0, 618⟩
/-- `MGT_HALT_TYPE` (Table 17-7). -/
def F.MGT_HALT_TYPE : Fld := ⟨0x108, 0, 16, 0, 619⟩
/-- `MGT_HALT_INST` (Table 17-7). -/
def F.MGT_HALT_INST : Fld := ⟨0x108, 16, 8, 0, 620⟩
/-- `MGT_HALT_CAUSE` (Table 17-7). -/
def F.MGT_HALT_CAUSE : Fld := ⟨0x108, 24, 5, 0, 621⟩
/-- `MGT_EVLOG_IDX` (Table 17-7). -/
def F.MGT_EVLOG_IDX : Fld := ⟨0x110, 0, 12, 0, 622⟩
/-- `MGT_EVLOG_DATA` of entry i (Table 17-7). -/
def F.MGT_EVLOG_DATA (i : Nat) : Fld := ⟨0x114 + 4 * i, 0, 32, 0, 623⟩
/-- `MGT_EVLOG_WCNT` (Table 17-7). -/
def F.MGT_EVLOG_WCNT : Fld := ⟨0x128, 0, 64, 0, 624⟩
/-- `MGT_EVLOG_OVWR` (Table 17-7). -/
def F.MGT_EVLOG_OVWR : Fld := ⟨0x130, 0, 32, 0, 625⟩
/-- `MGT_EVLOG_MARK` (Table 17-7). -/
def F.MGT_EVLOG_MARK : Fld := ⟨0x134, 0, 16, 0, 626⟩
/-- `CLR_REFUSED` (Table 17-7). -/
def F.CLR_REFUSED : Fld := ⟨0x50, 0, 32, 0, 627⟩
/-- `ESCALATIONS` (Table 17-7). -/
def F.ESCALATIONS : Fld := ⟨0x54, 0, 32, 0, 628⟩

/-! ### MGT partition page (Table 17-8) -/

/-- `MGT_P_STAT_SEVERE` (Table 17-8). -/
def F.MGT_P_STAT_SEVERE : Fld := ⟨0x100, 0, 1, 0, 629⟩
/-- `MGT_P_STAT_ESCALATED` (Table 17-8). -/
def F.MGT_P_STAT_ESCALATED : Fld := ⟨0x100, 1, 1, 0, 630⟩
/-- `MGT_P_LAST_TYPE` (Table 17-8). -/
def F.MGT_P_LAST_TYPE : Fld := ⟨0x104, 0, 16, 0, 631⟩
/-- `MGT_P_LAST_INST` (Table 17-8). -/
def F.MGT_P_LAST_INST : Fld := ⟨0x104, 16, 8, 0, 632⟩
/-- `MGT_P_LAST_CAUSE` (Table 17-8). -/
def F.MGT_P_LAST_CAUSE : Fld := ⟨0x104, 24, 5, 0, 633⟩

/-! ### PWR device page (Table 18-8) -/

/-- `PWR_STAT_STATE` (Table 18-8). -/
def F.PWR_STAT_STATE : Fld := ⟨0x100, 0, 2, 0, 634⟩
/-- `PWR_STAT_VIN_OK` (Table 18-8). -/
def F.PWR_STAT_VIN_OK : Fld := ⟨0x100, 4, 1, 1, 635⟩
/-- `PWR_DOM_ON` (Table 18-8). -/
def F.PWR_DOM_ON : Fld := ⟨0x104, 0, 30, 0x3fffffff, 636⟩
/-- `PWR_TJ` (Table 18-8). -/
def F.PWR_TJ : Fld := ⟨0x108, 0, 8, 0, 637⟩
/-- `PWR_SLEEP_CTRL_WAKE_EN` (Table 18-8). -/
def F.PWR_SLEEP_CTRL_WAKE_EN : Fld := ⟨0x10c, 0, 1, 1, 638⟩
/-- `PWR_SLEEP_CTRL_PCIE_EN` (Table 18-8). -/
def F.PWR_SLEEP_CTRL_PCIE_EN : Fld := ⟨0x10c, 1, 1, 1, 639⟩
/-- `PWR_SLEEP_CTRL_TIMER_EN` (Table 18-8). -/
def F.PWR_SLEEP_CTRL_TIMER_EN : Fld := ⟨0x10c, 2, 1, 0, 640⟩
/-- `PWR_SLEEP_CTRL_SREQ_EN` (Table 18-8). -/
def F.PWR_SLEEP_CTRL_SREQ_EN : Fld := ⟨0x10c, 3, 1, 0, 641⟩
/-- `PWR_WAKE_TIME_SEC_LO` (Table 18-8). -/
def F.PWR_WAKE_TIME_SEC_LO : Fld := ⟨0x110, 0, 32, 0, 642⟩
/-- `PWR_WAKE_TIME_SEC_HI` (Table 18-8). -/
def F.PWR_WAKE_TIME_SEC_HI : Fld := ⟨0x114, 0, 16, 0, 643⟩
/-- `PWR_WAKE_TIME_NS` (Table 18-8). -/
def F.PWR_WAKE_TIME_NS : Fld := ⟨0x118, 0, 32, 0, 644⟩
/-- `PWR_LAST_WAKE_SRC` (Table 18-8). -/
def F.PWR_LAST_WAKE_SRC : Fld := ⟨0x11c, 0, 3, 0, 645⟩
/-- `PWR_ILIM` (Table 18-8). -/
def F.PWR_ILIM : Fld := ⟨0x120, 0, 7, 0x70, 646⟩
/-- `PWR_MON_VIN` (Table 18-8). -/
def F.PWR_MON_VIN : Fld := ⟨0x124, 0, 16, 0, 647⟩
/-- `PWR_MON_IIN` (Table 18-8). -/
def F.PWR_MON_IIN : Fld := ⟨0x124, 16, 16, 0, 648⟩
/-- `SLEEPS` (Table 18-8). -/
def F.SLEEPS : Fld := ⟨0x50, 0, 32, 0, 649⟩
/-- `SLEEP_ABORTS` (Table 18-8). -/
def F.SLEEP_ABORTS : Fld := ⟨0x54, 0, 32, 0, 650⟩
/-- `BROWNOUTS` (Table 18-8). -/
def F.BROWNOUTS : Fld := ⟨0x58, 0, 32, 0, 651⟩

/-! ### PWR partition page (Table 18-8) -/

/-- `PWR_P_SLEEP_VOTE` (Table 18-8). -/
def F.PWR_P_SLEEP_VOTE : Fld := ⟨0x100, 0, 1, 0, 652⟩
/-- `PWR_P_STAT_STATE` (Table 18-8). -/
def F.PWR_P_STAT_STATE : Fld := ⟨0x104, 0, 2, 0, 653⟩
/-- `PWR_P_STAT_ALL_VOTED` (Table 18-8). -/
def F.PWR_P_STAT_ALL_VOTED : Fld := ⟨0x104, 4, 1, 0, 654⟩

/-! ### Recovery BAR0 (Table 19-9) -/

/-- `REC_ID` (Table 19-9). -/
def F.REC_ID : Fld := ⟨0, 0, 32, 0x525f0021, 655⟩
/-- `REC_STAT_BUSY` (Table 19-9). -/
def F.REC_STAT_BUSY : Fld := ⟨4, 0, 1, 0, 656⟩
/-- `REC_STAT_RESULT` (Table 19-9). -/
def F.REC_STAT_RESULT : Fld := ⟨4, 4, 4, 0, 657⟩
/-- `REC_STAT_REASON` (Table 19-9). -/
def F.REC_STAT_REASON : Fld := ⟨4, 8, 4, 0, 658⟩
/-- `REC_STAT_CAUSE` (Table 19-9). -/
def F.REC_STAT_CAUSE : Fld := ⟨4, 12, 1, 0, 659⟩
/-- `REC_OFFSET` (Table 19-9). -/
def F.REC_OFFSET : Fld := ⟨8, 12, 12, 0, 660⟩
/-- `REC_LEN` (Table 19-9). -/
def F.REC_LEN : Fld := ⟨0xc, 0, 16, 0, 661⟩
/-- `REC_CMD` (Table 19-9). -/
def F.REC_CMD : Fld := ⟨0x10, 0, 3, 0, 662⟩
/-- `REC_SLOT` (Table 19-9). -/
def F.REC_SLOT : Fld := ⟨0x14, 0, 1, 0, 663⟩
/-- `REC_BUFFER` of entry i (Table 19-9). -/
def F.REC_BUFFER (i : Nat) : Fld := ⟨0x8000 + 4 * i, 0, 32, 0, 664⟩

/-! ### BOOT page (Table 19-10) -/

/-- `BOOT_STAT_READY` (Table 19-10). -/
def F.BOOT_STAT_READY : Fld := ⟨0x100, 0, 1, 0, 665⟩
/-- `BOOT_STAT_SLOT` (Table 19-10). -/
def F.BOOT_STAT_SLOT : Fld := ⟨0x100, 1, 1, 0, 666⟩
/-- `BOOT_STAT_TRIAL` (Table 19-10). -/
def F.BOOT_STAT_TRIAL : Fld := ⟨0x100, 2, 1, 0, 667⟩
/-- `BOOT_STAT_FALLBACK` (Table 19-10). -/
def F.BOOT_STAT_FALLBACK : Fld := ⟨0x100, 3, 1, 0, 668⟩
/-- `BOOT_LAST_REASON` (Table 19-10). -/
def F.BOOT_LAST_REASON : Fld := ⟨0x104, 0, 4, 0, 669⟩
/-- `BOOT_LAST_SLOT` (Table 19-10). -/
def F.BOOT_LAST_SLOT : Fld := ⟨0x104, 4, 1, 0, 670⟩
/-- `BOOT_LAST_PART` (Table 19-10). -/
def F.BOOT_LAST_PART : Fld := ⟨0x104, 8, 8, 0, 671⟩
/-- `BOOT_VER_ACT` (Table 19-10). -/
def F.BOOT_VER_ACT : Fld := ⟨0x108, 0, 32, 0, 672⟩
/-- `BOOT_SVN_ACT` (Table 19-10). -/
def F.BOOT_SVN_ACT : Fld := ⟨0x10c, 0, 32, 0, 673⟩
/-- `BOOT_SVN_MIN` (Table 19-10). -/
def F.BOOT_SVN_MIN : Fld := ⟨0x110, 0, 32, 0, 674⟩
/-- `BOOT_PART_SEL` (Table 19-10). -/
def F.BOOT_PART_SEL : Fld := ⟨0x114, 0, 4, 1, 675⟩
/-- `BOOT_PART_VER` (Table 19-10). -/
def F.BOOT_PART_VER : Fld := ⟨0x118, 0, 32, 0, 676⟩
/-- `BOOT_SLOT_STAT_A` (Table 19-10). -/
def F.BOOT_SLOT_STAT_A : Fld := ⟨0x11c, 0, 3, 0, 677⟩
/-- `BOOT_SLOT_STAT_B` (Table 19-10). -/
def F.BOOT_SLOT_STAT_B : Fld := ⟨0x11c, 4, 3, 0, 678⟩
/-- `BOOT_UPD_SRC_LO` (Table 19-10). -/
def F.BOOT_UPD_SRC_LO : Fld := ⟨0x120, 12, 20, 0, 679⟩
/-- `BOOT_UPD_SRC_HI` (Table 19-10). -/
def F.BOOT_UPD_SRC_HI : Fld := ⟨0x124, 0, 3, 0, 680⟩
/-- `BOOT_UPD_LEN` (Table 19-10). -/
def F.BOOT_UPD_LEN : Fld := ⟨0x128, 0, 24, 0, 681⟩
/-- `BOOT_UPD_CMD_WRITE` (Table 19-10). -/
def F.BOOT_UPD_CMD_WRITE : Fld := ⟨0x12c, 0, 1, 0, 682⟩
/-- `BOOT_UPD_CMD_PEND` (Table 19-10). -/
def F.BOOT_UPD_CMD_PEND : Fld := ⟨0x12c, 1, 1, 0, 683⟩
/-- `BOOT_UPD_CMD_UNPEND` (Table 19-10). -/
def F.BOOT_UPD_CMD_UNPEND : Fld := ⟨0x12c, 2, 1, 0, 684⟩
/-- `BOOT_UPD_CMD_RECOVER` (Table 19-10). -/
def F.BOOT_UPD_CMD_RECOVER : Fld := ⟨0x12c, 3, 1, 0, 685⟩
/-- `BOOT_UPD_STAT_BUSY` (Table 19-10). -/
def F.BOOT_UPD_STAT_BUSY : Fld := ⟨0x130, 0, 1, 0, 686⟩
/-- `BOOT_UPD_STAT_RESULT` (Table 19-10). -/
def F.BOOT_UPD_STAT_RESULT : Fld := ⟨0x130, 4, 4, 0, 687⟩
/-- `BOOT_VER_A` (Table 19-10). -/
def F.BOOT_VER_A : Fld := ⟨0x134, 0, 32, 0, 688⟩
/-- `BOOT_VER_B` (Table 19-10). -/
def F.BOOT_VER_B : Fld := ⟨0x138, 0, 32, 0, 689⟩
/-- `BOOT_FLASH_ID` (Table 19-10). -/
def F.BOOT_FLASH_ID : Fld := ⟨0x13c, 0, 24, 0, 690⟩
/-- `BOOT_FLASH_SIZE` (Table 19-10). -/
def F.BOOT_FLASH_SIZE : Fld := ⟨0x140, 0, 16, 0, 691⟩
/-- `BOOTS` (Table 19-10). -/
def F.BOOTS : Fld := ⟨0x50, 0, 32, 0, 692⟩
/-- `FALLBACKS` (Table 19-10). -/
def F.FALLBACKS : Fld := ⟨0x54, 0, 32, 0, 693⟩
/-- `FLASH_OPS` (Table 19-10). -/
def F.FLASH_OPS : Fld := ⟨0x58, 0, 32, 0, 694⟩

/-! ### LCS page (Table 20-8) -/

/-- `LCS_STATE_STATE` (Table 20-8). -/
def F.LCS_STATE_STATE : Fld := ⟨0x100, 0, 3, 2, 695⟩
/-- `LCS_STATE_CYCLES` (Table 20-8). -/
def F.LCS_STATE_CYCLES : Fld := ⟨0x100, 4, 2, 0, 696⟩
/-- `LCS_STATE_ERASE_PEND` (Table 20-8). -/
def F.LCS_STATE_ERASE_PEND : Fld := ⟨0x100, 8, 1, 0, 697⟩
/-- `LCS_TRANS_TARGET` (Table 20-8). -/
def F.LCS_TRANS_TARGET : Fld := ⟨0x104, 0, 3, 0, 698⟩
/-- `LCS_TRANS_ERASE` (Table 20-8). -/
def F.LCS_TRANS_ERASE : Fld := ⟨0x104, 8, 3, 0, 699⟩
/-- `LCS_TRANS_STAT_BUSY` (Table 20-8). -/
def F.LCS_TRANS_STAT_BUSY : Fld := ⟨0x108, 0, 1, 0, 700⟩
/-- `LCS_TRANS_STAT_RESULT` (Table 20-8). -/
def F.LCS_TRANS_STAT_RESULT : Fld := ⟨0x108, 4, 4, 0, 701⟩
/-- `LCS_SERIAL` (Table 20-8). -/
def F.LCS_SERIAL : Fld := ⟨0x110, 0, 64, 0, 702⟩
/-- `LCS_FUSE_SEL_WORD` (Table 20-8). -/
def F.LCS_FUSE_SEL_WORD : Fld := ⟨0x118, 0, 5, 0, 703⟩
/-- `LCS_FUSE_SEL_ROW` (Table 20-8). -/
def F.LCS_FUSE_SEL_ROW : Fld := ⟨0x118, 8, 8, 0, 704⟩
/-- `LCS_FUSE_DATA` (Table 20-8). -/
def F.LCS_FUSE_DATA : Fld := ⟨0x11c, 0, 32, 0, 705⟩
/-- `LCS_FUSE_CMD_PROG` (Table 20-8). -/
def F.LCS_FUSE_CMD_PROG : Fld := ⟨0x120, 0, 1, 0, 706⟩
/-- `LCS_FUSE_RD` (Table 20-8). -/
def F.LCS_FUSE_RD : Fld := ⟨0x124, 0, 32, 0, 707⟩
/-- `LCS_FUSE_STAT_BUSY` (Table 20-8). -/
def F.LCS_FUSE_STAT_BUSY : Fld := ⟨0x128, 0, 1, 0, 708⟩
/-- `LCS_FUSE_STAT_RESULT` (Table 20-8). -/
def F.LCS_FUSE_STAT_RESULT : Fld := ⟨0x128, 4, 4, 0, 709⟩
/-- `LCS_POLICY_AUTO` (Table 20-8). -/
def F.LCS_POLICY_AUTO : Fld := ⟨0x130, 1, 9, 0x1ff, 710⟩
/-- `LCS_PROP_HEAD_ID` (Table 20-8). -/
def F.LCS_PROP_HEAD_ID : Fld := ⟨0x134, 0, 8, 0, 711⟩
/-- `LCS_PROP_HEAD_KIND` (Table 20-8). -/
def F.LCS_PROP_HEAD_KIND : Fld := ⟨0x134, 8, 4, 0, 712⟩
/-- `LCS_PROP_HEAD_INST` (Table 20-8). -/
def F.LCS_PROP_HEAD_INST : Fld := ⟨0x134, 12, 12, 0, 713⟩
/-- `LCS_PROP_HEAD_CAUSE` (Table 20-8). -/
def F.LCS_PROP_HEAD_CAUSE : Fld := ⟨0x134, 24, 4, 0, 714⟩
/-- `LCS_PROP_HEAD_VALID` (Table 20-8). -/
def F.LCS_PROP_HEAD_VALID : Fld := ⟨0x134, 28, 1, 0, 715⟩
/-- `LCS_PROP_CTL_ID` (Table 20-8). -/
def F.LCS_PROP_CTL_ID : Fld := ⟨0x138, 0, 8, 0, 716⟩
/-- `LCS_PROP_CTL_APPROVE` (Table 20-8). -/
def F.LCS_PROP_CTL_APPROVE : Fld := ⟨0x138, 8, 1, 0, 717⟩
/-- `LCS_PROP_CTL_REJECT` (Table 20-8). -/
def F.LCS_PROP_CTL_REJECT : Fld := ⟨0x138, 9, 1, 0, 718⟩
/-- `LCS_PROP_STAT_LEVEL` (Table 20-8). -/
def F.LCS_PROP_STAT_LEVEL : Fld := ⟨0x13c, 0, 5, 0, 719⟩
/-- `LCS_PROP_LAST_ID` (Table 20-8). -/
def F.LCS_PROP_LAST_ID : Fld := ⟨0x140, 0, 8, 0, 720⟩
/-- `LCS_PROP_LAST_NO_SPARE` (Table 20-8). -/
def F.LCS_PROP_LAST_NO_SPARE : Fld := ⟨0x140, 8, 1, 0, 721⟩
/-- `LCS_ATTEST_PART` (Table 20-8). -/
def F.LCS_ATTEST_PART : Fld := ⟨0x150, 0, 2, 0, 722⟩
/-- `LCS_ATTEST_GO` (Table 20-8). -/
def F.LCS_ATTEST_GO : Fld := ⟨0x150, 8, 1, 0, 723⟩
/-- `LCS_ATTEST_NOKEY` (Table 20-8). -/
def F.LCS_ATTEST_NOKEY : Fld := ⟨0x150, 9, 1, 0, 724⟩
/-- `LCS_ATTEST_CHAL` of entry i (Table 20-8). -/
def F.LCS_ATTEST_CHAL (i : Nat) : Fld := ⟨0x160 + 4 * i, 0, 32, 0, 725⟩
/-- `LCS_ATTEST_TAG` of entry i (Table 20-8). -/
def F.LCS_ATTEST_TAG (i : Nat) : Fld := ⟨0x180 + 4 * i, 0, 32, 0, 726⟩
/-- `PROPOSALS` (Table 20-8). -/
def F.PROPOSALS : Fld := ⟨0x50, 0, 32, 0, 727⟩
/-- `PROP_MERGED` (Table 20-8). -/
def F.PROP_MERGED : Fld := ⟨0x54, 0, 32, 0, 728⟩
/-- `SUBSTITUTIONS` (Table 20-8). -/
def F.SUBSTITUTIONS : Fld := ⟨0x58, 0, 32, 0, 729⟩

/-! ### PTB page (Table 20-9) -/

/-- `PTB_UNLOCK` (Table 20-9). -/
def F.PTB_UNLOCK : Fld := ⟨0x100, 0, 1, 0, 730⟩
/-- `PTB_STAT_UNLOCKED` (Table 20-9). -/
def F.PTB_STAT_UNLOCKED : Fld := ⟨0x104, 0, 1, 0, 731⟩
/-- `PTB_STAT_ACTIVE` (Table 20-9). -/
def F.PTB_STAT_ACTIVE : Fld := ⟨0x104, 1, 1, 0, 732⟩
/-- `PTB_STAT_ANNOUNCED` (Table 20-9). -/
def F.PTB_STAT_ANNOUNCED : Fld := ⟨0x104, 2, 1, 0, 733⟩
/-- `PTB_TIMEOUT` (Table 20-9). -/
def F.PTB_TIMEOUT : Fld := ⟨0x108, 0, 16, 0, 734⟩
/-- `PTB_CTRL_EN` of entry i (Table 20-9). -/
def F.PTB_CTRL_EN (i : Nat) : Fld := ⟨0x110 + 0x10 * i, 0, 1, 0, 735⟩
/-- `PTB_CTRL_TYPE` of entry i (Table 20-9). -/
def F.PTB_CTRL_TYPE (i : Nat) : Fld := ⟨0x110 + 0x10 * i, 1, 4, 0, 736⟩
/-- `PTB_CTRL_A` of entry i (Table 20-9). -/
def F.PTB_CTRL_A (i : Nat) : Fld := ⟨0x110 + 0x10 * i, 8, 8, 0, 737⟩
/-- `PTB_CTRL_B` of entry i (Table 20-9). -/
def F.PTB_CTRL_B (i : Nat) : Fld := ⟨0x110 + 0x10 * i, 16, 16, 0, 738⟩
/-- `PTB_MAG` of entry i (Table 20-9). -/
def F.PTB_MAG (i : Nat) : Fld := ⟨0x114 + 0x10 * i, 0, 32, 0, 739⟩
/-- `PTB_RATE` of entry i (Table 20-9). -/
def F.PTB_RATE (i : Nat) : Fld := ⟨0x118 + 0x10 * i, 0, 5, 0, 740⟩
/-- `PTB_COUNT` of entry i (Table 20-9). -/
def F.PTB_COUNT (i : Nat) : Fld := ⟨0x11c + 0x10 * i, 0, 32, 0, 741⟩

/-- Word w of the set window (Tables 8-5, 8-6); the spec gives no reset value: 0 (log 6). -/
def F.BNK_SETWIN (i : Nat) : Fld := ⟨0x1000 + 4 * i, 0, 32, 0, 742⟩
/-- Device-wide sum of `EDG_LOST` (R322). -/
def F.EDG_LOST_SUM : Fld := ⟨0x50, 0, 32, 0, 743⟩
/-- Device-wide sum of `SR_DROP` (R322). -/
def F.SR_DROP_SUM : Fld := ⟨0x54, 0, 32, 0, 744⟩
/-- `CAL_P_REQ.CLASSES` of a CAL partition page (R363). -/
def F.CAL_P_REQ_CLASSES : Fld := ⟨0x100, 0, 3, 0, 745⟩
/-- `CAL_P_REQ.GO` of a CAL partition page (R363). -/
def F.CAL_P_REQ_GO : Fld := ⟨0x100, 8, 1, 0, 746⟩
/-- `CAL_P_REQ.BANKS` of a CAL partition page (R363). -/
def F.CAL_P_REQ_BANKS : Fld := ⟨0x100, 16, 16, 0, 747⟩
/-! ### Rows of each page -/

/-- Rows of the TIM device page (Table 2-2) and, with the same offsets, partition time bases (R63), part 0. -/
def rows_timBase0 : List RegRow := [
  ⟨fun _ => F.TIM_REF_CTRL_SEL, 0, 1, .rw, true, false⟩,
  ⟨fun _ => F.TIM_REF_CTRL_REVERT, 0, 1, .rw, true, false⟩,
  ⟨fun _ => F.TIM_REF_CTRL_SLEW, 0, 1, .rw, true, false⟩,
  ⟨fun _ => F.TIM_REF_CTRL_QUAL, 0, 1, .rw, true, false⟩,
  ⟨fun _ => F.TIM_REF_STAT_ACTIVE, 0, 1, .ro, false, false⟩,
  ⟨fun _ => F.TIM_REF_STAT_HOLDOVER, 0, 1, .ro, false, false⟩,
  ⟨fun _ => F.TIM_REF_STAT_SLEWING, 0, 1, .ro, false, false⟩,
  ⟨fun _ => F.TIM_REF_STAT_REFCLK_OK, 0, 1, .ro, false, false⟩,
  ⟨fun _ => F.TIM_REF_STAT_TL0_OK, 0, 1, .ro, false, false⟩,
  ⟨fun _ => F.TIM_REF_STAT_XTAL_OK, 0, 1, .ro, false, false⟩,
  ⟨fun _ => F.TIM_HOLD_EST, 0, 1, .ro, false, false⟩,
  ⟨fun _ => F.TIM_HOLD_TIME, 0, 1, .ro, false, false⟩,
  ⟨fun _ => F.TIM_AGEING_AGE, 0, 1, .rw, true, false⟩,
  ⟨fun _ => F.TIM_AGEING_AGE_UNC, 0, 1, .rw, true, false⟩,
  ⟨fun _ => F.TIM_FREQ_UNC, 0, 1, .ro, false, false⟩,
  ⟨fun _ => F.TIM_XTAL_OFFS, 0, 1, .ro, false, false⟩,
  ⟨fun _ => F.TIM_HOLD_LIM, 0, 1, .rw, true, false⟩,
  ⟨fun _ => F.TIM_DTB_SUBNS, 0, 1, .ro, false, false⟩,
  ⟨fun _ => F.TIM_DTB_NS, 0, 1, .ro, false, false⟩,
  ⟨fun _ => F.TIM_DTB_SEC_LO, 0, 1, .ro, false, false⟩,
  ⟨fun _ => F.TIM_DTB_SEC_HI, 0, 1, .ro, false, false⟩,
  ⟨fun _ => F.TIM_DTB_INC_LO, 0, 1, .rw, true, false⟩,
  ⟨fun _ => F.TIM_DTB_INC_HI, 0, 1, .rw, true, false⟩,
  ⟨fun _ => F.TIM_DTB_ADJ_LO, 0, 1, .rw, true, false⟩,
  ⟨fun _ => F.TIM_DTB_ADJ_HI, 0, 1, .rw, true, false⟩,
  ⟨fun _ => F.TIM_DTB_SET_SUBNS, 0, 1, .rw, true, false⟩,
  ⟨fun _ => F.TIM_DTB_SET_NS, 0, 1, .rw, true, false⟩,
  ⟨fun _ => F.TIM_DTB_SET_SEC_LO, 0, 1, .rw, true, false⟩,
  ⟨fun _ => F.TIM_DTB_SET_SEC_HI, 0, 1, .rw, true, false⟩,
  ⟨fun _ => F.TIM_DTB_CMD_INC_GO, 0, 1, .w1s, true, false⟩]

/-- Rows of the TIM device page (Table 2-2) and, with the same offsets, partition time bases (R63), part 1. -/
def rows_timBase1 : List RegRow := [
  ⟨fun _ => F.TIM_DTB_CMD_ADJ_GO, 0, 1, .w1s, true, false⟩,
  ⟨fun _ => F.TIM_DTB_CMD_SET_GO, 0, 1, .w1s, true, false⟩,
  ⟨fun _ => F.TIM_TP_OWNER, 0, 1, .rw, true, false⟩]

/-- Rows of the TIM device page (Table 2-2) and, with the same offsets, partition time bases (R63). -/
def rows_timBase : List RegRow := rows_timBase0 ++ rows_timBase1

/-- Rows of the TIM site table (Table 2-5). -/
def rows_timSite : List RegRow := [
  ⟨F.EPOCH_SUBNS, 0x20, 64, .ro, false, false⟩,
  ⟨F.EPOCH_NS, 0x20, 64, .ro, false, false⟩,
  ⟨F.EPOCH_SEC_LO, 0x20, 64, .ro, false, false⟩,
  ⟨F.EPOCH_SEC_HI, 0x20, 64, .ro, false, false⟩,
  ⟨F.SITE_VALID, 0x20, 64, .ro, false, false⟩,
  ⟨F.SITE_LATE, 0x20, 64, .ro, false, false⟩,
  ⟨F.SITE_RUNNING, 0x20, 64, .ro, false, false⟩,
  ⟨F.SITE_VCOUNT, 0x20, 64, .ro, false, false⟩,
  ⟨F.SITE_DRIFT, 0x20, 64, .ro, false, false⟩]

/-- Rows of the TIM pulse page (Table 2-6). -/
def rows_timPulse : List RegRow := [
  ⟨fun _ => F.TIM_TP_CTRL_MODE, 0, 1, .rw, false, false⟩,
  ⟨fun _ => F.TIM_TP_CTRL_TBSEL, 0, 1, .rw, false, false⟩,
  ⟨fun _ => F.TIM_TP_CTRL_POL, 0, 1, .rw, false, false⟩,
  ⟨fun _ => F.TIM_TP_STAT_ARMED, 0, 1, .ro, false, false⟩,
  ⟨fun _ => F.TIM_TP_STAT_ACTIVE, 0, 1, .ro, false, false⟩,
  ⟨fun _ => F.TIM_TP_FIRED, 0, 1, .ro, false, false⟩,
  ⟨fun _ => F.TIM_TP_SKIP, 0, 1, .ro, false, false⟩,
  ⟨fun _ => F.TIM_TP_START_SUBNS, 0, 1, .rw, false, false⟩,
  ⟨fun _ => F.TIM_TP_START_NS, 0, 1, .rw, false, false⟩,
  ⟨fun _ => F.TIM_TP_START_SEC_LO, 0, 1, .rw, false, false⟩,
  ⟨fun _ => F.TIM_TP_START_SEC_HI, 0, 1, .rw, false, false⟩,
  ⟨fun _ => F.TIM_TP_PER_SUBNS, 0, 1, .rw, false, false⟩,
  ⟨fun _ => F.TIM_TP_PER_NS, 0, 1, .rw, false, false⟩,
  ⟨fun _ => F.TIM_TP_WIDTH, 0, 1, .rw, false, false⟩]

/-- Rows of the TLK control page (Table 3-7). -/
def rows_tlkCtl : List RegRow := [
  ⟨fun _ => F.TLK_CTRL_ROLE, 0, 1, .rw, true, false⟩,
  ⟨fun _ => F.TLK_CTRL_TBSEL, 0, 1, .rw, true, false⟩,
  ⟨fun _ => F.TLK_CTRL_SERVO_EN, 0, 1, .rw, true, false⟩,
  ⟨fun _ => F.TLK_CTRL_DOMAIN, 0, 1, .rw, true, false⟩,
  ⟨fun _ => F.TLK_CLK_ID_LO, 0, 1, .rw, true, false⟩,
  ⟨fun _ => F.TLK_CLK_ID_HI, 0, 1, .rw, true, false⟩,
  ⟨fun _ => F.TLK_MAC_LO, 0, 1, .rw, true, false⟩,
  ⟨fun _ => F.TLK_MAC_HI, 0, 1, .rw, true, false⟩,
  ⟨fun _ => F.TLK_MAP_TL0_LANE, 0, 1, .rw, true, true⟩,
  ⟨fun _ => F.TLK_MAP_TL1_LANE, 0, 1, .rw, true, true⟩,
  ⟨fun _ => F.TLK_SERVO_GAIN_KP, 0, 1, .rw, true, false⟩,
  ⟨fun _ => F.TLK_SERVO_GAIN_KI, 0, 1, .rw, true, false⟩,
  ⟨fun _ => F.TLK_SERVO_STEP, 0, 1, .rw, true, false⟩,
  ⟨fun _ => F.TLK_GM_DS, 0, 1, .rw, true, false⟩,
  ⟨fun _ => F.TLK_HOLD_CLASS, 0, 1, .rw, true, false⟩]

/-- Rows of the TLK port page (Table 3-9). -/
def rows_tlkPort : List RegRow := [
  ⟨fun _ => F.TLK_P_CTRL_EN, 0, 1, .rw, true, false⟩,
  ⟨fun _ => F.TLK_P_CTRL_DM, 0, 1, .rw, true, false⟩,
  ⟨fun _ => F.TLK_P_CTRL_NOPART_FLT, 0, 1, .rw, true, false⟩,
  ⟨fun _ => F.TLK_P_STAT_LINK, 0, 1, .ro, false, false⟩,
  ⟨fun _ => F.TLK_P_STAT_PTP, 0, 1, .ro, false, false⟩,
  ⟨fun _ => F.TLK_P_STAT_STEPS, 0, 1, .ro, false, false⟩,
  ⟨fun _ => F.TLK_P_INTV_SYNC, 0, 1, .rw, true, false⟩,
  ⟨fun _ => F.TLK_P_INTV_DREQ, 0, 1, .rw, true, false⟩,
  ⟨fun _ => F.TLK_P_INTV_ANN, 0, 1, .rw, true, false⟩,
  ⟨fun _ => F.TLK_P_INTV_ART, 0, 1, .rw, true, false⟩,
  ⟨fun _ => F.TLK_P_ASYM, 0, 1, .rw, true, false⟩,
  ⟨fun _ => F.TLK_P_OFFSET, 0, 1, .ro, false, false⟩,
  ⟨fun _ => F.TLK_P_MPD, 0, 1, .ro, false, false⟩,
  ⟨fun _ => F.SYNC_TX, 0, 1, .ro, false, false⟩,
  ⟨fun _ => F.SYNC_RX, 0, 1, .ro, false, false⟩,
  ⟨fun _ => F.RX_DROP, 0, 1, .ro, false, false⟩,
  ⟨fun _ => F.SEQ_MISMATCH, 0, 1, .ro, false, false⟩,
  ⟨fun _ => F.DM_MISMATCH, 0, 1, .ro, false, false⟩,
  ⟨fun _ => F.TLK_RETRIES, 0, 1, .ro, false, false⟩]

/-- Rows of the TLK lane page (Table 3-10). -/
def rows_tlkLane : List RegRow := [
  ⟨fun _ => F.TLK_L_TXEQ_C_PRE, 0, 1, .rw, true, false⟩,
  ⟨fun _ => F.TLK_L_TXEQ_C_MAIN, 0, 1, .rw, true, false⟩,
  ⟨fun _ => F.TLK_L_TXEQ_C_POST, 0, 1, .rw, true, false⟩,
  ⟨fun _ => F.TLK_L_RXCTRL_FREEZE, 0, 1, .rw, true, false⟩,
  ⟨fun _ => F.TLK_L_RXCTRL_PRESET, 0, 1, .w1s, true, false⟩,
  ⟨fun _ => F.TLK_L_RXSTAT_BLOCK_LOCK, 0, 1, .ro, false, false⟩,
  ⟨fun _ => F.TLK_L_RXSTAT_HI_BER, 0, 1, .ro, false, false⟩,
  ⟨fun _ => F.TLK_L_RXSTAT_FROZEN, 0, 1, .ro, false, false⟩,
  ⟨fun _ => F.TLK_L_RXSTAT_DENSITY, 0, 1, .ro, false, false⟩,
  ⟨fun _ => F.TLK_L_PRBS_GEN_EN, 0, 1, .rw, true, false⟩,
  ⟨fun _ => F.TLK_L_PRBS_CHK_EN, 0, 1, .rw, true, false⟩,
  ⟨fun _ => F.TLK_L_PRBS_INJ_ONE, 0, 1, .w1s, true, false⟩,
  ⟨fun _ => F.TLK_L_PRBS_INJ_RATE, 0, 1, .rw, true, false⟩,
  ⟨fun _ => F.TLK_L_PRBS_CHK_LOCK, 0, 1, .ro, false, false⟩,
  ⟨fun _ => F.TLK_L_PRBS_ERR, 0, 1, .rc, false, false⟩,
  ⟨fun _ => F.TLK_L_TX_LAT, 0, 1, .rw, true, false⟩,
  ⟨fun _ => F.TLK_L_RX_LAT, 0, 1, .rw, true, false⟩]

/-- Rows of the CMP site control (Table 4-10). -/
def rows_cmpSite : List RegRow := [
  ⟨F.CMP_SITE_STATE_STATE, 0x10, 64, .ro, false, false⟩,
  ⟨F.CMP_SITE_STATE_ALT_LATE, 0x10, 64, .ro, false, false⟩,
  ⟨F.CMP_SITE_STATE_HALT_PEND, 0x10, 64, .ro, false, false⟩,
  ⟨F.CMP_SITE_STATE_PEND, 0x10, 64, .ro, false, false⟩,
  ⟨F.CMP_SITE_CAUSES, 0x10, 64, .ro, false, false⟩,
  ⟨F.CMP_SITE_JREQ_ALT, 0x10, 64, .wo, false, false⟩,
  ⟨F.CMP_SITE_FLAGS_FLAG0, 0x10, 64, .ro, false, false⟩,
  ⟨F.CMP_SITE_FLAGS_FLAG1_3, 0x10, 64, .rw, false, false⟩,
  ⟨F.CMP_SITE_FLAGS_JDISC, 0x10, 64, .ro, false, false⟩]

/-- Rows of the DIS device page (Table 6-13), part 0. -/
def rows_disDev0 : List RegRow := [
  ⟨fun _ => F.DIS_TICK, 0, 1, .ro, false, false⟩,
  ⟨fun _ => F.DIS_POOL_A_FREE, 0, 1, .ro, false, false⟩,
  ⟨fun _ => F.DIS_POOL_A_WAITING, 0, 1, .ro, false, false⟩,
  ⟨fun _ => F.DIS_POOL_B_READY, 0, 1, .ro, false, false⟩,
  ⟨fun _ => F.DIS_POOL_B_SERVICE, 0, 1, .ro, false, false⟩,
  ⟨fun _ => F.DIS_POOL_C_RETIRING, 0, 1, .ro, false, false⟩,
  ⟨fun _ => F.DIS_POOL_C_HANDOVER, 0, 1, .ro, false, false⟩,
  ⟨fun _ => F.DIS_SHARE_0, 0, 1, .rw, true, false⟩,
  ⟨fun _ => F.DIS_SHARE_1, 0, 1, .rw, true, false⟩,
  ⟨fun _ => F.DIS_SHARE_2, 0, 1, .rw, true, false⟩,
  ⟨fun _ => F.DIS_SHARE_3, 0, 1, .rw, true, false⟩,
  ⟨fun _ => F.DIS_SHARE_ACT_0, 0, 1, .ro, false, false⟩,
  ⟨fun _ => F.DIS_SHARE_ACT_1, 0, 1, .ro, false, false⟩,
  ⟨fun _ => F.DIS_SHARE_ACT_2, 0, 1, .ro, false, false⟩,
  ⟨fun _ => F.DIS_SHARE_ACT_3, 0, 1, .ro, false, false⟩,
  ⟨fun _ => F.DIS_POOL_QUOTA_0, 0, 1, .rw, true, false⟩,
  ⟨fun _ => F.DIS_POOL_QUOTA_1, 0, 1, .rw, true, false⟩,
  ⟨fun _ => F.DIS_POOL_QUOTA_2, 0, 1, .rw, true, false⟩,
  ⟨fun _ => F.DIS_POOL_QUOTA_3, 0, 1, .rw, true, false⟩,
  ⟨fun _ => F.DIS_WAY_QUOTA_0, 0, 1, .rw, true, false⟩,
  ⟨fun _ => F.DIS_WAY_QUOTA_1, 0, 1, .rw, true, false⟩,
  ⟨fun _ => F.DIS_WAY_QUOTA_2, 0, 1, .rw, true, false⟩,
  ⟨fun _ => F.DIS_WAY_QUOTA_3, 0, 1, .rw, true, false⟩,
  ⟨fun _ => F.DIS_HINT_0, 0, 1, .rw, true, false⟩,
  ⟨fun _ => F.DIS_HINT_1, 0, 1, .rw, true, false⟩,
  ⟨fun _ => F.DIS_HINT_2, 0, 1, .rw, true, false⟩,
  ⟨fun _ => F.DIS_HINT_3, 0, 1, .rw, true, false⟩,
  ⟨fun _ => F.DIS_JUMP_CFG_CAP, 0, 1, .rw, true, false⟩,
  ⟨fun _ => F.DIS_CLU_STAT_CS_HOLD, 0, 1, .ro, false, false⟩,
  ⟨fun _ => F.DIS_CLU_STAT_POWERED, 0, 1, .ro, false, false⟩]

/-- Rows of the DIS device page (Table 6-13), part 1. -/
def rows_disDev1 : List RegRow := [
  ⟨fun _ => F.DIS_MCHK_LAST_ENGINE, 0, 1, .ro, false, false⟩,
  ⟨fun _ => F.DIS_MCHK_LAST_CAUSE, 0, 1, .ro, false, false⟩,
  ⟨fun _ => F.DIS_MCHK_LAST_ROUTE, 0, 1, .ro, false, false⟩,
  ⟨fun _ => F.DIS_MCHK_LAST_SITE, 0, 1, .ro, false, false⟩,
  ⟨fun _ => F.HINT_IGNORED, 0, 1, .ro, false, false⟩,
  ⟨fun _ => F.QUARANTINES, 0, 1, .ro, false, false⟩]

/-- Rows of the DIS device page (Table 6-13). -/
def rows_disDev : List RegRow := rows_disDev0 ++ rows_disDev1

/-- Rows of the DIS partition page (Table 6-14). -/
def rows_disPart : List RegRow := [
  ⟨fun _ => F.DIS_P_STAT_TOKENS, 0, 1, .ro, false, false⟩,
  ⟨fun _ => F.DIS_P_STAT_WAITING, 0, 1, .ro, false, false⟩,
  ⟨fun _ => F.DIS_P_SHARE_CONF, 0, 1, .ro, false, false⟩,
  ⟨fun _ => F.DIS_P_SHARE_ACT, 0, 1, .ro, false, false⟩,
  ⟨fun _ => F.DIS_P_SHARE_BUSY, 0, 1, .ro, false, false⟩,
  ⟨fun _ => F.DIS_P_REFUSE_STATUS, 0, 1, .ro, false, false⟩,
  ⟨fun _ => F.DIS_P_REFUSE_ROUTE, 0, 1, .ro, false, false⟩,
  ⟨fun _ => F.DIS_P_REFUSE_SITE, 0, 1, .ro, false, false⟩,
  ⟨fun _ => F.DIS_P_REFUSE_SOURCE, 0, 1, .ro, false, false⟩,
  ⟨fun _ => F.DIS_P_REFUSE_RING, 0, 1, .ro, false, false⟩,
  ⟨fun _ => F.SUBMITTED, 0, 1, .ro, false, false⟩,
  ⟨fun _ => F.COMMITTED, 0, 1, .ro, false, false⟩,
  ⟨fun _ => F.SUB_REFUSED, 0, 1, .ro, false, false⟩,
  ⟨fun _ => F.DIS_RETRIES, 0, 1, .ro, false, false⟩,
  ⟨fun _ => F.BP_EVENTS, 0, 1, .ro, false, false⟩]

/-- Rows of the DIS route entries (Table 6-15). -/
def rows_disGrp : List RegRow := [
  ⟨F.DIS_R_STAT_ACTIVE, 0x100, 8, .ro, false, false⟩,
  ⟨F.DIS_R_STAT_IN_SERVICE, 0x100, 8, .ro, false, false⟩,
  ⟨F.DIS_R_STAT_ENDED, 0x100, 8, .ro, false, false⟩,
  ⟨F.DIS_R_STAT_CAPPED, 0x100, 8, .ro, false, false⟩,
  ⟨F.DIS_R_STAT_HELD, 0x100, 8, .ro, false, false⟩,
  ⟨F.DIS_R_STAT_SITE, 0x100, 8, .ro, false, false⟩,
  ⟨F.DIS_R_STAT_ENGINE, 0x100, 8, .ro, false, false⟩,
  ⟨F.DIS_R_DEPTH_WAITING, 0x100, 8, .ro, false, false⟩,
  ⟨F.DIS_R_DEPTH_READY, 0x100, 8, .ro, false, false⟩,
  ⟨F.DIS_R_PROGRESS_CODE, 0x100, 8, .ro, false, false⟩,
  ⟨F.DIS_R_PFAULT_CODE, 0x100, 8, .ro, false, false⟩,
  ⟨F.DIS_R_PFAULT_HEAD, 0x100, 8, .ro, false, false⟩,
  ⟨F.DIS_R_PFAULT_VALID, 0x100, 8, .ro, false, false⟩,
  ⟨F.DIS_R_PFADDR, 0x100, 8, .ro, false, false⟩,
  ⟨F.DIS_R_COMMITS, 0x100, 8, .ro, false, false⟩,
  ⟨F.DIS_R_SPACE_WAIT, 0x100, 8, .ro, false, false⟩]

/-- Rows of the wait histogram of each route entry (Table 6-15). -/
def rows_whist : List RegRow :=
  (List.range 8).map fun i => ⟨F.DIS_R_WHIST i, 4, 16, .ro, false, false⟩

/-- Rows of the ENG page (Table 6-16). -/
def rows_eng (e : Nat) : List RegRow := [
  ⟨fun _ => F.ENG_STAT_STATE e, 0, 1, .ro, false, false⟩,
  ⟨fun _ => F.ENG_STAT_CLUSTER e, 0, 1, .ro, false, false⟩,
  ⟨fun _ => F.ENG_STAT_PARTITION, 0, 1, .ro, false, false⟩,
  ⟨fun _ => F.ENG_STAT_ROUTE, 0, 1, .ro, false, false⟩,
  ⟨fun _ => F.ENG_MCHK_COUNT, 0, 1, .ro, false, false⟩,
  ⟨fun _ => F.ENG_MCHK_CAUSE, 0, 1, .ro, false, false⟩,
  ⟨fun _ => F.ENG_BUSY, 0, 1, .ro, false, false⟩,
  ⟨fun _ => F.ENG_STALL, 0, 1, .ro, false, false⟩,
  ⟨fun _ => F.ENG_COMMITS, 0, 1, .ro, false, false⟩,
  ⟨fun _ => F.ENG_MCHK_TOTAL, 0, 1, .ro, false, false⟩]

/-- Rows of the BNK furrow registers (Table 7-5), part 0. -/
def rows_fur0 : List RegRow := [
  ⟨F.FUR_CTRL_IDLE_DRIVE, 0x400, 4, .rw, false, false⟩,
  ⟨F.FUR_CTRL_IDLE_TS, 0x400, 4, .rw, false, false⟩,
  ⟨F.FUR_WEIR_LEVEL, 0x400, 4, .rw, false, false⟩,
  ⟨F.FUR_STAT_FILL, 0x400, 4, .ro, false, false⟩,
  ⟨F.FUR_STAT_MARKED, 0x400, 4, .ro, false, false⟩,
  ⟨F.FUR_STAT_DWELLING, 0x400, 4, .ro, false, false⟩,
  ⟨F.FUR_STAT_EMPTY, 0x400, 4, .ro, false, false⟩,
  ⟨F.FUR_STAT_FULL, 0x400, 4, .ro, false, false⟩,
  ⟨F.FUR_STAT_SIDE, 0x400, 4, .ro, false, false⟩,
  ⟨F.FUR_STAT_RESET_PENDING, 0x400, 4, .ro, false, false⟩,
  ⟨F.FUR_WPTR_VIS, 0x400, 4, .ro, false, false⟩,
  ⟨F.FUR_WPTR_STG, 0x400, 4, .ro, false, false⟩,
  ⟨F.FUR_RES_RES, 0x400, 4, .ro, false, false⟩,
  ⟨F.FUR_RES_REL_W, 0x400, 4, .ro, false, false⟩,
  ⟨F.FUR_RPTR_RD, 0x400, 4, .ro, false, false⟩,
  ⟨F.FUR_RPTR_PR, 0x400, 4, .ro, false, false⟩,
  ⟨F.FUR_MK, 0x400, 4, .ro, false, false⟩,
  ⟨F.FUR_SIDE_VIS0, 0x400, 4, .ro, false, false⟩,
  ⟨F.FUR_SIDE_VIS1, 0x400, 4, .ro, false, false⟩,
  ⟨F.FUR_TAGS_MAIN_FREE, 0x400, 4, .ro, false, false⟩,
  ⟨F.FUR_TAGS_SIDE_FREE, 0x400, 4, .ro, false, false⟩,
  ⟨F.FUR_DWELL_LAST, 0x400, 4, .ro, false, false⟩,
  ⟨F.FUR_DWELL_MAX, 0x400, 4, .ro, false, false⟩,
  ⟨F.FUR_PASS, 0x400, 4, .ro, false, false⟩,
  ⟨F.FUR_REWINDS, 0x400, 4, .ro, false, false⟩,
  ⟨F.FUR_WAIT_PAST, 0x400, 4, .ro, false, false⟩,
  ⟨F.FUR_PAR_ERR, 0x400, 4, .ro, false, false⟩,
  ⟨F.FUR_PAR_POS_POS, 0x400, 4, .ro, false, false⟩,
  ⟨F.FUR_PAR_POS_QUAD, 0x400, 4, .ro, false, false⟩,
  ⟨F.FUR_UR_VN, 0x400, 4, .ro, false, false⟩]

/-- Rows of the BNK furrow registers (Table 7-5), part 1. -/
def rows_fur1 : List RegRow := [
  ⟨F.FUR_UR_LEN, 0x400, 4, .ro, false, false⟩,
  ⟨F.FUR_UR_GAPS, 0x400, 4, .ro, false, false⟩,
  ⟨F.FUR_UR_IDLE, 0x400, 4, .ro, false, false⟩]

/-- Rows of the BNK furrow registers (Table 7-5). -/
def rows_fur : List RegRow := rows_fur0 ++ rows_fur1

/-- Rows of the BNK page (Tables 8-11, 8-13, 10-8, 11-3), part 0. -/
def rows_bnk0 : List RegRow := [
  ⟨fun _ => F.BNK_CTRL_MODE, 0, 1, .rw, false, false⟩,
  ⟨fun _ => F.BNK_STAT_MODE_ACT, 0, 1, .ro, false, false⟩,
  ⟨fun _ => F.BNK_STAT_SAFE, 0, 1, .ro, false, false⟩,
  ⟨fun _ => F.BNK_STAT_CHANGING, 0, 1, .ro, false, false⟩,
  ⟨fun _ => F.BNK_STAT_DROP_PIN, 0, 1, .ro, false, false⟩,
  ⟨fun _ => F.BNK_DIR_CFG_STD, 0, 1, .rw, false, false⟩,
  ⟨fun _ => F.BNK_DIR_CFG_RX_TERM, 0, 1, .rw, false, false⟩,
  ⟨fun _ => F.BNK_SPARE_PIN, 0, 1, .rw, true, true⟩,
  ⟨fun _ => F.BNK_SPARE_VALID, 0, 1, .rw, true, true⟩,
  ⟨fun _ => F.BNK_SPARE_ACTIVE, 0, 1, .ro, false, false⟩,
  ⟨fun _ => F.BNK_TS_CMD_SET, 0, 1, .rw, false, false⟩,
  ⟨fun _ => F.BNK_TS_CMD_LOAD, 0, 1, .w1s, false, false⟩,
  ⟨fun _ => F.BNK_TS_CMD_READ, 0, 1, .w1s, false, false⟩,
  ⟨fun _ => F.BNK_TS_STAT_BUSY, 0, 1, .ro, false, false⟩,
  ⟨fun _ => F.BNK_TS_STAT_ERR, 0, 1, .ro, false, false⟩,
  ⟨fun _ => F.BNK_TS_STAT_PIN, 0, 1, .ro, false, false⟩,
  ⟨fun _ => F.BNK_TS_STAT_SET, 0, 1, .ro, false, false⟩,
  ⟨fun _ => F.BNK_FOLLOW_EN, 0, 1, .rw, false, false⟩,
  ⟨fun _ => F.BNK_FOLLOW_PIN, 0, 1, .rw, false, false⟩,
  ⟨fun _ => F.BNK_FOLLOW_FALL, 0, 1, .rw, false, false⟩,
  ⟨fun _ => F.BNK_FOLLOW_MUL, 0, 1, .rw, false, false⟩,
  ⟨fun _ => F.BNK_FOLLOW_DIV, 0, 1, .rw, false, false⟩,
  ⟨fun _ => F.BNK_FOLLOW_BW, 0, 1, .rw, false, false⟩,
  ⟨fun _ => F.BNK_FOLLOW_SCALE, 0, 1, .rw, false, false⟩,
  ⟨fun _ => F.BNK_FOLLOW_PHASE, 0, 1, .rw, false, false⟩,
  ⟨fun _ => F.BNK_FOLLOW_STAT_LOCK, 0, 1, .ro, false, false⟩,
  ⟨fun _ => F.BNK_FOLLOW_STAT_HOLD, 0, 1, .ro, false, false⟩,
  ⟨fun _ => F.BNK_FOLLOW_STAT_RANGE, 0, 1, .ro, false, false⟩,
  ⟨fun _ => F.BNK_FOLLOW_PER, 0, 1, .ro, false, false⟩,
  ⟨fun _ => F.EDGE_LATE, 0, 1, .ro, false, false⟩]

/-- Rows of the BNK page (Tables 8-11, 8-13, 10-8, 11-3), part 1. -/
def rows_bnk1 : List RegRow := [
  ⟨fun _ => F.EDGE_DROP, 0, 1, .ro, false, false⟩,
  ⟨fun _ => F.PEC_LATE, 0, 1, .ro, false, false⟩,
  ⟨fun _ => F.PEC_DISC, 0, 1, .ro, false, false⟩,
  ⟨fun _ => F.FOLLOW_HOLDS, 0, 1, .ro, false, false⟩,
  ⟨fun _ => F.BNK_PEC_CFG_EN, 0, 1, .rw, false, false⟩,
  ⟨fun _ => F.BNK_PEC_CFG_CPOL, 0, 1, .rw, false, false⟩,
  ⟨fun _ => F.BNK_PEC_CFG_CPHA, 0, 1, .rw, false, false⟩,
  ⟨fun _ => F.BNK_PEC_CFG_DIV, 0, 1, .rw, false, false⟩,
  ⟨fun _ => F.BNK_PEC_CFG_GAP, 0, 1, .rw, false, false⟩,
  ⟨fun _ => F.BNK_PEC_CFG_SEL, 0, 1, .rw, true, false⟩,
  ⟨fun _ => F.BNK_PEC_STAT_TX_LEVEL, 0, 1, .ro, false, false⟩,
  ⟨fun _ => F.BNK_PEC_STAT_RX_LEVEL, 0, 1, .ro, false, false⟩,
  ⟨fun _ => F.BNK_PEC_STAT_BUSY, 0, 1, .ro, false, false⟩,
  ⟨fun _ => F.BNK_PEC_STAT_WAITING, 0, 1, .ro, false, false⟩,
  ⟨fun _ => F.BNK_PEC_TX_LO, 0, 1, .rw, false, false⟩,
  ⟨fun _ => F.BNK_PEC_TX_HI, 0, 1, .rw, false, false⟩,
  ⟨fun _ => F.BNK_PEC_TX_VN, 0, 1, .rw, false, false⟩,
  ⟨fun _ => F.BNK_PEC_TX_CTL_LEN, 0, 1, .wo, false, false⟩,
  ⟨fun _ => F.BNK_PEC_TX_CTL_WHEN, 0, 1, .wo, false, false⟩,
  ⟨fun _ => F.BNK_PEC_TX_CTL_SITE, 0, 1, .wo, false, false⟩,
  ⟨fun _ => F.BNK_PEC_TX_CTL_RX, 0, 1, .wo, false, false⟩,
  ⟨fun _ => F.BNK_PEC_RX_LO, 0, 1, .ro, false, false⟩,
  ⟨fun _ => F.BNK_PEC_RX_HI, 0, 1, .ro, false, false⟩,
  ⟨fun _ => F.ACQ_C_CTRL_ARM, 0, 1, .w1s, false, false⟩,
  ⟨fun _ => F.ACQ_C_CTRL_DISARM, 0, 1, .w1s, false, false⟩,
  ⟨fun _ => F.ACQ_C_CTRL_FORCE, 0, 1, .w1s, false, false⟩,
  ⟨fun _ => F.ACQ_C_CTRL_CONT, 0, 1, .rw, false, false⟩,
  ⟨fun _ => F.ACQ_C_CTRL_AUTO, 0, 1, .rw, false, false⟩,
  ⟨fun _ => F.ACQ_C_CTRL_WRAP_POST, 0, 1, .rw, false, false⟩,
  ⟨fun _ => F.ACQ_C_CTRL_LMODE, 0, 1, .rw, false, false⟩]

/-- Rows of the BNK page (Tables 8-11, 8-13, 10-8, 11-3), part 2. -/
def rows_bnk2 : List RegRow := [
  ⟨fun _ => F.ACQ_C_CTRL_MASK_STOP, 0, 1, .rw, false, false⟩,
  ⟨fun _ => F.ACQ_C_CTRL_SITE, 0, 1, .rw, false, false⟩,
  ⟨fun _ => F.ACQ_C_TRIG_SRC_EN, 0, 1, .rw, false, false⟩,
  ⟨fun _ => F.ACQ_C_TRIG_ANY_LABEL, 0, 1, .rw, false, false⟩,
  ⟨fun _ => F.ACQ_C_TRIG_LINK_BANK, 0, 1, .rw, false, false⟩,
  ⟨fun _ => F.ACQ_C_TRIG_LABEL, 0, 1, .rw, false, false⟩,
  ⟨fun _ => F.ACQ_C_PRE, 0, 1, .rw, false, false⟩,
  ⟨fun _ => F.ACQ_C_POST, 0, 1, .rw, false, false⟩,
  ⟨fun _ => F.ACQ_C_TVN, 0, 1, .rw, false, false⟩,
  ⟨fun _ => F.ACQ_C_AUTO, 0, 1, .rw, false, false⟩,
  ⟨fun _ => F.ACQ_C_AREA_LO, 0, 1, .rw, false, false⟩,
  ⟨fun _ => F.ACQ_C_AREA_HI, 0, 1, .rw, false, false⟩,
  ⟨fun _ => F.ACQ_C_SLOT_SLOT, 0, 1, .rw, false, false⟩,
  ⟨fun _ => F.ACQ_C_SLOT_NSLOT, 0, 1, .rw, false, false⟩,
  ⟨fun _ => F.ACQ_C_WCNT, 0, 1, .ro, false, false⟩,
  ⟨fun _ => F.ACQ_C_RCNT, 0, 1, .rw, false, false⟩,
  ⟨fun _ => F.ACQ_C_STAT_STATE, 0, 1, .ro, false, false⟩,
  ⟨fun _ => F.ACQ_C_STAT_LOG2D, 0, 1, .ro, false, false⟩,
  ⟨fun _ => F.ACQ_C_STAT_BACKLOG, 0, 1, .ro, false, false⟩,
  ⟨fun _ => F.ACQ_C_ERR, 0, 1, .ro, false, false⟩,
  ⟨fun _ => F.ACQ_C_LASTTVN, 0, 1, .ro, false, false⟩,
  ⟨fun _ => F.ACQ_C_MFIRST_VN, 0, 1, .ro, false, false⟩,
  ⟨fun _ => F.ACQ_C_MFIRST_PIN, 0, 1, .ro, false, false⟩,
  ⟨fun _ => F.ACQ_C_MFIRST_VALID, 0, 1, .ro, false, false⟩,
  ⟨fun _ => F.ACQ_C_MFIRST_STOPPED, 0, 1, .ro, false, false⟩,
  ⟨F.BNK_MASK_MODE, 0x10, 16, .rw, false, false⟩,
  ⟨F.BNK_MASK_EDGE, 0x10, 16, .rw, false, false⟩,
  ⟨F.BNK_MASK_MO, 0x10, 16, .rw, false, false⟩,
  ⟨F.BNK_MASK_MC, 0x10, 16, .rw, false, false⟩,
  ⟨F.BNK_MASK_VIOL, 0x10, 16, .ro, false, false⟩]

/-- Rows of the BNK page (Tables 8-11, 8-13, 10-8, 11-3), part 3. -/
def rows_bnk3 : List RegRow := [
  ⟨fun _ => F.TRIG_MISSED, 0, 1, .ro, false, false⟩,
  ⟨fun _ => F.ACQ_RECORDS, 0, 1, .ro, false, false⟩,
  ⟨fun _ => F.DECIM_CHANGES, 0, 1, .ro, false, false⟩,
  ⟨fun _ => F.EDG_SR_CTRL_EN, 0, 1, .rw, false, false⟩,
  ⟨fun _ => F.EDG_SR_CTRL_MODE, 0, 1, .rw, false, false⟩,
  ⟨fun _ => F.EDG_SR_CTRL_SIZE, 0, 1, .rw, false, false⟩,
  ⟨fun _ => F.EDG_SR_BASE_LO, 0, 1, .rw, false, false⟩,
  ⟨fun _ => F.EDG_SR_BASE_HI, 0, 1, .rw, false, false⟩,
  ⟨fun _ => F.EDG_SR_WCNT, 0, 1, .ro, false, false⟩,
  ⟨fun _ => F.EDG_SR_RCNT, 0, 1, .rw, false, false⟩,
  ⟨fun _ => F.EDG_SR_STAT_QLEVEL, 0, 1, .ro, false, false⟩,
  ⟨fun _ => F.EDG_SR_STAT_FULL, 0, 1, .ro, false, false⟩,
  ⟨fun _ => F.EDG_SPARE_PIN, 0, 1, .rw, true, true⟩,
  ⟨fun _ => F.EDG_SPARE_VALID, 0, 1, .rw, true, true⟩,
  ⟨fun _ => F.EDG_SPARE_ACTIVE, 0, 1, .ro, false, false⟩,
  ⟨fun _ => F.SR_DROP, 0, 1, .ro, false, false⟩,
  ⟨F.BNK_SETWIN, 4, 512, .rw, false, false⟩]

/-- Rows of the BNK page (Tables 8-11, 8-13, 10-8, 11-3). -/
def rows_bnk : List RegRow := rows_bnk0 ++ rows_bnk1 ++ rows_bnk2 ++ rows_bnk3

/-- Rows of the BNK pin configuration (Table 8-12). -/
def rows_bnkPin : List RegRow := [
  ⟨F.BNK_PIN_CFG_DEN_POL, 0x10, 16, .rw, false, false⟩,
  ⟨F.BNK_PIN_TXEQ_C_PRE, 0x10, 16, .rw, false, false⟩,
  ⟨F.BNK_PIN_TXEQ_C_MAIN, 0x10, 16, .rw, false, false⟩,
  ⟨F.BNK_PIN_TXEQ_C_POST, 0x10, 16, .rw, false, false⟩,
  ⟨F.BNK_PIN_RXEQ_CTLE, 0x10, 16, .rw, false, false⟩]

/-- Rows of the CMP partition page (Table 9-7). -/
def rows_cmpPart : List RegRow := [
  ⟨fun _ => F.CMP_LED_CTRL_EN, 0, 1, .rw, false, false⟩,
  ⟨fun _ => F.CMP_LED_CTRL_MODE, 0, 1, .rw, false, false⟩,
  ⟨fun _ => F.CMP_LED_CTRL_SIZE, 0, 1, .rw, false, false⟩,
  ⟨fun _ => F.CMP_LED_BASE_LO, 0, 1, .rw, false, false⟩,
  ⟨fun _ => F.CMP_LED_BASE_HI, 0, 1, .rw, false, false⟩,
  ⟨fun _ => F.CMP_LED_RATE, 0, 1, .rw, false, false⟩,
  ⟨fun _ => F.CMP_LED_WM, 0, 1, .rw, false, false⟩,
  ⟨fun _ => F.CMP_LED_WCNT, 0, 1, .ro, false, false⟩,
  ⟨fun _ => F.CMP_LED_RCNT, 0, 1, .rw, false, false⟩,
  ⟨fun _ => F.CMP_LED_STAT_QLEVEL, 0, 1, .ro, false, false⟩,
  ⟨fun _ => F.CMP_LED_STAT_FULL, 0, 1, .ro, false, false⟩,
  ⟨fun _ => F.CMP_LED_STAT_SUMMARY, 0, 1, .ro, false, false⟩,
  ⟨fun _ => F.CMP_LED_STAT_LOSS_PEND, 0, 1, .ro, false, false⟩,
  ⟨fun _ => F.CMP_SITE_EVT, 0, 1, .w1c, false, false⟩,
  ⟨fun _ => F.LED_LOST, 0, 1, .ro, false, false⟩,
  ⟨fun _ => F.LED_SUMMARIES, 0, 1, .ro, false, false⟩,
  ⟨fun _ => F.DISCARDED, 0, 1, .ro, false, false⟩]

/-- Rows of the CMP site results (Table 9-8). -/
def rows_cmpSr : List RegRow := [
  ⟨F.CMP_SR_FFVN, 0x10, 64, .ro, false, false⟩,
  ⟨F.CMP_SR_FCNT, 0x10, 64, .ro, false, false⟩,
  ⟨F.CMP_SR_STAT_FF_VALID, 0x10, 64, .ro, false, false⟩]

/-- Rows of the CMP pin records (Table 9-9). -/
def rows_cmpPin : List RegRow := [
  ⟨F.CMP_PIN_FCNT, 0x10, 64, .rw, false, false⟩,
  ⟨F.CMP_PIN_STAT_FF_VALID, 0x10, 64, .ro, false, false⟩,
  ⟨F.CMP_PIN_FFVN, 0x10, 64, .ro, false, false⟩]

/-- Rows of the ACQ device page (Table 10-10). -/
def rows_acqDev : List RegRow := [
  ⟨fun _ => F.ACQ_SHARE_0, 0, 1, .rw, true, false⟩,
  ⟨fun _ => F.ACQ_SHARE_1, 0, 1, .rw, true, false⟩,
  ⟨fun _ => F.ACQ_SHARE_2, 0, 1, .rw, true, false⟩,
  ⟨fun _ => F.ACQ_SHARE_3, 0, 1, .rw, true, false⟩,
  ⟨fun _ => F.ACQ_TO_OWNER, 0, 1, .rw, true, false⟩]

/-- Rows of the ACQ TRIGOUT page (Table 10-10). -/
def rows_acqTo : List RegRow := [
  ⟨fun _ => F.ACQ_TO_CTRL_MODE, 0, 1, .rw, false, false⟩,
  ⟨fun _ => F.ACQ_TO_CTRL_POL, 0, 1, .rw, false, false⟩,
  ⟨fun _ => F.ACQ_TO_CTRL_SITE, 0, 1, .rw, false, false⟩,
  ⟨fun _ => F.ACQ_TO_CTRL_BANK, 0, 1, .rw, false, false⟩,
  ⟨fun _ => F.ACQ_TO_WIDTH, 0, 1, .rw, false, false⟩,
  ⟨fun _ => F.ACQ_TO_DELAY, 0, 1, .rw, false, false⟩,
  ⟨fun _ => F.TO_MERGED, 0, 1, .ro, false, false⟩]

/-- Rows of the BNK converter control (Table 11-4). -/
def rows_edgPin : List RegRow := [
  ⟨F.EDG_PIN_CFG_EN, 0x40, 16, .rw, false, false⟩,
  ⟨F.EDG_PIN_CFG_EDGE, 0x40, 16, .rw, false, false⟩,
  ⟨F.EDG_PIN_CFG_SRC, 0x40, 16, .rw, false, false⟩,
  ⟨F.EDG_PIN_CFG_PRE, 0x40, 16, .rw, false, false⟩,
  ⟨F.EDG_PIN_CFG_RING, 0x40, 16, .rw, false, false⟩,
  ⟨F.EDG_PIN_CFG_AU_EN, 0x40, 16, .rw, false, false⟩,
  ⟨F.EDG_PIN_CFG_AU, 0x40, 16, .rw, false, false⟩,
  ⟨F.EDG_PIN_HOLDOFF, 0x40, 16, .rw, false, false⟩,
  ⟨F.EDG_FC_GATE, 0x40, 16, .rw, false, false⟩,
  ⟨F.EDG_FC_STAT_VALID, 0x40, 16, .ro, false, false⟩,
  ⟨F.EDG_FC_STAT_NOEDGE, 0x40, 16, .ro, false, false⟩,
  ⟨F.EDG_FC_STAT_SKIP, 0x40, 16, .ro, false, false⟩,
  ⟨F.EDG_FC_N, 0x40, 16, .ro, false, false⟩,
  ⟨F.EDG_FC_T, 0x40, 16, .ro, false, false⟩,
  ⟨F.EDG_STAMPS, 0x40, 16, .ro, false, false⟩,
  ⟨F.EDG_ACCEPTED, 0x40, 16, .ro, false, false⟩,
  ⟨F.EDG_MERGED, 0x40, 16, .ro, false, false⟩,
  ⟨F.EDG_HELD, 0x40, 16, .ro, false, false⟩,
  ⟨F.EDG_LOST, 0x40, 16, .ro, false, false⟩]

/-- Rows of the AU page (Table 12-6), part 0. -/
def rows_au0 : List RegRow := [
  ⟨fun _ => F.AU_ASSIGN_CLEARING, 0, 1, .ro, false, false⟩,
  ⟨fun _ => F.AU_CTRL_GO, 0, 1, .w1s, false, false⟩,
  ⟨fun _ => F.AU_CTRL_HALT, 0, 1, .w1s, false, false⟩,
  ⟨fun _ => F.AU_CTRL_RESET, 0, 1, .w1s, false, false⟩,
  ⟨fun _ => F.AU_CTRL_SAT_EN, 0, 1, .rw, false, false⟩,
  ⟨fun _ => F.AU_CTRL_IE, 0, 1, .rw, false, false⟩,
  ⟨fun _ => F.AU_STAT_STATE, 0, 1, .ro, false, false⟩,
  ⟨fun _ => F.AU_STAT_PC, 0, 1, .ro, false, false⟩,
  ⟨fun _ => F.AU_STAT_DEPTH, 0, 1, .ro, false, false⟩,
  ⟨fun _ => F.AU_STAT_IE, 0, 1, .ro, false, false⟩,
  ⟨fun _ => F.AU_START, 0, 1, .rw, false, false⟩,
  ⟨fun _ => F.AU_FLAGS_OVF_A0, 0, 1, .w1c, false, false⟩,
  ⟨fun _ => F.AU_FLAGS_OVF_A1, 0, 1, .w1c, false, false⟩,
  ⟨fun _ => F.AU_FLAGS_RSAT, 0, 1, .w1c, false, false⟩,
  ⟨fun _ => F.AU_FLAGS_TAPSAT, 0, 1, .w1c, false, false⟩,
  ⟨fun _ => F.AU_FLAGS_Z, 0, 1, .ro, false, false⟩,
  ⟨fun _ => F.AU_FLAGS_N, 0, 1, .ro, false, false⟩,
  ⟨fun _ => F.AU_FAULT_INFO_CODE, 0, 1, .ro, false, false⟩,
  ⟨fun _ => F.AU_FAULT_INFO_PC, 0, 1, .ro, false, false⟩,
  ⟨fun _ => F.AU_FAULT_INFO_ADDR, 0, 1, .ro, false, false⟩,
  ⟨fun _ => F.AU_MSG_CODE, 0, 1, .ro, false, false⟩,
  ⟨fun _ => F.AU_DOORBELL, 0, 1, .wo, false, false⟩,
  ⟨fun _ => F.AU_IEN_HOST, 0, 1, .rw, false, false⟩,
  ⟨fun _ => F.AU_IEN_TAP, 0, 1, .rw, false, false⟩,
  ⟨fun _ => F.AU_TAP_EN, 0, 1, .rw, false, false⟩,
  ⟨fun _ => F.AU_TAP_AUTOREF, 0, 1, .rw, false, false⟩,
  ⟨fun _ => F.AU_TAP_THR, 0, 1, .rw, false, false⟩,
  ⟨fun _ => F.AU_TAP_STAT_LEVEL, 0, 1, .ro, false, false⟩,
  ⟨fun _ => F.AU_REFT_FRAC, 0, 1, .rw, false, false⟩]

/-- Rows of the AU page (Table 12-6), part 1. -/
def rows_au1 : List RegRow := [
  ⟨fun _ => F.AU_REFT, 0, 1, .rw, false, false⟩,
  ⟨fun _ => F.AU_REFSTEP_FRAC, 0, 1, .rw, false, false⟩,
  ⟨fun _ => F.AU_REFSTEP, 0, 1, .rw, false, false⟩,
  ⟨fun _ => F.AU_DWIN_HALF, 0, 1, .rw, false, false⟩,
  ⟨F.AU_X, 4, 8, .rw, false, false⟩,
  ⟨F.AU_AR_PTR, 0x10, 8, .rw, false, false⟩,
  ⟨F.AU_AR_BASE, 0x10, 8, .rw, false, false⟩,
  ⟨F.AU_AR_LEN, 0x10, 8, .rw, false, false⟩,
  ⟨F.AU_AR_MOD, 0x10, 8, .rw, false, false⟩,
  ⟨fun _ => F.AU_INSNS, 0, 1, .ro, false, false⟩,
  ⟨fun _ => F.AU_STALLS, 0, 1, .ro, false, false⟩,
  ⟨fun _ => F.AU_TAP_LOST, 0, 1, .ro, false, false⟩,
  ⟨fun _ => F.AU_TAP_OFF, 0, 1, .ro, false, false⟩]

/-- Rows that stand in some AU pages only (R343, Table 12-6): AU_ASSIGN.PART in the pages of the 16 units, AU_SPARE in that of AU16, AU_CU_FW in those of the calibration units,
which have only A0 with its real part. -/
def rows_auAt (u : Nat) : List RegRow :=
  let acc : List RegRow := [⟨F.AU_A_RE, 0x10, 2, .rw, false, false⟩, ⟨F.AU_A_IM, 0x10, 2, .rw, false, false⟩]
  if u < 16 then ⟨fun _ => F.AU_ASSIGN_PART, 0, 1, .rw, true, false⟩ :: acc
  else if u = 16 then
    [⟨fun _ => F.AU_SPARE_UNIT, 0, 1, .rw, true, true⟩, ⟨fun _ => F.AU_SPARE_VALID, 0, 1, .rw, true, true⟩,
     ⟨fun _ => F.AU_SPARE_ACTIVE, 0, 1, .ro, false, false⟩] ++ acc
  else [⟨fun _ => F.AU_CU_FW_HELD, 0, 1, .ro, false, false⟩, ⟨F.AU_A_RE, 0x10, 1, .rw, false, false⟩]

/-- Rows of the AU page of a unit (Table 12-6). -/
def rows_au (u : Nat) : List RegRow := rows_auAt u ++ rows_au0 ++ rows_au1

/-- Rows of the CAL device page (Table 13-5). -/
def rows_calDev : List RegRow := [
  ⟨fun _ => F.CAL_REQ_CLASSES, 0, 1, .rw, true, false⟩,
  ⟨fun _ => F.CAL_REQ_GO, 0, 1, .w1s, true, false⟩,
  ⟨fun _ => F.CAL_REQ_CANCEL, 0, 1, .w1s, true, false⟩,
  ⟨fun _ => F.CAL_REQ_BANKS, 0, 1, .rw, true, false⟩,
  ⟨fun _ => F.CAL_AUTO_EN, 0, 1, .rw, true, false⟩,
  ⟨fun _ => F.CAL_AUTO_TEMP_TRIG, 0, 1, .rw, true, false⟩,
  ⟨fun _ => F.CAL_AUTO_INTERVAL, 0, 1, .rw, true, false⟩,
  ⟨fun _ => F.CAL_TOL, 0, 1, .rw, true, false⟩,
  ⟨fun _ => F.CAL_STAT_BUSY, 0, 1, .ro, false, false⟩,
  ⟨fun _ => F.CAL_STAT_CLASS, 0, 1, .ro, false, false⟩,
  ⟨fun _ => F.CAL_STAT_BANK, 0, 1, .ro, false, false⟩,
  ⟨fun _ => F.CAL_STAT_PENDING, 0, 1, .ro, false, false⟩,
  ⟨fun _ => F.CAL_LAST_REASON, 0, 1, .ro, false, false⟩,
  ⟨fun _ => F.CAL_LAST_CLASS, 0, 1, .ro, false, false⟩,
  ⟨fun _ => F.CAL_LAST_BANK, 0, 1, .ro, false, false⟩,
  ⟨fun _ => F.CAL_LAST_SLOT, 0, 1, .ro, false, false⟩,
  ⟨fun _ => F.CAL_LAST_PERSIST, 0, 1, .ro, false, false⟩,
  ⟨F.CAL_C_COUNT, 0x10, 3, .ro, false, false⟩,
  ⟨F.CAL_C_REJECTS, 0x10, 3, .ro, false, false⟩,
  ⟨F.CAL_C_TIME_LO, 0x10, 3, .ro, false, false⟩,
  ⟨F.CAL_C_TIME_HI, 0x10, 3, .ro, false, false⟩,
  ⟨F.CAL_BANK_VALID, 4, 16, .ro, false, false⟩,
  ⟨F.CAL_BANK_NOMINAL, 4, 16, .ro, false, false⟩,
  ⟨F.CAL_BANK_DUE, 4, 16, .ro, false, false⟩,
  ⟨F.CAL_BANK_TEMP, 4, 16, .ro, false, false⟩,
  ⟨fun _ => F.CAL_ABORTS, 0, 1, .ro, false, false⟩,
  ⟨fun _ => F.FLASH_ERR, 0, 1, .ro, false, false⟩]

/-- Rows of the MEM device page (Table 14-8), part 0. -/
def rows_memDev0 : List RegRow := [
  ⟨fun _ => F.MEM_SPEED_TARGET, 0, 1, .rw, true, false⟩,
  ⟨fun _ => F.MEM_SPEED_ACTIVE, 0, 1, .ro, false, false⟩,
  ⟨fun _ => F.MEM_SPEED_PENDING, 0, 1, .ro, false, false⟩,
  ⟨fun _ => F.MEM_TEMP_TEMP, 0, 1, .ro, false, false⟩,
  ⟨fun _ => F.MEM_TEMP_VALID, 0, 1, .ro, false, false⟩,
  ⟨fun _ => F.MEM_TEMP_HOT_RATE, 0, 1, .ro, false, false⟩,
  ⟨fun _ => F.MEM_TEMP_SEVERE, 0, 1, .ro, false, false⟩,
  ⟨fun _ => F.MEM_REF_CFG_THR, 0, 1, .rw, true, false⟩,
  ⟨fun _ => F.MEM_AGE_C3, 0, 1, .rw, true, false⟩,
  ⟨fun _ => F.MEM_AGE_C4, 0, 1, .rw, true, false⟩,
  ⟨fun _ => F.MEM_HOT_BW, 0, 1, .rw, true, false⟩,
  ⟨fun _ => F.MEM_SCRUB_EN, 0, 1, .rw, true, false⟩,
  ⟨fun _ => F.MEM_SCRUB_POS, 0, 1, .ro, false, false⟩,
  ⟨fun _ => F.MEM_LANE_THR, 0, 1, .rw, true, false⟩,
  ⟨fun _ => F.MEM_LANE_SEL, 0, 1, .rw, true, false⟩,
  ⟨fun _ => F.MEM_LANE_MASK0, 0, 1, .ro, false, false⟩,
  ⟨fun _ => F.MEM_LANE_MASK1, 0, 1, .ro, false, false⟩,
  ⟨fun _ => F.MEM_LANE_MASK2, 0, 1, .ro, false, false⟩,
  ⟨fun _ => F.MEM_MAP_Q, 0, 1, .rw, true, false⟩,
  ⟨fun _ => F.MEM_MAP_ENT, 0, 1, .ro, false, false⟩,
  ⟨fun _ => F.MEM_SPARES, 0, 1, .ro, false, false⟩,
  ⟨fun _ => F.MEM_UE_FRAME_FRAME, 0, 1, .ro, false, false⟩,
  ⟨fun _ => F.MEM_UE_FRAME_BLOCK, 0, 1, .ro, false, false⟩,
  ⟨fun _ => F.MEM_UE_INFO_CLASS, 0, 1, .ro, false, false⟩,
  ⟨fun _ => F.MEM_UE_INFO_PART, 0, 1, .ro, false, false⟩,
  ⟨fun _ => F.MEM_UE_INFO_RESERVED, 0, 1, .ro, false, false⟩,
  ⟨fun _ => F.MEM_UE_INFO_WRITE, 0, 1, .ro, false, false⟩,
  ⟨fun _ => F.MEM_UE_INFO_VALID, 0, 1, .ro, false, false⟩,
  ⟨fun _ => F.MEM_UE_TIME, 0, 1, .ro, false, false⟩,
  ⟨fun _ => F.MEM_GRAIN_G_0, 0, 1, .rw, true, false⟩]

/-- Rows of the MEM device page (Table 14-8), part 1. -/
def rows_memDev1 : List RegRow := [
  ⟨fun _ => F.MEM_GRAIN_SET_0, 0, 1, .rw, true, false⟩,
  ⟨fun _ => F.MEM_GRAIN_G_1, 0, 1, .rw, true, false⟩,
  ⟨fun _ => F.MEM_GRAIN_SET_1, 0, 1, .rw, true, false⟩,
  ⟨fun _ => F.MEM_GRAIN_G_2, 0, 1, .rw, true, false⟩,
  ⟨fun _ => F.MEM_GRAIN_SET_2, 0, 1, .rw, true, false⟩,
  ⟨fun _ => F.MEM_GRAIN_G_3, 0, 1, .rw, true, false⟩,
  ⟨fun _ => F.MEM_GRAIN_SET_3, 0, 1, .rw, true, false⟩,
  ⟨fun _ => F.MEM_CE_BLOCKS, 0, 1, .ro, false, false⟩,
  ⟨fun _ => F.MEM_CE_SYMBOLS, 0, 1, .ro, false, false⟩,
  ⟨fun _ => F.MEM_UE, 0, 1, .ro, false, false⟩,
  ⟨fun _ => F.MEM_SCRUB_PASSES, 0, 1, .ro, false, false⟩,
  ⟨fun _ => F.MEM_RETIRED, 0, 1, .ro, false, false⟩,
  ⟨fun _ => F.MEM_REF_CATCHUP, 0, 1, .ro, false, false⟩,
  ⟨fun _ => F.MEM_SPEED_ABORT, 0, 1, .ro, false, false⟩]

/-- Rows of the MEM device page (Table 14-8). -/
def rows_memDev : List RegRow := rows_memDev0 ++ rows_memDev1

/-- Rows of the MEM partition page (Table 14-9). -/
def rows_memPart : List RegRow := [
  ⟨fun _ => F.MEM_P_STAT_QUOTA, 0, 1, .ro, false, false⟩,
  ⟨fun _ => F.MEM_P_STAT_CLEARING, 0, 1, .ro, false, false⟩,
  ⟨fun _ => F.MEM_P_STAT_GRAIN, 0, 1, .ro, false, false⟩,
  ⟨fun _ => F.MEM_P_UE_ADDR_LO, 0, 1, .ro, false, false⟩,
  ⟨fun _ => F.MEM_P_UE_ADDR_HI, 0, 1, .ro, false, false⟩,
  ⟨fun _ => F.MEM_P_UE_INFO_BLOCK, 0, 1, .ro, false, false⟩,
  ⟨fun _ => F.MEM_P_UE_INFO_CLASS, 0, 1, .ro, false, false⟩,
  ⟨fun _ => F.MEM_P_UE_INFO_WRITE, 0, 1, .ro, false, false⟩,
  ⟨fun _ => F.MEM_P_UE_INFO_VALID, 0, 1, .ro, false, false⟩,
  ⟨fun _ => F.MEM_P_UE, 0, 1, .ro, false, false⟩,
  ⟨fun _ => F.MEM_P_CE, 0, 1, .ro, false, false⟩,
  ⟨fun _ => F.MEM_P_C1_BYTES, 0, 1, .ro, false, false⟩,
  ⟨fun _ => F.MEM_P_C2_BYTES, 0, 1, .ro, false, false⟩,
  ⟨fun _ => F.MEM_P_C3_BYTES, 0, 1, .ro, false, false⟩]

/-- Rows of the HIF device page (Table 15-8). -/
def rows_hifDev : List RegRow := [
  ⟨fun _ => F.HIF_DEV_STAT_BIFUR, 0, 1, .ro, false, false⟩,
  ⟨fun _ => F.HIF_DEV_STAT_PRIV, 0, 1, .ro, false, false⟩,
  ⟨fun _ => F.HIF_DEV_STAT_MOVING, 0, 1, .ro, false, false⟩,
  ⟨fun _ => F.HIF_DEV_STAT_PORT_UP, 0, 1, .ro, false, false⟩,
  ⟨fun _ => F.HIF_DEV_STAT_PRESET, 0, 1, .ro, false, false⟩,
  ⟨fun _ => F.HIF_BANK_OWN_LO, 0, 1, .rw, true, false⟩,
  ⟨fun _ => F.HIF_BANK_OWN_HI, 0, 1, .rw, true, false⟩,
  ⟨fun _ => F.HIF_QUOTA_0, 0, 1, .rw, true, false⟩,
  ⟨fun _ => F.HIF_QUOTA_1, 0, 1, .rw, true, false⟩,
  ⟨fun _ => F.HIF_QUOTA_2, 0, 1, .rw, true, false⟩,
  ⟨fun _ => F.HIF_QUOTA_3, 0, 1, .rw, true, false⟩]

/-- Rows of the HIF partition page (Table 15-8). -/
def rows_hifPart : List RegRow := [
  ⟨fun _ => F.HIF_P_LINK_SPEED, 0, 1, .ro, false, false⟩,
  ⟨fun _ => F.HIF_P_LINK_WIDTH, 0, 1, .ro, false, false⟩,
  ⟨fun _ => F.HIF_P_WIN, 0, 1, .rw, false, false⟩,
  ⟨F.HIF_P_IMAP, 4, 32, .rw, false, false⟩,
  ⟨fun _ => F.BAD_ACCESS, 0, 1, .ro, false, false⟩,
  ⟨fun _ => F.OOR_ACCESS, 0, 1, .ro, false, false⟩,
  ⟨fun _ => F.NONOWN_WR, 0, 1, .ro, false, false⟩,
  ⟨fun _ => F.POISON_RX, 0, 1, .ro, false, false⟩,
  ⟨fun _ => F.CPL_LOST, 0, 1, .ro, false, false⟩]

/-- Rows of the BAR4 (Table 15-9), part 0. -/
def rows_bar40 : List RegRow := [
  ⟨F.MBX_CMD_SLOT, 4, 4096, .rw, false, false⟩,
  ⟨F.MBX_RSP_SLOT, 4, 512, .ro, false, false⟩,
  ⟨fun _ => F.MBX_CMD_PROD, 0, 1, .rw, false, false⟩,
  ⟨fun _ => F.MBX_CMD_CONS, 0, 1, .ro, false, false⟩,
  ⟨fun _ => F.MBX_RSP_PROD, 0, 1, .ro, false, false⟩,
  ⟨fun _ => F.MBX_RSP_CONS, 0, 1, .rw, false, false⟩,
  ⟨F.DESC_CTRL_EN, 0x100, 4, .rw, false, false⟩,
  ⟨F.DESC_CTRL_SIZE, 0x100, 4, .rw, false, false⟩,
  ⟨F.DESC_BASE, 0x100, 4, .rw, false, false⟩,
  ⟨F.DESC_CPL_BASE, 0x100, 4, .rw, false, false⟩,
  ⟨F.DESC_PROD, 0x100, 4, .rw, false, false⟩,
  ⟨F.DESC_CONS, 0x100, 4, .ro, false, false⟩,
  ⟨F.DESC_CPL_PROD, 0x100, 4, .ro, false, false⟩,
  ⟨F.DESC_CPL_CONS, 0x100, 4, .rw, false, false⟩,
  ⟨F.DESC_STAT_ERROR, 0x100, 4, .w1c, false, false⟩,
  ⟨F.DESC_STAT_HELD, 0x100, 4, .ro, false, false⟩,
  ⟨F.RING_CTRL_EN, 0x100, 16, .rw, false, false⟩,
  ⟨F.RING_CTRL_MODE, 0x100, 16, .rw, false, false⟩,
  ⟨F.RING_CTRL_PAGE, 0x100, 16, .rw, false, false⟩,
  ⟨F.RING_CTRL_NPAGES, 0x100, 16, .rw, false, false⟩,
  ⟨F.RING_BASE_LO, 0x100, 16, .rw, false, false⟩,
  ⟨F.RING_BASE_HI, 0x100, 16, .rw, false, false⟩,
  ⟨F.RING_LOW, 0x100, 16, .rw, false, false⟩,
  ⟨F.RING_WR, 0x100, 16, .rw, false, false⟩,
  ⟨F.RING_RD, 0x100, 16, .ro, false, false⟩,
  ⟨F.RING_STAT_UNDERRUN, 0x100, 16, .w1c, false, false⟩,
  ⟨F.RING_STAT_ERROR, 0x100, 16, .w1c, false, false⟩,
  ⟨F.RING_STAT_BOUND, 0x100, 16, .ro, false, false⟩,
  ⟨F.RING_STAT_FQ_LEVEL, 0x100, 16, .ro, false, false⟩,
  ⟨F.RING_STAT_ROUTE, 0x100, 16, .ro, false, false⟩]

/-- Rows of the BAR4 (Table 15-9), part 1. -/
def rows_bar41 : List RegRow := [
  ⟨F.RING_FETCH_ADDR, 0x100, 16, .rw, false, false⟩,
  ⟨F.RING_FETCH_LEN, 0x100, 16, .wo, false, false⟩,
  ⟨F.RING_STALLS, 0x100, 16, .ro, false, false⟩,
  ⟨F.MSIX_TABLE, 4, 1024, .rw, false, false⟩,
  ⟨F.MSIX_PBA, 4, 8, .ro, false, false⟩]

/-- Rows of the BAR4 (Table 15-9). -/
def rows_bar4 : List RegRow := rows_bar40 ++ rows_bar41

/-- Rows of the Common page header (Table 16-2), part 0. -/
def rows_hdr0 : List RegRow := [
  ⟨fun _ => F.BLK_ID_LAYOUT, 0, 1, .ro, false, false⟩,
  ⟨fun _ => F.BLK_ID_INSTANCE, 0, 1, .ro, false, false⟩,
  ⟨fun _ => F.BLK_ID_TYPE, 0, 1, .ro, false, false⟩,
  ⟨fun _ => F.BLK_CAP_SIZE, 0, 1, .ro, false, false⟩,
  ⟨fun _ => F.BLK_CAP_EN_IMPL, 0, 1, .ro, false, false⟩,
  ⟨fun _ => F.BLK_CAP_PDOM, 0, 1, .ro, false, false⟩,
  ⟨fun _ => F.BLK_CAP_NCNT, 0, 1, .ro, false, false⟩,
  ⟨fun _ => F.BLK_CTRL_EN, 0, 1, .rw, false, false⟩,
  ⟨fun _ => F.BLK_STAT_ON, 0, 1, .ro, false, false⟩,
  ⟨fun _ => F.BLK_STAT_ON_PENDING, 0, 1, .ro, false, false⟩,
  ⟨fun _ => F.BLK_STAT_OFF_PENDING, 0, 1, .ro, false, false⟩,
  ⟨fun _ => F.BLK_STAT_SAFE, 0, 1, .ro, false, false⟩,
  ⟨fun _ => F.BLK_STAT_LOCKED, 0, 1, .ro, false, false⟩,
  ⟨fun _ => F.INT_RAW, 0, 1, .w1c, false, false⟩,
  ⟨fun _ => F.INT_EN, 0, 1, .rw, false, false⟩,
  ⟨fun _ => F.INT_PEND, 0, 1, .ro, false, false⟩,
  ⟨fun _ => F.INT_SET, 0, 1, .wo, false, false⟩,
  ⟨fun _ => F.FLT_CAUSE, 0, 1, .w1c, false, false⟩,
  ⟨fun _ => F.FLT_LIVE, 0, 1, .ro, false, false⟩,
  ⟨fun _ => F.FLT_SEVERE, 0, 1, .ro, false, false⟩,
  ⟨fun _ => F.FLT_CNT, 0, 1, .ro, false, false⟩,
  ⟨fun _ => F.FLT_WIN, 0, 1, .rw, true, false⟩,
  ⟨fun _ => F.FLT_THR, 0, 1, .rw, true, false⟩,
  ⟨fun _ => F.FLT_GRACE, 0, 1, .rw, true, false⟩,
  ⟨fun _ => F.FLT_ACTION, 0, 1, .rw, true, false⟩,
  ⟨fun _ => F.FLT_ERRPIN, 0, 1, .rw, true, false⟩,
  ⟨fun _ => F.PAR_STAT_OFFSET, 0, 1, .ro, false, false⟩,
  ⟨fun _ => F.PAR_STAT_VALID, 0, 1, .ro, false, false⟩,
  ⟨fun _ => F.PAR_STAT_COUNT, 0, 1, .ro, false, false⟩,
  ⟨fun _ => F.LOCK, 0, 1, .w1s, false, false⟩]

/-- Rows of the Common page header (Table 16-2), part 1. -/
def rows_hdr1 : List RegRow := [
  ⟨fun _ => F.OWNER, 0, 1, .ro, false, false⟩,
  ⟨fun _ => F.WRITE_LOCKED, 0, 1, .ro, false, false⟩,
  ⟨fun _ => F.CPL_ERR, 0, 1, .ro, false, false⟩]

/-- Rows of the Common page header (Table 16-2). -/
def rows_hdr : List RegRow := rows_hdr0 ++ rows_hdr1

/-- Rows of the MGT device page (Table 17-7). -/
def rows_mgtDev : List RegRow := [
  ⟨fun _ => F.MGT_ERR_LOW, 0, 1, .ro, false, false⟩,
  ⟨fun _ => F.MGT_ERR_SEVERE, 0, 1, .ro, false, false⟩,
  ⟨fun _ => F.MGT_ERR_HALTED, 0, 1, .ro, false, false⟩,
  ⟨fun _ => F.MGT_SEV_BLK, 0, 1, .ro, false, false⟩,
  ⟨fun _ => F.MGT_HALT_TYPE, 0, 1, .ro, false, false⟩,
  ⟨fun _ => F.MGT_HALT_INST, 0, 1, .ro, false, false⟩,
  ⟨fun _ => F.MGT_HALT_CAUSE, 0, 1, .ro, false, false⟩,
  ⟨fun _ => F.MGT_EVLOG_IDX, 0, 1, .rw, true, false⟩,
  ⟨F.MGT_EVLOG_DATA, 4, 4, .ro, false, false⟩,
  ⟨fun _ => F.MGT_EVLOG_WCNT, 0, 1, .ro, false, false⟩,
  ⟨fun _ => F.MGT_EVLOG_OVWR, 0, 1, .ro, false, false⟩,
  ⟨fun _ => F.MGT_EVLOG_MARK, 0, 1, .wo, true, false⟩,
  ⟨fun _ => F.CLR_REFUSED, 0, 1, .ro, false, false⟩,
  ⟨fun _ => F.ESCALATIONS, 0, 1, .ro, false, false⟩]

/-- Rows of the MGT partition page (Table 17-8). -/
def rows_mgtPart : List RegRow := [
  ⟨fun _ => F.MGT_P_STAT_SEVERE, 0, 1, .ro, false, false⟩,
  ⟨fun _ => F.MGT_P_STAT_ESCALATED, 0, 1, .ro, false, false⟩,
  ⟨fun _ => F.MGT_P_LAST_TYPE, 0, 1, .ro, false, false⟩,
  ⟨fun _ => F.MGT_P_LAST_INST, 0, 1, .ro, false, false⟩,
  ⟨fun _ => F.MGT_P_LAST_CAUSE, 0, 1, .ro, false, false⟩,
  ⟨fun _ => F.CLR_REFUSED, 0, 1, .ro, false, false⟩,
  ⟨fun _ => F.ESCALATIONS, 0, 1, .ro, false, false⟩]

/-- Rows of the PWR device page (Table 18-8). -/
def rows_pwrDev : List RegRow := [
  ⟨fun _ => F.PWR_STAT_STATE, 0, 1, .ro, false, false⟩,
  ⟨fun _ => F.PWR_STAT_VIN_OK, 0, 1, .ro, false, false⟩,
  ⟨fun _ => F.PWR_DOM_ON, 0, 1, .ro, false, false⟩,
  ⟨fun _ => F.PWR_TJ, 0, 1, .ro, false, false⟩,
  ⟨fun _ => F.PWR_SLEEP_CTRL_WAKE_EN, 0, 1, .rw, true, false⟩,
  ⟨fun _ => F.PWR_SLEEP_CTRL_PCIE_EN, 0, 1, .rw, true, false⟩,
  ⟨fun _ => F.PWR_SLEEP_CTRL_TIMER_EN, 0, 1, .rw, true, false⟩,
  ⟨fun _ => F.PWR_SLEEP_CTRL_SREQ_EN, 0, 1, .rw, true, false⟩,
  ⟨fun _ => F.PWR_WAKE_TIME_SEC_LO, 0, 1, .rw, true, false⟩,
  ⟨fun _ => F.PWR_WAKE_TIME_SEC_HI, 0, 1, .rw, true, false⟩,
  ⟨fun _ => F.PWR_WAKE_TIME_NS, 0, 1, .rw, true, false⟩,
  ⟨fun _ => F.PWR_LAST_WAKE_SRC, 0, 1, .ro, false, false⟩,
  ⟨fun _ => F.PWR_ILIM, 0, 1, .rw, true, true⟩,
  ⟨fun _ => F.PWR_MON_VIN, 0, 1, .ro, false, false⟩,
  ⟨fun _ => F.PWR_MON_IIN, 0, 1, .ro, false, false⟩,
  ⟨fun _ => F.SLEEPS, 0, 1, .ro, false, false⟩,
  ⟨fun _ => F.SLEEP_ABORTS, 0, 1, .ro, false, false⟩,
  ⟨fun _ => F.BROWNOUTS, 0, 1, .ro, false, false⟩]

/-- Rows of the PWR partition page (Table 18-8). -/
def rows_pwrPart : List RegRow := [
  ⟨fun _ => F.PWR_P_SLEEP_VOTE, 0, 1, .rw, false, false⟩,
  ⟨fun _ => F.PWR_P_STAT_STATE, 0, 1, .ro, false, false⟩,
  ⟨fun _ => F.PWR_P_STAT_ALL_VOTED, 0, 1, .ro, false, false⟩]

/-- Rows of the Recovery BAR0 (Table 19-9). -/
def rows_rec : List RegRow := [
  ⟨fun _ => F.REC_ID, 0, 1, .ro, false, false⟩,
  ⟨fun _ => F.REC_STAT_BUSY, 0, 1, .ro, false, false⟩,
  ⟨fun _ => F.REC_STAT_RESULT, 0, 1, .ro, false, false⟩,
  ⟨fun _ => F.REC_STAT_REASON, 0, 1, .ro, false, false⟩,
  ⟨fun _ => F.REC_STAT_CAUSE, 0, 1, .ro, false, false⟩,
  ⟨fun _ => F.REC_OFFSET, 0, 1, .rw, false, false⟩,
  ⟨fun _ => F.REC_LEN, 0, 1, .rw, false, false⟩,
  ⟨fun _ => F.REC_CMD, 0, 1, .wo, false, false⟩,
  ⟨fun _ => F.REC_SLOT, 0, 1, .rw, false, false⟩,
  ⟨F.REC_BUFFER, 4, 8192, .rw, false, false⟩]

/-- Rows of the BOOT page (Table 19-10). -/
def rows_boot : List RegRow := [
  ⟨fun _ => F.BOOT_STAT_READY, 0, 1, .ro, false, false⟩,
  ⟨fun _ => F.BOOT_STAT_SLOT, 0, 1, .ro, false, false⟩,
  ⟨fun _ => F.BOOT_STAT_TRIAL, 0, 1, .ro, false, false⟩,
  ⟨fun _ => F.BOOT_STAT_FALLBACK, 0, 1, .ro, false, false⟩,
  ⟨fun _ => F.BOOT_LAST_REASON, 0, 1, .ro, false, false⟩,
  ⟨fun _ => F.BOOT_LAST_SLOT, 0, 1, .ro, false, false⟩,
  ⟨fun _ => F.BOOT_LAST_PART, 0, 1, .ro, false, false⟩,
  ⟨fun _ => F.BOOT_VER_ACT, 0, 1, .ro, false, false⟩,
  ⟨fun _ => F.BOOT_SVN_ACT, 0, 1, .ro, false, false⟩,
  ⟨fun _ => F.BOOT_SVN_MIN, 0, 1, .ro, false, false⟩,
  ⟨fun _ => F.BOOT_PART_SEL, 0, 1, .rw, false, false⟩,
  ⟨fun _ => F.BOOT_PART_VER, 0, 1, .ro, false, false⟩,
  ⟨fun _ => F.BOOT_SLOT_STAT_A, 0, 1, .ro, false, false⟩,
  ⟨fun _ => F.BOOT_SLOT_STAT_B, 0, 1, .ro, false, false⟩,
  ⟨fun _ => F.BOOT_UPD_SRC_LO, 0, 1, .rw, true, false⟩,
  ⟨fun _ => F.BOOT_UPD_SRC_HI, 0, 1, .rw, true, false⟩,
  ⟨fun _ => F.BOOT_UPD_LEN, 0, 1, .rw, true, false⟩,
  ⟨fun _ => F.BOOT_UPD_CMD_WRITE, 0, 1, .w1s, true, false⟩,
  ⟨fun _ => F.BOOT_UPD_CMD_PEND, 0, 1, .w1s, true, false⟩,
  ⟨fun _ => F.BOOT_UPD_CMD_UNPEND, 0, 1, .w1s, true, false⟩,
  ⟨fun _ => F.BOOT_UPD_CMD_RECOVER, 0, 1, .w1s, true, false⟩,
  ⟨fun _ => F.BOOT_UPD_STAT_BUSY, 0, 1, .ro, false, false⟩,
  ⟨fun _ => F.BOOT_UPD_STAT_RESULT, 0, 1, .ro, false, false⟩,
  ⟨fun _ => F.BOOT_VER_A, 0, 1, .ro, false, false⟩,
  ⟨fun _ => F.BOOT_VER_B, 0, 1, .ro, false, false⟩,
  ⟨fun _ => F.BOOT_FLASH_ID, 0, 1, .ro, false, false⟩,
  ⟨fun _ => F.BOOT_FLASH_SIZE, 0, 1, .ro, false, false⟩,
  ⟨fun _ => F.BOOTS, 0, 1, .ro, false, false⟩,
  ⟨fun _ => F.FALLBACKS, 0, 1, .ro, false, false⟩,
  ⟨fun _ => F.FLASH_OPS, 0, 1, .ro, false, false⟩]

/-- Rows of the LCS page (Table 20-8), part 0. -/
def rows_lcs0 : List RegRow := [
  ⟨fun _ => F.LCS_STATE_STATE, 0, 1, .ro, false, false⟩,
  ⟨fun _ => F.LCS_STATE_CYCLES, 0, 1, .ro, false, false⟩,
  ⟨fun _ => F.LCS_STATE_ERASE_PEND, 0, 1, .ro, false, false⟩,
  ⟨fun _ => F.LCS_TRANS_TARGET, 0, 1, .rw, true, true⟩,
  ⟨fun _ => F.LCS_TRANS_ERASE, 0, 1, .rw, true, true⟩,
  ⟨fun _ => F.LCS_TRANS_STAT_BUSY, 0, 1, .ro, false, false⟩,
  ⟨fun _ => F.LCS_TRANS_STAT_RESULT, 0, 1, .ro, false, false⟩,
  ⟨fun _ => F.LCS_SERIAL, 0, 1, .ro, false, false⟩,
  ⟨fun _ => F.LCS_FUSE_SEL_WORD, 0, 1, .rw, true, false⟩,
  ⟨fun _ => F.LCS_FUSE_SEL_ROW, 0, 1, .rw, true, false⟩,
  ⟨fun _ => F.LCS_FUSE_DATA, 0, 1, .rw, true, false⟩,
  ⟨fun _ => F.LCS_FUSE_CMD_PROG, 0, 1, .w1s, true, true⟩,
  ⟨fun _ => F.LCS_FUSE_RD, 0, 1, .ro, false, false⟩,
  ⟨fun _ => F.LCS_FUSE_STAT_BUSY, 0, 1, .ro, false, false⟩,
  ⟨fun _ => F.LCS_FUSE_STAT_RESULT, 0, 1, .ro, false, false⟩,
  ⟨fun _ => F.LCS_POLICY_AUTO, 0, 1, .rw, true, false⟩,
  ⟨fun _ => F.LCS_PROP_HEAD_ID, 0, 1, .ro, false, false⟩,
  ⟨fun _ => F.LCS_PROP_HEAD_KIND, 0, 1, .ro, false, false⟩,
  ⟨fun _ => F.LCS_PROP_HEAD_INST, 0, 1, .ro, false, false⟩,
  ⟨fun _ => F.LCS_PROP_HEAD_CAUSE, 0, 1, .ro, false, false⟩,
  ⟨fun _ => F.LCS_PROP_HEAD_VALID, 0, 1, .ro, false, false⟩,
  ⟨fun _ => F.LCS_PROP_CTL_ID, 0, 1, .rw, true, true⟩,
  ⟨fun _ => F.LCS_PROP_CTL_APPROVE, 0, 1, .rw, true, true⟩,
  ⟨fun _ => F.LCS_PROP_CTL_REJECT, 0, 1, .rw, true, true⟩,
  ⟨fun _ => F.LCS_PROP_STAT_LEVEL, 0, 1, .ro, false, false⟩,
  ⟨fun _ => F.LCS_PROP_LAST_ID, 0, 1, .ro, false, false⟩,
  ⟨fun _ => F.LCS_PROP_LAST_NO_SPARE, 0, 1, .ro, false, false⟩,
  ⟨fun _ => F.LCS_ATTEST_PART, 0, 1, .rw, true, false⟩,
  ⟨fun _ => F.LCS_ATTEST_GO, 0, 1, .w1s, true, false⟩,
  ⟨fun _ => F.LCS_ATTEST_NOKEY, 0, 1, .ro, false, false⟩]

/-- Rows of the LCS page (Table 20-8), part 1. -/
def rows_lcs1 : List RegRow := [
  ⟨F.LCS_ATTEST_CHAL, 4, 8, .rw, true, false⟩,
  ⟨F.LCS_ATTEST_TAG, 4, 12, .ro, false, false⟩,
  ⟨fun _ => F.PROPOSALS, 0, 1, .ro, false, false⟩,
  ⟨fun _ => F.PROP_MERGED, 0, 1, .ro, false, false⟩,
  ⟨fun _ => F.SUBSTITUTIONS, 0, 1, .ro, false, false⟩]

/-- Rows of the LCS page (Table 20-8). -/
def rows_lcs : List RegRow := rows_lcs0 ++ rows_lcs1

/-- Rows of the PTB page (Table 20-9). -/
def rows_ptb : List RegRow := [
  ⟨fun _ => F.PTB_UNLOCK, 0, 1, .rw, true, true⟩,
  ⟨fun _ => F.PTB_STAT_UNLOCKED, 0, 1, .ro, false, false⟩,
  ⟨fun _ => F.PTB_STAT_ACTIVE, 0, 1, .ro, false, false⟩,
  ⟨fun _ => F.PTB_STAT_ANNOUNCED, 0, 1, .ro, false, false⟩,
  ⟨fun _ => F.PTB_TIMEOUT, 0, 1, .rw, true, false⟩,
  ⟨F.PTB_CTRL_EN, 0x10, 16, .rw, true, false⟩,
  ⟨F.PTB_CTRL_TYPE, 0x10, 16, .rw, true, false⟩,
  ⟨F.PTB_CTRL_A, 0x10, 16, .rw, true, false⟩,
  ⟨F.PTB_CTRL_B, 0x10, 16, .rw, true, false⟩,
  ⟨F.PTB_MAG, 0x10, 16, .rw, true, false⟩,
  ⟨F.PTB_RATE, 0x10, 16, .rw, true, false⟩,
  ⟨F.PTB_COUNT, 0x10, 16, .ro, false, false⟩]

/-- Rows of a partition time base: those of the device time base, RW in place of RW/PRV (R63). -/
def rows_timPtb : List RegRow :=
  (rows_timBase.filter fun r => decide (0x120 ≤ (r.fld 0).off) && decide ((r.fld 0).off < 0x154)).map fun r => { r with prv := false }

/-- The rows of a page. The mirrors of R63, R363 and Table 18-8 are not rows: they are views of other pages' fields. -/
def rowsOf : Page → List RegRow
  | .mgtDev => rows_hdr ++ rows_mgtDev | .mgtPart _ => rows_hdr ++ rows_mgtPart
  | .hifDev => rows_hdr ++ rows_hifDev | .hifPart _ => rows_hdr ++ rows_hifPart
  | .timDev => rows_hdr ++ rows_timBase | .timPart _ => rows_hdr ++ rows_timPtb ++ rows_timSite
  | .timPulse _ => rows_hdr ++ rows_timPulse
  | .tlkCtl => rows_hdr ++ rows_tlkCtl | .tlkPort _ => rows_hdr ++ rows_tlkPort | .tlkLane _ => rows_hdr ++ rows_tlkLane
  | .disDev => rows_hdr ++ rows_disDev | .disPart _ => rows_hdr ++ rows_disPart
  | .disGrp _ => rows_hdr ++ rows_disGrp ++ rows_whist
  | .eng e => rows_hdr ++ rows_eng e
  | .bnk _ => rows_hdr ++ rows_bnk ++ rows_bnkPin ++ rows_fur ++ rows_edgPin
  | .cmpDev => rows_hdr | .cmpPart _ => rows_hdr ++ rows_cmpPart ++ rows_cmpSite ++ rows_cmpSr
  | .cmpPin _ => rows_hdr ++ rows_cmpPin
  | .acqDev => rows_hdr ++ rows_acqDev | .acqTo _ => rows_hdr ++ rows_acqTo
  | .edg => rows_hdr ++ [⟨fun _ => F.EDG_LOST_SUM, 0, 1, .ro, false, false⟩, ⟨fun _ => F.SR_DROP_SUM, 0, 1, .ro, false, false⟩]
  | .au u => rows_hdr ++ rows_au u
  | .calDev => rows_hdr ++ rows_calDev
  | .calPart _ => rows_hdr ++ [⟨fun _ => F.CAL_P_REQ_CLASSES, 0, 1, .rw, false, false⟩, ⟨fun _ => F.CAL_P_REQ_GO, 0, 1, .w1s, false, false⟩,
      ⟨fun _ => F.CAL_P_REQ_BANKS, 0, 1, .rw, false, false⟩]
  | .memDev => rows_hdr ++ rows_memDev | .memPart _ => rows_hdr ++ rows_memPart
  | .pwrDev => rows_hdr ++ rows_pwrDev | .pwrPart _ => rows_hdr ++ rows_pwrPart
  | .boot => rows_hdr ++ rows_boot | .lcs => rows_hdr ++ rows_lcs | .ptb => rows_hdr ++ rows_ptb
  | .bar4 _ => rows_bar4
  | .recov => rows_rec

/-- The entry of a strided row that an offset falls in. -/
def rowIndex (r : RegRow) (off : Nat) : Nat :=
  if r.stride = 0 then 0 else min ((off - (r.fld 0).off) / r.stride) (r.count - 1)

/-- The fields of a page that lie in the word at an offset (a 64-bit field lies in two words), with their rows. -/
def fieldsAt (p : Page) (off : Nat) : List (Fld × RegRow) :=
  (rowsOf p).filterMap fun r =>
    let f := r.fld (rowIndex r off)
    let words := if f.lo + f.width > 32 then 2 else 1
    if decide (f.off ≤ off) && decide (off < f.off + 4 * words) then some (f, r) else none

end Sys2Proof.Machine
end

