-- ==== Sys2Proof/Machine/Tab.lean ====
section
/-! DEFINITION. Sparse tables: sorted lists of (key, value) pairs in one canonical form. A key that is not listed holds the table's
default, and no pair that holds the default is listed, so equal tables are equal data. -/

namespace Sys2Proof.Machine

/-- A sparse table from natural-number keys: pairs with strictly rising keys. -/
abbrev Tab (α : Type) := List (Nat × α)

/-- The listed value of a key, if any. -/
def tabFind {α : Type} : Tab α → Nat → Option α
  | [], _ => none
  | (k, v) :: t, x => if x = k then some v else tabFind t x

/-- The value of a key; `d` where the key is not listed. -/
def tabGet {α : Type} (d : α) (t : Tab α) (k : Nat) : α := (tabFind t k).getD d

/-- The table without a key. -/
def tabDel {α : Type} (t : Tab α) (x : Nat) : Tab α := t.filter fun p => p.1 != x

/-- The table with a pair, replacing an old pair of the key. -/
def tabIns {α : Type} : Tab α → Nat → α → Tab α
  | [], x, w => [(x, w)]
  | (k, v) :: t, x, w =>
    if x = k then (k, w) :: t else if x < k then (x, w) :: (k, v) :: t else (k, v) :: tabIns t x w

/-- Write of a key: the default removes the pair, any other value is listed. -/
def tabPut {α : Type} [DecidableEq α] (d : α) (t : Tab α) (k : Nat) (v : α) : Tab α :=
  if v = d then tabDel t k else tabIns t k v

/-- The pairs with keys below `lo` or at or above `hi`: the keys `lo .. hi - 1` return to the default. -/
def tabDrop {α : Type} (t : Tab α) (lo hi : Nat) : Tab α :=
  t.filter fun p => decide (p.1 < lo) || decide (hi ≤ p.1)

/-- The keys of a table rise strictly. -/
def tabSorted {α : Type} : Tab α → Bool
  | [] => true
  | [_] => true
  | (a, _) :: (b, w) :: t => decide (a < b) && tabSorted ((b, w) :: t)

/-! ### The CRC-32 of records (Tables 6-6, 13-4 and 19-2, R474) -/

/-- One bit of the CRC-32 of IEEE 802.3, in its reflected form. -/
def crcBit (c : Nat) : Nat := if c.testBit 0 then (c / 2) ^^^ 0xEDB88320 else c / 2

/-- One byte of the CRC-32. -/
def crcByte (c b : Nat) : Nat := (List.range 8).foldl (fun c _ => crcBit c) (c ^^^ b)

/-- CRC-32 (IEEE 802.3 polynomial) over the first n bytes of a little-endian number. -/
@[irreducible] def crc32 (n v : Nat) : Nat := ((List.range n).foldl (fun c k => crcByte c (v / 2 ^ (8 * k) % 256)) 0xFFFFFFFF) ^^^ 0xFFFFFFFF

end Sys2Proof.Machine
end

