-- ==== Sys2Proof/Machine/State.lean ====
section
/-! DEFINITION. The state of the DRL-5256: registers by field, pattern memory, and for each subsystem the state that stands in no register;
with it the reset state and the reasons a step can stop. -/

namespace Sys2Proof.Machine

open Sys2Proof

/-- Reasons for a fault. -/
inductive Fault where
  /-- Raised by no meaning of this model: every command of the table has an effect the spec gives. Kept so that the type has a name. Safe. -/
  | noEffect
deriving DecidableEq, Repr

/-- Reasons for a refusal. -/
inductive Refusal where
  /-- Raised by an arm of `exec` whose command has no meaning yet, with its mnemonic. Safe: the machine stops. -/
  | notModelled (mnemonic : String)
deriving DecidableEq, Repr

/-- One entry of the device event log (Table 17-4). -/
structure LogEntry where
  sec : Nat
  ns : Nat
  kind : Nat
  typ : Nat
  inst : Nat
  cause : Nat
  detail : Nat
deriving DecidableEq, Repr

/-- What a page keeps of one cause beside its header bits (R442–R445): event count, window start and grace start in 10 ns ticks of AON,
the grace time in force, and whether the cause has escalated since its last clear. -/
structure FltRec where
  count : Nat
  winStart : Nat
  grace : Option (Nat × Nat)
  escalated : Bool
deriving DecidableEq, Repr

/-- Fault and log state outside the registers (chapter 17) and the bookkeeping of register accesses (chapter 16). -/
structure MgtState where
  /-- Cause records, keyed by page base + cause bit. -/
  flt : Tab FltRec
  /-- Pages in their safe state through a parity mismatch (R430), keyed by page base. -/
  safePar : Tab Bool
  /-- Escalated causes not yet cleared (Table 17-1), a bit mask keyed by page base. -/
  safeEsc : Tab Nat
  /-- Pages with a block reset running (Table 17-1, action 1), keyed by page base: the cause that escalated to it. -/
  blkReset : Tab (Option Nat)
  /-- The event log in retention memory: place to entry (R453). -/
  log : Tab LogEntry
  /-- Per master, the latched event-log entry (R455). -/
  latch : Tab LogEntry
  /-- Register words whose stored bits and parity bit disagree (R430), keyed by word address. -/
  parBad : Tab Bool
  /-- Open complement pairs (R431): key master × 2^40 + word address, value V. -/
  pairs : Tab Nat
  /-- Per master, the read shadow of R436: tag address and high word. -/
  rdShadow : Tab (Nat × Nat)
  /-- Per master, the write shadow of R436: tag address and low word. -/
  wrShadow : Tab (Nat × Nat)
  /-- Write-once fields already written (R437), keyed by word address. -/
  written : Tab Bool
  /-- The words of `parBad` whose mismatch has been detected (R430), keyed by word address. -/
  parSeen : Tab Bool
deriving DecidableEq, Repr

/-- A time value latched for a master (R48). -/
structure Snap where
  sec : Nat
  ns : Nat
  subns : Nat
deriving DecidableEq, Repr

/-- What a pulse sampled at its arming (R58): START, PERIOD and WIDTH in time units, the time base and the polarity, and the next
scheduled point n. -/
structure Pulse where
  start : Nat
  period : Nat
  width : Nat
  tbsel : Bool
  pol : Bool
  point : Nat
deriving DecidableEq, Repr

/-- A pulse output while it is asserted (R59): the time base that fired it, that base's tick count at the firing, when WIDTH ends in 2^-32 ns after
that tick, and the sampled POL. -/
structure PulseOn where
  base : Nat
  tick : Nat
  due : Nat
  pol : Bool
deriving DecidableEq, Repr

/-- Where a site's vector time began (R50, R53): the tick count of its partition time base at tick k, the delay of the epoch after that tick
in units of 2^-32 ns, and the epoch in units of 2^-32 ns. -/
structure SiteStart where
  tick : Nat
  delay : Nat
  epoch : Nat
deriving DecidableEq, Repr

/-- Reference time state outside the registers (chapter 2). -/
structure TimState where
  /-- Lower 16 bits of the 2^-32 ns fraction of each time base (R44). -/
  fracLo : Tab Nat
  /-- INCREMENT in force of each time base (R45). -/
  inc : Tab Nat
  /-- Ticks counted by the clock of each time base: AON for 0, REF for 1 to 4. -/
  ticks : Tab Nat
  /-- Snapshots of R48, keyed by master × 2^20 + time value. -/
  snaps : Tab Snap
  /-- Loss conditions holding on each source (R34). -/
  refLost : Bool
  /-- Milliseconds in the present holdover (R41). -/
  holdMs : Nat
  /-- r of R39 in units of 2^-32. -/
  holdRatio : Nat
  /-- The device time base at the entry into holdover, in 2^-32 ns (d of R39). -/
  holdEntry : Nat
  /-- The device time base at the last write of TIM_AGEING, in 2^-32 ns (R40). -/
  ageWrite : Nat
  /-- While the frequency of REF moves toward a rate that the crystal gives (R36): REF against the crystal at the latest millisecond, in units of 2^-32 × 10^-9. -/
  slewRate : Option Int
  /-- Where the latest tick of a time base stepped it by SET or ADJUST (R52): the value that the tick would have given without. -/
  stepFrom : Tab (Option Nat)
  /-- Pulses as armed, keyed by pulse number. -/
  pulses : Tab (Option Pulse)
  /-- Pulse outputs that are asserted (R59). -/
  pulseOn : Tab (Option PulseOn)
  /-- POL of each pulse output as sampled at its latest arming (R58, R65). -/
  pulsePol : Tab Bool
  /-- Time bases recorded at sleep entry (R49), in 2^-32 ns. -/
  sleepRec : Tab Nat
  /-- Start of vector time of each site (R53). -/
  starts : Tab SiteStart
deriving DecidableEq, Repr

/-- A frame that a time-link port sends (R81): destination and source address, domainNumber, message type of IEEE 1588, twoStepFlag, the sending port's
clockIdentity and portNumber, sequenceId, the timestamp it carries and its correctionField in time units, the requestingPortIdentity of a response, and for an
Announce the grandmaster fields and stepsRemoved. -/
structure TxFrame where
  dest : Nat
  mac : Nat
  domain : Nat
  msgType : Nat
  twoStep : Bool
  source : Nat
  seqId : Nat
  stamp : Nat
  corr : Int
  portId : Nat
  gm : GmFields
  steps : Nat
deriving DecidableEq, Repr

/-- The latest Sync of a slave port (R86): its sequenceId, t1, t2 and correction in time units, whether it waits for its Follow_Up, and
whether its offset has been computed or never will be. -/
structure SyncRec where
  seqId : Nat
  t1 : Nat
  t2 : Nat
  corr : Int
  waitFup : Bool
  used : Bool
deriving DecidableEq, Repr

/-- What a time-link port holds beside its registers (R70–R72, R82–R94). -/
structure TlkPort where
  /-- The lane that carries the port, where it is not the lane of Table 3-1 (R95). -/
  lane : Option Nat
  /-- Restarts since NO_PARTNER was entered (R71). -/
  restarts : Nat
  /-- Left LOCKED through HI_BER with block lock held (R73). -/
  berHold : Bool
  /-- The next sequenceId of each message type the port originates (R94). -/
  seq : Tab Nat
  /-- The outstanding request (R94): message type, sequenceId, transmit stamp. -/
  req : Option (Nat × Nat × Nat)
  sync : Option SyncRec
  /-- E2E: t4 − t3 of the last Delay_Resp, corrected (R86). -/
  reverse : Option Int
  /-- P2P: the measured peer delay (R86, R89). -/
  peer : Option Int
  /-- P2P, two-step peer: t4 − t1 and requestReceiptTimestamp with the correction so far, and the sequenceId, until the follow-up. -/
  pdelay : Option (Nat × Int)
  /-- Offsets in a row since UNCALIBRATED (R86). -/
  offsets : Nat
  gm : GmFields
  /-- stepsRemoved of the latest Announce (R83). -/
  steps : Nat
  /-- The latest Announce since the port last started in its role stands 16 or more steps from the grandmaster (R83). -/
  deep : Bool
  /-- The master has been lost and has not returned (R92). -/
  lost : Bool
  /-- The message type of the last frame passed to the protocol engine (R69). -/
  rx : Option Nat
deriving DecidableEq, Repr

/-- What a lane holds beside its registers: whether frozen adaptation values exist, and whether the receiver started from them
(R71, R76). -/
structure TlkLane where
  hasFrozen : Bool
  fromFrozen : Bool
deriving DecidableEq, Repr

/-- Time link state outside the registers (chapter 3). -/
structure TlkState where
  ports : Tab TlkPort
  lanes : Tab TlkLane
  /-- The servo's integral in time units (R91). -/
  integ : Int
deriving DecidableEq, Repr

/-- A tag of the furrow's tag queue (Table 5-4). `target` is VTARGET, or SEC, NS and SUBNS as one count of time units. -/
structure Tag where
  label : Bool
  flag : Bool
  mtch : Bool
  hold : Bool
  wabs : Bool
  flagSet : Nat
  flagClr : Nat
  labelNum : Nat
  limit : Nat
  target : Nat
deriving DecidableEq, Repr

/-- A furrow entry (Table 7-1) with its tag, if it carries one (R136). -/
structure Cell where
  word : Nat
  tag : Option Tag
deriving DecidableEq, Repr

/-- A slice on its way to a bank write port (R197): the bank, the region (0 main, 1 and 2 the side halves) and its entries in order, each
with its quad-in-bank. -/
structure Slice where
  bank : Nat
  region : Nat
  items : List (Nat × Cell)
deriving DecidableEq, Repr

/-- Pending flags for the next vector (R134). -/
structure Pend where
  seg : Bool
  mark : Bool
  coh : Bool
  limit : Option Nat
  label : Option Nat
  flag : Bool
  flagSet : Nat
  flagClr : Nat
deriving DecidableEq, Repr

/-- The last vector emitted (Table 5-2): route word, timing set, palette set. -/
structure LastVec where
  rw : Nat
  ts : Nat
  ps : Nat
deriving DecidableEq, Repr

/-- A split instruction in progress (R140): its words, the vectors still to emit, and the data position (for VEC and STREAM the bytes read,
for SCAN the next scan vector). -/
structure Resid where
  words : List Nat
  remaining : Nat
  pos : Nat
deriving DecidableEq, Repr

/-- An armed alternate of the current segment (Table 5-2): index 1 or 2, and target address. -/
structure Armed where
  index : Nat
  target : Nat
deriving DecidableEq, Repr

/-- An open MATCH block (Table 5-2): entries since MARK, loop depth and call depth at MARK. -/
structure Block where
  entries : Nat
  loopDepth : Nat
  callDepth : Nat
deriving DecidableEq, Repr

/-- Route expansion state (Table 5-2, Table 6-6). `segOrd` counts the SEG instructions executed: the model's own name for a boundary. -/
structure RouteRec where
  pc : Nat
  loops : List (Nat × Nat)
  calls : List (Nat × Nat)
  dps : List Nat
  curTs : Nat
  curPs : Nat
  lastVec : Option LastVec
  pend : Pend
  segNum : Option Nat
  segCnt : Nat
  alts : List Armed
  block : Option Block
  resid : Option Resid
  ended : Bool
  pfault : Bool
  segOrd : Nat
deriving DecidableEq, Repr

/-- An alternate that a caravan has armed: index, the boundary it belongs to, and the state its head starts from (R151, R152). -/
structure NewAlt where
  index : Nat
  bound : Nat
  st : RouteRec
deriving DecidableEq, Repr

/-- A caravan (Table 6-4) as the dispatcher keeps it. `kind`: 0 main, 1 to 3 the side caravans A, B and S (R188). `source`: 0 firmware, 1 host
ring, 2 chaining. `asked` is ENTRIES as the descriptor has it, `entries` the reservation in force (R191). `relTick` is the release tick once RELMODE is resolved; `fails` counts the dispatches that took a machine check; `resv`: a retry keeps its reservation (R169). -/
structure Car where
  route : Nat
  site : Nat
  part : Nat
  kind : Nat
  entries : Nat
  asked : Nat
  relMode : Bool
  release : Nat
  relTick : Option Nat
  prio : Nat
  chainN : Nat
  chainStep : Nat
  ident : Nat
  notify : Bool
  source : Nat
  ring : Nat
  submitTick : Nat
  deadline : Nat
  fails : Nat
  lastEng : Option Nat
  altIndex : Nat
  bound : Nat
  resv : Bool
deriving DecidableEq, Repr

/-- Why a caravan ends (R138): its reservation or tag places are used up, or the side allotment is complete before a STREAM (R189); HALT;
or a pattern fault with its code and instruction address. -/
inductive EndWhy where
  | full
  | stop
  | halt
  | fault (code addr : Nat)
deriving DecidableEq, Repr

/-- An engine at work (R166): its caravan, the working copy of the route-state record, the window base of its instruction buffer and the words held from there
on (R164), the slices not yet granted, what it has written and consumed, whether it waits for ring data, and whether it was
in service when a machine-check perturbation was armed, which falls on a later caravan (R499). -/
structure Work where
  car : Car
  st : RouteRec
  base : Nat
  buf : List Nat
  slices : List Slice
  entries : Nat
  tags : Nat
  newAlts : List NewAlt
  trig : Option Nat
  ringRead : List (Nat × Nat)
  stalled : Option Nat
  first : Bool
  ended : Option EndWhy
  ptbOld : Bool := false
deriving DecidableEq, Repr

/-- An engine (R165–R170): its role (0 as delivered, 1 quarantined, 2 a spare mapped in), the caravan it runs, its machine-check flag, the times of
its counted machine checks in 10 ns AON ticks, `ENG_BUSY` at the start of the present window (R186), and whether a machine check taken without a caravan falls on the
next one (R23). -/
structure Eng where
  role : Nat
  work : Option Work
  mchk : Bool
  checks : List Nat
  busyBase : Nat
  due : Bool
deriving DecidableEq, Repr

/-- An alternate head of a route (R111, R188): its index, boundary, place in arming order, start state, the side half it fills first,
whether the last side caravan of its allotment has committed, its continuation state, its end position in the side region, and the alternates
armed inside it (R152), in all and by caravan A. -/
structure AltHead where
  index : Nat
  bound : Nat
  second : Bool
  st : RouteRec
  aDone : Bool
  done : Bool
  vectors : Nat
  cont : RouteRec
  contA : RouteRec
  endPos : Option (Nat × Nat)
  later : List NewAlt
  laterA : List NewAlt
deriving DecidableEq, Repr

/-- An open summary of a route (R279): the cycle in which it was last extended, first vector, vectors covered, OR of the masks. -/
structure Summary where
  cycle : Nat
  vn : Nat
  count : Nat
  mask : Nat
deriving DecidableEq, Repr

/-- What a route keeps (R99, R107, R171, R175, R188, R191, R279): `armed` is the boundary of the alternate that the route armed last (R188), `checks` the CHECK fields of
its records: main, CF_A, CF_B and CS (Table 6-6). -/
structure Route where
  main : RouteRec
  dbase : Nat
  streams : List (Option Nat)
  ready : List Car
  sideWait : List Car
  heads : List AltHead
  endPos : Option (Nat × Nat)
  capped : Bool
  held : Bool
  summaryMode : Bool
  summary : Option Summary
  armed : Option Nat
  checks : List Nat
deriving DecidableEq, Repr

/-- One side half of a furrow (R188, R204): its own pointers over 1,024 entries with a lap bit and its tag counts, each as for the main region, PR, the boundary
it was last filled for and its entries. -/
structure Half where
  res : Nat
  stg : Nat
  vis : Nat
  visR : Nat
  rel : Nat
  relW : Nat
  tagRes : Nat
  tagStg : Nat
  tagVis : Nat
  tagRel : Nat
  tagRelW : Nat
  pr : Nat
  bound : Option Nat
  cells : Tab Cell
deriving DecidableEq, Repr

/-- How far a read side has fetched (Table 7-2, R210, R214): the regions still to read (0 main, 1 and 2 the side halves), RD of the main region and
of the halves, and the mark: MK, the regions to read from it on, and MARKED, with the marks of blocks fetched behind a block that is not settled. -/
structure RPtr where
  regs : List Nat
  rd : Nat
  rd1 : Nat
  rd2 : Nat
  mark : Nat
  markRegs : List Nat
  marked : Bool
  marks : List (Nat × List Nat)
deriving DecidableEq, Repr

/-- A record of a pointer queue (R206): main and side pointers, and for the release direction the tags released of each region. -/
structure PtrRec where
  main : Nat
  side1 : Nat
  side2 : Nat
  tags : Nat
  tags1 : Nat
  tags2 : Nat
deriving DecidableEq, Repr

/-- A furrow (R204–R206, R214–R222): write-side pointers and tag counts, the entries by position, the halves; the fetch pointers of its read side as they
stand (`now`) and as the site's read sequence has them (`seq`, ahead of `now` by the broadcast `steps` not yet performed, R210); the regions still to present, PR, REL and the tags released; the two pointer queues with their held values; the resume position that
presentation takes after the boundary word with the regions that follow (`relTo`, `jumpRegs`), and the one that has not yet reached the read side
(`jumpTo`, R219); the fetch pointers after each entry from the oldest unsettled mark on (`trail`), and those of the entries that a rewind has dropped and
that are fetched again (`redo`, R216); and whether the head of the alternate last taken holds one vector (`lone`, R219). -/
structure Fur where
  res : Nat
  stg : Nat
  vis : Nat
  visR : Nat
  relW : Nat
  tagRes : Nat
  tagStg : Nat
  tagVis : Nat
  tagRelW : Nat
  cells : Tab Cell
  half1 : Half
  half2 : Half
  now : RPtr
  seq : RPtr
  steps : List RPtr
  pRegs : List Nat
  pr : Nat
  rel : Nat
  tagRel : Nat
  toRead : List PtrRec
  holdRead : Option PtrRec
  toWrite : List PtrRec
  holdWrite : Option PtrRec
  relTo : Option Nat
  jumpRegs : List Nat
  jumpTo : Option Nat
  resetPend : Bool
  trail : List RPtr
  redo : List RPtr
  lone : Bool
deriving DecidableEq, Repr

/-- An entry in the presentation queue of a site (R211): the entry word of every quad and of the lead quad, its tag and the target of a hold in vector
time (2^-32 ns, R159); whether it is the last word of its segment, the last before an end position (with the states it stops in), the boundary word of a
taken jump, and the boundary at which a HALT stops the site (R126). -/
structure Pres where
  words : List (Nat × Nat)
  word : Nat
  tag : Option Tag
  target : Option Int
  boundary : Bool
  last : List Nat
  jumped : Bool
  halt : Bool
deriving DecidableEq, Repr

/-- What is in a vector period (Table 9-2): an ordinary vector, a vector of a MATCH pass, a dwell repetition, or an idle item. -/
inductive VClass where
  | ordinary | pass | dwell | idle
deriving DecidableEq, Repr

/-- The vector period now presented: its entry, repetitions still to come, vector number, start in vector time and period (2^-32 ns), class, and
whether the furrows have already passed its entry (dwell repetitions, R216), and for an idle item the quads whose drivers it turns off (R202). -/
structure Cur where
  pres : Pres
  left : Nat
  vn : Nat
  start : Nat
  period : Nat
  cls : VClass
  done : Bool
  off : List Nat
deriving DecidableEq, Repr

/-- A pending jump request (R112): source code of Table 4-3, and whether it has been deferred. -/
structure Req where
  source : Nat
  late : Bool
deriving DecidableEq, Repr

/-- The arguments of an accepted RUN (Table 4-6). -/
structure RunArgs where
  startT : Nat
  immediate : Bool
  stopFF : Bool
  underrunStop : Bool
  jlogEn : Bool
  weir : Nat
  jsrc : Nat
  jlog : Nat
deriving DecidableEq, Repr

/-- An underrun gap (R213): the vector number it precedes, its length, and the routes that record it. -/
structure Gap where
  vn : Nat
  len : Nat
  routes : List Nat
deriving DecidableEq, Repr

/-- A MATCH pass (R215, R216): the limit, judgements still expected, whether a judged pin has failed, whether the decision has been
delivered and what it was, and the dwell repetitions presented. -/
structure Pass where
  number : Nat
  limit : Nat
  complete : Bool
  failed : Bool
  decision : Option Bool
  dwell : Nat
deriving DecidableEq, Repr

/-- A site (chapter 4): the partition that defined it, its quads, the arguments of its run, pending requests for the alternates, open stop
causes (state codes of Table 4-8), whether a boundary HALT that has met its decision point is open too (R126), the vector time at which a vector
boundary can no longer fall within the CORE cycle of the first of them (R124), the presentation queue with how many entries at its front stand in the rewind queue, the
entries fetched from the oldest unsettled mark on (R214), those that a rewind has dropped, as first read (R159, R216), a decision left until the block is settled (R113) or until the entry after a lone head vector is visible (R219), the running
records, the jump-log entry of a jump taken behind a block that is not settled, without the vector number, the starts and lengths in vector time of the latest vectors, and the alternates that a head fault disarmed (R162), as boundary and index. -/
structure Site where
  owner : Option Nat
  mask : Nat
  args : RunArgs
  req1 : Option Req
  req2 : Option Req
  stops : List Nat
  haltDue : Bool
  stopBy : Option Nat
  epochTick : Option Nat
  nextVn : Nat
  cur : Option Cur
  nextStart : Nat
  queue : List Pres
  inRew : Nat
  block : List Pres
  redo : List Pres
  deferred : Bool
  unsure : Bool
  segOrd : Nat
  gap : Option Gap
  pass : Option Pass
  failDue : Bool
  jlogSeq : Nat
  jlogWait : Option Nat
  hist : List (Nat × Nat × Nat)
  disarmed : List (Nat × Nat)
deriving DecidableEq, Repr

/-- A command that firmware has taken from a mailbox and that waits for its site (R120, R222). -/
structure HeldCmd where
  part : Nat
  words : List Nat
deriving DecidableEq, Repr

/-- A fetch entry of a streaming ring (R413). -/
structure FetchEnt where
  addr : Nat
  len : Nat
deriving DecidableEq, Repr

/-- Pattern state outside the registers (chapters 4 to 7). -/
structure PatState where
  sites : Tab Site
  routes : Tab Route
  /-- Palette sets: route × 128 + set × 16 + slot to its 16 bits; a slot not listed holds 0x2222 (R101). -/
  palettes : Tab Nat
  engs : Tab Eng
  furs : Tab Fur
  /-- The waystations, in submission order (R181). -/
  way : List Car
  /-- Tokens in RETIRING with the copy they file (R174). -/
  retiring : List Car
  /-- Caravans assigned in the last decision and not yet handed over, with their engines (R183). -/
  assigned : List (Car × Nat)
  /-- The engine whose handover is in its one cycle (R177). -/
  handover : Option Nat
  /-- The tick counts of the time bases in that cycle. -/
  handAt : List Nat
  /-- The engine microcode in each cluster's control store (R167), as the version of the manifest part it was loaded from; none: not loaded since the cluster's power
  domain turned on. A cluster not listed holds what boot loaded at delivery. -/
  cstore : Tab (Option Nat)
  /-- The firmware submission queue (R173). -/
  fwQueue : List Car
  credits : List Nat
  wrrPtr : Nat
  tiePtr : List Nat
  /-- Per master, the pool counts latched by a read of `DIS_POOL_A` (R177). -/
  poolLatch : Tab (List Nat)
  /-- Commands taken from the mailboxes that wait for their site. -/
  heldCmds : List HeldCmd
  /-- Completion places reserved for descriptors read (R411), keyed by partition × 4 + ring. -/
  cplRes : Tab Nat
  /-- Round-robin pointers of the bank write ports (R199). -/
  portPtr : Tab Nat
  /-- The device is halted (R446). -/
  halted : Bool
  /-- Route and site of the last route-state record that failed its check (R176). -/
  rsLast : Option (Nat × Nat)
  /-- Start of the next idle item of each quad outside every site (R122), in 2^-32 ns. -/
  idleAt : Tab Nat
  /-- The shares that the latest decision has taken from `DIS_SHARE` (R187). -/
  shareCfg : List Nat
  /-- Descriptor rings that wait for a token or a waystation place (R192), keyed by partition × 4 + ring. -/
  ringWait : Tab Bool
deriving DecidableEq, Repr

/-- A pin record of a timing set (Table 8-6); edges in time units. -/
structure PinRec where
  fmt : Nat
  strbEdge : Bool
  d1 : Nat
  d2 : Nat
  enOn : Nat
  enOff : Nat
  so : Nat
  sc : Nat
deriving DecidableEq, Repr

/-- A timing set (R234): the period in units of 2^-32 ns and the records of the 16 pin slots. -/
structure TimingSet where
  period : Nat
  pins : List PinRec
deriving DecidableEq, Repr

/-- A strobe not yet judged (R261, R265): site, vector number, pin state, symbol, palette set, timing set, class, pass number, window mode, whether it has no sample
(R264), whether the cistern stores its level, and its strobe instant or window close on REF in 2^-32 ns. -/
structure Strobe where
  site : Nat
  vn : Nat
  code : Nat
  sym : Nat
  ps : Nat
  ts : Nat
  cls : VClass
  pass : Nat
  window : Bool
  noSample : Bool
  store : Bool
  due : Nat
deriving DecidableEq, Repr

/-- A pin channel at its balls (R229, R232, R243): levels of DRV and DEN (true: active), the times of their last transitions on REF in 2^-32
ns, the close of the last strobe window, the taps in force (R252), the tap interval in 2^-32 ns and the magnitudes of Table 8-9 in µV that they give (R251), and the
strobes not yet judged, in the order issued. -/
structure Pin where
  drv : Bool
  den : Bool
  drvAt : Option Nat
  denAt : Option Nat
  winEnd : Nat
  taps : Nat
  tapT : Nat
  amps : List Int
  strobes : List Strobe
deriving DecidableEq, Repr

/-- A transfer of a PE control port (R255, R256); `site` and `vn` for WHEN = 1. -/
structure PecXfer where
  len : Nat
  data : Nat
  wait : Option (Nat × Nat)
  rx : Bool
deriving DecidableEq, Repr

/-- A PE control port (R254–R257): transmit queue, the transfer on the wire, receive queue. -/
structure Pec where
  tx : List PecXfer
  busy : Option PecXfer
  rx : List Nat
deriving DecidableEq, Repr

/-- The channel registers an arm samples (R288). -/
structure AcqCfg where
  site : Nat
  cont : Bool
  auto : Bool
  wrapPost : Bool
  lmode : Bool
  maskStop : Bool
  srcEn : Nat
  anyLabel : Bool
  linkBank : Nat
  label : Nat
  pre : Nat
  post : Nat
  tvn : Nat
  autoUs : Nat
  area : Nat
  slot : Nat
  nslot : Nat
deriving DecidableEq, Repr

/-- An entry of the decimation log (Table 10-7). -/
structure DecLog where
  vn : Nat
  word : Nat
  log2d : Nat
  frozen : Bool
deriving DecidableEq, Repr

/-- A record being taken (R291–R298): trigger vector, source, start of the trigger vector in time units, PRE_ACT, first vector
kept, words kept and words drained, vectors covered from TVN, the last change point with the words kept there, the factor that the next vector takes (log2), the log and how
many of its entries the writer has written (none: not yet the zeros), its flags, whether the site has stopped since (R290), and of the CORE cycle of its trigger the triggers
present, as TVN and source, the history that the cistern held, the judging cycle where it is known, and the clocks (R286). -/
structure AcqRec where
  tvn : Nat
  src : Nat
  tvTime : Nat
  preAct : Nat
  firstVn : Nat
  kept : Nat
  drained : Nat
  post : Nat
  changeVn : Nat
  keptAtChange : Nat
  log2d : Nat
  next : Option Nat
  logs : List DecLog
  logged : Option Nat
  frozen : Bool
  stopped : Bool
  overrun : Bool
  ended : Bool
  present : List (Nat × Nat)
  past : List (Nat × Nat)
  cycle : Option Nat
  mark : List Nat
deriving DecidableEq, Repr

/-- An acquisition channel (R283–R298): what the arm sampled, the cistern's words not yet drained with their vector numbers, oldest first, the
record, its number since the arm from IDLE, the triggers missed since the last header, the AON tick from which AUTO counts (R287), and the CORE cycle of the last FAIL presented
to it. -/
structure AcqChan where
  cfg : AcqCfg
  words : List (Nat × Nat)
  record : Option AcqRec
  recNo : Nat
  missed : Nat
  since : Nat
  failAt : Option Nat
deriving DecidableEq, Repr

/-- The follow loop of a bank (R247–R250): consecutive followed edges in band; whether `BNK_FOLLOW_PER` holds the followed period, measured or held since EN was set; the
followed edges that the converter has accepted and the loop has not taken, oldest first, and the last one taken, on REF in 2^-32 ns; the next start of a vector in the
loop's sequence with its number modulo DIV (R248); and whether the 1,000 ppm limit of R249 holds. -/
structure Follow where
  inBand : Nat
  seen : Bool
  edges : List Nat
  last : Option Nat
  org : Option (Nat × Nat)
  slew : Bool
deriving DecidableEq, Repr

/-- What a bank keeps beside its registers (chapters 8 and 10): timing sets, the running set command (LOAD and set), the reasons for its safe
state as bits (0 mode change, 1 escalation, 2 parity, 3 owner move, 4 device halt, 5 partition reset, 6 brown-out), the mappings in force of the spare slice and the
spare converter (R258, R319), the follow loop and the acquisition channel. -/
structure Bank where
  tsets : Tab TimingSet
  tsCmd : Option (Bool × Nat)
  safe : Nat
  spare : Option Nat
  convSpare : Option Nat
  follow : Follow
  acq : AcqChan
deriving DecidableEq, Repr

/-- A ledger entry (Table 9-3), with the CORE cycle of the strobe instant that its judging cycle follows (R276). -/
structure LedEntry where
  cycle : Nat
  vn : Nat
  pmask : Nat
  bank : Nat
  quad : Nat
  kind : Nat
  site : Nat
  data : Nat
deriving DecidableEq, Repr

/-- A route's failing pins in a vector whose strobes are not all judged (R519): the latest CORE cycle of a strobe instant judged, the strobes left, expected symbols and levels
by quad. With none left, a vector without a judged pin that waits for earlier vectors of the route (R279). -/
structure FailAcc where
  cycle : Nat
  vn : Nat
  left : Nat
  mask : Nat
  exp : Nat
  rcv : Nat
  ps : Nat
  ts : Nat
deriving DecidableEq, Repr

/-- A partition's ledger (R274–R280): the queue, ICNT, entries issued and not acknowledged, the credit in units of 1/1500 entry (one unit per
CORE cycle and rate), the pending loss marker, and MODE and SIZE as they stood when EN was cleared. -/
structure Ledger where
  queue : List LedEntry
  icnt : Nat
  unacked : Nat
  credit : Nat
  loss : Option LedEntry
  drainCfg : Option (Bool × Nat)
deriving DecidableEq, Repr

/-- A converter (R306–R318): the prescaler's count, the last accepted edge in 2^-32 ns of REF, the flags due in its next delivered stamp, the credits used
of 64, whether the next loss raises STAMP_LOST, the gate of the frequency counter: running, first and last edge, edges after the first, and SKIP, the hold-off that
counts from the last accepted edge (R308), the latest accepted edges of a pin with a mask, in vector time with their polarity, latest first, and the vectors in which a violation
has been detected, once for each (R300). -/
structure Conv where
  pre : Nat
  lastAt : Option Nat
  skip : Bool
  loss : Bool
  used : Nat
  lossQuiet : Bool
  fcOn : Bool
  fcFirst : Option Nat
  fcLast : Nat
  fcN : Nat
  fcSkip : Bool
  hold : Nat
  edges : List (Nat × Bool)
  found : List Nat
deriving DecidableEq, Repr

/-- The stamp stream of a bank (R312–R316): entries that wait for the ring, entries lost since the last loss marker, MODE and SIZE as they stood when
EN was cleared, and the era of each site where the stream leaves the buffer. -/
structure SRing where
  queue : List Nat
  lost : Nat
  drainCfg : Option (Bool × Nat)
  passed : Tab Nat
deriving DecidableEq, Repr

/-- Pin, compare, acquisition and converter state outside the registers (chapters 8 to 11). -/
structure PinState where
  banks : Tab Bank
  pins : Tab Pin
  pecs : Tab Pec
  ledgers : Tab Ledger
  /-- Failing vectors being collected, keyed by route × 2^64 + vector number (R519). -/
  fails : Tab FailAcc
  /-- Vectors with strobes not yet judged, keyed by site × 2^64 + vector number: strobes left, and whether a pin has failed (R268, R519). -/
  vecs : Tab (Nat × Bool)
  /-- Asserted TRIGOUT outputs (R302). -/
  trigOut : Tab Bool
  /-- The bank from which the round robin of a partition's writers goes on (R297). -/
  writerPtr : Tab Nat
  convs : Tab Conv
  srings : Tab SRing
  /-- Era markers of a site in a bank's stream since the site's epoch (R312), keyed by site × 16 + bank. -/
  eras : Tab Nat
  /-- Per master and pin, `EDG_FC_T` and `EDG_FC_STAT` latched by a read of `EDG_FC_N` (R318), keyed by master × 256 + pin. -/
  fcLatch : Tab (Nat × Nat)
deriving DecidableEq, Repr

/-- An entry of an input tap (R338, R339): the vector time of an edge stamp or the count of a loss marker, and the information TAPD gives. -/
structure TapEnt where
  value : Nat
  info : Nat
  mark : Bool
deriving DecidableEq, Repr

/-- An analysis unit beside its registers (chapter 12): program and data memory, call stack (last pushed first), delay slots left with the target of a taken
transfer, repetitions left of one instruction, the block being repeated (start, END, repetitions left), HOST pending, a host HALT that waits for its
boundary, AUTOREF due, the tap with the stamps lost since its last loss marker, and the accumulator and the register that the last instruction loaded. -/
structure Au where
  prog : Tab Nat
  data : Tab Nat
  stack : List Nat
  slots : Option (Nat × Option Nat)
  rpt : Option Nat
  block : Option (Nat × Nat × Nat)
  host : Bool
  haltReq : Bool
  firstRef : Bool
  tap : List TapEnt
  lost : Nat
  prevAcc : Option Nat
  prevLoad : Option Nat
deriving DecidableEq, Repr

/-- The analysis units (chapter 12): the units, the logical unit that the spare stands in for, and a substitution in progress (R345): the unit, the mapping
that follows, and its state before. -/
structure AuState where
  units : Tab Au
  spare : Option Nat
  subst : Option (Nat × Option Nat × Nat)
deriving DecidableEq, Repr

/-- A calibration record in the boot flash (Table 13-4): SEQ, TIME in seconds, TEMP in 1/16 °C, the MODE bits, the payload and CHECK. -/
structure CalRec where
  seq : Nat
  time : Nat
  temp : Int
  mode : Nat
  payload : List Int
  check : Nat
deriving DecidableEq, Repr

/-- A class running on a bank (R347, R355): the calibration unit, the temperature at the start of run 1 in 1/16 °C, the values and the failed check of run 1,
whether the class has been accepted and waits for its records, an abort that is due (R361), and for DESKEW the bank's mode as the MODE bit of Table 13-4. -/
structure CalRun where
  bank : Nat
  cls : Nat
  cu : Nat
  temp : Int
  first : Option (List (List Int) × Option (Nat × Nat))
  accepted : Bool
  abort : Bool
  modes : Nat
deriving DecidableEq, Repr

/-- Calibration (chapter 13): requests with the banks and classes they still wait for, the classes running, the values in force keyed by
(class × 16 + bank) × 32 + slot, the record copies keyed by twice that plus the copy, and per bank the time of the last acceptance in seconds and the
temperature of the last accepted DESKEW in 1/16 °C. A bank or table not listed holds the built-in nominal values (R359). -/
structure CalState where
  reqs : List (List (Nat × Nat))
  runs : List CalRun
  tables : Tab (List Int)
  recs : Tab CalRec
  lastTime : Tab Nat
  deskTemp : Tab Int
deriving DecidableEq, Repr

/-- A page-map entry (R370). -/
structure MapEnt where
  frame : Nat
  remapped : Bool
  poison : Nat
deriving DecidableEq, Repr

/-- A request at a memory channel (R378): the requester, its deadline (for every class but 1 its arrival) and its arrival in MEMC cycles, the partition and
address (with no partition, the byte address in the stack), its length, the bytes to write if it writes, whether it is held (R385, R386), and the MEMC cycle before which a perturbation keeps it from being issued (R499). -/
structure MemReq where
  reqr : Nat
  dl : Nat
  arr : Nat
  part : Option Nat
  addr : Nat
  len : Nat
  data : Option (List Nat)
  held : Bool
  ready : Nat := 0
deriving DecidableEq, Repr

/-- Pattern memory beside its registers (chapter 14): the page map by home frame, the region tables (partition region to physical region), the GiB that stay
addressable while a grown quota is cleared, the requests of each channel, the owed counts, the channels catching up, the cached map lines (newest first), a
lookup in progress, the corrections per lane in the present millisecond and the lane masks, self-refresh (0 none, 1 from the entry decision, 2 from the entry
command) and whether it is for sleep, an abort of it, the scrub's block and its early queue, frames with 2 or more corrected symbols in a pass (pass and
time), retirement candidates, approved frames and the copy in progress with its spare, and the
rows that hard post-package repair has replaced, as their entries of the retirement list (R396); log2 of the grain that each partition with a quota has in force (R371); and
while class 3 is limited by heat the present microsecond of MEMC with the bytes that class 3 has moved in it (R384). -/
structure MemState where
  map : Tab MapEnt
  regions : List (List Nat)
  clearing : Tab (Option Nat)
  chans : Tab (List MemReq)
  owed : Tab Int
  catchUp : Tab Bool
  lines : List Nat
  lookup : Bool
  laneCnt : Tab (Nat × Nat)
  laneBad : Tab Nat
  sr : Nat
  srSleep : Bool
  srAborted : Bool
  scrubBlk : Nat
  early : List Nat
  passHits : Tab (Nat × Nat)
  cands : List Nat
  approved : List Nat
  copying : Option (Nat × Nat)
  repaired : List Nat
  grains : Tab Nat
  hotUse : Nat × Nat
deriving DecidableEq, Repr

/-- Requests of the hosts that their ports hold back by credits (R394, R416, R470): the port and the command, oldest first; and, while one of them runs at last, that it does. -/
structure BusState where
  held : List (Nat × Instr)
  replay : Bool
deriving DecidableEq, Repr

/-- The host interface beside its registers (chapter 15): log2 of the BAR2 size of each port, the fetch queues of the streaming rings with whether the
first entry has started, keyed by partition × 16 + ring, the banks that are moving, the ports in link training, and bits [5:0] of the host address last written to
`RING_FETCH_ADDR`, by the same key (R413). -/
structure HifState where
  barSize : Tab Nat
  fetchQ : Tab (List FetchEnt)
  fetchOn : Tab Bool
  moving : List Nat
  training : Tab Bool
  fetchLow : Tab Nat
deriving DecidableEq, Repr

/-- Where the power-up of Table 18-2 stands: VSTBY absent; VIN off or browned out; held by RST_N; the ROM boots; running (boot has handed over); ROM
recovery mode (R484); the ROM stops in SCRAPPED (R492). -/
inductive Stage where
  | noVstby | noVin | held | rom | run | recovery | scrapped
deriving DecidableEq, Repr

/-- Power, reset and sleep beside the registers (chapter 18): the stage; RST_N low; domain changes requested, oldest first (domain, on); SLEEP_REQ
high; wake sources that wait (Table 18-6); the domains that were on at sleep entry; self-refresh entries aborted in this sleep entry; the
domains that the power sequence table of the active manifest turns on (R461), as a mask; the pages, by base address, whose function is off while the power domain is on
(R433). -/
structure PwrState where
  stage : Stage
  rstLow : Bool
  queue : List (Nat × Bool)
  sreq : Bool
  wakes : List Nat
  sleepDom : Nat
  aborts : Nat
  manifest : Nat
  fnOff : List Nat
deriving DecidableEq, Repr

/-- A directory record (Table 19-2): SEQ, PREF, RECOVER, the states and reasons of slots A and B, BOOTS. -/
structure Directory where
  seq : Nat
  pref : Nat
  recover : Bool
  stA : Nat
  stB : Nat
  reasonA : Nat
  reasonB : Nat
  boots : Nat
deriving DecidableEq, Repr

/-- A copy of the directory as the flash holds it (Table 19-2): the record and its CHECK. -/
structure DirCopy where
  body : Directory
  check : Nat
deriving DecidableEq, Repr

/-- A copy of the retirement list (R474): SEQ of the header, the entries of 8 bytes, and the header's CRC-32. -/
structure ListCopy where
  seq : Nat
  entries : List Nat
  check : Nat
deriving DecidableEq, Repr

/-- A flash operation (R474): the image write of an update, a directory write, the records of a calibration class on a bank, the retirement list. -/
inductive FlashOp where
  | image
  | directory (d : Directory)
  | calRecord (bank : Nat)
  | retireList (l : List Nat)
deriving DecidableEq, Repr

/-- Boot and update beside the registers (chapter 19): the two directory copies in the flash (none: nothing there) and the directory that firmware works with; the flash
operations requested, oldest first, and whether the first has started; the key index and the part versions of the booted manifest; slots that failed a
check in this boot; AON tick of the hand-over; the slots that a recovery VERIFY has passed, with no ERASE or WRITE since; the recovery command running (0 none); the two
copies of the retirement list in the flash (none: nothing there); bits [11:0] of the word last written to `BOOT_UPD_SRC_LO`, which say that SRC is not aligned; the words of the recovery function's
buffer (Table 19-9); the subsystem IDs and the latencies of the time-link lanes that the booted manifest holds (Table 19-5), where a boot of this model has read them. -/
structure BootState where
  copy0 : Option DirCopy
  copy1 : Option DirCopy
  dir : Directory
  ops : List FlashOp
  busy : Bool
  key : Nat
  partVers : List Nat
  tried : List Nat
  handover : Nat
  verified : List Nat
  recCmd : Nat
  list0 : Option ListCopy
  list1 : Option ListCopy
  srcLow : Nat
  buffer : Tab Nat
  subsys : Option Nat
  txLat : List Nat
  rxLat : List Nat
deriving DecidableEq, Repr

/-- A spare proposal (R497): ID, KIND, instance, cause, and whether it is approved. -/
structure Proposal where
  id : Nat
  kind : Nat
  inst : Nat
  cause : Nat
  approved : Bool
deriving DecidableEq, Repr

/-- Life cycle, spares, test access and perturbations beside the registers (chapter 20): the fuse words keyed by row × 32 + word; the proposal queue, oldest first, and the
next ID; the transition and the fuse programming in progress; the current TAP instruction; the AON tick of the last PTB unlock; ticks for which the dispatcher is
stalled; furrows whose write side sees no room, with the dispatcher tick at which that ends; the message types of the frames a port is about to drop, keyed by
port × 2 + transmit; the control core that the spare core stands in for, and the SRAM columns replaced in each furrow (Table 20-6); the wear evidence of Table 20-6
that commands show, keyed by kind × 4096 + instance, latest first: the AON ticks of an analysis unit's memory errors (4), of FW_WDOG (5) and of a lane's HI_BER (6), and
for a bank (3) the slots that its TDC_LIN rejections since the last acceptance named. What perturbations are about to do (Table 20-7): the tick up to which a bank's write port grants
nothing; by class, the channels and the MEMC cycles by which the next request of one of them waits; by port, the message types and the time in ns of the next event message
that waits; by partition × 2 + 1 for a write, the symbols inverted in its next block; and the symbols that are stored inverted, by block of the stack. -/
structure LcsState where
  fuses : Tab Nat
  props : List Proposal
  nextId : Nat
  trans : Option (Nat × Nat)
  prog : Option (Nat × Nat × Nat)
  tap : Nat
  unlockAt : Nat
  stall : Nat
  noRoom : Tab Nat
  drops : Tab Nat
  coreSpare : Option Nat
  columns : Tab Nat
  wear : Tab (List Nat)
  grantWait : Tab Nat
  memLat : Tab (Nat × Nat)
  txDelay : Tab (Nat × Nat)
  rsNext : Tab Nat
  rsBad : Tab (List Nat)
deriving DecidableEq, Repr

/-- What the device sends out, in the order it happens (log 7). -/
inductive Out where
  /-- An MSI-X message of a port (R417). -/
  | msix (port vector : Nat)
  /-- A register read answered to a master (the low word first where the value is wider). -/
  | read (master value : Nat)
  /-- A request of a master is answered with Completer Abort (R402). -/
  | completerAbort (master : Nat)
  /-- A frame sent by a time-link port (R81). -/
  | frame (port : Nat) (f : TxFrame)
  /-- One transmitted bit of a lane inverted (R80). -/
  | injected (lane : Nat)
  /-- A transition at a pin channel's DRV or DEN output (`den`) to a level of its positive ball (R231), at a step of 0.25 ps of the site's vector
  time (R240). -/
  | edge (pin : Nat) (den : Bool) (level : Bool) (step : Nat)
  /-- The outputs of a bank are driven, or high-impedance while its power domain is off (R231). -/
  | outputs (bank : Nat) (driven : Bool)
  /-- The driver of a pin takes a tap interval in 2^-32 ns and the magnitudes of Table 8-9, in its order, in µV (R251). -/
  | driver (pin interval : Nat) (amps : List Int)
  /-- A burst of 8 beats that writes a block of a frame on a channel, at the block's channel offset within its region (R369): symbol j of the codeword on lane j, its bit k in
  beat k (R365, R373, R374). -/
  | burst (channel frame block offset : Nat) (symbols : List (BitVec 8))
  /-- A transfer on a PE control port: its bits, CPOL, CPHA, DIV and GAP (R255). -/
  | pec (port len data cpol cpha div gap : Nat)
  /-- A TPULSE output driven to a level, at a step of 0.25 ps after the present tick of its time base (R50, R59, R65). -/
  | pulse (p : Nat) (level : Bool) (step : Nat)
  /-- A TRIGOUT output driven to a level (R302): in mode 1 at an instant of the site's vector time in time units. -/
  | trigOut (t : Nat) (level : Bool) (time : Option Nat)
  /-- An entry written to a completion ring in host memory: partition, ring, index, and its 16 bytes as a number (Table 15-5). -/
  | completion (part ring index value : Nat)
  /-- The response to a firmware submission: the descriptor's ID and the status of Table 6-5 (R173). -/
  | fwResponse (ident status : Nat)
  /-- What the function of a port reports of itself (Table 15-7): vendor, device and Revision ID, class code, and subsystem vendor and subsystem IDs. -/
  | identity (port vendor device revision cls subsystem : Nat)
  /-- The identification register that the TAP selects (R494). -/
  | idcode (value : Nat)
  /-- A block read returned to its requester, with the data unless it was uncorrectable (R377, R392). -/
  | memData (requester : Nat) (value : Option Nat)
  /-- A completion of a BAR2 read: the address in the partition, its length and data; none for zeros with the EP bit (R403). -/
  | bar2 (port addr len : Nat) (value : Option Nat)
deriving DecidableEq, Repr

/-- The state of the device. -/
structure State where
  /-- Commands that wait, first in, first out. -/
  pending : List Instr
  /-- The register fields that differ from their reset values, by field key (R426 and the register tables). -/
  regs : Tab Nat
  /-- Pattern memory: partition × 2^35 + address to byte; from 2^37 on the bytes of the stack that no partition holds (R367); an unlisted byte is 0 (R372, log 6). -/
  mem : List Host.Cell
  /-- Draws of free values made so far: the model's own field (log 3). -/
  freeCtr : Nat
  out : List Out
  mgt : MgtState
  tim : TimState
  tlk : TlkState
  pat : PatState
  pin : PinState
  au : AuState
  cal : CalState
  memc : MemState
  bus : BusState
  hif : HifState
  pwr : PwrState
  boot : BootState
  lcs : LcsState
deriving DecidableEq, Repr

/-- The machine after reset: every register at its reset value, nothing listed in pattern memory, no command waiting. -/
def State.reset : State where
  pending := []
  regs := []
  mem := []
  freeCtr := 0
  out := []
  mgt := ⟨[], [], [], [], [], [], [], [], [], [], [], []⟩
  tim := { fracLo := [], inc := [], ticks := [], snaps := [], refLost := false, holdMs := 0, holdRatio := 0, holdEntry := 0, ageWrite := 0, slewRate := none,
           stepFrom := [], pulses := [], pulseOn := [], pulsePol := [], sleepRec := [], starts := [] }
  tlk := { ports := [], lanes := [], integ := 0 }
  pat := { sites := [], routes := [], palettes := [], engs := [], furs := [], way := [], retiring := [], assigned := [], handover := none, handAt := [], cstore := [],
           fwQueue := [], credits := [0, 0, 0, 0], wrrPtr := 0, tiePtr := [0, 0, 0, 0], poolLatch := [], heldCmds := [], cplRes := [], portPtr := [],
           halted := false, rsLast := none, idleAt := [], shareCfg := [16, 16, 16, 16], ringWait := [] }
  pin := { banks := [], pins := [], pecs := [], ledgers := [], fails := [], vecs := [], trigOut := [], writerPtr := [], convs := [], srings := [],
           eras := [], fcLatch := [] }
  au := { units := [], spare := none, subst := none }
  cal := { reqs := [], runs := [], tables := [], recs := [], lastTime := [], deskTemp := [] }
  memc := { map := [], regions := [List.range 32, [], [], []], clearing := [], chans := [], owed := [], catchUp := [], lines := [], lookup := false,
            laneCnt := [], laneBad := [], sr := 0, srSleep := false, srAborted := false, scrubBlk := 0, early := [], passHits := [], cands := [],
            approved := [], copying := none, repaired := [], grains := [(0, 12)], hotUse := (0, 0) }
  bus := { held := [], replay := false }
  hif := { barSize := [], fetchQ := [], fetchOn := [], moving := [], training := [], fetchLow := [] }
  pwr := { stage := .run, rstLow := false, queue := [], sreq := false, wakes := [], sleepDom := 0, aborts := 0, manifest := 0, fnOff := [] }
  boot := { copy0 := some ⟨⟨0, 0, false, 3, 0, 0, 0, 0⟩, 0xF6954ED4⟩, copy1 := none, dir := ⟨0, 0, false, 3, 0, 0, 0, 0⟩, ops := [], busy := false, key := 0,
            partVers := [], tried := [], handover := 0, verified := [], recCmd := 0, list0 := none, list1 := none, srcLow := 0, buffer := [],
            subsys := none, txLat := [], rxLat := [] }
  lcs := { fuses := [(0, 3), (352, 1)], props := [], nextId := 0, trans := none, prog := none, tap := 2, unlockAt := 0, stall := 0, noRoom := [],
           drops := [], coreSpare := none, columns := [], wear := [], grantWait := [], memLat := [], txDelay := [], rsNext := [], rsBad := [] }

end Sys2Proof.Machine
end

