-- ==== Sys2Proof/Machine/Ops.lean ====
section
/-! DEFINITION. The named operations every meaning is built from: register fields, counters, owners and rights of masters, interrupts and
their MSI-X vectors, fault causes, the event log, free values. -/

namespace Sys2Proof.Machine

open Sys2Proof

/-! ### Bits -/

/-- The word with bit b set. -/
def setBit (v b : Nat) : Nat := v ||| (1 <<< b)

/-- The word with bit b clear. -/
def clrBit (v b : Nat) : Nat := v ^^^ (v &&& 1 <<< b)

/-- The word with bit b as given. -/
def putBit (v b : Nat) (x : Bool) : Nat := if x then setBit v b else clrBit v b

/-- Bits [hi:lo] of a word. -/
def bits (v hi lo : Nat) : Nat := (v >>> lo) % 2 ^ (hi + 1 - lo)

/-- The value of a flag in a register. -/
def b2n (x : Bool) : Nat := if x then 1 else 0

/-- A two's-complement value of w bits as an integer. -/
def toSigned (w v : Nat) : Int := if v % 2 ^ w < 2 ^ (w - 1) then (v % 2 ^ w : Nat) else (v % 2 ^ w : Nat) - (2 ^ w : Nat)

/-- An integer as a two's-complement value of w bits. -/
def ofSigned (w : Nat) (v : Int) : Nat := (v % ((2 ^ w : Nat) : Int)).toNat

/-- A time from 2^-32 ns to the nearest step of 0.25 ps, halves upward (R50, R240): a step is 2^27 / 125 units. -/
def edgeStep (t : Nat) : Nat := (t * 125 + 1024 * 65536) / (2048 * 65536)

/-- A count of steps of 0.25 ps in 2^-32 ns, rounded to the nearest. -/
def stepTime (k : Nat) : Nat := (k * 2048 * 65536 + 62) / 125

/-- Apply an effect only where a condition holds. -/
def whenS (c : Bool) (f : State → State) (s : State) : State := if c then f s else s

/-- Apply an effect for each element of a list, in its order. -/
def forS {α : Type} (l : List α) (f : α → State → State) (s : State) : State := l.foldl (fun t a => f a t) s

/-! ### Register fields -/

/-- The value of a register field. -/
def rd (s : State) (p : Page) (f : Fld) : Nat := tabGet f.reset s.regs (fldKey p f) % 2 ^ f.width

/-- A one-bit field as a truth value. -/
def rdb (s : State) (p : Page) (f : Fld) : Bool := rd s p f == 1

/-- Write of a register field by hardware: the value is cut to the field's width; the reset value takes no place in the table. -/
def wr (s : State) (p : Page) (f : Fld) (v : Nat) : State :=
  { s with regs := tabPut f.reset s.regs (fldKey p f) (v % 2 ^ f.width) }

/-- Write of several fields of one page. -/
def wrs (s : State) (p : Page) (l : List (Fld × Nat)) : State := l.foldl (fun t x => wr t p x.1 x.2) s

/-- A one-bit field set or cleared. -/
def wrb (s : State) (p : Page) (f : Fld) (v : Bool) : State := wr s p f (b2n v)

/-- A counter that saturates at its width's greatest value (R456). -/
def addSat (s : State) (p : Page) (f : Fld) (n : Nat) : State := wr s p f (min (rd s p f + n) (2 ^ f.width - 1))

/-- One more on a saturating counter. -/
def incSat (s : State) (p : Page) (f : Fld) : State := addSat s p f 1

/-- A counter that wraps at its width (R456). -/
def addWrap (s : State) (p : Page) (f : Fld) (n : Nat) : State := wr s p f (rd s p f + n)

/-- One more on a wrapping counter. -/
def incWrap (s : State) (p : Page) (f : Fld) : State := addWrap s p f 1

/-- Set bits of a field. -/
def orBits (s : State) (p : Page) (f : Fld) (m : Nat) : State := wr s p f (rd s p f ||| m)

/-! ### Free values -/

/-- The next free value (log 3): the spec says that a value results and does not say which. -/
def freeNow (s : State) : Nat := (Config.freeValue s.freeCtr).toNat

/-- One free value more has been drawn. -/
def freeStep (s : State) : State := { s with freeCtr := s.freeCtr + 1 }

/-! ### Outputs -/

/-- The device sends something out. -/
def emit (s : State) (o : Out) : State := { s with out := s.out ++ [o] }

/-! ### Owners and rights (R423, R424) -/

/-- Owner of bank b: a partition 0–3, or 7 for nobody (`HIF_BANK_OWN`, R405). -/
def bankOwner (s : State) (b : Nat) : Nat :=
  let w := if b < 8 then rd s .hifDev F.HIF_BANK_OWN_LO else rd s .hifDev F.HIF_BANK_OWN_HI
  let o := (w >>> (4 * (b % 8))) % 16
  if o < 4 then o else 7

/-- Owner of a page: 0–3 partition n, 4 the privileged master, 7 nobody (`OWNER`, Table 16-2). -/
def pageOwner (s : State) : Page → Nat
  | .mgtPart n => n | .hifPart n => n | .timPart n => n | .disPart n => n | .cmpPart n => n
  | .calPart n => n | .memPart n => n | .pwrPart n => n | .bar4 n => n
  | .timPulse p => (rd s .timDev F.TIM_TP_OWNER >>> (2 * p)) % 4
  | .acqTo t => (rd s .acqDev F.ACQ_TO_OWNER >>> (2 * t)) % 4
  | .bnk b => bankOwner s b
  | .au u => if u < 16 then rd s (.au u) F.AU_ASSIGN_PART else 4
  | _ => 4

/-- A master with the rights of the privileged master (R423): master 0 when `HIF_DEV_STAT.PRIV` is set, firmware, and master 5 in the
life-cycle states MANUFACTURE and RETURN. -/
def isPriv (s : State) (m : Nat) : Bool :=
  (m == 0 && rdb s .hifDev F.HIF_DEV_STAT_PRIV) || m == 4 ||
  (m == 5 && (rd s .lcs F.LCS_STATE_STATE == 0 || rd s .lcs F.LCS_STATE_STATE == 3))

/-- A master has privileged rights over a page: those of R423, and in PROVISIONED the function of port 0 over the LCS page (R492). -/
def privOver (s : State) (m : Nat) (p : Page) : Bool := isPriv s m || (p == .lcs && m == 0 && rd s .lcs F.LCS_STATE_STATE == 1)

/-- A master owns a page (R424); a page of nobody is the privileged master's. -/
def ownsPage (s : State) (m : Nat) (p : Page) : Bool :=
  if pageOwner s p < 4 then m == pageOwner s p else privOver s m p

/-- A master may write a field of a page: a PRV field with the rights of the privileged master, any other as the page's owner
(R424, R428). -/
def mayWrite (s : State) (m : Nat) (p : Page) (prv : Bool) : Bool := if prv then privOver s m p else ownsPage s m p

/-- A write by a master that may not make it is ignored and counted in `NONOWN_WR` of the writer's HIF partition page (R424, R407). -/
def countNonown (s : State) (m : Nat) : State := if m < 4 then incSat s (.hifPart m) F.NONOWN_WR else s

/-- A page's block is in its safe state (`BLK_STAT.SAFE`, R430, R445). -/
def pageSafe (s : State) (p : Page) : Bool := rdb s p F.BLK_STAT_SAFE

/-- The device is awake: `PWR_STAT.STATE` is ON. From the sleep decision on firmware takes no mailbox command and no descriptor is read (R467). -/
def awake (s : State) : Bool := rd s .pwrDev F.PWR_STAT_STATE == 0

/-- Power domain d is on. -/
def domOn (s : State) (d : Nat) : Bool := (rd s .pwrDev F.PWR_DOM_ON).testBit d

/-- Port n exists under the bifurcation in force (Table 15-1). -/
def portExists (s : State) (n : Nat) : Bool :=
  match rd s .hifDev F.HIF_DEV_STAT_BIFUR with
  | 0 => n == 0
  | 1 => n < 2
  | _ => n < 4

/-! ### Interrupts (R417, R427) -/

/-- The device page sources of Table 15-6, from source 96 on. -/
def devSources : List (List Page) :=
  [[.mgtDev], [.hifDev], [.timDev], [.tlkCtl, .tlkPort 0, .tlkPort 1, .tlkLane 0, .tlkLane 1, .tlkLane 2],
   [.disDev], (List.range 68).map .eng, [.cmpDev], [.acqDev], [.edg], [.au 16], [.au 17], [.au 18],
   [.calDev], [.memDev], [.pwrDev], [.boot], [.lcs], [.ptb]]

/-- The pages and the bits that make source `src` of partition n pending (Table 15-6). -/
def srcPages (s : State) (n src : Nat) : List (Page × Nat) :=
  let all := 2 ^ 32 - 1
  if src = 0 then [(.hifPart n, 3)]
  else if src < 5 then [(.hifPart n, 1 <<< (src + 1))]
  else if src < 21 then [(.hifPart n, 1 <<< (src + 3))]
  else if src = 21 then [(.hifPart n, 0x030000C0)]
  else if src < 38 then (if bankOwner s (src - 22) = n then [(.bnk (src - 22), all)] else [])
  else if src < 54 then (if rd s (.au (src - 38)) F.AU_ASSIGN_PART = n then [(.au (src - 38), all)] else [])
  else if src = 54 then [(.timPart n, all)]
  else if src < 59 then (if pageOwner s (.timPulse (src - 55)) = n then [(.timPulse (src - 55), all)] else [])
  else if src = 59 then [(.cmpPart n, all)]
  else if src = 60 then [(.disPart n, all)]
  else if src = 61 then [(.memPart n, all)]
  else if src = 62 then [(.calPart n, all)]
  else if src < 67 then (if pageOwner s (.acqTo (src - 63)) = n then [(.acqTo (src - 63), all)] else [])
  else if src < 96 then []
  else if n = 0 && rdb s .hifDev F.HIF_DEV_STAT_PRIV then (devSources.getD (src - 96) []).map fun p => (p, all)
  else []

/-- The source of a page's `INT_RAW` bit: the partition and the source number (Table 15-6). -/
def srcOf (s : State) (p : Page) (b : Nat) : Option (Nat × Nat) :=
  let dev (k : Nat) : Option (Nat × Nat) := if rdb s .hifDev F.HIF_DEV_STAT_PRIV then some (0, 96 + k) else none
  let own (k : Nat) : Option (Nat × Nat) := if pageOwner s p < 4 then some (pageOwner s p, k) else none
  match p with
  | .hifPart n =>
    if b < 2 then some (n, 0) else if b < 6 then some (n, b - 1)
    else if b < 8 || b = 24 || b = 25 then some (n, 21)
    else if b < 24 then some (n, b - 3) else none
  | .bnk b' => own (22 + b')
  | .au u => if u < 16 then own (38 + u) else dev (9 + (u - 16))
  | .timPart n => some (n, 54)
  | .timPulse q => own (55 + q)
  | .cmpPart n => some (n, 59) | .disPart n => some (n, 60) | .memPart n => some (n, 61) | .calPart n => some (n, 62)
  | .acqTo t => own (63 + t)
  | .mgtDev => dev 0 | .hifDev => dev 1 | .timDev => dev 2
  | .tlkCtl => dev 3 | .tlkPort _ => dev 3 | .tlkLane _ => dev 3
  | .disDev => dev 4 | .eng _ => dev 5 | .cmpDev => dev 6 | .acqDev => dev 7 | .edg => dev 8
  | .calDev => dev 12 | .memDev => dev 13 | .pwrDev => dev 14 | .boot => dev 15 | .lcs => dev 16 | .ptb => dev 17
  | .disGrp _ => dev 4 | .cmpPin _ => dev 6
  | .mgtPart _ => none | .pwrPart _ => none | .bar4 _ => none | .recov => none

/-- `INT_PEND`: `INT_RAW` AND `INT_EN` (Table 16-2). -/
def intPend (s : State) (p : Page) : Nat := rd s p F.INT_RAW &&& rd s p F.INT_EN

/-- A source is pending (R427). -/
def srcPending (s : State) (n src : Nat) : Bool := (srcPages s n src).any fun x => intPend s x.1 &&& x.2 != 0

/-- The MSI-X vector of a source (`HIF_P_IMAP` byte s). -/
def srcVector (s : State) (n src : Nat) : Nat := (rd s (.hifPart n) (F.HIF_P_IMAP (src / 4)) >>> (8 * (src % 4))) % 256

/-- The Mask bit of a vector in the MSI-X table of a port (R417). -/
def vectorMasked (s : State) (n v : Nat) : Bool := (rd s (.bar4 n) (F.MSIX_TABLE (4 * v + 3))).testBit 0

/-- A source raises its vector: a message where the vector is not masked, else its PBA bit (R417). -/
def raiseVector (s : State) (n src : Nat) : State :=
  let v := srcVector s n src
  if vectorMasked s n v then orBits s (.bar4 n) (F.MSIX_PBA (v / 32)) (1 <<< (v % 32))
  else emit s (.msix n v)

/-- An event sets its `INT_RAW` bit, whatever `INT_EN` holds; a source whose pending bits go from all zero to any set raises its vector
(R417, R427). -/
def raiseInt (s : State) (p : Page) (b : Nat) : State :=
  let t := orBits s p F.INT_RAW (1 <<< b)
  match srcOf s p b with
  | none => t
  | some (n, src) => if !srcPending s n src && srcPending t n src then raiseVector t n src else t

/-- After a write of `INT_RAW` or `INT_EN` that leaves a pending bit set, the source raises its vector again (R417). -/
def reraise (s : State) (p : Page) (bitList : List Nat) : State :=
  let srcs := (bitList.filterMap fun b => srcOf s p b).eraseDups
  forS srcs (fun x t => if srcPending t x.1 x.2 then raiseVector t x.1 x.2 else t) s

/-! ### The event log (R453, R454) -/

/-- Write an entry to the event log. -/
def evlog (s : State) (kind typ inst cause detail : Nat) : State :=
  let n := rd s .mgtDev F.MGT_EVLOG_WCNT
  let e : LogEntry :=
    { sec := rd s .timDev F.TIM_DTB_SEC_HI * 2 ^ 32 + rd s .timDev F.TIM_DTB_SEC_LO, ns := rd s .timDev F.TIM_DTB_NS,
      kind := kind, typ := typ % 256, inst := inst % 256, cause := cause % 32, detail := detail % 2 ^ 16 }
  let t := { s with mgt := { s.mgt with log := tabPut ⟨0, 0, 0, 0, 0, 0, 0⟩ s.mgt.log (n % 4096) e } }
  let t := whenS (decide (4096 ≤ n)) (fun t => incSat t .mgtDev F.MGT_EVLOG_OVWR) t
  wr t .mgtDev F.MGT_EVLOG_WCNT (n + 1)

/-! ### Fault causes (R441–R444, R449) -/

/-- Elapsed AON ticks of 10 ns: the clock of the windows and grace timers (R444). -/
def aonNow (s : State) : Nat := tabGet 0 s.tim.ticks 0

/-- Wear evidence is noted (R496): the latest four of a kind and an instance are kept. -/
def wearNote (kind inst v : Nat) (s : State) : State :=
  let k := kind * 4096 + inst
  { s with lcs := { s.lcs with wear := tabPut [] s.lcs.wear k ((v :: tabGet [] s.lcs.wear k).take 4) } }

/-- The wear evidence of a kind and an instance starts anew. -/
def wearClear (kind inst : Nat) (s : State) : State := { s with lcs := { s.lcs with wear := tabPut [] s.lcs.wear (kind * 4096 + inst) [] } }

/-- The key of a cause of a page. -/
def fltKey (p : Page) (c : Nat) : Nat := pageBase p + c

/-- The record of a cause. -/
def fltRec (s : State) (p : Page) (c : Nat) : FltRec := tabGet ⟨0, 0, none, false⟩ s.mgt.flt (fltKey p c)

/-- Store the record of a cause. -/
def setFltRec (s : State) (p : Page) (c : Nat) (r : FltRec) : State :=
  { s with mgt := { s.mgt with flt := tabPut ⟨0, 0, none, false⟩ s.mgt.flt (fltKey p c) r } }

/-- The causes that are severe at their first event (Table 17-2, Tables 18-9 and 20-10). -/
def severeAtOnce (p : Page) (c : Nat) : Bool :=
  match pageType p with
  | 3 => c == 5
  | 5 => c == 2
  | 13 => c == 3 || c == 7
  | 14 => c == 3 || c == 4 || c == 5
  | 16 => c == 2
  | _ => false

/-- The causes that are always minor: WRITE_LOCKED and CPL_ERR of the MGT device page (R443) and PTB_ACTIVE (Table 20-10). -/
def alwaysMinor (p : Page) (c : Nat) : Bool :=
  (p == .mgtDev && (c == 1 || c == 2)) || (p == .ptb && c == 2)

/-- A cause becomes severe (R444): the SEVERE bit, the grace timer, the log entry and the SEVERE interrupts of the MGT pages. -/
def becomeSevere (s : State) (p : Page) (c : Nat) : State :=
  let s := orBits s p F.FLT_SEVERE (1 <<< c)
  let r := fltRec s p c
  let s := setFltRec s p c { r with grace := some (aonNow s, rd s p F.FLT_GRACE) }
  let s := evlog s 2 (pageType p) (pageInst p) c r.count
  let s := raiseInt s .mgtDev 8
  let o := pageOwner s p
  whenS (decide (o < 4)) (fun s =>
    raiseInt (wrs s (.mgtPart o) [(F.MGT_P_LAST_TYPE, pageType p), (F.MGT_P_LAST_INST, pageInst p), (F.MGT_P_LAST_CAUSE, c)])
      (.mgtPart o) 8) s

/-- One event of a cause (R442, R443). Events of a severe cause count in `FLT_CNT` only. -/
def fltEvent (s : State) (p : Page) (c : Nat) : State :=
  let was := (rd s p F.FLT_CAUSE).testBit c
  let severe := (rd s p F.FLT_SEVERE).testBit c
  let s := incSat (orBits s p F.FLT_CAUSE (1 <<< c)) p F.FLT_CNT
  let s := whenS (!was) (fun s => evlog s 1 (pageType p) (pageInst p) c (rd s p F.FLT_CNT)) s
  if severe then s
  else
    let r := fltRec s p c
    let win := max 1 (rd s p F.FLT_WIN) * 100
    let r' : FltRec :=
      if r.count = 0 || decide (r.winStart + win ≤ aonNow s) then { r with count := 1, winStart := aonNow s }
      else { r with count := min (r.count + 1) 0xFFFF }
    let s := setFltRec s p c r'
    let thr := rd s p F.FLT_THR
    if !alwaysMinor p c && (severeAtOnce p c || (thr != 0 && decide (thr ≤ r'.count))) then becomeSevere s p c else s

/-- The condition of a condition cause holds or ends (R441): becoming true is one event; `FLT_LIVE` follows the condition. -/
def setLive (s : State) (p : Page) (c : Nat) (holds : Bool) : State :=
  let live := (rd s p F.FLT_LIVE).testBit c
  if holds then (if live then s else fltEvent (orBits s p F.FLT_LIVE (1 <<< c)) p c)
  else wr s p F.FLT_LIVE (clrBit (rd s p F.FLT_LIVE) c)

/-- A condition that becomes true raises its cause and its interrupt; one that holds already raises neither again. -/
def setLiveInt (s : State) (p : Page) (c i : Nat) (holds : Bool) : State :=
  let live := (rd s p F.FLT_LIVE).testBit c
  let t := setLive s p c holds
  if holds && !live then raiseInt t p i else t

/-- A write ignored with WRITE_LOCKED: the page's counter and the minor cause of the MGT device page (R437, R432). -/
def writeLocked (s : State) (p : Page) : State := fltEvent (incSat s p F.WRITE_LOCKED) .mgtDev 1

/-- A failed complement pair: `CPL_ERR` of the page and the minor cause of the MGT device page (R432). -/
def cplErr (s : State) (p : Page) : State := fltEvent (incSat s p F.CPL_ERR) .mgtDev 2

/-! ### Complement pairs (R431, R432) -/

/-- The key of a master's open pair for the register word at an offset. -/
def pairKey (m : Nat) (p : Page) (off : Nat) : Nat := m * 2 ^ 40 + pageBase p + off

/-- The value of a master's open pair for a field. -/
def openPair (s : State) (m : Nat) (p : Page) (off : Nat) : Option Nat := tabFind s.mgt.pairs (pairKey m p off)

/-- The open pair of a master is gone. -/
def dropPair (s : State) (m : Nat) (p : Page) (off : Nat) : State :=
  { s with mgt := { s.mgt with pairs := tabDel s.mgt.pairs (pairKey m p off) } }

/-- The first write of a pair (Table 16-5): a second one while a pair is open discards the first with `CPL_ERR`. -/
def pairOpen (m : Nat) (p : Page) (off v : Nat) (s : State) : State :=
  let s := if (openPair s m p off).isSome then cplErr s p else s
  { s with mgt := { s.mgt with pairs := tabIns s.mgt.pairs (pairKey m p off) v } }

end Sys2Proof.Machine
end

