-- ==== Sys2Proof/Machine/Access.lean ====
section
/-! DEFINITION. Access to registers: power domains of pages, safe states and parity, and the one operation through which a master writes a register. -/

namespace Sys2Proof.Machine

open Sys2Proof

/-! ### Power domains of pages (Table 16-2, Table 18-3) -/

/-- The power domain of a page's function (`BLK_CAP.PDOM`, Tables 1-1 and 18-3); 63 is always-on. The pages whose registers must be reached while the domain of
Table 1-1 that does their work is off (CAL, BOOT, EDG, MGT, TIM, PWR, LCS) are always-on (log 16). -/
def pageDom : Page → Nat
  | .hifDev => 22 | .hifPart _ => 22 | .bar4 _ => 22 | .recov => 22
  | .tlkCtl => 23 | .tlkPort _ => 23 | .tlkLane _ => 23
  | .disDev => 20 | .disPart _ => 20 | .disGrp _ => 20
  | .eng e => 16 + e / 17
  | .bnk b => b
  | .cmpDev => 24 | .cmpPart _ => 24 | .cmpPin _ => 24 | .acqDev => 24 | .acqTo _ => 24
  | .au _ => 25
  | .memDev => 21 | .memPart _ => 21
  | .ptb => 29
  | _ => 63

/-- `BLK_CAP.EN_IMPL` (Table 18-3): BNK and AU pages, the TLK control page and the PTB page. -/
def enImpl : Page → Bool
  | .bnk _ => true | .au _ => true | .tlkCtl => true | .ptb => true
  | _ => false

/-- A page's power domain is on. -/
def pageOn (s : State) (p : Page) : Bool := pageDom p == 63 || domOn s (pageDom p)

/-! ### What leaving a safe state touches: banks and time-link ports -/

/-- An acquisition channel that has never been armed. -/
def acqInit : AcqChan :=
  ⟨⟨0, false, false, false, false, false, 0, false, 0, 0, 0, 1, 0, 0, 0, 12, 0⟩, [], none, 0, 0, 0, none⟩

/-- A follow loop that has taken no edge. -/
def followInit : Follow := ⟨0, false, [], none, none, false⟩

/-- A bank after reset. -/
def bankInit : Bank := ⟨[], none, 0, none, none, followInit, acqInit⟩

/-- What a bank keeps. -/
def bankOf (s : State) (b : Nat) : Bank := tabGet bankInit s.pin.banks b

/-- Store what a bank keeps. -/
def setBank (s : State) (b : Nat) (x : Bank) : State := { s with pin := { s.pin with banks := tabPut bankInit s.pin.banks b x } }

/-- A bank is in its safe state (R229). -/
def bankSafe (s : State) (b : Nat) : Bool := (bankOf s b).safe != 0

/-- Set or clear a reason for a bank's safe state; `BNK_STAT.SAFE` follows. -/
def setBankSafe (s : State) (b why : Nat) (on : Bool) : State :=
  let x := bankOf s b
  let t := setBank s b { x with safe := putBit x.safe why on }
  wrb t (.bnk b) F.BNK_STAT_SAFE ((bankOf t b).safe != 0)

/-- The grandmaster fields before any Announce has been received (log 10). -/
def gmNone : GmFields := ⟨0, 0, 0, 0, 0, false⟩

/-- A port as reset leaves it. -/
def tlkPort0 : TlkPort :=
  { lane := none, restarts := 0, berHold := false, seq := [], req := none, sync := none, reverse := none, peer := none, pdelay := none,
    offsets := 0, gm := gmNone, steps := 0, deep := false, lost := false, rx := none }

/-- What a port holds. -/
def tport (s : State) (n : Nat) : TlkPort := tabGet tlkPort0 s.tlk.ports n

/-- Store what a port holds. -/
def setTport (s : State) (n : Nat) (x : TlkPort) : State := { s with tlk := { s.tlk with ports := tabPut tlkPort0 s.tlk.ports n x } }

/-- The lane that carries a port (R66, R95). -/
def laneOf (s : State) (n : Nat) : Nat := (tport s n).lane.getD n

/-- PD23 is on (R67). -/
def linkPowered (s : State) : Bool := (rd s .pwrDev F.PWR_DOM_ON).testBit 23

/-- PRBS runs on a lane (R78). -/
def prbsOn (s : State) (l : Nat) : Bool := rdb s (.tlkLane l) F.TLK_L_PRBS_GEN_EN || rdb s (.tlkLane l) F.TLK_L_PRBS_CHK_EN

/-- The conditions of a port that hold only in their link state end (Table 17-2). -/
def endLinkConditions (s : State) (n : Nat) : State :=
  setLive (setLive s (.tlkPort n) 1 false) (.tlkPort n) 2 false

/-- A TLK page is in its safe state: every port is DISABLED (Table 16-4). -/
def tlkSafe (s : State) : Bool :=
  pageSafe s .tlkCtl || pageSafe s (.tlkPort 0) || pageSafe s (.tlkPort 1) || pageSafe s (.tlkLane 0) || pageSafe s (.tlkLane 1) || pageSafe s (.tlkLane 2)

/-- What a lane holds. -/
def tlane (s : State) (l : Nat) : TlkLane := tabGet ⟨false, false⟩ s.tlk.lanes l

/-- Store what a lane holds. -/
def setTlane (s : State) (l : Nat) (x : TlkLane) : State := { s with tlk := { s.tlk with lanes := tabPut ⟨false, false⟩ s.tlk.lanes l x } }

/-- The lane a port is mapped to by `TLK_MAP` (Table 3-8). -/
def mappedLane (s : State) (n : Nat) : Nat := if n = 0 then rd s .tlkCtl F.TLK_MAP_TL0_LANE else rd s .tlkCtl F.TLK_MAP_TL1_LANE

/-- The lane that a port is mapped to still carries the other port, which stays there while it is LOCKED (R31, R95). -/
def laneTaken (s : State) (n : Nat) : Bool := mappedLane s n == laneOf s (1 - n)

/-- A port moves to its mapped lane once that lane is free (R31, R95): the old lane is left, and the new one starts from presets. -/
def moveLane (s : State) (n : Nat) : State :=
  let l := mappedLane s n
  let old := laneOf s n
  if l = old || laneTaken s n then s
  else
    let s := wrs s (.tlkLane old) [(F.TLK_L_RXSTAT_BLOCK_LOCK, 0), (F.TLK_L_RXSTAT_HI_BER, 0), (F.TLK_L_RXSTAT_FROZEN, 0)]
    let s := wrs s (.tlkLane l) [(F.TLK_L_RXSTAT_BLOCK_LOCK, 0), (F.TLK_L_RXSTAT_HI_BER, 0), (F.TLK_L_RXSTAT_FROZEN, 0)]
    let s := setTlane (setTlane s old ⟨false, false⟩) l ⟨false, false⟩
    setLive (setTport s n { tport s n with lane := if l = n then none else some l }) (.tlkPort n) 3 false

/-- A port that is not LOCKED waits for a mapped lane that the other port has left (R95). -/
def laneWaits (s : State) (n : Nat) : Bool :=
  mappedLane s n != laneOf s n && !laneTaken s n && rd s (.tlkPort n) F.TLK_P_STAT_LINK != 2

/-- One port begins bring-up, on its mapped lane: SEARCH, or PRBS or DISABLED where its lane or PD23 says so (Table 3-3, R70, R78, R95). -/
def startSearch (s : State) (n : Nat) : State :=
  let s := moveLane s n
  let s := setTport s n { tport s n with restarts := 0, berHold := false }
  let st := if !linkPowered s || tlkSafe s then 0 else if prbsOn s (laneOf s n) then 4 else if rdb s (.tlkPort n) F.TLK_P_CTRL_EN then 1 else 0
  let s := wr s (.tlkPort n) F.TLK_P_STAT_LINK st
  endLinkConditions s n

/-- A port begins bring-up; where it leaves a lane that the other port waits for, that one moves there and begins bring-up too (R70, R95). -/
def beginSearch (s : State) (n : Nat) : State :=
  let t := startSearch s n
  if laneWaits t (1 - n) then startSearch t (1 - n) else t

/-! ### Parity and safe states (R430, Table 16-4) -/

/-- A device halt holds a page's block in its safe state (R446): a bank's, and the page whose escalation it is. -/
def haltHolds (s : State) (p : Page) : Bool :=
  s.pat.halted && (pageType p == 7 || (pageType p == rd s .mgtDev F.MGT_HALT_TYPE && pageInst p == rd s .mgtDev F.MGT_HALT_INST))

/-- Nothing holds a page's block in its safe state any more (R430, Table 17-1). -/
def safeOver (s : State) (p : Page) : Bool :=
  let k := pageBase p
  !tabGet false s.mgt.safePar k && tabGet 0 s.mgt.safeEsc k == 0 && (tabGet none s.mgt.blkReset k).isNone && !haltHolds s p

/-- A block leaves its safe state where nothing holds it there. Sites that entered SAFE stay. -/
def leaveSafe (p : Page) (s : State) : State :=
  if !pageSafe s p || !safeOver s p then s
  else
    let s := wrb s p F.BLK_STAT_SAFE false
    match p with
    | .bnk b => setBankSafe (setBankSafe s b 1 false) b 2 false
    | .disDev => forS (List.range 16) (fun b s => if tabGet 0 s.mgt.safeEsc (pageBase (.bnk b)) = 0 then setBankSafe s b 1 false else s) s
    | .tlkCtl => beginSearch (beginSearch s 0) 1
    | .tlkPort _ => beginSearch (beginSearch s 0) 1
    | .tlkLane _ => beginSearch (beginSearch s 0) 1
    | _ => s

/-- The stored bits and the parity bit of the register word at an offset disagree. -/
def parityBad (s : State) (p : Page) (off : Nat) : Bool := tabGet false s.mgt.parBad (pageBase p + off)

/-- A register word of a page mismatches. -/
def pageMismatch (s : State) (p : Page) : Bool :=
  s.mgt.parBad.any fun x => decide (pageBase p ≤ x.1) && decide (x.1 < pageBase p + pageSize p)

/-- Software has written a register word (R430): its parity bit is computed afresh; with no mismatch left PARITY is not live, and a block in its safe
state through parity alone leaves it. -/
def parityWritten (p : Page) (off : Nat) (s : State) : State :=
  let k := pageBase p + off
  if !tabGet false s.mgt.parBad k then s
  else
    let s := { s with mgt := { s.mgt with parBad := tabPut false s.mgt.parBad k false, parSeen := tabPut false s.mgt.parSeen k false } }
    if pageMismatch s p then s
    else
      let s := setLive s p 0 false
      leaveSafe p { s with mgt := { s.mgt with safePar := tabPut false s.mgt.safePar (pageBase p) false } }

/-! ### Register accesses (R402, R424, R425, R430, R436, R440, R481) -/

/-- The offset lies in the common header (Table 16-2). -/
def inHeader (off : Nat) : Bool := decide (off < 0x100)

/-- The registers of a page that are served while its power domain is off (R440). -/
def servedOff (off : Nat) : Bool := off == 0 || off == 4 || off == 8 || off == 0xC || off == 0x4C

/-- A bad access of a host is counted in its HIF partition page (R422, R440). -/
def badAccess (s : State) (m : Nat) : State := if m < 4 then incSat s (.hifPart m) F.BAD_ACCESS else s

/-- The device is in SLEEP or WAKING: every port holds back credits (R470). -/
def hostSleeps (s : State) : Bool := decide (2 ≤ rd s .pwrDev F.PWR_STAT_STATE)

/-- Port m hands requests on: the device is not asleep, and no earlier request of the port is still held, but where a held one runs (R416, R470). -/
def hostFree (s : State) (m : Nat) : Bool := s.bus.replay || (!hostSleeps s && !(s.bus.held.any fun x => x.1 == m))

/-- A host has a port to the device: the device has booted, PD22 is on and the port exists (R399, R480). -/
def hostThere (s : State) (m : Nat) : Bool := s.pwr.stage == .run && domOn s 22 && portExists s m

/-- A host reaches the device through port m. -/
def hostLive (s : State) (m : Nat) : Bool := hostThere s m && hostFree s m

/-- A write at an address outside every page: counted, but not until READY is set (R402, R422, R481). -/
def badPlace (m : Nat) (s : State) : State := if decide (m < 4) && !(hostLive s m && rdb s .boot F.BOOT_STAT_READY) then s else badAccess s m

/-- The register write that a command stands for, of a word at an address: what a port holds of it. -/
def writeReq (m a word : Nat) : Instr := .registerWrite m a 4 15 word ⟨0, 0, 0⟩

/-- A request of a master, as the command c, with its effect f (R414, R416, R470): one of a host whose port holds back credits, or that pattern memory makes `wait`, is held by the
port, behind those it holds already. -/
def takeIn (m : Nat) (c : Instr) (wait : Bool) (f : State → State) (s : State) : State :=
  if decide (m < 4) && hostThere s m && (!hostFree s m || (wait && !s.bus.replay)) then { s with bus := { s.bus with held := s.bus.held ++ [(m, c)] } } else f s

/-- Master 5 is connected (Tables 20-4 and 20-5): DEBUG is the TAP instruction, in MANUFACTURE or RETURN. -/
def debugLive (s : State) : Bool :=
  s.lcs.tap == 0x10 && (rd s .lcs F.LCS_STATE_STATE == 0 || rd s .lcs F.LCS_STATE_STATE == 3) && s.pwr.stage != .noVstby && s.pwr.stage != .noVin

/-- A master is served at an offset of a page: a host through its port, until `BOOT_STAT.READY` sets in the common headers and the BOOT page only (R481); firmware once it
runs; master 5 where it is connected; in recovery mode the function of port 0 in its own BAR0 (R484). A BAR4 is its own port's (R400). -/
def hostServed (s : State) (m : Nat) (p : Page) (off : Nat) : Bool :=
  if p = .recov then m == 0 && s.pwr.stage == .recovery
  else if p = .bar4 m then hostLive s m
  else if m < 4 then hostLive s m && (rdb s .boot F.BOOT_STAT_READY || p == .boot || inHeader off)
  else if m = 4 then s.pwr.stage == .run
  else debugLive s

/-- Blocks whose safe state refuses every write outside the header (Table 16-4). -/
def safeRefuses (s : State) (p : Page) (off : Nat) : Bool :=
  let t := pageType p
  (t == 1 || t == 15 || t == 16 || t == 17) && pageSafe s p && !inHeader off

/-- A refused write is counted as its block's chapter states: BOOT_CFG, LCS_CFG or PTB_CFG; the MGT block has no such cause. -/
def safeRefused (s : State) (p : Page) : State := if pageType p = 1 then s else fltEvent s p 1

/-- Any write by a master to a page voids its write shadow for the page (R436). -/
def voidShadow (m : Nat) (p : Page) (s : State) : State :=
  match tabFind s.mgt.wrShadow m with
  | some (a, _) =>
    if decide (pageBase p ≤ a) && decide (a < pageBase p + pageSize p) then { s with mgt := { s.mgt with wrShadow := tabDel s.mgt.wrShadow m } } else s
  | none => s

/-- A page has counted a refusal since an earlier state, be it the page written, its block's device page or the PWR page of its owner: a fault event or WRITE_LOCKED. -/
def countedRefusal (s t : State) : Bool :=
  allPages.any fun p => rd s p F.FLT_CNT != rd t p F.FLT_CNT || rd s p F.WRITE_LOCKED != rd t p F.WRITE_LOCKED

/-- A write that the page takes acts by f; where it was not refused the word's parity is computed afresh, unless the write stores nothing in the register (`stores`): the first
of a complement pair, the low word of a 64-bit field (R430). -/
def takenWrite (p : Page) (off : Nat) (stores : Bool) (f : State → State) (s : State) : State :=
  let t := f s
  if !stores || !parityBad s p off || countedRefusal s t then t else parityWritten p off t

/-- The page of an analysis unit that is cleared (R324). -/
def pageClearing (s : State) (p : Page) : Bool :=
  match p with
  | .au _ => rdb s p F.AU_ASSIGN_CLEARING
  | _ => false

/-- A register write by a master at an offset of a page, in the order in which the device decides: whether the host is served (R481), whether the page has power (R440),
whether the master `may` write (R424, R428), whether the page is one of a unit that is cleared, which ignores it (R324), whether the block's safe state refuses it (Table 16-4);
then the effect of the register. Any write to the page, taken or not, voids the master's write shadow for it (R436). -/
def accessFor (stores : Bool) (s : State) (m : Nat) (p : Page) (off : Nat) (may : Bool) (f : State → State) : State :=
  if !hostServed s m p off then s
  else
    let s := voidShadow m p s
    if !pageOn s p && !servedOff off then badAccess s m
    else if !may then countNonown s m
    else if pageClearing s p then s
    else if safeRefuses s p off then safeRefused s p
    else takenWrite p off stores f s

/-- A register write that stores in the register (R430). -/
def accessIf (s : State) (m : Nat) (p : Page) (off : Nat) (may : Bool) (f : State → State) : State := accessFor true s m p off may f

/-- A register write of a field that is PRV or not (R424, R428). -/
def asWriter (s : State) (m : Nat) (p : Page) (off : Nat) (prv : Bool) (f : State → State) : State := accessIf s m p off (mayWrite s m p prv) f

/-- A write of a BAR4 register by the host of its port, which is any other write to the page for the host's write shadow (R436). -/
def bar4Access (n : Nat) (f : State → State) (s : State) : State := whenS (hostLive s n) (fun s => f (voidShadow n (.bar4 n) s)) s

/-- The reader has the right to a field: as the page's owner, with privileged rights to a PRV field; while a bank moves (R405) or a unit is cleared (R324), with privileged
rights alone. -/
def readerMay (s : State) (m : Nat) (p : Page) (prv : Bool) : Bool :=
  match p with
  | .bnk b => if s.hif.moving.contains b then isPriv s m else ownsPage s m p || (prv && isPriv s m)
  | .au _ => if rdb s p F.AU_ASSIGN_CLEARING then isPriv s m else ownsPage s m p || (prv && isPriv s m)
  | _ => ownsPage s m p || (prv && privOver s m p)

/-- A register read answers the value; otherwise it reads zero (R424, R440, R481). -/
def mayRead (s : State) (m : Nat) (p : Page) (off : Nat) (prv : Bool) : Bool :=
  hostServed s m p off && (pageOn s p || servedOff off) && readerMay s m p prv

/-- The bank whose owner a page's entry at an offset follows: the pins of a CMP pin page (Table 9-6), the routes of a DIS route-group page (Table 6-12). Each
such entry belongs to its own owner (R424). -/
def entryBank (p : Page) (off : Nat) : Option Nat :=
  match p with
  | .cmpPin g => if 0x100 ≤ off ∧ off < 0x500 then some (4 * g + (off - 0x100) / 0x100) else none
  | .disGrp g => if 0x100 ≤ off ∧ off < 0x900 then some ((8 * g + (off - 0x100) / 0x100) / 4) else none
  | _ => none

/-- A master owns the entries of bank b. -/
def ownsEntry (s : State) (m b : Nat) : Bool := if bankOwner s b < 4 then m == bankOwner s b else isPriv s m

/-- The write of the complement (R431, Table 16-5): with the complement of the open pair's value the field takes the value by `f`, subject to its own checks; any
other case discards with `CPL_ERR`. -/
def pairComplete (m : Nat) (p : Page) (off comp : Nat) (f : Nat → State → State) (s : State) : State :=
  accessFor (openPair s m p off == some (2 ^ 32 - 1 - comp)) s m p off (mayWrite s m p true) fun s =>
    match openPair s m p off with
    | none => cplErr s p
    | some v =>
      let s := dropPair s m p off
      if comp = 2 ^ 32 - 1 - v then f v s else cplErr s p

end Sys2Proof.Machine
end

