-- ==== Sys2Proof/Machine/Mem.lean ====
section
/-! DEFINITION. Pattern memory as the partitions address it (R104, R368): one byte space for each partition, little-endian accesses, the
quota, and the areas that rings and logs use. -/

namespace Sys2Proof.Machine

open Sys2Proof

/-- The canonical form of memory: addresses rise strictly, and no listed byte is 0, what an unlisted address reads as (R372). -/
def Memory.wf (m : List Host.Cell) : Bool := tabSorted m && m.all fun c => c.2 != 0

/-- The key of a partition's byte address. -/
def memKey (part addr : Nat) : Nat := part * 2 ^ 35 + addr % 2 ^ 35

/-- One byte of a partition's pattern space. -/
def memByte (s : State) (part addr : Nat) : BitVec 8 := tabGet 0 s.mem (memKey part addr)

/-- Store one byte of a partition's pattern space. -/
def putByte (s : State) (part addr : Nat) (b : BitVec 8) : State := { s with mem := tabPut 0 s.mem (memKey part addr) b }

/-- n bytes from an address as one little-endian value (R7). -/
def readMem (s : State) (part addr : Nat) : Nat → Nat
  | 0 => 0
  | n + 1 => (memByte s part addr).toNat + 256 * readMem s part (addr + 1) n

/-- Store a value as n little-endian bytes (R7). -/
def putLE (s : State) (part addr : Nat) : Nat → Nat → State
  | 0, _ => s
  | n + 1, v => putLE (putByte s part addr (BitVec.ofNat 8 v)) part (addr + 1) n (v / 256)

/-- Store a list of byte values from an address on. -/
def putBytes (s : State) (part addr : Nat) : List Nat → State
  | [] => s
  | b :: l => putBytes (putByte s part addr (BitVec.ofNat 8 b)) part (addr + 1) l

/-! ### The page map and poisoned blocks (R368, R370, R391, R392) -/

/-- A map entry that has never been remapped (R370). -/
def mapInit (h : Nat) : MapEnt := ⟨h, false, 0⟩

/-- The map entry of a home frame. -/
def mapEnt (s : State) (h : Nat) : MapEnt := tabGet (mapInit h) s.memc.map h

/-- Store a map entry. -/
def setMapEnt (h : Nat) (x : MapEnt) (s : State) : State := { s with memc := { s.memc with map := tabPut (mapInit h) s.memc.map h x } }

/-- The home frame of a partition's address: the region table, then A[29:10] (R368). -/
def homeFrame (s : State) (part addr : Nat) : Option Nat :=
  ((s.memc.regions.getD part [])[addr / 2 ^ 30]?).map fun r => r * 2 ^ 20 + addr % 2 ^ 30 / 1024

/-- The POISON bit of the block that holds an address (R370). -/
def poisonAt (s : State) (part addr : Nat) : Bool :=
  match homeFrame s part addr with
  | some h => (mapEnt s h).poison.testBit (addr % 1024 / 64)
  | none => false

/-- Write the POISON bit of a block. -/
def setPoison (h blk : Nat) (on : Bool) (s : State) : State := setMapEnt h { mapEnt s h with poison := putBit (mapEnt s h).poison blk on } s

/-- The addresses of the 64-byte blocks that n bytes touch. -/
def blocksOf (addr n : Nat) : List Nat := if n = 0 then [] else (List.range ((addr + n - 1) / 64 + 1 - addr / 64)).map fun k => (addr / 64 + k) * 64

/-- The first poisoned block that n bytes touch. -/
def firstPoison (s : State) (part addr n : Nat) : Option Nat := if s.memc.map.isEmpty then none else (blocksOf addr n).find? (poisonAt s part)

/-- An uncorrectable block (R392): the device record, and that of the partition if the block belongs to one; the home frame stands for the page. -/
def recordUe (cls : Nat) (part : Option Nat) (frame blk addr : Nat) (write : Bool) (s : State) : State :=
  let d := Page.memDev
  let s := incSat s d F.MEM_UE
  let s := wrs s d [(F.MEM_UE_FRAME_FRAME, frame), (F.MEM_UE_FRAME_BLOCK, blk), (F.MEM_UE_INFO_CLASS, cls), (F.MEM_UE_INFO_PART, part.getD 0),
    (F.MEM_UE_INFO_RESERVED, b2n part.isNone), (F.MEM_UE_INFO_WRITE, b2n write), (F.MEM_UE_INFO_VALID, 1), (F.MEM_UE_TIME, rd s .timDev F.TIM_DTB_SEC_LO)]
  let s := raiseInt (fltEvent s d 2) d 2
  match part with
  | none => s
  | some n =>
    let p := Page.memPart n
    let s := incSat s p F.MEM_P_UE
    let s := wrs s p [(F.MEM_P_UE_ADDR_LO, addr / 1024), (F.MEM_P_UE_ADDR_HI, addr / 2 ^ 32), (F.MEM_P_UE_INFO_BLOCK, blk), (F.MEM_P_UE_INFO_CLASS, cls),
      (F.MEM_P_UE_INFO_WRITE, b2n write), (F.MEM_P_UE_INFO_VALID, 1)]
    raiseInt (fltEvent s p 2) p 2

/-- An uncorrectable block of a partition's address (R392); its frame becomes a retirement candidate (R390). -/
def recordUeAt (cls part addr : Nat) (write : Bool) (s : State) : State :=
  match homeFrame s part addr with
  | none => s
  | some h =>
    let s := if s.memc.cands.contains h then s else { s with memc := { s.memc with cands := s.memc.cands ++ [h] } }
    recordUe cls (some part) h (addr % 1024 / 64) addr write s

/-- A write reaches a block that is poisoned or uncorrectable (R391): all 64 bytes clear the bit; fewer store zeros around them, clear it and record the
error with WRITE = 1. -/
def mendBlock (cls part addr n : Nat) (bad : Bool) (blk : Nat) (s : State) : State :=
  if poisonAt s part blk || bad then
    match homeFrame s part blk with
    | none => s
    | some h =>
      let s := setPoison h (blk % 1024 / 64) false s
      if addr ≤ blk && blk + 64 ≤ addr + n then s
      else recordUeAt cls part blk true (putBytes s part blk (List.replicate 64 0))
  else s

/-- Bytes moved for a partition in a class (Table 14-9). -/
def countBytes (cls part n : Nat) (s : State) : State :=
  match cls with
  | 1 => addWrap s (.memPart part) F.MEM_P_C1_BYTES n
  | 2 => addWrap s (.memPart part) F.MEM_P_C2_BYTES n
  | 3 => addWrap s (.memPart part) F.MEM_P_C3_BYTES n
  | _ => s

/-- A write of n bytes arrives in a class: poisoned blocks first (R391). -/
def beforeWrite (cls part addr n : Nat) (s : State) : State :=
  let s := if s.memc.map.isEmpty then s else forS (blocksOf addr n) (mendBlock cls part addr n false) s
  countBytes cls part n s

/-- A class-2 writer stores a value of n bytes (Table 14-3). -/
def writeMem (s : State) (part addr n v : Nat) : State := putLE (beforeWrite 2 part addr n s) part addr n v

/-- Bytes stored in a class. -/
def writeBytes (cls part addr : Nat) (l : List Nat) (s : State) : State := putBytes (beforeWrite cls part addr l.length s) part addr l

/-! ### Self-refresh (R385, R386) -/

/-- A class-1 request between the entry decision and the entry command aborts the entry (R386): held requests are released; a speed change stays pending and
counts; sleep entry is told. -/
def abortEntry (s : State) : State :=
  if s.memc.sr = 1 then
    let rel := s.memc.chans.map fun c => (c.1, c.2.map fun r => { r with held := false })
    let s := { s with memc := { s.memc with sr := 0, srSleep := false, srAborted := s.memc.srSleep, chans := rel } }
    if rdb s .memDev F.MEM_SPEED_PENDING then raiseInt (incSat s .memDev F.MEM_SPEED_ABORT) .memDev 11 else s
  else s

/-- Pattern memory serves new requests of a class: none in self-refresh, and of classes 2 to 4 none from the entry decision on (R385, R386);
in the safe state of MEM classes 3 and 4 are held (Table 16-4). -/
def memServes (s : State) (cls : Nat) : Bool :=
  (s.memc.sr == 0 || (cls == 1 && s.memc.sr == 1)) && !(decide (3 ≤ cls) && pageSafe s .memDev)

/-- The field of a partition's quota (`HIF_QUOTA`). -/
def quotaFld (n : Nat) : Fld :=
  match n with
  | 0 => F.HIF_QUOTA_0 | 1 => F.HIF_QUOTA_1 | 2 => F.HIF_QUOTA_2 | _ => F.HIF_QUOTA_3

/-- The addressable GiB of a partition (`MEM_P_STAT.QUOTA`): its quota, without a range that is being cleared (R372, R406). -/
def quotaGib (s : State) (n : Nat) : Nat :=
  let q := rd s .hifDev (quotaFld n)
  match tabGet none s.memc.clearing n with
  | some a => min a q
  | none => q

/-- The addressable bytes of a partition. -/
def quotaBytes (s : State) (n : Nat) : Nat := quotaGib s n * 2 ^ 30

/-- n bytes from an address lie within the partition's quota. -/
def inQuota (s : State) (part addr n : Nat) : Bool := decide (addr + n ≤ quotaBytes s part)

/-- n bytes lie within the quota as BAR2 and BAR4 see it: until READY as if the quota were 0 (R481). -/
def hostQuota (s : State) (n addr len : Nat) : Bool := rdb s .boot F.BOOT_STAT_READY && inQuota s n addr len

/-! ### Streaming rings as the device uses them (R412, R415) -/

/-- Size in bytes of a streaming ring's area: NPAGES pages of 64 KiB × 2^PAGE. -/
def ringSize (s : State) (n r : Nat) : Nat :=
  rd s (.bar4 n) (F.RING_CTRL_NPAGES r) * (2 ^ 16 * 2 ^ rd s (.bar4 n) (F.RING_CTRL_PAGE r))

/-- Base address of a streaming ring's area. -/
def ringBase (s : State) (n r : Nat) : Nat :=
  rd s (.bar4 n) (F.RING_BASE_HI r) * 2 ^ 32 + rd s (.bar4 n) (F.RING_BASE_LO r) * 2 ^ 16

/-- The value of n bytes of a ring's data from byte count i on; data byte i lies at BASE + (i mod size) (R412). -/
def ringRead (s : State) (p r i : Nat) : Nat → Nat
  | 0 => 0
  | n + 1 => (memByte s p (ringBase s p r + i % max 1 (ringSize s p r))).toNat + 256 * ringRead s p r (i + 1) n

/-- How far a byte count of a ring lies ahead of another: the counts wrap together, and differences stay valid modulo 2^64 (R456). -/
def ringDiff (a b : Nat) : Nat := (a + 2 ^ 64 - b) % 2 ^ 64

/-- Free space of a ring: its size less the data not yet consumed. -/
def ringFree (s : State) (n r : Nat) : Nat :=
  ringSize s n r - ringDiff (rd s (.bar4 n) (F.RING_WR r)) (rd s (.bar4 n) (F.RING_RD r))

/-- SPACE of a ring is raised where its free space has risen from `before` to `RING_LOW` KiB or more from below, 0 disabling it (R415). -/
def ringSpace (n r before : Nat) (s : State) : State :=
  let low := rd s (.bar4 n) (F.RING_LOW r) * 1024
  if decide (0 < low) && decide (before < low) && decide (low ≤ ringFree s n r) then raiseInt s (.hifPart n) (8 + r) else s

/-- `RING_RD` advances (R415). -/
def ringAdvance (n r bytes : Nat) (s : State) : State := ringSpace n r (ringFree s n r) (addWrap s (.bar4 n) (F.RING_RD r) bytes)

/-- An engine needs data at or beyond `RING_WR` (R415): UNDERRUN sets, the stall counts and RING_UR is raised. -/
def ringUnderrun (n r : Nat) (s : State) : State :=
  raiseInt (incSat (wrb s (.bar4 n) (F.RING_STAT_UNDERRUN r) true) (.bar4 n) (F.RING_STALLS r)) (.hifPart n) 24

end Sys2Proof.Machine
end

