-- ==== Sys2Proof/Machine/PatOps.lean ====
section
/-! DEFINITION. Sites, routes, furrows, engines, banks and pins as the meanings of chapters 4 to 10 reach them: values at reset, accessors, the
geometry of sites, site states, open stops and jump requests. -/

namespace Sys2Proof.Machine

open Sys2Proof

/-! ### Values at reset -/

/-- No pending flag (Table 5-2). -/
def pendClear : Pend := ⟨false, false, false, none, none, false, 0, 0⟩

/-- The initial route expansion state from an entry address (R132). -/
def recInit (entry : Nat) : RouteRec :=
  { pc := entry, loops := [], calls := [], dps := [0, 0, 0, 0], curTs := 0, curPs := 0, lastVec := none, pend := pendClear, segNum := none,
    segCnt := 0, alts := [], block := none, resid := none, ended := false, pfault := false, segOrd := 0 }

/-- A route of no site. -/
def routeInit : Route :=
  { main := recInit 0, dbase := 0, streams := [none, none, none, none], ready := [], sideWait := [], heads := [], endPos := none,
    capped := false, held := false, summaryMode := false, summary := none, armed := none, checks := [0, 0, 0, 0] }

/-- No RUN accepted. -/
def argsInit : RunArgs := ⟨0, false, false, false, false, 0x2000, 0, 0⟩

/-- A site number that no partition has defined. -/
def siteFree : Site :=
  { owner := none, mask := 0, args := argsInit, req1 := none, req2 := none, stops := [], haltDue := false, stopBy := none, epochTick := none, nextVn := 0, cur := none,
    nextStart := 0, queue := [], inRew := 0, block := [], redo := [], deferred := false, unsure := false, segOrd := 0, gap := none, pass := none, failDue := false, jlogSeq := 0, jlogWait := none, hist := [], disarmed := [] }

/-- An empty side half. -/
def halfInit : Half := ⟨0, 0, 0, 0, 0, 0, 0, 0, 0, 0, 0, 0, none, []⟩

/-- Read-side pointers of an empty furrow. -/
def rptrInit : RPtr := ⟨[0], 0, 0, 0, 0, [], false, []⟩

/-- A furrow with every pointer at 0 (R222). -/
def furInit : Fur :=
  { res := 0, stg := 0, vis := 0, visR := 0, relW := 0, tagRes := 0, tagStg := 0, tagVis := 0, tagRelW := 0, cells := [], half1 := halfInit,
    half2 := halfInit, now := rptrInit, seq := rptrInit, steps := [], pRegs := [0], pr := 0, rel := 0, tagRel := 0, toRead := [],
    holdRead := none, toWrite := [], holdWrite := none, relTo := none, jumpRegs := [], jumpTo := none, resetPend := false, trail := [], redo := [], lone := false }

/-- An engine without a caravan. -/
def engInit : Eng := ⟨0, none, false, [], 0, false⟩

/-- The pin record of the reset set: format OFF, edge strobe, every edge 0 (R237). -/
def pinRecReset : PinRec := ⟨5, true, 0, 0, 0, 0, 0, 0⟩

/-- The reset set: 100 ns (R237). -/
def setReset : TimingSet := ⟨6553600 * 65536, List.replicate 16 pinRecReset⟩

/-- A pin channel after reset: the safe-state levels of R229. -/
def pinInit : Pin := ⟨false, false, none, none, 0, 40 * 256, 0, List.replicate 4 350000, []⟩

/-- A PE control port without transfers. -/
def pecInit : Pec := ⟨[], none, []⟩

/-- A ledger after reset; the credit is full (R279): 256 entries of 1,500 units. -/
def ledgerInit : Ledger := ⟨[], 0, 0, 256 * 1500, none, none⟩

/-- A converter after reset: 64 credits, none used (log 20). -/
def convInit : Conv := ⟨0, none, false, false, 0, false, false, none, 0, 0, false, 0, [], []⟩

/-- A bank's stamp stream after reset. -/
def sringInit : SRing := ⟨[], 0, none, []⟩

/-- An analysis unit after reset. -/
def auInit : Au := ⟨[], [], [], none, none, none, false, false, false, [], 0, none, none⟩

/-! ### Accessors -/

def siteOf (s : State) (i : Nat) : Site := tabGet siteFree s.pat.sites i
def setSite (s : State) (i : Nat) (x : Site) : State := { s with pat := { s.pat with sites := tabPut siteFree s.pat.sites i x } }
def routeOf (s : State) (r : Nat) : Route := tabGet routeInit s.pat.routes r
def setRoute (s : State) (r : Nat) (x : Route) : State := { s with pat := { s.pat with routes := tabPut routeInit s.pat.routes r x } }
def furOf (s : State) (q : Nat) : Fur := tabGet furInit s.pat.furs q
def setFur (s : State) (q : Nat) (x : Fur) : State := { s with pat := { s.pat with furs := tabPut furInit s.pat.furs q x } }
def engOf (s : State) (e : Nat) : Eng := tabGet engInit s.pat.engs e
def setEng (s : State) (e : Nat) (x : Eng) : State := { s with pat := { s.pat with engs := tabPut engInit s.pat.engs e x } }
def pinOf (s : State) (p : Nat) : Pin := tabGet pinInit s.pin.pins p
def setPin (s : State) (p : Nat) (x : Pin) : State := { s with pin := { s.pin with pins := tabPut pinInit s.pin.pins p x } }
def pecOf (s : State) (n : Nat) : Pec := tabGet pecInit s.pin.pecs n
def setPec (s : State) (n : Nat) (x : Pec) : State := { s with pin := { s.pin with pecs := tabPut pecInit s.pin.pecs n x } }
def ledgerOf (s : State) (n : Nat) : Ledger := tabGet ledgerInit s.pin.ledgers n
def setLedger (s : State) (n : Nat) (x : Ledger) : State := { s with pin := { s.pin with ledgers := tabPut ledgerInit s.pin.ledgers n x } }

def convOf (s : State) (p : Nat) : Conv := tabGet convInit s.pin.convs p
def setConv (s : State) (p : Nat) (x : Conv) : State := { s with pin := { s.pin with convs := tabPut convInit s.pin.convs p x } }
def sringOf (s : State) (b : Nat) : SRing := tabGet sringInit s.pin.srings b
def setSring (s : State) (b : Nat) (x : SRing) : State := { s with pin := { s.pin with srings := tabPut sringInit s.pin.srings b x } }
def auOf (s : State) (u : Nat) : Au := tabGet auInit s.au.units u
def setAu (s : State) (u : Nat) (x : Au) : State := { s with au := { s.au with units := tabPut auInit s.au.units u x } }

/-! ### Geometry (R98, R99, R226) -/

/-- The quads of a mask in ascending order. -/
def quadsOf (mask : Nat) : List Nat := (List.range 64).filter fun q => mask.testBit q

/-- The banks that contain a quad of a mask, in ascending order (R98). -/
def banksOf (mask : Nat) : List Nat := (List.range 16).filter fun b => decide (mask >>> (4 * b) % 16 ≠ 0)

/-- The quads of a mask in one bank. -/
def quadsIn (mask b : Nat) : List Nat := (quadsOf mask).filter fun q => q / 4 = b

/-- The route number of a mask in a bank: the lowest quad there (R99). -/
def routeNo (mask b : Nat) : Nat := (quadsIn mask b).headD 0

/-- The routes of a mask in ascending order. -/
def routesOf (mask : Nat) : List Nat := (banksOf mask).map (routeNo mask)

/-- The lead quad of a mask: its lowest quad (R99). -/
def leadQuad (mask : Nat) : Nat := (quadsOf mask).headD 0

/-- The quads of a route of a site: those of the site in the route's bank. -/
def routeQuads (s : State) (i r : Nat) : List Nat := quadsIn (siteOf s i).mask (r / 4)

/-- The site that a quad belongs to. -/
def siteOfQuad (s : State) (q : Nat) : Option Nat := (List.range 64).find? fun i => (siteOf s i).mask.testBit q

/-- The defined sites with a quad in a bank. -/
def sitesOfBank (s : State) (b : Nat) : List Nat := (List.range 64).filter fun i => decide ((siteOf s i).mask >>> (4 * b) % 16 ≠ 0)

/-- The pins of a mask: PCH number p = 4q + k (R226). -/
def pinsOf (mask : Nat) : List Nat := (quadsOf mask).flatMap fun q => (List.range 4).map fun k => 4 * q + k

/-- The sites that a partition has defined. -/
def sitesOfPart (s : State) (n : Nat) : List Nat := (List.range 64).filter fun i => (siteOf s i).owner = some n

/-! ### Site states (Table 4-8) -/

/-- The partition that defined a site; 0 where none has (its registers then read zero). -/
def sitePart (s : State) (i : Nat) : Nat := ((siteOf s i).owner).getD 0

/-- The CMP page that holds a site's control entry. -/
def sitePage (s : State) (i : Nat) : Page := .cmpPart (sitePart s i)

/-- The state of a site: 0 FREE where no partition has defined it. -/
def siteState (s : State) (i : Nat) : Nat :=
  if (siteOf s i).owner = none then 0 else rd s (sitePage s i) (F.CMP_SITE_STATE_STATE i)

/-- Write the state of a site. -/
def setSiteState (s : State) (i v : Nat) : State := wr s (sitePage s i) (F.CMP_SITE_STATE_STATE i) v

/-- A site is PRIMING or RUNNING. -/
def siteBusy (s : State) (i : Nat) : Bool := siteState s i == 2 || siteState s i == 3

/-- A site with a quad in the bank is PRIMING or RUNNING. -/
def bankBusy (s : State) (b : Nat) : Bool := (sitesOfBank s b).any (siteBusy s)

/-- A site of the partition is PRIMING or RUNNING. -/
def partBusy (s : State) (n : Nat) : Bool := (sitesOfPart s n).any (siteBusy s)

/-- Calibration of a bank aborts at its next step (R361): sleep entry, a reset of the owning partition, a mode change, an owner change, a halt. -/
def calAbortDue (b : Nat) (s : State) : State :=
  { s with cal := { s.cal with runs := s.cal.runs.map fun r => if r.bank = b then { r with abort := true } else r } }

/-- A pin is in the safe state: with its bank, or with its site in POISON or SAFE (R229). -/
def pinSafe (s : State) (p : Nat) : Bool :=
  bankSafe s (p / 16) || (siteOfQuad s (p / 4)).any fun i => siteState s i == 9 || siteState s i == 10

/-- The pins of a bank take the safe-state levels: DEN inactive and DRV at logic 0 (R229). -/
def pinsSafe (l : List Nat) (s : State) : State :=
  forS l (fun p s => setPin s p { pinOf s p with drv := false, den := false }) s

/-- A site interrupt of Table 9-10: the bit in the partition page and the site's bit of `CMP_SITE_EVT` (R282). -/
def siteInt (i bit : Nat) (s : State) : State :=
  raiseInt (orBits s (sitePage s i) F.CMP_SITE_EVT (1 <<< i)) (sitePage s i) bit

/-- A site enters a state from 4 to 10: its causes are recorded, HALT_PEND clears, and the state's interrupt is raised (R125, R126, R127). -/
def enterState (i st causes : Nat) (s : State) : State :=
  let s := setSiteState s i st
  let s := orBits s (sitePage s i) (F.CMP_SITE_CAUSES i) causes
  siteInt i (st - 4) (wr s (sitePage s i) (F.CMP_SITE_STATE_HALT_PEND i) 0)

/-- The priority of the states that leave PRIMING or RUNNING (R125): the higher is the stronger. -/
def stopRank (st : Nat) : Nat :=
  match st with
  | 10 => 7 | 9 => 6 | 7 => 5 | 6 => 4 | 8 => 3 | 5 => 2 | _ => 1

/-- The strongest state of a list of causes (R125). -/
def strongest (l : List Nat) : Nat := l.foldl (fun a b => if stopRank a < stopRank b then b else a) 4

/-- The bits of `CMP_SITE_CAUSES` for a list of causes: bit i for state 4 + i. -/
def causeBits (l : List Nat) : Nat := l.foldl (fun a st => a ||| (1 <<< (st - 4))) 0

/-- One CORE cycle at 1.5 GHz, in 2^-32 ns, rounded up (Table 1-5). -/
def coreCycle : Nat := 2863311531

/-- The end of the vector or idle item now presented in vector time, and its period; the start that is due where none is. -/
def vecEnd (x : Site) : Nat × Nat :=
  match x.cur with
  | some c => (c.start + c.period, c.period)
  | none => (x.nextStart, 0)

/-- A stop cause opens (R124, R125): it waits, with any other, for the vector boundary. A boundary that lies a CORE cycle or more after the end of the present
vector is past the cycle of the first cause. -/
def openStop (i st : Nat) (s : State) : State :=
  if siteState s i = 3 then
    let x := siteOf s i
    if x.stops.contains st then s else setSite s i { x with stops := x.stops ++ [st], stopBy := some (x.stopBy.getD ((vecEnd x).1 + coreCycle)) }
  else s

/-- The stop causes now open (R125, R126). -/
def openCauses (x : Site) : List Nat := x.stops ++ if x.haltDue then [5] else []

/-- What else names the boundary after a last repetition: the end of the program where the vector before it is its last (R141), and in a pass that is complete its
decision, with MATCH_TIMEOUT where the pass has failed at LIMIT (R216). -/
def endCauses (c : Cur) (pass : Option Pass) : List Nat :=
  match pass.filter fun u => u.complete with
  | none => if c.done then [] else c.pres.last
  | some u => match u.decision with
    | none => []
    | some ok => if ok then c.pres.last else if u.limit ≤ u.number then [7] else []

/-- The causes that stop a site at the boundary after the present vector: those open, and those that the boundary itself brings (R125). -/
def boundaryCauses (x : Site) : List Nat :=
  openCauses x ++ match x.cur with
  | some c => if c.left = 0 then endCauses c x.pass else []
  | none => []

/-! ### Jump requests (R112) -/

/-- The alternate that a source code maps to in JSRC: 0 none, 1 or 2 (Table 4-6). -/
def jsrcOf (x : Site) (code : Nat) : Nat := if code = 0 then 0 else bits x.args.jsrc (2 * code - 1) (2 * code - 2)

/-- A request becomes pending for an alternate of a RUNNING site; a further one is merged with it (R112). -/
def makePending (i alt code : Nat) (s : State) : State :=
  if siteState s i = 3 then
    let x := siteOf s i
    if alt = 1 then setSite s i { x with req1 := some (x.req1.getD ⟨code, false⟩) }
    else if alt = 2 then setSite s i { x with req2 := some (x.req2.getD ⟨code, false⟩) }
    else s
  else s

/-- An edge or event of a source code reaches a site (R112). -/
def jumpEvent (code i : Nat) (s : State) : State := makePending i (jsrcOf (siteOf s i) code) code s

/-- `CMP_SITE_STATE.PEND`: alternate 1 in bit 0, alternate 2 in bit 1. -/
def pendBits (x : Site) : Nat := b2n x.req1.isSome + 2 * b2n x.req2.isSome

/-! ### Vector time -/

/-- The epoch of a site on REF in units of 2^-32 ns: the REF tick that began it and the delay after it (R50, R53). -/
def epochAt (s : State) (i : Nat) : Nat :=
  let st := tabGet ⟨0, 0, 0⟩ s.tim.starts i
  st.tick * 0xA00000000 + st.delay

/-- The bank of a site's lead quad. -/
def leadBank (s : State) (i : Nat) : Nat := leadQuad (siteOf s i).mask / 4

/-- A timing set of a bank. -/
def timingSet (s : State) (b ts : Nat) : TimingSet := tabGet setReset (bankOf s b).tsets ts

/-- The site follows: its lead quad lies in a follow-mode bank (R248). -/
def siteFollows (s : State) (i : Nat) : Bool := rdb s (.bnk (leadBank s i)) F.BNK_FOLLOW_EN

/-- The timing set of the vector or idle item now presented on a bank's first quad; its idle set outside every site (R122, R247). -/
def currentTs (s : State) (b : Nat) : Nat :=
  match (siteOfQuad s (4 * b)).bind fun i => (siteOf s i).cur with
  | some c => bits c.pres.word 13 8
  | none => rd s (.bnk b) (F.FUR_CTRL_IDLE_TS 0)

/-- P_f of a bank in follow mode (R247): until the loop has measured or held one, the period of the set of the current vector. -/
def followPeriod (s : State) (b : Nat) : Nat :=
  if (bankOf s b).follow.seen then rd s (.bnk b) F.BNK_FOLLOW_PER else (timingSet s b (currentTs s b)).period

/-- The loop's sequence after every start up to a time, as the next start and its number modulo DIV: the starts follow each other by the period (R248). -/
def sequenceAt (period div : Nat) (org : Nat × Nat) (t : Nat) : Nat × Nat :=
  if t < org.1 then org
  else
    let m := (t - org.1) / max 1 period + 1
    (org.1 + m * period, (org.2 + m) % max 1 div)

/-- The delay from an instant on REF to the first start, at it or after it, of a vector whose number is a multiple of DIV in the loop's sequence (R248); none of a
loop without a sequence, which begins one there. -/
def followDelay (s : State) (b t : Nat) : Nat :=
  match (bankOf s b).follow.org with
  | none => 0
  | some o =>
    let period := followPeriod s b
    let div := rd s (.bnk b) F.BNK_FOLLOW_DIV
    let first := o.1 + (div - o.2 % max 1 div) % max 1 div * period
    let cycle := max 1 (div * period)
    if t ≤ first then (first - t) % cycle else (cycle - (t - first) % cycle) % cycle

/-- The period of a vector of a site that uses timing set ts (R239, R247, R248): the lead bank's set, or the followed period, which before
the first followed edge is the set's. -/
def vectorPeriod (s : State) (i ts : Nat) : Nat :=
  let b := leadBank s i
  if siteFollows s i && (bankOf s b).follow.seen then rd s (.bnk b) F.BNK_FOLLOW_PER else (timingSet s b ts).period

/-- The start and the length of a vector of a site in vector time, in 2^-32 ns: the present vector, as long as its period, or one of the latest (R239, R242). -/
def vnSpan (s : State) (i vn : Nat) : Option (Nat × Nat) :=
  let past := (siteOf s i).hist.lookup vn
  match (siteOf s i).cur with
  | some c => if c.vn = vn && c.cls != .idle then some (c.start, c.period) else past
  | none => past

/-- The start of a vector of a site in vector time, in 2^-32 ns (R239). -/
def vnStart (s : State) (i vn : Nat) : Nat := ((vnSpan s i vn).map (·.1)).getD 0

/-- The vector number now presented (R285): of the present vector, or of the last one during idle items. DESIGN CHOICE (log 109): before the epoch, when none is presented, the number
that `SITE_VCOUNT` holds. -/
def currentVn (s : State) (i : Nat) : Nat := rd s (.timPart (sitePart s i)) (F.SITE_VCOUNT i)

end Sys2Proof.Machine
end

