-- ==== Sys2Proof/Machine/Acquire.lean ====
section
/-! DEFINITION. Triggers and acquisition (chapter 10): cistern, trigger unit, records, mask tests and segment trigger outputs. -/

namespace Sys2Proof.Machine

open Sys2Proof

/-! ### Trigger outputs (R302) -/

/-- The level of a TRIGOUT output: active while asserted, by POL active high or active low (R302). -/
def trigLevel (s : State) (t : Nat) (on : Bool) : Bool := on != rdb s (.acqTo t) F.ACQ_TO_CTRL_POL

/-- A TRIGOUT output is asserted, in mode 1 at an instant; an event while it is asserted restarts WIDTH and counts `TO_MERGED` (R302). -/
def trigOutFire (t : Nat) (time : Option Nat) (s : State) : State :=
  let s := if tabGet false s.pin.trigOut t then incSat s (.acqTo t) F.TO_MERGED else s
  emit { s with pin := { s.pin with trigOut := tabPut false s.pin.trigOut t true } } (.trigOut t (trigLevel s t true) time)

/-- The outputs that show segment starts of a site fire at the start of the vector plus DELAY (R302, mode 1). -/
def trigOutSegment (i start : Nat) (s : State) : State :=
  forS (List.range 4) (fun t s =>
    if rd s (.acqTo t) F.ACQ_TO_CTRL_MODE = 1 && rd s (.acqTo t) F.ACQ_TO_CTRL_SITE = i then
      trigOutFire t (some (start / 65536 + rd s (.acqTo t) F.ACQ_TO_DELAY)) s
    else s) s

/-- The outputs that show triggers of a bank's channel fire (R302, mode 2). -/
def trigOutTrigger (b : Nat) (s : State) : State :=
  forS (List.range 4) (fun t s =>
    if rd s (.acqTo t) F.ACQ_TO_CTRL_MODE = 2 && rd s (.acqTo t) F.ACQ_TO_CTRL_BANK = b then trigOutFire t none s else s) s

/-- WIDTH of an asserted output ends (R302). -/
def trigOutEnd (t : Nat) (s : State) : State :=
  if tabGet false s.pin.trigOut t then
    emit { s with pin := { s.pin with trigOut := tabPut false s.pin.trigOut t false } } (.trigOut t (trigLevel s t false) none)
  else s

/-! ### The channel -/

/-- The acquisition channel of a bank. -/
def acqOf (s : State) (b : Nat) : AcqChan := (bankOf s b).acq

/-- Store a channel; `ACQ_C_STAT.BACKLOG` and LOG2D follow it (R297). -/
def setAcq (s : State) (b : Nat) (x : AcqChan) : State :=
  let s := setBank s b { bankOf s b with acq := x }
  wrs s (.bnk b) [(F.ACQ_C_STAT_BACKLOG, x.words.length), (F.ACQ_C_STAT_LOG2D, (x.record.map (·.log2d)).getD 0)]

/-- The state of a channel (Table 10-3). -/
def acqState (s : State) (b : Nat) : Nat := rd s (.bnk b) F.ACQ_C_STAT_STATE

/-- Write the state of a channel. -/
def setAcqState (s : State) (b v : Nat) : State := wr s (.bnk b) F.ACQ_C_STAT_STATE v

/-- The cistern holds 131,072 words. -/
def cisternSize : Nat := 131072

/-- The quota of a record in data words (R294). -/
def slotWords (slot : Nat) : Nat := (2 ^ slot - 1088) / 4

/-- A slot is free for the next record (R296). -/
def slotFree (s : State) (b : Nat) : Bool :=
  let c := (acqOf s b).cfg
  !c.lmode || decide (rd s (.bnk b) F.ACQ_C_WCNT - rd s (.bnk b) F.ACQ_C_RCNT < 2 ^ c.nslot)

/-- Entry into ARMED clears the history (R289); FULL is entered in its place when no slot is free (R296). -/
def enterArmed (b : Nat) (s : State) : State :=
  let s := setAcq s b { acqOf s b with words := [], record := none, since := aonNow s }
  setAcqState s b (if slotFree s b then 1 else 6)

/-- The record stops storing: the writer drains what is left (R292). -/
def endRecord (b : Nat) (s : State) : State := setAcqState s b 3

/-- The factor that falls due by the backlog (R298), as log2: twice or half the present one, with 1,024 words kept since the last change; with 63 log entries in use, 256 for
the rest of the record. -/
def factorDue (x : AcqChan) (r : AcqRec) : Option Nat :=
  let up := decide (98304 ≤ x.words.length) && decide (r.log2d < 8)
  let down := decide (x.words.length ≤ 32768) && decide (0 < r.log2d)
  if (up || down) && decide (1024 ≤ r.kept - r.keptAtChange) && !r.frozen then
    some (if 63 ≤ r.logs.length then 8 else if up then r.log2d + 1 else r.log2d - 1)
  else none

/-- What a backlog does to a record being taken (R298): at 131,072 words it overruns and ends; a change of factor that falls due waits for the next vector. -/
def backlogCheck (b : Nat) (s : State) : State :=
  let x := acqOf s b
  match x.record with
  | some r =>
    if acqState s b ≠ 2 then s
    else if cisternSize ≤ x.words.length then
      endRecord b (raiseInt (fltEvent (setAcq s b { x with record := some { r with overrun := true } }) (.bnk b) 29) (.bnk b) 29)
    else if r.next.isNone then setAcq s b { x with record := some { r with next := factorDue x r } }
    else s
  | none => s

/-- What tells a CORE cycle from a later one where no cycle is known: the vector number that the site presents next, and the tick counts of the time bases. -/
def cycleMark (s : State) (i : Nat) : List Nat := (siteOf s i).nextVn :: (List.range 5).map (tabGet 0 s.tim.ticks)

/-- The record that a trigger of those present in a cycle makes of the history (R291): PRE_ACT vectors before TVN and those from TVN on that it covers, with its words. DESIGN
CHOICE (log 109): PRE_ACT counts the words that the cistern still holds. -/
def newRecord (s : State) (b : Nat) (t : Nat × Nat) (present past : List (Nat × Nat)) (cycle : Option Nat) : AcqRec × List (Nat × Nat) :=
  let c := (acqOf s b).cfg
  let before := (past.filter fun w => decide (w.1 < t.1)).length
  let pre := min c.pre before
  let ws := (past.filter fun w => decide (w.1 < t.1 + c.post)).drop (before - pre)
  ({ tvn := t.1, src := t.2, tvTime := vnStart s c.site t.1 / 65536, preAct := pre, firstVn := (ws.head?.map (·.1)).getD t.1,
     kept := ws.length, drained := 0, post := ws.length - pre, changeVn := t.1, keptAtChange := pre, log2d := 0, next := none, logs := [],
     logged := none, frozen := false, stopped := false, overrun := false, ended := false,
     present := present, past := past, cycle := cycle, mark := cycleMark s c.site }, ws)

/-- The record of a trigger takes its place in the channel (R291, R292): it ends at once where the site has already presented the last vector it covers. -/
def placeRecord (b : Nat) (t : Nat × Nat) (present past : List (Nat × Nat)) (cycle : Option Nat) (s : State) : State :=
  let r := newRecord s b t present past cycle
  let c := (acqOf s b).cfg
  let s := setAcqState (wr (setAcq s b { acqOf s b with words := r.2, record := some r.1 }) (.bnk b) F.ACQ_C_LASTTVN t.1) b 2
  if t.1 + c.post ≤ (siteOf s c.site).nextVn then endRecord b s else backlogCheck b s

/-- A trigger is taken (R291): its record begins, and it is a jump source of the site (Table 4-3, code 9). -/
def startRecord (b : Nat) (t : Nat × Nat) (present : List (Nat × Nat)) (cycle : Option Nat) (s : State) : State :=
  let i := (acqOf s b).cfg.site
  jumpEvent 9 i (trigOutTrigger b (raiseInt (placeRecord b t present (acqOf s b).words cycle s) (.bnk b) 31))

/-- Two triggers fall in one CORE cycle: in the same judging cycle, or where one of them carries none, with no tick of a time base and no vector begun between them (DESIGN CHOICE,
log 109). -/
def sameCycle (r : AcqRec) (cycle : Option Nat) (mark : List Nat) : Bool :=
  match r.cycle, cycle with
  | some a, some b => a == b
  | _, _ => r.mark == mark

/-- The record of a channel that a trigger of this cycle joins (R286): the one begun in it, while nothing of it is written and no factor has changed. -/
def joins (s : State) (b : Nat) (cycle : Option Nat) : Option AcqRec :=
  (acqOf s b).record.filter fun r =>
    (acqState s b == 2 || acqState s b == 3) && sameCycle r cycle (cycleMark s (acqOf s b).cfg.site) && r.drained == 0 && r.logged.isNone && r.logs.isEmpty

/-- The words that the cistern has got for a channel up to now, of which its record keeps some. -/
def heldWords (s : State) (b : Nat) (r : AcqRec) : List (Nat × Nat) :=
  r.past ++ (acqOf s b).words.filter fun w => r.past.all fun v => decide (v.1 < w.1)

/-- Triggers present in a CORE cycle, as (bank, TVN, source), that the channel of a bank has enabled; AUTO always (R285, R286). -/
def enabledAt (s : State) (l : List (Nat × Nat × Nat)) (b : Nat) : List (Nat × Nat) :=
  (l.filter fun t => t.1 == b && ((acqOf s b).cfg.srcEn.testBit t.2.2 || t.2.2 == 15)).map (·.2)

/-- All the triggers of the present cycle at the channel of a bank: of one whose record has begun in it, those that came first too. -/
def presentAt (s : State) (l : List (Nat × Nat × Nat)) (cycle : Option Nat) (b : Nat) : List (Nat × Nat) :=
  ((joins s b cycle).map (·.present)).getD [] ++ enabledAt s l b

/-- Of triggers as (TVN, source), the one taken: a real one before AUTO, then the lowest TVN, then the lowest code (R286). -/
def bestTrigger : List (Nat × Nat) → Option (Nat × Nat)
  | [] => none
  | t :: l =>
    match bestTrigger l with
    | none => some t
    | some u =>
      if t.2 = 15 then some u else if u.2 = 15 then some t
      else if t.1 < u.1 || (t.1 = u.1 && t.2 ≤ u.2) then some t else some u

/-- The trigger that a channel takes of those present: an ARMED one, or one whose record has begun in this cycle. -/
def takenAt (s : State) (l : List (Nat × Nat × Nat)) (cycle : Option Nat) (b : Nat) : Option (Nat × Nat) :=
  if acqState s b = 1 || (joins s b cycle).isSome then bestTrigger (presentAt s l cycle b) else none

/-- The LINK triggers that the channels which take one give to those linked to them (Table 10-1, source 9). -/
def linkTriggers (s : State) (l : List (Nat × Nat × Nat)) (cycle : Option Nat) : List (Nat × Nat × Nat) :=
  (List.range 16).filterMap fun b =>
    let c := (acqOf s b).cfg
    if c.srcEn.testBit 9 && c.linkBank ≠ b then (takenAt s l cycle c.linkBank).map fun t => (b, t.1, 9) else none

/-- All triggers of a cycle: those given, and LINK triggers along every chain of links, of which 16 banks have none longer than 16. -/
def withLinks (s : State) (l : List (Nat × Nat × Nat)) (cycle : Option Nat) : Nat → List (Nat × Nat × Nat)
  | 0 => l
  | n + 1 => l ++ linkTriggers s (withLinks s l cycle n) cycle

/-- The triggers present in one CORE cycle reach every channel (R285, R286): an ARMED one takes the best; one whose record has begun in this cycle takes the best of all, over the
history that it had; in another state but IDLE each is missed. `cycle` is the judging cycle of a FAIL. -/
def acqCycle (cycle : Option Nat) (l : List (Nat × Nat × Nat)) (c : State) : State :=
  if l.isEmpty then c else
  let l := withLinks c l cycle 16
  forS (List.range 16) (fun b s =>
    let e := enabledAt c l b
    match joins c b cycle, takenAt c l cycle b with
    | some r, some t => if e.all r.present.contains then s else placeRecord b t (r.present ++ e).eraseDups (heldWords c b r) r.cycle s
    | none, some t => startRecord b t e.eraseDups cycle s
    | _, none =>
      if e.isEmpty || acqState c b = 0 then s
      else addSat (setAcq s b { acqOf s b with missed := min ((acqOf s b).missed + e.length) 0xFFFFFFFF }) (.bnk b) F.TRIG_MISSED e.length) c

/-- A trigger of one source at the channel of a bank, where the channel serves the site. -/
def acqTrigger (i b src tvn : Nat) (s : State) : State :=
  if (acqOf s b).cfg.site = i then acqCycle none [(b, tvn, src)] s else s

/-- The FAIL trigger of a CORE cycle at the channel of a bank: the pins that fail in one cycle present it once, for the earliest vector in which one fails (R285, R286). -/
def acqFail (i b tvn cycle : Nat) (s : State) : State :=
  let x := acqOf s b
  if x.cfg.site = i && (x.failAt ≠ some cycle || (joins s b (some cycle)).isSome) then
    acqCycle (some cycle) [(b, tvn, 1)] (setAcq s b { x with failAt := some cycle })
  else s

/-- The change of factor that was due applies from a vector, which becomes the change point (R298): a log entry is made, the 64th of them frozen. -/
def decimate (r : AcqRec) (vn : Nat) : AcqRec :=
  match r.next with
  | none => r
  | some d =>
    let frozen := decide (63 ≤ r.logs.length)
    { r with log2d := d, next := none, changeVn := vn, keptAtChange := r.kept, frozen := frozen, logs := r.logs ++ [⟨vn, r.kept, d, frozen⟩] }

/-- A vector of the channel's site is presented: the cistern stores its data word (R283, R289, R298). -/
def acqStore (b vn word : Nat) (s : State) : State :=
  let x := acqOf s b
  if acqState s b = 1 then
    let ws := x.words ++ [(vn, word)]
    setAcq s b { x with words := ws.drop (ws.length - cisternSize) }
  else if acqState s b = 2 then
    match x.record with
    | none => s
    | some r =>
      let s := if r.next.isSome then incSat s (.bnk b) F.DECIM_CHANGES else s
      let r := decimate r vn
      let keep := (vn - r.changeVn) % 2 ^ r.log2d = 0
      let r' := { r with firstVn := if r.kept = 0 then vn else r.firstVn, kept := if keep then r.kept + 1 else r.kept, post := r.post + 1 }
      let s := backlogCheck b (setAcq s b { x with words := if keep then x.words ++ [(vn, word)] else x.words, record := some r' })
      if r'.tvn + x.cfg.post ≤ vn + 1 then endRecord b s else s
  else s

/-- A pin's level of a vector comes in: it replaces 0b11 in the word stored for the vector (R284). -/
def acqLevel (b slot vn level : Nat) (s : State) : State :=
  let x := acqOf s b
  setAcq s b { x with words := x.words.map fun w =>
    if w.1 = vn then (w.1, w.2 - (3 <<< (2 * slot)) + (level <<< (2 * slot))) else w }

/-- The site of the channels leaves PRIMING or RUNNING (R290, R292). -/
def acqSiteStop (i : Nat) (s : State) : State :=
  forS (List.range 16) (fun b s =>
    if (acqOf s b).cfg.site = i then
      match acqState s b with
      | 1 => setAcqState s b 0 | 4 => setAcqState s b 0 | 6 => setAcqState s b 0
      | 2 => endRecord b (setAcq s b { acqOf s b with record := (acqOf s b).record.map fun r => { r with stopped := true, ended := true } })
      | 3 => setAcq s b { acqOf s b with record := (acqOf s b).record.map fun r => { r with ended := true } }
      | _ => s
    else s) s

/-- The epoch clears the first mask violation and the violation counts of the site's banks (R300, Table 10-8), and AUTO counts from it (R287). DESIGN CHOICE (log 109): of a bank
that two sites share, the epoch of either clears the first violation. -/
def acqEpoch (i : Nat) (s : State) : State :=
  forS (banksOf (siteOf s i).mask) (fun b s =>
    let s := wrs s (.bnk b) [(F.ACQ_C_MFIRST_VN, 0), (F.ACQ_C_MFIRST_PIN, 0), (F.ACQ_C_MFIRST_VALID, 0), (F.ACQ_C_MFIRST_STOPPED, 0)]
    let s := if (acqOf s b).cfg.site = i then setAcq s b { acqOf s b with since := aonNow s, failAt := none } else s
    forS (List.range 16) (fun j s =>
      if (siteOf s i).mask.testBit (4 * b + j / 4) then
        setConv (wr s (.bnk b) (F.BNK_MASK_VIOL j) 0) (16 * b + j) { convOf s (16 * b + j) with edges := [], found := [] }
      else s) s) s

/-! ### Arming (R288, R289) -/

/-- What an arm samples: the fields of the control word and the other channel registers. -/
def acqSample (s : State) (b word : Nat) : AcqCfg :=
  let p := Page.bnk b
  { site := bits word 13 8, cont := word.testBit 3, auto := word.testBit 4, wrapPost := word.testBit 5, lmode := word.testBit 6,
    maskStop := word.testBit 7, srcEn := rd s p F.ACQ_C_TRIG_SRC_EN, anyLabel := rdb s p F.ACQ_C_TRIG_ANY_LABEL,
    linkBank := rd s p F.ACQ_C_TRIG_LINK_BANK, label := rd s p F.ACQ_C_TRIG_LABEL, pre := rd s p F.ACQ_C_PRE, post := rd s p F.ACQ_C_POST,
    tvn := rd s p F.ACQ_C_TVN, autoUs := rd s p F.ACQ_C_AUTO, area := rd s p F.ACQ_C_AREA_HI * 2 ^ 32 + rd s p F.ACQ_C_AREA_LO * 2 ^ 12,
    slot := rd s p F.ACQ_C_SLOT_SLOT, nslot := rd s p F.ACQ_C_SLOT_NSLOT }

/-- The settings that ARM_CFG refuses (Table 10-2). -/
def armCfgBad (s : State) (b : Nat) (c : AcqCfg) : Bool :=
  let link := c.srcEn.testBit 9
  decide (cisternSize < c.pre) || c.post == 0 || (c.auto && c.autoUs == 0) || c.srcEn == 0 ||
  (link && (c.linkBank == b || (siteOf s c.site).mask >>> (4 * c.linkBank) % 16 == 0)) ||
  decide (c.slot < 12) || decide (30 < c.slot) || decide (8 < c.nslot) || decide (32 < c.slot + c.nslot) ||
  decide (c.area % 2 ^ (c.slot + c.nslot) ≠ 0) || !inQuota s (bankOwner s b) c.area (2 ^ (c.slot + c.nslot))

/-- The code of an arm (Table 10-2), the first that applies in the table's order. -/
def armCode (s : State) (b : Nat) (c : AcqCfg) : Nat :=
  if !c.wrapPost && decide (slotWords c.slot - c.pre < c.post) then 1
  else if armCfgBad s b c then 2
  else if (siteOf s c.site).owner ≠ some (bankOwner s b) || (siteOf s c.site).mask >>> (4 * b) % 16 = 0 then 3
  else if acqState s b ≠ 0 && acqState s b ≠ 5 then 4
  else 0

/-- The stored fields of `ACQ_C_CTRL` take the written values. -/
def acqCtrlStore (b word : Nat) (s : State) : State :=
  wrs s (.bnk b) [(F.ACQ_C_CTRL_CONT, bits word 3 3), (F.ACQ_C_CTRL_AUTO, bits word 4 4), (F.ACQ_C_CTRL_WRAP_POST, bits word 5 5),
    (F.ACQ_C_CTRL_LMODE, bits word 6 6), (F.ACQ_C_CTRL_MASK_STOP, bits word 7 7), (F.ACQ_C_CTRL_SITE, bits word 13 8)]

/-- Arming (R288): a refused arm changes `ACQ_C_ERR` only and counts ACQ_CFG. An arm from IDLE clears the record counts. -/
def armChannel (b word : Nat) (s : State) : State :=
  let c := acqSample s b word
  let code := armCode s b c
  let s := wr s (.bnk b) F.ACQ_C_ERR code
  if code ≠ 0 then fltEvent s (.bnk b) 28
  else
    let idle := acqState s b = 0
    let s := acqCtrlStore b word s
    let s := if idle then wrs s (.bnk b) [(F.ACQ_C_WCNT, 0), (F.ACQ_C_RCNT, 0)] else s
    enterArmed b (setAcq s b { acqOf s b with cfg := c, recNo := if idle then 0 else (acqOf s b).recNo })

/-- ACQ_ARM (R288). -/
def execAcqArm (m b word : Nat) (s : State) : Host.Outcome State Fault Refusal := .next (takeIn m (.acqArm m b word) false (fun s => asWriter s m (.bnk b) 0x5000 false (armChannel b word)) s)

/-- DISARM (R289): to IDLE from any state; a record in progress is abandoned. -/
def disarmChannel (b : Nat) (s : State) : State :=
  setAcqState (setAcq s b { acqOf s b with words := [], record := none }) b 0

/-- ACQ_DISARM (R289). -/
def execAcqDisarm (m b word : Nat) (s : State) : Host.Outcome State Fault Refusal :=
  .next (takeIn m (.acqDisarm m b word) false (fun s => asWriter s m (.bnk b) 0x5000 false fun s => disarmChannel b (acqCtrlStore b word s)) s)

/-- ACQ_FORCE (R285): the HOST trigger at the current vector. -/
def execAcqForce (m b word : Nat) (s : State) : Host.Outcome State Fault Refusal :=
  .next (takeIn m (.acqForce m b word) false (fun s => asWriter s m (.bnk b) 0x5000 false fun s =>
    let s := acqCtrlStore b word s
    let i := (acqOf s b).cfg.site
    acqTrigger i b 0 (currentVn s i) s) s)

/-- AUTO is due (R287): the site runs, and `ACQ_C_AUTO` µs have passed on AON since the channel entered ARMED, or since the epoch where that was later. -/
def autoTrigDue (s : State) (b : Nat) : Bool :=
  let x := acqOf s b
  acqState s b == 1 && x.cfg.auto && siteState s x.cfg.site == 3 && decide (x.since + 100 * x.cfg.autoUs ≤ aonNow s)

/-- ACQ_AUTO_TRIGGER (R287). -/
def execAcqAutoTrigger (b : Nat) (s : State) : Host.Outcome State Fault Refusal :=
  .next (if autoTrigDue s b then
    let i := (acqOf s b).cfg.site
    acqTrigger i b 15 (currentVn s i) s
  else s)

/-! ### The record (R293–R296) -/

/-- The address of a record's slot (R294). -/
def slotAddr (x : AcqChan) : Nat := x.cfg.area + 2 ^ x.cfg.slot * (x.recNo % 2 ^ x.cfg.nslot)

/-- The vector number of word i of the kept sequence, as the decimation log gives it (Table 10-7). -/
def wordVn (r : AcqRec) (i : Nat) : Nat :=
  match (r.logs.filter fun l => decide (l.word ≤ i)).getLast? with
  | none => r.firstVn + i
  | some l => l.vn + (i - l.word) * 2 ^ l.log2d

/-- The bytes of a log entry as one number (Table 10-7). -/
def decWord (d : DecLog) : Nat := d.vn + d.word * 2 ^ 64 + (d.log2d + 16 * b2n d.frozen) * 2 ^ 96

/-- The writer brings the decimation log in the slot up to date (R293, Table 10-4): 64 entries of zeros at first, then each entry made. -/
def drainLogs (b : Nat) (s : State) : State :=
  let x := acqOf s b
  match x.record with
  | none => s
  | some r =>
    let part := bankOwner s b
    let addr := slotAddr x + 0x40
    let s := if r.logged.isNone then writeMem s part addr 1024 0 else s
    let new := (r.logs.zip (List.range 64)).drop (r.logged.getD 0)
    let s := forS new (fun e s => writeMem s part (addr + 16 * e.2) 16 (decWord e.1)) s
    setAcq s b { x with record := some { r with logged := some r.logs.length } }

/-- Every level of a vector has come in to the cistern of a bank: the vector has ended, and no strobe of it waits (R284). -/
def wordSettled (s : State) (b vn : Nat) : Bool :=
  let i := (acqOf s b).cfg.site
  ((siteOf s i).cur.all fun c => c.cls == .idle || c.vn != vn) &&
    (List.range 16).all fun j => (pinOf s (16 * b + j)).strobes.all fun t => t.site != i || t.vn != vn

/-- The oldest n words leave the cistern for the record's data area, in memory class 2 (R293, R295); a word whose levels have not all come in waits. -/
def drainWords (b : Nat) : Nat → State → State
  | 0, s => s
  | n + 1, s =>
    let x := acqOf s b
    match x.words, x.record with
    | w :: ws, some r =>
      if wordSettled s b w.1 then
        let q := slotWords x.cfg.slot
        let idx := if x.cfg.wrapPost then r.drained % max 1 q else r.drained
        let s := writeMem s (bankOwner s b) (slotAddr x + 0x440 + 4 * idx) 4 w.2
        drainWords b n (setAcq s b { x with words := ws, record := some { r with drained := r.drained + 1 } })
      else s
    | _, _ => s

/-- The writer of a channel holds backlog (R297). -/
def hasBacklog (s : State) (b : Nat) : Bool := (acqState s b == 2 || acqState s b == 3) && !(acqOf s b).words.isEmpty

/-- The write share of a partition (R297). -/
def writeShare (s : State) (n : Nat) : Nat :=
  rd s .acqDev ([F.ACQ_SHARE_0, F.ACQ_SHARE_1, F.ACQ_SHARE_2, F.ACQ_SHARE_3].getD n F.ACQ_SHARE_0)

/-- The writer whose turn it is in a partition (R297): the next with backlog in ascending bank order from the pointer. -/
def writerTurn (s : State) (n : Nat) : Option Nat :=
  let p := tabGet 0 s.pin.writerPtr n
  ((List.range 16).map fun k => (p + k) % 16).find? fun b => bankOwner s b == n && hasBacklog s b

/-- A turn of a bank's writer (R293, R297, R298): n words, as many as the share of its partition gave it; a share of 0 gives none. -/
def writerDrain (b n : Nat) (s : State) : State :=
  let part := bankOwner s b
  if memServes s 2 && writeShare s part != 0 && writerTurn s part = some b then
    let s := { s with pin := { s.pin with writerPtr := tabPut 0 s.pin.writerPtr part ((b + 1) % 16) } }
    backlogCheck b (drainWords b n (drainLogs b s))
  else s

/-- ACQ_WRITER_DRAIN (R293, R297). -/
def execAcqWriterDrain (b n : Nat) (s : State) : Host.Outcome State Fault Refusal := .next (writerDrain b n s)

/-- The slots of a site's quads in a bank: `PMASK` of Table 10-6. -/
def slotMask (mask b : Nat) : Nat :=
  (List.range 16).foldl (fun a j => if mask.testBit (4 * b + j / 4) then setBit a j else a) 0

/-- The 64 bytes of a record header as one number (Table 10-6). -/
def recordHeader (s : State) (b : Nat) (x : AcqChan) (r : AcqRec) : Nat :=
  let q := slotWords x.cfg.slot
  let wrapped := x.cfg.wrapPost && decide (q < r.kept)
  let first := if wrapped then wordVn r (r.kept - q) else r.firstVn
  let flags := 1 + 2 * b2n (decide (r.preAct < x.cfg.pre)) + 4 * b2n wrapped + 8 * b2n r.stopped + 16 * b2n r.overrun +
    32 * b2n (!r.logs.isEmpty) + 64 * b2n r.frozen
  r.tvn + first * 2 ^ 64 + r.preAct * 2 ^ 128 + r.post * 2 ^ 160 + min r.kept q * 2 ^ 192 +
    (if wrapped then r.kept % q else 0) * 2 ^ 224 + (r.src + 16 * b) * 2 ^ 256 + x.cfg.site * 2 ^ 264 + r.present.foldl (fun a u => a ||| (1 <<< u.2)) 0 * 2 ^ 272 +
    slotMask (siteOf s x.cfg.site).mask b * 2 ^ 288 + r.logs.length * 2 ^ 304 + flags * 2 ^ 312 + r.tvTime % 2 ^ 64 * 2 ^ 320 +
    x.recNo % 2 ^ 32 * 2 ^ 384 + x.missed * 2 ^ 416

/-- RECORD_DONE (R290, R293): all words are drained, log and header are written, `ACQ_C_WCNT` advances and RECORD_DONE is raised. -/
def execRecordDone (b : Nat) (s : State) : Host.Outcome State Fault Refusal :=
  .next (
    let x := acqOf s b
    match x.record with
    | none => s
    | some r =>
      if acqState s b = 3 && x.words.isEmpty && memServes s 2 then
        let part := bankOwner s b
        let s := drainLogs b s
        let s := writeMem s part (slotAddr x) 64 (recordHeader s b x r)
        let s := incWrap (addWrap s (.bnk b) F.ACQ_C_WCNT 1) (.bnk b) F.ACQ_RECORDS
        let s := setAcq s b { x with record := none, recNo := x.recNo + 1, missed := 0 }
        setAcqState (raiseInt s (.bnk b) 28) b (if x.cfg.cont && !r.ended then 4 else 5)
      else s)

/-- ACQ_REARM_END (R296). -/
def execAcqRearmEnd (b : Nat) (s : State) : Host.Outcome State Fault Refusal :=
  .next (if acqState s b = 4 then enterArmed b s else s)

/-- A write of `ACQ_C_RCNT` (R296): refused below its value or above WCNT; a FULL channel arms when a slot frees. -/
def acqRcntEffect (b v : Nat) (s : State) : State :=
  if v < rd s (.bnk b) F.ACQ_C_RCNT || rd s (.bnk b) F.ACQ_C_WCNT < v then fltEvent s (.bnk b) 28
  else
    let s := wr s (.bnk b) F.ACQ_C_RCNT v
    if acqState s b = 6 && slotFree s b then enterArmed b s else s

/-- ACQ_RCNT_WRITE (R296). -/
def execAcqRcntWrite (m b v : Nat) (s : State) : Host.Outcome State Fault Refusal := .next (takeIn m (.acqRcntWrite m b v) false (fun s => asWriter s m (.bnk b) F.ACQ_C_RCNT.off false (acqRcntEffect b v)) s)

/-! ### Mask tests (R299–R301) -/

/-- A write of one word of a pin's mask (R299): refused where the mask as it would then stand is not allowed. -/
def maskEffect (b j word idx : Nat) (s : State) : State :=
  let p := Page.bnk b
  let mode := if idx = 0 then bits word 1 0 else rd s p (F.BNK_MASK_MODE j)
  let edge := if idx = 0 then bits word 5 4 else rd s p (F.BNK_MASK_EDGE j)
  let mo := if idx = 1 then word else rd s p (F.BNK_MASK_MO j)
  let mc := if idx = 2 then word else rd s p (F.BNK_MASK_MC j)
  if mode = 3 || (mode ≠ 0 && edge = 0) || mc ≤ mo then fltEvent s p 28
  else wrs s p [(F.BNK_MASK_MODE j, mode), (F.BNK_MASK_EDGE j, edge), (F.BNK_MASK_MO j, mo), (F.BNK_MASK_MC j, mc)]

/-- MASK_WRITE (R299): `idx` 0 the MODE and EDGE word, 1 MO, 2 MC. -/
def execMaskWrite (m b j idx word : Nat) (s : State) : Host.Outcome State Fault Refusal :=
  .next (takeIn m (.maskWrite m b j idx word) false
    (fun s => asWriter s m (.bnk b) ((F.BNK_MASK_MODE j).off + 4 * idx) false (maskEffect b j word idx)) s)

/-- The number and the start in vector time of the earliest vector of a site whose start is still known. -/
def oldestVector (s : State) (i : Nat) : Nat × Nat :=
  match (siteOf s i).hist.getLast?, (siteOf s i).cur with
  | some h, _ => (h.1, h.2.1)
  | none, some c => (c.vn, c.start)
  | none, none => (0, 0)

/-- An accepted edge of a pin with a mask, at the vector time of its stamp, is kept while the vector that it belongs to is known (R300, R315). -/
def maskEdge (p i t : Nat) (rising : Bool) (s : State) : State :=
  if rd s (.bnk (p / 16)) (F.BNK_MASK_MODE (p % 16)) = 0 then s
  else setConv s p { convOf s p with edges := (t, rising) :: (convOf s p).edges.filter fun e => decide ((oldestVector s i).2 ≤ e.1) }

/-- The violations of a pin's mask in a vector by the edges accepted so far (R299, R300): each selected edge inside a keep-out window, or the absence of one inside a require
window that opens before the vector's end; the window ends with the vector. -/
def maskViolations (s : State) (b j vn : Nat) : Nat :=
  let p := Page.bnk b
  match siteOfQuad s (4 * b + j / 4) with
  | none => 0
  | some i =>
    match vnSpan s i vn with
    | none => 0
    | some (start, len) =>
      let mo := rd s p (F.BNK_MASK_MO j) * 65536
      let mc := min (rd s p (F.BNK_MASK_MC j) * 65536) len
      let hits := ((convOf s (16 * b + j)).edges.filter fun e =>
        (rd s p (F.BNK_MASK_EDGE j)).testBit (b2n (!e.2)) && decide (start + mo ≤ e.1) && decide (e.1 < start + mc)).length
      match rd s p (F.BNK_MASK_MODE j) with
      | 1 => hits
      | 2 => b2n (decide (mo < len) && hits == 0)
      | _ => 0

/-- The device detects a violation of a pin's mask in vector vn that has not been detected before (R300, R301). -/
def maskViolation (b j vn : Nat) (s : State) : State :=
  let x := convOf s (16 * b + j)
  match siteOfQuad s (4 * b + j / 4) with
  | none => s
  | some i =>
    let p := Page.bnk b
    if rdb s p (F.EDG_PIN_CFG_EN j) && x.found.count vn < maskViolations s b j vn then
      let s := setConv s (16 * b + j) { x with found := vn :: x.found.filter fun v => decide ((oldestVector s i).1 ≤ v) }
      let s := incSat s p (F.BNK_MASK_VIOL j)
      let s := if rdb s p F.ACQ_C_MFIRST_VALID then s
        else wrs s p [(F.ACQ_C_MFIRST_VN, vn), (F.ACQ_C_MFIRST_PIN, j), (F.ACQ_C_MFIRST_VALID, 1)]
      let s := raiseInt s p 30
      let s := jumpEvent 10 i (acqTrigger i b 8 vn s)
      if (acqOf s b).cfg.maskStop && acqState s b ≠ 0 && (acqOf s b).cfg.site = i && siteState s i = 3 then
        openStop i 5 (wrb s p F.ACQ_C_MFIRST_STOPPED true)
      else s
    else s

/-- MASK_VIOLATION (R300). -/
def execMaskViolation (b j vn : Nat) (s : State) : Host.Outcome State Fault Refusal := .next (maskViolation b j vn s)

/-! ### Trigger output registers (R302) -/

/-- A write of `ACQ_TO_OWNER`: a change of owner sets MODE to 0. -/
def toOwnerEffect (word : Nat) (s : State) : State :=
  let old := rd s .acqDev F.ACQ_TO_OWNER
  let s := wr s .acqDev F.ACQ_TO_OWNER word
  forS (List.range 4) (fun t s =>
    if (old >>> (2 * t)) % 4 = (word >>> (2 * t)) % 4 then s else reraise (wr s (.acqTo t) F.ACQ_TO_CTRL_MODE 0) (.acqTo t) (List.range 32)) s

/-- TRIGOUT_OWNER_WRITE (R302). -/
def execTrigoutOwnerWrite (m word : Nat) (s : State) : Host.Outcome State Fault Refusal :=
  .next (takeIn m (.trigoutOwnerWrite m word) false (fun s => asWriter s m .acqDev F.ACQ_TO_OWNER.off true (toOwnerEffect word)) s)

/-- TRIGOUT_WIDTH_END (R302). -/
def execTrigoutWidthEnd (t : Nat) (s : State) : Host.Outcome State Fault Refusal :=
  .next (trigOutEnd t s)

/-- A write of `ACQ_TO_CTRL` is refused (R302): MODE 3, or with a mode on a SITE or BANK not of the owning partition. DESIGN CHOICE (log 109): a write that turns the output off
is not refused for them. -/
def toCtrlBad (s : State) (t word : Nat) : Bool :=
  let n := pageOwner s (.acqTo t)
  let mode := bits word 1 0
  mode == 3 || (mode != 0 && ((siteOf s (bits word 13 8)).owner != some n || bankOwner s (bits word 19 16) != n))

/-- A TRIGIN edge reaches the trigger units of the sites' banks (R285): source 4 + n at the current vector. -/
def acqTrigin (n : Nat) (s : State) : State :=
  acqCycle none ((List.range 16).map fun b => (b, currentVn s (acqOf s b).cfg.site, 4 + n)) s

/-- TRIGIN_EDGE (Table 4-3, Table 10-1): a jump request source of every site and a trigger source of every channel. -/
def execTriginEdge (n : Nat) (s : State) : Host.Outcome State Fault Refusal :=
  .next (acqTrigin n (forS (List.range 64) (jumpEvent (1 + n)) s))

end Sys2Proof.Machine
end

