-- ==== Sys2Proof/Machine/Compare.lean ====
section
/-! DEFINITION. Compare and the fail ledger (chapter 9): judging strobes, fail records, the ledger queue, its ring and its limits. -/

namespace Sys2Proof.Machine

open Sys2Proof

/-! ### The ledger (R274–R280) -/

/-- The routes of a partition's sites. -/
def partRoutes (s : State) (n : Nat) : List Nat := (sitesOfPart s n).flatMap fun i => routesOf (siteOf s i).mask

/-- MODE (STOP) and SIZE that the ledger works by: those of its register, or after EN was cleared those that stood then (R274). -/
def ledgerCfgOf (s : State) (n : Nat) : Bool × Nat :=
  (ledgerOf s n).drainCfg.getD (rdb s (.cmpPart n) F.CMP_LED_CTRL_MODE, rd s (.cmpPart n) F.CMP_LED_CTRL_SIZE)

/-- The ledger's ring holds 2^SIZE entries. -/
def ledgerSize (s : State) (n : Nat) : Nat := 2 ^ (ledgerCfgOf s n).2

/-- The ledger is full (R278): STOP mode, and every place holds an entry not yet consumed. -/
def ledgerFull (s : State) (n : Nat) : Bool :=
  (ledgerCfgOf s n).1 &&
    decide (ledgerSize s n ≤ (ledgerOf s n).icnt - rd s (.cmpPart n) F.CMP_LED_RCNT)

/-- `CMP_LED_STAT` shows the queue, fullness, summary mode and a pending loss marker (Table 9-7). -/
def ledgerStat (n : Nat) (s : State) : State :=
  let x := ledgerOf s n
  wrs s (.cmpPart n) [(F.CMP_LED_STAT_QLEVEL, x.queue.length), (F.CMP_LED_STAT_FULL, b2n (ledgerFull s n)),
    (F.CMP_LED_STAT_SUMMARY, b2n ((partRoutes s n).any fun r => (routeOf s r).summaryMode)), (F.CMP_LED_STAT_LOSS_PEND, b2n x.loss.isSome)]

/-- One list of numbers stands before another: at the first place where they differ it holds the lower. -/
def keyBefore : List Nat → List Nat → Bool
  | a :: l, b :: m => decide (a < b) || (a == b && keyBefore l m)
  | _, _ => false

/-- The place of an entry in the order of R276: its judging cycle, within one cycle its site and bank, of one route its vector, and its quad. -/
def ledgerKey (e : LedEntry) : List Nat := [e.cycle, e.site, e.bank, e.vn, e.quad]

/-- An entry stands before another in the order of R276. -/
def ledgerBefore (e f : LedEntry) : Bool := keyBefore (ledgerKey e) (ledgerKey f)

/-- The queue with an entry at its place (R276): behind all that do not come after it. -/
def ledgerInsert (e : LedEntry) : List LedEntry → List LedEntry
  | [] => [e]
  | f :: q => if (f :: q).all (ledgerBefore e) then e :: f :: q else f :: ledgerInsert e q

/-- An entry joins the ledger queue (R276). -/
def ledgerPush (n : Nat) (e : LedEntry) (s : State) : State :=
  let x := ledgerOf s n
  ledgerStat n (setLedger s n { x with queue := ledgerInsert e x.queue })

/-- The judging cycle of the entry queued last: what is queued at no judging of its own comes behind it. -/
def queueCycle (s : State) (n : Nat) : Nat := ((ledgerOf s n).queue.getLast?.map (·.cycle)).getD 0

/-- An open summary closes and is queued, in the cycle in which it closes (R276, R279). DESIGN CHOICE (log 109): it is queued with EN = 0 too. -/
def closeSummary (n i r cycle : Nat) (s : State) : State :=
  let x := routeOf s r
  match x.summary with
  | none => s
  | some u => ledgerPush n ⟨max u.cycle cycle, u.vn, u.mask, r / 4, 0, 1, i, u.count⟩ (setRoute s r { x with summary := none })

/-- With 128 entries or fewer in the queue, routes leave summary mode, and an open summary closes (R279). -/
def leaveSummaries (n : Nat) (s : State) : State :=
  if (ledgerOf s n).queue.length ≤ 128 then
    forS (sitesOfPart s n) (fun i s => forS (routesOf (siteOf s i).mask) (fun r s =>
      if (routeOf s r).summaryMode then closeSummary n i r (queueCycle s n) (setRoute s r { routeOf s r with summaryMode := false }) else s) s) s
  else s

/-- A failing vector extends the route's open summary or opens one (R279); it closes at 1,048,576 vectors. -/
def extendSummary (n i r cycle vn mask : Nat) (s : State) : State :=
  let x := routeOf s r
  let u := match x.summary with
    | none => ⟨cycle, vn, 1, mask⟩
    | some u => { u with cycle := cycle, count := u.count + 1, mask := u.mask ||| mask }
  let s := setRoute s r { x with summary := some u }
  if u.count = 1048576 then closeSummary n i r cycle s else s

/-- The bits of a quad-in-bank in a route word. -/
def quadByte (w b : Nat) : Nat := bits w (8 * b + 7) (8 * b)

/-- The fail entries of a route for a vector, one for each failing quad in ascending order (R268, R519); at 448 entries the route enters
summary mode (R279). -/
def queueFails (n i r : Nat) (a : FailAcc) : List Nat → State → State
  | [], s => s
  | q :: l, s =>
    if (routeOf s r).summaryMode then s
    else if 448 ≤ (ledgerOf s n).queue.length then
      let s := setRoute s r { routeOf s r with summaryMode := true }
      let s := raiseInt (incSat s (.cmpPart n) F.LED_SUMMARIES) (.cmpPart n) 11
      ledgerStat n (extendSummary n i r a.cycle a.vn a.mask s)
    else
      let data := quadByte a.exp q + quadByte a.rcv q * 2 ^ 8 + a.ps * 2 ^ 16 + a.ts * 2 ^ 19
      queueFails n i r a l (ledgerPush n ⟨a.cycle, a.vn, a.mask, r / 4, q, 0, i, data⟩ s)

/-- Every strobe of a route in an ordinary vector is judged: fails are queued or summarised; a vector without a fail closes the open
summary (R279, R519). -/
def routeJudged (i r : Nat) (a : FailAcc) (s : State) : State :=
  let n := sitePart s i
  if a.mask = 0 then closeSummary n i r a.cycle s
  else if !rdb s (.cmpPart n) F.CMP_LED_CTRL_EN then s
  else if (routeOf s r).summaryMode then extendSummary n i r a.cycle a.vn a.mask s
  else queueFails n i r a ((List.range 4).filter fun q => decide (bits a.mask (4 * q + 3) (4 * q) ≠ 0)) s

/-- The credit after some CORE cycles, in units of 1/1500 entry: it refills at `CMP_LED_RATE` units of an entry per µs up to the rate (R279). -/
def refill (s : State) (n cycles : Nat) : Nat :=
  min (rd s (.cmpPart n) F.CMP_LED_RATE * 1500) ((ledgerOf s n).credit + rd s (.cmpPart n) F.CMP_LED_RATE * cycles)

/-- The base address of the ledger. -/
def ledgerBase (s : State) (n : Nat) : Nat := rd s (.cmpPart n) F.CMP_LED_BASE_HI * 2 ^ 32 + rd s (.cmpPart n) F.CMP_LED_BASE_LO * 2 ^ 12

/-- The 16 bytes of a ledger entry as one number (Table 9-3). -/
def ledgerWord (e : LedEntry) : Nat :=
  e.vn + e.pmask * 2 ^ 64 + (e.bank + e.quad * 16 + e.kind * 64) * 2 ^ 80 + e.site * 2 ^ 88 + e.data * 2 ^ 96

/-- An entry goes to the ring (R275): ICNT advances and its write is issued; LED_FULL is raised when the ledger becomes full (R280). -/
def ledgerIssue (n : Nat) (e : LedEntry) (s : State) : State :=
  let x := ledgerOf s n
  let s := writeMem s n (ledgerBase s n + 16 * (x.icnt % ledgerSize s n)) 16 (ledgerWord e)
  let s := setLedger s n { x with icnt := x.icnt + 1, unacked := x.unacked + 1 }
  if ledgerFull s n then raiseInt s (.cmpPart n) 9 else s

/-- An entry that leaves the queue while the ledger is full is added to the loss marker (R278). -/
def ledgerLose (n : Nat) (e : LedEntry) (s : State) : State :=
  let x := ledgerOf s n
  let s := incSat s (.cmpPart n) F.LED_LOST
  match x.loss with
  | none => raiseInt (setLedger s n { x with loss := some { e with pmask := e.pmask, quad := 0, kind := 2, data := 1 } }) (.cmpPart n) 10
  | some m => setLedger s n { x with loss := some { m with pmask := m.pmask ||| e.pmask, data := min (m.data + 1) 0xFFFFFFFF } }

/-- One turn of the drain after some CORE cycles, at least one (R274, R278, R279): a pending loss marker goes first once a place is free; an entry leaves the
queue where the credit holds one. After EN was cleared the drain of a full ring waits for a place. -/
def ledgerDrain (n cycles : Nat) (s : State) : State :=
  if cycles = 0 then s
  else
    let s := setLedger s n { ledgerOf s n with credit := refill s n cycles }
    let x := ledgerOf s n
    let full := ledgerFull s n
    match x.loss with
    | some m =>
      if !full then ledgerStat n (ledgerIssue n m (setLedger s n { x with loss := none }))
      else match x.queue with
        | [] => ledgerStat n s
        | e :: q =>
          if x.credit < 1500 || x.drainCfg.isSome then s
          else ledgerStat n (leaveSummaries n (ledgerLose n e (setLedger s n { x with queue := q, credit := x.credit - 1500 })))
    | none =>
      match x.queue with
      | [] => ledgerStat n s
      | e :: q =>
        if x.credit < 1500 || (full && x.drainCfg.isSome) then s
        else
          let s := setLedger s n { x with queue := q, credit := x.credit - 1500 }
          ledgerStat n (leaveSummaries n (if full then ledgerLose n e s else ledgerIssue n e s))

/-- LEDGER_DRAIN (R279), after `cycles` CORE cycles since the last turn. -/
def execLedgerDrain (n cycles : Nat) (s : State) : Host.Outcome State Fault Refusal := .next (ledgerDrain n cycles s)

/-- LEDGER_WRITE_ACK (R275, R280): WCNT advances; LED_WM is raised when WCNT − RCNT rises to the watermark. -/
def ledgerAck (n : Nat) (s : State) : State :=
  let x := ledgerOf s n
  if x.unacked = 0 || !memServes s 2 then s
  else
    let p := Page.cmpPart n
    let before := rd s p F.CMP_LED_WCNT - rd s p F.CMP_LED_RCNT
    let s := addWrap (setLedger s n { x with unacked := x.unacked - 1 }) p F.CMP_LED_WCNT 1
    let wm := rd s p F.CMP_LED_WM
    if wm ≠ 0 && before < wm && wm ≤ rd s p F.CMP_LED_WCNT - rd s p F.CMP_LED_RCNT then raiseInt s p 8 else s

/-- LEDGER_WRITE_ACK (R275). -/
def execLedgerWriteAck (n : Nat) (s : State) : Host.Outcome State Fault Refusal := .next (ledgerAck n s)

/-- Entries or a loss marker are left after EN was cleared (R274). -/
def ledgerDraining (s : State) (n : Nat) : Bool :=
  !rdb s (.cmpPart n) F.CMP_LED_CTRL_EN && (!(ledgerOf s n).queue.isEmpty || (ledgerOf s n).loss.isSome)

/-- A refused ledger write counts LED_CFG. -/
def ledgerCfg (n : Nat) (s : State) : State := fltEvent s (.cmpPart n) 1

/-- A write of `CMP_LED_CTRL` (R274); LED_FULL is raised where it makes the ledger full (R280), and an emptied queue ends summary mode (R279). -/
def ledgerCtrlEffect (n word : Nat) (s : State) : State :=
  let p := Page.cmpPart n
  let was := rdb s p F.CMP_LED_CTRL_EN
  let en := word.testBit 0
  let size := bits word 12 8
  if partBusy s n then ledgerCfg n s
  else if en && (decide (size < 8) || decide (26 < size) || !inQuota s n (ledgerBase s n) (16 * 2 ^ size)) then ledgerCfg n s
  else if en && ledgerDraining s n then ledgerCfg n s
  else
    let full := ledgerFull s n
    let s := if was && !en then setLedger s n { ledgerOf s n with drainCfg := some (ledgerCfgOf s n) } else s
    let s := wrs s p [(F.CMP_LED_CTRL_EN, b2n en), (F.CMP_LED_CTRL_MODE, bits word 1 1), (F.CMP_LED_CTRL_SIZE, size)]
    let s := if en && !was then
      setLedger (wrs s p [(F.CMP_LED_WCNT, 0), (F.CMP_LED_RCNT, 0)]) n ⟨[], 0, 0, rd s p F.CMP_LED_RATE * 1500, none, none⟩ else s
    let s := ledgerStat n (leaveSummaries n s)
    if !full && ledgerFull s n then raiseInt s p 9 else s

/-- LEDGER_CTRL_WRITE (R274). -/
def execLedgerCtrlWrite (m n word : Nat) (s : State) : Host.Outcome State Fault Refusal :=
  .next (takeIn m (.ledgerCtrlWrite m n word) false (fun s => asWriter s m (.cmpPart n) F.CMP_LED_CTRL_EN.off false (ledgerCtrlEffect n word)) s)

/-- A write of `CMP_LED_RCNT` (R277, R278): refused below its value or above WCNT, in either mode. -/
def ledgerRcntEffect (n v : Nat) (s : State) : State :=
  let p := Page.cmpPart n
  if v < rd s p F.CMP_LED_RCNT || rd s p F.CMP_LED_WCNT < v then ledgerCfg n s else ledgerStat n (wr s p F.CMP_LED_RCNT v)

/-- LEDGER_RCNT_WRITE (R278). -/
def execLedgerRcntWrite (m n v : Nat) (s : State) : Host.Outcome State Fault Refusal :=
  .next (takeIn m (.ledgerRcntWrite m n v) false (fun s => asWriter s m (.cmpPart n) F.CMP_LED_RCNT.off false (ledgerRcntEffect n v)) s)

/-- A write of `CMP_LED_RATE` (R279): 1 to 4,096; a credit above the new maximum is reduced to it. -/
def ledRateEffect (n word : Nat) (s : State) : State :=
  let rate := word % 2 ^ 13
  if rate = 0 || 4096 < rate then ledgerCfg n s
  else
    let s := wr s (.cmpPart n) F.CMP_LED_RATE rate
    setLedger s n { ledgerOf s n with credit := min (ledgerOf s n).credit (rate * 1500) }

/-- LED_RATE_WRITE (R279). -/
def execLedRateWrite (m n word : Nat) (s : State) : Host.Outcome State Fault Refusal :=
  .next (takeIn m (.ledRateWrite m n word) false (fun s => asWriter s m (.cmpPart n) F.CMP_LED_RATE.off false (ledRateEffect n word)) s)

/-! ### Judging (R261–R268, R519) -/

/-- A pin state is judged (Table 9-1). -/
def judged (code : Nat) : Bool := code == 4 || code == 5 || code == 6 || code == 7 || code == 9 || code == 10

/-- A level (0 low, 1 high, 2 mid, 3 invalid or no sample) passes under a pin state (Table 9-1). -/
def levelPasses (code level : Nat) : Bool :=
  match code with
  | 4 => level == 0 | 9 => level == 0
  | 5 => level == 1 | 10 => level == 1
  | 6 => level == 2
  | 7 => level == 0 || level == 1
  | _ => true

/-- The pin record of a channel: its page and its number there (Table 9-6). -/
def pinPage (p : Nat) : Page := .cmpPin (p / 64)

/-- No record of a vector. -/
def failNone : FailAcc := ⟨0, 0, 0, 0, 0, 0, 0, 0⟩

/-- The key of a vector of a site, or of a route. -/
def vecKey (k vn : Nat) : Nat := k * 2 ^ 64 + vn

/-- A judged fail of an ordinary vector on a pin (R268): pin counters, FLAG0, the site result once for each vector, the FAIL trigger and, with
STOP_FF, the site fail that the decision path will deliver. -/
def pinFail (i p vn cycle : Nat) (s : State) : State :=
  let k := p % 64
  let s := incSat s (pinPage p) (F.CMP_PIN_FCNT k)
  let s := if rdb s (pinPage p) (F.CMP_PIN_STAT_FF_VALID k) then s
    else wrs s (pinPage p) [(F.CMP_PIN_FFVN k, vn), (F.CMP_PIN_STAT_FF_VALID k, 1)]
  let s := wrb s (sitePage s i) (F.CMP_SITE_FLAGS_FLAG0 i) true
  let v := tabGet (0, false) s.pin.vecs (vecKey i vn)
  let s := if v.2 then s
    else
      let s := { s with pin := { s.pin with vecs := tabPut (0, false) s.pin.vecs (vecKey i vn) (v.1, true) } }
      let s := incSat s (sitePage s i) (F.CMP_SR_FCNT i)
      if rdb s (sitePage s i) (F.CMP_SR_STAT_FF_VALID i) then s
      else wrs s (sitePage s i) [(F.CMP_SR_FFVN i, vn), (F.CMP_SR_STAT_FF_VALID i, 1)]
  let s := acqFail i (p / 16) vn cycle s
  if (siteOf s i).args.stopFF then setSite s i { siteOf s i with failDue := true } else s

/-- One strobe of a vector is judged: the vector's count of strobes left falls. -/
def vecStrobe (i vn : Nat) (s : State) : State :=
  let v := tabGet (0, false) s.pin.vecs (vecKey i vn)
  { s with pin := { s.pin with vecs := tabPut (0, false) s.pin.vecs (vecKey i vn) (if v.1 ≤ 1 then (0, false) else (v.1 - 1, v.2)) } }

/-- The records of a route's vectors that are not settled, in ascending vector number. -/
def openFails (s : State) (r : Nat) : List FailAcc := (s.pin.fails.filter fun e => e.1 / 2 ^ 64 == r).map (·.2)

/-- Vectors of a route without a judged pin that stand before every vector still to be judged settle: each closes the open summary (R279). -/
def settleClean (i r : Nat) : Nat → State → State
  | 0, s => s
  | n + 1, s =>
    match openFails s r with
    | a :: _ =>
      if a.left = 0 then
        settleClean i r n (routeJudged i r a { s with pin := { s.pin with fails := tabPut failNone s.pin.fails (vecKey r a.vn) failNone } })
      else s
    | [] => s

/-- A judged strobe of an ordinary vector in its route's record: level and outcome; the last one settles the route's vector (R519), and with it the vectors without a
judged pin that waited for it. -/
def routeStrobe (i p vn cycle sym level : Nat) (failed : Bool) (s : State) : State :=
  let r := routeNo (siteOf s i).mask (p / 16)
  let a := tabGet failNone s.pin.fails (vecKey r vn)
  let j := p % 16
  let a := { a with
             cycle := max a.cycle cycle, left := a.left - 1, mask := putBit a.mask j (failed || a.mask.testBit j), rcv := a.rcv ||| (level <<< (2 * j)),
                    exp := a.exp - (bits a.exp (2 * j + 1) (2 * j) <<< (2 * j)) + (sym <<< (2 * j)) }
  if a.left = 0 then
    let s := routeJudged i r a { s with pin := { s.pin with fails := tabPut failNone s.pin.fails (vecKey r vn) failNone } }
    settleClean i r (openFails s r).length s
  else { s with pin := { s.pin with fails := tabPut failNone s.pin.fails (vecKey r vn) a } }

/-- The strobe of a pin that is judged first: the one of the earliest strobe instant or window close, and of equal ones the first issued (R265). -/
def firstStrobe : List Strobe → Option Strobe
  | [] => none
  | t :: l => match firstStrobe l with
    | some u => if u.due < t.due then some u else some t
    | none => some t

/-- The CORE cycle of an instant on REF. -/
def coreCycleOf (t : Nat) : Nat := t / coreCycle

/-- The first due strobe of a pin is judged (R261–R266): `level` is what the comparator gave at SO, `dev` the first deviating level of a window
(R263). A direct-mode input gives low or high only (R230). The cistern takes the level at SO whether or not the state is judged (R284). -/
def judgeStrobe (p level : Nat) (dev : Option Nat) (s : State) : State :=
  match firstStrobe (pinOf s p).strobes with
  | none => s
  | some t =>
    let s := setPin s p { pinOf s p with strobes := (pinOf s p).strobes.erase t }
    let lv := if t.noSample then 3 else if rdb s (.bnk (p / 16)) F.BNK_STAT_MODE_ACT then level % 2 else level
    let s := if t.store && !t.noSample then acqLevel (p / 16) (p % 16) t.vn lv s else s
    let rep := if t.noSample then 3 else if t.window && levelPasses t.code lv then dev.getD lv else lv
    let failed := judged t.code && !levelPasses t.code rep
    match t.cls with
    | .ordinary =>
      if judged t.code then
        let s := if failed then pinFail t.site p t.vn (coreCycleOf t.due) s else s
        vecStrobe t.site t.vn (routeStrobe t.site p t.vn (coreCycleOf t.due) t.sym rep failed s)
      else s
    | .pass =>
      let x := siteOf s t.site
      match x.pass with
      | some u => if failed && u.number = t.pass then setSite s t.site { x with pass := some { u with failed := true } } else s
      | none => s
    | _ => s

/-- STROBE_JUDGE (R265). -/
def execStrobeJudge (p level : Nat) (dev : Option Nat) (s : State) : Host.Outcome State Fault Refusal := .next (judgeStrobe p level dev s)

/-- SITE_FAIL_DELIVERY (R273): with STOP_FF, a FAIL_STOP stop opens. -/
def execSiteFailDelivery (i : Nat) (s : State) : Host.Outcome State Fault Refusal :=
  .next (if (siteOf s i).failDue then openStop i 6 (setSite s i { siteOf s i with failDue := false }) else s)

/-- The strobes of pins that enter the safe state are discarded, and each one issued is counted, of whatever pin state (R229, R266, R267). -/
def discardStrobes (l : List Nat) (s : State) : State :=
  forS l (fun p s =>
    let x := pinOf s p
    let s := forS x.strobes (fun t s =>
      let s := if t.noSample then s else addSat s (sitePage s t.site) F.DISCARDED 1
      if t.cls = .ordinary && judged t.code then
        let r := routeNo (siteOf s t.site).mask (p / 16)
        vecStrobe t.site t.vn { s with pin := { s.pin with fails := tabPut failNone s.pin.fails (vecKey r t.vn) failNone } }
      else s) s
    setPin s p { x with strobes := [] }) s

/-- Judging of a site stops (R267): nothing of its vectors is left to settle. -/
def dropJudging (i : Nat) (s : State) : State :=
  let s := { s with pin := { s.pin with vecs := tabDrop s.pin.vecs (vecKey i 0) (vecKey (i + 1) 0) } }
  forS (routesOf (siteOf s i).mask) (fun r s => { s with pin := { s.pin with fails := tabDrop s.pin.fails (vecKey r 0) (vecKey (r + 1) 0) } }) s

/-- At the epoch pin counters, first fails and the site result clear (R269). -/
def cmpEpoch (i : Nat) (s : State) : State :=
  let s := forS (pinsOf (siteOf s i).mask) (fun p s =>
    wrs s (pinPage p) [(F.CMP_PIN_FCNT (p % 64), 0), (F.CMP_PIN_STAT_FF_VALID (p % 64), 0), (F.CMP_PIN_FFVN (p % 64), 0)]) s
  wrs s (sitePage s i) [(F.CMP_SR_FFVN i, 0), (F.CMP_SR_FCNT i, 0), (F.CMP_SR_STAT_FF_VALID i, 0), (F.CMP_SITE_FLAGS_FLAG0 i, 0)]

/-- A stop of the site closes the open summaries of its routes (R279). -/
def cmpSiteStop (i : Nat) (s : State) : State :=
  forS (routesOf (siteOf s i).mask) (fun r s => ledgerStat (sitePart s i) (closeSummary (sitePart s i) i r (queueCycle s (sitePart s i)) s)) s

/-- PIN_FCNT_WRITE (R270), by the partition that owns the pin's bank (Table 9-6). -/
def execPinFcntWrite (m p v : Nat) (s : State) : Host.Outcome State Fault Refusal :=
  .next (takeIn m (.pinFcntWrite m p v) false
    (fun s => accessIf s m (pinPage p) (F.CMP_PIN_FCNT (p % 64)).off (ownsEntry s m (p / 16)) fun s => wr s (pinPage p) (F.CMP_PIN_FCNT (p % 64)) v) s)

end Sys2Proof.Machine
end

