-- ==== Sys2Proof/Machine/Pins.lean ====
section
/-! DEFINITION. Pin channels and timing (chapter 8): timing sets and their checks, edges and strobes of a vector, mode changes, follow mode,
PE control ports and spare slices. -/

namespace Sys2Proof.Machine

open Sys2Proof

/-! ### The set window (R235, R236, Tables 8-5 to 8-7) -/

/-- Word k of the set window. -/
def winWord (s : State) (b k : Nat) : Nat := rd s (.bnk b) (F.BNK_SETWIN k)

/-- An edge value of a pin record: low word and bits [7:0] of the next. -/
def winEdge (s : State) (b k : Nat) : Nat := winWord s b k + winWord s b (k + 1) % 256 * 2 ^ 32

/-- The pin record of slot j in the window. -/
def winPin (s : State) (b j : Nat) : PinRec :=
  let k := 16 + 16 * j
  { fmt := bits (winWord s b k) 2 0, strbEdge := (winWord s b k).testBit 4, d1 := winEdge s b (k + 2), d2 := winEdge s b (k + 4),
    enOn := winEdge s b (k + 6), enOff := winEdge s b (k + 8), so := winEdge s b (k + 10), sc := winEdge s b (k + 12) }

/-- The timing set in the window. -/
def winSet (s : State) (b : Nat) : TimingSet :=
  { period := (winWord s b 0 + winWord s b 1 % 256 * 2 ^ 32) * 65536 + winWord s b 2 % 65536, pins := (List.range 16).map (winPin s b) }

/-- A reserved bit of the set part of the window is set (Table 8-7, FORMAT). -/
def winSetReserved (s : State) (b : Nat) : Bool :=
  decide (256 ≤ winWord s b 1) || decide (65536 ≤ winWord s b 2) ||
  (List.range 13).any (fun k => winWord s b (k + 3) != 0) || (List.range 240).any (fun k => winWord s b (k + 272) != 0)

/-- A reserved bit of the pin record of slot j is set, or its format is 6 or 7 (Table 8-7, FORMAT). -/
def winPinBad (s : State) (b j : Nat) : Bool :=
  let k := 16 + 16 * j
  let w := winWord s b k
  decide (5 < bits w 2 0) || w.testBit 3 || decide (32 ≤ w) ||
  winWord s b (k + 1) != 0 || winWord s b (k + 14) != 0 || winWord s b (k + 15) != 0 ||
  [3, 5, 7, 9, 11, 13].any fun o => decide (256 ≤ winWord s b (k + o))

/-- The minimum pulse width W in time units (R236). -/
def minWidth (direct : Bool) : Nat := if direct then 5243 else 9831

/-- The shortest period of a mode in 2^-32 ns (Table 8-7). -/
def minPeriod (direct : Bool) : Nat := if direct then 715827883 else 1431655766

/-- The longest period, 1.0 ms, in 2^-32 ns (Table 8-7). -/
def maxPeriod : Nat := 65536000000 * 65536

/-- RANGE: an edge outside its range (Table 8-7); P is the exact period. -/
def pinRange (period : Nat) (r : PinRec) : Bool :=
  [r.d1, r.d2, r.enOn, r.enOff].any (fun e => decide (period ≤ e * 65536)) || decide (4 * period ≤ r.so * 65536) ||
  (!r.strbEdge && decide (4 * period ≤ r.sc * 65536))

/-- ORDER (Table 8-7). -/
def pinOrder (period : Nat) (r : PinRec) : Bool :=
  (decide (1 ≤ r.fmt) && decide (r.fmt ≤ 4) && decide (r.d2 ≤ r.d1)) ||
  (!r.strbEdge && (decide (r.sc ≤ r.so) || decide (period ≤ (r.sc - r.so) * 65536)))

/-- WIDTH (Table 8-7). -/
def pinWidth (period w : Nat) (r : PinRec) : Bool :=
  match r.fmt with
  | 1 => decide (r.d2 - r.d1 < w) || decide (period < (w + (r.d2 - r.d1)) * 65536)
  | 2 => decide (r.d2 - r.d1 < w) || decide (period < (w + (r.d2 - r.d1)) * 65536)
  | 4 => decide (r.d2 - r.d1 < w) || decide (period < (w + (r.d2 - r.d1)) * 65536)
  | 3 => decide (r.d1 < w) || decide (r.d2 - r.d1 < w) || decide (period < (w + r.d2) * 65536)
  | _ => false

/-- The lowest slot that fails a check of pin records. -/
def lowestSlot (t : TimingSet) (f : PinRec → Bool) : Option Nat :=
  (List.range 16).find? fun j => f (t.pins.getD j pinRecReset)

/-- The outcome of the checks of a LOAD in the order of Table 8-7: code and pin slot; code 0 where the window passes. -/
def loadCheck (s : State) (b : Nat) : Nat × Nat :=
  let direct := rdb s (.bnk b) F.BNK_STAT_MODE_ACT
  let t := winSet s b
  let first (code : Nat) (o : Option Nat) (next : Nat × Nat) : Nat × Nat := match o with | some j => (code, j) | none => next
  if t.period < minPeriod direct || maxPeriod < t.period then (3, 0)
  else if winSetReserved s b then (4, 0)
  else first 4 ((List.range 16).find? (winPinBad s b))
    (first 5 (if direct then lowestSlot t fun r => r.fmt == 3 || r.fmt == 4 || !r.strbEdge else none)
      (first 6 (lowestSlot t (pinRange t.period))
        (first 7 (lowestSlot t (pinOrder t.period))
          (first 8 (lowestSlot t (pinWidth t.period (minWidth direct))) (0, 0)))))

/-- A set command ends: `BNK_TS_STAT` takes the outcome and TS_DONE is raised; a refusal counts TS_CFG (R235, R236). -/
def tsOutcome (b set err pin : Nat) (s : State) : State :=
  let s := wrs s (.bnk b) [(F.BNK_TS_STAT_BUSY, 0), (F.BNK_TS_STAT_ERR, err), (F.BNK_TS_STAT_PIN, pin), (F.BNK_TS_STAT_SET, set)]
  raiseInt (if err = 0 then s else fltEvent s (.bnk b) 1) (.bnk b) 8

/-- A write of `BNK_TS_CMD` (R235); LOAD and READ read 1 while their action is pending (Table 16-3). -/
def tsCommand (b word : Nat) (s : State) : State :=
  let set := bits word 5 0
  let load := word.testBit 8
  let read := word.testBit 9
  if rdb s (.bnk b) F.BNK_TS_STAT_BUSY then fltEvent s (.bnk b) 1
  else
    let s := wr s (.bnk b) F.BNK_TS_CMD_SET set
    if load && read then tsOutcome b set 2 0 s
    else if !load && !read then s
    else if rdb s (.bnk b) F.BNK_STAT_CHANGING || (load && bankBusy s b) then tsOutcome b set 1 0 s
    else setBank (wrs s (.bnk b) [(F.BNK_TS_STAT_BUSY, 1), (F.BNK_TS_STAT_SET, set), (F.BNK_TS_CMD_LOAD, b2n load), (F.BNK_TS_CMD_READ, b2n read)]) b { bankOf s b with tsCmd := some (load, set) }

/-- TS_LOAD (R235): the write has LOAD set. -/
def execTsLoad (m b word : Nat) (s : State) : Host.Outcome State Fault Refusal :=
  .next (takeIn m (.tsLoad m b word) false (fun s => asWriter s m (.bnk b) F.BNK_TS_CMD_SET.off false (tsCommand b (setBit word 8))) s)

/-- TS_READ (R235): the write has READ set. -/
def execTsRead (m b word : Nat) (s : State) : Host.Outcome State Fault Refusal :=
  .next (takeIn m (.tsRead m b word) false (fun s => asWriter s m (.bnk b) F.BNK_TS_CMD_SET.off false (tsCommand b (setBit word 9))) s)

/-- Write an edge value into two words of the window; reserved bits become zero. -/
def putEdge (b k v : Nat) (s : State) : State :=
  wrs s (.bnk b) [(F.BNK_SETWIN k, v % 2 ^ 32), (F.BNK_SETWIN (k + 1), v / 2 ^ 32)]

/-- The pin record of slot j goes into the window. -/
def putPinRec (b j : Nat) (r : PinRec) (s : State) : State :=
  let k := 16 + 16 * j
  let s := wrs s (.bnk b) [(F.BNK_SETWIN k, r.fmt + 16 * b2n r.strbEdge), (F.BNK_SETWIN (k + 1), 0), (F.BNK_SETWIN (k + 14), 0),
    (F.BNK_SETWIN (k + 15), 0)]
  putEdge b (k + 2) r.d1 (putEdge b (k + 4) r.d2 (putEdge b (k + 6) r.enOn (putEdge b (k + 8) r.enOff
    (putEdge b (k + 10) r.so (putEdge b (k + 12) r.sc s)))))

/-- A timing set goes into the window; every reserved bit becomes zero (R235). -/
def putWindow (b : Nat) (t : TimingSet) (s : State) : State :=
  let p := t.period / 65536
  let s := wrs s (.bnk b) [(F.BNK_SETWIN 0, p % 2 ^ 32), (F.BNK_SETWIN 1, p / 2 ^ 32), (F.BNK_SETWIN 2, t.period % 65536)]
  let s := forS (List.range 13) (fun k s => wr s (.bnk b) (F.BNK_SETWIN (k + 3)) 0) s
  let s := forS (List.range 240) (fun k s => wr s (.bnk b) (F.BNK_SETWIN (k + 272)) 0) s
  forS (List.range 16) (fun j s => putPinRec b j (t.pins.getD j pinRecReset) s) s

/-- The running set command ends (R235, R236). -/
def tsDone (b : Nat) (s : State) : State :=
  match (bankOf s b).tsCmd with
  | none => s
  | some (load, set) =>
    let s := wrs (setBank s b { bankOf s b with tsCmd := none }) (.bnk b) [(F.BNK_TS_CMD_LOAD, 0), (F.BNK_TS_CMD_READ, 0)]
    if load then
      let c := loadCheck s b
      if c.1 = 0 then
        tsOutcome b set 0 0 (setBank s b { bankOf s b with tsets := tabPut setReset (bankOf s b).tsets set (winSet s b) })
      else tsOutcome b set c.1 c.2 s
    else tsOutcome b set 0 0 (putWindow b (timingSet s b set) s)

/-- TS_DONE (R236). -/
def execTsDone (b : Nat) (s : State) : Host.Outcome State Fault Refusal := .next (tsDone b s)

/-! ### Bank mode (R227, R228) -/

/-- A write of `BNK_CTRL.MODE` (R228): refused while a site of the bank runs; a change enters the safe state for 10 µs and returns every
timing set to the reset set. A calibration of the bank aborts (R361). -/
def modeEffect (b mode : Nat) (s : State) : State :=
  if rd s (.bnk b) F.BNK_CTRL_MODE = mode then s
  else if bankBusy s b then fltEvent s (.bnk b) 7
  else
    let s := wrs s (.bnk b) [(F.BNK_CTRL_MODE, mode), (F.BNK_STAT_MODE_ACT, mode), (F.BNK_STAT_CHANGING, 1)]
    let s := setBankSafe (setBank s b { bankOf s b with tsets := [] }) b 0 true
    let l := (List.range 16).map fun j => 16 * b + j
    pinsSafe l (discardStrobes l (calAbortDue b s))

/-- MODE_CHANGE (R228). -/
def execModeChange (m b mode : Nat) (s : State) : Host.Outcome State Fault Refusal := .next (takeIn m (.modeChange m b mode) false (fun s => asWriter s m (.bnk b) F.BNK_CTRL_MODE.off false (modeEffect b mode)) s)

/-- MODE_CHANGE_END (R228): 10 µs after the change CHANGING clears. -/
def execModeChangeEnd (b : Nat) (s : State) : Host.Outcome State Fault Refusal :=
  .next (setBankSafe (wrb s (.bnk b) F.BNK_STAT_CHANGING false) b 0 false)

/-! ### Edges of a presented vector (R232, R233, R238–R243) -/

/-- An edge value in 2^-32 ns of vector time after the start of the vector: as written, or scaled with the followed period (R248). -/
def edgeAt (scale : Option (Nat × Nat)) (e : Nat) : Nat :=
  match scale with
  | none => e * 65536
  | some (pf, p) => e * 65536 * pf / max 1 p

/-- The pin state drives data: D0, D1, DCL, DCH (Table 8-4). -/
def driveData (code : Nat) : Option Bool :=
  match code with
  | 0 => some false | 9 => some false
  | 1 => some true | 10 => some true
  | _ => none

/-- The DRV edges of a format for a data bit (Table 8-8), as (edge value, level). -/
def drvEdges (r : PinRec) (data : Bool) : List (Nat × Bool) :=
  match r.fmt with
  | 0 => [(r.d1, data)]
  | 1 => if data then [(r.d1, true), (r.d2, false)] else [(r.d1, false)]
  | 2 => if data then [(r.d1, true)] else [(r.d1, false), (r.d2, true)]
  | 3 => [(0, !data), (r.d1, data), (r.d2, !data)]
  | 4 => if data then [(r.d1, true), (r.d2, false)] else []
  | _ => []

/-- The DEN edges of a pin state (Tables 8-4 and 8-8, R233), as (edge value, active). -/
def denEdges (r : PinRec) (code : Nat) : List (Nat × Bool) :=
  if r.fmt = 5 then [(r.enOff, false)]
  else match driveData code with
    | some data =>
      if r.fmt = 4 then (if data then [(r.d1, true), (r.d2, false)] else [(0, false)]) else [(r.enOn, true)]
    | none => if code = 3 then [] else [(r.enOff, false)]

/-- Put one edge on an output of a pin (R240, R242, R243); `org` is the site's epoch, from which steps count: at or beyond the vector's length it is not issued and counts EDGE_LATE; a transition
less than W after the output's last one is not issued and counts EDGE_DROP; an edge to the present level makes no transition. DEN_P is high while DEN is active, or with
DEN_POL = 1 while it is inactive (R231). -/
def issueEdge (p : Nat) (den : Bool) (org base len : Nat) (e : Nat × Bool) (s : State) : State :=
  let b := p / 16
  let pg := Page.bnk b
  let x := pinOf s p
  let t := base + e.1
  let pol := den && rdb s pg (F.BNK_PIN_CFG_DEN_POL (p % 16))
  let level := if den then x.den else x.drv
  let last := if den then x.denAt else x.drvAt
  if len ≤ e.1 then raiseInt (fltEvent (wr (incSat s pg F.EDGE_LATE) pg F.BNK_STAT_DROP_PIN (p % 16)) pg 3) pg 3
  else if level = e.2 then s
  else
    let w := minWidth (rdb s pg F.BNK_STAT_MODE_ACT) * 65536
    if (match last with | some u => decide (t < u + w) | none => false) then
      raiseInt (fltEvent (wr (incSat s pg F.EDGE_DROP) pg F.BNK_STAT_DROP_PIN (p % 16)) pg 2) pg 2
    else
      let x' := if den then { x with den := e.2, denAt := some t } else { x with drv := e.2, drvAt := some t }
      emit (setPin s p x') (.edge p den (e.2 != pol) (edgeStep (t - org)))

/-- The edges of one pin in a vector or idle item that a test selects by their edge value. `code` is the pin state, or none for an idle item with
IDLE_DRIVE = 0 and `some 2`, as DZ, with IDLE_DRIVE = 1; format OFF disables DEN in either. -/
def pinEdges (p : Nat) (r : PinRec) (code : Option Nat) (scale : Option (Nat × Nat)) (sel : Nat → Bool) (org base len : Nat) (s : State) : State :=
  let drv := match code with
    | some c => (match driveData c with | some d => drvEdges r d | none => [])
    | none => []
  let den := match code with
    | some c => denEdges r c
    | none => if r.fmt = 5 then [(r.enOff, false)] else []
  let at' (l : List (Nat × Bool)) : List (Nat × Bool) := (l.map fun e => (edgeAt scale e.1, e.2)).filter fun e => sel e.1
  let s := forS (at' drv) (issueEdge p false org base len) s
  forS (at' den) (issueEdge p true org base len) s

/-- The code that a palette gives a symbol of a slot of a route (R101). -/
def pinCode (s : State) (r set slot sym : Nat) : Nat :=
  bits (tabGet 0x2222 s.pat.palettes (r * 128 + set * 16 + slot)) (4 * sym + 3) (4 * sym)

/-- A pin state issues a strobe (Table 8-4). -/
def strobes (code : Nat) : Bool := decide (4 ≤ code) && decide (code ≤ 10)

/-- The strobe edges of a pin record that lie at or beyond four times a length (R242): SO, and SC of a window. -/
def lateEdges (r : PinRec) (scale : Option (Nat × Nat)) (len : Nat) : Nat :=
  b2n (decide (4 * len ≤ edgeAt scale r.so)) + b2n (!r.strbEdge && decide (4 * len ≤ edgeAt scale r.sc))

/-- The strobe of a pin record lies below four times a length (R242). -/
def strobeWithin (r : PinRec) (scale : Option (Nat × Nat)) (len : Nat) : Bool := lateEdges r scale len == 0

/-- The strobe of a pin in a vector (R234, R242–R244): an edge at or beyond four lengths is not issued, counts EDGE_LATE and leaves no sample; a window that would open
before the pin's last one has closed opens when that one closes, and counts EDGE_DROP. -/
def issueStrobe (p : Nat) (r : PinRec) (scale : Option (Nat × Nat)) (base len : Nat) (st : Strobe) (s : State) : State :=
  let pg := Page.bnk (p / 16)
  let so := edgeAt scale r.so
  let sc := edgeAt scale r.sc
  let late := !strobeWithin r scale len
  let s := forS (List.range (lateEdges r scale len))
    (fun _ s => raiseInt (fltEvent (wr (incSat s pg F.EDGE_LATE) pg F.BNK_STAT_DROP_PIN (p % 16)) pg 3) pg 3) s
  let x := pinOf s p
  let overlap := !late && !r.strbEdge && decide (base + so < x.winEnd)
  let s := if overlap then raiseInt (fltEvent (wr (incSat s pg F.EDGE_DROP) pg F.BNK_STAT_DROP_PIN (p % 16)) pg 2) pg 2 else s
  let x := pinOf s p
  setPin s p { x with strobes := x.strobes ++ [{ st with noSample := late, window := !r.strbEdge, due := base + if r.strbEdge then so else sc }],
                      winEnd := if late || r.strbEdge then x.winEnd else max x.winEnd (base + sc) }

/-- The taps of a pin's driver, packed as `BNK_PIN_TXEQ` packs them (R251): those of its register in direct mode, and 0, 40, 0 in PE mode. -/
def tapsOf (s : State) (p : Nat) : Nat :=
  let pg := Page.bnk (p / 16)
  let j := p % 16
  if rdb s pg F.BNK_STAT_MODE_ACT then
    rd s pg (F.BNK_PIN_TXEQ_C_PRE j) + rd s pg (F.BNK_PIN_TXEQ_C_MAIN j) * 2 ^ 8 + rd s pg (F.BNK_PIN_TXEQ_C_POST j) * 2 ^ 16
  else 40 * 2 ^ 8

/-- A_nom / 40 in µV (R251): 350 mV for LVDS, 200 mV for SLVS-400, which only direct mode has (Table 8-3). -/
def ampUnit (s : State) (b : Nat) : Nat := if rdb s (.bnk b) F.BNK_STAT_MODE_ACT && rdb s (.bnk b) F.BNK_DIR_CFG_STD then 5000 else 8750

/-- The magnitudes of Table 8-9 in its order, in units of A_nom / 40 times a unit: settled, after a transition, before one, between two. -/
def amplitudes (taps unit : Nat) : List Int :=
  let pre : Int := (taps % 2 ^ 8 : Nat)
  let main : Int := (taps / 2 ^ 8 % 2 ^ 8 : Nat)
  let post : Int := (taps / 2 ^ 16 : Nat)
  [main - pre - post, main - pre + post, main + pre - post, main + pre + post].map fun a => a * unit

/-- The taps written since the last vector boundary of a pin come into force (R252), with the tap interval of the period now presented, at most 1.0 ns (R251). -/
def loadTaps (p period : Nat) (s : State) : State :=
  let x := pinOf s p
  let taps := tapsOf s p
  let t := min period (2 ^ 32)
  let amps := amplitudes taps (ampUnit s (p / 16))
  let s := setPin s p { x with taps := taps, tapT := t, amps := amps }
  if t = x.tapT && amps == x.amps then s else emit s (.driver p t amps)

/-- Scaling of edges in a bank of a following site (R248): with SCALE = 1, by the followed period over the period of the vector's set, which is that of the lead quad's bank
(R239). DESIGN CHOICE (log 108): SCALE is that of the pin's own bank. -/
def followScale (s : State) (i b : Nat) (c : Cur) : Option (Nat × Nat) :=
  if siteFollows s i && rdb s (.bnk b) F.BNK_FOLLOW_SCALE then some (c.period, (timingSet s (leadBank s i) (bits c.pres.word 13 8)).period) else none

/-- The entry word of a quad in a presented entry: every furrow's entry has its own symbols, timing set and palette set (R101, R239). -/
def quadWord (c : Cur) (q : Nat) : Nat := (c.pres.words.lookup q).getD c.pres.word

/-- The pin of a presented vector (R232, R239, R242): `len` is none at the vector's start, which issues the edges and the strobe that lie within its
period, and the vector's length at its end, which settles the others. An unsafe pin takes none (R229). The symbol is that of the pin's quad. DESIGN CHOICE (log 108): an edge of a
bank other than the lead's that lies in the stretch of its vector is issued, as R242 lets it, though R244 holds the outputs there. -/
def presentPin (i : Nat) (c : Cur) (len : Option Nat) (p : Nat) (s : State) : State :=
  let b := p / 16
  if bankSafe s b then s
  else
    let base := epochAt s i + c.start
    let L := len.getD c.period
    let sel (e : Nat) : Bool := if len.isNone then decide (e < c.period) else decide (c.period ≤ e)
    let s := if len.isNone then loadTaps p c.period s else s
    if c.cls = .idle then
      let t := timingSet s b (bits (quadWord c (p / 4)) 13 8)
      let code := if c.off.contains (p / 4) then some 2 else none
      pinEdges p (t.pins.getD (p % 16) pinRecReset) code (followScale s i b c) sel (epochAt s i) base L s
    else
      let w := quadWord c (p / 4)
      let ts := bits w 13 8
      let ps := bits w 16 14
      let t := timingSet s b ts
      let r := t.pins.getD (p % 16) pinRecReset
      let scale := followScale s i b c
      let sym := bits w (2 * (p % 4) + 1) (2 * (p % 4))
      let code := pinCode s (routeNo (siteOf s i).mask b) ps (p % 16) sym
      let s := pinEdges p r (some code) scale sel (epochAt s i) base L s
      if strobes code && strobeWithin r scale c.period == len.isNone then
        let passNo : Nat := ((siteOf s i).pass.map fun u => u.number).getD 0
        let st : Strobe := ⟨i, c.vn, code, sym, ps, ts, c.cls, passNo, false, false, (acqOf s b).cfg.site == i, 0⟩
        issueStrobe p r scale base L st s
      else s

/-- The pins of a mask whose state in a presented entry is judged. -/
def judgedPins (s : State) (i : Nat) (c : Cur) : List Nat :=
  (pinsOf (siteOf s i).mask).filter fun p =>
    let w := quadWord c (p / 4)
    judged (pinCode s (routeNo (siteOf s i).mask (p / 16)) (bits w 16 14) (p % 16) (bits w (2 * (p % 4) + 1) (2 * (p % 4))))

/-- The expected symbols of a route in a presented entry, as a route word. -/
def routeWord (c : Cur) (r : Nat) : Nat :=
  (List.range 4).foldl (fun a b => a + (match c.pres.words.lookup (4 * (r / 4) + b) with | some w => bits w 7 0 | none => 0) * 2 ^ (8 * b)) 0

/-- An ordinary vector's records of judged strobes open (R519); a route without a judged pin has no failing pin in it, which settles once the earlier vectors of the route
are judged (R279). -/
def openVector (i : Nat) (c : Cur) (s : State) : State :=
  let l := judgedPins s i c
  let s := { s with pin := { s.pin with vecs := tabPut (0, false) s.pin.vecs (vecKey i c.vn) (l.length, false) } }
  forS (routesOf (siteOf s i).mask) (fun r s =>
    let a : FailAcc := { cycle := coreCycleOf (epochAt s i + c.start), vn := c.vn, left := (l.filter fun p => p / 16 = r / 4).length, mask := 0, exp := routeWord c r, rcv := 0,
                         ps := bits (quadWord c r) 16 14, ts := bits (quadWord c r) 13 8 }
    if a.left = 0 && (openFails s r).isEmpty then routeJudged i r a s
    else { s with pin := { s.pin with fails := tabPut failNone s.pin.fails (vecKey r c.vn) a } }) s

/-- A vector period begins at the balls (R55, R239): its number, the records of its judged strobes, its data words, and the edges and strobes
that lie within its period. -/
def startVector (i : Nat) (c : Cur) (s : State) : State :=
  let s := setSite s i { siteOf s i with cur := some c }
  let s := if c.cls = .ordinary then openVector i c s else s
  let mask := (siteOf s i).mask
  let s := if c.cls = .idle then s
    else forS (banksOf mask) (fun b s => if (acqOf s b).cfg.site = i then acqStore b c.vn 0xFFFFFFFF s else s) s
  forS (pinsOf mask) (presentPin i c none) s

/-- The vector period now presented ends with its length, stretch included (R242, R244). -/
def finishVector (i len : Nat) (s : State) : State :=
  match (siteOf s i).cur with
  | none => s
  | some c =>
    let x := siteOf s i
    let s := setSite s i { x with cur := none, nextStart := c.start + len, hist := if c.cls = .idle then x.hist else ((c.vn, c.start, len) :: x.hist).take 1024 }
    forS (pinsOf x.mask) (presentPin i c (some len)) s

/-! ### Follow mode (R246–R250) -/

/-- The status of a loop that is set or cleared by EN (R247, R249, R250): no P_f is held at a value or at a limit, and none is locked. -/
def followClear (b : Nat) (s : State) : State :=
  let p := Page.bnk b
  let lock := rdb s p F.BNK_FOLLOW_STAT_LOCK
  let s := setLive (setLive (wrs s p [(F.BNK_FOLLOW_STAT_LOCK, 0), (F.BNK_FOLLOW_STAT_HOLD, 0), (F.BNK_FOLLOW_STAT_RANGE, 0)]) p 4 false) p 5 false
  if lock then raiseInt s p 9 else s

/-- A write of `BNK_FOLLOW_PHASE` (R249, Table 8-11): the loop moves to the new phase by the 1,000 ppm limit. -/
def followPhaseEffect (b word : Nat) (s : State) : State :=
  let s := wr s (.bnk b) F.BNK_FOLLOW_PHASE word
  setBank s b { bankOf s b with follow := { (bankOf s b).follow with slew := true } }

/-- A write of `BNK_FOLLOW` (R246, R98). -/
def followEffect (b word : Nat) (s : State) : State :=
  let p := Page.bnk b
  let en := word.testBit 0
  let split := (sitesOfBank s b).any fun i => (siteOf s i).mask >>> (4 * b) % 16 != 15
  if bankBusy s b || bits word 11 8 = 0 || bits word 15 12 = 0 || 5 < bits word 18 16 then fltEvent s p 7
  else if en && !rdb s p F.BNK_FOLLOW_EN && split then fltEvent s p 7
  else
    let was := rdb s p F.BNK_FOLLOW_EN
    let s := wrs s p [(F.BNK_FOLLOW_EN, b2n en), (F.BNK_FOLLOW_PIN, bits word 4 1), (F.BNK_FOLLOW_FALL, bits word 5 5),
      (F.BNK_FOLLOW_MUL, bits word 11 8), (F.BNK_FOLLOW_DIV, bits word 15 12), (F.BNK_FOLLOW_BW, bits word 18 16),
      (F.BNK_FOLLOW_SCALE, bits word 20 20)]
    if en && was then s
    else followClear b (setBank s b { bankOf s b with follow := followInit })

/-- FOLLOW_WRITE (R246). -/
def execFollowWrite (m b word : Nat) (s : State) : Host.Outcome State Fault Refusal := .next (takeIn m (.followWrite m b word) false (fun s => asWriter s m (.bnk b) F.BNK_FOLLOW_EN.off false (followEffect b word)) s)

/-- The lock state after a followed edge with a phase error in units of 1 ps (R247): 1,024 edges within 20 ps set LOCK, more than 100 ps
clears it; each change raises FOLLOW_LOCK. -/
def followLock (b : Nat) (err : Nat) (s : State) : State :=
  let p := Page.bnk b
  let x := bankOf s b
  let n := if err ≤ 20 then min (x.follow.inBand + 1) 1024 else 0
  let s := setBank s b { x with follow := { x.follow with inBand := n } }
  let was := rdb s p F.BNK_FOLLOW_STAT_LOCK
  let now := if 100 < err then false else was || n == 1024
  if now = was then s else raiseInt (wrb s p F.BNK_FOLLOW_STAT_LOCK now) p 9

/-- The phase error of a followed edge, with the distance of the starts it is measured to, both in 2^-32 ns times MUL (R247): the edge plus the phase against the starts of
vectors whose number is a multiple of DIV, each of which stands at a followed edge where neither the prescaler's 2^PRE edges nor MUL DUT periods step over it. -/
def phaseError (s : State) (b t : Nat) : Int × Nat :=
  let p := Page.bnk b
  let x := (bankOf s b).follow
  let period := followPeriod s b
  let mul := rd s p F.BNK_FOLLOW_MUL
  let div := rd s p F.BNK_FOLLOW_DIV
  let at' : Int := (t : Int) + toSigned 32 (rd s p F.BNK_FOLLOW_PHASE) * 65536
  match x.org with
  | none => (0, 1)
  | some o =>
    let o := sequenceAt period div o t
    let grid := max 1 (Nat.gcd mul (2 ^ rd s p (F.EDG_PIN_CFG_PRE (rd s p F.BNK_FOLLOW_PIN))) * div * period)
    let e := ((at' - ((o.1 : Int) - (o.2 * period : Nat))) * (mul : Int)) % (grid : Int)
    (if (grid : Int) < 2 * e then e - grid else e, grid)

/-- The size of a phase error in ps, rounded up. -/
def errorPs (s : State) (b t : Nat) : Nat :=
  let unit := 2 ^ 32 * max 1 (rd s (.bnk b) F.BNK_FOLLOW_MUL)
  ((phaseError s b t).1.natAbs * 1000 + unit - 1) / unit

/-- P_f as the loop measures and steers it at a followed edge (R247): T_c × MUL / DIV, with T_c the interval since the last followed edge over the prescale factor, in
2^-32 ns rounded down; while the phase error is not zero, more or less by a free value, as the loop's filter has no numbers in the spec but its bandwidth (log 98). The first
edge measures nothing. -/
def followTarget (s : State) (b t : Nat) : Nat :=
  let p := Page.bnk b
  match (bankOf s b).follow.last with
  | none => followPeriod s b
  | some u =>
    let base := (t - u) * rd s p F.BNK_FOLLOW_MUL / max 1 (2 ^ rd s p (F.EDG_PIN_CFG_PRE (rd s p F.BNK_FOLLOW_PIN)) * rd s p F.BNK_FOLLOW_DIV)
    if (phaseError s b t).1 = 0 then base else ((base : Int) + toSigned 57 (freeNow s % 2 ^ 57)).toNat

/-- Where the 1,000 ppm limit of R249 lets the period go. -/
def slewLimit (period target : Nat) : Nat := max (period - period / 1000) (min target (period + period / 1000))

/-- The loop of a bank in follow mode takes the oldest followed edge (R247, R249, R250). A hold ends, and from there the period changes by at most 1,000 ppm an edge until the
phase is restored to within 20 ps; the period is held within the mode minimum and 1.0 ms under RANGE, and no start of the sequence moves but by it (R248). -/
def followedEdge (b : Nat) (s : State) : State :=
  let p := Page.bnk b
  match (bankOf s b).follow.edges with
  | [] => s
  | t :: rest =>
    let x := (bankOf s b).follow
    let held := rdb s p F.BNK_FOLLOW_STAT_HOLD
    let period := followPeriod s b
    let err := errorPs s b t
    let slew := (x.slew || held) && x.org.isSome
    let want := if slew || held then slewLimit period (followTarget s b t) else followTarget s b t
    let free := decide ((phaseError s b t).1 ≠ 0)
    let org := match x.org with
      | some o => sequenceAt period (rd s p F.BNK_FOLLOW_DIV) o t
      | none => (((t : Int) + toSigned 32 (rd s p F.BNK_FOLLOW_PHASE) * 65536).toNat, 0)
    let s := setBank s b { bankOf s b with follow := { x with seen := x.seen || x.last.isSome, edges := rest, last := some t, org := some org,
                                                              slew := slew && decide (20 < err) } }
    let s := if held then raiseInt (setLive (wrb s p F.BNK_FOLLOW_STAT_HOLD false) p 4 false) p 11 else s
    let lo := minPeriod (rdb s p F.BNK_STAT_MODE_ACT)
    let out := decide (want < lo) || decide (maxPeriod < want)
    let s := setLiveInt (wrb s p F.BNK_FOLLOW_STAT_RANGE out) p 5 5 out
    let s := wr s p F.BNK_FOLLOW_PER (max lo (min want maxPeriod))
    followLock b err (if free then freeStep s else s)

/-- FOLLOWED_EDGE (R247). -/
def execFollowedEdge (b : Nat) (s : State) : Host.Outcome State Fault Refusal :=
  .next (if rdb s (.bnk b) F.BNK_FOLLOW_EN then followedEdge b s else s)

/-- No followed edge for 640 ns (R249): the bank holds P_f at its last value, before the first edge the period of the current vector's set. -/
def followHold (b : Nat) (s : State) : State :=
  let p := Page.bnk b
  if rdb s p F.BNK_FOLLOW_EN && !rdb s p F.BNK_FOLLOW_STAT_HOLD && (bankOf s b).follow.edges.isEmpty then
    let s := setBank (wr s p F.BNK_FOLLOW_PER (followPeriod s b)) b { bankOf s b with follow := { (bankOf s b).follow with seen := true } }
    setLiveInt (incSat (wrb s p F.BNK_FOLLOW_STAT_HOLD true) p F.FOLLOW_HOLDS) p 4 4 true
  else s

/-- FOLLOW_HOLD (R249). -/
def execFollowHold (b : Nat) (s : State) : Host.Outcome State Fault Refusal := .next (followHold b s)

/-! ### Drivers (R251, R252) -/

/-- A write of `BNK_PIN_TXEQ` (R252): refused outside the limits; the taps come into force at the pin's next vector boundary. -/
def pinTxeqEffect (b j word : Nat) (s : State) : State :=
  let pre := bits word 2 0
  let main := bits word 13 8
  let post := bits word 20 16
  if main < 24 || 23 < post || 63 < pre + main + post then fltEvent s (.bnk b) 7
  else wrs s (.bnk b) [(F.BNK_PIN_TXEQ_C_PRE j, pre), (F.BNK_PIN_TXEQ_C_MAIN j, main), (F.BNK_PIN_TXEQ_C_POST j, post)]

/-- PIN_TXEQ_WRITE (R252). -/
def execPinTxeqWrite (m b j word : Nat) (s : State) : Host.Outcome State Fault Refusal :=
  .next (takeIn m (.pinTxeqWrite m b j word) false (fun s => asWriter s m (.bnk b) (F.BNK_PIN_TXEQ_C_PRE j).off false (pinTxeqEffect b j word)) s)

/-! ### PE control ports (R254–R257) -/

/-- The bank whose page drives port n: SEL of bank 2n's page (R254). -/
def pecBank (s : State) (n : Nat) : Nat := 2 * n + rd s (.bnk (2 * n)) F.BNK_PEC_CFG_SEL

/-- Store a port; the level and activity fields of the selected page follow it (Table 8-13). -/
def putPec (n : Nat) (x : Pec) (s : State) : State :=
  let s := setPec s n x
  wrs s (.bnk (pecBank s n)) [(F.BNK_PEC_STAT_TX_LEVEL, x.tx.length), (F.BNK_PEC_STAT_RX_LEVEL, x.rx.length),
    (F.BNK_PEC_STAT_BUSY, b2n x.busy.isSome),
    (F.BNK_PEC_STAT_WAITING, b2n (x.busy.isNone && ((x.tx.head?.map fun t => t.wait.isSome).getD false)))]

/-- The PE port that a bank's page drives loses its queues and the transfer in progress, as the registers of that page are reset or its domain turns off (R254, R405, R465). -/
def pecLost (b : Nat) (s : State) : State := if pecBank s (b / 2) = b then putPec (b / 2) pecInit s else s

/-- A write of `BNK_PEC_TX_CTL` in the page of bank b (R256, R257). -/
def pecPush (b word : Nat) (s : State) : State :=
  let n := b / 2
  let p := Page.bnk b
  let x := pecOf s n
  let len := bits word 6 0
  let when_ := word.testBit 8
  let i := bits word 21 16
  let siteBad := (siteOf s i).owner ≠ some (bankOwner s b) || (siteOf s i).mask >>> (8 * n) % 256 = 0
  if pecBank s n ≠ b then s
  else if 32 ≤ x.tx.length || len < 8 || 64 < len || (when_ && siteBad) || !rdb s p F.BNK_PEC_CFG_EN then fltEvent s p 6
  else
    putPec n { x with tx := x.tx ++ [{ len := len, data := (rd s p F.BNK_PEC_TX_LO + rd s p F.BNK_PEC_TX_HI * 2 ^ 32) % 2 ^ len,
                                       wait := if when_ then some (i, rd s p F.BNK_PEC_TX_VN) else none, rx := word.testBit 24 }] } s

/-- PEC_TX_PUSH (R256). -/
def execPecTxPush (m b word : Nat) (s : State) : Host.Outcome State Fault Refusal := .next (takeIn m (.pecTxPush m b word) false (fun s => asWriter s m (.bnk b) F.BNK_PEC_TX_CTL_LEN.off false (pecPush b word)) s)

/-- A site presents, or has presented, vector vn: a vector with a number has begun and its number is at least vn (R256, R257). -/
def vnReached (s : State) (i vn : Nat) : Bool := decide (vn < (siteOf s i).nextVn)

/-- A site now presents vector vn; an idle item after it is past it (R256, R257). -/
def presents (s : State) (i vn : Nat) : Bool :=
  match (siteOf s i).cur with
  | some c => c.vn == vn && c.cls != .idle
  | none => false

/-- A site stops: queued transfers that wait for it are removed, each counting `PEC_DISC` (R257). -/
def pecSiteStop (i : Nat) (s : State) : State :=
  forS (List.range 8) (fun n s =>
    let x := pecOf s n
    let gone := x.tx.filter fun t => (t.wait.map (·.1)) == some i
    if gone.isEmpty then s
    else putPec n { x with tx := x.tx.filter fun t => (t.wait.map (·.1)) != some i } (addSat s (.bnk (pecBank s n)) F.PEC_DISC gone.length)) s

/-- The head transfer starts (R254, R256, R257) while the power domain of the selected bank is on: at once, or when its site presents its vector; after that vector it
starts at once and counts. Where its site is neither PRIMING nor RUNNING, every transfer that waits for the site is removed. -/
def pecStart (n : Nat) (s : State) : State :=
  let x := pecOf s n
  let p := Page.bnk (pecBank s n)
  if !(rd s .pwrDev F.PWR_DOM_ON).testBit (pecBank s n) then s
  else match x.busy, x.tx with
  | none, t :: rest =>
    let go (s : State) : State := emit (putPec n { x with tx := rest, busy := some t } s)
      (.pec n t.len t.data (rd s p F.BNK_PEC_CFG_CPOL) (rd s p F.BNK_PEC_CFG_CPHA) (rd s p F.BNK_PEC_CFG_DIV) (max 1 (rd s p F.BNK_PEC_CFG_GAP)))
    match t.wait with
    | none => go s
    | some (i, vn) =>
      if siteState s i = 3 && vnReached s i vn then
        if presents s i vn then go s else go (raiseInt (incSat s p F.PEC_LATE) p 10)
      else if siteBusy s i then s
      else pecSiteStop i s
  | _, _ => s

/-- PEC_TRANSFER_START (R256). -/
def execPecTransferStart (n : Nat) (s : State) : Host.Outcome State Fault Refusal := .next (pecStart n s)

/-- The transfer on the wire ends with the received bits (R255–R257). -/
def pecEnd (n miso : Nat) (s : State) : State :=
  let x := pecOf s n
  match x.busy with
  | none => s
  | some t =>
    if t.rx then
      if 16 ≤ x.rx.length then putPec n { x with busy := none } (fltEvent s (.bnk (pecBank s n)) 6)
      else putPec n { x with busy := none, rx := x.rx ++ [miso % 2 ^ t.len] } s
    else putPec n { x with busy := none } s

/-- PEC_TRANSFER_END (R255). -/
def execPecTransferEnd (n miso : Nat) (s : State) : Host.Outcome State Fault Refusal := .next (pecEnd n miso s)

/-- A read of `BNK_PEC_RX_HI` (R256, R257): the head's high word, and the head pops; an empty queue, or a page not selected, reads zero. -/
def pecPop (m b : Nat) (s : State) : State :=
  let n := b / 2
  let x := pecOf s n
  match x.rx with
  | w :: rest =>
    if mayRead s m (.bnk b) F.BNK_PEC_RX_HI.off false && pecBank s n = b then emit (putPec n { x with rx := rest } s) (.read m (w / 2 ^ 32)) else emit s (.read m 0)
  | [] => emit s (.read m 0)

/-- PEC_RX_POP (R256). -/
def execPecRxPop (m b : Nat) (s : State) : Host.Outcome State Fault Refusal := .next (takeIn m (.pecRxPop m b) false (pecPop m b) s)

/-- A write of `BNK_PEC_CFG` in the page of bank b (R254, R255, R257). SEL is a PRV field of bank 2n's page. Clearing EN or changing SEL empties
the transmit queue without counting; the transfer in progress and the receive queue stay. In the page not selected, all fields but SEL ignore the write. A
master without privileged rights that would change SEL has that field ignored and counted (R428, log 110). -/
def pecCfgEffect (m b word : Nat) (s : State) : State :=
  let n := b / 2
  let p := Page.bnk b
  let selOk := b % 2 = 0 && isPriv s m
  let oldSel := rd s (.bnk (2 * n)) F.BNK_PEC_CFG_SEL
  let sel := if selOk then bits word 16 16 else oldSel
  let mine := decide (pecBank s n = b)
  if mine && bits word 10 4 = 0 then fltEvent s p 6
  else
    let s := if mine && ownsPage s m p then
      wrs s p [(F.BNK_PEC_CFG_EN, bits word 0 0), (F.BNK_PEC_CFG_CPOL, bits word 1 1), (F.BNK_PEC_CFG_CPHA, bits word 2 2),
        (F.BNK_PEC_CFG_DIV, bits word 10 4), (F.BNK_PEC_CFG_GAP, bits word 15 12)] else s
    let s := if (mine && ownsPage s m p && !word.testBit 0) || sel ≠ oldSel then putPec n { pecOf s n with tx := [] } s else s
    let s := if b % 2 = 0 && !isPriv s m && bits word 16 16 != oldSel then countNonown s m else s
    putPec n (pecOf s n) (wr s (.bnk (2 * n)) F.BNK_PEC_CFG_SEL sel)

/-- PEC_CFG_WRITE (R257): by the bank's owner, and for SEL by the privileged master. -/
def execPecCfgWrite (m b word : Nat) (s : State) : Host.Outcome State Fault Refusal :=
  .next (takeIn m (.pecCfgWrite m b word) false
    (fun s => accessIf s m (.bnk b) F.BNK_PEC_CFG_EN.off (ownsPage s m (.bnk b) || isPriv s m) (pecCfgEffect m b word)) s)

/-! ### Spare slices (R258) -/

/-- BNK_SPARE_WRITE (R258): the completed pair names the pin slot; the mapping waits for SPARE_SUBSTITUTION. -/
def execBnkSpareWrite (m b comp : Nat) (s : State) : Host.Outcome State Fault Refusal :=
  .next (takeIn m (.bnkSpareWrite m b comp) false
    (fun s => pairComplete m (.bnk b) F.BNK_SPARE_PIN.off comp (fun v s => wrs s (.bnk b) [(F.BNK_SPARE_PIN, bits v 3 0), (F.BNK_SPARE_VALID, bits v 4 4)]) s) s)

/-- The spare slice of an idle bank takes the mapping named (R31, R258). -/
def sliceSubstitute (b : Nat) (s : State) : State :=
  if bankBusy s b then s
  else
    let valid := rdb s (.bnk b) F.BNK_SPARE_VALID
    wrb (setBank s b { bankOf s b with spare := if valid then some (rd s (.bnk b) F.BNK_SPARE_PIN) else none }) (.bnk b) F.BNK_SPARE_ACTIVE valid

end Sys2Proof.Machine
end

