-- ==== Sys2Proof/Machine/Caravans.lean ====
section
/-! DEFINITION. Engines and the dispatcher (chapter 6): tokens and the pool, submissions, waystations, decisions, handover, commit, machine
checks, and the completion entries of the host's descriptor rings. -/

namespace Sys2Proof.Machine

open Sys2Proof

/-! ### Furrow write side (R204, R206, R208, R221) -/

/-- Difference of two main-region pointers, modulo 2^15 (R204). -/
def ptrDiff (a b : Nat) : Nat := (a + 2 ^ 15 - b) % 2 ^ 15

/-- A main-region pointer advanced. -/
def ptrAdd (a n : Nat) : Nat := (a + n) % 2 ^ 15

/-- HELD_w: entries committed and, as the write side sees it, not released (R209). -/
def heldW (x : Fur) : Nat := ptrDiff x.vis x.relW

/-- FREE_w: entries free as the write side sees it (R209). -/
def freeW (x : Fur) : Nat := 16384 - ptrDiff x.res x.relW

/-- Free main tags as the write side sees them (`FUR_TAGS.MAIN_FREE`). -/
def tagsFree (x : Fur) : Nat := 1024 - x.tagRes - (x.tagVis - x.tagRelW)

/-- Store a furrow; WEIR is raised where HELD_w rises to the level from below (R221). -/
def putFur (q : Nat) (x : Fur) (s : State) : State :=
  let before := heldW (furOf s q)
  let level := rd s (.bnk (q / 4)) (F.FUR_WEIR_LEVEL (q % 4))
  let s := setFur s q x
  if before < level && level ≤ heldW x then raiseInt s (.bnk (q / 4)) (20 + q % 4) else s

/-- A record joins a pointer queue of four; while it is full the source holds the newest value (R206). -/
def pushRec (l : List PtrRec) (hold : Option PtrRec) (r : PtrRec) : List PtrRec × Option PtrRec :=
  if l.length < 4 && hold.isNone then (l ++ [r], none) else (l, some r)

/-- The write side sends its visible pointers towards the read side (R206). -/
def sendVis (x : Fur) : Fur :=
  let r : PtrRec := ⟨x.vis, x.half1.vis, x.half2.vis, 0, 0, 0⟩
  let p := pushRec x.toRead x.holdRead r
  { x with toRead := p.1, holdRead := p.2 }

/-- The read side sends its release pointers and the tags released towards the write side (R206). -/
def sendRel (x : Fur) : Fur :=
  let p := pushRec x.toWrite x.holdWrite ⟨x.rel, x.half1.rel, x.half2.rel, x.tagRel, x.half1.tagRel, x.half2.tagRel⟩
  { x with toWrite := p.1, holdWrite := p.2 }

/-- Difference of two pointers of a side half, modulo 2^11: 1,024 entries and a lap bit (R204). -/
def sideDiff (a b : Nat) : Nat := (a + 2 ^ 11 - b) % 2 ^ 11

/-- A pointer of a side half advanced. -/
def sideAdd (a n : Nat) : Nat := (a + n) % 2 ^ 11

/-- Tags of a side half that are not free as the write side sees them: reserved, or committed and not released (R208). -/
def halfTags (h : Half) : Nat := h.tagRes + (h.tagVis - h.tagRelW)

/-- A side half is empty as the write side sees it: every place and every tag is free (R184, R208, R218). -/
def halfFree (h : Half) : Bool := h.res == h.relW && halfTags h == 0

/-- The half of a furrow that a side caravan fills: A the first, B and S the second (R188). -/
def halfOf (x : Fur) (h : Nat) : Half := if h = 1 then x.half1 else x.half2

/-- Store a half. -/
def setHalf (x : Fur) (h : Nat) (y : Half) : Fur := if h = 1 then { x with half1 := y } else { x with half2 := y }

/-- What a side half holds beyond its visible pointer is given up: RES and STG return to VIS, with their tags. -/
def dropHalf (h : Half) : Half := { h with res := h.vis, stg := h.vis, tagRes := 0, tagStg := 0 }

/-- A side half is released (R218): nothing of it is left to present; the write side sees it free when the release pointer has crossed. -/
def releaseHalf (h : Half) : Half := { dropHalf h with rel := h.vis, pr := h.vis, tagRel := h.tagVis }

/-- The region that a kind of caravan writes: 0 main, 1 the first half, 2 the second (R188). -/
def kindRegion (kind : Nat) : Nat := if kind = 0 then 0 else if kind = 1 then 1 else 2

/-! ### Tokens (R177, R178) -/

/-- The engines at work with their records. -/
def works (s : State) : List Work := (List.range 68).filterMap fun e => (engOf s e).work

/-- Every caravan in a ready list, or assigned and not yet handed over. -/
def readyCars (s : State) : List Car := (List.range 64).flatMap (fun r => (routeOf s r).ready) ++ s.pat.assigned.map (·.1)

/-- Every caravan that holds a token. -/
def allCars (s : State) : List Car := s.pat.way ++ readyCars s ++ (works s).map (·.car) ++ s.pat.retiring

/-- Tokens a partition holds that are not FREE. -/
def partTokens (s : State) (n : Nat) : Nat := ((allCars s).filter fun c => c.part = n).length

/-- Waystation places of a partition that are taken: by tokens in WAITING, and by chained copies that keep the place free at their commit (R174, R177). -/
def partWaiting (s : State) (n : Nat) : Nat := ((s.pat.way ++ s.pat.retiring.filter fun c => c.resv).filter fun c => c.part = n).length

/-- The tick counts of the time bases: they tell one cycle from a later one. -/
def tickMark (s : State) : List Nat := (List.range 5).map (tabGet 0 s.tim.ticks)

/-- A handover is in its one cycle: none of the clocks has ticked since (R177). -/
def handing (s : State) : Bool := s.pat.handover.isSome && s.pat.handAt == tickMark s

/-- The six counts of R177: FREE, WAITING, READY, SERVICE, RETIRING, HANDOVER. -/
def poolCounts (s : State) : List Nat :=
  let w := s.pat.way.length
  let r := (readyCars s).length
  let h := b2n (handing s)
  let v := (works s).length - h
  let t := s.pat.retiring.length
  [8192 - (w + r + v + t + h), w, r, v, t, h]

/-- Tokens in the pool. -/
def poolFree (s : State) : Nat := (poolCounts s).headD 0

/-- The token quota of a partition (R178). -/
def tokenQuota (s : State) (n : Nat) : Nat :=
  rd s .disDev (match n with | 0 => F.DIS_POOL_QUOTA_0 | 1 => F.DIS_POOL_QUOTA_1 | 2 => F.DIS_POOL_QUOTA_2 | _ => F.DIS_POOL_QUOTA_3)

/-- The waystation quota of a partition (R178). -/
def wayQuota (s : State) (n : Nat) : Nat :=
  rd s .disDev (match n with | 0 => F.DIS_WAY_QUOTA_0 | 1 => F.DIS_WAY_QUOTA_1 | 2 => F.DIS_WAY_QUOTA_2 | _ => F.DIS_WAY_QUOTA_3)

/-- A token can be had within the partition's quota. -/
def tokenFree (s : State) (n : Nat) : Bool := decide (0 < poolFree s) && decide (partTokens s n < tokenQuota s n)

/-- A waystation place can be had within the partition's quota. -/
def placeFree (s : State) (n : Nat) : Bool := decide (partWaiting s n < wayQuota s n)

/-- POOL_EMPTY is raised when FREE reaches 0 (R192): `before` is the state before tokens were taken. -/
def poolCheck (before s : State) : State := if poolFree before ≠ 0 && poolFree s = 0 then raiseInt s .disDev 10 else s

/-- The tick count of the dispatcher (R182). -/
def disTick (s : State) : Nat := rd s .disDev F.DIS_TICK

/-- The one cycle of a handover is over: the token is in SERVICE (R177, R183). -/
def settle (s : State) : State := { s with pat := { s.pat with handover := none } }

/-! ### Completion entries (R411, Table 15-5) -/

/-- Completion places reserved in a ring. -/
def cplReserved (s : State) (n d : Nat) : Nat := tabGet 0 s.pat.cplRes (n * 4 + d)

/-- Set the reserved places of a ring. -/
def setReserved (n d v : Nat) (s : State) : State := { s with pat := { s.pat with cplRes := tabPut 0 s.pat.cplRes (n * 4 + d) v } }

/-- The places of a completion ring that are neither used nor reserved. -/
def cplPlaces (s : State) (n d : Nat) : Nat :=
  let p := Page.bar4 n
  2 ^ rd s p (F.DESC_CTRL_SIZE d) - (rd s p (F.DESC_CPL_PROD d) + 2 ^ 32 - rd s p (F.DESC_CPL_CONS d)) % 2 ^ 32 - cplReserved s n d

/-- Write a completion entry and raise CPL (R411). -/
def putCompletion (n d ident status event route site : Nat) (s : State) : State :=
  let p := Page.bar4 n
  let prod := rd s p (F.DESC_CPL_PROD d)
  let size := 2 ^ rd s p (F.DESC_CTRL_SIZE d)
  let phase := b2n (decide (prod / size % 2 = 0))
  let v := ident + (status + event * 16 + phase * 128) * 2 ^ 16 + route * 2 ^ 24 + site * 2 ^ 32 + disTick s * 2 ^ 64
  let s := emit s (.completion n d (prod % size) v)
  raiseInt (wr s p (F.DESC_CPL_PROD d) (prod + 1)) (.hifPart n) (2 + d)

/-- A caravan from a host ring completes, with NOTIFY = 1 (R411): a submitted one on its reserved place, a chained copy on a free place, or the
completion is lost. -/
def notifyDone (c : Car) (event : Nat) (s : State) : State :=
  if !c.notify || 4 ≤ c.ring then s
  else if c.source = 1 then
    putCompletion c.part c.ring c.ident 0 event c.route c.site (setReserved c.part c.ring (cplReserved s c.part c.ring - 1) s)
  else if 0 < cplPlaces s c.part c.ring then putCompletion c.part c.ring c.ident 0 event c.route c.site s
  else raiseInt (incSat s (.hifPart c.part) F.CPL_LOST) (.hifPart c.part) 6

/-! ### Submissions (R172, R173, R181, R192) -/

/-- A descriptor read from its 32 bytes (Table 6-4) for a partition; deadlines and ticks are set when it is accepted. -/
def parseDesc (raw part source ring : Nat) : Car :=
  { route := bits raw 85 80, site := bits raw 93 88, part := part, kind := bits raw 105 104, entries := bits raw 77 64,
    asked := bits raw 77 64,
    relMode := raw.testBit 94, release := bits raw 63 0, relTick := none, prio := bits raw 103 96, chainN := bits raw 127 112,
    chainStep := bits raw 159 128, ident := bits raw 175 160, notify := raw.testBit 176, source := source, ring := ring, submitTick := 0,
    deadline := 0, fails := 0, lastEng := none, altIndex := 0, bound := 0, resv := false }

/-- A reserved bit of a descriptor is set (R172). -/
def descReserved (raw : Nat) : Bool :=
  bits raw 79 78 != 0 || bits raw 87 86 != 0 || raw.testBit 95 || bits raw 111 106 != 0 || bits raw 183 177 != 0 || bits raw 255 184 != 0

/-- The status of a submission in the state of its cycle (Table 6-5). DESIGN CHOICE (log 96): of several that apply the one of lowest code is reported. -/
def submitStatus (s : State) (c : Car) (resv : Bool) : Nat :=
  if (siteOf s c.site).owner ≠ some c.part || !(routesOf (siteOf s c.site).mask).contains c.route then 1
  else if c.entries < 64 || 8192 < c.entries then 2
  else if resv || c.kind ≠ 0 then 3
  else if !siteBusy s c.site || !(siteOf s c.site).stops.isEmpty && siteState s c.site ≠ 3 then 4
  else if (routeOf s c.route).endPos.isSome then 5
  else 0

/-- The release tick of a caravan (R180): absolute, or relative to the epoch tick once it is set. -/
def relTickOf (s : State) (c : Car) : Option Nat :=
  if c.relMode then (siteOf s c.site).epochTick.map fun e => ((e : Int) + toSigned 64 c.release).toNat else some c.release

/-- The deadline of a main caravan (R179). -/
def carDeadline (rel prio : Nat) : Nat := rel + 4 * (255 - prio)

/-- A caravan is due: its release tick is set and not later than the present tick. -/
def carDue (s : State) (c : Car) : Bool := match relTickOf s c with | some t => decide (t ≤ disTick s) | none => false

/-- The caravan goes straight to its ready list: it is due and no earlier caravan of its route waits (R181). -/
def goesReady (s : State) (c : Car) : Bool := carDue s c && !(s.pat.way.any fun w => w.route = c.route)

/-- A caravan can be taken now: a token is free and, where it must wait, a waystation place (R192). -/
def canTake (s : State) (c : Car) : Bool := tokenFree s c.part && (goesReady s c || placeFree s c.part)

/-- The caravan with its release tick and deadline resolved. -/
def resolveCar (s : State) (c : Car) : Car :=
  match relTickOf s c with
  | some t => { c with relTick := some t, deadline := carDeadline t c.prio }
  | none => c

/-- File a caravan: at the tail of its ready list, or in its waystation (R181). -/
def fileCar (c : Car) (s : State) : State :=
  let c := resolveCar s { c with submitTick := disTick s }
  if goesReady s c then setRoute s c.route { routeOf s c.route with ready := (routeOf s c.route).ready ++ [c] }
  else { s with pat := { s.pat with way := s.pat.way ++ [c] } }

/-- A refused submission (R173): counted, shown in `DIS_P_REFUSE`, raised. -/
def refuseCar (c : Car) (status : Nat) (s : State) : State :=
  let p := Page.disPart c.part
  let s := wrs (incSat s p F.SUB_REFUSED) p [(F.DIS_P_REFUSE_STATUS, status), (F.DIS_P_REFUSE_ROUTE, c.route), (F.DIS_P_REFUSE_SITE, c.site),
    (F.DIS_P_REFUSE_SOURCE, c.source), (F.DIS_P_REFUSE_RING, if c.source = 1 then c.ring else 0)]
  raiseInt s p 11

/-- A chained copy is accepted or refused when it is filed (R173, R174): it has its token already. A refusal is reported like any other: to firmware in a response, and to
the host in a completion entry of the ring the descriptor came from, on a free place or not at all (R411). -/
def submitCopy (c : Car) (s : State) : State :=
  let st := submitStatus s c false
  if st = 0 then incWrap (fileCar c s) (.disPart c.part) F.SUBMITTED
  else
    let s := refuseCar c st s
    if 4 ≤ c.ring then emit s (.fwResponse c.ident st)
    else if 0 < cplPlaces s c.part c.ring then putCompletion c.part c.ring c.ident st 0 c.route c.site s
    else raiseInt (incSat s (.hifPart c.part) F.CPL_LOST) (.hifPart c.part) 6

/-- Accept or refuse a caravan that can be taken (R173); firmware gets its response. -/
def submitCar (c : Car) (resv : Bool) (s : State) : State :=
  let st := submitStatus s c resv
  let s := if c.source = 0 then emit s (.fwResponse c.ident st) else s
  if st ≠ 0 then refuseCar c st s
  else poolCheck s (incWrap (fileCar c s) (.disPart c.part) F.SUBMITTED)

/-- The firmware queue is served in order until its front cannot be taken; a descriptor is checked only when it is taken (R173, R192). The kind field above 3 marks a
reserved bit. -/
def serveFw : Nat → State → State
  | 0, s => s
  | k + 1, s =>
    match s.pat.fwQueue with
    | [] => s
    | c :: rest =>
      if canTake s c then
        serveFw k (submitCar c (decide (3 < c.kind)) { s with pat := { s.pat with fwQueue := rest } })
      else s

/-- A side caravan joins the head of its ready list, behind the side caravans filed before it and behind a caravan that is held (R171, R181, R188). -/
def putSide (c : Car) (x : Route) : Route :=
  let n := (if x.held then 1 else 0)
  let k := n + ((x.ready.drop n).takeWhile fun d => d.kind ≠ 0).length
  { x with ready := x.ready.take k ++ c :: x.ready.drop k }

/-- Requests for side caravans that wait for a token are served first of all sources (R192, Table 6-8). -/
def serveSides (s : State) : State :=
  forS (List.range 64) (fun r s =>
    let x := routeOf s r
    match x.sideWait with
    | [] => s
    | c :: rest =>
      if tokenFree s c.part then poolCheck s (setRoute s r (putSide { c with deadline := disTick s } { x with sideWait := rest })) else s) s

/-- Waiting requesters are served when tokens or places come free: side caravans, then firmware (Table 6-8); host rings at their next
DESCRIPTOR_FETCH. -/
def serveWaiting (s : State) : State := serveFw 64 (serveSides s)

/-- A firmware submission (R173): the queue holds 64 descriptors; a descriptor that has to wait counts one `BP_EVENTS`. DESIGN CHOICE (log 96): one that names a site
which no partition has defined counts in partition 0. -/
def firmwareSubmit (raw : Nat) (s : State) : State :=
  if 64 ≤ s.pat.fwQueue.length then s
  else
    let part := sitePart s (bits raw 93 88)
    let c := parseDesc raw part 0 4
    let c := if descReserved raw then { c with kind := c.kind + 4 } else c
    let t := serveFw 64 { s with pat := { s.pat with fwQueue := s.pat.fwQueue ++ [c] } }
    if t.pat.fwQueue.isEmpty then t else incSat t (.disPart part) F.BP_EVENTS

/-- FIRMWARE_SUBMISSION (R173). -/
def execFirmwareSubmission (raw : Nat) (s : State) : Host.Outcome State Fault Refusal := .next (firmwareSubmit raw (settle s))

/-- Held rings of partitions that come before this one in the order of the weighted round-robin and that only want a token or place now free: they are served first
(Table 6-8). -/
def ringsBefore (s : State) (n : Nat) : Nat :=
  ((((List.range 4).map fun k => (s.pat.wrrPtr + k) % 4).takeWhile fun m => m != n).filter fun m =>
    tokenFree s m && placeFree s m && (List.range 4).any fun d => rdb s (.bar4 m) (F.DESC_STAT_HELD d) && decide (cplPlaces s m d ≠ 0)).length

/-- A descriptor ring waits for a token or a waystation place, or waits no longer; a wait that begins counts one `BP_EVENTS` (R192). -/
def setRingWait (n d : Nat) (on : Bool) (s : State) : State :=
  let was := tabGet false s.pat.ringWait (n * 4 + d)
  let s := { s with pat := { s.pat with ringWait := tabPut false s.pat.ringWait (n * 4 + d) on } }
  if on && !was then incSat s (.disPart n) F.BP_EVENTS else s

/-- A descriptor ring is HELD or not (R411), and waits for a token or place or not (R192). -/
def holdRing (n d : Nat) (held wait : Bool) (s : State) : State := setRingWait n d wait (wrb s (.bar4 n) (F.DESC_STAT_HELD d) held)

/-- A descriptor read from a host ring (R410, R411): a completion place is reserved for it. Blocked for want of a token, a waystation place or a
completion place, the ring is HELD and nothing is read. Where tokens are too few for all held rings, those of
partitions earlier in the round-robin go first. The descriptor is checked only when it is taken (R173). -/
def descFetch (n d raw : Nat) (s : State) : State :=
  let p := Page.bar4 n
  let cons := rd s p (F.DESC_CONS d)
  if !awake s then s
  else if !rdb s p (F.DESC_CTRL_EN d) || cons = rd s p (F.DESC_PROD d) then holdRing n d false false s
  else
    let c := parseDesc raw n 1 d
    let st := submitStatus s c (descReserved raw)
    if cplPlaces s n d = 0 then holdRing n d true false s
    else if !canTake s c || decide (poolFree s ≤ ringsBefore s n) then holdRing n d true true s
    else
      let s := wr (holdRing n d false false s) p (F.DESC_CONS d) (cons + 1)
      if st ≠ 0 then putCompletion n d c.ident st 0 c.route c.site (refuseCar c st s)
      else
        let s := if c.notify then setReserved n d (cplReserved s n d + 1) s else s
        submitCar c false s

/-- DESCRIPTOR_FETCH (R410): `raw` is what the host's memory holds at the index `DESC_CONS`. -/
def execDescriptorFetch (n d raw : Nat) (s : State) : Host.Outcome State Fault Refusal := .next (descFetch n d raw (settle s))

/-! ### Engines and shares (R165, R186, R187) -/

/-- The power domain of a cluster is on: PD16 to PD19. -/
def clusterOn (s : State) (k : Nat) : Bool := (rd s .pwrDev F.PWR_DOM_ON).testBit (16 + k)

/-- The cluster is in CS_HOLD (R168). -/
def csHold (s : State) (k : Nat) : Bool := (rd s .disDev F.DIS_CLU_STAT_CS_HOLD).testBit k

/-- The microcode that a cluster's control store holds (R167), as the version of the manifest part it came from. -/
def csImage (s : State) (k : Nat) : Option Nat := tabGet (some 0) s.pat.cstore k

/-- Word a of a cluster's control store (R167): 32 bits of microcode and, as bit 32, the bit that makes the parity of all 33 even; 0 where nothing is loaded. -/
def csWord (s : State) (k a : Nat) : Nat :=
  match csImage s k with
  | none => 0
  | some v =>
    let w := (Config.microcode v a).toNat
    w + (List.range 32).foldl (fun n b => n + b2n (w.testBit b)) 0 % 2 * 2 ^ 32

/-- Firmware loads the control store of a cluster from the microcode part of the active manifest (R167), after the cluster's power domain turns on. -/
def csLoad (k : Nat) (s : State) : State :=
  { s with pat := { s.pat with cstore := tabPut (some 0) s.pat.cstore k (some (s.boot.partVers.getD 1 0)) } }

/-- The contents of a cluster's control store are lost with its power domain. -/
def csLost (k : Nat) (s : State) : State := { s with pat := { s.pat with cstore := tabPut (some 0) s.pat.cstore k none } }

/-- Caravans may be handed to the engines of a cluster: its control store is loaded (R167) and it is not in CS_HOLD (R168). -/
def csReady (s : State) (k : Nat) : Bool := (csImage s k).isSome && !csHold s k

/-- The engine is active: not quarantined, and not a spare that has not been mapped in (R165). -/
def engActive (s : State) (e : Nat) : Bool :=
  let r := (engOf s e).role
  r == 2 || (r == 0 && decide (e % 17 ≠ 16))

/-- The engines that can serve shares, one of each cluster in turn: the device spreads each share across the clusters (R187, log 13). -/
def usableEngs (s : State) : List Nat :=
  ((List.range 68).map fun k => k % 4 * 17 + k / 4).filter fun e => engActive s e && clusterOn s (e / 17)

/-- The configured shares (`DIS_SHARE`). -/
def shares (s : State) : List Nat :=
  [rd s .disDev F.DIS_SHARE_0, rd s .disDev F.DIS_SHARE_1, rd s .disDev F.DIS_SHARE_2, rd s .disDev F.DIS_SHARE_3]

/-- The shares in force (`DIS_SHARE_ACT`). -/
def sharesAct (s : State) : List Nat :=
  [rd s .disDev F.DIS_SHARE_ACT_0, rd s .disDev F.DIS_SHARE_ACT_1, rd s .disDev F.DIS_SHARE_ACT_2, rd s .disDev F.DIS_SHARE_ACT_3]

/-- Write the shares in force. -/
def setSharesAct (l : List Nat) (s : State) : State :=
  wrs s .disDev [(F.DIS_SHARE_ACT_0, l.getD 0 0), (F.DIS_SHARE_ACT_1, l.getD 1 0), (F.DIS_SHARE_ACT_2, l.getD 2 0), (F.DIS_SHARE_ACT_3, l.getD 3 0)]

/-- The partition with the largest share; the higher number on equal shares (R187). -/
def largestShare (l : List Nat) : Nat := (List.range 4).foldl (fun a n => if l.getD a 0 ≤ l.getD n 0 then n else a) 0

/-- Shares reduced one by one, the largest first, until they fit the usable engines (R187). -/
def fitShares (usable : Nat) : Nat → List Nat → List Nat
  | 0, l => l
  | k + 1, l => if l.sum ≤ usable then l else
      let n := largestShare l
      fitShares usable k (l.set n (l.getD n 0 - 1))

/-- The shares last taken are fitted to the engines now usable (R187). -/
def refitShares (s : State) : State := setSharesAct (fitShares (usableEngs s).length 256 s.pat.shareCfg) s

/-- Shares come into force: a write of `DIS_SHARE` waits for the next decision (R187). -/
def takeShares (l : List Nat) (s : State) : State := refitShares { s with pat := { s.pat with shareCfg := l } }

/-- The partition that an engine serves, if any: a BUSY engine stays with its caravan's partition until commit or discard, and the usable engines are dealt to
the shares in force in partition order (R187). -/
def engPart (s : State) (e : Nat) : Option Nat :=
  let l := sharesAct s
  match (engOf s e).work with
  | some w => some w.car.part
  | none =>
  match (usableEngs s).idxOf? e with
  | none => none
  | some k => (List.range 4).find? fun n => decide ((l.take n).sum ≤ k) && decide (k < (l.take (n + 1)).sum)

/-- `ENG_STAT.STATE` (Table 6-1). -/
def engState (s : State) (e : Nat) : Nat :=
  if !clusterOn s (e / 17) then 0
  else if (engOf s e).role = 1 then 3
  else if (engOf s e).work.isSome then 2
  else if !engActive s e then 4
  else if (engPart s e).isSome then 1 else 5

/-- The engines of a partition's share. -/
def shareEngs (s : State) (n : Nat) : List Nat := (usableEngs s).filter fun e => engPart s e = some n

/-- The engine has no caravan and none is on its way. -/
def engIdle (s : State) (e : Nat) : Bool := (engOf s e).work.isNone && !(s.pat.assigned.any fun a => a.2 = e)

/-- The engines that may take a caravan (R167, R169, R184): idle ones of the share in clusters that are loaded and not in CS_HOLD, without the engine that failed it
unless that is the share's only engine. -/
def eligible (s : State) (c : Car) : List Nat :=
  let l := shareEngs s c.part
  (l.filter fun e => engIdle s e && csReady s (e / 17) && !pageSafe s (.eng e) && (some e != c.lastEng || l.length == 1))

/-- `ENG_BUSY` increase of an engine in the present window (R186). -/
def engLoad (s : State) (e : Nat) : Nat := rd s (.eng e) F.ENG_BUSY - (engOf s e).busyBase

/-- The least-loaded engine, the lower number on a tie (R186). -/
def leastLoaded (s : State) (l : List Nat) : Option Nat :=
  l.foldl (fun a e => match a with
    | none => some e
    | some f => if engLoad s e < engLoad s f || (engLoad s e = engLoad s f && e < f) then some e else some f) none

/-- The preferred cluster of a partition, where `DIS_HINT` names one (R186). -/
def hintOf (s : State) (n : Nat) : Option Nat :=
  let h := rd s .disDev (match n with | 0 => F.DIS_HINT_0 | 1 => F.DIS_HINT_1 | 2 => F.DIS_HINT_2 | _ => F.DIS_HINT_3)
  if h.testBit 2 then some (h % 4) else none

/-! ### Decisions (R183–R186, R191) -/

/-- The reservation of a caravan when dispatched: limited to CAP after a jump (R191). -/
def reservation (s : State) (c : Car) : Nat :=
  if c.kind = 0 && (routeOf s c.route).capped then min c.entries (rd s .disDev F.DIS_JUMP_CFG_CAP) else c.entries

/-- The write side of a furrow sees FREE_w = 0 through a perturbation (Table 20-7, FUR_BP). -/
def noRoom (s : State) (q : Nat) : Bool := decide (disTick s < tabGet 0 s.lcs.noRoom q)

/-- Space for a caravan in one furrow (R184, R188): main entries and tags, or its half, with no half that still holds an earlier boundary. A retry keeps
its reservation (R169). -/
def furSpace (s : State) (c : Car) (q : Nat) : Bool :=
  let x := furOf s q
  if c.resv then true
  else if c.kind = 0 then
    decide (reservation s c ≤ (if noRoom s q then 0 else freeW x)) && decide ((reservation s c + 15) / 16 ≤ tagsFree x) && !x.resetPend
  else
    let ok (h : Half) : Bool := halfFree h || h.bound == some c.bound
    ok x.half1 && ok x.half2 && halfFree (halfOf x (kindRegion c.kind)) && !x.resetPend

/-- Space in every furrow of the route. -/
def carSpace (s : State) (c : Car) : Bool := (routeQuads s c.site c.route).all (furSpace s c)

/-- A route has a caravan in SERVICE, HANDOVER or assigned. -/
def routeBusy (s : State) (r : Nat) : Bool := (works s).any (fun w => w.car.route = r) || s.pat.assigned.any fun a => a.1.route = r

/-- The head of a route's ready list passes every condition of R184 but space. -/
def readyHead (s : State) (r : Nat) : Option Car :=
  let x := routeOf s r
  match x.ready with
  | [] => none
  | c :: _ =>
    if !routeBusy s r && !x.held && !pageSafe s (.disPart c.part) && !pageSafe s (.disGrp (r / 8)) && (c.kind ≠ 0 || x.endPos.isNone) && !(eligible s c).isEmpty then some c else none

/-- The candidate of a route (R184); a caravan limited after a jump carries the present tick as its deadline (R191). -/
def candidate (s : State) (r : Nat) : Option Car :=
  ((readyHead s r).filter (carSpace s)).map fun c =>
    if c.kind = 0 && (routeOf s r).capped then { c with deadline := disTick s } else c

/-- The candidates of a partition in the order in which equal deadlines are taken: routes from TIE_PTR on (R185). -/
def candidates (s : State) (n : Nat) : List Car :=
  let t := s.pat.tiePtr.getD n 0
  ((List.range 64).map fun k => (t + k) % 64).filterMap fun r => (candidate s r).filter fun c => c.part = n

/-- The earliest deadline, the first on a tie (R185). -/
def earliest (l : List Car) : Option Car :=
  l.foldl (fun a c => match a with | none => some c | some d => if c.deadline < d.deadline then some c else some d) none

/-- Waiting-time bin of w ticks (Table 6-15). -/
def waitBin (w : Nat) : Nat := if w = 0 then 0 else min 15 (Nat.log2 w + 1)

/-- Reserve a caravan's space in the furrows of its route (R184, R204). -/
def reserve (c : Car) (n : Nat) (s : State) : State :=
  if c.resv then s
  else forS (routeQuads s c.site c.route) (fun q s =>
    let x := furOf s q
    if c.kind = 0 then setFur s q { x with res := ptrAdd x.res n, tagRes := (n + 15) / 16 }
    else
      let k := kindRegion c.kind
      let h := halfOf x k
      setFur s q (setHalf x k { h with res := sideAdd h.res 1024, tagRes := 64, bound := some c.bound })) s

/-- Assign a candidate to an engine (R185, R186): space is reserved, the waiting time counted, a dispatch outside the preferred cluster
counts HINT_IGNORED. -/
def assign (c : Car) (e : Nat) (s : State) : State :=
  let n := reservation s c
  let s := reserve c n s
  let g := Page.disGrp (c.route / 8)
  let k := c.route % 8
  let w := disTick s - max (c.relTick.getD 0) c.submitTick
  let s := incSat s g (F.DIS_R_WHIST k (waitBin w))
  let s := if 0 < c.fails then incSat s (.disPart c.part) F.DIS_RETRIES else s
  let s := match hintOf s c.part with
    | some h => if e / 17 = h then s else incSat s .disDev F.HINT_IGNORED
    | none => s
  let x := routeOf s c.route
  let s := setRoute s c.route { x with ready := x.ready.drop 1 }
  { s with pat := { s.pat with assigned := s.pat.assigned ++ [({ c with entries := n }, e)] } }

/-- The engine for a caravan (R186): of the preferred cluster where it has one eligible. -/
def chooseEng (s : State) (c : Car) : Option Nat :=
  let l := eligible s c
  match hintOf s c.part with
  | some h => if (l.any fun e => e / 17 = h) then leastLoaded s (l.filter fun e => e / 17 = h) else leastLoaded s l
  | none => leastLoaded s l

/-- The next partition from the WRR pointer with credit and a candidate (R185). -/
def nextPart (s : State) : Option Nat :=
  ((List.range 4).map fun k => (s.pat.wrrPtr + k) % 4).find? fun n => decide (0 < s.pat.credits.getD n 0) && !(candidates s n).isEmpty

/-- The decision of a tick (R185); fuel bounds the slots and the reloads of credit. -/
def decide_ : Nat → Nat → State → State
  | 0, _, s => s
  | _, 0, s => s
  | fuel + 1, slots + 1, s =>
    match nextPart s with
    | none =>
      if ((List.range 4).any fun n => !(candidates s n).isEmpty && decide (0 < (sharesAct s).getD n 0)) then
        decide_ fuel (slots + 1) { s with pat := { s.pat with credits := sharesAct s } }
      else s
    | some n =>
      match earliest (candidates s n) with
      | none => s
      | some c =>
        match chooseEng s c with
        | none => s
        | some e =>
          let s := assign c e s
          decide_ fuel slots { s with pat := { s.pat with credits := s.pat.credits.set n (s.pat.credits.getD n 0 - 1),
                                                          wrrPtr := (n + 1) % 4, tiePtr := s.pat.tiePtr.set n ((c.route + 1) % 64) } }

/-- Due caravans leave their waystations in submission order of each route (R181). -/
def releaseDue (s : State) : State :=
  forS s.pat.way (fun c s =>
    let blocked := ((s.pat.way.takeWhile fun w => w != c).any fun w => w.route = c.route)
    if carDue s c && !blocked then
      let c' := resolveCar s c
      let s := { s with pat := { s.pat with way := s.pat.way.erase c } }
      setRoute s c.route { routeOf s c.route with ready := (routeOf s c.route).ready ++ [c'] }
    else s) s

/-- Heads blocked only by space count in `SPACE_WAIT` (R184). -/
def countSpaceWait (s : State) : State :=
  forS (List.range 64) (fun r s =>
    match readyHead s r with
    | some c => if carSpace s c then s else incSat s (.disGrp (r / 8)) (F.DIS_R_SPACE_WAIT (r % 8))
    | none => s) s

/-- The tick ends: `DIS_TICK` advances (it does not count while the device sleeps), engines at work count 16 cycles, and every 65,536 ticks the
window of R186 begins again. A BUSY engine that waits for ring data, or that the memory does not serve, stalls (R195, R386). -/
def tickEnd (s : State) : State :=
  if 2 ≤ rd s .pwrDev F.PWR_STAT_STATE then s
  else
    let s := addWrap s .disDev F.DIS_TICK 1
    let s := forS (List.range 68) (fun e s =>
      match (engOf s e).work with
      | none => s
      | some w =>
        let s := addWrap s (.eng e) F.ENG_BUSY 16
        if w.stalled.isSome || (w.ended.isNone && !memServes s 1) then addWrap s (.eng e) F.ENG_STALL 16 else s) s
    if disTick s % 65536 = 0 then
      forS (List.range 68) (fun e s => setEng s e { engOf s e with busyBase := rd s (.eng e) F.ENG_BUSY }) s
    else s

/-- The dispatcher makes no decision (Table 16-4): PARITY of its device page, or an escalation of PARITY or DIS_CFG there. -/
def disStopped (s : State) : Bool :=
  let e := tabGet 0 s.mgt.safeEsc (pageBase .disDev)
  tabGet false s.mgt.safePar (pageBase .disDev) || e.testBit 0 || e.testBit 3

/-- The last CORE cycle of a tick (R181, R183–R187): written shares apply from its decision on. In a device halt nothing is dispatched (R446); without PD20 no tick passes (R182); a perturbation may stall
the decision (Table 20-7, TICK_STALL). -/
def dispatchDecision (s : State) : State :=
  if !domOn s 20 then s
  else
    let s := releaseDue (serveWaiting (settle s))
    let s :=
      if 0 < s.lcs.stall then { s with lcs := { s.lcs with stall := s.lcs.stall - 1 } }
      else if s.pat.halted || disStopped s then s else decide_ 12 4 (countSpaceWait (takeShares (shares s) s))
    tickEnd s

/-- DISPATCH_DECISION (R185). -/
def execDispatchDecision (s : State) : Host.Outcome State Fault Refusal := .next (dispatchDecision s)

/-! ### Withdrawal (R124, R193) -/

/-- The staged entries and tags of a caravan are discarded: STG of the region it writes returns to VIS; the reservation stays (R23, R169, R204). A furrow that waits
for its clear holds its pointers (R222). -/
def dropStaged (c : Car) (s : State) : State :=
  forS (routeQuads s c.site c.route) (fun q s =>
    let x := furOf s q
    let k := kindRegion c.kind
    if x.resetPend then s
    else if k = 0 then setFur s q { x with stg := x.vis, tagStg := 0 }
    else setFur s q (setHalf x k { halfOf x k with stg := (halfOf x k).vis, tagStg := 0 })) s

/-- No route holds a caravan any more: the RETRY_LIMIT cause is live no longer (R171). -/
def heldOver (s : State) : State := if (List.range 64).any fun r => (routeOf s r).held then s else setLive s .disDev 2 false

/-- The engine that runs a caravan of a route. -/
def routeEng (s : State) (r : Nat) : Option Nat :=
  (List.range 68).find? fun e => match (engOf s e).work with | some w => w.car.route = r | none => false

/-- The engine stops; its slices in flight are dropped. A handover in its one cycle is over with it (R177). -/
def freeEng (e : Nat) (s : State) : State :=
  let s := setEng s e { engOf s e with work := none }
  { s with pat := { s.pat with handover := s.pat.handover.filter fun h => h != e } }

/-- Every caravan of a site is withdrawn and its token freed; those with NOTIFY write a completion entry (R193), unless the partition is
being reset (R418). -/
def withdrawSite (i : Nat) (notify : Bool) (s : State) : State :=
  let mine (c : Car) : Bool := c.site == i
  let gone := (allCars s).filter mine
  let s := forS (List.range 68) (fun e s => match (engOf s e).work with | some w => if mine w.car then dropStaged w.car (freeEng e s) else s | none => s) s
  let s := { s with pat := { s.pat with way := s.pat.way.filter fun c => !mine c, retiring := s.pat.retiring.filter fun c => !mine c,
                                        assigned := s.pat.assigned.filter fun a => !mine a.1, handover := none } }
  let held := (routesOf (siteOf s i).mask).any fun r => (routeOf s r).held
  let s := forS (routesOf (siteOf s i).mask) (fun r s =>
    setRoute s r { routeOf s r with ready := [], sideWait := [], heads := [], capped := false, held := false }) s
  let s := if notify then forS gone (fun c s => notifyDone c 2 s) s else s
  let s := if held then heldOver s else s
  serveWaiting s

/-! ### Machine checks (R168–R171) -/

/-- Counted machine checks lie within 86,400 s of device time: 8.64 × 10^12 ticks of 10 ns (R170). -/
def recentChecks (s : State) (e : Nat) : List Nat := (engOf s e).checks.filter fun t => decide (aonNow s < t + 8640000000000)

/-- The engine is quarantined at its third counted check (R170): its share shrinks at once (R187). -/
def quarantine (e : Nat) (s : State) : State :=
  let s := setEng s e { engOf s e with role := 1 }
  refitShares (raiseInt (fltEvent (incSat s .disDev F.QUARANTINES) (.eng e) 3) (.eng e) 3)

/-- The caravan of a failing engine goes back to the head of its ready list (R169), to be held after four checks (R171). -/
def requeue (e : Nat) (s : State) : State :=
  match (engOf s e).work with
  | none => s
  | some w =>
    let c := { w.car with fails := w.car.fails + 1, resv := true, lastEng := some e, deadline := disTick s }
    let s := dropStaged c (freeEng e s)
    let x := routeOf s c.route
    let s := setRoute s c.route { x with ready := c :: x.ready, held := x.held || decide (4 ≤ c.fails) }
    if 4 ≤ c.fails then setLiveInt s .disDev 2 2 true else s

/-- A machine check of an engine for one of the causes 1 to 5 of Table 6-2 (R168–R171). With no caravan in service, after a commit, it falls on the engine's next one (R23). -/
def machineCheck (e cause : Nat) (s : State) : State :=
  if cause = 0 || 5 < cause then s
  else
  let s := settle s
  let p := Page.eng e
  let rs := ((engOf s e).work.map fun w => (w.car.route, w.car.site)).getD (rd s .disDev F.DIS_MCHK_LAST_ROUTE, rd s .disDev F.DIS_MCHK_LAST_SITE)
  let s := incSat (wr s p F.ENG_MCHK_CAUSE cause) p F.ENG_MCHK_TOTAL
  let s := wrs s .disDev [(F.DIS_MCHK_LAST_ENGINE, e), (F.DIS_MCHK_LAST_CAUSE, cause), (F.DIS_MCHK_LAST_ROUTE, rs.1), (F.DIS_MCHK_LAST_SITE, rs.2)]
  let s := if cause = 5 then raiseInt s p 8 else raiseInt (fltEvent s p 1) p 1
  let s := if cause = 1 then setLiveInt (orBits s .disDev F.DIS_CLU_STAT_CS_HOLD (1 <<< (e / 17))) p 2 2 true else s
  let s := requeue e (setEng s e { engOf s e with mchk := true, due := (engOf s e).work.isNone })
  if cause = 5 then s
  else
    let l := recentChecks s e ++ [aonNow s]
    let s := wr (setEng s e { engOf s e with checks := l }) p F.ENG_MCHK_COUNT (min 3 l.length)
    if 3 ≤ l.length && (engOf s e).role ≠ 1 then quarantine e s else s

/-- MACHINE_CHECK (R169). -/
def execMachineCheck (e cause : Nat) (s : State) : Host.Outcome State Fault Refusal := .next (machineCheck e cause s)

/-- MC_HANG (Table 6-2): only an engine at work that is not stalled on ring data hangs. -/
def execMcHang (e : Nat) (s : State) : Host.Outcome State Fault Refusal :=
  .next (match (engOf s e).work with
    | some w => if w.stalled.isNone then machineCheck e 4 s else s
    | none => s)

/-- CS_HOLD of a cluster ends, and with it the condition CS_PARITY of its engines' pages (R168, Table 17-2). -/
def csHoldEnds (k : Nat) (s : State) : State :=
  forS (List.range 17) (fun j s => setLive s (.eng (17 * k + j)) 2 false) (wr s .disDev F.DIS_CLU_STAT_CS_HOLD (clrBit (rd s .disDev F.DIS_CLU_STAT_CS_HOLD) k))

/-- CS_REWRITE_DONE (R168): the cluster's CS_HOLD clears. -/
def execCsRewriteDone (k : Nat) (s : State) : Host.Outcome State Fault Refusal := .next (csHoldEnds k s)

/-! ### Registers of the dispatcher (R177, R187) -/

/-- A read of `DIS_POOL_A` latches all six counts for the master (R177); a master that does not own the page reads zero (R194). -/
def poolRead (m : Nat) (s : State) : State :=
  if mayRead s m .disDev F.DIS_POOL_A_FREE.off false then
    let l := poolCounts s
    let s := { s with pat := { s.pat with poolLatch := tabPut [] s.pat.poolLatch m l } }
    settle (emit s (.read m (l.getD 0 0 + l.getD 1 0 * 2 ^ 16)))
  else emit s (.read m 0)

/-- POOL_COUNT_READ (R177). -/
def execPoolCountRead (m : Nat) (s : State) : Host.Outcome State Fault Refusal := .next (takeIn m (.poolCountRead m) false (poolRead m) s)

/-- A write of `DIS_SHARE` (R187): refused whole where the shares sum to more than 64 or a partition without a port would get one. -/
def shareEffect (word : Nat) (s : State) : State :=
  let l := [bits word 6 0, bits word 14 8, bits word 22 16, bits word 30 24]
  if 64 < l.sum || (List.range 4).any (fun n => !portExists s n && l.getD n 0 != 0) then fltEvent s .disDev 3
  else wrs s .disDev [(F.DIS_SHARE_0, l.getD 0 0), (F.DIS_SHARE_1, l.getD 1 0), (F.DIS_SHARE_2, l.getD 2 0), (F.DIS_SHARE_3, l.getD 3 0)]

/-- DIS_SHARE_WRITE (R187). -/
def execDisShareWrite (m word : Nat) (s : State) : Host.Outcome State Fault Refusal := .next (takeIn m (.disShareWrite m word) false (fun s => asWriter s m .disDev F.DIS_SHARE_0.off true (shareEffect word)) s)

end Sys2Proof.Machine
end

