-- ==== Sys2Proof/Machine/Time.lean ====
section
/-! DEFINITION. Reference time (chapter 2): the reference synthesiser, the five time bases and their commands, snapshots, drift and the
timed pulse outputs. -/

namespace Sys2Proof.Machine

open Sys2Proof

/-! ### Time values -/

/-- 10^9 ns in units of 2^-32 ns. -/
def secUnits : Nat := 1000000000 * 2 ^ 32

/-- The end of the 48-bit seconds, in units of 2^-32 ns. -/
def timeEnd : Nat := 2 ^ 48 * secUnits

/-- The page of time base b: the TIM device page for 0, partition page b − 1 otherwise (Table 2-1). -/
def basePage (b : Nat) : Page := if b = 0 then .timDev else .timPart (b - 1)

/-- The value of a time base in units of 2^-32 ns (R44). -/
def tbNow (s : State) (b : Nat) : Nat :=
  let p := basePage b
  (rd s p F.TIM_DTB_SEC_HI * 2 ^ 32 + rd s p F.TIM_DTB_SEC_LO) * secUnits + rd s p F.TIM_DTB_NS * 2 ^ 32 +
    rd s p F.TIM_DTB_SUBNS * 2 ^ 16 + tabGet 0 s.tim.fracLo b

/-- Store the value of a time base (R44). -/
def tbSet (s : State) (b t : Nat) : State :=
  let sec := t / secUnits
  let ns := (t % secUnits) / 2 ^ 32
  let s := wrs s (basePage b) [(F.TIM_DTB_SEC_HI, sec / 2 ^ 32), (F.TIM_DTB_SEC_LO, sec % 2 ^ 32), (F.TIM_DTB_NS, ns),
    (F.TIM_DTB_SUBNS, t % 2 ^ 32 / 2 ^ 16)]
  { s with tim := { s.tim with fracLo := tabPut 0 s.tim.fracLo b (t % 2 ^ 16) } }

/-- INCREMENT in force of a time base, in units of 2^-32 ns; nominal 10 ns (R44). -/
def tbInc (s : State) (b : Nat) : Nat := tabGet 0xA00000000 s.tim.inc b

/-- Set the INCREMENT in force. -/
def setTbInc (s : State) (b v : Nat) : State := { s with tim := { s.tim with inc := tabPut 0xA00000000 s.tim.inc b v } }

/-- Ticks counted by the clock of a time base. -/
def tbTicks (s : State) (b : Nat) : Nat := tabGet 0 s.tim.ticks b

/-- One tick more of the clock of a time base. -/
def countTick (s : State) (b : Nat) : State :=
  { s with tim := { s.tim with ticks := tabPut 0 s.tim.ticks b (tbTicks s b + 1) } }

/-- A time in time units (2^-16 ns) from its fields (R12). -/
def timeOf (sec ns subns : Nat) : Nat := (sec * 1000000000 + ns) * 2 ^ 16 + subns

/-- A refused time command, pulse arming or SEL write: TIME_REFUSED is raised and the TIME_FMT cause is counted (Table 2-4). -/
def timeRefused (s : State) (p : Page) : State := raiseInt (fltEvent s p 4) p 4

/-! ### The reference synthesiser (R33–R42) -/

/-- The OK bit of a source (Table 2-3). -/
def srcOk (src : Nat) : Fld := if src = 0 then F.TIM_REF_STAT_REFCLK_OK else if src = 1 then F.TIM_REF_STAT_TL0_OK else F.TIM_REF_STAT_XTAL_OK

/-- HOLD_LIMIT: its condition is that the estimate exceeds the limit (R41, Table 17-2). -/
def checkHoldLimit (s : State) : State :=
  setLiveInt s .timDev 3 3 (decide (rd s .timDev F.TIM_HOLD_LIM < rd s .timDev F.TIM_HOLD_EST))

/-- The rate that ageing leaves of a rate after a time in 2^-32 ns (R39, R40): r × (1 − A × d × 10^-9), with A = `TIM_AGEING.AGE` in 2^-8 ppb per
day and d in days; in the unit of r, rounded down (log 8). -/
def agedRate (s : State) (r : Nat) (elapsed : Int) : Int :=
  ((r : Int) * (256 * 86400 * 1000000000 * secUnits - toSigned 16 (rd s .timDev F.TIM_AGEING_AGE) * elapsed)) / (256 * 86400 * 1000000000 * secUnits)

/-- The rate that the crystal gives REF, in units of 2^-32 of the crystal's rate: in holdover from r and the time since its entry (R39),
with the crystal selected from 1 and the time since the last write of `TIM_AGEING` (R40), both by the device time base. None while REF follows another
source. -/
def refTarget (s : State) : Option Int :=
  if rdb s .timDev F.TIM_REF_STAT_HOLDOVER then some (agedRate s s.tim.holdRatio ((tbNow s 0 : Int) - s.tim.holdEntry))
  else if rd s .timDev F.TIM_REF_STAT_ACTIVE = 2 then some (agedRate s (2 ^ 32) ((tbNow s 0 : Int) - s.tim.ageWrite))
  else none

/-- The rate of REF in units of 2^-32 × 10^-9 of the crystal's rate: the one that SLEWING has reached, else that of `refTarget`. -/
def refFine (s : State) : Option Int := s.tim.slewRate.orElse fun _ => (refTarget s).map (· * 1000000000)

/-- The rate at which REF is synthesised from the crystal, in units of 2^-32 of the crystal's rate, rounded down (log 8). None while REF follows another source. -/
def refRate (s : State) : Option Int := (refFine s).map (· / 1000000000)

/-- The rate from which a change of source moves REF (R36): where REF follows a source other than the crystal, the ratio measured of it (DEDUCED, log 107). -/
def rateFrom (s : State) (m : HoldMeas) : Int := (refFine s).getD ((m.ratio : Int) * 1000000000)

/-- SLEW in units of 2^-32 × 10^-9 per millisecond; 0 is treated as 1 (Table 2-3). -/
def slewStep (s : State) : Int := (max 1 (rd s .timDev F.TIM_REF_CTRL_SLEW) : Nat) * 2 ^ 32

/-- Set the rate that SLEWING has reached. -/
def setSlewRate (s : State) (r : Option Int) : State := { s with tim := { s.tim with slewRate := r } }

/-- Each millisecond the frequency of REF moves toward that of the crystal's rate by at most SLEW (R36). -/
def slewEffect (s : State) : State :=
  match s.tim.slewRate, refTarget s with
  | some r, some t =>
    if tbTicks s 0 % 100000 ≠ 0 then s
    else setSlewRate s (some (if r ≤ t * 1000000000 then min (t * 1000000000) (r + slewStep s) else max (t * 1000000000) (r - slewStep s)))
  | _, _ => s

/-- Entry into holdover (R34, R36, R39, R41): r and `TIM_FREQ_UNC` from what was measured, the estimate and the time in holdover at zero,
and the frequency moving under SLEWING from the rate that REF had. The window of R39 ends 10 ms before the loss: of a source followed for less than 20 ms less than 10 ms of it
is available. -/
def enterHoldover (s0 : State) (m : HoldMeas) : State :=
  let nominal := decide (m.followedMs < 20)
  let s := wrs s0 .timDev [(F.TIM_REF_STAT_HOLDOVER, 1), (F.TIM_REF_STAT_SLEWING, 1),
    (F.TIM_FREQ_UNC, if nominal then 2560000 else max 256 m.spread), (F.TIM_HOLD_EST, 0), (F.TIM_HOLD_TIME, 0)]
  let s := { s with tim := { s.tim with holdMs := 0, holdRatio := if nominal then 2 ^ 32 else m.ratio, holdEntry := tbNow s 0,
                                        slewRate := some (rateFrom s0 m) } }
  checkHoldLimit s

/-- REF follows a source (R35–R37): holdover ends, the estimate clears, the frequency moves under SLEWING: to that of the crystal from a rate that is given. `TIM_HOLD_TIME` keeps its last value until the
next holdover (DESIGN CHOICE, log 91). -/
def followSource (s : State) (src : Nat) (start : Option Int) : State :=
  let s := wrs s .timDev [(F.TIM_REF_STAT_ACTIVE, src), (F.TIM_REF_STAT_HOLDOVER, 0), (F.TIM_REF_STAT_SLEWING, 1), (F.TIM_HOLD_EST, 0)]
  let s := { s with tim := { s.tim with refLost := false, slewRate := if src = 2 then start else none } }
  checkHoldLimit (setLive s .timDev 1 false)

/-- A loss condition of a source is detected: it is no longer qualified. Where it is the followed source, REF enters holdover and REF_LOSS
is raised (R34). A loss of TL0 or REFCLK while it is not followed only ends its qualification. -/
def refLossEffect (src : Nat) (m : HoldMeas) (s : State) : State :=
  if src = 2 then s
  else
    let s := wrb s .timDev (srcOk src) false
    if rd s .timDev F.TIM_REF_CTRL_SEL = src && !rdb s .timDev F.TIM_REF_STAT_HOLDOVER then
      let s := enterHoldover s m
      let s := { s with tim := { s.tim with refLost := true } }
      setLiveInt s .timDev 1 1 true
    else if rd s .timDev F.TIM_REF_CTRL_SEL = src && s.tim.refLost then setLiveInt s .timDev 1 1 true
    else s

/-- REF_LOSS (R34). -/
def execRefLoss (src : Nat) (meas : HoldMeas) (s : State) : Host.Outcome State Fault Refusal := .next (refLossEffect src meas s)

/-- XTAL_FAIL (R34): the crystal no longer runs; the cause is severe at once. -/
def execXtalFail (s : State) : Host.Outcome State Fault Refusal :=
  .next (setLiveInt (wrb s .timDev F.TIM_REF_STAT_XTAL_OK false) .timDev 5 5 true)

/-- The receiver of port TL0 holds block lock; while its lane runs PRBS the lock counts as lost (R34, R78). -/
def tl0Locked (s : State) : Bool :=
  linkPowered s && rdb s (.tlkLane (laneOf s 0)) F.TLK_L_RXSTAT_BLOCK_LOCK && !prbsOn s (laneOf s 0)

/-- A source becomes qualified (R35, R37). A source that was lost raises REF_RETURN and is followed with REVERT = 1; one that SEL named
unqualified is followed now. -/
def sourceQualifiedEffect (src : Nat) (s : State) : State :=
  if src = 1 && !tl0Locked s then s
  else
    let was := rdb s .timDev (srcOk src)
    let s := wrb s .timDev (srcOk src) true
    if rd s .timDev F.TIM_REF_CTRL_SEL = src && rdb s .timDev F.TIM_REF_STAT_HOLDOVER && !was then
      if s.tim.refLost then
        let s := raiseInt (setLive s .timDev 1 false) .timDev 2
        if rdb s .timDev F.TIM_REF_CTRL_REVERT then followSource s src (refFine s) else s
      else followSource s src (refFine s)
    else if src = 2 then setLive s .timDev 5 false
    else s

/-- SOURCE_QUALIFIED (R35, R37). -/
def execSourceQualified (src : Nat) (s : State) : Host.Outcome State Fault Refusal := .next (sourceQualifiedEffect src s)

/-- A write of `TIM_REF_CTRL` (R35, R37, Table 2-3): SEL = 3 refuses the whole write; an unqualified source brings holdover; a qualified
one is followed, also where it is the one held after a return. -/
def refSelectEffect (word : Nat) (meas : HoldMeas) (s : State) : State :=
  let sel := bits word 1 0
  if sel = 3 then timeRefused s .timDev
  else
    let s := wrs s .timDev [(F.TIM_REF_CTRL_SEL, sel), (F.TIM_REF_CTRL_REVERT, bits word 2 2), (F.TIM_REF_CTRL_SLEW, bits word 15 8),
      (F.TIM_REF_CTRL_QUAL, bits word 23 16)]
    if sel = 2 || rdb s .timDev (srcOk sel) then
      if rd s .timDev F.TIM_REF_STAT_ACTIVE = sel && !rdb s .timDev F.TIM_REF_STAT_HOLDOVER then s else followSource s sel (some (rateFrom s meas))
    else if rdb s .timDev F.TIM_REF_STAT_HOLDOVER then
      { s with tim := { s.tim with refLost := s.tim.refLost && rd s .timDev F.TIM_REF_STAT_ACTIVE == sel } }
    else { enterHoldover s meas with tim := { (enterHoldover s meas).tim with refLost := false } }

/-- REF_SELECT_WRITE (R35). -/
def execRefSelectWrite (m word : Nat) (meas : HoldMeas) (s : State) : Host.Outcome State Fault Refusal :=
  .next (takeIn m (.refSelectWrite m word meas) false (fun s => asWriter s m .timDev F.TIM_REF_CTRL_SEL.off true (refSelectEffect word meas)) s)

/-- The frequency of REF has not reached that of the crystal's rate yet: more than one millisecond of SLEW is left. -/
def slewLeft (s : State) : Bool :=
  match s.tim.slewRate, refTarget s with
  | some r, some t => decide (slewStep s < (r - t * 1000000000).natAbs)
  | _, _ => false

/-- REF has reached the frequency of the source it moves to (R36): SLEWING ends. While the crystal's rate is further away it goes on; whether another source's is
reached the sender says. -/
def slewDone (s : State) : State := if slewLeft s then s else setSlewRate (wrb s .timDev F.TIM_REF_STAT_SLEWING false) none

/-- REF_SLEW_DONE (R36). -/
def execRefSlewDone (s : State) : Host.Outcome State Fault Refusal := .next (slewDone s)

/-- The holdover error estimate in ns after t ms (R41), rounded down (log 8): `FREQ_UNC` × t + ½ × U × t². -/
def holdEstimate (freqUnc ageUnc t : Nat) : Nat :=
  (freqUnc * t * 172800000 + ageUnc * t * t) / (512 * 86400 * 1000000)

/-- One millisecond of holdover (R41). -/
def holdEstEffect (s : State) : State :=
  if rdb s .timDev F.TIM_REF_STAT_HOLDOVER then
    let s := { s with tim := { s.tim with holdMs := s.tim.holdMs + 1 } }
    let s := incSat s .timDev F.TIM_HOLD_TIME
    let e := holdEstimate (rd s .timDev F.TIM_FREQ_UNC) (rd s .timDev F.TIM_AGEING_AGE_UNC) s.tim.holdMs
    checkHoldLimit (wr s .timDev F.TIM_HOLD_EST (min e 0xFFFFFFFF))
  else s

/-- HOLD_EST_UPDATE (R41). -/
def execHoldEstUpdate (s : State) : Host.Outcome State Fault Refusal := .next (holdEstEffect s)

/-! ### Pulse schedules (R57–R61) -/

/-- The pulse as armed, if it is armed. -/
def pulseOf (s : State) (p : Nat) : Option Pulse := tabGet none s.tim.pulses p

/-- Store a pulse. -/
def setPulse (s : State) (p : Nat) (x : Option Pulse) : State :=
  { s with tim := { s.tim with pulses := tabPut none s.tim.pulses p x } }

/-- A pulse output while it is asserted. -/
def pulseOnOf (s : State) (p : Nat) : Option PulseOn := tabGet none s.tim.pulseOn p

/-- The level of a TPULSE output (R65): its active level while it is asserted, else the inactive level of the POL sampled last. -/
def pulseLevel (s : State) (p : Nat) : Bool :=
  match pulseOnOf s p with
  | some x => !x.pol
  | none => tabGet false s.tim.pulsePol p

/-- The output of a pulse changes, at a step of 0.25 ps after the present tick: the level is driven where it is another. -/
def drivePulse (s : State) (p step : Nat) (on : Option PulseOn) (pol : Bool) : State :=
  let t := { s with tim := { s.tim with pulseOn := tabPut none s.tim.pulseOn p on, pulsePol := tabPut false s.tim.pulsePol p pol } }
  if pulseLevel t p = pulseLevel s p then t else emit t (.pulse p (pulseLevel t p) step)

/-- The time base that schedules a pulse: the device time base, or that of the page's owner (`TIM_TP_CTRL.TBSEL`, R57). -/
def pulseBase (s : State) (p : Nat) (tbsel : Bool) : Nat := if tbsel then 1 + pageOwner s (.timPulse p) else 0

/-- The scheduled point n of a pulse in units of 2^-32 ns (R59). -/
def pulsePoint (x : Pulse) : Nat := (x.start + x.point * x.period) * 2 ^ 16

/-- The first point number of a schedule at or after a time t in units of 2^-32 ns (R59). Once mode has point 0 only: 1 says that it is not scheduled. -/
def firstPoint (x : Pulse) (t : Nat) : Nat :=
  if t ≤ x.start * 2 ^ 16 then 0
  else if x.period = 0 then 1
  else (t - x.start * 2 ^ 16 + x.period * 2 ^ 16 - 1) / (x.period * 2 ^ 16)

/-- The first point number of a schedule after a time t in units of 2^-32 ns (R60). -/
def pointAfter (x : Pulse) (t : Nat) : Nat :=
  if t < x.start * 2 ^ 16 then 0
  else if x.period = 0 then 1
  else (t - x.start * 2 ^ 16) / (x.period * 2 ^ 16) + 1

/-- A step of a time base moves the schedules that run on it (R60): a forward step adds the points it jumps over to `TIM_TP_SKIP`, and the schedule resumes at the
first point after the new time; after a backward step points already fired are scheduled again. -/
def rescheduleOne (b old new p : Nat) (s : State) : State :=
  match pulseOf s p with
  | none => s
  | some x =>
    if pulseBase s p x.tbsel != b then s
    else if new ≤ old then setPulse s p (some { x with point := firstPoint x new })
    else
      let n := max x.point (pointAfter x new)
      let s := setPulse s p (some { x with point := n })
      if x.point < n then raiseInt (addSat s (.timPulse p) F.TIM_TP_SKIP (n - x.point)) (.timPulse p) 9 else s

/-- Reschedule every pulse after a step of time base b. -/
def reschedule (s : State) (b old new : Nat) : State := forS (List.range 4) (rescheduleOne b old new) s

/-! ### Ticks and time commands (R43–R47) -/

/-- The SET value of a time base's holding registers in units of 2^-32 ns. -/
def tbSetValue (s : State) (b : Nat) : Nat :=
  let p := basePage b
  (rd s p F.TIM_DTB_SET_SEC_HI * 2 ^ 32 + rd s p F.TIM_DTB_SET_SEC_LO) * secUnits + rd s p F.TIM_DTB_SET_NS * 2 ^ 32 +
    rd s p F.TIM_DTB_SET_SUBNS * 2 ^ 16

/-- The ADJUST value of a time base's holding registers in units of 2^-32 ns, signed (R47). -/
def tbAdjust (s : State) (b : Nat) : Int :=
  toSigned 64 (rd s (basePage b) F.TIM_DTB_ADJ_HI * 2 ^ 32 + rd s (basePage b) F.TIM_DTB_ADJ_LO) * 65536

/-- The INCREMENT of a time base's holding registers. -/
def tbNewInc (s : State) (b : Nat) : Nat := rd s (basePage b) F.TIM_DTB_INC_HI * 2 ^ 32 + rd s (basePage b) F.TIM_DTB_INC_LO

/-- A command of a time base is pending (R45). -/
def tbPending (s : State) (b : Nat) : Bool :=
  rdb s (basePage b) F.TIM_DTB_CMD_INC_GO || rdb s (basePage b) F.TIM_DTB_CMD_ADJ_GO || rdb s (basePage b) F.TIM_DTB_CMD_SET_GO

/-- The GO bits of a time base clear. -/
def clearGo (s : State) (b : Nat) : State :=
  wrs s (basePage b) [(F.TIM_DTB_CMD_INC_GO, 0), (F.TIM_DTB_CMD_ADJ_GO, 0), (F.TIM_DTB_CMD_SET_GO, 0)]

/-- The pending command is refused (R46). The range of an ADJUST is judged before the tick's INCREMENT is added (DESIGN CHOICE, log 91). -/
def tbRefuses (s : State) (b : Nat) : Bool :=
  let p := basePage b
  let base : Nat := if rdb s p F.TIM_DTB_CMD_SET_GO then tbSetValue s b else tbNow s b
  (rdb s p F.TIM_DTB_CMD_SET_GO && decide (1000000000 ≤ rd s p F.TIM_DTB_SET_NS)) ||
  (rdb s p F.TIM_DTB_CMD_INC_GO && (decide (tbNewInc s b < 0x9FD70A3D7) || decide (0xA028F5C29 < tbNewInc s b))) ||
  (rdb s p F.TIM_DTB_CMD_ADJ_GO && (decide ((base : Int) + tbAdjust s b < 0) || decide ((timeEnd : Int) ≤ (base : Int) + tbAdjust s b)))

/-- Record whether the latest tick of a time base stepped it, and from where (R52). -/
def setStepFrom (s : State) (b : Nat) (x : Option Nat) : State := { s with tim := { s.tim with stepFrom := tabPut none s.tim.stepFrom b x } }

/-- An ordinary tick: the time base adds its INCREMENT (R44). At the end of 2^48 s it wraps to zero (DESIGN CHOICE, log 91). -/
def plainTick (s : State) (b : Nat) : State := setStepFrom (tbSet s b ((tbNow s b + tbInc s b) % timeEnd)) b none

/-- The value of a time base before the INCREMENT of the tick at which its pending command applies (R45). -/
def tbStepped (s : State) (b : Nat) : Nat :=
  let p := basePage b
  let base : Nat := if rdb s p F.TIM_DTB_CMD_SET_GO then tbSetValue s b else tbNow s b
  ((base : Int) + if rdb s p F.TIM_DTB_CMD_ADJ_GO then tbAdjust s b else 0).toNat

/-- The INCREMENT in force from the tick at which a time base's pending command applies (R45). -/
def tbIncNext (s : State) (b : Nat) : Nat := if rdb s (basePage b) F.TIM_DTB_CMD_INC_GO then tbNewInc s b else tbInc s b

/-- What a time base counts from its present tick to the next, without a step that applies there (R44, R45). -/
def tbSpan (s : State) (b : Nat) : Nat := if tbPending s b && !tbRefuses s b then tbIncNext s b else tbInc s b

/-- The value that the next tick gives a time base (R44–R46). -/
def tbNext (s : State) (b : Nat) : Nat :=
  if tbPending s b && !tbRefuses s b then (tbStepped s b + tbIncNext s b) % timeEnd else (tbNow s b + tbInc s b) % timeEnd

/-- The tick at which a pending command is judged (R45, R46). A refused command changes nothing but the GO bits, and the tick adds the
INCREMENT in force. -/
def commandTick (s : State) (b : Nat) : State :=
  let p := basePage b
  if tbRefuses s b then timeRefused (plainTick (clearGo s b) b) p
  else
    let inc := tbIncNext s b
    let plain := tbNow s b + inc
    let moved := rdb s p F.TIM_DTB_CMD_SET_GO || rdb s p F.TIM_DTB_CMD_ADJ_GO
    let new := (tbStepped s b + inc) % timeEnd
    let s := setStepFrom (tbSet (setTbInc (clearGo s b) b inc) b new) b (if moved then some plain else none)
    if moved then reschedule s b plain new else s

/-- The device time base ticks while VSTBY is there (R461); the partition time bases only while the device is neither held in reset nor asleep or waking (R49,
R470). -/
def tbRuns (s : State) (b : Nat) : Bool :=
  match s.pwr.stage with
  | .noVstby => false
  | .noVin => b == 0
  | .held => b == 0
  | _ => b == 0 || decide (rd s .pwrDev F.PWR_STAT_STATE < 2)

/-- `TIM_XTAL_OFFS`, updated each 1 s while a source is followed (Table 2-2): 0 where that is the crystal; of another source the device measures a value that no
rule gives, a free value (log 3). -/
def xtalOffset (s : State) : State :=
  if tbTicks s 0 % 100000000 ≠ 0 || rdb s .timDev F.TIM_REF_STAT_HOLDOVER then s
  else if rd s .timDev F.TIM_REF_STAT_ACTIVE = 2 then wr s .timDev F.TIM_XTAL_OFFS 0
  else freeStep (wr s .timDev F.TIM_XTAL_OFFS (freeNow s))

/-- A 10 ns tick of a time base (R43–R46). -/
def tickEffect (b : Nat) (s : State) : State :=
  if tbRuns s b then
    let s := countTick s b
    let s := if b = 0 then slewEffect (xtalOffset s) else s
    if tbPending s b then commandTick s b else plainTick s b
  else s

/-- TIME_BASE_TICK (R44). -/
def execTimeBaseTick (b : Nat) (s : State) : Host.Outcome State Fault Refusal := .next (tickEffect b s)

/-- A write of a time base's command register (R45, R47). -/
def goEffect (b word : Nat) (s : State) : State :=
  if tbPending s b then timeRefused s (basePage b)
  else wrs s (basePage b) [(F.TIM_DTB_CMD_INC_GO, bits word 0 0), (F.TIM_DTB_CMD_ADJ_GO, bits word 1 1), (F.TIM_DTB_CMD_SET_GO, bits word 2 2)]

/-- The link time base: the device time base for `TLK_CTRL.TBSEL` = 0, partition time base n for 1 + n (R87). -/
def linkBase (s : State) : Nat := rd s .tlkCtl F.TLK_CTRL_TBSEL

/-- While the servo steers the link time base, every master but firmware finds its registers locked (R91, log 9). -/
def servoLocks (s : State) (m b : Nat) : Bool := rdb s .tlkCtl F.TLK_CTRL_SERVO_EN && linkBase s == b && m != 4

/-- A command write by a master: ignored with WRITE_LOCKED while the servo steers the time base (R91). -/
def goWrite (m b word : Nat) (s : State) : State :=
  if servoLocks s m b then writeLocked s (basePage b) else goEffect b word s

/-- INC_GO (R45): the write has INC_GO set, and may set the others beside it. -/
def execIncGo (m b word : Nat) (s : State) : Host.Outcome State Fault Refusal :=
  .next (takeIn m (.incGo m b word) false (fun s => asWriter s m (basePage b) F.TIM_DTB_CMD_INC_GO.off (b == 0) (goWrite m b (setBit word 0))) s)

/-- ADJ_GO (R45): the write has ADJ_GO set, and may set the others beside it. -/
def execAdjGo (m b word : Nat) (s : State) : Host.Outcome State Fault Refusal :=
  .next (takeIn m (.adjGo m b word) false (fun s => asWriter s m (basePage b) F.TIM_DTB_CMD_INC_GO.off (b == 0) (goWrite m b (setBit word 1))) s)

/-- SET_GO (R45): the write has SET_GO set, and may set the others beside it. -/
def execSetGo (m b word : Nat) (s : State) : Host.Outcome State Fault Refusal :=
  .next (takeIn m (.setGo m b word) false (fun s => asWriter s m (basePage b) F.TIM_DTB_CMD_INC_GO.off (b == 0) (goWrite m b (setBit word 2))) s)

/-- TIME_COMMAND_APPLY (R45, R46): the tick at which the pending command is judged; with none pending nothing happens. -/
def execTimeCommandApply (b : Nat) (s : State) : Host.Outcome State Fault Refusal :=
  .next (if tbPending s b then tickEffect b s else s)

/-! ### Snapshots (R48) -/

/-- The number of a time value among a master's snapshots. -/
def timeRefCode : TimeRef → Nat
  | .base b => b
  | .mirror n => 8 + n
  | .epoch n s => 64 + 64 * n + s

/-- The page a time value is read in. -/
def timeRefPage : TimeRef → Page
  | .base b => basePage b
  | .mirror n => .timPart n
  | .epoch n _ => .timPart n

/-- The offset of a time value's SUBNS word, which a read of it latches (R48). -/
def timeRefOff : TimeRef → Nat
  | .base _ => F.TIM_DTB_SUBNS.off
  | .mirror _ => F.TIM_DTB_SUBNS.off
  | .epoch _ i => (F.EPOCH_SUBNS i).off

/-- The site whose epoch is read belongs to the partition of the page (R64). -/
def epochShown (s : State) (n i : Nat) : Bool := ((tabFind s.pat.sites i).bind (·.owner)) == some n

/-- A time value as it stands; the epoch of a site of another partition reads zero (R64). -/
def timeRefNow (s : State) : TimeRef → Snap
  | .base b =>
    let p := basePage b
    ⟨rd s p F.TIM_DTB_SEC_HI * 2 ^ 32 + rd s p F.TIM_DTB_SEC_LO, rd s p F.TIM_DTB_NS, rd s p F.TIM_DTB_SUBNS⟩
  | .mirror _ =>
    ⟨rd s .timDev F.TIM_DTB_SEC_HI * 2 ^ 32 + rd s .timDev F.TIM_DTB_SEC_LO, rd s .timDev F.TIM_DTB_NS, rd s .timDev F.TIM_DTB_SUBNS⟩
  | .epoch n i =>
    let p := Page.timPart n
    if !epochShown s n i then ⟨0, 0, 0⟩
    else ⟨rd s p (F.EPOCH_SEC_HI i) * 2 ^ 32 + rd s p (F.EPOCH_SEC_LO i), rd s p (F.EPOCH_NS i), rd s p (F.EPOCH_SUBNS i)⟩

/-- The key of a snapshot. -/
def snapKey (m : Nat) (tv : TimeRef) : Nat := m * 2 ^ 20 + timeRefCode tv

/-- A master that may not read the page reads zero and latches nothing; otherwise the whole value is latched (R48, R424). -/
def snapshotEffect (m : Nat) (tv : TimeRef) (s : State) : State :=
  if mayRead s m (timeRefPage tv) (timeRefOff tv) false then
    let v := timeRefNow s tv
    emit { s with tim := { s.tim with snaps := tabIns s.tim.snaps (snapKey m tv) v } } (.read m v.subns)
  else emit s (.read m 0)

/-- TIME_SNAPSHOT_READ (R48). -/
def execTimeSnapshotRead (m : Nat) (tv : TimeRef) (s : State) : Host.Outcome State Fault Refusal := .next (takeIn m (.timeSnapshotRead m tv) false (snapshotEffect m tv) s)

/-- What a read of the NS word of a time value answers: the snapshot, or the current word where the master holds none (R48). -/
def snapNs (s : State) (m : Nat) (tv : TimeRef) : Nat := ((tabFind s.tim.snaps (snapKey m tv)).getD (timeRefNow s tv)).ns

/-- What a read of the seconds words of a time value answers (R48). -/
def snapSec (s : State) (m : Nat) (tv : TimeRef) : Nat := ((tabFind s.tim.snaps (snapKey m tv)).getD (timeRefNow s tv)).sec

/-- The snapshots of a master are cleared (R48). -/
def clearSnaps (s : State) (m : Nat) : State :=
  { s with tim := { s.tim with snaps := tabDrop s.tim.snaps (m * 2 ^ 20) ((m + 1) * 2 ^ 20) } }

/-! ### Pulse commands (R57–R61) -/

/-- START of the holding registers of a pulse page, in time units. -/
def pulseStart (s : State) (p : Nat) : Nat :=
  let pg := Page.timPulse p
  timeOf (rd s pg F.TIM_TP_START_SEC_HI * 2 ^ 32 + rd s pg F.TIM_TP_START_SEC_LO) (rd s pg F.TIM_TP_START_NS) (rd s pg F.TIM_TP_START_SUBNS)

/-- The arming write is refused (R61). -/
def armRefused (s : State) (p mode : Nat) : Bool :=
  let pg := Page.timPulse p
  let per := rd s pg F.TIM_TP_PER_NS * 2 ^ 16 + rd s pg F.TIM_TP_PER_SUBNS
  let w := rd s pg F.TIM_TP_WIDTH
  decide (1000000000 ≤ rd s pg F.TIM_TP_START_NS) || decide (w < 10) ||
  (mode == 2 && (decide (per < 100 * 2 ^ 16) || decide (per ≤ w * 2 ^ 16)))

/-- Arming a pulse (R58, R59, R61). The device samples START, PERIOD, WIDTH, TBSEL and POL. In once mode a START in the past does not
fire: it counts in `TIM_TP_SKIP` and MODE returns to 0. -/
def armEffect (p mode : Nat) (tbsel pol : Bool) (s : State) : State :=
  let pg := Page.timPulse p
  if armRefused s p mode then timeRefused s pg
  else
    let s := wrs s pg [(F.TIM_TP_CTRL_MODE, mode), (F.TIM_TP_CTRL_TBSEL, b2n tbsel), (F.TIM_TP_CTRL_POL, b2n pol)]
    let per := rd s pg F.TIM_TP_PER_NS * 2 ^ 16 + rd s pg F.TIM_TP_PER_SUBNS
    let x : Pulse := { start := pulseStart s p, period := if mode = 1 then 0 else per, width := rd s pg F.TIM_TP_WIDTH * 2 ^ 16,
                       tbsel := tbsel, pol := pol, point := 0 }
    let now := tbNow s (pulseBase s p tbsel)
    let s := drivePulse s p 0 (pulseOnOf s p) pol
    if mode = 1 && decide (x.start * 2 ^ 16 < now) then
      let s := setPulse (wrs s pg [(F.TIM_TP_CTRL_MODE, 0), (F.TIM_TP_STAT_ARMED, 0)]) p none
      raiseInt (incSat s pg F.TIM_TP_SKIP) pg 9
    else setPulse (wrb s pg F.TIM_TP_STAT_ARMED true) p (some { x with point := firstPoint x now })

/-- TP_ARM_ONCE (R58). -/
def execTpArmOnce (m p : Nat) (tbsel pol : Bool) (s : State) : Host.Outcome State Fault Refusal :=
  .next (takeIn m (.tpArmOnce m p tbsel pol) false (fun s => asWriter s m (.timPulse p) F.TIM_TP_CTRL_MODE.off false (armEffect p 1 tbsel pol)) s)

/-- TP_ARM_PERIODIC (R58). -/
def execTpArmPeriodic (m p : Nat) (tbsel pol : Bool) (s : State) : Host.Outcome State Fault Refusal :=
  .next (takeIn m (.tpArmPeriodic m p tbsel pol) false (fun s => asWriter s m (.timPulse p) F.TIM_TP_CTRL_MODE.off false (armEffect p 2 tbsel pol)) s)

/-- A pulse disarms: MODE = 0; a pulse already asserted completes its width (R57, R58). -/
def disarmPulse (p : Nat) (s : State) : State :=
  setPulse (wrs s (.timPulse p) [(F.TIM_TP_CTRL_MODE, 0), (F.TIM_TP_STAT_ARMED, 0)]) p none

/-- The safe state of a pulse page or of the TIM device page: the output is inactive, at once where a pulse is asserted, and the pulse disarms (Table 16-4, log 107). -/
def safePulse (p : Nat) (s : State) : State :=
  disarmPulse p (if (pulseOnOf s p).isSome then wrb (drivePulse s p 0 none (tabGet false s.tim.pulsePol p)) (.timPulse p) F.TIM_TP_STAT_ACTIVE false else s)

/-- TP_DISARM (R58): a write of MODE = 0, with the other fields of the register. -/
def execTpDisarm (m p : Nat) (tbsel pol : Bool) (s : State) : Host.Outcome State Fault Refusal :=
  .next (takeIn m (.tpDisarm m p tbsel pol) false (fun s => asWriter s m (.timPulse p) F.TIM_TP_CTRL_MODE.off false fun s =>
    disarmPulse p (wrs s (.timPulse p) [(F.TIM_TP_CTRL_TBSEL, b2n tbsel), (F.TIM_TP_CTRL_POL, b2n pol)])) s)

/-- A write of `TIM_TP_OWNER`: every pulse whose owner changes disarms (R57). -/
def tpOwnerEffect (word : Nat) (s : State) : State :=
  let old := rd s .timDev F.TIM_TP_OWNER
  let s := wr s .timDev F.TIM_TP_OWNER word
  forS (List.range 4) (fun p s => if (old >>> (2 * p)) % 4 = (word >>> (2 * p)) % 4 then s else reraise (disarmPulse p s) (.timPulse p) (List.range 32)) s

/-- TP_OWNER_WRITE (R57). -/
def execTpOwnerWrite (m word : Nat) (s : State) : Host.Outcome State Fault Refusal :=
  .next (takeIn m (.tpOwnerWrite m word) false (fun s => asWriter s m .timDev F.TIM_TP_OWNER.off true (tpOwnerEffect word)) s)

/-- The selected time base reaches the next scheduled point in this tick (R50, R59): the output is asserted for WIDTH at the point's place in the tick,
`TIM_TP_FIRED` counts and TP_FIRED is raised; once mode returns MODE to 0. A point that is not in the present tick fires nothing; nor does the device fire any while the
partition time bases stand still. WIDTH is counted by the clock of the time base (log 40). In the safe state of TIM the output stays inactive (Table 16-4, log 107). -/
def tpFiredEffect (p : Nat) (s : State) : State :=
  match pulseOf s p with
  | none => s
  | some x =>
    let b := pulseBase s p x.tbsel
    if tbRuns s 1 && (x.period != 0 || x.point == 0) && decide (tbNow s b ≤ pulsePoint x) && decide (pulsePoint x < tbNow s b + tbSpan s b) then
      let pg := Page.timPulse p
      let step := edgeStep ((pulsePoint x - tbNow s b) * 0xA00000000 / max 1 (tbSpan s b))
      let s := if pageSafe s .timDev || pageSafe s pg then s
        else wrb (drivePulse s p step (some ⟨b, tbTicks s b, stepTime step + x.width * 2 ^ 16, x.pol⟩) x.pol) pg F.TIM_TP_STAT_ACTIVE true
      let s := raiseInt (incWrap s pg F.TIM_TP_FIRED) pg 8
      if x.period = 0 then setPulse (wrs s pg [(F.TIM_TP_CTRL_MODE, 0), (F.TIM_TP_STAT_ARMED, 0)]) p none
      else setPulse s p (some { x with point := x.point + 1 })
    else s

/-- TP_FIRED (R59). -/
def execTpFired (p : Nat) (s : State) : Host.Outcome State Fault Refusal := .next (tpFiredEffect p s)

/-- WIDTH of an asserted pulse ends in the present tick, or has ended (R59): the output returns to its inactive level. Before that it stays asserted. -/
def tpWidthEnd (p : Nat) (s : State) : State :=
  match pulseOnOf s p with
  | none => s
  | some x =>
    let gone := (tbTicks s x.base - x.tick) * 0xA00000000
    if x.due < gone + 0xA00000000 then
      wrb (drivePulse s p (edgeStep (x.due - gone)) none (tabGet false s.tim.pulsePol p)) (.timPulse p) F.TIM_TP_STAT_ACTIVE false
    else s

/-- TP_WIDTH_END (R59). -/
def execTpWidthEnd (p : Nat) (s : State) : Host.Outcome State Fault Refusal := .next (tpWidthEnd p s)

/-! ### Drift (R53) -/

/-- The site's epoch in units of 2^-32 ns. -/
def siteEpoch (s : State) (i : Nat) : Nat := (tabGet ⟨0, 0, 0⟩ s.tim.starts i).epoch

/-- Vector time of a site at the last REF tick, in units of 2^-32 ns: nominal 10 ns for each tick since tick k, less the delay of the epoch
after tick k (R50, R53). -/
def vectorTime (s : State) (n i : Nat) : Int :=
  let st := tabGet ⟨0, 0, 0⟩ s.tim.starts i
  ((tbTicks s (1 + n) : Int) - st.tick) * 0xA00000000 - st.delay

/-- Rounding of a count of 2^-32 ns to the nearest time unit, halves upward (R53). -/
def roundUnit (x : Int) : Int := (x + 32768) / 65536

/-- DRIFT of a running site (R53). -/
def driftEffect (n i : Nat) (s : State) : State :=
  let d := (tbNow s (1 + n) : Int) - (siteEpoch s i : Int) - vectorTime s n i
  wr s (.timPart n) (F.SITE_DRIFT i) (ofSigned 64 (roundUnit d))

end Sys2Proof.Machine
end

