-- ==== Sys2Proof/Machine/Stops.lean ====
section
/-! DEFINITION. Stops of a site and their shared effects (R124, R125, R222), and an engine whose read is uncorrectable (R25). -/

namespace Sys2Proof.Machine

open Sys2Proof

/-! ### Stops (R124, R125, R213, R222) -/

/-- An underrun gap ends: the underrun record of each of its routes is written (R213). -/
def gapEnd (i : Nat) (s : State) : State :=
  let x := siteOf s i
  match x.gap with
  | none => s
  | some g =>
    let s := setSite s i { x with gap := none }
    forS g.routes (fun r s =>
      let p := Page.bnk (r / 4)
      let k := r % 4
      addWrap (incSat (wrs s p [(F.FUR_UR_VN k, g.vn), (F.FUR_UR_LEN k, min g.len 0xFFFFFFFF)]) p (F.FUR_UR_GAPS k)) p (F.FUR_UR_IDLE k) g.len) s

/-- The rings bound to a site's routes are free again (R107). -/
def unbindRings (i : Nat) (s : State) : State :=
  forS (routesOf (siteOf s i).mask) (fun r s =>
    forS ((routeOf s r).streams.filterMap id) (fun k s =>
      wrs s (.bar4 (sitePart s i)) [(F.RING_STAT_BOUND k, 0), (F.RING_STAT_ROUTE k, 0)]) s) s

/-- At a stop every furrow of the site waits for its clear (R222); its pointers hold. -/
def furrowsStop (i : Nat) (s : State) : State :=
  forS (quadsOf (siteOf s i).mask) (fun q s => setFur s q { furOf s q with resetPend := true }) s

/-- The pins of a site enter the safe state at once: strobes not yet judged are discarded (R229, R266, R267). -/
def sitePinsSafe (i : Nat) (s : State) : State :=
  let l := pinsOf (siteOf s i).mask
  pinsSafe l (dropJudging i (discardStrobes l s))

/-- A PRIMING or RUNNING site stops for a list of causes (R124, R125): `cut` for SAFE and POISON, which act at once and cut the vector short,
`notify` unless the partition is being reset (R418). -/
def stopSite (i : Nat) (l : List Nat) (cut notify : Bool) (s : State) : State :=
  let running := siteState s i = 3
  let n := sitePart s i
  let s := if cut then setSite s i { siteOf s i with cur := none }
    else if running then finishVector i (((siteOf s i).cur.map (·.period)).getD 0) s else s
  let s := enterState i (strongest l) (causeBits l) (gapEnd i s)
  let s := if running then driftEffect n i s else s
  let s := wrb s (.timPart n) (F.SITE_RUNNING i) false
  let s := setSite s i { siteOf s i with stops := [], haltDue := false, stopBy := none, epochTick := none, queue := [], inRew := 0, block := [], redo := [], deferred := false, unsure := false, jlogWait := none, pass := none, failDue := false }
  let s := withdrawSite i notify (furrowsStop i (unbindRings i s))
  let s := pecSiteStop i (acqSiteStop i (cmpSiteStop i s))
  if cut then sitePinsSafe i s else s

/-- The causes that a site which stops at once joins: those of the stops already open (R125). -/
def withOpen (s : State) (i st : Nat) : List Nat := st :: ((openCauses (siteOf s i)).filter fun c => c != st)

/-- A site enters POISON in the cycle of its cause (R25, R125). -/
def poisonSite (i : Nat) (s : State) : State := if siteBusy s i then stopSite i (withOpen s i 9) true true s else s

/-- A site enters SAFE in the cycle of its cause, from any state but FREE (Table 4-9). -/
def safeSite (i : Nat) (notify : Bool) (s : State) : State :=
  let st := siteState s i
  if st = 0 || st = 10 then s
  else if siteBusy s i then stopSite i (withOpen s i 10) true notify s
  else sitePinsSafe i (enterState i 10 (causeBits [10]) (setSite s i { siteOf s i with cur := none }))

/-- A bank enters its safe state for a reason: its pins take the safe levels, and every site with a quad in it enters SAFE where an escalation
or another fault places it there (R122, R229, R430, R445). -/
def safeBank (b why : Nat) (s : State) : State :=
  let s := setBankSafe s b why true
  let s := forS (sitesOfBank s b) (fun i s => safeSite i true s) s
  let l := (List.range 16).map fun j => 16 * b + j
  pinsSafe l (discardStrobes l s)

/-! ### Uncorrectable reads of an engine (R25) -/

/-- An engine's read meets an uncorrectable block: the page is recorded, the caravan is aborted and its site enters POISON; nothing is tried again. -/
def engineUe (e part blk : Nat) (s : State) : State :=
  let s := recordUeAt 1 part blk false s
  match (engOf s e).work with
  | some w => if siteBusy s w.car.site then poisonSite w.car.site s else freeEng e s
  | none => s

end Sys2Proof.Machine
end

