-- ==== Sys2Proof/Machine/Patterns.lean ====
section
/-! DEFINITION. The pattern instruction set (chapter 5): fetch, faults in their order, the emitting step, splits and caravan ends, and one meaning
for each instruction, run by an engine on its caravan. -/

namespace Sys2Proof.Machine

open Sys2Proof

/-! ### Words (R129) -/

/-- The opcode of an instruction word. -/
def opOf (w : Nat) : Nat := bits w 63 56

/-- The modifiers of an instruction word. -/
def modOf (w : Nat) : Nat := bits w 55 48

/-- The operands of an instruction word. -/
def opdOf (w : Nat) : Nat := bits w 47 0

/-- Word k of an instruction. -/
def wordAt (l : List Nat) (k : Nat) : Nat := l.getD k 0

/-- The opcode is assigned (Table 5-1). -/
def opAssigned (op : Nat) : Bool :=
  decide (op ≤ 7) || (decide (0x10 ≤ op) && decide (op ≤ 0x14)) || (decide (0x18 ≤ op) && decide (op ≤ 0x1B)) ||
  (decide (0x20 ≤ op) && decide (op ≤ 0x23)) || op == 0x3F

/-- What one instruction is made of: its number of words, which first words are its own, and its faults in the order of R518: encoding,
alignment of a target, value checks, whether NO_SEG and which context fault can apply, and its own faults (codes of Table 5-9); then its effect
on the engine's working record, and the spans of pattern data that this part of it reads, as address and length. -/
structure PInstr where
  words : Nat
  mine : Nat → Bool
  badEncoding : List Nat → Bool
  badTarget : List Nat → Bool
  badValue : List Nat → Option Nat
  needsSeg : Bool
  context : RouteRec → Option Nat
  own : State → Work → List Nat → List Nat
  run : State → Work → List Nat → Work
  reads : State → Work → List Nat → List (Nat × Nat) := fun _ _ _ => []

/-! ### Emission (R133–R136, R197, R198) -/

/-- A vector about to be emitted: route word, timing set, palette set, run length, coherent bit, label bit, and for the hold of WAITT its
target. -/
structure VecOut where
  rw : Nat
  ts : Nat
  ps : Nat
  run : Nat
  coh : Bool
  lab : Bool
  wait : Option (Bool × Nat)

/-- The vector takes a tag: a pending LABEL, FLAG or MATCH, its own label bit, or a hold (R136). -/
def vecTagged (p : Pend) (v : VecOut) : Bool := p.label.isSome || p.flag || p.limit.isSome || v.lab || v.wait.isSome

/-- The tag of a vector (Table 5-4). -/
def vecTag (p : Pend) (v : VecOut) : Option Tag :=
  if vecTagged p v then
    some { label := p.label.isSome || v.lab, flag := p.flag, mtch := p.limit.isSome, hold := v.wait.isSome,
           wabs := (v.wait.map (·.1)).getD false, flagSet := p.flagSet, flagClr := p.flagClr, labelNum := p.label.getD 0,
           limit := p.limit.getD 0, target := (v.wait.map (·.2)).getD 0 }
  else none

/-- Bit 31 of an entry: it makes the number of ones even (R201). -/
def evenParity (w : Nat) : Nat := ((List.range 31).foldl (fun a b => a + b2n (w.testBit b)) 0) % 2

/-- The entry of a vector for quad-in-bank b (Table 5-3). -/
def entryWord (p : Pend) (v : VecOut) (b : Nat) : Nat :=
  let label := p.label.isSome || p.flag || v.lab || v.wait.isSome
  let w := bits v.rw (8 * b + 7) (8 * b) + v.ts % 64 * 2 ^ 8 + v.ps % 8 * 2 ^ 14 + (v.run - 1) % 256 * 2 ^ 17 + b2n p.mark * 2 ^ 25 +
    b2n p.seg * 2 ^ 26 + b2n label * 2 ^ 27 + b2n p.limit.isSome * 2 ^ 28 + b2n (p.coh || v.coh) * 2 ^ 29
  w + evenParity w * 2 ^ 31

/-- The expansion state after a vector is emitted: LASTVEC, the segment's count, PEND and BLOCK; the match-end entry closes the block
(R134, R154). -/
def afterEmit (st : RouteRec) (v : VecOut) : RouteRec :=
  { st with lastVec := some ⟨v.rw, v.ts, v.ps⟩, segCnt := st.segCnt + 1, pend := pendClear,
            block := if st.pend.limit.isSome then none else st.block.map fun b => { b with entries := b.entries + 1 } }

/-- Emit vectors one after another: the state after them, and for each its entries by quad-in-bank and whether it carries a tag. -/
def emitVecs (quads : List Nat) : List VecOut → RouteRec → RouteRec × List (List (Nat × Cell) × Bool)
  | [], st => (st, [])
  | v :: l, st =>
    let t := vecTag st.pend v
    let r := emitVecs quads l (afterEmit st v)
    (r.1, (quads.map fun q => (q % 4, ⟨entryWord st.pend v (q % 4), t⟩), t.isSome) :: r.2)

/-- Pack vectors into slices of up to 32 entries; a slice ends before a third vector that carries a tag (R197, R198). -/
def packSlices : List (List (Nat × Cell) × Bool) → List (Nat × Cell) → Nat → List (List (Nat × Cell))
  | [], cur, _ => if cur.isEmpty then [] else [cur]
  | (items, tagged) :: l, cur, t =>
    if tagged && t == 2 then cur :: packSlices l items 1
    else
      let all := cur ++ items
      if all.length < 32 then packSlices l all (t + b2n tagged)
      else all.take 32 :: packSlices l (all.drop 32) 0

/-- Entries that the caravan can still write. -/
def carRoom (w : Work) : Nat := w.car.entries - w.entries

/-- Tag places that the caravan has left (R137). -/
def tagRoom (w : Work) : Nat := (if w.car.kind = 0 then (w.car.entries + 15) / 16 else 64) - w.tags

/-- How many of the vectors fit before one needs a tag place that is not there; only the first takes the pending flags. -/
def fitCount : Pend → Nat → List VecOut → Nat
  | _, _, [] => 0
  | p, tags, v :: l =>
    if vecTagged p v then (if tags = 0 then 0 else 1 + fitCount pendClear (tags - 1) l) else 1 + fitCount pendClear tags l

/-- The vectors of the present part: as many as the room and the tag places hold. -/
def partOf (w : Work) (l : List VecOut) : List VecOut := (l.take (carRoom w)).take (fitCount w.st.pend (tagRoom w) (l.take (carRoom w)))

/-- The engine's caravan has a further side caravan of the same head to follow: A of a lone alternate (R137, R188). -/
def headFollowed (s : State) (c : Car) : Bool :=
  c.kind == 1 && !((routeOf s c.route).heads.any fun h => h.bound == c.bound && h.second)

/-- The entries that a part adds to an open MATCH block; its match-end entry closes it (R155). -/
def blockAdds (st : RouteRec) (n : Nat) : Nat := if st.pend.limit.isSome then min n 1 else n

/-- MATCH_LONG: the block would exceed 12,288 entries (R155). -/
def matchLong (st : RouteRec) (n : Nat) : Bool :=
  match st.block with
  | some b => decide (12288 < b.entries + blockAdds st n)
  | none => false

/-- The faults common to vector instructions: MATCH_LONG, and ALT_TAGS of a side caravan that no other follows (R137). -/
def vecFaults (s : State) (w : Work) (l : List VecOut) : List Nat :=
  let short := decide (0 < (l.take (carRoom w)).length) && (partOf w l).isEmpty
  (if matchLong w.st (partOf w l).length then [0x15] else []) ++
  (if short && w.car.kind != 0 && !headFollowed s w.car then [0x11] else [])

/-- Emit the vectors of a part: entries, tags and slices of the caravan's region. -/
def emitPart (s : State) (w : Work) (l : List VecOut) : Work :=
  let r := emitVecs (routeQuads s w.car.site w.car.route) l w.st
  let ts := (r.2.filter fun x => x.2).length
  { w with st := r.1, entries := w.entries + l.length, tags := w.tags + ts,
           slices := w.slices ++ (packSlices r.2 [] 0).map fun items => ⟨w.car.route / 4, kindRegion w.car.kind, items⟩ }

/-- The instruction is complete: the pc passes all of its words (R129). -/
def pastWords (w : Work) (words : List Nat) : Work := { w with st := { w.st with pc := w.st.pc + 8 * words.length, resid := none } }

/-- A side caravan that no other of its head follows has room for entries left: what stops it are its tag places, and its next part meets ALT_TAGS (R137). -/
def outOfTags (s : State) (w : Work) : Bool := w.car.kind != 0 && !headFollowed s w.car && decide (0 < carRoom w)

/-- A part is done (R138, R140): complete, or split with what is left; where nothing was emitted the caravan ends before the instruction. -/
def finishPart (s : State) (words : List Nat) (emitted left pos : Nat) (w : Work) : Work :=
  if left = 0 then pastWords w words
  else
    let st := if emitted = 0 then w.st else { w.st with resid := some ⟨words, left, pos⟩ }
    { w with st := st, ended := if outOfTags s w then none else some .full }

/-! ### The driver (R129–R131, R138, R139, R161, R518) -/

/-- Store an engine's work. -/
def putWork (e : Nat) (w : Work) (s : State) : State := setEng s e { engOf s e with work := some w }

/-- A pattern fault: the caravan ends with its code and the instruction's address (R138, R161). -/
def patFault (e code : Nat) (w : Work) (s : State) : State := putWork e { w with ended := some (.fault code w.st.pc) } s

/-- The n words at an instruction address in pattern memory. -/
def fetchWords (s : State) (part addr : Nat) : Nat → List Nat
  | 0 => []
  | n + 1 => readMem s part addr 8 :: fetchWords s part (addr + 8) n

/-- The n words at PC lie in the window of the instruction buffer (R164). -/
def inWindow (w : Work) (n : Nat) : Bool := decide (w.base ≤ w.st.pc) && decide (w.st.pc + 8 * n ≤ w.base + 512) && w.st.pc % 8 == w.base % 8

/-- The window moves to PC where the n words there are not in it: after a taken transfer that misses it, and past its last word (R164). -/
def moveWindow (w : Work) (n : Nat) : Work := if inWindow w n then w else { w with base := w.st.pc, buf := [] }

/-- The place of PC in the window. -/
def windowAt (w : Work) : Nat := (w.st.pc - w.base) / 8

/-- The first address from which the n words at PC are still to be read: none where the buffer holds them (R164). -/
def fetchFrom (w : Work) (n : Nat) : Option Nat :=
  if windowAt w + n ≤ w.buf.length then none else some (w.base + 8 * max w.buf.length (windowAt w))

/-- The window is filled in ascending order through the n words at PC (R164). The model fills it no further than execution needs (DESIGN CHOICE, log 94). -/
def fillWindow (s : State) (w : Work) (n : Nat) : Work :=
  { w with buf := w.buf ++ fetchWords s w.car.part (w.base + 8 * w.buf.length) (windowAt w + n - w.buf.length) }

/-- The n words at PC, which the buffer holds. -/
def windowWords (w : Work) (n : Nat) : List Nat := (w.buf.drop (windowAt w)).take n

/-- The lowest code of a list of faults, if any. -/
def lowestCode : List Nat → Option Nat
  | [] => none
  | c :: l => match lowestCode l with | none => some c | some d => some (min c d)

/-- The first fault of an instruction in the order of R518, after its fetch. -/
def firstFault (s : State) (i : PInstr) (w : Work) (words : List Nat) : Option Nat :=
  if i.badEncoding words then some 2
  else if i.badTarget words then some 3
  else match i.badValue words with
  | some c => some c
  | none =>
    if i.needsSeg && w.st.segNum.isNone then some 0x0C
    else match i.context w.st with
    | some c => some c
    | none => lowestCode (i.own s w words ++ if w.first && !i.mine (0x18 * 2 ^ 56) then [0x10] else [])

/-- The caravan's reservation is full: it ends (R138). -/
def endIfFull (w : Work) : Work := if w.ended.isNone && w.stalled.isNone && carRoom w = 0 then { w with ended := some .full } else w

/-- The effect of an instruction without a fault; a stall on ring data sets the ring's flags (R415). -/
def runBody (e : Nat) (i : PInstr) (w : Work) (words : List Nat) (s : State) : State :=
  let w' := endIfFull { i.run s w words with first := false }
  let s := putWork e w' s
  match w'.stalled with
  | some r => ringUnderrun w.car.part r s
  | none => s

/-- The part of an instruction that has no fault: it reads its data, where an uncorrectable block aborts the caravan (R25, R391), and takes effect. -/
def runRead (e : Nat) (i : PInstr) (w : Work) (words : List Nat) (s : State) : State :=
  match (i.reads s w words).findSome? fun x => firstPoison s w.car.part x.1 x.2 with
  | some blk => engineUe e w.car.part blk s
  | none => runBody e i w words (if (i.reads s w words).isEmpty then s else abortEntry s)

/-- What stops the fetch of the n words at PC, where the buffer does not hold them: words outside the quota, or an uncorrectable block (R25, R130). -/
def fetchStop (s : State) (w : Work) (n : Nat) : Option (Option Nat) :=
  match fetchFrom w n with
  | none => none
  | some a =>
    let len := w.st.pc + 8 * n - a
    if !inQuota s w.car.part a len then some none else (firstPoison s w.car.part a len).map some

/-- An engine takes its instruction at PC through its buffer (R164) and runs it where it is of this row's kind; a fetch that fails, and an unassigned opcode, belong to no row
and act under any (log 14). -/
def fetchRun (e : Nat) (i : PInstr) (w : Work) (s : State) : State :=
  let w := moveWindow w 1
  match fetchStop s w 1 with
  | some none => patFault e 4 w s
  | some (some blk) => engineUe e w.car.part blk s
  | none =>
    let w := fillWindow s w 1
    let first := wordAt (windowWords w 1) 0
    if !opAssigned (opOf first) then patFault e 1 w s
    else if !i.mine first then s
    else
      let w := moveWindow w i.words
      match fetchStop s w i.words with
      | some none => patFault e 4 w s
      | some (some blk) => engineUe e w.car.part blk s
      | none =>
        let w := fillWindow s w i.words
        match firstFault s i w (windowWords w i.words) with
        | some c => patFault e c w s
        | none => runRead e i w (windowWords w i.words) s

/-- An engine runs one instruction, or the next part of a split one, where it is of this row's kind; in self-refresh it waits (R386). The cycle of a handover is over by then (R177). -/
def runInstr (e : Nat) (i : PInstr) (s : State) : State :=
  let s := settle s
  match (engOf s e).work with
  | none => s
  | some w =>
    if w.ended.isSome || w.stalled.isSome || (engOf s e).mchk || !memServes s 1 then s
    else match w.st.resid with
    | some r =>
      if i.mine (wordAt r.words 0) then
        match lowestCode (i.own s w r.words) with
        | some c => patFault e c w s
        | none => runRead e i w r.words s
      else s
    | none => fetchRun e i w (abortEntry s)

/-- An instruction of one word without operands, modifiers or faults; its effect is given. -/
def plainInstr (op : Nat) (run : Work → Work) : PInstr :=
  { words := 1, mine := fun w => opOf w == op, badEncoding := fun l => modOf (wordAt l 0) != 0 || opdOf (wordAt l 0) != 0,
    badTarget := fun _ => false, badValue := fun _ => none, needsSeg := false, context := fun _ => none, own := fun _ _ _ => [],
    run := fun _ w words => run (pastWords w words) }

/-- Change the expansion state of a working record. -/
def withSt (w : Work) (f : RouteRec → RouteRec) : Work := { w with st := f w.st }

/-! ### NOP, PAL, LABEL, FLAG, TRIG (R131, R145, R156, R157) -/

/-- NOP (R131). -/
def nopInstr : PInstr := plainInstr 0x00 id

/-- NOP (R131). -/
def execNop (e : Nat) (s : State) : Host.Outcome State Fault Refusal := .next (runInstr e nopInstr s)

/-- PAL (R145). -/
def palInstr : PInstr :=
  { plainInstr 0x05 id with
    badEncoding := fun l => let w := wordAt l 0; bits w 55 51 != 0 || bits w 7 3 != 0 || bits w 47 14 != 0,
    run := fun _ w words => let x := wordAt words 0; withSt (pastWords w words) fun st =>
      { st with curPs := if x.testBit 48 then bits x 2 0 else st.curPs, curTs := if x.testBit 49 then bits x 13 8 else st.curTs,
                pend := { st.pend with coh := st.pend.coh || x.testBit 50 } } }

/-- PAL (R145). -/
def execPal (e : Nat) (s : State) : Host.Outcome State Fault Refusal := .next (runInstr e palInstr s)

/-- LABEL (R156): a second LABEL replaces the number of the first. -/
def labelInstr : PInstr :=
  { plainInstr 0x22 id with
    badEncoding := fun l => modOf (wordAt l 0) != 0 || bits (wordAt l 0) 47 16 != 0,
    run := fun _ w words => withSt (pastWords w words) fun st =>
      { st with pend := { st.pend with label := some (bits (wordAt words 0) 15 0) } } }

/-- LABEL (R156). -/
def execLabel (e : Nat) (s : State) : Host.Outcome State Fault Refusal := .next (runInstr e labelInstr s)

/-- Successive FLAGs combine; a later one overrides an earlier one bit by bit (R134). -/
def flagPend (p : Pend) (set clr : Nat) : Pend :=
  { p with flag := true, flagSet := (p.flagSet - (p.flagSet &&& clr)) ||| set, flagClr := (p.flagClr - (p.flagClr &&& set)) ||| clr }

/-- FLAG (R156): a bit in both SET and CLR is BAD_ENCODING. -/
def flagInstr : PInstr :=
  { plainInstr 0x23 id with
    badEncoding := fun l => let w := wordAt l 0
      modOf w != 0 || w.testBit 3 || bits w 47 7 != 0 || bits w 2 0 &&& bits w 6 4 != 0,
    run := fun _ w words => withSt (pastWords w words) fun st =>
      { st with pend := flagPend st.pend (bits (wordAt words 0) 2 0) (bits (wordAt words 0) 6 4) } }

/-- FLAG (R156). -/
def execFlag (e : Nat) (s : State) : Host.Outcome State Fault Refusal := .next (runInstr e flagInstr s)

/-- TRIG (R157): the last CODE of a caravan is kept. -/
def trigInstr : PInstr :=
  { plainInstr 0x21 id with
    badEncoding := fun l => modOf (wordAt l 0) != 0 || bits (wordAt l 0) 47 8 != 0,
    run := fun _ w words => { pastWords w words with trig := some (bits (wordAt words 0) 7 0) } }

/-- TRIG (R157). -/
def execTrig (e : Nat) (s : State) : Host.Outcome State Fault Refusal := .next (runInstr e trigInstr s)

/-! ### Vector instructions (R142–R147, R158) -/

/-- A vector under the current timing and palette set. -/
def curVec (st : RouteRec) (rw : Nat) : VecOut := ⟨rw, st.curTs, st.curPs, 1, false, false, none⟩

/-- A VX record as a vector (Table 4-2). -/
def vxVec (x : Nat) : VecOut := ⟨bits x 31 0, bits x 37 32, bits x 40 38, bits x 48 41 + 1, x.testBit 49, x.testBit 50, none⟩

/-- Bytes of a record: 4 for V2, 8 for VX. -/
def recBytes (vx : Bool) : Nat := if vx then 8 else 4

/-- A data record as a vector. -/
def dataVec (st : RouteRec) (vx : Bool) (x : Nat) : VecOut := if vx then vxVec x else curVec st x

/-- A data pointer. -/
def dpOf (st : RouteRec) (d : Nat) : Nat := st.dps.getD d 0

/-- Set a data pointer, a 35-bit offset. -/
def setDp (st : RouteRec) (d v : Nat) : RouteRec := { st with dps := st.dps.set d (v % 2 ^ 35) }

/-- How many vectors of the instruction are still to emit: from RESID, or its COUNT. -/
def leftOf (w : Work) (count : Nat) : Nat := (w.st.resid.map (·.remaining)).getD count

/-- The data position in RESID. -/
def posOf (w : Work) : Nat := (w.st.resid.map (·.pos)).getD 0

/-- COUNT of a vector instruction. -/
def countOf (l : List Nat) : Nat := bits (wordAt l 0) 31 0

/-- BAD_COUNT where the COUNT field is 0. -/
def zeroCount (l : List Nat) : Option Nat := if countOf l = 0 then some 5 else none

/-- The address that VEC reads next. -/
def vecAddr (s : State) (w : Work) (l : List Nat) : Nat := (routeOf s w.car.route).dbase + dpOf w.st (bits (wordAt l 0) 49 48)

/-- The vectors that VEC would emit in this part, up to the room left. -/
def vecPlan (s : State) (w : Work) (l : List Nat) : List VecOut :=
  let vx := (wordAt l 0).testBit 50
  (List.range (min (leftOf w (countOf l)) (carRoom w))).map fun k =>
    dataVec w.st vx (readMem s w.car.part (vecAddr s w l + recBytes vx * k) (recBytes vx))

/-- VEC with LOAD = 0 (R142). -/
def vecInstr : PInstr :=
  { words := 1, mine := fun w => opOf w == 0x01 && !w.testBit 51,
    badEncoding := fun l => bits (wordAt l 0) 55 52 != 0 || bits (wordAt l 0) 47 32 != 0,
    badTarget := fun _ => false, badValue := zeroCount, needsSeg := true, context := fun _ => none,
    own := fun s w l =>
      let vx := (wordAt l 0).testBit 50
      let n := (partOf w (vecPlan s w l)).length
      (if dpOf w.st (bits (wordAt l 0) 49 48) % recBytes vx ≠ 0 then [3] else []) ++
      (if 0 < n && !inQuota s w.car.part (vecAddr s w l) (recBytes vx * n) then [4] else []) ++ vecFaults s w (vecPlan s w l),
    run := fun s w l =>
      let vx := (wordAt l 0).testBit 50
      let d := bits (wordAt l 0) 49 48
      let p := partOf w (vecPlan s w l)
      let left := leftOf w (countOf l) - p.length
      finishPart s l p.length left (posOf w + recBytes vx * p.length)
        (withSt (emitPart s w p) fun st => setDp st d (dpOf st d + recBytes vx * p.length)),
    reads := fun s w l =>
      let n := (partOf w (vecPlan s w l)).length
      if n = 0 then [] else [(vecAddr s w l, recBytes ((wordAt l 0).testBit 50) * n)] }

/-- VEC (R142). -/
def execVec (e : Nat) (s : State) : Host.Outcome State Fault Refusal := .next (runInstr e vecInstr s)

/-- VEC with LOAD = 1 (R142). -/
def vecLoadInstr : PInstr :=
  { plainInstr 0x01 id with
    mine := fun w => opOf w == 0x01 && w.testBit 51,
    badEncoding := fun l => bits (wordAt l 0) 55 52 != 0 || bits (wordAt l 0) 47 35 != 0,
    run := fun _ w l => withSt (pastWords w l) fun st => setDp st (bits (wordAt l 0) 49 48) (bits (wordAt l 0) 34 0) }

/-- VEC_LOAD (R142). -/
def execVecLoad (e : Nat) (s : State) : Host.Outcome State Fault Refusal := .next (runInstr e vecLoadInstr s)

/-- The vector of VECI (R143). -/
def veciVec (l : List Nat) : VecOut :=
  let w := wordAt l 0
  ⟨bits w 31 0, bits w 37 32, bits w 40 38, modOf w + 1, w.testBit 41, false, none⟩

/-- One vector that is not split: emitted, or the caravan ends before the instruction. -/
def oneVector (s : State) (w : Work) (l : List Nat) (v : VecOut) : Work :=
  let p := partOf w [v]
  finishPart s l 0 (1 - p.length) 0 (emitPart s w p)

/-- VECI (R143). -/
def veciInstr : PInstr :=
  { words := 1, mine := fun w => opOf w == 0x02, badEncoding := fun l => bits (wordAt l 0) 47 42 != 0, badTarget := fun _ => false,
    badValue := fun _ => none, needsSeg := true, context := fun _ => none, own := fun s w l => vecFaults s w [veciVec l],
    run := fun s w l => oneVector s w l (veciVec l) }

/-- VECI (R143). -/
def execVeci (e : Nat) (s : State) : Host.Outcome State Fault Refusal := .next (runInstr e veciInstr s)

/-- Identical vectors packed into entries of run length 256 and a last one for the remainder (R135), up to the room left. -/
def packRuns (v : VecOut) (count room : Nat) : List VecOut :=
  (List.range (min ((count + 255) / 256) room)).map fun k => { v with run := min 256 (count - 256 * k) }

/-- Run lengths of a part together. -/
def runSum (l : List VecOut) : Nat := l.foldl (fun a v => a + v.run) 0

/-- The part of an instruction of identical vectors. -/
def runPart (s : State) (w : Work) (l : List Nat) (v : VecOut) : Work :=
  let p := partOf w (packRuns v (leftOf w (countOf l)) (carRoom w))
  finishPart s l p.length (leftOf w (countOf l) - runSum p) 0 (emitPart s w p)

/-- The last vector emitted, as a vector to emit again: its coherent bit is not copied (R144). -/
def lastOut (st : RouteRec) : VecOut :=
  match st.lastVec with
  | some v => ⟨v.rw, v.ts, v.ps, 1, false, false, none⟩
  | none => ⟨0, 0, 0, 1, false, false, none⟩

/-- RPT (R144). -/
def rptInstr : PInstr :=
  { words := 1, mine := fun w => opOf w == 0x03, badEncoding := fun l => modOf (wordAt l 0) != 0 || bits (wordAt l 0) 47 32 != 0,
    badTarget := fun _ => false, badValue := zeroCount, needsSeg := true, context := fun _ => none,
    own := fun s w l => (if w.st.lastVec.isNone then [6] else []) ++
      vecFaults s w (packRuns (lastOut w.st) (leftOf w (countOf l)) (carRoom w)),
    run := fun s w l => runPart s w l (lastOut w.st) }

/-- RPT (R144). -/
def execRpt (e : Nat) (s : State) : Host.Outcome State Fault Refusal := .next (runInstr e rptInstr s)

/-- The vector of FILL (R144). -/
def fillVec (st : RouteRec) (l : List Nat) : VecOut := curVec st (bits (wordAt l 0) 49 48 * 0x55555555)

/-- FILL (R144). -/
def fillInstr : PInstr :=
  { words := 1, mine := fun w => opOf w == 0x04, badEncoding := fun l => bits (wordAt l 0) 55 50 != 0 || bits (wordAt l 0) 47 32 != 0,
    badTarget := fun _ => false, badValue := zeroCount, needsSeg := true, context := fun _ => none,
    own := fun s w l => vecFaults s w (packRuns (fillVec w.st l) (leftOf w (countOf l)) (carRoom w)),
    run := fun s w l => runPart s w l (fillVec w.st l) }

/-- FILL (R144). -/
def execFill (e : Nat) (s : State) : Host.Outcome State Fault Refusal := .next (runInstr e fillInstr s)

/-! ### STREAM (R146, R189) -/

/-- The ring bound to the instruction's stream slot. -/
def streamRing (s : State) (w : Work) (l : List Nat) : Option Nat :=
  (routeOf s w.car.route).streams.getD (bits (wordAt l 0) 49 48) none

/-- Bytes of a ring that the caravan has consumed so far. -/
def ringUsed (w : Work) (r : Nat) : Nat := (w.ringRead.lookup r).getD 0

/-- The ring's byte count that the engine reads next. -/
def ringAt (s : State) (w : Work) (r : Nat) : Nat := (rd s (.bar4 w.car.part) (F.RING_RD r) + ringUsed w r) % 2 ^ 64

/-- Whole records of a ring that the engine can read now. -/
def ringHas (s : State) (w : Work) (r : Nat) (vx : Bool) : Nat := ringDiff (rd s (.bar4 w.car.part) (F.RING_WR r)) (ringAt s w r) / recBytes vx

/-- The vectors that STREAM can emit now: as many as the room and the ring's data allow. -/
def streamPlan (s : State) (w : Work) (l : List Nat) (r : Nat) : List VecOut :=
  let vx := (wordAt l 0).testBit 50
  (List.range (min (min (leftOf w (countOf l)) (carRoom w)) (ringHas s w r vx))).map fun k =>
    dataVec w.st vx (ringRead s w.car.part r (ringAt s w r + recBytes vx * k) (recBytes vx))

/-- The part of STREAM: what data there is is emitted; where data is missing for the rest of the part the engine stalls (R109, R140). -/
def streamRun (s : State) (w : Work) (l : List Nat) : Work :=
  match streamRing s w l with
  | none => w
  | some r =>
    let vx := (wordAt l 0).testBit 50
    let plan := streamPlan s w l r
    let p := partOf w plan
    let left := leftOf w (countOf l) - p.length
    let w' := { emitPart s w p with ringRead := (r, ringUsed w r + recBytes vx * p.length) :: w.ringRead.filter fun x => x.1 != r }
    let missing := decide (p.length = plan.length) && decide (0 < left) && decide (0 < carRoom w')
    if missing then { w' with st := { w'.st with resid := some ⟨l, left, posOf w + recBytes vx * p.length⟩ }, stalled := some r }
    else finishPart s l p.length left (posOf w + recBytes vx * p.length) w'

/-- The spans of a ring's area that n bytes from a byte count on take: two where they pass its end (R412). -/
def ringSpans (s : State) (p r i n : Nat) : List (Nat × Nat) :=
  let size := max 1 (ringSize s p r)
  let first := min n (size - i % size)
  [(ringBase s p r + i % size, first), (ringBase s p r, n - first)].filter fun x => x.2 != 0

/-- STREAM (R146): a side caravan ends before it (R189). -/
def streamInstr : PInstr :=
  { words := 1, mine := fun w => opOf w == 0x06, badEncoding := fun l => bits (wordAt l 0) 55 51 != 0 || bits (wordAt l 0) 47 32 != 0,
    badTarget := fun _ => false, badValue := zeroCount, needsSeg := true, context := fun _ => none,
    own := fun s w l =>
      if w.car.kind ≠ 0 then []
      else match streamRing s w l with
      | none => [0x19]
      | some r => (if matchLong w.st (min (leftOf w (countOf l)) (carRoom w)) then [0x15] else []) ++ vecFaults s w (streamPlan s w l r),
    run := fun s w l => if w.car.kind ≠ 0 then { w with ended := some .stop } else streamRun s w l,
    reads := fun s w l =>
      match streamRing s w l with
      | none => []
      | some r =>
        let n := (partOf w (streamPlan s w l r)).length
        if w.car.kind ≠ 0 then [] else ringSpans s w.car.part r (ringAt s w r) (recBytes ((wordAt l 0).testBit 50) * n) }

/-- STREAM (R146). -/
def execStream (e : Nat) (s : State) : Host.Outcome State Fault Refusal := .next (runInstr e streamInstr s)

/-- RING_DATA_RESUME (R163): the engine goes on once a record it waits for can be read. -/
def execRingDataResume (e : Nat) (s : State) : Host.Outcome State Fault Refusal :=
  .next (match (engOf s e).work with
    | none => s
    | some w => match w.stalled with
      | none => s
      | some r =>
        let vx := (wordAt ((w.st.resid.map (·.words)).getD []) 0).testBit 50
        if 0 < ringHas s w r vx then putWork e { w with stalled := none } s else s)

/-! ### SCAN (R147) -/

/-- Scan pins n of a SCAN: 1, 2 or 4. -/
def scanN (l : List Nat) : Nat := 2 ^ bits (wordAt l 0) 52 51

/-- Bits of the stream per scan vector. -/
def scanBits (l : List Nat) : Nat := if (wordAt l 0).testBit 50 then scanN l else 2 * scanN l

/-- PINm of a SCAN. -/
def scanPin (l : List Nat) (m : Nat) : Nat := bits (wordAt l 1) (32 + 4 * m + 3) (32 + 4 * m)

/-- EN[m] of a SCAN. -/
def scanEn (l : List Nat) (m : Nat) : Bool := (wordAt l 1).testBit (48 + m)

/-- A route word with the symbol of a pin slot replaced. -/
def putSym (rw j sym : Nat) : Nat := rw - (bits rw (2 * j + 1) (2 * j) <<< (2 * j)) + (sym <<< (2 * j))

/-- SCAN_PIN (R147). -/
def scanPinBad (s : State) (w : Work) (l : List Nat) : Bool :=
  let n := scanN l
  let on := (List.range 4).filter (scanEn l)
  !scanEn l 0 || on.any (fun m => decide (n ≤ m)) || !(on.map (scanPin l)).Nodup ||
  on.any fun m => !(routeQuads s w.car.site w.car.route).contains (4 * (w.car.route / 4) + scanPin l m / 4)

/-- The address of the stream. -/
def scanAddr (s : State) (w : Work) (l : List Nat) : Nat := (routeOf s w.car.route).dbase + dpOf w.st (bits (wordAt l 0) 49 48)

/-- A bit of the stream. -/
def scanBit (s : State) (part addr k : Nat) : Nat := ((memByte s part (addr + k / 8)).toNat >>> (k % 8)) % 2

/-- The symbol of stream slot m in scan vector i. -/
def scanSym (s : State) (w : Work) (l : List Nat) (i m : Nat) : Nat :=
  let a := scanAddr s w l
  let k := i * scanN l + m
  if (wordAt l 0).testBit 50 then scanBit s w.car.part a k
  else scanBit s w.car.part a (2 * k) + 2 * scanBit s w.car.part a (2 * k + 1)

/-- The route word of scan vector i. -/
def scanWord (s : State) (w : Work) (l : List Nat) (i : Nat) : Nat :=
  ((List.range (scanN l)).filter (scanEn l)).foldl (fun rw m => putSym rw (scanPin l m) (scanSym s w l i m)) (bits (wordAt l 1) 31 0)

/-- The vectors that SCAN would emit in this part. -/
def scanPlan (s : State) (w : Work) (l : List Nat) : List VecOut :=
  (List.range (min (leftOf w (countOf l)) (carRoom w))).map fun k => curVec w.st (scanWord s w l (posOf w + k))

/-- The bytes that a part of n scan vectors reads lie within the quota. -/
def scanInQuota (s : State) (w : Work) (l : List Nat) (n : Nat) : Bool :=
  let lo := posOf w * scanBits l / 8
  let hi := ((posOf w + n) * scanBits l + 7) / 8
  inQuota s w.car.part (scanAddr s w l + lo) (hi - lo)

/-- SCAN (R147). The data pointer advances when the last scan vector is emitted. -/
def scanInstr : PInstr :=
  { words := 2, mine := fun w => opOf w == 0x07,
    badEncoding := fun l => bits (wordAt l 0) 55 53 != 0 || bits (wordAt l 0) 52 51 == 3 || bits (wordAt l 0) 47 32 != 0 ||
      bits (wordAt l 1) 63 52 != 0,
    badTarget := fun _ => false, badValue := zeroCount, needsSeg := true, context := fun _ => none,
    own := fun s w l =>
      let n := (partOf w (scanPlan s w l)).length
      (if scanAddr s w l % 4 ≠ 0 then [3] else []) ++ (if 0 < n && !scanInQuota s w l n then [4] else []) ++
      (if scanPinBad s w l then [0x1A] else []) ++ vecFaults s w (scanPlan s w l),
    run := fun s w l =>
      let p := partOf w (scanPlan s w l)
      let left := leftOf w (countOf l) - p.length
      let d := bits (wordAt l 0) 49 48
      finishPart s l p.length left (posOf w + p.length) (withSt (emitPart s w p) fun st =>
        if left = 0 then setDp st d (dpOf st d + 4 * ((countOf l * scanBits l + 31) / 32)) else st),
    reads := fun s w l =>
      let n := (partOf w (scanPlan s w l)).length
      let lo := posOf w * scanBits l / 8
      if n = 0 then [] else [(scanAddr s w l + lo, ((posOf w + n) * scanBits l + 7) / 8 - lo)] }

/-- SCAN (R147). -/
def execScan (e : Nat) (s : State) : Host.Outcome State Fault Refusal := .next (runInstr e scanInstr s)

/-! ### WAITT (R158) -/

/-- The hold entry of WAITT. -/
def waitVec (st : RouteRec) (l : List Nat) : VecOut :=
  let abs := (wordAt l 0).testBit 48
  let t := if abs then timeOf (bits (wordAt l 1) 47 0) (bits (wordAt l 2) 31 0) (bits (wordAt l 2) 47 32) else wordAt l 1
  { lastOut st with wait := some (abs, t) }

/-- WAITT (R158): WAITT_MATCH with a block open, BAD_TIME, NO_VECTOR. -/
def waittInstr : PInstr :=
  { words := 3, mine := fun w => opOf w == 0x20,
    badEncoding := fun l => bits (wordAt l 0) 55 49 != 0 || opdOf (wordAt l 0) != 0 ||
      (if (wordAt l 0).testBit 48 then bits (wordAt l 1) 63 48 != 0 || bits (wordAt l 2) 63 48 != 0 else wordAt l 2 != 0),
    badTarget := fun _ => false,
    badValue := fun l => if (wordAt l 0).testBit 48 && decide (1000000000 ≤ bits (wordAt l 2) 31 0) then some 0x18 else none,
    needsSeg := true, context := fun st => if st.block.isSome then some 0x17 else none,
    own := fun s w l => (if w.st.lastVec.isNone then [6] else []) ++ vecFaults s w [waitVec w.st l],
    run := fun s w l => oneVector s w l (waitVec w.st l) }

/-- WAITT (R158). -/
def execWaitt (e : Nat) (s : State) : Host.Outcome State Fault Refusal := .next (runInstr e waittInstr s)

/-! ### Flow of control (R148, R149) -/

/-- LOOP (R148). -/
def loopInstr : PInstr :=
  { plainInstr 0x10 id with
    badEncoding := fun l => modOf (wordAt l 0) != 0 || bits (wordAt l 0) 47 32 != 0, badValue := zeroCount,
    own := fun _ w _ => if 8 ≤ w.st.loops.length then [7] else [],
    run := fun _ w l => withSt (pastWords w l) fun st => { st with loops := (countOf l, st.pc) :: st.loops } }

/-- LOOP (R148). -/
def execLoop (e : Nat) (s : State) : Host.Outcome State Fault Refusal := .next (runInstr e loopInstr s)

/-- The effect of ENDL: branch back, or pop the frame (R148). -/
def endlEffect (st : RouteRec) : RouteRec :=
  match st.loops with
  | [] => st
  | (n, body) :: rest => if 1 < n then { st with loops := (n - 1, body) :: rest, pc := body } else { st with loops := rest }

/-- ENDL (R148). -/
def endlInstr : PInstr :=
  { plainInstr 0x11 fun w => withSt w endlEffect with own := fun _ w _ => if w.st.loops.isEmpty then [8] else [] }

/-- ENDL (R148). -/
def execEndl (e : Nat) (s : State) : Host.Outcome State Fault Refusal := .next (runInstr e endlInstr s)

/-- The target of a transfer. -/
def targetOf (l : List Nat) : Nat := bits (wordAt l 0) 34 0

/-- CALL (R148): the frame holds the return address and the loop depth. -/
def callInstr : PInstr :=
  { plainInstr 0x12 id with
    badEncoding := fun l => modOf (wordAt l 0) != 0 || bits (wordAt l 0) 47 35 != 0, badTarget := fun l => targetOf l % 8 != 0,
    own := fun _ w _ => if 16 ≤ w.st.calls.length then [9] else [],
    run := fun _ w l => withSt (pastWords w l) fun st => { st with calls := (st.pc, st.loops.length) :: st.calls, pc := targetOf l } }

/-- CALL (R148). -/
def execCall (e : Nat) (s : State) : Host.Outcome State Fault Refusal := .next (runInstr e callInstr s)

/-- The faults of RET: no frame, or another loop depth than at the call (R148). -/
def retFaults (st : RouteRec) : List Nat :=
  match st.calls with
  | [] => [0x0A]
  | (_, d) :: _ => if st.loops.length ≠ d then [0x0B] else []

/-- The effect of RET (R148). -/
def retEffect (st : RouteRec) : RouteRec :=
  match st.calls with
  | [] => st
  | (a, _) :: rest => { st with pc := a, calls := rest }

/-- RET (R148). -/
def retInstr : PInstr := { plainInstr 0x13 fun w => withSt w retEffect with own := fun _ w _ => retFaults w.st }

/-- RET (R148). -/
def execRet (e : Nat) (s : State) : Host.Outcome State Fault Refusal := .next (runInstr e retInstr s)

/-- JMP (R148): both stacks unchanged. -/
def jmpInstr : PInstr :=
  { plainInstr 0x14 id with
    badEncoding := fun l => modOf (wordAt l 0) != 0 || bits (wordAt l 0) 47 35 != 0, badTarget := fun l => targetOf l % 8 != 0,
    run := fun _ w l => withSt (pastWords w l) fun st => { st with pc := targetOf l } }

/-- JMP (R148). -/
def execJmp (e : Nat) (s : State) : Host.Outcome State Fault Refusal := .next (runInstr e jmpInstr s)

/-- HALT (R149): MATCH_OPEN with a block open, EMPTY_SEG with a pending SEG; pending LABEL, FLAG and COH are discarded (R134), and so are open loop and call
frames. -/
def haltInstr : PInstr :=
  { plainInstr 0x3F id with
    context := fun st => if st.block.isSome then some 0x16 else none,
    own := fun _ w _ => if w.st.pend.seg then [0x0D] else [],
    run := fun _ w l => { withSt (pastWords w l) fun st => { st with pend := pendClear, loops := [], calls := [], ended := true } with ended := some .halt } }

/-- HALT_INSTRUCTION (R149). -/
def execHaltInstruction (e : Nat) (s : State) : Host.Outcome State Fault Refusal := .next (runInstr e haltInstr s)

/-! ### Segments, alternates and MATCH blocks (R150–R154) -/

/-- A loop or a call is open. -/
def nested (st : RouteRec) : Bool := !st.loops.isEmpty || !st.calls.isEmpty

/-- SEG (R150). The SEG that opens an alternate's head closes no segment of the head (log 15). -/
def segInstr : PInstr :=
  { plainInstr 0x18 id with
    badEncoding := fun l => modOf (wordAt l 0) != 0 || bits (wordAt l 0) 47 16 != 0,
    context := fun st => if nested st then some 0x0E else if st.block.isSome then some 0x16 else none,
    own := fun _ w _ => if w.st.segNum.isSome && w.st.segCnt = 0 && !w.first then [0x0D] else [],
    run := fun _ w l => withSt (pastWords w l) fun st =>
      { st with segNum := some (bits (wordAt l 0) 15 0), segCnt := 0, pend := { st.pend with seg := true }, alts := [], segOrd := st.segOrd + 1 } }

/-- SEG (R150). -/
def execSeg (e : Nat) (s : State) : Host.Outcome State Fault Refusal := .next (runInstr e segInstr s)

/-- The state from which an alternate starts (R152). -/
def altStart (st : RouteRec) (target : Nat) : RouteRec := { st with pc := target, pend := pendClear, block := none, alts := [], resid := none }

/-- The alternate index that ALT names. -/
def altIndexOf (l : List Nat) : Nat := 1 + bits (wordAt l 0) 48 48

/-- ALT (R151). -/
def altInstr : PInstr :=
  { plainInstr 0x19 id with
    badEncoding := fun l => bits (wordAt l 0) 55 49 != 0 || bits (wordAt l 0) 47 35 != 0, badTarget := fun l => targetOf l % 8 != 0,
    needsSeg := true, context := fun st => if nested st then some 0x0E else none,
    own := fun _ w l => if w.st.alts.any (fun a => a.index == altIndexOf l) then [0x0F] else [],
    run := fun _ w l =>
      let w := pastWords w l
      { w with st := { w.st with alts := w.st.alts ++ [⟨altIndexOf l, targetOf l⟩] },
               newAlts := w.newAlts ++ [⟨altIndexOf l, w.st.segOrd, altStart w.st (targetOf l)⟩] } }

/-- ALT (R151). -/
def execAlt (e : Nat) (s : State) : Host.Outcome State Fault Refusal := .next (runInstr e altInstr s)

/-- MARK (R154). -/
def markInstr : PInstr :=
  { plainInstr 0x1A fun w => withSt w fun st =>
      { st with pend := { st.pend with mark := true }, block := some ⟨0, st.loops.length, st.calls.length⟩ } with
    context := fun st => if st.block.isSome then some 0x12 else none }

/-- MARK (R154). -/
def execMark (e : Nat) (s : State) : Host.Outcome State Fault Refusal := .next (runInstr e markInstr s)

/-- The context faults of MATCH: no block open, or another depth than at MARK (R154). -/
def matchContext (st : RouteRec) : Option Nat :=
  match st.block with
  | none => some 0x13
  | some b => if b.loopDepth ≠ st.loops.length ∨ b.callDepth ≠ st.calls.length then some 0x14 else none

/-- MATCH (R154). -/
def matchInstr : PInstr :=
  { plainInstr 0x1B id with
    badEncoding := fun l => modOf (wordAt l 0) != 0 || bits (wordAt l 0) 47 32 != 0, badValue := zeroCount, context := matchContext,
    run := fun _ w l => withSt (pastWords w l) fun st => { st with pend := { st.pend with limit := some (countOf l) } } }

/-- MATCH (R154). -/
def execMatch (e : Nat) (s : State) : Host.Outcome State Fault Refusal := .next (runInstr e matchInstr s)

end Sys2Proof.Machine
end

