-- ==== Sys2Proof/Machine/Commit.lean ====
section
/-! DEFINITION. The passage of a caravan through an engine: handover, the sluice,
commit with its side caravans, and the pointer queues (chapters 6 and 7). -/

namespace Sys2Proof.Machine

open Sys2Proof

/-! ### Route-state records (Table 6-6) -/

/-- A number packed from fields: bit offset, width and value. -/
def packBits (l : List (Nat × Nat × Nat)) : Nat := l.foldl (fun a f => a + f.2.2 % 2 ^ f.2.1 * 2 ^ f.1) 0

/-- Bytes 0x000 to 0x1FB of a route-state record, little-endian, as a number (Table 6-6). A frame's number in LSTACK and CSTACK counts from the outermost. -/
def recordBytes (x : RouteRec) : Nat :=
  let at' (byte : Nat) (l : List (Nat × Nat × Nat)) : List (Nat × Nat × Nat) := l.map fun f => (8 * byte + f.1, f.2)
  let v := x.lastVec.getD ⟨0, 0, 0⟩
  let p := x.pend
  let b := x.block.getD ⟨0, 0, 0⟩
  let r := x.resid.getD ⟨[], 0, 0⟩
  let w := wordAt r.words 0
  packBits (
    at' 0 [(0, 35, x.pc)] ++
    at' 8 [(0, 4, x.loops.length), (4, 5, x.calls.length), (9, 1, b2n x.block.isSome), (10, 1, b2n x.ended), (11, 1, b2n x.pfault),
      (12, 1, b2n x.lastVec.isSome), (13, 1, b2n x.segNum.isSome), (14, 1, b2n x.resid.isSome)] ++
    at' 12 [(0, 6, x.curTs), (8, 3, x.curPs), (16, 16, x.segNum.getD 0)] ++
    at' 16 [(0, 64, x.segCnt)] ++
    at' 24 [(0, 32, v.rw), (32, 6, v.ts), (38, 3, v.ps)] ++
    at' 32 [(0, 1, b2n p.seg), (1, 1, b2n p.mark), (2, 1, b2n p.coh), (3, 1, b2n p.limit.isSome), (4, 1, b2n p.label.isSome), (5, 1, b2n p.flag),
      (8, 3, p.flagSet), (12, 3, p.flagClr), (16, 16, p.label.getD 0), (32, 32, p.limit.getD 0)] ++
    at' 48 [(0, 14, b.entries), (16, 4, b.loopDepth), (20, 5, b.callDepth)] ++
    at' 56 [(0, 8, opOf w), (8, 2, modOf w), (32, 32, r.remaining), (64, 35, r.pos)] ++
    (x.alts.zipIdx.flatMap fun a => at' (72 + 8 * a.2) [(0, 35, a.1.target), (56, 1, 1), (57, 1, a.1.index - 1)]) ++
    (x.dps.zipIdx.flatMap fun d => at' (96 + 8 * d.2) [(0, 35, d.1)]) ++
    (x.loops.reverse.zipIdx.flatMap fun f => at' (128 + 16 * f.2) [(0, 32, f.1.1), (64, 35, f.1.2)]) ++
    (x.calls.reverse.zipIdx.flatMap fun f => at' (256 + 8 * f.2) [(0, 35, f.1.1), (35, 4, f.1.2)]))

/-- The CHECK field of a record (Table 6-6). -/
def recordCheck (x : RouteRec) : Nat := crc32 0x1FC (recordBytes x)

/-- A record of a route is written with its CHECK (R175): k is 0 for the main record, 1 to 3 for CF_A, CF_B and CS. -/
def putCheck (k : Nat) (x : RouteRec) (r : Route) : Route := { r with checks := r.checks.set k (recordCheck x) }

/-! ### Handover (R175, R176, R183) -/

/-- The record a caravan starts from (R175, R188): the route's main record, or the head's start state, or CF_A for caravan B. -/
def carRecord (s : State) (c : Car) : RouteRec :=
  let x := routeOf s c.route
  if c.kind = 0 then x.main
  else match x.heads.find? (fun h => h.index = c.altIndex ∧ h.bound = c.bound) with
  | some h => if c.kind = 2 then h.contA else h.st
  | none => x.main

/-- The record failed its check (R176): the caravan is aborted, the site enters POISON, and RS_CHECK is recorded with the route. -/
def rsCheck (c : Car) (s : State) : State :=
  let s := { s with pat := { s.pat with rsLast := some (c.route, c.site) } }
  poisonSite c.site (raiseInt (fltEvent s .disDev 1) .disDev 1)

/-- The record that a caravan loads agrees with its CHECK (R176). A and S start from a copy of the state at their ALT (R152), which is none of the records of R175. -/
def checkHolds (s : State) (c : Car) : Bool :=
  (c.kind != 0 && c.kind != 2) || (routeOf s c.route).checks.getD (if c.kind = 0 then 0 else 1) 0 == recordCheck (carRecord s c)

/-- A caravan assigned to an engine that cannot take it is ready again, first of its route and with its reservation (R168). -/
def takeBack (c : Car) (s : State) : State :=
  setRoute s c.route { routeOf s c.route with ready := { c with resv := true } :: (routeOf s c.route).ready }

/-- A machine check that an engine took after a commit falls on the caravan it has now been handed (R23): route and site are recorded with it, and it is discarded and
requeued (R169). -/
def lateCheck (e : Nat) (c : Car) (s : State) : State :=
  let s := wrs s .disDev [(F.DIS_MCHK_LAST_ENGINE, e), (F.DIS_MCHK_LAST_CAUSE, rd s (.eng e) F.ENG_MCHK_CAUSE), (F.DIS_MCHK_LAST_ROUTE, c.route),
    (F.DIS_MCHK_LAST_SITE, c.site)]
  requeue e (setEng s e { engOf s e with mchk := true, due := false })

/-- The next assigned caravan goes to its engine, which loads the route-state record and checks it; `ok` says that the stored record is undamaged (R183, R176). To a cluster in
CS_HOLD nothing is handed (R168). -/
def caravanHandover (ok : Bool) (s : State) : State :=
  let s := settle s
  match s.pat.assigned with
  | [] => s
  | (c, e) :: rest =>
    let s := { s with pat := { s.pat with assigned := rest } }
    if !csReady s (e / 17) then takeBack c s
    else
      let w : Work := ⟨c, carRecord s c, (carRecord s c).pc, [], [], 0, 0, [], none, [], none, c.kind == 1 || c.kind == 3, none, false⟩
      let s := { putWork e w s with pat := { (putWork e w s).pat with handover := some e, handAt := tickMark s } }
      if (engOf s e).due then lateCheck e c s
      else
        let s := setEng s e { engOf s e with mchk := false }
        if ok && checkHolds s c then s else rsCheck c s

/-- CARAVAN_HANDOVER (R183). -/
def execCaravanHandover (ok : Bool) (s : State) : Host.Outcome State Fault Refusal := .next (caravanHandover ok s)

/-! ### The sluice (R196–R200) -/

/-- A word is written at the staged position of a furrow (R197, R200). -/
def writeWord (q region word : Nat) (s : State) : State :=
  let x := furOf s q
  if region = 0 then setFur s q { x with cells := tabIns x.cells (x.stg % 16384) ⟨word, none⟩, stg := ptrAdd x.stg 1 }
  else
    let h := halfOf x region
    setFur s q (setHalf x region { h with cells := tabIns h.cells (h.stg % 1024) ⟨word, none⟩, stg := sideAdd h.stg 1 })

/-- A tag joins the tag queue of a furrow, for the entry last staged there (R197). -/
def writeTag (region : Nat) (t : Tag) (q : Nat) (s : State) : State :=
  let x := furOf s q
  let put (l : Tab Cell) (k : Nat) : Tab Cell := tabIns l k { tabGet ⟨0, none⟩ l k with tag := some t }
  if region = 0 then setFur s q { x with cells := put x.cells (ptrDiff x.stg 1 % 16384), tagStg := x.tagStg + 1 }
  else
    let h := halfOf x region
    setFur s q (setHalf x region { h with cells := put h.cells (sideDiff h.stg 1 % 1024), tagStg := h.tagStg + 1 })

/-- An entry of a slice is written; with the last of its vector, that of the highest of the route's quads, the vector's tag is written in every one of them (R197). -/
def writeEntry (b region : Nat) (quads : List Nat) (it : Nat × Cell) (s : State) : State :=
  let s := writeWord (4 * b + it.1) region it.2.word s
  match it.2.tag with
  | some t => if quads.getLast? = some (4 * b + it.1) then forS quads (writeTag region t) s else s
  | none => s

/-- The engines with a slice for a bank, in round-robin order from the port's pointer (R199). -/
def portQueue (s : State) (b : Nat) : List Nat :=
  let p := tabGet 0 s.pat.portPtr b
  ((List.range 68).map fun k => (p + k) % 68).filter fun e =>
    match (engOf s e).work with
    | some w => (w.slices.head?.map (·.bank)) == some b && !(engOf s e).mchk
    | none => false

/-- A bank write port grants one slice; the other engines that request it wait for a cycle, which counts in `ENG_STALL` (R199). While a perturbation delays the grant, every engine
waits (Table 20-7, SLUICE_DELAY). -/
def sluiceGrant (b : Nat) (s : State) : State :=
  match portQueue s b with
  | [] => s
  | e :: others =>
    if disTick s < tabGet 0 s.lcs.grantWait b then forS (e :: others) (fun f s => incWrap s (.eng f) F.ENG_STALL) s
    else match (engOf s e).work with
    | none => s
    | some w =>
      match w.slices with
      | [] => s
      | sl :: rest =>
        let s := forS others (fun f s => incWrap s (.eng f) F.ENG_STALL) s
        let s := forS sl.items (writeEntry b sl.region (routeQuads s w.car.site w.car.route)) (putWork e { w with slices := rest } s)
        { s with pat := { s.pat with portPtr := tabPut 0 s.pat.portPtr b ((e + 1) % 68) } }

/-- SLUICE_GRANT (R199). -/
def execSluiceGrant (b : Nat) (s : State) : Host.Outcome State Fault Refusal := .next (sluiceGrant b s)

/-! ### Side caravans (R151, R162, R188, R189) -/

/-- A side caravan of an alternate. -/
def sideCar (s : State) (c : Car) (kind index bound : Nat) : Car :=
  { c with kind := kind, entries := 1024, asked := 1024, chainN := 0, notify := false, source := 2, ring := 4, fails := 0, resv := false, lastEng := none,
           deadline := disTick s, submitTick := disTick s, relTick := some (disTick s), altIndex := index, bound := bound }

/-- Side caravans join the head of the ready list, behind those filed before them; without a token the request waits, and so it does behind one that waits (R181, R188,
R192). -/
def fileSide (c : Car) (s : State) : State :=
  let x := routeOf s c.route
  if tokenFree s c.part && x.sideWait.isEmpty then
    poolCheck s (setRoute s c.route (putSide c x))
  else incSat (setRoute s c.route { x with sideWait := x.sideWait ++ [c] }) (.disPart c.part) F.BP_EVENTS

/-- The caravans of a route that satisfy a test are withdrawn: filed ones go, a held one among them (R171), one in service is discarded, with its engine's staged entries
(R162, R188, R190). -/
def dropCars (r : Nat) (p : Car → Bool) (s : State) : State :=
  let q (c : Car) : Bool := c.route == r && p c
  let x := routeOf s r
  let freed := x.held && (x.ready.head?.map q).getD false
  let s := setRoute s r { x with ready := x.ready.filter fun c => !q c, sideWait := x.sideWait.filter fun c => !q c, held := x.held && !freed }
  let s := if freed then heldOver s else s
  let s := { s with pat := { s.pat with assigned := s.pat.assigned.filter fun a => !q a.1 } }
  match routeEng s r with
  | none => s
  | some e =>
    match (engOf s e).work with
    | some w => if q w.car then dropStaged w.car (freeEng e s) else s
    | none => s

/-- A half of every furrow of a route is released where it was filled for a boundary (R218): what it holds for an earlier one stays (R151). -/
def clearHalf (i r k bound : Nat) (s : State) : State :=
  forS (routeQuads s i r) (fun q s =>
    let x := furOf s q
    if (halfOf x k).bound = some bound then setFur s q (sendRel (setHalf x k (releaseHalf (halfOf x k)))) else s) s

/-- A second alternate arms after B of the first has been filed (R188): B is withdrawn, discarded or released, and the first alternate's
continuation falls back to CF_A, with the alternates that A armed (R152). -/
def dropB (i r bound : Nat) (s : State) : State :=
  let s := dropCars r (fun c => c.kind == 2 && c.bound == bound) s
  let s := clearHalf i r 2 bound s
  let x := routeOf s r
  setRoute s r { x with heads := x.heads.map fun h =>
    if h.bound = bound && !h.second then
      { h with cont := h.contA, later := h.laterA, done := h.aDone, endPos := if h.contA.ended then h.endPos else none }
    else h }

/-- An alternate that a commit has armed is filed: A for the first that the route armed for the boundary, S for the second, whether or not the first has been disarmed
since (R188). A disarmed one is not filed (R162). -/
def fileAlt (c : Car) (a : NewAlt) (s : State) : State :=
  let second := decide ((routeOf s c.route).armed = some a.bound)
  let s := setRoute s c.route { routeOf s c.route with armed := some a.bound }
  if (siteOf s c.site).disarmed.contains (a.bound, a.index) then s
  else
    let x := routeOf s c.route
    let h : AltHead := ⟨a.index, a.bound, second, a.st, false, false, 0, a.st, a.st, none, [], []⟩
    let s := setRoute s c.route { x with heads := x.heads ++ [h] }
    let s := if second then dropB c.site c.route a.bound s else s
    fileSide (sideCar s c (if second then 3 else 1) a.index a.bound) s

/-- The committed position of a route in a region: that of its lowest quad. -/
def committedAt (s : State) (r region : Nat) : Nat :=
  let x := furOf s r
  if region = 0 then x.vis else (halfOf x region).vis

/-- A side caravan has committed (R188, R189): its continuation and what it has filled; after A of a lone alternate that is not complete, B. -/
def sideDone (w : Work) (why : EndWhy) (pos : Nat) (s : State) : State :=
  let c := w.car
  let x := routeOf s c.route
  let complete := why ≠ .full
  let half := kindRegion c.kind
  let endPos : Option (Nat × Nat) :=
    if why = .halt then (if c.kind = 2 && pos = (halfOf (furOf s c.route) 2).rel then some (1, committedAt s c.route 1) else some (half, pos)) else none
  let lone := headFollowed s c
  let h' (h : AltHead) : AltHead :=
    if h.index = c.altIndex && h.bound = c.bound then
      let h := { h with cont := w.st, endPos := endPos, later := h.later ++ w.newAlts, vectors := h.vectors + w.entries }
      if c.kind = 1 then { h with contA := w.st, laterA := h.later, aDone := true, done := complete || !lone } else { h with done := true }
    else h
  let s := setRoute s c.route (putCheck c.kind w.st { x with heads := x.heads.map h' })
  if c.kind = 1 && lone && !complete then fileSide (sideCar s c 2 c.altIndex c.bound) s else s

/-- A fault in an alternate's head disarms the alternate for the whole site (R162): on every route its caravans are withdrawn and its side
entries released. -/
def disarmAlt (i index bound : Nat) (s : State) : State :=
  let s := setSite s i { siteOf s i with disarmed := (bound, index) :: (siteOf s i).disarmed }
  forS (routesOf (siteOf s i).mask) (fun r s =>
    let x := routeOf s r
    match x.heads.find? (fun h => h.index = index ∧ h.bound = bound) with
    | none => s
    | some h =>
      let others := x.heads.any fun g => g.bound = bound && g.index ≠ index
      let s := setRoute s r { x with heads := x.heads.filter fun g => !(g.index == index && g.bound == bound) }
      let s := dropCars r (fun c => c.kind != 0 && c.altIndex == index && c.bound == bound) s
      if h.second then clearHalf i r 2 bound s
      else if others then clearHalf i r 1 bound s
      else clearHalf i r 1 bound (clearHalf i r 2 bound s)) s

/-! ### Commit (R22, R141, R157, R161, R174) -/

/-- The pattern-fault record of a route, and PAT_FAULT (R161, R162). -/
def recordFault (c : Car) (code addr : Nat) (s : State) : State :=
  let g := Page.disGrp (c.route / 8)
  let k := c.route % 8
  raiseInt (wrs s g [(F.DIS_R_PFAULT_CODE k, code), (F.DIS_R_PFAULT_HEAD k, b2n (decide (c.kind ≠ 0))), (F.DIS_R_PFAULT_VALID k, 1),
    (F.DIS_R_PFADDR k, addr)]) (.disPart c.part) 8

/-- The visible pointers of a route's furrows take the staged ones, and RES returns to VIS (R22, Table 7-2). -/
def commitFurrows (c : Car) (s : State) : State :=
  forS (routeQuads s c.site c.route) (fun q s =>
    let x := furOf s q
    let y :=
      if c.kind = 0 then { x with vis := x.stg, res := x.stg, tagVis := x.tagVis + x.tagStg, tagStg := 0, tagRes := 0 }
      else
        let k := kindRegion c.kind
        let h := halfOf x k
        setHalf x k { h with vis := h.stg, res := h.stg, tagVis := h.tagVis + h.tagStg, tagStg := 0, tagRes := 0 }
    putFur q (sendVis y) s) s

/-- Every furrow of a route is at or above the site's weir (R191, R220). -/
def atWeir (s : State) (i r : Nat) : Bool :=
  (routeQuads s i r).all fun q => decide (rd s (.bnk (q / 4)) (F.FUR_WEIR_LEVEL (q % 4)) ≤ heldW (furOf s q))

/-- A chained copy (R174). -/
def chainCopy (c : Car) : Car :=
  { c with release := (c.release + c.chainStep) % 2 ^ 64, chainN := c.chainN - 1, entries := c.asked, source := 2, fails := 0, resv := false, lastEng := none,
           relTick := none }

/-- A copy can be filed: straight to its ready list, or in a free waystation place (R174). -/
def copyFits (s : State) (c : Car) : Bool := goesReady s c || placeFree s c.part

/-- The token after a commit: RETIRING with the copy to file, or free (R174, R177). A waystation place that is free in the commit cycle is kept for the copy; one that has to
wait for a place counts one `BP_EVENTS` (R192). -/
def retireToken (c : Car) (ended : Bool) (s : State) : State :=
  if 0 < c.chainN && !ended then
    let d := chainCopy c
    let t := if copyFits s d then s else incSat s (.disPart c.part) F.BP_EVENTS
    { t with pat := { t.pat with retiring := t.pat.retiring ++ [{ d with resv := !goesReady s d && placeFree s d.part }] } }
  else s

/-- The effects of a main caravan's commit on its route: record, end position, alternates, cap (R22, R141, R161, R188, R191). -/
def commitMain (w : Work) (why : EndWhy) (s : State) : State :=
  let c := w.car
  let halted := why ≠ .full && why ≠ .stop
  let pf := match why with | .fault _ _ => true | _ => false
  let x := routeOf s c.route
  let st : RouteRec := { w.st with ended := halted, pfault := pf }
  let s := setRoute s c.route (putCheck 0 st { x with main := st, endPos := if halted then some (0, committedAt s c.route 0) else x.endPos })
  let s := forS w.newAlts (fileAlt c) s
  let s := if atWeir s c.site c.route then setRoute s c.route { routeOf s c.route with capped := false } else s
  match why with
  | .fault code addr =>
    let s := recordFault c code addr s
    if siteState s c.site = 2 then stopSite c.site [5] false true s else s
  | _ => s

/-- The commit of an engine's caravan (R22): it has ended, its slices are written and no machine check has been taken. A head that faulted is
not committed: its alternate is disarmed (R162). -/
def caravanCommit (e : Nat) (s : State) : State :=
  let s := settle s
  match (engOf s e).work with
  | none => s
  | some w =>
    match w.ended with
    | none => s
    | some why =>
      if !w.slices.isEmpty || (engOf s e).mchk then s
      else
        let c := w.car
        match (if c.kind = 0 then none else match why with | .fault code addr => some (code, addr) | _ => none) with
        | some (code, addr) => serveWaiting (recordFault c code addr (freeEng e (disarmAlt c.site c.altIndex c.bound s)))
        | none =>
          let s := commitFurrows c (freeEng e s)
          let s := forS w.ringRead (fun x s => ringAdvance c.part x.1 x.2 s) s
          let s := incWrap (incWrap s (.disPart c.part) F.COMMITTED) (.eng e) F.ENG_COMMITS
          let s := incWrap s (.disGrp (c.route / 8)) (F.DIS_R_COMMITS (c.route % 8))
          let s := match w.trig with
            | some k => raiseInt (wr s (.disGrp (c.route / 8)) (F.DIS_R_PROGRESS_CODE (c.route % 8)) k) (.disPart c.part) 9
            | none => s
          let s := notifyDone c 1 s
          let s := if c.kind = 0 then retireToken c (why ≠ .full && why ≠ .stop) s else s
          let s := if c.kind = 0 then commitMain w why s else sideDone w why (committedAt s c.route (kindRegion c.kind)) s
          serveWaiting s

/-- CARAVAN_COMMIT (R22). -/
def execCaravanCommit (e : Nat) (s : State) : Host.Outcome State Fault Refusal := .next (caravanCommit e s)

/-- The first RETIRING token that can leave, with the place kept for it or one now free, files its copy (R174, R177): checked as a submission. -/
def retiringExit (s : State) : State :=
  let s := settle s
  match s.pat.retiring.find? (fun c => c.resv || copyFits s c) with
  | none => s
  | some c => serveWaiting (submitCopy { c with resv := false } { s with pat := { s.pat with retiring := s.pat.retiring.erase c } })

/-- RETIRING_EXIT (R177). -/
def execRetiringExit (s : State) : Host.Outcome State Fault Refusal := .next (retiringExit s)

/-! ### Pointer queues (R206) -/

/-- A record crosses to the read side: the visible copies take its values; a held value joins the queue. At a stop the pointers hold until the clear (R222). -/
def transferRead (q : Nat) (s : State) : State :=
  let x := furOf s q
  match x.toRead with
  | [] => s
  | r :: rest =>
    if x.resetPend then s
    else setFur s q { x with visR := r.main, half1 := { x.half1 with visR := r.side1 }, half2 := { x.half2 with visR := r.side2 },
                             toRead := rest ++ x.holdRead.toList, holdRead := none }

/-- A record crosses to the write side: the release copies take its values; a held value joins the queue. -/
def transferWrite (q : Nat) (s : State) : State :=
  let x := furOf s q
  match x.toWrite with
  | [] => s
  | r :: rest =>
    if x.resetPend then s
    else setFur s q { x with relW := r.main, tagRelW := r.tags, half1 := { x.half1 with relW := r.side1, tagRelW := r.tags1 },
                             half2 := { x.half2 with relW := r.side2, tagRelW := r.tags2 }, toWrite := rest ++ x.holdWrite.toList, holdWrite := none }

/-- POINTER_QUEUE_TRANSFER (R206): `toWriteSide` names the direction. -/
def execPointerQueueTransfer (quad : Nat) (toWriteSide : Bool) (s : State) : Host.Outcome State Fault Refusal :=
  .next (if toWriteSide then transferWrite quad s else transferRead quad s)

end Sys2Proof.Machine
end

