-- ==== Sys2Proof/Machine/Sites.lean ====
section
/-! DEFINITION. Sites, their commands and their starts (chapter 4): the mailbox, the run-request commands, the headgate, stops at a boundary, jump
requests, furrow clears and drift. -/

namespace Sys2Proof.Machine

open Sys2Proof

/-! ### The mailbox (R408, R409) -/

/-- Difference of two free-running 32-bit counts. -/
def cntDiff (a b : Nat) : Nat := (a + 2 ^ 32 - b) % 2 ^ 32

/-- Commands that firmware has not taken. -/
def cmdWaiting (s : State) (p : Nat) : Nat := cntDiff (rd s (.bar4 p) F.MBX_CMD_PROD) (rd s (.bar4 p) F.MBX_CMD_CONS)

/-- Responses that host software has not read. -/
def rspWaiting (s : State) (p : Nat) : Nat := cntDiff (rd s (.bar4 p) F.MBX_RSP_PROD) (rd s (.bar4 p) F.MBX_RSP_CONS)

/-- The 64 words of the next command. -/
def cmdWords (s : State) (p : Nat) : List Nat :=
  let k := rd s (.bar4 p) F.MBX_CMD_CONS % 64
  (List.range 64).map fun j => rd s (.bar4 p) (F.MBX_CMD_SLOT (64 * k + j))

/-- A response: its words go to the slot of `MBX_RSP_PROD`, the index advances and RSP is raised (R121, R408). -/
def respond (p : Nat) (words : List Nat) (s : State) : State :=
  let k := rd s (.bar4 p) F.MBX_RSP_PROD % 64
  let s := forS (words.zipIdx) (fun w s => wr s (.bar4 p) (F.MBX_RSP_SLOT (8 * k + w.2)) w.1) s
  raiseInt (addWrap s (.bar4 p) F.MBX_RSP_PROD 1) (.hifPart p) 0

/-- The two words of a response: OPCODE, SITE, status and TAG, then DETAIL (R121). -/
def rspWords (cmd : List Nat) (status detail : Nat) : List Nat :=
  let h := wordAt cmd 0
  [bits h 7 0 + bits h 15 8 * 2 ^ 8 + status * 2 ^ 16 + bits h 31 24 * 2 ^ 24, detail]

/-- A write of `MBX_CMD_PROD` (R408, R409): refused with MBX_ERR where the value moves back or more than 64 commands would wait. -/
def doorbell (p v : Nat) (s : State) : State :=
  let d := cntDiff v (rd s (.bar4 p) F.MBX_CMD_CONS)
  if 64 < d || d < cmdWaiting s p then raiseInt s (.hifPart p) 1 else wr s (.bar4 p) F.MBX_CMD_PROD v

/-- MAILBOX_DOORBELL (R408, R409). -/
def execMailboxDoorbell (p v : Nat) (s : State) : Host.Outcome State Fault Refusal := .next (takeIn p (.mailboxDoorbell p v) false (bar4Access p (doorbell p v)) s)

/-- A write of `MBX_RSP_CONS` (R409): refused with MBX_ERR where the value moves back or passes `MBX_RSP_PROD`. -/
def rspConsWrite (p v : Nat) (s : State) : State :=
  if rspWaiting s p < cntDiff v (rd s (.bar4 p) F.MBX_RSP_CONS) then raiseInt s (.hifPart p) 1 else wr s (.bar4 p) F.MBX_RSP_CONS v

/-- MBX_RSP_CONS_WRITE (R409). -/
def execMbxRspConsWrite (p v : Nat) (s : State) : Host.Outcome State Fault Refusal := .next (takeIn p (.mbxRspConsWrite p v) false (bar4Access p (rspConsWrite p v)) s)

/-! ### Checks of a command (R120, R121, Tables 4-5 to 4-7) -/

/-- The opcode of a command. -/
def cmdOp (cmd : List Nat) : Nat := bits (wordAt cmd 0) 7 0

/-- SITE of a command. -/
def cmdSite (cmd : List Nat) : Nat := bits (wordAt cmd 0) 15 8

/-- The opcode is assigned (Table 4-5). -/
def cmdAssigned (op : Nat) : Bool := op == 0x01 || op == 0x02 || op == 0x03 || op == 0x10 || op == 0x11 || op == 0x12 || op == 0x20

/-- The site check of a command: status BAD_SITE where it fails. -/
def cmdSiteOk (s : State) (p : Nat) (cmd : List Nat) : Bool :=
  let i := cmdSite cmd
  let o := (siteOf s i).owner
  decide (i < 64) && (if cmdOp cmd = 1 then o == none || o == some p else o == some p)

/-- LENGTH that Table 4-5 gives the command. -/
def cmdLength (s : State) (cmd : List Nat) : Nat :=
  match cmdOp cmd with
  | 0x01 => 3 | 0x03 => 10 | 0x11 => 2
  | 0x10 => 12 + 3 * (routesOf (siteOf s (cmdSite cmd)).mask).length
  | _ => 1

/-- The states in which a command is allowed (Table 4-5); RUN is refused with a bank off or shutting down (R463). A halted device moves no site out of SAFE or FREE (R446). -/
def cmdStateOk (s : State) (cmd : List Nat) : Bool :=
  let st := siteState s (cmdSite cmd)
  let idle := st == 1 || (decide (4 ≤ st) && decide (st ≤ 8))
  match cmdOp cmd with
  | 0x01 => st == 0 && !s.pat.halted
  | 0x12 => (st == 9 || st == 10) && !s.pat.halted
  | 0x11 => true
  | 0x20 => true
  | 0x10 => idle && (banksOf (siteOf s (cmdSite cmd)).mask).all fun b => domOn s b && !rdb s (.bnk b) F.BLK_STAT_OFF_PENDING
  | _ => idle

/-- The first of a list of checks that fails: its status and DETAIL. -/
def firstBad : List (Bool × Nat × Nat) → Option (Nat × Nat)
  | [] => none
  | (bad, st, d) :: l => if bad then some (st, d) else firstBad l

/-- The mask of SITE_DEFINE. -/
def defMask (cmd : List Nat) : Nat := wordAt cmd 1 + wordAt cmd 2 * 2 ^ 32

/-- The status that a quad of a mask earns in SITE_DEFINE (R98, Table 4-7); 0 for none. -/
def quadStatus (s : State) (p mask q : Nat) : Nat :=
  let b := q / 4
  if bankOwner s b ≠ p then 5
  else if (siteOfQuad s q).isSome then 6
  else if rdb s (.bnk b) F.BNK_FOLLOW_EN && mask >>> (4 * b) % 16 != 15 then 7
  else 0

/-- The refusal of SITE_DEFINE: the earliest status that a quad earns, and the word of the lowest quad that earns it (R121). -/
def defineArgs (s : State) (p : Nat) (cmd : List Nat) : Option (Nat × Nat) :=
  let mask := defMask cmd
  if mask = 0 then some (0x0C, 1)
  else
    [5, 6, 7].findSome? fun st =>
      ((quadsOf mask).find? fun q => quadStatus s p mask q = st).map fun q => (st, if q < 32 then 1 else 2)

/-- The 16 bits of slot j in PAL_LOAD. -/
def palSlot (cmd : List Nat) (j : Nat) : Nat := bits (wordAt cmd (2 + j / 2)) (16 * (j % 2) + 15) (16 * (j % 2))

/-- One of the four codes of a slot satisfies a test. -/
def anyCode (v : Nat) (f : Nat → Bool) : Bool := (List.range 4).any fun k => f (bits v (4 * k + 3) (4 * k))

/-- The status that a slot of a route earns for its pins (R102): a reserved code, or CM or CV on a direct-mode pin. -/
def slotStatus (s : State) (r v : Nat) : Nat :=
  if anyCode v fun c => decide (11 ≤ c) then 8
  else if rdb s (.bnk (r / 4)) F.BNK_STAT_MODE_ACT && anyCode v (fun c => c == 6 || c == 7) then 9
  else 0

/-- The lowest offending slot of one or more sets on routes of a site, with its status and DETAIL (R102, R121); `val` gives a set's slot of a route. Of two
offending slots in one word of PAL_LOAD the lower decides the status too (DESIGN CHOICE, log 93). -/
def palBad (s : State) (i : Nat) (routes sets : List Nat) (val : Nat → Nat → Nat → Nat) : Option (Nat × Nat) :=
  (List.range 16).findSome? fun j => routes.findSome? fun r => sets.findSome? fun set =>
    let st := slotStatus s r (val set r j)
    if (routeQuads s i r).contains (4 * (r / 4) + j / 4) && st != 0 then some (st, j + r * 2 ^ 8) else none

/-- The routes that PAL_LOAD names. -/
def palRoutes (s : State) (cmd : List Nat) : List Nat :=
  let w := wordAt cmd 1
  let l := routesOf (siteOf s (cmdSite cmd)).mask
  if w.testBit 6 then l else l.filter fun r => r = bits w 5 0

/-- The refusal of PAL_LOAD. -/
def palArgs (s : State) (cmd : List Nat) : Option (Nat × Nat) :=
  let w := wordAt cmd 1
  if w.testBit 7 || bits w 31 11 != 0 || (palRoutes s cmd).isEmpty then some (0x0C, 1)
  else palBad s (cmdSite cmd) (palRoutes s cmd) [0] fun _ _ j => palSlot cmd j

/-- ENTRY of RUN. -/
def runEntry (cmd : List Nat) : Nat := wordAt cmd 1 + bits (wordAt cmd 2) 2 0 * 2 ^ 32

/-- JLOG of RUN. -/
def runJlog (cmd : List Nat) : Nat := wordAt cmd 10 + bits (wordAt cmd 11) 2 0 * 2 ^ 32

/-- DBASE of the k-th route. -/
def runDbase (cmd : List Nat) (k : Nat) : Nat := wordAt cmd (12 + 3 * k) + bits (wordAt cmd (13 + 3 * k)) 2 0 * 2 ^ 32

/-- The ring that stream slot m of the k-th route names, if it is bound. -/
def runStream (cmd : List Nat) (k m : Nat) : Option Nat :=
  let w := wordAt cmd (14 + 3 * k)
  if w.testBit (5 * m + 4) then some (bits w (5 * m + 3) (5 * m)) else none

/-- WEIR of RUN: 0 selects 8,192. -/
def runWeir (cmd : List Nat) : Nat := if wordAt cmd 8 = 0 then 8192 else wordAt cmd 8

/-- A ring that the k-th route may not bind (R107): not configured, bound to a route of a running site, or to an earlier route of this RUN. -/
def ringBad (s : State) (p : Nat) (cmd : List Nat) (k r : Nat) : Bool :=
  !rdb s (.bar4 p) (F.RING_CTRL_EN r) || rdb s (.bar4 p) (F.RING_STAT_BOUND r) ||
  (List.range k).any fun j => (List.range 4).any fun m => runStream cmd j m == some r

/-- The checks of the k-th route's words. -/
def runRouteChecks (s : State) (p : Nat) (cmd : List Nat) (k : Nat) : List (Bool × Nat × Nat) :=
  let w := 12 + 3 * k
  [(!hostQuota s p (runDbase cmd k) 1, 0x0A, w), (bits (wordAt cmd (w + 1)) 31 3 != 0, 0x0C, w + 1), (bits (wordAt cmd (w + 2)) 31 20 != 0, 0x0C, w + 2),
   ((List.range 4).any fun m => match runStream cmd k m with | some r => ringBad s p cmd k r | none => false, 0x0D, w + 2)]

/-- The refusal of RUN: its words in ascending order (Table 4-6), then the palette sets against the modes now in force (R103). DESIGN CHOICE (log 93): R120 gives that recheck no
word, and the model makes it after every word. -/
def runArgsBad (s : State) (p : Nat) (cmd : List Nat) : Option (Nat × Nat) :=
  let w := wordAt cmd
  let i := cmdSite cmd
  let routes := routesOf (siteOf s i).mask
  match firstBad ([
      (bits (w 1) 2 0 != 0 || !hostQuota s p (runEntry cmd) 1, 0x0A, 1), (bits (w 2) 31 3 != 0, 0x0C, 2), (bits (w 3) 31 16 != 0, 0x0C, 3),
      (decide (1000000000 ≤ w 4), 0x0B, 4), (bits (w 6) 31 16 != 0, 0x0C, 6), (bits (w 7) 31 4 != 0, 0x0C, 7),
      (bits (w 8) 31 15 != 0 || decide (runWeir cmd < 64) || decide (16384 < runWeir cmd), 0x0C, 8),
      (bits (w 9) 31 20 != 0 || (List.range 10).any fun c => bits (w 9) (2 * c + 1) (2 * c) == 3, 0x0C, 9), (bits (w 10) 9 0 != 0, 0x0C, 10),
      ((w 7).testBit 3 && !hostQuota s p (runJlog cmd) 1024, 0x0A, 10), (bits (w 11) 31 3 != 0, 0x0C, 11)] ++
      (List.range routes.length).flatMap (runRouteChecks s p cmd)) with
  | some b => some b
  | none =>
    palBad s i routes (List.range 8) fun set r j => tabGet 0x2222 s.pat.palettes (r * 128 + set * 16 + j)

/-- The refusal of a command's arguments. -/
def cmdArgs (s : State) (p : Nat) (cmd : List Nat) : Option (Nat × Nat) :=
  match cmdOp cmd with
  | 0x01 => defineArgs s p cmd
  | 0x03 => palArgs s cmd
  | 0x10 => runArgsBad s p cmd
  | 0x11 => if bits (wordAt cmd 1) 31 1 != 0 then some (0x0C, 1) else none
  | _ => none

/-- The first refusal of a command in the order of R120; none where it is accepted. -/
def cmdRefusal (s : State) (p : Nat) (cmd : List Nat) : Option (Nat × Nat) :=
  let len := bits (wordAt cmd 0) 23 16
  if !cmdAssigned (cmdOp cmd) then some (1, 0)
  else if !cmdSiteOk s p cmd then some (3, 0)
  else if len ≠ cmdLength s cmd || 64 < len then some (2, 0)
  else if !cmdStateOk s cmd then some (4, 0)
  else cmdArgs s p cmd

/-! ### Effects of accepted commands -/

/-- Every palette set of a route returns to 0x2222 (R101). -/
def clearPalettes (r : Nat) (s : State) : State := { s with pat := { s.pat with palettes := tabDrop s.pat.palettes (128 * r) (128 * r + 128) } }

/-- The end of the latest idle item that a quad of a mask has presented on its own (R122): real time at the balls goes on from it (R243). -/
def idleEnd (s : State) (mask : Nat) : Nat := (quadsOf mask).foldl (fun a q => max a (tabGet 0 s.pat.idleAt q)) 0

/-- SITE_DEFINE (R98, R101): until its first epoch the site's idle items go on from those of its quads. -/
def defineSite (p : Nat) (cmd : List Nat) (s : State) : State :=
  let i := cmdSite cmd
  let s := { s with tim := { s.tim with starts := tabDel s.tim.starts i } }
  let s := setSite s i { siteFree with owner := some p, mask := defMask cmd, nextStart := idleEnd s (defMask cmd) }
  setSiteState (forS (routesOf (defMask cmd)) clearPalettes s) i 1

/-- A site returns to FREE (R122): its number and its quads are free, and each quad's own idle items go on where the site's end. DESIGN CHOICE (log 109): a summary that fails
judged after the stop have opened is queued first (R279). -/
def deleteSite (i : Nat) (s : State) : State :=
  let t := epochAt s i + (vecEnd (siteOf s i)).1
  let s := forS (routesOf (siteOf s i).mask) (fun r s => setRoute s r { routeOf s r with summaryMode := false }) (cmpSiteStop i s)
  let s := forS (quadsOf (siteOf s i).mask) (fun q s => { s with pat := { s.pat with idleAt := tabPut 0 s.pat.idleAt q t } }) s
  setSite (setSiteState s i 0) i siteFree

/-- PAL_LOAD (R101, R102). -/
def loadPalette (cmd : List Nat) (s : State) : State :=
  let set := bits (wordAt cmd 1) 10 8
  forS (palRoutes s cmd) (fun r s => forS (List.range 16) (fun j s =>
    { s with pat := { s.pat with palettes := tabPut 0x2222 s.pat.palettes (r * 128 + set * 16 + j) (palSlot cmd j) } }) s) s

/-- What RUN clears in a furrow, and the weir it writes (R220, R223). -/
def runFurrow (weir q : Nat) (s : State) : State :=
  let k := q % 4
  wrs s (.bnk (q / 4)) [(F.FUR_WEIR_LEVEL k, weir), (F.FUR_UR_VN k, 0), (F.FUR_UR_LEN k, 0), (F.FUR_UR_GAPS k, 0), (F.FUR_UR_IDLE k, 0),
    (F.FUR_DWELL_LAST k, 0), (F.FUR_DWELL_MAX k, 0), (F.FUR_PASS k, 0), (F.FUR_REWINDS k, 0), (F.FUR_WAIT_PAST k, 0)]

/-- The k-th route's initial state, its bound rings and its cleared records (R107, R132, R175, Table 6-15). -/
def runRoute (p : Nat) (cmd : List Nat) (rk : Nat × Nat) (s : State) : State :=
  let r := rk.1
  let streams := (List.range 4).map (runStream cmd rk.2)
  let s := setRoute s r { putCheck 0 (recInit (runEntry cmd)) routeInit with
                         main := recInit (runEntry cmd), dbase := runDbase cmd rk.2, streams := streams, summaryMode := (routeOf s r).summaryMode, summary := (routeOf s r).summary }
  let s := forS (streams.filterMap id) (fun g s => wrs s (.bar4 p) [(F.RING_STAT_BOUND g, 1), (F.RING_STAT_ROUTE g, r)]) s
  let pg := Page.disGrp (r / 8)
  wrs s pg ((F.DIS_R_PFAULT_VALID (r % 8), 0) :: (List.range 16).map fun b => (F.DIS_R_WHIST (r % 8) b, 0))

/-- RUN (Table 4-6, R128, R132): the site enters PRIMING. -/
def runSite (p : Nat) (cmd : List Nat) (s : State) : State :=
  let i := cmdSite cmd
  let w := wordAt cmd
  let a : RunArgs :=
    { startT := timeOf (w 5 + w 6 * 2 ^ 32) (w 4) (w 3), immediate := (w 7).testBit 0, stopFF := (w 7).testBit 1, underrunStop := (w 7).testBit 2,
      jlogEn := (w 7).testBit 3, weir := runWeir cmd, jsrc := w 9, jlog := runJlog cmd }
  let x := siteOf s i
  let s := setSite s i { x with args := a, stops := [], haltDue := false, stopBy := none, epochTick := none, queue := [], inRew := 0, block := [], redo := [], deferred := false, unsure := false, jlogWait := none, gap := none, pass := none, failDue := false, disarmed := [], segOrd := 0 }
  let s := forS ((routesOf x.mask).zipIdx) (runRoute p cmd) s
  let s := forS (quadsOf x.mask) (runFurrow (runWeir cmd)) s
  setSiteState (wr s (sitePage s i) (F.CMP_SITE_FLAGS_FLAG1_3 i) 0) i 2

/-- HALT (R126). -/
def haltSite (i : Nat) (atBoundary : Bool) (s : State) : State :=
  if siteState s i = 2 then stopSite i [5] false true s
  else if siteState s i = 3 then
    if atBoundary then wr s (sitePage s i) (F.CMP_SITE_STATE_HALT_PEND i) 1 else openStop i 5 s
  else s

/-- The further words of a STATUS response (R121): the site control entry at +0x00 and +0x04, and the vector number. -/
def statusWords (s : State) (i : Nat) : List Nat :=
  let p := sitePage s i
  let v := currentVn s i
  [siteState s i + rd s p (F.CMP_SITE_STATE_ALT_LATE i) * 2 ^ 8 + rd s p (F.CMP_SITE_STATE_HALT_PEND i) * 2 ^ 9 + pendBits (siteOf s i) * 2 ^ 16,
   rd s p (F.CMP_SITE_CAUSES i), v % 2 ^ 32, v / 2 ^ 32]

/-- The effect of an accepted command. -/
def cmdEffect (p : Nat) (cmd : List Nat) (s : State) : State :=
  match cmdOp cmd with
  | 0x01 => defineSite p cmd s
  | 0x02 => deleteSite (cmdSite cmd) s
  | 0x03 => loadPalette cmd s
  | 0x10 => runSite p cmd s
  | 0x11 => haltSite (cmdSite cmd) ((wordAt cmd 1).testBit 0) s
  | 0x12 => setSiteState s (cmdSite cmd) 1
  | _ => s

/-- Firmware carries a command out and answers it (R120, R121). A refused command changes nothing. -/
def runCommand (p : Nat) (cmd : List Nat) (s : State) : State :=
  match cmdRefusal s p cmd with
  | some (st, d) => respond p (rspWords cmd st d) s
  | none =>
    let t := cmdEffect p cmd s
    respond p (rspWords cmd 0 0 ++ if cmdOp cmd = 0x20 then statusWords t (cmdSite cmd) else []) t

/-- A furrow of the site has RESET_PENDING (R222). -/
def resetPending (s : State) (i : Nat) : Bool := (quadsOf (siteOf s i).mask).any fun q => (furOf s q).resetPend

/-- A command that must wait: a RUN for a site with RESET_PENDING (R222), or any command behind a waiting one of its site (R120). -/
def cmdWaits (s : State) (p : Nat) (cmd : List Nat) : Bool :=
  cmdAssigned (cmdOp cmd) && cmdSiteOk s p cmd &&
    ((s.pat.heldCmds.any fun h => cmdSite h.words == cmdSite cmd && h.part == p) || (cmdOp cmd == 0x10 && resetPending s (cmdSite cmd)))

/-- The first waiting command of each site that is no RUN, with its place: it can go on. -/
def heldReady (s : State) (p : Nat) (op : Nat) : Option HeldCmd :=
  s.pat.heldCmds.find? fun h => h.part == p && cmdOp h.words == op && op != 0x10 &&
    (s.pat.heldCmds.find? fun g => g.part == p && cmdSite g.words == cmdSite h.words) == some h

/-- Firmware takes the partition's next command where it has the row's opcode (R408): a waiting one that can go on, else the one at
`MBX_CMD_CONS`. A command with an unassigned opcode is answered under any row. Nothing is taken while the response queue is full (R409). -/
def takeCommand (p op : Nat) (s : State) : State :=
  if 64 ≤ rspWaiting s p || !awake s then s
  else match heldReady s p op with
  | some h => runCommand p h.words { s with pat := { s.pat with heldCmds := s.pat.heldCmds.erase h } }
  | none =>
    if cmdWaiting s p = 0 then s
    else
      let cmd := cmdWords s p
      if cmdOp cmd = op || !cmdAssigned (cmdOp cmd) then
        let s := addWrap s (.bar4 p) F.MBX_CMD_CONS 1
        if cmdWaits s p cmd then { s with pat := { s.pat with heldCmds := s.pat.heldCmds ++ [⟨p, cmd⟩] } } else runCommand p cmd s
      else s

/-- SITE_DEFINE (R98). -/
def execSiteDefine (p : Nat) (s : State) : Host.Outcome State Fault Refusal := .next (takeCommand p 0x01 s)

/-- SITE_DELETE (R122). -/
def execSiteDelete (p : Nat) (s : State) : Host.Outcome State Fault Refusal := .next (takeCommand p 0x02 s)

/-- PAL_LOAD (R102). -/
def execPalLoad (p : Nat) (s : State) : Host.Outcome State Fault Refusal := .next (takeCommand p 0x03 s)

/-- RUN (R120). -/
def execRun (p : Nat) (s : State) : Host.Outcome State Fault Refusal := .next (takeCommand p 0x10 s)

/-- HALT (R126). -/
def execHalt (p : Nat) (s : State) : Host.Outcome State Fault Refusal := .next (takeCommand p 0x11 s)

/-- CLEAR (R122). -/
def execClear (p : Nat) (s : State) : Host.Outcome State Fault Refusal := .next (takeCommand p 0x12 s)

/-- STATUS (R121). -/
def execStatus (p : Nat) (s : State) : Host.Outcome State Fault Refusal := .next (takeCommand p 0x20 s)

/-- RUN_DEFERRED_START (R222): the first waiting command of the site, a RUN, is carried out once no furrow of it has RESET_PENDING; from a sleep decision to the end of wake
firmware takes no command (R467). -/
def execRunDeferredStart (site : Nat) (s : State) : Host.Outcome State Fault Refusal :=
  .next (match s.pat.heldCmds.find? (fun h => cmdSite h.words == site) with
    | none => s
    | some h =>
      if awake s && cmdOp h.words = 0x10 && !resetPending s site then
        runCommand h.part h.words { s with pat := { s.pat with heldCmds := s.pat.heldCmds.erase h } }
      else s)

/-! ### The headgate (R18, R50, R51, R123, R248) -/

/-- A route is at its weir, or its program's HALT has committed (R123). -/
def routeReady (s : State) (i r : Nat) : Bool := atWeir s i r || (routeOf s r).endPos.isSome

/-- A bank holds the headgate shut: safe state, mode change, set command or calibration in progress (R18, R228, R235, R361). -/
def gateShut (s : State) (b : Nat) : Bool :=
  bankSafe s b || rdb s (.bnk b) F.BNK_STAT_CHANGING || rdb s (.bnk b) F.BNK_TS_STAT_BUSY || s.cal.runs.any fun c => c.bank == b && !c.accepted

/-- The present tick of a time base holds the instant t, or its latest tick stepped over it (R50–R52). -/
def tickHolds (s : State) (b t : Nat) : Bool :=
  decide (tbNow s b ≤ t) || (match tabGet none s.tim.stepFrom b with | some e => decide (e ≤ t) | none => false)

/-- The epoch of a start (R50–R52, R123, R248): the REF tick it counts from, the delay after it in 2^-32 ns, the partition time, and LATE; none while
the time condition does not hold. `onTime`: the furrows were at their weirs in the CORE cycle of the present tick in which the time condition came to hold;
after that tick a start is late. A late start has the partition time of the next tick as its epoch. A following site waits from there for a start of its loop's
sequence (R248). -/
def startOf (s : State) (i : Nat) (onTime : Bool) : Option (SiteStart × Bool) :=
  let b := 1 + sitePart s i
  let now := tbNow s b
  let inc := tbSpan s b
  let a := (siteOf s i).args
  let t := a.startT * 2 ^ 16
  let at' (tick d epoch : Nat) : SiteStart :=
    let wait := if siteFollows s i then followDelay s (leadBank s i) (tick * 0xA00000000 + d) else 0
    ⟨tick, d + wait, epoch + wait * tbInc s b / 0xA00000000⟩
  if a.immediate then some (at' (tbTicks s b + 1) 0 (tbNext s b), false)
  else if now + inc ≤ t then none
  else if onTime && tickHolds s b t then
    let step := edgeStep ((t - now) * 0xA00000000 / max 1 inc)
    some (at' (tbTicks s b) (stepTime step) t, false)
  else some (at' (tbTicks s b + 1) 0 (tbNext s b), true)

/-- A loop without a sequence begins one at the epoch of its site (R248). -/
def followBegin (i : Nat) (s : State) : State :=
  let b := leadBank s i
  let x := bankOf s b
  if siteFollows s i && x.follow.org.isNone then setBank s b { x with follow := { x.follow with org := some (epochAt s i, 0) } } else s

/-- At the epoch the prescalers of the site's pins start again, and its eras count from 0 (R306, R312). -/
def edgEpoch (i : Nat) (s : State) : State :=
  let s := forS (pinsOf (siteOf s i).mask) (fun p s => setConv s p { convOf s p with pre := 0 }) s
  { s with pin := { s.pin with eras := tabDrop s.pin.eras (16 * i) (16 * i + 16) } }

/-- The site starts RUNNING with an epoch (R51, R55, R112, R123, R126, R269, R300, Table 4-10). DESIGN CHOICE (log 108): the idle item then in progress keeps the edges at or
behind the epoch that it has issued, and R243 measures from them. -/
def openSite (i : Nat) (st : SiteStart) (late : Bool) (s : State) : State :=
  let n := sitePart s i
  let p := sitePage s i
  let t := Page.timPart n
  let e := st.epoch / 2 ^ 16
  let ns := e / 2 ^ 16
  let s := finishVector i (((siteOf s i).cur.map (·.period)).getD 0) s
  let s := wrs s t [(F.EPOCH_SUBNS i, e % 2 ^ 16), (F.EPOCH_NS i, ns % 1000000000), (F.EPOCH_SEC_LO i, ns / 1000000000 % 2 ^ 32),
    (F.EPOCH_SEC_HI i, ns / 1000000000 / 2 ^ 32), (F.SITE_VALID i, 1), (F.SITE_LATE i, b2n late), (F.SITE_RUNNING i, 1), (F.SITE_VCOUNT i, 0),
    (F.SITE_DRIFT i, 0)]
  let s := wrs s p [(F.CMP_SITE_STATE_ALT_LATE i, 0), (F.CMP_SITE_STATE_HALT_PEND i, 0), (F.CMP_SITE_CAUSES i, 0), (F.CMP_SITE_FLAGS_JDISC i, 0),
    (F.CMP_SITE_STATE_STATE i, 3)]
  let s := followBegin i { s with tim := { s.tim with starts := tabPut ⟨0, 0, 0⟩ s.tim.starts i st } }
  let x := siteOf s i
  let s := setSite s i { x with req1 := none, req2 := none, epochTick := some (disTick s), nextVn := 0, cur := none, nextStart := 0, jlogSeq := 0,
                                hist := [] }
  let s := edgEpoch i (acqEpoch i (cmpEpoch i s))
  if late then raiseInt s t 6 else s

/-- HEADGATE_OPEN (R51): every route is ready, the time condition holds, and no stop or safe state falls in the cycle (R18). -/
def headgateOpen (i : Nat) (onTime : Bool) (s : State) : State :=
  let x := siteOf s i
  if siteState s i = 2 && (routesOf x.mask).all (routeReady s i) && !(banksOf x.mask).any (gateShut s) && !s.pat.halted &&
      !pageSafe s .timDev && !pageSafe s (.timPart (sitePart s i)) then
    match startOf s i onTime with
    | some (st, late) => openSite i st late s
    | none => s
  else s

/-- HEADGATE_OPEN (R51). -/
def execHeadgateOpen (site : Nat) (onTime : Bool) (s : State) : Host.Outcome State Fault Refusal :=
  .next (headgateOpen site onTime s)

/-- DRIFT_UPDATE (R53): while the site runs. -/
def execDriftUpdate (site : Nat) (s : State) : Host.Outcome State Fault Refusal :=
  .next (if siteState s site = 3 then driftEffect (sitePart s site) site s else s)

/-! ### Stops and requests -/

/-- STOP_AT_BOUNDARY (R124, R125): the open stops take effect at the boundary after the present vector. -/
def execStopAtBoundary (site : Nat) (s : State) : Host.Outcome State Fault Refusal :=
  .next (if siteState s site = 3 && !(siteOf s site).stops.isEmpty then stopSite site (boundaryCauses (siteOf s site)) false true s else s)

/-- FURROW_CLEAR (R222): every pointer, tag, half and queue of the furrow is cleared, and RESET_PENDING with them. -/
def execFurrowClear (quad : Nat) (s : State) : Host.Outcome State Fault Refusal :=
  .next (if (furOf s quad).resetPend then setFur s quad furInit else s)

/-- JUMP_REQUEST (R112): a write of `CMP_SITE_JREQ` of site i in partition page n. Entries of sites that partition n has not defined ignore it,
and so does a reserved value (R127). -/
def execJumpRequest (m n i word : Nat) (s : State) : Host.Outcome State Fault Refusal :=
  .next (takeIn m (.jumpRequest m n i word) false (fun s => asWriter s m (.cmpPart n) (F.CMP_SITE_JREQ_ALT i).off false
    (fun s => if (siteOf s i).owner = some n then (match word % 4 with | 1 => makePending i 1 0 s | 2 => makePending i 2 0 s | _ => s) else s)) s)

end Sys2Proof.Machine
end

