-- ==== Sys2Proof/Machine/Read.lean ====
section
/-! DEFINITION. The read side of the furrows (chapter 7): entry fetch and decision points, jumps, the vector periods, mark, dwell and rewind, underruns,
and the release of what has been presented. -/

namespace Sys2Proof.Machine

open Sys2Proof

/-! ### Entry words (Table 7-1) -/

/-- The entry opens a MATCH block. -/
def entMark (w : Nat) : Bool := w.testBit 25

/-- The entry starts a segment. -/
def entSeg (w : Nat) : Bool := w.testBit 26

/-- The entry is a coherent switch. -/
def entCoh (w : Nat) : Bool := w.testBit 29

/-- The entry is the match-end entry of a block. -/
def isMatchEnd (p : Pres) : Bool := (p.tag.map fun t => t.mtch).getD false

/-- LIMIT of a match-end entry. -/
def matchLimit (p : Pres) : Nat := (p.tag.map fun t => t.limit).getD 0

/-! ### Fetch pointers (R204, R210, R211, R217, R219) -/

/-- The fetch position in a region. -/
def rdAt (p : RPtr) (k : Nat) : Nat := if k = 0 then p.rd else if k = 1 then p.rd1 else p.rd2

/-- Set the fetch position of a region. -/
def rdSet (p : RPtr) (k v : Nat) : RPtr := if k = 0 then { p with rd := v } else if k = 1 then { p with rd1 := v } else { p with rd2 := v }

/-- One entry more fetched from a region. -/
def rdNext (p : RPtr) (k : Nat) : RPtr := rdSet p k (if k = 0 then ptrAdd p.rd 1 else sideAdd (rdAt p k) 1)

/-- The regions still to read: side halves read to their end are left behind. -/
def liveRegs (x : Fur) (p : RPtr) : List Nat := p.regs.dropWhile fun k => k ≠ 0 && rdAt p k == (halfOf x k).vis

/-- AVAIL_r of the main region at a position (R209): nothing where the read side's copy of VIS lies before it. -/
def mainAvail (x : Fur) (rd : Nat) : Nat := ptrDiff x.vis rd - ptrDiff x.vis x.visR

/-- Entries the read side sees in a region from the fetch position on; none of the main region until the resume position has arrived (R219). -/
def availAt (x : Fur) (p : RPtr) (k : Nat) : Nat :=
  if k = 0 then (if x.jumpTo.isSome then 0 else mainAvail x p.rd)
  else let h := halfOf x k; sideDiff h.vis (rdAt p k) - sideDiff h.vis h.visR

/-- The entry at a position of a region. -/
def cellAt (x : Fur) (k pos : Nat) : Cell := tabGet ⟨0, none⟩ (if k = 0 then x.cells else (halfOf x k).cells) (if k = 0 then pos % 16384 else pos % 1024)

/-- What a furrow shows at its fetch position: the entry, the pointers before and after it, and the entry that follows; `none` in its place where the
route's end position follows (R141, R211). `lone`: the entry is the whole of a taken alternate's head, and what follows it is not visible yet (R219). -/
structure Peek where
  cell : Cell
  before : RPtr
  after : RPtr
  next : Option Cell
  lone : Bool
deriving DecidableEq, Repr

/-- Fetch pointers stand at an end position: in its region, or at the end of side halves that come before it in the read sequence (R141, R161, R219). -/
def atEnd (x : Fur) (p : RPtr) (e : Nat × Nat) : List Nat → Bool
  | [] => false
  | k :: rest =>
    if k = e.1 then rdAt p k == e.2
    else k != 0 && rdAt p k == (halfOf x k).vis && atEnd x p e rest

/-- The entry at a fetch position is the one vector of a taken alternate's head. -/
def loneVector (x : Fur) (k : Nat) : Bool := k != 0 && x.lone

/-- The entry at the fetch position, where the furrow has reported it and the one after it visible, or it is the last before the end position, or the one vector of a
taken alternate's head, which no gap precedes (R116, R211, R219). -/
def peek (s : State) (q : Nat) : Option Peek :=
  let x := furOf s q
  let p := { x.seq with regs := liveRegs x x.seq }
  match p.regs with
  | [] => none
  | k :: _ =>
    if availAt x p k = 0 then none
    else
      let a := rdNext p k
      let a := { a with regs := liveRegs x a }
      let pk (n : Option Cell) : Peek := ⟨cellAt x k (rdAt p k), p, a, n, false⟩
      match siteOfQuad s q with
      | none => none
      | some i =>
        if ((routeOf s (routeNo (siteOf s i).mask (q / 4))).endPos.map fun e => atEnd x (rdNext p k) e p.regs).getD false then some (pk none)
        else match a.regs with
        | [] => none
        | k' :: _ =>
          if availAt x a k' ≠ 0 then some (pk (some (cellAt x k' (rdAt a k'))))
          else if k' = 0 && loneVector x k then some { pk none with lone := true }
          else none

/-! ### Hold entries (R54, R159) -/

/-- The target of a hold entry in vector time, in 2^-32 ns: as given, or a partition time converted with the DRIFT now reported (R54, R159). -/
def holdTarget (s : State) (i : Nat) (t : Tag) : Int :=
  if t.wabs then (t.target * 65536 : Nat) - ((tabGet ⟨0, 0, 0⟩ s.tim.starts i).epoch : Int) -
      toSigned 64 (rd s (.timPart (sitePart s i)) (F.SITE_DRIFT i)) * 65536
  else (t.target * 65536 : Nat)

/-- Repetitions of an entry that starts at a vector time with a period: its run length, or h for a hold entry (R159). -/
def repsOf (p : Pres) (start period : Nat) : Nat :=
  match p.target with
  | none => bits p.word 24 17 + 1
  | some t => max 1 ((t - start + period - 1) / (max 1 period : Nat)).toNat

/-- The start of an entry after a vector that ends at a time: on the grid of its period where it is a coherent switch with a new period (R244, R245). -/
def alignedStart (s : State) (i : Nat) (p : Pres) (period prevEnd prevPeriod : Nat) : Nat :=
  if entCoh p.word && !siteFollows s i && period ≠ prevPeriod then (prevEnd + period - 1) / max 1 period * period else prevEnd

/-- The end of the vector period now presented with all its repetitions, and its period; the start that is due where none is. -/
def curEnd (s : State) (i : Nat) : Nat × Nat :=
  match (siteOf s i).cur with
  | some c => (c.start + (c.left + 1) * c.period, c.period)
  | none => ((siteOf s i).nextStart, 0)

/-- The number that the vector after every fetched entry will have (R119): fold over the presentation queue. -/
def bvnAfter (s : State) (i : Nat) (q : List Pres) : Nat :=
  let x := siteOf s i
  let e := curEnd s i
  let r := q.foldl (fun (a : Nat × Nat × Nat) p =>
    let period := vectorPeriod s i (bits p.word 13 8)
    let start := alignedStart s i p period a.2.1 a.2.2
    let n := repsOf p start period
    (a.1 + n, start + n * period, period)) (x.nextVn + ((x.cur.map (·.left)).getD 0), e.1, e.2)
  r.1

/-! ### Decision points (R112–R117, R126) -/

/-- The heads of an alternate of the boundary now reached, one for each route that has it. -/
def altHeads (s : State) (i k : Nat) : List AltHead :=
  (routesOf (siteOf s i).mask).filterMap fun r => (routeOf s r).heads.find? fun h => h.index = k ∧ h.bound = (siteOf s i).segOrd

/-- Every route has the alternate armed at this boundary. -/
def altArmed (s : State) (i k : Nat) : Bool := (altHeads s i k).length == (routesOf (siteOf s i).mask).length

/-- The alternate is filled on every route; a head without a vector is never filled (R111, R189). -/
def altFilled (s : State) (i k : Nat) : Bool := (altHeads s i k).all fun h => h.done && decide (0 < h.vectors)

/-- A level source is present: FLAG0 to FLAG3 are codes 5 to 8 (Table 4-3). -/
def levelPresent (s : State) (i code : Nat) : Bool :=
  let p := sitePage s i
  if code = 5 then rdb s p (F.CMP_SITE_FLAGS_FLAG0 i) else (rd s p (F.CMP_SITE_FLAGS_FLAG1_3 i)).testBit (code - 6)

/-- The request for an alternate at a decision point, as source code and LATE (R112, R119): the pending one, or the level source of lowest code. -/
def altRequest (s : State) (i k : Nat) : Option (Nat × Bool) :=
  let x := siteOf s i
  match (if k = 1 then x.req1 else x.req2) with
  | some q => some (q.source, q.late)
  | none => ([5, 6, 7, 8].find? fun c => jsrcOf x c = k && levelPresent s i c).map fun c => (c, false)

/-- Set the pending request of an alternate. -/
def setReq (i k : Nat) (q : Option Req) (s : State) : State :=
  let x := siteOf s i
  if k = 1 then setSite s i { x with req1 := q } else setSite s i { x with req2 := q }

/-- The request of an alternate is settled (R114): discarded where it is not armed, deferred where it is not filled; else it is taken, with its source
and LATE. -/
def settleAlt (i k : Nat) (s : State) : State × Option (Nat × Bool) :=
  match altRequest s i k with
  | none => (s, none)
  | some q =>
    if !altArmed s i k then (incSat (setReq i k none s) (sitePage s i) (F.CMP_SITE_FLAGS_JDISC i), none)
    else if !altFilled s i k then
      let x := siteOf s i
      let s := setReq i k ((if k = 1 then x.req1 else x.req2).map fun u => { u with late := true }) s
      (siteInt i 7 (wr s (sitePage s i) (F.CMP_SITE_STATE_ALT_LATE i) 1), none)
    else (s, some q)

/-- Both alternates are settled, alternate 1 first (R115): the one taken with its source and LATE. -/
def settleBoth (i : Nat) (s : State) : State × Option (Nat × Nat × Bool) :=
  match settleAlt i 1 s with
  | (s, some q) => (s, some (1, q))
  | (s, none) => match settleAlt i 2 s with
    | (s, some q) => (s, some (2, q))
    | (s, none) => (s, none)

/-- No jump: on every route the side caravans and heads of the boundary are gone and its halves return to empty (R116, R218). -/
def noJump (i : Nat) (s : State) : State :=
  let b := (siteOf s i).segOrd
  let s := forS (routesOf (siteOf s i).mask) (fun r s =>
    let s := dropCars r (fun c => c.kind != 0 && c.bound == b) s
    let x := routeOf s r
    let s := setRoute s r { x with heads := x.heads.filter fun h => h.bound != b }
    forS (routeQuads s i r) (fun q s =>
      let y := furOf s q
      let rel (h : Half) : Half := if h.bound = some b then releaseHalf h else h
      setFur s q (sendRel { y with half1 := rel y.half1, half2 := rel y.half2 })) s) s
  serveWaiting s

/-- Tags in the n entries of a region from a position on. -/
def tagsIn (x : Fur) (k pos : Nat) : Nat → Nat
  | 0 => 0
  | n + 1 => b2n (cellAt x k (pos + n)).tag.isSome + tagsIn x k pos n

/-- REL of the main region moves to a position, and its tags are released (R204). -/
def moveRel (x : Fur) (pos : Nat) : Fur := { x with rel := pos, tagRel := x.tagRel + tagsIn x 0 x.rel (ptrDiff pos x.rel) }

/-- REL of a side half moves to a position, and its tags are released (R204, R218). -/
def moveSideRel (x : Fur) (k pos : Nat) : Fur :=
  let h := halfOf x k
  setHalf x k { h with rel := pos, tagRel := h.tagRel + tagsIn x k h.rel (sideDiff pos h.rel) }

/-- Presentation goes on behind the boundary word of a taken jump: PR, RD and REL of the main region take the resume position, which releases the
committed entries of the natural successor (R205, R219). -/
def passBoundary (q : Nat) (s : State) : State :=
  let x := furOf s q
  match x.relTo with
  | none => s
  | some j =>
    let now : RPtr := if ptrDiff x.now.rd x.rel < ptrDiff j x.rel then { x.now with regs := x.jumpRegs, rd := j, rd1 := x.half1.rel, rd2 := x.half2.rel } else x.now
    setFur s q (sendRel { moveRel x j with pr := j, pRegs := x.jumpRegs, relTo := none, now := now })

/-- The regions that follow the boundary word, by Table 7-4. -/
def jumpRegions (second lone : Bool) : List Nat := if second then [2, 0] else if lone then [1, 2, 0] else [1, 0]

/-- A furrow at a taken jump (R190, R218, R219): J is the main VIS after the discard, from which RES and STG start again; a half outside the read sequence is released,
one in it gives up what has not been committed. The read sequence goes on from there behind the boundary word. -/
def jumpFurrow (regs : List Nat) (q : Nat) (s : State) : State :=
  let x := furOf s q
  let live := regs.filter fun k => k == 0 || (halfOf x k).vis != (halfOf x k).rel
  let keep (k : Nat) : Half := if live.contains k then dropHalf (halfOf x k) else releaseHalf (halfOf x k)
  let seq : RPtr := { x.seq with regs := live, rd := x.vis, rd1 := x.half1.rel, rd2 := x.half2.rel }
  let size (k : Nat) : Nat := if live.contains k then sideDiff (halfOf x k).vis (halfOf x k).rel else 0
  setFur s q (sendRel { x with res := x.vis, stg := x.vis, tagRes := 0, tagStg := 0, half1 := keep 1, half2 := keep 2, seq := seq,
                               trail := x.trail.take (x.trail.length - 1) ++ (x.trail.drop (x.trail.length - 1)).map fun _ => seq,
                               relTo := some x.vis, jumpTo := some x.vis, jumpRegs := live, lone := size 1 + size 2 == 1 })

/-- A caravan that the dispatcher keeps over a jump: its reservation starts again (R190, R191). -/
def unreserve (c : Car) : Car := { c with entries := c.asked, resv := false }

/-- A caravan discarded at a jump leaves service: its staged entries go, and a completion place reserved for it is free again (R190, R411, log 96). -/
def discardCar (e : Nat) (c : Car) (s : State) : State :=
  let s := dropStaged c (freeEng e s)
  if c.notify && c.source = 1 && c.ring < 4 then setReserved c.part c.ring (cplReserved s c.part c.ring - 1) s else s

/-- A taken jump on one route (R153, R188, R190, R191): the main caravan in service is discarded and its token freed, one assigned and not yet handed
over is ready again, side caravans go, a held one among them (R171); the continuation state becomes the main record, its end position the route's, and the alternates armed in the
head are filed. -/
def jumpRoute (i k r : Nat) (s : State) : State :=
  let b := (siteOf s i).segOrd
  let x := routeOf s r
  match x.heads.find? (fun h => h.index = k ∧ h.bound = b) with
  | none => s
  | some h =>
    let lone := !h.second && !(x.heads.any fun g => g.bound = b && g.index ≠ k)
    let base := ((works s).find? fun w => w.car.route = r).map (·.car)
    let back := (s.pat.assigned.filter fun a => a.1.route = r && a.1.kind = 0).map fun a => unreserve a.1
    let s := match routeEng s r, base with
      | some e, some c => discardCar e c s
      | _, _ => s
    let s := { s with pat := { s.pat with assigned := s.pat.assigned.filter fun a => a.1.route ≠ r } }
    let x := routeOf s r
    let ready := back ++ (x.ready.filter fun c => c.kind = 0).map unreserve
    let st : RouteRec := { h.cont with ended := h.endPos.isSome }
    let freed := x.held && ((x.ready.head?.map (·.kind)).getD 0 ≠ 0)
    let s := setRoute s r (putCheck 0 st { x with main := st, ready := ready, sideWait := [], heads := [], endPos := h.endPos, capped := true, armed := none,
                                                  held := x.held && !freed })
    let s := if freed then heldOver s else s
    let s := forS (routeQuads s i r) (jumpFurrow (jumpRegions h.second lone)) s
    let c := (base.orElse fun _ => ready.head?).getD (parseDesc 0 (sitePart s i) 2 4)
    forS h.later (fileAlt { c with route := r, site := i }) s

/-- The segment number of an alternate: the operand of the SEG at its target (R110, R152). -/
def altTarget (s : State) (i k : Nat) : Nat :=
  match altHeads s i k with
  | h :: _ => readMem s (sitePart s i) h.st.pc 8 % 2 ^ 16
  | [] => 0

/-- A jump log entry (R119, Table 4-4) is written in memory class 2: `v` holds all of it but SEQ; the count of jumps advances. -/
def putJumpLog (i v : Nat) (s : State) : State :=
  let x := siteOf s i
  writeMem (setSite s i { x with jlogSeq := x.jlogSeq + 1, jlogWait := none }) (sitePart s i) (x.args.jlog + 16 * (x.jlogSeq % 64)) 16
    (v + x.jlogSeq % 2 ^ 32 * 2 ^ 96)

/-- The jump log entry of a taken jump (R119, Table 4-4). Behind a block that is not settled the number of the alternate's first vector is not known: the entry waits for the end
of the boundary vector. -/
def jumpLog (i k target bvn : Nat) (source : Nat) (late : Bool) (s : State) : State :=
  let x := siteOf s i
  let v := target * 2 ^ 64 + (k + 4 * b2n late) * 2 ^ 80 + source * 2 ^ 88
  if !x.args.jlogEn then s
  else if x.block.isEmpty then putJumpLog i (bvn + v) s
  else setSite s i { x with jlogWait := some v }

/-- The boundary vector of a taken jump ends: the jump log entry that waits for it takes the number of the vector that follows. -/
def jumpLogEnd (i : Nat) (s : State) : State :=
  match (siteOf s i).jlogWait with
  | some v => putJumpLog i ((siteOf s i).nextVn + v) s
  | none => s

/-- A jump is taken to alternate k (R114, R119, R190): `q` is the presentation queue up to the boundary word. Every pending request clears. -/
def takeJump (i k : Nat) (req : Nat × Bool) (q : List Pres) (s : State) : State :=
  let s := jumpLog i k (altTarget s i k) (bvnAfter s i q) req.1 req.2 s
  let s := forS (routesOf (siteOf s i).mask) (jumpRoute i k) s
  serveWaiting (setSite s i { siteOf s i with req1 := none, req2 := none })

/-- The decision point of a boundary (R113–R117, R125, R126): whether a jump is taken, and whether a boundary HALT stops the site there. A boundary HALT joins
the open stops; any open stop takes effect in place of a jump. -/
def decisionPoint (i : Nat) (q : List Pres) (s : State) : State × Bool × Bool :=
  if rdb s (sitePage s i) (F.CMP_SITE_STATE_HALT_PEND i) then (setSite s i { siteOf s i with haltDue := true }, false, true)
  else if !(siteOf s i).stops.isEmpty then (s, false, false)
  else match settleBoth i s with
  | (s, some (k, req)) => (takeJump i k req q s, true, false)
  | (s, none) => (noJump i s, false, false)

/-! ### Fetch (R203, R210, R211, R214) -/

/-- A fetched entry fails its parity check (R203): the quad and its position are recorded, FUR_PARITY is raised, and the site enters POISON. -/
def furParity (i q : Nat) (s : State) : State :=
  let p := Page.bnk (q / 4)
  let x := furOf s q
  let pos := match liveRegs x x.seq with | k :: _ => rdAt x.seq k | [] => x.seq.rd
  let s := wrs (incSat s p (F.FUR_PAR_ERR (q % 4))) p [(F.FUR_PAR_POS_POS (q % 4), pos), (F.FUR_PAR_POS_QUAD (q % 4), q % 4)]
  poisonSite i (raiseInt (fltEvent s p 16) p 16)

/-- The fetch pointers of a quad after an entry (R214): where it has MARK set, its position is MK and MARKED sets; behind a block that is not settled it waits to be MK. -/
def ptrAfter (k : Peek) : RPtr :=
  let at' := rdAt k.before (k.before.regs.headD 0)
  if !entMark k.cell.word then k.after
  else if k.after.marked then { k.after with marks := k.after.marks ++ [(at', k.before.regs)] }
  else { k.after with mark := at', markRegs := k.before.regs, marked := true }

/-- The read sequence of a quad's furrow reaches new fetch pointers: the lead's read side at once, every other when the step is broadcast (R210). They join the trail while a
block is not settled (R214). -/
def stepTo (lead : Nat) (p : RPtr) (x : Fur) (q : Nat) (s : State) : State :=
  setFur s q { x with seq := p, now := if q = lead then p else x.now, steps := if q = lead then [] else x.steps ++ [p],
                      trail := if p.marked then x.trail ++ [p] else [] }

/-- A quad takes the next entry of its furrow. -/
def stepQuad (lead : Nat) (q : Nat) (s : State) : State :=
  match peek s q with
  | none => s
  | some k => stepTo lead (ptrAfter k) (furOf s q) q s

/-- A quad takes an entry that a rewind has dropped again. -/
def stepAgain (lead : Nat) (q : Nat) (s : State) : State :=
  match (furOf s q).redo with
  | [] => s
  | p :: rest => stepTo lead p { furOf s q with redo := rest } q s

/-- The mark of a settled block goes; the oldest mark behind it takes its place (R214, R216). -/
def dropMark (p : RPtr) : RPtr :=
  match p.marks with
  | [] => { p with marked := false }
  | m :: rest => { p with mark := m.1, markRegs := m.2, marks := rest }

/-- What follows the entry that the lead quad has read last (R113, R126, R141, R219): a taken jump, a boundary HALT, or the end of the program. -/
def amendEntry (p : Pres) (jumped halt : Bool) (last : List Nat) : Pres := { p with jumped := p.jumped || jumped, halt := p.halt || halt, last := p.last ++ last }

/-- A list with its last entry changed. -/
def onLast (f : Pres → Pres) (l : List Pres) : List Pres := l.take (l.length - 1) ++ (l.drop (l.length - 1)).map f

/-- The entry that the lead quad has read last has been presented to its end: nothing of it is left to amend. -/
def lastPassed (x : Site) : Bool :=
  x.queue.isEmpty && match x.cur with
  | some c => (c.done && !((x.pass.map fun u => u.complete).getD false)) || c.cls == .idle
  | none => true

/-- The entry that the lead quad has read last is amended: in the presentation queue, or as the entry now presented, and in the block that holds it. -/
def amendLast (i : Nat) (f : Pres → Pres) (s : State) : State :=
  let x := siteOf s i
  let cur := if x.queue.isEmpty && !lastPassed x then x.cur.map fun c => { c with pres := f c.pres } else x.cur
  setSite s i { x with queue := onLast f x.queue, block := onLast f x.block, cur := cur }

/-- The stop states that follow an entry: for each route whose end position follows it, DONE, or STOPPED after a pattern fault (R141, R161). -/
def endsHere (s : State) (i : Nat) : List Nat :=
  ((routesOf (siteOf s i).mask).filterMap fun r =>
    match peek s r with
    | some k => if k.next.isNone && !k.lone then some (if (routeOf s r).main.pfault then 5 else 4) else none
    | none => none).eraseDups

/-- The stop states of the routes whose end position the read sequence has reached (R141, R161): it lay behind the entry read last before that was known. -/
def lateStops (s : State) (i : Nat) : List Nat :=
  ((routesOf (siteOf s i).mask).filterMap fun r =>
    let x := furOf s r
    let y := routeOf s r
    if (y.endPos.map fun e => atEnd x x.seq e (liveRegs x x.seq)).getD false then some (if y.main.pfault then 5 else 4) else none).eraseDups

/-- The lone vector of a head, read last, proves to be the last before the end position: the stop states that follow it (R141, R161, R219). -/
def loneStops (s : State) (i : Nat) : List Nat := if (siteOf s i).unsure && (siteOf s i).redo.isEmpty then lateStops s i else []

/-- How many entries of the oldest unsettled block the rewind queue holds (R214): those up to the match-end entry, at most 256. -/
def rewindLength (block : List Pres) : Nat := min ((block.takeWhile fun p => !isMatchEnd p).length + 1) (min block.length 256)

/-- The decision of a boundary whose last word was fetched before it could be made (R113, R219), with whether the site stops there. The entry read last
takes what it gives; where that word has been presented, presentation goes on behind it at once. -/
def decideLate (i : Nat) (s : State) : State × Bool :=
  let d := decisionPoint i (siteOf s i).queue s
  let x := siteOf d.1 i
  if lastPassed x then (if d.2.1 then forS (quadsOf x.mask) passBoundary d.1 else d.1, d.2.2)
  else (amendLast i (fun p => amendEntry p d.2.1 d.2.2 []) d.1, false)

/-- The lead quad takes the next entry of the read sequence into the presentation queue (R211, R214): the decision point of a boundary is the fetch of its last word; for a
match-end entry, it is the end of the dwell after which the read side proceeds (R113). -/
def takeEntry (i : Nat) (k : Peek) (s : State) : State :=
  let x := siteOf s i
  let quads := quadsOf x.mask
  let lead := leadQuad x.mask
  let w := k.cell.word
  let tag := k.cell.tag
  let boundary := (k.next.map fun c => entSeg c.word).getD false
  let marked := entMark w || (furOf s lead).seq.marked
  let pres : Pres :=
    { words := quads.map fun q => (q, ((peek s q).map fun u => u.cell.word).getD 0), word := w, tag := tag,
      target := match tag with | some t => if t.hold then some (holdTarget s i t) else none | none => none,
      boundary := boundary, last := endsHere s i, jumped := false, halt := false }
  let s := forS quads (stepQuad lead) s
  let s := setSite s i { x with segOrd := if entSeg w then x.segOrd + 1 else x.segOrd, deferred := boundary && isMatchEnd pres, unsure := k.lone,
                                block := if marked then x.block ++ [pres] else [], queue := x.queue ++ [pres] }
  if boundary && !isMatchEnd pres then
    let d := decisionPoint i (x.queue ++ [pres]) s
    amendLast i (fun p => amendEntry p d.2.1 d.2.2 []) d.1
  else s

/-- An entry that a rewind has dropped is fetched again as it was first read: with the target of its hold and the decision of its boundary (R113, R159, R216). -/
def takeAgain (i : Nat) (p : Pres) (rest : List Pres) (s : State) : State :=
  let x := siteOf s i
  let lead := leadQuad x.mask
  let s := forS (quadsOf x.mask) (stepAgain lead) s
  setSite s i { x with redo := rest, queue := x.queue ++ [p], deferred := p.boundary && isMatchEnd p,
                       block := if (furOf s lead).seq.marked then x.block ++ [p] else [] }

/-- The entry after a lone head vector proves to start a segment: that vector ends one, and its decision point comes now, or where it is a match-end entry whose block is not
settled, as the dwell ends (R113, R219, log 97). -/
def decideLone (i : Nat) (s : State) : State :=
  let x := siteOf s i
  let s := setSite s i { x with unsure := false }
  if (x.block.getLast?.map isMatchEnd).getD false then
    let s := amendLast i (fun p => { p with boundary := true }) s
    setSite s i { siteOf s i with deferred := true }
  else
    let d := decideLate i s
    if d.2 then openStop i 5 d.1 else d.1

/-- The lead quad fetches the next entry of the read sequence where the presentation queue has room beside the entries that stand in the rewind queue (R211, R214): first those
that a rewind has dropped. Behind a match-end entry that is the last word of a segment it waits for the decision. -/
def fetchEntry (i : Nat) (upset : Option Nat) (s : State) : State :=
  let x := siteOf s i
  let quads := quadsOf x.mask
  if siteState s i ≠ 3 || 256 ≤ x.queue.length - x.inRew || x.deferred then s
  else match x.redo with
  | p :: rest =>
    match upset with
    | some q => if quads.contains q then furParity i q s else s
    | none => takeAgain i p rest s
  | [] =>
  if !(quads.all fun q => (peek s q).isSome) then s
  else match peek s (leadQuad x.mask) with
  | none => s
  | some k =>
    match upset with
    | some q => if quads.contains q then furParity i q s else s
    | none =>
      if x.unsure && entSeg k.cell.word then decideLone i s else takeEntry i k s

/-- ENTRY_FETCH (R211): `upset` names a quad whose entry fails its parity check. -/
def execEntryFetch (site : Nat) (upset : Option Nat) (s : State) : Host.Outcome State Fault Refusal := .next (fetchEntry site upset s)

/-- RESUME_POSITION_ARRIVAL (R219): the main region becomes readable from J on. -/
def execResumePositionArrival (site : Nat) (s : State) : Host.Outcome State Fault Refusal :=
  .next (forS (quadsOf (siteOf s site).mask) (fun q s =>
    let x := furOf s q
    match x.jumpTo with
    | some _ => setFur s q { x with jumpTo := none }
    | none => s) s)

/-- SITE_STEP_BROADCAST (R210): a quad performs the next step of its site's lead quad. -/
def execSiteStepBroadcast (quad : Nat) (s : State) : Host.Outcome State Fault Refusal :=
  .next (match (furOf s quad).steps with
    | p :: rest => setFur s quad { furOf s quad with now := p, steps := rest }
    | [] => s)

/-! ### Presentation and release (R204, R214, R218) -/

/-- REL follows PR entry by entry, or is held at the mark (R204, R214, R218): a mark in a half also holds what follows the half. The write side is told (R206). -/
def releaseFollow (x : Fur) : Fur :=
  let m := x.seq
  let g := m.markRegs.headD 0
  let pos := if !m.marked then x.pr else if g ≠ 0 then x.rel else if ptrDiff m.mark x.rel < ptrDiff x.pr x.rel then m.mark else x.pr
  let half (k : Nat) : Nat :=
    let h := halfOf x k
    if !m.marked || g = 0 || (g = 2 && k = 1) then h.pr
    else if g = k then (if sideDiff m.mark h.rel < sideDiff h.pr h.rel then m.mark else h.pr)
    else h.rel
  let y := moveRel (moveSideRel (moveSideRel x 1 (half 1)) 2 (half 2)) pos
  if y.rel = x.rel && y.half1.rel = x.half1.rel && y.half2.rel = x.half2.rel then x else sendRel y

/-- PR passes an entry in one furrow, and presentation leaves a half at its end. -/
def passEntry (q : Nat) (s : State) : State :=
  let x := furOf s q
  match x.pRegs with
  | [] => s
  | k :: rest =>
    if k = 0 then setFur s q { x with pr := ptrAdd x.pr 1 }
    else
      let h := halfOf x k
      let x := setHalf x k { h with pr := sideAdd h.pr 1 }
      setFur s q { x with pRegs := if sideAdd h.pr 1 = h.vis then rest else x.pRegs }

/-- The last repetition of the present entry has been presented (R204, R219): every furrow of the site passes it, performs by then the step that
fetched it, and releases. -/
def entryDone (i : Nat) (s : State) : State :=
  let x := siteOf s i
  match x.cur with
  | none => s
  | some c =>
    if c.done || c.cls = .idle then s
    else
      let s := forS (quadsOf x.mask) (fun q s =>
        let s := passEntry q s
        let s := if c.pres.jumped then passBoundary q s else s
        let y := releaseFollow (furOf s q)
        let late := y.steps.length - x.queue.length
        let now := ((y.steps.take late).getLast?).getD y.now
        setFur s q { y with steps := y.steps.drop late, now := now }) s
      let s := if c.pres.jumped then jumpLogEnd i s else s
      setSite s i { siteOf s i with cur := some { c with done := true } }

/-- A vector with a number begins (R55): it takes the number, its judged strobes, edges and strobes begin, and the VN trigger of each channel of the site fires,
with the LABEL trigger where the entry's label is presented first (Table 10-1). -/
def beginVector (i : Nat) (c : Cur) (label : Option Nat) (s : State) : State :=
  let s := wr s (.timPart (sitePart s i)) (F.SITE_VCOUNT i) c.vn
  let s := setSite s i { siteOf s i with nextVn := (c.vn + 1) % 2 ^ 64 }
  let s := startVector i c s
  acqCycle none ((banksOf (siteOf s i).mask).flatMap fun b =>
    let f := (acqOf s b).cfg
    let lab := match label with | some n => f.anyLabel || f.label == n | none => false
    if f.site = i then (if lab then [(b, c.vn, 2)] else []) ++ (if f.tvn = c.vn then [(b, c.vn, 3)] else []) else []) s

/-- The class of a vector that begins (Table 9-2). -/
def vectorClass (s : State) (i : Nat) : VClass :=
  match (siteOf s i).pass with
  | some u => if u.complete then .dwell else .pass
  | none => .ordinary

/-- The last repetition of a match-end entry begins: the pass is complete but for its judgements (R215). -/
def passComplete (i : Nat) (c : Cur) (s : State) : State :=
  let x := siteOf s i
  match x.pass with
  | some u => if isMatchEnd c.pres && c.left = 0 && !u.complete then
      setSite s i { x with pass := some { u with complete := true, limit := matchLimit c.pres } } else s
  | none => s

/-- The flags of a FLAG tag act as its entry is presented (R156). -/
def flagAction (i : Nat) (t : Tag) (s : State) : State :=
  if t.flag then
    let f := F.CMP_SITE_FLAGS_FLAG1_3 i
    let v := rd s (sitePage s i) f
    wr s (sitePage s i) f ((v ||| t.flagSet) &&& (7 - t.flagClr % 8))
  else s

/-- An entry is first presented (R55, R156, R159, R214, R216, R239, R244, R302): the present period ends, stretched where the entry is a coherent switch; a gap
ends; a mark entry starts the first pass of its block; tag actions and the segment trigger act. -/
def presentEntry (i : Nat) (p : Pres) (rest : List Pres) (s : State) : State :=
  let e := curEnd s i
  let period := vectorPeriod s i (bits p.word 13 8)
  let start := alignedStart s i p period e.1 e.2
  let len := match (siteOf s i).cur with | some c => start - c.start | none => 0
  let s := gapEnd i (finishVector i len s)
  let s := setSite s i { siteOf s i with queue := rest, inRew := (siteOf s i).inRew - 1 }
  let s := if entMark p.word && (siteOf s i).pass.isNone then
      forS (quadsOf (siteOf s i).mask) (fun q s => wr s (.bnk (q / 4)) (F.FUR_PASS (q % 4)) 1)
        (setSite s i { siteOf s i with pass := some ⟨1, 0, false, false, none, 0⟩ })
    else s
  let n := repsOf p start period
  let past := match p.target with | some t => n = 1 && decide (t < (start : Int)) | none => false
  let s := if past then forS (quadsOf (siteOf s i).mask) (fun q s => incSat s (.bnk (q / 4)) (F.FUR_WAIT_PAST (q % 4))) s else s
  let s := match p.tag with | some t => flagAction i t s | none => s
  let s := if entSeg p.word then trigOutSegment i start s else s
  let c : Cur := ⟨p, n - 1, (siteOf s i).nextVn, start, period, vectorClass s i, false, []⟩
  let label := match p.tag with | some t => if t.label then some t.labelNum else none | none => none
  passComplete i c (beginVector i c label s)

/-- The present entry is presented once more, as its next repetition or as a dwell repetition of the final vector (R159, R215). -/
def repeatVector (i : Nat) (c : Cur) (s : State) : State :=
  let period := vectorPeriod s i (bits c.pres.word 13 8)
  let s := finishVector i c.period s
  let c' : Cur := { c with left := c.left - 1, vn := (siteOf s i).nextVn, start := c.start + c.period, period := period, cls := vectorClass s i }
  passComplete i c' (beginVector i c' none s)

/-- Timing set of the site's idle items: IDLE_TS of the lead quad (R202). -/
def idleSet (s : State) (i : Nat) : Nat :=
  let q := leadQuad (siteOf s i).mask
  rd s (.bnk (q / 4)) (F.FUR_CTRL_IDLE_TS (q % 4))

/-- The idle item of a timing set (R202): P makes the parity even. -/
def idleWord (ts : Nat) : Nat :=
  let w := 0x40000000 + ts % 64 * 2 ^ 8
  w + evenParity w * 2 ^ 31

/-- The idle item that a quad's own `FUR_CTRL` gives (R202). -/
def quadIdle (s : State) (q : Nat) : Nat := idleWord (rd s (.bnk (q / 4)) (F.FUR_CTRL_IDLE_TS (q % 4)))

/-- An idle item of a site (R122, R202): it carries no vector number. What it does is settled as it begins: a change of `FUR_CTRL` applies from the next one. -/
def idleItem (i : Nat) (s : State) : State :=
  let e := curEnd s i
  let len := match (siteOf s i).cur with | some c => c.period | none => 0
  let s := finishVector i len s
  let quads := quadsOf (siteOf s i).mask
  let p : Pres := ⟨quads.map fun q => (q, quadIdle s q), quadIdle s (leadQuad (siteOf s i).mask), none, none, false, [], false, false⟩
  let off := quads.filter fun q => rdb s (.bnk (q / 4)) (F.FUR_CTRL_IDLE_DRIVE (q % 4))
  startVector i ⟨p, 0, 0, e.1, vectorPeriod s i (idleSet s i), .idle, false, off⟩ s

/-- A furrow has no visible entry at its read position (R213). -/
def furLacks (s : State) (q : Nat) : Bool :=
  let x := furOf s q
  match liveRegs x x.seq with
  | [] => true
  | k :: _ => if k = 0 then mainAvail x x.seq.rd == 0 else availAt x x.seq k == 0

/-- An idle item of a RUNNING site: it begins or extends an underrun gap (R213). At the first, UNDERRUN is raised for the routes that lack entries, or for
every route, and UNDERRUN_ACTION may open a stop; then the recorded length stays 1. -/
def underrunItem (i : Nat) (s : State) : State :=
  let x := siteOf s i
  let s := match x.gap with
    | some g => if x.args.underrunStop then s else setSite s i { x with gap := some { g with len := g.len + 1 } }
    | none =>
      let all := routesOf x.mask
      let lack := all.filter fun r => (routeQuads s i r).any (furLacks s)
      let routes := if lack.isEmpty then all else lack
      let s := setSite s i { x with gap := some ⟨x.nextVn, 1, routes⟩ }
      let s := forS routes (fun r s => raiseInt s (.bnk (r / 4)) (24 + r % 4)) s
      if x.args.underrunStop then openStop i 8 s else s
  idleItem i s

/-! ### Dwell and rewind (R113, R215, R216, R272) -/

/-- The settled block's marks clear, with the n entries from its mark to the next, and REL follows PR again, to the mark of a block fetched behind it (R216). -/
def unmark (i n : Nat) (s : State) : State :=
  forS (quadsOf (siteOf s i).mask) (fun q s =>
    let x := furOf s q
    setFur s q (releaseFollow { x with seq := dropMark x.seq, now := dropMark x.now, steps := x.steps.map dropMark,
                                       trail := (x.trail.drop n).map dropMark, redo := x.redo.map dropMark })) s

/-- The entries fetched behind a settled block, from the next mark on (R214). -/
def blockAfter (block : List Pres) : List Pres := ((block.dropWhile fun p => !isMatchEnd p).drop 1).dropWhile fun p => !entMark p.word

/-- The fetch pointers of a furrow at its mark: RD is MK (R216). A half that follows the mark's is read from its beginning. -/
def atMark (x : Fur) (m : RPtr) : RPtr :=
  let g := m.markRegs.headD 0
  let p : RPtr := { m with regs := m.markRegs, marks := [], rd1 := x.half1.rel, rd2 := x.half2.rel, rd := if g = 0 then m.mark else x.rel }
  rdSet p g m.mark

/-- A rewind (R216): the entries after the match-end entry are dropped, to be fetched again as they were first read; PR and RD return to MK, the block is presented from the rewind
queue, and fetching goes on after the entries that queue holds; RD passes them as they are presented. -/
def rewind (i : Nat) (u : Pass) (s : State) : State :=
  let x := siteOf s i
  let n := rewindLength x.block
  let block := x.block.take n
  let s := setSite s i { x with queue := block, inRew := n, block := block, redo := x.block.drop n ++ x.redo, deferred := block.any fun p => p.boundary && isMatchEnd p,
                                pass := some ⟨u.number + 1, 0, false, false, none, 0⟩ }
  forS (quadsOf x.mask) (fun q s =>
    let y := furOf s q
    let m := atMark y y.seq
    let g := m.markRegs.headD 0
    let steps := y.trail.take n
    let half (k : Nat) (h : Half) : Half := if g = k || (g = 1 && k = 2) then { h with pr := rdAt m k } else h
    let s := setFur s q { y with seq := (steps.getLast?).getD m, now := m, steps := steps, trail := steps, redo := y.trail.drop n ++ y.redo, pRegs := m.regs, pr := m.rd,
                                 half1 := half 1 y.half1, half2 := half 2 y.half2 }
    incSat (wr s (.bnk (q / 4)) (F.FUR_PASS (q % 4)) (min (u.number + 1) 0xFFFFFFFF)) (.bnk (q / 4)) (F.FUR_REWINDS (q % 4))) s

/-- What follows an entry that has been presented to its end: the end of the program, or a boundary HALT, stops the site (R126, R141). -/
def entryStops (i : Nat) (p : Pres) (s : State) : State :=
  let open' := openCauses (siteOf s i)
  if !p.last.isEmpty then stopSite i (p.last ++ open') false true s
  else if p.halt then stopSite i (5 :: open') false true s
  else s

/-- The dwell ends with the pass's decision (R215, R216, R272): the block is left, presented again, or the site stops in MATCH_TIMEOUT. A boundary whose last
word is the match-end entry has its decision point here (R113). -/
def dwellEnd (i : Nat) (s : State) : State :=
  let s := entryDone i s
  let x := siteOf s i
  match x.cur, x.pass with
  | some c, some u =>
    match u.decision with
    | none => s
    | some ok =>
      let s := forS (quadsOf x.mask) (fun q s =>
        let p := Page.bnk (q / 4)
        let d := min u.dwell 0xFFFF
        wrs s p [(F.FUR_DWELL_LAST (q % 4), d), (F.FUR_DWELL_MAX (q % 4), max d (rd s p (F.FUR_DWELL_MAX (q % 4))))]) s
      if ok then
        let rest := blockAfter (siteOf s i).block
        let s := unmark i ((siteOf s i).block.length - rest.length) (setSite s i { siteOf s i with pass := none, block := rest, deferred := x.deferred && !rest.isEmpty })
        let d := if x.deferred && rest.isEmpty then decideLate i s else (s, false)
        entryStops i { c.pres with halt := d.2 } d.1
      else if u.number < u.limit then rewind i u s
      else stopSite i (boundaryCauses x) false true s
  | _, _ => s

/-- A complete pass waits for its decision or has one. -/
def passWaits (s : State) (i : Nat) : Option (Option Bool) :=
  match (siteOf s i).pass with
  | some u => if u.complete then some u.decision else none
  | none => none

/-- Strobes of a site's present pass that are not yet judged (R271). -/
def passPending (s : State) (i : Nat) : Bool :=
  let n := ((siteOf s i).pass.map fun u => u.number).getD 0
  (pinsOf (siteOf s i).mask).any fun p => (pinOf s p).strobes.any fun t => t.site == i && t.cls == .pass && t.pass == n && judged t.code

/-- A judged pin of the vector now presented, the final one of its pass, has no sample: its strobe lies at or beyond four of its lengths (R242, R264, R271). -/
def passUnsampled (s : State) (i : Nat) : Bool :=
  match (siteOf s i).cur with
  | some c => c.cls == .pass && (judgedPins s i c).any fun p =>
      let b := p / 16
      let t := timingSet s b (bits (quadWord c (p / 4)) 13 8)
      !strobeWithin (t.pins.getD (p % 16) pinRecReset) (followScale s i b c) c.period
  | none => false

/-- MATCH_DECISION (R215, R271): the site decision path delivers the decision of a pass once its last strobe is judged. -/
def execMatchDecision (site : Nat) (s : State) : Host.Outcome State Fault Refusal :=
  .next (match (siteOf s site).pass with
    | some u => if u.complete && u.decision.isNone && !passPending s site then
        setSite s site { siteOf s site with pass := some { u with decision := some !(u.failed || passUnsampled s site) } } else s
    | none => s)

/-- DWELL_END (R216): the boundary after the last repetition of the final vector, with the decision delivered. -/
def execDwellEnd (site : Nat) (s : State) : Host.Outcome State Fault Refusal :=
  .next (match (siteOf s site).cur, passWaits s site with
    | some c, some (some _) => if c.left = 0 then dwellEnd site s else s
    | _, _ => s)

/-! ### Vector periods (R211–R213) -/

/-- The next entry or an idle item, at the boundary after the present entry. -/
def nextPeriod (i : Nat) (s : State) : State :=
  if siteState s i = 3 then
    match (siteOf s i).queue with
    | p :: rest => presentEntry i p rest s
    | [] => underrunItem i s
  else if siteState s i = 9 || siteState s i = 10 || siteState s i = 0 then s
  else idleItem i s

/-- An open stop takes effect at the boundary after the present vector at the latest: that lies past the CORE cycle of its cause (R124). -/
def stopForced (x : Site) : Bool :=
  match x.stopBy with
  | some t => decide (t ≤ (vecEnd x).1) && !x.stops.isEmpty
  | none => false

/-- The end of the program that a lone head vector proves to be follows its entry while that is not presented to its end (R141, R161). -/
def noteEnd (i : Nat) (s : State) : State :=
  let l := loneStops s i
  if l.isEmpty || lastPassed (siteOf s i) then s
  else
    let s := amendLast i (fun p => amendEntry p false false l) s
    setSite s i { siteOf s i with unsure := false }

/-- The next vector period of a site (R212): a repetition, a dwell repetition, the next entry or an idle item; the site stops where the program ends, and where an
open stop waits no longer (R124). -/
def vectorPeriodOf (i : Nat) (s : State) : State :=
  let s := noteEnd i s
  if siteState s i ≠ 3 then nextPeriod i s
  else if !(loneStops s i).isEmpty then nextPeriod i (stopSite i (loneStops s i ++ openCauses (siteOf s i)) false true s)
  else if stopForced (siteOf s i) then nextPeriod i (stopSite i (boundaryCauses (siteOf s i)) false true s)
  else match (siteOf s i).cur with
  | none => nextPeriod i s
  | some c =>
    if c.cls = .idle then nextPeriod i s
    else if 0 < c.left then repeatVector i c s
    else
      let s := entryDone i s
      match passWaits s i with
      | some none =>
        let x := siteOf s i
        repeatVector i { c with done := true } (setSite s i { x with pass := x.pass.map fun u => { u with dwell := u.dwell + 1 } })
      | some (some _) => nextPeriod i (dwellEnd i s)
      | none => nextPeriod i (if c.done then s else entryStops i c.pres s)

/-- A quad of a powered bank outside every site presents an idle item of its own (R122), with which written taps come into force (R252); while EDGE or DESKEW runs on the bank its pins are held (R354). -/
def loneIdle (q : Nat) (s : State) : State :=
  let b := q / 4
  let p := Page.bnk b
  if (siteOfQuad s q).isSome || bankSafe s b || !(rd s .pwrDev F.PWR_DOM_ON).testBit b || (s.cal.runs.any fun r => r.bank == b && r.cls != 1 && !r.accepted) then s
  else
    let t := timingSet s b (rd s p (F.FUR_CTRL_IDLE_TS (q % 4)))
    let code := if rdb s p (F.FUR_CTRL_IDLE_DRIVE (q % 4)) then some 2 else none
    let start := tabGet 0 s.pat.idleAt q
    let pins := (List.range 4).map fun k => 4 * q + k
    let s := forS pins (fun k s => loadTaps k t.period s) s
    let s := { s with pat := { s.pat with idleAt := tabPut 0 s.pat.idleAt q (start + t.period) } }
    forS pins (fun k s => pinEdges k (t.pins.getD (k % 16) pinRecReset) code none (fun _ => true) 0 start t.period s) s

/-- VECTOR_PERIOD (R211): of site k, or of quad k outside every site. -/
def execVectorPeriod (quad : Bool) (k : Nat) (s : State) : Host.Outcome State Fault Refusal :=
  .next (if quad then loneIdle k s else vectorPeriodOf k s)

end Sys2Proof.Machine
end

