-- ==== Sys2Proof/Machine/Wear.lean ====
section
/-! DEFINITION. The proposal queue of spares (R497) and the lock of the perturbation page (R498), which other blocks touch. -/

namespace Sys2Proof.Machine

open Sys2Proof

/-! ### The proposal queue (R496, R497) -/

/-- The proposal for a resource. -/
def propOf (s : State) (kind inst : Nat) : Option Proposal := s.lcs.props.find? fun x => x.kind == kind && x.inst == inst

/-- The proposal for a resource is approved. -/
def propApproved (s : State) (kind inst : Nat) : Bool := ((propOf s kind inst).map fun x => x.approved).getD false

/-- A proposal leaves the queue; `LCS_PROP_LAST` shows it. -/
def propLeave (id : Nat) (noSpare : Bool) (s : State) : State :=
  let s := { s with lcs := { s.lcs with props := s.lcs.props.filter fun x => x.id != id } }
  wrs s .lcs [(F.LCS_PROP_LAST_ID, id), (F.LCS_PROP_LAST_NO_SPARE, b2n noSpare)]

/-- The approved proposal for a resource is carried out: it leaves the queue, counts, is logged and raises SUBST_DONE. -/
def propDone (kind inst : Nat) (s : State) : State :=
  match propOf s kind inst with
  | none => s
  | some x =>
    let s := evlog (incSat (propLeave x.id false s) .lcs F.SUBSTITUTIONS) 9 16 0 0 (kind + inst % 4096 * 16)
    raiseInt s .lcs 11

/-- No spare is free when the proposal falls due: it leaves the queue with NO_SPARE. -/
def propNoSpare (kind inst : Nat) (s : State) : State :=
  match propOf s kind inst with
  | none => s
  | some x => propLeave x.id true s

/-- A proposal is approved: of a memory frame, the controller may retire it. -/
def propApprove (id : Nat) (s : State) : State :=
  let frames := s.lcs.props.filterMap fun x => if x.id == id && x.kind == 7 && !s.memc.approved.contains x.inst then some x.inst else none
  { s with lcs := { s.lcs with props := s.lcs.props.map fun x => if x.id == id then { x with approved := true } else x },
           memc := { s.memc with approved := s.memc.approved ++ frames } }

/-- A proposal is filed (R497): merged into one for the same resource, dropped with PROP_OVF where 16 are queued, approved at once under AUTO. -/
def propFile (kind inst cause : Nat) (s : State) : State :=
  if (propOf s kind inst).isSome then incSat s .lcs F.PROP_MERGED
  else if 16 ≤ s.lcs.props.length then raiseInt (fltEvent s .lcs 3) .lcs 3
  else
    let id := s.lcs.nextId
    let s := { s with lcs := { s.lcs with props := s.lcs.props ++ [⟨id, kind, inst, cause, false⟩], nextId := (id + 1) % 256 } }
    let s := raiseInt (incSat s .lcs F.PROPOSALS) .lcs 10
    if (rd s .lcs F.LCS_POLICY_AUTO).testBit (kind - 1) then propApprove id s else s

/-! ### The lock of the perturbation page (R498, R499) -/

/-- Some perturbation slot is armed. -/
def ptbArmed (s : State) : Bool := (List.range 16).any fun k => rdb s .ptb (F.PTB_CTRL_EN k)

/-- `PTB_STAT.ACTIVE` and the PTB_ACTIVE condition follow the slots; in PROVISIONED and FIELD the condition drives ERR_N (R499). -/
def ptbFollow (s : State) : State :=
  let on := ptbArmed s
  let st := rd s .lcs F.LCS_STATE_STATE
  let s := if on && (st == 1 || st == 2) then orBits s .ptb F.FLT_ERRPIN 4 else s
  setLiveInt (wrb s .ptb F.PTB_STAT_ACTIVE on) .ptb 2 2 on

/-- What perturbations were about to do is forgotten; symbols that one has stored inverted stay. -/
def ptbQuiet (s : State) : State :=
  { s with lcs := { s.lcs with stall := 0, noRoom := [], drops := [], grantWait := [], memLat := [], txDelay := [], rsNext := [] } }

/-- A slot is disarmed. -/
def ptbDisarm (k : Nat) (s : State) : State := ptbFollow (wr s .ptb (F.PTB_CTRL_EN k) 0)

/-- The page locks (R498): every EN clears, and the lock is announced; what a perturbation still holds back goes on. -/
def ptbLock (s : State) : State :=
  if !rdb s .ptb F.PTB_STAT_UNLOCKED then s
  else
    let s := forS (List.range 16) (fun k s => wr s .ptb (F.PTB_CTRL_EN k) 0) s
    let s := wrs s .ptb [(F.PTB_UNLOCK, 0), (F.PTB_STAT_UNLOCKED, 0), (F.PTB_STAT_ANNOUNCED, 1)]
    evlog (ptbFollow (ptbQuiet s)) 10 17 0 0 0

end Sys2Proof.Machine
end

