-- ==== Sys2Proof/Machine/Analysis.lean ====
section
/-! DEFINITION. The analysis units (chapter 12): run control, the input tap, interrupts, and one meaning for each instruction of Table 12-2. -/

namespace Sys2Proof.Machine

open Sys2Proof

/-! ### Units -/

/-- Store a unit; `AU_STAT.DEPTH` and `AU_TAP_STAT.LEVEL` follow it. -/
def putAu (u : Nat) (x : Au) (s : State) : State :=
  wrs (setAu s u x) (.au u) [(F.AU_STAT_DEPTH, x.stack.length), (F.AU_TAP_STAT_LEVEL, x.tap.length)]

/-- The state of a unit (Table 12-4). -/
def auState (s : State) (u : Nat) : Nat := rd s (.au u) F.AU_STAT_STATE

/-- Write the state of a unit. -/
def setAuState (u v : Nat) (s : State) : State := wr s (.au u) F.AU_STAT_STATE v

/-- A unit is HALTED or in FAULT. -/
def auStopped (s : State) (u : Nat) : Bool := auState s u == 0 || auState s u == 3

/-- A calibration unit (R343). -/
def isCu (u : Nat) : Bool := decide (17 ≤ u)

/-- The pages whose writes are ignored now: CLEARING (R324). -/
def auClearing (s : State) (u : Nat) : Bool := rdb s (.au u) F.AU_ASSIGN_CLEARING

/-- Firmware holds a calibration unit against privileged software (R344). -/
def cuHeld (s : State) (m u : Nat) : Bool := isCu u && m != 4 && rdb s (.au u) F.AU_CU_FW_HELD

/-- A program register of a unit. -/
def auX (s : State) (u k : Nat) : Nat := rd s (.au u) (F.AU_X k)

/-- Write a program register. -/
def setAuX (u k v : Nat) (s : State) : State := wr s (.au u) (F.AU_X k) v

/-- A word of data memory. -/
def auData (s : State) (u a : Nat) : Nat := tabGet 0 (auOf s u).data (a % 16384)

/-- Write a word of data memory. -/
def setAuData (u a v : Nat) (s : State) : State := setAu s u { auOf s u with data := tabPut 0 (auOf s u).data (a % 16384) (v % 2 ^ 32) }

/-- A program word. -/
def auProg (s : State) (u a : Nat) : Nat := tabGet 0 (auOf s u).prog (a % 4096)

/-- Write a program word. -/
def setAuProg (u a v : Nat) (s : State) : State := setAu s u { auOf s u with prog := tabPut 0 (auOf s u).prog (a % 4096) (v % 2 ^ 32) }

/-! ### The input tap (R338–R340) -/

/-- A stamp reaches the tap of a unit (R338, R339): discarded with EN = 0 or into a full tap, and counted; a loss marker that waits goes first. -/
def tapArrive (u : Nat) (t : TapEnt) (s : State) : State :=
  let x := auOf s u
  if !rdb s (.au u) F.AU_TAP_EN then incSat s (.au u) F.AU_TAP_OFF
  else if 1024 ≤ x.tap.length then raiseInt (incSat (setAu s u { x with lost := x.lost + 1 }) (.au u) F.AU_TAP_LOST) (.au u) 11
  else putAu u { x with tap := x.tap ++ [t] } s

/-- The oldest entry leaves the tap; where stamps were lost, their loss marker enters the freed place (R339). -/
def tapPop (u : Nat) (s : State) : State :=
  let x := auOf s u
  let rest := x.tap.drop 1
  if x.lost = 0 then putAu u { x with tap := rest } s
  else putAu u { x with tap := rest ++ [⟨min x.lost 0xFFFFFFFF, 2 ^ 12, true⟩], lost := 0 } s

/-! ### Faults and boundaries (R334–R337, R341, R342) -/

/-- A fault stops the unit before the instruction has any effect (R342). -/
def auFault (u code addr : Nat) (s : State) : State :=
  let p := Page.au u
  let s := wrs s p [(F.AU_STAT_STATE, 3), (F.AU_FAULT_INFO_CODE, code), (F.AU_FAULT_INFO_PC, rd s p F.AU_STAT_PC)]
  let s := if code = 5 then wr s p F.AU_FAULT_INFO_ADDR addr else s
  let s := setAu s u { auOf s u with haltReq := false }
  let s := if code = 5 then raiseInt (fltEvent s p 2) p 2 else if code = 6 then fltEvent s p 3 else s
  let s := if code = 5 || code = 6 then wearNote 4 u (aonNow s) s else s
  raiseInt s p 10

/-- The boundary before the next instruction meets R337 but for IE: it is not before a delay slot, and no repeat is in progress. -/
def auBoundary (x : Au) : Bool := x.slots.isNone && x.rpt.isNone && x.block.isNone

/-- TAP is pending: the level is at or above THR (R336). -/
def tapPending (s : State) (u : Nat) : Bool := decide (rd s (.au u) F.AU_TAP_THR ≤ (auOf s u).tap.length)

/-- The vector of the interrupt that is enabled and pending: 1 for HOST, which goes first, 2 for TAP (R336, R337). -/
def auPending (s : State) (u : Nat) : Option Nat :=
  if rdb s (.au u) F.AU_IEN_HOST && (auOf s u).host then some 1
  else if rdb s (.au u) F.AU_IEN_TAP && tapPending s u then some 2
  else none

/-- The unit executes: RUNNING or WAITING. -/
def auLive (s : State) (u : Nat) : Bool := auState s u == 1 || auState s u == 2

/-- The interrupt that is taken at the present boundary (R337). -/
def auTakes (s : State) (u : Nat) : Option Nat :=
  if auLive s u && rdb s (.au u) F.AU_STAT_IE && auBoundary (auOf s u) then auPending s u else none

/-- AU_INTERRUPT (R337): the address of the next instruction is pushed, IE clears, and the unit continues at word 1 or 2. -/
def execAuInterrupt (u : Nat) (s : State) : Host.Outcome State Fault Refusal :=
  .next (match auTakes s u with
    | none => s
    | some v =>
      let x := auOf s u
      if 8 ≤ x.stack.length then auFault u 4 0 s
      else
        let p := Page.au u
        let s := putAu u { x with stack := rd s p F.AU_STAT_PC :: x.stack, host := x.host && v != 1, prevAcc := none, prevLoad := none } s
        wrs s p [(F.AU_STAT_IE, 0), (F.AU_STAT_PC, v), (F.AU_STAT_STATE, 1)])

/-- The program counter moves on from an instruction (R334, R335): `was` is the repetitions left when it began. -/
def auAdvance (u : Nat) (was : Option Nat) (s : State) : State :=
  let x := auOf s u
  let p := Page.au u
  let pc := rd s p F.AU_STAT_PC
  match was with
  | some (n + 2) => setAu s u { x with rpt := some (n + 1) }
  | _ =>
    let x := if was.isSome then { x with rpt := none } else x
    match x.slots with
    | some (n + 2, t) => wr (setAu s u { x with slots := some (n + 1, t) }) p F.AU_STAT_PC (pc + 1)
    | some (_, t) => wr (setAu s u { x with slots := none }) p F.AU_STAT_PC (t.getD (pc + 1))
    | none =>
      match x.block with
      | some (a, e, n) =>
        if pc = e then
          if 1 < n then wr (setAu s u { x with block := some (a, e, n - 1) }) p F.AU_STAT_PC a
          else wr (setAu s u { x with block := none }) p F.AU_STAT_PC (pc + 1)
        else wr (setAu s u x) p F.AU_STAT_PC (pc + 1)
      | none => wr (setAu s u x) p F.AU_STAT_PC (pc + 1)

/-- A host HALT that waits takes effect at a boundary (R341). -/
def auHaltCheck (u : Nat) (s : State) : State :=
  let x := auOf s u
  if x.haltReq && auBoundary x && auLive s u then setAuState u 0 (setAu s u { x with haltReq := false }) else s

/-! ### Instructions (R327, Table 12-2) -/

/-- The opcode of an instruction word. -/
def auOp (w : Nat) : Nat := bits w 31 26

/-- The opcode is assigned (Table 12-2). -/
def auAssigned (op : Nat) : Bool := decide (op ≤ 0x0B) || (decide (0x10 ≤ op) && decide (op ≤ 0x16)) || (decide (0x18 ≤ op) && decide (op ≤ 0x1B))

/-- What one instruction is made of: its opcode; when its word is reserved, and on a calibration unit besides; whether it may stand in no delay slot and no
single repeat, and in no repeated block; the X registers it reads; its own REPEAT and STACK faults; the data words it reads; whether it waits; its effect, before
the program counter moves on. -/
structure AuInstr where
  op : Nat
  bad : Nat → Bool
  badCu : Nat → Bool
  control : Bool
  noBlock : Bool
  reads : Nat → List Nat
  badRepeat : State → Nat → Nat → Bool
  badStack : State → Nat → Bool
  words : State → Nat → Nat → List Nat
  waits : State → Nat → Bool
  run : Nat → Nat → State → State

/-- An instruction that only computes. -/
def auPlain (op : Nat) (bad : Nat → Bool) (reads : Nat → List Nat) (run : Nat → Nat → State → State) : AuInstr :=
  ⟨op, bad, fun _ => false, false, false, reads, fun _ _ _ => false, fun _ _ => false, fun _ _ _ => [], fun _ _ => false, run⟩

/-- An instruction of control flow, repeat or waiting. -/
def auControl (op : Nat) (bad : Nat → Bool) (noBlock : Bool) (badStack : State → Nat → Bool) (run : Nat → Nat → State → State) : AuInstr :=
  ⟨op, bad, fun _ => false, true, noBlock, fun _ => [], fun _ _ _ => false, badStack, fun _ _ _ => [], fun _ _ => false, run⟩

/-- Stall cycles of an instruction behind the one before it (R328). -/
def auStall (x : Au) (i : AuInstr) (w : Nat) : Nat :=
  (if (i.op = 3 || i.op = 4) && x.prevAcc = some (bits w 25 25) then 2 else 0) +
    (match x.prevLoad with | some k => if (i.reads w).contains k then 1 else 0 | none => 0)

/-- One execution of the instruction at the program counter (R327, R334, R335, R342): nothing where the unit does not execute, an interrupt is due first, or the
word there is another instruction; a fault stops the unit; an instruction that waits leaves it WAITING; else it has its effect. `up` names what fails its
check, `waited` the cycles that a wait has lasted. -/
def auExec (u : Nat) (up : AuUpset) (waited : Nat) (i : AuInstr) (s : State) : State :=
  if !auLive s u || (auTakes s u).isSome then s
  else
    let x := auOf s u
    let w := auProg s u (rd s (.au u) F.AU_STAT_PC)
    if up.prog then auFault u 6 0 s
    else if !auAssigned (auOp w) then auFault u 1 0 s
    else if auOp w ≠ i.op then s
    else if i.bad w || (isCu u && i.badCu w) then auFault u 1 0 s
    else if x.slots.isSome && i.control then auFault u 2 0 s
    else if (x.rpt.isSome && i.control) || (x.block.isSome && i.noBlock) || i.badRepeat s u w then auFault u 3 0 s
    else if i.badStack s u then auFault u 4 0 s
    else match up.data with
    | some a =>
      if (i.words s u w).contains a then auFault u 5 a s else s
    | none =>
      if i.waits s u then setAuState u 2 s
      else
        let s := addWrap (addWrap s (.au u) F.AU_INSNS 1) (.au u) F.AU_STALLS (auStall x i w + waited)
        let s := setAuState u 1 s
        let s := i.run u w s
        let s := setAu s u { auOf s u with prevAcc := if i.op = 1 || i.op = 2 then some (bits w 25 25) else none,
                                           prevLoad := if i.op = 5 then some (bits w 24 22) else none }
        auHaltCheck u (auAdvance u x.rpt s)

/-! ### Addressing (R329, R330) -/

/-- PTR of an address register. -/
def arPtr (s : State) (u n : Nat) : Nat := rd s (.au u) (F.AU_AR_PTR n)

/-- A post-modify of an address register: 0 none, 1 +1, 2 −1, 3 +MOD (R329). -/
def postModify (u n code : Nat) (s : State) : State :=
  let p := Page.au u
  let step : Int := match code with
    | 1 => 1
    | 2 => -1
    | 3 => toSigned 14 (rd s p (F.AU_AR_MOD n))
    | _ => 0
  if code = 0 then s
  else
    let len := rd s p (F.AU_AR_LEN n)
    let base := rd s p (F.AU_AR_BASE n)
    let ptr : Int := (arPtr s u n : Nat)
    let v : Int := if len = 0 then (ptr + step) % 16384 else ((base : Int) + (ptr - base + step) % (len : Int)) % 16384
    wr s p (F.AU_AR_PTR n) v.toNat

/-! ### Accumulators (R331–R333) -/

/-- Real part of a complex word. -/
def cRe (w : Nat) : Int := toSigned 16 w

/-- Imaginary part of a complex word. -/
def cIm (w : Nat) : Int := toSigned 16 (w / 2 ^ 16)

/-- The exact product (R331). -/
def cMul (a b : Nat) (conj : Bool) : Int × Int :=
  let bi := if conj then -cIm b else cIm b
  (cRe a * cRe b - cIm a * bi, cRe a * bi + cIm a * cRe b)

/-- The exact sum lies outside 40 bits (R332). -/
def accOut (v : Int) : Bool := decide (v < -(2 ^ 39)) || decide ((2 : Int) ^ 39 ≤ v)

/-- What a part keeps of an exact sum (R332). -/
def accKeep (sat : Bool) (v : Int) : Nat :=
  if sat && accOut v then (if v < 0 then ofSigned 40 (-(2 ^ 39)) else 2 ^ 39 - 1) else ofSigned 40 v

/-- An accumulate into A0 or A1 (Table 12-2, R331, R332, R343). -/
def accumulate (u w : Nat) (prod : Int × Int) (s : State) : State :=
  let p := Page.au u
  let a := bits w 25 25
  let neg (v : Int) : Int := if w.testBit 23 then -v else v
  let old (f : Fld) : Int := if w.testBit 24 then 0 else toSigned 40 (rd s p f)
  let re := old (F.AU_A_RE a) + neg prod.1
  let im := old (F.AU_A_IM a) + neg prod.2
  let sat := rdb s p F.AU_CTRL_SAT_EN
  let anyOut := accOut re || (!isCu u && accOut im)
  let s := wr s p (F.AU_A_RE a) (accKeep sat re)
  let s := if isCu u then s else wr s p (F.AU_A_IM a) (accKeep sat im)
  if anyOut then raiseInt (wrb s p (if a = 0 then F.AU_FLAGS_OVF_A0 else F.AU_FLAGS_OVF_A1) true) p 12 else s

/-- The product a unit forms: complex, or of the real parts in a calibration unit (R343). -/
def auProduct (u a b w : Nat) : Int × Int := if isCu u then (cRe a * cRe b, 0) else cMul a b (w.testBit 22)

/-- A value divided by 2^SH and rounded convergently (R333). -/
def roundHalfEven (v : Int) (sh : Nat) : Int :=
  let d : Int := (2 : Int) ^ sh
  let q := v / d
  let r := v % d
  if 2 * r < d then q else if d < 2 * r then q + 1 else if q % 2 = 0 then q else q + 1

/-- A part rounded and saturated to 16 bits, and whether it saturated (R333). -/
def round16 (v : Int) (sh : Nat) : Nat × Bool :=
  let q := roundHalfEven v sh
  if q < -32768 then (0x8000, true) else if 32767 < q then (0x7FFF, true) else (ofSigned 16 q, false)

/-! ### Meanings: arithmetic and data (Table 12-2) -/

/-- CMAC. -/
def instrCmac : AuInstr :=
  { auPlain 0x01 (fun w => bits w 11 0 != 0) (fun _ => []) (fun u w s =>
      let a := auData s u (arPtr s u (bits w 21 19))
      let b := auData s u (arPtr s u (bits w 16 14))
      postModify u (bits w 16 14) (bits w 13 12) (postModify u (bits w 21 19) (bits w 18 17) (accumulate u w (auProduct u a b w) s))) with
    badCu := fun w => w.testBit 25
    words := fun s u w => [arPtr s u (bits w 21 19), arPtr s u (bits w 16 14)] }

/-- CMACX. -/
def instrCmacx : AuInstr :=
  { auPlain 0x02 (fun w => bits w 18 17 != 0 || bits w 11 0 != 0) (fun w => [bits w 21 19]) (fun u w s =>
      let b := auData s u (arPtr s u (bits w 16 14))
      postModify u (bits w 16 14) (bits w 13 12) (accumulate u w (auProduct u (auX s u (bits w 21 19)) b w) s)) with
    badCu := fun w => w.testBit 25
    words := fun s u w => [arPtr s u (bits w 16 14)] }

/-- RND. -/
def instrRnd : AuInstr :=
  { auPlain 0x03 (fun w => bits w 15 0 != 0 || decide (32 < bits w 21 16)) (fun _ => []) (fun u w s =>
      let p := Page.au u
      let a := bits w 25 25
      let re := round16 (toSigned 40 (rd s p (F.AU_A_RE a))) (bits w 21 16)
      let im := if isCu u then (0, false) else round16 (toSigned 40 (rd s p (F.AU_A_IM a))) (bits w 21 16)
      let s := setAuX u (bits w 24 22) (re.1 + im.1 * 2 ^ 16) s
      if re.2 || im.2 then wrb s p F.AU_FLAGS_RSAT true else s) with
    badCu := fun w => w.testBit 25 }

/-- MVA. -/
def instrMva : AuInstr :=
  { auPlain 0x04 (fun w => bits w 19 0 != 0) (fun _ => []) (fun u w s =>
      let p := Page.au u
      let a := bits w 25 25
      let part := bits w 21 20
      let v := rd s p (if part < 2 then F.AU_A_RE a else F.AU_A_IM a)
      setAuX u (bits w 24 22) (if part % 2 = 0 then v % 2 ^ 32 else ofSigned 32 (toSigned 8 (v / 2 ^ 32))) s) with
    badCu := fun w => w.testBit 25 || decide (2 ≤ bits w 21 20) }

/-- LD. -/
def instrLd : AuInstr :=
  { auPlain 0x05 (fun w => w.testBit 25 || bits w 16 0 != 0) (fun _ => []) (fun u w s =>
      let v := auData s u (arPtr s u (bits w 21 19))
      postModify u (bits w 21 19) (bits w 18 17) (setAuX u (bits w 24 22) v s)) with
    words := fun s u w => [arPtr s u (bits w 21 19)] }

/-- ST. -/
def instrSt : AuInstr :=
  auPlain 0x06 (fun w => w.testBit 25 || bits w 16 0 != 0) (fun w => [bits w 24 22]) (fun u w s =>
    postModify u (bits w 21 19) (bits w 18 17) (setAuData u (arPtr s u (bits w 21 19)) (auX s u (bits w 24 22)) s))

/-- LDI. -/
def instrLdi : AuInstr :=
  auPlain 0x07 (fun w => w.testBit 25 || bits w 20 16 != 0) (fun _ => []) (fun u w s =>
    let d := bits w 24 22
    setAuX u d (if w.testBit 21 then bits w 15 0 * 2 ^ 16 + auX s u d % 2 ^ 16 else bits w 15 0) s)

/-- Z and N from a 32-bit result (Table 12-1). -/
def setZN (u v : Nat) (s : State) : State := wrs s (.au u) [(F.AU_FLAGS_Z, b2n (decide (v % 2 ^ 32 = 0))), (F.AU_FLAGS_N, v / 2 ^ 31 % 2)]

/-- The result of an ALU function (Table 12-2). -/
def aluResult (fn a b : Nat) : Nat :=
  let sh := b % 32
  match fn with
  | 0 => (a + b) % 2 ^ 32
  | 1 => (a + 2 ^ 32 - b) % 2 ^ 32
  | 2 => a &&& b
  | 3 => a ||| b
  | 4 => a ^^^ b
  | 5 => a * 2 ^ sh % 2 ^ 32
  | 6 => ofSigned 32 (toSigned 32 a / (2 : Int) ^ sh)
  | 7 => a / 2 ^ sh
  | 8 => (a + 2 ^ 32 - b) % 2 ^ 32
  | _ =>
    let v := toSigned 32 a
    if v < -32768 then 0x8000 else if 32767 < v then 0x7FFF else ofSigned 16 v

/-- ALU. -/
def instrAlu : AuInstr :=
  auPlain 0x08 (fun w => decide (9 < bits w 25 22) || bits w 12 0 != 0) (fun w => bits w 18 16 :: if bits w 25 22 = 9 then [] else [bits w 15 13]) (fun u w s =>
    let fn := bits w 25 22
    let v := aluResult fn (auX s u (bits w 18 16)) (auX s u (bits w 15 13))
    setZN u v (if fn = 8 then s else setAuX u (bits w 21 19) v s))

/-- ADDI. -/
def instrAddi : AuInstr :=
  auPlain 0x09 (fun w => w.testBit 25 || bits w 21 16 != 0) (fun w => [bits w 24 22]) (fun u w s =>
    let d := bits w 24 22
    let v := ofSigned 32 ((auX s u d : Int) + toSigned 16 (bits w 15 0))
    setZN u v (setAuX u d v s))

/-- LDA (R330). -/
def instrLda : AuInstr :=
  auPlain 0x0A (fun w => bits w 19 17 != 0) (fun w => if w.testBit 20 then [bits w 16 14] else []) (fun u w s =>
    let n := bits w 25 23
    let f := match bits w 22 21 with | 0 => F.AU_AR_PTR n | 1 => F.AU_AR_BASE n | 2 => F.AU_AR_LEN n | _ => F.AU_AR_MOD n
    wr s (.au u) f (if w.testBit 20 then auX s u (bits w 16 14) % 2 ^ 14 else bits w 13 0))

/-- REFT with its fraction, in 2^-16 time units. -/
def auReft (s : State) (u : Nat) : Nat := rd s (.au u) F.AU_REFT * 2 ^ 16 + rd s (.au u) F.AU_REFT_FRAC

/-- Write REFT. -/
def setReft (u v : Nat) (s : State) : State := wrs s (.au u) [(F.AU_REFT, v / 2 ^ 16), (F.AU_REFT_FRAC, v % 2 ^ 16)]

/-- TAPD takes the oldest entry (R339, R340). -/
def tapTake (u xd xe : Nat) (s : State) : State :=
  match (auOf s u).tap with
  | [] => s
  | t :: _ =>
    let s := tapPop u s
    if t.mark then setAuX u xe t.info (setAuX u xd t.value s)
    else
      let p := Page.au u
      let x := auOf s u
      let s := setAu s u { x with firstRef := false }
      let s := if rdb s p F.AU_TAP_AUTOREF && x.firstRef then setReft u (t.value * 2 ^ 16) s else s
      let d : Int := (t.value : Int) - ((auReft s u + 2 ^ 15) / 2 ^ 16 : Nat)
      let lo : Int := -(2 ^ 31)
      let hi : Int := 2 ^ 31 - 1
      let s := if d < lo || hi < d then wrb s p F.AU_FLAGS_TAPSAT true else s
      let s := setAuX u xe t.info (setAuX u xd (ofSigned 32 (max lo (min d hi))) s)
      setReft u (auReft s u + rd s p F.AU_REFSTEP * 2 ^ 16 + rd s p F.AU_REFSTEP_FRAC) s

/-- TAPD (R339, R340): it stalls on an empty tap. -/
def instrTapd : AuInstr :=
  { auPlain 0x0B (fun w => w.testBit 25 || bits w 18 0 != 0) (fun _ => []) (fun u w s => tapTake u (bits w 24 22) (bits w 21 19) s) with
    waits := fun s u => (auOf s u).tap.isEmpty }

/-! ### Meanings: control (Table 12-2, R334, R335) -/

/-- A condition of Table 12-3. -/
def auCond (s : State) (u c : Nat) : Bool :=
  let p := Page.au u
  match c with
  | 0 => true
  | 1 => rdb s p F.AU_FLAGS_Z
  | 2 => !rdb s p F.AU_FLAGS_Z
  | 3 => rdb s p F.AU_FLAGS_N
  | 4 => !rdb s p F.AU_FLAGS_N
  | 5 => (auOf s u).tap.isEmpty
  | 6 => !(auOf s u).tap.isEmpty
  | _ => rdb s p F.AU_FLAGS_OVF_A0 || rdb s p F.AU_FLAGS_OVF_A1 || rdb s p F.AU_FLAGS_RSAT || rdb s p F.AU_FLAGS_TAPSAT

/-- A transfer takes effect after two delay slots (R334). -/
def setSlots (u : Nat) (t : Option Nat) (s : State) : State := setAu s u { auOf s u with slots := some (3, t) }

/-- BR. -/
def instrBr : AuInstr :=
  auControl 0x10 (fun w => decide (7 < bits w 25 22) || bits w 21 12 != 0) true (fun _ _ => false) (fun u w s =>
    setSlots u (if auCond s u (bits w 25 22) then some (bits w 11 0) else none) s)

/-- CALL: the address after the second delay slot is pushed. -/
def instrCall : AuInstr :=
  auControl 0x11 (fun w => bits w 25 12 != 0) true (fun s u => decide (8 ≤ (auOf s u).stack.length)) (fun u w s =>
    let s := putAu u { auOf s u with stack := (rd s (.au u) F.AU_STAT_PC + 3) % 4096 :: (auOf s u).stack } s
    setSlots u (some (bits w 11 0)) s)

/-- The return address leaves the stack. -/
def auReturn (u : Nat) (s : State) : State :=
  let x := auOf s u
  setSlots u (x.stack.head?) (putAu u { x with stack := x.stack.drop 1 } s)

/-- RET. -/
def instrRet : AuInstr :=
  auControl 0x12 (fun w => bits w 25 0 != 0) true (fun s u => (auOf s u).stack.isEmpty) (fun u _ s => auReturn u s)

/-- RETI. -/
def instrReti : AuInstr :=
  auControl 0x13 (fun w => bits w 25 0 != 0) true (fun s u => (auOf s u).stack.isEmpty) (fun u _ s => wrb (auReturn u s) (.au u) F.AU_STAT_IE true)

/-- RPT. -/
def instrRpt : AuInstr :=
  auControl 0x14 (fun w => bits w 25 16 != 0 || bits w 15 0 == 0) false (fun _ _ => false) (fun u w s =>
    setAu s u { auOf s u with rpt := some (bits w 15 0) })

/-- RPTR: with COUNT 0 the next instruction is passed over. -/
def instrRptr : AuInstr :=
  { auControl 0x15 (fun w => w.testBit 25 || bits w 21 0 != 0) false (fun _ _ => false) (fun u w s =>
      let n := auX s u (bits w 24 22) % 2 ^ 16
      if n = 0 then auAdvance u none s else setAu s u { auOf s u with rpt := some n }) with
    reads := fun w => [bits w 24 22] }

/-- RPTB: END below the next instruction raises REPEAT. -/
def instrRptb : AuInstr :=
  { auControl 0x16 (fun w => bits w 25 12 == 0) true (fun _ _ => false) (fun u w s =>
      setAu s u { auOf s u with block := some ((rd s (.au u) F.AU_STAT_PC + 1) % 4096, bits w 11 0, bits w 25 12) }) with
    badRepeat := fun s u w => decide (bits w 11 0 < rd s (.au u) F.AU_STAT_PC + 1) }

/-- WAIT: idle until an enabled interrupt is pending or the tap is not empty. -/
def instrWait : AuInstr :=
  { auControl 0x18 (fun w => bits w 25 0 != 0) false (fun _ _ => false) (fun _ _ s => s) with
    waits := fun s u => (auPending s u).isNone && (auOf s u).tap.isEmpty }

/-- HALT: the unit enters HALTED and raises DONE (R341). -/
def instrHalt : AuInstr :=
  auControl 0x19 (fun w => bits w 25 0 != 0) false (fun _ _ => false) (fun u _ s =>
    raiseInt (setAuState u 0 (setAu s u { auOf s u with haltReq := false })) (.au u) 8)

/-- SIG. -/
def instrSig : AuInstr :=
  auPlain 0x1A (fun w => bits w 25 8 != 0) (fun _ => []) (fun u w s => raiseInt (wr s (.au u) F.AU_MSG_CODE (bits w 7 0)) (.au u) 9)

/-- CLRF. -/
def instrClrf : AuInstr :=
  auPlain 0x1B (fun w => bits w 25 4 != 0) (fun _ => []) (fun u w s =>
    forS [(0, F.AU_FLAGS_OVF_A0), (1, F.AU_FLAGS_OVF_A1), (2, F.AU_FLAGS_RSAT), (3, F.AU_FLAGS_TAPSAT)]
      (fun b s => if w.testBit b.1 then wrb s (.au u) b.2 false else s) s)

/-- NOP (R327). -/
def execAuNop (u : Nat) (up : AuUpset) (s : State) : Host.Outcome State Fault Refusal :=
  .next (auExec u up 0 (auPlain 0x00 (fun w => bits w 25 0 != 0) (fun _ => []) fun _ _ s => s) s)

/-- CMAC (R331). -/
def execCmac (u : Nat) (up : AuUpset) (s : State) : Host.Outcome State Fault Refusal := .next (auExec u up 0 instrCmac s)

/-- CMACX (R327). -/
def execCmacx (u : Nat) (up : AuUpset) (s : State) : Host.Outcome State Fault Refusal := .next (auExec u up 0 instrCmacx s)

/-- RND (R333). -/
def execRnd (u : Nat) (up : AuUpset) (s : State) : Host.Outcome State Fault Refusal := .next (auExec u up 0 instrRnd s)

/-- MVA (R327). -/
def execMva (u : Nat) (up : AuUpset) (s : State) : Host.Outcome State Fault Refusal := .next (auExec u up 0 instrMva s)

/-- LD (R327). -/
def execLd (u : Nat) (up : AuUpset) (s : State) : Host.Outcome State Fault Refusal := .next (auExec u up 0 instrLd s)

/-- ST (R327). -/
def execSt (u : Nat) (up : AuUpset) (s : State) : Host.Outcome State Fault Refusal := .next (auExec u up 0 instrSt s)

/-- LDI (R327). -/
def execLdi (u : Nat) (up : AuUpset) (s : State) : Host.Outcome State Fault Refusal := .next (auExec u up 0 instrLdi s)

/-- ALU (R327). -/
def execAlu (u : Nat) (up : AuUpset) (s : State) : Host.Outcome State Fault Refusal := .next (auExec u up 0 instrAlu s)

/-- ADDI (R327). -/
def execAddi (u : Nat) (up : AuUpset) (s : State) : Host.Outcome State Fault Refusal := .next (auExec u up 0 instrAddi s)

/-- LDA (R330). -/
def execLda (u : Nat) (up : AuUpset) (s : State) : Host.Outcome State Fault Refusal := .next (auExec u up 0 instrLda s)

/-- TAPD (R340), with the cycles it has waited. -/
def execTapd (u : Nat) (up : AuUpset) (waited : Nat) (s : State) : Host.Outcome State Fault Refusal := .next (auExec u up waited instrTapd s)

/-- BR (R334). -/
def execBr (u : Nat) (up : AuUpset) (s : State) : Host.Outcome State Fault Refusal := .next (auExec u up 0 instrBr s)

/-- CALL (R334). -/
def execAuCall (u : Nat) (up : AuUpset) (s : State) : Host.Outcome State Fault Refusal := .next (auExec u up 0 instrCall s)

/-- RET (R334). -/
def execAuRet (u : Nat) (up : AuUpset) (s : State) : Host.Outcome State Fault Refusal := .next (auExec u up 0 instrRet s)

/-- RETI (R334). -/
def execReti (u : Nat) (up : AuUpset) (s : State) : Host.Outcome State Fault Refusal := .next (auExec u up 0 instrReti s)

/-- RPT (R335). -/
def execAuRpt (u : Nat) (up : AuUpset) (s : State) : Host.Outcome State Fault Refusal := .next (auExec u up 0 instrRpt s)

/-- RPTR (R335). -/
def execRptr (u : Nat) (up : AuUpset) (s : State) : Host.Outcome State Fault Refusal := .next (auExec u up 0 instrRptr s)

/-- RPTB (R335). -/
def execRptb (u : Nat) (up : AuUpset) (s : State) : Host.Outcome State Fault Refusal := .next (auExec u up 0 instrRptb s)

/-- WAIT (R327), with the cycles it has waited. -/
def execWait (u : Nat) (up : AuUpset) (waited : Nat) (s : State) : Host.Outcome State Fault Refusal := .next (auExec u up waited instrWait s)

/-- HALT (R341). -/
def execAuHaltInstruction (u : Nat) (up : AuUpset) (s : State) : Host.Outcome State Fault Refusal := .next (auExec u up 0 instrHalt s)

/-- SIG (R327). -/
def execSig (u : Nat) (up : AuUpset) (s : State) : Host.Outcome State Fault Refusal := .next (auExec u up 0 instrSig s)

/-- CLRF (R332). -/
def execClrf (u : Nat) (up : AuUpset) (s : State) : Host.Outcome State Fault Refusal := .next (auExec u up 0 instrClrf s)

/-! ### Run control (R341, R344) -/

/-- The register file of a unit clears. -/
def clearRegs (u : Nat) (s : State) : State :=
  let s := forS (List.range 8) (fun k s => wrs s (.au u) [(F.AU_X k, 0), (F.AU_AR_PTR k, 0), (F.AU_AR_BASE k, 0), (F.AU_AR_LEN k, 0), (F.AU_AR_MOD k, 0)]) s
  wrs s (.au u) [(F.AU_A_RE 0, 0), (F.AU_A_IM 0, 0), (F.AU_A_RE 1, 0), (F.AU_A_IM 1, 0)]

/-- The flags of a unit clear. -/
def clearFlags (u : Nat) (s : State) : State :=
  wrs s (.au u) [(F.AU_FLAGS_OVF_A0, 0), (F.AU_FLAGS_OVF_A1, 0), (F.AU_FLAGS_RSAT, 0), (F.AU_FLAGS_TAPSAT, 0), (F.AU_FLAGS_Z, 0), (F.AU_FLAGS_N, 0)]

/-- RESET in HALTED or FAULT clears the register file, the call stack, the flags and the tap (R341). -/
def auReset (u : Nat) (s : State) : State :=
  if auStopped s u then putAu u { auOf s u with stack := [], tap := [], lost := 0 } (clearFlags u (clearRegs u s)) else s

/-- GO starts the unit at `AU_START` with the IE written (R341). -/
def auGo (u : Nat) (s : State) : State :=
  let p := Page.au u
  let s := setAu s u { auOf s u with slots := none, rpt := none, block := none, haltReq := false, firstRef := true, prevAcc := none, prevLoad := none }
  wrs s p [(F.AU_STAT_STATE, 1), (F.AU_STAT_PC, rd s p F.AU_START), (F.AU_STAT_IE, rd s p F.AU_CTRL_IE)]

/-- A host HALT: at the next boundary, IE aside (R341). -/
def auHalt (u : Nat) (s : State) : State := if auLive s u then auHaltCheck u (setAu s u { auOf s u with haltReq := true }) else s

/-- A write of `AU_CTRL` (R341, R344): GO with HALT, or GO in another state than HALTED and FAULT, refuses the whole write. -/
def auCtrl (m u word : Nat) (s : State) : State :=
  let p := Page.au u
  let go := word.testBit 0
  let halt := word.testBit 1
  if auClearing s u then s
  else if cuHeld s m u then writeLocked s p
  else if (go && halt) || (go && !auStopped s u) then fltEvent s p 1
  else
    let s := wrs s p [(F.AU_CTRL_SAT_EN, bits word 3 3), (F.AU_CTRL_IE, bits word 4 4)]
    let s := if word.testBit 2 then auReset u s else s
    let s := if halt then auHalt u s else s
    if go then auGo u s else s

/-- AU_GO (R341): the write has GO set. -/
def execAuGo (m u word : Nat) (s : State) : Host.Outcome State Fault Refusal := .next (takeIn m (.auGo m u word) false (fun s => asWriter s m (.au u) F.AU_CTRL_GO.off false (auCtrl m u (setBit word 0))) s)

/-- AU_HALT (R341): the write has HALT set. -/
def execAuHalt (m u word : Nat) (s : State) : Host.Outcome State Fault Refusal := .next (takeIn m (.auHalt m u word) false (fun s => asWriter s m (.au u) F.AU_CTRL_GO.off false (auCtrl m u (setBit word 1))) s)

/-- AU_RESET (R341): the write has RESET set. -/
def execAuReset (m u word : Nat) (s : State) : Host.Outcome State Fault Refusal := .next (takeIn m (.auReset m u word) false (fun s => asWriter s m (.au u) F.AU_CTRL_GO.off false (auCtrl m u (setBit word 2))) s)

/-- AU_DOORBELL (R336): HOST becomes pending. -/
def execAuDoorbell (m u word : Nat) (s : State) : Host.Outcome State Fault Refusal :=
  .next (takeIn m (.auDoorbell m u word) false
    (fun s => asWriter s m (.au u) F.AU_DOORBELL.off false (fun s => if auClearing s u || !word.testBit 0 then s else setAu s u { auOf s u with host := true })) s)

/-- A write of `AU_ASSIGN.PART` (R324): refused outside HALTED and FAULT; a change begins CLEARING. Reserved in pages 16 to 18. -/
def assignEffect (u word : Nat) (s : State) : State :=
  let p := Page.au u
  if 16 ≤ u || auClearing s u then s
  else if !auStopped s u then fltEvent s p 1
  else if rd s p F.AU_ASSIGN_PART = word % 4 then s
  else reraise (wrs s p [(F.AU_ASSIGN_PART, word % 4), (F.AU_ASSIGN_CLEARING, 1)]) p (List.range 32)

/-- AU_ASSIGN_WRITE (R324). -/
def execAuAssignWrite (m u word : Nat) (s : State) : Host.Outcome State Fault Refusal := .next (takeIn m (.auAssignWrite m u word) false (fun s => asWriter s m (.au u) F.AU_ASSIGN_PART.off true (assignEffect u word)) s)

/-- AU_CLEAR_DONE (R324): memories, register file, tap, REFT and flags are zero, and no return address is left. -/
def execAuClearDone (u : Nat) (s : State) : Host.Outcome State Fault Refusal :=
  .next (if auClearing s u then
    let s := clearFlags u (clearRegs u s)
    let s := putAu u { auOf s u with prog := [], data := [], stack := [], tap := [], lost := 0 } s
    wrb (setReft u 0 s) (.au u) F.AU_ASSIGN_CLEARING false
  else s)

/-- A host read of the data window (R342, R346): `bad` is an uncorrectable word. A page that is clearing reads zero but for the privileged master. -/
def execAuDataWindowRead (m u idx : Nat) (bad : Bool) (s : State) : Host.Outcome State Fault Refusal :=
  .next (takeIn m (.auDataWindowRead m u idx bad) false (fun s => let p := Page.au u
    if mayRead s m p (0x8000 + 4 * idx) false then
      let s := emit s (.read m (auData s u (8192 * rd s p F.AU_DWIN_HALF + idx)))
      if bad then wearNote 4 u (aonNow s) (raiseInt (fltEvent s p 2) p 2) else s
    else emit s (.read m 0)) s)

/-! ### The spare unit (R31, R345) -/

/-- AU_SPARE_WRITE (R345): the completed pair names the unit; the substitution waits for SPARE_SUBSTITUTION. -/
def execAuSpareWrite (m comp : Nat) (s : State) : Host.Outcome State Fault Refusal :=
  .next (takeIn m (.auSpareWrite m comp) false
    (fun s => pairComplete m (.au 16) F.AU_SPARE_UNIT.off comp (fun v s => wrs s (.au 16) [(F.AU_SPARE_UNIT, bits v 3 0), (F.AU_SPARE_VALID, bits v 4 4)]) s) s)

/-- The mapping that `AU_SPARE` names. -/
def auSpareNamed (s : State) : Option Nat := if rdb s (.au 16) F.AU_SPARE_VALID then some (rd s (.au 16) F.AU_SPARE_UNIT) else none

/-- The unit that a substitution copies, and the mapping after the copy (R345): a replaced unit that `AU_SPARE` no longer names returns to its own hardware first; then the
named unit is replaced. -/
def auSubstUnit (s : State) : Option (Nat × Option Nat) :=
  if auSpareNamed s = s.au.spare then none
  else match s.au.spare with
    | some u => some (u, none)
    | none => (auSpareNamed s).map fun u => (u, some u)

/-- The substitution begins once the unit is HALTED or in FAULT with its tap off (R31, R345). -/
def auSubstitute (s : State) : State :=
  match auSubstUnit s with
  | none => s
  | some (u, map) =>
    if auStopped s u && !rdb s (.au u) F.AU_TAP_EN && s.au.subst.isNone then
      let prev := auState s u
      setAuState u 4 { s with au := { s.au with subst := some (u, map, prev) } }
    else s

/-- The register fields that the copy of R345 takes. -/
def auCopyFields : List Fld :=
  ((List.range 8).flatMap fun k => [F.AU_X k, F.AU_AR_PTR k, F.AU_AR_BASE k, F.AU_AR_LEN k, F.AU_AR_MOD k]) ++
  [F.AU_A_RE 0, F.AU_A_IM 0, F.AU_A_RE 1, F.AU_A_IM 1, F.AU_REFT, F.AU_REFT_FRAC, F.AU_REFSTEP, F.AU_REFSTEP_FRAC, F.AU_START, F.AU_IEN_HOST,
   F.AU_IEN_TAP, F.AU_FLAGS_OVF_A0, F.AU_FLAGS_OVF_A1, F.AU_FLAGS_RSAT, F.AU_FLAGS_TAPSAT, F.AU_FLAGS_Z, F.AU_FLAGS_N, F.AU_INSNS, F.AU_STALLS,
   F.AU_TAP_LOST, F.AU_TAP_OFF]

/-- AU_SUBST_DONE (R345): the mapping is in force and the unit returns to its previous state; no value of its page changes, and the AU16 page reaches the
hardware that the copy left. After the return of a unit that another takes the place of, the substitution of that one begins as soon as it may. -/
def execAuSubstDone (s : State) : Host.Outcome State Fault Refusal :=
  .next (match s.au.subst with
    | none => s
    | some (u, map, prev) =>
      let s := setAuState u prev { s with au := { s.au with spare := map, subst := none } }
      let s := wrs s (.au 16) (auCopyFields.map fun f => (f, rd s (.au u) f))
      let s := setAu s 16 { auOf s 16 with prog := (auOf s u).prog, data := (auOf s u).data }
      let s := wrb s (.au 16) F.AU_SPARE_ACTIVE map.isSome
      if map.isNone then auSubstitute s else if propApproved s 4 u then propDone 4 u s else s)

end Sys2Proof.Machine
end

