-- ==== Sys2Proof/Machine/Edge.lean ====
section
/-! DEFINITION. Edge measurement (chapter 11): the converter path, stamps and their credits, the stamp stream and its ring, frequency counting. -/

namespace Sys2Proof.Machine

open Sys2Proof

/-! ### The stamp stream and its ring (R311, R312, R316) -/

/-- MODE (STOP) and SIZE that the ring works by: those of its register, or after EN was cleared those that stood then. -/
def ringCfgOf (s : State) (b : Nat) : Bool × Nat :=
  (sringOf s b).drainCfg.getD (rdb s (.bnk b) F.EDG_SR_CTRL_MODE, rd s (.bnk b) F.EDG_SR_CTRL_SIZE)

/-- The ring is full: STOP mode, and every place holds an entry not yet consumed. -/
def ringFull (s : State) (b : Nat) : Bool :=
  (ringCfgOf s b).1 && decide (2 ^ (ringCfgOf s b).2 ≤ rd s (.bnk b) F.EDG_SR_WCNT - rd s (.bnk b) F.EDG_SR_RCNT)

/-- `EDG_SR_STAT` shows the stream buffer and fullness. -/
def ringStat (b : Nat) (s : State) : State :=
  wrs s (.bnk b) [(F.EDG_SR_STAT_QLEVEL, (sringOf s b).queue.length), (F.EDG_SR_STAT_FULL, b2n (ringFull s b))]

/-- Base address of the ring. -/
def stampBase (s : State) (b : Nat) : Nat := rd s (.bnk b) F.EDG_SR_BASE_HI * 2 ^ 32 + rd s (.bnk b) F.EDG_SR_BASE_LO * 2 ^ 12

/-- An entry joins the stream of an enabled ring. -/
def streamPush (b entry : Nat) (s : State) : State :=
  if rdb s (.bnk b) F.EDG_SR_CTRL_EN then
    let x := sringOf s b
    ringStat b (setSring s b { x with queue := x.queue ++ [entry] })
  else s

/-- An era marker (Table 11-1). -/
def eraEntry (i era : Nat) : Nat := era % 2 ^ 48 + i * 2 ^ 48 + 2 ^ 62

/-- An entry is written to the ring in memory class 2, and `EDG_SR_WCNT` advances; SR_FULL is raised when the ring becomes full (R316). -/
def ringPut (b entry : Nat) (s : State) : State :=
  let p := Page.bnk b
  let n := rd s p F.EDG_SR_WCNT
  let s := writeMem s (bankOwner s b) (stampBase s b + 8 * (n % 2 ^ (ringCfgOf s b).2)) 8 entry
  let s := wr s p F.EDG_SR_WCNT (n + 1)
  if ringFull s b then raiseInt s p 15 else s

/-- An entry leaves the stream's buffer: behind an era marker, stamps of its site are of that era (R312). -/
def ringPop (b e : Nat) (rest : List Nat) (s : State) : State :=
  let x := sringOf s b
  setSring s b { x with queue := rest, passed := if e / 2 ^ 62 = 1 then tabPut 0 x.passed (e / 2 ^ 48 % 64) (e % 2 ^ 48) else x.passed }

/-- The next write of the stream (R316): after a loss, a loss marker once a place is free and behind it, for every RUNNING site, the marker of the era in which the stream goes on; an
entry that meets a full ring is lost and counts `SR_DROP`, but after EN was cleared the drain waits for a place (R274). -/
def ringWrite (b : Nat) (s : State) : State :=
  let x := sringOf s b
  if x.lost ≠ 0 && !ringFull s b then
    let eras := ((sitesOfBank s b).filter fun i => siteState s i = 3).map fun i => eraEntry i (tabGet 0 x.passed i)
    let s := setSring s b { x with lost := 0, queue := eras ++ x.queue }
    ringStat b (ringPut b (min x.lost 0xFFFFFFFF + 2 * 2 ^ 62) s)
  else match x.queue with
    | [] => s
    | e :: rest =>
      if ringFull s b && x.drainCfg.isSome then s
      else
        let y := ringPop b e rest s
        if ringFull s b then ringStat b (incSat (setSring y b { sringOf y b with lost := x.lost + 1 }) (.bnk b) F.SR_DROP)
        else ringStat b (ringPut b e y)

/-- STAMP_RING_WRITE (R316). -/
def execStampRingWrite (b : Nat) (s : State) : Host.Outcome State Fault Refusal :=
  .next (if memServes s 2 then ringWrite b s else s)

/-- Entries or a loss marker are left after EN was cleared (R274, R316). -/
def ringDraining (s : State) (b : Nat) : Bool :=
  !rdb s (.bnk b) F.EDG_SR_CTRL_EN && (!(sringOf s b).queue.isEmpty || decide ((sringOf s b).lost ≠ 0))

/-- A write of `EDG_SR_CTRL` (R316, by the rules of R274); SR_FULL is raised where it makes the ring full. -/
def stampCtrlEffect (b word : Nat) (s : State) : State :=
  let p := Page.bnk b
  let was := rdb s p F.EDG_SR_CTRL_EN
  let en := word.testBit 0
  let size := bits word 12 8
  if bankBusy s b then fltEvent s p 12
  else if en && (decide (size < 8) || decide (26 < size) || !inQuota s (bankOwner s b) (stampBase s b) (8 * 2 ^ size)) then fltEvent s p 12
  else if en && ringDraining s b then fltEvent s p 12
  else
    let full := ringFull s b
    let s := if was && !en then setSring s b { sringOf s b with drainCfg := some (ringCfgOf s b) } else s
    let s := wrs s p [(F.EDG_SR_CTRL_EN, b2n en), (F.EDG_SR_CTRL_MODE, bits word 1 1), (F.EDG_SR_CTRL_SIZE, size)]
    let s := if en && !was then setSring (wrs s p [(F.EDG_SR_WCNT, 0), (F.EDG_SR_RCNT, 0)]) b sringInit else s
    let s := ringStat b s
    if !full && ringFull s b then raiseInt s p 15 else s

/-- STAMP_RING_CTRL_WRITE (R316). -/
def execStampRingCtrlWrite (m b word : Nat) (s : State) : Host.Outcome State Fault Refusal :=
  .next (takeIn m (.stampRingCtrlWrite m b word) false (fun s => asWriter s m (.bnk b) F.EDG_SR_CTRL_EN.off false (stampCtrlEffect b word)) s)

/-- A write of `EDG_SR_RCNT` (R316, R278): refused below its value or above WCNT. -/
def stampRcntEffect (b v : Nat) (s : State) : State :=
  let p := Page.bnk b
  if v < rd s p F.EDG_SR_RCNT || rd s p F.EDG_SR_WCNT < v then fltEvent s p 12 else ringStat b (wr s p F.EDG_SR_RCNT v)

/-- STAMP_RING_RCNT_WRITE (R316). -/
def execStampRingRcntWrite (m b v : Nat) (s : State) : Host.Outcome State Fault Refusal :=
  .next (takeIn m (.stampRingRcntWrite m b v) false (fun s => asWriter s m (.bnk b) F.EDG_SR_RCNT.off false (stampRcntEffect b v)) s)

/-- The next era marker of a site joins a bank's stream (R312). -/
def eraPush (b i : Nat) (s : State) : State :=
  let n := tabGet 0 s.pin.eras (16 * i + b)
  streamPush b (eraEntry i n) { s with pin := { s.pin with eras := tabPut 0 s.pin.eras (16 * i + b) (n + 1) } }

/-- Era markers stand before every stamp of their era (R312): those not yet in the stream join it, up to the era of a vector time in units of 2^-32 ns. -/
def eraUpTo (b i t : Nat) (s : State) : State :=
  forS (List.range (t / 2 ^ 64 + 1 - tabGet 0 s.pin.eras (16 * i + b))) (fun _ s => eraPush b i s) s

/-- ERA_MARKER (R312): at the epoch of a RUNNING site, and at each multiple of 2^48 units that its vector time reaches by the end of the present vector. -/
def execEraMarker (b site : Nat) (s : State) : Host.Outcome State Fault Refusal :=
  .next (if siteState s site = 3 && (sitesOfBank s b).contains site &&
      decide (tabGet 0 s.pin.eras (16 * site + b) * 2 ^ 64 ≤ (vecEnd (siteOf s site)).1) then eraPush b site s else s)

/-! ### The converter path (R305–R310, R313–R315) -/

/-- The vector time of an edge of a site as its stamp gives it: steps of 0.25 ps, as time units; TIME is this modulo 2^48 (R310, R312). -/
def stampTime (s : State) (i t : Nat) : Nat := (edgeStep (t - epochAt s i) * 2048 * 2 + 125) / 250

/-- A stamp or frequency count of a pin is lost or ignored: SKIP is due (R307, R308, R318). In the safe state the pin's input is ignored (R229). -/
def convSkip (p : Nat) (f : Fld) (s : State) : State :=
  if rdb s (.bnk (p / 16)) (F.EDG_PIN_CFG_EN (p % 16)) && !pinSafe s p then
    setConv (incSat s (.bnk (p / 16)) f) p { convOf s p with skip := true, fcSkip := true }
  else s

/-- An accepted edge enters the gate of the frequency counter, at its step of 0.25 ps (R318). -/
def fcEdge (p t : Nat) (s : State) : State :=
  let x := convOf s p
  if x.fcOn then
    match x.fcFirst with
    | none => setConv s p { x with fcFirst := some (edgeStep t), fcLast := edgeStep t }
    | some _ => setConv s p { x with fcLast := edgeStep t, fcN := x.fcN + 1 }
  else s

/-- An edge without a credit is not delivered (R313): STAMP_LOST is raised at the first after EN was set or `EDG_LOST` was read nonzero. -/
def stampLost (p : Nat) (s : State) : State :=
  let pg := Page.bnk (p / 16)
  let x := convOf s p
  let s := setConv (incSat s pg (F.EDG_LOST (p % 16))) p { x with loss := true, lossQuiet := true }
  if x.lossQuiet then s else raiseInt (fltEvent s pg 13) pg 13

/-- The unit whose tap takes the pin's stamps: with AU_EN, and assigned to the partition that owns the bank (R317, R338). -/
def tapOf (s : State) (p : Nat) : Option Nat :=
  let pg := Page.bnk (p / 16)
  let u := rd s pg (F.EDG_PIN_CFG_AU (p % 16))
  if rdb s pg (F.EDG_PIN_CFG_AU_EN (p % 16)) && rd s (.au u) F.AU_ASSIGN_PART = bankOwner s (p / 16) then some u else none

/-- An accepted edge of a pin of a RUNNING site is delivered to the ring, the tap or both, where it has a credit (R313, R315, R317). -/
def deliverStamp (p i t : Nat) (rising idle : Bool) (s : State) : State :=
  if pageSafe s .edg then s else
  let b := p / 16
  let j := p % 16
  let pg := Page.bnk b
  let x := convOf s p
  let ring := rdb s pg (F.EDG_PIN_CFG_RING j)
  let tap := tapOf s p
  if !ring && tap.isNone then s
  else if 64 ≤ x.used || (ring && decide (1024 ≤ (sringOf s b).queue.length)) then stampLost p s
  else
    let time := stampTime s i t
    let s := eraUpTo b i (time * 65536) s
    let flags := b2n rising + 2 * b2n x.skip + 4 * b2n x.loss + 8 * b2n idle
    let presc := b2n (decide (0 < rd s pg (F.EDG_PIN_CFG_PRE j)))
    let s := addWrap (setConv s p { x with used := x.used + 1, skip := false, loss := false }) pg (F.EDG_STAMPS j) 1
    let s := if ring then streamPush b (time % 2 ^ 48 + p * 2 ^ 48 + flags * 2 ^ 56 + presc * 2 ^ 60) s else s
    match tap with
    | some u => tapArrive u ⟨time % 2 ^ 64, p + flags * 2 ^ 8, false⟩ s
    | none => s

/-- The perturbation slot that jitters a pin's edges (Table 20-7, STAMP_JITTER). -/
def jitterSlot (s : State) (p : Nat) : Option Nat :=
  if pageSafe s .ptb || !pageOn s .ptb then none
  else (List.range 16).find? fun k =>
    rdb s .ptb (F.PTB_CTRL_EN k) && rd s .ptb (F.PTB_CTRL_TYPE k) == 10 && rd s .ptb (F.PTB_CTRL_A k) == p / 16 &&
      (rd s .ptb (F.PTB_CTRL_B k)).testBit (p % 16)

/-- The delay that a perturbation adds to an accepted edge: a free value of 0 to MAG steps of 0.25 ps, in 2^-32 ns (Table 20-7, log 3). -/
def jitterOf (s : State) (p : Nat) : Nat :=
  match jitterSlot s p with
  | some k => freeNow s % (rd s .ptb (F.PTB_MAG k) + 1) * 2 ^ 32 / 4000
  | none => 0

/-- The injection is counted, and the free value drawn. -/
def jitterDone (p : Nat) (s : State) : State :=
  match jitterSlot s p with
  | some k => freeStep (incSat s .ptb (F.PTB_COUNT k))
  | none => s

/-- A pin slot is the follow pin of a bank in follow mode (R246). -/
def followPin (s : State) (p : Nat) : Bool :=
  rdb s (.bnk (p / 16)) F.BNK_FOLLOW_EN && rd s (.bnk (p / 16)) F.BNK_FOLLOW_PIN == p % 16

/-- An accepted edge of the follow pin waits for the tracking loop, in any site state (R246, R315). -/
def followTake (p t : Nat) (s : State) : State :=
  if followPin s p then
    let x := bankOf s (p / 16)
    setBank s (p / 16) { x with follow := { x.follow with edges := x.follow.edges ++ [t] } }
  else s

/-- An accepted edge of a running converter with EN set reaches its other consumers (R310, R315): the frequency counter in any site state, and while the site runs its mask
test and its stamp. -/
def useEdge (p t : Nat) (rising : Bool) (s : State) : State :=
  let s := fcEdge p t (addWrap s (.bnk (p / 16)) (F.EDG_ACCEPTED (p % 16)) 1)
  match siteOfQuad s (p / 4) with
  | none => s
  | some i =>
    if siteState s i = 3 && epochAt s i ≤ t then
      let idle := ((siteOf s i).cur.map fun c => c.cls == .idle).getD true
      deliverStamp p i t rising idle (maskEdge p i (stampTime s i t * 65536) rising s)
    else s

/-- The key of a table in force. -/
def calKey (cls b slot : Nat) : Nat := (cls * 16 + b) * 32 + slot

/-- The values of a payload (Table 13-4): the boundaries, the corrections, the paths of both modes. -/
def calLength (cls : Nat) : Nat := if cls = 1 then 769 else if cls = 2 then 2001 else 8

/-- The values in force of an instance (R359): those of its record, or where the class has none the nominal ones; none before a boot has restored them. -/
def calTable (s : State) (cls b slot : Nat) : List Int :=
  match tabFind s.cal.tables (calKey cls b slot) with
  | some l => l
  | none => if (rd s .calDev (F.CAL_BANK_NOMINAL b)).testBit (cls - 1) then (List.range (calLength cls)).map (Config.calNominal cls b slot) else []

/-- The instance of a pin's converter in its bank: 16 where the spare takes its place (R319, Table 13-4). -/
def convSlot (s : State) (p : Nat) : Nat := if (bankOf s (p / 16)).convSpare = some (p % 16) then 16 else p % 16

/-- The time that a converter gives an edge (R350): the middle of the interval of its fine code, which is the interval of the boundaries in force that holds the instant,
counted from a multiple of the BPL period (1/6 ns); in 2^-32 ns, rounded down. With no boundaries in force, before a boot has restored them, the instant itself (log 103). -/
def fineTime (s : State) (p t : Nat) : Nat :=
  let b := calTable s 1 (p / 16) (convSlot s p)
  let phase : Nat := 6 * t % 2 ^ 32 * 166667 / 2 ^ 32
  match (b.zip (b.drop 1)).find? fun x => decide (x.1 ≤ (phase : Int)) && decide ((phase : Int) < x.2) with
  | none => t
  | some x => (6 * t / 2 ^ 32 * 2 ^ 32 + ((x.1 + x.2) * 2 ^ 32 / 333334).toNat) / 6

/-- An edge is accepted (R307, R310, R315); the hold-off that its register holds counts from it (R308). In the safe state of the pin no consumer but the tracking loop takes
it (R229, and the example of chapter 17, where a followed edge ends the hold of a bank in its safe state). -/
def acceptEdge (p t0 : Nat) (rising : Bool) (s : State) : State :=
  let b := p / 16
  let at_ := t0 + jitterOf s p
  let s := jitterDone p s
  let s := setConv s p { convOf s p with lastAt := some at_, hold := rd s (.bnk b) (F.EDG_PIN_HOLDOFF (p % 16)) }
  let t := fineTime s p at_
  let s := followTake p t s
  if rdb s (.bnk b) (F.EDG_PIN_CFG_EN (p % 16)) && !pinSafe s p then useEdge p t rising s else s

/-- The class of calibration that has a bank's converters (R350, R352, R353). -/
def calRunAt (s : State) (b : Nat) : Option CalRun := s.cal.runs.find? fun r => r.bank == b && !r.accepted

/-- The converter of a pin runs (R229, R309): EN is set, and the pin is not in the safe state; or the pin is the follow pin of a bank in follow mode; the bank's power domain
is on, and no class of calibration has the bank's converters (R350, R352, R353). -/
def convRuns (s : State) (p : Nat) : Bool :=
  (rd s .pwrDev F.PWR_DOM_ON).testBit (p / 16) && (calRunAt s (p / 16)).isNone &&
    ((rdb s (.bnk (p / 16)) (F.EDG_PIN_CFG_EN (p % 16)) && !pinSafe s p) || followPin s p)

/-- A transition counts at a converter (R246, R305): at the input that SRC selects, in the direction that EDGE selects; for the follow pin at CMH, in the direction of FALL.
CML is unused in direct mode. -/
def edgeSelected (s : State) (p : Nat) (cml rising : Bool) : Bool :=
  let pg := Page.bnk (p / 16)
  if followPin s p then !cml && rising != rdb s pg F.BNK_FOLLOW_FALL
  else cml == rdb s pg (F.EDG_PIN_CFG_SRC (p % 16)) && !(cml && rdb s pg F.BNK_STAT_MODE_ACT) &&
    (rd s pg (F.EDG_PIN_CFG_EDGE (p % 16))).testBit (b2n (!rising))

/-- A transition of one of a pin's inputs at a time (in 2^-32 ns of REF): while a class of calibration has the bank's converters, an edge of a calibration reference path, whose
stamp, counted from the origin of that time, feeds the tap of the calibration unit (R343, R350, log 103); else selection, prescaler, dead time, hold-off (R305–R308). Two flags settle what the spec leaves to the
instant: `merge`, that an edge 380 ps or more and less than 400 ps after the last accepted one is merged; `held`, that one within 10 ps of the end of the hold-off falls inside
it. -/
def converterEdge (p t : Nat) (cml rising merge held : Bool) (s : State) : State :=
  let pg := Page.bnk (p / 16)
  let j := p % 16
  match calRunAt s (p / 16) with
  | some r => tapArrive r.cu ⟨fineTime s p t / 65536, p + b2n rising * 2 ^ 8, false⟩ s
  | none =>
  if !convRuns s p || !edgeSelected s p cml rising then s
  else
    let x := convOf s p
    if x.pre + 1 < 2 ^ rd s pg (F.EDG_PIN_CFG_PRE j) then setConv s p { x with pre := x.pre + 1 }
    else
      let s := setConv s p { x with pre := 0 }
      match x.lastAt with
      | none => acceptEdge p t rising s
      | some l =>
        let d := (t - l) * 1000
        let ps (n : Nat) : Nat := n * 2 ^ 32
        if d < ps 380 || (merge && decide (d < ps 400)) then convSkip p (F.EDG_MERGED j) s
        else if 400 ≤ x.hold && (decide (d + ps 10 < ps x.hold) || (held && decide (d < ps (x.hold + 10)))) then convSkip p (F.EDG_HELD j) s
        else acceptEdge p t rising s

/-- CONVERTER_EDGE (R307). -/
def execConverterEdge (p t : Nat) (cml rising merge held : Bool) (s : State) : Host.Outcome State Fault Refusal :=
  .next (converterEdge p t cml rising merge held s)

/-- STAMP_CREDIT_REFILL (R313): one credit more, up to 64. -/
def execStampCreditRefill (p : Nat) (s : State) : Host.Outcome State Fault Refusal :=
  .next (setConv s p { convOf s p with used := (convOf s p).used - 1 })

/-! ### Converter registers (R309, R314, R318, R319) -/

/-- A write of `EDG_PIN_CFG` is refused (R306, R309). -/
def pinCfgBad (s : State) (p word : Nat) : Bool :=
  ((siteOfQuad s (p / 4)).map (siteBusy s)).getD false || (word.testBit 0 && bits word 2 1 == 0) || decide (10 < bits word 7 4) ||
  (word.testBit 3 && rdb s (.bnk (p / 16)) F.BNK_STAT_MODE_ACT) || (decide (0 < bits word 7 4) && bits word 2 1 == 3)

/-- The gate of the frequency counter starts where EN is set and a gate time is given (R318). -/
def fcStart (p : Nat) (s : State) : State :=
  let pg := Page.bnk (p / 16)
  let on := rdb s pg (F.EDG_PIN_CFG_EN (p % 16)) && rd s pg (F.EDG_FC_GATE (p % 16)) != 0
  setConv s p { convOf s p with fcOn := on, fcFirst := none, fcLast := 0, fcN := 0, fcSkip := false }

/-- A write of `EDG_PIN_CFG` (R309); where EN becomes set, the five counts clear, and the prescaler and the gates start (R306, R314, R318). -/
def pinCfgEffect (p word : Nat) (s : State) : State :=
  let pg := Page.bnk (p / 16)
  let j := p % 16
  if pinCfgBad s p word then fltEvent s pg 12
  else
    let was := rdb s pg (F.EDG_PIN_CFG_EN j)
    let s := wrs s pg [(F.EDG_PIN_CFG_EN j, bits word 0 0), (F.EDG_PIN_CFG_EDGE j, bits word 2 1), (F.EDG_PIN_CFG_SRC j, bits word 3 3),
      (F.EDG_PIN_CFG_PRE j, bits word 7 4), (F.EDG_PIN_CFG_RING j, bits word 8 8), (F.EDG_PIN_CFG_AU_EN j, bits word 12 12),
      (F.EDG_PIN_CFG_AU j, bits word 19 16)]
    if word.testBit 0 && !was then
      let s := wrs s pg [(F.EDG_STAMPS j, 0), (F.EDG_ACCEPTED j, 0), (F.EDG_MERGED j, 0), (F.EDG_HELD j, 0), (F.EDG_LOST j, 0)]
      fcStart p (setConv s p { convOf s p with pre := 0, lossQuiet := false })
    else if !word.testBit 0 && was then fcStart p s
    else s

/-- EDG_PIN_CFG_WRITE (R309). -/
def execEdgPinCfgWrite (m p word : Nat) (s : State) : Host.Outcome State Fault Refusal :=
  .next (takeIn m (.edgPinCfgWrite m p word) false (fun s => asWriter s m (.bnk (p / 16)) (F.EDG_PIN_CFG_EN (p % 16)).off false (pinCfgEffect p word)) s)

/-- The end of a gate (R318): N, T and STAT are latched together, FC_DONE is raised, and the next gate runs where a gate time still stands. -/
def fcDone (p : Nat) (s : State) : State :=
  let x := convOf s p
  let pg := Page.bnk (p / 16)
  let j := p % 16
  if x.fcOn then
    let t := x.fcLast - x.fcFirst.getD x.fcLast
    let s := wrs s pg [(F.EDG_FC_N j, x.fcN), (F.EDG_FC_T j, (t * 2048 * 2 + 125) / 250), (F.EDG_FC_STAT_VALID j, 1),
      (F.EDG_FC_STAT_NOEDGE j, b2n (decide (x.fcN = 0))), (F.EDG_FC_STAT_SKIP j, b2n x.fcSkip)]
    raiseInt (fcStart p s) pg 14
  else s

/-- FC_DONE (R318). -/
def execFcDone (p : Nat) (s : State) : Host.Outcome State Fault Refusal := .next (fcDone p s)

/-- A read of `EDG_FC_N` latches T and STAT of the same gate for the master (R318). -/
def fcNRead (m p : Nat) (s : State) : State :=
  let pg := Page.bnk (p / 16)
  let j := p % 16
  if mayRead s m pg (F.EDG_FC_N j).off false then
    let st := rd s pg (F.EDG_FC_STAT_VALID j) + 2 * rd s pg (F.EDG_FC_STAT_NOEDGE j) + 4 * rd s pg (F.EDG_FC_STAT_SKIP j)
    let s := { s with pin := { s.pin with fcLatch := tabIns s.pin.fcLatch (m * 256 + p) (rd s pg (F.EDG_FC_T j), st) } }
    emit s (.read m (rd s pg (F.EDG_FC_N j)))
  else emit s (.read m 0)

/-- FC_N_READ (R318). -/
def execFcNRead (m p : Nat) (s : State) : Host.Outcome State Fault Refusal := .next (takeIn m (.fcNRead m p) false (fcNRead m p) s)

/-- A read of `EDG_LOST` (R321): after one that returns nonzero, the next loss raises STAMP_LOST again. -/
def edgLostRead (m p : Nat) (s : State) : State :=
  let pg := Page.bnk (p / 16)
  let v := rd s pg (F.EDG_LOST (p % 16))
  if mayRead s m pg (F.EDG_LOST (p % 16)).off false then
    emit (if v = 0 then s else setConv s p { convOf s p with lossQuiet := false }) (.read m v)
  else emit s (.read m 0)

/-- EDG_LOST_READ (R321). -/
def execEdgLostRead (m p : Nat) (s : State) : Host.Outcome State Fault Refusal := .next (takeIn m (.edgLostRead m p) false (edgLostRead m p) s)

/-- EDG_SPARE_WRITE (R319): the completed pair names the pin slot; the mapping waits for SPARE_SUBSTITUTION. -/
def execEdgSpareWrite (m b comp : Nat) (s : State) : Host.Outcome State Fault Refusal :=
  .next (takeIn m (.edgSpareWrite m b comp) false
    (fun s => pairComplete m (.bnk b) F.EDG_SPARE_PIN.off comp (fun v s => wrs s (.bnk b) [(F.EDG_SPARE_PIN, bits v 3 0), (F.EDG_SPARE_VALID, bits v 4 4)]) s) s)

/-- The spare converter of an idle bank takes the mapping named (R31, R319); the counters stay with the pin slot. -/
def convSubstitute (b : Nat) (s : State) : State :=
  if bankBusy s b then s
  else
    let valid := rdb s (.bnk b) F.EDG_SPARE_VALID
    wrb (setBank s b { bankOf s b with convSpare := if valid then some (rd s (.bnk b) F.EDG_SPARE_PIN) else none }) (.bnk b) F.EDG_SPARE_ACTIVE valid

end Sys2Proof.Machine
end

