-- ==== Sys2Proof/Machine/Flash.lean ====
section
/-! DEFINITION. The boot flash as the device uses it (R474, R475): the queue of flash operations, the directory, the retirement list. -/

namespace Sys2Proof.Machine

open Sys2Proof

/-! ### The directory (Table 19-2) -/

/-- The directory that the ROM reads where neither copy is valid (R475): PREF = A, both slots WRITTEN, RECOVER and BOOTS 0. -/
def noDirectory : Directory := ⟨0, 0, false, 1, 1, 0, 0, 0⟩

/-- a is newer than b modulo 2^32 (Table 19-2). -/
def seqNewer (a b : Nat) : Bool := decide ((a + 2 ^ 32 - b) % 2 ^ 32 < 2 ^ 31) && a != b

/-- CHECK of a directory record: CRC-32 over its bytes 0 to 27 (Table 19-2). -/
def dirCheck (d : Directory) : Nat :=
  crc32 28 (d.seq % 2 ^ 32 + 2 ^ 32 * (d.pref % 2 + 2 * b2n d.recover + 2 ^ 8 * (d.stA % 8) + 2 ^ 16 * (d.stB % 8) + 2 ^ 24 * (d.reasonA % 16 + 16 * (d.reasonB % 16))) +
    2 ^ 64 * (d.boots % 2 ^ 32))

/-- The record of a directory copy, where the copy is valid. -/
def validDir (c : Option DirCopy) : Option Directory := (c.filter fun c => c.check == dirCheck c.body).map fun c => c.body

/-- The newest valid directory record and the copy that holds it. -/
def newestDir (s : State) : Option (Nat × Directory) :=
  match validDir s.boot.copy0, validDir s.boot.copy1 with
  | some a, some b => if seqNewer b.seq a.seq then some (1, b) else some (0, a)
  | some a, none => some (0, a)
  | none, some b => some (1, b)
  | none, none => none

/-- The state of a slot in a directory: 5 to 7 read as INVALID. -/
def slotState (d : Directory) (slot : Nat) : Nat :=
  let v := if slot = 0 then d.stA else d.stB
  if 4 < v then 4 else v

/-- A directory with a slot's state changed. -/
def setSlot (d : Directory) (slot st : Nat) : Directory := if slot = 0 then { d with stA := st } else { d with stB := st }

/-- A directory with the reason last recorded for a slot. -/
def setReason (d : Directory) (slot r : Nat) : Directory := if slot = 0 then { d with reasonA := r } else { d with reasonB := r }

/-- A directory write is complete (R475): the record is in the copy that does not hold the newest valid one, with SEQ one higher. -/
def storeDir (d : Directory) (s : State) : State :=
  let copy (n : Directory) : Option DirCopy := some ⟨n, dirCheck n⟩
  match newestDir s with
  | some (c, o) =>
    let n := { d with seq := (o.seq + 1) % 2 ^ 32 }
    if c = 0 then { s with boot := { s.boot with copy1 := copy n } } else { s with boot := { s.boot with copy0 := copy n } }
  | none => { s with boot := { s.boot with copy0 := copy { d with seq := 1 } } }

/-! ### The retirement list (R474, R395) -/

/-- The CRC-32 of a copy of the list: over bytes 0 to 59 of the header, SEQ and the number of entries among them, and the entries. -/
def listCheck (seq : Nat) (l : List Nat) : Nat :=
  crc32 (60 + 8 * l.length) (seq % 2 ^ 32 + 2 ^ 32 * l.length + 2 ^ 480 * l.foldr (fun e v => e % 2 ^ 64 + 2 ^ 64 * v) 0)

/-- A copy of the list, where it is valid. -/
def validList (c : Option ListCopy) : Option ListCopy := c.filter fun c => c.check == listCheck c.seq c.entries

/-- The newest valid copy of the list and its place. -/
def newestList (s : State) : Option (Nat × ListCopy) :=
  match validList s.boot.list0, validList s.boot.list1 with
  | some a, some b => if seqNewer b.seq a.seq then some (1, b) else some (0, a)
  | some a, none => some (0, a)
  | none, some b => some (1, b)
  | none, none => none

/-- The entries of the retirement list in the flash; none where no copy is valid. -/
def retired (s : State) : List Nat := ((newestList s).map fun x => x.2.entries).getD []

/-- A write of the retirement list is complete: the copy that does not hold the newest valid list has it, with SEQ one higher. -/
def storeList (l : List Nat) (s : State) : State :=
  let copy (seq : Nat) : Option ListCopy := some ⟨seq, l, listCheck seq l⟩
  match newestList s with
  | some (c, o) =>
    let n := (o.seq + 1) % 2 ^ 32
    if c = 0 then { s with boot := { s.boot with list1 := copy n } } else { s with boot := { s.boot with list0 := copy n } }
  | none => { s with boot := { s.boot with list0 := copy 1 } }

/-! ### Flash operations (R474) -/

/-- The first operation that waits starts: one at a time, while PD28 is on (Table 18-3), and none from the sleep decision until wake. -/
def flashStart (s : State) : State :=
  if !s.boot.busy && !s.boot.ops.isEmpty && awake s && domOn s 28 then { s with boot := { s.boot with busy := true } } else s

/-- A flash operation is requested. -/
def flashPush (op : FlashOp) (s : State) : State := flashStart { s with boot := { s.boot with ops := s.boot.ops ++ [op] } }

/-- The operation in progress, if any. -/
def flashNow (s : State) : Option FlashOp := if s.boot.busy then s.boot.ops.head? else none

/-- The operation in progress is complete: it counts, and the next may start. -/
def flashEnd (s : State) : State :=
  flashStart { incSat s .boot F.FLASH_OPS with boot := { s.boot with ops := s.boot.ops.drop 1, busy := false } }

/-- Firmware changes the directory and writes it. -/
def writeDir (d : Directory) (s : State) : State := flashPush (.directory d) { s with boot := { s.boot with dir := d } }

/-- The retirement list with the writes that wait: what firmware holds of it. -/
def retireNow (s : State) : List Nat :=
  (s.boot.ops.filterMap fun o => match o with | .retireList l => some l | _ => none).getLastD (retired s)

/-- The capacity of one copy of the retirement list (R474). -/
def retireCap : Nat := 1048568

/-- The entry of a retired frame's row that is listed for repair: KIND 2 with the row address (R396, R474). -/
def rowEntry (h row : Nat) : Nat := h % 2 ^ 26 + 2 * 2 ^ 28 + row % 2 ^ 32 * 2 ^ 32

/-- Entries are added to the retirement list by one write, up to its capacity (R474, R395). -/
def retireAdd (l : List Nat) (s : State) : State := flashPush (.retireList ((retireNow s ++ l).take retireCap)) s

end Sys2Proof.Machine
end

