-- ==== Sys2Proof/Machine/Calibrate.lean ====
section
/-! DEFINITION. Calibration (chapter 13): requests, the two runs of a class and their checks, acceptance and installation, aborts, and the records in the
boot flash. -/

namespace Sys2Proof.Machine

open Sys2Proof

/-! ### Requests (R361–R363) -/

/-- `CAL_STAT` shows the class that runs (of two, the one on the lower bank) and the banks with a pending request. -/
def calStat (s : State) : State :=
  let c := s.cal
  let low := c.runs.foldl (fun (a : Option CalRun) r => match a with | none => some r | some x => if r.bank < x.bank then some r else some x) none
  let pend := c.reqs.flatten.filter fun x => !(c.runs.any fun r => r.bank == x.1 && r.cls == x.2)
  let mask := pend.foldl (fun a x => setBit a x.1) 0
  wrs s .calDev [(F.CAL_STAT_BUSY, b2n (!c.runs.isEmpty)), (F.CAL_STAT_CLASS, (low.map fun r => r.cls).getD 0),
    (F.CAL_STAT_BANK, (low.map fun r => r.bank).getD 0), (F.CAL_STAT_PENDING, mask)]

/-- Store the calibration state. -/
def setCal (c : CalState) (s : State) : State := calStat { s with cal := c }

/-- A mask of classes as class codes, and a mask of banks, as the items of a request. -/
def calItems (banks classes : Nat) : List (Nat × Nat) :=
  ((List.range 16).filter fun b => banks.testBit b).flatMap fun b =>
    ([1, 2, 3].filter fun c => classes.testBit (c - 1)).map fun c => (b, c)

/-- A request is filed (R361); banks and classes already pending or running are merged with it. -/
def fileRequest (banks classes : Nat) (s : State) : State := setCal { s.cal with reqs := s.cal.reqs ++ [calItems banks classes] } s

/-- A bank and class have been dealt with: a request with nothing left has finished and raises CAL_DONE (Table 13-6). -/
def itemDone (bank cls : Nat) (s : State) : State :=
  let l := s.cal.reqs.map fun r => r.filter fun x => !(x.1 == bank && x.2 == cls)
  let some_ := (s.cal.reqs.zip l).any fun x => !x.1.isEmpty && x.2.isEmpty
  let s := setCal { s.cal with reqs := l.filter fun r => !r.isEmpty } s
  if some_ then raiseInt s .calDev 8 else s

/-- GO of `CAL_REQ` (none) or of `CAL_P_REQ` of partition n (R347, R363): refused with CLASSES or BANKS zero, or with a class that cannot be requested. Banks that
the partition does not own are ignored. A refused write does nothing, CANCEL included (R428). -/
def calRequest (part : Option Nat) (word : Nat) (s : State) : State :=
  let p := match part with | none => Page.calDev | some n => Page.calPart n
  let owned := match part with
    | none => 0xFFFF
    | some n => (List.range 16).foldl (fun a b => if bankOwner s b = n then setBit a b else a) 0
  let banks := bits word 31 16 &&& owned
  let classes := bits word 2 0
  let cancel := part.isNone && word.testBit 9
  let go := word.testBit 8
  let f := match part with
    | none => [(F.CAL_REQ_CLASSES, classes), (F.CAL_REQ_BANKS, bits word 31 16)]
    | some _ => [(F.CAL_P_REQ_CLASSES, classes), (F.CAL_P_REQ_BANKS, bits word 31 16)]
  if go && (banks == 0 || classes == 0 || bits word 6 3 != 0) then fltEvent s p 1
  else
    let s := if cancel then setCal { s.cal with reqs := (s.cal.reqs.map fun r =>
      r.filter fun x => s.cal.runs.any fun c => c.bank == x.1 && c.cls == x.2).filter fun r => !r.isEmpty } s else s
    let s := wrs s p f
    if go then fileRequest banks classes s else s

/-- The page of a request register. -/
def calPage (part : Option Nat) : Page := match part with | none => .calDev | some n => .calPart n

/-- CAL_REQUEST (R361): the write has GO set. -/
def execCalRequest (m : Nat) (part : Option Nat) (word : Nat) (s : State) : Host.Outcome State Fault Refusal :=
  .next (takeIn m (.calRequest m part word) false
    (fun s => asWriter s m (calPage part) F.CAL_REQ_GO.off part.isNone (calRequest part (setBit word 8))) s)

/-- CAL_CANCEL (R361): the write has CANCEL set; pending requests are dropped and a running class completes. -/
def execCalCancel (m word : Nat) (s : State) : Host.Outcome State Fault Refusal :=
  .next (takeIn m (.calCancel m word) false (fun s => asWriter s m .calDev F.CAL_REQ_GO.off true (calRequest none (setBit word 9))) s)

/-- Firmware runs, and the device does not sleep (R347). -/
def fwAwake (s : State) : Bool := s.pwr.stage == .run && awake s

/-- The device time base in seconds. -/
def deviceSec (s : State) : Nat := rd s .timDev F.TIM_DTB_SEC_HI * 2 ^ 32 + rd s .timDev F.TIM_DTB_SEC_LO

/-- A case of R362 holds for a bank: the interval, the junction temperature, or a DUE bit. -/
def autoDue (s : State) (b : Nat) : Bool :=
  let sec := deviceSec s
  let hours := rd s .calDev F.CAL_AUTO_INTERVAL
  let tj := toSigned 8 (rd s .pwrDev F.PWR_TJ) * 16
  (hours != 0 && (tabFind s.cal.lastTime b).any fun t => decide (t + 3600 * hours ≤ sec)) ||
  ((tabFind s.cal.deskTemp b).any fun t => decide (rd s .calDev F.CAL_AUTO_TEMP_TRIG * 16 < (tj - t).natAbs)) || rd s .calDev (F.CAL_BANK_DUE b) != 0

/-- CAL_AUTO_REQUEST (R362). -/
def execCalAutoRequest (b : Nat) (s : State) : Host.Outcome State Fault Refusal :=
  .next (if fwAwake s && rdb s .calDev F.CAL_AUTO_EN && autoDue s b then fileRequest (1 <<< b) 7 s else s)

/-! ### Runs (R347, R354, R361) -/

/-- A class is running on a bank. -/
def calRunOf (s : State) (b : Nat) : Option CalRun := s.cal.runs.find? fun r => r.bank == b

/-- Replace or remove the run of a bank. -/
def setRun (b : Nat) (r : Option CalRun) (s : State) : State :=
  setCal { s.cal with runs := (s.cal.runs.filter fun x => x.bank != b) ++ r.toList } s

/-- The slot that stands for a class's summary record, whose SLOT field is 0xFF (R359). -/
def summarySlot : Nat := 31

/-- The bytes that each value of a payload takes (Table 13-4); the summary holds COUNT and the TIME of the last acceptance (R359). -/
def payloadWidth (cls slot k : Nat) : Nat := if slot = summarySlot then (if k = 0 then 4 else 6) else if cls = 2 then 2 else 4

/-- A payload as bytes, least significant first (R7), from the value numbered k on: their number and their value. -/
def payloadBytes (cls slot : Nat) : Nat → List Int → Nat × Nat
  | _, [] => (0, 0)
  | k, v :: l =>
    let w := payloadWidth cls slot k
    let r := payloadBytes cls slot (k + 1) l
    (w + r.1, ofSigned (8 * w) v + 2 ^ (8 * w) * r.2)

/-- The CHECK of a record: the CRC-32 over every byte before it (Table 13-4). -/
def calCheck (cls b slot : Nat) (r : CalRec) : Nat :=
  let p := payloadBytes cls slot 0 r.payload
  let at' (byte v : Nat) : Nat := v * 2 ^ (8 * byte)
  crc32 (32 + p.1) (at' 0 cls + at' 1 b + at' 2 (if slot = summarySlot then 0xFF else slot) + at' 3 1 + at' 4 r.seq + at' 8 (r.time % 2 ^ 48) + at' 14 (ofSigned 16 r.temp) +
    at' 16 p.1 + at' 20 r.mode + at' 32 p.2)

/-- A copy of a record, where it is valid. -/
def validRec (s : State) (cls b slot copy : Nat) : Option CalRec :=
  (tabFind s.cal.recs (calKey cls b slot * 2 + copy)).filter fun r => r.check == calCheck cls b slot r

/-- The newest valid copy of a record: the greater SEQ modulo 2^32 (R358). -/
def newestRec (s : State) (cls b slot : Nat) : Option (Nat × CalRec) :=
  match validRec s cls b slot 0, validRec s cls b slot 1 with
  | none, none => none
  | some r, none => some (0, r)
  | none, some r => some (1, r)
  | some r, some t => if (t.seq + 2 ^ 32 - r.seq) % 2 ^ 32 < 2 ^ 31 && t.seq ≠ r.seq then some (1, t) else some (0, r)

/-- The instances of a bank. -/
def calSlots : List Nat := List.range 17

/-- `CAL_LAST` takes the outcome of a class. -/
def calLast (b cls reason slot persist : Nat) (s : State) : State :=
  wrs s .calDev [(F.CAL_LAST_REASON, reason), (F.CAL_LAST_CLASS, cls), (F.CAL_LAST_BANK, b), (F.CAL_LAST_SLOT, slot), (F.CAL_LAST_PERSIST, persist)]

/-- The calibration unit of a run is free again (R344). -/
def releaseCu (r : CalRun) (s : State) : State := wrb s (.au r.cu) F.AU_CU_FW_HELD false

/-- A class is rejected (R356): the values in force stay. -/
def calReject (r : CalRun) (reason slot : Nat) (s : State) : State :=
  let s := calLast r.bank r.cls reason slot 0 (setRun r.bank none (releaseCu r s))
  let s := if r.cls = 1 then wearNote 3 r.bank slot s else s
  itemDone r.bank r.cls (raiseInt (incSat s .calDev (F.CAL_C_REJECTS (r.cls - 1))) .calDev 9)

/-- The calibration unit that a class can take: one that is HALTED and that no run holds (R344, R347). -/
def freeCu (s : State) : Option Nat := [17, 18].find? fun u => auState s u == 0 && !(s.cal.runs.any fun r => r.cu == u)

/-- The next class to start: of the lowest bank that is idle, the first in order (R361). -/
def nextClass (s : State) : Option (Nat × Nat) :=
  ((List.range 16).flatMap fun b => [1, 2, 3].map fun c => (b, c)).find? fun x =>
    s.cal.reqs.any (fun r => r.contains x) && !bankBusy s x.1 && !rdb s (.bnk x.1) F.BNK_STAT_CHANGING && (calRunOf s x.1).isNone

/-- The calibration reference and the calibration units have power (R349, Table 18-3). -/
def calPower (s : State) : Bool := domOn s 25 && domOn s 27

/-- CAL_CLASS_START (R361), once PD25 and PD27 are on: `temp` is the junction temperature in 1/16 °C. EDGE and DESKEW hold every DEN of the bank inactive (R354); DESKEW without a FACTORY
record for the bank is rejected (Table 13-3). -/
def execCalClassStart (temp : Int) (s : State) : Host.Outcome State Fault Refusal :=
  .next (match (if fwAwake s && calPower s then nextClass s else none), freeCu s with
    | some (b, c), some u =>
      let r : CalRun := ⟨b, c, u, temp, none, false, false, if c = 3 then 1 + b2n (rdb s (.bnk b) F.BNK_STAT_MODE_ACT) else 0⟩
      let s := setRun b (some r) (wrb s (.au u) F.AU_CU_FW_HELD true)
      let s := if c = 1 then s else forS (List.range 16) (fun j s => setPin s (16 * b + j) { pinOf s (16 * b + j) with den := false }) s
      match (if c = 3 then calSlots.find? fun k => (newestRec s 4 b k).isNone else none) with
      | some k => calReject r 9 k s
      | none => s
    | _, _ => s)

/-! ### Checks of a run (R350, R351, R353–R355) -/

/-- The 769 boundaries of a converter from its hits, in fs, nearest (R350). -/
def boundaries (n : List Nat) : List Int :=
  (n.foldl (fun (a : List Int × Nat) k =>
    let t := a.2 + k
    (a.1 ++ [(((166667 * t * 2 + 2 ^ 20) / 2 ^ 21 : Nat) : Int)], t)) ([0], 0)).1

/-- The first test of Table 13-2 that a converter fails. -/
def uniformity (counts quarters : List Nat) : Option Nat :=
  if (List.range 768).any fun c => decide (counts.getD c 0 < 137) then some 2
  else if counts.any fun k => decide (4096 < k) then some 3
  else if (List.range 24).any (fun g =>
    let q := (List.range 4).map fun k => quarters.getD (4 * g + k) 0
    let m := q.sum
    q.any fun c => decide (144 * m < ((4 * c : Nat) - (m : Nat) : Int).natAbs ^ 2)) then some 4
  else none

/-- Where the paths of the bank's present mode stand in a DESKEW payload, and how many are measured: in direct mode not CML (R353, Table 13-4). -/
def deskewPaths (s : State) (b : Nat) : Nat × Nat := if rdb s (.bnk b) F.BNK_STAT_MODE_ACT then (4, 3) else (0, 4)

/-- A path delay lies outside ±50 ps of the FACTORY value (R354). -/
def pathRange (s : State) (b slot : Nat) (vals : List Int) : Bool :=
  let f := ((newestRec s 4 b slot).map fun r => r.2.payload).getD []
  let d := deskewPaths s b
  (List.range d.2).any fun k => decide (50000 < (vals.getD k 0 - f.getD (d.1 + k) 0).natAbs)

/-- The corrections of the 667 steps of one edge type (R352): the mean stamp minus the mean over all steps, minus the step's ideal offset of 0.25 ps a step, in fs. -/
def stepCorrections (l : List Int) : List Int :=
  let mean := l.sum / 667
  (List.range 667).map fun k => l.getD k 0 - mean - 250 * (k : Int)

/-- The corrections of an instance: DRV, then DEN, then strobe (R352, Table 13-4). -/
def edgeCorrections (l : List Int) : List Int := [0, 1, 2].flatMap fun e => stepCorrections ((l.drop (667 * e)).take 667)

/-- The values of one instance in a run. -/
def runValues (r : CalRun) (m : CalMeas) (slot : Nat) : List Int :=
  match r.cls with
  | 1 => boundaries (m.counts.getD slot [])
  | 2 => edgeCorrections (m.values.getD slot [])
  | _ => m.values.getD slot []

/-- The check that a run fails, with its first slot. -/
def runCheck (s : State) (r : CalRun) (m : CalMeas) : Option (Nat × Nat) :=
  calSlots.findSome? fun k =>
    if r.cls = 1 then (uniformity (m.counts.getD k []) (m.quarters.getD k [])).map fun c => (c, k)
    else if r.cls = 3 && pathRange s r.bank k (m.values.getD k []) then some (6, k)
    else none

/-- A measurement is one of a class on a bank: 17 histograms (R350), 17 lists of the mean stamps of 3 times 667 steps (R352), or 17 lists of the delays of the paths of the
bank's present mode (R353). -/
def measFits (s : State) (r : CalRun) (m : CalMeas) : Bool :=
  if r.cls = 1 then m.values.isEmpty
  else m.values.length == 17 && m.values.all fun l => l.length == (if r.cls = 2 then 2001 else (deskewPaths s r.bank).2)

/-- The tolerance of a class in 1/16 ps. -/
def calTol (s : State) (cls : Nat) : Nat := bits (rd s .calDev F.CAL_TOL) (8 * cls - 1) (8 * cls - 8)

/-- Two runs disagree on a value of an instance (R355). -/
def disagree (tol : Nat) (a b : List Int) : Bool :=
  a.length != b.length || (a.zip b).any fun x => decide (1000 * tol < 16 * (x.1 - x.2).natAbs)

/-- The mean of two runs, halves upward. -/
def calMean (a b : List Int) : List Int := (a.zip b).map fun x => (x.1 + x.2 + 1) / 2

/-! ### Acceptance (R355–R357) -/

/-- The values of an accepted instance go into the bank's tables; DESKEW keeps the other mode's (R353). -/
def installSlot (r : CalRun) (vals : List Int) (slot : Nat) (s : State) : State :=
  let d := deskewPaths s r.bank
  let old := calTable s 3 r.bank slot
  let v := if r.cls = 3 then (List.range 8).map fun k => if d.1 ≤ k && k < d.1 + d.2 then vals.getD (k - d.1) 0 else old.getD k 0 else vals
  { s with cal := { s.cal with tables := tabIns s.cal.tables (calKey r.cls r.bank slot) v } }

/-- The DUE bits that an installation sets: those of later classes that are not in the same request (R357). -/
def dueBits (s : State) (b cls : Nat) : Nat :=
  let later (c : Nat) : Bool := s.cal.reqs.any fun r => r.contains (b, cls) && r.contains (b, c)
  (if cls < 2 && !later 2 then 1 else 0) + (if cls < 3 && !later 3 then 2 else 0)

/-- CAL_MISSING is live while a NOMINAL bit is set (R359, Table 17-2). -/
def calMissing (s : State) : State := setLiveInt s .calDev 3 3 ((List.range 16).any fun b => rd s .calDev (F.CAL_BANK_NOMINAL b) != 0)

/-- A class is accepted and installed in one cycle (R357). -/
def calAccept (r : CalRun) (vals : List (List Int)) (temp : Int) (s : State) : State :=
  let b := r.bank
  let s := forS calSlots (fun k s => installSlot r (vals.getD k []) k s) s
  let due := dueBits s b r.cls
  let d := rd s .calDev (F.CAL_BANK_DUE b)
  let d := (if r.cls = 1 then d else clrBit d (r.cls - 2)) ||| due
  let s := wrs s .calDev [(F.CAL_BANK_VALID b, setBit (rd s .calDev (F.CAL_BANK_VALID b)) (r.cls - 1)),
    (F.CAL_BANK_NOMINAL b, clrBit (rd s .calDev (F.CAL_BANK_NOMINAL b)) (r.cls - 1)), (F.CAL_BANK_DUE b, d),
    (F.CAL_BANK_TEMP b, ofSigned 8 (temp / 16))]
  let sec := deviceSec s
  let c := s.cal
  let s := { s with cal := { c with lastTime := tabIns c.lastTime b sec, deskTemp := if r.cls = 3 then tabIns c.deskTemp b temp else c.deskTemp } }
  let s := calMissing (if r.cls = 1 then wearClear 3 b s else s)
  let s := flashPush (.calRecord b) (setRun b (some { r with accepted := true, temp := temp }) s)
  if due = 0 then s else raiseInt s .calDev 10

/-- A record goes into the copy that does not hold the newest valid one, with SEQ one higher (R358). -/
def putRec (cls b slot : Nat) (r : CalRec) (s : State) : State :=
  let k := calKey cls b slot * 2
  let at_ := match newestRec s cls b slot with
    | some (c, o) => (k + (1 - c), (o.seq + 1) % 2 ^ 32)
    | none => (k, 1)
  let r := { r with seq := at_.2 }
  { s with cal := { s.cal with recs := tabIns s.cal.recs at_.1 { r with check := calCheck cls b slot r } } }

/-- A measurement of the maker, of 8 path delays for each of the 17 instances of a bank on which no class runs: in MANUFACTURE and in RETURN it is written as the bank's FACTORY
records, with the values of both modes; in the field nothing is (R348, Table 20-4). The spec names no command that writes them: that this one does, in one step, is the model's
choice (log 103). -/
def factoryRecords (b : Nat) (meas : CalMeas) (s : State) : State :=
  if fwAwake s && (rd s .lcs F.LCS_STATE_STATE == 0 || rd s .lcs F.LCS_STATE_STATE == 3) && meas.values.length == 17 && meas.values.all (fun l => l.length == 8) then
    forS calSlots (fun k s => putRec 4 b k ⟨0, deviceSec s, meas.temp, 3, meas.values.getD k [], 0⟩ s) s
  else s

/-- CAL_RUN_DONE (R355): a transition at an input before a run of EDGE or DESKEW rejects the class (R354); after the second run it is judged: the checks of both runs,
the temperature, then the agreement. A measurement that is not one of the class ends no run. -/
def execCalRunDone (b : Nat) (meas : CalMeas) (s : State) : Host.Outcome State Fault Refusal :=
  .next (match calRunOf s b with
    | none => factoryRecords b meas s
    | some r =>
      if r.accepted || r.abort || bankBusy s b then s
      else match (if r.cls = 1 then none else meas.active) with
      | some k => calReject r 5 k s
      | none =>
        if !measFits s r meas then s else
        let vals := calSlots.map (runValues r meas)
        let bad := runCheck s r meas
        match r.first with
        | none => setRun b (some { r with first := some (vals, bad) }) s
        | some (v1, bad1) =>
          match bad1.orElse fun _ => bad with
          | some (reason, slot) => calReject r reason slot s
          | none =>
            if 32 < (meas.temp - r.temp).natAbs then calReject r 7 0 s
            else match calSlots.find? (fun k => disagree (calTol s r.cls) (v1.getD k []) (vals.getD k [])) with
            | some k => calReject r 1 k s
            | none => calAccept r ((v1.zip vals).map fun x => calMean x.1 x.2) meas.temp s)

/-- CAL_ABORT (R361): a RUN accepted for a site of the bank, or another event that aborts; the bank's request is dropped. -/
def execCalAbort (b : Nat) (s : State) : Host.Outcome State Fault Refusal :=
  .next (match calRunOf s b with
    | none => s
    | some r =>
      if !r.accepted && (r.abort || bankBusy s b) then
        let s := incSat (calLast b r.cls 8 0 0 (setRun b none (releaseCu r s))) .calDev F.CAL_ABORTS
        setCal { s.cal with reqs := (s.cal.reqs.map fun q => q.filter fun x => x.1 != b).filter fun q => !q.isEmpty } s
      else s)

/-! ### Records (R358–R360) -/

/-- The values that go into the record of an accepted class: those in force, but of DESKEW only the values of the mode that was measured; those of the other mode stay as its
record has them (R353), and without a record are the values in force. -/
def recordValues (s : State) (r : CalRun) (slot : Nat) : List Int :=
  let now := calTable s r.cls r.bank slot
  if r.cls ≠ 3 then now
  else match newestRec s 3 r.bank slot with
    | none => now
    | some (_, old) => (List.range 8).map fun k => if r.modes.testBit (k / 4) && k != 7 then now.getD k 0 else old.payload.getD k 0

/-- CAL_RECORD_WRITE (R358–R360), in its turn among the flash operations (R474): the 17 records and
the summary of the accepted class on a bank are written (`ok`), or cannot be; COUNT advances either way. A DESKEW record keeps the other mode's values and their MODE bit (R353). -/
def execCalRecordWrite (b : Nat) (ok : Bool) (s : State) : Host.Outcome State Fault Refusal :=
  .next (match calRunOf s b with
    | none => s
    | some r =>
      if !r.accepted || flashNow s != some (.calRecord b) then s
      else
        let s := flashEnd s
        let k := r.cls - 1
        let sec := tabGet 0 s.cal.lastTime b
        let s := wrs (incSat s .calDev (F.CAL_C_COUNT k)) .calDev [(F.CAL_C_TIME_LO k, sec % 2 ^ 32), (F.CAL_C_TIME_HI k, sec / 2 ^ 32)]
        let mode (j : Nat) : Nat := if r.cls = 3 then r.modes ||| ((newestRec s 3 b j).map fun x => x.2.mode).getD 0 else 0
        let s := if ok then
            let s := forS calSlots (fun j s => putRec r.cls b j ⟨0, sec, r.temp, mode j, recordValues s r j, 0⟩ s) s
            putRec r.cls 0 summarySlot ⟨0, sec, r.temp, 0, [(rd s .calDev (F.CAL_C_COUNT k) : Nat), (sec : Nat)], 0⟩ s
          else raiseInt (fltEvent (incSat s .calDev F.FLASH_ERR) .calDev 2) .calDev 2
        itemDone b r.cls (calLast b r.cls 0 0 (b2n ok) (setRun b none (releaseCu r s))))

/-- The COUNT and the TIME of the last acceptance come from each class's summary record (R359). -/
def restoreCounts (s : State) : State :=
  forS [1, 2, 3] (fun c s =>
    match newestRec s c 0 summarySlot with
    | none => s
    | some r =>
      let sec := (r.2.payload.getD 1 0).toNat
      wrs s .calDev [(F.CAL_C_COUNT (c - 1), (r.2.payload.getD 0 0).toNat), (F.CAL_C_TIME_LO (c - 1), sec), (F.CAL_C_TIME_HI (c - 1), sec / 2 ^ 32)]) s

/-- What the records of a class on a bank say of its last acceptance: its time, where it is the latest so far the temperature that `CAL_BANK.TEMP` shows, and of DESKEW the
temperature (R359, R362). -/
def restoreTimes (cls b : Nat) (l : List CalRec) (s : State) : State :=
  match l with
  | [] => s
  | r :: _ =>
    let s := if cls = 3 then { s with cal := { s.cal with deskTemp := tabIns s.cal.deskTemp b r.temp } } else s
    if (tabFind s.cal.lastTime b).all fun t => decide (t ≤ r.time) then
      wr { s with cal := { s.cal with lastTime := tabIns s.cal.lastTime b r.time } } .calDev (F.CAL_BANK_TEMP b) (ofSigned 8 (r.temp / 16))
    else s

/-- At boot every table comes from its newest valid copy; where no copy is valid the nominal values are installed, NOMINAL sets and CAL_MISSING is
raised (R359). -/
def calRestore (s : State) : State :=
  forS (List.range 16) (fun b s => forS [1, 2, 3] (fun c s =>
    let got := calSlots.map fun k => (k, newestRec s c b k)
    let s := forS got (fun x s => { s with cal := { s.cal with tables := match x.2 with
      | some r => tabIns s.cal.tables (calKey c b x.1) r.2.payload
      | none => tabDel s.cal.tables (calKey c b x.1) } }) s
    let s := restoreTimes c b (got.filterMap fun x => x.2.map fun r => r.2) s
    let whole := got.all fun x => x.2.isSome
    let s := wrs s .calDev [(F.CAL_BANK_VALID b, putBit (rd s .calDev (F.CAL_BANK_VALID b)) (c - 1) whole),
      (F.CAL_BANK_NOMINAL b, putBit (rd s .calDev (F.CAL_BANK_NOMINAL b)) (c - 1) (!whole))]
    calMissing s) s) (restoreCounts s)

end Sys2Proof.Machine
end

