-- ==== Sys2Proof/Machine/Stack.lean ====
section
/-! DEFINITION. Pattern memory (chapter 14): regions and interleave, the check code, requests and classes, refresh and temperature, speed change, scrub,
uncorrectable errors, retirement, the map lookup. -/

namespace Sys2Proof.Machine

open Sys2Proof

/-! ### Places (R367–R370) -/

/-- log2 of the grain that SET and G of `MEM_GRAIN` select (R371): 4 KiB unless SET. -/
def grainSel (set : Bool) (g : Nat) : Nat := if set then 8 + 2 * g else 12

/-- log2 of the grain that `MEM_GRAIN` selects for a partition. -/
def grainAsked (s : State) (n : Nat) : Nat :=
  let f := match n with
    | 0 => (F.MEM_GRAIN_SET_0, F.MEM_GRAIN_G_0) | 1 => (F.MEM_GRAIN_SET_1, F.MEM_GRAIN_G_1)
    | 2 => (F.MEM_GRAIN_SET_2, F.MEM_GRAIN_G_2) | _ => (F.MEM_GRAIN_SET_3, F.MEM_GRAIN_G_3)
  grainSel (rdb s .memDev f.1) (rd s .memDev f.2)

/-- log2 of the grain in force of a partition (R369, R371): the one selected when its quota became nonzero. -/
def grainLog (s : State) (n : Nat) : Nat := (tabFind s.memc.grains n).getD (grainAsked s n)

/-- `MEM_P_STAT.GRAIN`: the code of the grain in force (Table 14-9). -/
def grainCode (s : State) (n : Nat) : Nat := (grainLog s n - 8) / 2

/-- The channel of an offset in a region of a grain, given by its log2, and the channel offset within the region's share of the channel (R369). -/
def placeOf (g o : Nat) : Nat × Nat := (o / 2 ^ g % 16, o / 2 ^ (g + 4) * 2 ^ g + o % 2 ^ g)

/-- The channel that serves a partition's address, and the channel offset (R369): by the grain in its home frame, in the spare pool after retirement. -/
def partPlace (s : State) (n addr : Nat) : Nat × Nat :=
  match homeFrame s n addr with
  | some h =>
    let e := mapEnt s h
    if e.remapped then placeOf 10 (e.frame % 2 ^ 20 * 1024 + addr % 1024) else placeOf (grainLog s n) (addr % 2 ^ 30)
  | none => (0, 0)

/-- The channel that serves a partition's address (R369). -/
def chanOfPart (s : State) (n addr : Nat) : Nat := (partPlace s n addr).1

/-- The home frame that a frame of the stack holds (R367, R394): for a spare frame in use the one retired to it; none for a frame of the reserved regions, and none for a
frame that has been retired. -/
def homeOfFrame (s : State) (f : Nat) : Option Nat :=
  if f / 2 ^ 20 = 33 then (s.memc.map.find? fun e => e.2.frame == f && e.2.remapped).map (·.1)
  else if f / 2 ^ 20 < 32 && !(mapEnt s f).remapped then some f else none

/-- The partition and address that a home frame serves. -/
def ownerOfFrame (s : State) (h : Nat) : Option (Nat × Nat) :=
  (List.range 4).findSome? fun n =>
    let l := s.memc.regions.getD n []
    if l.contains (h / 2 ^ 20) then some (n, l.idxOf (h / 2 ^ 20) * 2 ^ 30 + h % 2 ^ 20 * 1024) else none

/-- The partition and address that an address of the stack serves, where it serves one. -/
def ownerOfStack (s : State) (a : Nat) : Option (Nat × Nat) :=
  ((homeOfFrame s (a / 1024)).bind (ownerOfFrame s)).map fun x => (x.1, x.2 + a % 1024)

/-- The channel and channel offset of an address of the stack (R369): the spare pool and the reserved regions have a grain of 1 KiB, as, which the spec does not say, has a
region that no partition holds (log 104). -/
def stackPlace (s : State) (a : Nat) : Nat × Nat := match ownerOfStack s a with | some (n, x) => partPlace s n x | none => placeOf 10 (a % 2 ^ 30)

/-- The channel of a request. -/
def chanOf (s : State) (part : Option Nat) (addr : Nat) : Nat :=
  match part with
  | some n => chanOfPart s n addr
  | none => (stackPlace s addr).1

/-- Where the byte at an address of the stack is kept: with its partition's, under its home frame in a region that no partition holds, or of its own in the reserved regions
and in retired frames (R367, R394). -/
def stackKey (s : State) (a : Nat) : Nat :=
  match homeOfFrame s (a / 1024) with
  | none => if a / 2 ^ 30 < 32 then 2 ^ 38 + a else 2 ^ 37 + a
  | some h => match ownerOfFrame s h with
    | some (n, x) => memKey n (x + a % 1024)
    | none => 2 ^ 37 + h * 1024 + a % 1024

/-- The byte at an address of the stack. -/
def stackByte (s : State) (a : Nat) : BitVec 8 := tabGet 0 s.mem (stackKey s a)

/-- n bytes from an address of the stack as one little-endian value (R7). -/
def readStack (s : State) (a : Nat) : Nat → Nat
  | 0 => 0
  | n + 1 => (stackByte s a).toNat + 256 * readStack s (a + 1) n

/-- Store a list of byte values from an address of the stack on. -/
def putStack (a : Nat) : List Nat → State → State
  | [], s => s
  | b :: l, s => putStack (a + 1) l { s with mem := tabPut 0 s.mem (stackKey s a) (BitVec.ofNat 8 b) }

/-- The requests of a channel. -/
def chanReqs (s : State) (c : Nat) : List MemReq := tabGet [] s.memc.chans c

/-- Store the requests of a channel. -/
def setChan (c : Nat) (l : List MemReq) (s : State) : State := { s with memc := { s.memc with chans := tabPut [] s.memc.chans c l } }

/-- The class of a requester (Table 14-3). -/
def reqClass (r : Nat) : Nat := if r < 68 then 1 else if r < 105 then 2 else if r < 110 then 3 else 4

/-! ### Ranking (R378, R379) -/

/-- Nanoseconds in some MEMC cycles: 1.2 GHz, or 800 MHz at the slower operating point (Table 1-5). -/
def memNs (s : State) (cycles : Nat) : Nat := if rdb s .memDev F.MEM_SPEED_ACTIVE then cycles * 10 / 8 else cycles * 10 / 12

/-- The class in which a request is ordered (R378): after waiting, class 3 as 2 and class 4 as 3. -/
def rankClass (s : State) (now : Nat) (r : MemReq) : Nat :=
  let c := reqClass r.reqr
  let ns := memNs s (now - r.arr)
  if c = 3 && decide (rd s .memDev F.MEM_AGE_C3 ≤ ns) then 2
  else if c = 4 && decide (rd s .memDev F.MEM_AGE_C4 * 1000 ≤ ns) then 3 else c

/-- The frame of the stack that holds a partition's address: its home frame, or the spare frame that replaces it (R368). -/
def stackFrame (s : State) (n addr : Nat) : Nat := match homeFrame s n addr with | some h => (mapEnt s h).frame | none => 0

/-- The block of the stack that a request reaches. -/
def reqBlock (s : State) (r : MemReq) : Nat :=
  match r.part with
  | some n => stackFrame s n r.addr * 16 + r.addr % 1024 / 64
  | none => r.addr / 64

/-- While the stack is too hot, class 3 has no room for some bytes more in the present microsecond (R384): `MEM_HOT_BW` GB/s are 1,000 bytes each in a microsecond of MEMC, the
span over which the model takes the limit (log 104). -/
def hotFull (s : State) (now len : Nat) : Bool :=
  rdb s .memDev F.MEM_TEMP_SEVERE &&
    decide (rd s .memDev F.MEM_HOT_BW * 1000 < len + (if s.memc.hotUse.1 = memNs s now / 1000 then s.memc.hotUse.2 else 0))

/-- Class 3 has moved some bytes more (R384). -/
def hotSpend (cls now len : Nat) (s : State) : State :=
  if cls = 3 && rdb s .memDev F.MEM_TEMP_SEVERE then
    let w := memNs s now / 1000
    { s with memc := { s.memc with hotUse := (w, len + (if s.memc.hotUse.1 = w then s.memc.hotUse.2 else 0)) } }
  else s

/-- The home frame of a request of a partition is being copied to a spare frame. -/
def reqCopied (s : State) (r : MemReq) : Bool :=
  match r.part, s.memc.copying with
  | some n, some x => homeFrame s n r.addr == some x.1
  | _, _ => false

/-- A request may be served: not held, not in self-refresh; while the stack is too hot not of class 4, and of class 3 within its bandwidth (R384, R386); and of a host port
not in a frame that is being copied (R394); nor before the time by which a perturbation delays it (Table 20-7, MEM_LAT). -/
def reqServed (s : State) (now : Nat) (r : MemReq) : Bool :=
  !r.held && decide (r.ready ≤ now) && s.memc.sr != 2 && !(reqClass r.reqr == 3 && r.reqr != 109 && reqCopied s r) && !(reqClass r.reqr == 4 && rdb s .memDev F.MEM_TEMP_SEVERE) &&
    !(reqClass r.reqr == 3 && hotFull s now r.len) && !(decide (3 ≤ reqClass r.reqr) && pageSafe s .memDev)

/-- The better of two requests: the lower class, then the earlier deadline, then the lower requester number (R378). -/
def better (s : State) (now : Nat) (a b : MemReq) : Bool :=
  let x := rankClass s now a
  let y := rankClass s now b
  decide (x < y) || (x == y && (decide (a.dl < b.dl) || (a.dl == b.dl && decide (a.reqr < b.reqr))))

/-- The best-ranked request of a list, the earlier one of equals. -/
def bestReq (s : State) (now : Nat) (l : List MemReq) : Option MemReq :=
  l.foldl (fun a r => match a with | none => some r | some x => if better s now r x then some r else some x) none

/-- The request that a channel serves next: the best-ranked, but a write to the same block accepted in the same cycle before a read (R378, R379). -/
def nextReq (s : State) (c now : Nat) : Option MemReq :=
  let l := (chanReqs s c).filter (reqServed s now)
  match bestReq s now l with
  | none => none
  | some r =>
    if r.data.isSome then some r
    else some ((l.find? fun w => w.data.isSome && w.arr == r.arr && reqBlock s w == reqBlock s r).getD r)

/-! ### Arrival (R370, R378, R385, R386) -/

/-- The deadline of a class-1 request: its caravan's, from ticks of 16 CORE cycles to MEMC cycles (R178, R182, R378). -/
def reqDeadline (s : State) (r now : Nat) : Nat :=
  match (engOf s r).work with
  | some w =>
    let d : Int := ((w.car.deadline : Int) - disTick s) * 16
    ((now : Int) + (if rdb s .memDev F.MEM_SPEED_ACTIVE then d * 8 / 15 else d * 4 / 5)).toNat
  | none => now

/-- Copies of the page map are uncorrectable where a read of a class meets them: each is recorded as a block of region 32 (R367, R392), whose place there the spec does not
give (log 3). With both MAP_UE is raised (R370). -/
def mapUe (cls fails : Nat) (s : State) : State :=
  let s := forS (List.range fails) (fun _ s => freeStep (recordUe cls none (32 * 2 ^ 20 + freeNow s % 2 ^ 20) (freeNow s / 2 ^ 20 % 16) 0 false s)) s
  if 2 ≤ fails then raiseInt (fltEvent s .memDev 7) .memDev 7 else s

/-- A map read by a request of a class (R370): a line that is not cached is read, and the following line fetched behind it in class 4, which pauses while the stack is too hot
(R384); `fails` copies are uncorrectable. With both failing the request is not translated. -/
def mapRead (cls h fails : Nat) (s : State) : Bool × State :=
  let line := h / 8
  if s.memc.lines.contains line then (true, s)
  else
    let got := if rdb s .memDev F.MEM_TEMP_SEVERE then [line] else [line, line + 1]
    let l := (got ++ s.memc.lines.filter fun x => !got.contains x).take 16384
    let s := mapUe cls fails s
    if 2 ≤ fails then (false, s) else (true, { s with memc := { s.memc with lines := l } })

/-- The space that an access of a requester goes to, where it makes one of its kind (Table 14-3): an engine reads for the caravan it serves, in the space of that caravan's
partition alone (R166); a class-2 writer writes for its partition, or the owner of its bank; a host port has its partition's space; the others take the space they name. -/
def reqPart (s : State) (r : Nat) (part : Option Nat) (write : Bool) : Option (Option Nat) :=
  if r < 68 then (if write then none else (engOf s r).work.map fun w => some w.car.part)
  else if r < 105 then
    let n := if r < 72 then r - 68 else if r < 104 then bankOwner s ((r - 72) % 16) else part.getD 4
    if write && decide (n < 4) then some (some n) else none
  else if r < 109 then some (some (r - 105))
  else some part

/-- A request joins those of its channel; the next one of its class that a perturbation delays waits longer (Table 20-7, MEM_LAT). -/
def chanPush (c : Nat) (r : MemReq) (s : State) : State :=
  let k := reqClass r.reqr
  let d := tabGet (0, 0) s.lcs.memLat k
  if d.1.testBit c then
    setChan c (chanReqs s c ++ [{ r with ready := r.arr + d.2 }]) { s with lcs := { s.lcs with memLat := tabDel s.lcs.memLat k } }
  else setChan c (chanReqs s c ++ [r]) s

/-- MEMORY_REQUEST (R378): a block access of a requester reaches its channel in MEMC cycle `now`; an address at or beyond the quota is never translated
(R368). -/
def memoryRequest (r : Nat) (part : Option Nat) (addr len : Nat) (data : Option (List Nat)) (now fails : Nat) (s : State) : State :=
  match reqPart s r part data.isSome with
  | none => s
  | some part =>
  let s := if reqClass r = 1 then abortEntry s else s
  let q : MemReq := ⟨r, if reqClass r = 1 then reqDeadline s r now else now, now, part, addr, len, data, s.memc.sr != 0, 0⟩
  match part with
  | none => chanPush (chanOf s none addr) q s
  | some n =>
    if !inQuota s n addr len then s
    else match homeFrame s n addr with
    | none => s
    | some h =>
      let x := mapRead (reqClass r) h fails s
      if x.1 then chanPush (chanOfPart s n addr) q x.2 else x.2

/-- MEMORY_REQUEST (R378). -/
def execMemoryRequest (r : Nat) (part : Option Nat) (addr len : Nat) (data : Option (List Nat)) (now fails : Nat) (s : State) :
    Host.Outcome State Fault Refusal := .next (memoryRequest r part addr len data now fails s)

/-! ### The check code (R373, R374) -/

/-- A symbol times α = 0x02 in GF(2^8), whose primitive polynomial is x^8 + x^4 + x^3 + x^2 + 1 (R373). -/
def gfDouble (a : BitVec 8) : BitVec 8 := if a.msb then a <<< 1 ^^^ 0x1D#8 else a <<< 1

/-- The product of two symbols in GF(2^8). -/
def gfMul (a b : BitVec 8) : BitVec 8 :=
  (List.range 8).foldr (fun k p => gfDouble p ^^^ (if b.getLsbD k then a else 0)) 0

/-- α^i. -/
def gfPow : Nat → BitVec 8
  | 0 => 1
  | i + 1 => gfDouble (gfPow i)

/-- The coefficients of g(x) = (x + α^0)(x + α^1) … (x + α^7), highest degree first (R373). -/
def rsGenerator : List (BitVec 8) :=
  (List.range 8).foldl (fun g i => List.zipWith (· ^^^ ·) (g ++ [0]) (0 :: g.map (gfMul (gfPow i)))) [1]

/-- One step of the division by g(x): the remainder, highest degree first, takes the next symbol of the dividend. -/
def rsStep (r : List (BitVec 8)) (c : BitVec 8) : List (BitVec 8) :=
  let q := c ^^^ r.headD 0
  List.zipWith (· ^^^ ·) (r.tail ++ [0]) (rsGenerator.tail.map (gfMul q))

/-- The check symbols c_64 to c_71 of a block: the remainder of c_0·x^71 + … + c_63·x^8 divided by g(x), highest degree first (R373). -/
def checkSymbols (bytes : List (BitVec 8)) : List (BitVec 8) := bytes.foldl rsStep (List.replicate 8 0)

/-- The codeword of a block, symbol by symbol: symbol j is what lane j carries, its bit k in beat k (R374, Table 14-2). -/
def codeword (bytes : List (BitVec 8)) : List (BitVec 8) := bytes ++ checkSymbols bytes

/-- The codeword polynomial at α^i: c_j multiplies x^(71−j), so the symbols are taken from the highest degree down. -/
def rsValue (word : List (BitVec 8)) (i : Nat) : BitVec 8 := word.foldl (fun v c => gfMul v (gfPow i) ^^^ c) 0

/-- A word of symbols is a codeword: the eight roots of g(x) are roots of its polynomial (R373). -/
def isCodeword (word : List (BitVec 8)) : Bool := (List.range 8).all fun i => rsValue word i == 0

/-- The 64 bytes of a block of a partition. -/
def blockBytes (s : State) (n addr : Nat) : List (BitVec 8) := (List.range 64).map fun k => memByte s n (addr / 64 * 64 + k)

/-- The 64 bytes of a block of the stack. -/
def stackBlock (s : State) (a : Nat) : List (BitVec 8) := (List.range 64).map fun k => stackByte s (a / 64 * 64 + k)

/-! ### Decoding (R373–R377) -/

/-- The mask of marked lanes of a channel (R376). -/
def laneMask (s : State) (c : Nat) : Nat := tabGet 0 s.memc.laneBad c

/-- The number of set bits of a lane mask. -/
def laneCount (m : Nat) : Nat := ((List.range 72).filter fun l => m.testBit l).length

/-- A block with errors in the given symbols can be corrected: e + 2s ≤ 8 with e marked lanes and s further symbols (R375). -/
def correctable (s : State) (c : Nat) (errs : List Nat) : Bool :=
  let m := laneMask s c
  decide (laneCount m + 2 * (errs.filter fun l => !m.testBit l).length ≤ 8)

/-- A correction of a lane's symbol counts (R376): a lane whose count reaches the threshold within one millisecond is marked bad. -/
def laneHit (c l : Nat) (s : State) : State :=
  let ms := aonNow s / 100000
  let k := 128 * c + l
  let old := tabGet (0, 0) s.memc.laneCnt k
  let n := if old.1 = ms then old.2 + 1 else 1
  let s := { s with memc := { s.memc with laneCnt := tabPut (0, 0) s.memc.laneCnt k (ms, n) } }
  if rd s .memDev F.MEM_LANE_THR ≤ n && !(laneMask s c).testBit l then
    let s := { s with memc := { s.memc with laneBad := tabPut 0 s.memc.laneBad c (setBit (laneMask s c) l) } }
    raiseInt (fltEvent s .memDev 5) .memDev 5
  else s

/-- A frame becomes a retirement candidate (R390). -/
def addCand (h : Nat) (s : State) : State := if s.memc.cands.contains h then s else { s with memc := { s.memc with cands := s.memc.cands ++ [h] } }

/-- A corrected block (R376, R377, R390): counters, lanes, and a candidate frame at 3 or more symbols. -/
def corrected (c : Nat) (part : Option Nat) (h : Option Nat) (errs : List Nat) (s : State) : State :=
  if errs.isEmpty then s
  else
    let s := addSat (incSat s .memDev F.MEM_CE_BLOCKS) .memDev F.MEM_CE_SYMBOLS errs.length
    let s := match part with | some n => incSat s (.memPart n) F.MEM_P_CE | none => s
    let s := forS errs (laneHit c) s
    match h with
    | some h => if 3 ≤ errs.length then addCand h s else s
    | none => s

/-- The home frame of a request. -/
def reqHome (s : State) (r : MemReq) : Option Nat :=
  match r.part with
  | some n => homeFrame s n r.addr
  | none => homeOfFrame s (r.addr / 1024)

/-- The partition and address that a request reaches, where it reaches a partition's storage. -/
def reqOwner (s : State) (r : MemReq) : Option (Nat × Nat) :=
  match r.part with
  | some n => some (n, r.addr)
  | none => ownerOfStack s r.addr

/-- The block of a request is poisoned (R391). -/
def reqPoison (s : State) (r : MemReq) : Bool := match reqHome s r with | some h => (mapEnt s h).poison.testBit (r.addr % 1024 / 64) | none => false

/-- An uncorrectable block of a request is recorded (R392), for the partition whose block it is; its home frame becomes a retirement candidate (R390). -/
def reqUe (cls : Nat) (write : Bool) (r : MemReq) (s : State) : State :=
  match reqOwner s r with
  | some (n, a) => recordUeAt cls n a write s
  | none => match reqHome s r with
    | some h => recordUe cls none h (r.addr % 1024 / 64) 0 write (addCand h s)
    | none => recordUe cls none (r.addr / 1024) (r.addr % 1024 / 64) 0 write s

/-- A write reaches a block of the stack that no partition holds and that is poisoned or uncorrectable (R391), as `mendBlock` does for a partition's. -/
def mendStack (cls : Nat) (r : MemReq) (full bad : Bool) (s : State) : State :=
  if reqPoison s r || bad then
    let s := match reqHome s r with | some h => setPoison h (r.addr % 1024 / 64) false s | none => s
    if full then s else reqUe cls true r (putStack (r.addr / 64 * 64) (List.replicate 64 0) s)
  else s

/-- A command or address parity error is retried once; a second raises MEM_PHY (Table 14-1). -/
def phyErrors (n : Nat) (s : State) : State := if 2 ≤ n then raiseInt (fltEvent s .memDev 8) .memDev 8 else s

/-- A demand read with 2 or more corrected symbols joins the early-scrub queue of 64, or is dropped (R377): the block by its home frame, or in the reserved regions by its
frame. -/
def earlyScrub (blk : Nat) (s : State) : State :=
  if s.memc.early.length < 64 then { s with memc := { s.memc with early := s.memc.early ++ [blk] } } else s

/-- Symbols of a block, n of them, that a perturbation inverts (Table 20-7, RS_CORRUPT): from one that the spec leaves open on (log 3). -/
def rsSymbols (s : State) (n : Nat) : List Nat := (List.range n).map fun k => (freeNow s + k) % 72

/-- The symbols that the next block of a request's partition is to have inverted, read or (`write`) stored. -/
def rsDue (s : State) (r : MemReq) (write : Bool) : List Nat :=
  match reqOwner s r with | some (n, _) => rsSymbols s (tabGet 0 s.lcs.rsNext (2 * n + b2n write)) | none => []

/-- The perturbation has met its block. -/
def rsDone (r : MemReq) (write : Bool) (s : State) : State :=
  if (rsDue s r write).isEmpty then s
  else match reqOwner s r with
    | some (n, _) => freeStep { s with lcs := { s.lcs with rsNext := tabDel s.lcs.rsNext (2 * n + b2n write) } }
    | none => s

/-- The symbols in which a block comes from the stack in error: the given ones, and those that are stored inverted. -/
def withStored (s : State) (blk : Nat) (errs : List Nat) : List Nat := errs ++ (tabGet [] s.lcs.rsBad blk).filter fun l => !errs.contains l

/-- A block is written with some symbols inverted, or with none. -/
def storeInverted (blk : Nat) (l : List Nat) (s : State) : State := { s with lcs := { s.lcs with rsBad := tabPut [] s.lcs.rsBad blk l } }

/-- MEMORY_READ_DONE: the channel's next request, a read, returns with errors in the given symbols, beside those of a perturbation (R375, R377, R391, R392, R499, Table 14-7). -/
def readDone (c now : Nat) (errs : List Nat) (phy : Nat) (s : State) : State :=
  match nextReq s c now with
  | none => s
  | some r =>
    if r.data.isSome then s
    else
      let cls := reqClass r.reqr
      let stored := withStored s (reqBlock s r) errs
      let errs := stored ++ (rsDue s r false).filter fun l => !stored.contains l
      let s := hotSpend cls now r.len (phyErrors phy (rsDone r false (setChan c ((chanReqs s c).erase r) s)))
      let s := match r.part with | some n => countBytes cls n r.len s | none => s
      if reqPoison s r || !correctable s c errs then
        let s := emit s (.memData r.reqr none)
        match r.part with
        | some n => if cls = 1 then engineUe r.reqr n r.addr s else reqUe cls false r s
        | none => reqUe cls false r s
      else
        let s := corrected c ((reqOwner s r).map (·.1)) (reqHome s r) errs s
        let s := if decide (2 ≤ errs.length) && decide (cls ≤ 3) then earlyScrub (16 * (reqHome s r).getD (r.addr / 1024) + r.addr % 1024 / 64) s else s
        emit s (.memData r.reqr (some (match r.part with | some n => readMem s n r.addr r.len | none => readStack s r.addr r.len)))

/-- MEMORY_READ_DONE (R377). -/
def execMemoryReadDone (c now : Nat) (errs : List Nat) (phy : Nat) (s : State) : Host.Outcome State Fault Refusal := .next (readDone c now errs phy s)

/-- MEMORY_WRITE_ACK: the channel's next request, a write, is acknowledged (R379, R391), and the block's codeword goes to the lanes (R373, R374); one of fewer than 64 bytes reads, merges and writes the block, with
errors in the given symbols, and a perturbation may store it with some inverted (R499). -/
def writeAck (c now : Nat) (errs : List Nat) (phy : Nat) (s : State) : State :=
  match nextReq s c now with
  | none => s
  | some r =>
    match r.data with
    | none => s
    | some bytes =>
      let cls := reqClass r.reqr
      let errs := withStored s (reqBlock s r) errs
      let s := storeInverted (reqBlock s r) (rsDue s r true) s
      let s := hotSpend cls now r.len (phyErrors phy (rsDone r true (setChan c ((chanReqs s c).erase r) s)))
      let full := decide (64 ≤ bytes.length)
      let bad := !full && !reqPoison s r && !correctable s c errs
      let s := if full || bad || reqPoison s r then s else corrected c ((reqOwner s r).map (·.1)) (reqHome s r) errs s
      let blk := r.addr / 64 * 64
      match r.part with
      | some n =>
        let s := putBytes (mendBlock cls n r.addr bytes.length bad blk s) n r.addr bytes
        countBytes cls n r.len (emit s (.burst c (stackFrame s n r.addr) (r.addr % 1024 / 64) (partPlace s n blk).2 (codeword (blockBytes s n r.addr))))
      | none =>
        let s := match reqOwner s r with
          | some (n, a) => mendBlock cls n a bytes.length bad (a / 64 * 64) s
          | none => mendStack cls r full bad s
        let s := putStack r.addr bytes s
        emit s (.burst c (r.addr / 1024) (r.addr % 1024 / 64) (stackPlace s blk).2 (codeword (stackBlock s r.addr)))

/-- MEMORY_WRITE_ACK (R379). -/
def execMemoryWriteAck (c now : Nat) (errs : List Nat) (phy : Nat) (s : State) : Host.Outcome State Fault Refusal := .next (writeAck c now errs phy s)

/-! ### Temperature and refresh (R380–R384) -/

/-- The owed count of a channel (R382). -/
def owedOf (s : State) (c : Nat) : Int := tabGet 0 s.memc.owed c

/-- Store the owed count of a channel. -/
def setOwed (c : Nat) (v : Int) (s : State) : State := { s with memc := { s.memc with owed := tabPut 0 s.memc.owed c v } }

/-- A channel is catching up (R383). -/
def catching (s : State) (c : Nat) : Bool := tabGet false s.memc.catchUp c

/-- HOT_RATE changes (R381, R383): the interrupt, and when it sets every channel that owes units stops postponing. -/
def setHotRate (on : Bool) (s : State) : State :=
  if rdb s .memDev F.MEM_TEMP_HOT_RATE = on then s
  else
    let s := raiseInt (wrb s .memDev F.MEM_TEMP_HOT_RATE on) .memDev 9
    let cs := if on then (List.range 16).filterMap (fun c => if 0 < owedOf s c then some (c, true) else none) else []
    { s with memc := { s.memc with catchUp := cs } }

/-- A stack temperature reading (R380, R381, R384); `none` where it failed. -/
def tempRead (t : Option Int) (s : State) : State :=
  match t with
  | none => setHotRate true (setLiveInt (wrb s .memDev F.MEM_TEMP_VALID false) .memDev 4 4 true)
  | some t =>
    let s := setLiveInt (wrs s .memDev [(F.MEM_TEMP_TEMP, ofSigned 8 t), (F.MEM_TEMP_VALID, 1)]) .memDev 4 4 false
    let thr : Int := rd s .memDev F.MEM_REF_CFG_THR
    let s := if thr ≤ t then setHotRate true s else if t ≤ thr - 5 then setHotRate false s else s
    if 95 ≤ t then setLiveInt (wrb s .memDev F.MEM_TEMP_SEVERE true) .memDev 3 3 true
    else if t ≤ 90 then setLiveInt (wrb s .memDev F.MEM_TEMP_SEVERE false) .memDev 3 3 false else s

/-- STACK_TEMP_READ (R380). -/
def execStackTempRead (t : Option Int) (s : State) : Host.Outcome State Fault Refusal := .next (tempRead t s)

/-- REFRESH_TICK (R382). In self-refresh the stack refreshes itself. -/
def execRefreshTick (c : Nat) (s : State) : Host.Outcome State Fault Refusal :=
  .next (if s.memc.sr = 2 then s else setOwed c (owedOf s c + 1) s)

/-- The allowance of R382. -/
def allowance (s : State) : Int := if rdb s .memDev F.MEM_TEMP_HOT_RATE then 4 else 8

/-- A channel issues a unit (R382, R383). -/
def unitDue (s : State) (c : Nat) : Bool :=
  let o := owedOf s c
  catching s c || (decide (1 ≤ o) && !((chanReqs s c).any fun r => reqClass r.reqr == 1)) || decide (allowance s ≤ o) ||
    ((chanReqs s c).isEmpty && decide (-8 < o))

/-- A refresh unit of a channel, where one is due; a channel that has caught up counts (R382, R383). -/
def refreshUnit (c : Nat) (s : State) : State :=
  if s.memc.sr = 2 || !unitDue s c then s
  else
    let o := owedOf s c - 1
    let was := catching s c
    let s := setOwed c o s
    if was && decide (o ≤ 0) then
      incSat { s with memc := { s.memc with catchUp := tabPut false s.memc.catchUp c false } } .memDev F.MEM_REF_CATCHUP
    else s

/-- REFRESH_UNIT (R382). -/
def execRefreshUnit (c : Nat) (s : State) : Host.Outcome State Fault Refusal := .next (refreshUnit c s)

/-! ### Speed change (R385, R386) -/

/-- A site of any partition is PRIMING or RUNNING. -/
def anyBusy (s : State) : Bool := (List.range 64).any (siteBusy s)

/-- A write of `MEM_SPEED.TARGET` (R385): equal to ACTIVE it cancels a pending change. -/
def speedTarget (word : Nat) (s : State) : State :=
  let s := wr s .memDev F.MEM_SPEED_TARGET word
  wrb s .memDev F.MEM_SPEED_PENDING (rd s .memDev F.MEM_SPEED_TARGET ≠ rd s .memDev F.MEM_SPEED_ACTIVE)

/-- SPEED_TARGET_WRITE (R385). -/
def execSpeedTargetWrite (m word : Nat) (s : State) : Host.Outcome State Fault Refusal := .next (takeIn m (.speedTargetWrite m word) false (fun s => asWriter s m .memDev F.MEM_SPEED_TARGET.off true (speedTarget word)) s)

/-- Self-refresh entry (Table 14-6): the entry decision, with no site PRIMING or RUNNING. -/
def entryDecision (sleep : Bool) (s : State) : State := { s with memc := { s.memc with sr := 1, srSleep := sleep, srAborted := false } }

/-- The self-refresh entry command: every channel has issued its owed units, and one that was catching up has caught up (R383). -/
def entryCommand (s : State) : State :=
  let s := forS (List.range 16) (fun c s =>
    let s := if catching s c then incSat s .memDev F.MEM_REF_CATCHUP else s
    if 0 < owedOf s c then setOwed c 0 s else s) s
  { s with memc := { s.memc with sr := 2, catchUp := [] } }

/-- Self-refresh exit: one unit per channel, and held requests are served (Table 14-6). -/
def selfRefreshExit (s : State) : State :=
  let s := forS (List.range 16) (fun c s => if -8 < owedOf s c then setOwed c (owedOf s c - 1) s else s) s
  let rel := s.memc.chans.map fun c => (c.1, c.2.map fun r => { r with held := false })
  { s with memc := { s.memc with sr := 0, srSleep := false, chans := rel } }

/-- SPEED_CHANGE_ENTRY (R385, Table 14-6): the entry decision, or with `command` the entry command that follows it. -/
def execSpeedChangeEntry (command : Bool) (s : State) : Host.Outcome State Fault Refusal :=
  .next (if command then (if s.memc.sr = 1 && !s.memc.srSleep then entryCommand s else s)
    else if rdb s .memDev F.MEM_SPEED_PENDING && s.memc.sr = 0 && !anyBusy s then entryDecision false s
    else s)

/-- The operating point changes in self-refresh: ACTIVE takes TARGET (R385). -/
def speedSwitch (s : State) : State := wrs s .memDev [(F.MEM_SPEED_ACTIVE, rd s .memDev F.MEM_SPEED_TARGET), (F.MEM_SPEED_PENDING, 0)]

/-- SPEED_DONE (Table 14-6). -/
def execSpeedDone (s : State) : Host.Outcome State Fault Refusal :=
  .next (if s.memc.sr = 2 && !s.memc.srSleep then raiseInt (selfRefreshExit (speedSwitch s)) .memDev 10 else s)

/-! ### Scrub (R388–R390) -/

/-- Frames of the stack: 36 regions of 2^20 (R367). -/
def stackFrames : Nat := 36 * 2 ^ 20

/-- The scrub moves to the next block; after the last a pass is complete (R388). -/
def scrubAdvance (s : State) : State :=
  if s.memc.scrubBlk < 15 then { s with memc := { s.memc with scrubBlk := s.memc.scrubBlk + 1 } }
  else
    let s := { s with memc := { s.memc with scrubBlk := 0 } }
    if rd s .memDev F.MEM_SCRUB_POS + 1 < stackFrames then addWrap s .memDev F.MEM_SCRUB_POS 1
    else incWrap (wr s .memDev F.MEM_SCRUB_POS 0) .memDev F.MEM_SCRUB_PASSES

/-- A frame whose blocks correct 2 or more symbols in two scrub passes within 7 days becomes a candidate (R390). -/
def passHit (h : Nat) (s : State) : State :=
  let pass := rd s .memDev F.MEM_SCRUB_PASSES + 1
  let put (s : State) : State := { s with memc := { s.memc with passHits := tabPut (0, 0) s.memc.passHits h (pass, aonNow s) } }
  let old := tabGet (0, 0) s.memc.passHits h
  if old.1 ≠ 0 && old.1 ≠ pass && decide (aonNow s ≤ old.2 + 7 * 86400 * 100000000) then put (addCand h s) else put s

/-- The scrub reads a block, with errors in the given symbols, beside those stored inverted (R388–R392, R499). A corrected block is rewritten; an uncorrectable one is poisoned and recorded. -/
def scrubBlock (frame blk : Nat) (errs : List Nat) (s : State) : State :=
  let errs := withStored s (16 * frame + blk) errs
  match homeOfFrame s frame with
  | none =>
    let c := (stackPlace s (frame * 1024 + 64 * blk)).1
    if correctable s c errs then corrected c none none errs (storeInverted (16 * frame + blk) [] s) else recordUe 4 none frame blk 0 false s
  | some h =>
    let own := ownerOfFrame s h
    let c := (stackPlace s (frame * 1024 + 64 * blk)).1
    let ue (s : State) : State :=
      match own with
      | some (n, a) => recordUeAt 4 n (a + 64 * blk) false s
      | none => recordUe 4 none h blk 0 false (addCand h s)
    if (mapEnt s h).poison.testBit blk then ue s
    else if correctable s c errs then
      let s := corrected c (own.map (·.1)) (some h) errs (storeInverted (16 * frame + blk) [] s)
      if 2 ≤ errs.length then passHit h s else s
    else ue (setPoison h blk true s)

/-- The scrub may run: enabled, not paused by heat, and not held (R384, R386, R388). -/
def scrubRuns (s : State) : Bool := rdb s .memDev F.MEM_SCRUB_EN && !rdb s .memDev F.MEM_TEMP_SEVERE && memServes s 4

/-- SCRUB_READ (R388): a queued block first, else the block at the scrub's position. -/
def execScrubRead (errs : List Nat) (s : State) : Host.Outcome State Fault Refusal :=
  .next (
    if !scrubRuns s then s
    else match s.memc.early with
    | b :: l =>
      let f := b / 16
      let s := { s with memc := { s.memc with early := l } }
      scrubBlock (if f < 2 ^ 25 then (mapEnt s f).frame else f) (b % 16) errs s
    | [] => scrubAdvance (scrubBlock (rd s .memDev F.MEM_SCRUB_POS) s.memc.scrubBlk errs s))

/-! ### Retirement (R393–R395) -/

/-- The sites of the partition that owns a frame's region keep the frame busy (R31, R393). -/
def frameBusy (s : State) (h : Nat) : Bool := match ownerOfFrame s h with | some (n, _) => partBusy s n | none => false

/-- RETIREMENT_START (R393, R394): an approved frame takes a free spare frame; with none left it is refused with SPARE_EMPTY. -/
def retireStart (h : Nat) (s : State) : State :=
  if s.memc.approved.contains h && s.memc.copying.isNone && !frameBusy s h && s.memc.sr == 0 then
    let s := { s with memc := { s.memc with approved := s.memc.approved.erase h } }
    let left := rd s .memDev F.MEM_SPARES
    if left = 0 then raiseInt (propNoSpare 7 h s) .memDev 6
    else { s with memc := { s.memc with copying := some (h, 33 * 2 ^ 20 + (2 ^ 20 - left)) } }
  else s

/-- RETIREMENT_START (R393). -/
def execRetirementStart (h : Nat) (s : State) : Host.Outcome State Fault Refusal := .next (retireStart h s)

/-- An uncorrectable block that the retirement copy reads is recorded (R392). -/
def copyUe (h blk : Nat) (s : State) : State :=
  match ownerOfFrame s h with
  | some (n, a) => recordUeAt 4 n (a + 64 * blk) false s
  | none => recordUe 4 none h blk 0 false s

/-- RETIREMENT_DONE (R394, Table 17-2): the uncorrectable blocks are recorded (R392), and the map entry points to the spare; `bad` are the blocks that could
not be corrected, and `row` the DRAM row where firmware finds that the frame's fault lies in one (R396). A partition whose site has begun to run meanwhile keeps the
frame it has: the copy ends when the frame is idle again (R31). -/
def retireDone (bad : Nat) (row : Option Nat) (s : State) : State :=
  match s.memc.copying with
  | none => s
  | some (h, f) =>
    if rdb s .memDev F.MEM_TEMP_SEVERE || !memServes s 4 || frameBusy s h then s
    else
      let mask := (mapEnt s h).poison ||| bad % 2 ^ 16
      let s := forS ((List.range 16).filter fun k => mask.testBit k) (copyUe h) s
      let s := setMapEnt h ⟨f, true, mask⟩ { s with memc := { s.memc with copying := none } }
      let s := propDone 7 h s
      let s := retireAdd (h :: (row.map (rowEntry h)).toList) { s with memc := { s.memc with cands := s.memc.cands.erase h } }
      let left := rd s .memDev F.MEM_SPARES - 1
      setLiveInt (wr (incSat s .memDev F.MEM_RETIRED) .memDev F.MEM_SPARES left) .memDev 6 6 (left == 0)

/-- RETIREMENT_DONE (R394). -/
def execRetirementDone (bad : Nat) (row : Option Nat) (s : State) : Host.Outcome State Fault Refusal := .next (retireDone bad row s)

/-! ### Map lookup (R370, Table 14-8) -/

/-- MAP_LOOKUP (R370): a write of `MEM_MAP_Q`. -/
def execMapLookup (m word : Nat) (s : State) : Host.Outcome State Fault Refusal :=
  .next (takeIn m (.mapLookup m word) false (fun s => asWriter s m .memDev F.MEM_MAP_Q.off true
    (fun s => let t := wr s .memDev F.MEM_MAP_Q word; { t with memc := { t.memc with lookup := true } })) s)

/-- A map entry as 64 bits (R370). -/
def mapWord (x : MapEnt) : Nat := x.frame + b2n x.remapped * 2 ^ 26 + x.poison * 2 ^ 32

/-- MAP_LOOKUP_DONE (R370): `fails` copies were uncorrectable, met in class 4, the class of the map's own traffic (log 104); with both, MAP_UE is raised and the entry read is a
free value. -/
def execMapLookupDone (fails : Nat) (s : State) : Host.Outcome State Fault Refusal :=
  .next (
    if !s.memc.lookup then s
    else
      let s := { s with memc := { s.memc with lookup := false } }
      let s := mapUe 4 fails s
      if 2 ≤ fails then freeStep (wr s .memDev F.MEM_MAP_ENT (freeNow s))
      else wr s .memDev F.MEM_MAP_ENT (mapWord (mapEnt s (rd s .memDev F.MEM_MAP_Q))))

end Sys2Proof.Machine
end

