-- ==== Sys2Proof/Machine/Host.lean ====
section
/-! DEFINITION. The host interface (chapter 15): the partition map, BAR2, descriptor and streaming rings, interrupts by MSI-X, partition reset, links. -/

namespace Sys2Proof.Machine

open Sys2Proof

/-! ### Switched domains (R433, R434, R462) -/

/-- The pages of a domain. -/
def domPages (d : Nat) : List Page := allPages.filter fun p => pageDom p == d

/-- The function of a page is on (R433). -/
def fnOn (s : State) (p : Page) : Bool := pageOn s p && !s.pwr.fnOff.contains (pageBase p)

/-- Some page of the domain asks for it: `BLK_CTRL.EN`, while its function has not been shut down (R433, Table 18-3). -/
def domAsked (s : State) (d : Nat) : Bool := (domPages d).any fun p => enImpl p && rdb s p F.BLK_CTRL_EN && !s.pwr.fnOff.contains (pageBase p)

/-- A cluster has an engine that serves a share, or that is still at work (R187). -/
def clusterServes (s : State) (k : Nat) : Bool :=
  (List.range 17).any fun j => (engPart s (17 * k + j)).isSome || (engOf s (17 * k + j)).work.isSome

/-- A calibration runs or is pending (R349). -/
def calWanted (s : State) : Bool := !s.cal.runs.isEmpty || s.cal.reqs.any fun r => !r.isEmpty

/-- A domain is wanted (R349, Table 18-3). A cluster that is off is wanted once the shares ask for more engines than the clusters that are on have. -/
def domWanted (s : State) (d : Nat) : Bool :=
  if d < 16 || d = 23 then domAsked s d
  else if d < 20 then clusterServes s (d - 16) || decide ((usableEngs s).length < (shares s).sum)
  else if d = 20 then (List.range 4).any (clusterOn s)
  else if d = 24 then (List.range 16).any (domOn s)
  else if d = 25 then domAsked s d || calWanted s
  else if d = 27 then calWanted s
  else if d = 28 then s.boot.busy || !s.boot.ops.isEmpty || s.pwr.stage == .rom || s.pwr.stage == .recovery
  else if d = 29 then domAsked s d || rd s .lcs F.LCS_STATE_STATE == 0 || rd s .lcs F.LCS_STATE_STATE == 3
  else true

/-- What a domain will be once every change requested of it is carried out. -/
def domGoal (s : State) (d : Nat) : Bool := (((s.pwr.queue.filter fun x => x.1 == d).getLast?).map (·.2)).getD (domOn s d)

/-- The changes that firmware wants of the domains it switches itself, in ascending number (R462, Table 18-3). -/
def fwChanges (s : State) : List (Nat × Bool) :=
  ([16, 17, 18, 19, 20, 24, 25, 27, 28, 29].filter fun d => domGoal s d != domWanted s d).map fun d => (d, domWanted s d)

/-- A change of a domain is requested, behind those that firmware has wanted before; one that already waits as the domain's last is not repeated (R462). -/
def domPush (d : Nat) (on : Bool) (s : State) : State :=
  if (s.pwr.queue.filter fun x => x.1 == d).getLast? = some (d, on) then s
  else { s with pwr := { s.pwr with queue := s.pwr.queue ++ fwChanges s ++ [(d, on)] } }

/-- The start-up of a page's function is in progress or waits: EN is set, and the domain's start-up has been requested. -/
def fnStarting (s : State) (p : Page) : Bool := rdb s p F.BLK_CTRL_EN && !fnOn s p && s.pwr.queue.contains (pageDom p, true)

/-- A write of `BLK_CTRL.EN` = 1 (R434): pending behind a shutdown in progress; no effect on a function that is on or starting, though a disable waits for the end of its
start-up; else the start-up begins. -/
def enableEffect (p : Page) (s : State) : State :=
  let d := pageDom p
  let t := wrb s p F.BLK_CTRL_EN true
  if rdb s p F.BLK_STAT_OFF_PENDING then (if fnOn s p then wrb t p F.BLK_STAT_ON_PENDING true else t)
  else if fnOn s p then t
  else wrb (domPush d true s) p F.BLK_CTRL_EN true

/-- A page's function is turned off (R433, R434): a pending enable is withdrawn; a function that is on begins its shutdown, and one that is starting shuts down once it
is on. -/
def turnOff (p : Page) (s : State) : State :=
  let t := wrb s p F.BLK_CTRL_EN false
  if rdb s p F.BLK_STAT_ON_PENDING then wrb t p F.BLK_STAT_ON_PENDING false
  else if rdb s p F.BLK_STAT_OFF_PENDING then t
  else if fnOn s p then wrs (domPush (pageDom p) false s) p [(F.BLK_CTRL_EN, 0), (F.BLK_STAT_OFF_PENDING, 1)]
  else if fnStarting s p then wrb t p F.BLK_STAT_OFF_PENDING true
  else t

/-- A reset of a page's registers sets `BLK_CTRL.EN` to the value that the power sequence table gives it (R433, R461, Table 16-2). -/
def enReset (p : Page) (s : State) : State :=
  if !enImpl p then s else if s.pwr.manifest.testBit (pageDom p) then enableEffect p s else turnOff p s

/-- A fuse word. -/
def fuseWord (s : State) (row word : Nat) : Nat := tabGet 0 s.lcs.fuses (row * 32 + word)

/-! ### Reset of a page's registers (R418, R437, R445) -/

/-- Every register in a range of byte addresses returns to its reset value. -/
def resetRange (lo hi : Nat) (s : State) : State := { s with regs := tabDrop s.regs (65536 * lo) (65536 * hi) }

/-- What the masters have open for a page is gone without being counted (Table 16-5), with mismatches and write-once marks. -/
def forgetPage (p : Page) (s : State) : State :=
  let lo := pageBase p
  let hi := lo + pageSize p
  { s with mgt := { s.mgt with parBad := tabDrop s.mgt.parBad lo hi, parSeen := tabDrop s.mgt.parSeen lo hi, written := tabDrop s.mgt.written lo hi,
                               pairs := s.mgt.pairs.filter fun x => decide (x.1 % 2 ^ 40 < lo) || decide (hi ≤ x.1 % 2 ^ 40) } }

/-- The fault state of a page returns to its reset values (R447). -/
def forgetFaults (p : Page) (s : State) : State :=
  let lo := pageBase p
  { s with mgt := { s.mgt with flt := tabDrop s.mgt.flt lo (lo + 32), safePar := tabDel s.mgt.safePar lo, safeEsc := tabDel s.mgt.safeEsc lo,
                               blkReset := tabDel s.mgt.blkReset lo } }

/-- Every register of a page returns to its reset value, with its fault state; the listed fields keep theirs. -/
def resetFields (p : Page) (keep : List Fld) (s : State) : State :=
  let old := keep.map fun f => (f, rd s p f)
  wrs (forgetFaults p (forgetPage p (resetRange (pageBase p) (pageBase p + pageSize p) s))) p old

/-- Every register of a page returns to its reset value, and its function is turned on or off as the manifest gives it (R418, R433); a change of its domain that is under
way goes on. -/
def resetPage (p : Page) (keep : List Fld) (s : State) : State :=
  if enImpl p then enReset p (resetFields p ([F.BLK_CTRL_EN, F.BLK_STAT_ON_PENDING, F.BLK_STAT_OFF_PENDING] ++ keep) s) else resetFields p keep s

/-- A bank's own state and its registers return to reset values (R405, R418): timing sets, furrows, cistern, stamp stream and port queues with them. The
spare mapping in force stays until it is replaced (R31), and a halt or a brown-out keeps the bank safe. -/
def resetBank (b : Nat) (s : State) : State :=
  let old := bankOf s b
  let sel := pecBank s (b / 2)
  let s := resetPage (.bnk b) [] (pecLost b s)
  let s := putPec (b / 2) (if pecBank s (b / 2) = sel then pecOf s (b / 2) else pecInit) s
  let s := setBank s b { bankInit with safe := old.safe &&& (2 ^ 4 + 2 ^ 6), spare := old.spare, convSpare := old.convSpare }
  let s := wrs s (.bnk b) [(F.BLK_STAT_SAFE, b2n s.pat.halted), (F.BNK_STAT_SAFE, b2n ((bankOf s b).safe != 0)), (F.BNK_SPARE_ACTIVE, b2n old.spare.isSome), (F.EDG_SPARE_ACTIVE, b2n old.convSpare.isSome)]
  let s := forS (List.range 4) (fun k s => setFur s (4 * b + k) furInit) s
  let s := forS (List.range 16) (fun j s => setConv s (16 * b + j) convInit) s
  setSring s b sringInit

/-- The equal shares of a bifurcation (R187). -/
def bifurShares (bifur : Nat) : List Nat := match bifur with | 0 => [64, 0, 0, 0] | 1 => [32, 32, 0, 0] | _ => [16, 16, 16, 16]

/-! ### The partition map (R399, R405, R406) -/

/-- The owner nibble of bank b in the two registers. -/
def ownerNibble (lo hi b : Nat) : Nat := if b < 8 then bits lo (4 * b + 3) (4 * b) else bits hi (4 * b - 29) (4 * b - 32)

/-- A change of a bank's owner is refused (R405): a value of 4 to 14, a quad in a defined site, or an owner without a port. -/
def ownerBad (s : State) (b o : Nat) : Bool :=
  (decide (4 ≤ o) && decide (o < 15)) || !(sitesOfBank s b).isEmpty || (decide (o < 4) && !portExists s o)

/-- An owner move begins (R405). -/
def bankMove (b : Nat) (s : State) : State :=
  let s := calAbortDue b (safeBank b 3 s)
  wrb { s with hif := { s.hif with moving := s.hif.moving ++ [b] } } .hifDev F.HIF_DEV_STAT_MOVING true

/-- A write of `HIF_BANK_OWN_LO`, or with `hi` of `HIF_BANK_OWN_HI` (R405). -/
def bankOwnWrite (hi : Bool) (word : Nat) (s : State) : State :=
  let f := if hi then F.HIF_BANK_OWN_HI else F.HIF_BANK_OWN_LO
  let old := rd s .hifDev f
  let nib (w j : Nat) : Nat := bits w (4 * j + 3) (4 * j)
  let changed := (List.range 8).filter fun j => nib old j != nib word j
  let bank (j : Nat) : Nat := if hi then 8 + j else j
  if changed.any fun j => ownerBad s (bank j) (nib word j) then fltEvent s .hifDev 1
  else wr (forS changed (fun j s => bankMove (bank j) s) s) .hifDev f word

/-- The device page of HIF is in its safe state: partition map writes are refused (Table 16-4). -/
def hifSafe (s : State) : Bool := rdb s .hifDev F.BLK_STAT_SAFE

/-- A partition map write, unless the page is in its safe state. -/
def mapWrite (f : State → State) (s : State) : State := if hifSafe s then fltEvent s .hifDev 1 else f s

/-- BANK_OWNER_CHANGE (R405). -/
def execBankOwnerChange (m : Nat) (hi : Bool) (word : Nat) (s : State) : Host.Outcome State Fault Refusal :=
  .next (takeIn m (.bankOwnerChange m hi word) false
    (fun s => asWriter s m .hifDev (if hi then F.HIF_BANK_OWN_HI.off else F.HIF_BANK_OWN_LO.off) true (mapWrite (bankOwnWrite hi word))) s)

/-- BANK_MOVE_DONE (R405). -/
def execBankMoveDone (b : Nat) (s : State) : Host.Outcome State Fault Refusal :=
  .next (if s.hif.moving.contains b then
    let s := resetBank b { s with hif := { s.hif with moving := s.hif.moving.erase b } }
    wrb s .hifDev F.HIF_DEV_STAT_MOVING (!s.hif.moving.isEmpty)
  else s)

/-- An area in use of a partition reaches beyond a number of bytes (R406). -/
def areaBeyond (s : State) (n lim : Nat) : Bool :=
  (rdb s (.cmpPart n) F.CMP_LED_CTRL_EN && decide (lim < ledgerBase s n + 16 * ledgerSize s n)) ||
  ((List.range 16).any fun b => bankOwner s b == n &&
    ((acqState s b != 0 && acqState s b != 5 && decide (lim < (acqOf s b).cfg.area + 2 ^ ((acqOf s b).cfg.slot + (acqOf s b).cfg.nslot))) ||
     (rdb s (.bnk b) F.EDG_SR_CTRL_EN && decide (lim < stampBase s b + 8 * 2 ^ (ringCfgOf s b).2)))) ||
  ((List.range 16).any fun r => rdb s (.bar4 n) (F.RING_CTRL_EN r) && decide (lim < ringBase s n r + ringSize s n r)) ||
  (n == 0 && rdb s .boot F.BOOT_UPD_STAT_BUSY &&
    decide (lim < rd s .boot F.BOOT_UPD_SRC_HI * 2 ^ 32 + rd s .boot F.BOOT_UPD_SRC_LO * 2 ^ 12 + rd s .boot F.BOOT_UPD_LEN))

/-- The quotas that a word gives. -/
def quotaWord (word n : Nat) : Nat := bits word (8 * n + 5) (8 * n)

/-- A write of `HIF_QUOTA` is refused (R399, R406). -/
def quotaBad (s : State) (word : Nat) : Bool :=
  let q := quotaWord word
  decide (32 < q 0 + q 1 + q 2 + q 3) ||
  (List.range 4).any fun n => (decide (0 < q n) && !portExists s n) ||
    (decide (q n < rd s .hifDev (quotaFld n)) && (partBusy s n || areaBeyond s n (q n * 2 ^ 30)))

/-- The grain selected when a quota becomes nonzero is in force until it is 0 again (R371). -/
def latchGrain (n old q : Nat) (s : State) : State :=
  if q = 0 then { s with memc := { s.memc with grains := tabDel s.memc.grains n } }
  else if old = 0 then { s with memc := { s.memc with grains := tabIns s.memc.grains n (grainAsked s n) } } else s

/-- The bytes of stack regions are gone. -/
def dropRegions (l : List Nat) (m : List Host.Cell) : List Host.Cell := l.foldl (fun m r => tabDrop m (2 ^ 37 + r * 2 ^ 30) (2 ^ 37 + (r + 1) * 2 ^ 30)) m

/-- Partition n's quota becomes q GiB (R368, R372): removed regions lose their content and are cleared; new ones are the lowest free, and are addressable
once they are clear, with every POISON bit clear. -/
def setQuota (n q : Nat) (s : State) : State :=
  let old := rd s .hifDev (quotaFld n)
  let have_ := quotaGib s n
  let cur := s.memc.regions.getD n []
  let s := latchGrain n old q (wr s .hifDev (quotaFld n) q)
  if q ≤ old then
    { s with mem := tabDrop s.mem (n * 2 ^ 35 + q * 2 ^ 30) ((n + 1) * 2 ^ 35),
             memc := { s.memc with regions := s.memc.regions.set n (cur.take q),
                                   clearing := if q ≤ have_ then tabPut none s.memc.clearing n none else s.memc.clearing } }
  else
    let free := (List.range 32).filter fun r => !(s.memc.regions.any fun l => l.contains r)
    let new := free.take (q - old)
    let map := s.memc.map.filterMap fun e =>
      if new.contains (e.1 / 2 ^ 20) then (if e.2.remapped then some (e.1, { e.2 with poison := 0 }) else none) else some e
    { s with mem := dropRegions new s.mem,
             memc := { s.memc with regions := s.memc.regions.set n (cur ++ new), clearing := tabPut none s.memc.clearing n (some have_), map := map } }

/-- A write of `HIF_QUOTA` (R406): shrinking partitions first. -/
def quotaWrite (word : Nat) (s : State) : State :=
  if quotaBad s word then fltEvent s .hifDev 1
  else
    let shrinks (n : Nat) : Bool := decide (quotaWord word n < rd s .hifDev (quotaFld n))
    let grows (n : Nat) : Bool := decide (rd s .hifDev (quotaFld n) < quotaWord word n)
    let l := (List.range 4).filter shrinks ++ (List.range 4).filter grows
    forS l (fun n s => setQuota n (quotaWord word n) s) s

/-- QUOTA_WRITE (R406). -/
def execQuotaWrite (m word : Nat) (s : State) : Host.Outcome State Fault Refusal := .next (takeIn m (.quotaWrite m word) false (fun s => asWriter s m .hifDev F.HIF_QUOTA_0.off true (mapWrite (quotaWrite word))) s)

/-- CLEAR_DONE (R372): class-4 work, which heat pauses (R384). -/
def execClearDone (n : Nat) (s : State) : Host.Outcome State Fault Refusal :=
  .next (if (tabGet none s.memc.clearing n).isSome && !rdb s .memDev F.MEM_TEMP_SEVERE && memServes s 4 then
    let s := { s with memc := { s.memc with clearing := tabPut none s.memc.clearing n none } }
    raiseInt (raiseInt s .memDev 12) (.memPart n) 12
  else s)

/-! ### BAR2 (R403, R414, R416) -/

/-- log2 of the BAR2 size of a port: 1 GiB after reset (Table 15-3). -/
def barLog (s : State) (n : Nat) : Nat := tabGet 30 s.hif.barSize n

/-- The partition address of a BAR2 offset (R403). -/
def barAddr (s : State) (n x : Nat) : Nat := rd s (.hifPart n) F.HIF_P_WIN * 2 ^ 28 + x

/-- A request of a host for n bytes at a BAR2 offset waits (R386, R394, R416): pattern memory serves no request of class 3, or a frame that it touches is being copied. -/
def barWaits (s : State) (n x len : Nat) : Bool :=
  !memServes s 3 || match s.memc.copying with
    | none => false
    | some (h, _) => (blocksOf (barAddr s n x) len).any fun blk => homeFrame s n blk == some h

/-- A held request of a host goes on waiting. -/
def heldWaits (s : State) (c : Instr) : Bool :=
  hostSleeps s || match c with
    | .bar2Write n x data _ => barWaits s n x data.length
    | .bar2Read n x len _ => barWaits s n x len
    | _ => false

/-- The first held request that waits no longer and follows no other of its port, and those that stay held; `seen` are the ports of those passed over. -/
def nextHeld (s : State) (seen : List Nat) : List (Nat × Instr) → Option (Instr × List (Nat × Instr))
  | [] => none
  | x :: l =>
    if seen.contains x.1 || heldWaits s x.2 then (nextHeld s (x.1 :: seen) l).map fun r => (r.1, x :: r.2) else some (x.2, l)

/-- A host write of bytes at a BAR2 offset; `ep` marks a poisoned request. It is acknowledged at once (R414, log 1). -/
def barWrite (n x : Nat) (data : List Nat) (ep : Bool) (s : State) : State :=
  let a := barAddr s n x
  if !portExists s n || !domOn s 22 || 2 ^ barLog s n < x + data.length then s
  else if ep then incSat s (.hifPart n) F.POISON_RX
  else if !hostQuota s n a data.length then incSat s (.hifPart n) F.OOR_ACCESS
  else writeBytes 3 n a data s

/-- BAR2_WRITE (R403). -/
def execBar2Write (n x : Nat) (data : List Nat) (ep : Bool) (s : State) : Host.Outcome State Fault Refusal := .next (takeIn n (.bar2Write n x data ep) (barWaits s n x data.length) (barWrite n x data ep) s)

/-- One completion of a BAR2 read: the part of [a, a + len) in a block; `ue` are the blocks found uncorrectable (R403, Table 14-7). -/
def barPart (n a len : Nat) (ue : List Nat) (blk : Nat) (s : State) : State :=
  let lo := max a blk
  let k := min (a + len) (blk + 64) - lo
  if poisonAt s n blk || ue.contains (blk / 64) then recordUeAt 3 n blk false (emit s (.bar2 n lo k none))
  else emit s (.bar2 n lo k (some (readMem s n lo k)))

/-- A host read of len bytes at a BAR2 offset. -/
def barRead (n x len : Nat) (ue : List Nat) (s : State) : State :=
  let a := barAddr s n x
  if !portExists s n || !domOn s 22 || 2 ^ barLog s n < x + len then s
  else if !hostQuota s n a len then
    forS (blocksOf a len) (fun blk s => emit s (.bar2 n (max a blk) (min (a + len) (blk + 64) - max a blk) (some 0))) (incSat s (.hifPart n) F.OOR_ACCESS)
  else forS (blocksOf a len) (barPart n a len ue) (countBytes 3 n len s)

/-- BAR2_READ (R403). -/
def execBar2Read (n x len : Nat) (ue : List Nat) (s : State) : Host.Outcome State Fault Refusal := .next (takeIn n (.bar2Read n x len ue) (barWaits s n x len) (barRead n x len ue) s)

/-- BAR2_RESIZE (R403): the size becomes 2^k bytes, and the window falls to the nearest lower multiple. -/
def execBar2Resize (n k : Nat) (s : State) : Host.Outcome State Fault Refusal :=
  .next (if portExists s n then
    let s := { s with hif := { s.hif with barSize := tabPut 30 s.hif.barSize n k } }
    let u := 2 ^ (k - 28)
    wr s (.hifPart n) F.HIF_P_WIN (rd s (.hifPart n) F.HIF_P_WIN / u * u)
  else s)

/-- A write of `HIF_P_WIN` (R403). -/
def winWrite (n word : Nat) (s : State) : State :=
  if word % 128 % 2 ^ (barLog s n - 28) ≠ 0 then fltEvent s (.hifPart n) 1 else wr s (.hifPart n) F.HIF_P_WIN word

/-- HIF_P_WIN_WRITE (R403). -/
def execHifPWinWrite (m n word : Nat) (s : State) : Host.Outcome State Fault Refusal := .next (takeIn m (.hifPWinWrite m n word) false (fun s => asWriter s m (.hifPart n) F.HIF_P_WIN.off false (winWrite n word)) s)

/-! ### Descriptor rings (R410, R411) -/

/-- A write of `DESC_CTRL` of ring d of port n (R410). -/
def descCtrl (n d word : Nat) (s : State) : State :=
  let p := Page.bar4 n
  let size := bits word 12 8
  let was := rdb s p (F.DESC_CTRL_EN d)
  if size < 4 || 16 < size || (was && size != rd s p (F.DESC_CTRL_SIZE d)) then fltEvent s (.hifPart n) 1
  else
    let s := wrs s p [(F.DESC_CTRL_EN d, bits word 0 0), (F.DESC_CTRL_SIZE d, size)]
    if word.testBit 0 && !was then
      setReserved n d 0 (wrs s p [(F.DESC_PROD d, 0), (F.DESC_CONS d, 0), (F.DESC_CPL_PROD d, 0), (F.DESC_CPL_CONS d, 0)])
    else s

/-- DESC_CTRL_WRITE (R410). -/
def execDescCtrlWrite (n d word : Nat) (s : State) : Host.Outcome State Fault Refusal := .next (takeIn n (.descCtrlWrite n d word) false (bar4Access n (descCtrl n d word)) s)

/-- A write of `DESC_PROD` (R410): refused with RING_ERR where it passes `DESC_CONS` + 2^SIZE. -/
def descProd (n d v : Nat) (s : State) : State :=
  if 2 ^ rd s (.bar4 n) (F.DESC_CTRL_SIZE d) < cntDiff v (rd s (.bar4 n) (F.DESC_CONS d)) then raiseInt s (.hifPart n) 25
  else wr s (.bar4 n) (F.DESC_PROD d) v

/-- DESC_PROD_WRITE (R410). -/
def execDescProdWrite (n d v : Nat) (s : State) : Host.Outcome State Fault Refusal := .next (takeIn n (.descProdWrite n d v) false (bar4Access n (descProd n d v)) s)

/-- A write of `DESC_CPL_CONS` (R411, Table 15-9): refused with RING_ERR where it moves back or passes `DESC_CPL_PROD`. -/
def descCplCons (n d v : Nat) (s : State) : State :=
  let p := Page.bar4 n
  let c := rd s p (F.DESC_CPL_CONS d)
  if cntDiff (rd s p (F.DESC_CPL_PROD d)) c < cntDiff v c then raiseInt s (.hifPart n) 25 else wr s p (F.DESC_CPL_CONS d) v

/-- DESC_CPL_CONS_WRITE (R411). -/
def execDescCplConsWrite (n d v : Nat) (s : State) : Host.Outcome State Fault Refusal := .next (takeIn n (.descCplConsWrite n d v) false (bar4Access n (descCplCons n d v)) s)

/-! ### Streaming rings (R412–R416) -/

/-- A ring is bound to a site that is PRIMING or RUNNING (R107, R412): the binding ends with the run. -/
def ringBound (s : State) (n r : Nat) : Bool := rdb s (.bar4 n) (F.RING_STAT_BOUND r)

/-- A write of `RING_CTRL` of ring r of port n (R412); one that makes room, by new counts or a larger area, may raise SPACE (R415). -/
def ringCtrl (n r word : Nat) (s : State) : State :=
  let p := Page.bar4 n
  let en := word.testBit 0
  let code := bits word 4 2
  let pages := bits word 16 8
  let page := 2 ^ 16 * 2 ^ code
  let bad := code == 7 || ringBound s n r ||
    (en && (decide (pages < 2) || decide (256 < pages) || ringBase s n r % page != 0 || !hostQuota s n (ringBase s n r) (pages * page)))
  if bad then fltEvent s (.hifPart n) 1
  else
    let was := rdb s p (F.RING_CTRL_EN r)
    let before := ringFree s n r
    let s := wrs s p [(F.RING_CTRL_EN r, b2n en), (F.RING_CTRL_MODE r, bits word 1 1), (F.RING_CTRL_PAGE r, code), (F.RING_CTRL_NPAGES r, pages)]
    ringSpace n r before (if en && !was then wrs s p [(F.RING_WR r, 0), (F.RING_RD r, 0)] else s)

/-- RING_CTRL_WRITE (R412). -/
def execRingCtrlWrite (n r word : Nat) (s : State) : Host.Outcome State Fault Refusal := .next (takeIn n (.ringCtrlWrite n r word) false (bar4Access n (ringCtrl n r word)) s)

/-- A write of `RING_WR` (R413): in fetch mode ignored with WRITE_LOCKED. The count is compared by how far it lies ahead of `RING_RD` (R456). -/
def ringWrWrite (n r v : Nat) (s : State) : State :=
  let p := Page.bar4 n
  if rdb s p (F.RING_CTRL_MODE r) then writeLocked s (.hifPart n)
  else
    let ahead (x : Nat) : Nat := ringDiff x (rd s p (F.RING_RD r))
    if ahead v < ahead (rd s p (F.RING_WR r)) || v % 4 ≠ 0 || ringSize s n r < ahead v then raiseInt s (.hifPart n) 25
    else wr s p (F.RING_WR r) v

/-- RING_WR_WRITE (R413). -/
def execRingWrWrite (n r v : Nat) (s : State) : Host.Outcome State Fault Refusal := .next (takeIn n (.ringWrWrite n r v) false (bar4Access n (ringWrWrite n r v)) s)

/-- The fetch queue of a ring. -/
def fetchOf (s : State) (n r : Nat) : List FetchEnt := tabGet [] s.hif.fetchQ (16 * n + r)

/-- Store the fetch queue of a ring and whether its first entry has started; FQ_LEVEL follows. -/
def setFetch (n r : Nat) (l : List FetchEnt) (on : Bool) (s : State) : State :=
  let k := 16 * n + r
  wr { s with hif := { s.hif with fetchQ := tabPut [] s.hif.fetchQ k l, fetchOn := tabPut false s.hif.fetchOn k on } } (.bar4 n) (F.RING_STAT_FQ_LEVEL r) l.length

/-- The first entry of a ring's fetch queue has started. -/
def fetching (s : State) (n r : Nat) : Bool := tabGet false s.hif.fetchOn (16 * n + r)

/-- A write of `RING_FETCH_LEN` (R413). -/
def fetchPush (n r len : Nat) (s : State) : State :=
  let l := fetchOf s n r
  let page := 2 ^ 16 * 2 ^ rd s (.bar4 n) (F.RING_CTRL_PAGE r)
  if len = 0 || len % 64 ≠ 0 || page < len || 64 ≤ l.length || tabGet 0 s.hif.fetchLow (16 * n + r) ≠ 0 then raiseInt s (.hifPart n) 25
  else setFetch n r (l ++ [⟨rd s (.bar4 n) (F.RING_FETCH_ADDR r) * 64, len⟩]) (fetching s n r) s

/-- RING_FETCH_PUSH (R413). -/
def execRingFetchPush (n r len : Nat) (s : State) : Host.Outcome State Fault Refusal := .next (takeIn n (.ringFetchPush n r len) false (bar4Access n (fetchPush n r len)) s)

/-- RING_FETCH_START (R413): an entry starts once its data fits behind `RING_RD`. -/
def execRingFetchStart (n r : Nat) (s : State) : Host.Outcome State Fault Refusal :=
  .next (match fetchOf s n r with
    | [] => s
    | e :: _ =>
      let p := Page.bar4 n
      if rdb s p (F.RING_CTRL_EN r) && rdb s p (F.RING_CTRL_MODE r) && !fetching s n r &&
          decide (ringDiff (rd s p (F.RING_WR r)) (rd s p (F.RING_RD r)) + e.len ≤ ringSize s n r) then setFetch n r (fetchOf s n r) true s else s)

/-- RING_FETCH_DONE (R413): the host's data, as many bytes as the entry asks for, is in the area, and `RING_WR` advances. -/
def execRingFetchDone (n r : Nat) (data : List Nat) (s : State) : Host.Outcome State Fault Refusal :=
  .next (match fetchOf s n r with
    | [] => s
    | e :: l =>
      if fetching s n r && data.length == e.len && memServes s 3 then
        let wr0 := rd s (.bar4 n) (F.RING_WR r)
        let size := max 1 (ringSize s n r)
        let first := min e.len (size - wr0 % size)
        let s := writeBytes 3 n (ringBase s n r + wr0 % size) (data.take first) s
        let s := if first < e.len then writeBytes 3 n (ringBase s n r) (data.drop first) s else s
        addWrap (setFetch n r l false s) (.bar4 n) (F.RING_WR r) e.len
      else s)

/-- DMA_ERR (R416): the descriptor ring, or with `stream` the streaming ring, clears EN and sets ERROR; data already placed stays. -/
def execDmaErr (n : Nat) (stream : Bool) (k : Nat) (s : State) : Host.Outcome State Fault Refusal :=
  .next (
    let p := Page.bar4 n
    let s := if stream then setFetch n k ((fetchOf s n k).drop 1) false (wrs s p [(F.RING_CTRL_EN k, 0), (F.RING_STAT_ERROR k, 1)])
      else wrs s p [(F.DESC_CTRL_EN (k % 4), 0), (F.DESC_STAT_ERROR (k % 4), 1)]
    raiseInt (fltEvent s (.hifPart n) 2) (.hifPart n) 7)

/-! ### Interrupts (R417, R427) -/

/-- The Mask bit of a vector clears, and its pending message goes out (R417). -/
def msixUnmask (n v : Nat) (s : State) : State :=
  let p := Page.bar4 n
  let s := wr s p (F.MSIX_TABLE (4 * v + 3)) (clrBit (rd s p (F.MSIX_TABLE (4 * v + 3))) 0)
  let w := rd s p (F.MSIX_PBA (v / 32))
  if w.testBit (v % 32) then emit (wr s p (F.MSIX_PBA (v / 32)) (clrBit w (v % 32))) (.msix n v) else s

/-- MSIX_UNMASK (R417). -/
def execMsixUnmask (n v : Nat) (s : State) : Host.Outcome State Fault Refusal := .next (takeIn n (.msixUnmask n v) false (bar4Access n (msixUnmask n v)) s)

/-- A W1C write of a page's `INT_RAW` (R417, R439). -/
def intClear (p : Page) (word : Nat) (s : State) : State :=
  let old := rd s p F.INT_RAW
  reraise (wr s p F.INT_RAW (old - (old &&& word))) p (List.range 32)

/-- The bits of `INT_RAW` and `INT_EN` that the interrupt tables assign in a page; the others are reserved (R427; Tables 2-4, 3-11, 6-17, 7-6, 8-14, 9-10, 10-9, 11-5, 12-7,
13-6, 14-10, 17-9, 18-9, 19-11, 20-10; R420 for the HIF pages). -/
def intBits : Page → Nat
  | .timDev => 0x3FE | .timPart _ => 0x3FE | .timPulse _ => 0x3FE
  | .tlkCtl => 0x33E | .tlkPort _ => 0x33E | .tlkLane _ => 0x33E
  | .disDev => 0xF06 | .disPart _ => 0xF06 | .disGrp _ => 0xF06
  | .eng _ => 0x10E
  | .bnk _ => 0xFFF1EF3C
  | .cmpDev => 0xFFF | .cmpPart _ => 0xFFF | .cmpPin _ => 0xFFF
  | .au _ => 0x1F04
  | .calDev => 0x70C | .calPart _ => 0x70C
  | .memDev => 0x1FFC | .memPart _ => 0x1004
  | .hifPart _ => 0x3FFFFFF
  | .mgtDev => 0x308 | .mgtPart _ => 0x308
  | .pwrDev => 0x33C | .pwrPart _ => 0x300
  | .boot => 0x104 | .lcs => 0x1F0C | .ptb => 0x104
  | .hifDev => 0 | .acqDev => 0 | .acqTo _ => 0 | .edg => 0 | .bar4 _ => 0 | .recov => 0

/-- A write of a page's `INT_SET` (R427): each assigned bit as its hardware event. -/
def intSet (p : Page) (word : Nat) (s : State) : State :=
  forS ((List.range 32).filter fun b => (word &&& intBits p).testBit b) (fun b s => raiseInt s p b) s

/-- INT_RAW_CLEAR (R417), in the page at an address of BAR0. -/
def execIntRawClear (m addr word : Nat) (s : State) : Host.Outcome State Fault Refusal :=
  .next (takeIn m (.intRawClear m addr word) false
    (fun s => match pageOfAddr addr with | some (p, _) => asWriter s m p F.INT_RAW.off false (intClear p word) | none => s) s)

/-- INT_SET_WRITE (R427), in the page at an address of BAR0. -/
def execIntSetWrite (m addr word : Nat) (s : State) : Host.Outcome State Fault Refusal :=
  .next (takeIn m (.intSetWrite m addr word) false
    (fun s => match pageOfAddr addr with | some (p, _) => asWriter s m p F.INT_SET.off false (intSet p word) | none => s) s)

/-! ### Partition reset (R418) -/

/-- The banks of a partition. -/
def banksOfPart (s : State) (n : Nat) : List Nat := (List.range 16).filter fun b => bankOwner s b = n

/-- What a master holds is gone (R48, R432, R436): snapshots, shadows, open pairs and latches. -/
def forgetMaster (m : Nat) (s : State) : State :=
  let s := clearSnaps s m
  { s with mgt := { s.mgt with pairs := tabDrop s.mgt.pairs (m * 2 ^ 40) ((m + 1) * 2 ^ 40), rdShadow := tabDel s.mgt.rdShadow m,
                               wrShadow := tabDel s.mgt.wrShadow m },
           pin := { s.pin with fcLatch := tabDrop s.pin.fcLatch (256 * m) (256 * m + 256) } }

/-- The requests that a port holds are dropped. -/
def dropHeld (n : Nat) (s : State) : State := { s with bus := { s.bus with held := s.bus.held.filter fun h => h.1 != n } }

/-- The queues and rings of a port stop: mailbox queues empty, rings clear EN, device reads in flight are discarded. -/
def portQuiet (n : Nat) (s : State) : State :=
  let p := Page.bar4 n
  let s := wrs s p [(F.MBX_CMD_PROD, rd s p F.MBX_CMD_CONS), (F.MBX_RSP_CONS, rd s p F.MBX_RSP_PROD)]
  let s := forS (List.range 4) (fun d s => setReserved n d 0 (wr s p (F.DESC_CTRL_EN d) 0)) s
  let s := forS (List.range 16) (fun r s => setFetch n r [] false (wr s p (F.RING_CTRL_EN r) 0)) s
  dropHeld n { s with pat := { s.pat with heldCmds := s.pat.heldCmds.filter fun h => h.part != n, fwQueue := s.pat.fwQueue.filter fun c => c.part != n } }

/-- What a partition's banks, units and outputs do at its reset. -/
def partQuiet (n : Nat) (s : State) : State :=
  let s := forS (banksOfPart s n) (fun b s =>
    let s := calAbortDue b (disarmChannel b s)
    if pecBank s (b / 2) = b then putPec (b / 2) { pecOf s (b / 2) with tx := [], rx := [] } s else s) s
  let s := forS (List.range 16) (fun u s => if rd s (.au u) F.AU_ASSIGN_PART = n then auHalt u s else s) s
  let s := forS (List.range 4) (fun q s => if pageOwner s (.timPulse q) = n then disarmPulse q s else s) s
  let s := forS (List.range 4) (fun t s => if pageOwner s (.acqTo t) = n then
      { wr s (.acqTo t) F.ACQ_TO_CTRL_MODE 0 with pin := { s.pin with trigOut := tabPut false s.pin.trigOut t false } } else s) s
  clearGo s (1 + n)

/-- The partition reset in its cycle: its sites pass through SAFE to FREE without completion entries. -/
def partReset (n : Nat) (s : State) : State :=
  let s := forS (sitesOfPart s n) (fun i s => deleteSite i (safeSite i false s)) s
  let s := forgetMaster n (partQuiet n (portQuiet n s))
  let s := wr s .hifDev F.HIF_DEV_STAT_PRESET (setBit (rd s .hifDev F.HIF_DEV_STAT_PRESET) n)
  evlog s 7 2 n 0 1

/-- The data link of a port is down. -/
def linkDown (n : Nat) (s : State) : State :=
  let s := { s with hif := { s.hif with training := tabPut false s.hif.training n false } }
  wrs (wr s .hifDev F.HIF_DEV_STAT_PORT_UP (clrBit (rd s .hifDev F.HIF_DEV_STAT_PORT_UP) n)) (.hifPart n) [(F.HIF_P_LINK_SPEED, 0), (F.HIF_P_LINK_WIDTH, 0)]

/-- PARTITION_RESET (R418): cause 0 PERST_N held low, 1 function level reset, 2 loss of the data link. -/
def execPartitionReset (n cause : Nat) (s : State) : Host.Outcome State Fault Refusal :=
  .next (partReset n (if cause = 1 then s else linkDown n s))

/-- The registers of the time base of a partition: its value and INCREMENT stay, and the holding registers follow them (R418). -/
def resetTimPart (n : Nat) (s : State) : State :=
  let p := Page.timPart n
  let inc := tbInc s (1 + n)
  let s := resetPage p [F.TIM_DTB_SUBNS, F.TIM_DTB_NS, F.TIM_DTB_SEC_LO, F.TIM_DTB_SEC_HI] s
  wrs s p [(F.TIM_DTB_INC_LO, inc % 2 ^ 32), (F.TIM_DTB_INC_HI, inc / 2 ^ 32)]

/-- A bank's entries in the CMP pin page and the DIS route-group page return to reset values (Tables 6-12, 9-6). -/
def resetBankEntries (b : Nat) (s : State) : State :=
  let c := pageBase (.cmpPin (b / 4)) + 0x100 + 0x100 * (b % 4)
  let d := pageBase (.disGrp (b / 2)) + 0x100 + 0x400 * (b % 2)
  resetRange d (d + 0x400) (resetRange c (c + 0x100) s)

/-- An analysis unit's registers return to reset values; one that thereby changes its partition is cleared first (R324, R418). -/
def resetAuPage (n u : Nat) (s : State) : State :=
  let s := resetPage (.au u) [] s
  let s := setAu s u { auOf s u with slots := none, rpt := none, block := none, host := false, haltReq := false }
  if n = 0 then s else wrb s (.au u) F.AU_ASSIGN_CLEARING true

/-- PARTITION_RESET_DONE (R418): the registers of the partition's pages and BAR4 are back at their reset values. -/
def partResetDone (n : Nat) (s : State) : State :=
  if !(rd s .hifDev F.HIF_DEV_STAT_PRESET).testBit n then s
  else
    let units := (List.range 16).filter fun u => rd s (.au u) F.AU_ASSIGN_PART = n
    let own := (List.range 4).map Page.timPulse ++ (List.range 4).map Page.acqTo
    let pages := [Page.mgtPart n, .disPart n, .cmpPart n, .calPart n, .memPart n, .pwrPart n, .bar4 n] ++ own.filter fun p => pageOwner s p == n
    let s := forS pages (fun p s => resetPage p [] s) s
    let s := resetTimPart n (resetPage (.hifPart n) [F.HIF_P_LINK_SPEED, F.HIF_P_LINK_WIDTH] s)
    let s := forS (banksOfPart s n) (fun b s => resetBankEntries b (resetBank b s)) s
    let s := forS units (resetAuPage n) s
    let s := { s with hif := { s.hif with barSize := tabDel s.hif.barSize n, fetchLow := tabDrop s.hif.fetchLow (16 * n) (16 * n + 16) } }
    let s := setLedger s n ledgerInit
    wr s .hifDev F.HIF_DEV_STAT_PRESET (clrBit (rd s .hifDev F.HIF_DEV_STAT_PRESET) n)

/-- PARTITION_RESET_DONE (R418). -/
def execPartitionResetDone (n : Nat) (s : State) : Host.Outcome State Fault Refusal := .next (partResetDone n s)

/-! ### Links (R461) -/

/-- PCIE_LINK_TRAINING_START (R461, R480): with PD22 on, PERST_N high and the PCIe PHY settings applied; while PERST_N is low no port trains. In ROM recovery port 0 alone
trains (R419). -/
def execPcieLinkTrainingStart (pin : PortPin) (s : State) : Host.Outcome State Fault Refusal :=
  let n := pin.port
  .next (if pin.perst && domOn s 22 && portExists s n && (s.pwr.stage == .run || (s.pwr.stage == .recovery && n == 0)) then
    { s with hif := { s.hif with training := tabPut false s.hif.training n true } } else s)

/-- The identity that the function of a port reports (R2, R419): stepping B1 as Revision ID 0x21, the subsystem IDs of
the booted manifest, and in ROM recovery mode the recovery function's device ID, with subsystem IDs that the spec does not give there (log 102). -/
def identityOf (s : State) (n : Nat) : Out :=
  .identity n 0x1E5D (if s.pwr.stage = .recovery then 0x525F else 0x5256) 0x21 0xFF0000 (if s.pwr.stage = .recovery then (Config.subsystem 1).toNat else s.boot.subsys.getD (Config.subsystem 0).toNat)

/-- The lanes of a port (Table 15-1), in ROM recovery two (R419). -/
def portWidth (s : State) : Nat := if s.pwr.stage = .recovery then 2 else match rd s .hifDev F.HIF_DEV_STAT_BIFUR with | 0 => 8 | 1 => 4 | _ => 2

/-- The highest rate code that a port trains at: 32.0 GT/s, in ROM recovery 8.0 GT/s (R400, R419). -/
def portSpeed (s : State) : Nat := if s.pwr.stage = .recovery then 3 else 5

/-- The data link of a port comes up at a speed code and a width, and the port exposes its function (R2, R419). -/
def linkUp (n speed width : Nat) (s : State) : State :=
  if decide (width ≤ portWidth s) && decide (speed ≤ portSpeed s) then
    let s := { s with hif := { s.hif with training := tabPut false s.hif.training n false } }
    let s := wrs (wr s .hifDev F.HIF_DEV_STAT_PORT_UP (setBit (rd s .hifDev F.HIF_DEV_STAT_PORT_UP) n)) (.hifPart n)
      [(F.HIF_P_LINK_SPEED, speed), (F.HIF_P_LINK_WIDTH, width)]
    emit s (identityOf s n)
  else s

/-- DATA_LINK_UP (R2, R419, R461): training completes. -/
def execDataLinkUp (n speed width : Nat) (s : State) : Host.Outcome State Fault Refusal :=
  .next (if tabGet false s.hif.training n then linkUp n speed width s else s)

end Sys2Proof.Machine
end

