-- ==== Sys2Proof/Machine/Link.lean ====
section
/-! DEFINITION. The time link (chapter 3): bring-up, equalisation, PRBS31, the IEEE 1588 subset, the servo and the spare lane. -/

namespace Sys2Proof.Machine

open Sys2Proof

/-! ### Ports and lanes -/

/-- The port that a lane carries. -/
def portOn (s : State) (l : Nat) : Option Nat := if laneOf s 0 = l then some 0 else if laneOf s 1 = l then some 1 else none

/-- The link state of a port (Table 3-3). -/
def linkState (s : State) (n : Nat) : Nat := rd s (.tlkPort n) F.TLK_P_STAT_LINK

/-- The PTP state of a port (Table 3-9). -/
def ptpState (s : State) (n : Nat) : Nat := rd s (.tlkPort n) F.TLK_P_STAT_PTP

/-- The PTP state a port starts in by its role (Table 3-5). -/
def ptpStart (s : State) (n : Nat) : Nat :=
  let r := rd s .tlkCtl F.TLK_CTRL_ROLE
  if n = 0 then (if r = 1 then 0 else 1) else (if r = 2 then 0 else 4)

/-- A port moves to its mapped lane where it is not LOCKED and the lane carries no port (R31, R95). -/
def movePort (n : Nat) (s : State) : State := if laneWaits s n then beginSearch s n else s

/-- A port enters LOCKED (R70, R94): its sequenceIds start at 0 and nothing is outstanding. -/
def enterLocked (s : State) (n : Nat) : State :=
  let s := setTport s n { tport s n with seq := [], req := none, pdelay := none, berHold := false, restarts := 0 }
  endLinkConditions (wr s (.tlkPort n) F.TLK_P_STAT_LINK 2) n

/-- The latest Sync of a port that leaves its master: no offset is computed from it any more, and a Follow_Up may still match it (R94). -/
def spentSync (x : TlkPort) : Option SyncRec := x.sync.map fun y => { y with used := true }

/-- TL0 declares its master lost (R92): LISTENING, MASTER_LOSS; the servo issues no further command. -/
def masterLost (s : State) : State :=
  if ptpState s 0 = 2 || ptpState s 0 = 3 then
    let s := wr s (.tlkPort 0) F.TLK_P_STAT_PTP 1
    let s := setTport s 0 { tport s 0 with lost := true, offsets := 0, sync := spentSync (tport s 0) }
    setLiveInt s (.tlkPort 0) 4 4 true
  else s

/-- A receiver enters the frozen state (R75, R76). -/
def freezeLane (s : State) (l : Nat) : State :=
  if rdb s (.tlkLane l) F.TLK_L_RXSTAT_FROZEN then s
  else raiseInt (setTlane (wrb s (.tlkLane l) F.TLK_L_RXSTAT_FROZEN true) l { tlane s l with hasFrozen := true }) (.tlkLane l) 9

/-! ### Bring-up (R69–R73) -/

/-- A write of `TLK_P_CTRL` (R70, R84): DM = 3 refuses the whole write. -/
def portCtrlWrite (n dm : Nat) (nopart en : Bool) (s : State) : State :=
  let pg := Page.tlkPort n
  if dm = 3 then fltEvent s pg 6
  else
    let was := rdb s pg F.TLK_P_CTRL_EN
    let s := wrs s pg [(F.TLK_P_CTRL_EN, b2n en), (F.TLK_P_CTRL_DM, dm), (F.TLK_P_CTRL_NOPART_FLT, b2n nopart)]
    if en && !was then wr (beginSearch s n) pg F.TLK_P_STAT_PTP (ptpStart s n)
    else if !en && was then
      let s := wr (beginSearch s n) pg F.TLK_P_STAT_PTP 0
      let s := setTport s n { tport s n with seq := [], req := none, sync := none, reverse := none, peer := none, pdelay := none, offsets := 0, deep := false }
      setLive (setLive s pg 4 false) pg 5 false
    else setLive s pg 1 (linkState s n == 3 && nopart)

/-- An enabled port starts in the state of its role (Table 3-5): an Announce that stood too deep holds it no longer (R83). -/
def roleStart (n : Nat) (s : State) : State :=
  let s := setTport (wr s (.tlkPort n) F.TLK_P_STAT_PTP (ptpStart s n)) n { tport s n with deep := false }
  setLive s (.tlkPort n) 5 false

/-- A write of `TLK_CTRL` (R82, R87, R91): ROLE 3 or TBSEL 5 to 7 refuses the whole write; where ROLE changes, every enabled port starts in the state of its
new role. -/
def tlkCtrlWrite (word : Nat) (s : State) : State :=
  let role := bits word 1 0
  if role = 3 || 4 < bits word 4 2 then fltEvent s .tlkCtl 6
  else
    let was := rd s .tlkCtl F.TLK_CTRL_ROLE
    let s := wrs s .tlkCtl [(F.TLK_CTRL_ROLE, role), (F.TLK_CTRL_TBSEL, bits word 4 2), (F.TLK_CTRL_SERVO_EN, bits word 5 5), (F.TLK_CTRL_DOMAIN, bits word 15 8)]
    if role = was then s
    else forS [0, 1] (fun n s => if rdb s (.tlkPort n) F.TLK_P_CTRL_EN then roleStart n s else s) s

/-- A write of `TLK_P_INTV` (R85): outside the ranges of the intervals it is refused. -/
def intvWrite (n word : Nat) (s : State) : State :=
  let sync := toSigned 8 (bits word 7 0)
  let dreq := toSigned 8 (bits word 15 8)
  let ann := toSigned 8 (bits word 23 16)
  let art := bits word 31 24
  let pg := Page.tlkPort n
  if sync < -7 || 4 < sync || dreq < -7 || 4 < dreq || ann < -3 || 4 < ann || art < 2 || 10 < art then fltEvent s pg 6
  else wrs s pg [(F.TLK_P_INTV_SYNC, bits word 7 0), (F.TLK_P_INTV_DREQ, bits word 15 8), (F.TLK_P_INTV_ANN, bits word 23 16), (F.TLK_P_INTV_ART, art)]

/-- LINK_ENABLE (R70). -/
def execLinkEnable (m port dm : Nat) (nopartFlt : Bool) (s : State) : Host.Outcome State Fault Refusal :=
  .next (takeIn m (.linkEnable m port dm nopartFlt) false
    (fun s => asWriter s m (.tlkPort port) F.TLK_P_CTRL_EN.off true (portCtrlWrite port dm nopartFlt true)) s)

/-- LINK_DISABLE (R69, R70). -/
def execLinkDisable (m port dm : Nat) (nopartFlt : Bool) (s : State) : Host.Outcome State Fault Refusal :=
  .next (takeIn m (.linkDisable m port dm nopartFlt) false
    (fun s => asWriter s m (.tlkPort port) F.TLK_P_CTRL_EN.off true (portCtrlWrite port dm nopartFlt false)) s)

/-- Block lock of a lane (R70): the port in SEARCH or NO_PARTNER enters LOCKED where HI_BER is clear. -/
def blockLockEffect (l : Nat) (s : State) : State :=
  let s := wrb s (.tlkLane l) F.TLK_L_RXSTAT_BLOCK_LOCK true
  match portOn s l with
  | none => s
  | some n =>
    if (linkState s n = 1 || linkState s n = 3) && !rdb s (.tlkLane l) F.TLK_L_RXSTAT_HI_BER then enterLocked s n else s

/-- BLOCK_LOCK (R70). -/
def execBlockLock (l : Nat) (s : State) : Host.Outcome State Fault Refusal := .next (blockLockEffect l s)

/-- The search window of a port ends without lock (R70). -/
def noPartnerEffect (n : Nat) (s : State) : State :=
  if linkState s n = 1 && !(tport s n).berHold then
    let s := wr s (.tlkPort n) F.TLK_P_STAT_LINK 3
    let s := setTport s n { tport s n with restarts := 0 }
    let s := setLive s (.tlkPort n) 2 false
    let s := setLive s (.tlkPort n) 1 (rdb s (.tlkPort n) F.TLK_P_CTRL_NOPART_FLT)
    raiseInt s (.tlkPort n) 1
  else s

/-- NO_PARTNER (R70). -/
def execNoPartner (port : Nat) (s : State) : Host.Outcome State Fault Refusal := .next (noPartnerEffect port s)

/-- A restart of adaptation in NO_PARTNER (R71): odd-numbered restarts start from the frozen values where such values exist, every other
from the presets. -/
def adaptRestartEffect (n : Nat) (s : State) : State :=
  if linkState s n = 3 then
    let k := (tport s n).restarts + 1
    let s := setTport s n { tport s n with restarts := k }
    let l := laneOf s n
    let s := setTlane s l { tlane s l with fromFrozen := k % 2 == 1 && (tlane s l).hasFrozen }
    incSat s (.tlkPort n) F.TLK_RETRIES
  else s

/-- ADAPT_RESTART (R71). -/
def execAdaptRestart (port : Nat) (s : State) : Host.Outcome State Fault Refusal := .next (adaptRestartEffect port s)

/-- Loss of block lock of a lane (R72): adaptation freezes; a LOCKED port enters SEARCH from the frozen values and raises LOCK_LOSS; the
master of TL0 is lost (R92). A port that a new mapping waits for starts there from presets (R95). -/
def lockLossEffect (l : Nat) (s : State) : State :=
  let s := freezeLane (wrb s (.tlkLane l) F.TLK_L_RXSTAT_BLOCK_LOCK false) l
  match portOn s l with
  | none => s
  | some n =>
    if linkState s n = 2 || (tport s n).berHold then
      let s := beginSearch s n
      let s := if laneOf s n = l then setTlane s l { tlane s l with fromFrozen := true } else s
      let s := setTport s n { tport s n with rx := none }
      let s := setLiveInt s (.tlkPort n) 2 2 true
      if n = 0 then masterLost s else s
    else s

/-- LOCK_LOSS (R72). -/
def execLockLoss (l : Nat) (s : State) : Host.Outcome State Fault Refusal := .next (lockLossEffect l s)

/-- The BER monitor of a lane reports HI_BER (R73): the port is not LOCKED, and the cause is raised on its page. A mapping that waits takes effect (R95). -/
def hiBerEffect (l : Nat) (s : State) : State :=
  let s := wrb s (.tlkLane l) F.TLK_L_RXSTAT_HI_BER true
  match portOn s l with
  | none => s
  | some n =>
    let s := if linkState s n = 2 then setTport (wr s (.tlkPort n) F.TLK_P_STAT_LINK 1) n { tport s n with berHold := true } else s
    movePort n (wearNote 6 n (aonNow s) (setLiveInt s (.tlkPort n) 3 3 true))

/-- HI_BER (R73). -/
def execHiBer (l : Nat) (s : State) : Host.Outcome State Fault Refusal := .next (hiBerEffect l s)

/-- The BER monitor clears (R73): with block lock held the port is LOCKED again. -/
def hiBerClearEffect (l : Nat) (s : State) : State :=
  let s := wrb s (.tlkLane l) F.TLK_L_RXSTAT_HI_BER false
  match portOn s l with
  | none => s
  | some n =>
    let s := setLive s (.tlkPort n) 3 false
    if rdb s (.tlkLane l) F.TLK_L_RXSTAT_BLOCK_LOCK && (linkState s n = 1 || linkState s n = 3) then enterLocked s n else s

/-- HI_BER_CLEAR (R73). -/
def execHiBerClear (l : Nat) (s : State) : Host.Outcome State Fault Refusal := .next (hiBerClearEffect l s)

/-! ### Equalisation (R74–R76) -/

/-- A write of `TLK_L_TXEQ` (R74): refused whole where a limit is broken. -/
def txeqEffect (l word : Nat) (s : State) : State :=
  let pre := bits word 3 0
  let main := bits word 13 8
  let post := bits word 20 16
  if main < 16 || 63 < pre + main + post then fltEvent s (.tlkLane l) 7
  else wrs s (.tlkLane l) [(F.TLK_L_TXEQ_C_PRE, pre), (F.TLK_L_TXEQ_C_MAIN, main), (F.TLK_L_TXEQ_C_POST, post)]

/-- TXEQ_WRITE (R74). -/
def execTxeqWrite (m l word : Nat) (s : State) : Host.Outcome State Fault Refusal :=
  .next (takeIn m (.txeqWrite m l word) false (fun s => asWriter s m (.tlkLane l) F.TLK_L_TXEQ_C_PRE.off true (txeqEffect l word)) s)

/-- The end of a 4,096-UI window with its transition density, or FREEZE = 1: the receiver freezes below 30 % or under FREEZE (R75). -/
def adaptFreezeEffect (l density : Nat) (s : State) : State :=
  let s := wr s (.tlkLane l) F.TLK_L_RXSTAT_DENSITY density
  if density < 30 || rdb s (.tlkLane l) F.TLK_L_RXCTRL_FREEZE then freezeLane s l else s

/-- ADAPT_FREEZE (R75). -/
def execAdaptFreeze (l density : Nat) (s : State) : Host.Outcome State Fault Refusal := .next (adaptFreezeEffect l density s)

/-- A window at or above 30 % while FREEZE = 0 ends the frozen state (R76). -/
def adaptResumeEffect (l density : Nat) (s : State) : State :=
  let s := wr s (.tlkLane l) F.TLK_L_RXSTAT_DENSITY density
  if 30 ≤ density && !rdb s (.tlkLane l) F.TLK_L_RXCTRL_FREEZE then wrb s (.tlkLane l) F.TLK_L_RXSTAT_FROZEN false else s

/-- ADAPT_RESUME (R76). -/
def execAdaptResume (l density : Nat) (s : State) : Host.Outcome State Fault Refusal := .next (adaptResumeEffect l density s)

/-- A write of `TLK_L_RXCTRL` (R75, R76): the receiver freezes while FREEZE = 1; with PRESET the presets are loaded at once and the frozen values
discarded, and the bit clears itself. -/
def rxCtrlWrite (l : Nat) (freeze preset : Bool) (s : State) : State :=
  let s := wrb s (.tlkLane l) F.TLK_L_RXCTRL_FREEZE freeze
  let s := if freeze then freezeLane s l else s
  if preset then setTlane s l ⟨false, false⟩ else s

/-- RX_PRESET (R76). -/
def execRxPreset (m l : Nat) (freeze : Bool) (s : State) : Host.Outcome State Fault Refusal :=
  .next (takeIn m (.rxPreset m l freeze) false (fun s => asWriter s m (.tlkLane l) F.TLK_L_RXCTRL_FREEZE.off true (rxCtrlWrite l freeze true)) s)

/-! ### PRBS31 (R77–R80) -/

/-- A write of `TLK_L_PRBS` (R77–R80): an INJ_RATE of 1 to 9 or 41 to 63 refuses the whole write; INJ_ONE inverts one bit and clears itself,
also on a lane that sends nothing (DESIGN CHOICE, log 92); the port of the lane enters or leaves the PRBS state. -/
def prbsWrite (l word : Nat) (s : State) : State :=
  let pg := Page.tlkLane l
  let rate := bits word 13 8
  if rate != 0 && (rate < 10 || 40 < rate) then fltEvent s pg 7
  else
    let was := prbsOn s l
    let s := wrs s pg [(F.TLK_L_PRBS_GEN_EN, bits word 0 0), (F.TLK_L_PRBS_CHK_EN, bits word 1 1), (F.TLK_L_PRBS_INJ_RATE, rate)]
    let s := if word.testBit 1 then s else wrb s pg F.TLK_L_PRBS_CHK_LOCK false
    let s := if word.testBit 2 then emit s (.injected l) else s
    if prbsOn s l = was then s
    else match portOn s l with
      | none => s
      | some n => beginSearch s n

/-- PRBS_GEN_EN (R77, R78). -/
def execPrbsGenEn (m l word : Nat) (s : State) : Host.Outcome State Fault Refusal :=
  .next (takeIn m (.prbsGenEn m l word) false (fun s => asWriter s m (.tlkLane l) F.TLK_L_PRBS_GEN_EN.off true (prbsWrite l word)) s)

/-- PRBS_CHK_EN (R77, R78). -/
def execPrbsChkEn (m l word : Nat) (s : State) : Host.Outcome State Fault Refusal :=
  .next (takeIn m (.prbsChkEn m l word) false (fun s => asWriter s m (.tlkLane l) F.TLK_L_PRBS_GEN_EN.off true (prbsWrite l word)) s)

/-- INJ_ONE (R80): the write has INJ_ONE set. -/
def execInjOne (m l word : Nat) (s : State) : Host.Outcome State Fault Refusal :=
  .next (takeIn m (.injOne m l word) false (fun s => asWriter s m (.tlkLane l) F.TLK_L_PRBS_GEN_EN.off true (prbsWrite l (setBit word 2))) s)

/-- INJ_RATE (R80). -/
def execInjRate (m l word : Nat) (s : State) : Host.Outcome State Fault Refusal :=
  .next (takeIn m (.injRate m l word) false (fun s => asWriter s m (.tlkLane l) F.TLK_L_PRBS_GEN_EN.off true (prbsWrite l word)) s)

/-- Erroneous bits seen while the checker is locked are added to `TLK_L_PRBS_ERR` (R79). -/
def addPrbsErrs (l errs : Nat) (s : State) : State :=
  if rdb s (.tlkLane l) F.TLK_L_PRBS_CHK_LOCK then addSat s (.tlkLane l) F.TLK_L_PRBS_ERR errs else s

/-- A read of `TLK_L_PRBS_ERR` answers the count and clears it (R79, RC). -/
def prbsErrRead (m l errs : Nat) (s : State) : State :=
  let s := addPrbsErrs l errs s
  if mayRead s m (.tlkLane l) F.TLK_L_PRBS_ERR.off false then wr (emit s (.read m (rd s (.tlkLane l) F.TLK_L_PRBS_ERR))) (.tlkLane l) F.TLK_L_PRBS_ERR 0
  else emit s (.read m 0)

/-- PRBS_ERR_READ (R79), with the erroneous bits seen since the last report. -/
def execPrbsErrRead (m l errs : Nat) (s : State) : Host.Outcome State Fault Refusal := .next (takeIn m (.prbsErrRead m l errs) false (prbsErrRead m l errs) s)

/-- CHK_LOCK (R79): the checker is seeded and has seen 64 error-free bits. -/
def execChkLock (l : Nat) (s : State) : Host.Outcome State Fault Refusal :=
  .next (whenS (rdb s (.tlkLane l) F.TLK_L_PRBS_CHK_EN) (fun s => wrb s (.tlkLane l) F.TLK_L_PRBS_CHK_LOCK true) s)

/-- CHK_LOCK_LOSS (R79): 64 or more errors within 1,024 bits, each counted while locked; the checker reseeds. -/
def execChkLockLoss (l errs : Nat) (s : State) : Host.Outcome State Fault Refusal :=
  .next (wrb (addPrbsErrs l errs s) (.tlkLane l) F.TLK_L_PRBS_CHK_LOCK false)

/-! ### IEEE 1588 (R81–R94) -/

/-- The message types of Table 3-4 that are received and used. -/
def ptpUsed (t : Nat) : Bool := t = 0 || t = 1 || t = 2 || t = 3 || t = 8 || t = 9 || t = 10 || t = 11

/-- The types that a perturbation is about to drop at a port, received or transmitted (Table 20-7, TL_DROP). -/
def dropTypes (s : State) (n : Nat) (tx : Bool) : Nat := tabGet 0 s.lcs.drops (2 * n + b2n tx)

/-- The perturbation has dropped its frame. -/
def dropDone (n : Nat) (tx : Bool) (s : State) : State := { s with lcs := { s.lcs with drops := tabDel s.lcs.drops (2 * n + b2n tx) } }

/-- A port sends a frame, unless a perturbation drops it. -/
def sendFrame (s : State) (n : Nat) (f : TxFrame) : State := if (dropTypes s n true).testBit f.msgType then dropDone n true s else emit s (.frame n f)

/-- A received message of a type takes its effect, unless a perturbation drops it. -/
def received (n ty : Nat) (f : State → State) (s : State) : State := if (dropTypes s n false).testBit ty then dropDone n false s else f s

/-- A received frame passes to the protocol engine where it has a length of Table 3-2 and by R69, and is a message of Table 3-4; every other is dropped and
counted. -/
def frameEffect (n : Nat) (f : RxFrame) (s : State) : State :=
  if linkState s n = 2 then
    if decide (64 ≤ f.length ∧ f.length ≤ 1518) && f.fcsOk && !f.tagged && f.etherType == 0x88F7 && (f.dest == 0x011B19000000 || f.dest == 0x0180C200000E) &&
        f.domain == rd s .tlkCtl F.TLK_CTRL_DOMAIN && f.version == 2 && ptpUsed f.msgType then
      setTport s n { tport s n with rx := some f.msgType }
    else incSat s (.tlkPort n) F.RX_DROP
  else s

/-- FRAME_RECEIVE (R69). -/
def execFrameReceive (port : Nat) (f : RxFrame) (s : State) : Host.Outcome State Fault Refusal := .next (frameEffect port f s)

/-- The lane page that stamps a port's messages. -/
def stampPage (s : State) (n : Nat) : Page := .tlkLane (laneOf s n)

/-- The link time base at t time units after its present tick (R87). -/
def linkNow (s : State) (t : Nat) : Nat := tbNow s (linkBase s) / 65536 + t

/-- A receive stamp at the medium boundary (R87): the link time base at the internal stamp point less `TLK_L_RX_LAT`. -/
def rxStamp (s : State) (n t : Nat) : Nat := linkNow s t - rd s (stampPage s n) F.TLK_L_RX_LAT

/-- A transmit stamp at the medium boundary (R87): the link time base at the internal stamp point plus `TLK_L_TX_LAT`. -/
def txStamp (s : State) (n t : Nat) : Nat := linkNow s t + rd s (stampPage s n) F.TLK_L_TX_LAT

/-- The stamp of an event message of a type that a port sends: one that a perturbation makes wait is stamped as late as it goes (Table 20-7, TL_DELAY). -/
def eventStamp (s : State) (n ty t : Nat) : Nat :=
  let d := tabGet (0, 0) s.lcs.txDelay n
  txStamp s n t + (if d.1.testBit ty then d.2 * 65536 else 0)

/-- The event message of a type has gone; a perturbation that made it wait is over. -/
def eventSent (n ty : Nat) (s : State) : State :=
  if (tabGet (0, 0) s.lcs.txDelay n).1.testBit ty then { s with lcs := { s.lcs with txDelay := tabDel s.lcs.txDelay n } } else s

/-- The device's clockIdentity (R81). -/
def ownClockId (s : State) : Nat := rd s .tlkCtl F.TLK_CLK_ID_HI * 2 ^ 32 + rd s .tlkCtl F.TLK_CLK_ID_LO

/-- The port identity of a port: clockIdentity and portNumber (R81). -/
def ownPortId (s : State) (n : Nat) : Nat := ownClockId s * 2 ^ 16 + 1 + n

/-- A frame of a port (R81): the destination of its message type, the source address `TLK_MAC`, the port's identity, one-step; the timestamp, correction,
requestingPortIdentity and Announce fields are zero until the message sets them. -/
def ptpFrame (s : State) (n ty seq : Nat) : TxFrame :=
  { dest := if ty = 2 ∨ ty = 3 ∨ ty = 10 then 0x0180C200000E else 0x011B19000000,
    mac := rd s .tlkCtl F.TLK_MAC_HI * 2 ^ 32 + rd s .tlkCtl F.TLK_MAC_LO, domain := rd s .tlkCtl F.TLK_CTRL_DOMAIN, msgType := ty, twoStep := false,
    source := ownPortId s n, seqId := seq, stamp := 0, corr := 0, portId := 0, gm := gmNone, steps := 0 }

/-- A port receives and sends PTP messages: it is LOCKED (Table 3-3). -/
def ptpUp (s : State) (n : Nat) : Bool := linkState s n = 2

/-- A port receives and sends PTP messages, and its role gives it a PTP state (Table 3-5). -/
def ptpInUse (s : State) (n : Nat) : Bool := ptpUp s n && ptpState s n != 0

/-- A port is the slave port and has taken a master (UNCALIBRATED or SLAVE). -/
def isSlave (s : State) (n : Nat) : Bool := ptpUp s n && (ptpState s n = 2 || ptpState s n = 3)

/-- The servo's new INCREMENT (R91): nominal − round(y × 42.94967296), y = (KP × e + KI × integ) / tau, clamped to the range of R46. Offset
and integral are in time units. -/
def servoIncrement (kp ki : Nat) (logSync : Int) (o integ : Int) : Nat :=
  let num : Int := ((kp : Int) * o + (ki : Int) * integ) * 256 * (if logSync < 0 then ((2 ^ (-logSync).toNat : Nat) : Int) else 1)
  let den : Int := 100000000 * (if logSync < 0 then 1 else ((2 ^ logSync.toNat : Nat) : Int))
  let y : Int := (2 * num + den) / (2 * den)
  (min (max (0xA00000000 - y) 0x9FD70A3D7) 0xA028F5C29).toNat

/-- SERVO_STEP (R91): firmware steers the link time base by an ADJUST or an INCREMENT command. -/
def servoStep (s : State) : State :=
  if rdb s .tlkCtl F.TLK_CTRL_SERVO_EN then
    let b := linkBase s
    let pg := basePage b
    let o := toSigned 64 (rd s (.tlkPort 0) F.TLK_P_OFFSET)
    if (rd s .tlkCtl F.TLK_SERVO_STEP : Int) * 65536 < o.natAbs then
      let a := ofSigned 64 (-o)
      let s := wrs s pg [(F.TIM_DTB_ADJ_LO, a % 2 ^ 32), (F.TIM_DTB_ADJ_HI, a / 2 ^ 32)]
      goEffect b 2 { s with tlk := { s.tlk with integ := 0 } }
    else
      let i := s.tlk.integ + o
      let inc := servoIncrement (rd s .tlkCtl F.TLK_SERVO_GAIN_KP) (rd s .tlkCtl F.TLK_SERVO_GAIN_KI)
        (toSigned 8 (rd s (.tlkPort 0) F.TLK_P_INTV_SYNC)) o i
      let s := wrs s pg [(F.TIM_DTB_INC_LO, inc % 2 ^ 32), (F.TIM_DTB_INC_HI, inc / 2 ^ 32)]
      goEffect b 1 { s with tlk := { s.tlk with integ := i } }
  else s

/-- OFFSET_NEW (R86, R63, R91): the pair is published, the interrupts are raised, the servo steps; the port enters SLAVE after two offsets
in a row. -/
def offsetNew (n : Nat) (off mpd : Int) (s : State) : State :=
  let pg := Page.tlkPort n
  let s := wrs s pg [(F.TLK_P_OFFSET, ofSigned 64 off), (F.TLK_P_MPD, ofSigned 64 mpd)]
  let k := (tport s n).offsets + 1
  let s := setTport s n { tport s n with offsets := k }
  let s := if 2 ≤ k then wr s pg F.TLK_P_STAT_PTP 3 else s
  let s := raiseInt s pg 8
  let s := if 1 ≤ linkBase s && linkBase s ≤ 4 then raiseInt s (.timPart (linkBase s - 1)) 7 else s
  if n = 0 then servoStep s else s

/-- The mean path delay of a slave port, once its delay data is complete (R84, R86): E2E by the spec's formula (log 11), P2P the measured
peer delay. -/
def meanPathDelay (s : State) (n : Nat) (y : SyncRec) : Option Int :=
  match rd s (.tlkPort n) F.TLK_P_CTRL_DM with
  | 0 => (tport s n).reverse.map fun r => (((y.t2 : Int) - (y.t1 : Int) - y.corr) - r) / 2
  | 1 => (tport s n).peer
  | _ => none

/-- The offset of the latest Sync is computed as soon as the Sync and its delay data are complete (R86). -/
def tryOffset (n : Nat) (s : State) : State :=
  match (tport s n).sync with
  | none => s
  | some y =>
    if y.waitFup || y.used || !isSlave s n then s
    else match meanPathDelay s n y with
      | none => s
      | some d =>
        let off := (y.t2 : Int) - (y.t1 : Int) - d - y.corr - toSigned 32 (rd s (.tlkPort n) F.TLK_P_ASYM)
        offsetNew n off d (setTport s n { tport s n with sync := some { y with used := true } })

/-- A response or follow-up that matches nothing is dropped and counted (R94). -/
def seqMismatch (s : State) (n : Nat) : State := incSat s (.tlkPort n) F.SEQ_MISMATCH

/-- A delay message of the mechanism the port does not use is dropped and counted (R84). -/
def dmMismatch (s : State) (n : Nat) : State := incSat s (.tlkPort n) F.DM_MISMATCH

/-- A Sync on a port: the slave port accepts it (R86); any other keeps it only for the Follow_Up that may match it (R94). -/
def syncEffect (n : Nat) (g : PtpMsg) (s : State) : State :=
  if ptpInUse s n then
    let y : SyncRec := { seqId := g.seqId, t1 := g.stamp, t2 := rxStamp s n g.rxAt, corr := g.corr, waitFup := g.twoStep, used := !isSlave s n }
    let t := setTport s n { tport s n with sync := some y }
    if isSlave s n then tryOffset n (incWrap t (.tlkPort n) F.SYNC_RX) else t
  else s

/-- SYNC (R86). -/
def execSync (port : Nat) (msg : PtpMsg) (s : State) : Host.Outcome State Fault Refusal := .next (received port 0 (syncEffect port msg) s)

/-- A Follow_Up: it completes the latest Sync by sequenceId where that waits for it; one that matches no Sync is dropped and counted on any port (R94). -/
def followUpEffect (n : Nat) (g : PtpMsg) (s : State) : State :=
  if ptpInUse s n then
    match (tport s n).sync with
    | none => seqMismatch s n
    | some y =>
      if y.seqId != g.seqId then seqMismatch s n
      else if y.waitFup then
        tryOffset n (setTport s n { tport s n with sync := some { y with t1 := g.stamp, corr := y.corr + g.corr, waitFup := false } })
      else s
  else s

/-- FOLLOW_UP (R94). -/
def execFollowUp (port : Nat) (msg : PtpMsg) (s : State) : Host.Outcome State Fault Refusal := .next (received port 8 (followUpEffect port msg) s)

/-- A Delay_Req on the master port is answered by a Delay_Resp with its receive stamp (R85); on any port that is not end-to-end it is a mismatch (R84).
The whole stamp with its sub-nanoseconds is the response's timestamp, and its correctionField that of the request (DESIGN CHOICE, log 92). -/
def delayReqEffect (n : Nat) (g : PtpMsg) (s : State) : State :=
  if ptpInUse s n then
    if rd s (.tlkPort n) F.TLK_P_CTRL_DM != 0 then dmMismatch s n
    else if ptpState s n = 4 then
      sendFrame s n { ptpFrame s n 9 g.seqId with stamp := rxStamp s n g.rxAt, corr := g.corr, portId := g.portId }
    else s
  else s

/-- DELAY_REQ (R85). -/
def execDelayReq (port : Nat) (msg : PtpMsg) (s : State) : Host.Outcome State Fault Refusal := .next (received port 1 (delayReqEffect port msg) s)

/-- The outstanding request matches a response by type, sequenceId and requestingPortIdentity (R94): its transmit stamp. -/
def matchReq (s : State) (n ty : Nat) (g : PtpMsg) : Option Nat :=
  match (tport s n).req with
  | some (t, q, st) => if t = ty && q = g.seqId && g.portId = ownPortId s n then some st else none
  | none => none

/-- A Delay_Resp (R84, R86, R94): the answer to the port's own request completes the delay data; every other is dropped and counted. -/
def delayRespEffect (n : Nat) (g : PtpMsg) (s : State) : State :=
  if ptpInUse s n then
    if rd s (.tlkPort n) F.TLK_P_CTRL_DM = 0 then
      match matchReq s n 1 g with
      | some t3 => tryOffset n (setTport s n { tport s n with req := none, reverse := some ((g.stamp : Int) - (t3 : Int) - g.corr) })
      | none => seqMismatch s n
    else dmMismatch s n
  else s

/-- DELAY_RESP (R94). -/
def execDelayResp (port : Nat) (msg : PtpMsg) (s : State) : Host.Outcome State Fault Refusal := .next (received port 9 (delayRespEffect port msg) s)

/-- A Pdelay_Req is answered one-step; the correction carries the turnaround and the request's own correction (R89). -/
def pdelayReqEffect (n : Nat) (g : PtpMsg) (txAt : Nat) (s : State) : State :=
  if ptpInUse s n then
    if rd s (.tlkPort n) F.TLK_P_CTRL_DM = 1 then
      sendFrame (eventSent n 3 s) n { ptpFrame s n 3 g.seqId with corr := (eventStamp s n 3 txAt : Int) - (rxStamp s n g.rxAt : Int) + g.corr, portId := g.portId }
    else dmMismatch s n
  else s

/-- PDELAY_REQ (R89). -/
def execPdelayReq (port : Nat) (msg : PtpMsg) (txAt : Nat) (s : State) : Host.Outcome State Fault Refusal :=
  .next (received port 2 (pdelayReqEffect port msg txAt) s)

/-- A Pdelay_Resp (R86, R94): a one-step response gives the peer delay; a two-step one waits for its follow-up. -/
def pdelayRespEffect (n : Nat) (g : PtpMsg) (s : State) : State :=
  if ptpInUse s n then
    if rd s (.tlkPort n) F.TLK_P_CTRL_DM = 1 then
      match matchReq s n 2 g with
      | some t1 =>
        let round : Int := (rxStamp s n g.rxAt : Int) - (t1 : Int) - g.corr
        if g.twoStep then setTport s n { tport s n with req := none, pdelay := some (g.seqId, round + (g.stamp : Int)) }
        else tryOffset n (setTport s n { tport s n with req := none, peer := some (round / 2) })
      | none => seqMismatch s n
    else dmMismatch s n
  else s

/-- PDELAY_RESP (R94). -/
def execPdelayResp (port : Nat) (msg : PtpMsg) (s : State) : Host.Outcome State Fault Refusal := .next (received port 3 (pdelayRespEffect port msg) s)

/-- A Pdelay_Resp_Follow_Up completes the peer delay of a two-step peer (R81). -/
def pdelayFupEffect (n : Nat) (g : PtpMsg) (s : State) : State :=
  if ptpInUse s n then
    if rd s (.tlkPort n) F.TLK_P_CTRL_DM = 1 then
      match (tport s n).pdelay with
      | some (q, part) =>
        if q = g.seqId && g.portId = ownPortId s n then
          tryOffset n (setTport s n { tport s n with pdelay := none, peer := some ((part - (g.stamp : Int) - g.corr) / 2) })
        else seqMismatch s n
      | none => seqMismatch s n
    else dmMismatch s n
  else s

/-- PDELAY_RESP_FOLLOW_UP (R81). -/
def execPdelayRespFollowUp (port : Nat) (msg : PtpMsg) (s : State) : Host.Outcome State Fault Refusal := .next (received port 10 (pdelayFupEffect port msg) s)

/-- An Announce on the slave port (R83, R93): grandmaster fields and stepsRemoved, which `TLK_P_STAT.STEPS` shows up to 255 (DESIGN CHOICE, log 92); 16 or more keeps TL0 LISTENING and raises CHAIN_DEPTH; else
TL0 leaves LISTENING for UNCALIBRATED with the servo's integral cleared. -/
def announceEffect (n : Nat) (gm : GmFields) (steps : Nat) (s : State) : State :=
  let pg := Page.tlkPort n
  if ptpUp s n && (ptpState s n = 1 || ptpState s n = 2 || ptpState s n = 3) then
    let s := wr s pg F.TLK_P_STAT_STEPS (min steps 255)
    let s := setTport s n { tport s n with gm := gm, steps := steps, deep := decide (16 ≤ steps) }
    if 16 ≤ steps then
      let s := setTport (wr s pg F.TLK_P_STAT_PTP 1) n { tport s n with offsets := 0, sync := spentSync (tport s n) }
      setLiveInt s pg 5 5 true
    else
      let s := setLive s pg 5 false
      if ptpState s n = 1 then
        let s := setTport (wr s pg F.TLK_P_STAT_PTP 2) n { tport s n with lost := false, offsets := 0, sync := spentSync (tport s n) }
        setLive { s with tlk := { s.tlk with integ := 0 } } pg 4 false
      else s
  else s

/-- ANNOUNCE (R83). -/
def execAnnounce (port : Nat) (gm : GmFields) (steps : Nat) (s : State) : Host.Outcome State Fault Refusal := .next (received port 11 (announceEffect port gm steps) s)

/-- The next sequenceId of a message type (R94). -/
def nextSeq (s : State) (n ty : Nat) : Nat := tabGet 0 (tport s n).seq ty

/-- A sequenceId has been used: it wraps from 65,535 to 0 (R94). -/
def useSeq (s : State) (n ty : Nat) : State :=
  setTport s n { tport s n with seq := tabPut 0 (tport s n).seq ty ((nextSeq s n ty + 1) % 65536) }

/-- TL0 takes its time from a master whose stepsRemoved is 16 or more: TL1 sends no Sync (R83). -/
def tooDeep (s : State) : Bool := (tport s 0).deep

/-- A one-step Sync of the master port (R88): originTimestamp holds seconds and whole nanoseconds of the stamp at the boundary, correctionField
its sub-nanoseconds. -/
def syncTxEffect (n at' : Nat) (s : State) : State :=
  if ptpUp s n && ptpState s n = 4 && !tooDeep s then
    let t := eventStamp s n 0 at'
    let f : TxFrame := { ptpFrame s n 0 (nextSeq s n 0) with stamp := t / 65536 * 65536, corr := (t % 65536 : Nat) }
    sendFrame (eventSent n 0 (incWrap (useSeq s n 0) (.tlkPort n) F.SYNC_TX)) n f
  else s

/-- SYNC_TRANSMIT (R88). -/
def execSyncTransmit (port sentAt : Nat) (s : State) : Host.Outcome State Fault Refusal := .next (syncTxEffect port sentAt s)

/-- The grandmaster fields and stepsRemoved the master port announces (R82, R83, R92). A GRANDMASTER announces its own clockIdentity, and its time as traceable
(DESIGN CHOICE, log 92). -/
def announced (s : State) : GmFields × Nat :=
  if rd s .tlkCtl F.TLK_CTRL_ROLE = 1 then
    let d := rd s .tlkCtl F.TLK_GM_DS
    (⟨ownClockId s, bits d 7 0, bits d 15 8, bits d 23 16, bits d 31 24, true⟩, 0)
  else
    let g := (tport s 0).gm
    let st := (tport s 0).steps + 1
    if (tport s 0).lost then ({ g with clockClass := rd s .tlkCtl F.TLK_HOLD_CLASS, traceable := false }, st) else (g, st)

/-- An Announce of the master port (R83). -/
def announceTxEffect (n : Nat) (s : State) : State :=
  if ptpUp s n && ptpState s n = 4 then
    let a := announced s
    let f : TxFrame := { ptpFrame s n 11 (nextSeq s n 11) with gm := a.1, steps := a.2 }
    sendFrame (useSeq s n 11) n f
  else s

/-- ANNOUNCE_TRANSMIT (R83). -/
def execAnnounceTransmit (port : Nat) (s : State) : Host.Outcome State Fault Refusal := .next (announceTxEffect port s)

/-- A request of a port is sent and held as the outstanding one; a follow-up that an older one still waited for matches nothing any more (R94). -/
def requestTx (n ty at' : Nat) (s : State) : State :=
  let t := eventStamp s n ty at'
  let q := nextSeq s n ty
  let f := ptpFrame s n ty q
  let s := useSeq s n ty
  sendFrame (eventSent n ty (setTport s n { tport s n with req := some (ty, q, t), pdelay := none })) n f

/-- DELAY_REQ_TRANSMIT (R94): the slave port, end-to-end. -/
def execDelayReqTransmit (port sentAt : Nat) (s : State) : Host.Outcome State Fault Refusal :=
  .next (whenS (isSlave s port && rd s (.tlkPort port) F.TLK_P_CTRL_DM == 0) (requestTx port 1 sentAt) s)

/-- PDELAY_REQ_TRANSMIT (R94): any port in use, peer-to-peer. -/
def execPdelayReqTransmit (port sentAt : Nat) (s : State) : Host.Outcome State Fault Refusal :=
  .next (whenS (ptpInUse s port && rd s (.tlkPort port) F.TLK_P_CTRL_DM == 1) (requestTx port 2 sentAt) s)

/-- ANNOUNCE_RECEIPT_TIMEOUT (R92). -/
def execAnnounceReceiptTimeout (s : State) : Host.Outcome State Fault Refusal := .next (masterLost s)

/-- SYNC_RECEIPT_TIMEOUT (R92). -/
def execSyncReceiptTimeout (s : State) : Host.Outcome State Fault Refusal := .next (masterLost s)

/-! ### The spare lane (R95) -/

/-- Each port moves to its mapped lane where it may; a TL0 that waits for the lane of TL1 follows as TL1 leaves it (R95). -/
def movePorts (s : State) : State := movePort 1 (movePort 0 s)

/-- A completed pair for `TLK_MAP` (R95). -/
def tlkMapEffect (v : Nat) (s : State) : State :=
  let a := bits v 1 0
  let b := bits v 3 2
  if (a = 0 || a = 2) && (b = 1 || b = 2) && !(a = 2 && b = 2) then
    movePorts (wrs s .tlkCtl [(F.TLK_MAP_TL0_LANE, a), (F.TLK_MAP_TL1_LANE, b)])
  else fltEvent s .tlkCtl 7

/-- TLK_MAP_WRITE (R95, R431): the complement that completes the pair. -/
def execTlkMapWrite (m comp : Nat) (s : State) : Host.Outcome State Fault Refusal :=
  .next (takeIn m (.tlkMapWrite m comp) false (pairComplete m .tlkCtl F.TLK_MAP_TL0_LANE.off comp tlkMapEffect) s)

end Sys2Proof.Machine
end

