-- ==== Sys2Proof/Machine/Faults.lean ====
section
/-! DEFINITION. Faults and long-run behaviour (chapter 17): safe states by block, parity, escalation, block reset, device halt, clearing, the event log. -/

namespace Sys2Proof.Machine

open Sys2Proof

/-! ### Safe states (Table 16-4) -/

/-- Every site of a list enters SAFE. -/
def safeSites (l : List Nat) (s : State) : State := forS l (fun i s => safeSite i true s) s

/-- The defined sites. -/
def definedSites (s : State) : List Nat := (List.range 64).filter fun i => (siteOf s i).owner.isSome

/-- The defined sites with a quad in one of some banks. -/
def sitesOfBanks (s : State) (l : List Nat) : List Nat := (definedSites s).filter fun i => (banksOf (siteOf s i).mask).any fun b => l.contains b

/-- An engine's caravan in service is discarded and goes back to the head of its route's ready list, for another engine (R23, Table 16-4). -/
def engDiscard (e : Nat) (s : State) : State :=
  match (engOf s e).work with
  | none => s
  | some w =>
    let s := dropStaged w.car (freeEng e s)
    setRoute s w.car.route { routeOf s w.car.route with ready := { w.car with resv := true, lastEng := some e } :: (routeOf s w.car.route).ready }

/-- A site that the DIS device page stops alone (R171, R176, Table 16-4): its banks enter their safe state and the site enters SAFE. -/
def safeOneSite (i : Nat) (s : State) : State := forS (banksOf (siteOf s i).mask) (fun b s => safeBank b 1 s) (safeSite i true s)

/-- The site that an escalation of RETRY_LIMIT or RS_CHECK concerns. -/
def disSite (s : State) (c : Nat) : Option Nat := if c = 2 then some (rd s .disDev F.DIS_MCHK_LAST_SITE) else s.pat.rsLast.map (·.2)

/-- A unit enters FAULT from outside (R446, Table 16-4). -/
def auStop (u : Nat) (s : State) : State := wr (setAu s u { auOf s u with haltReq := false }) (.au u) F.AU_STAT_STATE 3

/-- Calibration of every bank aborts. -/
def calAbortAll (s : State) : State := forS (List.range 16) calAbortDue s

/-- What a block does as it enters its safe state (Table 16-4); `why` is 1 for an escalation and 2 for a parity mismatch, c the cause. -/
def safeActs (p : Page) (why c : Nat) (s : State) : State :=
  match p with
  | .bnk b => safeBank b why s
  | .eng e => engDiscard e s
  | .disDev => if c = 1 || c = 2 then (match disSite s c with | some i => safeOneSite i s | none => s) else s
  | .cmpDev => safeSites (definedSites s) s
  | .cmpPart n => safeSites (sitesOfPart s n) s
  | .cmpPin g => safeSites (sitesOfBanks s ((List.range 4).map fun k => 4 * g + k)) s
  | .acqDev => forS (List.range 16) disarmChannel (safeSites (definedSites s) s)
  | .acqTo t => safeSites (sitesOfPart s (pageOwner s (.acqTo t))) s
  | .au u => auStop u s
  | .timDev => forS (List.range 4) safePulse s
  | .timPulse q => safePulse q s
  | .tlkCtl => beginSearch (beginSearch s 0) 1
  | .tlkPort _ => beginSearch (beginSearch s 0) 1
  | .tlkLane _ => beginSearch (beginSearch s 0) 1
  | .hifPart n =>
    let s := forS (List.range 4) (fun d s => wr s (.bar4 n) (F.DESC_CTRL_EN d) 0) s
    forS (List.range 16) (fun r s => wr s (.bar4 n) (F.RING_CTRL_EN r) 0) s
  | .calDev => calAbortAll s
  | .calPart n => forS (banksOfPart s n) calAbortDue s
  | .ptb => ptbLock s
  | _ => s

/-- A block enters its safe state. -/
def enterSafe (p : Page) (why c : Nat) (s : State) : State := safeActs p why c (wrb s p F.BLK_STAT_SAFE true)

/-! ### Parity (R430) -/

/-- Fields that hardware also advances: counters, pointers and indices are no configuration fields (R430). -/
def advanced (f : Fld) (p : Page) : Bool :=
  match p with
  | .cmpPin _ => decide (0x100 ≤ f.off)
  | .cmpPart _ => f == F.CMP_LED_RCNT
  | .bnk _ => f == F.ACQ_C_RCNT || f == F.EDG_SR_RCNT
  | .au _ => decide (0x440 ≤ f.off) && decide (f.off < 0x4C0) && f.off % 16 == 0
  | _ => false

/-- A configuration field: access RW or RWL, with or without PRV and CPL, but for counters, pointers and indices (R430). -/
def isConfig (p : Page) (x : Fld × RegRow) : Bool := (x.2.acc == .rw || x.2.acc == .rwl) && !advanced x.1 p

/-- The parity of a register word, at an address, is inverted: it no longer agrees, or agrees again. A mismatch already detected stays until software writes the word, which
alone ends it (R430, log 111). -/
def flipParity (k : Nat) (s : State) : State :=
  { s with mgt := { s.mgt with parBad := tabPut false s.mgt.parBad k (!tabGet false s.mgt.parBad k || tabGet false s.mgt.parSeen k) } }

/-- An upset flips a bit of a configuration field in the word at an offset. -/
def upsetBit (p : Page) (off bit : Nat) (s : State) : State :=
  match (fieldsAt p off).find? fun x => isConfig p x && decide (x.1.lo ≤ bit) && decide (bit < x.1.lo + x.1.width) && x.1.off == off with
  | none => s
  | some (f, _) =>
    flipParity (pageBase p + off) (wr s p f (rd s p f ^^^ (1 <<< (bit - f.lo))))

/-- A mismatch is detected (R430): PARITY, the record, the count and the safe state. -/
def parityFound (p : Page) (off : Nat) (s : State) : State :=
  let s := setLive s p 0 true
  let s := if rdb s p F.PAR_STAT_VALID then s else wrs s p [(F.PAR_STAT_OFFSET, off), (F.PAR_STAT_VALID, 1)]
  let s := incSat s p F.PAR_STAT_COUNT
  let k := pageBase p
  let was := tabGet false s.mgt.safePar k
  let s := { s with mgt := { s.mgt with safePar := tabPut false s.mgt.safePar k true, parSeen := tabPut false s.mgt.parSeen (k + off) true } }
  if was then s else enterSafe p 2 0 s

/-- PARITY_SCAN (R430): the check of every configuration register of the page at an address; `upsets` are the bits, as offset and bit, that have
flipped since the last check. Every mismatch not detected before is detected, whatever made it. -/
def parityScan (p : Page) (upsets : List (Nat × Nat)) (s : State) : State :=
  let s := forS upsets (fun u s => upsetBit p u.1 u.2 s) s
  let new := s.mgt.parBad.filter fun x =>
    decide (pageBase p ≤ x.1) && decide (x.1 < pageBase p + pageSize p) && !tabGet false s.mgt.parSeen x.1
  forS new (fun x s => parityFound p (x.1 - pageBase p) s) s

/-- PARITY_SCAN (R430). -/
def execParityScan (addr : Nat) (upsets : List (Nat × Nat)) (s : State) : Host.Outcome State Fault Refusal :=
  .next (match pageOfAddr addr with | some (p, _) => parityScan p upsets s | none => s)

/-! ### Escalation (R445, R446, Table 17-1) -/

/-- A device halt (R446): the sites' caravans are withdrawn as their sites enter SAFE (R193), and none is dispatched again. -/
def deviceHalt (p : Page) (c : Nat) (s : State) : State :=
  let s := safeSites (definedSites s) { s with pat := { s.pat with halted := true } }
  let s := forS (List.range 68) (fun e s => match (engOf s e).work with | some w => dropStaged w.car (freeEng e s) | none => s) s
  let s := forS (List.range 16) (fun b s => safeBank b 4 (wrb s (.bnk b) F.BLK_STAT_SAFE true)) s
  let s := calAbortAll (forS (List.range 19) auStop s)
  wrs s .mgtDev [(F.MGT_ERR_HALTED, 1), (F.MGT_HALT_TYPE, pageType p), (F.MGT_HALT_INST, pageInst p), (F.MGT_HALT_CAUSE, c)]

/-- The action of an escalation of a page: block reset acts as the safe state in the MGT, PWR, BOOT and LCS pages and the TIM device page. -/
def escAction (s : State) (p : Page) : Nat :=
  let a := rd s p F.FLT_ACTION
  let t := pageType p
  if a = 1 && (t == 1 || t == 14 || t == 15 || t == 16 || p == .timDev) then 0 else a

/-- A page escalates for a cause (R445). -/
def escalate (p : Page) (c : Nat) (s : State) : State :=
  let a := escAction s p
  let k := pageBase p
  let s := setFltRec s p c { fltRec s p c with grace := none, escalated := true }
  let s := evlog (incSat s .mgtDev F.ESCALATIONS) 3 (pageType p) (pageInst p) c a
  let s := raiseInt s .mgtDev 9
  let o := pageOwner s p
  let s := if o < 4 then raiseInt (incSat s (.mgtPart o) F.ESCALATIONS) (.mgtPart o) 9 else s
  let s := { s with mgt := { s.mgt with safeEsc := tabPut 0 s.mgt.safeEsc k (setBit (tabGet 0 s.mgt.safeEsc k) c),
                                        blkReset := if a = 1 && (tabGet none s.mgt.blkReset k).isNone then tabPut none s.mgt.blkReset k (some c) else s.mgt.blkReset } }
  if a = 2 then deviceHalt p c (wrb s p F.BLK_STAT_SAFE true) else enterSafe p 1 c s

/-- A cause's grace timer has run out (R444, R445): `FLT_GRACE` ms of AON ticks since it became severe. -/
def graceOver (s : State) (p : Page) (c : Nat) : Bool :=
  match (fltRec s p c).grace with
  | some (t, ms) => decide (t + ms * 100000 ≤ aonNow s)
  | none => false

/-- GRACE_EXPIRY (R445): the cause is still set and has not escalated since its last clear. -/
def execGraceExpiry (addr c : Nat) (s : State) : Host.Outcome State Fault Refusal :=
  .next (match pageOfAddr addr with
    | none => s
    | some (p, _) =>
      if graceOver s p c && !(fltRec s p c).escalated then
        if (rd s p F.FLT_CAUSE).testBit c then escalate p c s else setFltRec s p c { fltRec s p c with grace := none }
      else s)

/-- The fields that a block reset keeps (Table 17-1), and those that show what it does not touch; `BLK_CTRL.EN` then takes the manifest's value. -/
def keptByReset : List Fld :=
  [F.FLT_CAUSE, F.FLT_LIVE, F.FLT_SEVERE, F.FLT_CNT, F.PAR_STAT_OFFSET, F.PAR_STAT_VALID, F.PAR_STAT_COUNT, F.FLT_WIN, F.FLT_THR, F.FLT_GRACE,
   F.FLT_ACTION, F.FLT_ERRPIN, F.BLK_STAT_SAFE, F.BLK_CTRL_EN, F.BLK_STAT_ON_PENDING, F.BLK_STAT_OFF_PENDING]

/-- The registers of the HIF device page after its block reset: banks and quotas are those of reset (R405, R406), and what the links, the fuses and the manifest say
stays. `old` is the state before. -/
def resetHifDev (old s : State) : State :=
  let s := wrs s .hifDev ([F.HIF_DEV_STAT_BIFUR, F.HIF_DEV_STAT_PRIV, F.HIF_DEV_STAT_MOVING, F.HIF_DEV_STAT_PORT_UP, F.HIF_DEV_STAT_PRESET].map fun f => (f, rd old .hifDev f))
  let s := forS [1, 2, 3, 0] (fun n s => setQuota n (quotaFld n).reset (wr s .hifDev (quotaFld n) (rd old .hifDev (quotaFld n)))) s
  forS ((List.range 16).filter fun b => bankOwner old b != 0) bankMove s

/-- An analysis unit after a block reset of its page: one that thereby changes its partition is cleared first (R324). -/
def resetUnit (old : State) (u : Nat) (s : State) : State :=
  let s := setAu s u { auInit with prog := (auOf s u).prog, data := (auOf s u).data }
  if u < 16 && rd old (.au u) F.AU_ASSIGN_PART != 0 then wrb s (.au u) F.AU_ASSIGN_CLEARING true else s

/-- The conditions that a block reset of a page ends, with the registers and the state that they lie in (R441, Table 17-2): HOLD and RANGE of a bank, and the link's and the
master's of a time-link port. -/
def endConditions (p : Page) (s : State) : State :=
  let off (q : Page) (l : List Nat) (s : State) : State := forS l (fun c s => setLive s q c false) s
  match p with
  | .bnk _ => off p [4, 5] s
  | .tlkPort _ => off p [1, 2, 3, 4, 5] s
  | .tlkLane l => forS ([0, 1].filter fun n => laneOf s n == l) (fun n s => setLive s (.tlkPort n) 3 false) s
  | _ => s

/-- The credits and pointers of dispatch are as reset leaves them (R181, R183). -/
def resetTurns (s : State) : State :=
  { s with pat := { s.pat with credits := State.reset.pat.credits, wrrPtr := State.reset.pat.wrrPtr, tiePtr := State.reset.pat.tiePtr, portPtr := State.reset.pat.portPtr } }

/-- The block state that a page controls returns to reset values with its registers (Table 17-1). -/
def resetBlockState (p : Page) (old s : State) : State :=
  match p with
  | .bnk b =>
    let old := bankOf s b
    let s := setBank s b { bankInit with safe := old.safe, spare := old.spare, convSpare := old.convSpare }
    let s := wrs s p [(F.BNK_STAT_SAFE, b2n (old.safe != 0)), (F.BNK_SPARE_ACTIVE, b2n old.spare.isSome), (F.EDG_SPARE_ACTIVE, b2n old.convSpare.isSome)]
    let s := forS (List.range 4) (fun k s => setFur s (4 * b + k) furInit) s
    setSring (forS (List.range 16) (fun j s => setConv s (16 * b + j) convInit) s) b sringInit
  | .eng e => setEng s e { engOf s e with mchk := false, checks := [], busyBase := 0, due := false }
  | .au u => resetUnit old u s
  | .hifDev => resetHifDev old s
  | .disDev =>
    let sh := bifurShares (rd s .hifDev F.HIF_DEV_STAT_BIFUR)
    let s := forS (List.range 4) csHoldEnds (resetTurns s)
    takeShares sh (wrs s .disDev [(F.DIS_SHARE_0, sh.getD 0 0), (F.DIS_SHARE_1, sh.getD 1 0), (F.DIS_SHARE_2, sh.getD 2 0), (F.DIS_SHARE_3, sh.getD 3 0)])
  | .memDev => wrs s .memDev ([F.MEM_SPARES, F.MEM_SPEED_ACTIVE, F.MEM_TEMP_TEMP, F.MEM_TEMP_VALID, F.MEM_TEMP_HOT_RATE, F.MEM_TEMP_SEVERE].map fun f => (f, rd old .memDev f))
  | .cmpPart n => setLedger s n ledgerInit
  | .timPulse q => setPulse s q none
  | .acqTo t => { s with pin := { s.pin with trigOut := tabPut false s.pin.trigOut t false } }
  | .tlkPort n => setTport s n tlkPort0
  | .tlkLane l => wrs (setTlane s l ⟨false, false⟩) p [(F.TLK_L_TX_LAT, s.boot.txLat.getD l 0), (F.TLK_L_RX_LAT, s.boot.rxLat.getD l 0)]
  | .tlkCtl =>
    let s := { s with tlk := { s.tlk with integ := 0 } }
    wrs s .tlkCtl [(F.TLK_CLK_ID_LO, fuseWord s 3 0), (F.TLK_CLK_ID_HI, fuseWord s 3 1), (F.TLK_MAC_LO, fuseWord s 4 0), (F.TLK_MAC_HI, fuseWord s 4 1)]
  | .calDev => calRestore (setCal { s.cal with reqs := [] } s)
  | .ptb => ptbFollow (ptbQuiet s)
  | _ => s

/-- BLOCK_RESET_DONE (R445): the page's registers are back at reset values but for the kept ones, and live is what still holds; the page leaves its safe state unless an
escalated cause is still live. The log entry carries the cause that escalated to the reset (Table 17-5). -/
def blockResetDone (p : Page) (s : State) : State :=
  let k := pageBase p
  match tabGet none s.mgt.blkReset k with
  | none => s
  | some c =>
    let esc := tabGet 0 s.mgt.safeEsc k
    let old := keptByReset.map fun f => (f, rd s p f)
    let before := s
    let s := forgetPage p (resetRange k (k + pageSize p) s)
    let s := setLive (endConditions p (resetBlockState p before (enReset p (wrs s p old)))) p 0 false
    let s := { s with mgt := { s.mgt with safeEsc := tabPut 0 s.mgt.safeEsc k (esc &&& rd s p F.FLT_LIVE), blkReset := tabPut none s.mgt.blkReset k none,
                                          safePar := tabPut false s.mgt.safePar k false } }
    leaveSafe p (evlog s 7 (pageType p) (pageInst p) c 2)

/-- BLOCK_RESET_DONE (R445). -/
def execBlockResetDone (addr : Nat) (s : State) : Host.Outcome State Fault Refusal :=
  .next (match pageOfAddr addr with | some (p, _) => blockResetDone p s | none => s)

/-! ### Clearing (R449) -/

/-- A W1C write of one `FLT_CAUSE` bit by a master (R449). -/
def clearCause (m : Nat) (p : Page) (c : Nat) (s : State) : State :=
  if !(rd s p F.FLT_CAUSE).testBit c then s
  else if (rd s p F.FLT_LIVE).testBit c then
    let o := pageOwner s p
    let s := incSat s .mgtDev F.CLR_REFUSED
    let s := if o < 4 then incSat s (.mgtPart o) F.CLR_REFUSED else s
    evlog s 5 (pageType p) (pageInst p) c m
  else
    let severe := (rd s p F.FLT_SEVERE).testBit c
    let k := pageBase p
    let s := wrs s p [(F.FLT_CAUSE, clrBit (rd s p F.FLT_CAUSE) c), (F.FLT_SEVERE, clrBit (rd s p F.FLT_SEVERE) c)]
    let s := setFltRec s p c ⟨0, 0, none, false⟩
    let s := { s with mgt := { s.mgt with safeEsc := tabPut 0 s.mgt.safeEsc k (clrBit (tabGet 0 s.mgt.safeEsc k) c) } }
    if severe then evlog s 4 (pageType p) (pageInst p) c m else s

/-- A W1C write of `FLT_CAUSE`, each bit judged by the conditions of its cycle (R449); where a bit clears, the block leaves a safe state that nothing holds any more. -/
def clearCauses (m : Nat) (p : Page) (word : Nat) (s : State) : State :=
  let t := forS ((List.range 32).filter fun c => word.testBit c) (clearCause m p) s
  if rd t p F.FLT_CAUSE = rd s p F.FLT_CAUSE then t else leaveSafe p t

/-- FAULT_CLEAR (R449), in the page at an address of BAR0. -/
def execFaultClear (m addr word : Nat) (s : State) : Host.Outcome State Fault Refusal :=
  .next (takeIn m (writeReq m (match pageOfAddr addr with | some (p, _) => pageBase p + F.FLT_CAUSE.off | none => addr) word) false (fun s => match pageOfAddr addr with
    | some (p, _) => asWriter s m p F.FLT_CAUSE.off false (clearCauses m p word)
    | none => s) s)

/-! ### Watchdog and event log (R452–R455) -/

/-- FW_WDOG (R452). -/
def execFwWdog (s : State) : Host.Outcome State Fault Refusal := .next (wearNote 5 0 (aonNow s) (raiseInt (fltEvent s .mgtDev 3) .mgtDev 3))

/-- A place of the event log that has not been written. -/
def logInit : LogEntry := ⟨0, 0, 0, 0, 0, 0, 0⟩

/-- A write of `MGT_EVLOG_IDX` latches the entry at the place for the writing master (R455). -/
def evlogIdx (m word : Nat) (s : State) : State :=
  let e := tabGet logInit s.mgt.log (word % 4096)
  { wr s .mgtDev F.MGT_EVLOG_IDX word with mgt := { s.mgt with latch := tabPut logInit s.mgt.latch m e } }

/-- EVLOG_IDX_WRITE (R455). -/
def execEvlogIdxWrite (m word : Nat) (s : State) : Host.Outcome State Fault Refusal := .next (takeIn m (writeReq m (pageBase .mgtDev + F.MGT_EVLOG_IDX.off) word) false (fun s => asWriter s m .mgtDev F.MGT_EVLOG_IDX.off true (evlogIdx m word)) s)

/-- The 16 bytes of an event-log entry as one number (Table 17-4). -/
def logWord (e : LogEntry) : Nat :=
  e.sec + e.ns * 2 ^ 48 + e.kind * 2 ^ 80 + e.typ * 2 ^ 88 + e.inst * 2 ^ 96 + e.cause * 2 ^ 104 + e.detail * 2 ^ 112

/-- EVLOG_MARK (R454). -/
def execEvlogMark (m word : Nat) (s : State) : Host.Outcome State Fault Refusal := .next (takeIn m (writeReq m (pageBase .mgtDev + F.MGT_EVLOG_MARK.off) word) false (fun s => asWriter s m .mgtDev F.MGT_EVLOG_MARK.off true fun s => evlog s 12 1 0 0 word) s)

end Sys2Proof.Machine
end

