-- ==== Sys2Proof/Machine/Power.lean ====
section
/-! DEFINITION. Power, reset and sleep (chapter 18): supplies, resets, switched domains, sleep and wake; with them what the fuses say (R487–R489). -/

namespace Sys2Proof.Machine

open Sys2Proof

/-! ### The fuses (R487–R489) -/

/-- The 64 bits of a row of two words. -/
def fuseRow (s : State) (row : Nat) : Nat := fuseWord s row 0 + fuseWord s row 1 * 2 ^ 32

/-- The count of row 0 (R489): the blown bits of [10:0]. -/
def lcCount (s : State) : Nat := ((List.range 11).filter fun b => (fuseWord s 0 0).testBit b).length

/-- CYCLES: the entries into RETURN so far. -/
def lcCycles (s : State) : Nat := lcCount s / 3

/-- The life-cycle state that row 0 encodes (Table 20-2): 0 MANUFACTURE, 1 PROVISIONED, 2 FIELD, 3 RETURN, 4 SCRAPPED. -/
def lcState (s : State) : Nat :=
  let w := fuseWord s 0 0
  let n := lcCount s
  if w.testBit 15 || w % 2 ^ 11 ≠ 2 ^ n - 1 then 4
  else if n = 0 then 0
  else match n % 3 with | 1 => 1 | 2 => 2 | _ => 3

/-- The ERASED bit of the present cycle is not blown in RETURN (R491). -/
def erasePend (s : State) : Bool := lcState s == 3 && !(fuseWord s 1 0).testBit (4 * lcCycles s - 1)

/-- `BOOT_SVN_MIN` (R488): the position of the highest blown SVN bit plus 1. -/
def svnMin (s : State) : Nat := if fuseRow s 10 = 0 then 0 else Nat.log2 (fuseRow s 10) + 1

/-- The registers whose reset values the fuses give. -/
def loadFuses (s : State) : State :=
  let s := wrs s .lcs [(F.LCS_STATE_STATE, lcState s), (F.LCS_STATE_CYCLES, lcCycles s), (F.LCS_STATE_ERASE_PEND, b2n (erasePend s)),
    (F.LCS_SERIAL, fuseRow s 2)]
  let s := wrs s .tlkCtl [(F.TLK_CLK_ID_LO, fuseWord s 3 0), (F.TLK_CLK_ID_HI, fuseWord s 3 1), (F.TLK_MAC_LO, fuseWord s 4 0), (F.TLK_MAC_HI, fuseWord s 4 1)]
  wrb (wr s .boot F.BOOT_SVN_MIN (svnMin s)) .hifDev F.HIF_DEV_STAT_PRIV ((fuseWord s 11 0).testBit (lcCycles s))

/-! ### Resets of the device (Table 18-4) -/

/-- The key under which a byte of pattern memory is found after a reset, given its key before. -/
def foundAt (s : State) (k : Nat) : Option Nat :=
  if 2 ^ 37 ≤ k then some (if k < 2 ^ 37 + 2 ^ 35 then k - 2 ^ 37 else k)
  else (s.memc.regions.getD (k / 2 ^ 35) [])[k % 2 ^ 35 / 2 ^ 30]?.map fun r => r * 2 ^ 30 + k % 2 ^ 30

/-- Pattern memory as it is found after a reset: each byte at its place in the physical regions, which partition 0 then holds in order (R368, R406); the reserved regions keep
theirs. -/
def remapMem (s : State) : List Host.Cell :=
  s.mem.foldl (fun m c => match foundAt s c.1 with | some k => tabIns m k c.2 | none => m) []

/-- The home frames of the retirement list (R395), with repeats. -/
def retiredHomes (s : State) : List Nat := ((retired s).filter fun e => bits e 31 28 = 0).map fun e => e % 2 ^ 26

/-- The page map that firmware rebuilds at boot from the retirement list (R395): retired frames take the spare frames in the order of the list, a
frame that was retired again the one of its last entry; POISON bits are kept where pattern memory is. -/
def rebuildMap (keep : Bool) (s : State) : Tab MapEnt :=
  let homes := retiredHomes s
  let base : Tab MapEnt := if keep then s.memc.map.filterMap fun e => if e.2.poison = 0 then none else some (e.1, ⟨e.1, false, e.2.poison⟩) else []
  (homes.zip (List.range homes.length)).foldl (fun m x => tabIns m x.1 ⟨33 * 2 ^ 20 + x.2, true, ((tabFind m x.1).map fun y => y.poison).getD 0⟩) base

/-- The whole device except the always-on domain, with the outputs of the banks off (R459), returns to its reset values (Table 18-4): device time base, event log, fuses and flash stay, and pattern memory where
its rail stayed up. -/
def deviceReset (keep : Bool) (s : State) : State :=
  let z := State.reset
  let zero (t : Tab Nat) : Tab Nat := t.filter fun e => e.1 == 0
  let kept : List (Page × Fld × Nat) := [(Page.timDev, F.TIM_DTB_SUBNS), (.timDev, F.TIM_DTB_NS), (.timDev, F.TIM_DTB_SEC_LO), (.timDev, F.TIM_DTB_SEC_HI),
    (.timDev, F.TIM_DTB_INC_LO), (.timDev, F.TIM_DTB_INC_HI), (.mgtDev, F.MGT_EVLOG_WCNT), (.mgtDev, F.MGT_EVLOG_OVWR), (.pwrDev, F.BROWNOUTS),
    (.pwrDev, F.PWR_STAT_VIN_OK)].map fun x => (x.1, x.2, rd s x.1 x.2)
  let map := rebuildMap keep s
  let dir := ((newestDir s).map (·.2)).getD noDirectory
  let t : State := { z with
    pending := s.pending, out := s.out, freeCtr := s.freeCtr
    mem := if keep then remapMem s else []
    mgt := { z.mgt with log := s.mgt.log }
    tim := { z.tim with fracLo := zero s.tim.fracLo, inc := zero s.tim.inc, ticks := zero s.tim.ticks }
    cal := { z.cal with recs := s.cal.recs }
    memc := { z.memc with map := map, repaired := s.memc.repaired }
    pwr := { z.pwr with stage := s.pwr.stage, rstLow := s.pwr.rstLow, sreq := s.pwr.sreq }
    boot := { z.boot with copy0 := s.boot.copy0, copy1 := s.boot.copy1, dir := dir, list0 := s.boot.list0, list1 := s.boot.list1 }
    lcs := { z.lcs with fuses := s.lcs.fuses, tap := s.lcs.tap, rsBad := if keep then s.lcs.rsBad else [] } }
  let t := kept.foldl (fun t x => wr t x.1 x.2.1 x.2.2) t
  let n := (retiredHomes s).length
  let t := wrs t .memDev [(F.MEM_SPARES, 2 ^ 20 - n), (F.MEM_RETIRED, n)]
  let t := forS ((List.range 16).filter (domOn s)) (fun b t => emit t (.outputs b false)) t
  wr (loadFuses t) .pwrDev F.PWR_DOM_ON 0

/-- The present TAP instruction holds the device as if RST_N were low (R495). -/
def tapHold (s : State) : Bool := s.lcs.tap == 0 || s.lcs.tap == 3 || s.lcs.tap == 4 || s.lcs.tap == 5 || s.lcs.tap == 6

/-- A stage of the power-up sequence. -/
def setStage (x : Stage) (s : State) : State := { s with pwr := { s.pwr with stage := x } }

/-- Power-up goes on from the stage "Soft start" (Table 18-2): PD28, PD26, PD22 and PD21 turn on and the ROM boots; in SCRAPPED only PD22 turns on (R492). While RST_N is
low it stops, and it waits for VIN of 2.7 V or more. -/
def powerUp (s : State) : State :=
  if s.pwr.rstLow || tapHold s then setStage .held s
  else if !rdb s .pwrDev F.PWR_STAT_VIN_OK then setStage .noVin s
  else if rd s .lcs F.LCS_STATE_STATE = 4 then wr (setStage .scrapped s) .pwrDev F.PWR_DOM_ON (2 ^ 22)
  else wr (setStage .rom s) .pwrDev F.PWR_DOM_ON (2 ^ 21 + 2 ^ 22 + 2 ^ 26 + 2 ^ 28)

/-- The device has power and is not held off: VSTBY is there and no brown-out waits for VIN. -/
def powered (s : State) : Bool := s.pwr.stage != .noVstby && s.pwr.stage != .noVin

/-- A reset as by RST_N (R466), up to the point where RST_N is released: patterns survive where VIN stayed above 2.7 V. -/
def rstReset (s : State) : State :=
  evlog (setStage .held (deviceReset (rdb s .pwrDev F.PWR_STAT_VIN_OK) (ptbLock s))) 7 1 0 0 0

/-- The device restarts as after RST_N (R466). -/
def restart (s : State) : State := if powered s then powerUp (rstReset s) else s

/-- RST_N_ASSERT (R466): RST_N low for at least 1 µs. -/
def execRstNAssert (s : State) : Host.Outcome State Fault Refusal :=
  .next (
    let s := { s with pwr := { s.pwr with rstLow := true } }
    if powered s then rstReset s else s)

/-- RST_N_RELEASE (R461): power-up goes on from the stage reached. -/
def execRstNRelease (s : State) : Host.Outcome State Fault Refusal :=
  .next (
    let s := { s with pwr := { s.pwr with rstLow := false } }
    if s.pwr.stage = .held then powerUp s else s)

/-- DOMAIN_OFF is logged for a page whose domain turns off while a cause is set (R447, R454). -/
def logOff (p : Page) (s : State) : State :=
  let c := rd s p F.FLT_CAUSE
  if c = 0 then s else evlog s 6 (pageType p) (pageInst p) 0 c

/-- A brown-out (R459): outputs at safe levels, every switched domain and the HBM rail off, which the log shows of the pages that hold a cause (R447); the device waits for
VIN. -/
def brownOut (s : State) : State :=
  if !powered s then s
  else
    let s := forS (allPages.filter fun p => pageDom p != 63 && pageOn s p) logOff s
    let s := wrb (deviceReset false s) .pwrDev F.PWR_STAT_VIN_OK false
    evlog (incSat (setStage .noVin s) .pwrDev F.BROWNOUTS) 7 1 0 0 0

/-- `PWR_MON.VIN` takes a measurement that the command does not carry: some value from lo to hi, in mV (R502, log 3). -/
def vinMeas (lo hi : Nat) (s : State) : State := freeStep (wr s .pwrDev F.PWR_MON_VIN (lo + freeNow s % (hi + 1 - lo)))

/-- BROWN_OUT (R459): VIN is measured below 2.6 V. -/
def execBrownOut (s : State) : Host.Outcome State Fault Refusal := .next (if powered s then vinMeas 0 2599 (brownOut s) else s)

/-- VIN is back at 2.7 V or more while the device waits for it: power-up goes on (R459, R461). -/
def vinBack (s : State) : State := powerUp (wrb s .pwrDev F.PWR_STAT_VIN_OK true)

/-- VIN_RESTORE (R459, R461): VIN is measured above 2.7 V. -/
def execVinRestore (s : State) : Host.Outcome State Fault Refusal :=
  .next (if s.pwr.stage = .noVin then vinBack (vinMeas 2701 65535 s) else s)

/-- A junction temperature of 125 °C or more forces a brown-out, whatever any register holds (R460). -/
def overtemp (t : Int) (s : State) : State := wr (brownOut s) .pwrDev F.PWR_TJ (ofSigned 8 t)

/-- JUNCTION_OVERTEMP (R460). -/
def execJunctionOvertemp (t : Int) (s : State) : Host.Outcome State Fault Refusal :=
  .next (if 125 ≤ t && s.pwr.stage ≠ .noVstby then overtemp t s else s)

/-- VSTBY_LOSS (R459): every regulator is off whatever VIN does. -/
def execVstbyLoss (s : State) : Host.Outcome State Fault Refusal := .next (setStage .noVstby (deviceReset true s))

/-- POWER_ON_RESET (R461, Table 18-2): the device time base starts at zero and the event log clears; pattern memory stays only if VIN and the HBM rail stayed up. `vin`: VIN
is at or above 2.7 V. -/
def powerOnReset (vin hbmKept : Bool) (s : State) : State :=
  let s := deviceReset hbmKept { s with mgt := { s.mgt with log := [] }, tim := State.reset.tim }
  let s := wrs s .timDev [(F.TIM_DTB_SUBNS, 0), (F.TIM_DTB_NS, 0), (F.TIM_DTB_SEC_LO, 0), (F.TIM_DTB_SEC_HI, 0),
    (F.TIM_DTB_INC_LO, F.TIM_DTB_INC_LO.reset), (F.TIM_DTB_INC_HI, F.TIM_DTB_INC_HI.reset)]
  let s := wrs s .mgtDev [(F.MGT_EVLOG_WCNT, 0), (F.MGT_EVLOG_OVWR, 0)]
  powerUp (wrs s .pwrDev [(F.BROWNOUTS, 0), (F.PWR_STAT_VIN_OK, b2n vin)])

/-- POWER_ON_RESET (R461). -/
def execPowerOnReset (vin hbmKept : Bool) (s : State) : Host.Outcome State Fault Refusal := .next (powerOnReset vin hbmKept s)

/-! ### Measured conditions (R460, R502, Table 18-9) -/

/-- VIN_LOW: VIN, in mV, is below 2.7 V. While a reset holds the device its patterns are lost, since VIN has not stayed up (R466). -/
def execVinLow (mv : Nat) (s : State) : Host.Outcome State Fault Refusal :=
  .next (if mv < 2700 && powered s then
    let s := if s.pwr.stage = .held then setStage .held (deviceReset false s) else s
    setLiveInt (wrs s .pwrDev [(F.PWR_MON_VIN, mv), (F.PWR_STAT_VIN_OK, 0)]) .pwrDev 2 2 true else s)

/-- VIN_OK: VIN, in mV, is back at 2.7 V or more without a brown-out; where power-up waited for it, it goes on (R461). -/
def execVinOk (mv : Nat) (s : State) : Host.Outcome State Fault Refusal :=
  .next (if mv < 2700 then s
    else if powered s then setLive (wrs s .pwrDev [(F.PWR_MON_VIN, mv), (F.PWR_STAT_VIN_OK, 1)]) .pwrDev 2 false
    else if s.pwr.stage = .noVin then vinBack (setLive (wr s .pwrDev F.PWR_MON_VIN mv) .pwrDev 2 false)
    else s)

/-- The VIN current, in 10 mA, is at `PWR_ILIM` or above it (steps of 0.5 A). -/
def overLimit (s : State) (i : Nat) : Bool := decide (50 * rd s .pwrDev F.PWR_ILIM ≤ i)

/-- OVERCURRENT (R460). -/
def execOvercurrent (i : Nat) (s : State) : Host.Outcome State Fault Refusal :=
  .next (if overLimit s i && powered s then setLiveInt (wr s .pwrDev F.PWR_MON_IIN i) .pwrDev 3 3 true else s)

/-- CURRENT_BELOW_LIMIT (R460). -/
def execCurrentBelowLimit (i : Nat) (s : State) : Host.Outcome State Fault Refusal :=
  .next (if !overLimit s i && powered s then setLive (wr s .pwrDev F.PWR_MON_IIN i) .pwrDev 3 false else s)

/-- REG_FAULT (Table 18-9): a rail is out of regulation. -/
def execRegFault (s : State) : Host.Outcome State Fault Refusal := .next (if powered s then setLiveInt s .pwrDev 4 4 true else s)

/-- RAIL_IN_REGULATION (Table 18-9). -/
def execRailInRegulation (s : State) : Host.Outcome State Fault Refusal := .next (if powered s then setLive s .pwrDev 4 false else s)

/-- TJ_HOT (Table 18-9): the junction temperature, in °C, reads above 105; at 125 or more it forces a brown-out (R460). -/
def execTjHot (t : Int) (s : State) : Host.Outcome State Fault Refusal :=
  .next (if 125 ≤ t && powered s then overtemp t s
    else if 105 < t && powered s then setLiveInt (wr s .pwrDev F.PWR_TJ (ofSigned 8 t)) .pwrDev 5 5 true else s)

/-- TJ_BELOW_LIMIT (Table 18-9). -/
def execTjBelowLimit (t : Int) (s : State) : Host.Outcome State Fault Refusal :=
  .next (if t ≤ 105 && powered s then setLive (wr s .pwrDev F.PWR_TJ (ofSigned 8 t)) .pwrDev 5 false else s)

/-- The effect of a completed `PWR_ILIM` pair: 40 to 112, others refused. -/
def ilimEffect (v : Nat) (s : State) : State :=
  if v % 128 < 40 || 112 < v % 128 then fltEvent s .pwrDev 1 else wr s .pwrDev F.PWR_ILIM v

/-- PWR_ILIM_WRITE (R460). -/
def execPwrIlimWrite (m comp : Nat) (s : State) : Host.Outcome State Fault Refusal := .next (takeIn m (writeReq m (pageBase .pwrDev + F.PWR_ILIM.off + 0x800) comp) false (pairComplete m .pwrDev F.PWR_ILIM.off comp ilimEffect) s)

/-! ### Switched domains (R433, R434, R462–R465) -/

/-- FUNCTION_ENABLE (R433, R434): in the page at an address; EN is reserved where EN_IMPL = 0. -/
def execFunctionEnable (m addr : Nat) (s : State) : Host.Outcome State Fault Refusal :=
  .next (takeIn m (.functionEnable m addr) false (fun s => match pageOfAddr addr with
    | some (p, _) => asWriter s m p F.BLK_CTRL_EN.off false fun s => if enImpl p then enableEffect p s else s
    | none => badPlace m s) s)

/-- The PWR page of a page's owner, which counts PWR_CFG (R463). -/
def pwrPageOf (s : State) (p : Page) : Page := if pageOwner s p < 4 then .pwrPart (pageOwner s p) else .pwrDev

/-- A write of `BLK_CTRL.EN` = 0 is refused (R463). AU states: 1 RUNNING, 2 WAITING, 4 SUBST. -/
def disableRefused (s : State) (p : Page) : Bool :=
  match p with
  | .bnk b => bankBusy s b || rdb s .hifDev F.HIF_DEV_STAT_MOVING
  | .au u => let st := rd s (.au u) F.AU_STAT_STATE; st == 1 || st == 2 || st == 4
  | .tlkCtl => rdb s .tlkCtl F.TLK_CTRL_SERVO_EN
  | _ => false

/-- A write of `BLK_CTRL.EN` = 0 (R434, R463). -/
def disableEffect (p : Page) (s : State) : State :=
  if disableRefused s p then fltEvent s (pwrPageOf s p) 1
  else
    turnOff p (match p with | .bnk b => if rdb s p F.BLK_CTRL_EN then calAbortDue b s else s | _ => s)

/-- FUNCTION_DISABLE (R463). -/
def execFunctionDisable (m addr : Nat) (s : State) : Host.Outcome State Fault Refusal :=
  .next (takeIn m (.functionDisable m addr) false (fun s => match pageOfAddr addr with
    | some (p, _) => asWriter s m p F.BLK_CTRL_EN.off false fun s => if enImpl p then disableEffect p s else s
    | none => badPlace m s) s)

/-- The configuration fields of a page (R430): every entry of its RW and RWL rows. -/
def configFields (p : Page) : List Fld :=
  (rowsOf p).flatMap fun r =>
    ((List.range (max 1 r.count)).map r.fld).filter fun f => isConfig p (f, r)

/-- Fields that stay although they are no configuration fields: `LOCK`, which only the resets of R437 clear, the enables' pending flags, and what sleep keeps
(Table 18-5): site states, `DIS_TICK`, the operating point and the spare counts of memory. All else of a page is at its reset value while its domain is off (R465). -/
def keptOff (p : Page) : List Fld :=
  [F.LOCK, F.BLK_STAT_ON_PENDING, F.BLK_STAT_OFF_PENDING] ++
  match p with
  | .disDev => [F.DIS_TICK]
  | .cmpPart _ => (List.range 64).flatMap fun i => [F.CMP_SITE_STATE_STATE i, F.CMP_SITE_CAUSES i]
  | .memDev => [F.MEM_SPEED_ACTIVE, F.MEM_SPARES, F.MEM_RETIRED]
  | _ => []

/-- A page's registers as its domain turns off (R447, R465): DOMAIN_OFF is logged where a cause was set; configuration stays, everything else returns to its reset
value. -/
def pageOff (p : Page) (s : State) : State :=
  let s := logOff p s
  let marks := s.mgt.written
  let s := resetFields p (configFields p ++ keptOff p) s
  { s with mgt := { s.mgt with written := marks } }

/-- The latched sum of the pool counts is gone (R177). -/
def dropLatches (s : State) : State := { s with pat := { s.pat with poolLatch := State.reset.pat.poolLatch } }

/-- The storage of a domain is lost (R465). Of the dispatcher it is the waystations and the ready lists; a caravan still there is withdrawn (R193). -/
def storageOff (d : Nat) (s : State) : State :=
  if d < 16 then
    let s := pecLost d s
    let old := bankOf s d
    let s := setBank s d { bankInit with tsets := old.tsets, spare := old.spare, convSpare := old.convSpare, safe := old.safe &&& (2 ^ 4 + 2 ^ 6) }
    let s := wrs s (.bnk d) [(F.BLK_STAT_SAFE, b2n s.pat.halted), (F.BNK_STAT_SAFE, b2n ((bankOf s d).safe != 0)), (F.BNK_SPARE_ACTIVE, b2n old.spare.isSome), (F.EDG_SPARE_ACTIVE, b2n old.convSpare.isSome)]
    let s := forS (List.range 4) (fun k s => setFur s (4 * d + k) furInit) s
    let s := forS (List.range 16) (fun j s => setPin (setConv s (16 * d + j) convInit) (16 * d + j) pinInit) s
    emit (setSring s d sringInit) (.outputs d false)
  else if d < 20 then csLost (d - 16) (forS (List.range 17) (fun j s => engDiscard (17 * (d - 16) + j) s) s)
  else if d = 20 then
    dropLatches (resetTurns (forS (definedSites s) (fun i s => withdrawSite i true s) s))
  else if d = 23 then
    let lanes := s.tlk.ports.filterMap fun e => if e.2.lane.isSome then some (e.1, { tlkPort0 with lane := e.2.lane }) else none
    { s with tlk := { State.reset.tlk with ports := lanes } }
  else if d = 24 then { forS (List.range 4) (fun n s => setLedger s n ledgerInit) s with pin := { s.pin with trigOut := [] } }
  else if d = 25 then forS (List.range 19) (fun u s => setAu s u auInit) s
  else if d = 21 then { s with memc := { s.memc with lines := [], lookup := false } }
  else s

/-- A domain turns off (R464, R465). -/
def domOff (d : Nat) (s : State) : State :=
  let s := storageOff d (forS (domPages d) pageOff (if d = 29 then ptbLock s else s))
  let spare := rdb s (.au 16) F.AU_SPARE_ACTIVE
  let s := wr s .pwrDev F.PWR_DOM_ON (clrBit (rd s .pwrDev F.PWR_DOM_ON) d)
  if d = 25 then wrb s (.au 16) F.AU_SPARE_ACTIVE (spare || s.au.spare.isSome) else s

/-- What a domain does as it turns on (R67, R122, R167, R231, R318, R380, R464): a bank drives its outputs again, in the mode that `BNK_CTRL` has kept, and its frequency
counters start their gates; the dispatcher takes the shares that `DIS_SHARE` has kept (log 112). -/
def domUp (d : Nat) (s : State) : State :=
  let s := wr s .pwrDev F.PWR_DOM_ON (setBit (rd s .pwrDev F.PWR_DOM_ON) d)
  if d < 16 then emit (forS (List.range 16) (fun j s => fcStart (16 * d + j) s) (wr s (.bnk d) F.BNK_STAT_MODE_ACT (rd s (.bnk d) F.BNK_CTRL_MODE))) (.outputs d true)
  else if d = 20 then takeShares (shares s) s
  else if d < 20 then csLoad (d - 16) s
  else if d = 21 then wr s .memDev F.MEM_TEMP_VALID 0
  else if d = 23 then
    forS [0, 1] (fun n s =>
      let s := beginSearch s n
      wr s (.tlkPort n) F.TLK_P_STAT_PTP (if rdb s (.tlkPort n) F.TLK_P_CTRL_EN then ptpStart s n else 0)) s
  else s

/-- A block reset of a page of the domain delays its shutdown (R463); in the safe state of PWR no domain changes (Table 16-4). -/
def changeHeld (s : State) (d : Nat) : Bool :=
  pageSafe s .pwrDev || (domPages d).any fun p => (tabGet none s.mgt.blkReset (pageBase p)).isSome

/-- The next change to be carried out is this one: the oldest requested, and with none the first that firmware wants itself (R462). -/
def changeDue (s : State) (d : Nat) (on : Bool) : Bool := (s.pwr.queue ++ fwChanges s).head? == some (d, on)

/-- The change at the head of the queue is done. -/
def domPop (s : State) : State := { s with pwr := { s.pwr with queue := s.pwr.queue.drop 1 } }

/-- The pages of a domain that have EN and of which something holds. -/
def fnPages (d : Nat) (f : Page → Bool) : List Page := (domPages d).filter fun p => enImpl p && f p

/-- Store which pages' functions are off: `on` pages are no longer, `off` pages are now. -/
def setFn (on off : List Page) (s : State) : State :=
  let l := on.map pageBase
  { s with pwr := { s.pwr with fnOff := s.pwr.fnOff.filter (fun b => !l.contains b) ++ (off.map pageBase).filter fun b => !s.pwr.fnOff.contains b } }

/-- SHUTDOWN_DONE (R434, R464): the functions that shut down are off, and so is the domain where nothing else asks for it; a pending enable starts it again at
once. -/
def shutdownDone (d : Nat) (s : State) : State :=
  if changeDue s d false && !changeHeld s d && s.pwr.stage == .run && awake s then
    let down := fnPages d fun p => rdb s p F.BLK_STAT_OFF_PENDING && fnOn s p
    let again := down.any fun p => rdb s p F.BLK_STAT_ON_PENDING
    let s := setFn [] down (forS down (fun p s => wrs s p [(F.BLK_STAT_ON_PENDING, 0), (F.BLK_STAT_OFF_PENDING, 0)]) (domPop s))
    let s := if domWanted s d then s else domOff d s
    if again then { s with pwr := { s.pwr with queue := (d, true) :: s.pwr.queue } } else s
  else s

/-- SHUTDOWN_DONE (R464). -/
def execShutdownDone (d : Nat) (s : State) : Host.Outcome State Fault Refusal := .next (shutdownDone d s)

/-- STARTUP_DONE (R434, R464): the domain is on, with the functions that asked for it; a disable written meanwhile starts the shutdown. A flash operation that waits for PD28
starts. -/
def startupDone (d : Nat) (s : State) : State :=
  if changeDue s d true && !pageSafe s .pwrDev && s.pwr.stage == .run && awake s then
    let up := fnPages d fun p => !fnOn s p && (rdb s p F.BLK_CTRL_EN || rdb s p F.BLK_STAT_OFF_PENDING)
    let stay := fnPages d fun p => !fnOn s p && !rdb s p F.BLK_CTRL_EN && !rdb s p F.BLK_STAT_OFF_PENDING
    let off := up.any fun p => rdb s p F.BLK_STAT_OFF_PENDING
    let was := domOn s d
    let s := setFn up stay (forS up (fun p s => wrb s p F.BLK_STAT_ON_PENDING false) (domPop s))
    let s := if was then s else domUp d s
    let s := if off then { s with pwr := { s.pwr with queue := (d, false) :: s.pwr.queue } } else s
    if d = 28 then flashStart s else s
  else s

/-- STARTUP_DONE (R464). -/
def execStartupDone (d : Nat) (s : State) : Host.Outcome State Fault Refusal := .next (startupDone d s)

/-! ### Sleep (R467, R468) -/

/-- Every partition with a port has voted (`PWR_P_STAT.ALL_VOTED`). -/
def allVoted (s : State) : Bool := (List.range 4).all fun n => !portExists s n || rdb s (.pwrPart n) F.PWR_P_SLEEP_VOTE

/-- SLEEP_VOTE (R467). -/
def execSleepVote (m n word : Nat) (s : State) : Host.Outcome State Fault Refusal :=
  .next (takeIn m (writeReq m (pageBase (.pwrPart n) + F.PWR_P_SLEEP_VOTE.off) word) false
    (fun s => asWriter s m (.pwrPart n) F.PWR_P_SLEEP_VOTE.off false fun s => wr s (.pwrPart n) F.PWR_P_SLEEP_VOTE word) s)

/-- SLEEP_REQ acts: it is high and SREQ_EN = 1. -/
def sreqActs (s : State) : Bool := s.pwr.sreq && rdb s .pwrDev F.PWR_SLEEP_CTRL_SREQ_EN

/-- Under SLEEP_REQ every PRIMING or RUNNING site stops as by HALT with AT_BOUNDARY = 0 (R467). -/
def sleepHalts (s : State) : State :=
  if sreqActs s && awake s && s.pwr.stage == .run then forS ((List.range 64).filter (siteBusy s)) (fun i s => haltSite i false s) s else s

/-- SLEEP_REQ (R467): high for 1 µs; every PRIMING or RUNNING site stops as by HALT with AT_BOUNDARY = 0. -/
def execSleepReq (s : State) : Host.Outcome State Fault Refusal :=
  .next (sleepHalts { s with pwr := { s.pwr with sreq := true } })

/-- The device decides to sleep (R467): no site is PRIMING or RUNNING, and every partition votes or SLEEP_REQ acts. -/
def sleepDue (s : State) : Bool := awake s && s.pwr.stage == .run && !anyBusy s && (allVoted s || sreqActs s)

/-- The time bases are recorded (R49), in 2^-32 ns. -/
def recordBases (s : State) : State :=
  { s with tim := { s.tim with sleepRec := (List.range 5).map fun b => (b, tbNow s b) } }

/-- Pending and running calibrations abort at sleep entry (R361, R468); a class that is accepted keeps its own place until its record is written. -/
def calSleep (s : State) : State :=
  let s := calAbortAll s
  let keep := s.cal.runs.map fun r => (r.bank, r.cls)
  setCal { s.cal with reqs := (s.cal.reqs.map fun q => q.filter fun x => keep.contains x).filter fun q => !q.isEmpty } s

/-- The device time base has reached `PWR_WAKE_TIME`. -/
def wakeTimeReached (s : State) : Bool :=
  let sec := rd s .pwrDev F.PWR_WAKE_TIME_SEC_HI * 2 ^ 32 + rd s .pwrDev F.PWR_WAKE_TIME_SEC_LO
  decide ((sec * 1000000000 + rd s .pwrDev F.PWR_WAKE_TIME_NS) * 2 ^ 32 ≤ tbNow s 0)

/-- The steps of sleep entry up to self-refresh (R468): calibrations abort, caravans are withdrawn, a pending speed change is carried out, the time bases are recorded, and
self-refresh entry begins. -/
def sleepSteps (s : State) : State :=
  let s := forS (definedSites s) (fun i s => withdrawSite i true s) (calSleep s)
  let s := if rdb s .memDev F.MEM_SPEED_PENDING then raiseInt (speedSwitch s) .memDev 10 else s
  entryDecision true (recordBases s)

/-- SLEEP_DECISION (R467, R468, R474): the steps of entry follow, unless a flash operation is in progress. A timed wake whose time has come is present at the decision
(R469). While sites still run under SLEEP_REQ, they stop first. -/
def sleepDecision (s : State) : State :=
  let s := sleepHalts s
  if sleepDue s then
    let present := if rdb s .pwrDev F.PWR_SLEEP_CTRL_TIMER_EN && wakeTimeReached s then [3] else []
    let s := wr { s with pwr := { s.pwr with wakes := present, aborts := 0 } } .pwrDev F.PWR_STAT_STATE 1
    if s.boot.busy then s else sleepSteps s
  else s

/-- SLEEP_DECISION (R467). -/
def execSleepDecision (s : State) : Host.Outcome State Fault Refusal := .next (sleepDecision s)

/-- An interrupt of Table 18-9 in the device page and in every partition page. -/
def pwrInt (b : Nat) (s : State) : State := forS (List.range 4) (fun n s => raiseInt s (.pwrPart n) b) (raiseInt s .pwrDev b)

/-- The device wakes: the lowest code of the sources is recorded (R469, Table 18-7). -/
def startWake (l : List Nat) (s : State) : State :=
  let s := { s with pwr := { s.pwr with wakes := [] } }
  evlog (wrs s .pwrDev [(F.PWR_STAT_STATE, 3), (F.PWR_LAST_WAKE_SRC, l.foldl min 4)]) 8 14 0 0 1

/-- The domains turn off: all but PD22, which goes into retention (R468, Table 18-3). -/
def sleepOff (s : State) : State :=
  let s := { s with pwr := { s.pwr with sleepDom := rd s .pwrDev F.PWR_DOM_ON } }
  forS ((List.range 30).filter fun d => d != 22 && domOn s d) domOff s

/-- SLEEP_ENTRY_DONE (R468): not before the flash operation in progress and every aborted calibration are complete (R474), after which the steps of
entry begin where they waited for it; a speed change that had entered self-refresh by then ends first. An aborted self-refresh entry is repeated once;
a second abort cancels the sleep. -/
def sleepEntryDone (s : State) : State :=
  if rd s .pwrDev F.PWR_STAT_STATE ≠ 1 || s.boot.busy then s
  else if s.memc.sr ≠ 0 && !s.memc.srSleep then s
  else if s.memc.sr = 0 && !s.memc.srAborted then sleepSteps s
  else if s.cal.runs.any fun r => !r.accepted then s
  else if s.memc.sr = 1 then
    let s := sleepOff (entryCommand s)
    let s := evlog (incSat (wr s .pwrDev F.PWR_STAT_STATE 2) .pwrDev F.SLEEPS) 8 14 0 0 0
    if s.pwr.wakes.isEmpty || sreqActs s then s else startWake s.pwr.wakes s
  else if s.pwr.aborts = 0 then entryDecision true { s with pwr := { s.pwr with aborts := 1 } }
  else
    let s := { s with pwr := { s.pwr with aborts := 0, wakes := [] }, memc := { s.memc with srAborted := false } }
    flashStart (pwrInt 8 (incSat (wr s .pwrDev F.PWR_STAT_STATE 0) .pwrDev F.SLEEP_ABORTS))

/-- SLEEP_ENTRY_DONE (R468). -/
def execSleepEntryDone (s : State) : Host.Outcome State Fault Refusal := .next (sleepEntryDone s)

/-! ### Wake (R469, R470) -/

/-- A wake source fires (R469): during entry, and while SLEEP_REQ holds the device asleep, it waits; in sleep it starts wake; during wake it is merged. -/
def wakeSource (k : Nat) (s : State) : State :=
  let st := rd s .pwrDev F.PWR_STAT_STATE
  let wait (s : State) : State := { s with pwr := { s.pwr with wakes := s.pwr.wakes ++ [k] } }
  if st = 1 then wait s
  else if st = 2 then if sreqActs s then wait s else startWake (k :: s.pwr.wakes) s
  else s

/-- WAKE (Table 18-6): a rising edge on WAKE, high for at least 100 ns. -/
def execWake (s : State) : Host.Outcome State Fault Refusal := .next (whenS (rdb s .pwrDev F.PWR_SLEEP_CTRL_WAKE_EN) (wakeSource 1) s)

/-- L1_EXIT_REQUEST (Table 18-6). -/
def execL1ExitRequest (n : Nat) (s : State) : Host.Outcome State Fault Refusal :=
  .next (whenS (rdb s .pwrDev F.PWR_SLEEP_CTRL_PCIE_EN && portExists s n) (wakeSource 2) s)

/-- WAKE_TIME (Table 18-6). -/
def execWakeTime (s : State) : Host.Outcome State Fault Refusal :=
  .next (whenS (rdb s .pwrDev F.PWR_SLEEP_CTRL_TIMER_EN && wakeTimeReached s) (wakeSource 3) s)

/-- SLEEP_REQ_FALL (R469, Table 18-6). -/
def execSleepReqFall (s : State) : Host.Outcome State Fault Refusal :=
  .next (
    let s := { s with pwr := { s.pwr with sreq := false } }
    whenS (rdb s .pwrDev F.PWR_SLEEP_CTRL_SREQ_EN) (wakeSource 4) s)

/-- The value of a partition time base on wake (R49): the recorded one plus the elapsed device time scaled by the INCREMENTs, rounded down to 2^-32 ns (DESIGN
CHOICE, log 91). -/
def wakeValue (s : State) (b : Nat) : Nat :=
  let old (k : Nat) : Nat := tabGet 0 s.tim.sleepRec k
  (old b + (tbNow s 0 - old 0) * tbInc s b / max 1 (tbInc s 0)) % timeEnd

/-- A partition time base is set on wake (R49). The pulse points that it passed in sleep are jumped over, as by a step of R60 (DESIGN CHOICE, log 91). -/
def wakeBase (b : Nat) (s : State) : State := reschedule (tbSet s b (wakeValue s b)) b (tabGet 0 s.tim.sleepRec b) (wakeValue s b)

/-- REF after wake (R49): REF_RETURN if the selected source is qualified, else holdover by R39, which the device never enters with the crystal selected
(R40). Whether a source found unqualified at wake counts as lost for R37 is not said: the model keeps what stood before sleep, and so follows a source that was not
lost as soon as it is qualified (DESIGN CHOICE, log 91). -/
def wakeRef (m : HoldMeas) (s : State) : State :=
  if rdb s .timDev (srcOk (rd s .timDev F.TIM_REF_CTRL_SEL)) then raiseInt s .timDev 2
  else if rd s .timDev F.TIM_REF_CTRL_SEL = 2 then s
  else enterHoldover s m

/-- WAKE_DONE (R470, Table 18-7), with what the reference measured. -/
def wakeDone (m : HoldMeas) (s : State) : State :=
  if rd s .pwrDev F.PWR_STAT_STATE ≠ 3 then s
  else
    let up := (List.range 30).filter fun d => s.pwr.sleepDom.testBit d && !domOn s d
    let s := selfRefreshExit (forS up domUp s)
    let s := reschedule (wakeRef m (forS [1, 2, 3, 4] wakeBase s)) 0 (tabGet 0 s.tim.sleepRec 0) (tbNow s 0)
    let s := { s with pwr := { s.pwr with sleepDom := 0 } }
    flashStart (pwrInt 9 (wr s .pwrDev F.PWR_STAT_STATE 0))

/-- WAKE_DONE (R470). -/
def execWakeDone (meas : HoldMeas) (s : State) : Host.Outcome State Fault Refusal := .next (wakeDone meas s)

end Sys2Proof.Machine
end

