-- ==== Sys2Proof/Machine/Boot.lean ====
section
/-! DEFINITION. Boot from flash, firmware update and recovery (chapter 19), and the erasures of RETURN (R491). -/

namespace Sys2Proof.Machine

open Sys2Proof

/-! ### The checks of a slot (Tables 19-3 to 19-6) -/

/-- The key hash that the fuses hold at an index (Table 20-1). -/
def fuseHash (s : State) (key : Nat) : Nat := (List.range 12).foldl (fun v w => v + fuseWord s (5 + key) w * 2 ^ (32 * w)) 0

/-- Two parts of a slot overlap. -/
def partsOverlap (a b : PartEntry) : Bool := decide (a.offset < b.offset + b.length) && decide (b.offset < a.offset + a.length)

/-- The part entries are those of Table 19-4: each type of 1 to 8 once, aligned, within the slot, none over another. -/
def partTableOk (l : List PartEntry) : Bool :=
  ((List.range 8).all fun t => ((l.filter fun e => e.ty == t + 1).length == 1)) && l.length == 8 &&
  (l.all fun e => e.offset % 4096 == 0 && decide (4096 ≤ e.offset) && decide (1 ≤ e.length) && decide (e.offset + e.length ≤ 12 * 2 ^ 20)) &&
  (l.zipIdx.all fun x => l.zipIdx.all fun y => x.2 == y.2 || !partsOverlap x.1 y.1)

/-- The content check of a part (Table 19-5). -/
def contentOk (x : SlotImage) (e : PartEntry) : Bool :=
  match e.ty with
  | 2 => e.length == 16384
  | 5 => decide (x.domains < 2 ^ 30)
  | 6 => x.bifur != 3
  | _ => true

/-- A little-endian number of n bytes at an offset (R476). -/
def fileNum (l : List Nat) (off n : Nat) : Nat := (List.range n).foldl (fun v k => v + l.getD (off + k) 0 % 256 * 2 ^ (8 * k)) 0

/-- The part entry i of a manifest (Table 19-4). -/
def partEntry (x : SlotBytes) (i : Nat) : PartEntry :=
  let a := 160 + 80 * i
  let ty := fileNum x.manifest a 2
  ⟨ty, fileNum x.manifest (a + 4) 4, fileNum x.manifest (a + 8) 4, fileNum x.manifest (a + 12) 4, !x.unread.contains ty, !x.digestBad.contains ty⟩

/-- The reserved bytes of a manifest and of its part entries are zero (Tables 19-3, 19-4). -/
def reservedZero (l : List Nat) : Bool :=
  fileNum l 7 1 == 0 && fileNum l 16 48 == 0 &&
  (List.range 8).all fun i => fileNum l (162 + 80 * i) 2 == 0 && fileNum l (176 + 80 * i) 16 == 0

/-- A slot from its bytes (Tables 19-3 to 19-5). -/
def slotImage (x : SlotBytes) : SlotImage :=
  let l := x.manifest
  { readable := x.readable, magic := fileNum l 0 4, format := fileNum l 4 1, nparts := fileNum l 5 1, reservedZero := reservedZero l, key := fileNum l 6 1,
    keyHash := fileNum (sha384 ((List.range 96).map fun k => fileNum l (64 + k) 1)) 0 48, sigOk := x.sigOk, svn := fileNum l 12 4, version := fileNum l 8 4,
    parts := (List.range 8).map (partEntry x), bifur := fileNum x.pcie 0 1 % 4, subsys := fileNum x.pcie 4 4, domains := x.domains, txLat := x.txLat, rxLat := x.rxLat,
    links := x.links }

/-- The first check of the manifest that a slot fails (R477, Table 19-6). -/
def manifestFault (s : State) (usable : Bool) (x : SlotImage) : Option Nat :=
  if !usable || !x.readable then some 1
  else if x.magic ≠ 0x4D444C4E then some 2
  else if x.format ≠ 1 || x.nparts ≠ 8 || !x.reservedZero then some 3
  else if 4 ≤ x.key || x.keyHash ≠ fuseHash s x.key || (fuseWord s 9 0).testBit x.key then some 4
  else if !x.sigOk then some 5
  else if x.svn < svnMin s then some 6
  else if !partTableOk x.parts then some 7
  else none

/-- The first check that some of the parts fail, in the order of Table 19-6: the reads, the digests, the contents. -/
def partsFault (x : SlotImage) (l : List PartEntry) : Option (Nat × Nat) :=
  match l.find? fun e => !e.readOk with
  | some e => some (1, e.ty)
  | none =>
    match l.find? fun e => !e.digestOk with
    | some e => some (8, e.ty)
    | none => (l.find? fun e => !contentOk x e).map fun e => (9, e.ty)

/-- What a slot fails, if anything: the reason, the part type or 0, and whether the PCIe PHY settings had been applied by then (R478, R480). -/
def slotFault (s : State) (usable : Bool) (x : SlotImage) : Option (Nat × Nat × Bool) :=
  match manifestFault s usable x with
  | some r => some (r, 0, false)
  | none =>
    match partsFault x (x.parts.filter fun e => e.ty == 6) with
    | some (r, p) => some (r, p, false)
    | none => (partsFault x (x.parts.filter fun e => e.ty != 6)).map fun y => (y.1, y.2, true)

/-- The candidates in order, each with whether it is a trial boot (R479; R475 where the directory was not valid). -/
def bootCandidates (d : Directory) (valid : Bool) : List (Nat × Bool) :=
  let ok (st : Nat) : Bool := st == 3 || (!valid && st == 1)
  (([0, 1].filter fun k => slotState d k == 2).map fun k => (k, true)) ++
  (([d.pref % 2, 1 - d.pref % 2].filter fun k => ok (slotState d k)).map fun k => (k, false))

/-! ### The ROM (R478–R481, R484) -/

/-- A FIRMWARE entry of the event log (Table 19-8). -/
def fwLog (event slot reason : Nat) (s : State) : State := evlog s 11 15 0 0 (event + slot * 16 + reason * 256)

/-- The ROM fails a slot (R479): its state and reason in the directory, `BOOT_LAST`, FALLBACK and the log. -/
def failSlot (store : Bool) (slot reason part : Nat) (s : State) : State :=
  let d := setReason (setSlot s.boot.dir slot 4) slot reason
  let s := { s with boot := { s.boot with dir := d, tried := s.boot.tried ++ [slot] } }
  let s := if store then storeDir d s else s
  let s := wrs (incSat s .boot F.FALLBACKS) .boot [(F.BOOT_LAST_REASON, reason), (F.BOOT_LAST_SLOT, slot), (F.BOOT_LAST_PART, part), (F.BOOT_STAT_FALLBACK, 1)]
  fwLog 2 slot reason (raiseInt (fltEvent s .boot 2) .boot 2)

/-- Boot begins again as after RST_N (R480, R481): the candidates that failed in this boot stay known. -/
def bootAgain (s : State) : State :=
  let tried := s.boot.tried
  let n := rd s .boot F.FALLBACKS
  let t := restart s
  wr { t with boot := { t.boot with tried := tried } } .boot F.FALLBACKS n

/-- Recovery mode is entered (R484): only PD22, PD26 and PD28 are on. -/
def enterRecovery (cause : Nat) (s : State) : State :=
  let s := wr (setStage .recovery s) .pwrDev F.PWR_DOM_ON (2 ^ 22 + 2 ^ 26 + 2 ^ 28)
  fwLog 7 0 0 (wr s .recov F.REC_STAT_CAUSE cause)

/-- The domains that are on at hand-over: those of the power sequence table and those that are always on (Tables 18-2 and 18-3). -/
def bootDomains (s : State) (x : SlotImage) : List Nat :=
  let st := rd s .lcs F.LCS_STATE_STATE
  (List.range 30).filter fun d => x.domains.testBit d || d == 21 || d == 22 || d == 26 || (d == 29 && (st == 0 || st == 3))

/-- Firmware applies hard post-package repair to the listed rows that are not repaired yet, each where the stack has a spare row for it (R396). The frames stay
retired. -/
def repairRows (s : State) : State :=
  let rows := (retired s).filter fun e => bits e 31 28 == 2
  let fix (l : List Nat) (e : Nat) : List Nat := if !l.contains e && Config.spareRow l e then l ++ [e] else l
  { s with memc := { s.memc with repaired := rows.foldl fix s.memc.repaired } }

/-- What the device keeps of the slot that boots: its domains, its key, its part versions and the time of the hand-over. -/
def bootFacts (l : List Nat) (key : Nat) (vers : List Nat) (s : State) : State :=
  { s with pwr := { s.pwr with manifest := l.foldl setBit 0 }, boot := { s.boot with key := key, partVers := vers, handover := aonNow s } }

/-- The ROM applies the PCIe PHY settings of a slot and releases the ports, which train while it checks the other parts (R398, R480). -/
def portsRelease (x : SlotImage) (s : State) : State :=
  let s := wr { s with boot := { s.boot with subsys := some x.subsys } } .hifDev F.HIF_DEV_STAT_BIFUR x.bifur
  forS (x.links.filter fun l => portExists s l.port) (fun l s => linkUp l.port l.speed l.width s) s

/-- The time-link PHY settings of the booted slot reach the lanes (R87, Table 19-5); they are the reset values of the lanes' registers. -/
def linkSettings (x : SlotImage) (s : State) : State :=
  forS (List.range 3) (fun l s => wrs s (.tlkLane l) [(F.TLK_L_TX_LAT, x.txLat.getD l 0), (F.TLK_L_RX_LAT, x.rxLat.getD l 0)])
    { s with boot := { s.boot with txLat := x.txLat, rxLat := x.rxLat } }

/-- The ROM hands over to the firmware of a slot, whose ports have been released (R461, R481). -/
def handOver (slot : Nat) (trial : Bool) (x : SlotImage) (s : State) : State :=
  let l := bootDomains s x
  let vers := (List.range 8).map fun t => ((x.parts.find? fun e => e.ty == t + 1).map fun e => e.version).getD 0
  let s := wrs s .boot [(F.BOOT_STAT_SLOT, slot), (F.BOOT_STAT_TRIAL, b2n trial), (F.BOOT_STAT_FALLBACK, b2n (!s.boot.tried.isEmpty)),
    (F.BOOT_VER_ACT, x.version), (F.BOOT_SVN_ACT, x.svn)]
  let s := linkSettings x s
  let sh := bifurShares x.bifur
  let s := takeShares sh (wrs s .disDev [(F.DIS_SHARE_0, sh.getD 0 0), (F.DIS_SHARE_1, sh.getD 1 0), (F.DIS_SHARE_2, sh.getD 2 0), (F.DIS_SHARE_3, sh.getD 3 0)])
  let s := forS (allPages.filter enImpl) (fun p s => wrb s p F.BLK_CTRL_EN (l.contains (pageDom p))) s
  let s := bootFacts l x.key vers s
  let s := forS l domUp (forS (List.range 4) csLost (wr (setStage .run s) .pwrDev F.PWR_DOM_ON 0))
  fwLog 1 slot 0 (calRestore (repairRows s))

/-- The candidates are tried in turn (R479). One that fails after its ports were released restarts boot, in which every port drops its link (R480). -/
def tryBoot (f : FlashFacts) : List (Nat × Bool) → State → State
  | [], s => enterRecovery 0 s
  | (slot, trial) :: rest, s =>
    let x := slotImage (if slot = 0 then f.slotA else f.slotB)
    match slotFault s f.usable x with
    | none => handOver slot trial x (portsRelease x s)
    | some (reason, part, late) => tryBoot f rest (failSlot f.usable slot reason part (if late then bootAgain (portsRelease x s) else s))

/-- What the ROM reports of the flash: its ID and size, and the VERSION in each slot's manifest, 0 if EMPTY (Table 19-10). -/
def flashFound (f : FlashFacts) (s : State) : State :=
  let ver (k : Nat) (x : SlotBytes) : Nat := if slotState s.boot.dir k = 0 || !x.readable then 0 else fileNum x.manifest 8 4
  wrs s .boot [(F.BOOT_FLASH_ID, f.ident), (F.BOOT_FLASH_SIZE, f.sizeMib), (F.BOOT_VER_A, ver 0 f.slotA), (F.BOOT_VER_B, ver 1 f.slotB)]

/-- ROM_BOOT (R472–R480, R484), with the flash as the ROM finds it. A flash smaller than 64 MiB cannot be booted from. -/
def romBoot (f : FlashFacts) (s : State) : State :=
  if s.pwr.stage ≠ .rom then s
  else
    let f := { f with usable := f.usable && decide (64 ≤ f.sizeMib) }
    let found := if f.usable then (newestDir s).map (·.2) else none
    let d := found.getD noDirectory
    let s := { s with boot := { s.boot with dir := d } }
    flashFound f (if d.recover then enterRecovery 1 s else tryBoot f (bootCandidates d found.isSome) s)

/-- ROM_BOOT (R479). -/
def execRomBoot (facts : FlashFacts) (s : State) : Host.Outcome State Fault Refusal := .next (romBoot facts s)

/-- The slot that was booted. -/
def bootSlot (s : State) : Nat := rd s .boot F.BOOT_STAT_SLOT

/-- Firmware runs. -/
def fwRuns (s : State) : Bool := s.pwr.stage == .run

/-- BOOT_READY (R475, R481): not before the erasures of RETURN are done (R491); a trial boot is confirmed; the directory is written once. -/
def bootReady (s : State) : State :=
  if !fwRuns s || rdb s .boot F.BOOT_STAT_READY || erasePend s then s
  else
    let trial := rdb s .boot F.BOOT_STAT_TRIAL
    let d := s.boot.dir
    let d := { d with boots := min (d.boots + 1) (2 ^ 32 - 1) }
    let d := if trial then { setSlot d (bootSlot s) 3 with pref := bootSlot s } else d
    let s := wrb s .boot F.BOOT_STAT_READY true
    writeDir d (if trial then fwLog 3 (bootSlot s) 0 s else s)

/-- BOOT_READY (R481). -/
def execBootReady (s : State) : Host.Outcome State Fault Refusal := .next (bootReady s)

/-- A trial boot is over without READY (R481): 5 s after hand-over, or FW_WDOG is severe. -/
def confirmOver (s : State) : Bool :=
  fwRuns s && rdb s .boot F.BOOT_STAT_TRIAL && !rdb s .boot F.BOOT_STAT_READY &&
  (decide (s.boot.handover + 500000000 ≤ aonNow s) || (rd s .mgtDev F.FLT_SEVERE).testBit 3)

/-- CONFIRM_TIMEOUT (R481): the ROM restarts boot and fails the slot with NO_CONFIRM. -/
def execConfirmTimeout (s : State) : Host.Outcome State Fault Refusal :=
  .next (if confirmOver s then failSlot true (bootSlot s) 0xA 0 (bootAgain s) else s)

/-! ### The erasures of RETURN (R491) -/

/-- An erasure of the present cycle is selected: 0 KEYS, 1 PATTERN, 2 CAL (Table 20-1). -/
def eraseSelected (s : State) (k : Nat) : Bool := (fuseWord s 1 0).testBit (4 * lcCycles s - 4 + k)

/-- Bits of a fuse word are blown (R487). -/
def blow (row word v : Nat) (s : State) : State :=
  { s with lcs := { s.lcs with fuses := tabPut 0 s.lcs.fuses (row * 32 + word) (fuseWord s row word ||| v) } }

/-- RETURN_ERASURE_DONE (R491): patterns are zero and unpoisoned, in regions 0 to 31, 34 and 35, with the page map and the spare pool kept; the records of TDC_LIN, EDGE and DESKEW are gone; ERASED is blown. What KEYS
voids follows from its fuse bit. -/
def returnErased (s : State) : State :=
  if !fwRuns s || !erasePend s then s
  else
    let s := if eraseSelected s 1 then
        { s with
          mem := tabDrop (tabDrop s.mem 0 (2 ^ 37 + 2 ^ 35)) (2 ^ 37 + 2 ^ 35 + 2 ^ 31) (2 ^ 39)
          memc := { s.memc with map := s.memc.map.filterMap fun e =>
            if e.1 / 2 ^ 20 = 32 ∨ e.1 / 2 ^ 20 = 33 then some e else if e.2.remapped then some (e.1, { e.2 with poison := 0 }) else none } }
      else s
    let s := if eraseSelected s 2 then { s with cal := { s.cal with recs := s.cal.recs.filter fun r => decide (4 * 1024 ≤ r.1) } } else s
    wr (blow 1 0 (2 ^ (4 * lcCycles s - 1)) s) .lcs F.LCS_STATE_ERASE_PEND 0

/-- RETURN_ERASURE_DONE (R491). -/
def execReturnErasureDone (s : State) : Host.Outcome State Fault Refusal := .next (returnErased s)

/-! ### Firmware update (R482, R483) -/

/-- The slot that was not booted. -/
def otherSlot (s : State) : Nat := 1 - bootSlot s

/-- `BOOT_VER_A` or `BOOT_VER_B`. -/
def slotVer (slot : Nat) : Fld := if slot = 0 then F.BOOT_VER_A else F.BOOT_VER_B

/-- The result of an update command. -/
def updResult (r : Nat) (s : State) : State := wr s .boot F.BOOT_UPD_STAT_RESULT r

/-- The source address of an update. -/
def updSrc (s : State) : Nat := rd s .boot F.BOOT_UPD_SRC_HI * 2 ^ 32 + rd s .boot F.BOOT_UPD_SRC_LO * 4096

/-- `BOOT_UPD_CMD.WRITE` (R482): the inactive slot becomes EMPTY, and the image write is requested. -/
def updWrite (s : State) : State :=
  let n := rd s .boot F.BOOT_UPD_LEN
  if n = 0 || 12 * 2 ^ 20 < n || s.boot.srcLow ≠ 0 then updResult 2 s
  else if !inQuota s 0 (updSrc s) n then updResult 3 s
  else
    let k := otherSlot s
    let s := wrs (updResult 0 s) .boot [(F.BOOT_UPD_STAT_BUSY, 1), (slotVer k, 0)]
    flashPush .image (writeDir (setSlot s.boot.dir k 0) s)

/-- `BOOT_UPD_CMD.PEND` (R482). -/
def updPend (s : State) : State :=
  let k := otherSlot s
  if slotState s.boot.dir k = 1 then fwLog 5 k 0 (writeDir (setSlot s.boot.dir k 2) (updResult 0 s)) else updResult 5 s

/-- `BOOT_UPD_CMD.UNPEND` (R482). -/
def updUnpend (s : State) : State :=
  match [0, 1].find? fun k => slotState s.boot.dir k == 2 with
  | some k => fwLog 6 k 0 (writeDir (setSlot s.boot.dir k 1) (updResult 0 s))
  | none => updResult 5 s

/-- `BOOT_UPD_CMD.RECOVER` (R484). -/
def updRecover (s : State) : State := writeDir { s.boot.dir with recover := true } (updResult 0 s)

/-- A write of `BOOT_UPD_CMD` (R482, Table 19-7): BUSY while a WRITE runs, BAD_ARG with more than one command bit. -/
def updCmd (word : Nat) (s : State) : State :=
  let w := word % 16
  if w = 0 then s
  else if rdb s .boot F.BOOT_UPD_STAT_BUSY then updResult 1 s
  else match w with
  | 1 => updWrite s
  | 2 => updPend s
  | 4 => updUnpend s
  | 8 => updRecover s
  | _ => updResult 2 s

/-- A write of `BOOT_UPD_CMD` by a master. -/
def updAccess (m word : Nat) (s : State) : State := asWriter s m .boot F.BOOT_UPD_CMD_WRITE.off true fun s => whenS (fwRuns s) (updCmd word) s

/-- UPDATE_WRITE (R482). -/
def execUpdateWrite (m word : Nat) (s : State) : Host.Outcome State Fault Refusal := .next (takeIn m (writeReq m (pageBase .boot + 0x12C) (setBit word 0)) false (updAccess m (setBit word 0)) s)

/-- UPDATE_PEND (R482). -/
def execUpdatePend (m word : Nat) (s : State) : Host.Outcome State Fault Refusal := .next (takeIn m (writeReq m (pageBase .boot + 0x12C) (setBit word 1)) false (updAccess m (setBit word 1)) s)

/-- UPDATE_UNPEND (R482). -/
def execUpdateUnpend (m word : Nat) (s : State) : Host.Outcome State Fault Refusal := .next (takeIn m (writeReq m (pageBase .boot + 0x12C) (setBit word 2)) false (updAccess m (setBit word 2)) s)

/-- RECOVER_REQUEST (R484). -/
def execRecoverRequest (m word : Nat) (s : State) : Host.Outcome State Fault Refusal := .next (takeIn m (writeReq m (pageBase .boot + 0x12C) (setBit word 3)) false (updAccess m (setBit word 3)) s)

/-- UPD_DONE (R482, Table 19-7): `ok`, whether erase, program and compare succeed; `ue`, whether a block of the source is uncorrectable beside those that are
poisoned. -/
def updDone (ok ue : Bool) (s : State) : State :=
  if flashNow s != some .image then s
  else
    let n := rd s .boot F.BOOT_UPD_LEN
    let a := updSrc s
    let k := otherSlot s
    let bad := firstPoison s 0 a n
    let r := if ue || bad.isSome then 6 else if ok then 0 else 4
    let s := match bad with
      | some b => recordUeAt 3 0 b false s
      | none => if ue then recordUeAt 3 0 a false s else s
    let ver := readMem s 0 (a + 8) 4
    let s := wr (updResult r (countBytes 3 0 n s)) .boot F.BOOT_UPD_STAT_BUSY 0
    let s := if r = 0 then writeDir (setSlot s.boot.dir k 1) (wr s .boot (slotVer k) ver) else fltEvent s .boot 3
    raiseInt (fwLog 4 k r (flashEnd s)) .boot 8

/-- UPD_DONE (R482). -/
def execUpdDone (ok ue : Bool) (s : State) : Host.Outcome State Fault Refusal := .next (updDone ok ue s)

/-- FLASH_OPERATION_DONE (R474): the directory or the retirement list is written; an image or calibration records end by their own rows. -/
def flashOpDone (s : State) : State :=
  match flashNow s with
  | some (.directory d) => flashEnd (storeDir d s)
  | some (.retireList l) => flashEnd (storeList l s)
  | _ => s

/-- FLASH_OPERATION_DONE (R474). -/
def execFlashOperationDone (s : State) : Host.Outcome State Fault Refusal := .next (flashOpDone s)

/-! ### ROM recovery mode (R484, R485) -/

/-- The result of a recovery command (Table 19-9). -/
def recResult (r reason : Nat) (s : State) : State := wrs s .recov [(F.REC_STAT_BUSY, 0), (F.REC_STAT_RESULT, r), (F.REC_STAT_REASON, reason)]

/-- The directory changes in ROM recovery. -/
def recDir (d : Directory) (s : State) : State := storeDir d { s with boot := { s.boot with dir := d } }

/-- A write of `REC_CMD` (R485, Table 19-9): 1 ERASE, 2 WRITE, 3 VERIFY, 4 COMMIT; the running command is kept with its slot. Each slot keeps its own passing VERIFY, until it is
erased or written. -/
def recCmd (c : Nat) (s : State) : State :=
  let k := rd s .recov F.REC_SLOT
  let n := rd s .recov F.REC_LEN
  let go (s : State) : State := wrs { s with boot := { s.boot with recCmd := c + 8 * k } } .recov [(F.REC_STAT_BUSY, 1), (F.REC_STAT_RESULT, 0), (F.REC_STAT_REASON, 0)]
  let undo (s : State) : State := { s with boot := { s.boot with verified := s.boot.verified.filter fun x => x != k } }
  if s.pwr.stage ≠ .recovery then s
  else if rdb s .recov F.REC_STAT_BUSY then wr s .recov F.REC_STAT_RESULT 1
  else match c with
  | 1 => go (undo (recDir (setSlot s.boot.dir k 0) s))
  | 2 => if n = 0 || 32768 < n || 12 * 2 ^ 20 < rd s .recov F.REC_OFFSET * 4096 + n then recResult 2 0 s else go (undo s)
  | 3 => go s
  | 4 => if s.boot.verified.contains k then go s else recResult 5 0 s
  | _ => recResult 2 0 s

/-- REC_ERASE (R485). -/
def execRecErase (s : State) : Host.Outcome State Fault Refusal := .next (recCmd 1 s)

/-- REC_WRITE (R485). -/
def execRecWrite (s : State) : Host.Outcome State Fault Refusal := .next (recCmd 2 s)

/-- REC_VERIFY (R485). -/
def execRecVerify (s : State) : Host.Outcome State Fault Refusal := .next (recCmd 3 s)

/-- REC_COMMIT (R485). -/
def execRecCommit (s : State) : Host.Outcome State Fault Refusal := .next (recCmd 4 s)

/-- REC_COMMAND_DONE (R485): `ok`, whether the flash did what was asked; for VERIFY the slot as the ROM finds it. -/
def recDone (ok : Bool) (image : SlotBytes) (s : State) : State :=
  if s.pwr.stage ≠ .recovery || s.boot.recCmd = 0 then s
  else
    let c := s.boot.recCmd % 8
    let k := s.boot.recCmd / 8
    let s := { s with boot := { s.boot with recCmd := 0 } }
    match c with
    | 3 =>
      match slotFault s ok (slotImage image) with
      | some (r, _, _) => recResult 4 r s
      | none => recResult 0 0 { s with boot := { s.boot with verified := k :: s.boot.verified.filter fun x => x != k } }
    | 4 =>
      if !ok then recResult 3 0 s
      else restart (fwLog 8 k 0 (recDir { setSlot s.boot.dir k 2 with recover := false } s))
    | _ => recResult (if ok then 0 else 3) 0 s

/-- REC_COMMAND_DONE (R485). -/
def execRecCommandDone (ok : Bool) (image : SlotBytes) (s : State) : Host.Outcome State Fault Refusal := .next (recDone ok image s)

end Sys2Proof.Machine
end

