-- ==== Sys2Proof/Machine/LifeCycle.lean ====
section
/-! DEFINITION. Life cycle, spares, test access and perturbations (chapter 20). -/

namespace Sys2Proof.Machine

open Sys2Proof

/-! ### Fuses (R487, R488) -/

/-- Words of a fuse row (Table 20-1); a reserved row has none. -/
def fuseWords (row : Nat) : Nat :=
  if row < 2 || row = 9 || row = 11 then 1
  else if row < 5 || row = 10 then 2
  else if row < 9 then 12
  else if 12 ≤ row && row < 28 then 8
  else 0

/-- FUSE_SELECT (R488): the selected word is latched, a partition key as zero; a reserved row is refused with ROW. -/
def fuseSelect (word : Nat) (s : State) : State :=
  let row := bits word 15 8
  let w := bits word 4 0
  if 28 ≤ row then fltEvent (wr s .lcs F.LCS_FUSE_STAT_RESULT 3) .lcs 1
  else wrs s .lcs [(F.LCS_FUSE_SEL_WORD, w), (F.LCS_FUSE_SEL_ROW, row),
    (F.LCS_FUSE_RD, if (12 ≤ row && row < 28) || fuseWords row ≤ w then 0 else fuseWord s row w)]

/-- FUSE_SELECT (R488). -/
def execFuseSelect (m word : Nat) (s : State) : Host.Outcome State Fault Refusal := .next (takeIn m (writeReq m (pageBase .lcs + F.LCS_FUSE_SEL_WORD.off) word) false (fun s => asWriter s m .lcs F.LCS_FUSE_SEL_WORD.off true (fuseSelect word)) s)

/-- A row is programmable in the present life-cycle state (Table 20-1). -/
def fuseAllowed (s : State) (row : Nat) : Bool :=
  let st := lcState s
  if row < 6 then st == 0
  else if row < 9 then st == 0 || st == 1
  else if row < 11 then st != 4
  else if row = 11 then st == 1
  else st == 1 && (row - 12) / 4 == lcCycles s

/-- A key hash is programmed. -/
def keyProgrammed (s : State) (k : Nat) : Bool := fuseHash s k != 0

/-- The value of the SVN fuses with further bits blown in a word, as the minimum security version (R488). -/
def svnWith (s : State) (w data : Nat) : Nat :=
  let v := fuseRow s 10 ||| (data * 2 ^ (32 * w))
  if v = 0 then 0 else Nat.log2 v + 1

/-- A programming breaks a rule of R488: REVOKE of the last good key or of the booted key; SVN above the booted one. -/
def fuseRule (s : State) (row w data : Nat) : Bool :=
  if row = 9 then
    let r := fuseWord s 9 0 ||| data
    !((List.range 4).any fun k => keyProgrammed s k && !r.testBit k) || (fwRuns s && data.testBit s.boot.key)
  else row == 10 && decide (rd s .boot F.BOOT_SVN_ACT < svnWith s w data)

/-- A refused programming: its result, LCS_CFG, and FUSE_DONE (R488, R500). -/
def fuseRefuse (r : Nat) (s : State) : State := raiseInt (fltEvent (wr s .lcs F.LCS_FUSE_STAT_RESULT r) .lcs 1) .lcs 9

/-- A completed pair of `LCS_FUSE_CMD` (R488, Table 20-8). -/
def fuseProgram (v : Nat) (s : State) : State :=
  let row := rd s .lcs F.LCS_FUSE_SEL_ROW
  let w := rd s .lcs F.LCS_FUSE_SEL_WORD
  let data := rd s .lcs F.LCS_FUSE_DATA
  if !v.testBit 0 then s
  else if s.lcs.prog.isSome then fuseRefuse 1 s
  else if row < 2 || fuseWords row ≤ w then fuseRefuse 3 s
  else if !fuseAllowed s row then fuseRefuse 2 s
  else if fuseRule s row w data then fuseRefuse 4 s
  else wrs { s with lcs := { s.lcs with prog := some (row, w, data) } } .lcs [(F.LCS_FUSE_CMD_PROG, 1), (F.LCS_FUSE_STAT_BUSY, 1), (F.LCS_FUSE_STAT_RESULT, 0)]

/-- FUSE_PROGRAM (R488): the complement that completes the pair. -/
def execFuseProgram (m comp : Nat) (s : State) : Host.Outcome State Fault Refusal := .next (takeIn m (writeReq m (pageBase .lcs + F.LCS_FUSE_CMD_PROG.off + 0x800) comp) false (pairComplete m .lcs F.LCS_FUSE_CMD_PROG.off comp fuseProgram) s)

/-- What follows from the fuses at once: the serial number, the minimum security version and the privileged master (R488). -/
def fuseDerived (s : State) : State :=
  let s := wr (wr s .boot F.BOOT_SVN_MIN (svnMin s)) .lcs F.LCS_SERIAL (fuseRow s 2)
  wrb s .hifDev F.HIF_DEV_STAT_PRIV ((fuseWord s 11 0).testBit (lcCycles s))

/-- All wanted bits of a fuse word are blown with these bits blown now. -/
def blownAll (s : State) (row w want blown : Nat) : Bool := want &&& (fuseWord s row w ||| blown) == want

/-- FUSE_DONE (R488): `blown` are the bits that the pulses blew; one that fails to verify raises FUSE_ERR. -/
def fuseDone (blown : Nat) (s : State) : State :=
  match s.lcs.prog with
  | none => s
  | some (row, w, data) =>
    let ok := blownAll s row w data blown
    let s := blow row w (data &&& blown) { s with lcs := { s.lcs with prog := none } }
    let s := fuseDerived (wrs s .lcs [(F.LCS_FUSE_CMD_PROG, 0), (F.LCS_FUSE_STAT_BUSY, 0), (F.LCS_FUSE_STAT_RESULT, if ok then 0 else 5)])
    raiseInt (if ok then s else raiseInt (fltEvent s .lcs 2) .lcs 2) .lcs 9

/-- FUSE_DONE (R488). -/
def execFuseDone (blown : Nat) (s : State) : Host.Outcome State Fault Refusal := .next (fuseDone blown s)

/-! ### Life-cycle transitions (R489, R490) -/

/-- Every bank has a valid FACTORY record (R348). -/
def factoryWhole (s : State) : Bool := (List.range 16).all fun b => calSlots.all fun k => (newestRec s 4 b k).isSome

/-- The result of a requested transition (Table 20-3): 0 where it is accepted. -/
def transCheck (s : State) (m target : Nat) : Nat :=
  let from_ := lcState s
  let maker := m == 4 || m == 5
  let busy := if anyBusy s then 3 else 0
  if target = 4 && from_ ≠ 4 then busy
  else if from_ = 0 && target = 1 && maker then (if keyProgrammed s 0 && factoryWhole s then busy else 4)
  else if from_ = 1 && target = 2 && (m = 0 || m = 4) then busy
  else if from_ = 2 && target = 3 && (m = 0 || m = 4) then (if lcCycles s < 3 then busy else 2)
  else if from_ = 3 && target = 1 && maker then (if erasePend s then 5 else busy)
  else 1

/-- A completed pair of `LCS_TRANS` (R490). -/
def transRequest (m v : Nat) (s : State) : State :=
  let target := bits v 2 0
  let r := if s.lcs.trans.isSome then 7 else transCheck s m target
  if r ≠ 0 then fltEvent (wr s .lcs F.LCS_TRANS_STAT_RESULT r) .lcs 1
  else
    wrs { s with lcs := { s.lcs with trans := some (target, bits v 10 8) } } .lcs
      [(F.LCS_TRANS_TARGET, target), (F.LCS_TRANS_ERASE, bits v 10 8), (F.LCS_TRANS_STAT_BUSY, 1), (F.LCS_TRANS_STAT_RESULT, 0)]

/-- LIFE_CYCLE_TRANSITION (R490): the complement that completes the pair. -/
def execLifeCycleTransition (m comp : Nat) (s : State) : Host.Outcome State Fault Refusal :=
  .next (takeIn m (writeReq m (pageBase .lcs + F.LCS_TRANS_TARGET.off + 0x800) comp) false (pairComplete m .lcs F.LCS_TRANS_TARGET.off comp (transRequest m)) s)

/-- The bits of rows 0 and 1 that a transition blows (Table 20-3). -/
def transBits (s : State) (t : Nat × Nat) : Nat × Nat :=
  if t.1 = 4 then (2 ^ 15, 0) else (2 ^ lcCount s, if t.1 = 3 then t.2 * 2 ^ (4 * lcCycles s) else 0)

/-- DETAIL of the entry of a transition: Table 19-8 gives no code for it, but its reserved bits are zero and its [3:0] one of the codes 1 to 8; the rest is a free value (log
3). -/
def transDetail (v : Nat) : Nat := v % 8 + 1 + v / 8 % 2 * 16 + v / 16 % 16 * 256

/-- TRANS_DONE (R490): `lc` and `erase` are the bits of rows 0 and 1 that the pulses blew. With all of them blown the log takes a FIRMWARE entry, TRANS_DONE is raised and the device restarts; otherwise the result is FUSE. -/
def transDone (lc erase : Nat) (s : State) : State :=
  match s.lcs.trans with
  | none => s
  | some t =>
    let want := transBits s t
    let ok := blownAll s 0 0 want.1 lc && blownAll s 1 0 want.2 erase
    let s := blow 1 0 (want.2 &&& erase) (blow 0 0 (want.1 &&& lc) { s with lcs := { s.lcs with trans := none } })
    let s := wr s .lcs F.LCS_TRANS_STAT_BUSY 0
    if ok then restart (raiseInt (freeStep (evlog s 11 15 0 0 (transDetail (freeNow s)))) .lcs 8)
    else raiseInt (fltEvent (wr s .lcs F.LCS_TRANS_STAT_RESULT 6) .lcs 2) .lcs 2

/-- TRANS_DONE (R490). -/
def execTransDone (lc erase : Nat) (s : State) : Host.Outcome State Fault Refusal := .next (transDone lc erase s)

/-! ### Attestation (R491, R493) -/

/-- A write of `LCS_ATTEST` (R493): GO requests a tag. -/
def attestWrite (word : Nat) (s : State) : State :=
  let s := wr s .lcs F.LCS_ATTEST_PART (bits word 1 0)
  if word.testBit 8 then wr s .lcs F.LCS_ATTEST_GO 1 else s

/-- ATTEST (R493). -/
def execAttest (m word : Nat) (s : State) : Host.Outcome State Fault Refusal := .next (takeIn m (writeReq m (pageBase .lcs + F.LCS_ATTEST_PART.off) (setBit word 8)) false (fun s => asWriter s m .lcs F.LCS_ATTEST_PART.off true (attestWrite (setBit word 8))) s)

/-- The key of generation h is void (R491): KEYS was selected in a later cycle. -/
def keyVoid (s : State) (h : Nat) : Bool := (List.range (lcCycles s + 1)).any fun c => decide (h < c) && (fuseWord s 1 0).testBit (4 * c - 4)

/-- The words of the partition key of partition n and generation h (Table 20-1). -/
def partKey (s : State) (n h : Nat) : List Nat := (List.range 8).map (fuseWord s (12 + 4 * h + n))

/-- The newest generation with a programmed key that is not void (R493). -/
def keyGen (s : State) (n : Nat) : Option Nat :=
  (List.range (lcCycles s + 1)).reverse.find? fun h => (partKey s n h).any (· != 0) && !keyVoid s h

/-- The bytes of a word of n bytes, the least significant first (R7). -/
def wordBytes (n v : Nat) : List Nat := (List.range n).map fun k => v / 2 ^ (8 * k) % 256

/-- `LCS_STATE` as one word. -/
def lcsStateWord (s : State) : Nat :=
  rd s .lcs F.LCS_STATE_STATE + 2 ^ 4 * rd s .lcs F.LCS_STATE_CYCLES + 2 ^ 8 * rd s .lcs F.LCS_STATE_ERASE_PEND

/-- The bytes that the tag is computed over (R493): challenge, serial number, `LCS_STATE`, `BOOT_VER_ACT`. -/
def attestMsg (s : State) : List Nat :=
  ((List.range 8).flatMap fun k => wordBytes 4 (rd s .lcs (F.LCS_ATTEST_CHAL k))) ++ wordBytes 8 (rd s .lcs F.LCS_SERIAL) ++ wordBytes 4 (lcsStateWord s) ++
    wordBytes 4 (rd s .boot F.BOOT_VER_ACT)

/-- The tag under the key of generation h of partition n, as the number whose words `LCS_ATTEST_TAG` holds (R493). -/
def attestTag (s : State) (n h : Nat) : Nat := fileNum (hmac384 ((partKey s n h).flatMap (wordBytes 4)) (attestMsg s)) 0 48

/-- ATTEST_DONE (R493): the tag is HMAC-SHA-384; the order of the bytes of key, message and tag within words is little-endian (R7, log 4). Without a key it is zero with NOKEY set. -/
def attestDone (s : State) : State :=
  if !rdb s .lcs F.LCS_ATTEST_GO || !fwRuns s then s
  else
    let n := rd s .lcs F.LCS_ATTEST_PART
    let tag := match keyGen s n with
      | some h => attestTag s n h
      | none => 0
    let s := forS (List.range 12) (fun k s => wr s .lcs (F.LCS_ATTEST_TAG k) (tag / 2 ^ (32 * k))) s
    raiseInt (wrs s .lcs [(F.LCS_ATTEST_NOKEY, b2n (keyGen s n).isNone), (F.LCS_ATTEST_GO, 0)]) .lcs 12

/-- ATTEST_DONE (R493). -/
def execAttestDone (s : State) : Host.Outcome State Fault Refusal := .next (attestDone s)

/-! ### Boundary scan and debug (R494, R495) -/

/-- The identification code (R494). -/
def tapIdcode : Nat := 0x2525655B

/-- A TAP instruction becomes current (Table 20-5): those of R495 hold the device as RST_N does, and leaving them restarts it. -/
def tapSelect (code : Nat) (s : State) : State :=
  let was := tapHold s
  let t : State := { s with lcs := { s.lcs with tap := code } }
  if !was && tapHold t then (if powered t then rstReset t else t)
  else if was && !tapHold t && t.pwr.stage == .held then powerUp t
  else t

/-- EXTEST (R495). -/
def execExtest (s : State) : Host.Outcome State Fault Refusal := .next (tapSelect 0 s)

/-- SAMPLE_PRELOAD (R494). -/
def execSamplePreload (s : State) : Host.Outcome State Fault Refusal := .next (tapSelect 1 s)

/-- IDCODE (R494): the identification register is selected and can be shifted out. -/
def execIdcode (s : State) : Host.Outcome State Fault Refusal := .next (emit (tapSelect 2 s) (.idcode tapIdcode))

/-- CLAMP (R495). -/
def execClamp (s : State) : Host.Outcome State Fault Refusal := .next (tapSelect 3 s)

/-- HIGHZ (R495). -/
def execHighz (s : State) : Host.Outcome State Fault Refusal := .next (tapSelect 4 s)

/-- EXTEST_PULSE (R495). -/
def execExtestPulse (s : State) : Host.Outcome State Fault Refusal := .next (tapSelect 5 s)

/-- EXTEST_TRAIN (R495). -/
def execExtestTrain (s : State) : Host.Outcome State Fault Refusal := .next (tapSelect 6 s)

/-- DEBUG (R494): master 5 is connected while it is current, in MANUFACTURE and RETURN. -/
def execDebug (s : State) : Host.Outcome State Fault Refusal := .next (tapSelect 0x10 s)

/-- BYPASS (R494). -/
def execBypass (s : State) : Host.Outcome State Fault Refusal := .next (tapSelect 0xFF s)

/-! ### Spares (R31, R496, R497) -/

/-- AGEING_MEASUREMENT (R496): the resources, as (kind, instance), whose ring oscillators are found 3 % slow or more: timing slices, converters, analysis units, control
cores. -/
def ageing (slow : List (Nat × Nat)) (s : State) : State :=
  if fwRuns s then forS (slow.filter fun x => decide (2 ≤ x.1) && decide (x.1 ≤ 5)) (fun x s => propFile x.1 x.2 3 s) s else s

/-- AGEING_MEASUREMENT (R496). -/
def execAgeingMeasurement (slow : List (Nat × Nat)) (s : State) : Host.Outcome State Fault Refusal := .next (ageing slow s)

/-- A path of the newest DESKEW record of a pin is more than 10 ps from its FACTORY value, in a mode that the record was measured in (Table 20-6, R353). -/
def deskewFar (s : State) (b slot : Nat) : Bool :=
  match newestRec s 3 b slot, newestRec s 4 b slot with
  | some (_, d), some (_, f) =>
    (List.range 7).any fun k => d.mode.testBit (k / 4) && decide (10000 < (d.payload.getD k 0 - f.payload.getD k 0).natAbs)
  | _, _ => false

/-- At least n of some events, by their AON ticks, lie within the last 86,400 s. -/
def withinDay (s : State) (n : Nat) (l : List Nat) : Bool := decide (n ≤ (l.filter fun t => decide (t ≤ aonNow s) && decide (aonNow s ≤ t + 86400 * 100000000)).length)

/-- At least n of the noted events lie within the last 86,400 s. -/
def wearWithin (s : State) (kind inst n : Nat) : Bool := withinDay s n (tabGet [] s.lcs.wear (kind * 4096 + inst))

/-- The key of the evidence that a proposal uses up: a converter's is its bank's, and any control core's FW_WDOG is the same cause. -/
def wearInst (kind inst : Nat) : Nat := if kind = 3 then inst / 16 else if kind = 5 then 0 else inst

/-- The evidence of Table 20-6 is there. Causes are those of `LCS_PROP_HEAD.CAUSE`: 1 error rate, 2 calibration drift, 4 quarantine; ageing has a command of its own. A lane's
adaptation at a limit of its range (kind 6, cause 2), on 3 locks in a row, and 16 corrected bits of an SRAM column within 86,400 s (kind 9) are shown by no other command: the
proposal carries them (log 80). -/
def evidence (s : State) (kind inst : Nat) (x : WearFacts) : Bool :=
  let cause := x.cause
  match kind with
  | 1 => cause == 4 && (engOf s inst).role == 1
  | 2 => cause == 2 && deskewFar s (inst / 16) (inst % 16)
  | 3 => cause == 2 && (tabGet [] s.lcs.wear (3 * 4096 + inst / 16)).take 2 == [inst % 16, inst % 16]
  | 4 => cause == 1 && wearWithin s 4 inst 2
  | 5 => cause == 1 && wearWithin s 5 0 2
  | 6 => (cause == 2 && x.limits.take 3 == [true, true, true]) || (cause == 1 && wearWithin s 6 inst 4)
  | 7 => cause == 1 && s.memc.cands.contains inst
  | 8 => cause == 1 && (laneMask s (inst % 16)).testBit (inst / 16)
  | 9 => cause == 1 && withinDay s 16 x.corrected
  | _ => false

/-- PROPOSAL (R496, R497). With the retirement list full no frame is proposed, and SPARE_EMPTY is raised (R474). -/
def execProposal (kind inst : Nat) (facts : WearFacts) (s : State) : Host.Outcome State Fault Refusal :=
  .next (
    if !fwRuns s || !evidence s kind inst facts then s
    else if kind = 7 && decide (retireCap ≤ (retireNow s).length) then raiseInt (fltEvent s .memDev 6) .memDev 6
    else propFile kind inst facts.cause (wearClear kind (wearInst kind inst) s))

/-- The execution of a proposal has begun: a frame's copy, a unit's copy. -/
def propRunning (s : State) (x : Proposal) : Bool :=
  (x.kind == 7 && (s.memc.copying.map (·.1)) == some x.inst) || (x.kind == 4 && (s.au.subst.map (·.1)) == some x.inst)

/-- A completed pair of `LCS_PROP_CTL` (R497): an ID that is not in the queue, or both bits, is refused. A rejection once execution has begun loses. -/
def propControl (v : Nat) (s : State) : State :=
  match s.lcs.props.find? fun x => x.id == v % 256 with
  | none => fltEvent s .lcs 1
  | some x =>
    if v.testBit 8 && v.testBit 9 then fltEvent s .lcs 1
    else
      let s := wrs s .lcs [(F.LCS_PROP_CTL_ID, x.id), (F.LCS_PROP_CTL_APPROVE, b2n (v.testBit 8)), (F.LCS_PROP_CTL_REJECT, b2n (v.testBit 9))]
      if v.testBit 8 then propApprove x.id s
      else if v.testBit 9 && !propRunning s x then
        propLeave x.id false { s with memc := { s.memc with approved := if x.kind == 7 then s.memc.approved.erase x.inst else s.memc.approved } }
      else s

/-- PROPOSAL_APPROVE (R497): the complement that completes the pair. -/
def execProposalApprove (m comp : Nat) (s : State) : Host.Outcome State Fault Refusal := .next (takeIn m (writeReq m (pageBase .lcs + F.LCS_PROP_CTL_ID.off + 0x800) comp) false (pairComplete m .lcs F.LCS_PROP_CTL_ID.off comp propControl) s)

/-- PROPOSAL_REJECT (R497): the complement that completes the pair. -/
def execProposalReject (m comp : Nat) (s : State) : Host.Outcome State Fault Refusal := .next (takeIn m (writeReq m (pageBase .lcs + F.LCS_PROP_CTL_ID.off + 0x800) comp) false (pairComplete m .lcs F.LCS_PROP_CTL_ID.off comp propControl) s)

/-- A bank's slices and converters are idle (R31): no site runs on it and no calibration. -/
def bankIdle (s : State) (b : Nat) : Bool := !bankBusy s b && (calRunOf s b).isNone

/-- A spare engine for engine e: of its own cluster where that one is free. -/
def spareEngine (s : State) (e : Nat) : Option Nat :=
  ([17 * (e / 17) + 16] ++ [16, 33, 50, 67]).find? fun k => (engOf s k).role == 0

/-- An engine is replaced (R165, R187). -/
def substEngine (e : Nat) (s : State) : State :=
  if (engOf s e).work.isSome then s
  else match spareEngine s e with
  | none => propNoSpare 1 e s
  | some k =>
    let s := setEng s k { engOf s k with role := 2 }
    propDone 1 e (refitShares s)

/-- A slice or a converter is replaced through the mapping register of its bank (R258, R319). -/
def substPin (kind p : Nat) (pin valid : Fld) (act : Nat → State → State) (s : State) : State :=
  let b := p / 16
  if !bankIdle s b then s
  else if rdb s (.bnk b) valid && rd s (.bnk b) pin ≠ p % 16 then propNoSpare kind p s
  else propDone kind p (act b (wrs s (.bnk b) [(pin, p % 16), (valid, 1)]))

/-- An analysis unit is replaced (R345); its proposal ends with the copy. -/
def substUnit (u : Nat) (s : State) : State :=
  if !auStopped s u || rdb s (.au u) F.AU_TAP_EN || s.au.subst.isSome then s
  else if rdb s (.au 16) F.AU_SPARE_VALID && rd s (.au 16) F.AU_SPARE_UNIT ≠ u then propNoSpare 4 u s
  else auSubstitute (wrs s (.au 16) [(F.AU_SPARE_UNIT, u), (F.AU_SPARE_VALID, 1)])

/-- A control core is replaced (Table 20-6). -/
def substCore (n : Nat) (s : State) : State :=
  if partBusy s n || cmdWaiting s n ≠ 0 then s
  else if s.lcs.coreSpare.isSome then propNoSpare 5 n s
  else propDone 5 n { s with lcs := { s.lcs with coreSpare := some n } }

/-- The lane of a port is replaced by TLS (R95). -/
def substLane (l : Nat) (s : State) : State :=
  if 2 ≤ l || linkState s l = 2 then s
  else if laneOf s 0 = 2 || laneOf s 1 = 2 || mappedLane s 0 = 2 || mappedLane s 1 = 2 then propNoSpare 6 l s
  else propDone 6 l (movePort l (wr s .tlkCtl (if l = 0 then F.TLK_MAP_TL0_LANE else F.TLK_MAP_TL1_LANE) 2))

/-- A furrow's SRAM column is replaced (Table 20-6): two for each furrow. -/
def substColumn (q : Nat) (s : State) : State :=
  let n := tabGet 0 s.lcs.columns q
  if bankBusy s (q / 4) then s
  else if 2 ≤ n then propNoSpare 9 q s
  else propDone 9 q { s with lcs := { s.lcs with columns := tabPut 0 s.lcs.columns q (n + 1) } }

/-- The approved proposal for a resource is carried out if the resource is idle (R497, Table 20-6). -/
def substApproved (kind inst : Nat) (s : State) : State :=
  match kind with
  | 1 => substEngine inst s
  | 2 => substPin 2 inst F.BNK_SPARE_PIN F.BNK_SPARE_VALID sliceSubstitute s
  | 3 => substPin 3 inst F.EDG_SPARE_PIN F.EDG_SPARE_VALID convSubstitute s
  | 4 => substUnit inst s
  | 5 => substCore inst s
  | 6 => substLane inst s
  | 7 => retireStart inst s
  | 8 => propDone 8 inst (retireAdd [2 ^ 28 + inst % 16 + inst / 16 % 2 ^ 7 * 16] s)
  | 9 => substColumn inst s
  | _ => s

/-- A mapping register's value takes effect at the idle moment (R31). -/
def substPending (kind inst : Nat) (s : State) : State :=
  match kind with
  | 2 => if bankIdle s (inst / 16) then sliceSubstitute (inst / 16) s else s
  | 3 => if bankIdle s (inst / 16) then convSubstitute (inst / 16) s else s
  | 4 => auSubstitute s
  | 6 => movePorts s
  | _ => s

/-- SPARE_SUBSTITUTION (R31, R497): of a resource, as kind and instance of Table 20-6: the approved proposal, or the mapping that waits. -/
def execSpareSubstitution (kind inst : Nat) (s : State) : Host.Outcome State Fault Refusal :=
  .next (if !fwRuns s then s else if propApproved s kind inst then substApproved kind inst s else substPending kind inst s)

/-! ### Perturbations (R498, R499) -/

/-- The page unlocks (R498): announced and logged; the timeout counts from here. -/
def ptbUnlock (s : State) : State :=
  let s := wrs s .ptb [(F.PTB_UNLOCK, 1), (F.PTB_STAT_UNLOCKED, 1), (F.PTB_STAT_ANNOUNCED, 1)]
  evlog { s with lcs := { s.lcs with unlockAt := aonNow s } } 10 17 0 0 0x100

/-- A completed pair of `PTB_UNLOCK` (R498): in SCRAPPED nobody unlocks. -/
def ptbUnlockEffect (v : Nat) (s : State) : State :=
  if !v.testBit 0 then ptbLock s
  else if rd s .lcs F.LCS_STATE_STATE = 4 then fltEvent s .ptb 1
  else ptbUnlock s

/-- PTB_UNLOCK (R498): the complement that completes the pair. -/
def execPtbUnlock (m comp : Nat) (s : State) : Host.Outcome State Fault Refusal := .next (takeIn m (writeReq m (pageBase .ptb + F.PTB_UNLOCK.off + 0x800) comp) false (pairComplete m .ptb F.PTB_UNLOCK.off comp ptbUnlockEffect) s)

/-- PTB_LOCK (R498): the complement that completes the pair. -/
def execPtbLock (m comp : Nat) (s : State) : Host.Outcome State Fault Refusal := .next (takeIn m (writeReq m (pageBase .ptb + F.PTB_UNLOCK.off + 0x800) comp) false (pairComplete m .ptb F.PTB_UNLOCK.off comp ptbUnlockEffect) s)

/-- The timeout in force, in s (R498): in PROVISIONED and FIELD 0 stands for 600 s; elsewhere for none. -/
def ptbTime (s : State) : Option Nat :=
  let t := rd s .ptb F.PTB_TIMEOUT
  let st := rd s .lcs F.LCS_STATE_STATE
  if t ≠ 0 then some t else if st = 1 || st = 2 then some 600 else none

/-- The time since the unlock is over (R498). -/
def ptbExpired (s : State) : Bool :=
  match ptbTime s with
  | some t => decide (s.lcs.unlockAt + t * 100000000 ≤ aonNow s)
  | none => false

/-- PTB_TIMEOUT (R498): the page locks once the time is over. -/
def ptbExpire (s : State) : State :=
  if rdb s .ptb F.PTB_STAT_UNLOCKED && ptbExpired s then raiseInt (ptbLock s) .ptb 8 else s

/-- PTB_TIMEOUT (R498). -/
def execPtbTimeout (s : State) : Host.Outcome State Fault Refusal := .next (ptbExpire s)

/-- A and B of a type are in their ranges (Table 20-7). -/
def ptbArgsOk (ty a b : Nat) : Bool :=
  match ty with
  | 1 => decide (a < 16)
  | 2 => true
  | 3 => decide (1 ≤ a) && decide (a ≤ 4)
  | 4 => decide (a < 64)
  | 5 => decide (a < 2)
  | 6 => decide (a < 2)
  | 7 => decide (a < 4) && decide (1 ≤ b) && decide (b ≤ 8)
  | 8 => true
  | 9 => decide (a < 68)
  | 10 => decide (a < 16)
  | _ => false

/-- MAG of a type is in its range (Table 20-7); of no type yet, any value. -/
def ptbMagOk (ty mag : Nat) : Bool :=
  let upTo (n : Nat) : Bool := decide (1 ≤ mag) && decide (mag ≤ n)
  match ty with
  | 1 => upTo 255 | 2 => upTo 1024 | 3 => upTo 4095 | 4 => upTo 65535 | 5 => decide (mag ≤ 1) | 6 => upTo 65535
  | 7 => decide (mag ≤ 1) | 9 => upTo 65535 | 10 => upTo 4095
  | _ => true

/-- RATE of a type is in its range (Table 20-7). -/
def ptbRateOk (ty rate : Nat) : Bool := ty != 2 || decide (4 ≤ rate)

/-- A write of `PTB_CTRL` of slot k (R498, R499); an armed slot needs MAG and RATE in range too. Against the expiry of the same cycle a write of EN = 1 loses. -/
def ptbCtrl (k word : Nat) (s : State) : State :=
  let p := Page.ptb
  let en := word.testBit 0
  let ty := bits word 4 1
  let a := bits word 15 8
  let b := bits word 31 16
  let was := rdb s p (F.PTB_CTRL_EN k)
  if !ptbArgsOk ty a b || (en && (!rdb s p F.PTB_STAT_UNLOCKED || ptbExpired s || !ptbMagOk ty (rd s p (F.PTB_MAG k)) || !ptbRateOk ty (rd s p (F.PTB_RATE k)))) then
    fltEvent s p 1
  else
    let s := wrs s p [(F.PTB_CTRL_EN k, b2n en), (F.PTB_CTRL_TYPE k, ty), (F.PTB_CTRL_A k, a), (F.PTB_CTRL_B k, b)]
    let s := if en && !was then evlog (wr s p (F.PTB_COUNT k) 0) 10 17 0 0 (ty + k * 16) else s
    let s := if en && !was && ty == 9 then setEng s a { engOf s a with work := (engOf s a).work.map fun w => { w with ptbOld := true } } else s
    ptbFollow s

/-- A write of slot k's register r: 0 CTRL, 1 MAG, 2 RATE, 3 COUNT, which is read only (Table 20-9). -/
def ptbSlot (k r word : Nat) (s : State) : State :=
  let p := Page.ptb
  let ty := rd s p (F.PTB_CTRL_TYPE k)
  match r with
  | 0 => ptbCtrl k word s
  | 1 => if ptbMagOk ty word then wr s p (F.PTB_MAG k) word else fltEvent s p 1
  | 2 => if ptbRateOk ty (word % 32) then wr s p (F.PTB_RATE k) word else fltEvent s p 1
  | _ => s

/-- PTB_SLOT_WRITE (R499). -/
def execPtbSlotWrite (m k r word : Nat) (s : State) : Host.Outcome State Fault Refusal :=
  .next (takeIn m (writeReq m (pageBase .ptb + 0x110 + 0x10 * k + 4 * r) word) false (fun s => asWriter s m .ptb (0x110 + 0x10 * k + 4 * r) true (ptbSlot k r word)) s)

/-- The parity bit of a register is inverted (R499, type 8): of the page with a block type and an instance. -/
def ptbParity (ty inst off : Nat) (s : State) : State :=
  match allPages.find? fun p => pageType p == ty && pageInst p == inst with
  | some p =>
    if (rowsOf p).any fun r => (List.range (max 1 r.count)).any fun i => (r.fld i).off == off && isConfig p (r.fld i, r) then flipParity (pageBase p + off) s else s
  | none => s

/-- What an injection of a slot does (Table 20-7): to the next grant of a bank's write port, the decisions, the next request of a class, a furrow's room, the next frame or
event message of a port, the next block of a partition, a register's parity, the engine's caravan. CORE cycles are counted in ticks of 16. Type 10 acts on each edge as it is
accepted. -/
def ptbInject (k : Nat) (s : State) : State :=
  let p := Page.ptb
  let a := rd s p (F.PTB_CTRL_A k)
  let b := rd s p (F.PTB_CTRL_B k)
  let mag := rd s p (F.PTB_MAG k)
  match rd s p (F.PTB_CTRL_TYPE k) with
  | 1 => { s with lcs := { s.lcs with grantWait := tabPut 0 s.lcs.grantWait a (disTick s + (mag + 15) / 16) } }
  | 3 => { s with lcs := { s.lcs with memLat := tabPut (0, 0) s.lcs.memLat a (b, mag) } }
  | 6 => { s with lcs := { s.lcs with txDelay := tabPut (0, 0) s.lcs.txDelay a (b, mag) } }
  | 7 => { s with lcs := { s.lcs with rsNext := tabPut 0 s.lcs.rsNext (2 * a + mag) b } }
  | 2 => { s with lcs := { s.lcs with stall := s.lcs.stall + mag } }
  | 4 => { s with lcs := { s.lcs with noRoom := tabPut 0 s.lcs.noRoom a (disTick s + (mag + 15) / 16) } }
  | 5 => { s with lcs := { s.lcs with drops := tabPut 0 s.lcs.drops (2 * a + mag) b } }
  | 8 => ptbDisarm k (ptbParity a b mag s)
  | 9 => ptbDisarm k (machineCheck a 5 s)
  | _ => s

/-- A slot can inject: armed, the page unlocked and not in its safe state; MCHK waits for the next caravan handed to its engine. -/
def ptbLive (s : State) (k : Nat) : Bool :=
  rdb s .ptb (F.PTB_CTRL_EN k) && rdb s .ptb F.PTB_STAT_UNLOCKED && !pageSafe s .ptb &&
  (rd s .ptb (F.PTB_CTRL_TYPE k) != 9 || (engOf s (rd s .ptb (F.PTB_CTRL_A k))).work.any fun w => !w.ptbOld)

/-- PTB_INJECTION (R499): of slot k. -/
def execPtbInjection (k : Nat) (s : State) : Host.Outcome State Fault Refusal :=
  .next (if ptbLive s k then ptbInject k (incSat s .ptb (F.PTB_COUNT k)) else s)

end Sys2Proof.Machine
end

