-- ==== Sys2Proof/Machine/Views.lean ====
section
/-! DEFINITION. What a read of a register field answers: the stored field, or where the field shows state that has a home of its own (a furrow pointer, a queue
level, a mirror), that state. -/

namespace Sys2Proof.Machine

open Sys2Proof

/-- The entry of a strided field that starts at `base`. -/
def entryOf (f : Fld) (base stride : Nat) : Nat := (f.off - base) / stride

/-! ### The common header (Table 16-2) -/

/-- Words of the counter area 0x050 to 0x0F7 that a page's table uses. -/
def counterWords (p : Page) : Nat :=
  ((List.range 42).filter fun k => !(fieldsAt p (0x50 + 4 * k)).isEmpty).length

/-- A field of the common header as it reads. -/
def headerView (s : State) (p : Page) (f : Fld) : Nat :=
  if f = F.BLK_ID_LAYOUT then 1
  else if f = F.BLK_ID_INSTANCE then pageInst p
  else if f = F.BLK_ID_TYPE then pageType p
  else if f = F.BLK_CAP_SIZE then (if pageSize p = 0x10000 then 4 else 0)
  else if f = F.BLK_CAP_EN_IMPL then b2n (enImpl p)
  else if f = F.BLK_CAP_PDOM then pageDom p
  else if f = F.BLK_CAP_NCNT then counterWords p
  else if f = F.BLK_CTRL_EN && !enImpl p then 0
  else if f = F.BLK_STAT_ON then b2n (fnOn s p)
  else if f = F.BLK_STAT_LOCKED then rd s p F.LOCK
  else if f = F.INT_PEND then intPend s p
  else if f = F.OWNER then pageOwner s p
  else rd s p f

/-! ### TIM (Tables 2-2, 2-5) -/

/-- A time word as a master reads it: the nanoseconds and seconds words of a time value from its snapshot (R48). -/
def timeWord (s : State) (m : Nat) (tv : TimeRef) (k : Nat) : Nat :=
  match k with
  | 0 => (timeRefNow s tv).subns
  | 1 => snapNs s m tv
  | 2 => snapSec s m tv % 2 ^ 32
  | _ => snapSec s m tv / 2 ^ 32

/-- A field of the TIM device page, or with the same offsets of a partition time base, as it reads. -/
def timView (s : State) (m b : Nat) (p : Page) (f : Fld) : Nat :=
  if f = F.TIM_DTB_NS then timeWord s m (.base b) 1
  else if f = F.TIM_DTB_SEC_LO then timeWord s m (.base b) 2
  else if f = F.TIM_DTB_SEC_HI then timeWord s m (.base b) 3
  else rd s p f

/-- A field of a site table entry as it reads: entries of sites of another partition read zero (R64). -/
def timSiteView (s : State) (m n : Nat) (f : Fld) : Nat :=
  let i := entryOf f 0x400 0x20
  if (siteOf s i).owner ≠ some n then 0
  else if f = F.EPOCH_NS i then timeWord s m (.epoch n i) 1
  else if f = F.EPOCH_SEC_LO i then timeWord s m (.epoch n i) 2
  else if f = F.EPOCH_SEC_HI i then timeWord s m (.epoch n i) 3
  else rd s (.timPart n) f

/-! ### DIS and ENG (Tables 6-13 to 6-16) -/

/-- The pool counts as a master reads them in `DIS_POOL_B` and `DIS_POOL_C`: those latched by its last read of `DIS_POOL_A`, or the current ones (R177). -/
def poolShown (s : State) (m : Nat) : List Nat := if (tabGet [] s.pat.poolLatch m).isEmpty then poolCounts s else tabGet [] s.pat.poolLatch m

/-- A field of the DIS device page as it reads. -/
def disView (s : State) (m : Nat) (f : Fld) : Nat :=
  if f = F.DIS_POOL_A_FREE then (poolCounts s).getD 0 0
  else if f = F.DIS_POOL_A_WAITING then (poolCounts s).getD 1 0
  else if f = F.DIS_POOL_B_READY then (poolShown s m).getD 2 0
  else if f = F.DIS_POOL_B_SERVICE then (poolShown s m).getD 3 0
  else if f = F.DIS_POOL_C_RETIRING then (poolShown s m).getD 4 0
  else if f = F.DIS_POOL_C_HANDOVER then (poolShown s m).getD 5 0
  else if f = F.DIS_CLU_STAT_POWERED then (rd s .pwrDev F.PWR_DOM_ON >>> 16) % 16
  else rd s .disDev f

/-- A field of a DIS partition page as it reads. -/
def disPartView (s : State) (n : Nat) (f : Fld) : Nat :=
  if f = F.DIS_P_STAT_TOKENS then partTokens s n
  else if f = F.DIS_P_STAT_WAITING then partWaiting s n
  else if f = F.DIS_P_SHARE_CONF then (shares s).getD n 0
  else if f = F.DIS_P_SHARE_ACT then (sharesAct s).getD n 0
  else if f = F.DIS_P_SHARE_BUSY then ((shareEngs s n).filter fun e => (engOf s e).work.isSome).length
  else rd s (.disPart n) f

/-- The engine that serves a route, if any. -/
def engOfRoute (s : State) (r : Nat) : Option Nat := (List.range 68).find? fun e => ((engOf s e).work.map fun w => w.car.route == r).getD false

/-- The site of which r is a route. -/
def siteOfRoute (s : State) (r : Nat) : Option Nat := (siteOfQuad s r).filter fun i => (routesOf (siteOf s i).mask).contains r

/-- A field of a route's entry as it reads. -/
def routeView (s : State) (g : Nat) (f : Fld) : Nat :=
  let i := entryOf f 0x100 0x100
  let r := 8 * g + i
  if f = F.DIS_R_STAT_ACTIVE i then b2n (siteOfRoute s r).isSome
  else if f = F.DIS_R_STAT_IN_SERVICE i then b2n (engOfRoute s r).isSome
  else if f = F.DIS_R_STAT_ENDED i then b2n (routeOf s r).endPos.isSome
  else if f = F.DIS_R_STAT_CAPPED i then b2n (routeOf s r).capped
  else if f = F.DIS_R_STAT_HELD i then b2n (routeOf s r).held
  else if f = F.DIS_R_STAT_SITE i then (siteOfRoute s r).getD 0
  else if f = F.DIS_R_STAT_ENGINE i then (engOfRoute s r).getD 0
  else if f = F.DIS_R_DEPTH_WAITING i then (s.pat.way.filter fun c => c.route = r).length
  else if f = F.DIS_R_DEPTH_READY i then ((readyCars s).filter fun c => c.route = r).length
  else rd s (.disGrp g) f

/-- A field of an ENG page as it reads. -/
def engView (s : State) (e : Nat) (f : Fld) : Nat :=
  if f.off = 0x100 && f.lo = 0 then engState s e
  else if f.off = 0x100 && f.lo = 4 then e / 17
  else if f.off = 0x100 && f.lo = 8 then (engPart s e).getD 0
  else if f.off = 0x100 && f.lo = 16 then ((engOf s e).work.map fun w => w.car.route).getD 0
  else rd s (.eng e) f

/-! ### BNK (Tables 7-5, 8-13, 11-3) -/

/-- A caravan of a kind 1 to 3 of the route of a quad is in the dispatcher or at work. -/
def sideBusy (s : State) (q : Nat) : Bool :=
  let r := match siteOfQuad s q with | some i => routeNo (siteOf s i).mask (q / 4) | none => q
  ((allCars s ++ (routeOf s r).sideWait).any fun c => c.route == r && c.kind != 0)

/-- `FUR_STAT.SIDE`: 0 empty, 1 filling, 2 filled and held for a boundary, 3 in the read sequence. -/
def sideCode (s : State) (q : Nat) : Nat :=
  let x := furOf s q
  let placed (k : Nat) : Bool := x.pRegs.contains k || x.seq.regs.contains k || (x.relTo.isSome && x.jumpRegs.contains k) || (x.seq.marked && x.seq.markRegs.contains k)
  if [1, 2].any fun k => placed k && (halfOf x k).rel != (halfOf x k).vis then 3
  else if halfFree x.half1 && halfFree x.half2 then 0
  else if sideBusy s q then 1 else 2

/-- A dwell is in progress at a site. -/
def dwelling (s : State) (q : Nat) : Bool :=
  match siteOfQuad s q with
  | some i => match (siteOf s i).cur with | some c => c.cls == .dwell | none => false
  | none => false

/-- A furrow register field as it reads. -/
def furView (s : State) (b : Nat) (f : Fld) : Nat :=
  let i := entryOf f 0x8000 0x400
  let q := 4 * b + i
  let x := furOf s q
  if f = F.FUR_STAT_FILL i then heldW x
  else if f = F.FUR_STAT_MARKED i then b2n x.now.marked
  else if f = F.FUR_STAT_DWELLING i then b2n (dwelling s q)
  else if f = F.FUR_STAT_EMPTY i then b2n (decide (mainAvail x x.now.rd = 0))
  else if f = F.FUR_STAT_FULL i then b2n (decide (freeW x = 0) || noRoom s q)
  else if f = F.FUR_STAT_SIDE i then sideCode s q
  else if f = F.FUR_STAT_RESET_PENDING i then b2n x.resetPend
  else if f = F.FUR_WPTR_VIS i then x.vis
  else if f = F.FUR_WPTR_STG i then x.stg
  else if f = F.FUR_RES_RES i then x.res
  else if f = F.FUR_RES_REL_W i then x.relW
  else if f = F.FUR_RPTR_RD i then x.now.rd
  else if f = F.FUR_RPTR_PR i then x.pr
  else if f = F.FUR_MK i then x.now.mark
  else if f = F.FUR_SIDE_VIS0 i then sideDiff x.half1.vis x.half1.relW
  else if f = F.FUR_SIDE_VIS1 i then sideDiff x.half2.vis x.half2.relW
  else if f = F.FUR_TAGS_MAIN_FREE i then tagsFree x
  else if f = F.FUR_TAGS_SIDE_FREE i then 128 - halfTags x.half1 - halfTags x.half2
  else rd s (.bnk b) f

/-- A field of a BNK page as it reads: `EDG_FC_T` and `EDG_FC_STAT` as latched for the master by its last read of `EDG_FC_N` (R318). -/
def bankView (s : State) (m b : Nat) (f : Fld) : Nat :=
  let p := Page.bnk b
  if 0x8000 ≤ f.off then furView s b f
  else if 0x600 ≤ f.off && f.off < 0x630 && f != F.BNK_PEC_CFG_SEL && pecBank s (b / 2) != b then 0
  else if f = F.BNK_PEC_RX_LO then (pecOf s (b / 2)).rx.headD 0 % 2 ^ 32
  else if f = F.BNK_FOLLOW_PER then (if rdb s p F.BNK_FOLLOW_EN then followPeriod s b else rd s p f)
  else if 0x4100 ≤ f.off && f.off < 0x4500 then
    let j := entryOf f 0x4100 0x40
    match tabFind s.pin.fcLatch (m * 256 + 16 * b + j) with
    | none => rd s p f
    | some (t, st) =>
      if f = F.EDG_FC_T j then t
      else if f = F.EDG_FC_STAT_VALID j then st % 2
      else if f = F.EDG_FC_STAT_NOEDGE j then st / 2 % 2
      else if f = F.EDG_FC_STAT_SKIP j then st / 4 % 2
      else rd s p f
  else rd s p f

/-! ### CMP, EDG, CAL, MEM -/

/-- A field of a CMP partition page as it reads: site entries of sites that partition n has not defined read zero (R127). -/
def cmpView (s : State) (n : Nat) (f : Fld) : Nat :=
  let p := Page.cmpPart n
  if 0x800 ≤ f.off && f.off < 0xC00 then
    let i := entryOf f 0x800 0x10
    if (siteOf s i).owner ≠ some n then 0
    else if f = F.CMP_SITE_STATE_PEND i then pendBits (siteOf s i)
    else rd s p f
  else if 0xC00 ≤ f.off then (if (siteOf s (entryOf f 0xC00 0x10)).owner ≠ some n then 0 else rd s p f)
  else rd s p f

/-- A sum over the pins or banks of a counter, saturating at 32 bits (R322). -/
def sat32 (l : List Nat) : Nat := min (l.foldl (· + ·) 0) (2 ^ 32 - 1)

/-- A field of the EDG page as it reads (R322). -/
def edgView (s : State) (f : Fld) : Nat :=
  if f = F.EDG_LOST_SUM then sat32 ((List.range 256).map fun p => rd s (.bnk (p / 16)) (F.EDG_LOST (p % 16)))
  else if f = F.SR_DROP_SUM then sat32 ((List.range 16).map fun b => rd s (.bnk b) F.SR_DROP)
  else rd s .edg f

/-- A field of the MEM device page as it reads. -/
def memView (s : State) (f : Fld) : Nat :=
  let bad := laneMask s (rd s .memDev F.MEM_LANE_SEL)
  if f = F.MEM_LANE_MASK0 then bad % 2 ^ 32
  else if f = F.MEM_LANE_MASK1 then bad / 2 ^ 32 % 2 ^ 32
  else if f = F.MEM_LANE_MASK2 then bad / 2 ^ 64 % 2 ^ 8
  else rd s .memDev f

/-- A field of a MEM partition page as it reads. -/
def memPartView (s : State) (n : Nat) (f : Fld) : Nat :=
  if f = F.MEM_P_STAT_QUOTA then quotaGib s n
  else if f = F.MEM_P_STAT_CLEARING then b2n (tabGet none s.memc.clearing n).isSome
  else if f = F.MEM_P_STAT_GRAIN then grainCode s n
  else rd s (.memPart n) f

/-! ### MGT and ERR_N (R448, Tables 17-7 and 17-8) -/

/-- A powered page holds a severe cause. -/
def holdsSevere (s : State) (p : Page) : Bool := pageOn s p && rd s p F.FLT_CAUSE &&& rd s p F.FLT_SEVERE != 0

/-- A powered page holds a cause that its `FLT_ERRPIN` shows. -/
def holdsPin (s : State) (p : Page) : Bool := pageOn s p && rd s p F.FLT_CAUSE &&& rd s p F.FLT_ERRPIN != 0

/-- The device drives ERR_N low (R448, R492): not while it is without power or held by RST_N. -/
def errLow (s : State) : Bool :=
  match s.pwr.stage with
  | .noVstby => false
  | .noVin => false
  | .held => false
  | .scrapped => !s.pwr.rstLow
  | _ => !s.pwr.rstLow && (s.pat.halted || allPages.any fun p => holdsSevere s p || holdsPin s p)

/-- The pages that a partition owns. -/
def pagesOfPart (s : State) (n : Nat) : List Page := allPages.filter fun p => pageOwner s p == n

/-- A field of the MGT device page as it reads: `MGT_EVLOG_DATA` is the entry latched for the master (R455). -/
def mgtView (s : State) (m : Nat) (f : Fld) : Nat :=
  if f = F.MGT_ERR_LOW then b2n (errLow s)
  else if f = F.MGT_ERR_SEVERE then b2n (allPages.any (holdsSevere s))
  else if f = F.MGT_SEV_BLK then ((allPages.filter (holdsSevere s)).foldl (fun v p => setBit v (pageType p)) 0) / 2
  else if 0x114 ≤ f.off && f.off < 0x124 then logWord (tabGet logInit s.mgt.latch m) / 2 ^ (8 * (f.off - 0x114)) % 2 ^ 32
  else rd s .mgtDev f

/-- A field of a MGT partition page as it reads. -/
def mgtPartView (s : State) (n : Nat) (f : Fld) : Nat :=
  if f = F.MGT_P_STAT_SEVERE then b2n ((pagesOfPart s n).any (holdsSevere s))
  else if f = F.MGT_P_STAT_ESCALATED then b2n ((pagesOfPart s n).any fun p => (List.range 32).any fun c => (fltRec s p c).escalated)
  else rd s (.mgtPart n) f

/-! ### AU, PWR, BOOT, LCS -/

/-- A field of an AU page as it reads: `AU_CTRL.HALT` while its halt is pending (Table 16-3). -/
def auView (s : State) (u : Nat) (f : Fld) : Nat := if f = F.AU_CTRL_HALT then b2n (auOf s u).haltReq else rd s (.au u) f

/-- A field of a PWR partition page as it reads (Table 18-8). -/
def pwrPartView (s : State) (n : Nat) (f : Fld) : Nat :=
  if f = F.PWR_P_STAT_STATE then rd s .pwrDev F.PWR_STAT_STATE
  else if f = F.PWR_P_STAT_ALL_VOTED then b2n (allVoted s)
  else rd s (.pwrPart n) f

/-- A field of the BOOT page as it reads (Table 19-10). -/
def bootView (s : State) (f : Fld) : Nat :=
  if f = F.BOOT_SLOT_STAT_A then slotState s.boot.dir 0
  else if f = F.BOOT_SLOT_STAT_B then slotState s.boot.dir 1
  else if f = F.BOOT_PART_VER then s.boot.partVers.getD (rd s .boot F.BOOT_PART_SEL - 1) 0
  else if f = F.BOOTS then ((newestDir s).map fun x => x.2.boots).getD 0
  else rd s .boot f

/-- A field of the LCS page as it reads: the head of the proposal queue (Table 20-8). -/
def lcsView (s : State) (f : Fld) : Nat :=
  let h := s.lcs.props.head?
  if f = F.LCS_PROP_HEAD_ID then (h.map fun x => x.id).getD 0
  else if f = F.LCS_PROP_HEAD_KIND then (h.map fun x => x.kind).getD 0
  else if f = F.LCS_PROP_HEAD_INST then (h.map fun x => x.inst % 4096).getD 0
  else if f = F.LCS_PROP_HEAD_CAUSE then (h.map fun x => x.cause).getD 0
  else if f = F.LCS_PROP_HEAD_VALID then b2n h.isSome
  else if f = F.LCS_PROP_STAT_LEVEL then s.lcs.props.length
  else rd s .lcs f

/-! ### Every page -/

/-- A field of a page as a master reads it. -/
def viewOf (s : State) (m : Nat) (p : Page) (f : Fld) : Nat :=
  match p with
  | .bar4 n => rd s (.bar4 n) f
  | .recov => rd s .recov f
  | _ =>
    if f.off < 0x50 then headerView s p f
    else match p with
      | .timDev => timView s m 0 .timDev f
      | .timPart n => if 0x400 ≤ f.off then timSiteView s m n f else timView s m (1 + n) (.timPart n) f
      | .disDev => disView s m f
      | .disPart n => disPartView s n f
      | .disGrp g => routeView s g f
      | .eng e => engView s e f
      | .bnk b => bankView s m b f
      | .cmpPart n => cmpView s n f
      | .edg => edgView s f
      | .au u => auView s u f
      | .memDev => memView s f
      | .memPart n => memPartView s n f
      | .mgtDev => mgtView s m f
      | .mgtPart n => mgtPartView s n f
      | .pwrPart n => pwrPartView s n f
      | .boot => bootView s f
      | .lcs => lcsView s f
      | _ => rd s p f

/-- The part of a field that lies in the word at an offset, at its place in the word. -/
def fieldWord (f : Fld) (off v : Nat) : Nat := (v <<< f.lo) / 2 ^ (8 * (off - f.off)) % 2 ^ 32

/-- The words of a TIM partition page that mirror fields of other pages (R63); `none` where the offset holds no mirror. -/
def timMirror (s : State) (m n off : Nat) : Option Nat :=
  let link := linkBase s = 1 + n
  let off64 := rd s (.tlkPort 0) F.TLK_P_OFFSET
  let mpd := rd s (.tlkPort 0) F.TLK_P_MPD
  if off = 0x104 then some ((fieldsAt .timDev 0x104).foldl (fun v x => v + fieldWord x.1 off (rd s .timDev x.1)) 0)
  else if off = 0x108 then some (rd s .timDev F.TIM_HOLD_EST)
  else if 0x160 ≤ off && off < 0x170 then some (timeWord s m (.mirror n) ((off - 0x160) / 4))
  else if off = 0x170 then some (if link then off64 % 2 ^ 32 else 0)
  else if off = 0x174 then some (if link then off64 / 2 ^ 32 else 0)
  else if off = 0x178 then some (if link then mpd % 2 ^ 32 else 0)
  else if off = 0x17C then some (if link then mpd / 2 ^ 32 else 0)
  else none

/-- The words of a CAL partition page that mirror the device page (R363): `CAL_STAT`, and `CAL_BANK` of the partition's own banks. -/
def calMirror (s : State) (n off : Nat) : Option Nat :=
  let word (o : Nat) : Nat := (fieldsAt .calDev o).foldl (fun v x => v + fieldWord x.1 o (rd s .calDev x.1)) 0
  if off = 0x10C then some (word off)
  else if 0x200 ≤ off && off < 0x240 then some (if bankOwner s ((off - 0x200) / 4) = n then word off else 0)
  else none

/-- The word at an offset of an AU page's memory windows: program memory at 0x4000, half of the data memory at 0x8000 (R326). -/
def auWindow (s : State) (u off : Nat) : Option Nat :=
  if 0x4000 ≤ off && off < 0x8000 then some (auProg s u ((off - 0x4000) / 4))
  else if 0x8000 ≤ off && off < 0x10000 then some (auData s u (8192 * rd s (.au u) F.AU_DWIN_HALF + (off - 0x8000) / 4))
  else none

/-- A word that is no register row: a mirror, a memory window, the recovery function's buffer; `MEM_MAP_Q`, whose bit 31 shows a lookup that runs (Table 14-8). -/
def windowWord (s : State) (m : Nat) (p : Page) (off : Nat) : Option Nat :=
  match p with
  | .timPart n => timMirror s m n off
  | .calPart n => calMirror s n off
  | .au u => auWindow s u off
  | .memDev => if off = 0x130 then some (rd s .memDev F.MEM_MAP_Q + 2 ^ 31 * b2n s.memc.lookup) else none
  | .recov => if 0x8000 ≤ off then some (tabGet 0 s.boot.buffer ((off - 0x8000) / 4)) else none
  | _ => none

/-- The right of a master to read a field at an offset of a page: entries with owners of their own are their owners' (R424). -/
def mayReadAt (s : State) (m : Nat) (p : Page) (off : Nat) (prv : Bool) : Bool :=
  match entryBank p off with
  | some b => hostServed s m p off && pageOn s p && ownsEntry s m b
  | none => mayRead s m p off prv

/-- The word at an offset of a page as a master reads it: the fields it may read, at their places; write-only fields, reserved fields and reserved offsets read
zero (R8, R424, R427, R428). -/
def readWord (s : State) (m : Nat) (p : Page) (off : Nat) : Nat :=
  match windowWord s m p off with
  | some v => if mayRead s m p off false then v else 0
  | none =>
    (fieldsAt p off).foldl (fun v x =>
      if x.2.acc != .wo && mayReadAt s m p off x.2.prv then v + fieldWord x.1 off (viewOf s m p x.1 % 2 ^ x.1.width) else v) 0

end Sys2Proof.Machine
end

