-- ==== Sys2Proof/Machine/Regs.lean ====
section
/-! DEFINITION. Register accesses by address (chapter 16): where an address lies, what a write of each word does, complement pairs, 64-bit fields and their
shadows, reads. -/

namespace Sys2Proof.Machine

open Sys2Proof

/-- The page and offset of an address as a master sees it: BAR0 (R422), the BAR4 of its own port (R421), and for the function of port 0 the BAR0 of ROM recovery (R484). -/
def locate (m a : Nat) : Option (Page × Nat) :=
  match pageOfAddr a with
  | some x => some x
  | none =>
    if decide (m < 4) && decide (pageBase (.bar4 m) ≤ a) && decide (a < pageBase (.bar4 m) + pageSize (.bar4 m)) then some (.bar4 m, a - pageBase (.bar4 m))
    else if m == 0 && decide (pageBase .recov ≤ a) && decide (a < pageBase .recov + pageSize .recov) then some (.recov, a - pageBase .recov)
    else none

/-! ### Fields by access code (Table 16-3) -/

/-- The effect of a written value on one field by its access code. No table has an RWL or a write-once field; such a field with `LOCK` set would be refused (R437). -/
def storeValue (p : Page) (f : Fld) (a : Acc) (v : Nat) (s : State) : State :=
  match a with
  | .rw => wr s p f v
  | .w1c => wr s p f (rd s p f - (rd s p f &&& v))
  | .w1s => orBits s p f (v % 2 ^ f.width)
  | .rwl => if rdb s p F.LOCK then writeLocked s p else wr s p f v
  | _ => s

/-- A word stored into the fields of a register of a page, each by its access code; with LOCK set a register that holds an RWL field ignores the write as a whole, which counts
once (R428, R437). -/
def storeWord (p : Page) (off word : Nat) (s : State) : State :=
  if rdb s p F.LOCK && (fieldsAt p off).any fun x => x.2.acc == .rwl then writeLocked s p
  else forS (fieldsAt p off) (fun x s => if x.1.lo + x.1.width ≤ 32 then storeValue p x.1 x.2.acc (word >>> x.1.lo) s else s) s

/-- The register at an offset holds a field of Table 16-3's qualifier PRV. -/
def wordPrv (p : Page) (off : Nat) : Bool := (fieldsAt p off).any fun x => x.2.prv

/-- A CPL field stands at an offset (R431). -/
def isCpl (p : Page) (off : Nat) : Bool :=
  (fieldsAt p off).any fun x => x.2.cpl

/-- The writable 64-bit field at an offset (R435). -/
def wideAt (p : Page) (off : Nat) : Option (Fld × RegRow) :=
  (fieldsAt p off).find? fun x => decide (32 < x.1.lo + x.1.width) && (x.2.acc == .rw || x.2.acc == .w1c)

/-! ### Writes with effects of their own, block by block -/

/-- A write of a word of the common header (Table 16-2). -/
def headerWrite (m : Nat) (p : Page) (off word : Nat) (s : State) : State :=
  if off = 0x08 then (if !enImpl p then s else if word.testBit 0 then enableEffect p s else disableEffect p s)
  else if off = 0x10 then intClear p word s
  else if off = 0x14 then reraise (wr s p F.INT_EN (word &&& intBits p)) p (List.range 32)
  else if off = 0x1C then intSet p word s
  else if off = 0x20 then clearCauses m p word s
  else if off = 0x3C then (if word % 4 = 3 then s else wr s p F.FLT_ACTION word)
  else if off = 0x40 then
    let held := p == .ptb && rdb s .ptb F.PTB_STAT_ACTIVE && (rd s .lcs F.LCS_STATE_STATE == 1 || rd s .lcs F.LCS_STATE_STATE == 2)
    wr s p F.FLT_ERRPIN (if held then setBit word 2 else word)
  else storeWord p off word s

/-- A write of a word of the TIM device page or a partition time base (Table 2-2, R45, R91). -/
def timWrite (m b off word : Nat) (meas : HoldMeas) (s : State) : State :=
  let p := basePage b
  if 0x130 ≤ off ∧ off < 0x150 then (if servoLocks s m b then writeLocked s p else storeWord p off word s)
  else if off = 0x150 then goWrite m b word s
  else if b ≠ 0 then s
  else if off = 0x100 then refSelectEffect word meas s
  else if off = 0x110 then
    let s := storeWord p off word s
    { s with tim := { s.tim with ageWrite := tbNow s 0 } }
  else if off = 0x11C then checkHoldLimit (storeWord p off word s)
  else if off = 0x154 then tpOwnerEffect word s
  else storeWord p off word s

/-- A write of a word of a pulse page (Table 2-6, R58). -/
def pulseWrite (q off word : Nat) (s : State) : State :=
  if off = 0x100 then
    match word % 4 with
    | 0 => disarmPulse q (wrs s (.timPulse q) [(F.TIM_TP_CTRL_TBSEL, bits word 2 2), (F.TIM_TP_CTRL_POL, bits word 3 3)])
    | 3 => timeRefused s (.timPulse q)
    | k => armEffect q k (word.testBit 2) (word.testBit 3) s
  else storeWord (.timPulse q) off word s

/-- A write of a word of a TLK page (Tables 3-7 to 3-10). -/
def tlkWrite (p : Page) (off word : Nat) (s : State) : State :=
  match p with
  | .tlkCtl => if off = 0x100 then tlkCtrlWrite word s else storeWord p off word s
  | .tlkPort n =>
    if off = 0x100 then portCtrlWrite n (bits word 2 1) (word.testBit 3) (word.testBit 0) s
    else if off = 0x108 then intvWrite n word s
    else storeWord p off word s
  | .tlkLane l =>
    if off = 0x100 then txeqEffect l word s
    else if off = 0x104 then rxCtrlWrite l (word.testBit 0) (word.testBit 1) s
    else if off = 0x10C then prbsWrite l word s
    else storeWord p off word s
  | _ => s

/-- The quotas of a pair of registers after a write of one of them: the sum of the word's two fields and the other register's. -/
def quotaSum (s : State) (w other : Nat) : Nat :=
  let sum (v : Nat) : Nat := bits v 13 0 + bits v 29 16
  let now := (fieldsAt .disDev other).foldl (fun v x => v + fieldWord x.1 other (rd s .disDev x.1)) 0
  sum w + sum now

/-- A write of a word of the DIS device page (Table 6-13, R178, R187, R191): a refused write leaves the whole register unchanged. -/
def disWrite (off word : Nat) (s : State) : State :=
  let bad :=
    if off = 0x11C then decide (8192 < quotaSum s (word &&& 0x3FFF3FFF) 0x120)
    else if off = 0x120 then decide (8192 < quotaSum s (word &&& 0x3FFF3FFF) 0x11C)
    else if off = 0x124 then decide (4096 < quotaSum s (word &&& 0x1FFF1FFF) 0x128)
    else if off = 0x128 then decide (4096 < quotaSum s (word &&& 0x1FFF1FFF) 0x124)
    else off == 0x130 && (decide (bits word 13 0 < 64) || decide (8192 < bits word 13 0))
  if off = 0x114 then shareEffect word s
  else if bad then fltEvent s .disDev 3
  else storeWord .disDev off word s

/-- A write of `ACQ_C_CTRL` (R285, R288, R289): ARM, DISARM and FORCE each act; DISARM goes before FORCE, and ARM before both. -/
def acqCtrlWrite (b word : Nat) (s : State) : State :=
  if word.testBit 0 then armChannel b word s
  else
    let s := acqCtrlStore b word s
    let s := if word.testBit 1 then disarmChannel b s else s
    if word.testBit 2 then acqTrigger (acqOf s b).cfg.site b 0 (currentVn s (acqOf s b).cfg.site) s else s

/-- A write of a word of a BNK page (Tables 7-5, 8-10 to 8-13, 10-8, 11-3, 11-4). -/
def bankWrite (m b off word : Nat) (s : State) : State :=
  let p := Page.bnk b
  if off = 0x100 then modeEffect b (word % 2) s
  else if off = 0x110 then tsCommand b word s
  else if off = 0x120 then followEffect b word s
  else if off = 0x124 then followPhaseEffect b word s
  else if 0x604 ≤ off ∧ off < 0x618 ∧ pecBank s (b / 2) ≠ b then s
  else if 0x200 ≤ off ∧ off < 0x300 ∧ off % 16 = 4 then pinTxeqEffect b ((off - 0x200) / 16) word s
  else if off = 0x600 then pecCfgEffect m b word s
  else if off = 0x618 then pecPush b word s
  else if off = 0x4000 then stampCtrlEffect b word s
  else if off = 0x4004 ∨ off = 0x4008 then (if bankBusy s b || ringDraining s b then fltEvent s p 12 else storeWord p off word s)
  else if 0x4100 ≤ off ∧ off < 0x4500 ∧ off % 64 = 0 then pinCfgEffect (16 * b + (off - 0x4100) / 64) word s
  else if 0x4100 ≤ off ∧ off < 0x4500 ∧ off % 64 = 8 then
    let q := 16 * b + (off - 0x4100) / 64
    let s := storeWord p off word s
    if (convOf s q).fcOn then s else fcStart q s
  else if off = 0x5000 then acqCtrlWrite b word s
  else if 0x5100 ≤ off ∧ off < 0x5200 ∧ off % 16 < 12 then maskEffect b ((off - 0x5100) / 16) word (off % 16 / 4) s
  else if 0x8000 ≤ off ∧ off < 0x9000 ∧ off % 0x400 = 4 then
    (if bits word 14 0 < 64 || 16384 < bits word 14 0 then fltEvent s p 17 else storeWord p off word s)
  else storeWord p off word s

/-- A write of a word of a CMP partition page (Tables 4-10, 9-7): site entries of sites that the partition has not defined ignore it (R127). -/
def cmpWrite (n off word : Nat) (s : State) : State :=
  let p := Page.cmpPart n
  if off = 0x100 then ledgerCtrlEffect n word s
  else if off = 0x104 ∨ off = 0x108 then (if partBusy s n || ledgerDraining s n then fltEvent s p 1 else storeWord p off word s)
  else if off = 0x10C then ledRateEffect n word s
  else if 0x800 ≤ off ∧ off < 0xC00 then
    let i := (off - 0x800) / 16
    if (siteOf s i).owner ≠ some n then s
    else if off % 16 = 8 then (match word % 4 with | 1 => makePending i 1 0 s | 2 => makePending i 2 0 s | _ => s)
    else storeWord p off word s
  else storeWord p off word s

/-- A write of a word of an ACQ page (Table 10-10, R297, R302). -/
def acqWrite (p : Page) (off word : Nat) (s : State) : State :=
  match p with
  | .acqDev =>
    let new := bits word 8 0 + bits word 24 16
    let tooMany :=
      if off = 0x100 then decide (384 < new + rd s p F.ACQ_SHARE_2 + rd s p F.ACQ_SHARE_3)
      else off == 0x104 && decide (384 < new + rd s p F.ACQ_SHARE_0 + rd s p F.ACQ_SHARE_1)
    if off = 0x108 then toOwnerEffect word s else if tooMany then fltEvent s p 1 else storeWord p off word s
  | .acqTo t =>
    if off = 0x100 then (if toCtrlBad s t word then fltEvent s .acqDev 1 else storeWord p off word s)
    else if off = 0x104 then (if bits word 15 0 < 10 then fltEvent s .acqDev 1 else storeWord p off word s)
    else storeWord p off word s
  | _ => s

/-- A write that the state of an analysis unit forbids: a unit that is cleared ignores it (R324), a held calibration unit ignores it and counts WRITE_LOCKED (R344), as
does, for its program memory and register file, a unit that runs (R341). -/
def auGuard (m u : Nat) (held stopped : Bool) (f : State → State) (s : State) : State :=
  if auClearing s u then s
  else if (held && cuHeld s m u) || (stopped && !auStopped s u) then writeLocked s (.au u)
  else f s

/-- A write of a word of an AU page (Table 12-7): program memory, the register file, `AU_REFT`, `AU_REFSTEP` and `AU_START` in HALTED or FAULT only. A held unit (R344) does not
take its run control, program memory, register file and tap registers, of which `AU_REFT` and `AU_REFSTEP` are part (log 103); reserved offsets ignore every write. -/
def auWrite (m u off word : Nat) (s : State) : State :=
  let p := Page.au u
  if off < 0x4000 ∧ (fieldsAt p off).isEmpty = true then s
  else if off = 0x100 then assignEffect u word s
  else if off = 0x104 then auCtrl m u word s
  else if off = 0x11C then (if auClearing s u || !word.testBit 0 then s else setAu s u { auOf s u with host := true })
  else if 0x8000 ≤ off then auGuard m u false false (setAuData u (8192 * rd s p F.AU_DWIN_HALF + (off - 0x8000) / 4) word) s
  else if 0x4000 ≤ off then auGuard m u true true (setAuProg u ((off - 0x4000) / 4) word) s
  else if off = 0x124 then
    auGuard m u true false (fun s => if bits word 26 16 < 1 || 1024 < bits word 26 16 then fltEvent s p 1 else storeWord p off word s) s
  else if off = 0x10C then auGuard m u false true (storeWord p off word) s
  else if off = 0x130 ∨ off = 0x140 ∨ off = 0x144 ∨ 0x400 ≤ off then auGuard m u true true (storeWord p off word) s
  else auGuard m u false false (storeWord p off word) s

/-- A write of a word of a CAL page (Table 13-5). -/
def calWrite (p : Page) (off word : Nat) (s : State) : State :=
  let tol (k : Nat) : Bool := let v := bits word (8 * k + 7) (8 * k); decide (v < 1) || decide (64 < v)
  match p with
  | .calPart n => if off = 0x100 then calRequest (some n) word s else s
  | _ =>
    if off = 0x100 then calRequest none word s
    else if off = 0x104 then (if bits word 15 8 < 1 || 50 < bits word 15 8 then fltEvent s p 1 else storeWord p off word s)
    else if off = 0x108 then (if tol 0 || tol 1 || tol 2 then fltEvent s p 1 else storeWord p off word s)
    else storeWord p off word s

/-- A write of `MEM_GRAIN` is refused (R371): a code of 5 to 7, or one that would change the grain of a partition whose quota is not 0. -/
def grainBad (s : State) (word : Nat) : Bool :=
  (List.range 4).any fun n =>
    let g := bits word (4 * n + 2) (4 * n)
    decide (4 < g) || (grainSel (word.testBit (4 * n + 3)) g != grainLog s n && rd s .hifDev (quotaFld n) != 0)

/-- A lookup of the page map is asked for. -/
def mapLookup (s : State) : State := { s with memc := { s.memc with lookup := true } }

/-- A write of a word of the MEM device page (Table 14-8). -/
def memWrite (off word : Nat) (s : State) : State :=
  let bad :=
    (off == 0x108 && (decide (bits word 7 0 < 80) || decide (90 < bits word 7 0))) || (off == 0x10C && (bits word 15 0 == 0 || bits word 31 16 == 0)) ||
    (off == 0x110 && bits word 7 0 == 0) || (off == 0x11C && bits word 15 0 == 0) || (off == 0x160 && grainBad s word)
  if bad then fltEvent s .memDev 1
  else if off = 0x100 then speedTarget word s
  else if off = 0x130 then
    mapLookup (wr s .memDev F.MEM_MAP_Q word)
  else storeWord .memDev off word s

/-- A write of a word of an HIF page (Table 15-8). -/
def hifWrite (p : Page) (off word : Nat) (s : State) : State :=
  match p with
  | .hifDev =>
    if off = 0x104 then mapWrite (bankOwnWrite false word) s
    else if off = 0x108 then mapWrite (bankOwnWrite true word) s
    else if off = 0x10C then mapWrite (quotaWrite word) s
    else storeWord p off word s
  | .hifPart n => if off = 0x104 then winWrite n word s else storeWord p off word s
  | _ => s

/-- A write of a word of BAR4 of port n (Table 15-9). -/
def bar4Write (n off word : Nat) (s : State) : State :=
  let p := Page.bar4 n
  if off = 0x8000 then doorbell n word s
  else if off = 0x800C then rspConsWrite n word s
  else if 0x10000 ≤ off ∧ off < 0x10400 then
    let d := (off - 0x10000) / 0x100
    match off % 0x100 with
    | 0x00 => descCtrl n d word s
    | 0x14 => descProd n d word s
    | 0x20 => descCplCons n d word s
    | _ => storeWord p off word s
  else if 0x20000 ≤ off ∧ off < 0x21000 then
    let r := (off - 0x20000) / 0x100
    match off % 0x100 with
    | 0x00 => ringCtrl n r word s
    | 0x04 => if ringBound s n r then fltEvent s (.hifPart n) 1 else storeWord p off word s
    | 0x08 => if ringBound s n r then fltEvent s (.hifPart n) 1 else storeWord p off word s
    | 0x0C => if ringBound s n r then fltEvent s (.hifPart n) 1 else storeWord p off word s
    | 0x30 => fetchPush n r (bits word 22 0) s
    | _ => storeWord p off word s
  else if 0xF0000 ≤ off ∧ off < 0xF1000 ∧ off % 16 = 12 then
    let v := (off - 0xF0000) / 16
    let was := vectorMasked s n v
    let s := storeWord p off word s
    if was && !word.testBit 0 then msixUnmask n v s else s
  else storeWord p off word s

/-- A write of a word of the LCS page (Table 20-8). -/
def lcsWrite (off word : Nat) (s : State) : State :=
  if off = 0x118 then fuseSelect word s else if off = 0x150 then attestWrite word s else storeWord .lcs off word s

/-- A write of a word of the PTB page (Table 20-9). -/
def ptbWrite (off word : Nat) (s : State) : State :=
  if 0x110 ≤ off ∧ off < 0x210 then ptbSlot ((off - 0x110) / 16) (off % 16 / 4) word s else storeWord .ptb off word s

/-- A word of the recovery function's buffer (R483). -/
def bufferPut (k word : Nat) (s : State) : State := { s with boot := { s.boot with buffer := tabPut 0 s.boot.buffer k word } }

/-- Bits [11:0] of the last word written to `BOOT_UPD_SRC_LO`: an image whose address is not a multiple of 4 KiB is refused (R482). -/
def srcAlign (v : Nat) (s : State) : State := { s with boot := { s.boot with srcLow := v } }

/-- A write of one 32-bit word of a page, at an offset with no 64-bit and no CPL field. -/
def wordEffect (m : Nat) (p : Page) (off word : Nat) (meas : HoldMeas) (s : State) : State :=
  match p with
  | .bar4 n => bar4Write n off word s
  | .recov =>
    if off = 0x10 then recCmd (word % 8) s
    else if 0x8000 ≤ off then bufferPut ((off - 0x8000) / 4) word s
    else storeWord .recov off word s
  | _ =>
    if inHeader off then headerWrite m p off word s
    else match p with
      | .timDev => timWrite m 0 off word meas s
      | .timPart n => timWrite m (1 + n) off word meas s
      | .timPulse q => pulseWrite q off word s
      | .disDev => disWrite off word s
      | .bnk b => bankWrite m b off word s
      | .cmpPart n => cmpWrite n off word s
      | .au u => auWrite m u off word s
      | .memDev => memWrite off word s
      | .mgtDev => if off = 0x110 then evlogIdx m word s else if off = 0x134 then evlog s 12 1 0 0 (word % 2 ^ 16) else storeWord p off word s
      | .pwrDev => if off = 0x118 ∧ 1000000000 ≤ word then fltEvent s p 1 else storeWord p off word s
      | .boot =>
        if off = 0x12C then whenS (fwRuns s) (updCmd word) s
        else if off = 0x114 ∧ (word % 16 < 1 ∨ 8 < word % 16) then fltEvent s p 1
        else if off = 0x120 then storeWord p off word (srcAlign (word % 4096) s)
        else storeWord p off word s
      | .lcs => lcsWrite off word s
      | .ptb => ptbWrite off word s
      | .tlkCtl => tlkWrite p off word s | .tlkPort _ => tlkWrite p off word s | .tlkLane _ => tlkWrite p off word s
      | .acqDev => acqWrite p off word s | .acqTo _ => acqWrite p off word s
      | .calDev => calWrite p off word s | .calPart _ => calWrite p off word s
      | .hifDev => hifWrite p off word s | .hifPart _ => hifWrite p off word s
      | _ => storeWord p off word s

/-! ### 64-bit fields (R435, R436) -/

/-- Bits [5:0] of the last value written to a ring's `RING_FETCH_ADDR`. -/
def fetchAlign (k v : Nat) (s : State) : State := { s with hif := { s.hif with fetchLow := tabPut 0 s.hif.fetchLow k v } }

/-- A write of both words of a 64-bit field in one cycle. -/
def wideEffect (m : Nat) (p : Page) (f : Fld) (a : Acc) (raw : Nat) (s : State) : State :=
  let v := (raw >>> f.lo) % 2 ^ f.width
  match p with
  | .cmpPart n => if f = F.CMP_LED_RCNT then ledgerRcntEffect n v s else storeValue p f a v s
  | .bnk b =>
    if f = F.BNK_PEC_TX_VN ∧ pecBank s (b / 2) ≠ b then s
    else if f = F.ACQ_C_RCNT then acqRcntEffect b v s else if f = F.EDG_SR_RCNT then stampRcntEffect b v s else storeValue p f a v s
  | .au u => auGuard m u true true (storeValue p f a v) s
  | .bar4 n =>
    if 0x20000 ≤ f.off then
      let r := (f.off - 0x20000) / 0x100
      if f = F.RING_WR r then ringWrWrite n r v s
      else if f = F.RING_FETCH_ADDR r then
        fetchAlign (16 * n + r) (raw % 64) (storeValue p f a v s)
      else storeValue p f a v s
    else if rdb s p (F.DESC_CTRL_EN ((f.off - 0x10000) / 0x100)) then fltEvent s (.hifPart n) 1
    else storeValue p f a v s
  | _ => storeValue p f a v s

/-- A write of one word of a 64-bit field (R436), with the master's write shadow as it stood before the write: the low word goes to the shadow; the high word writes
both words where the shadow is tagged with the field, and is discarded with BAD_ACCESS otherwise. -/
def halfWrite (m : Nat) (p : Page) (x : Fld × RegRow) (off word : Nat) (shadow : Option (Nat × Nat)) (s : State) : State :=
  if off = x.1.off then { s with mgt := { s.mgt with wrShadow := tabIns s.mgt.wrShadow m (pageBase p + off, word) } }
  else match shadow with
    | some (a, low) => if a = pageBase p + x.1.off then wideEffect m p x.1 x.2.acc (word * 2 ^ 32 + low) s else badAccess s m
    | none => badAccess s m

/-! ### Complement pairs (R431, R432) -/

/-- What a completed pair does with V, by the field. -/
def pairEffect (m : Nat) (p : Page) (off v : Nat) (s : State) : State :=
  match p with
  | .tlkCtl => tlkMapEffect v s
  | .bnk b =>
    if off = F.BNK_SPARE_PIN.off then wrs s (.bnk b) [(F.BNK_SPARE_PIN, bits v 3 0), (F.BNK_SPARE_VALID, bits v 4 4)]
    else wrs s (.bnk b) [(F.EDG_SPARE_PIN, bits v 3 0), (F.EDG_SPARE_VALID, bits v 4 4)]
  | .au _ => wrs s (.au 16) [(F.AU_SPARE_UNIT, bits v 3 0), (F.AU_SPARE_VALID, bits v 4 4)]
  | .pwrDev => ilimEffect v s
  | .lcs => if off = F.LCS_TRANS_TARGET.off then transRequest m v s else if off = F.LCS_FUSE_CMD_PROG.off then fuseProgram v s else propControl v s
  | .ptb => ptbUnlockEffect v s
  | _ => s

/-! ### Writes by address -/

/-- Who may write at an offset of a page (R424, R428). -/
def mayWriteAt (s : State) (m : Nat) (p : Page) (off : Nat) : Bool :=
  match entryBank p off with
  | some b => ownsEntry s m b
  | none =>
    match p with
    | .bnk _ => if off = F.BNK_PEC_CFG_EN.off then ownsPage s m p || isPriv s m else mayWrite s m p (wordPrv p off)
    | _ => mayWrite s m p (wordPrv p off)

/-- A write of a word stores in its register (R430): not the low word of a 64-bit field, which goes to the shadow, and not the code 3 that `FLT_ACTION` does not take. -/
def wordStores (p : Page) (off word : Nat) : Bool :=
  match wideAt p off with
  | some x => off != x.1.off
  | none => !(off == 0x3C && word % 4 == 3)

/-- A write that reaches no register, at an address: counted, but until READY is set only where a host is served, and elsewhere ignored (R402, R422, R481); it is a write to its
page all the same (R436). -/
def badWrite (m a : Nat) (s : State) : State :=
  match locate m a with
  | some (p, off) => if hostServed s m p off then badAccess (voidShadow m p s) m else s
  | none => badPlace m s

/-- A write of a 4-byte word at an address (R402, R422, R428, R431, R436). -/
def regWrite (m a word : Nat) (meas : HoldMeas) (s : State) : State :=
  match locate m a with
  | none => badWrite m a s
  | some (p, off) =>
    if off % 4 ≠ 0 then badWrite m a s
    else if isCpl p off then accessFor false s m p off (mayWrite s m p true) (pairOpen m p off word)
    else if 0x800 ≤ off && isCpl p (off - 0x800) then pairComplete m p (off - 0x800) word (pairEffect m p (off - 0x800)) s
    else
      let shadow := tabFind s.mgt.wrShadow m
      accessFor (wordStores p off word) s m p off (mayWriteAt s m p off) fun s =>
        match wideAt p off with
        | some x => halfWrite m p x off word shadow s
        | none => wordEffect m p off word meas s

/-- A request is longer than 8 bytes or crosses an 8-byte boundary (R402). -/
def tooLong (a len : Nat) : Bool := decide (8 < a % 8 + len)

/-- A request is answered with Completer Abort and counted (R402). -/
def abortAccess (m : Nat) (s : State) : State := emit (badAccess s m) (.completerAbort m)

/-- An aligned 8-byte write (R436): both words of a 64-bit field that begins there in one cycle; otherwise each word as it is, the lower first. -/
def regWrite8 (m a word : Nat) (meas : HoldMeas) (s : State) : State :=
  let both (s : State) : State := regWrite m (a + 4) (word / 2 ^ 32) meas (regWrite m a (word % 2 ^ 32) meas s)
  match locate m a with
  | none => badWrite m a s
  | some (p, off) =>
    match wideAt p off with
    | some x => if off = x.1.off then accessIf s m p off (mayWriteAt s m p off) (wideEffect m p x.1 x.2.acc word) else both s
    | none => both s

/-- A write request of len bytes with byte enables (R402): 4 bytes aligned to 4 or 8 aligned to 8 with every byte enabled; any other within 8 bytes is discarded and
counted. -/
def writeRequest (m a len be word : Nat) (meas : HoldMeas) (s : State) : State :=
  if tooLong a len then abortAccess m s
  else if be ≠ 2 ^ len - 1 then badWrite m a s
  else if len = 4 ∧ a % 4 = 0 then regWrite m a (word % 2 ^ 32) meas s
  else if len = 8 then regWrite8 m a word meas s
  else badWrite m a s

/-- REGISTER_WRITE (R402, R428): a write to a register by a master; `meas` is what the device measures of its reference where the write makes it enter holdover. -/
def execRegisterWrite (m addr len be word : Nat) (meas : HoldMeas) (s : State) : Host.Outcome State Fault Refusal := .next (takeIn m (.registerWrite m addr len be word meas) false (writeRequest m addr len be word meas) s)

/-- COMPLEMENT_PAIR_OPEN (R431, R432): the first write of a pair. -/
def execComplementPairOpen (m addr v : Nat) (s : State) : Host.Outcome State Fault Refusal :=
  .next (takeIn m (.complementPairOpen m addr v) false (fun s => match locate m addr with
    | some (p, off) => if isCpl p off then accessFor false s m p off (mayWrite s m p true) (pairOpen m p off v) else s
    | none => badWrite m addr s) s)

/-- CPL_PAIR_TIMEOUT (R432): cycle 64 after the first write ends with no complement accepted. -/
def execCplPairTimeout (m addr : Nat) (s : State) : Host.Outcome State Fault Refusal :=
  .next (match locate m addr with
    | some (p, off) => if (openPair s m p off).isSome then cplErr (dropPair s m p off) p else s
    | none => s)

/-- A write of a word of a 64-bit field at an address. -/
def wideWrite (m a word : Nat) (low : Bool) (s : State) : State :=
  match locate m a with
  | none => badWrite m a s
  | some (p, off) =>
    match wideAt p off with
    | some x =>
      if (off == x.1.off) == low then
        let shadow := tabFind s.mgt.wrShadow m
        accessFor (wordStores p off word) s m p off (mayWriteAt s m p off) (halfWrite m p x off word shadow)
      else s
    | none => s

/-- LOW_WORD_WRITE (R436): only the low word of a writable 64-bit field. -/
def execLowWordWrite (m addr v : Nat) (s : State) : Host.Outcome State Fault Refusal := .next (takeIn m (.lowWordWrite m addr v) false (wideWrite m addr v true) s)

/-- HIGH_WORD_WRITE (R436): only the high word of a writable 64-bit field. -/
def execHighWordWrite (m addr v : Nat) (s : State) : Host.Outcome State Fault Refusal := .next (takeIn m (.highWordWrite m addr v) false (wideWrite m addr v false) s)

/-- LOCK_WRITE (R437): bit 0 sets `LOCK`, in the page at an address; a bit already set stays set. -/
def execLockWrite (m addr word : Nat) (s : State) : Host.Outcome State Fault Refusal :=
  .next (takeIn m (.lockWrite m addr word) false (fun s => match pageOfAddr addr with
    | some (p, _) => asWriter s m p F.LOCK.off false (storeWord p F.LOCK.off word)
    | none => badPlace m s) s)

/-! ### Reads by address -/

/-- The 64-bit field of which a word is part; `CAL_C_TIME_LO` and `CAL_C_TIME_HI` read as one (R363). -/
def wideRead (p : Page) (off : Nat) : Option Fld :=
  if p = .calDev && decide (0x128 ≤ off) && decide (off < 0x150) && decide (8 ≤ off % 16) then some (F.CAL_C_TIME_LO ((off - 0x120) / 16))
  else ((fieldsAt p off).find? fun x => decide (32 < x.1.lo + x.1.width)).map (·.1)

/-- The fields of a word that a read clears, cleared where the master may read them (RC). -/
def clearRead (m : Nat) (p : Page) (off : Nat) (s : State) : State :=
  forS (fieldsAt p off) (fun x s => if x.2.acc == .rc && mayReadAt s m p off x.2.prv then wr s p x.1 0 else s) s

/-- A plain read of a word (R428, R436): the low word of a 64-bit field latches the high word of the same cycle for the master; the high word is answered from the
shadow where it is tagged with the field. `EDG_FC_T` has a wider latch (R318), and leaves the shadow unchanged. -/
def plainRead (m : Nat) (p : Page) (off : Nat) (s : State) : State :=
  match wideRead p off with
  | none => clearRead m p off (emit s (.read m (readWord s m p off)))
  | some f =>
    let latch := match p with | .bnk b => 0x4100 ≤ f.off && (tabFind s.pin.fcLatch (m * 256 + 16 * b + entryOf f 0x4100 0x40)).isSome && f = F.EDG_FC_T (entryOf f 0x4100 0x40) | _ => false
    let tag := pageBase p + f.off
    if latch then emit s (.read m (readWord s m p off))
    else if off = f.off then
      { emit s (.read m (readWord s m p off)) with mgt := { s.mgt with rdShadow := tabIns s.mgt.rdShadow m (tag, readWord s m p (off + 4)) } }
    else match tabFind s.mgt.rdShadow m with
      | some (a, high) => emit s (.read m (if a = tag && mayReadAt s m p off false then high else readWord s m p off))
      | none => emit s (.read m (readWord s m p off))

/-- A read of a word of a page. -/
def pageRead (m : Nat) (p : Page) (off : Nat) (s : State) : State :=
  match p with
  | .timDev => if off = 0x120 then snapshotEffect m (.base 0) s else plainRead m p off s
  | .timPart n =>
    if off = 0x120 then snapshotEffect m (.base (1 + n)) s
    else if off = 0x160 then snapshotEffect m (.mirror n) s
    else if off = 0x170 ∨ off = 0x178 then
      { emit s (.read m (readWord s m p off)) with mgt := { s.mgt with rdShadow := tabIns s.mgt.rdShadow m (pageBase p + off, readWord s m p (off + 4)) } }
    else if off = 0x174 ∨ off = 0x17C then
      match tabFind s.mgt.rdShadow m with
      | some (a, high) => emit s (.read m (if a = pageBase p + off - 4 && mayRead s m p off false then high else readWord s m p off))
      | none => emit s (.read m (readWord s m p off))
    else if 0x400 ≤ off ∧ off < 0xC00 ∧ off % 0x20 = 0 then
      let i := (off - 0x400) / 0x20
      if (siteOf s i).owner = some n then snapshotEffect m (.epoch n i) s else emit s (.read m 0)
    else plainRead m p off s
  | .disDev => if off = 0x108 then poolRead m s else plainRead m p off s
  | .tlkLane l => if off = 0x110 then prbsErrRead m l 0 s else plainRead m p off s
  | .bnk b =>
    if off = 0x624 then pecPop m b s
    else if 0x4100 ≤ off ∧ off < 0x4500 ∧ off % 64 = 0x10 then fcNRead m (16 * b + (off - 0x4100) / 64) s
    else if 0x4100 ≤ off ∧ off < 0x4500 ∧ off % 64 = 0x38 then edgLostRead m (16 * b + (off - 0x4100) / 64) s
    else plainRead m p off s
  | _ => plainRead m p off s

/-- A read of a 4-byte word at an address (R402, R422, R436); outside every page it returns zero. -/
def regRead (m a : Nat) (s : State) : State :=
  match locate m a with
  | none => emit s (.read m 0)
  | some (p, off) => pageRead m p (off / 4 * 4) s

/-- A 64-bit field has a latch of its own in place of the read shadow (R48, R318). -/
def ownLatch (p : Page) (off : Nat) : Bool :=
  match p with
  | .timDev => off == 0x120
  | .timPart _ => off == 0x120 || off == 0x160 || (decide (0x400 ≤ off) && decide (off < 0xC00) && decide (off % 0x20 < 0x10))
  | .bnk _ => decide (0x4100 ≤ off) && decide (off < 0x4500)
  | _ => false

/-- A 64-bit field without a latch of its own begins at an offset: a register row's, or a mirror of `TLK_P_OFFSET` or `TLK_P_MPD` in a TIM partition page (R63). -/
def wholeRead (p : Page) (off : Nat) : Bool :=
  match p with
  | .timPart _ => off == 0x170 || off == 0x178 || ((wideRead p off).map (·.off) == some off && !ownLatch p off)
  | _ => (wideRead p off).map (·.off) == some off && !ownLatch p off

/-- An aligned 8-byte read (R436): both words of a 64-bit field that begins there from one cycle, with the shadow unchanged; otherwise each word as it is, the lower
first. -/
def regRead8 (m a : Nat) (s : State) : State :=
  let both (s : State) : State := regRead m (a + 4) (regRead m a s)
  match locate m a with
  | none => emit s (.read m 0)
  | some (p, off) =>
    if wholeRead p off then emit s (.read m (readWord s m p off + 2 ^ 32 * readWord s m p (off + 4))) else both s

/-- A read of fewer bytes than a dword clears no RC field that it does not cover (R429). -/
def uncovered (p : Page) (off lo n : Nat) : Bool :=
  (fieldsAt p off).any fun x => x.2.acc == .rc && !(decide (8 * lo ≤ x.1.lo) && decide (x.1.lo + x.1.width ≤ 8 * (lo + n)))

/-- The answers sent between s and t, each cut by f. -/
def cutAnswers (f : Nat → Nat) (s t : State) : State :=
  { t with out := s.out ++ (t.out.drop s.out.length).map fun o => match o with | .read k v => .read k (f v) | o => o }

/-- A read of n bytes from byte lo of the aligned dword at an address (R402). -/
def narrowRead (m a lo n : Nat) (s : State) : State :=
  let cut (v : Nat) : Nat := v / 2 ^ (8 * lo) % 2 ^ (8 * n)
  match locate m a with
  | none => emit s (.read m 0)
  | some (p, off) =>
    if uncovered p off lo n then emit s (.read m (cut (readWord s m p off)))
    else cutAnswers cut s (regRead m a s)

/-- A read of 5 to 7 bytes, or of fewer that lie in both dwords of 8 aligned bytes, from byte lo on (R402, R429): the bytes of a 64-bit field that begins there from one cycle,
otherwise those of each dword. -/
def spanRead (m a lo len : Nat) (s : State) : State :=
  let parts (s : State) : State := narrowRead m (a + 4) 0 (lo + len - 4) (narrowRead m a lo (4 - lo) s)
  match locate m a with
  | none => emit s (.read m 0)
  | some (p, off) =>
    if wholeRead p off then emit s (.read m ((readWord s m p off + 2 ^ 32 * readWord s m p (off + 4)) / 2 ^ (8 * lo) % 2 ^ (8 * len))) else parts s

/-- A read request of len bytes (R402): 4 bytes aligned to 4 or 8 aligned to 8; fewer return those bytes of the aligned dword. -/
def readRequest (m a len : Nat) (s : State) : State :=
  if tooLong a len then abortAccess m s
  else if len = 4 ∧ a % 4 = 0 then regRead m a s
  else if len = 8 then regRead8 m a s
  else if 4 < a % 4 + len then spanRead m (a / 8 * 8) (a % 8) len s
  else narrowRead m (a / 4 * 4) (a % 4) len s

/-- LOW_WORD_READ (R402, R436): a read by a master; of the low word of a 64-bit field, it latches the high word. -/
def execLowWordRead (m addr len : Nat) (s : State) : Host.Outcome State Fault Refusal := .next (takeIn m (.lowWordRead m addr len) false (readRequest m addr len) s)

end Sys2Proof.Machine
end

