-- ==== Sys2Proof/Machine/Dispatch.lean ====
section
/-! DEFINITION. The meaning of each command: one arm per constructor of `Instr`. -/

namespace Sys2Proof.Machine

open Sys2Proof

/-- The effect of a command on everything but the queue. -/
def exec (i : Instr) (s : State) : Host.Outcome State Fault Refusal :=
  match i with
  | .refLoss src meas => Sys2Proof.Machine.execRefLoss src meas s
  | .xtalFail => Sys2Proof.Machine.execXtalFail s
  | .sourceQualified src => Sys2Proof.Machine.execSourceQualified src s
  | .refSelectWrite m word meas => Sys2Proof.Machine.execRefSelectWrite m word meas s
  | .refSlewDone => Sys2Proof.Machine.execRefSlewDone s
  | .holdEstUpdate => Sys2Proof.Machine.execHoldEstUpdate s
  | .timeBaseTick b => Sys2Proof.Machine.execTimeBaseTick b s
  | .incGo m b word => Sys2Proof.Machine.execIncGo m b word s
  | .adjGo m b word => Sys2Proof.Machine.execAdjGo m b word s
  | .setGo m b word => Sys2Proof.Machine.execSetGo m b word s
  | .timeCommandApply b => Sys2Proof.Machine.execTimeCommandApply b s
  | .timeSnapshotRead m tv => Sys2Proof.Machine.execTimeSnapshotRead m tv s
  | .driftUpdate site => Sys2Proof.Machine.execDriftUpdate site s
  | .headgateOpen site onTime => Sys2Proof.Machine.execHeadgateOpen site onTime s
  | .tpArmOnce m p tbsel pol => Sys2Proof.Machine.execTpArmOnce m p tbsel pol s
  | .tpArmPeriodic m p tbsel pol => Sys2Proof.Machine.execTpArmPeriodic m p tbsel pol s
  | .tpDisarm m p tbsel pol => Sys2Proof.Machine.execTpDisarm m p tbsel pol s
  | .tpOwnerWrite m word => Sys2Proof.Machine.execTpOwnerWrite m word s
  | .tpFired p => Sys2Proof.Machine.execTpFired p s
  | .tpWidthEnd p => Sys2Proof.Machine.execTpWidthEnd p s
  | .linkEnable m port dm nopartFlt => Sys2Proof.Machine.execLinkEnable m port dm nopartFlt s
  | .linkDisable m port dm nopartFlt => Sys2Proof.Machine.execLinkDisable m port dm nopartFlt s
  | .blockLock l => Sys2Proof.Machine.execBlockLock l s
  | .noPartner port => Sys2Proof.Machine.execNoPartner port s
  | .adaptRestart port => Sys2Proof.Machine.execAdaptRestart port s
  | .lockLoss l => Sys2Proof.Machine.execLockLoss l s
  | .hiBer l => Sys2Proof.Machine.execHiBer l s
  | .hiBerClear l => Sys2Proof.Machine.execHiBerClear l s
  | .txeqWrite m l word => Sys2Proof.Machine.execTxeqWrite m l word s
  | .adaptFreeze l density => Sys2Proof.Machine.execAdaptFreeze l density s
  | .adaptResume l density => Sys2Proof.Machine.execAdaptResume l density s
  | .rxPreset m l freeze => Sys2Proof.Machine.execRxPreset m l freeze s
  | .prbsGenEn m l word => Sys2Proof.Machine.execPrbsGenEn m l word s
  | .prbsChkEn m l word => Sys2Proof.Machine.execPrbsChkEn m l word s
  | .injOne m l word => Sys2Proof.Machine.execInjOne m l word s
  | .injRate m l word => Sys2Proof.Machine.execInjRate m l word s
  | .prbsErrRead m l errs => Sys2Proof.Machine.execPrbsErrRead m l errs s
  | .frameReceive port f => Sys2Proof.Machine.execFrameReceive port f s
  | .sync port msg => Sys2Proof.Machine.execSync port msg s
  | .followUp port msg => Sys2Proof.Machine.execFollowUp port msg s
  | .delayReq port msg => Sys2Proof.Machine.execDelayReq port msg s
  | .delayResp port msg => Sys2Proof.Machine.execDelayResp port msg s
  | .pdelayReq port msg txAt => Sys2Proof.Machine.execPdelayReq port msg txAt s
  | .pdelayResp port msg => Sys2Proof.Machine.execPdelayResp port msg s
  | .pdelayRespFollowUp port msg => Sys2Proof.Machine.execPdelayRespFollowUp port msg s
  | .announce port gm steps => Sys2Proof.Machine.execAnnounce port gm steps s
  | .syncTransmit port sentAt => Sys2Proof.Machine.execSyncTransmit port sentAt s
  | .announceTransmit port => Sys2Proof.Machine.execAnnounceTransmit port s
  | .delayReqTransmit port sentAt => Sys2Proof.Machine.execDelayReqTransmit port sentAt s
  | .pdelayReqTransmit port sentAt => Sys2Proof.Machine.execPdelayReqTransmit port sentAt s
  | .announceReceiptTimeout => Sys2Proof.Machine.execAnnounceReceiptTimeout s
  | .syncReceiptTimeout => Sys2Proof.Machine.execSyncReceiptTimeout s
  | .tlkMapWrite m comp => Sys2Proof.Machine.execTlkMapWrite m comp s
  | .siteDefine p => Sys2Proof.Machine.execSiteDefine p s
  | .siteDelete p => Sys2Proof.Machine.execSiteDelete p s
  | .palLoad p => Sys2Proof.Machine.execPalLoad p s
  | .run p => Sys2Proof.Machine.execRun p s
  | .runDeferredStart site => Sys2Proof.Machine.execRunDeferredStart site s
  | .halt p => Sys2Proof.Machine.execHalt p s
  | .clear p => Sys2Proof.Machine.execClear p s
  | .status p => Sys2Proof.Machine.execStatus p s
  | .mailboxDoorbell p v => Sys2Proof.Machine.execMailboxDoorbell p v s
  | .mbxRspConsWrite p v => Sys2Proof.Machine.execMbxRspConsWrite p v s
  | .jumpRequest m n k word => Sys2Proof.Machine.execJumpRequest m n k word s
  | .triginEdge n => Sys2Proof.Machine.execTriginEdge n s
  | .entryFetch site upset => Sys2Proof.Machine.execEntryFetch site upset s
  | .resumePositionArrival site => Sys2Proof.Machine.execResumePositionArrival site s
  | .siteStepBroadcast quad => Sys2Proof.Machine.execSiteStepBroadcast quad s
  | .vectorPeriod quad k => Sys2Proof.Machine.execVectorPeriod quad k s
  | .stopAtBoundary site => Sys2Proof.Machine.execStopAtBoundary site s
  | .furrowClear quad => Sys2Proof.Machine.execFurrowClear quad s
  | .nop e => Sys2Proof.Machine.execNop e s
  | .vec e => Sys2Proof.Machine.execVec e s
  | .vecLoad e => Sys2Proof.Machine.execVecLoad e s
  | .veci e => Sys2Proof.Machine.execVeci e s
  | .rpt e => Sys2Proof.Machine.execRpt e s
  | .fill e => Sys2Proof.Machine.execFill e s
  | .pal e => Sys2Proof.Machine.execPal e s
  | .stream e => Sys2Proof.Machine.execStream e s
  | .ringDataResume e => Sys2Proof.Machine.execRingDataResume e s
  | .scan e => Sys2Proof.Machine.execScan e s
  | .loop e => Sys2Proof.Machine.execLoop e s
  | .endl e => Sys2Proof.Machine.execEndl e s
  | .call e => Sys2Proof.Machine.execCall e s
  | .ret e => Sys2Proof.Machine.execRet e s
  | .jmp e => Sys2Proof.Machine.execJmp e s
  | .seg e => Sys2Proof.Machine.execSeg e s
  | .alt e => Sys2Proof.Machine.execAlt e s
  | .mark e => Sys2Proof.Machine.execMark e s
  | .match e => Sys2Proof.Machine.execMatch e s
  | .waitt e => Sys2Proof.Machine.execWaitt e s
  | .trig e => Sys2Proof.Machine.execTrig e s
  | .label e => Sys2Proof.Machine.execLabel e s
  | .flag e => Sys2Proof.Machine.execFlag e s
  | .haltInstruction e => Sys2Proof.Machine.execHaltInstruction e s
  | .firmwareSubmission raw => Sys2Proof.Machine.execFirmwareSubmission raw s
  | .descCtrlWrite n d word => Sys2Proof.Machine.execDescCtrlWrite n d word s
  | .descProdWrite n d v => Sys2Proof.Machine.execDescProdWrite n d v s
  | .descriptorFetch n d raw => Sys2Proof.Machine.execDescriptorFetch n d raw s
  | .descCplConsWrite n d v => Sys2Proof.Machine.execDescCplConsWrite n d v s
  | .dispatchDecision => Sys2Proof.Machine.execDispatchDecision s
  | .caravanHandover ok => Sys2Proof.Machine.execCaravanHandover ok s
  | .caravanCommit e => Sys2Proof.Machine.execCaravanCommit e s
  | .retiringExit => Sys2Proof.Machine.execRetiringExit s
  | .machineCheck e cause => Sys2Proof.Machine.execMachineCheck e cause s
  | .mcHang e => Sys2Proof.Machine.execMcHang e s
  | .csRewriteDone k => Sys2Proof.Machine.execCsRewriteDone k s
  | .poolCountRead m => Sys2Proof.Machine.execPoolCountRead m s
  | .disShareWrite m word => Sys2Proof.Machine.execDisShareWrite m word s
  | .sluiceGrant b => Sys2Proof.Machine.execSluiceGrant b s
  | .pointerQueueTransfer quad toWriteSide => Sys2Proof.Machine.execPointerQueueTransfer quad toWriteSide s
  | .matchDecision site => Sys2Proof.Machine.execMatchDecision site s
  | .dwellEnd site => Sys2Proof.Machine.execDwellEnd site s
  | .modeChange m b mode => Sys2Proof.Machine.execModeChange m b mode s
  | .modeChangeEnd b => Sys2Proof.Machine.execModeChangeEnd b s
  | .tsLoad m b word => Sys2Proof.Machine.execTsLoad m b word s
  | .tsRead m b word => Sys2Proof.Machine.execTsRead m b word s
  | .tsDone b => Sys2Proof.Machine.execTsDone b s
  | .followWrite m b word => Sys2Proof.Machine.execFollowWrite m b word s
  | .followedEdge b => Sys2Proof.Machine.execFollowedEdge b s
  | .followHold b => Sys2Proof.Machine.execFollowHold b s
  | .pinTxeqWrite m b j word => Sys2Proof.Machine.execPinTxeqWrite m b j word s
  | .pecTxPush m b word => Sys2Proof.Machine.execPecTxPush m b word s
  | .pecTransferStart n => Sys2Proof.Machine.execPecTransferStart n s
  | .pecTransferEnd n miso => Sys2Proof.Machine.execPecTransferEnd n miso s
  | .pecRxPop m b => Sys2Proof.Machine.execPecRxPop m b s
  | .pecCfgWrite m b word => Sys2Proof.Machine.execPecCfgWrite m b word s
  | .bnkSpareWrite m b comp => Sys2Proof.Machine.execBnkSpareWrite m b comp s
  | .spareSubstitution kind inst => Sys2Proof.Machine.execSpareSubstitution kind inst s
  | .strobeJudge p level dev => Sys2Proof.Machine.execStrobeJudge p level dev s
  | .siteFailDelivery k => Sys2Proof.Machine.execSiteFailDelivery k s
  | .ledgerDrain n cycles => Sys2Proof.Machine.execLedgerDrain n cycles s
  | .ledgerWriteAck n => Sys2Proof.Machine.execLedgerWriteAck n s
  | .ledgerCtrlWrite m n word => Sys2Proof.Machine.execLedgerCtrlWrite m n word s
  | .ledgerRcntWrite m n v => Sys2Proof.Machine.execLedgerRcntWrite m n v s
  | .ledRateWrite m n word => Sys2Proof.Machine.execLedRateWrite m n word s
  | .pinFcntWrite m p v => Sys2Proof.Machine.execPinFcntWrite m p v s
  | .acqArm m b word => Sys2Proof.Machine.execAcqArm m b word s
  | .acqDisarm m b word => Sys2Proof.Machine.execAcqDisarm m b word s
  | .acqForce m b word => Sys2Proof.Machine.execAcqForce m b word s
  | .acqAutoTrigger b => Sys2Proof.Machine.execAcqAutoTrigger b s
  | .acqWriterDrain b n => Sys2Proof.Machine.execAcqWriterDrain b n s
  | .recordDone b => Sys2Proof.Machine.execRecordDone b s
  | .acqRearmEnd b => Sys2Proof.Machine.execAcqRearmEnd b s
  | .acqRcntWrite m b v => Sys2Proof.Machine.execAcqRcntWrite m b v s
  | .maskWrite m b j idx word => Sys2Proof.Machine.execMaskWrite m b j idx word s
  | .maskViolation b j vn => Sys2Proof.Machine.execMaskViolation b j vn s
  | .trigoutOwnerWrite m word => Sys2Proof.Machine.execTrigoutOwnerWrite m word s
  | .trigoutWidthEnd t => Sys2Proof.Machine.execTrigoutWidthEnd t s
  | .converterEdge p t cml rising merge held => Sys2Proof.Machine.execConverterEdge p t cml rising merge held s
  | .stampCreditRefill p => Sys2Proof.Machine.execStampCreditRefill p s
  | .eraMarker b site => Sys2Proof.Machine.execEraMarker b site s
  | .stampRingWrite b => Sys2Proof.Machine.execStampRingWrite b s
  | .stampRingCtrlWrite m b word => Sys2Proof.Machine.execStampRingCtrlWrite m b word s
  | .stampRingRcntWrite m b v => Sys2Proof.Machine.execStampRingRcntWrite m b v s
  | .edgPinCfgWrite m p word => Sys2Proof.Machine.execEdgPinCfgWrite m p word s
  | .fcDone p => Sys2Proof.Machine.execFcDone p s
  | .fcNRead m p => Sys2Proof.Machine.execFcNRead m p s
  | .edgLostRead m p => Sys2Proof.Machine.execEdgLostRead m p s
  | .edgSpareWrite m b comp => Sys2Proof.Machine.execEdgSpareWrite m b comp s
  | .auAssignWrite m u word => Sys2Proof.Machine.execAuAssignWrite m u word s
  | .auClearDone u => Sys2Proof.Machine.execAuClearDone u s
  | .auGo m u word => Sys2Proof.Machine.execAuGo m u word s
  | .auHalt m u word => Sys2Proof.Machine.execAuHalt m u word s
  | .auReset m u word => Sys2Proof.Machine.execAuReset m u word s
  | .auDoorbell m u word => Sys2Proof.Machine.execAuDoorbell m u word s
  | .auInterrupt u => Sys2Proof.Machine.execAuInterrupt u s
  | .auDataWindowRead m u idx bad => Sys2Proof.Machine.execAuDataWindowRead m u idx bad s
  | .auNop u up => Sys2Proof.Machine.execAuNop u up s
  | .cmac u up => Sys2Proof.Machine.execCmac u up s
  | .cmacx u up => Sys2Proof.Machine.execCmacx u up s
  | .rnd u up => Sys2Proof.Machine.execRnd u up s
  | .mva u up => Sys2Proof.Machine.execMva u up s
  | .ld u up => Sys2Proof.Machine.execLd u up s
  | .st u up => Sys2Proof.Machine.execSt u up s
  | .ldi u up => Sys2Proof.Machine.execLdi u up s
  | .alu u up => Sys2Proof.Machine.execAlu u up s
  | .addi u up => Sys2Proof.Machine.execAddi u up s
  | .lda u up => Sys2Proof.Machine.execLda u up s
  | .tapd u up waited => Sys2Proof.Machine.execTapd u up waited s
  | .br u up => Sys2Proof.Machine.execBr u up s
  | .auCall u up => Sys2Proof.Machine.execAuCall u up s
  | .auRet u up => Sys2Proof.Machine.execAuRet u up s
  | .reti u up => Sys2Proof.Machine.execReti u up s
  | .auRpt u up => Sys2Proof.Machine.execAuRpt u up s
  | .rptr u up => Sys2Proof.Machine.execRptr u up s
  | .rptb u up => Sys2Proof.Machine.execRptb u up s
  | .wait u up waited => Sys2Proof.Machine.execWait u up waited s
  | .auHaltInstruction u up => Sys2Proof.Machine.execAuHaltInstruction u up s
  | .sig u up => Sys2Proof.Machine.execSig u up s
  | .clrf u up => Sys2Proof.Machine.execClrf u up s
  | .auSpareWrite m comp => Sys2Proof.Machine.execAuSpareWrite m comp s
  | .auSubstDone => Sys2Proof.Machine.execAuSubstDone s
  | .calRequest m part word => Sys2Proof.Machine.execCalRequest m part word s
  | .calCancel m word => Sys2Proof.Machine.execCalCancel m word s
  | .calAutoRequest b => Sys2Proof.Machine.execCalAutoRequest b s
  | .calClassStart temp => Sys2Proof.Machine.execCalClassStart temp s
  | .calRunDone b meas => Sys2Proof.Machine.execCalRunDone b meas s
  | .calAbort b => Sys2Proof.Machine.execCalAbort b s
  | .calRecordWrite b ok => Sys2Proof.Machine.execCalRecordWrite b ok s
  | .memoryRequest r part addr len data now fails => Sys2Proof.Machine.execMemoryRequest r part addr len data now fails s
  | .memoryReadDone c now errs phy => Sys2Proof.Machine.execMemoryReadDone c now errs phy s
  | .memoryWriteAck c now errs phy => Sys2Proof.Machine.execMemoryWriteAck c now errs phy s
  | .stackTempRead t => Sys2Proof.Machine.execStackTempRead t s
  | .refreshTick c => Sys2Proof.Machine.execRefreshTick c s
  | .refreshUnit c => Sys2Proof.Machine.execRefreshUnit c s
  | .speedTargetWrite m word => Sys2Proof.Machine.execSpeedTargetWrite m word s
  | .speedChangeEntry command => Sys2Proof.Machine.execSpeedChangeEntry command s
  | .speedDone => Sys2Proof.Machine.execSpeedDone s
  | .scrubRead errs => Sys2Proof.Machine.execScrubRead errs s
  | .retirementStart h => Sys2Proof.Machine.execRetirementStart h s
  | .retirementDone bad row => Sys2Proof.Machine.execRetirementDone bad row s
  | .mapLookup m word => Sys2Proof.Machine.execMapLookup m word s
  | .mapLookupDone fails => Sys2Proof.Machine.execMapLookupDone fails s
  | .quotaWrite m word => Sys2Proof.Machine.execQuotaWrite m word s
  | .clearDone n => Sys2Proof.Machine.execClearDone n s
  | .bar2Write n x data ep => Sys2Proof.Machine.execBar2Write n x data ep s
  | .bar2Read n x len ue => Sys2Proof.Machine.execBar2Read n x len ue s
  | .bar2Resize n k => Sys2Proof.Machine.execBar2Resize n k s
  | .hifPWinWrite m n word => Sys2Proof.Machine.execHifPWinWrite m n word s
  | .bankOwnerChange m hi word => Sys2Proof.Machine.execBankOwnerChange m hi word s
  | .bankMoveDone b => Sys2Proof.Machine.execBankMoveDone b s
  | .ringCtrlWrite n r word => Sys2Proof.Machine.execRingCtrlWrite n r word s
  | .ringWrWrite n r v => Sys2Proof.Machine.execRingWrWrite n r v s
  | .ringFetchPush n r len => Sys2Proof.Machine.execRingFetchPush n r len s
  | .ringFetchStart n r => Sys2Proof.Machine.execRingFetchStart n r s
  | .ringFetchDone n r data => Sys2Proof.Machine.execRingFetchDone n r data s
  | .dmaErr n stream k => Sys2Proof.Machine.execDmaErr n stream k s
  | .msixUnmask n v => Sys2Proof.Machine.execMsixUnmask n v s
  | .intRawClear m addr word => Sys2Proof.Machine.execIntRawClear m addr word s
  | .intSetWrite m addr word => Sys2Proof.Machine.execIntSetWrite m addr word s
  | .partitionReset n cause => Sys2Proof.Machine.execPartitionReset n cause s
  | .partitionResetDone n => Sys2Proof.Machine.execPartitionResetDone n s
  | .pcieLinkTrainingStart pin => Sys2Proof.Machine.execPcieLinkTrainingStart pin s
  | .registerWrite m addr len be word meas => Sys2Proof.Machine.execRegisterWrite m addr len be word meas s
  | .complementPairOpen m addr v => Sys2Proof.Machine.execComplementPairOpen m addr v s
  | .cplPairTimeout m addr => Sys2Proof.Machine.execCplPairTimeout m addr s
  | .lowWordWrite m addr v => Sys2Proof.Machine.execLowWordWrite m addr v s
  | .highWordWrite m addr v => Sys2Proof.Machine.execHighWordWrite m addr v s
  | .lowWordRead m addr len => Sys2Proof.Machine.execLowWordRead m addr len s
  | .lockWrite m addr word => Sys2Proof.Machine.execLockWrite m addr word s
  | .parityScan addr upsets => Sys2Proof.Machine.execParityScan addr upsets s
  | .functionEnable m addr => Sys2Proof.Machine.execFunctionEnable m addr s
  | .functionDisable m addr => Sys2Proof.Machine.execFunctionDisable m addr s
  | .shutdownDone d => Sys2Proof.Machine.execShutdownDone d s
  | .startupDone d => Sys2Proof.Machine.execStartupDone d s
  | .graceExpiry addr c => Sys2Proof.Machine.execGraceExpiry addr c s
  | .blockResetDone addr => Sys2Proof.Machine.execBlockResetDone addr s
  | .faultClear m addr word => Sys2Proof.Machine.execFaultClear m addr word s
  | .fwWdog => Sys2Proof.Machine.execFwWdog s
  | .evlogIdxWrite m word => Sys2Proof.Machine.execEvlogIdxWrite m word s
  | .evlogMark m word => Sys2Proof.Machine.execEvlogMark m word s
  | .powerOnReset vin hbmKept => Sys2Proof.Machine.execPowerOnReset vin hbmKept s
  | .brownOut => Sys2Proof.Machine.execBrownOut s
  | .vinRestore => Sys2Proof.Machine.execVinRestore s
  | .junctionOvertemp t => Sys2Proof.Machine.execJunctionOvertemp t s
  | .overcurrent k => Sys2Proof.Machine.execOvercurrent k s
  | .vinLow mv => Sys2Proof.Machine.execVinLow mv s
  | .regFault => Sys2Proof.Machine.execRegFault s
  | .tjHot t => Sys2Proof.Machine.execTjHot t s
  | .pwrIlimWrite m comp => Sys2Proof.Machine.execPwrIlimWrite m comp s
  | .rstNAssert => Sys2Proof.Machine.execRstNAssert s
  | .rstNRelease => Sys2Proof.Machine.execRstNRelease s
  | .sleepVote m n word => Sys2Proof.Machine.execSleepVote m n word s
  | .sleepReq => Sys2Proof.Machine.execSleepReq s
  | .sleepDecision => Sys2Proof.Machine.execSleepDecision s
  | .sleepEntryDone => Sys2Proof.Machine.execSleepEntryDone s
  | .wake => Sys2Proof.Machine.execWake s
  | .l1ExitRequest n => Sys2Proof.Machine.execL1ExitRequest n s
  | .wakeTime => Sys2Proof.Machine.execWakeTime s
  | .sleepReqFall => Sys2Proof.Machine.execSleepReqFall s
  | .wakeDone meas => Sys2Proof.Machine.execWakeDone meas s
  | .romBoot facts => Sys2Proof.Machine.execRomBoot facts s
  | .bootReady => Sys2Proof.Machine.execBootReady s
  | .confirmTimeout => Sys2Proof.Machine.execConfirmTimeout s
  | .returnErasureDone => Sys2Proof.Machine.execReturnErasureDone s
  | .updateWrite m word => Sys2Proof.Machine.execUpdateWrite m word s
  | .updDone ok ue => Sys2Proof.Machine.execUpdDone ok ue s
  | .updatePend m word => Sys2Proof.Machine.execUpdatePend m word s
  | .updateUnpend m word => Sys2Proof.Machine.execUpdateUnpend m word s
  | .recoverRequest m word => Sys2Proof.Machine.execRecoverRequest m word s
  | .flashOperationDone => Sys2Proof.Machine.execFlashOperationDone s
  | .recErase => Sys2Proof.Machine.execRecErase s
  | .recWrite => Sys2Proof.Machine.execRecWrite s
  | .recVerify => Sys2Proof.Machine.execRecVerify s
  | .recCommit => Sys2Proof.Machine.execRecCommit s
  | .recCommandDone ok image => Sys2Proof.Machine.execRecCommandDone ok image s
  | .fuseSelect m word => Sys2Proof.Machine.execFuseSelect m word s
  | .fuseProgram m comp => Sys2Proof.Machine.execFuseProgram m comp s
  | .fuseDone blown => Sys2Proof.Machine.execFuseDone blown s
  | .lifeCycleTransition m comp => Sys2Proof.Machine.execLifeCycleTransition m comp s
  | .attest m word => Sys2Proof.Machine.execAttest m word s
  | .attestDone => Sys2Proof.Machine.execAttestDone s
  | .extest => Sys2Proof.Machine.execExtest s
  | .samplePreload => Sys2Proof.Machine.execSamplePreload s
  | .idcode => Sys2Proof.Machine.execIdcode s
  | .clamp => Sys2Proof.Machine.execClamp s
  | .highz => Sys2Proof.Machine.execHighz s
  | .extestPulse => Sys2Proof.Machine.execExtestPulse s
  | .extestTrain => Sys2Proof.Machine.execExtestTrain s
  | .debug => Sys2Proof.Machine.execDebug s
  | .bypass => Sys2Proof.Machine.execBypass s
  | .ageingMeasurement slow => Sys2Proof.Machine.execAgeingMeasurement slow s
  | .proposal kind inst facts => Sys2Proof.Machine.execProposal kind inst facts s
  | .proposalApprove m comp => Sys2Proof.Machine.execProposalApprove m comp s
  | .proposalReject m comp => Sys2Proof.Machine.execProposalReject m comp s
  | .ptbUnlock m comp => Sys2Proof.Machine.execPtbUnlock m comp s
  | .ptbLock m comp => Sys2Proof.Machine.execPtbLock m comp s
  | .ptbTimeout => Sys2Proof.Machine.execPtbTimeout s
  | .ptbSlotWrite m k r word => Sys2Proof.Machine.execPtbSlotWrite m k r word s
  | .ptbInjection k => Sys2Proof.Machine.execPtbInjection k s
  | .chkLock l => Sys2Proof.Machine.execChkLock l s
  | .chkLockLoss l errs => Sys2Proof.Machine.execChkLockLoss l errs s
  | .dataLinkUp n speed width => Sys2Proof.Machine.execDataLinkUp n speed width s
  | .transDone lc erase => Sys2Proof.Machine.execTransDone lc erase s
  | .vstbyLoss => Sys2Proof.Machine.execVstbyLoss s
  | .vinOk mv => Sys2Proof.Machine.execVinOk mv s
  | .currentBelowLimit k => Sys2Proof.Machine.execCurrentBelowLimit k s
  | .railInRegulation => Sys2Proof.Machine.execRailInRegulation s
  | .tjBelowLimit t => Sys2Proof.Machine.execTjBelowLimit t s

end Sys2Proof.Machine
end

