-- ==== Sys2Proof/Machine/Step.lean ====
section
/-! DEFINITION. One step of the device: the command at the front of the queue runs with the rest of the queue (log 1). -/

namespace Sys2Proof.Machine

open Sys2Proof

/-- The command at the front of the queue runs on the state with the queue's rest; with no command waiting, the next request that a port holds and that may be served runs, and
with none the device idles (log 1). -/
def step (s : State) : Host.Outcome State Fault Refusal :=
  match s.pending with
  | [] => match nextHeld s [] s.bus.held with
    | none => .next s
    | some (c, rest) => match exec c { s with bus := ⟨rest, true⟩ } with
      | .next t => .next { t with bus := { t.bus with replay := false } }
      | o => o
  | c :: rest => exec c { s with pending := rest }

/-- The state with the command that a word spells put at the front of its queue; unchanged where the word spells none. -/
def State.withFetchWord (s : State) (nbits w : Nat) : State :=
  match decodeTableWord nbits w with
  | none => s
  | some c => { s with pending := c :: s.pending }

end Sys2Proof.Machine
end

