-- ==== Sys2Proof/WellFormed.lean ====
section
/-! DEFINITION. Well-formed commands: every operand in the range the spec gives it. -/

namespace Sys2Proof

/-- The histograms of a TDC_LIN run (R350, R351): 17 converters of 768 codes with 2^20 hits each, and in each quarter 2^18 of them, by groups of 32 codes. -/
def histogramsOk (m : CalMeas) : Bool :=
  m.counts.length == 17 && m.quarters.length == 17 && (m.counts.zip m.quarters).all fun x =>
    x.1.length == 768 && x.1.sum == 2 ^ 20 && x.2.length == 96 &&
    ((List.range 24).all fun g => ((x.2.drop (4 * g)).take 4).sum == ((x.1.drop (32 * g)).take 32).sum) &&
    (List.range 4).all fun q => ((List.range 24).map fun g => x.2.getD (4 * g + q) 0).sum == 2 ^ 18

/-- The measurements of a run are those of a class: histograms, or the values of EDGE or DESKEW, or the maker's of both modes, for the 17 instances. -/
def calMeasOk (m : CalMeas) : Bool :=
  m.active.all (fun k => decide (k < 17)) &&
  ((m.values.isEmpty && histogramsOk m) ||
    (m.counts.isEmpty && m.quarters.isEmpty && (m.values.isEmpty || (m.values.length == 17 && m.values.all fun l => l.length == 2001 || l.length == 3 || l.length == 4 || l.length == 8))))

/-- A slot of the flash is bytes within its first 4 KiB, and lists ports that exist and registers' values that fit (R476). -/
def slotBytesWf (x : SlotBytes) : Bool :=
  decide (x.manifest.length ≤ 4096) && (x.manifest.all fun b => decide (b < 256)) && decide (x.pcie.length ≤ 8) && (x.pcie.all fun b => decide (b < 256)) &&
  ((x.txLat ++ x.rxLat).all fun v => decide (v < 2 ^ 32)) && x.links.all fun l => decide (l.port < 4)

/-- The operands of a command are in the ranges the spec gives them. -/
def Instr.wf : Instr → Bool
  | .refLoss src _ => decide (src < 3)
  | .xtalFail => true
  | .sourceQualified src => decide (src < 3)
  | .refSelectWrite m word _ => decide (m < 6) && decide (word < 2 ^ 32)
  | .refSlewDone => true
  | .holdEstUpdate => true
  | .timeBaseTick b => decide (b < 5)
  | .incGo m b word => decide (m < 6) && decide (b < 5) && word.testBit 0 && decide (word < 8)
  | .adjGo m b word => decide (m < 6) && decide (b < 5) && word.testBit 1 && decide (word < 8)
  | .setGo m b word => decide (m < 6) && decide (b < 5) && word.testBit 2 && decide (word < 8)
  | .timeCommandApply b => decide (b < 5)
  | .timeSnapshotRead m _ => decide (m < 6)
  | .driftUpdate site => decide (site < 64)
  | .headgateOpen site _ => decide (site < 64)
  | .tpArmOnce m p _ _ => decide (m < 6) && decide (p < 4)
  | .tpArmPeriodic m p _ _ => decide (m < 6) && decide (p < 4)
  | .tpDisarm m p _ _ => decide (m < 6) && decide (p < 4)
  | .tpOwnerWrite m word => decide (m < 6) && decide (word < 256)
  | .tpFired p => decide (p < 4)
  | .tpWidthEnd p => decide (p < 4)
  | .linkEnable m port dm _ => decide (m < 6) && decide (port < 2) && decide (dm < 4)
  | .linkDisable m port dm _ => decide (m < 6) && decide (port < 2) && decide (dm < 4)
  | .blockLock l => decide (l < 3)
  | .noPartner port => decide (port < 2)
  | .adaptRestart port => decide (port < 2)
  | .lockLoss l => decide (l < 3)
  | .hiBer l => decide (l < 3)
  | .hiBerClear l => decide (l < 3)
  | .txeqWrite m l word => decide (m < 6) && decide (l < 3) && decide (word < 2 ^ 32)
  | .adaptFreeze l density => decide (l < 3) && decide (density ≤ 100)
  | .adaptResume l density => decide (l < 3) && decide (density ≤ 100)
  | .rxPreset m l _ => decide (m < 6) && decide (l < 3)
  | .prbsGenEn m l word => decide (m < 6) && decide (l < 3) && decide (word < 2 ^ 14)
  | .prbsChkEn m l word => decide (m < 6) && decide (l < 3) && decide (word < 2 ^ 14)
  | .injOne m l word => decide (m < 6) && decide (l < 3) && decide (word < 2 ^ 14) && word.testBit 2
  | .injRate m l word => decide (m < 6) && decide (l < 3) && decide (word < 2 ^ 14)
  | .prbsErrRead m l _ => decide (m < 6) && decide (l < 3)
  | .frameReceive port _ => decide (port < 2)
  | .sync port msg => decide (port < 2) && decide (msg.seqId < 2 ^ 16)
  | .followUp port msg => decide (port < 2) && decide (msg.seqId < 2 ^ 16)
  | .delayReq port msg => decide (port < 2) && decide (msg.seqId < 2 ^ 16)
  | .delayResp port msg => decide (port < 2) && decide (msg.seqId < 2 ^ 16)
  | .pdelayReq port msg _ => decide (port < 2) && decide (msg.seqId < 2 ^ 16)
  | .pdelayResp port msg => decide (port < 2) && decide (msg.seqId < 2 ^ 16)
  | .pdelayRespFollowUp port msg => decide (port < 2) && decide (msg.seqId < 2 ^ 16)
  | .announce port _ steps => decide (port < 2) && decide (steps < 2 ^ 16)
  | .syncTransmit port _ => decide (port < 2)
  | .announceTransmit port => decide (port < 2)
  | .delayReqTransmit port _ => decide (port < 2)
  | .pdelayReqTransmit port _ => decide (port < 2)
  | .announceReceiptTimeout => true
  | .syncReceiptTimeout => true
  | .tlkMapWrite m comp => decide (m < 6) && decide (comp < 2 ^ 32)
  | .siteDefine p => decide (p < 4)
  | .siteDelete p => decide (p < 4)
  | .palLoad p => decide (p < 4)
  | .run p => decide (p < 4)
  | .runDeferredStart site => decide (site < 64)
  | .halt p => decide (p < 4)
  | .clear p => decide (p < 4)
  | .status p => decide (p < 4)
  | .mailboxDoorbell p v => decide (p < 4) && decide (v < 2 ^ 32)
  | .mbxRspConsWrite p v => decide (p < 4) && decide (v < 2 ^ 32)
  | .jumpRequest m n i word => decide (m < 6) && decide (n < 4) && decide (i < 64) && decide (word < 2 ^ 32)
  | .triginEdge n => decide (n < 4)
  | .entryFetch site upset => decide (site < 64) && upset.all (fun q => q < 64)
  | .resumePositionArrival site => decide (site < 64)
  | .siteStepBroadcast quad => decide (quad < 64)
  | .vectorPeriod _ k => decide (k < 64)
  | .stopAtBoundary site => decide (site < 64)
  | .furrowClear quad => decide (quad < 64)
  | .nop e => decide (e < 68)
  | .vec e => decide (e < 68)
  | .vecLoad e => decide (e < 68)
  | .veci e => decide (e < 68)
  | .rpt e => decide (e < 68)
  | .fill e => decide (e < 68)
  | .pal e => decide (e < 68)
  | .stream e => decide (e < 68)
  | .ringDataResume e => decide (e < 68)
  | .scan e => decide (e < 68)
  | .loop e => decide (e < 68)
  | .endl e => decide (e < 68)
  | .call e => decide (e < 68)
  | .ret e => decide (e < 68)
  | .jmp e => decide (e < 68)
  | .seg e => decide (e < 68)
  | .alt e => decide (e < 68)
  | .mark e => decide (e < 68)
  | .match e => decide (e < 68)
  | .waitt e => decide (e < 68)
  | .trig e => decide (e < 68)
  | .label e => decide (e < 68)
  | .flag e => decide (e < 68)
  | .haltInstruction e => decide (e < 68)
  | .firmwareSubmission raw => decide (raw < 2 ^ 256)
  | .descCtrlWrite n d word => decide (n < 4) && decide (d < 4) && decide (word < 2 ^ 32)
  | .descProdWrite n d v => decide (n < 4) && decide (d < 4) && decide (v < 2 ^ 32)
  | .descriptorFetch n d raw => decide (n < 4) && decide (d < 4) && decide (raw < 2 ^ 256)
  | .descCplConsWrite n d v => decide (n < 4) && decide (d < 4) && decide (v < 2 ^ 32)
  | .dispatchDecision => true
  | .caravanHandover _ => true
  | .caravanCommit e => decide (e < 68)
  | .retiringExit => true
  | .machineCheck e cause => decide (e < 68) && decide (0 < cause) && decide (cause < 6)
  | .mcHang e => decide (e < 68)
  | .csRewriteDone k => decide (k < 4)
  | .poolCountRead m => decide (m < 6)
  | .disShareWrite m word => decide (m < 6) && decide (word < 2 ^ 32)
  | .sluiceGrant b => decide (b < 16)
  | .pointerQueueTransfer quad _ => decide (quad < 64)
  | .matchDecision site => decide (site < 64)
  | .dwellEnd site => decide (site < 64)
  | .modeChange m b mode => decide (m < 6) && decide (b < 16) && decide (mode < 2)
  | .modeChangeEnd b => decide (b < 16)
  | .tsLoad m b word => decide (m < 6) && decide (b < 16) && decide (word < 2 ^ 32)
  | .tsRead m b word => decide (m < 6) && decide (b < 16) && decide (word < 2 ^ 32)
  | .tsDone b => decide (b < 16)
  | .followWrite m b word => decide (m < 6) && decide (b < 16) && decide (word < 2 ^ 32)
  | .followedEdge b => decide (b < 16)
  | .followHold b => decide (b < 16)
  | .pinTxeqWrite m b j word => decide (m < 6) && decide (b < 16) && decide (j < 16) && decide (word < 2 ^ 32)
  | .pecTxPush m b word => decide (m < 6) && decide (b < 16) && decide (word < 2 ^ 32)
  | .pecTransferStart n => decide (n < 8)
  | .pecTransferEnd n miso => decide (n < 8) && decide (miso < 2 ^ 64)
  | .pecRxPop m b => decide (m < 6) && decide (b < 16)
  | .pecCfgWrite m b word => decide (m < 6) && decide (b < 16) && decide (word < 2 ^ 32)
  | .bnkSpareWrite m b comp => decide (m < 6) && decide (b < 16) && decide (comp < 2 ^ 32)
  | .spareSubstitution kind inst => decide (0 < kind) && decide (kind < 10) && decide (inst < 2 ^ 26)
  | .strobeJudge p level dev => decide (p < 256) && decide (level < 4) && dev.all (fun l => l < 4)
  | .siteFailDelivery i => decide (i < 64)
  | .ledgerDrain n _ => decide (n < 4)
  | .ledgerWriteAck n => decide (n < 4)
  | .ledgerCtrlWrite m n word => decide (m < 6) && decide (n < 4) && decide (word < 2 ^ 32)
  | .ledgerRcntWrite m n v => decide (m < 6) && decide (n < 4) && decide (v < 2 ^ 64)
  | .ledRateWrite m n word => decide (m < 6) && decide (n < 4) && decide (word < 2 ^ 32)
  | .pinFcntWrite m p v => decide (m < 6) && decide (p < 256) && decide (v < 2 ^ 32)
  | .acqArm m b word => decide (m < 6) && decide (b < 16) && decide (word < 2 ^ 32)
  | .acqDisarm m b word => decide (m < 6) && decide (b < 16) && decide (word < 2 ^ 32)
  | .acqForce m b word => decide (m < 6) && decide (b < 16) && decide (word < 2 ^ 32)
  | .acqAutoTrigger b => decide (b < 16)
  | .acqWriterDrain b n => decide (b < 16) && decide (n ≤ 131072)
  | .recordDone b => decide (b < 16)
  | .acqRearmEnd b => decide (b < 16)
  | .acqRcntWrite m b v => decide (m < 6) && decide (b < 16) && decide (v < 2 ^ 32)
  | .maskWrite m b j idx word => decide (m < 6) && decide (b < 16) && decide (j < 16) && decide (idx < 3) && decide (word < 2 ^ 32)
  | .maskViolation b j vn => decide (b < 16) && decide (j < 16) && decide (vn < 2 ^ 64)
  | .trigoutOwnerWrite m word => decide (m < 6) && decide (word < 2 ^ 32)
  | .trigoutWidthEnd t => decide (t < 4)
  | .converterEdge p _ _ _ _ _ => decide (p < 256)
  | .stampCreditRefill p => decide (p < 256)
  | .eraMarker b site => decide (b < 16) && decide (site < 64)
  | .stampRingWrite b => decide (b < 16)
  | .stampRingCtrlWrite m b word => decide (m < 6) && decide (b < 16) && decide (word < 2 ^ 32)
  | .stampRingRcntWrite m b v => decide (m < 6) && decide (b < 16) && decide (v < 2 ^ 64)
  | .edgPinCfgWrite m p word => decide (m < 6) && decide (p < 256) && decide (word < 2 ^ 32)
  | .fcDone p => decide (p < 256)
  | .fcNRead m p => decide (m < 6) && decide (p < 256)
  | .edgLostRead m p => decide (m < 6) && decide (p < 256)
  | .edgSpareWrite m b comp => decide (m < 6) && decide (b < 16) && decide (comp < 2 ^ 32)
  | .auAssignWrite m u word => decide (m < 6) && decide (u < 19) && decide (word < 2 ^ 32)
  | .auClearDone u => decide (u < 19)
  | .auGo m u word => decide (m < 6) && decide (u < 19) && decide (word < 2 ^ 32)
  | .auHalt m u word => decide (m < 6) && decide (u < 19) && decide (word < 2 ^ 32)
  | .auReset m u word => decide (m < 6) && decide (u < 19) && decide (word < 2 ^ 32)
  | .auDoorbell m u word => decide (m < 6) && decide (u < 19) && decide (word < 2 ^ 32)
  | .auInterrupt u => decide (u < 19)
  | .auDataWindowRead m u idx _ => decide (m < 6) && decide (u < 19) && decide (idx < 8192)
  | .auNop u _ => decide (u < 19)
  | .cmac u _ => decide (u < 19)
  | .cmacx u _ => decide (u < 19)
  | .rnd u _ => decide (u < 19)
  | .mva u _ => decide (u < 19)
  | .ld u _ => decide (u < 19)
  | .st u _ => decide (u < 19)
  | .ldi u _ => decide (u < 19)
  | .alu u _ => decide (u < 19)
  | .addi u _ => decide (u < 19)
  | .lda u _ => decide (u < 19)
  | .tapd u _ _ => decide (u < 19)
  | .br u _ => decide (u < 19)
  | .auCall u _ => decide (u < 19)
  | .auRet u _ => decide (u < 19)
  | .reti u _ => decide (u < 19)
  | .auRpt u _ => decide (u < 19)
  | .rptr u _ => decide (u < 19)
  | .rptb u _ => decide (u < 19)
  | .wait u _ _ => decide (u < 19)
  | .auHaltInstruction u _ => decide (u < 19)
  | .sig u _ => decide (u < 19)
  | .clrf u _ => decide (u < 19)
  | .auSpareWrite m comp => decide (m < 6) && decide (comp < 2 ^ 32)
  | .auSubstDone => true
  | .calRequest m part word => decide (m < 6) && part.all (fun n => n < 4) && decide (word < 2 ^ 32)
  | .calCancel m word => decide (m < 6) && decide (word < 2 ^ 32)
  | .calAutoRequest b => decide (b < 16)
  | .calClassStart _ => true
  | .calRunDone b meas => decide (b < 16) && calMeasOk meas
  | .calAbort b => decide (b < 16)
  | .calRecordWrite b _ => decide (b < 16)
  | .memoryRequest r part addr len data _ fails => decide (r < 113) && part.all (fun n => n < 4) && decide (addr < 36 * 2 ^ 30) && decide (0 < len) && decide (addr % 64 + len ≤ 64) && data.all (fun l => l.length == len && l.all fun x => x < 256) && decide (fails < 3)
  | .memoryReadDone c _ errs phy => decide (c < 16) && errs.all (fun l => l < 72) && decide (phy < 3)
  | .memoryWriteAck c _ errs phy => decide (c < 16) && errs.all (fun l => l < 72) && decide (phy < 3)
  | .stackTempRead _ => true
  | .refreshTick c => decide (c < 16)
  | .refreshUnit c => decide (c < 16)
  | .speedTargetWrite m word => decide (m < 6) && decide (word < 2 ^ 32)
  | .speedChangeEntry _ => true
  | .speedDone => true
  | .scrubRead errs => errs.all (fun l => l < 72)
  | .retirementStart h => decide (h < 2 ^ 25)
  | .retirementDone bad row => decide (bad < 2 ^ 16) && row.all (fun r => decide (r < 2 ^ 32))
  | .mapLookup m word => decide (m < 6) && decide (word < 2 ^ 32)
  | .mapLookupDone fails => decide (fails < 3)
  | .quotaWrite m word => decide (m < 6) && decide (word < 2 ^ 32)
  | .clearDone n => decide (n < 4)
  | .bar2Write n x data _ => decide (n < 4) && decide (x < 2 ^ 35) && data.all (fun y => y < 256) && decide (data.length ≤ 512)
  | .bar2Read n x len _ => decide (n < 4) && decide (x < 2 ^ 35) && decide (0 < len) && decide (len ≤ 4096)
  | .bar2Resize n k => decide (n < 4) && decide (28 ≤ k) && decide (k ≤ 35)
  | .hifPWinWrite m n word => decide (m < 6) && decide (n < 4) && decide (word < 2 ^ 32)
  | .bankOwnerChange m _ word => decide (m < 6) && decide (word < 2 ^ 32)
  | .bankMoveDone b => decide (b < 16)
  | .ringCtrlWrite n r word => decide (n < 4) && decide (r < 16) && decide (word < 2 ^ 32)
  | .ringWrWrite n r v => decide (n < 4) && decide (r < 16) && decide (v < 2 ^ 64)
  | .ringFetchPush n r len => decide (n < 4) && decide (r < 16) && decide (len < 2 ^ 23)
  | .ringFetchStart n r => decide (n < 4) && decide (r < 16)
  | .ringFetchDone n r data => decide (n < 4) && decide (r < 16) && data.all (fun y => y < 256)
  | .dmaErr n _ k => decide (n < 4) && decide (k < 16)
  | .msixUnmask n v => decide (n < 4) && decide (v < 256)
  | .intRawClear m addr word => decide (m < 6) && decide (addr < 2 ^ 24) && decide (word < 2 ^ 32)
  | .intSetWrite m addr word => decide (m < 6) && decide (addr < 2 ^ 24) && decide (word < 2 ^ 32)
  | .partitionReset n cause => decide (n < 4) && decide (cause < 3)
  | .partitionResetDone n => decide (n < 4)
  | .pcieLinkTrainingStart pin => decide (pin.port < 4)
  | .registerWrite m addr len be word _ => decide (m < 6) && decide (addr < 2 ^ 31) && decide (0 < len) && decide (len ≤ 512) && decide (be < 2 ^ len) &&
      decide (word < 2 ^ min 64 (8 * len))
  | .complementPairOpen m addr v => decide (m < 6) && decide (addr < 2 ^ 31) && decide (v < 2 ^ 32)
  | .cplPairTimeout m addr => decide (m < 6) && decide (addr < 2 ^ 31)
  | .lowWordWrite m addr v => decide (m < 6) && decide (addr < 2 ^ 31) && decide (v < 2 ^ 32)
  | .highWordWrite m addr v => decide (m < 6) && decide (addr < 2 ^ 31) && decide (v < 2 ^ 32)
  | .lowWordRead m addr len => decide (m < 6) && decide (addr < 2 ^ 31) && decide (0 < len) && decide (len ≤ 4096)
  | .lockWrite m addr word => decide (m < 6) && decide (addr < 2 ^ 24) && decide (word < 2 ^ 32)
  | .parityScan addr _ => decide (addr < 2 ^ 24)
  | .functionEnable m addr => decide (m < 6) && decide (addr < 2 ^ 24)
  | .functionDisable m addr => decide (m < 6) && decide (addr < 2 ^ 24)
  | .shutdownDone d => decide (d < 30)
  | .startupDone d => decide (d < 30)
  | .graceExpiry addr c => decide (addr < 2 ^ 24) && decide (c < 32)
  | .blockResetDone addr => decide (addr < 2 ^ 24)
  | .faultClear m addr word => decide (m < 6) && decide (addr < 2 ^ 24) && decide (word < 2 ^ 32)
  | .fwWdog => true
  | .evlogIdxWrite m word => decide (m < 6) && decide (word < 2 ^ 32)
  | .evlogMark m word => decide (m < 6) && decide (word < 2 ^ 32)
  | .powerOnReset _ _ => true
  | .brownOut => true
  | .vinRestore => true
  | .junctionOvertemp t => decide (125 ≤ t) && decide (t < 128)
  | .overcurrent i => decide (i < 2 ^ 16)
  | .vinLow mv => decide (mv < 2700)
  | .regFault => true
  | .tjHot t => decide (105 < t) && decide (t < 128)
  | .pwrIlimWrite m comp => decide (m < 6) && decide (comp < 2 ^ 32)
  | .rstNAssert => true
  | .rstNRelease => true
  | .sleepVote m n word => decide (m < 6) && decide (n < 4) && decide (word < 2 ^ 32)
  | .sleepReq => true
  | .sleepDecision => true
  | .sleepEntryDone => true
  | .wake => true
  | .l1ExitRequest n => decide (n < 4)
  | .wakeTime => true
  | .sleepReqFall => true
  | .wakeDone _ => true
  | .romBoot facts => slotBytesWf facts.slotA && slotBytesWf facts.slotB
  | .bootReady => true
  | .confirmTimeout => true
  | .returnErasureDone => true
  | .updateWrite m word => decide (m < 6) && decide (word < 2 ^ 32)
  | .updDone _ _ => true
  | .updatePend m word => decide (m < 6) && decide (word < 2 ^ 32)
  | .updateUnpend m word => decide (m < 6) && decide (word < 2 ^ 32)
  | .recoverRequest m word => decide (m < 6) && decide (word < 2 ^ 32)
  | .flashOperationDone => true
  | .recErase => true
  | .recWrite => true
  | .recVerify => true
  | .recCommit => true
  | .recCommandDone _ image => slotBytesWf image
  | .fuseSelect m word => decide (m < 6) && decide (word < 2 ^ 32)
  | .fuseProgram m comp => decide (m < 6) && decide (comp < 2 ^ 32)
  | .fuseDone blown => decide (blown < 2 ^ 32)
  | .lifeCycleTransition m comp => decide (m < 6) && decide (comp < 2 ^ 32)
  | .attest m word => decide (m < 6) && decide (word < 2 ^ 32)
  | .attestDone => true
  | .extest => true
  | .samplePreload => true
  | .idcode => true
  | .clamp => true
  | .highz => true
  | .extestPulse => true
  | .extestTrain => true
  | .debug => true
  | .bypass => true
  | .ageingMeasurement _ => true
  | .proposal kind inst facts => decide (0 < kind) && decide (kind < 10) && decide (inst < 2 ^ 26) && decide (0 < facts.cause) && decide (facts.cause < 5)
  | .proposalApprove m comp => decide (m < 6) && decide (comp < 2 ^ 32)
  | .proposalReject m comp => decide (m < 6) && decide (comp < 2 ^ 32)
  | .ptbUnlock m comp => decide (m < 6) && decide (comp < 2 ^ 32)
  | .ptbLock m comp => decide (m < 6) && decide (comp < 2 ^ 32)
  | .ptbTimeout => true
  | .ptbSlotWrite m k r word => decide (m < 6) && decide (k < 16) && decide (r < 4) && decide (word < 2 ^ 32)
  | .ptbInjection k => decide (k < 16)
  | .chkLock l => decide (l < 3)
  | .chkLockLoss l _ => decide (l < 3)
  | .dataLinkUp n speed width => decide (n < 4) && decide (1 ≤ speed) && decide (speed ≤ 5) && (width == 1 || width == 2 || width == 4 || width == 8)
  | .transDone lc erase => decide (lc < 2 ^ 16) && decide (erase < 2 ^ 16)
  | .vstbyLoss => true
  | .vinOk mv => decide (2700 ≤ mv) && decide (mv < 2 ^ 16)
  | .currentBelowLimit i => decide (i < 2 ^ 16)
  | .railInRegulation => true
  | .tjBelowLimit t => decide (-128 ≤ t) && decide (t ≤ 105)

end Sys2Proof
end

