-- ==== Sys2Proof/Safety.lean ====
section
/-! DEFINITION. What the claims are stated in: when a master's write reaches its register, the invariant of the device, and the components of the state a command may
write. -/

namespace Sys2Proof.Machine

open Sys2Proof

/-- A master's write at an offset of a page reaches the register: the master is served there (R481), the page has power (R440), the master `may` write (R424, R428), the
page's safe state does not refuse it (Table 16-4), and no analysis unit of the page is being cleared (R324); no register word holds a parity mismatch and no half of a 64-bit write of this master is open, so that nothing but the
register's own effect happens (R430, R436). -/
abbrev Granted (s : State) (m : Nat) (p : Page) (off : Nat) (may : Bool) : Prop :=
  hostServed s m p off = true ∧ (pageOn s p = true ∨ servedOff off = true) ∧ may = true ∧ safeRefuses s p off = false ∧
    tabFind s.mgt.wrShadow m = none ∧ s.mgt.parBad = [] ∧ pageClearing s p = false

/-- The port of master m, where it has one, holds back nothing of it (R416, R470). -/
abbrev Unheld (s : State) (m : Nat) : Prop := m < 4 → hostThere s m = true → hostFree s m = true

/-- `Granted` with the right that the access code of the register asks for (R428). -/
abbrev MayWrite (s : State) (m : Nat) (p : Page) (off : Nat) (prv : Bool) : Prop := Granted s m p off (mayWrite s m p prv)

/-- The invariant of the device: pattern memory is in its canonical form, the event log holds its 4096 places (R453), at most 16 proposals wait (R497), at most 64
early scrubs are queued (R377), at most 16384 lines of the page map are cached (R371). -/
def Inv (s : State) : Prop :=
  Memory.wf s.mem = true ∧ (∀ x ∈ s.mgt.log, x.1 < 4096) ∧ s.lcs.props.length ≤ 16 ∧ s.memc.early.length ≤ 64 ∧ s.memc.lines.length ≤ 16384

/-- The value v completes an open pair that master m began at an offset of a page (R431). -/
abbrev Completes (s : State) (m : Nat) (p : Page) (off v : Nat) : Prop := openPair s m p off = some v ∧ v < 2 ^ 32

/-- The row under which firmware takes a command: its own opcode's, or STATUS's for an opcode that Table 4-5 does not assign (log 1). -/
def mailboxOp (op : Nat) : Nat := if cmdAssigned op then op else 0x20

/-- A frame of a port (R81, R88): destination, the device's MAC address, its domain, one-step, the port's identity, and what the message carries. -/
abbrev sentFrame (s : State) (n dest ty seq stamp : Nat) (corr : Int) (portId : Nat) (gm : GmFields) (steps : Nat) : TxFrame :=
  ⟨dest, rd s .tlkCtl F.TLK_MAC_HI * 2 ^ 32 + rd s .tlkCtl F.TLK_MAC_LO, rd s .tlkCtl F.TLK_CTRL_DOMAIN, ty, false,
    (rd s .tlkCtl F.TLK_CLK_ID_HI * 2 ^ 32 + rd s .tlkCtl F.TLK_CLK_ID_LO) * 2 ^ 16 + 1 + n, seq, stamp, corr, portId, gm, steps⟩

/-- The next command of partition p in its mailbox is one firmware takes now: the device is awake, the response queue has room, no held command goes before it, and it
need not wait (R120, R408, R409). -/
abbrev NextCommand (s : State) (p : Nat) (cmd : List Nat) : Prop :=
  p < 4 ∧ awake s = true ∧ rspWaiting s p < 64 ∧ cmdWaiting s p ≠ 0 ∧ cmdWords s p = cmd ∧ heldReady s p (mailboxOp (cmdOp cmd)) = none ∧ cmdWaits s p cmd = false

/-- The command of Table 4-5 that has an opcode, sent by partition p. -/
def mailboxCommand (p op : Nat) : Instr :=
  match op with
  | 0x01 => .siteDefine p | 0x02 => .siteDelete p | 0x03 => .palLoad p | 0x10 => .run p | 0x11 => .halt p | 0x12 => .clear p | _ => .status p

/-- A response of partition p is the words given, at the slot of `MBX_RSP_PROD` (R121, R408). -/
abbrev Answered (s t : State) (p : Nat) (words : List Nat) : Prop :=
  rd t (.bar4 p) F.MBX_RSP_PROD = (rd s (.bar4 p) F.MBX_RSP_PROD + 1) % 2 ^ 32 ∧ (rd t (.hifPart p) F.INT_RAW).testBit 0 = true ∧
    ∀ k, k < words.length → rd t (.bar4 p) (F.MBX_RSP_SLOT (8 * (rd s (.bar4 p) F.MBX_RSP_PROD % 64) + k)) = words.getD k 0 % 2 ^ 32

/-- The n words at the PC of an engine's caravan are l, as its instruction buffer gives them (R164): those it holds, and the rest from pattern memory, inside the
partition's quota and readable (R25, R130). -/
abbrev Fetches (s : State) (w : Work) (n : Nat) (l : List Nat) : Prop :=
  fetchStop s (moveWindow w n) n = none ∧ windowWords (fillWindow s (moveWindow w n) n) n = l

/-- Engine e runs the instruction with the words l at its PC next: it holds a caravan that goes on, in no machine check, with no split instruction left over and past the
first instruction of a head, and the fetch succeeds, of the first word and then of all (R129, R130, R139, R164). -/
abbrev AtInstr (s : State) (e : Nat) (w : Work) (l : List Nat) : Prop :=
  (engOf s e).work = some w ∧ w.ended = none ∧ w.stalled = none ∧ (engOf s e).mchk = false ∧ memServes s 1 = true ∧ w.st.resid = none ∧ w.first = false ∧
    Fetches s w 1 [wordAt l 0] ∧ Fetches s (fillWindow s (moveWindow w 1) 1) l.length l

/-- A caravan's work v is w ended by a pattern fault at its PC: nothing was emitted and the expansion state is as before (R138, R161). -/
abbrev Faulted (w v : Work) (code : Nat) : Prop :=
  v.ended = some (.fault code w.st.pc) ∧ v.st = w.st ∧ v.entries = w.entries ∧ v.slices = w.slices ∧ v.newAlts = w.newAlts

/-- The command answers a next state in which engine e works on a caravan with a property. -/
abbrev Runs (c : Instr) (s : State) (e : Nat) (P : Work → Prop) : Prop := ∃ t, exec c s = .next t ∧ ∃ w, (engOf t e).work = some w ∧ P w

/-- No pending flag needs a tag (R136). -/
abbrev Untagged (p : Pend) : Prop := p.label = none ∧ p.flag = false ∧ p.limit = none

/-- The rows of chapter 5 for an engine. -/
def patternRows (e : Nat) : List Instr :=
  [.nop e, .vec e, .vecLoad e, .veci e, .rpt e, .fill e, .pal e, .stream e, .scan e, .loop e, .endl e, .call e, .ret e, .jmp e, .seg e, .alt e, .mark e, .match e,
   .waitt e, .trig e, .label e, .flag e, .haltInstruction e]

/-- A RUNNING site can fetch its next entry, which the lead quad sees as k (R210, R211), and no decision of an earlier boundary comes first (R219). -/
abbrev Fetchable (s : State) (i : Nat) (k : Peek) : Prop :=
  i < 64 ∧ siteState s i = 3 ∧ (siteOf s i).queue.length < 256 ∧ (siteOf s i).redo = [] ∧ (siteOf s i).deferred = false ∧ (∀ q ∈ quadsOf (siteOf s i).mask, (peek s q).isSome = true) ∧
    peek s (leadQuad (siteOf s i).mask) = some k ∧ (siteOf s i).mask ≠ 0 ∧
  ((siteOf s i).unsure = true → entSeg k.cell.word = false)

/-- The entry fetched is the last word of its segment: the next one starts a segment (R113). -/
abbrev AtBoundary (k : Peek) : Prop := (k.next.map fun c => entSeg c.word) = some true

/-- The level that a strobe reports when it is judged (R230, R263, R264): 3 without a sample, the level at SO where that fails, else the first deviating level of a window. -/
def reportedLevel (s : State) (p : Nat) (st : Strobe) (level : Nat) (dev : Option Nat) : Nat :=
  let lv := if rdb s (.bnk (p / 16)) F.BNK_STAT_MODE_ACT then level % 2 else level
  if st.noSample then 3 else if st.window && levelPasses st.code lv then dev.getD lv else lv

/-- The strobe of pin p that is judged first belongs to a site of a partition, and `rest` are the others (R261, R265). -/
abbrev StrobeAt (s : State) (p : Nat) (st : Strobe) (rest : List Strobe) (n : Nat) : Prop :=
  p < 256 ∧ st.site < 64 ∧ n < 4 ∧ firstStrobe (pinOf s p).strobes = some st ∧ rest = (pinOf s p).strobes.erase st ∧ (siteOf s st.site).owner = some n

/-- A converter's input sees a selected transition that completes the prescaler's count (R305, R306, R309). -/
abbrev Selected (s : State) (p : Nat) (cml rising : Bool) : Prop :=
  p < 256 ∧ convRuns s p = true ∧ edgeSelected s p cml rising = true ∧
    2 ^ rd s (.bnk (p / 16)) (F.EDG_PIN_CFG_PRE (p % 16)) ≤ (convOf s p).pre + 1

/-- A unit executes, no interrupt is due, and the word at its program counter, with good parity and good data, is w, of opcode op (R327, R337, R342). -/
abbrev AuAt (s : State) (u : Nat) (up : AuUpset) (w op : Nat) : Prop :=
  up = ⟨false, none⟩ ∧ auLive s u = true ∧ auTakes s u = none ∧ auProg s u (rd s (.au u) F.AU_STAT_PC) = w ∧ auOp w = op

/-- No delay slot, repeat or repeated block is in progress, and no host HALT waits. -/
abbrev AuOpen (s : State) (u : Nat) : Prop := (auOf s u).slots = none ∧ (auOf s u).rpt = none ∧ (auOf s u).block = none ∧ (auOf s u).haltReq = false

/-- q is the nearest integer to v / 2^sh, exact halves to the even one (R333). -/
abbrev NearestEven (v : Int) (sh : Nat) (q : Int) : Prop :=
  2 * (v - q * (2 : Int) ^ sh) ≤ (2 : Int) ^ sh ∧ -(2 : Int) ^ sh ≤ 2 * (v - q * (2 : Int) ^ sh) ∧ ((2 * (v - q * (2 : Int) ^ sh)).natAbs = 2 ^ sh → q % 2 = 0)

/-- A part of an accumulator after an exact sum x (R332): the sum itself within 40 bits; beyond, its low 40 bits or the nearer limit. -/
abbrev PartIs (v : Nat) (sat : Bool) (x : Int) : Prop :=
  if -(2 ^ 39) ≤ x ∧ x < 2 ^ 39 then toSigned 40 v = x else if sat then toSigned 40 v = (if x < 0 then -(2 ^ 39) else 2 ^ 39 - 1) else (v : Int) = x % 2 ^ 40

/-- The sum that an accumulate forms from an old part and a product's part (Table 12-2). -/
abbrev accSum (w : Nat) (old p : Int) : Int := (if w.testBit 24 then 0 else old) + if w.testBit 23 then -p else p

/-- The instructions of an analysis unit that move data and compute, with their opcodes (Table 12-2). -/
def auComputes (u : Nat) (up : AuUpset) (waited : Nat) : List (Instr × Nat) :=
  [(.auNop u up, 0), (.cmac u up, 1), (.cmacx u up, 2), (.rnd u up, 3), (.mva u up, 4), (.ld u up, 5), (.st u up, 6), (.ldi u up, 7), (.alu u up, 8), (.addi u up, 9),
   (.lda u up, 0x0A), (.tapd u up waited, 0x0B), (.sig u up, 0x1A), (.clrf u up, 0x1B)]

/-- Those of control flow, repeats and waits. -/
def auFlows (u : Nat) (up : AuUpset) (waited : Nat) : List (Instr × Nat) :=
  [(.br u up, 0x10), (.auCall u up, 0x11), (.auRet u up, 0x12), (.reti u up, 0x13), (.auRpt u up, 0x14), (.rptr u up, 0x15), (.rptb u up, 0x16), (.wait u up waited, 0x18),
   (.auHaltInstruction u up, 0x19)]

/-- Where a unit goes on behind an instruction that computes (R334, R335): it repeats the instruction; else the second delay slot ends at the target of its transfer, a repeated
block at its beginning while repetitions are left, and every other place goes on at the next word. -/
def auPlaceAfter (x : Au) (pc : Nat) : Nat :=
  match x.rpt with
  | some (_ + 2) => pc
  | _ => match x.slots, x.block with
    | some (1, some d), _ => d % 4096
    | some (0, some d), _ => d % 4096
    | some _, _ => (pc + 1) % 4096
    | none, some (a, e, n) => if pc = e ∧ 1 < n then a % 4096 else (pc + 1) % 4096
    | none, none => (pc + 1) % 4096

/-- The rows of an analysis unit's instructions. -/
def auRows (u : Nat) (up : AuUpset) (waited : Nat) : List Instr :=
  [.auNop u up, .cmac u up, .cmacx u up, .rnd u up, .mva u up, .ld u up, .st u up, .ldi u up, .alu u up, .addi u up, .lda u up, .tapd u up waited, .br u up, .auCall u up,
   .auRet u up, .reti u up, .auRpt u up, .rptr u up, .rptb u up, .wait u up waited, .auHaltInstruction u up, .sig u up, .clrf u up]

/-- A page's header writes reach its register: `Granted` with the right that the fields of the word at the offset ask for (R424, R428). -/
abbrev MayWriteAt (s : State) (m : Nat) (p : Page) (off : Nat) : Prop := Granted s m p off (mayWriteAt s m p off)

/-- The registers that a reset of the whole device does not return to the reset value of their row: what the always-on domain keeps, what the fuses say, what follows from them. -/
def keptAtReset : List Fld :=
  [F.TIM_DTB_SUBNS, F.TIM_DTB_NS, F.TIM_DTB_SEC_LO, F.TIM_DTB_SEC_HI, F.TIM_DTB_INC_LO, F.TIM_DTB_INC_HI, F.MGT_EVLOG_WCNT, F.MGT_EVLOG_OVWR, F.BROWNOUTS, F.PWR_STAT_VIN_OK,
    F.PWR_MON_VIN, F.PWR_TJ, F.PWR_DOM_ON, F.MEM_SPARES, F.MEM_RETIRED, F.LCS_STATE_STATE, F.LCS_STATE_CYCLES, F.LCS_STATE_ERASE_PEND, F.LCS_SERIAL, F.TLK_CLK_ID_LO, F.TLK_CLK_ID_HI, F.TLK_MAC_LO,
    F.TLK_MAC_HI, F.BOOT_SVN_MIN, F.HIF_DEV_STAT_PRIV]

/-- How many pages of switched domains that are on hold a cause. -/
def causedPages (s : State) : Nat := (allPages.filter fun p => pageDom p != 63 && pageOn s p && rd s p F.FLT_CAUSE != 0).length

/-- t is s after a reset of the whole device except the always-on domain (Table 18-4): device time base, event log, fuses and flash stay, a RESET record with DETAIL 0 is added
behind n others, and the outputs of the banks that were on are off (R459). -/
def DeviceReset (s t : State) (n : Nat) : Prop :=
  rd t .pwrDev F.PWR_DOM_ON = 0 ∧ t.lcs.fuses = s.lcs.fuses ∧ t.boot.copy0 = s.boot.copy0 ∧ t.boot.copy1 = s.boot.copy1 ∧ t.boot.list0 = s.boot.list0 ∧
    t.boot.list1 = s.boot.list1 ∧ (∀ b < 16, domOn s b = true → .outputs b false ∈ t.out) ∧
    (∀ f ∈ [F.TIM_DTB_SUBNS, F.TIM_DTB_NS, F.TIM_DTB_SEC_LO, F.TIM_DTB_SEC_HI], rd t .timDev f = rd s .timDev f) ∧
    (∀ q (g : Fld), (∀ f ∈ keptAtReset, f.num ≠ g.num % 1024) → rd t q g = rd State.reset q g) ∧
    rd t .mgtDev F.MGT_EVLOG_WCNT = (rd s .mgtDev F.MGT_EVLOG_WCNT + n + 1) % 2 ^ 64 ∧
    ∃ k, tabGet logInit t.mgt.log ((rd s .mgtDev F.MGT_EVLOG_WCNT + n) % 4096) = k ∧ k.kind = 7 ∧ k.detail = 0 ∧ k.ns = rd s .timDev F.TIM_DTB_NS

/-- The result that R488 gives a programming of a fuse word: 0 where it is accepted. -/
def fuseResult (s : State) (row w data : Nat) : Nat :=
  if s.lcs.prog.isSome then 1 else if row < 2 ∨ fuseWords row ≤ w then 3 else if fuseAllowed s row = false then 2 else if fuseRule s row w data = true then 4 else 0

/-- The parts of the state beside the queue and the registers. -/
inductive Part where
  | mem | mgt | tim | tlk | pat | pin | au | cal | memc | bus | hif | pwr | boot | lcs | out | freeCtr
deriving DecidableEq, Repr

/-- A part of the state is the same in two states. -/
def samePart (x : Part) (s t : State) : Prop :=
  match x with
  | .mem => t.mem = s.mem
  | .mgt => t.mgt = s.mgt
  | .tim => t.tim = s.tim
  | .tlk => t.tlk = s.tlk
  | .pat => t.pat = s.pat
  | .pin => t.pin = s.pin
  | .au => t.au = s.au
  | .cal => t.cal = s.cal
  | .memc => t.memc = s.memc
  | .bus => t.bus = s.bus
  | .hif => t.hif = s.hif
  | .pwr => t.pwr = s.pwr
  | .boot => t.boot = s.boot
  | .lcs => t.lcs = s.lcs
  | .out => t.out = s.out
  | .freeCtr => t.freeCtr = s.freeCtr

/-- The registers that the stop of a site may write (R124, R125). -/
def stopFlds : List Fld :=
  [F.SITE_RUNNING 0, F.SITE_DRIFT 0, F.CMP_SITE_STATE_STATE 0, F.CMP_SITE_STATE_HALT_PEND 0, F.CMP_SITE_CAUSES 0, F.DIS_P_REFUSE_STATUS, F.DIS_P_REFUSE_ROUTE,
      F.DIS_P_REFUSE_SITE, F.DIS_P_REFUSE_SOURCE, F.DIS_P_REFUSE_RING, F.SUBMITTED, F.SUB_REFUSED, F.FUR_UR_VN 0, F.FUR_UR_LEN 0, F.FUR_UR_GAPS 0, F.FUR_UR_IDLE 0,
      F.BNK_STAT_DROP_PIN, F.EDGE_LATE, F.EDGE_DROP, F.PEC_DISC, F.BNK_PEC_STAT_TX_LEVEL, F.BNK_PEC_STAT_RX_LEVEL, F.BNK_PEC_STAT_BUSY, F.BNK_PEC_STAT_WAITING,
      F.ACQ_C_STAT_STATE, F.ACQ_C_STAT_LOG2D, F.ACQ_C_STAT_BACKLOG, F.CMP_LED_STAT_QLEVEL, F.CMP_LED_STAT_FULL, F.CMP_LED_STAT_SUMMARY, F.CMP_LED_STAT_LOSS_PEND,
      F.CMP_SITE_EVT, F.DISCARDED, F.CPL_LOST, F.DESC_CPL_PROD 0, F.RING_STAT_BOUND 0, F.RING_STAT_ROUTE 0, F.MSIX_PBA 0, F.INT_RAW, F.FLT_CAUSE, F.FLT_LIVE,
      F.FLT_SEVERE, F.FLT_CNT, F.MGT_EVLOG_WCNT, F.MGT_EVLOG_OVWR, F.MGT_P_LAST_TYPE, F.MGT_P_LAST_INST, F.MGT_P_LAST_CAUSE]

/-- The registers that a register access may write beside its own: counts of refused accesses, and what follows where a parity mismatch is found (R424–R430). -/
def accessFlds : List Fld :=
  [F.TLK_P_STAT_LINK, F.TLK_L_RXSTAT_BLOCK_LOCK, F.TLK_L_RXSTAT_HI_BER, F.TLK_L_RXSTAT_FROZEN, F.BNK_STAT_SAFE, F.BAD_ACCESS, F.NONOWN_WR, F.MSIX_PBA 0,
      F.BLK_STAT_SAFE, F.INT_RAW, F.FLT_CAUSE, F.FLT_LIVE, F.FLT_SEVERE, F.FLT_CNT, F.MGT_EVLOG_WCNT, F.MGT_EVLOG_OVWR, F.MGT_P_LAST_TYPE, F.MGT_P_LAST_INST,
      F.MGT_P_LAST_CAUSE]

/-- The registers that an uncorrectable block of pattern memory may write (R391, R392). -/
def memFaultFlds : List Fld :=
  [F.MEM_UE_FRAME_FRAME, F.MEM_UE_FRAME_BLOCK, F.MEM_UE_INFO_CLASS, F.MEM_UE_INFO_PART, F.MEM_UE_INFO_RESERVED, F.MEM_UE_INFO_WRITE, F.MEM_UE_INFO_VALID,
      F.MEM_UE_TIME, F.MEM_UE, F.MEM_P_UE_ADDR_LO, F.MEM_P_UE_ADDR_HI, F.MEM_P_UE_INFO_BLOCK, F.MEM_P_UE_INFO_CLASS, F.MEM_P_UE_INFO_WRITE, F.MEM_P_UE_INFO_VALID,
      F.MEM_P_UE, F.MSIX_PBA 0, F.INT_RAW, F.FLT_CAUSE, F.FLT_SEVERE, F.FLT_CNT, F.MGT_EVLOG_WCNT, F.MGT_EVLOG_OVWR, F.MGT_P_LAST_TYPE, F.MGT_P_LAST_INST,
      F.MGT_P_LAST_CAUSE]

/-- The registers that a fault event may write (R441–R454). -/
def faultFlds : List Fld :=
  [F.MSIX_PBA 0, F.INT_RAW, F.FLT_CAUSE, F.FLT_SEVERE, F.FLT_CNT, F.MGT_EVLOG_WCNT, F.MGT_EVLOG_OVWR, F.MGT_P_LAST_TYPE, F.MGT_P_LAST_INST, F.MGT_P_LAST_CAUSE]

/-- What a command may change beside the queue: parts of the state, and the rows of registers. The resets and the commands that may begin one, and the accesses to any
register word, are not listed. -/
def effects : Instr → Option (List Part × List Fld)
| .refLoss _ _ => some ([.mgt, .tim, .out], faultFlds ++ [F.TIM_REF_STAT_HOLDOVER, F.TIM_REF_STAT_SLEWING, F.TIM_REF_STAT_REFCLK_OK, F.TIM_REF_STAT_TL0_OK,
      F.TIM_REF_STAT_XTAL_OK, F.TIM_HOLD_EST, F.TIM_HOLD_TIME, F.TIM_FREQ_UNC, F.FLT_LIVE])
| .xtalFail => some ([.mgt, .out], faultFlds ++ [F.TIM_REF_STAT_XTAL_OK, F.FLT_LIVE])
| .sourceQualified _ => some ([.mgt, .tim, .out], faultFlds ++ [F.TIM_REF_STAT_ACTIVE, F.TIM_REF_STAT_HOLDOVER, F.TIM_REF_STAT_SLEWING, F.TIM_REF_STAT_REFCLK_OK,
      F.TIM_REF_STAT_TL0_OK, F.TIM_REF_STAT_XTAL_OK, F.TIM_HOLD_EST, F.FLT_LIVE])
| .refSelectWrite _ _ _ => some ([.mgt, .tim, .tlk, .pin, .out, .bus], accessFlds ++ [F.TIM_REF_CTRL_SEL, F.TIM_REF_CTRL_REVERT, F.TIM_REF_CTRL_SLEW,
      F.TIM_REF_CTRL_QUAL, F.TIM_REF_STAT_ACTIVE, F.TIM_REF_STAT_HOLDOVER, F.TIM_REF_STAT_SLEWING, F.TIM_HOLD_EST, F.TIM_HOLD_TIME, F.TIM_FREQ_UNC])
| .refSlewDone => some ([.tim], [F.TIM_REF_STAT_SLEWING])
| .holdEstUpdate => some ([.mgt, .tim, .out], faultFlds ++ [F.TIM_HOLD_EST, F.TIM_HOLD_TIME, F.FLT_LIVE])
| .timeBaseTick _ => some ([.mgt, .tim, .out, .freeCtr], faultFlds ++ [F.TIM_XTAL_OFFS, F.TIM_DTB_SUBNS, F.TIM_DTB_NS, F.TIM_DTB_SEC_LO, F.TIM_DTB_SEC_HI,
      F.TIM_DTB_CMD_INC_GO, F.TIM_DTB_CMD_ADJ_GO, F.TIM_DTB_CMD_SET_GO, F.TIM_TP_SKIP])
| .incGo _ _ _ => some ([.mgt, .tlk, .pin, .out, .bus], accessFlds ++ [F.TIM_DTB_CMD_INC_GO, F.TIM_DTB_CMD_ADJ_GO, F.TIM_DTB_CMD_SET_GO, F.WRITE_LOCKED])
| .adjGo _ _ _ => some ([.mgt, .tlk, .pin, .out, .bus], accessFlds ++ [F.TIM_DTB_CMD_INC_GO, F.TIM_DTB_CMD_ADJ_GO, F.TIM_DTB_CMD_SET_GO, F.WRITE_LOCKED])
| .setGo _ _ _ => some ([.mgt, .tlk, .pin, .out, .bus], accessFlds ++ [F.TIM_DTB_CMD_INC_GO, F.TIM_DTB_CMD_ADJ_GO, F.TIM_DTB_CMD_SET_GO, F.WRITE_LOCKED])
| .timeCommandApply _ => some ([.mgt, .tim, .out, .freeCtr], faultFlds ++ [F.TIM_XTAL_OFFS, F.TIM_DTB_SUBNS, F.TIM_DTB_NS, F.TIM_DTB_SEC_LO, F.TIM_DTB_SEC_HI,
      F.TIM_DTB_CMD_INC_GO, F.TIM_DTB_CMD_ADJ_GO, F.TIM_DTB_CMD_SET_GO, F.TIM_TP_SKIP])
| .timeSnapshotRead _ _ => some ([.tim, .out, .bus], [])
| .driftUpdate _ => some ([], [F.SITE_DRIFT 0])
| .headgateOpen _ _ => some ([.mgt, .tim, .pat, .pin, .out], faultFlds ++ [F.EPOCH_SUBNS 0, F.EPOCH_NS 0, F.EPOCH_SEC_LO 0, F.EPOCH_SEC_HI 0, F.SITE_VALID 0,
      F.SITE_LATE 0, F.SITE_RUNNING 0, F.SITE_VCOUNT 0, F.SITE_DRIFT 0, F.CMP_SITE_STATE_STATE 0, F.CMP_SITE_STATE_ALT_LATE 0, F.CMP_SITE_STATE_HALT_PEND 0,
      F.CMP_SITE_CAUSES 0, F.CMP_SITE_FLAGS_FLAG0 0, F.CMP_SITE_FLAGS_JDISC 0, F.BNK_STAT_DROP_PIN, F.EDGE_LATE, F.EDGE_DROP, F.ACQ_C_STAT_LOG2D,
      F.ACQ_C_STAT_BACKLOG, F.ACQ_C_MFIRST_VN, F.ACQ_C_MFIRST_PIN, F.ACQ_C_MFIRST_VALID, F.ACQ_C_MFIRST_STOPPED, F.BNK_MASK_VIOL 0, F.CMP_SR_FFVN 0, F.CMP_SR_FCNT 0,
      F.CMP_SR_STAT_FF_VALID 0, F.CMP_PIN_FCNT 0, F.CMP_PIN_STAT_FF_VALID 0, F.CMP_PIN_FFVN 0])
| .tpArmOnce _ _ _ _ => some ([.mgt, .tim, .tlk, .pin, .out, .bus], accessFlds ++ [F.TIM_TP_CTRL_MODE, F.TIM_TP_CTRL_TBSEL, F.TIM_TP_CTRL_POL, F.TIM_TP_STAT_ARMED,
      F.TIM_TP_SKIP])
| .tpArmPeriodic _ _ _ _ => some ([.mgt, .tim, .tlk, .pin, .out, .bus], accessFlds ++ [F.TIM_TP_CTRL_MODE, F.TIM_TP_CTRL_TBSEL, F.TIM_TP_CTRL_POL,
      F.TIM_TP_STAT_ARMED, F.TIM_TP_SKIP])
| .tpDisarm _ _ _ _ => some ([.mgt, .tim, .tlk, .pin, .out, .bus], accessFlds ++ [F.TIM_TP_CTRL_MODE, F.TIM_TP_CTRL_TBSEL, F.TIM_TP_CTRL_POL, F.TIM_TP_STAT_ARMED])
| .tpOwnerWrite _ _ => some ([.mgt, .tim, .tlk, .pin, .out, .bus], accessFlds ++ [F.TIM_TP_OWNER, F.TIM_TP_CTRL_MODE, F.TIM_TP_STAT_ARMED])
| .tpFired _ => some ([.tim, .out], [F.TIM_TP_CTRL_MODE, F.TIM_TP_STAT_ARMED, F.TIM_TP_STAT_ACTIVE, F.TIM_TP_FIRED, F.MSIX_PBA 0, F.INT_RAW])
| .tpWidthEnd _ => some ([.tim, .out], [F.TIM_TP_STAT_ACTIVE])
| .linkEnable _ _ _ _ => some ([.mgt, .tlk, .pin, .out, .bus], accessFlds ++ [F.TLK_P_CTRL_EN, F.TLK_P_CTRL_DM, F.TLK_P_CTRL_NOPART_FLT, F.TLK_P_STAT_PTP])
| .linkDisable _ _ _ _ => some ([.mgt, .tlk, .pin, .out, .bus], accessFlds ++ [F.TLK_P_CTRL_EN, F.TLK_P_CTRL_DM, F.TLK_P_CTRL_NOPART_FLT, F.TLK_P_STAT_PTP])
| .blockLock _ => some ([.mgt, .tlk, .out], faultFlds ++ [F.TLK_P_STAT_LINK, F.TLK_L_RXSTAT_BLOCK_LOCK, F.FLT_LIVE])
| .noPartner _ => some ([.mgt, .tlk, .out], faultFlds ++ [F.TLK_P_STAT_LINK, F.FLT_LIVE])
| .adaptRestart _ => some ([.tlk], [F.TLK_RETRIES])
| .lockLoss _ => some ([.mgt, .tlk, .out], faultFlds ++ [F.TLK_P_STAT_LINK, F.TLK_P_STAT_PTP, F.TLK_L_RXSTAT_BLOCK_LOCK, F.TLK_L_RXSTAT_HI_BER,
      F.TLK_L_RXSTAT_FROZEN, F.FLT_LIVE])
| .hiBer _ => some ([.mgt, .tlk, .lcs, .out], faultFlds ++ [F.TLK_P_STAT_LINK, F.TLK_L_RXSTAT_BLOCK_LOCK, F.TLK_L_RXSTAT_HI_BER, F.TLK_L_RXSTAT_FROZEN, F.FLT_LIVE])
| .hiBerClear _ => some ([.mgt, .tlk, .out], faultFlds ++ [F.TLK_P_STAT_LINK, F.TLK_L_RXSTAT_HI_BER, F.FLT_LIVE])
| .txeqWrite _ _ _ => some ([.mgt, .tlk, .pin, .out, .bus], accessFlds ++ [F.TLK_L_TXEQ_C_PRE, F.TLK_L_TXEQ_C_MAIN, F.TLK_L_TXEQ_C_POST])
| .adaptFreeze _ _ => some ([.tlk, .out], [F.TLK_L_RXSTAT_FROZEN, F.TLK_L_RXSTAT_DENSITY, F.MSIX_PBA 0, F.INT_RAW])
| .adaptResume _ _ => some ([], [F.TLK_L_RXSTAT_FROZEN, F.TLK_L_RXSTAT_DENSITY])
| .rxPreset _ _ _ => some ([.mgt, .tlk, .pin, .out, .bus], accessFlds ++ [F.TLK_L_RXCTRL_FREEZE])
| .prbsGenEn _ _ _ => some ([.mgt, .tlk, .pin, .out, .bus], accessFlds ++ [F.TLK_L_PRBS_GEN_EN, F.TLK_L_PRBS_CHK_EN, F.TLK_L_PRBS_INJ_RATE, F.TLK_L_PRBS_CHK_LOCK])
| .prbsChkEn _ _ _ => some ([.mgt, .tlk, .pin, .out, .bus], accessFlds ++ [F.TLK_L_PRBS_GEN_EN, F.TLK_L_PRBS_CHK_EN, F.TLK_L_PRBS_INJ_RATE, F.TLK_L_PRBS_CHK_LOCK])
| .injOne _ _ _ => some ([.mgt, .tlk, .pin, .out, .bus], accessFlds ++ [F.TLK_L_PRBS_GEN_EN, F.TLK_L_PRBS_CHK_EN, F.TLK_L_PRBS_INJ_RATE, F.TLK_L_PRBS_CHK_LOCK])
| .injRate _ _ _ => some ([.mgt, .tlk, .pin, .out, .bus], accessFlds ++ [F.TLK_L_PRBS_GEN_EN, F.TLK_L_PRBS_CHK_EN, F.TLK_L_PRBS_INJ_RATE, F.TLK_L_PRBS_CHK_LOCK])
| .prbsErrRead _ _ _ => some ([.out, .bus], [F.TLK_L_PRBS_ERR])
| .frameReceive _ _ => some ([.tlk], [F.RX_DROP])
| .sync _ _ => some ([.mgt, .tlk, .lcs, .out], faultFlds ++ [F.TIM_DTB_INC_LO, F.TIM_DTB_INC_HI, F.TIM_DTB_ADJ_LO, F.TIM_DTB_ADJ_HI, F.TIM_DTB_CMD_INC_GO,
      F.TIM_DTB_CMD_ADJ_GO, F.TIM_DTB_CMD_SET_GO, F.TLK_P_STAT_PTP, F.TLK_P_OFFSET, F.TLK_P_MPD, F.SYNC_RX])
| .followUp _ _ => some ([.mgt, .tlk, .lcs, .out], faultFlds ++ [F.TIM_DTB_INC_LO, F.TIM_DTB_INC_HI, F.TIM_DTB_ADJ_LO, F.TIM_DTB_ADJ_HI, F.TIM_DTB_CMD_INC_GO,
      F.TIM_DTB_CMD_ADJ_GO, F.TIM_DTB_CMD_SET_GO, F.TLK_P_STAT_PTP, F.TLK_P_OFFSET, F.TLK_P_MPD, F.SEQ_MISMATCH])
| .delayReq _ _ => some ([.lcs, .out], [F.DM_MISMATCH])
| .delayResp _ _ => some ([.mgt, .tlk, .lcs, .out], faultFlds ++ [F.TIM_DTB_INC_LO, F.TIM_DTB_INC_HI, F.TIM_DTB_ADJ_LO, F.TIM_DTB_ADJ_HI, F.TIM_DTB_CMD_INC_GO,
      F.TIM_DTB_CMD_ADJ_GO, F.TIM_DTB_CMD_SET_GO, F.TLK_P_STAT_PTP, F.TLK_P_OFFSET, F.TLK_P_MPD, F.SEQ_MISMATCH, F.DM_MISMATCH])
| .pdelayReq _ _ _ => some ([.lcs, .out], [F.DM_MISMATCH])
| .pdelayResp _ _ => some ([.mgt, .tlk, .lcs, .out], faultFlds ++ [F.TIM_DTB_INC_LO, F.TIM_DTB_INC_HI, F.TIM_DTB_ADJ_LO, F.TIM_DTB_ADJ_HI, F.TIM_DTB_CMD_INC_GO,
      F.TIM_DTB_CMD_ADJ_GO, F.TIM_DTB_CMD_SET_GO, F.TLK_P_STAT_PTP, F.TLK_P_OFFSET, F.TLK_P_MPD, F.SEQ_MISMATCH, F.DM_MISMATCH])
| .pdelayRespFollowUp _ _ => some ([.mgt, .tlk, .lcs, .out], faultFlds ++ [F.TIM_DTB_INC_LO, F.TIM_DTB_INC_HI, F.TIM_DTB_ADJ_LO, F.TIM_DTB_ADJ_HI,
      F.TIM_DTB_CMD_INC_GO, F.TIM_DTB_CMD_ADJ_GO, F.TIM_DTB_CMD_SET_GO, F.TLK_P_STAT_PTP, F.TLK_P_OFFSET, F.TLK_P_MPD, F.SEQ_MISMATCH, F.DM_MISMATCH])
| .announce _ _ _ => some ([.mgt, .tlk, .lcs, .out], faultFlds ++ [F.TLK_P_STAT_PTP, F.TLK_P_STAT_STEPS, F.FLT_LIVE])
| .syncTransmit _ _ => some ([.tlk, .lcs, .out], [F.SYNC_TX])
| .announceTransmit _ => some ([.tlk, .lcs, .out], [])
| .delayReqTransmit _ _ => some ([.tlk, .lcs, .out], [])
| .pdelayReqTransmit _ _ => some ([.tlk, .lcs, .out], [])
| .announceReceiptTimeout => some ([.mgt, .tlk, .out], faultFlds ++ [F.TLK_P_STAT_PTP, F.FLT_LIVE])
| .syncReceiptTimeout => some ([.mgt, .tlk, .out], faultFlds ++ [F.TLK_P_STAT_PTP, F.FLT_LIVE])
| .tlkMapWrite _ _ => some ([.mgt, .tlk, .pin, .out, .bus], accessFlds ++ [F.TLK_MAP_TL0_LANE, F.TLK_MAP_TL1_LANE, F.CPL_ERR])
| .siteDefine _ => some ([.mgt, .tim, .pat, .pin, .out], stopFlds ++ [F.CMP_SITE_FLAGS_FLAG1_3 0, F.DIS_R_PFAULT_VALID 0, F.DIS_R_WHIST 0 0, F.FUR_WEIR_LEVEL 0,
      F.FUR_DWELL_LAST 0, F.FUR_DWELL_MAX 0, F.FUR_PASS 0, F.FUR_REWINDS 0, F.FUR_WAIT_PAST 0, F.MBX_RSP_SLOT 0, F.MBX_CMD_CONS, F.MBX_RSP_PROD])
| .siteDelete _ => some ([.mgt, .tim, .pat, .pin, .out], stopFlds ++ [F.CMP_SITE_FLAGS_FLAG1_3 0, F.DIS_R_PFAULT_VALID 0, F.DIS_R_WHIST 0 0, F.FUR_WEIR_LEVEL 0,
      F.FUR_DWELL_LAST 0, F.FUR_DWELL_MAX 0, F.FUR_PASS 0, F.FUR_REWINDS 0, F.FUR_WAIT_PAST 0, F.MBX_RSP_SLOT 0, F.MBX_CMD_CONS, F.MBX_RSP_PROD])
| .palLoad _ => some ([.mgt, .tim, .pat, .pin, .out], stopFlds ++ [F.CMP_SITE_FLAGS_FLAG1_3 0, F.DIS_R_PFAULT_VALID 0, F.DIS_R_WHIST 0 0, F.FUR_WEIR_LEVEL 0,
      F.FUR_DWELL_LAST 0, F.FUR_DWELL_MAX 0, F.FUR_PASS 0, F.FUR_REWINDS 0, F.FUR_WAIT_PAST 0, F.MBX_RSP_SLOT 0, F.MBX_CMD_CONS, F.MBX_RSP_PROD])
| .run _ => some ([.mgt, .tim, .pat, .pin, .out], stopFlds ++ [F.CMP_SITE_FLAGS_FLAG1_3 0, F.DIS_R_PFAULT_VALID 0, F.DIS_R_WHIST 0 0, F.FUR_WEIR_LEVEL 0,
      F.FUR_DWELL_LAST 0, F.FUR_DWELL_MAX 0, F.FUR_PASS 0, F.FUR_REWINDS 0, F.FUR_WAIT_PAST 0, F.MBX_RSP_SLOT 0, F.MBX_CMD_CONS, F.MBX_RSP_PROD])
| .runDeferredStart _ => some ([.mgt, .tim, .pat, .pin, .out], stopFlds ++ [F.CMP_SITE_FLAGS_FLAG1_3 0, F.DIS_R_PFAULT_VALID 0, F.DIS_R_WHIST 0 0, F.FUR_WEIR_LEVEL
      0, F.FUR_DWELL_LAST 0, F.FUR_DWELL_MAX 0, F.FUR_PASS 0, F.FUR_REWINDS 0, F.FUR_WAIT_PAST 0, F.MBX_RSP_SLOT 0, F.MBX_RSP_PROD])
| .halt _ => some ([.mgt, .tim, .pat, .pin, .out], stopFlds ++ [F.CMP_SITE_FLAGS_FLAG1_3 0, F.DIS_R_PFAULT_VALID 0, F.DIS_R_WHIST 0 0, F.FUR_WEIR_LEVEL 0,
      F.FUR_DWELL_LAST 0, F.FUR_DWELL_MAX 0, F.FUR_PASS 0, F.FUR_REWINDS 0, F.FUR_WAIT_PAST 0, F.MBX_RSP_SLOT 0, F.MBX_CMD_CONS, F.MBX_RSP_PROD])
| .clear _ => some ([.mgt, .tim, .pat, .pin, .out], stopFlds ++ [F.CMP_SITE_FLAGS_FLAG1_3 0, F.DIS_R_PFAULT_VALID 0, F.DIS_R_WHIST 0 0, F.FUR_WEIR_LEVEL 0,
      F.FUR_DWELL_LAST 0, F.FUR_DWELL_MAX 0, F.FUR_PASS 0, F.FUR_REWINDS 0, F.FUR_WAIT_PAST 0, F.MBX_RSP_SLOT 0, F.MBX_CMD_CONS, F.MBX_RSP_PROD])
| .status _ => some ([.mgt, .tim, .pat, .pin, .out], stopFlds ++ [F.CMP_SITE_FLAGS_FLAG1_3 0, F.DIS_R_PFAULT_VALID 0, F.DIS_R_WHIST 0 0, F.FUR_WEIR_LEVEL 0,
      F.FUR_DWELL_LAST 0, F.FUR_DWELL_MAX 0, F.FUR_PASS 0, F.FUR_REWINDS 0, F.FUR_WAIT_PAST 0, F.MBX_RSP_SLOT 0, F.MBX_CMD_CONS, F.MBX_RSP_PROD])
| .mailboxDoorbell _ _ => some ([.mgt, .out, .bus], [F.MBX_CMD_PROD, F.MSIX_PBA 0, F.INT_RAW])
| .mbxRspConsWrite _ _ => some ([.mgt, .out, .bus], [F.MBX_RSP_CONS, F.MSIX_PBA 0, F.INT_RAW])
| .jumpRequest _ _ _ _ => some ([.mgt, .tlk, .pat, .pin, .out, .bus], accessFlds)
| .triginEdge _ => some ([.mgt, .pat, .pin, .out], faultFlds ++ [F.ACQ_C_STAT_STATE, F.ACQ_C_STAT_LOG2D, F.ACQ_C_STAT_BACKLOG, F.ACQ_C_LASTTVN, F.TRIG_MISSED,
      F.TO_MERGED])
| .entryFetch _ _ => some ([.mem, .mgt, .pat, .pin, .memc, .out], stopFlds ++ memFaultFlds ++ [F.CMP_SITE_STATE_ALT_LATE 0, F.CMP_SITE_FLAGS_JDISC 0, F.BP_EVENTS,
      F.FUR_PAR_ERR 0, F.FUR_PAR_POS_POS 0, F.FUR_PAR_POS_QUAD 0, F.MEM_P_C1_BYTES, F.MEM_P_C2_BYTES, F.MEM_P_C3_BYTES])
| .resumePositionArrival _ => some ([.pat], [])
| .siteStepBroadcast _ => some ([.pat], [])
| .vectorPeriod _ _ => some ([.mem, .mgt, .pat, .pin, .memc, .out], stopFlds ++ memFaultFlds ++ [F.SITE_VCOUNT 0, F.CMP_SITE_STATE_ALT_LATE 0,
      F.CMP_SITE_FLAGS_FLAG1_3 0, F.CMP_SITE_FLAGS_JDISC 0, F.BP_EVENTS, F.FUR_DWELL_LAST 0, F.FUR_DWELL_MAX 0, F.FUR_PASS 0, F.FUR_REWINDS 0, F.FUR_WAIT_PAST 0,
      F.ACQ_C_LASTTVN, F.TRIG_MISSED, F.DECIM_CHANGES, F.LED_SUMMARIES, F.TO_MERGED, F.MEM_P_C1_BYTES, F.MEM_P_C2_BYTES, F.MEM_P_C3_BYTES])
| .stopAtBoundary _ => some ([.mgt, .pat, .pin, .out], stopFlds)
| .furrowClear _ => some ([.pat], [])
| .nop _ => some ([.mgt, .pat, .pin, .memc, .out], stopFlds ++ memFaultFlds ++ [F.MEM_SPEED_ABORT, F.RING_STAT_UNDERRUN 0, F.RING_STALLS 0])
| .vec _ => some ([.mgt, .pat, .pin, .memc, .out], stopFlds ++ memFaultFlds ++ [F.MEM_SPEED_ABORT, F.RING_STAT_UNDERRUN 0, F.RING_STALLS 0])
| .vecLoad _ => some ([.mgt, .pat, .pin, .memc, .out], stopFlds ++ memFaultFlds ++ [F.MEM_SPEED_ABORT, F.RING_STAT_UNDERRUN 0, F.RING_STALLS 0])
| .veci _ => some ([.mgt, .pat, .pin, .memc, .out], stopFlds ++ memFaultFlds ++ [F.MEM_SPEED_ABORT, F.RING_STAT_UNDERRUN 0, F.RING_STALLS 0])
| .rpt _ => some ([.mgt, .pat, .pin, .memc, .out], stopFlds ++ memFaultFlds ++ [F.MEM_SPEED_ABORT, F.RING_STAT_UNDERRUN 0, F.RING_STALLS 0])
| .fill _ => some ([.mgt, .pat, .pin, .memc, .out], stopFlds ++ memFaultFlds ++ [F.MEM_SPEED_ABORT, F.RING_STAT_UNDERRUN 0, F.RING_STALLS 0])
| .pal _ => some ([.mgt, .pat, .pin, .memc, .out], stopFlds ++ memFaultFlds ++ [F.MEM_SPEED_ABORT, F.RING_STAT_UNDERRUN 0, F.RING_STALLS 0])
| .stream _ => some ([.mgt, .pat, .pin, .memc, .out], stopFlds ++ memFaultFlds ++ [F.MEM_SPEED_ABORT, F.RING_STAT_UNDERRUN 0, F.RING_STALLS 0])
| .ringDataResume _ => some ([.pat], [])
| .scan _ => some ([.mgt, .pat, .pin, .memc, .out], stopFlds ++ memFaultFlds ++ [F.MEM_SPEED_ABORT, F.RING_STAT_UNDERRUN 0, F.RING_STALLS 0])
| .loop _ => some ([.mgt, .pat, .pin, .memc, .out], stopFlds ++ memFaultFlds ++ [F.MEM_SPEED_ABORT, F.RING_STAT_UNDERRUN 0, F.RING_STALLS 0])
| .endl _ => some ([.mgt, .pat, .pin, .memc, .out], stopFlds ++ memFaultFlds ++ [F.MEM_SPEED_ABORT, F.RING_STAT_UNDERRUN 0, F.RING_STALLS 0])
| .call _ => some ([.mgt, .pat, .pin, .memc, .out], stopFlds ++ memFaultFlds ++ [F.MEM_SPEED_ABORT, F.RING_STAT_UNDERRUN 0, F.RING_STALLS 0])
| .ret _ => some ([.mgt, .pat, .pin, .memc, .out], stopFlds ++ memFaultFlds ++ [F.MEM_SPEED_ABORT, F.RING_STAT_UNDERRUN 0, F.RING_STALLS 0])
| .jmp _ => some ([.mgt, .pat, .pin, .memc, .out], stopFlds ++ memFaultFlds ++ [F.MEM_SPEED_ABORT, F.RING_STAT_UNDERRUN 0, F.RING_STALLS 0])
| .seg _ => some ([.mgt, .pat, .pin, .memc, .out], stopFlds ++ memFaultFlds ++ [F.MEM_SPEED_ABORT, F.RING_STAT_UNDERRUN 0, F.RING_STALLS 0])
| .alt _ => some ([.mgt, .pat, .pin, .memc, .out], stopFlds ++ memFaultFlds ++ [F.MEM_SPEED_ABORT, F.RING_STAT_UNDERRUN 0, F.RING_STALLS 0])
| .mark _ => some ([.mgt, .pat, .pin, .memc, .out], stopFlds ++ memFaultFlds ++ [F.MEM_SPEED_ABORT, F.RING_STAT_UNDERRUN 0, F.RING_STALLS 0])
| .match _ => some ([.mgt, .pat, .pin, .memc, .out], stopFlds ++ memFaultFlds ++ [F.MEM_SPEED_ABORT, F.RING_STAT_UNDERRUN 0, F.RING_STALLS 0])
| .waitt _ => some ([.mgt, .pat, .pin, .memc, .out], stopFlds ++ memFaultFlds ++ [F.MEM_SPEED_ABORT, F.RING_STAT_UNDERRUN 0, F.RING_STALLS 0])
| .trig _ => some ([.mgt, .pat, .pin, .memc, .out], stopFlds ++ memFaultFlds ++ [F.MEM_SPEED_ABORT, F.RING_STAT_UNDERRUN 0, F.RING_STALLS 0])
| .label _ => some ([.mgt, .pat, .pin, .memc, .out], stopFlds ++ memFaultFlds ++ [F.MEM_SPEED_ABORT, F.RING_STAT_UNDERRUN 0, F.RING_STALLS 0])
| .flag _ => some ([.mgt, .pat, .pin, .memc, .out], stopFlds ++ memFaultFlds ++ [F.MEM_SPEED_ABORT, F.RING_STAT_UNDERRUN 0, F.RING_STALLS 0])
| .haltInstruction _ => some ([.mgt, .pat, .pin, .memc, .out], stopFlds ++ memFaultFlds ++ [F.MEM_SPEED_ABORT, F.RING_STAT_UNDERRUN 0, F.RING_STALLS 0])
| .firmwareSubmission _ => some ([.pat, .out], [F.DIS_P_REFUSE_STATUS, F.DIS_P_REFUSE_ROUTE, F.DIS_P_REFUSE_SITE, F.DIS_P_REFUSE_SOURCE, F.DIS_P_REFUSE_RING,
      F.SUBMITTED, F.SUB_REFUSED, F.BP_EVENTS, F.MSIX_PBA 0, F.INT_RAW])
| .descCtrlWrite _ _ _ => some ([.mgt, .pat, .out, .bus], faultFlds ++ [F.DESC_CTRL_EN 0, F.DESC_CTRL_SIZE 0, F.DESC_PROD 0, F.DESC_CONS 0, F.DESC_CPL_PROD 0,
      F.DESC_CPL_CONS 0])
| .descProdWrite _ _ _ => some ([.mgt, .out, .bus], [F.DESC_PROD 0, F.MSIX_PBA 0, F.INT_RAW])
| .descriptorFetch _ _ _ => some ([.pat, .out], [F.DIS_P_REFUSE_STATUS, F.DIS_P_REFUSE_ROUTE, F.DIS_P_REFUSE_SITE, F.DIS_P_REFUSE_SOURCE, F.DIS_P_REFUSE_RING,
      F.SUBMITTED, F.SUB_REFUSED, F.BP_EVENTS, F.DESC_CONS 0, F.DESC_CPL_PROD 0, F.DESC_STAT_HELD 0, F.MSIX_PBA 0, F.INT_RAW])
| .descCplConsWrite _ _ _ => some ([.mgt, .out, .bus], [F.DESC_CPL_CONS 0, F.MSIX_PBA 0, F.INT_RAW])
| .dispatchDecision => some ([.pat, .lcs, .out], [F.DIS_TICK, F.DIS_SHARE_ACT_0, F.DIS_SHARE_ACT_1, F.DIS_SHARE_ACT_2, F.DIS_SHARE_ACT_3, F.HINT_IGNORED,
      F.DIS_P_REFUSE_STATUS, F.DIS_P_REFUSE_ROUTE, F.DIS_P_REFUSE_SITE, F.DIS_P_REFUSE_SOURCE, F.DIS_P_REFUSE_RING, F.SUBMITTED, F.SUB_REFUSED, F.DIS_RETRIES,
      F.DIS_R_SPACE_WAIT 0, F.DIS_R_WHIST 0 0, F.ENG_BUSY, F.ENG_STALL, F.MSIX_PBA 0, F.INT_RAW])
| .caravanHandover _ => some ([.mgt, .pat, .pin, .out], stopFlds ++ [F.DIS_MCHK_LAST_ENGINE, F.DIS_MCHK_LAST_CAUSE, F.DIS_MCHK_LAST_ROUTE, F.DIS_MCHK_LAST_SITE,
      F.ENG_MCHK_CAUSE])
| .caravanCommit _ => some ([.mgt, .pat, .pin, .out], stopFlds ++ [F.COMMITTED, F.BP_EVENTS, F.DIS_R_PROGRESS_CODE 0, F.DIS_R_PFAULT_CODE 0, F.DIS_R_PFAULT_HEAD 0,
      F.DIS_R_PFAULT_VALID 0, F.DIS_R_PFADDR 0, F.DIS_R_COMMITS 0, F.ENG_COMMITS, F.RING_RD 0])
| .retiringExit => some ([.pat, .out], [F.DIS_P_REFUSE_STATUS, F.DIS_P_REFUSE_ROUTE, F.DIS_P_REFUSE_SITE, F.DIS_P_REFUSE_SOURCE, F.DIS_P_REFUSE_RING, F.SUBMITTED,
      F.SUB_REFUSED, F.CPL_LOST, F.DESC_CPL_PROD 0, F.MSIX_PBA 0, F.INT_RAW])
| .machineCheck _ _ => some ([.mgt, .pat, .out], faultFlds ++ [F.DIS_SHARE_ACT_0, F.DIS_SHARE_ACT_1, F.DIS_SHARE_ACT_2, F.DIS_SHARE_ACT_3, F.DIS_CLU_STAT_CS_HOLD,
      F.DIS_MCHK_LAST_ENGINE, F.DIS_MCHK_LAST_CAUSE, F.DIS_MCHK_LAST_ROUTE, F.DIS_MCHK_LAST_SITE, F.QUARANTINES, F.ENG_MCHK_COUNT, F.ENG_MCHK_CAUSE,
      F.ENG_MCHK_TOTAL, F.FLT_LIVE])
| .mcHang _ => some ([.mgt, .pat, .out], faultFlds ++ [F.DIS_SHARE_ACT_0, F.DIS_SHARE_ACT_1, F.DIS_SHARE_ACT_2, F.DIS_SHARE_ACT_3, F.DIS_CLU_STAT_CS_HOLD,
      F.DIS_MCHK_LAST_ENGINE, F.DIS_MCHK_LAST_CAUSE, F.DIS_MCHK_LAST_ROUTE, F.DIS_MCHK_LAST_SITE, F.QUARANTINES, F.ENG_MCHK_COUNT, F.ENG_MCHK_CAUSE,
      F.ENG_MCHK_TOTAL, F.FLT_LIVE])
| .csRewriteDone _ => some ([.mgt, .out], faultFlds ++ [F.DIS_CLU_STAT_CS_HOLD, F.FLT_LIVE])
| .poolCountRead _ => some ([.pat, .out, .bus], [])
| .disShareWrite _ _ => some ([.mgt, .tlk, .pin, .out, .bus], accessFlds ++ [F.DIS_SHARE_0, F.DIS_SHARE_1, F.DIS_SHARE_2, F.DIS_SHARE_3])
| .sluiceGrant _ => some ([.pat], [F.ENG_STALL])
| .pointerQueueTransfer _ _ => some ([.pat], [])
| .matchDecision _ => some ([.pat], [])
| .dwellEnd _ => some ([.mem, .mgt, .pat, .pin, .memc, .out], stopFlds ++ memFaultFlds ++ [F.CMP_SITE_STATE_ALT_LATE 0, F.CMP_SITE_FLAGS_JDISC 0, F.BP_EVENTS,
      F.FUR_DWELL_LAST 0, F.FUR_DWELL_MAX 0, F.FUR_PASS 0, F.FUR_REWINDS 0, F.MEM_P_C1_BYTES, F.MEM_P_C2_BYTES, F.MEM_P_C3_BYTES])
| .modeChange _ _ _ => some ([.mgt, .tlk, .pin, .cal, .out, .bus], accessFlds ++ [F.BNK_CTRL_MODE, F.BNK_STAT_MODE_ACT, F.BNK_STAT_CHANGING, F.DISCARDED])
| .modeChangeEnd _ => some ([.pin], [F.BNK_STAT_SAFE, F.BNK_STAT_CHANGING])
| .tsLoad _ _ _ => some ([.mgt, .tlk, .pin, .out, .bus], accessFlds ++ [F.BNK_TS_CMD_SET, F.BNK_TS_CMD_LOAD, F.BNK_TS_CMD_READ, F.BNK_TS_STAT_BUSY,
      F.BNK_TS_STAT_ERR, F.BNK_TS_STAT_PIN, F.BNK_TS_STAT_SET])
| .tsRead _ _ _ => some ([.mgt, .tlk, .pin, .out, .bus], accessFlds ++ [F.BNK_TS_CMD_SET, F.BNK_TS_CMD_LOAD, F.BNK_TS_CMD_READ, F.BNK_TS_STAT_BUSY,
      F.BNK_TS_STAT_ERR, F.BNK_TS_STAT_PIN, F.BNK_TS_STAT_SET])
| .tsDone _ => some ([.mgt, .pin, .out], faultFlds ++ [F.BNK_TS_CMD_LOAD, F.BNK_TS_CMD_READ, F.BNK_TS_STAT_BUSY, F.BNK_TS_STAT_ERR, F.BNK_TS_STAT_PIN,
      F.BNK_TS_STAT_SET, F.BNK_SETWIN 0])
| .followWrite _ _ _ => some ([.mgt, .tlk, .pin, .out, .bus], accessFlds ++ [F.BNK_FOLLOW_EN, F.BNK_FOLLOW_PIN, F.BNK_FOLLOW_FALL, F.BNK_FOLLOW_MUL,
      F.BNK_FOLLOW_DIV, F.BNK_FOLLOW_BW, F.BNK_FOLLOW_SCALE, F.BNK_FOLLOW_STAT_LOCK, F.BNK_FOLLOW_STAT_HOLD, F.BNK_FOLLOW_STAT_RANGE])
| .followedEdge _ => some ([.mgt, .pin, .out, .freeCtr], faultFlds ++ [F.BNK_FOLLOW_STAT_LOCK, F.BNK_FOLLOW_STAT_HOLD, F.BNK_FOLLOW_STAT_RANGE, F.BNK_FOLLOW_PER,
      F.FLT_LIVE])
| .followHold _ => some ([.mgt, .pin, .out], faultFlds ++ [F.BNK_FOLLOW_STAT_HOLD, F.BNK_FOLLOW_PER, F.FOLLOW_HOLDS, F.FLT_LIVE])
| .pinTxeqWrite _ _ _ _ => some ([.mgt, .tlk, .pin, .out, .bus], accessFlds ++ [F.BNK_PIN_TXEQ_C_PRE 0, F.BNK_PIN_TXEQ_C_MAIN 0, F.BNK_PIN_TXEQ_C_POST 0])
| .pecTxPush _ _ _ => some ([.mgt, .tlk, .pin, .out, .bus], accessFlds ++ [F.BNK_PEC_STAT_TX_LEVEL, F.BNK_PEC_STAT_RX_LEVEL, F.BNK_PEC_STAT_BUSY,
      F.BNK_PEC_STAT_WAITING])
| .pecTransferStart _ => some ([.pin, .out], [F.PEC_LATE, F.PEC_DISC, F.BNK_PEC_STAT_TX_LEVEL, F.BNK_PEC_STAT_RX_LEVEL, F.BNK_PEC_STAT_BUSY, F.BNK_PEC_STAT_WAITING,
      F.MSIX_PBA 0, F.INT_RAW])
| .pecTransferEnd _ _ => some ([.mgt, .pin, .out], faultFlds ++ [F.BNK_PEC_STAT_TX_LEVEL, F.BNK_PEC_STAT_RX_LEVEL, F.BNK_PEC_STAT_BUSY, F.BNK_PEC_STAT_WAITING])
| .pecRxPop _ _ => some ([.pin, .out, .bus], [F.BNK_PEC_STAT_TX_LEVEL, F.BNK_PEC_STAT_RX_LEVEL, F.BNK_PEC_STAT_BUSY, F.BNK_PEC_STAT_WAITING])
| .pecCfgWrite _ _ _ => some ([.mgt, .tlk, .pin, .out, .bus], accessFlds ++ [F.BNK_PEC_CFG_EN, F.BNK_PEC_CFG_CPOL, F.BNK_PEC_CFG_CPHA, F.BNK_PEC_CFG_DIV,
      F.BNK_PEC_CFG_GAP, F.BNK_PEC_CFG_SEL, F.BNK_PEC_STAT_TX_LEVEL, F.BNK_PEC_STAT_RX_LEVEL, F.BNK_PEC_STAT_BUSY, F.BNK_PEC_STAT_WAITING])
| .bnkSpareWrite _ _ _ => some ([.mgt, .tlk, .pin, .out, .bus], accessFlds ++ [F.BNK_SPARE_PIN, F.BNK_SPARE_VALID, F.CPL_ERR])
| .spareSubstitution _ _ => some ([.mgt, .tlk, .pat, .pin, .au, .memc, .boot, .lcs, .out], faultFlds ++ [F.TLK_MAP_TL0_LANE, F.TLK_MAP_TL1_LANE, F.TLK_P_STAT_LINK,
      F.TLK_L_RXSTAT_BLOCK_LOCK, F.TLK_L_RXSTAT_HI_BER, F.TLK_L_RXSTAT_FROZEN, F.DIS_SHARE_ACT_0, F.DIS_SHARE_ACT_1, F.DIS_SHARE_ACT_2, F.DIS_SHARE_ACT_3,
      F.BNK_SPARE_PIN, F.BNK_SPARE_VALID, F.BNK_SPARE_ACTIVE, F.EDG_SPARE_PIN, F.EDG_SPARE_VALID, F.EDG_SPARE_ACTIVE, F.AU_STAT_STATE, F.AU_SPARE_UNIT,
      F.AU_SPARE_VALID, F.FLT_LIVE, F.PWR_DOM_ON, F.LCS_PROP_LAST_ID, F.LCS_PROP_LAST_NO_SPARE, F.SUBSTITUTIONS])
| .strobeJudge _ _ _ => some ([.mgt, .pat, .pin, .out], faultFlds ++ [F.CMP_SITE_FLAGS_FLAG0 0, F.ACQ_C_STAT_STATE, F.ACQ_C_STAT_LOG2D, F.ACQ_C_STAT_BACKLOG,
      F.ACQ_C_LASTTVN, F.TRIG_MISSED, F.CMP_LED_STAT_QLEVEL, F.CMP_LED_STAT_FULL, F.CMP_LED_STAT_SUMMARY, F.CMP_LED_STAT_LOSS_PEND, F.LED_SUMMARIES, F.CMP_SR_FFVN 0,
      F.CMP_SR_FCNT 0, F.CMP_SR_STAT_FF_VALID 0, F.CMP_PIN_FCNT 0, F.CMP_PIN_STAT_FF_VALID 0, F.CMP_PIN_FFVN 0, F.TO_MERGED])
| .siteFailDelivery _ => some ([.pat], [])
| .ledgerDrain _ _ => some ([.mem, .mgt, .pat, .pin, .memc, .out], memFaultFlds ++ [F.CMP_LED_STAT_QLEVEL, F.CMP_LED_STAT_FULL, F.CMP_LED_STAT_SUMMARY,
      F.CMP_LED_STAT_LOSS_PEND, F.LED_LOST, F.MEM_P_C1_BYTES, F.MEM_P_C2_BYTES, F.MEM_P_C3_BYTES])
| .ledgerWriteAck _ => some ([.pin, .out], [F.CMP_LED_WCNT, F.MSIX_PBA 0, F.INT_RAW])
| .ledgerCtrlWrite _ _ _ => some ([.mgt, .tlk, .pat, .pin, .out, .bus], accessFlds ++ [F.CMP_LED_CTRL_EN, F.CMP_LED_CTRL_MODE, F.CMP_LED_CTRL_SIZE, F.CMP_LED_WCNT,
      F.CMP_LED_RCNT, F.CMP_LED_STAT_QLEVEL, F.CMP_LED_STAT_FULL, F.CMP_LED_STAT_SUMMARY, F.CMP_LED_STAT_LOSS_PEND])
| .ledgerRcntWrite _ _ _ => some ([.mgt, .tlk, .pin, .out, .bus], accessFlds ++ [F.CMP_LED_RCNT, F.CMP_LED_STAT_QLEVEL, F.CMP_LED_STAT_FULL, F.CMP_LED_STAT_SUMMARY,
      F.CMP_LED_STAT_LOSS_PEND])
| .ledRateWrite _ _ _ => some ([.mgt, .tlk, .pin, .out, .bus], accessFlds ++ [F.CMP_LED_RATE])
| .pinFcntWrite _ _ _ => some ([.mgt, .tlk, .pin, .out, .bus], accessFlds ++ [F.CMP_PIN_FCNT 0])
| .acqArm _ _ _ => some ([.mgt, .tlk, .pin, .out, .bus], accessFlds ++ [F.ACQ_C_CTRL_CONT, F.ACQ_C_CTRL_AUTO, F.ACQ_C_CTRL_WRAP_POST, F.ACQ_C_CTRL_LMODE,
      F.ACQ_C_CTRL_MASK_STOP, F.ACQ_C_CTRL_SITE, F.ACQ_C_WCNT, F.ACQ_C_RCNT, F.ACQ_C_STAT_STATE, F.ACQ_C_STAT_LOG2D, F.ACQ_C_STAT_BACKLOG, F.ACQ_C_ERR])
| .acqDisarm _ _ _ => some ([.mgt, .tlk, .pin, .out, .bus], accessFlds ++ [F.ACQ_C_CTRL_CONT, F.ACQ_C_CTRL_AUTO, F.ACQ_C_CTRL_WRAP_POST, F.ACQ_C_CTRL_LMODE,
      F.ACQ_C_CTRL_MASK_STOP, F.ACQ_C_CTRL_SITE, F.ACQ_C_STAT_STATE, F.ACQ_C_STAT_LOG2D, F.ACQ_C_STAT_BACKLOG])
| .acqForce _ _ _ => some ([.mgt, .tlk, .pat, .pin, .out, .bus], accessFlds ++ [F.ACQ_C_CTRL_CONT, F.ACQ_C_CTRL_AUTO, F.ACQ_C_CTRL_WRAP_POST, F.ACQ_C_CTRL_LMODE,
      F.ACQ_C_CTRL_MASK_STOP, F.ACQ_C_CTRL_SITE, F.ACQ_C_STAT_STATE, F.ACQ_C_STAT_LOG2D, F.ACQ_C_STAT_BACKLOG, F.ACQ_C_LASTTVN, F.TRIG_MISSED, F.TO_MERGED])
| .acqAutoTrigger _ => some ([.mgt, .pat, .pin, .out], faultFlds ++ [F.ACQ_C_STAT_STATE, F.ACQ_C_STAT_LOG2D, F.ACQ_C_STAT_BACKLOG, F.ACQ_C_LASTTVN, F.TRIG_MISSED,
      F.TO_MERGED])
| .acqWriterDrain _ _ => some ([.mem, .mgt, .pin, .memc, .out], memFaultFlds ++ [F.ACQ_C_STAT_STATE, F.ACQ_C_STAT_LOG2D, F.ACQ_C_STAT_BACKLOG, F.MEM_P_C1_BYTES,
      F.MEM_P_C2_BYTES, F.MEM_P_C3_BYTES])
| .recordDone _ => some ([.mem, .mgt, .pin, .memc, .out], memFaultFlds ++ [F.ACQ_C_WCNT, F.ACQ_C_STAT_STATE, F.ACQ_C_STAT_LOG2D, F.ACQ_C_STAT_BACKLOG, F.ACQ_RECORDS,
      F.MEM_P_C1_BYTES, F.MEM_P_C2_BYTES, F.MEM_P_C3_BYTES])
| .acqRearmEnd _ => some ([.pin], [F.ACQ_C_STAT_STATE, F.ACQ_C_STAT_LOG2D, F.ACQ_C_STAT_BACKLOG])
| .acqRcntWrite _ _ _ => some ([.mgt, .tlk, .pin, .out, .bus], accessFlds ++ [F.ACQ_C_RCNT, F.ACQ_C_STAT_STATE, F.ACQ_C_STAT_LOG2D, F.ACQ_C_STAT_BACKLOG])
| .maskWrite _ _ _ _ _ => some ([.mgt, .tlk, .pin, .out, .bus], accessFlds ++ [F.BNK_MASK_MODE 0, F.BNK_MASK_EDGE 0, F.BNK_MASK_MO 0, F.BNK_MASK_MC 0])
| .maskViolation _ _ _ => some ([.mgt, .pat, .pin, .out], faultFlds ++ [F.ACQ_C_STAT_STATE, F.ACQ_C_STAT_LOG2D, F.ACQ_C_STAT_BACKLOG, F.ACQ_C_LASTTVN,
      F.ACQ_C_MFIRST_VN, F.ACQ_C_MFIRST_PIN, F.ACQ_C_MFIRST_VALID, F.ACQ_C_MFIRST_STOPPED, F.BNK_MASK_VIOL 0, F.TRIG_MISSED, F.TO_MERGED])
| .trigoutOwnerWrite _ _ => some ([.mgt, .tlk, .pin, .out, .bus], accessFlds ++ [F.ACQ_TO_OWNER, F.ACQ_TO_CTRL_MODE])
| .trigoutWidthEnd _ => some ([.pin, .out], [])
| .converterEdge _ _ _ _ _ _ => some ([.mgt, .pin, .au, .out, .freeCtr], faultFlds ++ [F.EDG_SR_STAT_QLEVEL, F.EDG_SR_STAT_FULL, F.EDG_STAMPS 0, F.EDG_ACCEPTED 0,
      F.EDG_MERGED 0, F.EDG_HELD 0, F.EDG_LOST 0, F.AU_STAT_DEPTH, F.AU_TAP_STAT_LEVEL, F.AU_TAP_LOST, F.AU_TAP_OFF, F.PTB_COUNT 0])
| .stampCreditRefill _ => some ([.pin], [])
| .eraMarker _ _ => some ([.pin], [F.EDG_SR_STAT_QLEVEL, F.EDG_SR_STAT_FULL])
| .stampRingWrite _ => some ([.mem, .mgt, .pin, .memc, .out], memFaultFlds ++ [F.EDG_SR_WCNT, F.EDG_SR_STAT_QLEVEL, F.EDG_SR_STAT_FULL, F.SR_DROP, F.MEM_P_C1_BYTES,
      F.MEM_P_C2_BYTES, F.MEM_P_C3_BYTES])
| .stampRingCtrlWrite _ _ _ => some ([.mgt, .tlk, .pin, .out, .bus], accessFlds ++ [F.EDG_SR_CTRL_EN, F.EDG_SR_CTRL_MODE, F.EDG_SR_CTRL_SIZE, F.EDG_SR_WCNT,
      F.EDG_SR_RCNT, F.EDG_SR_STAT_QLEVEL, F.EDG_SR_STAT_FULL])
| .stampRingRcntWrite _ _ _ => some ([.mgt, .tlk, .pin, .out, .bus], accessFlds ++ [F.EDG_SR_RCNT, F.EDG_SR_STAT_QLEVEL, F.EDG_SR_STAT_FULL])
| .edgPinCfgWrite _ _ _ => some ([.mgt, .tlk, .pin, .out, .bus], accessFlds ++ [F.EDG_PIN_CFG_EN 0, F.EDG_PIN_CFG_EDGE 0, F.EDG_PIN_CFG_SRC 0, F.EDG_PIN_CFG_PRE 0,
      F.EDG_PIN_CFG_RING 0, F.EDG_PIN_CFG_AU_EN 0, F.EDG_PIN_CFG_AU 0, F.EDG_STAMPS 0, F.EDG_ACCEPTED 0, F.EDG_MERGED 0, F.EDG_HELD 0, F.EDG_LOST 0])
| .fcDone _ => some ([.pin, .out], [F.EDG_FC_STAT_VALID 0, F.EDG_FC_STAT_NOEDGE 0, F.EDG_FC_STAT_SKIP 0, F.EDG_FC_N 0, F.EDG_FC_T 0, F.MSIX_PBA 0, F.INT_RAW])
| .fcNRead _ _ => some ([.pin, .out, .bus], [])
| .edgLostRead _ _ => some ([.pin, .out, .bus], [])
| .edgSpareWrite _ _ _ => some ([.mgt, .tlk, .pin, .out, .bus], accessFlds ++ [F.EDG_SPARE_PIN, F.EDG_SPARE_VALID, F.CPL_ERR])
| .auAssignWrite _ _ _ => some ([.mgt, .tlk, .pin, .out, .bus], accessFlds ++ [F.AU_ASSIGN_PART, F.AU_ASSIGN_CLEARING])
| .auClearDone _ => some ([.au], [F.AU_ASSIGN_CLEARING, F.AU_STAT_DEPTH, F.AU_FLAGS_OVF_A0, F.AU_FLAGS_OVF_A1, F.AU_FLAGS_RSAT, F.AU_FLAGS_TAPSAT, F.AU_FLAGS_Z,
      F.AU_FLAGS_N, F.AU_TAP_STAT_LEVEL, F.AU_REFT_FRAC, F.AU_REFT, F.AU_X 0, F.AU_A_RE 0, F.AU_A_IM 0, F.AU_AR_PTR 0, F.AU_AR_BASE 0, F.AU_AR_LEN 0, F.AU_AR_MOD 0])
| .auGo _ _ _ => some ([.mgt, .tlk, .pin, .au, .out, .bus], accessFlds ++ [F.AU_CTRL_SAT_EN, F.AU_CTRL_IE, F.AU_STAT_STATE, F.AU_STAT_PC, F.AU_STAT_DEPTH,
      F.AU_STAT_IE, F.AU_FLAGS_OVF_A0, F.AU_FLAGS_OVF_A1, F.AU_FLAGS_RSAT, F.AU_FLAGS_TAPSAT, F.AU_FLAGS_Z, F.AU_FLAGS_N, F.AU_TAP_STAT_LEVEL, F.AU_X 0, F.AU_A_RE 0,
      F.AU_A_IM 0, F.AU_AR_PTR 0, F.AU_AR_BASE 0, F.AU_AR_LEN 0, F.AU_AR_MOD 0, F.WRITE_LOCKED])
| .auHalt _ _ _ => some ([.mgt, .tlk, .pin, .au, .out, .bus], accessFlds ++ [F.AU_CTRL_SAT_EN, F.AU_CTRL_IE, F.AU_STAT_STATE, F.AU_STAT_PC, F.AU_STAT_DEPTH,
      F.AU_STAT_IE, F.AU_FLAGS_OVF_A0, F.AU_FLAGS_OVF_A1, F.AU_FLAGS_RSAT, F.AU_FLAGS_TAPSAT, F.AU_FLAGS_Z, F.AU_FLAGS_N, F.AU_TAP_STAT_LEVEL, F.AU_X 0, F.AU_A_RE 0,
      F.AU_A_IM 0, F.AU_AR_PTR 0, F.AU_AR_BASE 0, F.AU_AR_LEN 0, F.AU_AR_MOD 0, F.WRITE_LOCKED])
| .auReset _ _ _ => some ([.mgt, .tlk, .pin, .au, .out, .bus], accessFlds ++ [F.AU_CTRL_SAT_EN, F.AU_CTRL_IE, F.AU_STAT_STATE, F.AU_STAT_PC, F.AU_STAT_DEPTH,
      F.AU_STAT_IE, F.AU_FLAGS_OVF_A0, F.AU_FLAGS_OVF_A1, F.AU_FLAGS_RSAT, F.AU_FLAGS_TAPSAT, F.AU_FLAGS_Z, F.AU_FLAGS_N, F.AU_TAP_STAT_LEVEL, F.AU_X 0, F.AU_A_RE 0,
      F.AU_A_IM 0, F.AU_AR_PTR 0, F.AU_AR_BASE 0, F.AU_AR_LEN 0, F.AU_AR_MOD 0, F.WRITE_LOCKED])
| .auDoorbell _ _ _ => some ([.mgt, .tlk, .pin, .au, .out, .bus], accessFlds)
| .auInterrupt _ => some ([.mgt, .au, .lcs, .out], faultFlds ++ [F.AU_STAT_STATE, F.AU_STAT_PC, F.AU_STAT_DEPTH, F.AU_STAT_IE, F.AU_FAULT_INFO_CODE,
      F.AU_FAULT_INFO_PC, F.AU_FAULT_INFO_ADDR, F.AU_TAP_STAT_LEVEL])
| .auDataWindowRead _ _ _ _ => some ([.mgt, .lcs, .out, .bus], faultFlds)
| .auNop _ _ => some ([.mgt, .au, .lcs, .out], faultFlds ++ [F.AU_STAT_STATE, F.AU_STAT_PC, F.AU_FAULT_INFO_CODE, F.AU_FAULT_INFO_PC, F.AU_FAULT_INFO_ADDR,
      F.AU_INSNS, F.AU_STALLS])
| .cmac _ _ => some ([.mgt, .au, .lcs, .out], faultFlds ++ [F.AU_STAT_STATE, F.AU_STAT_PC, F.AU_FLAGS_OVF_A0, F.AU_FLAGS_OVF_A1, F.AU_FAULT_INFO_CODE,
      F.AU_FAULT_INFO_PC, F.AU_FAULT_INFO_ADDR, F.AU_A_RE 0, F.AU_A_IM 0, F.AU_AR_PTR 0, F.AU_INSNS, F.AU_STALLS])
| .cmacx _ _ => some ([.mgt, .au, .lcs, .out], faultFlds ++ [F.AU_STAT_STATE, F.AU_STAT_PC, F.AU_FLAGS_OVF_A0, F.AU_FLAGS_OVF_A1, F.AU_FAULT_INFO_CODE,
      F.AU_FAULT_INFO_PC, F.AU_FAULT_INFO_ADDR, F.AU_A_RE 0, F.AU_A_IM 0, F.AU_AR_PTR 0, F.AU_INSNS, F.AU_STALLS])
| .rnd _ _ => some ([.mgt, .au, .lcs, .out], faultFlds ++ [F.AU_STAT_STATE, F.AU_STAT_PC, F.AU_FLAGS_RSAT, F.AU_FAULT_INFO_CODE, F.AU_FAULT_INFO_PC,
      F.AU_FAULT_INFO_ADDR, F.AU_X 0, F.AU_INSNS, F.AU_STALLS])
| .mva _ _ => some ([.mgt, .au, .lcs, .out], faultFlds ++ [F.AU_STAT_STATE, F.AU_STAT_PC, F.AU_FAULT_INFO_CODE, F.AU_FAULT_INFO_PC, F.AU_FAULT_INFO_ADDR, F.AU_X 0,
      F.AU_INSNS, F.AU_STALLS])
| .ld _ _ => some ([.mgt, .au, .lcs, .out], faultFlds ++ [F.AU_STAT_STATE, F.AU_STAT_PC, F.AU_FAULT_INFO_CODE, F.AU_FAULT_INFO_PC, F.AU_FAULT_INFO_ADDR, F.AU_X 0,
      F.AU_AR_PTR 0, F.AU_INSNS, F.AU_STALLS])
| .st _ _ => some ([.mgt, .au, .lcs, .out], faultFlds ++ [F.AU_STAT_STATE, F.AU_STAT_PC, F.AU_FAULT_INFO_CODE, F.AU_FAULT_INFO_PC, F.AU_FAULT_INFO_ADDR, F.AU_AR_PTR
      0, F.AU_INSNS, F.AU_STALLS])
| .ldi _ _ => some ([.mgt, .au, .lcs, .out], faultFlds ++ [F.AU_STAT_STATE, F.AU_STAT_PC, F.AU_FAULT_INFO_CODE, F.AU_FAULT_INFO_PC, F.AU_FAULT_INFO_ADDR, F.AU_X 0,
      F.AU_INSNS, F.AU_STALLS])
| .alu _ _ => some ([.mgt, .au, .lcs, .out], faultFlds ++ [F.AU_STAT_STATE, F.AU_STAT_PC, F.AU_FLAGS_Z, F.AU_FLAGS_N, F.AU_FAULT_INFO_CODE, F.AU_FAULT_INFO_PC,
      F.AU_FAULT_INFO_ADDR, F.AU_X 0, F.AU_INSNS, F.AU_STALLS])
| .addi _ _ => some ([.mgt, .au, .lcs, .out], faultFlds ++ [F.AU_STAT_STATE, F.AU_STAT_PC, F.AU_FLAGS_Z, F.AU_FLAGS_N, F.AU_FAULT_INFO_CODE, F.AU_FAULT_INFO_PC,
      F.AU_FAULT_INFO_ADDR, F.AU_X 0, F.AU_INSNS, F.AU_STALLS])
| .lda _ _ => some ([.mgt, .au, .lcs, .out], faultFlds ++ [F.AU_STAT_STATE, F.AU_STAT_PC, F.AU_FAULT_INFO_CODE, F.AU_FAULT_INFO_PC, F.AU_FAULT_INFO_ADDR, F.AU_AR_PTR
      0, F.AU_AR_BASE 0, F.AU_AR_LEN 0, F.AU_AR_MOD 0, F.AU_INSNS, F.AU_STALLS])
| .tapd _ _ _ => some ([.mgt, .au, .lcs, .out], faultFlds ++ [F.AU_STAT_STATE, F.AU_STAT_PC, F.AU_STAT_DEPTH, F.AU_FLAGS_TAPSAT, F.AU_FAULT_INFO_CODE,
      F.AU_FAULT_INFO_PC, F.AU_FAULT_INFO_ADDR, F.AU_TAP_STAT_LEVEL, F.AU_REFT_FRAC, F.AU_REFT, F.AU_X 0, F.AU_INSNS, F.AU_STALLS])
| .br _ _ => some ([.mgt, .au, .lcs, .out], faultFlds ++ [F.AU_STAT_STATE, F.AU_STAT_PC, F.AU_FAULT_INFO_CODE, F.AU_FAULT_INFO_PC, F.AU_FAULT_INFO_ADDR, F.AU_INSNS,
      F.AU_STALLS])
| .auCall _ _ => some ([.mgt, .au, .lcs, .out], faultFlds ++ [F.AU_STAT_STATE, F.AU_STAT_PC, F.AU_STAT_DEPTH, F.AU_FAULT_INFO_CODE, F.AU_FAULT_INFO_PC,
      F.AU_FAULT_INFO_ADDR, F.AU_TAP_STAT_LEVEL, F.AU_INSNS, F.AU_STALLS])
| .auRet _ _ => some ([.mgt, .au, .lcs, .out], faultFlds ++ [F.AU_STAT_STATE, F.AU_STAT_PC, F.AU_STAT_DEPTH, F.AU_FAULT_INFO_CODE, F.AU_FAULT_INFO_PC,
      F.AU_FAULT_INFO_ADDR, F.AU_TAP_STAT_LEVEL, F.AU_INSNS, F.AU_STALLS])
| .reti _ _ => some ([.mgt, .au, .lcs, .out], faultFlds ++ [F.AU_STAT_STATE, F.AU_STAT_PC, F.AU_STAT_DEPTH, F.AU_STAT_IE, F.AU_FAULT_INFO_CODE, F.AU_FAULT_INFO_PC,
      F.AU_FAULT_INFO_ADDR, F.AU_TAP_STAT_LEVEL, F.AU_INSNS, F.AU_STALLS])
| .auRpt _ _ => some ([.mgt, .au, .lcs, .out], faultFlds ++ [F.AU_STAT_STATE, F.AU_STAT_PC, F.AU_FAULT_INFO_CODE, F.AU_FAULT_INFO_PC, F.AU_FAULT_INFO_ADDR,
      F.AU_INSNS, F.AU_STALLS])
| .rptr _ _ => some ([.mgt, .au, .lcs, .out], faultFlds ++ [F.AU_STAT_STATE, F.AU_STAT_PC, F.AU_FAULT_INFO_CODE, F.AU_FAULT_INFO_PC, F.AU_FAULT_INFO_ADDR,
      F.AU_INSNS, F.AU_STALLS])
| .rptb _ _ => some ([.mgt, .au, .lcs, .out], faultFlds ++ [F.AU_STAT_STATE, F.AU_STAT_PC, F.AU_FAULT_INFO_CODE, F.AU_FAULT_INFO_PC, F.AU_FAULT_INFO_ADDR,
      F.AU_INSNS, F.AU_STALLS])
| .wait _ _ _ => some ([.mgt, .au, .lcs, .out], faultFlds ++ [F.AU_STAT_STATE, F.AU_STAT_PC, F.AU_FAULT_INFO_CODE, F.AU_FAULT_INFO_PC, F.AU_FAULT_INFO_ADDR,
      F.AU_INSNS, F.AU_STALLS])
| .auHaltInstruction _ _ => some ([.mgt, .au, .lcs, .out], faultFlds ++ [F.AU_STAT_STATE, F.AU_STAT_PC, F.AU_FAULT_INFO_CODE, F.AU_FAULT_INFO_PC,
      F.AU_FAULT_INFO_ADDR, F.AU_INSNS, F.AU_STALLS])
| .sig _ _ => some ([.mgt, .au, .lcs, .out], faultFlds ++ [F.AU_STAT_STATE, F.AU_STAT_PC, F.AU_FAULT_INFO_CODE, F.AU_FAULT_INFO_PC, F.AU_FAULT_INFO_ADDR,
      F.AU_MSG_CODE, F.AU_INSNS, F.AU_STALLS])
| .clrf _ _ => some ([.mgt, .au, .lcs, .out], faultFlds ++ [F.AU_STAT_STATE, F.AU_STAT_PC, F.AU_FLAGS_OVF_A0, F.AU_FLAGS_OVF_A1, F.AU_FLAGS_RSAT, F.AU_FLAGS_TAPSAT,
      F.AU_FAULT_INFO_CODE, F.AU_FAULT_INFO_PC, F.AU_FAULT_INFO_ADDR, F.AU_INSNS, F.AU_STALLS])
| .auSpareWrite _ _ => some ([.mgt, .tlk, .pin, .out, .bus], accessFlds ++ [F.AU_SPARE_UNIT, F.AU_SPARE_VALID, F.CPL_ERR])
| .auSubstDone => some ([.mgt, .au, .lcs, .out], [F.AU_STAT_STATE, F.AU_START, F.AU_FLAGS_OVF_A0, F.AU_FLAGS_OVF_A1, F.AU_FLAGS_RSAT, F.AU_FLAGS_TAPSAT,
      F.AU_FLAGS_Z, F.AU_FLAGS_N, F.AU_IEN_HOST, F.AU_IEN_TAP, F.AU_REFT_FRAC, F.AU_REFT, F.AU_REFSTEP_FRAC, F.AU_REFSTEP, F.AU_SPARE_ACTIVE, F.AU_X 0, F.AU_A_RE 0,
      F.AU_A_IM 0, F.AU_AR_PTR 0, F.AU_AR_BASE 0, F.AU_AR_LEN 0, F.AU_AR_MOD 0, F.AU_INSNS, F.AU_STALLS, F.AU_TAP_LOST, F.AU_TAP_OFF, F.MSIX_PBA 0, F.INT_RAW,
      F.MGT_EVLOG_WCNT, F.MGT_EVLOG_OVWR, F.LCS_PROP_LAST_ID, F.LCS_PROP_LAST_NO_SPARE, F.SUBSTITUTIONS])
| .calRequest _ _ _ => some ([.mgt, .tlk, .pin, .cal, .out, .bus], accessFlds ++ [F.CAL_REQ_CLASSES, F.CAL_REQ_BANKS, F.CAL_STAT_BUSY, F.CAL_STAT_CLASS,
      F.CAL_STAT_BANK, F.CAL_STAT_PENDING, F.PWR_DOM_ON, F.CAL_P_REQ_CLASSES, F.CAL_P_REQ_BANKS])
| .calCancel _ _ => some ([.mgt, .tlk, .pin, .cal, .out, .bus], accessFlds ++ [F.CAL_REQ_CLASSES, F.CAL_REQ_BANKS, F.CAL_STAT_BUSY, F.CAL_STAT_CLASS,
      F.CAL_STAT_BANK, F.CAL_STAT_PENDING, F.PWR_DOM_ON, F.CAL_P_REQ_CLASSES, F.CAL_P_REQ_BANKS])
| .calAutoRequest _ => some ([.cal], [F.CAL_STAT_BUSY, F.CAL_STAT_CLASS, F.CAL_STAT_BANK, F.CAL_STAT_PENDING, F.PWR_DOM_ON])
| .calClassStart _ => some ([.pin, .cal, .lcs, .out], [F.AU_CU_FW_HELD, F.CAL_STAT_BUSY, F.CAL_STAT_CLASS, F.CAL_STAT_BANK, F.CAL_STAT_PENDING, F.CAL_LAST_REASON,
      F.CAL_LAST_CLASS, F.CAL_LAST_BANK, F.CAL_LAST_SLOT, F.CAL_LAST_PERSIST, F.CAL_C_REJECTS 0, F.MSIX_PBA 0, F.INT_RAW, F.PWR_DOM_ON])
| .calRunDone _ _ => some ([.mgt, .cal, .boot, .lcs, .out], faultFlds ++ [F.AU_CU_FW_HELD, F.CAL_STAT_BUSY, F.CAL_STAT_CLASS, F.CAL_STAT_BANK, F.CAL_STAT_PENDING,
      F.CAL_LAST_REASON, F.CAL_LAST_CLASS, F.CAL_LAST_BANK, F.CAL_LAST_SLOT, F.CAL_LAST_PERSIST, F.CAL_C_REJECTS 0, F.CAL_BANK_VALID 0, F.CAL_BANK_NOMINAL 0,
      F.CAL_BANK_DUE 0, F.CAL_BANK_TEMP 0, F.FLT_LIVE, F.PWR_DOM_ON])
| .calAbort _ => some ([.cal], [F.AU_CU_FW_HELD, F.CAL_STAT_BUSY, F.CAL_STAT_CLASS, F.CAL_STAT_BANK, F.CAL_STAT_PENDING, F.CAL_LAST_REASON, F.CAL_LAST_CLASS,
      F.CAL_LAST_BANK, F.CAL_LAST_SLOT, F.CAL_LAST_PERSIST, F.CAL_ABORTS, F.PWR_DOM_ON])
| .calRecordWrite _ _ => some ([.mgt, .cal, .boot, .out], faultFlds ++ [F.AU_CU_FW_HELD, F.CAL_STAT_BUSY, F.CAL_STAT_CLASS, F.CAL_STAT_BANK, F.CAL_STAT_PENDING,
      F.CAL_LAST_REASON, F.CAL_LAST_CLASS, F.CAL_LAST_BANK, F.CAL_LAST_SLOT, F.CAL_LAST_PERSIST, F.CAL_C_COUNT 0, F.CAL_C_TIME_LO 0, F.CAL_C_TIME_HI 0, F.FLASH_ERR,
      F.PWR_DOM_ON, F.FLASH_OPS])
| .memoryRequest _ _ _ _ _ _ _ => some ([.mgt, .memc, .lcs, .out, .freeCtr], memFaultFlds ++ [F.MEM_SPEED_ABORT])
| .memoryReadDone _ _ _ _ => some ([.mgt, .pat, .pin, .memc, .lcs, .out, .freeCtr], stopFlds ++ memFaultFlds ++ [F.MEM_CE_BLOCKS, F.MEM_CE_SYMBOLS, F.MEM_P_CE,
      F.MEM_P_C1_BYTES, F.MEM_P_C2_BYTES, F.MEM_P_C3_BYTES])
| .memoryWriteAck _ _ _ _ => some ([.mem, .mgt, .memc, .lcs, .out, .freeCtr], memFaultFlds ++ [F.MEM_CE_BLOCKS, F.MEM_CE_SYMBOLS, F.MEM_P_CE, F.MEM_P_C1_BYTES,
      F.MEM_P_C2_BYTES, F.MEM_P_C3_BYTES])
| .stackTempRead _ => some ([.mgt, .memc, .out], faultFlds ++ [F.MEM_TEMP_TEMP, F.MEM_TEMP_VALID, F.MEM_TEMP_HOT_RATE, F.MEM_TEMP_SEVERE, F.FLT_LIVE])
| .refreshTick _ => some ([.memc], [])
| .refreshUnit _ => some ([.memc], [F.MEM_REF_CATCHUP])
| .speedTargetWrite _ _ => some ([.mgt, .tlk, .pin, .out, .bus], accessFlds ++ [F.MEM_SPEED_TARGET, F.MEM_SPEED_PENDING])
| .speedChangeEntry _ => some ([.memc], [F.MEM_REF_CATCHUP])
| .speedDone => some ([.memc, .out], [F.MEM_SPEED_ACTIVE, F.MEM_SPEED_PENDING, F.MSIX_PBA 0, F.INT_RAW])
| .scrubRead _ => some ([.mgt, .memc, .lcs, .out], memFaultFlds ++ [F.MEM_SCRUB_POS, F.MEM_CE_BLOCKS, F.MEM_CE_SYMBOLS, F.MEM_SCRUB_PASSES, F.MEM_P_CE])
| .retirementStart _ => some ([.memc, .lcs, .out], [F.MSIX_PBA 0, F.INT_RAW, F.LCS_PROP_LAST_ID, F.LCS_PROP_LAST_NO_SPARE])
| .retirementDone _ _ => some ([.mgt, .memc, .boot, .lcs, .out], memFaultFlds ++ [F.MEM_SPARES, F.MEM_RETIRED, F.FLT_LIVE, F.PWR_DOM_ON, F.LCS_PROP_LAST_ID,
      F.LCS_PROP_LAST_NO_SPARE, F.SUBSTITUTIONS])
| .mapLookup _ _ => some ([.mgt, .tlk, .pin, .memc, .out, .bus], accessFlds ++ [F.MEM_MAP_Q])
| .mapLookupDone _ => some ([.mgt, .memc, .out, .freeCtr], memFaultFlds ++ [F.MEM_MAP_ENT])
| .quotaWrite _ _ => some ([.mem, .mgt, .tlk, .pin, .memc, .out, .bus], accessFlds ++ [F.HIF_QUOTA_0, F.HIF_QUOTA_1, F.HIF_QUOTA_2, F.HIF_QUOTA_3])
| .clearDone _ => some ([.memc, .out], [F.MSIX_PBA 0, F.INT_RAW])
| .bar2Write _ _ _ _ => some ([.mem, .mgt, .memc, .out, .bus], memFaultFlds ++ [F.MEM_P_C1_BYTES, F.MEM_P_C2_BYTES, F.MEM_P_C3_BYTES, F.OOR_ACCESS, F.POISON_RX])
| .bar2Read _ _ _ _ => some ([.mgt, .memc, .out, .bus], memFaultFlds ++ [F.MEM_P_C1_BYTES, F.MEM_P_C2_BYTES, F.MEM_P_C3_BYTES, F.OOR_ACCESS])
| .bar2Resize _ _ => some ([.hif], [F.HIF_P_WIN])
| .hifPWinWrite _ _ _ => some ([.mgt, .tlk, .pin, .out, .bus], accessFlds ++ [F.HIF_P_WIN])
| .bankOwnerChange _ _ _ => some ([.mgt, .tlk, .pat, .pin, .cal, .hif, .out, .bus], stopFlds ++ accessFlds ++ [F.HIF_DEV_STAT_MOVING, F.HIF_BANK_OWN_LO,
      F.HIF_BANK_OWN_HI])
| .bankMoveDone _ => none
| .ringCtrlWrite _ _ _ => some ([.mgt, .out, .bus], faultFlds ++ [F.RING_CTRL_EN 0, F.RING_CTRL_MODE 0, F.RING_CTRL_PAGE 0, F.RING_CTRL_NPAGES 0, F.RING_WR 0,
      F.RING_RD 0])
| .ringWrWrite _ _ _ => some ([.mgt, .out, .bus], faultFlds ++ [F.RING_WR 0, F.WRITE_LOCKED])
| .ringFetchPush _ _ _ => some ([.mgt, .hif, .out, .bus], [F.RING_STAT_FQ_LEVEL 0, F.MSIX_PBA 0, F.INT_RAW])
| .ringFetchStart _ _ => some ([.hif], [F.RING_STAT_FQ_LEVEL 0])
| .ringFetchDone _ _ _ => some ([.mem, .mgt, .memc, .hif, .out], memFaultFlds ++ [F.MEM_P_C1_BYTES, F.MEM_P_C2_BYTES, F.MEM_P_C3_BYTES, F.RING_WR 0,
      F.RING_STAT_FQ_LEVEL 0])
| .dmaErr _ _ _ => some ([.mgt, .hif, .out], faultFlds ++ [F.DESC_CTRL_EN 0, F.DESC_STAT_ERROR 0, F.RING_CTRL_EN 0, F.RING_STAT_ERROR 0, F.RING_STAT_FQ_LEVEL 0])
| .msixUnmask _ _ => some ([.mgt, .out, .bus], [F.MSIX_TABLE 0, F.MSIX_PBA 0])
| .intRawClear _ _ _ => some ([.mgt, .tlk, .pin, .out, .bus], accessFlds)
| .intSetWrite _ _ _ => some ([.mgt, .tlk, .pin, .out, .bus], accessFlds)
| .partitionReset _ _ => some ([.mgt, .tim, .pat, .pin, .au, .cal, .hif, .out, .bus], stopFlds ++ [F.TIM_DTB_CMD_INC_GO, F.TIM_DTB_CMD_ADJ_GO, F.TIM_DTB_CMD_SET_GO,
      F.TIM_TP_CTRL_MODE, F.TIM_TP_STAT_ARMED, F.ACQ_TO_CTRL_MODE, F.AU_STAT_STATE, F.HIF_DEV_STAT_PORT_UP, F.HIF_DEV_STAT_PRESET, F.HIF_P_LINK_SPEED,
      F.HIF_P_LINK_WIDTH, F.MBX_CMD_PROD, F.MBX_RSP_CONS, F.DESC_CTRL_EN 0, F.RING_CTRL_EN 0, F.RING_STAT_FQ_LEVEL 0])
| .partitionResetDone _ => none
| .pcieLinkTrainingStart _ => some ([.hif], [])
| .registerWrite _ _ _ _ _ _ => none
| .complementPairOpen _ _ _ => some ([.mgt, .tlk, .pin, .out, .bus], accessFlds ++ [F.CPL_ERR])
| .cplPairTimeout _ _ => some ([.mgt, .out], faultFlds ++ [F.CPL_ERR])
| .lowWordWrite _ _ _ => none
| .highWordWrite _ _ _ => none
| .lowWordRead _ _ _ => none
| .lockWrite _ _ _ => none
| .parityScan _ _ => none
| .functionEnable _ _ => some ([.mgt, .tlk, .pin, .pwr, .out, .bus], accessFlds ++ [F.BLK_CTRL_EN, F.BLK_STAT_ON_PENDING])
| .functionDisable _ _ => some ([.mgt, .tlk, .pin, .cal, .pwr, .out, .bus], accessFlds ++ [F.BLK_CTRL_EN, F.BLK_STAT_ON_PENDING, F.BLK_STAT_OFF_PENDING])
| .shutdownDone _ => none
| .startupDone _ => some ([.mgt, .tlk, .pat, .pin, .pwr, .boot, .out], faultFlds ++ [F.TLK_P_STAT_LINK, F.TLK_P_STAT_PTP, F.TLK_L_RXSTAT_BLOCK_LOCK,
      F.TLK_L_RXSTAT_HI_BER, F.TLK_L_RXSTAT_FROZEN, F.DIS_SHARE_ACT_0, F.DIS_SHARE_ACT_1, F.DIS_SHARE_ACT_2, F.DIS_SHARE_ACT_3, F.BNK_STAT_MODE_ACT,
      F.MEM_TEMP_VALID, F.BLK_STAT_ON_PENDING, F.BLK_STAT_OFF_PENDING, F.FLT_LIVE, F.PWR_DOM_ON])
| .graceExpiry _ _ => some ([.mgt, .tim, .tlk, .pat, .pin, .au, .cal, .lcs, .out], stopFlds ++ [F.TIM_TP_CTRL_MODE, F.TIM_TP_STAT_ARMED, F.TIM_TP_STAT_ACTIVE,
      F.TLK_P_STAT_LINK, F.TLK_L_RXSTAT_BLOCK_LOCK, F.TLK_L_RXSTAT_HI_BER, F.TLK_L_RXSTAT_FROZEN, F.BNK_STAT_SAFE, F.AU_STAT_STATE, F.DESC_CTRL_EN 0, F.RING_CTRL_EN
      0, F.BLK_STAT_SAFE, F.FLT_ERRPIN, F.MGT_ERR_HALTED, F.MGT_HALT_TYPE, F.MGT_HALT_INST, F.MGT_HALT_CAUSE, F.ESCALATIONS, F.PTB_UNLOCK, F.PTB_STAT_UNLOCKED,
      F.PTB_STAT_ACTIVE, F.PTB_STAT_ANNOUNCED, F.PTB_CTRL_EN 0])
| .blockResetDone _ => none
| .faultClear _ _ _ => some ([.mgt, .tlk, .pin, .out, .bus], accessFlds ++ [F.CLR_REFUSED])
| .fwWdog => some ([.mgt, .lcs, .out], faultFlds)
| .evlogIdxWrite _ _ => some ([.mgt, .tlk, .pin, .out, .bus], accessFlds ++ [F.MGT_EVLOG_IDX])
| .evlogMark _ _ => some ([.mgt, .tlk, .pin, .out, .bus], accessFlds)
| .powerOnReset _ _ => none
| .brownOut => none
| .vinRestore => some ([.pwr, .freeCtr], [F.PWR_STAT_VIN_OK, F.PWR_DOM_ON, F.PWR_MON_VIN])
| .junctionOvertemp _ => none
| .overcurrent _ => some ([.mgt, .out], faultFlds ++ [F.FLT_LIVE, F.PWR_MON_IIN])
| .vinLow _ => none
| .regFault => some ([.mgt, .out], faultFlds ++ [F.FLT_LIVE])
| .tjHot _ => none
| .pwrIlimWrite _ _ => some ([.mgt, .tlk, .pin, .out, .bus], accessFlds ++ [F.CPL_ERR, F.PWR_ILIM])
| .rstNAssert => none
| .rstNRelease => some ([.pwr], [F.PWR_DOM_ON])
| .sleepVote _ _ _ => some ([.mgt, .tlk, .pin, .out, .bus], accessFlds ++ [F.PWR_P_SLEEP_VOTE])
| .sleepReq => some ([.mgt, .pat, .pin, .pwr, .out], stopFlds)
| .sleepDecision => some ([.mgt, .tim, .pat, .pin, .cal, .memc, .pwr, .out], stopFlds ++ [F.CAL_STAT_BUSY, F.CAL_STAT_CLASS, F.CAL_STAT_BANK, F.CAL_STAT_PENDING,
      F.MEM_SPEED_ACTIVE, F.MEM_SPEED_PENDING, F.PWR_STAT_STATE, F.PWR_DOM_ON])
| .sleepEntryDone => none
| .wake => some ([.mgt, .pwr], [F.MGT_EVLOG_WCNT, F.MGT_EVLOG_OVWR, F.PWR_STAT_STATE, F.PWR_LAST_WAKE_SRC])
| .l1ExitRequest _ => some ([.mgt, .pwr], [F.MGT_EVLOG_WCNT, F.MGT_EVLOG_OVWR, F.PWR_STAT_STATE, F.PWR_LAST_WAKE_SRC])
| .wakeTime => some ([.mgt, .pwr], [F.MGT_EVLOG_WCNT, F.MGT_EVLOG_OVWR, F.PWR_STAT_STATE, F.PWR_LAST_WAKE_SRC])
| .sleepReqFall => some ([.mgt, .pwr], [F.MGT_EVLOG_WCNT, F.MGT_EVLOG_OVWR, F.PWR_STAT_STATE, F.PWR_LAST_WAKE_SRC])
| .wakeDone _ => some ([.mgt, .tim, .tlk, .pat, .pin, .memc, .pwr, .boot, .out], faultFlds ++ [F.TIM_REF_STAT_HOLDOVER, F.TIM_REF_STAT_SLEWING, F.TIM_HOLD_EST,
      F.TIM_HOLD_TIME, F.TIM_FREQ_UNC, F.TIM_DTB_SUBNS, F.TIM_DTB_NS, F.TIM_DTB_SEC_LO, F.TIM_DTB_SEC_HI, F.TIM_TP_SKIP, F.TLK_P_STAT_LINK, F.TLK_P_STAT_PTP,
      F.TLK_L_RXSTAT_BLOCK_LOCK, F.TLK_L_RXSTAT_HI_BER, F.TLK_L_RXSTAT_FROZEN, F.DIS_SHARE_ACT_0, F.DIS_SHARE_ACT_1, F.DIS_SHARE_ACT_2, F.DIS_SHARE_ACT_3,
      F.BNK_STAT_MODE_ACT, F.MEM_TEMP_VALID, F.FLT_LIVE, F.PWR_STAT_STATE, F.PWR_DOM_ON])
| .romBoot _ => none
| .bootReady => some ([.mgt, .boot], [F.MGT_EVLOG_WCNT, F.MGT_EVLOG_OVWR, F.PWR_DOM_ON, F.BOOT_STAT_READY])
| .confirmTimeout => none
| .returnErasureDone => some ([.mem, .cal, .memc, .lcs], [F.LCS_STATE_ERASE_PEND])
| .updateWrite _ _ => some ([.mgt, .tlk, .pin, .boot, .out, .bus], accessFlds ++ [F.PWR_DOM_ON, F.BOOT_UPD_STAT_BUSY, F.BOOT_UPD_STAT_RESULT, F.BOOT_VER_A,
      F.BOOT_VER_B])
| .updDone _ _ => some ([.mgt, .memc, .boot, .out], memFaultFlds ++ [F.MEM_P_C1_BYTES, F.MEM_P_C2_BYTES, F.MEM_P_C3_BYTES, F.PWR_DOM_ON, F.BOOT_UPD_STAT_BUSY,
      F.BOOT_UPD_STAT_RESULT, F.BOOT_VER_A, F.BOOT_VER_B, F.FLASH_OPS])
| .updatePend _ _ => some ([.mgt, .tlk, .pin, .boot, .out, .bus], accessFlds ++ [F.PWR_DOM_ON, F.BOOT_UPD_STAT_BUSY, F.BOOT_UPD_STAT_RESULT, F.BOOT_VER_A,
      F.BOOT_VER_B])
| .updateUnpend _ _ => some ([.mgt, .tlk, .pin, .boot, .out, .bus], accessFlds ++ [F.PWR_DOM_ON, F.BOOT_UPD_STAT_BUSY, F.BOOT_UPD_STAT_RESULT, F.BOOT_VER_A,
      F.BOOT_VER_B])
| .recoverRequest _ _ => some ([.mgt, .tlk, .pin, .boot, .out, .bus], accessFlds ++ [F.PWR_DOM_ON, F.BOOT_UPD_STAT_BUSY, F.BOOT_UPD_STAT_RESULT, F.BOOT_VER_A,
      F.BOOT_VER_B])
| .flashOperationDone => some ([.boot], [F.PWR_DOM_ON, F.FLASH_OPS])
| .recErase => some ([.boot], [F.REC_STAT_BUSY, F.REC_STAT_RESULT, F.REC_STAT_REASON])
| .recWrite => some ([.boot], [F.REC_STAT_BUSY, F.REC_STAT_RESULT, F.REC_STAT_REASON])
| .recVerify => some ([.boot], [F.REC_STAT_BUSY, F.REC_STAT_RESULT, F.REC_STAT_REASON])
| .recCommit => some ([.boot], [F.REC_STAT_BUSY, F.REC_STAT_RESULT, F.REC_STAT_REASON])
| .recCommandDone _ _ => none
| .fuseSelect _ _ => some ([.mgt, .tlk, .pin, .out, .bus], accessFlds ++ [F.LCS_FUSE_SEL_WORD, F.LCS_FUSE_SEL_ROW, F.LCS_FUSE_RD, F.LCS_FUSE_STAT_RESULT])
| .fuseProgram _ _ => some ([.mgt, .tlk, .pin, .lcs, .out, .bus], accessFlds ++ [F.CPL_ERR, F.LCS_FUSE_CMD_PROG, F.LCS_FUSE_STAT_BUSY, F.LCS_FUSE_STAT_RESULT])
| .fuseDone _ => some ([.mgt, .lcs, .out], faultFlds ++ [F.HIF_DEV_STAT_PRIV, F.BOOT_SVN_MIN, F.LCS_SERIAL, F.LCS_FUSE_CMD_PROG, F.LCS_FUSE_STAT_BUSY,
      F.LCS_FUSE_STAT_RESULT])
| .lifeCycleTransition _ _ => some ([.mgt, .tlk, .pin, .lcs, .out, .bus], accessFlds ++ [F.CPL_ERR, F.LCS_TRANS_TARGET, F.LCS_TRANS_ERASE, F.LCS_TRANS_STAT_BUSY,
      F.LCS_TRANS_STAT_RESULT])
| .attest _ _ => some ([.mgt, .tlk, .pin, .out, .bus], accessFlds ++ [F.LCS_ATTEST_PART, F.LCS_ATTEST_GO])
| .attestDone => some ([.out], [F.MSIX_PBA 0, F.INT_RAW, F.LCS_ATTEST_GO, F.LCS_ATTEST_NOKEY, F.LCS_ATTEST_TAG 0])
| .extest => none
| .samplePreload => none
| .idcode => none
| .clamp => none
| .highz => none
| .extestPulse => none
| .extestTrain => none
| .debug => none
| .bypass => none
| .ageingMeasurement _ => some ([.mgt, .memc, .lcs, .out], faultFlds ++ [F.PROPOSALS, F.PROP_MERGED])
| .proposal _ _ _ => some ([.mgt, .memc, .lcs, .out], faultFlds ++ [F.PROPOSALS, F.PROP_MERGED])
| .proposalApprove _ _ => some ([.mgt, .tlk, .pin, .memc, .lcs, .out, .bus], accessFlds ++ [F.CPL_ERR, F.LCS_PROP_CTL_ID, F.LCS_PROP_CTL_APPROVE,
      F.LCS_PROP_CTL_REJECT, F.LCS_PROP_LAST_ID, F.LCS_PROP_LAST_NO_SPARE])
| .proposalReject _ _ => some ([.mgt, .tlk, .pin, .memc, .lcs, .out, .bus], accessFlds ++ [F.CPL_ERR, F.LCS_PROP_CTL_ID, F.LCS_PROP_CTL_APPROVE,
      F.LCS_PROP_CTL_REJECT, F.LCS_PROP_LAST_ID, F.LCS_PROP_LAST_NO_SPARE])
| .ptbUnlock _ _ => some ([.mgt, .tlk, .pin, .lcs, .out, .bus], accessFlds ++ [F.FLT_ERRPIN, F.CPL_ERR, F.PTB_UNLOCK, F.PTB_STAT_UNLOCKED, F.PTB_STAT_ACTIVE,
      F.PTB_STAT_ANNOUNCED, F.PTB_CTRL_EN 0])
| .ptbLock _ _ => some ([.mgt, .tlk, .pin, .lcs, .out, .bus], accessFlds ++ [F.FLT_ERRPIN, F.CPL_ERR, F.PTB_UNLOCK, F.PTB_STAT_UNLOCKED, F.PTB_STAT_ACTIVE,
      F.PTB_STAT_ANNOUNCED, F.PTB_CTRL_EN 0])
| .ptbTimeout => some ([.mgt, .lcs, .out], faultFlds ++ [F.FLT_LIVE, F.FLT_ERRPIN, F.PTB_UNLOCK, F.PTB_STAT_UNLOCKED, F.PTB_STAT_ACTIVE, F.PTB_STAT_ANNOUNCED,
      F.PTB_CTRL_EN 0])
| .ptbSlotWrite _ _ _ _ => some ([.mgt, .tlk, .pat, .pin, .out, .bus], accessFlds ++ [F.FLT_ERRPIN, F.PTB_STAT_ACTIVE, F.PTB_CTRL_EN 0, F.PTB_CTRL_TYPE 0,
      F.PTB_CTRL_A 0, F.PTB_CTRL_B 0, F.PTB_MAG 0, F.PTB_RATE 0, F.PTB_COUNT 0])
| .ptbInjection _ => some ([.mgt, .pat, .lcs, .out], faultFlds ++ [F.DIS_SHARE_ACT_0, F.DIS_SHARE_ACT_1, F.DIS_SHARE_ACT_2, F.DIS_SHARE_ACT_3,
      F.DIS_CLU_STAT_CS_HOLD, F.DIS_MCHK_LAST_ENGINE, F.DIS_MCHK_LAST_CAUSE, F.DIS_MCHK_LAST_ROUTE, F.DIS_MCHK_LAST_SITE, F.QUARANTINES, F.ENG_MCHK_COUNT,
      F.ENG_MCHK_CAUSE, F.ENG_MCHK_TOTAL, F.FLT_LIVE, F.FLT_ERRPIN, F.PTB_STAT_ACTIVE, F.PTB_CTRL_EN 0, F.PTB_COUNT 0])
| .chkLock _ => some ([], [F.TLK_L_PRBS_CHK_LOCK])
| .chkLockLoss _ _ => some ([], [F.TLK_L_PRBS_CHK_LOCK, F.TLK_L_PRBS_ERR])
| .dataLinkUp _ _ _ => some ([.hif, .out], [F.HIF_DEV_STAT_PORT_UP, F.HIF_P_LINK_SPEED, F.HIF_P_LINK_WIDTH])
| .transDone _ _ => none
| .vstbyLoss => none
| .vinOk _ => some ([.mgt, .pwr, .out], faultFlds ++ [F.FLT_LIVE, F.PWR_STAT_VIN_OK, F.PWR_DOM_ON, F.PWR_MON_VIN])
| .currentBelowLimit _ => some ([.mgt, .out], faultFlds ++ [F.FLT_LIVE, F.PWR_MON_IIN])
| .railInRegulation => some ([.mgt, .out], faultFlds ++ [F.FLT_LIVE])
| .tjBelowLimit _ => some ([.mgt, .out], faultFlds ++ [F.FLT_LIVE, F.PWR_TJ])

/-- The byte of partition p at c is none that a store of n bytes at an address of partition k writes, nor one of a poisoned block that the store touches: the rest of
such a block becomes zero (R391). -/
def Untouched (s : State) (k addr n p c : Nat) : Prop :=
  p ≠ k ∨ c < addr / 64 * 64 ∨ (addr + n + 63) / 64 * 64 ≤ c ∨ ((c < addr ∨ addr + n ≤ c) ∧ poisonAt s k (c / 64 * 64) = false)

/-- A register access or an event that may take a cause or an interrupt away (R437, R438, R442, R447, R465, R466, R418): its clearing writes, the resets and what may begin one, and a
domain that turns off; a read of a register, which may clear it. -/
def mayClear : Instr → Bool
  | .bankMoveDone .. | .intRawClear .. | .partitionResetDone .. | .parityScan .. | .vinLow .. | .tjHot .. | .blockResetDone .. | .faultClear .. | .rstNAssert | .brownOut | .junctionOvertemp .. | .vstbyLoss
  | .powerOnReset .. | .shutdownDone .. | .sleepEntryDone | .romBoot .. | .confirmTimeout | .recCommandDone .. | .transDone .. | .extest | .samplePreload | .idcode | .clamp | .highz
  | .extestPulse | .extestTrain | .debug | .bypass | .registerWrite .. | .lowWordWrite .. | .highWordWrite .. | .lockWrite .. | .lowWordRead .. => true
  | _ => false

end Sys2Proof.Machine
end

