-- ==== Sys2Proof/Certificates/Slice0/Obligations.lean ====
section
/-! DEFINITION. The statements about the device, chapter by chapter, then those about every command. Each docstring names the rules of spec/ that it rests on. -/

open Sys2Proof Sys2Proof.Machine

/-- R34–R37, R40, R41: the followed source is lost, the crystal fails, a source qualifies, software selects a source, the frequency has settled, a millisecond of holdover
passes, and SLEW bounds how far a tick moves the frequency. Conventions of the model in it: logs 8, 41, 107. -/
def Obligations.ReferenceSource : Prop :=
  (∀ (s : State) (src : Nat) (meas : HoldMeas), src < 2 → rd s .timDev F.TIM_REF_CTRL_SEL = src → rdb s .timDev F.TIM_REF_STAT_HOLDOVER = false →
    ∃ t, exec (.refLoss src meas) s = .next t ∧ rdb t .timDev F.TIM_REF_STAT_HOLDOVER = true ∧ rdb t .timDev F.TIM_REF_STAT_SLEWING = true ∧
      rdb t .timDev (srcOk src) = false ∧ (rd t .timDev F.FLT_LIVE).testBit 1 = true ∧ t.tim.holdEntry = tbNow s 0 ∧
      refTarget t = some (if meas.followedMs < 20 then 2 ^ 32 else (meas.ratio : Int)) ∧ t.tim.slewRate = some ((refFine s).getD ((meas.ratio : Int) * 1000000000))) ∧
  (∀ s : State, ∃ t, exec .xtalFail s = .next t ∧ rdb t .timDev F.TIM_REF_STAT_XTAL_OK = false ∧ (rd t .timDev F.FLT_LIVE).testBit 5 = true) ∧
  (∀ (s : State) (src : Nat), src < 3 → rd s .timDev F.TIM_REF_CTRL_SEL = src → rdb s .timDev F.TIM_REF_STAT_HOLDOVER = true →
      rdb s .timDev (srcOk src) = false → s.tim.refLost = false → (src = 1 → tl0Locked s = true) →
    ∃ t, exec (.sourceQualified src) s = .next t ∧ rdb t .timDev (srcOk src) = true ∧ rd t .timDev F.TIM_REF_STAT_ACTIVE = src ∧
      rdb t .timDev F.TIM_REF_STAT_HOLDOVER = false ∧ rd t .timDev F.TIM_HOLD_EST = 0) ∧
  (∀ (s : State) (m word : Nat) (meas : HoldMeas), MayWrite s m .timDev 0x100 true → bits word 1 0 ≠ 3 →
    ∃ t, exec (.refSelectWrite m word meas) s = .next t ∧ rd t .timDev F.TIM_REF_CTRL_SEL = bits word 1 0 ∧
      rd t .timDev F.TIM_REF_CTRL_REVERT = bits word 2 2 ∧ rd t .timDev F.TIM_REF_CTRL_SLEW = bits word 15 8 ∧
      rd t .timDev F.TIM_REF_CTRL_QUAL = bits word 23 16) ∧
  (∀ s : State, slewLeft s = false → ∃ t, exec .refSlewDone s = .next t ∧ rdb t .timDev F.TIM_REF_STAT_SLEWING = false ∧ t.tim.slewRate = none) ∧
  (∀ s : State, slewLeft s = true → exec .refSlewDone s = .next s) ∧
  (∀ (s : State) (r x : Int), tbRuns s 0 = true → s.tim.slewRate = some r → refTarget s = some x →
    ∃ t q, exec (.timeBaseTick 0) s = .next t ∧ t.tim.slewRate = some q ∧ ((q - r).natAbs : Int) ≤ max 1 (rd s .timDev F.TIM_REF_CTRL_SLEW : Int) * 2 ^ 32) ∧
  (∀ s : State, rdb s .timDev F.TIM_REF_STAT_HOLDOVER = true →
    ∃ t, exec .holdEstUpdate s = .next t ∧ t.tim.holdMs = s.tim.holdMs + 1 ∧
      rd t .timDev F.TIM_HOLD_EST = min (holdEstimate (rd s .timDev F.TIM_FREQ_UNC) (rd s .timDev F.TIM_AGEING_AGE_UNC) (s.tim.holdMs + 1)) 0xFFFFFFFF)

/-- R44, R48: a tick adds INCREMENT; a read of the lowest word of a time value answers it and latches the whole value in the master's snapshot.
Conventions of the model in it: log 17. -/
def Obligations.TimeBases : Prop :=
  (∀ (s : State) (b : Nat), b < 5 → tbRuns s b = true → tbPending s b = false → tbNow s b + tbInc s b < timeEnd →
    ∃ t, exec (.timeBaseTick b) s = .next t ∧ tbNow t b = tbNow s b + tbInc s b ∧ tbInc t b = tbInc s b) ∧
  (∀ (s : State) (m : Nat) (tv : TimeRef), mayRead s m (timeRefPage tv) (timeRefOff tv) false = true →
    ∃ t, exec (.timeSnapshotRead m tv) s = .next t ∧ t.out = s.out ++ [.read m (timeRefNow s tv).subns] ∧
      snapNs t m tv = (timeRefNow s tv).ns ∧ snapSec t m tv = (timeRefNow s tv).sec ∧ t.regs = s.regs ∧ t.mem = s.mem)

/-- R45–R47: a command write sets its GO bits; at the tick at which it is judged a command that is not refused replaces, adjusts and sets the INCREMENT as its GO bits say and
adds it; a refused one leaves value and INCREMENT to an ordinary tick and counts TIME_FMT. Conventions of the model in it: log 38; log 91 for the wrap at the end of 2^48 s and
for the range, which is judged before INCREMENT is added. -/
def Obligations.TimeCommands : Prop :=
  (∀ (s : State) (m b word : Nat), b < 5 → MayWrite s m (basePage b) 0x150 (b == 0) → servoLocks s m b = false → tbPending s b = false →
    (∃ t, exec (.incGo m b word) s = .next t ∧ rdb t (basePage b) F.TIM_DTB_CMD_INC_GO = true ∧ tbNow t b = tbNow s b) ∧
    (∃ t, exec (.adjGo m b word) s = .next t ∧ rdb t (basePage b) F.TIM_DTB_CMD_ADJ_GO = true ∧ tbNow t b = tbNow s b) ∧
    (∃ t, exec (.setGo m b word) s = .next t ∧ rdb t (basePage b) F.TIM_DTB_CMD_SET_GO = true ∧ tbNow t b = tbNow s b)) ∧
  (∀ (s : State) (b : Nat), b < 5 → tbRuns s b = true → tbPending s b = true → tbRefuses s b = false →
    ∃ t, exec (.timeCommandApply b) s = .next t ∧ tbPending t b = false ∧
      tbInc t b = (if rdb s (basePage b) F.TIM_DTB_CMD_INC_GO then tbNewInc s b else tbInc s b) ∧
      (tbNow t b : Int) = ((if rdb s (basePage b) F.TIM_DTB_CMD_SET_GO then (tbSetValue s b : Int) else tbNow s b) +
        (if rdb s (basePage b) F.TIM_DTB_CMD_ADJ_GO then tbAdjust s b else 0) + tbInc t b) % timeEnd) ∧
  (∀ (s : State) (b : Nat), b < 5 → tbRuns s b = true → tbPending s b = true → tbRefuses s b = true →
    ∃ t, exec (.timeCommandApply b) s = .next t ∧ tbPending t b = false ∧ tbInc t b = tbInc s b ∧
      tbNow t b = (tbNow s b + tbInc s b) % timeEnd ∧ (rd t (basePage b) F.FLT_CAUSE).testBit 4 = true)

/-- R57–R59, R61: arming, disarming, firing and ending a timed pulse, and the change of its owner. Conventions of the model in it: logs 40, 107. -/
def Obligations.TimedPulses : Prop :=
  (∀ (s : State) (m p : Nat) (tbsel pol : Bool), p < 4 → MayWrite s m (.timPulse p) 0x100 false → armRefused s p 1 = false →
      tbNow s (pulseBase s p tbsel) ≤ pulseStart s p * 2 ^ 16 →
    ∃ t, exec (.tpArmOnce m p tbsel pol) s = .next t ∧ rd t (.timPulse p) F.TIM_TP_CTRL_MODE = 1 ∧ rdb t (.timPulse p) F.TIM_TP_STAT_ARMED = true ∧
      pulseOf t p = some ⟨pulseStart s p, 0, rd s (.timPulse p) F.TIM_TP_WIDTH * 2 ^ 16, tbsel, pol, 0⟩) ∧
  (∀ (s : State) (m p : Nat) (tbsel pol : Bool), p < 4 → MayWrite s m (.timPulse p) 0x100 false → armRefused s p 2 = false →
    ∃ t, exec (.tpArmPeriodic m p tbsel pol) s = .next t ∧ rd t (.timPulse p) F.TIM_TP_CTRL_MODE = 2 ∧ rdb t (.timPulse p) F.TIM_TP_STAT_ARMED = true) ∧
  (∀ (s : State) (m p : Nat) (tbsel pol : Bool), p < 4 → MayWrite s m (.timPulse p) 0x100 false →
    ∃ t, exec (.tpDisarm m p tbsel pol) s = .next t ∧ rd t (.timPulse p) F.TIM_TP_CTRL_MODE = 0 ∧ pulseOf t p = none ∧
      rd t (.timPulse p) F.TIM_TP_STAT_ACTIVE = rd s (.timPulse p) F.TIM_TP_STAT_ACTIVE) ∧
  (∀ (s : State) (m word : Nat), MayWrite s m .timDev 0x154 true →
    ∃ t, exec (.tpOwnerWrite m word) s = .next t ∧ rd t .timDev F.TIM_TP_OWNER = word % 256 ∧
      ∀ p, p < 4 → (rd s .timDev F.TIM_TP_OWNER >>> (2 * p)) % 4 ≠ (word >>> (2 * p)) % 4 → rd t (.timPulse p) F.TIM_TP_CTRL_MODE = 0) ∧
  (∀ (s : State) (p : Nat) (x : Pulse), p < 4 → pulseOf s p = some x → (x.period ≠ 0 ∨ x.point = 0) → tbRuns s 1 = true →
      pageSafe s .timDev = false → pageSafe s (.timPulse p) = false → tbNow s (pulseBase s p x.tbsel) ≤ pulsePoint x →
      pulsePoint x < tbNow s (pulseBase s p x.tbsel) + tbSpan s (pulseBase s p x.tbsel) →
    ∃ t, exec (.tpFired p) s = .next t ∧ rdb t (.timPulse p) F.TIM_TP_STAT_ACTIVE = true ∧
      rd t (.timPulse p) F.TIM_TP_FIRED = (rd s (.timPulse p) F.TIM_TP_FIRED + 1) % 2 ^ 32 ∧ pulseLevel t p = !x.pol) ∧
  (∀ (s : State) (p : Nat) (x : PulseOn), pulseOnOf s p = some x →
    (x.due < (tbTicks s x.base - x.tick) * 0xA00000000 + 0xA00000000 →
      ∃ t, exec (.tpWidthEnd p) s = .next t ∧ rdb t (.timPulse p) F.TIM_TP_STAT_ACTIVE = false ∧ pulseLevel t p = tabGet false s.tim.pulsePol p) ∧
    ((tbTicks s x.base - x.tick) * 0xA00000000 + 0xA00000000 ≤ x.due → exec (.tpWidthEnd p) s = .next s))

/-- R70–R73: a port is enabled and disabled, locks, finds no partner, restarts its adaptation, loses lock, and sees HI_BER come and go.
Conventions of the model in it: log 42. -/
def Obligations.LinkBringUp : Prop :=
  (∀ (s : State) (m n dm : Nat) (np : Bool), n < 2 → MayWrite s m (.tlkPort n) 0x100 true → dm < 3 → linkPowered s = true → tlkSafe s = false →
      prbsOn s (mappedLane s n) = false → prbsOn s (laneOf s n) = false → rdb s (.tlkPort n) F.TLK_P_CTRL_EN = false →
    ∃ t, exec (.linkEnable m n dm np) s = .next t ∧ rdb t (.tlkPort n) F.TLK_P_CTRL_EN = true ∧ rd t (.tlkPort n) F.TLK_P_CTRL_DM = dm ∧
      linkState t n = 1 ∧ ptpState t n = ptpStart s n) ∧
  (∀ (s : State) (m n dm : Nat) (np : Bool), n < 2 → MayWrite s m (.tlkPort n) 0x100 true → dm < 3 → prbsOn s (mappedLane s n) = false →
      prbsOn s (laneOf s n) = false → rdb s (.tlkPort n) F.TLK_P_CTRL_EN = true →
    ∃ t, exec (.linkDisable m n dm np) s = .next t ∧ rdb t (.tlkPort n) F.TLK_P_CTRL_EN = false ∧ linkState t n = 0 ∧ ptpState t n = 0) ∧
  (∀ (s : State) (l n : Nat), portOn s l = some n → linkState s n = 1 ∨ linkState s n = 3 → rdb s (.tlkLane l) F.TLK_L_RXSTAT_HI_BER = false →
    ∃ t, exec (.blockLock l) s = .next t ∧ linkState t n = 2 ∧ (tport t n).seq = [] ∧ rdb t (.tlkLane l) F.TLK_L_RXSTAT_BLOCK_LOCK = true) ∧
  (∀ (s : State) (n : Nat), linkState s n = 1 → (tport s n).berHold = false →
    ∃ t, exec (.noPartner n) s = .next t ∧ linkState t n = 3 ∧ (rd t (.tlkPort n) F.INT_RAW).testBit 1 = true ∧
      (rd t (.tlkPort n) F.FLT_LIVE).testBit 1 = rdb s (.tlkPort n) F.TLK_P_CTRL_NOPART_FLT) ∧
  (∀ (s : State) (n : Nat), linkState s n = 3 →
    ∃ t, exec (.adaptRestart n) s = .next t ∧ rd t (.tlkPort n) F.TLK_RETRIES = min (rd s (.tlkPort n) F.TLK_RETRIES + 1) 0xFFFFFFFF ∧
      (tport t n).restarts = (tport s n).restarts + 1 ∧
      (tlane t (laneOf s n)).fromFrozen = ((tport t n).restarts % 2 == 1 && (tlane s (laneOf s n)).hasFrozen)) ∧
  (∀ (s : State) (l n : Nat), portOn s l = some n → mappedLane s n = l → linkState s n = 2 → rdb s (.tlkPort n) F.TLK_P_CTRL_EN = true →
      linkPowered s = true → tlkSafe s = false → prbsOn s l = false → laneOf s 0 ≠ laneOf s 1 →
    ∃ t, exec (.lockLoss l) s = .next t ∧ linkState t n = 1 ∧ rdb t (.tlkLane l) F.TLK_L_RXSTAT_FROZEN = true ∧ (tlane t l).fromFrozen = true ∧
      (rd t (.tlkPort n) F.INT_RAW).testBit 2 = true ∧ (tport t n).rx = none) ∧
  (∀ (s : State) (l n : Nat), portOn s l = some n → mappedLane s n = l → linkState s n = 2 →
    ∃ t, exec (.hiBer l) s = .next t ∧ linkState t n = 1 ∧ rdb t (.tlkLane l) F.TLK_L_RXSTAT_HI_BER = true ∧
      (rd t (.tlkPort n) F.FLT_LIVE).testBit 3 = true) ∧
  (∀ (s : State) (l n : Nat), portOn s l = some n → linkState s n = 1 → rdb s (.tlkLane l) F.TLK_L_RXSTAT_BLOCK_LOCK = true →
    ∃ t, exec (.hiBerClear l) s = .next t ∧ linkState t n = 2 ∧ rdb t (.tlkLane l) F.TLK_L_RXSTAT_HI_BER = false ∧
      (rd t (.tlkPort n) F.FLT_LIVE).testBit 3 = false) ∧
  (∀ (s t : State) (c : Instr) (m n l dm : Nat) (np : Bool), c ∈ [.linkEnable m n dm np, .linkDisable m n dm np, .lockLoss l, .hiBer l, .tlkMapWrite m dm] → n < 2 →
    laneOf s 0 ≠ laneOf s 1 → exec c s = .next t → laneOf t 0 ≠ laneOf t 1)

/-- R74–R80: the taps of a transmitter, the frozen receiver, its presets, and the PRBS31 generator and checker of a lane.
Conventions of the model in it: log 42. -/
def Obligations.LinkLanes : Prop :=
  (∀ (s : State) (m l word : Nat), l < 3 → MayWrite s m (.tlkLane l) 0x100 true →
    ∃ t, exec (.txeqWrite m l word) s = .next t ∧
      if bits word 13 8 < 16 ∨ 63 < bits word 3 0 + bits word 13 8 + bits word 20 16 then
        rd t (.tlkLane l) F.TLK_L_TXEQ_C_PRE = rd s (.tlkLane l) F.TLK_L_TXEQ_C_PRE ∧
        rd t (.tlkLane l) F.TLK_L_TXEQ_C_MAIN = rd s (.tlkLane l) F.TLK_L_TXEQ_C_MAIN ∧
        rd t (.tlkLane l) F.TLK_L_TXEQ_C_POST = rd s (.tlkLane l) F.TLK_L_TXEQ_C_POST ∧ (rd t (.tlkLane l) F.FLT_CAUSE).testBit 7 = true
      else rd t (.tlkLane l) F.TLK_L_TXEQ_C_PRE = bits word 3 0 ∧ rd t (.tlkLane l) F.TLK_L_TXEQ_C_MAIN = bits word 13 8 ∧
        rd t (.tlkLane l) F.TLK_L_TXEQ_C_POST = bits word 20 16) ∧
  (∀ (s : State) (l d : Nat), d < 30 → rdb s (.tlkLane l) F.TLK_L_RXSTAT_FROZEN = false →
    ∃ t, exec (.adaptFreeze l d) s = .next t ∧ rdb t (.tlkLane l) F.TLK_L_RXSTAT_FROZEN = true ∧
      (rd t (.tlkLane l) F.INT_RAW).testBit 9 = true ∧ (tlane t l).hasFrozen = true) ∧
  (∀ (s : State) (l d : Nat), 30 ≤ d → rdb s (.tlkLane l) F.TLK_L_RXCTRL_FREEZE = false →
    ∃ t, exec (.adaptResume l d) s = .next t ∧ rdb t (.tlkLane l) F.TLK_L_RXSTAT_FROZEN = false) ∧
  (∀ (s : State) (m l : Nat) (freeze : Bool), l < 3 → MayWrite s m (.tlkLane l) 0x104 true →
    ∃ t, exec (.rxPreset m l freeze) s = .next t ∧ (tlane t l).hasFrozen = false ∧ (tlane t l).fromFrozen = false ∧
      rdb t (.tlkLane l) F.TLK_L_RXCTRL_FREEZE = freeze) ∧
  (∀ (s : State) (m l word : Nat), l < 3 → MayWrite s m (.tlkLane l) 0x10C true → bits word 13 8 = 0 ∨ (10 ≤ bits word 13 8 ∧ bits word 13 8 ≤ 40) →
    (∃ t, exec (.prbsGenEn m l word) s = .next t ∧ rdb t (.tlkLane l) F.TLK_L_PRBS_GEN_EN = word.testBit 0) ∧
    (∃ t, exec (.prbsChkEn m l word) s = .next t ∧ rdb t (.tlkLane l) F.TLK_L_PRBS_CHK_EN = word.testBit 1) ∧
    (∃ t, exec (.injRate m l word) s = .next t ∧ rd t (.tlkLane l) F.TLK_L_PRBS_INJ_RATE = bits word 13 8) ∧
    (rdb s (.tlkLane l) F.TLK_L_PRBS_GEN_EN = true → word.testBit 0 = true → ∃ t, exec (.injOne m l word) s = .next t ∧ Out.injected l ∈ t.out)) ∧
  (∀ (s : State) (l : Nat), rdb s (.tlkLane l) F.TLK_L_PRBS_CHK_EN = true →
    ∃ t, exec (.chkLock l) s = .next t ∧ rdb t (.tlkLane l) F.TLK_L_PRBS_CHK_LOCK = true) ∧
  (∀ (s : State) (l errs : Nat), rdb s (.tlkLane l) F.TLK_L_PRBS_CHK_LOCK = true →
    ∃ t, exec (.chkLockLoss l errs) s = .next t ∧ rdb t (.tlkLane l) F.TLK_L_PRBS_CHK_LOCK = false ∧
      rd t (.tlkLane l) F.TLK_L_PRBS_ERR = min (rd s (.tlkLane l) F.TLK_L_PRBS_ERR + errs) 0xFFFFFFFF) ∧
  (∀ (s : State) (m l errs : Nat), mayRead s m (.tlkLane l) 0x110 false = true → rdb s (.tlkLane l) F.TLK_L_PRBS_CHK_LOCK = true →
    ∃ t, exec (.prbsErrRead m l errs) s = .next t ∧ rd t (.tlkLane l) F.TLK_L_PRBS_ERR = 0 ∧
      t.out = s.out ++ [.read m (min (rd s (.tlkLane l) F.TLK_L_PRBS_ERR + errs) 0xFFFFFFFF)])

/-- R69, R81–R86, R89, R91, R94: what a port does with a frame and with each message it receives, where no perturbation drops it; the offset and the mean path delay that a Sync
completes, the state SLAVE after two of them, and the servo's command. Conventions of the model in it: logs 11, 43, 92. -/
def Obligations.LinkReceives : Prop :=
  (∀ (s : State) (n : Nat) (f : RxFrame), linkState s n = 2 →
    ∃ t, exec (.frameReceive n f) s = .next t ∧
      if 64 ≤ f.length ∧ f.length ≤ 1518 ∧ f.fcsOk = true ∧ f.tagged = false ∧ f.etherType = 0x88F7 ∧ (f.dest = 0x011B19000000 ∨ f.dest = 0x0180C200000E) ∧
          f.domain = rd s .tlkCtl F.TLK_CTRL_DOMAIN ∧ f.version = 2 ∧ ptpUsed f.msgType = true then
        (tport t n).rx = some f.msgType ∧ t.regs = s.regs
      else rd t (.tlkPort n) F.RX_DROP = min (rd s (.tlkPort n) F.RX_DROP + 1) 0xFFFFFFFF ∧ t.tlk = s.tlk) ∧
  (∀ (s : State) (n : Nat) (g : PtpMsg), dropTypes s n false = 0 → isSlave s n = true →
    ∃ t, exec (.sync n g) s = .next t ∧ rd t (.tlkPort n) F.SYNC_RX = (rd s (.tlkPort n) F.SYNC_RX + 1) % 2 ^ 32 ∧
      ∃ u, (tport t n).sync = some ⟨g.seqId, g.stamp, rxStamp s n g.rxAt, g.corr, g.twoStep, u⟩) ∧
  (∀ (s : State) (n : Nat) (g : PtpMsg), dropTypes s n false = 0 → linkState s n = 2 → ptpState s n = 1 ∨ ptpState s n = 4 →
    ∃ t, exec (.sync n g) s = .next t ∧ t.regs = s.regs ∧ (tport t n).sync = some ⟨g.seqId, g.stamp, rxStamp s n g.rxAt, g.corr, g.twoStep, true⟩) ∧
  (∀ (s : State) (n : Nat) (g : PtpMsg) (d off : Int), dropTypes s n false = 0 → isSlave s n = true → g.twoStep = false →
      (rd s (.tlkPort n) F.TLK_P_CTRL_DM = 0 ∧ (∃ r, (tport s n).reverse = some r ∧ d = ((rxStamp s n g.rxAt : Int) - g.stamp - g.corr - r) / 2) ∨
        rd s (.tlkPort n) F.TLK_P_CTRL_DM = 1 ∧ (tport s n).peer = some d) →
      off = (rxStamp s n g.rxAt : Int) - g.stamp - d - g.corr - toSigned 32 (rd s (.tlkPort n) F.TLK_P_ASYM) →
    ∃ t, exec (.sync n g) s = .next t ∧ rd t (.tlkPort n) F.TLK_P_OFFSET = ofSigned 64 off ∧ rd t (.tlkPort n) F.TLK_P_MPD = ofSigned 64 d ∧
      (rd t (.tlkPort n) F.INT_RAW).testBit 8 = true ∧ (tport t n).offsets = (tport s n).offsets + 1 ∧
      ptpState t n = (if 1 ≤ (tport s n).offsets then 3 else ptpState s n) ∧
      (n = 0 → rdb s .tlkCtl F.TLK_CTRL_SERVO_EN = true → linkBase s < 5 → tbPending s (linkBase s) = false → -(2 ^ 63) < off → off < 2 ^ 63 →
        if (rd s .tlkCtl F.TLK_SERVO_STEP : Int) * 65536 < off.natAbs then
          t.tlk.integ = 0 ∧ rdb t (basePage (linkBase s)) F.TIM_DTB_CMD_ADJ_GO = true ∧ rdb t (basePage (linkBase s)) F.TIM_DTB_CMD_INC_GO = false ∧
            tbAdjust t (linkBase s) = -off
        else t.tlk.integ = s.tlk.integ + off ∧ rdb t (basePage (linkBase s)) F.TIM_DTB_CMD_INC_GO = true ∧ rdb t (basePage (linkBase s)) F.TIM_DTB_CMD_ADJ_GO = false ∧
            tbNewInc t (linkBase s) = servoIncrement (rd s .tlkCtl F.TLK_SERVO_GAIN_KP) (rd s .tlkCtl F.TLK_SERVO_GAIN_KI)
              (toSigned 8 (rd s (.tlkPort 0) F.TLK_P_INTV_SYNC)) off (s.tlk.integ + off))) ∧
  (∀ (s : State) (n : Nat) (g : PtpMsg), dropTypes s n false = 0 → linkState s n = 2 → ptpState s n ≠ 0 →
    ((∃ t, exec (.followUp n g) s = .next t ∧
      ((∀ y, (tport s n).sync = some y → y.seqId ≠ g.seqId) →
        rd t (.tlkPort n) F.SEQ_MISMATCH = min (rd s (.tlkPort n) F.SEQ_MISMATCH + 1) 0xFFFFFFFF) ∧
      (∀ y, (tport s n).sync = some y → y.waitFup = false → y.seqId = g.seqId → t = s) ∧
      (∀ y, (tport s n).sync = some y → y.waitFup = true → y.seqId = g.seqId →
        ∃ u, (tport t n).sync = some { y with t1 := g.stamp, corr := y.corr + g.corr, waitFup := false, used := u })) ∧
     (∃ t, exec (.delayResp n g) s = .next t ∧
      (rd s (.tlkPort n) F.TLK_P_CTRL_DM ≠ 0 → rd t (.tlkPort n) F.DM_MISMATCH = min (rd s (.tlkPort n) F.DM_MISMATCH + 1) 0xFFFFFFFF) ∧
      (rd s (.tlkPort n) F.TLK_P_CTRL_DM = 0 → matchReq s n 1 g = none →
        rd t (.tlkPort n) F.SEQ_MISMATCH = min (rd s (.tlkPort n) F.SEQ_MISMATCH + 1) 0xFFFFFFFF) ∧
      (∀ t3, rd s (.tlkPort n) F.TLK_P_CTRL_DM = 0 → matchReq s n 1 g = some t3 → (tport t n).req = none ∧
        (tport t n).reverse = some ((g.stamp : Int) - t3 - g.corr))))) ∧
  (∀ (s : State) (n : Nat) (g : PtpMsg) (at' : Nat), dropTypes s n false = 0 → dropTypes s n true = 0 → linkState s n = 2 → ptpState s n ≠ 0 →
    ((∃ t, exec (.delayReq n g) s = .next t ∧ (ptpState s n = 4 → rd s (.tlkPort n) F.TLK_P_CTRL_DM = 0 →
        t.out = s.out ++ [.frame n (sentFrame s n 0x011B19000000 9 g.seqId (rxStamp s n g.rxAt) g.corr g.portId gmNone 0)]) ∧
      (rd s (.tlkPort n) F.TLK_P_CTRL_DM ≠ 0 → rd t (.tlkPort n) F.DM_MISMATCH = min (rd s (.tlkPort n) F.DM_MISMATCH + 1) 0xFFFFFFFF)) ∧
     (∃ t, exec (.pdelayReq n g at') s = .next t ∧ (rd s (.tlkPort n) F.TLK_P_CTRL_DM = 1 →
        t.out = s.out ++ [.frame n (sentFrame s n 0x0180C200000E 3 g.seqId 0 ((eventStamp s n 3 at' : Int) - rxStamp s n g.rxAt + g.corr) g.portId gmNone 0)])) ∧
     (∃ t, exec (.pdelayResp n g) s = .next t ∧ (∀ t1, rd s (.tlkPort n) F.TLK_P_CTRL_DM = 1 → matchReq s n 2 g = some t1 → (tport t n).req = none ∧
        if g.twoStep then (tport t n).pdelay = some (g.seqId, (rxStamp s n g.rxAt : Int) - t1 - g.corr + g.stamp)
        else (tport t n).peer = some (((rxStamp s n g.rxAt : Int) - t1 - g.corr) / 2))) ∧
     (∃ t, exec (.pdelayRespFollowUp n g) s = .next t ∧ (∀ x, rd s (.tlkPort n) F.TLK_P_CTRL_DM = 1 → (tport s n).pdelay = some (g.seqId, x) →
        g.portId = ownPortId s n → (tport t n).pdelay = none ∧ (tport t n).peer = some ((x - (g.stamp : Int) - g.corr) / 2))))) ∧
  (∀ (s : State) (gm : GmFields) (steps : Nat), dropTypes s 0 false = 0 → linkState s 0 = 2 → ptpState s 0 = 1 → steps < 256 →
    ∃ t, exec (.announce 0 gm steps) s = .next t ∧ (tport t 0).gm = gm ∧ rd t (.tlkPort 0) F.TLK_P_STAT_STEPS = steps ∧
      if 16 ≤ steps then ptpState t 0 = 1 ∧ tooDeep t = true else ptpState t 0 = 2 ∧ t.tlk.integ = 0)

/-- R83, R88, R92, R94, R95: what the ports send, the loss of the master, and a mapping of the lanes. Conventions of the model in it: logs 10, 44; log 92 for the time-traceable
flag of a GRANDMASTER and for stepsRemoved + 1, which no width cuts. -/
def Obligations.LinkSends : Prop :=
  (∀ (s : State) (n at' : Nat), n < 2 → dropTypes s n true = 0 → linkState s n = 2 →
    ((∃ t, exec (.syncTransmit n at') s = .next t ∧ (ptpState s n = 4 → tooDeep s = false →
        nextSeq t n 0 = (nextSeq s n 0 + 1) % 65536 ∧ rd t (.tlkPort n) F.SYNC_TX = (rd s (.tlkPort n) F.SYNC_TX + 1) % 2 ^ 32 ∧
        t.out = s.out ++ [.frame n (sentFrame s n 0x011B19000000 0 (nextSeq s n 0) (eventStamp s n 0 at' / 65536 * 65536) (eventStamp s n 0 at' % 65536 : Nat) 0 gmNone 0)])) ∧
     (∃ t, exec (.announceTransmit n) s = .next t ∧ (ptpState s n = 4 → nextSeq t n 11 = (nextSeq s n 11 + 1) % 65536 ∧
        ∃ (g : GmFields) (steps : Nat), t.out = s.out ++ [.frame n (sentFrame s n 0x011B19000000 11 (nextSeq s n 11) 0 0 0 g steps)] ∧
          (rd s .tlkCtl F.TLK_CTRL_ROLE = 1 → steps = 0 ∧ g.traceable = true ∧ g.clockClass = bits (rd s .tlkCtl F.TLK_GM_DS) 7 0 ∧
            g.identity = rd s .tlkCtl F.TLK_CLK_ID_HI * 2 ^ 32 + rd s .tlkCtl F.TLK_CLK_ID_LO) ∧
          (rd s .tlkCtl F.TLK_CTRL_ROLE ≠ 1 → steps = (tport s 0).steps + 1 ∧
            g = if (tport s 0).lost then { (tport s 0).gm with clockClass := rd s .tlkCtl F.TLK_HOLD_CLASS, traceable := false } else (tport s 0).gm))) ∧
     (∃ t, exec (.delayReqTransmit n at') s = .next t ∧ (isSlave s n = true → rd s (.tlkPort n) F.TLK_P_CTRL_DM = 0 →
        (tport t n).req = some (1, nextSeq s n 1, eventStamp s n 1 at') ∧ nextSeq t n 1 = (nextSeq s n 1 + 1) % 65536)) ∧
     (∃ t, exec (.pdelayReqTransmit n at') s = .next t ∧ (ptpState s n ≠ 0 → rd s (.tlkPort n) F.TLK_P_CTRL_DM = 1 →
        (tport t n).req = some (2, nextSeq s n 2, eventStamp s n 2 at') ∧ nextSeq t n 2 = (nextSeq s n 2 + 1) % 65536)))) ∧
  (∀ (s : State) (c : Instr), c = .announceReceiptTimeout ∨ c = .syncReceiptTimeout → ptpState s 0 = 2 ∨ ptpState s 0 = 3 →
    ∃ t, exec c s = .next t ∧ ptpState t 0 = 1 ∧ (tport t 0).lost = true ∧ (rd t (.tlkPort 0) F.FLT_LIVE).testBit 4 = true) ∧
  (∀ (s : State) (m v comp : Nat), MayWrite s m .tlkCtl 0x114 true → openPair s m .tlkCtl 0x114 = some v → comp = 2 ^ 32 - 1 - v →
    ∃ t, exec (.tlkMapWrite m comp) s = .next t ∧
      if (bits v 1 0 = 0 ∧ (bits v 3 2 = 1 ∨ bits v 3 2 = 2)) ∨ (bits v 1 0 = 2 ∧ bits v 3 2 = 1) then
        mappedLane t 0 = bits v 1 0 ∧ mappedLane t 1 = bits v 3 2 ∧ ∀ n, n < 2 →
          laneOf t n = mappedLane t n ∨ (laneOf t n = laneOf s n ∧ (linkState t n = 2 ∨ mappedLane t n = laneOf t (1 - n)))
      else mappedLane t 0 = mappedLane s 0 ∧ mappedLane t 1 = mappedLane s 1 ∧ (rd t .tlkCtl F.FLT_CAUSE).testBit 7 = true)

/-- R120, R121: firmware takes the command and answers it; one it refuses changes nothing of the pattern machine; STATUS is answered with the state of the site.
Conventions of the model in it: logs 1, 45. -/
def Obligations.SiteCommandsAnswered : Prop :=
  ∀ (s : State) (p : Nat) (cmd : List Nat), NextCommand s p cmd →
    (∃ t, exec (mailboxCommand p (cmdOp cmd)) s = .next t ∧
      rd t (.bar4 p) F.MBX_CMD_CONS = (rd s (.bar4 p) F.MBX_CMD_CONS + 1) % 2 ^ 32 ∧
      (∀ st d, cmdRefusal s p cmd = some (st, d) → Answered s t p (rspWords cmd st d) ∧ t.pat = s.pat ∧ t.pin = s.pin) ∧
      (cmdRefusal s p cmd = none → Answered s t p (rspWords cmd 0 0))) ∧
    (cmdRefusal s p cmd = none → cmdOp cmd = 0x20 → ∃ t, exec (.status p) s = .next t ∧ Answered s t p (rspWords cmd 0 0 ++ statusWords s (cmdSite cmd)) ∧
      t.pat = s.pat)

/-- R97–R103, R122, R126, R128: what each command does where it is accepted. Conventions of the model in it: log 45. -/
def Obligations.SiteCommands : Prop :=
  (∀ (s : State) (p : Nat) (cmd : List Nat), NextCommand s p cmd → cmdRefusal s p cmd = none →
    (cmdOp cmd = 0x01 → ∃ t, exec (.siteDefine p) s = .next t ∧ siteState t (cmdSite cmd) = 1 ∧ (siteOf t (cmdSite cmd)).owner = some p ∧
      (siteOf t (cmdSite cmd)).mask = defMask cmd ∧
      ∀ r ∈ routesOf (defMask cmd), ∀ k, k < 128 → tabGet 0x2222 t.pat.palettes (128 * r + k) = 0x2222) ∧
    (cmdOp cmd = 0x02 → ∃ t, exec (.siteDelete p) s = .next t ∧ siteState t (cmdSite cmd) = 0 ∧ (siteOf t (cmdSite cmd)).owner = none ∧
      (siteOf t (cmdSite cmd)).mask = 0) ∧
    (cmdOp cmd = 0x03 → ∃ t, exec (.palLoad p) s = .next t ∧ siteOf t (cmdSite cmd) = siteOf s (cmdSite cmd) ∧
      ∀ r ∈ palRoutes s cmd, ∀ j, j < 16 → tabGet 0x2222 t.pat.palettes (r * 128 + bits (wordAt cmd 1) 10 8 * 16 + j) = palSlot cmd j) ∧
    (cmdOp cmd = 0x10 → ∃ t, exec (.run p) s = .next t ∧ siteState t (cmdSite cmd) = 2 ∧ rd t (sitePage s (cmdSite cmd)) (F.CMP_SITE_FLAGS_FLAG1_3 (cmdSite cmd)) = 0 ∧
      (siteOf t (cmdSite cmd)).args.weir = runWeir cmd ∧ (siteOf t (cmdSite cmd)).args.jsrc = wordAt cmd 9) ∧
    (cmdOp cmd = 0x11 → ∃ t, exec (.halt p) s = .next t ∧
      (siteState s (cmdSite cmd) = 2 → siteState t (cmdSite cmd) = 5) ∧
      (siteState s (cmdSite cmd) = 3 → (wordAt cmd 1).testBit 0 = false → 5 ∈ (siteOf t (cmdSite cmd)).stops) ∧
      (siteState s (cmdSite cmd) = 3 → (wordAt cmd 1).testBit 0 = true → rd t (sitePage s (cmdSite cmd)) (F.CMP_SITE_STATE_HALT_PEND (cmdSite cmd)) = 1)) ∧
    (cmdOp cmd = 0x12 → ∃ t, exec (.clear p) s = .next t ∧ siteState t (cmdSite cmd) = 1))

/-- R112, R127, R222, R409: the mailbox indices, the deferred RUN, a jump request and a furrow clear. Conventions of the model in it: logs 45, 110. -/
def Obligations.SiteMailbox : Prop :=
  (∀ (s : State) (p v : Nat), p < 4 → hostLive s p = true → v < 2 ^ 32 → cntDiff v (rd s (.bar4 p) F.MBX_CMD_CONS) ≤ 64 →
      cmdWaiting s p ≤ cntDiff v (rd s (.bar4 p) F.MBX_CMD_CONS) →
    ∃ t, exec (.mailboxDoorbell p v) s = .next t ∧ rd t (.bar4 p) F.MBX_CMD_PROD = v) ∧
  (∀ (s : State) (p v : Nat), p < 4 → hostLive s p = true → v < 2 ^ 32 → 64 < cntDiff v (rd s (.bar4 p) F.MBX_CMD_CONS) →
    ∃ t, exec (.mailboxDoorbell p v) s = .next t ∧ rd t (.bar4 p) F.MBX_CMD_PROD = rd s (.bar4 p) F.MBX_CMD_PROD ∧
      (rd t (.hifPart p) F.INT_RAW).testBit 1 = true) ∧
  (∀ (s : State) (p v : Nat), p < 4 → hostLive s p = true → v < 2 ^ 32 →
    ∃ t, exec (.mbxRspConsWrite p v) s = .next t ∧
      if rspWaiting s p < cntDiff v (rd s (.bar4 p) F.MBX_RSP_CONS) then
        rd t (.bar4 p) F.MBX_RSP_CONS = rd s (.bar4 p) F.MBX_RSP_CONS ∧ (rd t (.hifPart p) F.INT_RAW).testBit 1 = true
      else rd t (.bar4 p) F.MBX_RSP_CONS = v) ∧
  (∀ (s : State) (i : Nat) (h : HeldCmd), awake s = true → s.pat.heldCmds.find? (fun h => cmdSite h.words == i) = some h → cmdOp h.words = 0x10 → resetPending s i = false →
      cmdRefusal { s with pat := { s.pat with heldCmds := s.pat.heldCmds.erase h } } h.part h.words = none →
    ∃ t, exec (.runDeferredStart i) s = .next t ∧ siteState t i = 2 ∧ t.pat.heldCmds = s.pat.heldCmds.erase h) ∧
  (∀ (s : State) (m n i word : Nat), n < 4 → i < 64 → MayWrite s m (.cmpPart n) (0x808 + 16 * i) false → (siteOf s i).owner = some n → siteState s i = 3 →
    ∃ t, exec (.jumpRequest m n i word) s = .next t ∧ t.regs = s.regs ∧
      (word % 4 = 1 → (siteOf t i).req1 = some ((siteOf s i).req1.getD ⟨0, false⟩) ∧ (siteOf t i).req2 = (siteOf s i).req2) ∧
      (word % 4 = 2 → (siteOf t i).req2 = some ((siteOf s i).req2.getD ⟨0, false⟩) ∧ (siteOf t i).req1 = (siteOf s i).req1) ∧
      (word % 4 = 0 ∨ word % 4 = 3 → siteOf t i = siteOf s i)) ∧
  (∀ (s : State) (q : Nat), (furOf s q).resetPend = true → ∃ t, exec (.furrowClear q) s = .next t ∧ furOf t q = furInit ∧ t.regs = s.regs)

/-- R18, R51–R53, R123–R125: the headgate opens and sets the epoch, DRIFT is published, and open stops take effect at the vector boundary. Conventions of the model in it: logs
39, 84. -/
def Obligations.SiteStarts : Prop :=
  (∀ (s : State) (i : Nat) (onTime late : Bool) (st : SiteStart), i < 64 → siteState s i = 2 → (∀ r ∈ routesOf (siteOf s i).mask, routeReady s i r = true) →
      (∀ b ∈ banksOf (siteOf s i).mask, gateShut s b = false) → s.pat.halted = false → pageSafe s .timDev = false →
      pageSafe s (.timPart (sitePart s i)) = false → startOf s i onTime = some (st, late) →
    ∃ t, exec (.headgateOpen i onTime) s = .next t ∧ siteState t i = 3 ∧ tabGet ⟨0, 0, 0⟩ t.tim.starts i = st ∧
      rdb t (.timPart (sitePart s i)) (F.SITE_LATE i) = late ∧ rdb t (.timPart (sitePart s i)) (F.SITE_RUNNING i) = true ∧
      rd t (.timPart (sitePart s i)) (F.SITE_VCOUNT i) = 0 ∧ rd t (sitePage s i) (F.CMP_SITE_CAUSES i) = 0 ∧
      (siteOf t i).req1 = none ∧ (siteOf t i).req2 = none ∧
      ((siteOf s i).args.immediate = true → siteFollows s i = false → late = false ∧ siteEpoch t i = tbNext s (1 + sitePart s i)) ∧
      ((siteOf s i).args.immediate = false → onTime = false → late = true)) ∧
  (∀ (s : State) (i : Nat), siteState s i = 3 →
    ∃ t, exec (.driftUpdate i) s = .next t ∧
      rd t (.timPart (sitePart s i)) (F.SITE_DRIFT i) =
        ofSigned 64 (roundUnit ((tbNow s (1 + sitePart s i) : Int) - (siteEpoch s i : Int) - vectorTime s (sitePart s i) i))) ∧
  (∀ (s : State) (i : Nat), i < 64 → siteState s i = 3 → (siteOf s i).stops ≠ [] → (∀ c ∈ boundaryCauses (siteOf s i), 4 ≤ c ∧ c ≤ 8) →
    ∃ t, exec (.stopAtBoundary i) s = .next t ∧ siteState t i = strongest (boundaryCauses (siteOf s i)) ∧ (siteOf t i).stops = [] ∧
      rdb t (.timPart (sitePart s i)) (F.SITE_RUNNING i) = false ∧
      ∀ c ∈ boundaryCauses (siteOf s i), (rd t (sitePage s i) (F.CMP_SITE_CAUSES i)).testBit (c - 4) = true)

/-- R131, R134, R142, R145, R148, R149, R156, R157: the instructions that emit nothing and the flow of control. -/
def Obligations.PatternControl : Prop :=
  ∀ (s : State) (e : Nat) (w : Work) (x : Nat), AtInstr s e w [x] →
    (x = 0 → Runs (.nop e) s e fun v => v.st = { w.st with pc := w.st.pc + 8 }) ∧
    (opOf x = 0x05 → bits x 55 51 = 0 → bits x 47 14 = 0 → bits x 7 3 = 0 → Runs (.pal e) s e fun v =>
      v.st = { w.st with pc := w.st.pc + 8, curPs := if x.testBit 48 then bits x 2 0 else w.st.curPs, curTs := if x.testBit 49 then bits x 13 8 else w.st.curTs,
                         pend := { w.st.pend with coh := w.st.pend.coh || x.testBit 50 } }) ∧
    (opOf x = 0x22 → modOf x = 0 → bits x 47 16 = 0 → Runs (.label e) s e fun v =>
      v.st = { w.st with pc := w.st.pc + 8, pend := { w.st.pend with label := some (bits x 15 0) } }) ∧
    (opOf x = 0x23 → modOf x = 0 → x.testBit 3 = false → bits x 47 7 = 0 → bits x 2 0 &&& bits x 6 4 = 0 → Runs (.flag e) s e fun v =>
      v.st.pend.flag = true ∧ v.st.pc = w.st.pc + 8 ∧ ∀ k, k < 3 →
        v.st.pend.flagSet.testBit k = (x.testBit k || (w.st.pend.flagSet.testBit k && !x.testBit (4 + k))) ∧
        v.st.pend.flagClr.testBit k = (x.testBit (4 + k) || (w.st.pend.flagClr.testBit k && !x.testBit k))) ∧
    (opOf x = 0x21 → modOf x = 0 → bits x 47 8 = 0 → Runs (.trig e) s e fun v => v.trig = some (bits x 7 0) ∧ v.st = { w.st with pc := w.st.pc + 8 }) ∧
    (opOf x = 0x01 → x.testBit 51 = true → bits x 55 52 = 0 → bits x 47 35 = 0 → Runs (.vecLoad e) s e fun v =>
      v.st = { w.st with pc := w.st.pc + 8, dps := w.st.dps.set (bits x 49 48) (bits x 34 0) }) ∧
    (opOf x = 0x10 → modOf x = 0 → bits x 47 32 = 0 → bits x 31 0 ≠ 0 → w.st.loops.length < 8 → Runs (.loop e) s e fun v =>
      v.st = { w.st with pc := w.st.pc + 8, loops := (bits x 31 0, w.st.pc + 8) :: w.st.loops }) ∧
    (opOf x = 0x11 → modOf x = 0 → opdOf x = 0 → ∀ n body rest, w.st.loops = (n, body) :: rest → Runs (.endl e) s e fun v =>
      v.st = if 1 < n then { w.st with loops := (n - 1, body) :: rest, pc := body } else { w.st with loops := rest, pc := w.st.pc + 8 }) ∧
    (opOf x = 0x12 → modOf x = 0 → bits x 47 35 = 0 → bits x 34 0 % 8 = 0 → w.st.calls.length < 16 → Runs (.call e) s e fun v =>
      v.st = { w.st with calls := (w.st.pc + 8, w.st.loops.length) :: w.st.calls, pc := bits x 34 0 }) ∧
    (opOf x = 0x13 → modOf x = 0 → opdOf x = 0 → ∀ a rest, w.st.calls = (a, w.st.loops.length) :: rest → Runs (.ret e) s e fun v =>
      v.st = { w.st with calls := rest, pc := a }) ∧
    (opOf x = 0x14 → modOf x = 0 → bits x 47 35 = 0 → bits x 34 0 % 8 = 0 → Runs (.jmp e) s e fun v => v.st = { w.st with pc := bits x 34 0 }) ∧
    (opOf x = 0x3F → modOf x = 0 → opdOf x = 0 → w.st.block = none → w.st.pend.seg = false → Runs (.haltInstruction e) s e fun v =>
      v.st = { w.st with pc := w.st.pc + 8, pend := pendClear, loops := [], calls := [], ended := true } ∧ v.ended = some .halt)

/-- R150, R151, R154: SEG, ALT, MARK and MATCH.
Conventions of the model in it: logs 15, 88. -/
def Obligations.PatternSegments : Prop :=
  ∀ (s : State) (e : Nat) (w : Work) (x : Nat), AtInstr s e w [x] →
    (opOf x = 0x18 → modOf x = 0 → bits x 47 16 = 0 → w.st.loops = [] → w.st.calls = [] → w.st.block = none → w.st.segNum = none ∨ w.st.segCnt ≠ 0 →
      Runs (.seg e) s e fun v => v.st = { w.st with pc := w.st.pc + 8, segNum := some (bits x 15 0), segCnt := 0, pend := { w.st.pend with seg := true },
                                                    alts := [], segOrd := w.st.segOrd + 1 }) ∧
    (opOf x = 0x19 → bits x 55 49 = 0 → bits x 47 35 = 0 → bits x 34 0 % 8 = 0 → w.st.segNum.isSome = true → w.st.loops = [] → w.st.calls = [] →
        (∀ a ∈ w.st.alts, a.index ≠ 1 + bits x 48 48) →
      Runs (.alt e) s e fun v => v.st = { w.st with pc := w.st.pc + 8, alts := w.st.alts ++ [⟨1 + bits x 48 48, bits x 34 0⟩] } ∧
        v.newAlts = w.newAlts ++ [⟨1 + bits x 48 48, w.st.segOrd, { w.st with pc := bits x 34 0, pend := pendClear, block := none, alts := [], resid := none }⟩]) ∧
    (opOf x = 0x1A → modOf x = 0 → opdOf x = 0 → w.st.block = none → Runs (.mark e) s e fun v =>
      v.st = { w.st with pc := w.st.pc + 8, pend := { w.st.pend with mark := true }, block := some ⟨0, w.st.loops.length, w.st.calls.length⟩ }) ∧
    (opOf x = 0x1B → modOf x = 0 → bits x 47 32 = 0 → bits x 31 0 ≠ 0 → ∀ b, w.st.block = some b → b.loopDepth = w.st.loops.length →
        b.callDepth = w.st.calls.length → Runs (.match e) s e fun v =>
      v.st = { w.st with pc := w.st.pc + 8, pend := { w.st.pend with limit := some (bits x 31 0) } })

/-- R133–R136, R142–R147, R158: the instructions that emit vectors, where the caravan has room for all of them, and STREAM where the ring has no data.
Conventions of the model in it: log 52. -/
def Obligations.PatternVectors : Prop :=
  (∀ (s : State) (e : Nat) (w : Work) (x : Nat), AtInstr s e w [x] → w.st.segNum.isSome = true → w.st.block = none → 0 < carRoom w → 0 < tagRoom w →
      opOf x = 0x02 → bits x 47 42 = 0 →
    Runs (.veci e) s e fun v => v.entries = w.entries + 1 ∧ v.st.pc = w.st.pc + 8 ∧ v.st.pend = pendClear ∧ v.st.segCnt = w.st.segCnt + 1 ∧
      v.st.lastVec = some ⟨bits x 31 0, bits x 37 32, bits x 40 38⟩ ∧ v.st.curTs = w.st.curTs ∧ v.st.curPs = w.st.curPs ∧
      veciVec [x] = ⟨bits x 31 0, bits x 37 32, bits x 40 38, modOf x + 1, x.testBit 41, false, none⟩ ∧
      ∀ q ∈ routeQuads s w.car.site w.car.route, ∃ sl ∈ v.slices, (q % 4, ⟨entryWord w.st.pend (veciVec [x]) (q % 4), vecTag w.st.pend (veciVec [x])⟩) ∈ sl.items) ∧
  (∀ (s : State) (e : Nat) (w : Work) (x : Nat), AtInstr s e w [x] → w.st.segNum.isSome = true → w.st.block = none → Untagged w.st.pend →
      bits x 31 0 ≠ 0 → bits x 47 32 = 0 → (bits x 31 0 + 255) / 256 ≤ carRoom w →
    (opOf x = 0x03 → modOf x = 0 → ∀ y, w.st.lastVec = some y → Runs (.rpt e) s e fun v =>
      v.entries = w.entries + (bits x 31 0 + 255) / 256 ∧ v.st.pc = w.st.pc + 8 ∧ v.st.lastVec = some y ∧ v.st.pend = pendClear) ∧
    (opOf x = 0x04 → bits x 55 50 = 0 → Runs (.fill e) s e fun v =>
      v.entries = w.entries + (bits x 31 0 + 255) / 256 ∧ v.st.pc = w.st.pc + 8 ∧
      v.st.lastVec = some ⟨bits x 49 48 * 0x55555555, w.st.curTs, w.st.curPs⟩ ∧ v.st.pend = pendClear)) ∧
  (∀ (s : State) (e : Nat) (w : Work) (x : Nat), AtInstr s e w [x] → w.st.segNum.isSome = true → w.st.block = none → opOf x = 0x01 → x.testBit 51 = false →
      bits x 55 52 = 0 → bits x 47 32 = 0 → bits x 31 0 ≠ 0 → bits x 31 0 ≤ carRoom w → bits x 31 0 ≤ tagRoom w ∨ (x.testBit 50 = false ∧ Untagged w.st.pend) →
      w.st.dps.length = 4 → dpOf w.st (bits x 49 48) % recBytes (x.testBit 50) = 0 →
      inQuota s w.car.part (vecAddr s w [x]) (recBytes (x.testBit 50) * bits x 31 0) = true →
      firstPoison s w.car.part (vecAddr s w [x]) (recBytes (x.testBit 50) * bits x 31 0) = none →
    Runs (.vec e) s e fun v => v.entries = w.entries + bits x 31 0 ∧ v.st.pc = w.st.pc + 8 ∧ v.st.resid = none ∧ v.st.segCnt = w.st.segCnt + bits x 31 0 ∧
      dpOf v.st (bits x 49 48) = (dpOf w.st (bits x 49 48) + recBytes (x.testBit 50) * bits x 31 0) % 2 ^ 35 ∧
      (x.testBit 50 = false → v.st.lastVec = some ⟨readMem s w.car.part (vecAddr s w [x] + 4 * (bits x 31 0 - 1)) 4, w.st.curTs, w.st.curPs⟩)) ∧
  (∀ (s : State) (e : Nat) (w : Work) (x r : Nat), AtInstr s e w [x] → w.st.segNum.isSome = true → w.st.block = none → opOf x = 0x06 → bits x 55 51 = 0 →
      bits x 47 32 = 0 → bits x 31 0 ≠ 0 → 0 < carRoom w → w.car.kind = 0 → Untagged w.st.pend → x.testBit 50 = false → streamRing s w [x] = some r →
      (∀ y ∈ ringSpans s w.car.part r (ringAt s w r) (4 * bits x 31 0), firstPoison s w.car.part y.1 y.2 = none) →
    (bits x 31 0 ≤ ringHas s w r false → bits x 31 0 ≤ carRoom w → Runs (.stream e) s e fun v =>
      v.entries = w.entries + bits x 31 0 ∧ v.st.pc = w.st.pc + 8 ∧ v.stalled = none ∧ v.ringRead.lookup r = some (ringUsed w r + 4 * bits x 31 0)) ∧
    (ringHas s w r false = 0 → Runs (.stream e) s e fun v =>
      v.entries = w.entries ∧ v.stalled = some r ∧ v.st = { w.st with resid := some ⟨[x], bits x 31 0, 0⟩ })) ∧
  (∀ (s : State) (e : Nat) (w : Work) (x y : Nat), AtInstr s e w [x, y] → w.st.segNum.isSome = true → w.st.block = none → opOf x = 0x07 → bits x 55 53 = 0 →
      bits x 52 51 ≠ 3 → bits x 47 32 = 0 → bits y 63 52 = 0 → bits x 31 0 ≠ 0 → bits x 31 0 ≤ carRoom w → Untagged w.st.pend → w.st.dps.length = 4 →
      scanAddr s w [x, y] % 4 = 0 → scanPinBad s w [x, y] = false → scanInQuota s w [x, y] (bits x 31 0) = true →
      firstPoison s w.car.part (scanAddr s w [x, y]) ((bits x 31 0 * scanBits [x, y] + 7) / 8) = none →
    Runs (.scan e) s e fun v => v.entries = w.entries + bits x 31 0 ∧ v.st.pc = w.st.pc + 16 ∧
      dpOf v.st (bits x 49 48) = (dpOf w.st (bits x 49 48) + 4 * ((bits x 31 0 * scanBits [x, y] + 31) / 32)) % 2 ^ 35 ∧
      v.st.lastVec = some ⟨scanWord s w [x, y] (bits x 31 0 - 1), w.st.curTs, w.st.curPs⟩) ∧
  (∀ (s : State) (e : Nat) (w : Work) (x y z : Nat) (l : LastVec), AtInstr s e w [x, y, z] → w.st.segNum.isSome = true → w.st.block = none → opOf x = 0x20 →
      bits x 55 49 = 0 → opdOf x = 0 → 0 < carRoom w → 0 < tagRoom w → w.st.lastVec = some l →
      (if x.testBit 48 then bits y 63 48 = 0 ∧ bits z 63 48 = 0 ∧ bits z 31 0 < 1000000000 else z = 0) →
    Runs (.waitt e) s e fun v => v.entries = w.entries + 1 ∧ v.st.pc = w.st.pc + 24 ∧ v.st.lastVec = some l ∧
      ∀ q ∈ routeQuads s w.car.site w.car.route, ∃ sl ∈ v.slices, ∃ tag,
        (q % 4, ⟨entryWord w.st.pend (waitVec w.st [x, y, z]) (q % 4), some tag⟩) ∈ sl.items ∧ tag.hold = true ∧ tag.wabs = x.testBit 48 ∧
          tag.target = if x.testBit 48 then timeOf (bits y 47 0) (bits z 31 0) (bits z 47 32) else y) ∧
  (∀ (s : State) (e r : Nat) (w : Work) (d : Resid), (engOf s e).work = some w → w.stalled = some r → w.st.resid = some d →
      0 < ringHas s w r ((wordAt d.words 0).testBit 50) →
    Runs (.ringDataResume e) s e fun v => v = { w with stalled := none })

/-- R130, R131, R161, R518: a pattern fault ends the caravan before the instruction emits anything, with the first code in the order of R518.
Conventions of the model in it: log 14. -/
def Obligations.PatternFaults : Prop :=
  (∀ (s : State) (e : Nat) (w : Work) (c : Instr), c ∈ patternRows e → (engOf s e).work = some w → w.ended = none → w.stalled = none → (engOf s e).mchk = false →
      memServes s 1 = true → w.st.resid = none → fetchFrom (moveWindow w 1) 1 = some w.st.pc → inQuota s w.car.part w.st.pc 8 = false →
    Runs c s e fun v => Faulted w v 4) ∧
  (∀ (s : State) (e : Nat) (w : Work) (x : Nat), AtInstr s e w [x] →
    (∀ c ∈ patternRows e, opAssigned (opOf x) = false → Runs c s e fun v => Faulted w v 1) ∧
    (opOf x = 0 → x ≠ 0 → x < 2 ^ 64 → Runs (.nop e) s e fun v => Faulted w v 2) ∧
    (opOf x = 0x14 → modOf x = 0 → bits x 47 35 = 0 → bits x 34 0 % 8 ≠ 0 → Runs (.jmp e) s e fun v => Faulted w v 3) ∧
    (opOf x = 0x03 → modOf x = 0 → opdOf x = 0 → Runs (.rpt e) s e fun v => Faulted w v 5) ∧
    (opOf x = 0x19 → bits x 55 49 = 0 → bits x 47 35 = 0 → bits x 34 0 % 8 = 0 → w.st.segNum = none →
      Runs (.alt e) s e fun v => Faulted w v 0x0C) ∧
    (opOf x = 0x3F → modOf x = 0 → opdOf x = 0 → w.st.block.isSome = true → Runs (.haltInstruction e) s e fun v => Faulted w v 0x16) ∧
    (opOf x = 0x11 → modOf x = 0 → opdOf x = 0 → w.st.loops = [] → Runs (.endl e) s e fun v => Faulted w v 8))

/-- R173, R178, R181, R192, Table 6-5: a firmware submission with nothing before it in the queue. Accepted it takes a token and goes to its ready list, or to its waystation;
refused it takes none and is reported; where no token is free, or no place it needs, it waits. R410, R411, R192: the front descriptor of a host ring is read where a token and
its places are free; a refused one completes with its status, a blocked one stays. Conventions of the model in it: logs 50, 96. -/
def Obligations.Submissions : Prop :=
  (∀ (s : State) (raw : Nat) (c : Car), s.pat.fwQueue = [] → c = parseDesc raw (sitePart s (bits raw 93 88)) 0 4 →
    (tokenFree (settle s) c.part = true → goesReady s c = true → descReserved raw = false → submitStatus s c false = 0 →
      ∃ t, exec (.firmwareSubmission raw) s = .next t ∧ t.pat.fwQueue = [] ∧ t.pat.way = s.pat.way ∧
        (∃ c', (routeOf t c.route).ready = (routeOf s c.route).ready ++ [c'] ∧ c'.ident = bits raw 175 160 ∧ c'.entries = bits raw 77 64 ∧ c'.submitTick = disTick s ∧
          ∃ k, relTickOf s c = some k ∧ k ≤ disTick s ∧ c'.deadline = k + 4 * (255 - bits raw 103 96)) ∧
        rd t (.disPart c.part) F.SUBMITTED = (rd s (.disPart c.part) F.SUBMITTED + 1) % 2 ^ 64 ∧ .fwResponse (bits raw 175 160) 0 ∈ t.out) ∧
    (tokenFree (settle s) c.part = true → placeFree s c.part = true → goesReady s c = false → descReserved raw = false → submitStatus s c false = 0 →
      ∃ t, exec (.firmwareSubmission raw) s = .next t ∧ t.pat.fwQueue = [] ∧ (∃ c', t.pat.way = s.pat.way ++ [c'] ∧ c'.route = c.route ∧ c'.ident = bits raw 175 160) ∧
        rd t (.disPart c.part) F.SUBMITTED = (rd s (.disPart c.part) F.SUBMITTED + 1) % 2 ^ 64) ∧
    (canTake (settle s) c = true → ∀ st, submitStatus s c (descReserved raw) = st → st = 1 ∨ st = 2 ∨ st = 3 ∨ st = 4 ∨ st = 5 →
      ∃ t, exec (.firmwareSubmission raw) s = .next t ∧ t.pat = (settle s).pat ∧ rd t (.disPart c.part) F.DIS_P_REFUSE_STATUS = st ∧
        rd t (.disPart c.part) F.DIS_P_REFUSE_ROUTE = c.route ∧ rd t (.disPart c.part) F.DIS_P_REFUSE_SITE = c.site ∧
        rd t (.disPart c.part) F.DIS_P_REFUSE_SOURCE = 0 ∧ (rd t (.disPart c.part) F.INT_RAW).testBit 11 = true ∧
        rd t (.disPart c.part) F.SUB_REFUSED = min (2 ^ 32 - 1) (rd s (.disPart c.part) F.SUB_REFUSED + 1) ∧ .fwResponse (bits raw 175 160) st ∈ t.out) ∧
    (canTake (settle s) c = false → ∃ t, exec (.firmwareSubmission raw) s = .next t ∧ t.pat.fwQueue.length = 1 ∧
      rd t (.disPart c.part) F.BP_EVENTS = min (2 ^ 32 - 1) (rd s (.disPart c.part) F.BP_EVENTS + 1))) ∧
  (∀ (s : State) (n d raw : Nat) (c : Car), n < 4 → d < 4 → c = parseDesc raw n 1 d → awake s = true → rdb s (.bar4 n) (F.DESC_CTRL_EN d) = true →
    rd s (.bar4 n) (F.DESC_CONS d) ≠ rd s (.bar4 n) (F.DESC_PROD d) →
    (cplPlaces s n d ≠ 0 → canTake (settle s) c = true → ringsBefore (settle s) n < poolFree (settle s) → submitStatus s c (descReserved raw) = 0 →
      ∃ t, exec (.descriptorFetch n d raw) s = .next t ∧
      rd t (.bar4 n) (F.DESC_CONS d) = (rd s (.bar4 n) (F.DESC_CONS d) + 1) % 2 ^ 32 ∧ rd t (.bar4 n) (F.DESC_STAT_HELD d) = 0 ∧
      cplReserved t n d = cplReserved s n d + b2n (raw.testBit 176) ∧ rd t (.disPart n) F.SUBMITTED = (rd s (.disPart n) F.SUBMITTED + 1) % 2 ^ 64) ∧
    (cplPlaces s n d ≠ 0 → canTake (settle s) c = true → ringsBefore (settle s) n < poolFree (settle s) → ∀ st, submitStatus s c (descReserved raw) = st → st ≠ 0 →
      ∃ t, exec (.descriptorFetch n d raw) s = .next t ∧
      { t.pat with ringWait := s.pat.ringWait } = (settle s).pat ∧ rd t (.bar4 n) (F.DESC_CONS d) = (rd s (.bar4 n) (F.DESC_CONS d) + 1) % 2 ^ 32 ∧ rd t (.disPart n) F.DIS_P_REFUSE_STATUS = st ∧
      rd t (.disPart n) F.DIS_P_REFUSE_SOURCE = 1 ∧ rd t (.disPart n) F.DIS_P_REFUSE_RING = d ∧
      rd t (.bar4 n) (F.DESC_CPL_PROD d) = (rd s (.bar4 n) (F.DESC_CPL_PROD d) + 1) % 2 ^ 32 ∧ (rd t (.hifPart n) F.INT_RAW).testBit (2 + d) = true) ∧
    (cplPlaces s n d = 0 ∨ canTake (settle s) c = false ∨ poolFree (settle s) ≤ ringsBefore (settle s) n →
      ∃ t, exec (.descriptorFetch n d raw) s = .next t ∧ { t.pat with ringWait := s.pat.ringWait } = (settle s).pat ∧
      rd t (.bar4 n) (F.DESC_STAT_HELD d) = 1 ∧ rd t (.bar4 n) (F.DESC_CONS d) = rd s (.bar4 n) (F.DESC_CONS d) ∧
      (cplPlaces s n d ≠ 0 → tabGet false s.pat.ringWait (n * 4 + d) = false →
        rd t (.disPart n) F.BP_EVENTS = min (2 ^ 32 - 1) (rd s (.disPart n) F.BP_EVENTS + 1))))

/-- R182, R183, R185: a tick passes; at most four caravans are assigned in its decision, and none where no partition has a candidate. R183, R175, R176: the next assigned caravan goes to its engine, which starts from the route's record; a record that fails its check marks the site POISON, and a cluster in CS_HOLD is handed nothing.
Conventions of the model in it: logs 13, 50, 51, 95. -/
def Obligations.Dispatch : Prop :=
  ((∀ s : State, domOn s 20 = true → rd s .pwrDev F.PWR_STAT_STATE < 2 → ∃ t, exec .dispatchDecision s = .next t ∧ disTick t = (disTick s + 1) % 2 ^ 64 ∧
    (∃ l, t.pat.assigned = s.pat.assigned ++ l ∧ l.length ≤ 4) ∧ t.pat.handover = none ∧
    (s.lcs.stall = 0 → s.pat.halted = false → disStopped s = false → sharesAct t = fitShares (usableEngs s).length 256 (shares s)) ∧
    (0 < s.lcs.stall ∨ s.pat.halted = true ∨ disStopped s = true → t.pat.assigned = s.pat.assigned)) ∧
  (∀ (s : State) (c : Car) (e n : Nat), nextPart s = some n → earliest (candidates s n) = some c → chooseEng s c = some e →
    (decide_ 1 1 s).pat.assigned = s.pat.assigned ++ [({ c with entries := reservation s c }, e)] ∧ (decide_ 1 1 s).pat.wrrPtr = (n + 1) % 4 ∧
      (decide_ 1 1 s).pat.tiePtr = s.pat.tiePtr.set n ((c.route + 1) % 64) ∧ (decide_ 1 1 s).pat.credits = s.pat.credits.set n (s.pat.credits.getD n 0 - 1) ∧
      (routeOf (decide_ 1 1 s) c.route).ready = (routeOf s c.route).ready.drop 1) ∧
  (∀ (s : State) (r : Nat) (c : Car), candidate s r = some c → routeBusy s r = false ∧ (routeOf s r).held = false ∧ (c.kind = 0 → (routeOf s r).endPos = none) ∧
    (∃ e, e ∈ shareEngs s c.part ∧ engIdle s e = true ∧ csHold s (e / 17) = false ∧ (csImage s (e / 17)).isSome = true) ∧
    (c.resv = false → c.kind = 0 → ∀ q ∈ routeQuads s c.site c.route, reservation s c ≤ freeW (furOf s q) ∧ (reservation s c + 15) / 16 ≤ tagsFree (furOf s q)))) ∧
  (∀ (s : State) (c : Car) (e : Nat) (rest : List (Car × Nat)), s.pat.assigned = (c, e) :: rest →
    (csReady s (e / 17) = true → (engOf s e).due = false → checkHolds s c = true → ∃ t, exec (.caravanHandover true) s = .next t ∧
      t.pat.assigned = rest ∧ t.pat.handover = some e ∧ (engOf t e).mchk = false ∧
      ∃ w, (engOf t e).work = some w ∧ w.car = c ∧ w.st = carRecord s c ∧ w.slices = [] ∧ w.entries = 0 ∧ w.ended = none) ∧
    (∀ ok, csReady s (e / 17) = true → (engOf s e).due = false → ok = false ∨ checkHolds s c = false → c.site < 64 → siteBusy s c.site = true → 10 ∉ openCauses (siteOf s c.site) →
      ∃ t, exec (.caravanHandover ok) s = .next t ∧ siteState t c.site = 9 ∧ (rd t .disDev F.INT_RAW).testBit 1 = true ∧ (rd t .disDev F.FLT_CAUSE).testBit 1 = true ∧
        t.pat.rsLast = some (c.route, c.site) ∧ ∀ e', e' < 68 → ∀ w, (engOf t e').work = some w → w.car.site ≠ c.site) ∧
    (∀ ok, csReady s (e / 17) = false → ∃ t, exec (.caravanHandover ok) s = .next t ∧ t.pat.assigned = rest ∧ engOf t e = engOf s e ∧
      (routeOf t c.route).ready = { c with resv := true } :: (routeOf s c.route).ready))

/-- R22, R174, R177, Table 6-6: the commit of a main caravan that has ended without a fault; nothing commits before its slices are written or after a machine check. A chained
copy is checked when it is filed. Conventions of the model in it: logs 50, 51. -/
def Obligations.Commits : Prop :=
  (∀ (s : State) (e : Nat) (w : Work), (engOf s e).work = some w → w.ended = none ∨ w.slices ≠ [] ∨ (engOf s e).mchk = true →
    ∃ t, exec (.caravanCommit e) s = .next t ∧ t = settle s) ∧
  (∀ (s : State) (e : Nat) (w : Work) (why : EndWhy), (engOf s e).work = some w → w.ended = some why → why = .full ∨ why = .stop ∨ why = .halt → w.slices = [] →
      (engOf s e).mchk = false → w.car.kind = 0 → e < 68 → w.car.route < 64 → w.car.part < 4 → w.newAlts = [] →
    ∃ t, exec (.caravanCommit e) s = .next t ∧ (engOf t e).work = none ∧
      (∀ q ∈ routeQuads s w.car.site w.car.route, (furOf t q).vis = (furOf s q).stg ∧ (furOf t q).res = (furOf s q).stg) ∧
      (routeOf t w.car.route).main = { w.st with ended := decide (why = .halt), pfault := false } ∧
      (why = .halt → ((routeOf t w.car.route).endPos.map (·.1)) = some 0) ∧
      rd t (.disPart w.car.part) F.COMMITTED = (rd s (.disPart w.car.part) F.COMMITTED + 1) % 2 ^ 64 ∧
      rd t (.eng e) F.ENG_COMMITS = (rd s (.eng e) F.ENG_COMMITS + 1) % 2 ^ 64 ∧
      rd t (.disGrp (w.car.route / 8)) (F.DIS_R_COMMITS (w.car.route % 8)) = (rd s (.disGrp (w.car.route / 8)) (F.DIS_R_COMMITS (w.car.route % 8)) + 1) % 2 ^ 64 ∧
      (∀ k, w.trig = some k → k < 256 → rd t (.disGrp (w.car.route / 8)) (F.DIS_R_PROGRESS_CODE (w.car.route % 8)) = k ∧ (rd t (.disPart w.car.part) F.INT_RAW).testBit 9 = true) ∧
      t.pat.retiring = s.pat.retiring ++ (if 0 < w.car.chainN ∧ why ≠ .halt then
        [{ w.car with release := (w.car.release + w.car.chainStep) % 2 ^ 64, chainN := w.car.chainN - 1, entries := w.car.asked, source := 2, fails := 0,
                      resv := !goesReady s (chainCopy w.car) && placeFree s w.car.part, lastEng := none, relTick := none }] else [])) ∧
  (∀ (s : State) (c : Car) (rest : List Car), s.pat.retiring = c :: rest → s.pat.fwQueue = [] → goesReady s c = false → c.resv = true ∨ placeFree s c.part = true →
      (∀ r, r < 64 → (routeOf s r).sideWait = []) → ∀ st, submitStatus s c false = st →
    (st = 0 → ∃ t, exec .retiringExit s = .next t ∧ t.pat.retiring = rest ∧ ∃ c', t.pat.way = s.pat.way ++ [c'] ∧ c'.route = c.route ∧ c'.chainN = c.chainN) ∧
    (st ≠ 0 → ∃ t, exec .retiringExit s = .next t ∧ t.pat.retiring = rest ∧ t.pat.way = s.pat.way ∧ rd t (.disPart c.part) F.DIS_P_REFUSE_STATUS = st ∧
      (4 ≤ c.ring → .fwResponse c.ident st ∈ t.out)))

/-- R168–R171, R23, R195: a machine check for one of the causes 1 to 5, and no other, sends the caravan back to the head of its ready list with its reservation; the third
counted check quarantines the engine. A check of an engine without a caravan falls on its next one. With CS_HOLD the condition CS_PARITY ends. Conventions of the model in it:
log 2. -/
def Obligations.MachineChecks : Prop :=
  (∀ (s : State) (e cause : Nat) (c : Instr), (c = .machineCheck e cause ∧ 1 ≤ cause ∧ cause ≤ 4) ∨ (c = .mcHang e ∧ cause = 4 ∧ ∀ w, (engOf s e).work = some w → w.stalled = none) →
      e < 68 → (engOf s e).role ≠ 1 → ∀ w, (engOf s e).work = some w → w.car.route < 64 → w.car.site < 64 → ∃ t, exec c s = .next t ∧
    (engOf t e).work = none ∧ (engOf t e).mchk = true ∧ (∃ c', (routeOf t w.car.route).ready = c' :: (routeOf s w.car.route).ready ∧ c'.resv = true ∧
      c'.ident = w.car.ident ∧ c'.deadline = disTick s ∧ c'.lastEng = some e ∧ c'.fails = w.car.fails + 1) ∧
    (∀ q ∈ routeQuads s w.car.site w.car.route, (furOf s q).resetPend = false →
      if w.car.kind = 0 then (furOf t q).stg = (furOf s q).vis ∧ (furOf t q).res = (furOf s q).res
      else (halfOf (furOf t q) (kindRegion w.car.kind)).stg = (halfOf (furOf s q) (kindRegion w.car.kind)).vis) ∧
    rd t (.eng e) F.ENG_MCHK_CAUSE = cause ∧ rd t .disDev F.DIS_MCHK_LAST_ENGINE = e ∧ rd t .disDev F.DIS_MCHK_LAST_CAUSE = cause ∧
    rd t .disDev F.DIS_MCHK_LAST_ROUTE = w.car.route ∧ rd t .disDev F.DIS_MCHK_LAST_SITE = w.car.site ∧ (rd t (.eng e) F.INT_RAW).testBit 1 = true ∧
    rd t (.eng e) F.ENG_MCHK_TOTAL = min (2 ^ 32 - 1) (rd s (.eng e) F.ENG_MCHK_TOTAL + 1) ∧
    (cause = 1 → csHold t (e / 17) = true ∧ (rd t (.eng e) F.FLT_LIVE).testBit 2 = true ∧
      ((rd s (.eng e) F.FLT_LIVE).testBit 2 = false → (rd t (.eng e) F.INT_RAW).testBit 2 = true)) ∧
    (3 ≤ w.car.fails → (routeOf t w.car.route).held = true ∧ (rd t .disDev F.FLT_LIVE).testBit 2 = true ∧
      ((rd s .disDev F.FLT_LIVE).testBit 2 = false → (rd t .disDev F.INT_RAW).testBit 2 = true)) ∧
    (2 ≤ (recentChecks s e).length → (engOf t e).role = 1 ∧ (rd t (.eng e) F.INT_RAW).testBit 3 = true) ∧
    ((recentChecks s e).length < 2 → (engOf t e).role = (engOf s e).role)) ∧
  (∀ (s : State) (e : Nat), e < 68 → ∃ t, exec (.machineCheck e 5) s = .next t ∧ (rd t (.eng e) F.INT_RAW).testBit 8 = true ∧ (engOf t e).role = (engOf s e).role ∧
    (engOf t e).checks = (engOf s e).checks) ∧
  (∀ (s : State) (e cause : Nat), e < 68 → 1 ≤ cause → cause ≤ 5 → (engOf s e).work = none → ∃ t, exec (.machineCheck e cause) s = .next t ∧ (engOf t e).due = true) ∧
  (∀ (s : State) (e cause : Nat), cause = 0 ∨ 5 < cause → exec (.machineCheck e cause) s = .next s) ∧
  (∀ (s : State) (ok : Bool) (c : Car) (e : Nat) (rest : List (Car × Nat)), s.pat.assigned = (c, e) :: rest → csReady s (e / 17) = true → (engOf s e).due = true →
      e < 68 → c.route < 64 → c.site < 64 → ∃ t, exec (.caravanHandover ok) s = .next t ∧ (engOf t e).work = none ∧ (engOf t e).due = false ∧
    rd t .disDev F.DIS_MCHK_LAST_ROUTE = c.route ∧ rd t .disDev F.DIS_MCHK_LAST_SITE = c.site ∧
    ∃ c', (routeOf t c.route).ready = c' :: (routeOf s c.route).ready ∧ c'.ident = c.ident ∧ c'.resv = true ∧ c'.fails = c.fails + 1) ∧
  (∀ (s : State) (k : Nat), k < 4 → ∃ t, exec (.csRewriteDone k) s = .next t ∧ csHold t k = false ∧ (∀ j, j < 4 → j ≠ k → csHold t j = csHold s j) ∧
    ∀ e, e < 68 → e / 17 = k → (rd t (.eng e) F.FLT_LIVE).testBit 2 = false)

/-- R177, R187: the counts of a pool read add up, and the latch holds those of that cycle; a write of the shares is taken or refused whole. Conventions of the model in it: logs
13, 50. -/
def Obligations.PoolAndShares : Prop :=
  (∀ (s : State) (m : Nat), mayRead s m .disDev F.DIS_POOL_A_FREE.off false = true → ∃ t, exec (.poolCountRead m) s = .next t ∧
    t.out = s.out ++ [.read m ((poolCounts s).getD 0 0 + (poolCounts s).getD 1 0 * 2 ^ 16)] ∧ tabGet [] t.pat.poolLatch m = poolCounts s ∧
    ((allCars s).length ≤ 8192 → (handing s = true → works s ≠ []) → (poolCounts s).sum = 8192)) ∧
  (∀ (s : State) (m : Nat), mayRead s m .disDev F.DIS_POOL_A_FREE.off false = false → Unheld s m → ∃ t, exec (.poolCountRead m) s = .next t ∧ t = emit s (.read m 0)) ∧
  (∀ (s : State) (m word a b c d : Nat), MayWrite s m .disDev F.DIS_SHARE_0.off true → a = bits word 6 0 → b = bits word 14 8 → c = bits word 22 16 → d = bits word 30 24 →
    (a + b + c + d ≤ 64 → (∀ n, n < 4 → portExists s n = false → [a, b, c, d].getD n 0 = 0) → ∃ t, exec (.disShareWrite m word) s = .next t ∧ shares t = [a, b, c, d]) ∧
    (64 < a + b + c + d → ∃ t, exec (.disShareWrite m word) s = .next t ∧ shares t = shares s ∧ (rd t .disDev F.FLT_CAUSE).testBit 3 = true))

/-- R199, R206: a write port of a bank takes one slice of the next engine in turn, and the others wait a cycle; a pointer record crosses a furrow's queue. At a stop the
pointers of a furrow hold (R222).
Conventions of the model in it: log 53. -/
def Obligations.SluiceAndPointers : Prop :=
  (∀ (s : State) (b e : Nat) (rest : List Nat) (w : Work) (sl : Slice) (more : List Slice), portQueue s b = e :: rest → (engOf s e).work = some w →
      w.slices = sl :: more → (∀ it ∈ sl.items, it.1 < 4) → tabGet 0 s.lcs.grantWait b ≤ disTick s →
    ∃ t, exec (.sluiceGrant b) s = .next t ∧ (engOf t e).work = some { w with slices := more } ∧ tabGet 0 t.pat.portPtr b = (e + 1) % 68 ∧
      (∀ q, q < 64 → (furOf t q).vis = (furOf s q).vis) ∧
      (∀ f ∈ rest, rd t (.eng f) F.ENG_STALL = (rd s (.eng f) F.ENG_STALL + 1) % 2 ^ F.ENG_STALL.width) ∧
      (sl.region = 0 → ∀ k, k < 4 → (furOf s (4 * b + k)).stg < 2 ^ 15 → (furOf t (4 * b + k)).stg = ptrAdd (furOf s (4 * b + k)).stg (sl.items.filter fun it => it.1 = k).length)) ∧
  (∀ (s : State) (q : Nat) (r : PtrRec) (rest : List PtrRec), (furOf s q).toRead = r :: rest → (furOf s q).resetPend = false →
    ∃ t, exec (.pointerQueueTransfer q false) s = .next t ∧ (furOf t q).visR = r.main ∧ (furOf t q).half1.visR = r.side1 ∧ (furOf t q).half2.visR = r.side2 ∧ (furOf t q).toRead = rest ++ (furOf s q).holdRead.toList) ∧
  (∀ (s : State) (q : Nat) (r : PtrRec) (rest : List PtrRec), (furOf s q).toWrite = r :: rest → (furOf s q).resetPend = false →
    ∃ t, exec (.pointerQueueTransfer q true) s = .next t ∧ (furOf t q).relW = r.main ∧ (furOf t q).tagRelW = r.tags ∧
    (furOf t q).half1.relW = r.side1 ∧ (furOf t q).half1.tagRelW = r.tags1 ∧ (furOf t q).half2.relW = r.side2 ∧ (furOf t q).half2.tagRelW = r.tags2 ∧
    (furOf t q).toWrite = rest ++ (furOf s q).holdWrite.toList) ∧
  (∀ (s : State) (q : Nat) (dir : Bool), (furOf s q).resetPend = true → ∃ t, exec (.pointerQueueTransfer q dir) s = .next t ∧ furOf t q = furOf s q)

/-- R203, R210, R211, R214, R216, R113–R119, R126, R190, R219: the fetch of an entry by the lead quad, the decision point of a boundary, which behind a match-end entry waits
for the dwell, an entry that a rewind has dropped, and the steps of the other quads. Conventions of the model in it: logs 46, 47, 48, 85, 97. -/
def Obligations.EntryFetches : Prop :=
  (∀ (s : State) (i : Nat) (k : Peek), Fetchable s i k → ¬ AtBoundary k →
    ∃ t, exec (.entryFetch i none) s = .next t ∧ t.regs = s.regs ∧
      (∃ p, (siteOf t i).queue = (siteOf s i).queue ++ [p] ∧ p.word = k.cell.word ∧ p.tag = k.cell.tag ∧ p.boundary = false ∧ p.jumped = false) ∧
      (furOf t (leadQuad (siteOf s i).mask)).now = ptrAfter k ∧
      ∀ q ∈ quadsOf (siteOf s i).mask, ∀ u, peek s q = some u → (furOf t q).seq = ptrAfter u ∧ (furOf t q).vis = (furOf s q).vis ∧
        (q ≠ leadQuad (siteOf s i).mask → (furOf t q).steps = (furOf s q).steps ++ [ptrAfter u])) ∧
  (∀ (s : State) (i : Nat) (k : Peek), Fetchable s i k → AtBoundary k → ((k.cell.tag.map fun t => t.mtch).getD false) = true →
    ∃ t, exec (.entryFetch i none) s = .next t ∧ t.regs = s.regs ∧ (siteOf t i).deferred = true ∧
      ∃ p, (siteOf t i).queue = (siteOf s i).queue ++ [p] ∧ p.boundary = true ∧ p.jumped = false ∧ p.halt = false) ∧
  (∀ (s : State) (i : Nat) (p : Pres) (rest : List Pres), siteState s i = 3 → (siteOf s i).queue.length < 256 → (siteOf s i).deferred = false →
      (siteOf s i).redo = p :: rest →
    ∃ t, exec (.entryFetch i none) s = .next t ∧ t.regs = s.regs ∧ (siteOf t i).queue = (siteOf s i).queue ++ [p] ∧ (siteOf t i).redo = rest ∧
      t.pat.routes = s.pat.routes) ∧
  (∀ (s : State) (i : Nat) (k : Peek), Fetchable s i k → AtBoundary k → ((k.cell.tag.map fun t => t.mtch).getD false) = false →
      entSeg k.cell.word = false → (siteOf s i).stops = [] →
    (rdb s (sitePage s i) (F.CMP_SITE_STATE_HALT_PEND i) = true → ∃ t, exec (.entryFetch i none) s = .next t ∧
      ∃ p, (siteOf t i).queue = (siteOf s i).queue ++ [p] ∧ p.boundary = true ∧ p.jumped = false ∧ p.halt = true) ∧
    (rdb s (sitePage s i) (F.CMP_SITE_STATE_HALT_PEND i) = false → altRequest s i 1 = none → altRequest s i 2 = none → ∃ t, exec (.entryFetch i none) s = .next t ∧
      (∃ p, (siteOf t i).queue = (siteOf s i).queue ++ [p] ∧ p.boundary = true ∧ p.jumped = false ∧ p.halt = false) ∧
      ∀ r ∈ routesOf (siteOf s i).mask, ∀ h ∈ (routeOf t r).heads, h.bound ≠ (siteOf s i).segOrd) ∧
    (rdb s (sitePage s i) (F.CMP_SITE_STATE_HALT_PEND i) = false → ∀ req, altRequest s i 1 = some req → altArmed s i 1 = true → altFilled s i 1 = true →
      ∃ t, exec (.entryFetch i none) s = .next t ∧ (siteOf t i).req1 = none ∧ (siteOf t i).req2 = none ∧
        (∃ p, (siteOf t i).queue = (siteOf s i).queue ++ [p] ∧ p.boundary = true ∧ p.jumped = true) ∧
        ∀ r ∈ routesOf (siteOf s i).mask, (routeOf t r).capped = true ∧
          ∃ h ∈ (routeOf s r).heads, h.index = 1 ∧ h.bound = (siteOf s i).segOrd ∧ (routeOf t r).main = { h.cont with ended := h.endPos.isSome } ∧ (routeOf t r).endPos = h.endPos ∧
          ∀ q ∈ routeQuads s i r, (furOf t q).jumpTo = some (furOf s q).vis) ∧
    (rdb s (sitePage s i) (F.CMP_SITE_STATE_HALT_PEND i) = false → ∀ req, altRequest s i 1 = some req → altArmed s i 1 = false → altRequest s i 2 = none →
      ∃ t, exec (.entryFetch i none) s = .next t ∧ (siteOf t i).req1 = none ∧
        rd t (sitePage s i) (F.CMP_SITE_FLAGS_JDISC i) = min (2 ^ (F.CMP_SITE_FLAGS_JDISC i).width - 1) (rd s (sitePage s i) (F.CMP_SITE_FLAGS_JDISC i) + 1) ∧
        ∃ p, (siteOf t i).queue = (siteOf s i).queue ++ [p] ∧ p.jumped = false)) ∧
  (∀ (s : State) (i q : Nat) (k : Peek), Fetchable s i k → q ∈ quadsOf (siteOf s i).mask → (siteOf s i).stops = [] →
    ∃ t, exec (.entryFetch i (some q)) s = .next t ∧ siteState t i = 9 ∧ (rd t (.bnk (q / 4)) F.INT_RAW).testBit 16 = true ∧
      (rd t (.bnk (q / 4)) F.FLT_CAUSE).testBit 16 = true ∧ rd t (.bnk (q / 4)) (F.FUR_PAR_POS_QUAD (q % 4)) = q % 4 ∧
      rd t (.bnk (q / 4)) (F.FUR_PAR_ERR (q % 4)) = min (2 ^ 32 - 1) (rd s (.bnk (q / 4)) (F.FUR_PAR_ERR (q % 4)) + 1)) ∧
  (∀ (s : State) (i : Nat), ∃ t, exec (.resumePositionArrival i) s = .next t ∧ t.regs = s.regs ∧ ∀ q,
    (q ∈ quadsOf (siteOf s i).mask → furOf t q = { furOf s q with jumpTo := none }) ∧
    (q ∉ quadsOf (siteOf s i).mask → furOf t q = furOf s q)) ∧
  (∀ (s : State) (q : Nat) (p : RPtr) (rest : List RPtr), (furOf s q).steps = p :: rest →
    ∃ t, exec (.siteStepBroadcast q) s = .next t ∧ t.regs = s.regs ∧ (furOf t q).now = p ∧ (furOf t q).steps = rest ∧ (furOf t q).vis = (furOf s q).vis)

/-- R55, R122, R202, R212, R213, R141: what a vector period presents. R124: a stop that waits for the boundary takes effect there, and no vector follows. Conventions of the
model in it: logs 49, 58, 97. -/
def Obligations.VectorPeriods : Prop :=
  (∀ (s : State) (i : Nat), i < 64 → siteState s i = 3 → (siteOf s i).cur = none → stopForced (siteOf s i) = false → (siteOf s i).unsure = false →
    (∀ p rest, (siteOf s i).queue = p :: rest → entMark p.word = false → p.tag = none → (siteOf s i).nextVn < 2 ^ 64 → ∃ t, exec (.vectorPeriod false i) s = .next t ∧
      (siteOf t i).queue = rest ∧ (siteOf t i).nextVn = ((siteOf s i).nextVn + 1) % 2 ^ 64 ∧ rd t (.timPart (sitePart s i)) (F.SITE_VCOUNT i) = (siteOf s i).nextVn ∧
      ∃ c, (siteOf t i).cur = some c ∧ c.pres = p ∧ c.vn = (siteOf s i).nextVn ∧ c.cls ≠ .idle ∧ c.period = vectorPeriod s i (bits p.word 13 8) ∧
        (p.target = none → c.left = bits p.word 24 17)) ∧
    ((siteOf s i).queue = [] → (siteOf s i).gap = none → ∃ t, exec (.vectorPeriod false i) s = .next t ∧ (siteOf t i).nextVn = (siteOf s i).nextVn ∧
      (∃ c, (siteOf t i).cur = some c ∧ c.cls = .idle) ∧
      ∃ g, (siteOf t i).gap = some g ∧ g.vn = (siteOf s i).nextVn ∧ g.len = 1 ∧ (∀ r ∈ g.routes, (rd t (.bnk (r / 4)) F.INT_RAW).testBit (24 + r % 4) = true) ∧
        ((siteOf s i).args.underrunStop = true → 8 ∈ (siteOf t i).stops))) ∧
  (∀ (s : State) (i : Nat) (c : Cur), i < 64 → siteState s i = 3 → (siteOf s i).cur = some c → c.cls ≠ .idle → 0 < c.left → (siteOf s i).nextVn < 2 ^ 64 →
      stopForced (siteOf s i) = false → (siteOf s i).unsure = false →
    ∃ t, exec (.vectorPeriod false i) s = .next t ∧ rd t (.timPart (sitePart s i)) (F.SITE_VCOUNT i) = (siteOf s i).nextVn ∧ (siteOf t i).queue = (siteOf s i).queue ∧
      ∃ d, (siteOf t i).cur = some d ∧ d.pres = c.pres ∧ d.left = c.left - 1 ∧ d.vn = (siteOf s i).nextVn ∧ d.start = c.start + c.period) ∧
  (∀ (s : State) (i : Nat) (c : Cur), i < 64 → siteState s i = 3 → (siteOf s i).cur = some c → c.cls ≠ .idle → c.left = 0 → c.done = false → (siteOf s i).pass = none →
      openCauses (siteOf s i) = [] → c.pres.last = [4] → (siteOf s i).unsure = false →
    ∃ t, exec (.vectorPeriod false i) s = .next t ∧ siteState t i = 4 ∧ rdb t (.timPart (sitePart s i)) (F.SITE_RUNNING i) = false) ∧
  (∀ (s : State) (i b : Nat), i < 64 → siteState s i = 3 → stopForced (siteOf s i) = true → (siteOf s i).unsure = false → boundaryCauses (siteOf s i) = [b] → b ∈ [4, 5, 6, 7, 8] →
    ∃ t, exec (.vectorPeriod false i) s = .next t ∧ siteState t i = b ∧ (siteOf t i).nextVn = (siteOf s i).nextVn) ∧
  (∀ (s : State) (i : Nat), i < 64 → siteState s i ∈ [1, 2, 4, 5, 6, 7, 8] → ∃ t, exec (.vectorPeriod false i) s = .next t ∧ (siteOf t i).nextVn = (siteOf s i).nextVn ∧
    rd t (.timPart (sitePart s i)) (F.SITE_VCOUNT i) = rd s (.timPart (sitePart s i)) (F.SITE_VCOUNT i) ∧ ∃ c, (siteOf t i).cur = some c ∧ c.cls = .idle) ∧
  (∀ (s : State) (q : Nat), siteOfQuad s q = none → bankSafe s (q / 4) = false → (rd s .pwrDev F.PWR_DOM_ON).testBit (q / 4) = true →
      (∀ r ∈ s.cal.runs, r.bank = q / 4 → r.cls = 1 ∨ r.accepted = true) →
    ∃ t, exec (.vectorPeriod true q) s = .next t ∧ t.pat.sites = s.pat.sites ∧ t.pat.furs = s.pat.furs ∧
      tabGet 0 t.pat.idleAt q = tabGet 0 s.pat.idleAt q + (timingSet s (q / 4) (rd s (.bnk (q / 4)) (F.FUR_CTRL_IDLE_TS (q % 4)))).period)

/-- R215, R216, R271, R272: the decision of a match pass, and the boundary that ends its dwell. Conventions of the model in it: logs 47, 97. -/
def Obligations.MatchBlocks : Prop :=
  (∀ (s : State) (i : Nat) (u : Pass), (siteOf s i).pass = some u → u.complete = true → u.decision = none → passPending s i = false →
    ∃ t, exec (.matchDecision i) s = .next t ∧ t.regs = s.regs ∧ (siteOf t i).pass = some { u with decision := some !(u.failed || passUnsampled s i) }) ∧
  (∀ (s : State) (i : Nat) (u : Pass) (c : Cur), i < 64 → siteState s i = 3 → (siteOf s i).cur = some c → c.left = 0 → (siteOf s i).pass = some u → u.complete = true →
    (u.decision = some true → (siteOf s i).deferred = false → c.pres.last = [] → ∃ t, exec (.dwellEnd i) s = .next t ∧ (siteOf t i).pass = none ∧
      siteState t i = 3 ∧ ∀ q ∈ quadsOf (siteOf s i).mask, rd t (.bnk (q / 4)) (F.FUR_DWELL_LAST (q % 4)) = min u.dwell 0xFFFF ∧
        ((furOf s q).seq.marks = [] → (furOf t q).seq.marked = false) ∧
        ∀ m rest, (furOf s q).seq.marks = m :: rest → (furOf t q).seq.mark = m.1 ∧ (furOf t q).seq.marks = rest) ∧
    (u.decision = some false → u.number < u.limit → ∃ t, exec (.dwellEnd i) s = .next t ∧ siteState t i = 3 ∧
      (siteOf t i).queue = (siteOf s i).block.take (rewindLength (siteOf s i).block) ∧ (siteOf t i).redo = (siteOf s i).block.drop (rewindLength (siteOf s i).block) ++ (siteOf s i).redo ∧
      (siteOf t i).pass = some ⟨u.number + 1, 0, false, false, none, 0⟩ ∧ ∀ q ∈ quadsOf (siteOf s i).mask,
        rd t (.bnk (q / 4)) (F.FUR_PASS (q % 4)) = min (u.number + 1) 0xFFFFFFFF ∧
        rd t (.bnk (q / 4)) (F.FUR_REWINDS (q % 4)) = min (2 ^ 32 - 1) (rd s (.bnk (q / 4)) (F.FUR_REWINDS (q % 4)) + 1) ∧
        ((furOf s q).seq.markRegs.headD 0 = 0 → (furOf t q).pr = (furOf s q).seq.mark ∧ (furOf t q).now.rd = (furOf s q).seq.mark)) ∧
    (u.decision = some false → u.limit ≤ u.number → openCauses (siteOf s i) = [] → ∃ t, exec (.dwellEnd i) s = .next t ∧ siteState t i = 7 ∧
      (rd t (sitePage s i) (F.CMP_SITE_CAUSES i)).testBit 3 = true))

/-- R234–R237, Tables 8-5 to 8-7: the set commands and their outcomes.
Conventions of the model in it: log 87. -/
def Obligations.TimingSets : Prop :=
  (∀ (s : State) (m b word : Nat), b < 16 → MayWrite s m (.bnk b) F.BNK_TS_CMD_SET.off false → rdb s (.bnk b) F.BNK_TS_STAT_BUSY = false →
    (word.testBit 9 = false → rdb s (.bnk b) F.BNK_STAT_CHANGING = false → bankBusy s b = false → ∃ t, exec (.tsLoad m b word) s = .next t ∧
      rd t (.bnk b) F.BNK_TS_STAT_BUSY = 1 ∧ rd t (.bnk b) F.BNK_TS_CMD_LOAD = 1 ∧ rd t (.bnk b) F.BNK_TS_STAT_SET = bits word 5 0 ∧
      (bankOf t b).tsCmd = some (true, bits word 5 0) ∧
      (bankOf t b).tsets = (bankOf s b).tsets) ∧
    (word.testBit 8 = false → rdb s (.bnk b) F.BNK_STAT_CHANGING = false → ∃ t, exec (.tsRead m b word) s = .next t ∧
      rd t (.bnk b) F.BNK_TS_STAT_BUSY = 1 ∧ rd t (.bnk b) F.BNK_TS_CMD_READ = 1 ∧ rd t (.bnk b) F.BNK_TS_STAT_SET = bits word 5 0 ∧
      (bankOf t b).tsCmd = some (false, bits word 5 0)) ∧
    (∀ (c : Instr) (err : Nat), (c = .tsLoad m b word ∧ (if word.testBit 9 then err = 2 else err = 1 ∧ (rdb s (.bnk b) F.BNK_STAT_CHANGING = true ∨ bankBusy s b = true))) ∨
        (c = .tsRead m b word ∧ (if word.testBit 8 then err = 2 else err = 1 ∧ rdb s (.bnk b) F.BNK_STAT_CHANGING = true)) →
      ∃ t, exec c s = .next t ∧ rd t (.bnk b) F.BNK_TS_STAT_BUSY = 0 ∧ rd t (.bnk b) F.BNK_TS_STAT_ERR = err ∧ (bankOf t b).tsCmd = (bankOf s b).tsCmd ∧
        (rd t (.bnk b) F.FLT_CAUSE).testBit 1 = true ∧ (rd t (.bnk b) F.INT_RAW).testBit 8 = true)) ∧
  (∀ (s : State) (m b word : Nat) (c : Instr), b < 16 → MayWrite s m (.bnk b) F.BNK_TS_CMD_SET.off false → rdb s (.bnk b) F.BNK_TS_STAT_BUSY = true →
      c = .tsLoad m b word ∨ c = .tsRead m b word →
    ∃ t, exec c s = .next t ∧ bankOf t b = bankOf s b ∧ rd t (.bnk b) F.BNK_TS_CMD_SET = rd s (.bnk b) F.BNK_TS_CMD_SET ∧ (rd t (.bnk b) F.FLT_CAUSE).testBit 1 = true) ∧
  (∀ (s : State) (b k : Nat), b < 16 → k < 64 → (bankOf s b).tsCmd = some (true, k) → ∀ err pin, loadCheck s b = (err, pin) → err < 16 → pin < 16 →
    ∃ t, exec (.tsDone b) s = .next t ∧ (bankOf t b).tsCmd = none ∧ rd t (.bnk b) F.BNK_TS_STAT_BUSY = 0 ∧ rd t (.bnk b) F.BNK_TS_STAT_ERR = err ∧
      rd t (.bnk b) F.BNK_TS_STAT_PIN = pin ∧ rd t (.bnk b) F.BNK_TS_STAT_SET = k ∧ (rd t (.bnk b) F.INT_RAW).testBit 8 = true ∧
      (∀ j, j ≠ k → timingSet t b j = timingSet s b j) ∧ timingSet t b k = (if err = 0 then winSet s b else timingSet s b k) ∧
      (err ≠ 0 → (rd t (.bnk b) F.FLT_CAUSE).testBit 1 = true) ∧
      (err = 0 → minPeriod (rdb s (.bnk b) F.BNK_STAT_MODE_ACT) ≤ (winSet s b).period ∧ (winSet s b).period ≤ maxPeriod)) ∧
  (∀ (s : State) (b k : Nat), b < 16 → k < 64 → (bankOf s b).tsCmd = some (false, k) → ∃ t, exec (.tsDone b) s = .next t ∧ (bankOf t b).tsCmd = none ∧
      rd t (.bnk b) F.BNK_TS_STAT_BUSY = 0 ∧ rd t (.bnk b) F.BNK_TS_STAT_ERR = 0 ∧ (rd t (.bnk b) F.INT_RAW).testBit 8 = true ∧ (∀ j, timingSet t b j = timingSet s b j) ∧
      ((timingSet s b k).period < 2 ^ 56 → (winSet t b).period = (timingSet s b k).period) ∧
      ∀ j r, j < 16 → r = (timingSet s b k).pins.getD j pinRecReset → r.fmt < 8 → r.d1 < 2 ^ 40 → winWord t b (16 + 16 * j) = r.fmt + 16 * b2n r.strbEdge ∧
        (winPin t b j).d1 = r.d1 ∧ winWord t b (16 + 16 * j + 1) = 0)

/-- R228, R229, R237, R246–R252, R258: the reset set, mode changes, follow mode, the taps of a driver and the pair of a spare slice. Conventions of the model in it: logs 12,
98. -/
def Obligations.BankControl : Prop :=
  (setReset.period = 100 * 2 ^ 32 ∧ (∀ j < 16, setReset.pins.getD j ⟨0, false, 1, 1, 1, 1, 1, 1⟩ = { fmt := 5, strbEdge := true, d1 := 0, d2 := 0, enOn := 0, enOff := 0, so := 0, sc := 0 }) ∧
    (∀ b k, timingSet State.reset b k = setReset) ∧
    ∀ (s : State) (b : Nat), winSet s b = setReset → winSetReserved s b = false → (∀ j < 16, winPinBad s b j = false) → loadCheck s b = (0, 0)) ∧
  (∀ (s : State) (m b mode : Nat), b < 16 → mode < 2 → MayWrite s m (.bnk b) F.BNK_CTRL_MODE.off false → rd s (.bnk b) F.BNK_CTRL_MODE ≠ mode →
    (bankBusy s b = false → ∃ t, exec (.modeChange m b mode) s = .next t ∧ rd t (.bnk b) F.BNK_CTRL_MODE = mode ∧ rd t (.bnk b) F.BNK_STAT_MODE_ACT = mode ∧
      rd t (.bnk b) F.BNK_STAT_CHANGING = 1 ∧ bankSafe t b = true ∧ (∀ k, timingSet t b k = setReset) ∧
      ∀ j, j < 16 → (pinOf t (16 * b + j)).drv = false ∧ (pinOf t (16 * b + j)).den = false) ∧
    (bankBusy s b = true → ∃ t, exec (.modeChange m b mode) s = .next t ∧ rd t (.bnk b) F.BNK_CTRL_MODE = rd s (.bnk b) F.BNK_CTRL_MODE ∧
      bankOf t b = bankOf s b ∧ (rd t (.bnk b) F.FLT_CAUSE).testBit 7 = true)) ∧
  (∀ (s : State) (b : Nat), ∃ t, exec (.modeChangeEnd b) s = .next t ∧ rd t (.bnk b) F.BNK_STAT_CHANGING = 0 ∧ ∀ k, timingSet t b k = timingSet s b k) ∧
  (∀ (s : State) (m b word : Nat), b < 16 → MayWrite s m (.bnk b) F.BNK_FOLLOW_EN.off false →
    (bankBusy s b = false → bits word 11 8 ≠ 0 → bits word 15 12 ≠ 0 → bits word 18 16 ≤ 5 →
        (word.testBit 0 = true → rdb s (.bnk b) F.BNK_FOLLOW_EN = false → ∀ i ∈ sitesOfBank s b, (siteOf s i).mask >>> (4 * b) % 16 = 15) →
      ∃ t, exec (.followWrite m b word) s = .next t ∧ rd t (.bnk b) F.BNK_FOLLOW_EN = bits word 0 0 ∧ rd t (.bnk b) F.BNK_FOLLOW_PIN = bits word 4 1 ∧
        rd t (.bnk b) F.BNK_FOLLOW_MUL = bits word 11 8 ∧ rd t (.bnk b) F.BNK_FOLLOW_DIV = bits word 15 12 ∧ rd t (.bnk b) F.BNK_FOLLOW_BW = bits word 18 16 ∧
        rd t (.bnk b) F.BNK_FOLLOW_SCALE = bits word 20 20 ∧ rd t (.bnk b) F.BNK_FOLLOW_FALL = bits word 5 5) ∧
    (bankBusy s b = true ∨ bits word 11 8 = 0 ∨ bits word 15 12 = 0 ∨ 5 < bits word 18 16 ∨
        (word.testBit 0 = true ∧ rdb s (.bnk b) F.BNK_FOLLOW_EN = false ∧ ∃ i ∈ sitesOfBank s b, (siteOf s i).mask >>> (4 * b) % 16 ≠ 15) →
      ∃ t, exec (.followWrite m b word) s = .next t ∧ rd t (.bnk b) F.BNK_FOLLOW_EN = rd s (.bnk b) F.BNK_FOLLOW_EN ∧
        rd t (.bnk b) F.BNK_FOLLOW_MUL = rd s (.bnk b) F.BNK_FOLLOW_MUL ∧ (rd t (.bnk b) F.FLT_CAUSE).testBit 7 = true)) ∧
  (∀ (s : State) (b u err lo : Nat) (rest : List Nat), rdb s (.bnk b) F.BNK_FOLLOW_EN = true → (bankOf s b).follow.edges = u :: rest → err = errorPs s b u →
      lo = minPeriod (rdb s (.bnk b) F.BNK_STAT_MODE_ACT) →
    ∃ t, exec (.followedEdge b) s = .next t ∧ rd t (.bnk b) F.BNK_FOLLOW_STAT_HOLD = 0 ∧ lo ≤ rd t (.bnk b) F.BNK_FOLLOW_PER ∧ rd t (.bnk b) F.BNK_FOLLOW_PER ≤ maxPeriod ∧
      (bankOf t b).follow.edges = rest ∧ (bankOf t b).follow.last = some u ∧
      (rdb s (.bnk b) F.BNK_FOLLOW_STAT_HOLD = false → (bankOf s b).follow.slew = false →
        rd t (.bnk b) F.BNK_FOLLOW_PER = max lo (min (followTarget s b u) maxPeriod) ∧
        (rdb t (.bnk b) F.BNK_FOLLOW_STAT_RANGE = true ↔ followTarget s b u < lo ∨ maxPeriod < followTarget s b u) ∧
        (∀ v, (bankOf s b).follow.last = some v → (phaseError s b u).1 = 0 → rd t (.bnk b) F.BNK_FOLLOW_PER = max lo (min ((u - v) * rd s (.bnk b) F.BNK_FOLLOW_MUL /
          max 1 (2 ^ rd s (.bnk b) (F.EDG_PIN_CFG_PRE (rd s (.bnk b) F.BNK_FOLLOW_PIN)) * rd s (.bnk b) F.BNK_FOLLOW_DIV)) maxPeriod))) ∧
      (rdb s (.bnk b) F.BNK_FOLLOW_STAT_HOLD = true → (rd t (.bnk b) F.INT_RAW).testBit 11 = true ∧
        rd t (.bnk b) F.BNK_FOLLOW_PER ≤ max lo (followPeriod s b + followPeriod s b / 1000)) ∧
      (100 < err → rdb t (.bnk b) F.BNK_FOLLOW_STAT_LOCK = false) ∧
      (err ≤ 20 → 1023 ≤ (bankOf s b).follow.inBand → rdb t (.bnk b) F.BNK_FOLLOW_STAT_LOCK = true) ∧
      (20 < err → err ≤ 100 → rd t (.bnk b) F.BNK_FOLLOW_STAT_LOCK = rd s (.bnk b) F.BNK_FOLLOW_STAT_LOCK)) ∧
  (∀ (s : State) (b : Nat), rdb s (.bnk b) F.BNK_FOLLOW_EN = true → rdb s (.bnk b) F.BNK_FOLLOW_STAT_HOLD = false → (bankOf s b).follow.edges = [] →
    ∃ t, exec (.followHold b) s = .next t ∧
    rd t (.bnk b) F.BNK_FOLLOW_STAT_HOLD = 1 ∧ rd t (.bnk b) F.BNK_FOLLOW_PER = followPeriod s b % 2 ^ F.BNK_FOLLOW_PER.width ∧
    rd t (.bnk b) F.FOLLOW_HOLDS = min (2 ^ 32 - 1) (rd s (.bnk b) F.FOLLOW_HOLDS + 1) ∧
    ((rd s (.bnk b) F.FLT_LIVE).testBit 4 = false → (rd t (.bnk b) F.INT_RAW).testBit 4 = true ∧ (rd t (.bnk b) F.FLT_CAUSE).testBit 4 = true)) ∧
  (∀ (s : State) (m b j word pre main post : Nat), b < 16 → j < 16 → MayWrite s m (.bnk b) (F.BNK_PIN_TXEQ_C_PRE j).off false → pre = bits word 2 0 → main = bits word 13 8 →
      post = bits word 20 16 → ∃ t, exec (.pinTxeqWrite m b j word) s = .next t ∧ t.pin = s.pin ∧
    if 24 ≤ main ∧ post ≤ 23 ∧ pre + main + post ≤ 63 then
      rd t (.bnk b) (F.BNK_PIN_TXEQ_C_PRE j) = pre ∧ rd t (.bnk b) (F.BNK_PIN_TXEQ_C_MAIN j) = main ∧ rd t (.bnk b) (F.BNK_PIN_TXEQ_C_POST j) = post
    else rd t (.bnk b) (F.BNK_PIN_TXEQ_C_PRE j) = rd s (.bnk b) (F.BNK_PIN_TXEQ_C_PRE j) ∧ rd t (.bnk b) (F.BNK_PIN_TXEQ_C_MAIN j) = rd s (.bnk b) (F.BNK_PIN_TXEQ_C_MAIN j) ∧
      rd t (.bnk b) (F.BNK_PIN_TXEQ_C_POST j) = rd s (.bnk b) (F.BNK_PIN_TXEQ_C_POST j) ∧ (rd t (.bnk b) F.FLT_CAUSE).testBit 7 = true) ∧
  (∀ (s : State) (m b comp v : Nat), b < 16 → MayWrite s m (.bnk b) F.BNK_SPARE_PIN.off true → Completes s m (.bnk b) F.BNK_SPARE_PIN.off v →
    ∃ t, exec (.bnkSpareWrite m b comp) s = .next t ∧ openPair t m (.bnk b) F.BNK_SPARE_PIN.off = none ∧ (bankOf t b).spare = (bankOf s b).spare ∧
      if comp = 2 ^ 32 - 1 - v then rd t (.bnk b) F.BNK_SPARE_PIN = bits v 3 0 ∧ rd t (.bnk b) F.BNK_SPARE_VALID = bits v 4 4
      else rd t (.bnk b) F.BNK_SPARE_PIN = rd s (.bnk b) F.BNK_SPARE_PIN ∧ rd t (.bnk b) F.BNK_SPARE_VALID = rd s (.bnk b) F.BNK_SPARE_VALID ∧
        rd t (.bnk b) F.CPL_ERR = min (2 ^ 32 - 1) (rd s (.bnk b) F.CPL_ERR + 1))

/-- R254–R257: the queues of a PE control port.
Conventions of the model in it: log 59. -/
def Obligations.PeControlPorts : Prop :=
  (∀ (s : State) (m b word : Nat), b < 16 → MayWrite s m (.bnk b) F.BNK_PEC_TX_CTL_LEN.off false → pecBank s (b / 2) = b →
    ((pecOf s (b / 2)).tx.length < 32 → 8 ≤ bits word 6 0 → bits word 6 0 ≤ 64 → rdb s (.bnk b) F.BNK_PEC_CFG_EN = true →
        (word.testBit 8 = true → (siteOf s (bits word 21 16)).owner = some (bankOwner s b) ∧ (siteOf s (bits word 21 16)).mask >>> (8 * (b / 2)) % 256 ≠ 0) →
      ∃ t, exec (.pecTxPush m b word) s = .next t ∧ (∃ x, (pecOf t (b / 2)).tx = (pecOf s (b / 2)).tx ++ [x] ∧ x.len = bits word 6 0 ∧ x.rx = word.testBit 24 ∧
        x.data = (rd s (.bnk b) F.BNK_PEC_TX_LO + rd s (.bnk b) F.BNK_PEC_TX_HI * 2 ^ 32) % 2 ^ bits word 6 0 ∧
        x.wait = if word.testBit 8 then some (bits word 21 16, rd s (.bnk b) F.BNK_PEC_TX_VN) else none) ∧
        rd t (.bnk b) F.BNK_PEC_STAT_TX_LEVEL = (pecOf s (b / 2)).tx.length + 1) ∧
    (32 ≤ (pecOf s (b / 2)).tx.length ∨ bits word 6 0 < 8 ∨ 64 < bits word 6 0 ∨ rdb s (.bnk b) F.BNK_PEC_CFG_EN = false ∨
        (word.testBit 8 = true ∧ ((siteOf s (bits word 21 16)).owner ≠ some (bankOwner s b) ∨ (siteOf s (bits word 21 16)).mask >>> (8 * (b / 2)) % 256 = 0)) →
      ∃ t, exec (.pecTxPush m b word) s = .next t ∧ pecOf t (b / 2) = pecOf s (b / 2) ∧ (rd t (.bnk b) F.FLT_CAUSE).testBit 6 = true)) ∧
  (∀ (s : State) (n : Nat) (x : PecXfer) (rest : List PecXfer) (o : Out), n < 8 → (pecOf s n).busy = none → (pecOf s n).tx = x :: rest →
      (rd s .pwrDev F.PWR_DOM_ON).testBit (pecBank s n) = true →
      o = .pec n x.len x.data (rd s (.bnk (pecBank s n)) F.BNK_PEC_CFG_CPOL) (rd s (.bnk (pecBank s n)) F.BNK_PEC_CFG_CPHA) (rd s (.bnk (pecBank s n)) F.BNK_PEC_CFG_DIV)
        (max 1 (rd s (.bnk (pecBank s n)) F.BNK_PEC_CFG_GAP)) →
    (x.wait = none → ∃ t, exec (.pecTransferStart n) s = .next t ∧ pecOf t n = { pecOf s n with tx := rest, busy := some x } ∧ t.out = s.out ++ [o]) ∧
    (∀ i vn, x.wait = some (i, vn) → siteState s i = 3 → vn < (siteOf s i).nextVn → ∃ t, exec (.pecTransferStart n) s = .next t ∧
      (pecOf t n).tx = rest ∧ (pecOf t n).busy = some x ∧ o ∈ t.out ∧
      (presents s i vn = false → (rd t (.bnk (pecBank s n)) F.INT_RAW).testBit 10 = true ∧
        rd t (.bnk (pecBank s n)) F.PEC_LATE = min (2 ^ 32 - 1) (rd s (.bnk (pecBank s n)) F.PEC_LATE + 1))) ∧
    (∀ i vn, x.wait = some (i, vn) → siteState s i = 3 → (siteOf s i).nextVn ≤ vn → ∃ t, exec (.pecTransferStart n) s = .next t ∧ t = s) ∧
    (∀ i vn, x.wait = some (i, vn) → siteBusy s i = false → ∃ t, exec (.pecTransferStart n) s = .next t ∧
      (pecOf t n).tx = (pecOf s n).tx.filter (fun y => (y.wait.map (·.1)) != some i))) ∧
  (∀ (s : State) (n miso : Nat) (x : PecXfer), n < 8 → (pecOf s n).busy = some x → ∃ t, exec (.pecTransferEnd n miso) s = .next t ∧ (pecOf t n).busy = none ∧
    (pecOf t n).tx = (pecOf s n).tx ∧
    (x.rx = true → (pecOf s n).rx.length < 16 → (pecOf t n).rx = (pecOf s n).rx ++ [miso % 2 ^ x.len]) ∧
    (x.rx = true → 16 ≤ (pecOf s n).rx.length → (pecOf t n).rx = (pecOf s n).rx ∧ (rd t (.bnk (pecBank s n)) F.FLT_CAUSE).testBit 6 = true) ∧
    (x.rx = false → (pecOf t n).rx = (pecOf s n).rx)) ∧
  (∀ (s : State) (m b : Nat), b < 16 → mayRead s m (.bnk b) F.BNK_PEC_RX_HI.off false = true → pecBank s (b / 2) = b →
    (∀ w rest, (pecOf s (b / 2)).rx = w :: rest → ∃ t, exec (.pecRxPop m b) s = .next t ∧ (pecOf t (b / 2)).rx = rest ∧ t.out = s.out ++ [.read m (w / 2 ^ 32)]) ∧
    ((pecOf s (b / 2)).rx = [] → ∃ t, exec (.pecRxPop m b) s = .next t ∧ t = emit s (.read m 0))) ∧
  (∀ (s : State) (m b word : Nat), b < 16 → Granted s m (.bnk b) F.BNK_PEC_CFG_EN.off true → ownsPage s m (.bnk b) = true → pecBank s (b / 2) = b →
    (bits word 10 4 = 0 → ∃ t, exec (.pecCfgWrite m b word) s = .next t ∧ pecOf t (b / 2) = pecOf s (b / 2) ∧
      rd t (.bnk b) F.BNK_PEC_CFG_DIV = rd s (.bnk b) F.BNK_PEC_CFG_DIV ∧ (rd t (.bnk b) F.FLT_CAUSE).testBit 6 = true) ∧
    (bits word 10 4 ≠ 0 → isPriv s m = false ∨ b % 2 = 1 ∨ bits word 16 16 = 0 → ∃ t, exec (.pecCfgWrite m b word) s = .next t ∧ rd t (.bnk b) F.BNK_PEC_CFG_EN = bits word 0 0 ∧
      rd t (.bnk b) F.BNK_PEC_CFG_DIV = bits word 10 4 ∧ rd t (.bnk b) F.BNK_PEC_CFG_GAP = bits word 15 12 ∧ (pecOf t (b / 2)).rx = (pecOf s (b / 2)).rx ∧
      (pecOf t (b / 2)).busy = (pecOf s (b / 2)).busy ∧ (pecOf t (b / 2)).tx = if word.testBit 0 then (pecOf s (b / 2)).tx else []))

/-- R261–R268, R273, R276, R519, Table 9-2: where a judgement goes, and in what order its entries are queued. Conventions of the model in it: logs 57, 99, 109. -/
def Obligations.Judgements : Prop :=
  (∀ (s : State) (p level n : Nat) (dev : Option Nat) (st : Strobe) (rest : List Strobe), StrobeAt s p st rest n → st.cls = .ordinary → judged st.code = true →
    (levelPasses st.code (reportedLevel s p st level dev) = false → st.vn < 2 ^ 64 → ∃ t, exec (.strobeJudge p level dev) s = .next t ∧ (pinOf t p).strobes = rest ∧
      rd t (pinPage p) (F.CMP_PIN_FCNT (p % 64)) = min (2 ^ 32 - 1) (rd s (pinPage p) (F.CMP_PIN_FCNT (p % 64)) + 1) ∧
      rdb t (pinPage p) (F.CMP_PIN_STAT_FF_VALID (p % 64)) = true ∧
      rd t (pinPage p) (F.CMP_PIN_FFVN (p % 64)) = (if rdb s (pinPage p) (F.CMP_PIN_STAT_FF_VALID (p % 64)) then rd s (pinPage p) (F.CMP_PIN_FFVN (p % 64)) else st.vn) ∧
      rd t (.cmpPart n) (F.CMP_SITE_FLAGS_FLAG0 st.site) = 1 ∧
      rd t (.cmpPart n) (F.CMP_SR_FCNT st.site) = min (2 ^ 32 - 1) (rd s (.cmpPart n) (F.CMP_SR_FCNT st.site) +
        if (tabGet (0, false) s.pin.vecs (vecKey st.site st.vn)).2 then 0 else 1) ∧
      ((siteOf s st.site).args.stopFF = true → (siteOf t st.site).failDue = true)) ∧
    (levelPasses st.code (reportedLevel s p st level dev) = true → ∃ t, exec (.strobeJudge p level dev) s = .next t ∧ (pinOf t p).strobes = rest ∧
      rd t (pinPage p) (F.CMP_PIN_FCNT (p % 64)) = rd s (pinPage p) (F.CMP_PIN_FCNT (p % 64)) ∧
      rd t (pinPage p) (F.CMP_PIN_FFVN (p % 64)) = rd s (pinPage p) (F.CMP_PIN_FFVN (p % 64)) ∧
      rd t (.cmpPart n) (F.CMP_SITE_FLAGS_FLAG0 st.site) = rd s (.cmpPart n) (F.CMP_SITE_FLAGS_FLAG0 st.site) ∧
      rd t (.cmpPart n) (F.CMP_SR_FCNT st.site) = rd s (.cmpPart n) (F.CMP_SR_FCNT st.site) ∧ (siteOf t st.site).failDue = (siteOf s st.site).failDue)) ∧
  (∀ (s : State) (p level n : Nat) (dev : Option Nat) (st : Strobe) (rest : List Strobe), StrobeAt s p st rest n → st.cls ≠ .ordinary ∨ judged st.code = false →
    ∃ t, exec (.strobeJudge p level dev) s = .next t ∧ (pinOf t p).strobes = rest ∧
      rd t (pinPage p) (F.CMP_PIN_FCNT (p % 64)) = rd s (pinPage p) (F.CMP_PIN_FCNT (p % 64)) ∧
      rd t (.cmpPart n) (F.CMP_SITE_FLAGS_FLAG0 st.site) = rd s (.cmpPart n) (F.CMP_SITE_FLAGS_FLAG0 st.site) ∧
      rd t (.cmpPart n) (F.CMP_SR_FCNT st.site) = rd s (.cmpPart n) (F.CMP_SR_FCNT st.site) ∧ t.pin.ledgers = s.pin.ledgers ∧
      ∀ u, (siteOf s st.site).pass = some u → st.cls = .pass → u.number = st.pass →
        (siteOf t st.site).pass = some (if judged st.code && !levelPasses st.code (reportedLevel s p st level dev) then { u with failed := true } else u)) ∧
  (∀ (s : State) (i r n : Nat) (a : FailAcc), (siteOf s i).owner = some n → a.mask ≠ 0 → rdb s (.cmpPart n) F.CMP_LED_CTRL_EN = true →
      (routeOf s r).summaryMode = false → (ledgerOf s n).queue.length < 445 → (∀ f ∈ (ledgerOf s n).queue, f.cycle < a.cycle ∨ (f.cycle = a.cycle ∧ f.site < i)) →
    (ledgerOf (routeJudged i r a s) n).queue = (ledgerOf s n).queue ++ ((List.range 4).filter fun q => decide (bits a.mask (4 * q + 3) (4 * q) ≠ 0)).map fun q =>
      ⟨a.cycle, a.vn, a.mask, r / 4, q, 0, i, bits a.exp (8 * q + 7) (8 * q) + bits a.rcv (8 * q + 7) (8 * q) * 2 ^ 8 + a.ps * 2 ^ 16 + a.ts * 2 ^ 19⟩) ∧
  (∀ (s : State) (n : Nat) (e f : LedEntry) (q l : List LedEntry), (ledgerOf s n).queue = q ++ f :: l → e.cycle = f.cycle → e.site < f.site →
      (∀ g ∈ l, e.cycle < g.cycle ∨ (e.cycle = g.cycle ∧ e.site < g.site)) → (∀ g ∈ q, g.cycle < e.cycle) → (ledgerOf (ledgerPush n e s) n).queue = q ++ e :: f :: l) ∧
  (∀ (s : State) (i : Nat), (siteOf s i).failDue = true → siteState s i = 3 → ∃ t, exec (.siteFailDelivery i) s = .next t ∧ (siteOf t i).failDue = false ∧
    6 ∈ (siteOf t i).stops ∧ siteState t i = 3)

/-- R270, R274–R280: the ledger of a partition. Conventions of the model in it: logs 55, 99. -/
def Obligations.Ledger : Prop :=
  (∀ (s : State) (n cycles : Nat) (e : LedEntry) (q : List LedEntry), n < 4 → 0 < cycles → (ledgerOf s n).loss = none → (ledgerOf s n).queue = e :: q → 1500 ≤ refill s n cycles →
      128 < q.length ∨ (∀ i ∈ sitesOfPart s n, ∀ r ∈ routesOf (siteOf s i).mask, (routeOf s r).summaryMode = false) →
    (ledgerFull s n = false → ∃ t, exec (.ledgerDrain n cycles) s = .next t ∧ (ledgerOf t n).queue = q ∧ (ledgerOf t n).icnt = (ledgerOf s n).icnt + 1 ∧
      (ledgerOf t n).unacked = (ledgerOf s n).unacked + 1 ∧ (ledgerOf t n).credit = refill s n cycles - 1500 ∧
      (ledgerWord e < 2 ^ 128 → readMem t n (ledgerBase s n + 16 * ((ledgerOf s n).icnt % ledgerSize s n)) 16 = ledgerWord e)) ∧
    (ledgerFull s n = true → (ledgerOf s n).drainCfg.isSome = true → ∃ t, exec (.ledgerDrain n cycles) s = .next t ∧ (ledgerOf t n).queue = e :: q ∧
      (ledgerOf t n).loss = none ∧ t.mem = s.mem) ∧
    (ledgerFull s n = true → (ledgerOf s n).drainCfg = none → ∃ t, exec (.ledgerDrain n cycles) s = .next t ∧ (ledgerOf t n).queue = q ∧ (ledgerOf t n).icnt = (ledgerOf s n).icnt ∧
      (ledgerOf t n).loss = some { e with quad := 0, kind := 2, data := 1 } ∧ (rd t (.cmpPart n) F.INT_RAW).testBit 10 = true ∧ t.mem = s.mem ∧
      rd t (.cmpPart n) F.LED_LOST = min (2 ^ 32 - 1) (rd s (.cmpPart n) F.LED_LOST + 1))) ∧
  (∀ (s : State) (n cycles : Nat) (m : LedEntry), n < 4 → 0 < cycles → (ledgerOf s n).loss = some m → ledgerFull s n = false → ∃ t, exec (.ledgerDrain n cycles) s = .next t ∧
    (ledgerOf t n).loss = none ∧ (ledgerOf t n).queue = (ledgerOf s n).queue ∧ (ledgerOf t n).icnt = (ledgerOf s n).icnt + 1) ∧
  (∀ (s : State) (n : Nat), n < 4 → (ledgerOf s n).unacked ≠ 0 → memServes s 2 = true → ∃ t, exec (.ledgerWriteAck n) s = .next t ∧
    rd t (.cmpPart n) F.CMP_LED_WCNT = (rd s (.cmpPart n) F.CMP_LED_WCNT + 1) % 2 ^ 64 ∧ (ledgerOf t n).unacked = (ledgerOf s n).unacked - 1 ∧
    (rd s (.cmpPart n) F.CMP_LED_WCNT + 1 < 2 ^ 64 → rd s (.cmpPart n) F.CMP_LED_WM ≠ 0 →
      rd s (.cmpPart n) F.CMP_LED_WCNT + 1 = rd s (.cmpPart n) F.CMP_LED_RCNT + rd s (.cmpPart n) F.CMP_LED_WM → (rd t (.cmpPart n) F.INT_RAW).testBit 8 = true)) ∧
  (∀ (s : State) (m n word : Nat), n < 4 → MayWrite s m (.cmpPart n) F.CMP_LED_CTRL_EN.off false →
      (∀ i ∈ sitesOfPart s n, ∀ r ∈ routesOf (siteOf s i).mask, (routeOf s r).summary = none) →
    (partBusy s n = false → word.testBit 0 = true → 8 ≤ bits word 12 8 → bits word 12 8 ≤ 26 → inQuota s n (ledgerBase s n) (16 * 2 ^ bits word 12 8) = true →
        ledgerDraining s n = false → rdb s (.cmpPart n) F.CMP_LED_CTRL_EN = false → ∃ t, exec (.ledgerCtrlWrite m n word) s = .next t ∧
      rd t (.cmpPart n) F.CMP_LED_CTRL_EN = 1 ∧ rd t (.cmpPart n) F.CMP_LED_CTRL_MODE = bits word 1 1 ∧ rd t (.cmpPart n) F.CMP_LED_CTRL_SIZE = bits word 12 8 ∧
      rd t (.cmpPart n) F.CMP_LED_WCNT = 0 ∧ rd t (.cmpPart n) F.CMP_LED_RCNT = 0 ∧ (ledgerOf t n).queue = [] ∧ (ledgerOf t n).icnt = 0 ∧
      (ledgerOf t n).credit = rd s (.cmpPart n) F.CMP_LED_RATE * 1500) ∧
    (partBusy s n = false → word.testBit 0 = false → ∃ t, exec (.ledgerCtrlWrite m n word) s = .next t ∧ rd t (.cmpPart n) F.CMP_LED_CTRL_EN = 0 ∧
      (ledgerOf t n).queue = (ledgerOf s n).queue ∧ rd t (.cmpPart n) F.CMP_LED_WCNT = rd s (.cmpPart n) F.CMP_LED_WCNT) ∧
    (partBusy s n = true ∨ (word.testBit 0 = true ∧ (bits word 12 8 < 8 ∨ 26 < bits word 12 8 ∨ inQuota s n (ledgerBase s n) (16 * 2 ^ bits word 12 8) = false ∨
        ledgerDraining s n = true)) →
      ∃ t, exec (.ledgerCtrlWrite m n word) s = .next t ∧ t.pin = s.pin ∧ rd t (.cmpPart n) F.CMP_LED_CTRL_EN = rd s (.cmpPart n) F.CMP_LED_CTRL_EN ∧
        rd t (.cmpPart n) F.CMP_LED_CTRL_SIZE = rd s (.cmpPart n) F.CMP_LED_CTRL_SIZE ∧ (rd t (.cmpPart n) F.FLT_CAUSE).testBit 1 = true)) ∧
  (∀ (s : State) (m n v : Nat), n < 4 → MayWrite s m (.cmpPart n) F.CMP_LED_RCNT.off false → ∃ t, exec (.ledgerRcntWrite m n v) s = .next t ∧
    if rd s (.cmpPart n) F.CMP_LED_RCNT ≤ v ∧ v ≤ rd s (.cmpPart n) F.CMP_LED_WCNT then rd t (.cmpPart n) F.CMP_LED_RCNT = v
    else rd t (.cmpPart n) F.CMP_LED_RCNT = rd s (.cmpPart n) F.CMP_LED_RCNT ∧ (rd t (.cmpPart n) F.FLT_CAUSE).testBit 1 = true) ∧
  (∀ (s : State) (m n word : Nat), n < 4 → MayWrite s m (.cmpPart n) F.CMP_LED_RATE.off false → ∃ t, exec (.ledRateWrite m n word) s = .next t ∧
    if 1 ≤ word % 2 ^ 13 ∧ word % 2 ^ 13 ≤ 4096 then
      rd t (.cmpPart n) F.CMP_LED_RATE = word % 2 ^ 13 ∧ (ledgerOf t n).credit = min (ledgerOf s n).credit (word % 2 ^ 13 * 1500)
    else rd t (.cmpPart n) F.CMP_LED_RATE = rd s (.cmpPart n) F.CMP_LED_RATE ∧ t.pin = s.pin ∧ (rd t (.cmpPart n) F.FLT_CAUSE).testBit 1 = true) ∧
  (∀ (s : State) (m p v : Nat), p < 256 → Granted s m (pinPage p) (F.CMP_PIN_FCNT (p % 64)).off (ownsEntry s m (p / 16)) → v < 2 ^ 32 →
    ∃ t, exec (.pinFcntWrite m p v) s = .next t ∧ rd t (pinPage p) (F.CMP_PIN_FCNT (p % 64)) = v)

/-- R285–R298: arming, triggers and records of a bank's acquisition channel; of the triggers of one cycle the record keeps all that it knows of. Conventions of the model in it:
logs 56, 57, 100, 109. -/
def Obligations.Acquisition : Prop :=
  (∀ (s : State) (m b word : Nat), b < 16 → MayWrite s m (.bnk b) 0x5000 false →
    (armCode s b (acqSample s b word) = 0 → ∃ t, exec (.acqArm m b word) s = .next t ∧ rd t (.bnk b) F.ACQ_C_ERR = 0 ∧ (acqOf t b).cfg = acqSample s b word ∧
      (acqOf t b).words = [] ∧ (acqOf t b).record = none ∧ rd t (.bnk b) F.ACQ_C_CTRL_SITE = bits word 13 8 ∧ rd t (.bnk b) F.ACQ_C_CTRL_CONT = bits word 3 3 ∧
      (acqState s b = 0 → rd t (.bnk b) F.ACQ_C_WCNT = 0 ∧ rd t (.bnk b) F.ACQ_C_RCNT = 0 ∧ acqState t b = 1) ∧ (acqState t b = 1 ∨ acqState t b = 6)) ∧
    (∀ code, armCode s b (acqSample s b word) = code → code ≠ 0 → ∃ t, exec (.acqArm m b word) s = .next t ∧ rd t (.bnk b) F.ACQ_C_ERR = code ∧
      bankOf t b = bankOf s b ∧ acqState t b = acqState s b ∧ rd t (.bnk b) F.ACQ_C_CTRL_SITE = rd s (.bnk b) F.ACQ_C_CTRL_SITE ∧
      (rd t (.bnk b) F.FLT_CAUSE).testBit 28 = true) ∧
    (∃ t, exec (.acqDisarm m b word) s = .next t ∧ acqState t b = 0 ∧ (acqOf t b).record = none ∧ rd t (.bnk b) F.ACQ_C_WCNT = rd s (.bnk b) F.ACQ_C_WCNT) ∧
    (acqState s b = 1 → (acqOf s b).cfg.srcEn.testBit 0 = true → (acqOf s b).cfg.srcEn.testBit 9 = false → currentVn s (acqOf s b).cfg.site < 2 ^ 64 →
      ∃ t, exec (.acqForce m b word) s = .next t ∧ (acqState t b = 2 ∨ acqState t b = 3) ∧ rd t (.bnk b) F.ACQ_C_LASTTVN = currentVn s (acqOf s b).cfg.site ∧
        (rd t (.bnk b) F.INT_RAW).testBit 31 = true ∧ ∃ r, (acqOf t b).record = some r ∧ r.src = 0 ∧ r.tvn = currentVn s (acqOf s b).cfg.site ∧
          r.preAct ≤ (acqOf s b).cfg.pre) ∧
    (acqState s b ≠ 0 → acqState s b ≠ 1 → (acqOf s b).cfg.srcEn.testBit 0 = true → (acqOf s b).cfg.srcEn.testBit 9 = false → joins s b none = none → ∃ t, exec (.acqForce m b word) s = .next t ∧ acqState t b = acqState s b ∧
      (acqOf t b).record = (acqOf s b).record ∧ rd t (.bnk b) F.TRIG_MISSED = min (2 ^ 32 - 1) (rd s (.bnk b) F.TRIG_MISSED + 1)) ∧
    (∀ v, v < 2 ^ 64 → MayWrite s m (.bnk b) F.ACQ_C_RCNT.off false → ∃ t, exec (.acqRcntWrite m b v) s = .next t ∧
      if rd s (.bnk b) F.ACQ_C_RCNT ≤ v ∧ v ≤ rd s (.bnk b) F.ACQ_C_WCNT then rd t (.bnk b) F.ACQ_C_RCNT = v ∧ (acqState s b = 6 → v ≠ rd s (.bnk b) F.ACQ_C_RCNT →
          rd s (.bnk b) F.ACQ_C_WCNT - rd s (.bnk b) F.ACQ_C_RCNT ≤ 2 ^ (acqOf s b).cfg.nslot → acqState t b = 1)
      else rd t (.bnk b) F.ACQ_C_RCNT = rd s (.bnk b) F.ACQ_C_RCNT ∧ acqState t b = acqState s b ∧ (rd t (.bnk b) F.FLT_CAUSE).testBit 28 = true)) ∧
  (∀ (s : State) (b : Nat), b < 16 → acqState s b = 1 → (acqOf s b).cfg.auto = true → siteState s (acqOf s b).cfg.site = 3 →
      (acqOf s b).since + 100 * (acqOf s b).cfg.autoUs ≤ aonNow s → (acqOf s b).cfg.srcEn.testBit 9 = false → ∃ t, exec (.acqAutoTrigger b) s = .next t ∧
    (acqState t b = 2 ∨ acqState t b = 3) ∧ (rd t (.bnk b) F.INT_RAW).testBit 31 = true ∧ ∃ r, (acqOf t b).record = some r ∧ r.src = 15) ∧
  (∀ (s : State) (b n : Nat) (r : AcqRec), b < 16 → memServes s 2 = true → writeShare s (bankOwner s b) ≠ 0 → writerTurn s (bankOwner s b) = some b →
      (acqOf s b).record = some r →
    ((∀ w ∈ (acqOf s b).words.take n, wordSettled s b w.1 = true) → ∃ t, exec (.acqWriterDrain b n) s = .next t ∧ (acqOf t b).words = (acqOf s b).words.drop n ∧
      (∃ r', (acqOf t b).record = some r' ∧ r'.drained = r.drained + min n (acqOf s b).words.length ∧ r'.tvn = r.tvn ∧ r'.kept = r.kept) ∧
      tabGet 0 t.pin.writerPtr (bankOwner s b) = (b + 1) % 16 ∧
      (∀ w rest, n = 1 → (acqOf s b).words = w :: rest → (acqOf s b).cfg.wrapPost = false → w.2 < 2 ^ 32 →
        readMem t (bankOwner s b) (slotAddr (acqOf s b) + 0x440 + 4 * r.drained) 4 = w.2)) ∧
    (∀ w rest, (acqOf s b).words = w :: rest → wordSettled s b w.1 = false → ∃ t, exec (.acqWriterDrain b n) s = .next t ∧ (acqOf t b).words = (acqOf s b).words)) ∧
  (∀ (s : State) (b vn src : Nat) (r : AcqRec) (cycle : Option Nat), b < 16 → joins s b cycle = some r → (∀ k, (acqOf s k).cfg.srcEn.testBit 9 = false) →
      (acqOf s b).cfg.srcEn.testBit src = true → src < 9 → (r.tvn, r.src) ∈ r.present → (∀ u ∈ r.present, u.2 = 15) → vn < 2 ^ 64 →
    ∃ u, (acqOf (acqCycle cycle [(b, vn, src)] s) b).record = some u ∧ u.tvn = vn ∧ u.src = src ∧ (vn, src) ∈ u.present ∧ (r.tvn, r.src) ∈ u.present) ∧
  (∀ (s : State) (b n : Nat), writeShare s (bankOwner s b) = 0 → ∃ t, exec (.acqWriterDrain b n) s = .next t ∧ t = s) ∧
  (∀ (s : State) (b : Nat) (r : AcqRec), b < 16 → acqState s b = 3 → (acqOf s b).record = some r → (acqOf s b).words = [] → memServes s 2 = true →
    ∃ t, exec (.recordDone b) s = .next t ∧ rd t (.bnk b) F.ACQ_C_WCNT = (rd s (.bnk b) F.ACQ_C_WCNT + 1) % 2 ^ 64 ∧ (acqOf t b).record = none ∧
      (acqOf t b).recNo = (acqOf s b).recNo + 1 ∧ (rd t (.bnk b) F.INT_RAW).testBit 28 = true ∧
      rd t (.bnk b) F.ACQ_RECORDS = (rd s (.bnk b) F.ACQ_RECORDS + 1) % 2 ^ 32 ∧
      acqState t b = (if (acqOf s b).cfg.cont = true ∧ r.ended = false then 4 else 5) ∧
      readMem t (bankOwner s b) (slotAddr (acqOf s b)) 8 = r.tvn % 2 ^ 64) ∧
  (∀ (s : State) (b : Nat), acqState s b = 4 → ∃ t, exec (.acqRearmEnd b) s = .next t ∧ acqState t b = (if slotFree s b then 1 else 6) ∧ (acqOf t b).words = [])

/-- R112, R299–R302: mask tests, segment trigger outputs and TRIGIN edges. Conventions of the model in it: logs 29, 101, 109. -/
def Obligations.MasksAndTriggers : Prop :=
  (∀ (s : State) (m b j idx word mode edge mo mc : Nat), b < 16 → j < 16 → idx < 3 → word < 2 ^ 32 → MayWrite s m (.bnk b) ((F.BNK_MASK_MODE j).off + 4 * idx) false →
      mode = (if idx = 0 then bits word 1 0 else rd s (.bnk b) (F.BNK_MASK_MODE j)) → edge = (if idx = 0 then bits word 5 4 else rd s (.bnk b) (F.BNK_MASK_EDGE j)) →
      mo = (if idx = 1 then word else rd s (.bnk b) (F.BNK_MASK_MO j)) → mc = (if idx = 2 then word else rd s (.bnk b) (F.BNK_MASK_MC j)) →
    ∃ t, exec (.maskWrite m b j idx word) s = .next t ∧
      if mode = 3 ∨ (mode ≠ 0 ∧ edge = 0) ∨ mc ≤ mo then
        rd t (.bnk b) (F.BNK_MASK_MODE j) = rd s (.bnk b) (F.BNK_MASK_MODE j) ∧ rd t (.bnk b) (F.BNK_MASK_MO j) = rd s (.bnk b) (F.BNK_MASK_MO j) ∧
        rd t (.bnk b) (F.BNK_MASK_MC j) = rd s (.bnk b) (F.BNK_MASK_MC j) ∧ (rd t (.bnk b) F.FLT_CAUSE).testBit 28 = true
      else rd t (.bnk b) (F.BNK_MASK_MODE j) = mode ∧ rd t (.bnk b) (F.BNK_MASK_EDGE j) = edge ∧ rd t (.bnk b) (F.BNK_MASK_MO j) = mo ∧
        rd t (.bnk b) (F.BNK_MASK_MC j) = mc) ∧
  (∀ (s : State) (b j vn i : Nat), b < 16 → j < 16 → siteOfQuad s (4 * b + j / 4) = some i → rdb s (.bnk b) (F.EDG_PIN_CFG_EN j) = true → vn < 2 ^ 64 →
    ((convOf s (16 * b + j)).found.count vn < maskViolations s b j vn → ∃ t, exec (.maskViolation b j vn) s = .next t ∧
      rd t (.bnk b) (F.BNK_MASK_VIOL j) = min (2 ^ 32 - 1) (rd s (.bnk b) (F.BNK_MASK_VIOL j) + 1) ∧ (rd t (.bnk b) F.INT_RAW).testBit 30 = true ∧
      rdb t (.bnk b) F.ACQ_C_MFIRST_VALID = true ∧ (rdb s (.bnk b) F.ACQ_C_MFIRST_VALID = false → rd t (.bnk b) F.ACQ_C_MFIRST_VN = vn ∧ rd t (.bnk b) F.ACQ_C_MFIRST_PIN = j) ∧
      (siteState s i = 3 → jsrcOf (siteOf s i) 10 = 1 → (siteOf t i).req1.isSome = true ∧
        (jsrcOf (siteOf s i) 9 ≠ 1 → (siteOf t i).req1 = some ((siteOf s i).req1.getD ⟨10, false⟩))) ∧
      (siteState s i = 3 → (acqOf s b).cfg.maskStop = true → acqState s b ≠ 0 → (acqOf s b).cfg.site = i →
        5 ∈ (siteOf t i).stops ∧ rdb t (.bnk b) F.ACQ_C_MFIRST_STOPPED = true)) ∧
    (maskViolations s b j vn ≤ (convOf s (16 * b + j)).found.count vn → ∃ t, exec (.maskViolation b j vn) s = .next t ∧ t = s) ∧
    (∀ start len e rising, vnSpan s i vn = some (start, len) → (convOf s (16 * b + j)).edges = [(e, rising)] → (rd s (.bnk b) (F.BNK_MASK_EDGE j)).testBit (b2n (!rising)) = true →
      (rd s (.bnk b) (F.BNK_MASK_MODE j) = 1 → start + rd s (.bnk b) (F.BNK_MASK_MO j) * 65536 ≤ e →
        e < start + min (rd s (.bnk b) (F.BNK_MASK_MC j) * 65536) len → maskViolations s b j vn = 1) ∧
      (rd s (.bnk b) (F.BNK_MASK_MODE j) = 2 → rd s (.bnk b) (F.BNK_MASK_MO j) * 65536 < len → start + len ≤ e → maskViolations s b j vn = 1))) ∧
  (∀ (s : State) (m word : Nat), MayWrite s m .acqDev F.ACQ_TO_OWNER.off true → word < 256 → ∃ t, exec (.trigoutOwnerWrite m word) s = .next t ∧
    rd t .acqDev F.ACQ_TO_OWNER = word ∧ ∀ k, k < 4 → rd t (.acqTo k) F.ACQ_TO_CTRL_MODE =
      if (rd s .acqDev F.ACQ_TO_OWNER >>> (2 * k)) % 4 = (word >>> (2 * k)) % 4 then rd s (.acqTo k) F.ACQ_TO_CTRL_MODE else 0) ∧
  (∀ (s : State) (k : Nat), ∃ t, exec (.trigoutWidthEnd k) s = .next t ∧ t.regs = s.regs ∧ tabGet false t.pin.trigOut k = false ∧
    (tabGet false s.pin.trigOut k = true → t.out = s.out ++ [.trigOut k (trigLevel s k false) none]) ∧
    ∀ j, j ≠ k → tabGet false t.pin.trigOut j = tabGet false s.pin.trigOut j) ∧
  (∀ (s : State) (n i : Nat), n < 4 → i < 64 → siteState s i = 3 → ∃ t, exec (.triginEdge n) s = .next t ∧ siteState t i = 3 ∧
    (jsrcOf (siteOf s i) (1 + n) = 1 → (siteOf t i).req1 = some ((siteOf s i).req1.getD ⟨1 + n, false⟩)) ∧
    (jsrcOf (siteOf s i) (1 + n) = 2 → (siteOf t i).req2 = some ((siteOf s i).req2.getD ⟨1 + n, false⟩)) ∧
    (jsrcOf (siteOf s i) 9 = 0 → (jsrcOf (siteOf s i) (1 + n) ≠ 1 → (siteOf t i).req1 = (siteOf s i).req1) ∧
      (jsrcOf (siteOf s i) (1 + n) ≠ 2 → (siteOf t i).req2 = (siteOf s i).req2)))

/-- R246, R305–R315, Table 11-1: the path of an edge through a converter: less than 380 ps after the last accepted edge it is merged; 400 ps or more after it, with no hold-off
beyond, it is accepted, and delivered where the pin holds a credit, behind the markers of its era; between these times the command says which. An accepted edge of the follow
pin waits for the bank's loop. Edges are stamped at the middle of the interval of their fine code, `fineTime` (R350). While a class of calibration has the bank's converters, an
edge is one of a reference path. Conventions of the model in it: logs 20, 60, 101, 103. -/
def Obligations.Converters : Prop :=
  (∀ (s : State) (p x : Nat) (cml rising merge held : Bool), p < 256 → calRunAt s (p / 16) = none → convRuns s p = false ∨ edgeSelected s p cml rising = false →
    ∃ t, exec (.converterEdge p x cml rising merge held) s = .next t ∧ t = s) ∧
  (∀ (s : State) (p x : Nat) (r : CalRun) (cml rising merge held : Bool), calRunAt s (p / 16) = some r →
    ∃ t, exec (.converterEdge p x cml rising merge held) s = .next t ∧ t.pin = s.pin ∧ t.pat = s.pat ∧ t.mem = s.mem ∧ ∀ u, u ≠ r.cu → auOf t u = auOf s u) ∧
  (∀ (s : State) (p x : Nat) (cml rising merge held : Bool), p < 256 → convRuns s p = true → edgeSelected s p cml rising = true →
      (convOf s p).pre + 1 < 2 ^ rd s (.bnk (p / 16)) (F.EDG_PIN_CFG_PRE (p % 16)) →
    ∃ t, exec (.converterEdge p x cml rising merge held) s = .next t ∧ t.regs = s.regs ∧ convOf t p = { convOf s p with pre := (convOf s p).pre + 1 }) ∧
  (∀ (s : State) (p x l : Nat) (cml rising merge held : Bool), Selected s p cml rising → (convOf s p).lastAt = some l → rdb s (.bnk (p / 16)) (F.EDG_PIN_CFG_EN (p % 16)) = true →
    ((x - l) * 1000 < 380 * 2 ^ 32 ∨ (merge = true ∧ (x - l) * 1000 < 400 * 2 ^ 32) → pinSafe s p = false →
      ∃ t, exec (.converterEdge p x cml rising merge held) s = .next t ∧ (convOf t p).skip = true ∧ (convOf t p).lastAt = some l ∧
      rd t (.bnk (p / 16)) (F.EDG_MERGED (p % 16)) = min (2 ^ 32 - 1) (rd s (.bnk (p / 16)) (F.EDG_MERGED (p % 16)) + 1) ∧
      rd t (.bnk (p / 16)) (F.EDG_ACCEPTED (p % 16)) = rd s (.bnk (p / 16)) (F.EDG_ACCEPTED (p % 16))) ∧
    (400 * 2 ^ 32 ≤ (x - l) * 1000 → (x - l) * 1000 + 10 * 2 ^ 32 < (convOf s p).hold * 2 ^ 32 ∨
        (held = true ∧ 400 ≤ (convOf s p).hold ∧ (x - l) * 1000 < ((convOf s p).hold + 10) * 2 ^ 32) → pinSafe s p = false →
      ∃ t, exec (.converterEdge p x cml rising merge held) s = .next t ∧ (convOf t p).skip = true ∧ (convOf t p).lastAt = some l ∧
        rd t (.bnk (p / 16)) (F.EDG_HELD (p % 16)) = min (2 ^ 32 - 1) (rd s (.bnk (p / 16)) (F.EDG_HELD (p % 16)) + 1)) ∧
    (400 * 2 ^ 32 ≤ (x - l) * 1000 → (convOf s p).hold < 400 ∨ ((convOf s p).hold + 10) * 2 ^ 32 ≤ (x - l) * 1000 →
      ∃ t, exec (.converterEdge p x cml rising merge held) s = .next t ∧ (convOf t p).lastAt = some (x + jitterOf s p) ∧
        (convOf t p).hold = rd s (.bnk (p / 16)) (F.EDG_PIN_HOLDOFF (p % 16)) ∧
        (followPin s p = true → (bankOf t (p / 16)).follow.edges = (bankOf s (p / 16)).follow.edges ++ [fineTime s p (x + jitterOf s p)]) ∧
        (pinSafe s p = false → rd t (.bnk (p / 16)) (F.EDG_ACCEPTED (p % 16)) = (rd s (.bnk (p / 16)) (F.EDG_ACCEPTED (p % 16)) + 1) % 2 ^ 64))) ∧
  (∀ (s : State) (p i x y : Nat) (cml rising merge held : Bool), y = fineTime s p x → Selected s p cml rising → (convOf s p).lastAt = none → rdb s (.bnk (p / 16)) (F.EDG_PIN_CFG_EN (p % 16)) = true →
      siteOfQuad s (p / 4) = some i → siteState s i = 3 → jitterSlot s p = none → epochAt s i ≤ y → pageSafe s .edg = false → pinSafe s p = false →
      rdb s (.bnk (p / 16)) (F.EDG_PIN_CFG_RING (p % 16)) = true → rdb s (.bnk (p / 16)) F.EDG_SR_CTRL_EN = true →
    ((convOf s p).used < 64 → (sringOf s (p / 16)).queue.length < 1024 → tapOf s p = none → ∃ t, exec (.converterEdge p x cml rising merge held) s = .next t ∧
      (convOf t p).used = (convOf s p).used + 1 ∧ (convOf t p).skip = false ∧ (convOf t p).loss = false ∧
      rd t (.bnk (p / 16)) (F.EDG_STAMPS (p % 16)) = (rd s (.bnk (p / 16)) (F.EDG_STAMPS (p % 16)) + 1) % 2 ^ 48 ∧
      ∃ eras e, (sringOf t (p / 16)).queue = (sringOf s (p / 16)).queue ++ eras ++ [e] ∧
        eras.length = stampTime s i y / 2 ^ 48 + 1 - tabGet 0 s.pin.eras (16 * i + p / 16) ∧ (∀ e ∈ eras, bits e 63 62 = 1 ∧ bits e 53 48 = i) ∧
        bits e 47 0 = stampTime s i y % 2 ^ 48 ∧ bits e 55 48 = p ∧ e.testBit 56 = rising ∧
        e.testBit 57 = (convOf s p).skip ∧ e.testBit 58 = (convOf s p).loss ∧ bits e 63 61 = 0) ∧
    (64 ≤ (convOf s p).used ∨ 1024 ≤ (sringOf s (p / 16)).queue.length → ∃ t, exec (.converterEdge p x cml rising merge held) s = .next t ∧ (convOf t p).loss = true ∧
      sringOf t (p / 16) = sringOf s (p / 16) ∧
      rd t (.bnk (p / 16)) (F.EDG_LOST (p % 16)) = min (2 ^ 32 - 1) (rd s (.bnk (p / 16)) (F.EDG_LOST (p % 16)) + 1) ∧
      ((convOf s p).lossQuiet = false → (rd t (.bnk (p / 16)) F.INT_RAW).testBit 13 = true))) ∧
  (∀ (s : State) (p : Nat), ∃ t, exec (.stampCreditRefill p) s = .next t ∧ t.regs = s.regs ∧ convOf t p = { convOf s p with used := (convOf s p).used - 1 })

/-- R309, R312, R316, R318, R319, R321: the converters' registers, the stamp ring, and frequency counts.
Conventions of the model in it: log 60. -/
def Obligations.StampRings : Prop :=
  (∀ (s : State) (b i : Nat), siteState s i = 3 → i ∈ sitesOfBank s b → tabGet 0 s.pin.eras (16 * i + b) * 2 ^ 64 ≤ (vecEnd (siteOf s i)).1 →
    ∃ t, exec (.eraMarker b i) s = .next t ∧
    tabGet 0 t.pin.eras (16 * i + b) = tabGet 0 s.pin.eras (16 * i + b) + 1 ∧
    (sringOf t b).queue = (sringOf s b).queue ++ if rdb s (.bnk b) F.EDG_SR_CTRL_EN then [tabGet 0 s.pin.eras (16 * i + b) % 2 ^ 48 + i * 2 ^ 48 + 2 ^ 62] else []) ∧
  (∀ (s : State) (b e : Nat) (rest : List Nat), memServes s 2 = true → (sringOf s b).queue = e :: rest →
    ((sringOf s b).lost = 0 → ringFull s b = false → e < 2 ^ 64 → ∃ t, exec (.stampRingWrite b) s = .next t ∧ (sringOf t b).queue = rest ∧
      rd t (.bnk b) F.EDG_SR_WCNT = (rd s (.bnk b) F.EDG_SR_WCNT + 1) % 2 ^ 64 ∧
      readMem t (bankOwner s b) (stampBase s b + 8 * (rd s (.bnk b) F.EDG_SR_WCNT % 2 ^ (ringCfgOf s b).2)) 8 = e) ∧
    (ringFull s b = true → (sringOf s b).drainCfg.isSome = true → ∃ t, exec (.stampRingWrite b) s = .next t ∧ t = s) ∧
    (ringFull s b = true → (sringOf s b).drainCfg = none → ∃ t, exec (.stampRingWrite b) s = .next t ∧ (sringOf t b).queue = rest ∧ (sringOf t b).lost = (sringOf s b).lost + 1 ∧ t.mem = s.mem ∧
      rd t (.bnk b) F.SR_DROP = min (2 ^ 32 - 1) (rd s (.bnk b) F.SR_DROP + 1)) ∧
    ((sringOf s b).lost ≠ 0 → ringFull s b = false → ∃ t, exec (.stampRingWrite b) s = .next t ∧ (sringOf t b).lost = 0 ∧
      rd t (.bnk b) F.EDG_SR_WCNT = (rd s (.bnk b) F.EDG_SR_WCNT + 1) % 2 ^ 64 ∧
      (sringOf t b).queue = (((sitesOfBank s b).filter fun i => siteState s i = 3).map fun i => eraEntry i (tabGet 0 (sringOf s b).passed i)) ++ (sringOf s b).queue)) ∧
  (∀ (s : State) (m b word : Nat), b < 16 → MayWrite s m (.bnk b) F.EDG_SR_CTRL_EN.off false →
    (bankBusy s b = false → word.testBit 0 = true → 8 ≤ bits word 12 8 → bits word 12 8 ≤ 26 → inQuota s (bankOwner s b) (stampBase s b) (8 * 2 ^ bits word 12 8) = true →
        rdb s (.bnk b) F.EDG_SR_CTRL_EN = false → ringDraining s b = false → ∃ t, exec (.stampRingCtrlWrite m b word) s = .next t ∧ rd t (.bnk b) F.EDG_SR_CTRL_EN = 1 ∧
      rd t (.bnk b) F.EDG_SR_CTRL_MODE = bits word 1 1 ∧ rd t (.bnk b) F.EDG_SR_CTRL_SIZE = bits word 12 8 ∧ rd t (.bnk b) F.EDG_SR_WCNT = 0 ∧
      rd t (.bnk b) F.EDG_SR_RCNT = 0 ∧ (sringOf t b).queue = []) ∧
    (bankBusy s b = true ∨ (word.testBit 0 = true ∧ (bits word 12 8 < 8 ∨ 26 < bits word 12 8 ∨ ringDraining s b = true)) → ∃ t, exec (.stampRingCtrlWrite m b word) s = .next t ∧ t.pin = s.pin ∧
      rd t (.bnk b) F.EDG_SR_CTRL_EN = rd s (.bnk b) F.EDG_SR_CTRL_EN ∧ (rd t (.bnk b) F.FLT_CAUSE).testBit 12 = true)) ∧
  (∀ (s : State) (m b v : Nat), b < 16 → v < 2 ^ 64 → MayWrite s m (.bnk b) F.EDG_SR_RCNT.off false → ∃ t, exec (.stampRingRcntWrite m b v) s = .next t ∧
    if rd s (.bnk b) F.EDG_SR_RCNT ≤ v ∧ v ≤ rd s (.bnk b) F.EDG_SR_WCNT then rd t (.bnk b) F.EDG_SR_RCNT = v
    else rd t (.bnk b) F.EDG_SR_RCNT = rd s (.bnk b) F.EDG_SR_RCNT ∧ (rd t (.bnk b) F.FLT_CAUSE).testBit 12 = true) ∧
  (∀ (s : State) (m p word : Nat), p < 256 → MayWrite s m (.bnk (p / 16)) (F.EDG_PIN_CFG_EN (p % 16)).off false → ∃ t, exec (.edgPinCfgWrite m p word) s = .next t ∧
    if pinCfgBad s p word then rd t (.bnk (p / 16)) (F.EDG_PIN_CFG_EN (p % 16)) = rd s (.bnk (p / 16)) (F.EDG_PIN_CFG_EN (p % 16)) ∧
      rd t (.bnk (p / 16)) (F.EDG_PIN_CFG_EDGE (p % 16)) = rd s (.bnk (p / 16)) (F.EDG_PIN_CFG_EDGE (p % 16)) ∧ (rd t (.bnk (p / 16)) F.FLT_CAUSE).testBit 12 = true
    else rd t (.bnk (p / 16)) (F.EDG_PIN_CFG_EN (p % 16)) = bits word 0 0 ∧ rd t (.bnk (p / 16)) (F.EDG_PIN_CFG_EDGE (p % 16)) = bits word 2 1 ∧
      rd t (.bnk (p / 16)) (F.EDG_PIN_CFG_PRE (p % 16)) = bits word 7 4 ∧ rd t (.bnk (p / 16)) (F.EDG_PIN_CFG_RING (p % 16)) = bits word 8 8 ∧
      rd t (.bnk (p / 16)) (F.EDG_PIN_CFG_AU (p % 16)) = bits word 19 16 ∧
      (word.testBit 0 = true → rdb s (.bnk (p / 16)) (F.EDG_PIN_CFG_EN (p % 16)) = false → (convOf t p).pre = 0 ∧
        ∀ f ∈ [F.EDG_STAMPS, F.EDG_ACCEPTED, F.EDG_MERGED, F.EDG_HELD, F.EDG_LOST], rd t (.bnk (p / 16)) (f (p % 16)) = 0)) ∧
  (∀ (s : State) (p : Nat), p < 256 → (convOf s p).fcOn = true → (convOf s p).fcN < 2 ^ 32 → ∃ t, exec (.fcDone p) s = .next t ∧
    rd t (.bnk (p / 16)) (F.EDG_FC_N (p % 16)) = (convOf s p).fcN ∧ rd t (.bnk (p / 16)) (F.EDG_FC_STAT_VALID (p % 16)) = 1 ∧
    rd t (.bnk (p / 16)) (F.EDG_FC_STAT_NOEDGE (p % 16)) = b2n (decide ((convOf s p).fcN = 0)) ∧ rdb t (.bnk (p / 16)) (F.EDG_FC_STAT_SKIP (p % 16)) = (convOf s p).fcSkip ∧
    (rd t (.bnk (p / 16)) F.INT_RAW).testBit 14 = true ∧ (convOf t p).fcN = 0 ∧ (convOf t p).fcFirst = none) ∧
  (∀ (s : State) (m p : Nat), m < 6 → p < 256 → mayRead s m (.bnk (p / 16)) (F.EDG_FC_N (p % 16)).off false = true →
      mayRead s m (.bnk (p / 16)) (F.EDG_LOST (p % 16)).off false = true →
    (∃ t, exec (.fcNRead m p) s = .next t ∧ t.regs = s.regs ∧ t.out = s.out ++ [.read m (rd s (.bnk (p / 16)) (F.EDG_FC_N (p % 16)))] ∧
      ((tabFind t.pin.fcLatch (m * 256 + p)).map (·.1)) = some (rd s (.bnk (p / 16)) (F.EDG_FC_T (p % 16)))) ∧
    (∃ t, exec (.edgLostRead m p) s = .next t ∧ t.regs = s.regs ∧ t.out = s.out ++ [.read m (rd s (.bnk (p / 16)) (F.EDG_LOST (p % 16)))] ∧
      (rd s (.bnk (p / 16)) (F.EDG_LOST (p % 16)) ≠ 0 → (convOf t p).lossQuiet = false))) ∧
  (∀ (s : State) (m b comp v : Nat), b < 16 → MayWrite s m (.bnk b) F.EDG_SPARE_PIN.off true → Completes s m (.bnk b) F.EDG_SPARE_PIN.off v →
    ∃ t, exec (.edgSpareWrite m b comp) s = .next t ∧
      if comp = 2 ^ 32 - 1 - v then rd t (.bnk b) F.EDG_SPARE_PIN = bits v 3 0 ∧ rd t (.bnk b) F.EDG_SPARE_VALID = bits v 4 4
      else rd t (.bnk b) F.EDG_SPARE_PIN = rd s (.bnk b) F.EDG_SPARE_PIN ∧ rd t (.bnk b) F.CPL_ERR = min (2 ^ 32 - 1) (rd s (.bnk b) F.CPL_ERR + 1))

/-- R325–R335, Table 12-2: the instructions of an analysis unit that move data and compute, in every place of the program: what each writes; one that completes, leaving the
unit neither in FAULT nor WAITING, moves the program counter to the place after it, and every completed instruction counts one in AU_INSNS. -/
def Obligations.AnalysisArithmetic : Prop :=
  (∀ (s : State) (u w op waited : Nat) (up : AuUpset) (c : Instr), AuAt s u up w op → (c, op) ∈ auComputes u up waited ++ auFlows u up waited →
    ∃ t, exec c s = .next t ∧ (auState t u ≠ 2 → auState t u ≠ 3 → rd t (.au u) F.AU_INSNS = (rd s (.au u) F.AU_INSNS + 1) % 2 ^ 64 ∧
      ((c, op) ∈ auComputes u up waited → rd t (.au u) F.AU_STAT_PC = auPlaceAfter (auOf s u) (rd s (.au u) F.AU_STAT_PC)))) ∧
  (∀ (s : State) (u w : Nat) (up : AuUpset), AuAt s u up w 0 → bits w 25 0 = 0 → ∃ t, exec (.auNop u up) s = .next t ∧
    rd t (.au u) F.AU_INSNS = (rd s (.au u) F.AU_INSNS + 1) % 2 ^ 64 ∧ (∀ k < 8, auX t u k = auX s u k) ∧ ∀ a, auData t u a = auData s u a) ∧
  (∀ (s : State) (u w op a x : Nat) (up : AuUpset) (c : Instr), AuAt s u up w op → bits w 11 0 = 0 → (17 ≤ u → w.testBit 25 = false) → a = bits w 25 25 →
      (c = .cmac u up ∧ op = 1 ∧ x = auData s u (arPtr s u (bits w 21 19)) ∨ c = .cmacx u up ∧ op = 2 ∧ bits w 18 17 = 0 ∧ x = auX s u (bits w 21 19)) →
    ∃ t, exec c s = .next t ∧ ∀ y, y = auData s u (arPtr s u (bits w 16 14)) →
      (u < 17 → ∀ (bi re im : Int), bi = (if w.testBit 22 then -toSigned 16 (y / 2 ^ 16) else toSigned 16 (y / 2 ^ 16)) →
          re = accSum w (toSigned 40 (rd s (.au u) (F.AU_A_RE a))) (toSigned 16 x * toSigned 16 y - toSigned 16 (x / 2 ^ 16) * bi) →
          im = accSum w (toSigned 40 (rd s (.au u) (F.AU_A_IM a))) (toSigned 16 x * bi + toSigned 16 (x / 2 ^ 16) * toSigned 16 y) →
        PartIs (rd t (.au u) (F.AU_A_RE a)) (rdb s (.au u) F.AU_CTRL_SAT_EN) re ∧ PartIs (rd t (.au u) (F.AU_A_IM a)) (rdb s (.au u) F.AU_CTRL_SAT_EN) im ∧
        (re < -(2 ^ 39) ∨ 2 ^ 39 ≤ re ∨ im < -(2 ^ 39) ∨ 2 ^ 39 ≤ im → (rd t (.au u) F.INT_RAW).testBit 12 = true ∧
          rd t (.au u) (if a = 0 then F.AU_FLAGS_OVF_A0 else F.AU_FLAGS_OVF_A1) = 1)) ∧
      (17 ≤ u → PartIs (rd t (.au u) (F.AU_A_RE 0)) (rdb s (.au u) F.AU_CTRL_SAT_EN)
          (accSum w (toSigned 40 (rd s (.au u) (F.AU_A_RE 0))) (toSigned 16 x * toSigned 16 y))) ∧
      (∀ a', a' < 2 → a' ≠ a → rd t (.au u) (F.AU_A_RE a') = rd s (.au u) (F.AU_A_RE a') ∧ rd t (.au u) (F.AU_A_IM a') = rd s (.au u) (F.AU_A_IM a')) ∧
      ∀ n < 8, arPtr t u n = arPtr (postModify u (bits w 16 14) (bits w 13 12) (if op = 1 then postModify u (bits w 21 19) (bits w 18 17) s else s)) u n) ∧
  (∀ (s : State) (u w a sh : Nat) (up : AuUpset), AuAt s u up w 3 → bits w 15 0 = 0 → sh = bits w 21 16 → sh ≤ 32 → (17 ≤ u → w.testBit 25 = false) → a = bits w 25 25 →
    ∃ t re im, exec (.rnd u up) s = .next t ∧ NearestEven (toSigned 40 (rd s (.au u) (F.AU_A_RE a))) sh re ∧ NearestEven (toSigned 40 (rd s (.au u) (F.AU_A_IM a))) sh im ∧
      toSigned 16 (auX t u (bits w 24 22)) = max (-32768) (min re 32767) ∧
      toSigned 16 (auX t u (bits w 24 22) / 2 ^ 16) = (if u < 17 then max (-32768) (min im 32767) else 0) ∧
      rd t (.au u) F.AU_FLAGS_RSAT = (if re < -32768 ∨ 32767 < re ∨ (u < 17 ∧ (im < -32768 ∨ 32767 < im)) then 1 else rd s (.au u) F.AU_FLAGS_RSAT) ∧
      ∀ a' < 2, rd t (.au u) (F.AU_A_RE a') = rd s (.au u) (F.AU_A_RE a') ∧ rd t (.au u) (F.AU_A_IM a') = rd s (.au u) (F.AU_A_IM a')) ∧
  (∀ (s : State) (u w v : Nat) (up : AuUpset), AuAt s u up w 4 → bits w 19 0 = 0 → (17 ≤ u → w.testBit 25 = false ∧ bits w 21 20 < 2) →
      v = rd s (.au u) (if bits w 21 20 < 2 then F.AU_A_RE (bits w 25 25) else F.AU_A_IM (bits w 25 25)) → ∃ t, exec (.mva u up) s = .next t ∧
    if bits w 21 20 % 2 = 0 then auX t u (bits w 24 22) = v % 2 ^ 32 else toSigned 32 (auX t u (bits w 24 22)) = toSigned 8 (v / 2 ^ 32)) ∧
  (∀ (s : State) (u w n code : Nat) (up : AuUpset), n = bits w 21 19 → code = bits w 18 17 → w.testBit 25 = false → bits w 16 0 = 0 →
    (AuAt s u up w 5 → ∃ t, exec (.ld u up) s = .next t ∧ auX t u (bits w 24 22) = auData s u (arPtr s u n) % 2 ^ 32 ∧ arPtr t u n = arPtr (postModify u n code s) u n) ∧
    (AuAt s u up w 6 → ∃ t, exec (.st u up) s = .next t ∧ auData t u (arPtr s u n) = auX s u (bits w 24 22) ∧ arPtr t u n = arPtr (postModify u n code s) u n ∧
      ∀ a, a < 16384 → a ≠ arPtr s u n → auData t u a = auData s u a) ∧
    ∀ (step ptr base len : Int), step = (if code = 1 then 1 else if code = 2 then -1 else if code = 3 then toSigned 14 (rd s (.au u) (F.AU_AR_MOD n)) else 0) →
      ptr = arPtr s u n → base = rd s (.au u) (F.AU_AR_BASE n) → len = rd s (.au u) (F.AU_AR_LEN n) →
      (arPtr (postModify u n code s) u n : Int) = (if code = 0 then ptr else if len = 0 then (ptr + step) % 16384 else (base + (ptr - base + step) % len) % 16384)) ∧
  (∀ (s : State) (u w d : Nat) (up : AuUpset), AuAt s u up w 7 → w.testBit 25 = false → bits w 20 16 = 0 → d = bits w 24 22 → ∃ t, exec (.ldi u up) s = .next t ∧
    auX t u d = if w.testBit 21 then bits w 15 0 * 2 ^ 16 + auX s u d % 2 ^ 16 else bits w 15 0) ∧
  (∀ (s : State) (u w fn a b v : Nat) (up : AuUpset), AuAt s u up w 8 → fn = bits w 25 22 → fn ≤ 9 → bits w 12 0 = 0 → a = auX s u (bits w 18 16) → b = auX s u (bits w 15 13) →
      (fn = 0 → v = (a + b) % 2 ^ 32) → (fn = 1 ∨ fn = 8 → v = (a + 2 ^ 32 - b) % 2 ^ 32) → (fn = 2 → v = a &&& b) → (fn = 3 → v = a ||| b) → (fn = 4 → v = a ^^^ b) →
      (fn = 5 → v = a <<< (b % 32) % 2 ^ 32) → (fn = 6 → (v : Int) = (toSigned 32 a / (2 : Int) ^ (b % 32)) % 2 ^ 32) → (fn = 7 → v = a >>> (b % 32)) →
      (fn = 9 → v < 2 ^ 16 ∧ toSigned 16 v = max (-32768) (min (toSigned 32 a) 32767)) →
    ∃ t, exec (.alu u up) s = .next t ∧ auX t u (bits w 21 19) = (if fn = 8 then auX s u (bits w 21 19) else v) ∧
      rdb t (.au u) F.AU_FLAGS_Z = decide (v = 0) ∧ rdb t (.au u) F.AU_FLAGS_N = v.testBit 31) ∧
  (∀ (s : State) (u w d v : Nat) (up : AuUpset), AuAt s u up w 9 → w.testBit 25 = false → bits w 21 16 = 0 → d = bits w 24 22 →
      (v : Int) = (auX s u d + toSigned 16 (bits w 15 0)) % 2 ^ 32 → ∃ t, exec (.addi u up) s = .next t ∧ auX t u d = v ∧
    rdb t (.au u) F.AU_FLAGS_Z = decide (v = 0) ∧ rdb t (.au u) F.AU_FLAGS_N = v.testBit 31) ∧
  (∀ (s : State) (u w n v : Nat) (up : AuUpset), AuAt s u up w 0x0A → bits w 19 17 = 0 → n = bits w 25 23 → v = (if w.testBit 20 then auX s u (bits w 16 14) else w) % 2 ^ 14 →
    ∃ t, exec (.lda u up) s = .next t ∧ arPtr t u n = (if bits w 22 21 = 0 then v else arPtr s u n) ∧
      rd t (.au u) (F.AU_AR_BASE n) = (if bits w 22 21 = 1 then v else rd s (.au u) (F.AU_AR_BASE n)) ∧
      rd t (.au u) (F.AU_AR_LEN n) = (if bits w 22 21 = 2 then v else rd s (.au u) (F.AU_AR_LEN n)) ∧
      rd t (.au u) (F.AU_AR_MOD n) = (if bits w 22 21 = 3 then v else rd s (.au u) (F.AU_AR_MOD n))) ∧
  (∀ (s : State) (u w xd xe waited : Nat) (e : TapEnt) (rest : List TapEnt) (up : AuUpset), AuAt s u up w 0x0B → w.testBit 25 = false → bits w 18 0 = 0 → xd = bits w 24 22 →
      xe = bits w 21 19 → (auOf s u).tap = e :: rest → e.info < 2 ^ 32 → e.value < 2 ^ 64 → ∃ t, exec (.tapd u up waited) s = .next t ∧ (xd ≠ xe → auX t u xe = e.info) ∧
      (auOf t u).tap = rest ++ (if (auOf s u).lost = 0 then [] else [⟨min (auOf s u).lost (2 ^ 32 - 1), 2 ^ 12, true⟩]) ∧ (auOf t u).lost = 0 ∧
      (e.mark = true → (xd ≠ xe → auX t u xd = e.value % 2 ^ 32) ∧ auReft t u = auReft s u) ∧
      (e.mark = false → ∀ r : Nat, r = (if rdb s (.au u) F.AU_TAP_AUTOREF && (auOf s u).firstRef then e.value * 2 ^ 16 else auReft s u) →
        (xd ≠ xe → toSigned 32 (auX t u xd) = max (-(2 ^ 31)) (min ((e.value : Int) - ((r + 2 ^ 15) / 2 ^ 16 : Nat)) (2 ^ 31 - 1))) ∧
        auReft t u = (r + rd s (.au u) F.AU_REFSTEP * 2 ^ 16 + rd s (.au u) F.AU_REFSTEP_FRAC) % 2 ^ 80)) ∧
  (∀ (s : State) (u w : Nat) (up : AuUpset), bits w 25 8 = 0 → AuAt s u up w 0x1A → ∃ t, exec (.sig u up) s = .next t ∧ rd t (.au u) F.AU_MSG_CODE = bits w 7 0 ∧
    (rd t (.au u) F.INT_RAW).testBit 9 = true) ∧
  (∀ (s : State) (u w : Nat) (up : AuUpset), bits w 25 4 = 0 → AuAt s u up w 0x1B → ∃ t, exec (.clrf u up) s = .next t ∧
    rd t (.au u) F.AU_FLAGS_OVF_A0 = (if w.testBit 0 then 0 else rd s (.au u) F.AU_FLAGS_OVF_A0) ∧ rd t (.au u) F.AU_FLAGS_OVF_A1 = (if w.testBit 1 then 0 else rd s (.au u) F.AU_FLAGS_OVF_A1) ∧
    rd t (.au u) F.AU_FLAGS_RSAT = (if w.testBit 2 then 0 else rd s (.au u) F.AU_FLAGS_RSAT) ∧ rd t (.au u) F.AU_FLAGS_TAPSAT = (if w.testBit 3 then 0 else rd s (.au u) F.AU_FLAGS_TAPSAT))

/-- R324, R334–R337, R341–R345, Tables 12-3 to 12-5: flow, repeats, waits and faults of the units; run control, assignment and the spare unit. Conventions of the model in it:
logs 61, 62, 63, 103. -/
def Obligations.AnalysisControl : Prop :=
  (∀ (s : State) (u w pc : Nat) (up : AuUpset), AuAt s u up w 0 → bits w 25 0 = 0 → pc = rd s (.au u) F.AU_STAT_PC → (auOf s u).haltReq = false → ∃ t, exec (.auNop u up) s = .next t ∧
    (∀ n, (auOf s u).rpt = some (n + 2) → (auOf t u).rpt = some (n + 1) ∧ rd t (.au u) F.AU_STAT_PC = pc) ∧
    ((auOf s u).rpt = none ∨ (auOf s u).rpt = some 1 → (auOf t u).rpt = none ∧
      (∀ n d, (auOf s u).slots = some (n + 2, d) → (auOf t u).slots = some (n + 1, d) ∧ rd t (.au u) F.AU_STAT_PC = (pc + 1) % 4096) ∧
      (∀ d, (auOf s u).slots = some (1, some d) → (auOf t u).slots = none ∧ rd t (.au u) F.AU_STAT_PC = d % 4096) ∧
      (∀ a e n, (auOf s u).slots = none → (auOf s u).block = some (a, e, n) → pc = e → 1 < n → (auOf t u).block = some (a, e, n - 1) ∧ rd t (.au u) F.AU_STAT_PC = a % 4096) ∧
      (∀ a e n, (auOf s u).slots = none → (auOf s u).block = some (a, e, n) → pc = e → n ≤ 1 → (auOf t u).block = none ∧ rd t (.au u) F.AU_STAT_PC = (pc + 1) % 4096) ∧
      ((auOf s u).slots = none → (auOf s u).block = none → rd t (.au u) F.AU_STAT_PC = (pc + 1) % 4096))) ∧
  (∀ (s : State) (u w pc : Nat) (up : AuUpset), AuOpen s u → pc = rd s (.au u) F.AU_STAT_PC →
    (AuAt s u up w 0x10 → bits w 25 22 ≤ 7 → bits w 21 12 = 0 → ∃ t, exec (.br u up) s = .next t ∧ rd t (.au u) F.AU_STAT_PC = (pc + 1) % 4096 ∧
      ∀ b : Bool, (b = true ↔ bits w 25 22 = 0 ∨ bits w 25 22 = 1 ∧ rd s (.au u) F.AU_FLAGS_Z = 1 ∨ bits w 25 22 = 2 ∧ rd s (.au u) F.AU_FLAGS_Z = 0 ∨
          bits w 25 22 = 3 ∧ rd s (.au u) F.AU_FLAGS_N = 1 ∨ bits w 25 22 = 4 ∧ rd s (.au u) F.AU_FLAGS_N = 0 ∨ bits w 25 22 = 5 ∧ (auOf s u).tap = [] ∨
          bits w 25 22 = 6 ∧ (auOf s u).tap ≠ [] ∨ bits w 25 22 = 7 ∧ (rd s (.au u) F.AU_FLAGS_OVF_A0 = 1 ∨ rd s (.au u) F.AU_FLAGS_OVF_A1 = 1 ∨
            rd s (.au u) F.AU_FLAGS_RSAT = 1 ∨ rd s (.au u) F.AU_FLAGS_TAPSAT = 1)) →
        (auOf t u).slots = some (2, if b then some (bits w 11 0) else none)) ∧
    (AuAt s u up w 0x11 → bits w 25 12 = 0 → (auOf s u).stack.length < 8 → ∃ t, exec (.auCall u up) s = .next t ∧ (auOf t u).stack = (pc + 3) % 4096 :: (auOf s u).stack ∧
      (auOf t u).slots = some (2, some (bits w 11 0)) ∧ rd t (.au u) F.AU_STAT_PC = (pc + 1) % 4096) ∧
    (∀ (d : Nat) (rest : List Nat) (c : Instr) (op : Nat), (auOf s u).stack = d :: rest → bits w 25 0 = 0 → AuAt s u up w op →
        (c = .auRet u up ∧ op = 0x12) ∨ (c = .reti u up ∧ op = 0x13) → ∃ t, exec c s = .next t ∧ (auOf t u).stack = rest ∧ (auOf t u).slots = some (2, some d) ∧
      rd t (.au u) F.AU_STAT_PC = (pc + 1) % 4096 ∧ (op = 0x13 → rd t (.au u) F.AU_STAT_IE = 1)) ∧
    (AuAt s u up w 0x14 → bits w 25 16 = 0 → bits w 15 0 ≠ 0 → ∃ t, exec (.auRpt u up) s = .next t ∧ (auOf t u).rpt = some (bits w 15 0) ∧
      rd t (.au u) F.AU_STAT_PC = (pc + 1) % 4096) ∧
    (AuAt s u up w 0x15 → w.testBit 25 = false → bits w 21 0 = 0 → ∃ t, exec (.rptr u up) s = .next t ∧
      if auX s u (bits w 24 22) % 2 ^ 16 = 0 then (auOf t u).rpt = none ∧ rd t (.au u) F.AU_STAT_PC = (pc + 2) % 4096
      else (auOf t u).rpt = some (auX s u (bits w 24 22) % 2 ^ 16) ∧ rd t (.au u) F.AU_STAT_PC = (pc + 1) % 4096) ∧
    (AuAt s u up w 0x16 → bits w 25 12 ≠ 0 → pc + 1 ≤ bits w 11 0 → ∃ t, exec (.rptb u up) s = .next t ∧ (auOf t u).block = some (pc + 1, bits w 11 0, bits w 25 12) ∧
      rd t (.au u) F.AU_STAT_PC = pc + 1) ∧
    (∀ waited, AuAt s u up w 0x18 → bits w 25 0 = 0 → (auPending s u ≠ none ∨ (auOf s u).tap ≠ [] → ∃ t, exec (.wait u up waited) s = .next t ∧ auState t u = 1 ∧
        rd t (.au u) F.AU_STAT_PC = (pc + 1) % 4096 ∧ (auOf t u).stack = (auOf s u).stack) ∧
      (auPending s u = none → (auOf s u).tap = [] → ∃ t, exec (.wait u up waited) s = .next t ∧ auState t u = 2 ∧ rd t (.au u) F.AU_STAT_PC = pc)) ∧
    (AuAt s u up w 0x19 → bits w 25 0 = 0 → ∃ t, exec (.auHaltInstruction u up) s = .next t ∧ auState t u = 0 ∧ (rd t (.au u) F.INT_RAW).testBit 8 = true)) ∧
  (∀ (s : State) (u waited : Nat) (up : AuUpset) (c : Instr), c ∈ auRows u up waited → auLive s u = true → auTakes s u = none →
      up.prog = true ∨ auAssigned (auOp (auProg s u (rd s (.au u) F.AU_STAT_PC))) = false →
    ∃ t, exec c s = .next t ∧ auState t u = 3 ∧ rd t (.au u) F.AU_FAULT_INFO_CODE = (if up.prog then 6 else 1) ∧
      rd t (.au u) F.AU_FAULT_INFO_PC = rd s (.au u) F.AU_STAT_PC ∧ (rd t (.au u) F.INT_RAW).testBit 10 = true ∧ (∀ k < 8, auX t u k = auX s u k)) ∧
  (∀ (s : State) (u v : Nat), auTakes s u = some v → (auOf s u).stack.length < 8 → ∃ t, exec (.auInterrupt u) s = .next t ∧
    (auOf t u).stack = rd s (.au u) F.AU_STAT_PC :: (auOf s u).stack ∧ rd t (.au u) F.AU_STAT_IE = 0 ∧ rd t (.au u) F.AU_STAT_PC = v ∧ auState t u = 1 ∧
    v = (if rd s (.au u) F.AU_IEN_HOST = 1 ∧ (auOf s u).host = true then 1 else 2) ∧ (v = 1 → (auOf t u).host = false)) ∧
  (∀ (s : State) (m u word : Nat), u < 19 → MayWrite s m (.au u) F.AU_CTRL_GO.off false → auClearing s u = false → cuHeld s m u = false →
    (word.testBit 1 = false → word.testBit 2 = false → auStopped s u = true → ∃ t, exec (.auGo m u word) s = .next t ∧ auState t u = 1 ∧
      rd t (.au u) F.AU_STAT_PC = rd s (.au u) F.AU_START ∧ rd t (.au u) F.AU_STAT_IE = bits word 4 4) ∧
    (word.testBit 1 = true ∨ auStopped s u = false → ∃ t, exec (.auGo m u word) s = .next t ∧ auState t u = auState s u ∧ auOf t u = auOf s u ∧
      (rd t (.au u) F.FLT_CAUSE).testBit 1 = true) ∧
    (word.testBit 0 = false → word.testBit 2 = false → auLive s u = true → ∃ t, exec (.auHalt m u word) s = .next t ∧
      if (auOf s u).slots = none ∧ (auOf s u).rpt = none ∧ (auOf s u).block = none then auState t u = 0 else auState t u = auState s u ∧ (auOf t u).haltReq = true) ∧
    (word.testBit 0 = false → word.testBit 1 = false → auStopped s u = true → ∃ t, exec (.auReset m u word) s = .next t ∧ (auOf t u).tap = [] ∧ (auOf t u).stack = [] ∧
      (∀ k < 8, auX t u k = 0 ∧ arPtr t u k = 0) ∧ (∀ k < 2, rd t (.au u) (F.AU_A_RE k) = 0) ∧ rd t (.au u) F.AU_FLAGS_RSAT = 0 ∧ ∀ a, auData t u a = auData s u a)) ∧
  (∀ (s : State) (m u word : Nat), u < 19 → MayWrite s m (.au u) F.AU_DOORBELL.off false → auClearing s u = false → word.testBit 0 = true →
    ∃ t, exec (.auDoorbell m u word) s = .next t ∧ (auOf t u).host = true ∧ t.regs = s.regs) ∧
  (∀ (s : State) (m u word : Nat), u < 16 → MayWrite s m (.au u) F.AU_ASSIGN_PART.off true → auClearing s u = false → ∃ t, exec (.auAssignWrite m u word) s = .next t ∧
    if auStopped s u then rd t (.au u) F.AU_ASSIGN_PART = word % 4 ∧ (rd s (.au u) F.AU_ASSIGN_PART ≠ word % 4 → rd t (.au u) F.AU_ASSIGN_CLEARING = 1)
    else rd t (.au u) F.AU_ASSIGN_PART = rd s (.au u) F.AU_ASSIGN_PART ∧ (rd t (.au u) F.FLT_CAUSE).testBit 1 = true) ∧
  (∀ (s : State) (u : Nat), auClearing s u = true → ∃ t, exec (.auClearDone u) s = .next t ∧ auClearing t u = false ∧ (∀ a, auData t u a = 0 ∧ auProg t u a = 0) ∧
    (∀ k < 8, auX t u k = 0 ∧ arPtr t u k = 0) ∧ (auOf t u).tap = [] ∧ auReft t u = 0 ∧ rd t (.au u) F.AU_FLAGS_TAPSAT = 0) ∧
  (∀ (s : State) (m u idx : Nat) (bad : Bool), u < 19 → idx < 8192 → mayRead s m (.au u) (0x8000 + 4 * idx) false = true → ∃ t, exec (.auDataWindowRead m u idx bad) s = .next t ∧
    .read m (auData s u (8192 * rd s (.au u) F.AU_DWIN_HALF + idx)) ∈ t.out ∧ auState t u = auState s u ∧
    (bad = false → t.out = s.out ++ [.read m (auData s u (8192 * rd s (.au u) F.AU_DWIN_HALF + idx))]) ∧
    (bad = true → (rd t (.au u) F.INT_RAW).testBit 2 = true ∧ (rd t (.au u) F.FLT_CAUSE).testBit 2 = true)) ∧
  (∀ (s : State) (m comp v : Nat), MayWrite s m (.au 16) F.AU_SPARE_UNIT.off true → Completes s m (.au 16) F.AU_SPARE_UNIT.off v →
    ∃ t, exec (.auSpareWrite m comp) s = .next t ∧ t.au = s.au ∧
      if comp = 2 ^ 32 - 1 - v then rd t (.au 16) F.AU_SPARE_UNIT = bits v 3 0 ∧ rd t (.au 16) F.AU_SPARE_VALID = bits v 4 4
      else rd t (.au 16) F.AU_SPARE_UNIT = rd s (.au 16) F.AU_SPARE_UNIT ∧ rd t (.au 16) F.CPL_ERR = min (2 ^ 32 - 1) (rd s (.au 16) F.CPL_ERR + 1)) ∧
  (∀ (s : State) (u v prev : Nat), s.au.subst = some (u, none, prev) → u < 16 → prev < 8 → auSpareNamed s = some v → v ≠ u → auStopped s v = true →
      rdb s (.au v) F.AU_TAP_EN = false → ∃ t, exec .auSubstDone s = .next t ∧ auState t u = prev ∧ t.au.spare = none ∧ t.au.subst = some (v, some v, auState s v) ∧ auState t v = 4) ∧
  (∀ (s : State) (u prev : Nat) (map : Option Nat), s.au.subst = some (u, map, prev) → u < 16 → prev < 8 → (map = none → auSpareNamed s = none) → ∃ t, exec .auSubstDone s = .next t ∧ auState t u = prev ∧
    t.au.spare = map ∧ t.au.subst = none ∧ auOf t u = auOf s u ∧ rdb t (.au 16) F.AU_SPARE_ACTIVE = map.isSome ∧ (∀ a, auData t 16 a = auData s u a) ∧
    ∀ k < 8, auX t u k = auX s u k ∧ auX t 16 k = auX s u k) ∧
  (∀ (s : State) (u w x waited : Nat) (e : TapEnt) (rest : List TapEnt) (up : AuUpset), AuAt s u up w 0x0B → w.testBit 25 = false → bits w 18 0 = 0 → x = bits w 24 22 → x = bits w 21 19 →
    (auOf s u).tap = e :: rest → e.info < 2 ^ 32 → ∃ t, exec (.tapd u up waited) s = .next t ∧ auX t u x = e.info)

/-- R347–R349, R353–R357, R360–R363, Tables 13-1 to 13-3: requests, the start of a class, its two runs and their judgement, aborts, the record of an accepted class, and the
FACTORY records, which only MANUFACTURE and RETURN write. Conventions of the model in it: logs 64, 65, 103. -/
def Obligations.Calibration : Prop :=
  (∀ (s : State) (m word : Nat) (part : Option Nat), (∀ n, part = some n → n < 4) → MayWrite s m (calPage part) F.CAL_REQ_GO.off part.isNone → word.testBit 9 = false → word < 2 ^ 32 →
    ∀ mine : Nat → Bool, mine = (fun b => decide (b < 16) && word.testBit (16 + b) && part.all fun n => bankOwner s b == n) →
    ((∃ b < 16, mine b = true) → bits word 2 0 ≠ 0 → bits word 6 3 = 0 → ∃ t q, exec (.calRequest m part word) s = .next t ∧ t.cal.reqs = s.cal.reqs ++ [q] ∧ t.cal.runs = s.cal.runs ∧
      ∀ b c, (b, c) ∈ q ↔ mine b = true ∧ 1 ≤ c ∧ c ≤ 3 ∧ word.testBit (c - 1) = true) ∧
    ((∀ b < 16, mine b = false) ∨ bits word 2 0 = 0 ∨ bits word 6 3 ≠ 0 → ∃ t, exec (.calRequest m part word) s = .next t ∧ t.cal = s.cal ∧
      (rd t (calPage part) F.FLT_CAUSE).testBit 1 = true)) ∧
  (∀ (s : State) (m word : Nat), MayWrite s m .calDev F.CAL_REQ_GO.off true → word.testBit 8 = false → ∃ t, exec (.calCancel m word) s = .next t ∧ t.cal.runs = s.cal.runs ∧
    ∀ q ∈ t.cal.reqs, ∀ x ∈ q, ∃ r ∈ s.cal.runs, (r.bank, r.cls) = x) ∧
  (∀ (s : State) (b : Nat), b < 16 → fwAwake s = true → rdb s .calDev F.CAL_AUTO_EN = true →
      (rd s .calDev (F.CAL_BANK_DUE b) ≠ 0 ∨
        (∃ x, tabFind s.cal.deskTemp b = some x ∧ rd s .calDev F.CAL_AUTO_TEMP_TRIG * 16 < (toSigned 8 (rd s .pwrDev F.PWR_TJ) * 16 - x).natAbs) ∨
        (rd s .calDev F.CAL_AUTO_INTERVAL ≠ 0 ∧ ∃ x, tabFind s.cal.lastTime b = some x ∧ x + 3600 * rd s .calDev F.CAL_AUTO_INTERVAL ≤
          rd s .timDev F.TIM_DTB_SEC_HI * 2 ^ 32 + rd s .timDev F.TIM_DTB_SEC_LO)) →
    ∃ t, exec (.calAutoRequest b) s = .next t ∧ t.cal.reqs = s.cal.reqs ++ [[(b, 1), (b, 2), (b, 3)]] ∧ t.cal.runs = s.cal.runs) ∧
  (∀ (s : State) (b c u : Nat) (temp : Int), fwAwake s = true → nextClass s = some (b, c) → freeCu s = some u →
    (bankBusy s b = false ∧ calRunOf s b = none ∧ (∃ q ∈ s.cal.reqs, (b, c) ∈ q) ∧ (u = 17 ∨ u = 18) ∧ auLive s u = false ∧
      ∀ b' c', b' < b ∨ b' = b ∧ c' < c → b' < 16 → (∃ q ∈ s.cal.reqs, (b', c') ∈ q) → 1 ≤ c' → c' ≤ 3 →
        bankBusy s b' = true ∨ (calRunOf s b').isSome = true ∨ rdb s (.bnk b') F.BNK_STAT_CHANGING = true) ∧
    (calPower s = true → (c = 3 → ∀ k < 17, (newestRec s 4 b k).isSome = true) → ∃ t r, exec (.calClassStart temp) s = .next t ∧ calRunOf t b = some r ∧ r.cls = c ∧ r.cu = u ∧ r.temp = temp ∧
      r.first = none ∧ rd t (.au u) F.AU_CU_FW_HELD = 1 ∧ rd t .calDev F.CAL_STAT_BUSY = 1 ∧ t.cal.reqs = s.cal.reqs ∧
      (c ≠ 1 → ∀ j < 16, (pinOf t (16 * b + j)).den = false)) ∧
    (∀ k, calPower s = true → c = 3 → (newestRec s 4 b k).isNone = true → k < 17 → (∀ j < k, (newestRec s 4 b j).isSome = true) → ∃ t, exec (.calClassStart temp) s = .next t ∧ calRunOf t b = none ∧
      rd t .calDev F.CAL_LAST_REASON = 9 ∧ rd t .calDev F.CAL_LAST_SLOT = k ∧ rd t .calDev F.CAL_LAST_BANK = b ∧ (rd t .calDev F.INT_RAW).testBit 9 = true ∧
      rd t .calDev (F.CAL_C_REJECTS 2) = min (2 ^ 32 - 1) (rd s .calDev (F.CAL_C_REJECTS 2) + 1) ∧ t.cal.tables = s.cal.tables)) ∧
  (∀ (s : State) (b : Nat) (r : CalRun) (meas : CalMeas), calRunOf s b = some r → r.accepted = false → r.abort = false → bankBusy s b = false → b < 16 → 1 ≤ r.cls → r.cls ≤ 3 →
    (r.first = none → r.cls = 1 ∨ meas.active = none → measFits s r meas = true → ∃ t, exec (.calRunDone b meas) s = .next t ∧
      calRunOf t b = some { r with first := some (calSlots.map (runValues r meas), runCheck s r meas) } ∧ t.cal.tables = s.cal.tables) ∧
    (∀ k < 17, r.cls ≠ 1 → meas.active = some k → ∃ t, exec (.calRunDone b meas) s = .next t ∧ calRunOf t b = none ∧ rd t .calDev F.CAL_LAST_REASON = 5 ∧ rd t .calDev F.CAL_LAST_SLOT = k ∧
      rd t .calDev (F.CAL_C_REJECTS (r.cls - 1)) = min (2 ^ 32 - 1) (rd s .calDev (F.CAL_C_REJECTS (r.cls - 1)) + 1) ∧ (rd t .calDev F.INT_RAW).testBit 9 = true ∧ t.cal.tables = s.cal.tables) ∧
    (∀ v1 bad, r.first = some (v1, bad) → (∀ x, bad = some x → 0 < x.1 ∧ x.1 < 16 ∧ x.2 < 17) → r.cls = 1 ∨ meas.active = none → measFits s r meas = true →
      (bad.isSome = true ∨ (runCheck s r meas).isSome = true ∨ 32 < (meas.temp - r.temp).natAbs ∨
          (∃ k < 17, disagree (calTol s r.cls) (v1.getD k []) (runValues r meas k) = true) →
        ∃ t, exec (.calRunDone b meas) s = .next t ∧ calRunOf t b = none ∧ rd t .calDev F.CAL_LAST_REASON ≠ 0 ∧ rd t .calDev F.CAL_LAST_CLASS = r.cls ∧ t.cal.tables = s.cal.tables ∧
          rd t .calDev (F.CAL_C_REJECTS (r.cls - 1)) = min (2 ^ 32 - 1) (rd s .calDev (F.CAL_C_REJECTS (r.cls - 1)) + 1) ∧ (rd t .calDev F.INT_RAW).testBit 9 = true ∧
          ∀ reason slot, bad = some (reason, slot) → rd t .calDev F.CAL_LAST_REASON = reason ∧ rd t .calDev F.CAL_LAST_SLOT = slot) ∧
      (bad = none → runCheck s r meas = none → (meas.temp - r.temp).natAbs ≤ 32 → v1.length = 17 → (∀ k < 17, disagree (calTol s r.cls) (v1.getD k []) (runValues r meas k) = false) →
        ∃ t, exec (.calRunDone b meas) s = .next t ∧ (rd t .calDev (F.CAL_BANK_VALID b)).testBit (r.cls - 1) = true ∧
          (rd t .calDev (F.CAL_BANK_NOMINAL b)).testBit (r.cls - 1) = false ∧ (r.cls ≠ 1 → (rd t .calDev (F.CAL_BANK_DUE b)).testBit (r.cls - 2) = false) ∧
          (r.cls ≠ 3 → ∀ k < 17, calTable t r.cls b k = calMean (v1.getD k []) (runValues r meas k)) ∧
          (r.cls = 3 → ∀ k < 17, ∀ j < 8, j / 4 ≠ (if rdb s (.bnk b) F.BNK_STAT_MODE_ACT then 1 else 0) → (calTable t 3 b k).getD j 0 = (calTable s 3 b k).getD j 0) ∧
          (r.cls = 1 → (∀ q ∈ s.cal.reqs, (b, 1) ∉ q ∨ (b, 2) ∉ q) → (rd t .calDev (F.CAL_BANK_DUE b)).testBit 0 = true ∧ (rd t .calDev F.INT_RAW).testBit 10 = true)))) ∧
  (∀ (s : State) (b : Nat) (r : CalRun), b < 16 → calRunOf s b = some r → r.bank = b → r.accepted = false → r.abort = true ∨ bankBusy s b = true → ∃ t, exec (.calAbort b) s = .next t ∧ calRunOf t b = none ∧
    rd t .calDev F.CAL_LAST_REASON = 8 ∧ rd t .calDev F.CAL_ABORTS = min (2 ^ 32 - 1) (rd s .calDev F.CAL_ABORTS + 1) ∧ t.cal.tables = s.cal.tables ∧
    (∀ q ∈ t.cal.reqs, ∀ c, (b, c) ∉ q) ∧ ∀ b' c, b' ≠ b → ((∃ q ∈ t.cal.reqs, (b', c) ∈ q) ↔ ∃ q ∈ s.cal.reqs, (b', c) ∈ q)) ∧
  (∀ (s : State) (b : Nat) (r : CalRun) (ok : Bool), calRunOf s b = some r → r.accepted = true → flashNow s = some (.calRecord b) → b < 16 → 1 ≤ r.cls → r.cls ≤ 3 →
    ∃ t, exec (.calRecordWrite b ok) s = .next t ∧ rd t .calDev (F.CAL_C_COUNT (r.cls - 1)) = min (2 ^ 32 - 1) (rd s .calDev (F.CAL_C_COUNT (r.cls - 1)) + 1) ∧
      rd t .calDev F.CAL_LAST_REASON = 0 ∧ rd t .calDev F.CAL_LAST_BANK = b ∧ rd t .calDev F.CAL_LAST_CLASS = r.cls ∧ rd t .calDev F.CAL_LAST_PERSIST = b2n ok ∧ calRunOf t b = none ∧
      t.cal.tables = s.cal.tables ∧ rd t .boot F.FLASH_OPS = min (2 ^ 32 - 1) (rd s .boot F.FLASH_OPS + 1) ∧
      (if ok then (∀ k < 17, ∃ l, ((newestRec t r.cls b k).map fun x => x.2.payload) = some l ∧ (r.cls ≠ 3 ∨ newestRec s 3 b k = none → l = calTable s r.cls b k) ∧
          ∀ c old, r.cls = 3 → newestRec s 3 b k = some (c, old) → ∀ j < 8,
            l.getD j 0 = if r.modes.testBit (j / 4) ∧ j ≠ 7 then (calTable s 3 b k).getD j 0 else old.payload.getD j 0)
       else t.cal.recs = s.cal.recs ∧ rd t .calDev F.FLASH_ERR = min (2 ^ 32 - 1) (rd s .calDev F.FLASH_ERR + 1) ∧ (rd t .calDev F.INT_RAW).testBit 2 = true ∧
         (rd t .calDev F.FLT_CAUSE).testBit 2 = true)) ∧
  (∀ (s : State) (b : Nat) (meas : CalMeas), b < 16 → calRunOf s b = none → ∃ t, exec (.calRunDone b meas) s = .next t ∧ t.regs = s.regs ∧ t.cal.tables = s.cal.tables ∧
    (fwAwake s = true → rd s .lcs F.LCS_STATE_STATE = 0 ∨ rd s .lcs F.LCS_STATE_STATE = 3 → meas.values.length = 17 → (∀ l ∈ meas.values, l.length = 8) →
      ∀ k < 17, ((newestRec t 4 b k).map fun x => x.2.payload) = some (meas.values.getD k [])) ∧
    (rd s .lcs F.LCS_STATE_STATE ≠ 0 → rd s .lcs F.LCS_STATE_STATE ≠ 3 → t = s))

/-- R368, R369, R370, R373–R375, R377–R379, R386, R391, R392: a request of a partition reaches its channel, and the channel's next request is read or written. Conventions of
the model in it: logs 3, 31, 33, 34, 35, 83, 104. -/
def Obligations.MemoryRequests : Prop :=
  (∀ (s : State) (r addr len now fails : Nat) (part : Option Nat) (data : Option (List Nat)), reqPart s r part data.isSome = none →
    exec (.memoryRequest r part addr len data now fails) s = .next s) ∧
  (∀ (s : State) (r : Nat) (part : Option Nat), r < 68 → reqPart s r part true = none ∧ ((engOf s r).work = none → reqPart s r part false = none) ∧
    ∀ w, (engOf s r).work = some w → reqPart s r part false = some (some w.car.part)) ∧
  (∀ (s : State) (n addr h : Nat), homeFrame s n addr = some h →
    (chanOfPart s n addr = if (mapEnt s h).remapped then (mapEnt s h).frame % 16 else addr % 2 ^ 30 / 2 ^ grainLog s n % 16)) ∧
  (∀ (s : State) (r n addr len now fails h : Nat) (part : Option Nat) (data : Option (List Nat)), n < 4 → reqPart s r part data.isSome = some (some n) → homeFrame s n addr = some h →
    (reqClass r = 1 → s.memc.sr ≠ 1) →
    (inQuota s n addr len = true → fails < 2 → ∃ t, exec (.memoryRequest r part addr len data now fails) s = .next t ∧ t.mem = s.mem ∧
      (fails = 0 ∨ s.memc.lines.contains (h / 8) = true → t.regs = s.regs) ∧
      (fails = 1 → s.memc.lines.contains (h / 8) = false → rd t .memDev F.MEM_UE = min (2 ^ 32 - 1) (rd s .memDev F.MEM_UE + 1)) ∧
      (∀ c, chanReqs t c = chanReqs s c ++ if c = chanOfPart s n addr then
        [⟨r, if reqClass r = 1 then reqDeadline s r now else now, now, some n, addr, len, data, s.memc.sr != 0,
          if (tabGet (0, 0) s.lcs.memLat (reqClass r)).1.testBit c then now + (tabGet (0, 0) s.lcs.memLat (reqClass r)).2 else 0⟩] else []) ∧ t.memc.lines.contains (h / 8) = true) ∧
    (inQuota s n addr len = false → exec (.memoryRequest r part addr len data now fails) s = .next s) ∧
    (inQuota s n addr len = true → 2 ≤ fails → s.memc.lines.contains (h / 8) = false → ∃ t, exec (.memoryRequest r part addr len data now fails) s = .next t ∧
      t.memc.chans = s.memc.chans ∧ (rd t .memDev F.INT_RAW).testBit 7 = true ∧ (rd t .memDev F.FLT_CAUSE).testBit 7 = true)) ∧
  (∀ (s : State) (r n addr len now : Nat), r < 68 → (engOf s r).work.isSome = true → s.memc.sr = 1 → ∃ t, exec (.memoryRequest r (some n) addr len none now 0) s = .next t ∧ t.memc.sr = 0 ∧
    (∀ c, ∀ q ∈ chanReqs t c, q.held = false) ∧ (rdb s .memDev F.MEM_SPEED_PENDING = true → (rd t .memDev F.INT_RAW).testBit 11 = true ∧ rdb t .memDev F.MEM_SPEED_PENDING = true ∧
      rd t .memDev F.MEM_SPEED_ABORT = min (2 ^ 32 - 1) (rd s .memDev F.MEM_SPEED_ABORT + 1))) ∧
  (∀ (s : State) (now : Nat) (l : List MemReq) (r : MemReq), bestReq s now l = some r → r ∈ l ∧ ∀ q ∈ l, better s now q r = false) ∧
  (∀ (s : State) (c now n : Nat) (errs E : List Nat) (r : MemReq), nextReq s c now = some r → r.data = none → r.part = some n → n < 4 →
      E = withStored s (reqBlock s r) errs ++ (rsDue s r false).filter (fun l => !(withStored s (reqBlock s r) errs).contains l) →
    (reqPoison s r = false → correctable s c E = true → ∃ t, exec (.memoryReadDone c now errs 0) s = .next t ∧ t.mem = s.mem ∧
      .memData r.reqr (some (readMem s n r.addr r.len)) ∈ t.out ∧ chanReqs t c = (chanReqs s c).erase r ∧
      (E ≠ [] → rd t .memDev F.MEM_CE_BLOCKS = min (2 ^ 32 - 1) (rd s .memDev F.MEM_CE_BLOCKS + 1) ∧
        rd t .memDev F.MEM_CE_SYMBOLS = min (2 ^ 32 - 1) (rd s .memDev F.MEM_CE_SYMBOLS + E.length))) ∧
    ((reqPoison s r = true ∨ correctable s c E = false) → reqClass r.reqr ≠ 1 → (homeFrame s n r.addr).isSome = true → ∃ t, exec (.memoryReadDone c now errs 0) s = .next t ∧ t.mem = s.mem ∧
      .memData r.reqr none ∈ t.out ∧ rd t .memDev F.MEM_UE = min (2 ^ 32 - 1) (rd s .memDev F.MEM_UE + 1) ∧
      rd t (.memPart n) F.MEM_P_UE = min (2 ^ 32 - 1) (rd s (.memPart n) F.MEM_P_UE + 1) ∧ (rd t (.memPart n) F.INT_RAW).testBit 2 = true ∧
      rd t .memDev F.MEM_UE_INFO_CLASS = reqClass r.reqr ∧ rd t .memDev F.MEM_UE_INFO_WRITE = 0 ∧ rd t (.memPart n) F.MEM_P_UE_INFO_BLOCK = r.addr % 1024 / 64)) ∧
  (∀ (s : State) (c : Nat) (errs : List Nat), correctable s c errs = decide (laneCount (laneMask s c) + 2 * (errs.filter fun l => !(laneMask s c).testBit l).length ≤ 8)) ∧
  (∀ (s : State) (c now n h : Nat) (errs E bytes : List Nat) (r : MemReq), nextReq s c now = some r → r.data = some bytes → r.part = some n → n < 4 → r.addr % 64 + bytes.length ≤ 64 →
      E = withStored s (reqBlock s r) errs →
      homeFrame s n r.addr = some h → homeFrame s n (r.addr / 64 * 64) = some h → r.addr + 64 ≤ 2 ^ 35 → ∃ t, exec (.memoryWriteAck c now errs 0) s = .next t ∧ chanReqs t c = (chanReqs s c).erase r ∧
    .burst c (stackFrame s n r.addr) (r.addr % 1024 / 64) (partPlace s n (r.addr / 64 * 64)).2 (codeword (blockBytes t n r.addr)) ∈ t.out ∧
    (∀ i, (hi : i < bytes.length) → memByte t n (r.addr + i) = BitVec.ofNat 8 bytes[i]) ∧ poisonAt t n r.addr = false ∧
    (∀ p a, p < 4 → a < 2 ^ 35 → p ≠ n ∨ a < r.addr / 64 * 64 ∨ r.addr / 64 * 64 + 64 ≤ a → memByte t p a = memByte s p a) ∧
    (∀ a, r.addr / 64 * 64 ≤ a → a < r.addr / 64 * 64 + 64 → a < r.addr ∨ r.addr + bytes.length ≤ a →
      memByte t n a = (if bytes.length < 64 ∧ (reqPoison s r = true ∨ correctable s c E = false) then 0 else memByte s n a)) ∧
    (bytes.length < 64 → reqPoison s r = true ∨ correctable s c E = false → rd t .memDev F.MEM_UE_INFO_WRITE = 1 ∧ rd t .memDev F.MEM_UE_INFO_VALID = 1 ∧
      rd t .memDev F.MEM_UE = min (2 ^ 32 - 1) (rd s .memDev F.MEM_UE + 1))) ∧
  (∀ (s : State) (c now : Nat) (errs : List Nat) (r : MemReq), nextReq s c now = some r → r.part = none → 32 * 2 ^ 30 ≤ r.addr → r.addr < 36 * 2 ^ 30 → r.addr / 2 ^ 30 ≠ 33 →
    (∀ bytes, r.data = some bytes → r.addr % 64 + bytes.length ≤ 64 → ∃ t, exec (.memoryWriteAck c now errs 0) s = .next t ∧
      (∀ i, (hi : i < bytes.length) → stackByte t (r.addr + i) = BitVec.ofNat 8 bytes[i]) ∧ ∀ p a, p < 4 → a < 2 ^ 35 → memByte t p a = memByte s p a) ∧
    (r.data = none → correctable s c (withStored s (reqBlock s r) errs) = true → ∃ t, exec (.memoryReadDone c now errs 0) s = .next t ∧ t.mem = s.mem ∧
      .memData r.reqr (some (readStack s r.addr r.len)) ∈ t.out ∧
      (2 ≤ (withStored s (reqBlock s r) errs).length → reqClass r.reqr ≤ 3 → s.memc.early.length < 64 → r.addr / 64 ∈ t.memc.early))) ∧
  (∀ (s : State) (m word : Nat), MayWrite s m .memDev F.MEM_MAP_Q.off true → ∃ t, exec (.mapLookup m word) s = .next t ∧ t.memc.lookup = true ∧ rd t .memDev F.MEM_MAP_Q = word % 2 ^ 25) ∧
  (∀ (s : State) (fails : Nat) (e : MapEnt), s.memc.lookup = true → e = mapEnt s (rd s .memDev F.MEM_MAP_Q) → e.frame < 2 ^ 26 → e.poison < 2 ^ 16 →
    ∃ t, exec (.mapLookupDone fails) s = .next t ∧ t.memc.lookup = false ∧
    (fails < 2 → bits (rd t .memDev F.MEM_MAP_ENT) 25 0 = e.frame ∧ (rd t .memDev F.MEM_MAP_ENT).testBit 26 = e.remapped ∧ bits (rd t .memDev F.MEM_MAP_ENT) 47 32 = e.poison) ∧
    (2 ≤ fails → (rd t .memDev F.INT_RAW).testBit 7 = true))

/-- R380–R386, R388, R389, R391–R394: temperature, refresh, speed change, scrub and retirement. Conventions of the model in it: logs 31, 34, 36, 37, 104. -/
def Obligations.StackCare : Prop :=
  (∀ (s : State) (x : Int), -128 ≤ x → x < 128 → ∃ t, exec (.stackTempRead (some x)) s = .next t ∧ toSigned 8 (rd t .memDev F.MEM_TEMP_TEMP) = x ∧ rd t .memDev F.MEM_TEMP_VALID = 1 ∧
    (rd t .memDev F.FLT_LIVE).testBit 4 = false ∧
    rdb t .memDev F.MEM_TEMP_HOT_RATE = (if (rd s .memDev F.MEM_REF_CFG_THR : Int) ≤ x then true else if x ≤ (rd s .memDev F.MEM_REF_CFG_THR : Int) - 5 then false
      else rdb s .memDev F.MEM_TEMP_HOT_RATE) ∧
    rdb t .memDev F.MEM_TEMP_SEVERE = (if 95 ≤ x then true else if x ≤ 90 then false else rdb s .memDev F.MEM_TEMP_SEVERE) ∧
    (rdb t .memDev F.MEM_TEMP_HOT_RATE ≠ rdb s .memDev F.MEM_TEMP_HOT_RATE → (rd t .memDev F.INT_RAW).testBit 9 = true) ∧
    (95 ≤ x → (rd t .memDev F.FLT_LIVE).testBit 3 = true) ∧
    (rdb s .memDev F.MEM_TEMP_HOT_RATE = false → rdb t .memDev F.MEM_TEMP_HOT_RATE = true → ∀ c < 16, 0 < owedOf s c → catching t c = true)) ∧
  (∀ (s : State), ∃ t, exec (.stackTempRead none) s = .next t ∧ rd t .memDev F.MEM_TEMP_TEMP = rd s .memDev F.MEM_TEMP_TEMP ∧ rd t .memDev F.MEM_TEMP_VALID = 0 ∧
    (rd t .memDev F.FLT_LIVE).testBit 4 = true ∧ rdb t .memDev F.MEM_TEMP_HOT_RATE = true) ∧
  (∀ (s : State) (c : Nat), s.memc.sr ≠ 2 → (∃ t, exec (.refreshTick c) s = .next t ∧ t.regs = s.regs ∧ owedOf t c = owedOf s c + 1) ∧
    (1 ≤ owedOf s c ∧ (∀ q ∈ chanReqs s c, reqClass q.reqr ≠ 1) ∨ (if rdb s .memDev F.MEM_TEMP_HOT_RATE then 4 else 8) ≤ owedOf s c ∨ (chanReqs s c = [] ∧ -8 < owedOf s c) ∨ catching s c = true →
      ∃ t, exec (.refreshUnit c) s = .next t ∧ owedOf t c = owedOf s c - 1 ∧
        rd t .memDev F.MEM_REF_CATCHUP = (if catching s c = true ∧ owedOf s c ≤ 1 then min (2 ^ 32 - 1) (rd s .memDev F.MEM_REF_CATCHUP + 1) else rd s .memDev F.MEM_REF_CATCHUP)) ∧
    (¬(1 ≤ owedOf s c ∧ ∀ q ∈ chanReqs s c, reqClass q.reqr ≠ 1) → owedOf s c < (if rdb s .memDev F.MEM_TEMP_HOT_RATE then 4 else 8) → (chanReqs s c ≠ [] ∨ owedOf s c ≤ -8) → catching s c = false →
      exec (.refreshUnit c) s = .next s)) ∧
  (∀ (s : State) (m word : Nat), MayWrite s m .memDev F.MEM_SPEED_TARGET.off true → ∃ t, exec (.speedTargetWrite m word) s = .next t ∧ rd t .memDev F.MEM_SPEED_TARGET = bits word 0 0 ∧
    rdb t .memDev F.MEM_SPEED_PENDING = decide (bits word 0 0 ≠ rd s .memDev F.MEM_SPEED_ACTIVE)) ∧
  (∀ (s : State), rdb s .memDev F.MEM_SPEED_PENDING = true → s.memc.sr = 0 →
    ((∀ i < 64, siteState s i ≠ 2 ∧ siteState s i ≠ 3) → ∃ t, exec (.speedChangeEntry false) s = .next t ∧ t.memc.sr = 1 ∧ t.regs = s.regs) ∧
    (∀ i < 64, siteState s i = 2 ∨ siteState s i = 3 → exec (.speedChangeEntry false) s = .next s)) ∧
  (∀ (s : State), s.memc.srSleep = false → (s.memc.sr = 1 → ∃ t, exec (.speedChangeEntry true) s = .next t ∧ t.memc.sr = 2 ∧ (∀ c < 16, owedOf t c ≤ 0) ∧ t.mem = s.mem ∧
      ((List.range 16).filter (catching s) ≠ [] →
        rd t .memDev F.MEM_REF_CATCHUP = min (2 ^ 32 - 1) (rd s .memDev F.MEM_REF_CATCHUP + ((List.range 16).filter (catching s)).length))) ∧
    (s.memc.sr = 2 → ∃ t, exec .speedDone s = .next t ∧ t.memc.sr = 0 ∧ rd t .memDev F.MEM_SPEED_ACTIVE = rd s .memDev F.MEM_SPEED_TARGET ∧ rd t .memDev F.MEM_SPEED_PENDING = 0 ∧
      (rd t .memDev F.INT_RAW).testBit 10 = true ∧ (∀ c, ∀ q ∈ chanReqs t c, q.held = false) ∧ t.mem = s.mem)) ∧
  (∀ (s : State) (errs : List Nat), scrubRuns s = true → s.memc.early = [] → ∃ t, exec (.scrubRead errs) s = .next t ∧ t.mem = s.mem ∧
    (if s.memc.scrubBlk < 15 then t.memc.scrubBlk = s.memc.scrubBlk + 1 ∧ rd t .memDev F.MEM_SCRUB_POS = rd s .memDev F.MEM_SCRUB_POS else t.memc.scrubBlk = 0 ∧
      (rd s .memDev F.MEM_SCRUB_POS + 1 < 36 * 2 ^ 20 → rd t .memDev F.MEM_SCRUB_POS = rd s .memDev F.MEM_SCRUB_POS + 1) ∧
      (rd s .memDev F.MEM_SCRUB_POS + 1 = 36 * 2 ^ 20 → rd t .memDev F.MEM_SCRUB_POS = 0 ∧ rd t .memDev F.MEM_SCRUB_PASSES = (rd s .memDev F.MEM_SCRUB_PASSES + 1) % 2 ^ 32)) ∧
    (∀ h c E, homeOfFrame s (rd s .memDev F.MEM_SCRUB_POS) = some h → ownerOfFrame s h = none → s.memc.scrubBlk < 16 → (mapEnt s h).poison.testBit s.memc.scrubBlk = false →
        c = (stackPlace s (rd s .memDev F.MEM_SCRUB_POS * 1024 + 64 * s.memc.scrubBlk)).1 → E = withStored s (16 * rd s .memDev F.MEM_SCRUB_POS + s.memc.scrubBlk) errs →
      (correctable s c E = false → (mapEnt t h).poison.testBit s.memc.scrubBlk = true ∧ rd t .memDev F.MEM_UE = min (2 ^ 32 - 1) (rd s .memDev F.MEM_UE + 1) ∧
        rd t .memDev F.MEM_UE_INFO_RESERVED = 1 ∧ h ∈ t.memc.cands) ∧
      (correctable s c E = true → E ≠ [] → rd t .memDev F.MEM_CE_BLOCKS = min (2 ^ 32 - 1) (rd s .memDev F.MEM_CE_BLOCKS + 1) ∧ (3 ≤ E.length → h ∈ t.memc.cands)))) ∧
  (∀ (s : State) (h : Nat), h ∈ s.memc.approved → s.memc.copying = none → frameBusy s h = false → s.memc.sr = 0 →
    (rd s .memDev F.MEM_SPARES ≠ 0 → ∃ t, exec (.retirementStart h) s = .next t ∧ t.memc.copying = some (h, 33 * 2 ^ 20 + (2 ^ 20 - rd s .memDev F.MEM_SPARES))) ∧
    (rd s .memDev F.MEM_SPARES = 0 → ∃ t, exec (.retirementStart h) s = .next t ∧ t.memc.copying = none ∧ (rd t .memDev F.INT_RAW).testBit 6 = true)) ∧
  (∀ (s : State) (h f bad : Nat) (row : Option Nat), s.memc.copying = some (h, f) → frameBusy s h = true → exec (.retirementDone bad row) s = .next s) ∧
  (∀ (s : State) (h f bad : Nat) (row : Option Nat), s.memc.copying = some (h, f) → rdb s .memDev F.MEM_TEMP_SEVERE = false → memServes s 4 = true → frameBusy s h = false →
      rd s .memDev F.MEM_SPARES ≠ 0 →
    ∃ t, exec (.retirementDone bad row) s = .next t ∧ t.memc.copying = none ∧ mapEnt t h = ⟨f, true, (mapEnt s h).poison ||| bad % 2 ^ 16⟩ ∧ t.mem = s.mem ∧
      rd t .memDev F.MEM_RETIRED = min (2 ^ 32 - 1) (rd s .memDev F.MEM_RETIRED + 1) ∧ rd t .memDev F.MEM_SPARES = rd s .memDev F.MEM_SPARES - 1) ∧
  (∀ (s : State) (n : Nat), n < 4 → (tabGet none s.memc.clearing n).isSome = true → rdb s .memDev F.MEM_TEMP_SEVERE = false → memServes s 4 = true → ∃ t, exec (.clearDone n) s = .next t ∧
    quotaGib t n = rd s .hifDev (quotaFld n) ∧ (rd t .memDev F.INT_RAW).testBit 12 = true ∧ (rd t (.memPart n) F.INT_RAW).testBit 12 = true)

/-- R372, R399, R403, R405, R406: the partition map, and a port's window onto pattern memory. Conventions of the model in it: logs 31, 59, 66, 104, 110. -/
def Obligations.PartitionMap : Prop :=
  (∀ (s : State) (m word : Nat), MayWrite s m .hifDev F.HIF_QUOTA_0.off true → hifSafe s = false →
    (quotaBad s word = true → ∃ t, exec (.quotaWrite m word) s = .next t ∧ t.memc = s.memc ∧ t.mem = s.mem ∧ (∀ n < 4, rd t .hifDev (quotaFld n) = rd s .hifDev (quotaFld n)) ∧
      (rd t .hifDev F.FLT_CAUSE).testBit 1 = true) ∧
    (32 < quotaWord word 0 + quotaWord word 1 + quotaWord word 2 + quotaWord word 3 → quotaBad s word = true) ∧
    (∀ n < 4, (0 < quotaWord word n ∧ portExists s n = false) ∨ (quotaWord word n < rd s .hifDev (quotaFld n) ∧ partBusy s n = true) → quotaBad s word = true) ∧
    (quotaBad s word = false → ∃ t, exec (.quotaWrite m word) s = .next t ∧ ∀ n < 4, rd t .hifDev (quotaFld n) = quotaWord word n ∧
      quotaGib t n = min (quotaGib s n) (quotaWord word n) ∧
      ∀ a, a < 2 ^ 35 → memByte t n a = if quotaWord word n < rd s .hifDev (quotaFld n) ∧ quotaWord word n * 2 ^ 30 ≤ a then 0 else memByte s n a)) ∧
  (∀ (s : State) (m word : Nat) (hi : Bool) (f : Fld), f = (if hi then F.HIF_BANK_OWN_HI else F.HIF_BANK_OWN_LO) → MayWrite s m .hifDev f.off true → hifSafe s = false → word < 2 ^ 32 →
    ∀ bank : Nat → Nat, bank = (fun j => if hi then 8 + j else j) → ∀ nib : Nat → Nat → Nat, nib = (fun w j => bits w (4 * j + 3) (4 * j)) →
    ((∀ j < 8, nib (rd s .hifDev f) j ≠ nib word j → (nib word j < 4 ∨ nib word j = 15) ∧ sitesOfBank s (bank j) = [] ∧ (nib word j < 4 → portExists s (nib word j) = true)) →
      ∃ t, exec (.bankOwnerChange m hi word) s = .next t ∧ rd t .hifDev f = word ∧
        ∀ j < 8, nib (rd s .hifDev f) j ≠ nib word j → bankSafe t (bank j) = true ∧ t.hif.moving.contains (bank j) = true ∧ rd t .hifDev F.HIF_DEV_STAT_MOVING = 1) ∧
    (∀ j < 8, nib (rd s .hifDev f) j ≠ nib word j → (4 ≤ nib word j ∧ nib word j < 15) ∨ sitesOfBank s (bank j) ≠ [] ∨ (nib word j < 4 ∧ portExists s (nib word j) = false) →
      ∃ t, exec (.bankOwnerChange m hi word) s = .next t ∧ rd t .hifDev f = rd s .hifDev f ∧ t.hif = s.hif ∧ t.pin = s.pin ∧ (rd t .hifDev F.FLT_CAUSE).testBit 1 = true)) ∧
  (∀ (s : State) (b : Nat), b < 16 → s.hif.moving.contains b = true → ∃ t, exec (.bankMoveDone b) s = .next t ∧ t.hif.moving = s.hif.moving.erase b ∧
    rdb t .hifDev F.HIF_DEV_STAT_MOVING = !(s.hif.moving.erase b).isEmpty ∧ (∀ k, timingSet t b k = setReset) ∧ (sringOf t b).queue = [] ∧
    rdb t (.bnk b) F.BLK_CTRL_EN = s.pwr.manifest.testBit b ∧
    rdb t (.bnk b) F.BLK_STAT_SAFE = s.pat.halted ∧
    ∀ f : Fld, f.off < 0x10000 → f.lo < 64 → f.num < 1024 → f.num ∉ [F.BLK_STAT_SAFE.num, F.BNK_STAT_SAFE.num, F.BNK_SPARE_ACTIVE.num, F.EDG_SPARE_ACTIVE.num, F.BLK_CTRL_EN.num,
        F.BLK_STAT_ON_PENDING.num, F.BLK_STAT_OFF_PENDING.num] → rd t (.bnk b) f = f.reset % 2 ^ f.width) ∧
  (∀ (s : State) (m n word : Nat), n < 4 → word < 128 → 28 ≤ barLog s n → MayWrite s m (.hifPart n) F.HIF_P_WIN.off false → ∃ t, exec (.hifPWinWrite m n word) s = .next t ∧
    if word % 2 ^ (barLog s n - 28) = 0 then rd t (.hifPart n) F.HIF_P_WIN = word
    else rd t (.hifPart n) F.HIF_P_WIN = rd s (.hifPart n) F.HIF_P_WIN ∧ (rd t (.hifPart n) F.FLT_CAUSE).testBit 1 = true) ∧
  (∀ (s : State) (n k : Nat), 28 ≤ k → k ≤ 35 → portExists s n = true → ∃ t, exec (.bar2Resize n k) s = .next t ∧ barLog t n = k ∧
    rd t (.hifPart n) F.HIF_P_WIN = rd s (.hifPart n) F.HIF_P_WIN / 2 ^ (k - 28) * 2 ^ (k - 28)) ∧
  (∀ (s : State) (n x a : Nat) (data : List Nat), n < 4 → portExists s n = true → domOn s 22 = true → Unheld s n → barWaits s n x data.length = false →
      a = rd s (.hifPart n) F.HIF_P_WIN * 2 ^ 28 + x → x + data.length ≤ 2 ^ barLog s n →
    (∃ t, exec (.bar2Write n x data true) s = .next t ∧ t.mem = s.mem ∧ rd t (.hifPart n) F.POISON_RX = min (2 ^ 32 - 1) (rd s (.hifPart n) F.POISON_RX + 1)) ∧
    (hostQuota s n a data.length = false → ∃ t, exec (.bar2Write n x data false) s = .next t ∧ t.mem = s.mem ∧
      rd t (.hifPart n) F.OOR_ACCESS = min (2 ^ 32 - 1) (rd s (.hifPart n) F.OOR_ACCESS + 1)) ∧
    (hostQuota s n a data.length = true → a + data.length ≤ 2 ^ 35 → ∃ t, exec (.bar2Write n x data false) s = .next t ∧
      (∀ i, (hi : i < data.length) → memByte t n (a + i) = BitVec.ofNat 8 data[i]) ∧
      ∀ p c, p < 4 → c < 2 ^ 35 → p ≠ n ∨ ((c < a ∨ a + data.length ≤ c) ∧ poisonAt s n (c / 64 * 64) = false) → memByte t p c = memByte s p c)) ∧
  (∀ (s : State) (n x a len : Nat) (ue : List Nat), n < 4 → portExists s n = true → domOn s 22 = true → Unheld s n → barWaits s n x len = false →
      a = rd s (.hifPart n) F.HIF_P_WIN * 2 ^ 28 + x → 0 < len → a % 64 + len ≤ 64 → x + len ≤ 2 ^ barLog s n →
    (hostQuota s n a len = false → ∃ t, exec (.bar2Read n x len ue) s = .next t ∧ t.out = s.out ++ [.bar2 n a len (some 0)] ∧ t.mem = s.mem ∧
      rd t (.hifPart n) F.OOR_ACCESS = min (2 ^ 32 - 1) (rd s (.hifPart n) F.OOR_ACCESS + 1)) ∧
    (hostQuota s n a len = true → poisonAt s n (a / 64 * 64) = false → ue.contains (a / 64) = false → ∃ t, exec (.bar2Read n x len ue) s = .next t ∧
      t.out = s.out ++ [.bar2 n a len (some (readMem s n a len))] ∧ t.mem = s.mem) ∧
    (hostQuota s n a len = true → (homeFrame s n (a / 64 * 64)).isSome = true → poisonAt s n (a / 64 * 64) = true ∨ ue.contains (a / 64) = true → ∃ t, exec (.bar2Read n x len ue) s = .next t ∧
      .bar2 n a len none ∈ t.out ∧ t.mem = s.mem ∧ rd t .memDev F.MEM_UE = min (2 ^ 32 - 1) (rd s .memDev F.MEM_UE + 1))) ∧
  (∀ (s : State) (n x len : Nat) (ue data : List Nat) (ep : Bool), n < 4 →
    (barWaits s n x len = false ↔ memServes s 3 = true ∧ ∀ h f, s.memc.copying = some (h, f) → ∀ blk ∈ blocksOf (barAddr s n x) len, homeFrame s n blk ≠ some h) ∧
    (Unheld s n → barWaits s n x len = false → 2 ^ barLog s n < x + len → exec (.bar2Read n x len ue) s = .next s) ∧
    (Unheld s n → barWaits s n x data.length = false → 2 ^ barLog s n < x + data.length → exec (.bar2Write n x data ep) s = .next s) ∧
    (hostThere s n = true → hostFree s n = false ∨ (barWaits s n x len = true ∧ s.bus.replay = false) →
      exec (.bar2Read n x len ue) s = .next { s with bus := { s.bus with held := s.bus.held ++ [(n, .bar2Read n x len ue)] } }) ∧
    (hostThere s n = true → hostFree s n = false ∨ (barWaits s n x data.length = true ∧ s.bus.replay = false) →
      exec (.bar2Write n x data ep) s = .next { s with bus := { s.bus with held := s.bus.held ++ [(n, .bar2Write n x data ep)] } }))

/-- R410–R413, R415–R418, R427, R439, R461: descriptor rings, streaming rings, DMA errors, MSI-X, the interrupt registers, partition reset and links. Conventions of the model
in it: logs 27, 66, 67, 104, 110. -/
def Obligations.RingsAndPorts : Prop :=
  (∀ (s : State) (n r word page pages : Nat), n < 4 → r < 16 → hostLive s n = true → page = 2 ^ 16 * 2 ^ bits word 4 2 → pages = bits word 16 8 →
    (bits word 4 2 ≠ 7 → rdb s (.bar4 n) (F.RING_STAT_BOUND r) = false → (word.testBit 0 = true → 2 ≤ pages ∧ pages ≤ 256 ∧ ringBase s n r % page = 0 ∧
        hostQuota s n (ringBase s n r) (pages * page) = true) → ∃ t, exec (.ringCtrlWrite n r word) s = .next t ∧ rdb t (.bar4 n) (F.RING_CTRL_EN r) = word.testBit 0 ∧
      rd t (.bar4 n) (F.RING_CTRL_MODE r) = bits word 1 1 ∧ rd t (.bar4 n) (F.RING_CTRL_PAGE r) = bits word 4 2 ∧ rd t (.bar4 n) (F.RING_CTRL_NPAGES r) = pages ∧
      (if word.testBit 0 = true ∧ rdb s (.bar4 n) (F.RING_CTRL_EN r) = false then rd t (.bar4 n) (F.RING_WR r) = 0 ∧ rd t (.bar4 n) (F.RING_RD r) = 0
       else rd t (.bar4 n) (F.RING_WR r) = rd s (.bar4 n) (F.RING_WR r) ∧ rd t (.bar4 n) (F.RING_RD r) = rd s (.bar4 n) (F.RING_RD r)) ∧
      (ringFree s n r < rd s (.bar4 n) (F.RING_LOW r) * 1024 → rd s (.bar4 n) (F.RING_LOW r) * 1024 ≤ ringFree t n r → (rd t (.hifPart n) F.INT_RAW).testBit (8 + r) = true)) ∧
    (bits word 4 2 = 7 ∨ rdb s (.bar4 n) (F.RING_STAT_BOUND r) = true ∨ (word.testBit 0 = true ∧ (pages < 2 ∨ 256 < pages ∨ ringBase s n r % page ≠ 0 ∨
        hostQuota s n (ringBase s n r) (pages * page) = false)) → ∃ t, exec (.ringCtrlWrite n r word) s = .next t ∧
      rd t (.bar4 n) (F.RING_CTRL_EN r) = rd s (.bar4 n) (F.RING_CTRL_EN r) ∧ rd t (.bar4 n) (F.RING_CTRL_NPAGES r) = rd s (.bar4 n) (F.RING_CTRL_NPAGES r) ∧
      (rd t (.hifPart n) F.FLT_CAUSE).testBit 1 = true)) ∧
  (∀ (s : State) (n r v : Nat), n < 4 → r < 16 → v < 2 ^ 64 → hostLive s n = true → ∃ t, exec (.ringWrWrite n r v) s = .next t ∧
    if rdb s (.bar4 n) (F.RING_CTRL_MODE r) then rd t (.bar4 n) (F.RING_WR r) = rd s (.bar4 n) (F.RING_WR r) ∧
      rd t (.hifPart n) F.WRITE_LOCKED = min (2 ^ 32 - 1) (rd s (.hifPart n) F.WRITE_LOCKED + 1)
    else if ringDiff (rd s (.bar4 n) (F.RING_WR r)) (rd s (.bar4 n) (F.RING_RD r)) ≤ ringDiff v (rd s (.bar4 n) (F.RING_RD r)) ∧ v % 4 = 0 ∧
        ringDiff v (rd s (.bar4 n) (F.RING_RD r)) ≤ ringSize s n r then rd t (.bar4 n) (F.RING_WR r) = v
    else rd t (.bar4 n) (F.RING_WR r) = rd s (.bar4 n) (F.RING_WR r) ∧ (rd t (.hifPart n) F.INT_RAW).testBit 25 = true) ∧
  (∀ (s : State) (n r len : Nat), n < 4 → r < 16 → hostLive s n = true → ∃ t, exec (.ringFetchPush n r len) s = .next t ∧
    if len ≠ 0 ∧ len % 64 = 0 ∧ len ≤ 2 ^ 16 * 2 ^ rd s (.bar4 n) (F.RING_CTRL_PAGE r) ∧ (fetchOf s n r).length < 64 ∧ tabGet 0 s.hif.fetchLow (16 * n + r) = 0 then
      fetchOf t n r = fetchOf s n r ++ [⟨rd s (.bar4 n) (F.RING_FETCH_ADDR r) * 64, len⟩] ∧ rd t (.bar4 n) (F.RING_STAT_FQ_LEVEL r) = (fetchOf s n r).length + 1
    else fetchOf t n r = fetchOf s n r ∧ (rd t (.hifPart n) F.INT_RAW).testBit 25 = true) ∧
  (∀ (s : State) (n r : Nat) (e : FetchEnt) (rest : List FetchEnt), n < 4 → r < 16 → fetchOf s n r = e :: rest →
    (fetching s n r = false → rdb s (.bar4 n) (F.RING_CTRL_EN r) = true → rdb s (.bar4 n) (F.RING_CTRL_MODE r) = true →
        ringDiff (rd s (.bar4 n) (F.RING_WR r)) (rd s (.bar4 n) (F.RING_RD r)) + e.len ≤ ringSize s n r → ∃ t, exec (.ringFetchStart n r) s = .next t ∧ fetching t n r = true ∧ t.mem = s.mem) ∧
    (∀ data : List Nat, fetching s n r = true → data.length = e.len → e.len ≤ ringSize s n r → ringBase s n r + ringSize s n r ≤ 2 ^ 35 → memServes s 3 = true →
      ∃ t, exec (.ringFetchDone n r data) s = .next t ∧ fetchOf t n r = rest ∧ fetching t n r = false ∧ rd t (.bar4 n) (F.RING_WR r) = (rd s (.bar4 n) (F.RING_WR r) + e.len) % 2 ^ 64 ∧
        ∀ i, (hi : i < data.length) → memByte t n (ringBase s n r + (rd s (.bar4 n) (F.RING_WR r) + i) % ringSize s n r) = BitVec.ofNat 8 data[i])) ∧
  (∀ (s : State) (n k : Nat) (stream : Bool), n < 4 → k < 16 → (stream = false → k < 4) → ∃ t, exec (.dmaErr n stream k) s = .next t ∧ t.mem = s.mem ∧
    (rd t (.hifPart n) F.INT_RAW).testBit 7 = true ∧ (rd t (.hifPart n) F.FLT_CAUSE).testBit 2 = true ∧
    if stream then rd t (.bar4 n) (F.RING_CTRL_EN k) = 0 ∧ rd t (.bar4 n) (F.RING_STAT_ERROR k) = 1 else rd t (.bar4 n) (F.DESC_CTRL_EN k) = 0 ∧ rd t (.bar4 n) (F.DESC_STAT_ERROR k) = 1) ∧
  (∀ (s : State) (n v : Nat), n < 4 → v < 256 → hostLive s n = true → ∃ t, exec (.msixUnmask n v) s = .next t ∧
    (rd t (.bar4 n) (F.MSIX_TABLE (4 * v + 3))).testBit 0 = false ∧ (rd t (.bar4 n) (F.MSIX_PBA (v / 32))).testBit (v % 32) = false ∧
    t.out = s.out ++ if (rd s (.bar4 n) (F.MSIX_PBA (v / 32))).testBit (v % 32) then [.msix n v] else []) ∧
  (∀ (s : State) (m addr off word : Nat) (p : Page), pageOfAddr addr = some (p, off) → word < 2 ^ 32 →
    (MayWrite s m p F.INT_RAW.off false → ∃ t, exec (.intRawClear m addr word) s = .next t ∧ ∀ b, (rd t p F.INT_RAW).testBit b = ((rd s p F.INT_RAW).testBit b && !word.testBit b)) ∧
    (MayWrite s m p F.INT_SET.off false → ∃ t, exec (.intSetWrite m addr word) s = .next t ∧ ∀ b, (rd t p F.INT_RAW).testBit b = ((rd s p F.INT_RAW).testBit b || (word &&& intBits p).testBit b))) ∧
  (∀ (s : State) (n cause : Nat), n < 4 → cause < 3 → ∃ t, exec (.partitionReset n cause) s = .next t ∧ (rd t .hifDev F.HIF_DEV_STAT_PRESET).testBit n = true ∧
    (∀ i < 64, (siteOf s i).owner = some n → (siteOf t i).owner = none ∧ siteState t i = 0) ∧ rd t (.bar4 n) F.MBX_CMD_PROD = rd s (.bar4 n) F.MBX_CMD_CONS ∧
    rd t (.bar4 n) F.MBX_RSP_CONS = rd s (.bar4 n) F.MBX_RSP_PROD ∧ (∀ d < 4, rd t (.bar4 n) (F.DESC_CTRL_EN d) = 0) ∧
    (∀ r < 16, rd t (.bar4 n) (F.RING_CTRL_EN r) = 0 ∧ fetchOf t n r = []) ∧ (∀ k < 4, rd t .hifDev (quotaFld k) = rd s .hifDev (quotaFld k)) ∧
    (∀ b, bankOwner t b = bankOwner s b) ∧ (cause ≠ 1 → (rd t .hifDev F.HIF_DEV_STAT_PORT_UP).testBit n = false)) ∧
  (∀ (s : State) (n : Nat), n < 4 → (rd s .hifDev F.HIF_DEV_STAT_PRESET).testBit n = true → ∃ t, exec (.partitionResetDone n) s = .next t ∧ t.mem = s.mem ∧
    (rd t .hifDev F.HIF_DEV_STAT_PRESET).testBit n = false ∧ (∀ b, bankOwner t b = bankOwner s b) ∧ (∀ k < 4, rd t .hifDev (quotaFld k) = rd s .hifDev (quotaFld k)) ∧
    barLog t n = 30 ∧ (∀ b < 16, bankOwner s b = n → ∀ k, timingSet t b k = setReset) ∧ rd t (.timPart n) F.TIM_DTB_SEC_LO = rd s (.timPart n) F.TIM_DTB_SEC_LO ∧
    ∀ f : Fld, f.off < 0x100000 → f.lo < 64 → f.num < 1024 → rd t (.bar4 n) f = f.reset % 2 ^ f.width) ∧
  (∀ (s : State) (n : Nat), n < 4 → domOn s 22 = true → portExists s n = true → (s.pwr.stage = .run ∨ (s.pwr.stage = .recovery ∧ n = 0)) →
    (∃ t, exec (.pcieLinkTrainingStart ⟨n, true⟩) s = .next t ∧ tabGet false t.hif.training n = true ∧ t.regs = s.regs) ∧
    exec (.pcieLinkTrainingStart ⟨n, false⟩) s = .next s) ∧
  (∀ (s : State) (n speed width : Nat), n < 4 → tabGet false s.hif.training n = true →
    (1 ≤ speed → speed ≤ portSpeed s → width ≤ portWidth s → ∃ t, exec (.dataLinkUp n speed width) s = .next t ∧ tabGet false t.hif.training n = false ∧
      (rd t .hifDev F.HIF_DEV_STAT_PORT_UP).testBit n = true ∧ rd t (.hifPart n) F.HIF_P_LINK_SPEED = speed ∧ rd t (.hifPart n) F.HIF_P_LINK_WIDTH = width ∧
      t.out = s.out ++ [identityOf s n]) ∧
    (portSpeed s < speed ∨ portWidth s < width → exec (.dataLinkUp n speed width) s = .next s)) ∧
  (∀ (s : State) (n d word size v : Nat), n < 4 → d < 4 → hostLive s n = true → size = bits word 12 8 → v < 2 ^ 32 →
    (4 ≤ size → size ≤ 16 → rd s (.bar4 n) (F.DESC_CTRL_EN d) = 0 → ∃ t, exec (.descCtrlWrite n d word) s = .next t ∧ rd t (.bar4 n) (F.DESC_CTRL_EN d) = word % 2 ∧
      rd t (.bar4 n) (F.DESC_CTRL_SIZE d) = size ∧ (word.testBit 0 = true → ∀ f ∈ [F.DESC_PROD d, F.DESC_CONS d, F.DESC_CPL_PROD d, F.DESC_CPL_CONS d], rd t (.bar4 n) f = 0)) ∧
    (4 ≤ size → size ≤ 16 → rd s (.bar4 n) (F.DESC_CTRL_EN d) = 1 → size = rd s (.bar4 n) (F.DESC_CTRL_SIZE d) → ∃ t, exec (.descCtrlWrite n d word) s = .next t ∧
      rd t (.bar4 n) (F.DESC_CTRL_EN d) = word % 2 ∧
      ∀ f ∈ [F.DESC_CTRL_SIZE d, F.DESC_PROD d, F.DESC_CONS d, F.DESC_CPL_PROD d, F.DESC_CPL_CONS d], rd t (.bar4 n) f = rd s (.bar4 n) f) ∧
    (size < 4 ∨ 16 < size ∨ (rd s (.bar4 n) (F.DESC_CTRL_EN d) = 1 ∧ size ≠ rd s (.bar4 n) (F.DESC_CTRL_SIZE d)) → ∃ t, exec (.descCtrlWrite n d word) s = .next t ∧
      rd t (.bar4 n) (F.DESC_CTRL_EN d) = rd s (.bar4 n) (F.DESC_CTRL_EN d) ∧ rd t (.bar4 n) (F.DESC_CTRL_SIZE d) = rd s (.bar4 n) (F.DESC_CTRL_SIZE d) ∧
      (rd t (.hifPart n) F.FLT_CAUSE).testBit 1 = true) ∧
    (cntDiff v (rd s (.bar4 n) (F.DESC_CONS d)) ≤ 2 ^ rd s (.bar4 n) (F.DESC_CTRL_SIZE d) → ∃ t, exec (.descProdWrite n d v) s = .next t ∧ rd t (.bar4 n) (F.DESC_PROD d) = v ∧
      ∀ q (g : Fld), g.num % 1024 ≠ (F.DESC_PROD 0).num → rd t q g = rd s q g) ∧
    (2 ^ rd s (.bar4 n) (F.DESC_CTRL_SIZE d) < cntDiff v (rd s (.bar4 n) (F.DESC_CONS d)) → ∃ t, exec (.descProdWrite n d v) s = .next t ∧
      rd t (.bar4 n) (F.DESC_PROD d) = rd s (.bar4 n) (F.DESC_PROD d) ∧ (rd t (.hifPart n) F.INT_RAW).testBit 25 = true) ∧
    (cntDiff v (rd s (.bar4 n) (F.DESC_CPL_CONS d)) ≤ cntDiff (rd s (.bar4 n) (F.DESC_CPL_PROD d)) (rd s (.bar4 n) (F.DESC_CPL_CONS d)) → ∃ t, exec (.descCplConsWrite n d v) s = .next t ∧
      rd t (.bar4 n) (F.DESC_CPL_CONS d) = v) ∧
    (cntDiff (rd s (.bar4 n) (F.DESC_CPL_PROD d)) (rd s (.bar4 n) (F.DESC_CPL_CONS d)) < cntDiff v (rd s (.bar4 n) (F.DESC_CPL_CONS d)) → ∃ t, exec (.descCplConsWrite n d v) s = .next t ∧
      rd t (.bar4 n) (F.DESC_CPL_CONS d) = rd s (.bar4 n) (F.DESC_CPL_CONS d) ∧ (rd t (.hifPart n) F.INT_RAW).testBit 25 = true))

/-- R402, R422, R424, R428, R431, R432, R435–R437, Tables 16-3 and 16-5: register accesses by address. Conventions of the model in it: logs 21, 22, 24, 25, 26, 110. -/
def Obligations.RegisterAccesses : Prop :=
  (∀ (s : State) (m a word : Nat) (p : Page) (x : HoldMeas), word < 2 ^ 32 →
    (pageOfAddr a = some (p, F.INT_EN.off) → MayWriteAt s m p F.INT_EN.off → ∃ t, exec (.registerWrite m a 4 15 word x) s = .next t ∧ rd t p F.INT_EN = word &&& intBits p ∧ rd t p F.INT_RAW = rd s p F.INT_RAW) ∧
    (pageOfAddr a = some (p, F.FLT_THR.off) → MayWriteAt s m p F.FLT_THR.off → ∃ t, exec (.registerWrite m a 4 15 word x) s = .next t ∧ rd t p F.FLT_THR = word % 2 ^ 16 ∧
      t.out = s.out ∧ t.mem = s.mem) ∧
    (pageOfAddr a = some (p, F.FLT_ACTION.off) → MayWriteAt s m p F.FLT_ACTION.off → ∃ t, exec (.registerWrite m a 4 15 word x) s = .next t ∧
      rd t p F.FLT_ACTION = if word % 4 = 3 then rd s p F.FLT_ACTION else word % 4)) ∧
  (∀ (s : State) (m a word : Nat) (x : HoldMeas), a = pageBase .memDev + F.MEM_REF_CFG_THR.off → MayWriteAt s m .memDev F.MEM_REF_CFG_THR.off → ∃ t, exec (.registerWrite m a 4 15 word x) s = .next t ∧
    if 80 ≤ word % 256 ∧ word % 256 ≤ 90 then rd t .memDev F.MEM_REF_CFG_THR = word % 256
    else rd t .memDev F.MEM_REF_CFG_THR = rd s .memDev F.MEM_REF_CFG_THR ∧ (rd t .memDev F.FLT_CAUSE).testBit 1 = true) ∧
  (∀ (s : State) (m a word : Nat) (x : HoldMeas),
    (m < 4 → hostThere s m = true → hostFree s m = false → exec (.registerWrite m a 4 15 word x) s = .next { s with bus := { s.bus with held := s.bus.held ++ [(m, .registerWrite m a 4 15 word x)] } }) ∧
    (a % 4 = 0 → locate m a = none → Unheld s m → ∃ t, exec (.registerWrite m a 4 15 word x) s = .next t ∧
      (m < 4 → hostLive s m = true → rdb s .boot F.BOOT_STAT_READY = true → rd t (.hifPart m) F.BAD_ACCESS = min (2 ^ 32 - 1) (rd s (.hifPart m) F.BAD_ACCESS + 1)) ∧
      (m < 4 → hostLive s m = false ∨ rdb s .boot F.BOOT_STAT_READY = false → t = s) ∧ t.mem = s.mem ∧
      ∀ q (g : Fld), g.num % 1024 ≠ F.BAD_ACCESS.num → rd t q g = rd s q g) ∧
    (∀ p off, locate m a = some (p, off) → off % 4 = 0 → isCpl p off = false → (off < 0x800 ∨ isCpl p (off - 0x800) = false) → hostServed s m p off = true → pageOn s p = true →
      mayWriteAt s m p off = false → ∃ t, exec (.registerWrite m a 4 15 word x) s = .next t ∧
      (m < 4 → rd t (.hifPart m) F.NONOWN_WR = min (2 ^ 32 - 1) (rd s (.hifPart m) F.NONOWN_WR + 1)) ∧ t.mem = s.mem ∧
      ∀ q (g : Fld), g.num % 1024 ≠ F.NONOWN_WR.num → rd t q g = rd s q g) ∧
    (∀ p off, locate m a = some (p, off) → hostServed s m p off = false → Unheld s m → a % 4 = 0 → off % 4 = 0 → exec (.registerWrite m a 4 15 word x) s = .next s)) ∧
  (∀ (s : State) (m a len be word : Nat) (x : HoldMeas), Unheld s m →
    (8 < a % 8 + len → ∃ t u, exec (.registerWrite m a len be word x) s = .next t ∧ exec (.lowWordRead m a len) s = .next u ∧ t.out = s.out ++ [.completerAbort m] ∧
      u.out = s.out ++ [.completerAbort m] ∧ t.mem = s.mem ∧ u.mem = s.mem ∧
      (m < 4 → ∀ v ∈ [t, u], rd v (.hifPart m) F.BAD_ACCESS = min (2 ^ 32 - 1) (rd s (.hifPart m) F.BAD_ACCESS + 1)) ∧
      ∀ v ∈ [t, u], ∀ q (g : Fld), g.num % 1024 ≠ F.BAD_ACCESS.num → rd v q g = rd s q g) ∧
    (a % 8 + len ≤ 8 → be ≠ 2 ^ len - 1 ∨ (len ≠ 8 ∧ (len ≠ 4 ∨ a % 4 ≠ 0)) → ∃ t, exec (.registerWrite m a len be word x) s = .next t ∧ t.out = s.out ∧ t.mem = s.mem ∧
      (m < 4 → (∃ p off, locate m a = some (p, off) ∧ hostServed s m p off = true) ∨ (locate m a = none ∧ hostLive s m = true ∧ rdb s .boot F.BOOT_STAT_READY = true) →
        rd t (.hifPart m) F.BAD_ACCESS = min (2 ^ 32 - 1) (rd s (.hifPart m) F.BAD_ACCESS + 1)) ∧
      (∀ p off, locate m a = some (p, off) → hostServed s m p off = false → t = s) ∧
      ∀ q (g : Fld), g.num % 1024 ≠ F.BAD_ACCESS.num → rd t q g = rd s q g)) ∧
  (∀ (s : State) (m a off v : Nat) (p : Page), locate m a = some (p, off) → isCpl p off = true → MayWrite s m p off true →
    ∃ t, exec (.complementPairOpen m a v) s = .next t ∧ openPair t m p off = some v ∧ ((openPair s m p off).isSome = false → t.regs = s.regs) ∧
      ((openPair s m p off).isSome = true → rd t p F.CPL_ERR = min (2 ^ 32 - 1) (rd s p F.CPL_ERR + 1))) ∧
  (∀ (s : State) (m a off : Nat) (p : Page), locate m a = some (p, off) → (openPair s m p off).isSome = true → ∃ t, exec (.cplPairTimeout m a) s = .next t ∧ openPair t m p off = none ∧
    rd t p F.CPL_ERR = min (2 ^ 32 - 1) (rd s p F.CPL_ERR + 1)) ∧
  (∀ (s : State) (m a v : Nat) (p : Page) (w : Fld × RegRow), locate m a = some (p, w.1.off) → wideAt p w.1.off = some w → MayWriteAt s m p w.1.off → ∃ t, exec (.lowWordWrite m a v) s = .next t ∧
    t.regs = s.regs ∧ tabFind t.mgt.wrShadow m = some (pageBase p + w.1.off, v)) ∧
  (∀ (s : State) (m n low high : Nat), n < 4 → low < 2 ^ 32 → high < 2 ^ 32 → hostServed s m (.cmpPart n) (F.CMP_LED_RCNT.off + 4) = true → pageOn s (.cmpPart n) = true →
      mayWriteAt s m (.cmpPart n) (F.CMP_LED_RCNT.off + 4) = true → s.mgt.parBad = [] →
    (tabFind s.mgt.wrShadow m = some (pageBase (.cmpPart n) + F.CMP_LED_RCNT.off, low) → rd s (.cmpPart n) F.CMP_LED_RCNT ≤ high * 2 ^ 32 + low →
        high * 2 ^ 32 + low ≤ rd s (.cmpPart n) F.CMP_LED_WCNT → ∃ t, exec (.highWordWrite m (pageBase (.cmpPart n) + F.CMP_LED_RCNT.off + 4) high) s = .next t ∧
      rd t (.cmpPart n) F.CMP_LED_RCNT = high * 2 ^ 32 + low) ∧
    (tabFind s.mgt.wrShadow m = none → ∃ t, exec (.highWordWrite m (pageBase (.cmpPart n) + F.CMP_LED_RCNT.off + 4) high) s = .next t ∧
      rd t (.cmpPart n) F.CMP_LED_RCNT = rd s (.cmpPart n) F.CMP_LED_RCNT ∧ (m < 4 → rd t (.hifPart m) F.BAD_ACCESS = min (2 ^ 32 - 1) (rd s (.hifPart m) F.BAD_ACCESS + 1)))) ∧
  (∀ (s : State) (m a off : Nat), a % 4 = 0 → Unheld s m →
    (locate m a = some (.memDev, off) → off % 4 = 0 → wideRead .memDev off = none → ∃ t, exec (.lowWordRead m a 4) s = .next t ∧ t.regs = s.regs ∧
      t.out = s.out ++ [.read m (readWord s m .memDev off)] ∧ (mayRead s m .memDev off false = false → mayRead s m .memDev off true = false → readWord s m .memDev off = 0)) ∧
    (∀ n f, n < 4 → locate m a = some (.memPart n, f.off) → f ∈ [F.MEM_P_C1_BYTES, F.MEM_P_C2_BYTES, F.MEM_P_C3_BYTES] → mayRead s m (.memPart n) f.off false = true →
        mayRead s m (.memPart n) (f.off + 4) false = true → ∃ t u, exec (.lowWordRead m a 4) s = .next t ∧ t.regs = s.regs ∧ t.out = s.out ++ [.read m (rd s (.memPart n) f % 2 ^ 32)] ∧
        exec (.lowWordRead m (a + 4) 4) t = .next u ∧ u.out = t.out ++ [.read m (rd s (.memPart n) f / 2 ^ 32)] ∧
        (a % 8 = 0 → ∃ v, exec (.lowWordRead m a 8) s = .next v ∧ v.out = s.out ++ [.read m (rd s (.memPart n) f)] ∧ v.mgt = s.mgt)) ∧
    (locate m a = none → ∃ t, exec (.lowWordRead m a 4) s = .next t ∧ t.regs = s.regs ∧ t.out = s.out ++ [.read m 0])) ∧
  (∀ (s : State) (m a off word : Nat) (p : Page), pageOfAddr a = some (p, off) → MayWrite s m p F.LOCK.off false → ∃ t, exec (.lockWrite m a word) s = .next t ∧
    rd t p F.LOCK = (if word.testBit 0 then 1 else rd s p F.LOCK) ∧ ∀ q (g : Fld), g.num % 1024 ≠ F.LOCK.num → rd t q g = rd s q g)

/-- R430, R441–R446, R449, R452–R455: parity, escalation, block reset, the clearing of causes, the watchdog and the event log. Conventions of the model in it: logs 28, 29, 104,
111. -/
def Obligations.FaultHandling : Prop :=
  (∀ (s : State) (a off : Nat) (p : Page), pageOfAddr a = some (p, off) → (∀ x ∈ s.mgt.parBad, tabGet false s.mgt.parSeen x.1 = true) → exec (.parityScan a []) s = .next s) ∧
  (∀ (s : State) (a off o bit : Nat) (p : Page) (f : Fld) (row : RegRow), pageOfAddr a = some (p, off) → (∀ x ∈ s.mgt.parBad, tabGet false s.mgt.parSeen x.1 = true) →
      tabGet false s.mgt.parBad (pageBase p + o) = false → tabGet false s.mgt.parSeen (pageBase p + o) = false → (rd s p F.FLT_LIVE).testBit 0 = false →
      tabGet false s.mgt.safePar (pageBase p) = false → (f, row) ∈ fieldsAt p o → isConfig p (f, row) = true → f.off = o → f.lo ≤ bit → bit < f.lo + f.width → o < pageSize p →
    ∃ t, exec (.parityScan a [(o, bit)]) s = .next t ∧ (rd t p F.FLT_CAUSE).testBit 0 = true ∧ (rd t p F.FLT_LIVE).testBit 0 = true ∧ rd t p F.BLK_STAT_SAFE = 1 ∧
      rd t p F.PAR_STAT_COUNT = min 255 (rd s p F.PAR_STAT_COUNT + 1) ∧ (rd s p F.PAR_STAT_VALID = 0 → rd t p F.PAR_STAT_OFFSET = o % 2 ^ 16 ∧ rd t p F.PAR_STAT_VALID = 1) ∧
      tabGet false t.mgt.parSeen (pageBase p + o) = true) ∧
  (∀ (s : State) (a off c : Nat) (p : Page), pageOfAddr a = some (p, off) → graceOver s p c = true → (fltRec s p c).escalated = false →
    ((rd s p F.FLT_CAUSE).testBit c = true → ∃ t, exec (.graceExpiry a c) s = .next t ∧ rd t .mgtDev F.ESCALATIONS = min (2 ^ 32 - 1) (rd s .mgtDev F.ESCALATIONS + 1) ∧
      rd t p F.BLK_STAT_SAFE = 1 ∧ (rd t .mgtDev F.INT_RAW).testBit 9 = true ∧ (escAction s p = 2 → rd t .mgtDev F.MGT_ERR_HALTED = 1 ∧ rd t .mgtDev F.MGT_HALT_TYPE = pageType p ∧ t.pat.halted = true ∧
        ∀ b < 16, bankSafe t b = true)) ∧
    ((rd s p F.FLT_CAUSE).testBit c = false → ∃ t, exec (.graceExpiry a c) s = .next t ∧ t.regs = s.regs ∧ (fltRec t p c).grace = none)) ∧
  (∀ (s : State) (a off : Nat) (p : Page), pageOfAddr a = some (p, off) → (tabGet none s.mgt.blkReset (pageBase p)).isSome = true → ∃ t, exec (.blockResetDone a) s = .next t ∧
    tabGet none t.mgt.blkReset (pageBase p) = none ∧ (rd t p F.FLT_LIVE).testBit 0 = false ∧ rd t p F.LOCK = 0 ∧ rd t p F.INT_EN = 0 ∧
    (∀ c, p ≠ .calDev ∨ c ≠ 3 → (rd t p F.FLT_CAUSE).testBit c = (rd s p F.FLT_CAUSE).testBit c) ∧ rd t p F.FLT_THR = rd s p F.FLT_THR ∧
    (enImpl p = true → rdb t p F.BLK_CTRL_EN = s.pwr.manifest.testBit (pageDom p)) ∧ (p = .hifDev → ∀ n < 4, rd t .hifDev (quotaFld n) = (quotaFld n).reset) ∧
    (p ≠ .hifDev → t.mem = s.mem)) ∧
  (∀ (s : State) (m a off word : Nat) (p : Page), pageOfAddr a = some (p, off) → word < 2 ^ 32 → MayWrite s m p F.FLT_CAUSE.off false → ∃ t, exec (.faultClear m a word) s = .next t ∧
    (∀ c, (rd t p F.FLT_CAUSE).testBit c = ((rd s p F.FLT_CAUSE).testBit c && (!word.testBit c || (rd s p F.FLT_LIVE).testBit c))) ∧
    (∀ c, (rd s p F.FLT_CAUSE).testBit c = true → word.testBit c = true → (rd s p F.FLT_LIVE).testBit c = false → (rd t p F.FLT_SEVERE).testBit c = false ∧ fltRec t p c = ⟨0, 0, none, false⟩) ∧
    (∀ c, c < 32 → word = 1 <<< c → (rd s p F.FLT_CAUSE).testBit c = true → (rd s p F.FLT_LIVE).testBit c = true →
      rd t .mgtDev F.CLR_REFUSED = min (2 ^ 32 - 1) (rd s .mgtDev F.CLR_REFUSED + 1))) ∧
  (∀ (s : State), ∃ t, exec .fwWdog s = .next t ∧ (rd t .mgtDev F.FLT_CAUSE).testBit 3 = true ∧ (rd t .mgtDev F.INT_RAW).testBit 3 = true ∧
    rd t .mgtDev F.FLT_CNT = min (2 ^ 32 - 1) (rd s .mgtDev F.FLT_CNT + 1) ∧ t.pat = s.pat ∧ t.mem = s.mem) ∧
  (∀ (s : State) (m word : Nat), MayWrite s m .mgtDev F.MGT_EVLOG_IDX.off true → ∃ t, exec (.evlogIdxWrite m word) s = .next t ∧ rd t .mgtDev F.MGT_EVLOG_IDX = word % 4096 ∧
    tabGet logInit t.mgt.latch m = tabGet logInit s.mgt.log (word % 4096) ∧ t.mgt.log = s.mgt.log) ∧
  (∀ (s : State) (m word n : Nat), MayWrite s m .mgtDev F.MGT_EVLOG_MARK.off true → word < 2 ^ 16 → n = rd s .mgtDev F.MGT_EVLOG_WCNT → ∃ t, exec (.evlogMark m word) s = .next t ∧
    rd t .mgtDev F.MGT_EVLOG_WCNT = (n + 1) % 2 ^ 64 ∧ rd t .mgtDev F.MGT_EVLOG_OVWR = (if 4096 ≤ n then min (2 ^ 32 - 1) (rd s .mgtDev F.MGT_EVLOG_OVWR + 1) else rd s .mgtDev F.MGT_EVLOG_OVWR) ∧
    tabGet logInit t.mgt.log (n % 4096) = ⟨rd s .timDev F.TIM_DTB_SEC_HI * 2 ^ 32 + rd s .timDev F.TIM_DTB_SEC_LO, rd s .timDev F.TIM_DTB_NS, 12, 1, 0, 0, word⟩ ∧
    ∀ j, j ≠ n % 4096 → tabGet logInit t.mgt.log j = tabGet logInit s.mgt.log j)

/-- R459–R461, R466, Tables 18-2 and 18-4: supplies and resets of the whole device. R460, Tables 18-8 and 18-9: the measured conditions and the current limit. Conventions of
the model in it: logs 3, 31, 70, 72, 110. -/
def Obligations.SuppliesAndConditions : Prop :=
  ((∀ (s : State), powered s = true → rd s .ptb F.PTB_STAT_UNLOCKED = 0 →
    ∃ t, exec .rstNAssert s = .next t ∧ DeviceReset s t 0 ∧ t.pwr.stage = .held ∧ t.pwr.rstLow = true ∧
      (rd s .pwrDev F.PWR_STAT_VIN_OK = 1 → t.mem = remapMem s) ∧ rd t .pwrDev F.BROWNOUTS = rd s .pwrDev F.BROWNOUTS) ∧
  (∀ (s : State), s.pwr.stage = .held → tapHold s = false → ∃ t, exec .rstNRelease s = .next t ∧ t.pwr.rstLow = false ∧ t.mem = s.mem ∧
    if rd s .pwrDev F.PWR_STAT_VIN_OK = 0 then t.pwr.stage = .noVin ∧ rd t .pwrDev F.PWR_DOM_ON = rd s .pwrDev F.PWR_DOM_ON
    else if rd s .lcs F.LCS_STATE_STATE = 4 then t.pwr.stage = .scrapped ∧ rd t .pwrDev F.PWR_DOM_ON = 2 ^ 22
    else t.pwr.stage = .rom ∧ rd t .pwrDev F.PWR_DOM_ON = 2 ^ 21 + 2 ^ 22 + 2 ^ 26 + 2 ^ 28) ∧
  (∀ (s : State), powered s = true → ∃ t, exec .brownOut s = .next t ∧ DeviceReset s t (causedPages s) ∧ t.pwr.stage = .noVin ∧ rd t .pwrDev F.PWR_MON_VIN < 2600 ∧ rd t .pwrDev F.PWR_STAT_VIN_OK = 0 ∧
    rd t .pwrDev F.BROWNOUTS = min (2 ^ 32 - 1) (rd s .pwrDev F.BROWNOUTS + 1)) ∧
  (∀ (s : State) (x : Int), powered s = true → 125 ≤ x → ∀ c ∈ [Instr.junctionOvertemp x, .tjHot x], ∃ t, exec c s = .next t ∧ DeviceReset s t (causedPages s) ∧ t.pwr.stage = .noVin ∧
    (x < 128 → toSigned 8 (rd t .pwrDev F.PWR_TJ) = x) ∧ rd t .pwrDev F.BROWNOUTS = min (2 ^ 32 - 1) (rd s .pwrDev F.BROWNOUTS + 1)) ∧
  (∀ (s : State), s.pwr.stage = .noVin → s.pwr.rstLow = false → tapHold s = false → rd s .lcs F.LCS_STATE_STATE ≠ 4 →
    (∃ t, exec .vinRestore s = .next t ∧ t.pwr.stage = .rom ∧ rd t .pwrDev F.PWR_STAT_VIN_OK = 1 ∧ 2700 < rd t .pwrDev F.PWR_MON_VIN ∧
      rd t .pwrDev F.PWR_DOM_ON = 2 ^ 21 + 2 ^ 22 + 2 ^ 26 + 2 ^ 28) ∧
    ∀ mv, 2700 ≤ mv → mv < 2 ^ 16 → ∃ t, exec (.vinOk mv) s = .next t ∧ t.pwr.stage = .rom ∧ rd t .pwrDev F.PWR_STAT_VIN_OK = 1 ∧ rd t .pwrDev F.PWR_MON_VIN = mv) ∧
  (∀ (s : State), ∃ t, exec .vstbyLoss s = .next t ∧ t.pwr.stage = .noVstby ∧ rd t .pwrDev F.PWR_DOM_ON = 0 ∧ t.lcs.fuses = s.lcs.fuses ∧
    ∃ u, exec .vinRestore t = .next u ∧ u = t) ∧
  (∀ (s : State) (vin hbm : Bool), ∃ t, exec (.powerOnReset vin hbm) s = .next t ∧ t.mgt.log = [] ∧ rd t .mgtDev F.MGT_EVLOG_WCNT = 0 ∧ tbNow t 0 = 0 ∧ t.lcs.fuses = s.lcs.fuses ∧
    rd t .pwrDev F.BROWNOUTS = 0 ∧ rd t .pwrDev F.PWR_STAT_VIN_OK = b2n vin ∧ (hbm = true → t.mem = remapMem s) ∧
    (∀ q (g : Fld), (∀ f ∈ keptAtReset, f.num ≠ g.num % 1024) → rd t q g = rd State.reset q g) ∧ (vin = false → rd t .pwrDev F.PWR_DOM_ON = 0 ∧ (s.pwr.rstLow = false → tapHold s = false → t.pwr.stage = .noVin)))) ∧
  ((∀ (s : State), powered s = true →
    (∀ mv, mv < 2700 → (rd s .pwrDev F.FLT_LIVE).testBit 2 = false → ∃ t, exec (.vinLow mv) s = .next t ∧ rd t .pwrDev F.PWR_MON_VIN = mv ∧ rd t .pwrDev F.PWR_STAT_VIN_OK = 0 ∧
      (rd t .pwrDev F.FLT_CAUSE).testBit 2 = true ∧ (rd t .pwrDev F.FLT_LIVE).testBit 2 = true ∧ (rd t .pwrDev F.INT_RAW).testBit 2 = true) ∧
    (∀ mv, 2700 ≤ mv → mv < 2 ^ 16 → ∃ t, exec (.vinOk mv) s = .next t ∧ rd t .pwrDev F.PWR_MON_VIN = mv ∧ rd t .pwrDev F.PWR_STAT_VIN_OK = 1 ∧ (rd t .pwrDev F.FLT_LIVE).testBit 2 = false ∧
      rd t .pwrDev F.FLT_CAUSE = rd s .pwrDev F.FLT_CAUSE) ∧
    (∀ i, 50 * rd s .pwrDev F.PWR_ILIM ≤ i → i < 2 ^ 16 → (rd s .pwrDev F.FLT_LIVE).testBit 3 = false → ∃ t, exec (.overcurrent i) s = .next t ∧ rd t .pwrDev F.PWR_MON_IIN = i ∧
      (rd t .pwrDev F.FLT_CAUSE).testBit 3 = true ∧ (rd t .pwrDev F.FLT_SEVERE).testBit 3 = true ∧ (rd t .pwrDev F.FLT_LIVE).testBit 3 = true ∧ (rd t .pwrDev F.INT_RAW).testBit 3 = true) ∧
    (∀ i, i < 50 * rd s .pwrDev F.PWR_ILIM → i < 2 ^ 16 → ∃ t, exec (.currentBelowLimit i) s = .next t ∧ rd t .pwrDev F.PWR_MON_IIN = i ∧ (rd t .pwrDev F.FLT_LIVE).testBit 3 = false ∧
      rd t .pwrDev F.FLT_CAUSE = rd s .pwrDev F.FLT_CAUSE) ∧
    ((rd s .pwrDev F.FLT_LIVE).testBit 4 = false → ∃ t, exec .regFault s = .next t ∧ (rd t .pwrDev F.FLT_CAUSE).testBit 4 = true ∧ (rd t .pwrDev F.FLT_SEVERE).testBit 4 = true ∧
      (rd t .pwrDev F.FLT_LIVE).testBit 4 = true ∧ (rd t .pwrDev F.INT_RAW).testBit 4 = true) ∧
    (∃ t, exec .railInRegulation s = .next t ∧ (rd t .pwrDev F.FLT_LIVE).testBit 4 = false ∧ ∀ q (g : Fld), g.num % 1024 ≠ F.FLT_LIVE.num → rd t q g = rd s q g) ∧
    (∀ x : Int, 105 < x → x < 125 → (rd s .pwrDev F.FLT_LIVE).testBit 5 = false → ∃ t, exec (.tjHot x) s = .next t ∧ toSigned 8 (rd t .pwrDev F.PWR_TJ) = x ∧
      (rd t .pwrDev F.FLT_CAUSE).testBit 5 = true ∧ (rd t .pwrDev F.FLT_SEVERE).testBit 5 = true ∧ (rd t .pwrDev F.FLT_LIVE).testBit 5 = true ∧ (rd t .pwrDev F.INT_RAW).testBit 5 = true) ∧
    (∀ x : Int, -128 ≤ x → x ≤ 105 → ∃ t, exec (.tjBelowLimit x) s = .next t ∧ toSigned 8 (rd t .pwrDev F.PWR_TJ) = x ∧ (rd t .pwrDev F.FLT_LIVE).testBit 5 = false)) ∧
  (∀ (s : State) (m comp v : Nat), MayWrite s m .pwrDev F.PWR_ILIM.off true → Completes s m .pwrDev F.PWR_ILIM.off v → comp = 2 ^ 32 - 1 - v →
    ∃ t, exec (.pwrIlimWrite m comp) s = .next t ∧ openPair t m .pwrDev F.PWR_ILIM.off = none ∧
      if 40 ≤ v % 128 ∧ v % 128 ≤ 112 then rd t .pwrDev F.PWR_ILIM = v % 128
      else rd t .pwrDev F.PWR_ILIM = rd s .pwrDev F.PWR_ILIM ∧ (rd t .pwrDev F.FLT_CAUSE).testBit 1 = true))

/-- R433, R434, R462–R465, Table 18-3: switched domains. Conventions of the model in it: logs 68, 69, 70, 110, 112. -/
def Obligations.SwitchedDomains : Prop :=
  (∀ (s : State) (m a : Nat) (p : Page) (off : Nat), pageOfAddr a = some (p, off) → enImpl p = true → MayWrite s m p F.BLK_CTRL_EN.off false →
    (rd s p F.BLK_STAT_OFF_PENDING = 0 → ∃ t, exec (.functionEnable m a) s = .next t ∧ rd t p F.BLK_CTRL_EN = 1 ∧
      t.pwr.queue = s.pwr.queue ++ if fnOn s p = true ∨ (s.pwr.queue.filter fun x => x.1 == pageDom p).getLast? = some (pageDom p, true) then [] else fwChanges s ++ [(pageDom p, true)]) ∧
    (rd s p F.BLK_STAT_OFF_PENDING = 1 → ∃ t, exec (.functionEnable m a) s = .next t ∧ rd t p F.BLK_CTRL_EN = 1 ∧ t.pwr.queue = s.pwr.queue ∧ rd t p F.BLK_STAT_OFF_PENDING = 1 ∧
      rd t p F.BLK_STAT_ON_PENDING = if fnOn s p then 1 else rd s p F.BLK_STAT_ON_PENDING) ∧
    (disableRefused s p = true → ∃ t, exec (.functionDisable m a) s = .next t ∧ rd t p F.BLK_CTRL_EN = rd s p F.BLK_CTRL_EN ∧ t.pwr = s.pwr ∧
      (rd t (pwrPageOf s p) F.FLT_CAUSE).testBit 1 = true ∧ rd t (pwrPageOf s p) F.FLT_CNT = min (2 ^ 32 - 1) (rd s (pwrPageOf s p) F.FLT_CNT + 1)) ∧
    (disableRefused s p = false → ∃ t, exec (.functionDisable m a) s = .next t ∧ rd t p F.BLK_CTRL_EN = 0 ∧
      (rd s p F.BLK_STAT_ON_PENDING = 1 → rd t p F.BLK_STAT_ON_PENDING = 0 ∧ rd t p F.BLK_STAT_OFF_PENDING = rd s p F.BLK_STAT_OFF_PENDING ∧ t.pwr.queue = s.pwr.queue) ∧
      (rd s p F.BLK_STAT_ON_PENDING = 0 → rd s p F.BLK_STAT_OFF_PENDING = 0 → fnOn s p = true → rd t p F.BLK_STAT_OFF_PENDING = 1 ∧
        t.pwr.queue = s.pwr.queue ++ if (s.pwr.queue.filter fun x => x.1 == pageDom p).getLast? = some (pageDom p, false) then [] else fwChanges s ++ [(pageDom p, false)]) ∧
      (rd s p F.BLK_STAT_ON_PENDING = 0 → rd s p F.BLK_STAT_OFF_PENDING = 0 → fnOn s p = false → t.pwr.queue = s.pwr.queue ∧
        rd t p F.BLK_STAT_OFF_PENDING = b2n (rdb s p F.BLK_CTRL_EN && s.pwr.queue.contains (pageDom p, true))))) ∧
  (∀ (s : State) (p : Page), disableRefused s p = match p with
    | .bnk b => bankBusy s b || rd s .hifDev F.HIF_DEV_STAT_MOVING == 1
    | .au u => rd s (.au u) F.AU_STAT_STATE == 1 || rd s (.au u) F.AU_STAT_STATE == 2 || rd s (.au u) F.AU_STAT_STATE == 4
    | .tlkCtl => rd s .tlkCtl F.TLK_CTRL_SERVO_EN == 1
    | _ => false) ∧
  (∀ (s : State) (b : Nat) (rest : List (Nat × Bool)), b < 16 → s.pwr.queue = (b, false) :: rest → changeHeld s b = false → s.pwr.stage = .run → awake s = true →
      rd s (.bnk b) F.BLK_STAT_OFF_PENDING = 1 → fnOn s (.bnk b) = true → ∃ t, exec (.shutdownDone b) s = .next t ∧ domOn t b = false ∧
    (∀ d, d ≠ b → domOn t d = domOn s d) ∧ t.pwr.queue = (if rd s (.bnk b) F.BLK_STAT_ON_PENDING = 1 then [(b, true)] else []) ++ rest ∧ rd t (.bnk b) F.BLK_STAT_OFF_PENDING = 0 ∧
    (bankOf t b).tsets = (bankOf s b).tsets ∧ (∀ k < 4, furOf t (4 * b + k) = furInit) ∧ (∀ j < 16, convOf t (16 * b + j) = convInit) ∧ sringOf t b = sringInit ∧
    (∀ f ∈ configFields (.bnk b), rd t (.bnk b) f = rd s (.bnk b) f) ∧ rd t (.bnk b) F.INT_RAW = 0 ∧ rd t (.bnk b) F.FLT_CAUSE = 0 ∧ rd t (.bnk b) F.FLT_SEVERE = 0 ∧ rd t (.bnk b) F.FLT_CNT = 0 ∧
    .outputs b false ∈ t.out) ∧
  (∀ (s : State) (rest : List (Nat × Bool)), s.pwr.queue = (25, false) :: rest → changeHeld s 25 = false → s.pwr.stage = .run → awake s = true →
      (∀ u < 19, rd s (.au u) F.BLK_CTRL_EN = 0 ∨ (rd s (.au u) F.BLK_STAT_OFF_PENDING = 1 ∧ fnOn s (.au u) = true)) → s.cal.runs = [] → s.cal.reqs = [] → ∃ t, exec (.shutdownDone 25) s = .next t ∧ domOn t 25 = false ∧
    ∀ u < 19, auOf t u = auInit ∧ rd t (.au u) F.AU_STAT_STATE = 0) ∧
  (∀ (s : State) (d : Nat) (rest : List (Nat × Bool)), d < 30 → s.pwr.queue = (d, true) :: rest → pageSafe s .pwrDev = false → s.pwr.stage = .run → awake s = true → ∃ t, exec (.startupDone d) s = .next t ∧ domOn t d = true ∧
    (∀ e, e ≠ d → domOn t e = domOn s e) ∧
    (d < 16 → domOn s d = false → .outputs d true ∈ t.out ∧ rd t (.bnk d) F.BNK_STAT_MODE_ACT = rd s (.bnk d) F.BNK_CTRL_MODE ∧
      (rd s (.bnk d) F.BLK_STAT_OFF_PENDING = 0 → t.pwr.queue = rest) ∧ (rd s (.bnk d) F.BLK_STAT_OFF_PENDING = 1 → t.pwr.queue = (d, false) :: rest) ∧
      (rd s (.bnk d) F.BLK_CTRL_EN = 1 ∨ rd s (.bnk d) F.BLK_STAT_OFF_PENDING = 1 → rd t (.bnk d) F.BLK_STAT_ON_PENDING = 0 ∧ fnOn t (.bnk d) = true)) ∧
    (∀ k < 4, d = 16 + k → domOn s d = false → csImage t k = some (s.boot.partVers.getD 1 0))) ∧
  (∀ (s : State) (k : Nat), k < 4 → (s.pwr.queue ++ fwChanges s).head? = some (16 + k, false) → domWanted s (16 + k) = false → changeHeld s (16 + k) = false → s.pwr.stage = .run →
      awake s = true →
    ∃ t, exec (.shutdownDone (16 + k)) s = .next t ∧ domOn t (16 + k) = false ∧ csImage t k = none ∧ ∀ j < 17, (engOf t (17 * k + j)).work = none)

/-- R49, R467–R470: sleep and wake. Conventions of the model in it: log 71; log 91 for the value of a time base on wake, which is rounded down and taken modulo 2^48 s, for the
source that is found unqualified at wake and for the pulse points passed in sleep. -/
def Obligations.SleepAndWake : Prop :=
  (∀ (s : State) (m n word : Nat), n < 4 → MayWrite s m (.pwrPart n) F.PWR_P_SLEEP_VOTE.off false → ∃ t, exec (.sleepVote m n word) s = .next t ∧ rd t (.pwrPart n) F.PWR_P_SLEEP_VOTE = word % 2 ∧
    t.pwr = s.pwr ∧ t.mem = s.mem ∧ ∀ q (g : Fld), g.num % 1024 ≠ F.PWR_P_SLEEP_VOTE.num → rd t q g = rd s q g) ∧
  (∀ (s : State), awake s = true → s.pwr.stage = .run → rd s .pwrDev F.PWR_SLEEP_CTRL_SREQ_EN = 1 → ∃ t, exec .sleepReq s = .next t ∧ t.pwr.sreq = true ∧
    ∀ i < 64, (siteState s i = 2 → siteState t i = 5) ∧ (siteState s i = 3 → siteState t i = 3 ∧ 5 ∈ (siteOf t i).stops)) ∧
  (∀ (s : State), sleepDue s = true →
    (s.boot.busy = false → ∃ t, exec .sleepDecision s = .next t ∧ rd t .pwrDev F.PWR_STAT_STATE = 1 ∧ awake t = false ∧ t.memc.sr = 1 ∧ t.memc.srSleep = true ∧
      (∀ b < 5, tabGet 0 t.tim.sleepRec b = tbNow s b) ∧ (∀ r ∈ t.cal.runs, r.bank < 16 → r.abort = true)) ∧
    (s.boot.busy = true → ∃ t, exec .sleepDecision s = .next t ∧ rd t .pwrDev F.PWR_STAT_STATE = 1 ∧ awake t = false ∧ t.memc = s.memc ∧ t.tim = s.tim ∧ t.cal = s.cal)) ∧
  (∀ (s : State), rd s .pwrDev F.PWR_STAT_STATE = 1 → s.boot.busy = false → s.memc.sr = 0 → s.memc.srAborted = false → ∃ t, exec .sleepEntryDone s = .next t ∧
    rd t .pwrDev F.PWR_STAT_STATE = 1 ∧ t.memc.sr = 1 ∧ t.memc.srSleep = true ∧ (∀ b < 5, tabGet 0 t.tim.sleepRec b = tbNow s b) ∧ ∀ r ∈ t.cal.runs, r.bank < 16 → r.abort = true) ∧
  (∀ (s : State), awake s = true → s.pwr.stage = .run → anyBusy s = false → (∀ n < 4, portExists s n = true → rd s (.pwrPart n) F.PWR_P_SLEEP_VOTE = 1) → sleepDue s = true) ∧
  (∀ (s : State), rd s .pwrDev F.PWR_STAT_STATE = 1 → s.boot.busy = false → s.cal.runs = [] →
    (s.memc.sr ≠ 0 → s.memc.srSleep = false → exec .sleepEntryDone s = .next s) ∧
    (s.memc.sr = 1 → s.memc.srSleep = true → s.pwr.wakes = [] → ∃ t, exec .sleepEntryDone s = .next t ∧ rd t .pwrDev F.PWR_STAT_STATE = 2 ∧ t.memc.sr = 2 ∧ t.mem = s.mem ∧
      (∀ d < 30, domOn t d = (decide (d = 22) && domOn s d)) ∧ rd t .pwrDev F.SLEEPS = min (2 ^ 32 - 1) (rd s .pwrDev F.SLEEPS + 1)) ∧
    (s.memc.sr ≠ 1 → (s.memc.sr = 0 → s.memc.srAborted = true) → (s.memc.sr ≠ 0 → s.memc.srSleep = true) → s.pwr.aborts = 0 → ∃ t, exec .sleepEntryDone s = .next t ∧ rd t .pwrDev F.PWR_STAT_STATE = 1 ∧ t.memc.sr = 1 ∧ t.pwr.aborts = 1) ∧
    (s.memc.sr ≠ 1 → (s.memc.sr = 0 → s.memc.srAborted = true) → (s.memc.sr ≠ 0 → s.memc.srSleep = true) → s.pwr.aborts ≠ 0 → ∃ t, exec .sleepEntryDone s = .next t ∧ rd t .pwrDev F.PWR_STAT_STATE = 0 ∧
      (s.boot.ops = [] → rd t .pwrDev F.PWR_DOM_ON = rd s .pwrDev F.PWR_DOM_ON) ∧
      rd t .pwrDev F.SLEEP_ABORTS = min (2 ^ 32 - 1) (rd s .pwrDev F.SLEEP_ABORTS + 1) ∧
      ∀ n < 4, (rd t (.pwrPart n) F.INT_RAW).testBit 8 = true ∧ rd t (.pwrPart n) F.PWR_P_SLEEP_VOTE = rd s (.pwrPart n) F.PWR_P_SLEEP_VOTE)) ∧
  (∀ (s : State) (c : Instr) (k : Nat), (c, k) ∈ [(Instr.wake, 1), (.l1ExitRequest 0, 2), (.wakeTime, 3), (.sleepReqFall, 4)] → s.pwr.sreq = false →
      (k = 1 → rd s .pwrDev F.PWR_SLEEP_CTRL_WAKE_EN = 1) → (k = 2 → rd s .pwrDev F.PWR_SLEEP_CTRL_PCIE_EN = 1 ∧ portExists s 0 = true) →
      (k = 3 → rd s .pwrDev F.PWR_SLEEP_CTRL_TIMER_EN = 1 ∧
        ((rd s .pwrDev F.PWR_WAKE_TIME_SEC_HI * 2 ^ 32 + rd s .pwrDev F.PWR_WAKE_TIME_SEC_LO) * 1000000000 + rd s .pwrDev F.PWR_WAKE_TIME_NS) * 2 ^ 32 ≤ tbNow s 0) →
      (k = 4 → rd s .pwrDev F.PWR_SLEEP_CTRL_SREQ_EN = 1) →
    (rd s .pwrDev F.PWR_STAT_STATE = 1 → ∃ t, exec c s = .next t ∧ t.pwr.wakes = s.pwr.wakes ++ [k] ∧ t.regs = s.regs) ∧
    (rd s .pwrDev F.PWR_STAT_STATE = 2 → s.pwr.wakes = [] → ∃ t, exec c s = .next t ∧ rd t .pwrDev F.PWR_STAT_STATE = 3 ∧ rd t .pwrDev F.PWR_LAST_WAKE_SRC = k ∧ t.mem = s.mem ∧
      rd t .mgtDev F.MGT_EVLOG_WCNT = (rd s .mgtDev F.MGT_EVLOG_WCNT + 1) % 2 ^ 64) ∧
    (rd s .pwrDev F.PWR_STAT_STATE = 3 → exec c s = .next s)) ∧
  (∀ (s : State), s.pwr.sreq = true → rd s .pwrDev F.PWR_SLEEP_CTRL_SREQ_EN = 1 → rd s .pwrDev F.PWR_STAT_STATE = 2 → rd s .pwrDev F.PWR_SLEEP_CTRL_WAKE_EN = 1 → s.pwr.wakes = [] →
    ∃ t u, exec .wake s = .next t ∧ rd t .pwrDev F.PWR_STAT_STATE = 2 ∧ exec .sleepReqFall t = .next u ∧ rd u .pwrDev F.PWR_STAT_STATE = 3 ∧ rd u .pwrDev F.PWR_LAST_WAKE_SRC = 1) ∧
  (∀ (s : State) (x : HoldMeas), rd s .pwrDev F.PWR_STAT_STATE = 3 → ∃ t, exec (.wakeDone x) s = .next t ∧ rd t .pwrDev F.PWR_STAT_STATE = 0 ∧ t.memc.sr = 0 ∧ t.mem = s.mem ∧
    (∀ n < 4, (rd t (.pwrPart n) F.INT_RAW).testBit 9 = true) ∧ (∀ d < 30, (d = 28 → s.boot.ops = []) → domOn t d = (domOn s d || s.pwr.sleepDom.testBit d)) ∧
    (0 < tbInc s 0 → tabGet 0 s.tim.sleepRec 0 ≤ tbNow s 0 → ∀ b < 5, b ≠ 0 →
      tbNow t b = (tabGet 0 s.tim.sleepRec b + (tbNow s 0 - tabGet 0 s.tim.sleepRec 0) * tbInc s b / tbInc s 0) % timeEnd))

/-- R475, R477–R481, R484, Tables 19-2, 19-6 and 19-8: the boot from flash. Conventions of the model in it: logs 4, 73, 74, 102. -/
def Obligations.BootFromFlash : Prop :=
  (∀ (d : Directory) (v : Bool) (k : Nat), k < 2 → ((k, true) ∈ bootCandidates d v ↔ slotState d k = 2) ∧ (slotState d k = 0 ∨ slotState d k = 4 → ∀ b, (k, b) ∉ bootCandidates d v) ∧
    (slotState d k = 3 → (k, false) ∈ bootCandidates d v) ∧ ((k, false) ∈ bootCandidates d true → slotState d k = 3)) ∧
  (∀ (s : State) (u : Bool) (x : SlotImage), slotFault s u x = none → u = true ∧ x.readable = true ∧ x.magic = 0x4D444C4E ∧ x.format = 1 ∧ x.nparts = 8 ∧ x.reservedZero = true ∧
    x.key < 4 ∧ x.keyHash = fuseHash s x.key ∧ (fuseWord s 9 0).testBit x.key = false ∧ x.sigOk = true ∧ svnMin s ≤ x.svn ∧ x.bifur ≠ 3 ∧
    (∀ e ∈ x.parts, e.readOk = true ∧ e.digestOk = true ∧ e.offset % 4096 = 0 ∧ 0 < e.length ∧ e.offset + e.length ≤ 12 * 2 ^ 20 ∧ (e.ty = 2 → e.length = 16384))) ∧
  (∀ (s : State) (f : FlashFacts), s.pwr.stage = .rom →
    (∀ c d k trial rest x, newestDir s = some (c, d) → d.recover = false → f.usable = true → 64 ≤ f.sizeMib → bootCandidates d true = (k, trial) :: rest → x = slotImage (if k = 0 then f.slotA else f.slotB) →
        slotFault s true x = none → s.boot.tried = [] → x.version < 2 ^ 32 → x.svn < 2 ^ 32 → ∃ t, exec (.romBoot f) s = .next t ∧ t.pwr.stage = .run ∧ rd t .boot F.BOOT_STAT_SLOT = k ∧
      rd t .boot F.BOOT_STAT_TRIAL = b2n trial ∧ rd t .boot F.BOOT_STAT_FALLBACK = 0 ∧ rd t .boot F.BOOT_VER_ACT = x.version ∧ rd t .boot F.BOOT_SVN_ACT = x.svn ∧
      rd t .boot F.FALLBACKS = rd s .boot F.FALLBACKS ∧ rd t .hifDev F.HIF_DEV_STAT_BIFUR = x.bifur % 4 ∧
      t.boot.subsys = some x.subsys) ∧
    (∀ c d k trial j trial' rest r part x y, newestDir s = some (c, d) → d.recover = false → f.usable = true → 64 ≤ f.sizeMib → bootCandidates d true = (k, trial) :: (j, trial') :: rest →
        x = slotImage (if k = 0 then f.slotA else f.slotB) → y = slotImage (if j = 0 then f.slotA else f.slotB) → slotFault s true x = some (r, part, false) → slotFault s true y = none →
      ∃ t, exec (.romBoot f) s = .next t ∧ t.pwr.stage = .run ∧ rd t .boot F.BOOT_STAT_SLOT = j ∧ rd t .boot F.BOOT_STAT_FALLBACK = 1 ∧ rd t .boot F.BOOT_LAST_REASON = r ∧
        rd t .boot F.BOOT_LAST_SLOT = k ∧ rd t .boot F.FALLBACKS = min (2 ^ 32 - 1) (rd s .boot F.FALLBACKS + 1) ∧ slotState t.boot.dir k = 4 ∧ (rd t .boot F.FLT_CAUSE).testBit 2 = true ∧
        (rd t .boot F.INT_RAW).testBit 2 = true) ∧
    (∀ c d, newestDir s = some (c, d) → f.usable = true → 64 ≤ f.sizeMib → d.recover = true ∨ bootCandidates d true = [] → ∃ t, exec (.romBoot f) s = .next t ∧ t.pwr.stage = .recovery ∧
      rd t .pwrDev F.PWR_DOM_ON = 2 ^ 22 + 2 ^ 26 + 2 ^ 28 ∧ rd t .recov F.REC_STAT_CAUSE = b2n d.recover)) ∧
  (∀ (s : State), s.pwr.stage = .run → rd s .boot F.BOOT_STAT_READY = 0 → erasePend s = false → ∃ t d, exec .bootReady s = .next t ∧ rd t .boot F.BOOT_STAT_READY = 1 ∧ t.boot.dir = d ∧
    t.boot.ops = s.boot.ops ++ [.directory d] ∧ d.boots = min (s.boot.dir.boots + 1) (2 ^ 32 - 1) ∧
    (rd s .boot F.BOOT_STAT_TRIAL = 1 → slotState d (bootSlot s) = 3 ∧ d.pref = bootSlot s ∧ slotState d (otherSlot s) = slotState s.boot.dir (otherSlot s)) ∧
    (rd s .boot F.BOOT_STAT_TRIAL = 0 → d = { s.boot.dir with boots := d.boots })) ∧
  (∀ (s : State), s.pwr.stage = .run → rd s .boot F.BOOT_STAT_TRIAL = 1 → rd s .boot F.BOOT_STAT_READY = 0 → s.boot.handover + 500000000 ≤ aonNow s ∨ (rd s .mgtDev F.FLT_SEVERE).testBit 3 = true →
      s.pwr.rstLow = false → tapHold s = false → rd s .pwrDev F.PWR_STAT_VIN_OK = 1 → lcState s ≠ 4 → ∃ t, exec .confirmTimeout s = .next t ∧ t.pwr.stage = .rom ∧ slotState t.boot.dir (bootSlot s) = 4 ∧
    rd t .boot F.BOOT_LAST_REASON = 0xA ∧ rd t .boot F.BOOT_LAST_SLOT = bootSlot s ∧ rd t .boot F.FALLBACKS = min (2 ^ 32 - 1) (rd s .boot F.FALLBACKS + 1))

/-- R474, R475, R482–R485, Tables 19-7 to 19-11: firmware update, flash operations and the recovery function.
Conventions of the model in it: logs 75, 76, 106. -/
def Obligations.UpdateAndRecovery : Prop :=
  (∀ (s : State) (m k : Nat), MayWrite s m .boot F.BOOT_UPD_CMD_WRITE.off true → s.pwr.stage = .run → k = otherSlot s →
    (rd s .boot F.BOOT_UPD_STAT_BUSY = 1 → ∀ c ∈ [Instr.updateWrite m 1, .updatePend m 2, .updateUnpend m 4, .recoverRequest m 8], ∃ t, exec c s = .next t ∧ rd t .boot F.BOOT_UPD_STAT_RESULT = 1 ∧
      t.boot = s.boot ∧ ∀ q (g : Fld), g.num % 1024 ≠ F.BOOT_UPD_STAT_RESULT.num → rd t q g = rd s q g) ∧
    (rd s .boot F.BOOT_UPD_STAT_BUSY = 0 →
      (rd s .boot F.BOOT_UPD_LEN = 0 ∨ 12 * 2 ^ 20 < rd s .boot F.BOOT_UPD_LEN ∨ s.boot.srcLow ≠ 0 → ∃ t, exec (.updateWrite m 1) s = .next t ∧ rd t .boot F.BOOT_UPD_STAT_RESULT = 2 ∧ t.boot = s.boot) ∧
      (0 < rd s .boot F.BOOT_UPD_LEN → rd s .boot F.BOOT_UPD_LEN ≤ 12 * 2 ^ 20 → s.boot.srcLow = 0 → inQuota s 0 (updSrc s) (rd s .boot F.BOOT_UPD_LEN) = false → ∃ t, exec (.updateWrite m 1) s = .next t ∧
        rd t .boot F.BOOT_UPD_STAT_RESULT = 3 ∧ t.boot = s.boot) ∧
      (0 < rd s .boot F.BOOT_UPD_LEN → rd s .boot F.BOOT_UPD_LEN ≤ 12 * 2 ^ 20 → s.boot.srcLow = 0 → inQuota s 0 (updSrc s) (rd s .boot F.BOOT_UPD_LEN) = true → ∃ t d, exec (.updateWrite m 1) s = .next t ∧
        rd t .boot F.BOOT_UPD_STAT_BUSY = 1 ∧ t.boot.dir = d ∧ d = setSlot s.boot.dir k 0 ∧ slotState d k = 0 ∧ t.boot.ops = s.boot.ops ++ [.directory d, .image] ∧ t.mem = s.mem) ∧
      (slotState s.boot.dir k = 1 → ∃ t, exec (.updatePend m 2) s = .next t ∧ rd t .boot F.BOOT_UPD_STAT_RESULT = 0 ∧ slotState t.boot.dir k = 2 ∧ t.boot.ops = s.boot.ops ++ [.directory t.boot.dir]) ∧
      (slotState s.boot.dir k ≠ 1 → ∃ t, exec (.updatePend m 2) s = .next t ∧ rd t .boot F.BOOT_UPD_STAT_RESULT = 5 ∧ t.boot = s.boot) ∧
      (slotState s.boot.dir k = 2 → slotState s.boot.dir (1 - k) ≠ 2 → ∃ t, exec (.updateUnpend m 4) s = .next t ∧ rd t .boot F.BOOT_UPD_STAT_RESULT = 0 ∧ slotState t.boot.dir k = 1 ∧
        t.boot.ops = s.boot.ops ++ [.directory t.boot.dir]) ∧
      (slotState s.boot.dir 0 ≠ 2 → slotState s.boot.dir 1 ≠ 2 → ∃ t, exec (.updateUnpend m 4) s = .next t ∧ rd t .boot F.BOOT_UPD_STAT_RESULT = 5 ∧ t.boot = s.boot) ∧
      (∃ t, exec (.recoverRequest m 8) s = .next t ∧ t.boot.dir = { s.boot.dir with recover := true } ∧ t.boot.ops = s.boot.ops ++ [.directory t.boot.dir]) ∧
      (∃ t, exec (.updatePend m 1) s = .next t ∧ rd t .boot F.BOOT_UPD_STAT_RESULT = 2 ∧ t.boot = s.boot))) ∧
  (∀ (s : State) (ok ue : Bool) (k : Nat) (rest : List FlashOp), s.boot.busy = true → s.boot.ops = .image :: rest → k = otherSlot s → firstPoison s 0 (updSrc s) (rd s .boot F.BOOT_UPD_LEN) = none →
    ∃ t, exec (.updDone ok ue) s = .next t ∧ rd t .boot F.BOOT_UPD_STAT_BUSY = 0 ∧ rd t .boot F.BOOT_UPD_STAT_RESULT = (if ue then 6 else if ok then 0 else 4) ∧ (rd t .boot F.INT_RAW).testBit 8 = true ∧
      (ue = false → ok = true → slotState t.boot.dir k = 1 ∧ rd t .boot (slotVer k) = readMem s 0 (updSrc s + 8) 4) ∧
      (ue = true ∨ ok = false → t.boot.dir = s.boot.dir ∧ (rd t .boot F.FLT_CAUSE).testBit 3 = true)) ∧
  (∀ (s : State) (rest : List FlashOp), s.boot.busy = true →
    (∀ d, s.boot.ops = .directory d :: rest → (∀ c o, newestDir s = some (c, o) → o.seq < 2 ^ 32) → ∃ t c n, exec .flashOperationDone s = .next t ∧ newestDir t = some (c, n) ∧
      n = { d with seq := n.seq } ∧ t.boot.ops = rest ∧ rd t .boot F.FLASH_OPS = min (2 ^ 32 - 1) (rd s .boot F.FLASH_OPS + 1) ∧
      (∀ c' o, newestDir s = some (c', o) → c ≠ c' ∧ n.seq = (o.seq + 1) % 2 ^ 32)) ∧
    (∀ l, s.boot.ops = .retireList l :: rest → (∀ c o, newestList s = some (c, o) → o.seq < 2 ^ 32) → ∃ t c n, exec .flashOperationDone s = .next t ∧ retired t = l ∧ newestList t = some (c, n) ∧
      (∀ c' o, newestList s = some (c', o) → c ≠ c' ∧ n.seq = (o.seq + 1) % 2 ^ 32) ∧ t.boot.ops = rest ∧ t.boot.copy0 = s.boot.copy0 ∧ t.boot.copy1 = s.boot.copy1)) ∧
  (∀ (s : State) (k n : Nat), s.pwr.stage = .recovery → k = rd s .recov F.REC_SLOT → n = rd s .recov F.REC_LEN →
    (rd s .recov F.REC_STAT_BUSY = 1 → ∀ c ∈ [Instr.recErase, .recWrite, .recVerify, .recCommit], ∃ t, exec c s = .next t ∧ rd t .recov F.REC_STAT_RESULT = 1 ∧ t.boot = s.boot) ∧
    (rd s .recov F.REC_STAT_BUSY = 0 →
      (∃ t, exec .recErase s = .next t ∧ rd t .recov F.REC_STAT_BUSY = 1 ∧ t.boot.recCmd = 1 + 8 * k ∧ slotState t.boot.dir k = 0 ∧ t.boot.verified = s.boot.verified.filter (· != k)) ∧
      (0 < n → n ≤ 32768 → rd s .recov F.REC_OFFSET * 4096 + n ≤ 12 * 2 ^ 20 → ∃ t, exec .recWrite s = .next t ∧ rd t .recov F.REC_STAT_BUSY = 1 ∧ t.boot = { s.boot with recCmd := 2 + 8 * k, verified := s.boot.verified.filter (· != k) }) ∧
      (n = 0 ∨ 32768 < n → ∃ t, exec .recWrite s = .next t ∧ rd t .recov F.REC_STAT_BUSY = 0 ∧ rd t .recov F.REC_STAT_RESULT = 2 ∧ t.boot = s.boot) ∧
      (∃ t, exec .recVerify s = .next t ∧ rd t .recov F.REC_STAT_BUSY = 1 ∧ t.boot = { s.boot with recCmd := 3 + 8 * k }) ∧
      (k ∈ s.boot.verified → ∃ t, exec .recCommit s = .next t ∧ rd t .recov F.REC_STAT_BUSY = 1 ∧ t.boot = { s.boot with recCmd := 4 + 8 * k }) ∧
      (k ∉ s.boot.verified → ∃ t, exec .recCommit s = .next t ∧ rd t .recov F.REC_STAT_BUSY = 0 ∧ rd t .recov F.REC_STAT_RESULT = 5 ∧ t.boot = s.boot))) ∧
  (∀ (s : State) (k c : Nat) (ok : Bool) (x : SlotBytes), s.pwr.stage = .recovery → k < 2 → s.boot.recCmd = c + 8 * k →
    (c = 1 ∨ c = 2 → ∃ t, exec (.recCommandDone ok x) s = .next t ∧ rd t .recov F.REC_STAT_BUSY = 0 ∧ rd t .recov F.REC_STAT_RESULT = (if ok then 0 else 3) ∧ t.boot = { s.boot with recCmd := 0 }) ∧
    (c = 3 → slotFault s ok (slotImage x) = none → ∃ t, exec (.recCommandDone ok x) s = .next t ∧ rd t .recov F.REC_STAT_RESULT = 0 ∧
      t.boot = { s.boot with recCmd := 0, verified := k :: s.boot.verified.filter (· != k) }) ∧
    (∀ r part late, c = 3 → r < 16 → slotFault s ok (slotImage x) = some (r, part, late) → ∃ t, exec (.recCommandDone ok x) s = .next t ∧ rd t .recov F.REC_STAT_RESULT = 4 ∧ rd t .recov F.REC_STAT_REASON = r ∧
      t.boot = { s.boot with recCmd := 0 }) ∧
    (c = 4 → ok = true → s.pwr.rstLow = false → tapHold s = false → rd s .pwrDev F.PWR_STAT_VIN_OK = 1 → lcState s ≠ 4 → (∀ c o, newestDir s = some (c, o) → o.seq < 2 ^ 32) → ∃ t cp d, exec (.recCommandDone ok x) s = .next t ∧ t.pwr.stage = .rom ∧ newestDir t = some (cp, d) ∧
      slotState d k = 2 ∧ d.recover = false))

/-- R487–R491, Tables 20-1 to 20-3: the fuses and the transitions of the life cycle.
Conventions of the model in it: logs 77, 78. -/
def Obligations.FusesAndTransitions : Prop :=
  (∀ (s : State) (w : Nat), w = fuseWord s 0 0 → lcCount s = ((List.range 11).map fun b => w / 2 ^ b % 2).sum ∧ lcCycles s = lcCount s / 3 ∧
    (w / 2 ^ 15 % 2 = 1 ∨ (∃ i j, i < j ∧ j < 11 ∧ w.testBit i = false ∧ w.testBit j = true) → lcState s = 4) ∧
    (w / 2 ^ 15 % 2 = 0 → (∀ i j, i < j → j < 11 → w.testBit j = true → w.testBit i = true) → lcState s = [0, 1, 2, 3, 1, 2, 3, 1, 2, 3, 1, 2].getD (lcCount s) 4)) ∧
  (∀ (s : State) (m word row w : Nat), MayWrite s m .lcs F.LCS_FUSE_SEL_WORD.off true → row = bits word 15 8 → w = bits word 4 0 → ∃ t, exec (.fuseSelect m word) s = .next t ∧ t.lcs.fuses = s.lcs.fuses ∧
    if row < 28 then rd t .lcs F.LCS_FUSE_SEL_ROW = row ∧ rd t .lcs F.LCS_FUSE_SEL_WORD = w ∧ rd t .lcs F.LCS_FUSE_RD = if 12 ≤ row ∨ fuseWords row ≤ w then 0 else fuseWord s row w % 2 ^ 32
    else rd t .lcs F.LCS_FUSE_SEL_ROW = rd s .lcs F.LCS_FUSE_SEL_ROW ∧ rd t .lcs F.LCS_FUSE_RD = rd s .lcs F.LCS_FUSE_RD ∧ rd t .lcs F.LCS_FUSE_STAT_RESULT = 3 ∧
      (rd t .lcs F.FLT_CAUSE).testBit 1 = true) ∧
  (∀ (s : State) (m comp v row w data : Nat), MayWrite s m .lcs F.LCS_FUSE_CMD_PROG.off true → Completes s m .lcs F.LCS_FUSE_CMD_PROG.off v → comp = 2 ^ 32 - 1 - v → v.testBit 0 = true →
      row = rd s .lcs F.LCS_FUSE_SEL_ROW → w = rd s .lcs F.LCS_FUSE_SEL_WORD → data = rd s .lcs F.LCS_FUSE_DATA → ∃ t, exec (.fuseProgram m comp) s = .next t ∧ t.lcs.fuses = s.lcs.fuses ∧
    rd t .lcs F.LCS_FUSE_STAT_RESULT = fuseResult s row w data ∧
    if fuseResult s row w data = 0 then t.lcs.prog = some (row, w, data) ∧ rd t .lcs F.LCS_FUSE_STAT_BUSY = 1
    else t.lcs.prog = s.lcs.prog ∧ (rd t .lcs F.INT_RAW).testBit 9 = true ∧ (rd t .lcs F.FLT_CAUSE).testBit 1 = true) ∧
  (∀ (s : State) (row w data blown : Nat), s.lcs.prog = some (row, w, data) → w < 32 → ∃ t, exec (.fuseDone blown) s = .next t ∧ t.lcs.prog = none ∧
    fuseWord t row w = fuseWord s row w ||| (data &&& blown) ∧ (∀ r j, j < 32 → (r, j) ≠ (row, w) → fuseWord t r j = fuseWord s r j) ∧ rd t .lcs F.LCS_FUSE_STAT_BUSY = 0 ∧
    (rd t .lcs F.INT_RAW).testBit 9 = true ∧ rd t .boot F.BOOT_SVN_MIN = svnMin t % 2 ^ 32 ∧
    if data &&& (fuseWord s row w ||| blown) = data then rd t .lcs F.LCS_FUSE_STAT_RESULT = 0
    else rd t .lcs F.LCS_FUSE_STAT_RESULT = 5 ∧ (rd t .lcs F.FLT_CAUSE).testBit 2 = true ∧ (rd t .lcs F.FLT_SEVERE).testBit 2 = true) ∧
  (∀ (s : State) (m target : Nat), (transCheck s m target = 0 → anyBusy s = false ∧ ((target = 4 ∧ lcState s ≠ 4) ∨ (lcState s, target) ∈ [(0, 1), (1, 2), (2, 3), (3, 1)]) ∧
      (lcState s = 2 → target = 3 → lcCycles s < 3) ∧ (lcState s = 3 → target = 1 → erasePend s = false) ∧ (lcState s = 0 → target = 1 → keyProgrammed s 0 = true ∧ factoryWhole s = true)) ∧
    (anyBusy s = false → target = 4 → lcState s ≠ 4 → transCheck s m target = 0) ∧ (anyBusy s = false → lcState s = 1 → target = 2 → m = 0 ∨ m = 4 → transCheck s m target = 0) ∧
    (anyBusy s = false → lcState s = 2 → target = 3 → m = 0 ∨ m = 4 → lcCycles s < 3 → transCheck s m target = 0) ∧
    (anyBusy s = false → lcState s = 3 → target = 1 → m = 4 ∨ m = 5 → erasePend s = false → transCheck s m target = 0) ∧
    (anyBusy s = false → lcState s = 0 → target = 1 → m = 4 ∨ m = 5 → keyProgrammed s 0 = true → factoryWhole s = true → transCheck s m target = 0)) ∧
  (∀ (s : State) (m comp v r : Nat), MayWrite s m .lcs F.LCS_TRANS_TARGET.off true → Completes s m .lcs F.LCS_TRANS_TARGET.off v → comp = 2 ^ 32 - 1 - v → s.lcs.trans = none → r = transCheck s m (v % 8) →
    ∃ t, exec (.lifeCycleTransition m comp) s = .next t ∧ t.lcs.fuses = s.lcs.fuses ∧ rd t .lcs F.LCS_TRANS_STAT_RESULT = r ∧
      if r = 0 then t.lcs.trans = some (v % 8, bits v 10 8) ∧ rd t .lcs F.LCS_TRANS_STAT_BUSY = 1 else t.lcs.trans = none ∧ (rd t .lcs F.FLT_CAUSE).testBit 1 = true) ∧
  (∀ (s : State) (target sel n : Nat), s.lcs.trans = some (target, sel) → fuseWord s 0 0 = 2 ^ n - 1 → n < 11 → rd s .pwrDev F.PWR_STAT_VIN_OK = 1 →
    (target ≠ 4 → powered s = true → s.pwr.rstLow = false → tapHold s = false → ∃ t, exec (.transDone (2 ^ n) (if target = 3 then sel * 2 ^ (4 * (n / 3)) else 0)) s = .next t ∧
      fuseWord t 0 0 = 2 ^ (n + 1) - 1 ∧ fuseWord t 1 0 = (fuseWord s 1 0 ||| if target = 3 then sel * 2 ^ (4 * (n / 3)) else 0) ∧ t.lcs.trans = none ∧ t.pwr.stage = .rom ∧
      rd t .lcs F.LCS_STATE_STATE = [1, 2, 3].getD (n % 3) 0 ∧ rd t .lcs F.LCS_STATE_CYCLES = (n + 1) / 3) ∧
    (target = 4 → powered s = true → s.pwr.rstLow = false → tapHold s = false → ∃ t, exec (.transDone (2 ^ 15) 0) s = .next t ∧ fuseWord t 0 0 = 2 ^ n - 1 + 2 ^ 15 ∧ t.pwr.stage = .scrapped ∧
      rd t .pwrDev F.PWR_DOM_ON = 2 ^ 22 ∧ rd t .lcs F.LCS_STATE_STATE = 4) ∧
    (target ≠ 4 → ∃ t, exec (.transDone 0 0) s = .next t ∧ fuseWord t 0 0 = fuseWord s 0 0 ∧ fuseWord t 1 0 = fuseWord s 1 0 ∧ t.lcs.trans = none ∧ rd t .lcs F.LCS_TRANS_STAT_RESULT = 6 ∧
      (rd t .lcs F.FLT_CAUSE).testBit 2 = true ∧ (rd t .lcs F.INT_RAW).testBit 2 = true)) ∧
  (∀ (s : State), s.pwr.stage = .run → erasePend s = true → ∃ t, exec .returnErasureDone s = .next t ∧ erasePend t = false ∧ lcState t = 3 ∧ rd t .lcs F.LCS_STATE_ERASE_PEND = 0 ∧
    (eraseSelected s 1 = true → (∀ p a, p < 4 → memByte t p a = 0) ∧ (∀ a, 34 * 2 ^ 30 ≤ a → a < 36 * 2 ^ 30 → stackByte t a = 0) ∧ ∀ h < 2 ^ 25, (mapEnt t h).poison = 0) ∧ (eraseSelected s 1 = false → t.mem = s.mem) ∧
    (∀ c b k, c < 4 → b < 16 → k < 32 → ∀ copy < 2, tabFind t.cal.recs ((((c + 1) * 16 + b) * 32 + k) * 2 + copy) =
      if eraseSelected s 2 = true ∧ c < 3 then none else tabFind s.cal.recs ((((c + 1) * 16 + b) * 32 + k) * 2 + copy)))

/-- R493–R495, Table 20-5: attestation, boundary scan and debug.
Conventions of the model in it: logs 4, 79. -/
def Obligations.AttestationAndTestAccess : Prop :=
  (∀ (s : State) (m word : Nat), MayWrite s m .lcs F.LCS_ATTEST_PART.off true → ∃ t, exec (.attest m word) s = .next t ∧ rd t .lcs F.LCS_ATTEST_PART = word % 4 ∧ rd t .lcs F.LCS_ATTEST_GO = 1) ∧
  (∀ (s : State) (n : Nat), rd s .lcs F.LCS_ATTEST_GO = 1 → s.pwr.stage = .run → n = rd s .lcs F.LCS_ATTEST_PART →
    (∀ h, keyGen s n = some h → h ≤ lcCycles s ∧ keyVoid s h = false ∧ ∃ t, exec .attestDone s = .next t ∧ rd t .lcs F.LCS_ATTEST_GO = 0 ∧ rd t .lcs F.LCS_ATTEST_NOKEY = 0 ∧
      (rd t .lcs F.INT_RAW).testBit 12 = true ∧ ∀ k < 12, rd t .lcs (F.LCS_ATTEST_TAG k) = attestTag s n h / 2 ^ (32 * k) % 2 ^ 32) ∧
    (keyGen s n = none → ∃ t, exec .attestDone s = .next t ∧ rd t .lcs F.LCS_ATTEST_GO = 0 ∧ rd t .lcs F.LCS_ATTEST_NOKEY = 1 ∧ (rd t .lcs F.INT_RAW).testBit 12 = true ∧
      ∀ k < 12, rd t .lcs (F.LCS_ATTEST_TAG k) = 0)) ∧
  (∀ (s : State) (c : Instr) (code : Nat), (c, code) ∈ [(Instr.extest, 0), (.clamp, 3), (.highz, 4), (.extestPulse, 5), (.extestTrain, 6)] → powered s = true → tapHold s = false →
    rd s .ptb F.PTB_STAT_UNLOCKED = 0 → ∃ t, exec c s = .next t ∧ t.lcs.tap = code ∧ t.pwr.stage = .held ∧ rd t .pwrDev F.PWR_DOM_ON = 0 ∧ t.lcs.fuses = s.lcs.fuses ∧
      (∀ i < 64, siteState t i = 0) ∧ (rd s .pwrDev F.PWR_STAT_VIN_OK = 1 → t.mem = remapMem s)) ∧
  (∀ (s : State) (c : Instr) (code : Nat), (c, code) ∈ [(Instr.samplePreload, 1), (.idcode, 2), (.debug, 0x10), (.bypass, 0xFF)] →
    (tapHold s = false → ∃ t, exec c s = .next t ∧ t.lcs = { s.lcs with tap := code } ∧ t.regs = s.regs ∧ t.mem = s.mem ∧ t.pat = s.pat ∧ t.pin = s.pin ∧ t.pwr = s.pwr ∧
      t.out = s.out ++ if code = 2 then [.idcode 0x2525655B] else []) ∧
    (tapHold s = true → s.pwr.stage = .held → s.pwr.rstLow = false → rd s .pwrDev F.PWR_STAT_VIN_OK = 1 → rd s .lcs F.LCS_STATE_STATE ≠ 4 → ∃ t, exec c s = .next t ∧ t.lcs.tap = code ∧ t.pwr.stage = .rom)) ∧
  (∀ (s : State), debugLive s = true → s.lcs.tap = 0x10 ∧ (rd s .lcs F.LCS_STATE_STATE = 0 ∨ rd s .lcs F.LCS_STATE_STATE = 3))

/-- R31, R496, R497, Table 20-6: proposals and substitutions. Conventions of the model in it: logs 80, 81, 106. -/
def Obligations.SpareProposals : Prop :=
  (∀ (s : State) (kind inst : Nat) (x : WearFacts), s.pwr.stage = .run → 1 ≤ kind →
    (evidence s kind inst x = true → (kind = 7 → (retireNow s).length < retireCap) →
      (propOf s kind inst = none → s.lcs.props.length < 16 → ∃ t, exec (.proposal kind inst x) s = .next t ∧ t.lcs.nextId = (s.lcs.nextId + 1) % 256 ∧
        t.lcs.props.length = s.lcs.props.length + 1 ∧ t.lcs.props.take s.lcs.props.length = (if (rd s .lcs F.LCS_POLICY_AUTO).testBit (kind - 1) then
          s.lcs.props.map fun y => if y.id = s.lcs.nextId then { y with approved := true } else y else s.lcs.props) ∧
        t.lcs.props.getLast? = some ⟨s.lcs.nextId, kind, inst, x.cause, (rd s .lcs F.LCS_POLICY_AUTO).testBit (kind - 1)⟩ ∧
        rd t .lcs F.PROPOSALS = min (2 ^ 32 - 1) (rd s .lcs F.PROPOSALS + 1) ∧ (rd t .lcs F.INT_RAW).testBit 10 = true) ∧
      ((propOf s kind inst).isSome = true → ∃ t, exec (.proposal kind inst x) s = .next t ∧ t.lcs.props = s.lcs.props ∧ t.lcs.nextId = s.lcs.nextId ∧ rd t .lcs F.PROP_MERGED = min (2 ^ 32 - 1) (rd s .lcs F.PROP_MERGED + 1)) ∧
      (propOf s kind inst = none → 16 ≤ s.lcs.props.length → ∃ t, exec (.proposal kind inst x) s = .next t ∧ t.lcs.props = s.lcs.props ∧ t.lcs.nextId = s.lcs.nextId ∧
        (rd t .lcs F.FLT_CAUSE).testBit 3 = true ∧ (rd t .lcs F.INT_RAW).testBit 3 = true)) ∧
    (evidence s kind inst x = true → kind = 7 → retireCap ≤ (retireNow s).length → ∃ t, exec (.proposal kind inst x) s = .next t ∧ t.lcs = s.lcs ∧
      (rd t .memDev F.FLT_CAUSE).testBit 6 = true ∧ (rd t .memDev F.INT_RAW).testBit 6 = true) ∧
    (evidence s kind inst x = false → exec (.proposal kind inst x) s = .next s) ∧
    (2 ≤ kind → kind ≤ 5 → propOf s kind inst = none → s.lcs.props.length < 16 → ∃ t, exec (.ageingMeasurement [(kind, inst)]) s = .next t ∧
      t.lcs.props.getLast? = some ⟨s.lcs.nextId, kind, inst, 3, (rd s .lcs F.LCS_POLICY_AUTO).testBit (kind - 1)⟩ ∧ (rd t .lcs F.INT_RAW).testBit 10 = true)) ∧
  (∀ (s : State) (m comp v : Nat), MayWrite s m .lcs F.LCS_PROP_CTL_ID.off true → Completes s m .lcs F.LCS_PROP_CTL_ID.off v → comp = 2 ^ 32 - 1 - v → ∀ c ∈ [Instr.proposalApprove m comp, .proposalReject m comp],
    ((s.lcs.props.find? fun x => x.id == v % 256) = none ∨ (v.testBit 8 = true ∧ v.testBit 9 = true) → ∃ t, exec c s = .next t ∧ t.lcs = s.lcs ∧ (rd t .lcs F.FLT_CAUSE).testBit 1 = true) ∧
    (∀ x, (s.lcs.props.find? fun y => y.id == v % 256) = some x → v.testBit 8 = true → v.testBit 9 = false → ∃ t, exec c s = .next t ∧
      t.lcs.props = s.lcs.props.map (fun y => if y.id == x.id then { y with approved := true } else y)) ∧
    (∀ x, (s.lcs.props.find? fun y => y.id == v % 256) = some x → v.testBit 8 = false → v.testBit 9 = true → propRunning s x = false → ∃ t, exec c s = .next t ∧
      t.lcs.props = s.lcs.props.filter (fun y => y.id != x.id) ∧ rd t .lcs F.LCS_PROP_LAST_ID = x.id % 256 ∧ rd t .lcs F.LCS_PROP_LAST_NO_SPARE = 0)) ∧
  (∀ (s : State) (kind inst : Nat) (x : Proposal), s.pwr.stage = .run → propOf s kind inst = some x → x.approved = true →
    (kind = 1 → ∀ k, (engOf s inst).work = none → spareEngine s inst = some k → ∃ t, exec (.spareSubstitution 1 inst) s = .next t ∧ (engOf t k).role = 2 ∧ t.lcs.props = s.lcs.props.filter (fun y => y.id != x.id) ∧
      rd t .lcs F.SUBSTITUTIONS = min (2 ^ 32 - 1) (rd s .lcs F.SUBSTITUTIONS + 1) ∧ (rd t .lcs F.INT_RAW).testBit 11 = true ∧ rd t .mgtDev F.MGT_EVLOG_WCNT = (rd s .mgtDev F.MGT_EVLOG_WCNT + 1) % 2 ^ 64) ∧
    (kind = 1 → (engOf s inst).work = none → spareEngine s inst = none → ∃ t, exec (.spareSubstitution 1 inst) s = .next t ∧ t.pat = s.pat ∧ t.lcs.props = s.lcs.props.filter (fun y => y.id != x.id) ∧
      rd t .lcs F.LCS_PROP_LAST_NO_SPARE = 1 ∧ rd t .lcs F.SUBSTITUTIONS = rd s .lcs F.SUBSTITUTIONS) ∧
    (kind = 9 → bankBusy s (inst / 4) = false → tabGet 0 s.lcs.columns inst < 2 → ∃ t, exec (.spareSubstitution 9 inst) s = .next t ∧ tabGet 0 t.lcs.columns inst = tabGet 0 s.lcs.columns inst + 1 ∧
      t.lcs.props = s.lcs.props.filter (fun y => y.id != x.id) ∧ (rd t .lcs F.INT_RAW).testBit 11 = true) ∧
    (kind = 5 → partBusy s inst = true → exec (.spareSubstitution 5 inst) s = .next s))

/-- R498, R499, Tables 20-7, 20-9 and 20-10: the perturbation page. Conventions of the model in it: logs 3, 82, 83. -/
def Obligations.Perturbations : Prop :=
  (∀ (s : State) (m comp v : Nat), MayWrite s m .ptb F.PTB_UNLOCK.off true → Completes s m .ptb F.PTB_UNLOCK.off v → comp = 2 ^ 32 - 1 - v →
    (v.testBit 0 = true → rd s .lcs F.LCS_STATE_STATE ≠ 4 → ∃ t, exec (.ptbUnlock m comp) s = .next t ∧ rd t .ptb F.PTB_STAT_UNLOCKED = 1 ∧ rd t .ptb F.PTB_STAT_ANNOUNCED = 1 ∧
      t.lcs.unlockAt = aonNow s ∧ (∀ k < 16, rd t .ptb (F.PTB_CTRL_EN k) = rd s .ptb (F.PTB_CTRL_EN k)) ∧
      (tabGet logInit t.mgt.log (rd s .mgtDev F.MGT_EVLOG_WCNT % 4096)).kind = 10 ∧ (tabGet logInit t.mgt.log (rd s .mgtDev F.MGT_EVLOG_WCNT % 4096)).detail = 0x100) ∧
    (v.testBit 0 = true → rd s .lcs F.LCS_STATE_STATE = 4 → ∃ t, exec (.ptbUnlock m comp) s = .next t ∧ rd t .ptb F.PTB_STAT_UNLOCKED = rd s .ptb F.PTB_STAT_UNLOCKED ∧
      (rd t .ptb F.FLT_CAUSE).testBit 1 = true) ∧
    (v.testBit 0 = false → rd s .ptb F.PTB_STAT_UNLOCKED = 1 → ∃ t, exec (.ptbLock m comp) s = .next t ∧ rd t .ptb F.PTB_STAT_UNLOCKED = 0 ∧ rd t .ptb F.PTB_STAT_ANNOUNCED = 1 ∧
      rd t .ptb F.PTB_STAT_ACTIVE = 0 ∧ (∀ k < 16, rd t .ptb (F.PTB_CTRL_EN k) = 0) ∧ (tabGet logInit t.mgt.log (rd s .mgtDev F.MGT_EVLOG_WCNT % 4096)).kind = 10 ∧
      (tabGet logInit t.mgt.log (rd s .mgtDev F.MGT_EVLOG_WCNT % 4096)).detail = 0)) ∧
  (∀ (s : State) (x : Nat), x = (if rd s .ptb F.PTB_TIMEOUT ≠ 0 then rd s .ptb F.PTB_TIMEOUT else 600) → rd s .ptb F.PTB_TIMEOUT ≠ 0 ∨ rd s .lcs F.LCS_STATE_STATE = 1 ∨ rd s .lcs F.LCS_STATE_STATE = 2 →
      rd s .ptb F.PTB_STAT_UNLOCKED = 1 →
    (s.lcs.unlockAt + x * 100000000 ≤ aonNow s → ∃ t, exec .ptbTimeout s = .next t ∧ rd t .ptb F.PTB_STAT_UNLOCKED = 0 ∧ (rd t .ptb F.INT_RAW).testBit 8 = true ∧ ∀ k < 16, rd t .ptb (F.PTB_CTRL_EN k) = 0) ∧
    (aonNow s < s.lcs.unlockAt + x * 100000000 → exec .ptbTimeout s = .next s)) ∧
  (∀ (s : State) (m k word ty : Nat), k < 16 → word < 2 ^ 32 →
    (MayWrite s m .ptb (0x110 + 0x10 * k) true → ty = bits word 4 1 →
      (ptbArgsOk ty (bits word 15 8) (bits word 31 16) = true → word.testBit 0 = true → rd s .ptb F.PTB_STAT_UNLOCKED = 1 → ptbExpired s = false → ptbMagOk ty (rd s .ptb (F.PTB_MAG k)) = true →
          ptbRateOk ty (rd s .ptb (F.PTB_RATE k)) = true → ∃ t, exec (.ptbSlotWrite m k 0 word) s = .next t ∧ rd t .ptb (F.PTB_CTRL_EN k) = 1 ∧ rd t .ptb (F.PTB_CTRL_TYPE k) = ty ∧
        rd t .ptb (F.PTB_CTRL_A k) = bits word 15 8 ∧ rd t .ptb (F.PTB_CTRL_B k) = bits word 31 16 ∧ rd t .ptb F.PTB_STAT_ACTIVE = 1 ∧ (rd t .ptb F.FLT_LIVE).testBit 2 = true ∧
        (rd s .ptb (F.PTB_CTRL_EN k) = 0 → rd t .ptb (F.PTB_COUNT k) = 0) ∧ (rd s .lcs F.LCS_STATE_STATE = 1 ∨ rd s .lcs F.LCS_STATE_STATE = 2 → (rd t .ptb F.FLT_ERRPIN).testBit 2 = true)) ∧
      (ty = 0 ∨ 11 ≤ ty ∨ (word.testBit 0 = true ∧ (rd s .ptb F.PTB_STAT_UNLOCKED = 0 ∨ ptbExpired s = true)) → ∃ t, exec (.ptbSlotWrite m k 0 word) s = .next t ∧ (rd t .ptb F.FLT_CAUSE).testBit 1 = true ∧
        ∀ f ∈ [F.PTB_CTRL_EN k, F.PTB_CTRL_TYPE k, F.PTB_CTRL_A k, F.PTB_CTRL_B k], rd t .ptb f = rd s .ptb f)) ∧
    (MayWrite s m .ptb (0x110 + 0x10 * k + 4) true → ty = rd s .ptb (F.PTB_CTRL_TYPE k) → ∃ t, exec (.ptbSlotWrite m k 1 word) s = .next t ∧
      if ptbMagOk ty word = true then rd t .ptb (F.PTB_MAG k) = word else rd t .ptb (F.PTB_MAG k) = rd s .ptb (F.PTB_MAG k) ∧ (rd t .ptb F.FLT_CAUSE).testBit 1 = true)) ∧
  (∀ (s : State) (k : Nat), k < 16 → ptbLive s k = true →
    (rd s .ptb (F.PTB_CTRL_TYPE k) = 2 → ∃ t, exec (.ptbInjection k) s = .next t ∧ t.lcs = { s.lcs with stall := s.lcs.stall + rd s .ptb (F.PTB_MAG k) } ∧
      rd t .ptb (F.PTB_COUNT k) = min (2 ^ 32 - 1) (rd s .ptb (F.PTB_COUNT k) + 1)) ∧
    (rd s .ptb (F.PTB_CTRL_TYPE k) = 8 → ∃ t, exec (.ptbInjection k) s = .next t ∧ rd t .ptb (F.PTB_CTRL_EN k) = 0 ∧ rd t .ptb (F.PTB_COUNT k) = min (2 ^ 32 - 1) (rd s .ptb (F.PTB_COUNT k) + 1)) ∧
    (∀ a b mag, a = rd s .ptb (F.PTB_CTRL_A k) → b = rd s .ptb (F.PTB_CTRL_B k) → mag = rd s .ptb (F.PTB_MAG k) → ∃ t, exec (.ptbInjection k) s = .next t ∧
      (rd s .ptb (F.PTB_CTRL_TYPE k) = 1 → t.lcs = { s.lcs with grantWait := tabPut 0 s.lcs.grantWait a (disTick s + (mag + 15) / 16) }) ∧
      (rd s .ptb (F.PTB_CTRL_TYPE k) = 3 → t.lcs = { s.lcs with memLat := tabPut (0, 0) s.lcs.memLat a (b, mag) }) ∧
      (rd s .ptb (F.PTB_CTRL_TYPE k) = 6 → t.lcs = { s.lcs with txDelay := tabPut (0, 0) s.lcs.txDelay a (b, mag) }) ∧
      (rd s .ptb (F.PTB_CTRL_TYPE k) = 7 → t.lcs = { s.lcs with rsNext := tabPut 0 s.lcs.rsNext (2 * a + mag) b })) ∧
    (∀ e w, rd s .ptb (F.PTB_CTRL_TYPE k) = 9 → e = rd s .ptb (F.PTB_CTRL_A k) → e < 68 → (engOf s e).work = some w → ∃ t, exec (.ptbInjection k) s = .next t ∧ rd t .ptb (F.PTB_CTRL_EN k) = 0 ∧
      rd t (.eng e) F.ENG_MCHK_CAUSE = 5 ∧ rd t .disDev F.DIS_MCHK_LAST_ENGINE = e ∧ (rd t (.eng e) F.INT_RAW).testBit 8 = true))

/-- The device takes its commands from a queue, first in, first out; with none waiting it idles (the model's own rule, log 1). A step leaves the rest of the queue as it was. -/
def Obligations.StepRunsFront : Prop :=
  (∀ (s : State) (c : Instr) (rest : List Instr), s.pending = c :: rest → step s = exec c { s with pending := rest }) ∧
  (∀ (s : State), s.pending = [] → nextHeld s [] s.bus.held = none → step s = .next s) ∧
  (∀ (s t : State) (c : Instr) (rest : List (Nat × Instr)), s.pending = [] → nextHeld s [] s.bus.held = some (c, rest) → exec c { s with bus := ⟨rest, true⟩ } = .next t →
    step s = .next { t with bus := { t.bus with replay := false } }) ∧
  (∀ (s : State), s.bus.held = [] → nextHeld s [] s.bus.held = none) ∧
  (∀ (s t : State) (c : Instr) (rest : List Instr), s.pending = c :: rest → step s = .next t → t.pending = rest)

/-- R182, R237, R368, R421, R426, Tables 2-2, 16-2, 18-8: the device after reset is in the invariant, and registers hold the values the spec gives (that the field `LCS_POLICY.AUTO` is 0x1FF after reset is the model's reading, log 90).
Conventions of the model in it: logs 6, 32, 90. -/
def Obligations.ResetState : Prop :=
  Inv State.reset ∧ State.reset.pending = [] ∧ State.reset.bus.held = [] ∧ (∀ p a, memByte State.reset p a = 0) ∧ (∀ i, siteState State.reset i = 0) ∧ (∀ q, rd State.reset q F.INT_RAW = 0 ∧ rd State.reset q F.FLT_CAUSE = 0) ∧
  (∀ q, rd State.reset q F.LOCK = 0) ∧ rd State.reset .disDev F.DIS_TICK = 0 ∧ rd State.reset .pwrDev F.PWR_ILIM = 112 ∧ rd State.reset .pwrDev F.PWR_STAT_STATE = 0 ∧
  rd State.reset .pwrDev F.PWR_SLEEP_CTRL_WAKE_EN = 1 ∧ rd State.reset .lcs F.LCS_POLICY_AUTO = 0x1FF ∧ rd State.reset .boot F.BOOT_PART_SEL = 1 ∧ rd State.reset .recov F.REC_ID = 0x525F0021 ∧
  (∀ n d, rd State.reset (.bar4 n) (F.DESC_CTRL_SIZE d) = 4) ∧ rd State.reset .ptb F.PTB_STAT_UNLOCKED = 0

/-- The invariant of the device holds after every step that starts in it (`Inv`: R371, R377, R453, R497). -/
def Obligations.InvKept : Prop := ∀ s t : State, Inv s → step s = .next t → Inv t

/-- No command takes one that waits out of the queue or puts one in, nothing sent is taken back, and the count of the free values drawn never falls (the model's own,
logs 1, 3 and 7); every command answers a next state. -/
def Obligations.NothingTakenBack : Prop :=
  ∀ (c : Instr) (s : State), ∃ t, exec c s = .next t ∧ t.pending = s.pending ∧ s.out <+: t.out ∧ s.freeCtr ≤ t.freeCtr

/-- R487: a blown bit reads 1 and never returns to 0, whatever command runs. -/
def Obligations.FusesOnlyBlow : Prop :=
  ∀ (c : Instr) (s t : State), exec c s = .next t → ∀ row w b, (fuseWord s row w).testBit b = true → (fuseWord t row w).testBit b = true

/-- R427, R438, R442: a bit of `INT_RAW` or of `FLT_CAUSE` that is set stays set through every command that is none of the clearing ones. -/
def Obligations.RaisedBitsStay : Prop :=
  ∀ (c : Instr) (s t : State), mayClear c = false → exec c s = .next t → ∀ q k,
    ((rd s q F.INT_RAW).testBit k = true → (rd t q F.INT_RAW).testBit k = true) ∧ ((rd s q F.FLT_CAUSE).testBit k = true → (rd t q F.FLT_CAUSE).testBit k = true)

/-- The frame of every command that `effects` lists: the parts of the state and the rows of registers it does not name are unchanged. -/
def Obligations.Frame : Prop :=
  ∀ (c : Instr) (s t : State) (ps : List Part) (l : List Fld), effects c = some (ps, l) → exec c s = .next t →
    (∀ x, x ∉ ps → samePart x s t) ∧ ∀ q (g : Fld), (∀ f ∈ l, f.num ≠ g.num % 1024) → rd t q g = rd s q g

/-- R119, R275, R290, R293, R316, R413: where the writers of pattern memory store; every byte outside is unchanged.
Conventions of the model in it: log 31. -/
def Obligations.MemoryFrames : Prop :=
  ∀ (s t : State) (p c : Nat), c < 2 ^ 35 →
    (∀ b n x r base len, x = acqOf s b → x.record = some r → (base, len) = (if x.cfg.wrapPost then (slotAddr x + 0x440, 4 * max 1 (slotWords x.cfg.slot))
        else (slotAddr x + 0x440 + 4 * r.drained, 4 * min n x.words.length)) → base + len ≤ 2 ^ 35 → slotAddr x + 0x440 ≤ 2 ^ 35 →
        Untouched s (bankOwner s b) (slotAddr x + 0x40) 0x400 p c → Untouched s (bankOwner s b) base len p c → exec (.acqWriterDrain b n) s = .next t →
      memByte t p c = memByte s p c) ∧
    (∀ b x, x = acqOf s b → slotAddr x + 0x440 ≤ 2 ^ 35 → Untouched s (bankOwner s b) (slotAddr x) 0x440 p c → exec (.recordDone b) s = .next t → memByte t p c = memByte s p c) ∧
    (∀ n cycles base, base = ledgerBase s n + 16 * ((ledgerOf s n).icnt % ledgerSize s n) → base + 16 ≤ 2 ^ 35 → Untouched s n base 16 p c → exec (.ledgerDrain n cycles) s = .next t →
      memByte t p c = memByte s p c) ∧
    (∀ b base, base = stampBase s b + 8 * (rd s (.bnk b) F.EDG_SR_WCNT % 2 ^ (ringCfgOf s b).2) → base + 8 ≤ 2 ^ 35 → Untouched s (bankOwner s b) base 8 p c →
      exec (.stampRingWrite b) s = .next t → memByte t p c = memByte s p c) ∧
    (∀ n r data, 0 < ringSize s n r → ringBase s n r + ringSize s n r ≤ 2 ^ 35 → data.length ≤ ringSize s n r → Untouched s n (ringBase s n r) (ringSize s n r) p c →
      exec (.ringFetchDone n r data) s = .next t → memByte t p c = memByte s p c) ∧
    (∀ i upset quad k, (∀ j, (siteOf s j).args.jlogEn = true → (siteOf s j).args.jlog + 1024 ≤ 2 ^ 35 ∧ Untouched s (sitePart s j) (siteOf s j).args.jlog 1024 p c) →
      exec (.entryFetch i upset) s = .next t ∨ exec (.dwellEnd i) s = .next t ∨ exec (.vectorPeriod quad k) s = .next t → memByte t p c = memByte s p c)
end

