-- ==== Sys2Proof/Laws/Tab.lean ====
section
/-! SUPPORT. Sparse tables: a read after a write, writes of other keys, and the canonical form. -/

set_option Elab.async false

namespace Sys2Proof.Machine

theorem tabFind_tabIns_self {α : Type} (t : Tab α) (k : Nat) (v : α) : tabFind (tabIns t k v) k = some v := by
  induction t with
  | nil => simp [tabIns, tabFind]
  | cons x t ih =>
    obtain ⟨a, w⟩ := x
    simp only [tabIns]
    split
    · simp [tabFind, *]
    · split
      · simp [tabFind]
      · simp [tabFind, *]

theorem tabFind_tabIns_other {α : Type} (t : Tab α) {k j : Nat} (v : α) (h : j ≠ k) : tabFind (tabIns t k v) j = tabFind t j := by
  induction t with
  | nil => simp [tabIns, tabFind, h]
  | cons x t ih =>
    obtain ⟨a, w⟩ := x
    simp only [tabIns]
    split
    · rename_i e; subst e; simp [tabFind, h]
    · split
      · simp [tabFind, h]
      · simp [tabFind, ih]

theorem tabFind_tabDel_self {α : Type} (t : Tab α) (k : Nat) : tabFind (tabDel t k) k = none := by
  induction t with
  | nil => rfl
  | cons x t ih =>
    obtain ⟨a, w⟩ := x
    by_cases e : a = k
    · simpa [tabDel, e] using ih
    · simp only [tabDel] at ih ⊢
      simp [e, tabFind, ih, Ne.symm e]

theorem tabFind_tabDel_other {α : Type} (t : Tab α) {k j : Nat} (h : j ≠ k) : tabFind (tabDel t k) j = tabFind t j := by
  induction t with
  | nil => rfl
  | cons x t ih =>
    obtain ⟨a, w⟩ := x
    by_cases e : a = k
    · subst e; simpa [tabDel, tabFind, h] using ih
    · simp only [tabDel] at ih ⊢
      simp [e, tabFind, ih]

/-- A read of a key that has been written gives the value written. -/
@[simp] theorem tabGet_tabPut_self {α : Type} [DecidableEq α] (d : α) (t : Tab α) (k : Nat) (v : α) : tabGet d (tabPut d t k v) k = v := by
  unfold tabPut tabGet
  split
  · simp [tabFind_tabDel_self, *]
  · simp [tabFind_tabIns_self]

/-- A write leaves every other key alone. -/
theorem tabGet_tabPut_other {α : Type} [DecidableEq α] (d : α) (t : Tab α) {k j : Nat} (v : α) (h : j ≠ k) :
    tabGet d (tabPut d t k v) j = tabGet d t j := by
  unfold tabPut tabGet
  split
  · simp [tabFind_tabDel_other t h]
  · simp [tabFind_tabIns_other t v h]

theorem tabSorted_cons {α : Type} (a : Nat) (v : α) (t : Tab α) :
    tabSorted ((a, v) :: t) = true ↔ (∀ x ∈ t, a < x.1) ∧ tabSorted t = true := by
  induction t generalizing a v with
  | nil => simp [tabSorted]
  | cons x t ih =>
    obtain ⟨b, w⟩ := x
    simp only [tabSorted, Bool.and_eq_true, decide_eq_true_eq]
    rw [ih b w]
    constructor
    · rintro ⟨h, h1, h2⟩
      refine ⟨fun y hy => ?_, h1, h2⟩
      rcases List.mem_cons.1 hy with rfl | hy
      · exact h
      · exact Nat.lt_trans h (h1 y hy)
    · rintro ⟨h, h1, h2⟩
      exact ⟨h (b, w) (by simp), h1, h2⟩

theorem tabSorted_filter {α : Type} (f : Nat × α → Bool) (t : Tab α) (h : tabSorted t = true) : tabSorted (t.filter f) = true := by
  induction t with
  | nil => rfl
  | cons x t ih =>
    obtain ⟨a, v⟩ := x
    rw [tabSorted_cons] at h
    by_cases e : f (a, v) = true
    · rw [List.filter_cons_of_pos e, tabSorted_cons]
      exact ⟨fun y hy => h.1 y (List.mem_filter.1 hy).1, ih h.2⟩
    · rw [List.filter_cons_of_neg e]
      exact ih h.2

theorem mem_tabIns {α : Type} (t : Tab α) (k : Nat) (v : α) (x : Nat × α) (h : x ∈ tabIns t k v) : x = (k, v) ∨ x ∈ t := by
  induction t with
  | nil => simpa [tabIns] using h
  | cons y t ih =>
    obtain ⟨a, w⟩ := y
    simp only [tabIns] at h
    split at h
    · rcases List.mem_cons.1 h with h | h
      · subst_vars; exact Or.inl rfl
      · exact Or.inr (List.mem_cons_of_mem _ h)
    · split at h
      · rcases List.mem_cons.1 h with h | h
        · exact Or.inl h
        · exact Or.inr h
      · rcases List.mem_cons.1 h with h | h
        · exact Or.inr (by simp [h])
        · rcases ih h with h | h
          · exact Or.inl h
          · exact Or.inr (List.mem_cons_of_mem _ h)

theorem tabSorted_tabIns {α : Type} (t : Tab α) (k : Nat) (v : α) (h : tabSorted t = true) : tabSorted (tabIns t k v) = true := by
  induction t with
  | nil => rfl
  | cons y t ih =>
    obtain ⟨a, w⟩ := y
    rw [tabSorted_cons] at h
    simp only [tabIns]
    split
    · rename_i e; subst e; rw [tabSorted_cons]; exact h
    · split
      · rename_i e
        rw [tabSorted_cons, tabSorted_cons]
        refine ⟨fun y hy => ?_, h⟩
        rcases List.mem_cons.1 hy with rfl | hy
        · exact e
        · exact Nat.lt_trans e (h.1 y hy)
      · rw [tabSorted_cons]
        refine ⟨fun y hy => ?_, ih h.2⟩
        rcases mem_tabIns t k v y hy with rfl | hy
        · simp only; omega
        · exact h.1 y hy

/-- A write keeps the keys rising. -/
theorem tabSorted_tabPut {α : Type} [DecidableEq α] (d : α) (t : Tab α) (k : Nat) (v : α) (h : tabSorted t = true) :
    tabSorted (tabPut d t k v) = true := by
  unfold tabPut
  split
  · exact tabSorted_filter _ t h
  · exact tabSorted_tabIns t k v h

/-- A write lists nothing but the pair written and what was listed; a pair that holds the default is not listed by it. -/
theorem mem_tabPut {α : Type} [DecidableEq α] (d : α) (t : Tab α) (k : Nat) (v : α) (x : Nat × α) (h : x ∈ tabPut d t k v) :
    (x = (k, v) ∧ v ≠ d) ∨ x ∈ t := by
  unfold tabPut at h
  split at h
  · exact Or.inr (List.mem_filter.1 h).1
  · rcases mem_tabIns t k v x h with h | h
    · exact Or.inl ⟨h, by assumption⟩
    · exact Or.inr h

end Sys2Proof.Machine
end

