-- ==== Sys2Proof/Laws/State.lean ====
section
/-! SUPPORT. The named updates of the state, field by field: each touches one component. -/

set_option Elab.async false

namespace Sys2Proof.Machine

open Sys2Proof

@[simp] theorem wr_pending (s : State) (p : Page) (f : Fld) (v : Nat) : (wr s p f v).pending = s.pending := rfl
@[simp] theorem wr_mem (s : State) (p : Page) (f : Fld) (v : Nat) : (wr s p f v).mem = s.mem := rfl
@[simp] theorem wr_freeCtr (s : State) (p : Page) (f : Fld) (v : Nat) : (wr s p f v).freeCtr = s.freeCtr := rfl
@[simp] theorem wr_out (s : State) (p : Page) (f : Fld) (v : Nat) : (wr s p f v).out = s.out := rfl
@[simp] theorem wr_mgt (s : State) (p : Page) (f : Fld) (v : Nat) : (wr s p f v).mgt = s.mgt := rfl
@[simp] theorem wr_tim (s : State) (p : Page) (f : Fld) (v : Nat) : (wr s p f v).tim = s.tim := rfl
@[simp] theorem wr_tlk (s : State) (p : Page) (f : Fld) (v : Nat) : (wr s p f v).tlk = s.tlk := rfl
@[simp] theorem wr_pat (s : State) (p : Page) (f : Fld) (v : Nat) : (wr s p f v).pat = s.pat := rfl
@[simp] theorem wr_pin (s : State) (p : Page) (f : Fld) (v : Nat) : (wr s p f v).pin = s.pin := rfl
@[simp] theorem wr_au (s : State) (p : Page) (f : Fld) (v : Nat) : (wr s p f v).au = s.au := rfl
@[simp] theorem wr_cal (s : State) (p : Page) (f : Fld) (v : Nat) : (wr s p f v).cal = s.cal := rfl
@[simp] theorem wr_memc (s : State) (p : Page) (f : Fld) (v : Nat) : (wr s p f v).memc = s.memc := rfl
@[simp] theorem wr_bus (s : State) (p : Page) (f : Fld) (v : Nat) : (wr s p f v).bus = s.bus := rfl
@[simp] theorem wr_hif (s : State) (p : Page) (f : Fld) (v : Nat) : (wr s p f v).hif = s.hif := rfl
@[simp] theorem wr_pwr (s : State) (p : Page) (f : Fld) (v : Nat) : (wr s p f v).pwr = s.pwr := rfl
@[simp] theorem wr_boot (s : State) (p : Page) (f : Fld) (v : Nat) : (wr s p f v).boot = s.boot := rfl
@[simp] theorem wr_lcs (s : State) (p : Page) (f : Fld) (v : Nat) : (wr s p f v).lcs = s.lcs := rfl

@[simp] theorem emit_pending (s : State) (o : Out) : (emit s o).pending = s.pending := rfl
@[simp] theorem emit_regs (s : State) (o : Out) : (emit s o).regs = s.regs := rfl
@[simp] theorem emit_mem (s : State) (o : Out) : (emit s o).mem = s.mem := rfl
@[simp] theorem emit_freeCtr (s : State) (o : Out) : (emit s o).freeCtr = s.freeCtr := rfl
@[simp] theorem emit_mgt (s : State) (o : Out) : (emit s o).mgt = s.mgt := rfl
@[simp] theorem emit_tim (s : State) (o : Out) : (emit s o).tim = s.tim := rfl
@[simp] theorem emit_tlk (s : State) (o : Out) : (emit s o).tlk = s.tlk := rfl
@[simp] theorem emit_pat (s : State) (o : Out) : (emit s o).pat = s.pat := rfl
@[simp] theorem emit_pin (s : State) (o : Out) : (emit s o).pin = s.pin := rfl
@[simp] theorem emit_au (s : State) (o : Out) : (emit s o).au = s.au := rfl
@[simp] theorem emit_cal (s : State) (o : Out) : (emit s o).cal = s.cal := rfl
@[simp] theorem emit_memc (s : State) (o : Out) : (emit s o).memc = s.memc := rfl
@[simp] theorem emit_bus (s : State) (o : Out) : (emit s o).bus = s.bus := rfl
@[simp] theorem emit_hif (s : State) (o : Out) : (emit s o).hif = s.hif := rfl
@[simp] theorem emit_pwr (s : State) (o : Out) : (emit s o).pwr = s.pwr := rfl
@[simp] theorem emit_boot (s : State) (o : Out) : (emit s o).boot = s.boot := rfl
@[simp] theorem emit_lcs (s : State) (o : Out) : (emit s o).lcs = s.lcs := rfl

@[simp] theorem freeStep_pending (s : State) : (freeStep s).pending = s.pending := rfl
@[simp] theorem freeStep_regs (s : State) : (freeStep s).regs = s.regs := rfl
@[simp] theorem freeStep_mem (s : State) : (freeStep s).mem = s.mem := rfl
@[simp] theorem freeStep_out (s : State) : (freeStep s).out = s.out := rfl
@[simp] theorem freeStep_mgt (s : State) : (freeStep s).mgt = s.mgt := rfl
@[simp] theorem freeStep_tim (s : State) : (freeStep s).tim = s.tim := rfl
@[simp] theorem freeStep_tlk (s : State) : (freeStep s).tlk = s.tlk := rfl
@[simp] theorem freeStep_pat (s : State) : (freeStep s).pat = s.pat := rfl
@[simp] theorem freeStep_pin (s : State) : (freeStep s).pin = s.pin := rfl
@[simp] theorem freeStep_au (s : State) : (freeStep s).au = s.au := rfl
@[simp] theorem freeStep_cal (s : State) : (freeStep s).cal = s.cal := rfl
@[simp] theorem freeStep_memc (s : State) : (freeStep s).memc = s.memc := rfl
@[simp] theorem freeStep_bus (s : State) : (freeStep s).bus = s.bus := rfl
@[simp] theorem freeStep_hif (s : State) : (freeStep s).hif = s.hif := rfl
@[simp] theorem freeStep_pwr (s : State) : (freeStep s).pwr = s.pwr := rfl
@[simp] theorem freeStep_boot (s : State) : (freeStep s).boot = s.boot := rfl
@[simp] theorem freeStep_lcs (s : State) : (freeStep s).lcs = s.lcs := rfl

@[simp] theorem setFltRec_pending (s : State) (p : Page) (c : Nat) (r : FltRec) : (setFltRec s p c r).pending = s.pending := rfl
@[simp] theorem setFltRec_regs (s : State) (p : Page) (c : Nat) (r : FltRec) : (setFltRec s p c r).regs = s.regs := rfl
@[simp] theorem setFltRec_mem (s : State) (p : Page) (c : Nat) (r : FltRec) : (setFltRec s p c r).mem = s.mem := rfl
@[simp] theorem setFltRec_freeCtr (s : State) (p : Page) (c : Nat) (r : FltRec) : (setFltRec s p c r).freeCtr = s.freeCtr := rfl
@[simp] theorem setFltRec_out (s : State) (p : Page) (c : Nat) (r : FltRec) : (setFltRec s p c r).out = s.out := rfl
@[simp] theorem setFltRec_tim (s : State) (p : Page) (c : Nat) (r : FltRec) : (setFltRec s p c r).tim = s.tim := rfl
@[simp] theorem setFltRec_tlk (s : State) (p : Page) (c : Nat) (r : FltRec) : (setFltRec s p c r).tlk = s.tlk := rfl
@[simp] theorem setFltRec_pat (s : State) (p : Page) (c : Nat) (r : FltRec) : (setFltRec s p c r).pat = s.pat := rfl
@[simp] theorem setFltRec_pin (s : State) (p : Page) (c : Nat) (r : FltRec) : (setFltRec s p c r).pin = s.pin := rfl
@[simp] theorem setFltRec_au (s : State) (p : Page) (c : Nat) (r : FltRec) : (setFltRec s p c r).au = s.au := rfl
@[simp] theorem setFltRec_cal (s : State) (p : Page) (c : Nat) (r : FltRec) : (setFltRec s p c r).cal = s.cal := rfl
@[simp] theorem setFltRec_memc (s : State) (p : Page) (c : Nat) (r : FltRec) : (setFltRec s p c r).memc = s.memc := rfl
@[simp] theorem setFltRec_bus (s : State) (p : Page) (c : Nat) (r : FltRec) : (setFltRec s p c r).bus = s.bus := rfl
@[simp] theorem setFltRec_hif (s : State) (p : Page) (c : Nat) (r : FltRec) : (setFltRec s p c r).hif = s.hif := rfl
@[simp] theorem setFltRec_pwr (s : State) (p : Page) (c : Nat) (r : FltRec) : (setFltRec s p c r).pwr = s.pwr := rfl
@[simp] theorem setFltRec_boot (s : State) (p : Page) (c : Nat) (r : FltRec) : (setFltRec s p c r).boot = s.boot := rfl
@[simp] theorem setFltRec_lcs (s : State) (p : Page) (c : Nat) (r : FltRec) : (setFltRec s p c r).lcs = s.lcs := rfl

@[simp] theorem putByte_pending (s : State) (n a : Nat) (b : BitVec 8) : (putByte s n a b).pending = s.pending := rfl
@[simp] theorem putByte_regs (s : State) (n a : Nat) (b : BitVec 8) : (putByte s n a b).regs = s.regs := rfl
@[simp] theorem putByte_freeCtr (s : State) (n a : Nat) (b : BitVec 8) : (putByte s n a b).freeCtr = s.freeCtr := rfl
@[simp] theorem putByte_out (s : State) (n a : Nat) (b : BitVec 8) : (putByte s n a b).out = s.out := rfl
@[simp] theorem putByte_mgt (s : State) (n a : Nat) (b : BitVec 8) : (putByte s n a b).mgt = s.mgt := rfl
@[simp] theorem putByte_tim (s : State) (n a : Nat) (b : BitVec 8) : (putByte s n a b).tim = s.tim := rfl
@[simp] theorem putByte_tlk (s : State) (n a : Nat) (b : BitVec 8) : (putByte s n a b).tlk = s.tlk := rfl
@[simp] theorem putByte_pat (s : State) (n a : Nat) (b : BitVec 8) : (putByte s n a b).pat = s.pat := rfl
@[simp] theorem putByte_pin (s : State) (n a : Nat) (b : BitVec 8) : (putByte s n a b).pin = s.pin := rfl
@[simp] theorem putByte_au (s : State) (n a : Nat) (b : BitVec 8) : (putByte s n a b).au = s.au := rfl
@[simp] theorem putByte_cal (s : State) (n a : Nat) (b : BitVec 8) : (putByte s n a b).cal = s.cal := rfl
@[simp] theorem putByte_memc (s : State) (n a : Nat) (b : BitVec 8) : (putByte s n a b).memc = s.memc := rfl
@[simp] theorem putByte_bus (s : State) (n a : Nat) (b : BitVec 8) : (putByte s n a b).bus = s.bus := rfl
@[simp] theorem putByte_hif (s : State) (n a : Nat) (b : BitVec 8) : (putByte s n a b).hif = s.hif := rfl
@[simp] theorem putByte_pwr (s : State) (n a : Nat) (b : BitVec 8) : (putByte s n a b).pwr = s.pwr := rfl
@[simp] theorem putByte_boot (s : State) (n a : Nat) (b : BitVec 8) : (putByte s n a b).boot = s.boot := rfl
@[simp] theorem putByte_lcs (s : State) (n a : Nat) (b : BitVec 8) : (putByte s n a b).lcs = s.lcs := rfl

@[simp] theorem setSite_pending (s : State) (i : Nat) (x : Site) : (setSite s i x).pending = s.pending := rfl
@[simp] theorem setSite_regs (s : State) (i : Nat) (x : Site) : (setSite s i x).regs = s.regs := rfl
@[simp] theorem setSite_mem (s : State) (i : Nat) (x : Site) : (setSite s i x).mem = s.mem := rfl
@[simp] theorem setSite_freeCtr (s : State) (i : Nat) (x : Site) : (setSite s i x).freeCtr = s.freeCtr := rfl
@[simp] theorem setSite_out (s : State) (i : Nat) (x : Site) : (setSite s i x).out = s.out := rfl
@[simp] theorem setSite_mgt (s : State) (i : Nat) (x : Site) : (setSite s i x).mgt = s.mgt := rfl
@[simp] theorem setSite_tim (s : State) (i : Nat) (x : Site) : (setSite s i x).tim = s.tim := rfl
@[simp] theorem setSite_tlk (s : State) (i : Nat) (x : Site) : (setSite s i x).tlk = s.tlk := rfl
@[simp] theorem setSite_pin (s : State) (i : Nat) (x : Site) : (setSite s i x).pin = s.pin := rfl
@[simp] theorem setSite_au (s : State) (i : Nat) (x : Site) : (setSite s i x).au = s.au := rfl
@[simp] theorem setSite_cal (s : State) (i : Nat) (x : Site) : (setSite s i x).cal = s.cal := rfl
@[simp] theorem setSite_memc (s : State) (i : Nat) (x : Site) : (setSite s i x).memc = s.memc := rfl
@[simp] theorem setSite_bus (s : State) (i : Nat) (x : Site) : (setSite s i x).bus = s.bus := rfl
@[simp] theorem setSite_hif (s : State) (i : Nat) (x : Site) : (setSite s i x).hif = s.hif := rfl
@[simp] theorem setSite_pwr (s : State) (i : Nat) (x : Site) : (setSite s i x).pwr = s.pwr := rfl
@[simp] theorem setSite_boot (s : State) (i : Nat) (x : Site) : (setSite s i x).boot = s.boot := rfl
@[simp] theorem setSite_lcs (s : State) (i : Nat) (x : Site) : (setSite s i x).lcs = s.lcs := rfl

@[simp] theorem setRoute_pending (s : State) (r : Nat) (x : Route) : (setRoute s r x).pending = s.pending := rfl
@[simp] theorem setRoute_regs (s : State) (r : Nat) (x : Route) : (setRoute s r x).regs = s.regs := rfl
@[simp] theorem setRoute_mem (s : State) (r : Nat) (x : Route) : (setRoute s r x).mem = s.mem := rfl
@[simp] theorem setRoute_freeCtr (s : State) (r : Nat) (x : Route) : (setRoute s r x).freeCtr = s.freeCtr := rfl
@[simp] theorem setRoute_out (s : State) (r : Nat) (x : Route) : (setRoute s r x).out = s.out := rfl
@[simp] theorem setRoute_mgt (s : State) (r : Nat) (x : Route) : (setRoute s r x).mgt = s.mgt := rfl
@[simp] theorem setRoute_tim (s : State) (r : Nat) (x : Route) : (setRoute s r x).tim = s.tim := rfl
@[simp] theorem setRoute_tlk (s : State) (r : Nat) (x : Route) : (setRoute s r x).tlk = s.tlk := rfl
@[simp] theorem setRoute_pin (s : State) (r : Nat) (x : Route) : (setRoute s r x).pin = s.pin := rfl
@[simp] theorem setRoute_au (s : State) (r : Nat) (x : Route) : (setRoute s r x).au = s.au := rfl
@[simp] theorem setRoute_cal (s : State) (r : Nat) (x : Route) : (setRoute s r x).cal = s.cal := rfl
@[simp] theorem setRoute_memc (s : State) (r : Nat) (x : Route) : (setRoute s r x).memc = s.memc := rfl
@[simp] theorem setRoute_bus (s : State) (r : Nat) (x : Route) : (setRoute s r x).bus = s.bus := rfl
@[simp] theorem setRoute_hif (s : State) (r : Nat) (x : Route) : (setRoute s r x).hif = s.hif := rfl
@[simp] theorem setRoute_pwr (s : State) (r : Nat) (x : Route) : (setRoute s r x).pwr = s.pwr := rfl
@[simp] theorem setRoute_boot (s : State) (r : Nat) (x : Route) : (setRoute s r x).boot = s.boot := rfl
@[simp] theorem setRoute_lcs (s : State) (r : Nat) (x : Route) : (setRoute s r x).lcs = s.lcs := rfl

@[simp] theorem setFur_pending (s : State) (q : Nat) (x : Fur) : (setFur s q x).pending = s.pending := rfl
@[simp] theorem setFur_regs (s : State) (q : Nat) (x : Fur) : (setFur s q x).regs = s.regs := rfl
@[simp] theorem setFur_mem (s : State) (q : Nat) (x : Fur) : (setFur s q x).mem = s.mem := rfl
@[simp] theorem setFur_freeCtr (s : State) (q : Nat) (x : Fur) : (setFur s q x).freeCtr = s.freeCtr := rfl
@[simp] theorem setFur_out (s : State) (q : Nat) (x : Fur) : (setFur s q x).out = s.out := rfl
@[simp] theorem setFur_mgt (s : State) (q : Nat) (x : Fur) : (setFur s q x).mgt = s.mgt := rfl
@[simp] theorem setFur_tim (s : State) (q : Nat) (x : Fur) : (setFur s q x).tim = s.tim := rfl
@[simp] theorem setFur_tlk (s : State) (q : Nat) (x : Fur) : (setFur s q x).tlk = s.tlk := rfl
@[simp] theorem setFur_pin (s : State) (q : Nat) (x : Fur) : (setFur s q x).pin = s.pin := rfl
@[simp] theorem setFur_au (s : State) (q : Nat) (x : Fur) : (setFur s q x).au = s.au := rfl
@[simp] theorem setFur_cal (s : State) (q : Nat) (x : Fur) : (setFur s q x).cal = s.cal := rfl
@[simp] theorem setFur_memc (s : State) (q : Nat) (x : Fur) : (setFur s q x).memc = s.memc := rfl
@[simp] theorem setFur_bus (s : State) (q : Nat) (x : Fur) : (setFur s q x).bus = s.bus := rfl
@[simp] theorem setFur_hif (s : State) (q : Nat) (x : Fur) : (setFur s q x).hif = s.hif := rfl
@[simp] theorem setFur_pwr (s : State) (q : Nat) (x : Fur) : (setFur s q x).pwr = s.pwr := rfl
@[simp] theorem setFur_boot (s : State) (q : Nat) (x : Fur) : (setFur s q x).boot = s.boot := rfl
@[simp] theorem setFur_lcs (s : State) (q : Nat) (x : Fur) : (setFur s q x).lcs = s.lcs := rfl

@[simp] theorem setEng_pending (s : State) (e : Nat) (x : Eng) : (setEng s e x).pending = s.pending := rfl
@[simp] theorem setEng_regs (s : State) (e : Nat) (x : Eng) : (setEng s e x).regs = s.regs := rfl
@[simp] theorem setEng_mem (s : State) (e : Nat) (x : Eng) : (setEng s e x).mem = s.mem := rfl
@[simp] theorem setEng_freeCtr (s : State) (e : Nat) (x : Eng) : (setEng s e x).freeCtr = s.freeCtr := rfl
@[simp] theorem setEng_out (s : State) (e : Nat) (x : Eng) : (setEng s e x).out = s.out := rfl
@[simp] theorem setEng_mgt (s : State) (e : Nat) (x : Eng) : (setEng s e x).mgt = s.mgt := rfl
@[simp] theorem setEng_tim (s : State) (e : Nat) (x : Eng) : (setEng s e x).tim = s.tim := rfl
@[simp] theorem setEng_tlk (s : State) (e : Nat) (x : Eng) : (setEng s e x).tlk = s.tlk := rfl
@[simp] theorem setEng_pin (s : State) (e : Nat) (x : Eng) : (setEng s e x).pin = s.pin := rfl
@[simp] theorem setEng_au (s : State) (e : Nat) (x : Eng) : (setEng s e x).au = s.au := rfl
@[simp] theorem setEng_cal (s : State) (e : Nat) (x : Eng) : (setEng s e x).cal = s.cal := rfl
@[simp] theorem setEng_memc (s : State) (e : Nat) (x : Eng) : (setEng s e x).memc = s.memc := rfl
@[simp] theorem setEng_bus (s : State) (e : Nat) (x : Eng) : (setEng s e x).bus = s.bus := rfl
@[simp] theorem setEng_hif (s : State) (e : Nat) (x : Eng) : (setEng s e x).hif = s.hif := rfl
@[simp] theorem setEng_pwr (s : State) (e : Nat) (x : Eng) : (setEng s e x).pwr = s.pwr := rfl
@[simp] theorem setEng_boot (s : State) (e : Nat) (x : Eng) : (setEng s e x).boot = s.boot := rfl
@[simp] theorem setEng_lcs (s : State) (e : Nat) (x : Eng) : (setEng s e x).lcs = s.lcs := rfl

@[simp] theorem setBank_pending (s : State) (b : Nat) (x : Bank) : (setBank s b x).pending = s.pending := rfl
@[simp] theorem setBank_regs (s : State) (b : Nat) (x : Bank) : (setBank s b x).regs = s.regs := rfl
@[simp] theorem setBank_mem (s : State) (b : Nat) (x : Bank) : (setBank s b x).mem = s.mem := rfl
@[simp] theorem setBank_freeCtr (s : State) (b : Nat) (x : Bank) : (setBank s b x).freeCtr = s.freeCtr := rfl
@[simp] theorem setBank_out (s : State) (b : Nat) (x : Bank) : (setBank s b x).out = s.out := rfl
@[simp] theorem setBank_mgt (s : State) (b : Nat) (x : Bank) : (setBank s b x).mgt = s.mgt := rfl
@[simp] theorem setBank_tim (s : State) (b : Nat) (x : Bank) : (setBank s b x).tim = s.tim := rfl
@[simp] theorem setBank_tlk (s : State) (b : Nat) (x : Bank) : (setBank s b x).tlk = s.tlk := rfl
@[simp] theorem setBank_pat (s : State) (b : Nat) (x : Bank) : (setBank s b x).pat = s.pat := rfl
@[simp] theorem setBank_au (s : State) (b : Nat) (x : Bank) : (setBank s b x).au = s.au := rfl
@[simp] theorem setBank_cal (s : State) (b : Nat) (x : Bank) : (setBank s b x).cal = s.cal := rfl
@[simp] theorem setBank_memc (s : State) (b : Nat) (x : Bank) : (setBank s b x).memc = s.memc := rfl
@[simp] theorem setBank_bus (s : State) (b : Nat) (x : Bank) : (setBank s b x).bus = s.bus := rfl
@[simp] theorem setBank_hif (s : State) (b : Nat) (x : Bank) : (setBank s b x).hif = s.hif := rfl
@[simp] theorem setBank_pwr (s : State) (b : Nat) (x : Bank) : (setBank s b x).pwr = s.pwr := rfl
@[simp] theorem setBank_boot (s : State) (b : Nat) (x : Bank) : (setBank s b x).boot = s.boot := rfl
@[simp] theorem setBank_lcs (s : State) (b : Nat) (x : Bank) : (setBank s b x).lcs = s.lcs := rfl

@[simp] theorem setPin_pending (s : State) (p : Nat) (x : Pin) : (setPin s p x).pending = s.pending := rfl
@[simp] theorem setPin_regs (s : State) (p : Nat) (x : Pin) : (setPin s p x).regs = s.regs := rfl
@[simp] theorem setPin_mem (s : State) (p : Nat) (x : Pin) : (setPin s p x).mem = s.mem := rfl
@[simp] theorem setPin_freeCtr (s : State) (p : Nat) (x : Pin) : (setPin s p x).freeCtr = s.freeCtr := rfl
@[simp] theorem setPin_out (s : State) (p : Nat) (x : Pin) : (setPin s p x).out = s.out := rfl
@[simp] theorem setPin_mgt (s : State) (p : Nat) (x : Pin) : (setPin s p x).mgt = s.mgt := rfl
@[simp] theorem setPin_tim (s : State) (p : Nat) (x : Pin) : (setPin s p x).tim = s.tim := rfl
@[simp] theorem setPin_tlk (s : State) (p : Nat) (x : Pin) : (setPin s p x).tlk = s.tlk := rfl
@[simp] theorem setPin_pat (s : State) (p : Nat) (x : Pin) : (setPin s p x).pat = s.pat := rfl
@[simp] theorem setPin_au (s : State) (p : Nat) (x : Pin) : (setPin s p x).au = s.au := rfl
@[simp] theorem setPin_cal (s : State) (p : Nat) (x : Pin) : (setPin s p x).cal = s.cal := rfl
@[simp] theorem setPin_memc (s : State) (p : Nat) (x : Pin) : (setPin s p x).memc = s.memc := rfl
@[simp] theorem setPin_bus (s : State) (p : Nat) (x : Pin) : (setPin s p x).bus = s.bus := rfl
@[simp] theorem setPin_hif (s : State) (p : Nat) (x : Pin) : (setPin s p x).hif = s.hif := rfl
@[simp] theorem setPin_pwr (s : State) (p : Nat) (x : Pin) : (setPin s p x).pwr = s.pwr := rfl
@[simp] theorem setPin_boot (s : State) (p : Nat) (x : Pin) : (setPin s p x).boot = s.boot := rfl
@[simp] theorem setPin_lcs (s : State) (p : Nat) (x : Pin) : (setPin s p x).lcs = s.lcs := rfl

@[simp] theorem setPec_pending (s : State) (n : Nat) (x : Pec) : (setPec s n x).pending = s.pending := rfl
@[simp] theorem setPec_regs (s : State) (n : Nat) (x : Pec) : (setPec s n x).regs = s.regs := rfl
@[simp] theorem setPec_mem (s : State) (n : Nat) (x : Pec) : (setPec s n x).mem = s.mem := rfl
@[simp] theorem setPec_freeCtr (s : State) (n : Nat) (x : Pec) : (setPec s n x).freeCtr = s.freeCtr := rfl
@[simp] theorem setPec_out (s : State) (n : Nat) (x : Pec) : (setPec s n x).out = s.out := rfl
@[simp] theorem setPec_mgt (s : State) (n : Nat) (x : Pec) : (setPec s n x).mgt = s.mgt := rfl
@[simp] theorem setPec_tim (s : State) (n : Nat) (x : Pec) : (setPec s n x).tim = s.tim := rfl
@[simp] theorem setPec_tlk (s : State) (n : Nat) (x : Pec) : (setPec s n x).tlk = s.tlk := rfl
@[simp] theorem setPec_pat (s : State) (n : Nat) (x : Pec) : (setPec s n x).pat = s.pat := rfl
@[simp] theorem setPec_au (s : State) (n : Nat) (x : Pec) : (setPec s n x).au = s.au := rfl
@[simp] theorem setPec_cal (s : State) (n : Nat) (x : Pec) : (setPec s n x).cal = s.cal := rfl
@[simp] theorem setPec_memc (s : State) (n : Nat) (x : Pec) : (setPec s n x).memc = s.memc := rfl
@[simp] theorem setPec_bus (s : State) (n : Nat) (x : Pec) : (setPec s n x).bus = s.bus := rfl
@[simp] theorem setPec_hif (s : State) (n : Nat) (x : Pec) : (setPec s n x).hif = s.hif := rfl
@[simp] theorem setPec_pwr (s : State) (n : Nat) (x : Pec) : (setPec s n x).pwr = s.pwr := rfl
@[simp] theorem setPec_boot (s : State) (n : Nat) (x : Pec) : (setPec s n x).boot = s.boot := rfl
@[simp] theorem setPec_lcs (s : State) (n : Nat) (x : Pec) : (setPec s n x).lcs = s.lcs := rfl

@[simp] theorem setLedger_pending (s : State) (n : Nat) (x : Ledger) : (setLedger s n x).pending = s.pending := rfl
@[simp] theorem setLedger_regs (s : State) (n : Nat) (x : Ledger) : (setLedger s n x).regs = s.regs := rfl
@[simp] theorem setLedger_mem (s : State) (n : Nat) (x : Ledger) : (setLedger s n x).mem = s.mem := rfl
@[simp] theorem setLedger_freeCtr (s : State) (n : Nat) (x : Ledger) : (setLedger s n x).freeCtr = s.freeCtr := rfl
@[simp] theorem setLedger_out (s : State) (n : Nat) (x : Ledger) : (setLedger s n x).out = s.out := rfl
@[simp] theorem setLedger_mgt (s : State) (n : Nat) (x : Ledger) : (setLedger s n x).mgt = s.mgt := rfl
@[simp] theorem setLedger_tim (s : State) (n : Nat) (x : Ledger) : (setLedger s n x).tim = s.tim := rfl
@[simp] theorem setLedger_tlk (s : State) (n : Nat) (x : Ledger) : (setLedger s n x).tlk = s.tlk := rfl
@[simp] theorem setLedger_pat (s : State) (n : Nat) (x : Ledger) : (setLedger s n x).pat = s.pat := rfl
@[simp] theorem setLedger_au (s : State) (n : Nat) (x : Ledger) : (setLedger s n x).au = s.au := rfl
@[simp] theorem setLedger_cal (s : State) (n : Nat) (x : Ledger) : (setLedger s n x).cal = s.cal := rfl
@[simp] theorem setLedger_memc (s : State) (n : Nat) (x : Ledger) : (setLedger s n x).memc = s.memc := rfl
@[simp] theorem setLedger_bus (s : State) (n : Nat) (x : Ledger) : (setLedger s n x).bus = s.bus := rfl
@[simp] theorem setLedger_hif (s : State) (n : Nat) (x : Ledger) : (setLedger s n x).hif = s.hif := rfl
@[simp] theorem setLedger_pwr (s : State) (n : Nat) (x : Ledger) : (setLedger s n x).pwr = s.pwr := rfl
@[simp] theorem setLedger_boot (s : State) (n : Nat) (x : Ledger) : (setLedger s n x).boot = s.boot := rfl
@[simp] theorem setLedger_lcs (s : State) (n : Nat) (x : Ledger) : (setLedger s n x).lcs = s.lcs := rfl

@[simp] theorem setConv_pending (s : State) (p : Nat) (x : Conv) : (setConv s p x).pending = s.pending := rfl
@[simp] theorem setConv_regs (s : State) (p : Nat) (x : Conv) : (setConv s p x).regs = s.regs := rfl
@[simp] theorem setConv_mem (s : State) (p : Nat) (x : Conv) : (setConv s p x).mem = s.mem := rfl
@[simp] theorem setConv_freeCtr (s : State) (p : Nat) (x : Conv) : (setConv s p x).freeCtr = s.freeCtr := rfl
@[simp] theorem setConv_out (s : State) (p : Nat) (x : Conv) : (setConv s p x).out = s.out := rfl
@[simp] theorem setConv_mgt (s : State) (p : Nat) (x : Conv) : (setConv s p x).mgt = s.mgt := rfl
@[simp] theorem setConv_tim (s : State) (p : Nat) (x : Conv) : (setConv s p x).tim = s.tim := rfl
@[simp] theorem setConv_tlk (s : State) (p : Nat) (x : Conv) : (setConv s p x).tlk = s.tlk := rfl
@[simp] theorem setConv_pat (s : State) (p : Nat) (x : Conv) : (setConv s p x).pat = s.pat := rfl
@[simp] theorem setConv_au (s : State) (p : Nat) (x : Conv) : (setConv s p x).au = s.au := rfl
@[simp] theorem setConv_cal (s : State) (p : Nat) (x : Conv) : (setConv s p x).cal = s.cal := rfl
@[simp] theorem setConv_memc (s : State) (p : Nat) (x : Conv) : (setConv s p x).memc = s.memc := rfl
@[simp] theorem setConv_bus (s : State) (p : Nat) (x : Conv) : (setConv s p x).bus = s.bus := rfl
@[simp] theorem setConv_hif (s : State) (p : Nat) (x : Conv) : (setConv s p x).hif = s.hif := rfl
@[simp] theorem setConv_pwr (s : State) (p : Nat) (x : Conv) : (setConv s p x).pwr = s.pwr := rfl
@[simp] theorem setConv_boot (s : State) (p : Nat) (x : Conv) : (setConv s p x).boot = s.boot := rfl
@[simp] theorem setConv_lcs (s : State) (p : Nat) (x : Conv) : (setConv s p x).lcs = s.lcs := rfl

@[simp] theorem setSring_pending (s : State) (b : Nat) (x : SRing) : (setSring s b x).pending = s.pending := rfl
@[simp] theorem setSring_regs (s : State) (b : Nat) (x : SRing) : (setSring s b x).regs = s.regs := rfl
@[simp] theorem setSring_mem (s : State) (b : Nat) (x : SRing) : (setSring s b x).mem = s.mem := rfl
@[simp] theorem setSring_freeCtr (s : State) (b : Nat) (x : SRing) : (setSring s b x).freeCtr = s.freeCtr := rfl
@[simp] theorem setSring_out (s : State) (b : Nat) (x : SRing) : (setSring s b x).out = s.out := rfl
@[simp] theorem setSring_mgt (s : State) (b : Nat) (x : SRing) : (setSring s b x).mgt = s.mgt := rfl
@[simp] theorem setSring_tim (s : State) (b : Nat) (x : SRing) : (setSring s b x).tim = s.tim := rfl
@[simp] theorem setSring_tlk (s : State) (b : Nat) (x : SRing) : (setSring s b x).tlk = s.tlk := rfl
@[simp] theorem setSring_pat (s : State) (b : Nat) (x : SRing) : (setSring s b x).pat = s.pat := rfl
@[simp] theorem setSring_au (s : State) (b : Nat) (x : SRing) : (setSring s b x).au = s.au := rfl
@[simp] theorem setSring_cal (s : State) (b : Nat) (x : SRing) : (setSring s b x).cal = s.cal := rfl
@[simp] theorem setSring_memc (s : State) (b : Nat) (x : SRing) : (setSring s b x).memc = s.memc := rfl
@[simp] theorem setSring_bus (s : State) (b : Nat) (x : SRing) : (setSring s b x).bus = s.bus := rfl
@[simp] theorem setSring_hif (s : State) (b : Nat) (x : SRing) : (setSring s b x).hif = s.hif := rfl
@[simp] theorem setSring_pwr (s : State) (b : Nat) (x : SRing) : (setSring s b x).pwr = s.pwr := rfl
@[simp] theorem setSring_boot (s : State) (b : Nat) (x : SRing) : (setSring s b x).boot = s.boot := rfl
@[simp] theorem setSring_lcs (s : State) (b : Nat) (x : SRing) : (setSring s b x).lcs = s.lcs := rfl

@[simp] theorem setAu_pending (s : State) (u : Nat) (x : Au) : (setAu s u x).pending = s.pending := rfl
@[simp] theorem setAu_regs (s : State) (u : Nat) (x : Au) : (setAu s u x).regs = s.regs := rfl
@[simp] theorem setAu_mem (s : State) (u : Nat) (x : Au) : (setAu s u x).mem = s.mem := rfl
@[simp] theorem setAu_freeCtr (s : State) (u : Nat) (x : Au) : (setAu s u x).freeCtr = s.freeCtr := rfl
@[simp] theorem setAu_out (s : State) (u : Nat) (x : Au) : (setAu s u x).out = s.out := rfl
@[simp] theorem setAu_mgt (s : State) (u : Nat) (x : Au) : (setAu s u x).mgt = s.mgt := rfl
@[simp] theorem setAu_tim (s : State) (u : Nat) (x : Au) : (setAu s u x).tim = s.tim := rfl
@[simp] theorem setAu_tlk (s : State) (u : Nat) (x : Au) : (setAu s u x).tlk = s.tlk := rfl
@[simp] theorem setAu_pat (s : State) (u : Nat) (x : Au) : (setAu s u x).pat = s.pat := rfl
@[simp] theorem setAu_pin (s : State) (u : Nat) (x : Au) : (setAu s u x).pin = s.pin := rfl
@[simp] theorem setAu_cal (s : State) (u : Nat) (x : Au) : (setAu s u x).cal = s.cal := rfl
@[simp] theorem setAu_memc (s : State) (u : Nat) (x : Au) : (setAu s u x).memc = s.memc := rfl
@[simp] theorem setAu_bus (s : State) (u : Nat) (x : Au) : (setAu s u x).bus = s.bus := rfl
@[simp] theorem setAu_hif (s : State) (u : Nat) (x : Au) : (setAu s u x).hif = s.hif := rfl
@[simp] theorem setAu_pwr (s : State) (u : Nat) (x : Au) : (setAu s u x).pwr = s.pwr := rfl
@[simp] theorem setAu_boot (s : State) (u : Nat) (x : Au) : (setAu s u x).boot = s.boot := rfl
@[simp] theorem setAu_lcs (s : State) (u : Nat) (x : Au) : (setAu s u x).lcs = s.lcs := rfl

@[simp] theorem setTport_pending (s : State) (n : Nat) (x : TlkPort) : (setTport s n x).pending = s.pending := rfl
@[simp] theorem setTport_regs (s : State) (n : Nat) (x : TlkPort) : (setTport s n x).regs = s.regs := rfl
@[simp] theorem setTport_mem (s : State) (n : Nat) (x : TlkPort) : (setTport s n x).mem = s.mem := rfl
@[simp] theorem setTport_freeCtr (s : State) (n : Nat) (x : TlkPort) : (setTport s n x).freeCtr = s.freeCtr := rfl
@[simp] theorem setTport_out (s : State) (n : Nat) (x : TlkPort) : (setTport s n x).out = s.out := rfl
@[simp] theorem setTport_mgt (s : State) (n : Nat) (x : TlkPort) : (setTport s n x).mgt = s.mgt := rfl
@[simp] theorem setTport_tim (s : State) (n : Nat) (x : TlkPort) : (setTport s n x).tim = s.tim := rfl
@[simp] theorem setTport_pat (s : State) (n : Nat) (x : TlkPort) : (setTport s n x).pat = s.pat := rfl
@[simp] theorem setTport_pin (s : State) (n : Nat) (x : TlkPort) : (setTport s n x).pin = s.pin := rfl
@[simp] theorem setTport_au (s : State) (n : Nat) (x : TlkPort) : (setTport s n x).au = s.au := rfl
@[simp] theorem setTport_cal (s : State) (n : Nat) (x : TlkPort) : (setTport s n x).cal = s.cal := rfl
@[simp] theorem setTport_memc (s : State) (n : Nat) (x : TlkPort) : (setTport s n x).memc = s.memc := rfl
@[simp] theorem setTport_bus (s : State) (n : Nat) (x : TlkPort) : (setTport s n x).bus = s.bus := rfl
@[simp] theorem setTport_hif (s : State) (n : Nat) (x : TlkPort) : (setTport s n x).hif = s.hif := rfl
@[simp] theorem setTport_pwr (s : State) (n : Nat) (x : TlkPort) : (setTport s n x).pwr = s.pwr := rfl
@[simp] theorem setTport_boot (s : State) (n : Nat) (x : TlkPort) : (setTport s n x).boot = s.boot := rfl
@[simp] theorem setTport_lcs (s : State) (n : Nat) (x : TlkPort) : (setTport s n x).lcs = s.lcs := rfl

@[simp] theorem setMapEnt_pending (h : Nat) (x : MapEnt) (s : State) : (setMapEnt h x s).pending = s.pending := rfl
@[simp] theorem setMapEnt_regs (h : Nat) (x : MapEnt) (s : State) : (setMapEnt h x s).regs = s.regs := rfl
@[simp] theorem setMapEnt_mem (h : Nat) (x : MapEnt) (s : State) : (setMapEnt h x s).mem = s.mem := rfl
@[simp] theorem setMapEnt_freeCtr (h : Nat) (x : MapEnt) (s : State) : (setMapEnt h x s).freeCtr = s.freeCtr := rfl
@[simp] theorem setMapEnt_out (h : Nat) (x : MapEnt) (s : State) : (setMapEnt h x s).out = s.out := rfl
@[simp] theorem setMapEnt_mgt (h : Nat) (x : MapEnt) (s : State) : (setMapEnt h x s).mgt = s.mgt := rfl
@[simp] theorem setMapEnt_tim (h : Nat) (x : MapEnt) (s : State) : (setMapEnt h x s).tim = s.tim := rfl
@[simp] theorem setMapEnt_tlk (h : Nat) (x : MapEnt) (s : State) : (setMapEnt h x s).tlk = s.tlk := rfl
@[simp] theorem setMapEnt_pat (h : Nat) (x : MapEnt) (s : State) : (setMapEnt h x s).pat = s.pat := rfl
@[simp] theorem setMapEnt_pin (h : Nat) (x : MapEnt) (s : State) : (setMapEnt h x s).pin = s.pin := rfl
@[simp] theorem setMapEnt_au (h : Nat) (x : MapEnt) (s : State) : (setMapEnt h x s).au = s.au := rfl
@[simp] theorem setMapEnt_cal (h : Nat) (x : MapEnt) (s : State) : (setMapEnt h x s).cal = s.cal := rfl
@[simp] theorem setMapEnt_bus (h : Nat) (x : MapEnt) (s : State) : (setMapEnt h x s).bus = s.bus := rfl
@[simp] theorem setMapEnt_hif (h : Nat) (x : MapEnt) (s : State) : (setMapEnt h x s).hif = s.hif := rfl
@[simp] theorem setMapEnt_pwr (h : Nat) (x : MapEnt) (s : State) : (setMapEnt h x s).pwr = s.pwr := rfl
@[simp] theorem setMapEnt_boot (h : Nat) (x : MapEnt) (s : State) : (setMapEnt h x s).boot = s.boot := rfl
@[simp] theorem setMapEnt_lcs (h : Nat) (x : MapEnt) (s : State) : (setMapEnt h x s).lcs = s.lcs := rfl

@[simp] theorem setStage_pending (x : Stage) (s : State) : (setStage x s).pending = s.pending := rfl
@[simp] theorem setStage_regs (x : Stage) (s : State) : (setStage x s).regs = s.regs := rfl
@[simp] theorem setStage_mem (x : Stage) (s : State) : (setStage x s).mem = s.mem := rfl
@[simp] theorem setStage_freeCtr (x : Stage) (s : State) : (setStage x s).freeCtr = s.freeCtr := rfl
@[simp] theorem setStage_out (x : Stage) (s : State) : (setStage x s).out = s.out := rfl
@[simp] theorem setStage_mgt (x : Stage) (s : State) : (setStage x s).mgt = s.mgt := rfl
@[simp] theorem setStage_tim (x : Stage) (s : State) : (setStage x s).tim = s.tim := rfl
@[simp] theorem setStage_tlk (x : Stage) (s : State) : (setStage x s).tlk = s.tlk := rfl
@[simp] theorem setStage_pat (x : Stage) (s : State) : (setStage x s).pat = s.pat := rfl
@[simp] theorem setStage_pin (x : Stage) (s : State) : (setStage x s).pin = s.pin := rfl
@[simp] theorem setStage_au (x : Stage) (s : State) : (setStage x s).au = s.au := rfl
@[simp] theorem setStage_cal (x : Stage) (s : State) : (setStage x s).cal = s.cal := rfl
@[simp] theorem setStage_memc (x : Stage) (s : State) : (setStage x s).memc = s.memc := rfl
@[simp] theorem setStage_bus (x : Stage) (s : State) : (setStage x s).bus = s.bus := rfl
@[simp] theorem setStage_hif (x : Stage) (s : State) : (setStage x s).hif = s.hif := rfl
@[simp] theorem setStage_boot (x : Stage) (s : State) : (setStage x s).boot = s.boot := rfl
@[simp] theorem setStage_lcs (x : Stage) (s : State) : (setStage x s).lcs = s.lcs := rfl

@[simp] theorem settle_pending (s : State) : (settle s).pending = s.pending := rfl
@[simp] theorem settle_regs (s : State) : (settle s).regs = s.regs := rfl
@[simp] theorem settle_mem (s : State) : (settle s).mem = s.mem := rfl
@[simp] theorem settle_freeCtr (s : State) : (settle s).freeCtr = s.freeCtr := rfl
@[simp] theorem settle_out (s : State) : (settle s).out = s.out := rfl
@[simp] theorem settle_mgt (s : State) : (settle s).mgt = s.mgt := rfl
@[simp] theorem settle_tim (s : State) : (settle s).tim = s.tim := rfl
@[simp] theorem settle_tlk (s : State) : (settle s).tlk = s.tlk := rfl
@[simp] theorem settle_pin (s : State) : (settle s).pin = s.pin := rfl
@[simp] theorem settle_au (s : State) : (settle s).au = s.au := rfl
@[simp] theorem settle_cal (s : State) : (settle s).cal = s.cal := rfl
@[simp] theorem settle_memc (s : State) : (settle s).memc = s.memc := rfl
@[simp] theorem settle_bus (s : State) : (settle s).bus = s.bus := rfl
@[simp] theorem settle_hif (s : State) : (settle s).hif = s.hif := rfl
@[simp] theorem settle_pwr (s : State) : (settle s).pwr = s.pwr := rfl
@[simp] theorem settle_boot (s : State) : (settle s).boot = s.boot := rfl
@[simp] theorem settle_lcs (s : State) : (settle s).lcs = s.lcs := rfl

@[simp] theorem mapLookup_pending (s : State) : (mapLookup s).pending = s.pending := rfl
@[simp] theorem mapLookup_regs (s : State) : (mapLookup s).regs = s.regs := rfl
@[simp] theorem mapLookup_mem (s : State) : (mapLookup s).mem = s.mem := rfl
@[simp] theorem mapLookup_freeCtr (s : State) : (mapLookup s).freeCtr = s.freeCtr := rfl
@[simp] theorem mapLookup_out (s : State) : (mapLookup s).out = s.out := rfl
@[simp] theorem mapLookup_mgt (s : State) : (mapLookup s).mgt = s.mgt := rfl
@[simp] theorem mapLookup_tim (s : State) : (mapLookup s).tim = s.tim := rfl
@[simp] theorem mapLookup_tlk (s : State) : (mapLookup s).tlk = s.tlk := rfl
@[simp] theorem mapLookup_pat (s : State) : (mapLookup s).pat = s.pat := rfl
@[simp] theorem mapLookup_pin (s : State) : (mapLookup s).pin = s.pin := rfl
@[simp] theorem mapLookup_au (s : State) : (mapLookup s).au = s.au := rfl
@[simp] theorem mapLookup_cal (s : State) : (mapLookup s).cal = s.cal := rfl
@[simp] theorem mapLookup_bus (s : State) : (mapLookup s).bus = s.bus := rfl
@[simp] theorem mapLookup_hif (s : State) : (mapLookup s).hif = s.hif := rfl
@[simp] theorem mapLookup_pwr (s : State) : (mapLookup s).pwr = s.pwr := rfl
@[simp] theorem mapLookup_boot (s : State) : (mapLookup s).boot = s.boot := rfl
@[simp] theorem mapLookup_lcs (s : State) : (mapLookup s).lcs = s.lcs := rfl

@[simp] theorem bufferPut_pending (k word : Nat) (s : State) : (bufferPut k word s).pending = s.pending := rfl
@[simp] theorem bufferPut_regs (k word : Nat) (s : State) : (bufferPut k word s).regs = s.regs := rfl
@[simp] theorem bufferPut_mem (k word : Nat) (s : State) : (bufferPut k word s).mem = s.mem := rfl
@[simp] theorem bufferPut_freeCtr (k word : Nat) (s : State) : (bufferPut k word s).freeCtr = s.freeCtr := rfl
@[simp] theorem bufferPut_out (k word : Nat) (s : State) : (bufferPut k word s).out = s.out := rfl
@[simp] theorem bufferPut_mgt (k word : Nat) (s : State) : (bufferPut k word s).mgt = s.mgt := rfl
@[simp] theorem bufferPut_tim (k word : Nat) (s : State) : (bufferPut k word s).tim = s.tim := rfl
@[simp] theorem bufferPut_tlk (k word : Nat) (s : State) : (bufferPut k word s).tlk = s.tlk := rfl
@[simp] theorem bufferPut_pat (k word : Nat) (s : State) : (bufferPut k word s).pat = s.pat := rfl
@[simp] theorem bufferPut_pin (k word : Nat) (s : State) : (bufferPut k word s).pin = s.pin := rfl
@[simp] theorem bufferPut_au (k word : Nat) (s : State) : (bufferPut k word s).au = s.au := rfl
@[simp] theorem bufferPut_cal (k word : Nat) (s : State) : (bufferPut k word s).cal = s.cal := rfl
@[simp] theorem bufferPut_memc (k word : Nat) (s : State) : (bufferPut k word s).memc = s.memc := rfl
@[simp] theorem bufferPut_bus (k word : Nat) (s : State) : (bufferPut k word s).bus = s.bus := rfl
@[simp] theorem bufferPut_hif (k word : Nat) (s : State) : (bufferPut k word s).hif = s.hif := rfl
@[simp] theorem bufferPut_pwr (k word : Nat) (s : State) : (bufferPut k word s).pwr = s.pwr := rfl
@[simp] theorem bufferPut_lcs (k word : Nat) (s : State) : (bufferPut k word s).lcs = s.lcs := rfl

@[simp] theorem srcAlign_pending (v : Nat) (s : State) : (srcAlign v s).pending = s.pending := rfl
@[simp] theorem srcAlign_regs (v : Nat) (s : State) : (srcAlign v s).regs = s.regs := rfl
@[simp] theorem srcAlign_mem (v : Nat) (s : State) : (srcAlign v s).mem = s.mem := rfl
@[simp] theorem srcAlign_freeCtr (v : Nat) (s : State) : (srcAlign v s).freeCtr = s.freeCtr := rfl
@[simp] theorem srcAlign_out (v : Nat) (s : State) : (srcAlign v s).out = s.out := rfl
@[simp] theorem srcAlign_mgt (v : Nat) (s : State) : (srcAlign v s).mgt = s.mgt := rfl
@[simp] theorem srcAlign_tim (v : Nat) (s : State) : (srcAlign v s).tim = s.tim := rfl
@[simp] theorem srcAlign_tlk (v : Nat) (s : State) : (srcAlign v s).tlk = s.tlk := rfl
@[simp] theorem srcAlign_pat (v : Nat) (s : State) : (srcAlign v s).pat = s.pat := rfl
@[simp] theorem srcAlign_pin (v : Nat) (s : State) : (srcAlign v s).pin = s.pin := rfl
@[simp] theorem srcAlign_au (v : Nat) (s : State) : (srcAlign v s).au = s.au := rfl
@[simp] theorem srcAlign_cal (v : Nat) (s : State) : (srcAlign v s).cal = s.cal := rfl
@[simp] theorem srcAlign_memc (v : Nat) (s : State) : (srcAlign v s).memc = s.memc := rfl
@[simp] theorem srcAlign_bus (v : Nat) (s : State) : (srcAlign v s).bus = s.bus := rfl
@[simp] theorem srcAlign_hif (v : Nat) (s : State) : (srcAlign v s).hif = s.hif := rfl
@[simp] theorem srcAlign_pwr (v : Nat) (s : State) : (srcAlign v s).pwr = s.pwr := rfl
@[simp] theorem srcAlign_lcs (v : Nat) (s : State) : (srcAlign v s).lcs = s.lcs := rfl

@[simp] theorem fetchAlign_pending (k v : Nat) (s : State) : (fetchAlign k v s).pending = s.pending := rfl
@[simp] theorem fetchAlign_regs (k v : Nat) (s : State) : (fetchAlign k v s).regs = s.regs := rfl
@[simp] theorem fetchAlign_mem (k v : Nat) (s : State) : (fetchAlign k v s).mem = s.mem := rfl
@[simp] theorem fetchAlign_freeCtr (k v : Nat) (s : State) : (fetchAlign k v s).freeCtr = s.freeCtr := rfl
@[simp] theorem fetchAlign_out (k v : Nat) (s : State) : (fetchAlign k v s).out = s.out := rfl
@[simp] theorem fetchAlign_mgt (k v : Nat) (s : State) : (fetchAlign k v s).mgt = s.mgt := rfl
@[simp] theorem fetchAlign_tim (k v : Nat) (s : State) : (fetchAlign k v s).tim = s.tim := rfl
@[simp] theorem fetchAlign_tlk (k v : Nat) (s : State) : (fetchAlign k v s).tlk = s.tlk := rfl
@[simp] theorem fetchAlign_pat (k v : Nat) (s : State) : (fetchAlign k v s).pat = s.pat := rfl
@[simp] theorem fetchAlign_pin (k v : Nat) (s : State) : (fetchAlign k v s).pin = s.pin := rfl
@[simp] theorem fetchAlign_au (k v : Nat) (s : State) : (fetchAlign k v s).au = s.au := rfl
@[simp] theorem fetchAlign_cal (k v : Nat) (s : State) : (fetchAlign k v s).cal = s.cal := rfl
@[simp] theorem fetchAlign_memc (k v : Nat) (s : State) : (fetchAlign k v s).memc = s.memc := rfl
@[simp] theorem fetchAlign_bus (k v : Nat) (s : State) : (fetchAlign k v s).bus = s.bus := rfl
@[simp] theorem fetchAlign_pwr (k v : Nat) (s : State) : (fetchAlign k v s).pwr = s.pwr := rfl
@[simp] theorem fetchAlign_boot (k v : Nat) (s : State) : (fetchAlign k v s).boot = s.boot := rfl
@[simp] theorem fetchAlign_lcs (k v : Nat) (s : State) : (fetchAlign k v s).lcs = s.lcs := rfl

end Sys2Proof.Machine
end

