-- ==== Sys2Proof/Laws/Fields.lean ====
section
/-! SUPPORT. Register fields: a read after a write, and the operations that write several fields. -/

set_option Elab.async false

namespace Sys2Proof.Machine

open Sys2Proof

/-- A field that has been written reads as the value cut to its width. -/
@[simp] theorem rd_wr_self (s : State) (p : Page) (f : Fld) (v : Nat) : rd (wr s p f v) p f = v % 2 ^ f.width := by
  simp [rd, wr]

/-- A write leaves every field with another key alone. -/
@[simp] theorem rd_wr_other {s : State} {p q : Page} {f g : Fld} {v : Nat} (h : ¬ fldKey q g = fldKey p f) : rd (wr s p f v) q g = rd s q g := by
  simp only [rd, wr, tabGet, tabPut]
  split <;> simp [tabFind_tabIns_other _ _ h, tabFind_tabDel_other _ h]

/-- The value of a field in a register table. -/
def rdIn (r : Tab Nat) (p : Page) (f : Fld) : Nat := tabGet f.reset r (fldKey p f) % 2 ^ f.width

/-- A field is read from the registers alone, however the rest of the state is given. -/
@[simp] theorem rd_mk (a : List Instr) (r : Tab Nat) (m : List Host.Cell) (c : Nat) (o : List Out) (x1 : MgtState) (x2 : TimState) (x3 : TlkState) (x4 : PatState)
    (x5 : PinState) (x6 : AuState) (x7 : CalState) (x8 : MemState) (b : BusState) (x9 : HifState) (x10 : PwrState) (x11 : BootState) (x12 : LcsState) (p : Page) (f : Fld) :
    rd ⟨a, r, m, c, o, x1, x2, x3, x4, x5, x6, x7, x8, b, x9, x10, x11, x12⟩ p f = rdIn r p f := rfl

@[simp] theorem rdIn_regs (s : State) (p : Page) (f : Fld) : rdIn s.regs p f = rd s p f := rfl

@[simp] theorem rd_setFltRec (s : State) (p : Page) (c : Nat) (r : FltRec) (q : Page) (f : Fld) : rd (setFltRec s p c r) q f = rd s q f := rfl

@[simp] theorem rd_emit (s : State) (o : Out) (q : Page) (f : Fld) : rd (emit s o) q f = rd s q f := rfl

@[simp] theorem wrs_nil (s : State) (p : Page) : wrs s p [] = s := rfl

@[simp] theorem wrs_cons (s : State) (p : Page) (f : Fld) (v : Nat) (l : List (Fld × Nat)) : wrs s p ((f, v) :: l) = wrs (wr s p f v) p l := rfl

@[simp] theorem whenS_true (f : State → State) (s : State) : whenS true f s = f s := rfl

@[simp] theorem whenS_false (f : State → State) (s : State) : whenS false f s = s := rfl

@[simp] theorem forS_nil {α : Type} (f : α → State → State) (s : State) : forS [] f s = s := rfl

@[simp] theorem forS_cons {α : Type} (a : α) (l : List α) (f : α → State → State) (s : State) : forS (a :: l) f s = forS l f (f a s) := rfl

end Sys2Proof.Machine
end

