-- ==== Sys2Proof/Laws/Keeps.lean ====
section
/-! SUPPORT. What every operation of the device keeps, and which components of the state it may write: one relation between the state before and after, closed under
composition, so that one lemma per operation says it once. -/

set_option Elab.async false

namespace Sys2Proof.Machine

/-- No bit of `INT_RAW` and none of `FLT_CAUSE` that stands in s is clear in t. -/
structure Sticky (s t : State) : Prop where
  stays : ∀ q k, ((rd s q F.INT_RAW).testBit k = true → (rd t q F.INT_RAW).testBit k = true) ∧
    ((rd s q F.FLT_CAUSE).testBit k = true → (rd t q F.FLT_CAUSE).testBit k = true)

theorem Sticky.refl (s : State) : Sticky s s := ⟨fun _ _ => ⟨id, id⟩⟩

theorem Sticky.trans {s t u : State} (h : Sticky s t) (h' : Sticky t u) : Sticky s u :=
  ⟨fun q k => ⟨fun x => (h'.stays q k).1 ((h.stays q k).1 x), fun x => (h'.stays q k).2 ((h.stays q k).2 x)⟩⟩

/-- The mask of a row whose fields are written: with bit 1041 for `INT_RAW` and `FLT_CAUSE`. -/
def rowMask (n : Nat) : Nat := 1 ||| 1 <<< (16 + n % 1024) ||| (if n % 1024 = F.INT_RAW.num ∨ n % 1024 = F.FLT_CAUSE.num then 1 <<< 1041 else 0)

/-- The mask of a field that is written. -/
def fldMask (f : Fld) : Nat := rowMask f.num

/-- The mask of a field in which bits are only set: without bit 1041 for `INT_RAW` and `FLT_CAUSE` themselves. -/
def setMask (f : Fld) : Nat :=
  1 ||| 1 <<< (16 + f.num % 1024) ||| (if (f.num % 1024 = F.INT_RAW.num ∨ f.num % 1024 = F.FLT_CAUSE.num) ∧ f ≠ F.INT_RAW ∧ f ≠ F.FLT_CAUSE then 1 <<< 1041 else 0)

/-- The mask of the first n rows. -/
def rowsMask (n : Nat) : Nat := (2 ^ n - 1) <<< 16 ||| 1

/-- The mask of every field. -/
def anyField : Nat := rowsMask 1024 ||| 1 <<< 1041

/-- From s to t only the components in the mask T may have changed (bit 0 regs, 1 mem, 2 mgt, 3 tim, 4 tlk, 5 pat, 6 pin, 7 au, 8 cal, 9 memc, 10 hif, 11 pwr, 12 boot,
13 lcs, 14 out, 15 freeCtr), and of the registers only the fields of the rows in it (bit 16 + number of the row), and the parity mismatches only with bit 1040, and bits of `INT_RAW` and `FLT_CAUSE` are cleared only with bit 1041, and the held requests change only with bit 1042; the queue is untouched, nothing sent is taken back, no free value is drawn twice, pattern memory keeps its canonical form, the event log its
4096 places, the queues of proposals, of early scrubs and of cached map lines their bounds, and a blown fuse stays blown. -/
structure Keeps (T : Nat) (s t : State) : Prop where
  pending : t.pending = s.pending
  sent : s.out <+: t.out
  drawn : s.freeCtr ≤ t.freeCtr
  wfMem : Memory.wf s.mem = true → Memory.wf t.mem = true
  wfLog : (∀ x ∈ s.mgt.log, x.1 < 4096) → ∀ x ∈ t.mgt.log, x.1 < 4096
  wfProps : s.lcs.props.length ≤ 16 → t.lcs.props.length ≤ 16
  wfEarly : s.memc.early.length ≤ 64 → t.memc.early.length ≤ 64
  wfLines : s.memc.lines.length ≤ 16384 → t.memc.lines.length ≤ 16384
  fuses : ∀ k b, (tabGet 0 s.lcs.fuses k).testBit b = true → (tabGet 0 t.lcs.fuses k).testBit b = true
  regs : T.testBit 0 = false → t.regs = s.regs
  mem : T.testBit 1 = false → t.mem = s.mem
  mgt : T.testBit 2 = false → t.mgt = s.mgt
  tim : T.testBit 3 = false → t.tim = s.tim
  tlk : T.testBit 4 = false → t.tlk = s.tlk
  pat : T.testBit 5 = false → t.pat = s.pat
  pin : T.testBit 6 = false → t.pin = s.pin
  au : T.testBit 7 = false → t.au = s.au
  cal : T.testBit 8 = false → t.cal = s.cal
  memc : T.testBit 9 = false → t.memc = s.memc
  hif : T.testBit 10 = false → t.hif = s.hif
  pwr : T.testBit 11 = false → t.pwr = s.pwr
  boot : T.testBit 12 = false → t.boot = s.boot
  lcs : T.testBit 13 = false → t.lcs = s.lcs
  out : T.testBit 14 = false → t.out = s.out
  free : T.testBit 15 = false → t.freeCtr = s.freeCtr
  bus : T.testBit 1042 = false → t.bus = s.bus
  flds : ∀ k, T.testBit (16 + k % 1024) = false → tabFind t.regs k = tabFind s.regs k
  par : T.testBit 1040 = false → t.mgt.parBad = s.mgt.parBad
  sticky : T.testBit 1041 = false → Sticky s t

theorem Keeps.refl (T : Nat) (s : State) : Keeps T s s := by
  constructor
  case sticky => exact fun _ => Sticky.refl _
  all_goals first | exact fun _ => rfl | exact fun _ _ => rfl | exact rfl | exact Nat.le_refl _ | exact List.prefix_refl _ | exact fun w => w | exact fun _ _ w => w

theorem testBit_sub {T U : Nat} (h : T ||| U = U) {k : Nat} (hk : U.testBit k = false) : T.testBit k = false := by
  rw [← h, Nat.testBit_or, Bool.or_eq_false_iff] at hk
  exact hk.1

theorem Keeps.step {T U : Nat} {s x y : State} (h1 : Keeps T x y) (hT : T ||| U = U) (h : Keeps U s x) : Keeps U s y where
  pending := h1.pending.trans h.pending
  sent := h.sent.trans h1.sent
  drawn := Nat.le_trans h.drawn h1.drawn
  wfMem w := h1.wfMem (h.wfMem w)
  wfLog w := h1.wfLog (h.wfLog w)
  wfProps w := h1.wfProps (h.wfProps w)
  wfEarly w := h1.wfEarly (h.wfEarly w)
  wfLines w := h1.wfLines (h.wfLines w)
  fuses k b w := h1.fuses k b (h.fuses k b w)
  regs k := (h1.regs (testBit_sub hT k)).trans (h.regs k)
  mem k := (h1.mem (testBit_sub hT k)).trans (h.mem k)
  mgt k := (h1.mgt (testBit_sub hT k)).trans (h.mgt k)
  tim k := (h1.tim (testBit_sub hT k)).trans (h.tim k)
  tlk k := (h1.tlk (testBit_sub hT k)).trans (h.tlk k)
  pat k := (h1.pat (testBit_sub hT k)).trans (h.pat k)
  pin k := (h1.pin (testBit_sub hT k)).trans (h.pin k)
  au k := (h1.au (testBit_sub hT k)).trans (h.au k)
  cal k := (h1.cal (testBit_sub hT k)).trans (h.cal k)
  memc k := (h1.memc (testBit_sub hT k)).trans (h.memc k)
  hif k := (h1.hif (testBit_sub hT k)).trans (h.hif k)
  pwr k := (h1.pwr (testBit_sub hT k)).trans (h.pwr k)
  boot k := (h1.boot (testBit_sub hT k)).trans (h.boot k)
  lcs k := (h1.lcs (testBit_sub hT k)).trans (h.lcs k)
  out k := (h1.out (testBit_sub hT k)).trans (h.out k)
  free k := (h1.free (testBit_sub hT k)).trans (h.free k)
  bus k := (h1.bus (testBit_sub hT k)).trans (h.bus k)
  flds x k := (h1.flds x (testBit_sub hT k)).trans (h.flds x k)
  par k := (h1.par (testBit_sub hT k)).trans (h.par k)
  sticky k := Sticky.trans (h.sticky k) (h1.sticky (testBit_sub hT k))

theorem rowsMask_bit {n k : Nat} (h : k < n) : (rowsMask n).testBit (16 + k) = true := by
  rw [rowsMask, Nat.testBit_or, Nat.testBit_shiftLeft, Nat.testBit_two_pow_sub_one]
  simp [h]

theorem rowsMask_regs (n : Nat) : (rowsMask n).testBit 0 = true := by rw [rowsMask, Nat.testBit_or]; simp

theorem anyField_bit (k : Nat) : anyField.testBit (16 + k % 1024) = true := by
  rw [anyField, Nat.testBit_or, rowsMask_bit (Nat.mod_lt _ (by decide)), Bool.true_or]

theorem anyField_regs : anyField.testBit 0 = true := by rw [anyField, Nat.testBit_or, rowsMask_regs, Bool.true_or]

theorem anyField_sticky : anyField.testBit 1041 = true := by
  rw [anyField, Nat.testBit_or, Nat.testBit_shiftLeft]; simp

theorem fldMask_bit (p : Page) (f : Fld) : (fldMask f).testBit (16 + fldKey p f % 1024) = true := by
  have h : fldKey p f % 1024 = f.num % 1024 := by simp [fldKey]
  rw [h, fldMask, rowMask, Nat.testBit_or, Nat.testBit_or, Nat.testBit_shiftLeft]
  simp

theorem setMask_bit (p : Page) (f : Fld) : (setMask f).testBit (16 + fldKey p f % 1024) = true := by
  have h : fldKey p f % 1024 = f.num % 1024 := by simp [fldKey]
  rw [h, setMask, Nat.testBit_or, Nat.testBit_or, Nat.testBit_shiftLeft]
  simp

theorem fldMask_regs (f : Fld) : (fldMask f).testBit 0 = true := by rw [fldMask, rowMask, Nat.testBit_or, Nat.testBit_or]; rfl

theorem setMask_regs (f : Fld) : (setMask f).testBit 0 = true := by rw [setMask, Nat.testBit_or, Nat.testBit_or]; rfl

theorem fldMask_sticky {f : Fld} (h : (fldMask f).testBit 1041 = false) : f.num % 1024 ≠ F.INT_RAW.num ∧ f.num % 1024 ≠ F.FLT_CAUSE.num := by
  rw [fldMask, rowMask, Nat.testBit_or] at h
  simp only [Bool.or_eq_false_iff] at h
  have h2 := h.2
  by_cases this : f.num % 1024 = F.INT_RAW.num ∨ f.num % 1024 = F.FLT_CAUSE.num
  · rw [if_pos this, Nat.testBit_shiftLeft] at h2
    simp at h2
  · exact ⟨fun e => this (.inl e), fun e => this (.inr e)⟩

theorem key_num (p : Page) (f : Fld) : fldKey p f % 1024 = f.num % 1024 := by simp [fldKey]

/-- A write of a field of another row leaves a field alone. -/
theorem tabGet_putField {s : State} {p q : Page} {f g : Fld} {d v : Nat} (h : g.num % 1024 ≠ f.num % 1024) :
    rd { s with regs := tabPut d s.regs (fldKey p f) v } q g = rd s q g := by
  have e : fldKey q g ≠ fldKey p f := fun e => h (by rw [← key_num q g, ← key_num p f, e])
  unfold rd tabGet
  simp only [tabPut]
  split
  · rw [tabFind_tabDel_other _ e]
  · rw [tabFind_tabIns_other _ _ e]

theorem rd_lt (s : State) (p : Page) (f : Fld) : rd s p f < 2 ^ f.width := Nat.mod_lt _ (Nat.two_pow_pos _)

theorem testBit_lt {v w k : Nat} (h : v < 2 ^ w) (hk : v.testBit k = true) : k < w := by
  refine Decidable.byContradiction fun hc => ?_
  rw [Nat.testBit_lt_two_pow (Nat.lt_of_lt_of_le h (Nat.pow_le_pow_right (by decide) (by omega)))] at hk
  exact absurd hk (by decide)

/-- Setting bits of a field clears none of them, on whatever page. -/
theorem orBits_mono {s : State} {p q : Page} {f : Fld} {m k : Nat} (h : (rd s q f).testBit k = true) : (rd (orBits s p f m) q f).testBit k = true := by
  unfold orBits
  by_cases e : fldKey q f = fldKey p f
  · have hk := testBit_lt (rd_lt s q f) h
    have e2 : ∀ x : State, rd x q f = rd x p f := fun x => by unfold rd; rw [e]
    rw [e2] at h ⊢
    rw [rd_wr_self, Nat.testBit_mod_two_pow, Nat.testBit_or, h]
    simp [hk]
  · rw [rd_wr_other e]; exact h

theorem setMask_sticky {f : Fld} (h : (setMask f).testBit 1041 = false) :
    f = F.INT_RAW ∨ f = F.FLT_CAUSE ∨ (F.INT_RAW.num ≠ f.num % 1024 ∧ F.FLT_CAUSE.num ≠ f.num % 1024) := by
  by_cases e1 : f = F.INT_RAW
  · exact .inl e1
  by_cases e2 : f = F.FLT_CAUSE
  · exact .inr (.inl e2)
  refine .inr (.inr ?_)
  by_cases e : f.num % 1024 = F.INT_RAW.num ∨ f.num % 1024 = F.FLT_CAUSE.num
  · rw [setMask, if_pos ⟨e, e1, e2⟩, Nat.testBit_or, Bool.or_eq_false_iff, Nat.testBit_shiftLeft] at h
    simp at h
  · exact ⟨fun x => e (.inl x.symm), fun x => e (.inr x.symm)⟩

/-- Setting bits of a field clears none of `INT_RAW` and `FLT_CAUSE`. -/
theorem orBits_sticky {s : State} {p : Page} {f : Fld} {m : Nat} (h : (setMask f).testBit 1041 = false) : Sticky s (orBits s p f m) := ⟨fun q k => by
  rcases setMask_sticky h with rfl | rfl | ⟨h1, h2⟩
  · refine ⟨orBits_mono, fun x => ?_⟩
    unfold orBits wr; rw [tabGet_putField (by decide)]; exact x
  · refine ⟨fun x => ?_, orBits_mono⟩
    unfold orBits wr; rw [tabGet_putField (by decide)]; exact x
  · refine ⟨fun x => ?_, fun x => ?_⟩
    · unfold orBits wr; rw [tabGet_putField (f := f) (g := F.INT_RAW) h1]; exact x
    · unfold orBits wr; rw [tabGet_putField (f := f) (g := F.FLT_CAUSE) h2]; exact x⟩

-- GENERATED
/-- The mask of the parity mismatches. -/
def parMask : Nat := 1 <<< 1040 ||| 4

/-- The mask of the held requests. -/
def busMask : Nat := 1 <<< 1042

theorem Keeps.setAnyField {U : Nat} {s₀ s : State} {x : Tab Nat} (k : Keeps U s₀ s) (hT : anyField ||| U = U := by decide) : Keeps U s₀ { s with regs := x } :=
  have r := Keeps.refl anyField s
  Keeps.step (T := anyField) ⟨r.pending, r.sent, r.drawn, r.wfMem, r.wfLog, r.wfProps, r.wfEarly, r.wfLines, r.fuses, fun h => absurd h (by rw [anyField_regs]; decide), r.mem, r.mgt, r.tim, r.tlk, r.pat, r.pin, r.au, r.cal, r.memc, r.hif, r.pwr, r.boot, r.lcs, r.out, r.free, r.bus, fun k h => absurd h (by rw [anyField_bit]; decide), r.par, fun h => absurd h (by rw [anyField_sticky]; decide)⟩ hT k

theorem Keeps.setTim {U : Nat} {s₀ s : State} {x : TimState} (k : Keeps U s₀ s) (hT : 8 ||| U = U := by decide) : Keeps U s₀ { s with tim := x } :=
  have r := Keeps.refl 8 s
  Keeps.step (T := 8) ⟨r.pending, r.sent, r.drawn, r.wfMem, r.wfLog, r.wfProps, r.wfEarly, r.wfLines, r.fuses, r.regs, r.mem, r.mgt, fun h => absurd h (by decide), r.tlk, r.pat, r.pin, r.au, r.cal, r.memc, r.hif, r.pwr, r.boot, r.lcs, r.out, r.free, r.bus, r.flds, r.par, fun h => ⟨(r.sticky h).stays⟩⟩ hT k

theorem Keeps.setTlk {U : Nat} {s₀ s : State} {x : TlkState} (k : Keeps U s₀ s) (hT : 16 ||| U = U := by decide) : Keeps U s₀ { s with tlk := x } :=
  have r := Keeps.refl 16 s
  Keeps.step (T := 16) ⟨r.pending, r.sent, r.drawn, r.wfMem, r.wfLog, r.wfProps, r.wfEarly, r.wfLines, r.fuses, r.regs, r.mem, r.mgt, r.tim, fun h => absurd h (by decide), r.pat, r.pin, r.au, r.cal, r.memc, r.hif, r.pwr, r.boot, r.lcs, r.out, r.free, r.bus, r.flds, r.par, fun h => ⟨(r.sticky h).stays⟩⟩ hT k

theorem Keeps.setPat {U : Nat} {s₀ s : State} {x : PatState} (k : Keeps U s₀ s) (hT : 32 ||| U = U := by decide) : Keeps U s₀ { s with pat := x } :=
  have r := Keeps.refl 32 s
  Keeps.step (T := 32) ⟨r.pending, r.sent, r.drawn, r.wfMem, r.wfLog, r.wfProps, r.wfEarly, r.wfLines, r.fuses, r.regs, r.mem, r.mgt, r.tim, r.tlk, fun h => absurd h (by decide), r.pin, r.au, r.cal, r.memc, r.hif, r.pwr, r.boot, r.lcs, r.out, r.free, r.bus, r.flds, r.par, fun h => ⟨(r.sticky h).stays⟩⟩ hT k

theorem Keeps.setPin {U : Nat} {s₀ s : State} {x : PinState} (k : Keeps U s₀ s) (hT : 64 ||| U = U := by decide) : Keeps U s₀ { s with pin := x } :=
  have r := Keeps.refl 64 s
  Keeps.step (T := 64) ⟨r.pending, r.sent, r.drawn, r.wfMem, r.wfLog, r.wfProps, r.wfEarly, r.wfLines, r.fuses, r.regs, r.mem, r.mgt, r.tim, r.tlk, r.pat, fun h => absurd h (by decide), r.au, r.cal, r.memc, r.hif, r.pwr, r.boot, r.lcs, r.out, r.free, r.bus, r.flds, r.par, fun h => ⟨(r.sticky h).stays⟩⟩ hT k

theorem Keeps.setAu {U : Nat} {s₀ s : State} {x : AuState} (k : Keeps U s₀ s) (hT : 128 ||| U = U := by decide) : Keeps U s₀ { s with au := x } :=
  have r := Keeps.refl 128 s
  Keeps.step (T := 128) ⟨r.pending, r.sent, r.drawn, r.wfMem, r.wfLog, r.wfProps, r.wfEarly, r.wfLines, r.fuses, r.regs, r.mem, r.mgt, r.tim, r.tlk, r.pat, r.pin, fun h => absurd h (by decide), r.cal, r.memc, r.hif, r.pwr, r.boot, r.lcs, r.out, r.free, r.bus, r.flds, r.par, fun h => ⟨(r.sticky h).stays⟩⟩ hT k

theorem Keeps.setCal {U : Nat} {s₀ s : State} {x : CalState} (k : Keeps U s₀ s) (hT : 256 ||| U = U := by decide) : Keeps U s₀ { s with cal := x } :=
  have r := Keeps.refl 256 s
  Keeps.step (T := 256) ⟨r.pending, r.sent, r.drawn, r.wfMem, r.wfLog, r.wfProps, r.wfEarly, r.wfLines, r.fuses, r.regs, r.mem, r.mgt, r.tim, r.tlk, r.pat, r.pin, r.au, fun h => absurd h (by decide), r.memc, r.hif, r.pwr, r.boot, r.lcs, r.out, r.free, r.bus, r.flds, r.par, fun h => ⟨(r.sticky h).stays⟩⟩ hT k

theorem Keeps.setHif {U : Nat} {s₀ s : State} {x : HifState} (k : Keeps U s₀ s) (hT : 1024 ||| U = U := by decide) : Keeps U s₀ { s with hif := x } :=
  have r := Keeps.refl 1024 s
  Keeps.step (T := 1024) ⟨r.pending, r.sent, r.drawn, r.wfMem, r.wfLog, r.wfProps, r.wfEarly, r.wfLines, r.fuses, r.regs, r.mem, r.mgt, r.tim, r.tlk, r.pat, r.pin, r.au, r.cal, r.memc, fun h => absurd h (by decide), r.pwr, r.boot, r.lcs, r.out, r.free, r.bus, r.flds, r.par, fun h => ⟨(r.sticky h).stays⟩⟩ hT k

theorem Keeps.setPwr {U : Nat} {s₀ s : State} {x : PwrState} (k : Keeps U s₀ s) (hT : 2048 ||| U = U := by decide) : Keeps U s₀ { s with pwr := x } :=
  have r := Keeps.refl 2048 s
  Keeps.step (T := 2048) ⟨r.pending, r.sent, r.drawn, r.wfMem, r.wfLog, r.wfProps, r.wfEarly, r.wfLines, r.fuses, r.regs, r.mem, r.mgt, r.tim, r.tlk, r.pat, r.pin, r.au, r.cal, r.memc, r.hif, fun h => absurd h (by decide), r.boot, r.lcs, r.out, r.free, r.bus, r.flds, r.par, fun h => ⟨(r.sticky h).stays⟩⟩ hT k

theorem Keeps.setBoot {U : Nat} {s₀ s : State} {x : BootState} (k : Keeps U s₀ s) (hT : 4096 ||| U = U := by decide) : Keeps U s₀ { s with boot := x } :=
  have r := Keeps.refl 4096 s
  Keeps.step (T := 4096) ⟨r.pending, r.sent, r.drawn, r.wfMem, r.wfLog, r.wfProps, r.wfEarly, r.wfLines, r.fuses, r.regs, r.mem, r.mgt, r.tim, r.tlk, r.pat, r.pin, r.au, r.cal, r.memc, r.hif, r.pwr, fun h => absurd h (by decide), r.lcs, r.out, r.free, r.bus, r.flds, r.par, fun h => ⟨(r.sticky h).stays⟩⟩ hT k

theorem Keeps.setBus {U : Nat} {s₀ s : State} {x : BusState} (k : Keeps U s₀ s) (hT : busMask ||| U = U := by decide) : Keeps U s₀ { s with bus := x } :=
  have r := Keeps.refl busMask s
  Keeps.step (T := busMask) ⟨r.pending, r.sent, r.drawn, r.wfMem, r.wfLog, r.wfProps, r.wfEarly, r.wfLines, r.fuses, r.regs, r.mem, r.mgt, r.tim, r.tlk, r.pat, r.pin, r.au, r.cal, r.memc, r.hif, r.pwr, r.boot, r.lcs, r.out, r.free, fun h => absurd h (by decide), r.flds, r.par, fun h => ⟨(r.sticky h).stays⟩⟩ hT k

theorem Keeps.setMgt {U : Nat} {s₀ s : State} {x : MgtState} (h : x.log = s.mgt.log ∧ x.parBad = s.mgt.parBad) (k : Keeps U s₀ s) (hT : 4 ||| U = U := by decide) : Keeps U s₀ { s with mgt := x } :=
  have r := Keeps.refl 4 s
  Keeps.step (T := 4) ⟨r.pending, r.sent, r.drawn, r.wfMem, fun w => h.1 ▸ w, r.wfProps, r.wfEarly, r.wfLines, r.fuses, r.regs, r.mem, fun h => absurd h (by decide), r.tim, r.tlk, r.pat, r.pin, r.au, r.cal, r.memc, r.hif, r.pwr, r.boot, r.lcs, r.out, r.free, r.bus, r.flds, fun _ => h.2, fun h => ⟨(r.sticky h).stays⟩⟩ hT k

theorem Keeps.setLog {U : Nat} {s₀ s : State} {x : MgtState} (h : (∀ y ∈ s.mgt.log, y.1 < 4096) → ∀ y ∈ x.log, y.1 < 4096) (h1 : x.parBad = s.mgt.parBad) (k : Keeps U s₀ s) (hT : 4 ||| U = U := by decide) : Keeps U s₀ { s with mgt := x } :=
  have r := Keeps.refl 4 s
  Keeps.step (T := 4) ⟨r.pending, r.sent, r.drawn, r.wfMem, h, r.wfProps, r.wfEarly, r.wfLines, r.fuses, r.regs, r.mem, fun h => absurd h (by decide), r.tim, r.tlk, r.pat, r.pin, r.au, r.cal, r.memc, r.hif, r.pwr, r.boot, r.lcs, r.out, r.free, r.bus, r.flds, fun _ => h1, fun h => ⟨(r.sticky h).stays⟩⟩ hT k

theorem Keeps.setPar {U : Nat} {s₀ s : State} {x : MgtState} (h : x.log = s.mgt.log) (k : Keeps U s₀ s) (hT : parMask ||| U = U := by decide) : Keeps U s₀ { s with mgt := x } :=
  have r := Keeps.refl parMask s
  Keeps.step (T := parMask) ⟨r.pending, r.sent, r.drawn, r.wfMem, fun w => h ▸ w, r.wfProps, r.wfEarly, r.wfLines, r.fuses, r.regs, r.mem, fun h => absurd h (by decide), r.tim, r.tlk, r.pat, r.pin, r.au, r.cal, r.memc, r.hif, r.pwr, r.boot, r.lcs, r.out, r.free, r.bus, r.flds, fun h => absurd h (by decide), fun h => ⟨(r.sticky h).stays⟩⟩ hT k

theorem Keeps.setLcs {U : Nat} {s₀ s : State} {x : LcsState} (h : x.fuses = s.lcs.fuses ∧ x.props = s.lcs.props) (k : Keeps U s₀ s) (hT : 8192 ||| U = U := by decide) : Keeps U s₀ { s with lcs := x } :=
  have r := Keeps.refl 8192 s
  Keeps.step (T := 8192) ⟨r.pending, r.sent, r.drawn, r.wfMem, r.wfLog, fun w => h.2 ▸ w, r.wfEarly, r.wfLines, fun k b w => h.1 ▸ w, r.regs, r.mem, r.mgt, r.tim, r.tlk, r.pat, r.pin, r.au, r.cal, r.memc, r.hif, r.pwr, r.boot, fun h => absurd h (by decide), r.out, r.free, r.bus, r.flds, r.par, fun h => ⟨(r.sticky h).stays⟩⟩ hT k

theorem Keeps.setProps {U : Nat} {s₀ s : State} {x : LcsState} (h : x.fuses = s.lcs.fuses) (h1 : s.lcs.props.length ≤ 16 → x.props.length ≤ 16) (k : Keeps U s₀ s) (hT : 8192 ||| U = U := by decide) : Keeps U s₀ { s with lcs := x } :=
  have r := Keeps.refl 8192 s
  Keeps.step (T := 8192) ⟨r.pending, r.sent, r.drawn, r.wfMem, r.wfLog, h1, r.wfEarly, r.wfLines, fun k b w => h ▸ w, r.regs, r.mem, r.mgt, r.tim, r.tlk, r.pat, r.pin, r.au, r.cal, r.memc, r.hif, r.pwr, r.boot, fun h => absurd h (by decide), r.out, r.free, r.bus, r.flds, r.par, fun h => ⟨(r.sticky h).stays⟩⟩ hT k

theorem Keeps.setMemc {U : Nat} {s₀ s : State} {x : MemState} (h : x.early = s.memc.early ∧ x.lines = s.memc.lines) (k : Keeps U s₀ s) (hT : 512 ||| U = U := by decide) : Keeps U s₀ { s with memc := x } :=
  have r := Keeps.refl 512 s
  Keeps.step (T := 512) ⟨r.pending, r.sent, r.drawn, r.wfMem, r.wfLog, r.wfProps, fun w => h.1 ▸ w, fun w => h.2 ▸ w, r.fuses, r.regs, r.mem, r.mgt, r.tim, r.tlk, r.pat, r.pin, r.au, r.cal, fun h => absurd h (by decide), r.hif, r.pwr, r.boot, r.lcs, r.out, r.free, r.bus, r.flds, r.par, fun h => ⟨(r.sticky h).stays⟩⟩ hT k

theorem Keeps.setQueues {U : Nat} {s₀ s : State} {x : MemState} (h : s.memc.early.length ≤ 64 → x.early.length ≤ 64) (h1 : s.memc.lines.length ≤ 16384 → x.lines.length ≤ 16384) (k : Keeps U s₀ s) (hT : 512 ||| U = U := by decide) : Keeps U s₀ { s with memc := x } :=
  have r := Keeps.refl 512 s
  Keeps.step (T := 512) ⟨r.pending, r.sent, r.drawn, r.wfMem, r.wfLog, r.wfProps, h, h1, r.fuses, r.regs, r.mem, r.mgt, r.tim, r.tlk, r.pat, r.pin, r.au, r.cal, fun h => absurd h (by decide), r.hif, r.pwr, r.boot, r.lcs, r.out, r.free, r.bus, r.flds, r.par, fun h => ⟨(r.sticky h).stays⟩⟩ hT k

theorem Keeps.setFuses {U : Nat} {s₀ s : State} {x : LcsState} (h : ∀ k b, (tabGet 0 s.lcs.fuses k).testBit b = true → (tabGet 0 x.fuses k).testBit b = true) (h1 : x.props = s.lcs.props) (k : Keeps U s₀ s) (hT : 8192 ||| U = U := by decide) : Keeps U s₀ { s with lcs := x } :=
  have r := Keeps.refl 8192 s
  Keeps.step (T := 8192) ⟨r.pending, r.sent, r.drawn, r.wfMem, r.wfLog, fun w => h1 ▸ w, r.wfEarly, r.wfLines, h, r.regs, r.mem, r.mgt, r.tim, r.tlk, r.pat, r.pin, r.au, r.cal, r.memc, r.hif, r.pwr, r.boot, fun h => absurd h (by decide), r.out, r.free, r.bus, r.flds, r.par, fun h => ⟨(r.sticky h).stays⟩⟩ hT k

theorem Keeps.setMem {U : Nat} {s₀ s : State} {x : List Host.Cell} (h : Memory.wf s.mem = true → Memory.wf x = true) (k : Keeps U s₀ s) (hT : 2 ||| U = U := by decide) : Keeps U s₀ { s with mem := x } :=
  have r := Keeps.refl 2 s
  Keeps.step (T := 2) ⟨r.pending, r.sent, r.drawn, h, r.wfLog, r.wfProps, r.wfEarly, r.wfLines, r.fuses, r.regs, fun h => absurd h (by decide), r.mgt, r.tim, r.tlk, r.pat, r.pin, r.au, r.cal, r.memc, r.hif, r.pwr, r.boot, r.lcs, r.out, r.free, r.bus, r.flds, r.par, fun h => ⟨(r.sticky h).stays⟩⟩ hT k

theorem sub_trans {T U V : Nat} (h : T ||| U = U) (h' : U ||| V = V) : T ||| V = V := by
  rw [← h', ← Nat.or_assoc, h]

theorem Keeps.setMemMemc {U : Nat} {s₀ s : State} {x : List Host.Cell} {y : MemState} (h : Memory.wf s.mem = true → Memory.wf x = true)
    (h' : y.early = s.memc.early ∧ y.lines = s.memc.lines) (k : Keeps U s₀ s) (hT : 514 ||| U = U := by decide) : Keeps U s₀ { s with mem := x, memc := y } :=
  Keeps.setMemc (s := { s with mem := x }) h' (Keeps.setMem h k (sub_trans (by decide) hT)) (sub_trans (by decide) hT)

theorem fldMask_of {f : Fld} {n U : Nat} (h : f.num = n) (h' : rowMask n ||| U = U) : fldMask f ||| U = U := by rw [fldMask, h]; exact h'

theorem sub_of_bits {T U : Nat} (h : ∀ i, T.testBit i = true → U.testBit i = true) : T ||| U = U := by
  apply Nat.eq_of_testBit_eq
  intro i
  rw [Nat.testBit_or]
  cases hb : T.testBit i
  · simp
  · simp [h i hb]

theorem setMask_fldMask (f : Fld) : setMask f ||| fldMask f = fldMask f := by
  rw [setMask, fldMask, rowMask]
  by_cases h : f.num % 1024 = F.INT_RAW.num ∨ f.num % 1024 = F.FLT_CAUSE.num
  · rw [if_pos h]
    split
    · rw [Nat.or_self]
    · rw [Nat.or_zero, ← Nat.or_assoc, Nat.or_self]
  · rw [if_neg h, if_neg (fun c => h c.1), Nat.or_self]

theorem fldMask_any (f : Fld) : fldMask f ||| anyField = anyField := by
  have h : f.num % 1024 < 1024 := Nat.mod_lt _ (by decide)
  refine sub_of_bits fun i hb => ?_
  rw [fldMask, rowMask, Nat.testBit_or, Nat.testBit_or, Nat.testBit_shiftLeft, Bool.or_eq_true, Bool.or_eq_true] at hb
  rcases hb with (hb | hb) | hb
  · have : i = 0 := Nat.testBit_one_eq_true_iff_self_eq_zero.1 hb
    subst this; exact anyField_regs
  · simp only [Bool.and_eq_true, decide_eq_true_eq] at hb
    have h0 := Nat.testBit_one_eq_true_iff_self_eq_zero.1 hb.2
    have : i = 16 + f.num % 1024 := by omega
    subst this; exact anyField_bit _
  · split at hb
    · rw [Nat.testBit_shiftLeft] at hb
      simp only [Bool.and_eq_true, decide_eq_true_eq] at hb
      have h0 := Nat.testBit_one_eq_true_iff_self_eq_zero.1 hb.2
      have : i = 1041 := by omega
      subst this; exact anyField_sticky
    · simp at hb

theorem forallNil {P : Fld × Nat → Prop} : ∀ x ∈ ([] : List (Fld × Nat)), P x := fun _ h => absurd h List.not_mem_nil

theorem forallCons {P : Fld × Nat → Prop} {a : Fld × Nat} {l : List (Fld × Nat)} (h : P a) (h' : ∀ x ∈ l, P x) : ∀ x ∈ a :: l, P x := fun x hx => by
  rcases List.mem_cons.1 hx with rfl | hx
  · exact h
  · exact h' x hx

theorem forallMap {α : Type} {P : Fld × Nat → Prop} {g : α → Fld × Nat} {l : List α} (h : ∀ a, P (g a)) : ∀ x ∈ l.map g, P x := fun x hx => by
  obtain ⟨a, -, rfl⟩ := List.mem_map.1 hx
  exact h a

/-- A write of a field. -/
theorem Keeps.putField {U : Nat} {s₀ s : State} {p : Page} {f : Fld} {d v : Nat} (k : Keeps U s₀ s) (hT : fldMask f ||| U = U) :
    Keeps U s₀ { s with regs := tabPut d s.regs (fldKey p f) v } :=
  have r := Keeps.refl (fldMask f) s
  Keeps.step (T := fldMask f) ⟨r.pending, r.sent, r.drawn, r.wfMem, r.wfLog, r.wfProps, r.wfEarly, r.wfLines, r.fuses, fun h => absurd h (by rw [fldMask_regs]; decide), r.mem, r.mgt, r.tim, r.tlk, r.pat, r.pin, r.au, r.cal, r.memc, r.hif, r.pwr, r.boot, r.lcs, r.out, r.free, r.bus, fun x h => by
    have e : x ≠ fldKey p f := fun e => by rw [e, fldMask_bit] at h; exact absurd h (by decide)
    simp only [tabPut]
    split
    · exact tabFind_tabDel_other _ e
    · exact tabFind_tabIns_other _ _ e, r.par, fun h => ⟨fun q b => by
    have e := fldMask_sticky h
    rw [tabGet_putField (fun h => e.1 h.symm), tabGet_putField (fun h => e.2 h.symm)]; exact ⟨id, id⟩⟩⟩ hT k

/-- Bits of a field are set. -/
theorem Keeps.orField {U : Nat} {s₀ s : State} {p : Page} {f : Fld} {v : Nat} (k : Keeps U s₀ s) (hT : setMask f ||| U = U) :
    Keeps U s₀ (orBits s p f v) :=
  have r := Keeps.refl (setMask f) s
  Keeps.step (T := setMask f) ⟨r.pending, r.sent, r.drawn, r.wfMem, r.wfLog, r.wfProps, r.wfEarly, r.wfLines, r.fuses, fun h => absurd h (by rw [setMask_regs]; decide), r.mem, r.mgt, r.tim, r.tlk, r.pat, r.pin, r.au, r.cal, r.memc, r.hif, r.pwr, r.boot, r.lcs, r.out, r.free, r.bus, fun x h => by
    have e : x ≠ fldKey p f := fun e => by rw [e, setMask_bit] at h; exact absurd h (by decide)
    simp only [orBits, wr, tabPut]
    split
    · exact tabFind_tabDel_other _ e
    · exact tabFind_tabIns_other _ _ e, r.par, orBits_sticky⟩ hT k

theorem Keeps.emitted {U : Nat} {s₀ s : State} {x : List Out} (k : Keeps U s₀ s) (hT : 16384 ||| U = U := by decide) : Keeps U s₀ { s with out := s.out ++ x } :=
  have r := Keeps.refl 16384 s
  Keeps.step (T := 16384) ⟨r.pending, List.prefix_append _ _, r.drawn, r.wfMem, r.wfLog, r.wfProps, r.wfEarly, r.wfLines, r.fuses, r.regs, r.mem, r.mgt, r.tim, r.tlk, r.pat, r.pin, r.au, r.cal, r.memc, r.hif, r.pwr, r.boot, r.lcs, fun h => absurd h (by decide), r.free, r.bus, r.flds, r.par, fun h => ⟨(r.sticky h).stays⟩⟩ hT k

theorem Keeps.drawnOne {U : Nat} {s₀ s : State} (k : Keeps U s₀ s) (hT : 32768 ||| U = U := by decide) : Keeps U s₀ { s with freeCtr := s.freeCtr + 1 } :=
  have r := Keeps.refl 32768 s
  Keeps.step (T := 32768) ⟨r.pending, r.sent, Nat.le_succ _, r.wfMem, r.wfLog, r.wfProps, r.wfEarly, r.wfLines, r.fuses, r.regs, r.mem, r.mgt, r.tim, r.tlk, r.pat, r.pin, r.au, r.cal, r.memc, r.hif, r.pwr, r.boot, r.lcs, r.out, fun h => absurd h (by decide), r.bus, r.flds, r.par, fun h => ⟨(r.sticky h).stays⟩⟩ hT k

theorem Keeps.weaken {T U : Nat} {s t : State} (h : Keeps T s t) (hT : T ||| U = U) : Keeps U s t := Keeps.step h hT (Keeps.refl _ _)

/-- A byte written keeps the canonical form of pattern memory. -/
theorem Memory.wf_put (m : List Host.Cell) (k : Nat) (b : BitVec 8) (h : Memory.wf m = true) : Memory.wf (tabPut 0 m k b) = true := by
  simp only [Memory.wf, Bool.and_eq_true, List.all_eq_true] at h ⊢
  refine ⟨tabSorted_tabPut 0 m k b h.1, fun x hx => ?_⟩
  rcases mem_tabPut 0 m k b x hx with ⟨rfl, hb⟩ | hx
  · simpa using hb
  · exact h.2 x hx

/-- Bytes taken away keep the canonical form of pattern memory. -/
theorem Memory.wf_filter (m : List Host.Cell) (f : Host.Cell → Bool) (h : Memory.wf m = true) : Memory.wf (m.filter f) = true := by
  simp only [Memory.wf, Bool.and_eq_true, List.all_eq_true] at h ⊢
  exact ⟨tabSorted_filter f m h.1, fun x hx => h.2 x (List.mem_filter.1 hx).1⟩

/-- A range of bytes taken away keeps the canonical form of pattern memory. -/
theorem Memory.wf_drop (m : List Host.Cell) (lo hi : Nat) (h : Memory.wf m = true) : Memory.wf (tabDrop m lo hi) = true := Memory.wf_filter m _ h

theorem Keeps.ite {U : Nat} {s x y : State} {c : Prop} [Decidable c] (h1 : Keeps U s x) (h2 : Keeps U s y) : Keeps U s (if c then x else y) := by
  split <;> assumption

theorem Keeps.foldl {U : Nat} {s y : State} {α : Type} {f : State → α → State} (l : List α) (hf : ∀ x a, Keeps U x (f x a)) (h : Keeps U s y) :
    Keeps U s (l.foldl f y) := by
  induction l generalizing y with
  | nil => exact h
  | cons a l ih => exact ih (Keeps.step (hf y a) (Nat.or_self U) h)

end Sys2Proof.Machine
end

