-- ==== Sys2Proof/Laws/Ops.lean ====
section
/-! SUPPORT. What the operations and commands of Machine/Ops.lean keep, and the components of the state they may write (Laws/Keeps.lean). -/

set_option exponentiation.threshold 2000

set_option Elab.async false

namespace Sys2Proof.Machine

open Sys2Proof

theorem wearClear_keeps {U : Nat} {s₀ : State} {kind inst : Nat} {s : State} (hk : Keeps U s₀ s) (hT : 8192 ||| U = U := by decide) : Keeps U s₀ (wearClear kind inst s) := by
  refine Keeps.step ?_ hT hk
  clear hk hT; unfold wearClear
  repeat' with_reducible first
    | exact Keeps.refl _ _ | assumption | refine Keeps.ite ?_ ?_ | dsimp only | intro _
    | (constructor <;> first | exact fun _ => rfl | exact fun _ _ => rfl | exact rfl | exact List.prefix_refl _ | exact Nat.le_refl _ | exact fun w => w | exact fun _ _ w => w | exact fun h => absurd h (by decide) | exact fun _ => ⟨fun _ _ => ⟨fun w => w, fun w => w⟩⟩)
    | refine Keeps.setLcs ⟨rfl, rfl⟩ ?_ | split

theorem wearNote_keeps {U : Nat} {s₀ : State} {kind inst v : Nat} {s : State} (hk : Keeps U s₀ s) (hT : 8192 ||| U = U := by decide) : Keeps U s₀ (wearNote kind inst v s) := by
  refine Keeps.step ?_ hT hk
  clear hk hT; unfold wearNote
  repeat' with_reducible first
    | exact Keeps.refl _ _ | assumption | refine Keeps.ite ?_ ?_ | dsimp only | intro _
    | (constructor <;> first | exact fun _ => rfl | exact fun _ _ => rfl | exact rfl | exact List.prefix_refl _ | exact Nat.le_refl _ | exact fun w => w | exact fun _ _ w => w | exact fun h => absurd h (by decide) | exact fun _ => ⟨fun _ _ => ⟨fun w => w, fun w => w⟩⟩)
    | refine Keeps.setLcs ⟨rfl, rfl⟩ ?_ | split

theorem whenS_keeps {U : Nat} {s y : State} {c : Bool} {f : State → State} (hf : ∀ x, Keeps U x (f x)) (h : Keeps U s y) : Keeps U s (whenS c f y) := by
  unfold whenS
  split
  · exact Keeps.step (hf y) (Nat.or_self U) h
  · exact h

theorem forS_keeps {U : Nat} {s y : State} {α : Type} {l : List α} {f : α → State → State} (hf : ∀ a x, Keeps U x (f a x)) (h : Keeps U s y) :
    Keeps U s (forS l f y) := Keeps.foldl l (fun x a => hf a x) h

theorem wr_keeps {U : Nat} {s₀ s : State} {p : Page} {f : Fld} {v : Nat} (hk : Keeps U s₀ s) (hT : fldMask f ||| U = U := by first | decide | (split <;> first | decide | with_unfolding_all (refine fldMask_of (by conv => lhs; whnf) ?_; decide)) | with_unfolding_all (refine fldMask_of (by conv => lhs; whnf) ?_; decide)) : Keeps U s₀ (wr s p f v) := Keeps.putField hk hT

theorem wrs_keeps {U : Nat} {s₀ : State} {s : State} {p : Page} {l : List (Fld × Nat)} (hk : Keeps U s₀ s) (hT : ∀ x ∈ l, fldMask x.1 ||| U = U := by (repeat' first | exact forallNil | refine forallCons ?_ ?_ | refine forallMap fun _ => ?_) <;> (first | decide | (split <;> first | decide | with_unfolding_all (refine fldMask_of (by conv => lhs; whnf) ?_; decide)) | with_unfolding_all (refine fldMask_of (by conv => lhs; whnf) ?_; decide))) : Keeps U s₀ (wrs s p l) := by
  unfold wrs
  induction l generalizing s with
  | nil => exact hk
  | cons a l ih => exact ih (wr_keeps hk (hT a (List.mem_cons_self ..))) (fun x hx => hT x (List.mem_cons_of_mem _ hx))

theorem wrb_keeps {U : Nat} {s₀ : State} {s : State} {p : Page} {f : Fld} {v : Bool} (hk : Keeps U s₀ s) (hT : fldMask f ||| U = U := by first | decide | (split <;> first | decide | with_unfolding_all (refine fldMask_of (by conv => lhs; whnf) ?_; decide)) | with_unfolding_all (refine fldMask_of (by conv => lhs; whnf) ?_; decide)) : Keeps U s₀ (wrb s p f v) := wr_keeps hk hT

theorem addSat_keeps {U : Nat} {s₀ : State} {s : State} {p : Page} {f : Fld} {n : Nat} (hk : Keeps U s₀ s) (hT : fldMask f ||| U = U := by first | decide | (split <;> first | decide | with_unfolding_all (refine fldMask_of (by conv => lhs; whnf) ?_; decide)) | with_unfolding_all (refine fldMask_of (by conv => lhs; whnf) ?_; decide)) : Keeps U s₀ (addSat s p f n) := wr_keeps hk hT

theorem incSat_keeps {U : Nat} {s₀ : State} {s : State} {p : Page} {f : Fld} (hk : Keeps U s₀ s) (hT : fldMask f ||| U = U := by first | decide | (split <;> first | decide | with_unfolding_all (refine fldMask_of (by conv => lhs; whnf) ?_; decide)) | with_unfolding_all (refine fldMask_of (by conv => lhs; whnf) ?_; decide)) : Keeps U s₀ (incSat s p f) := addSat_keeps hk hT

theorem addWrap_keeps {U : Nat} {s₀ : State} {s : State} {p : Page} {f : Fld} {n : Nat} (hk : Keeps U s₀ s) (hT : fldMask f ||| U = U := by first | decide | (split <;> first | decide | with_unfolding_all (refine fldMask_of (by conv => lhs; whnf) ?_; decide)) | with_unfolding_all (refine fldMask_of (by conv => lhs; whnf) ?_; decide)) : Keeps U s₀ (addWrap s p f n) := wr_keeps hk hT

theorem incWrap_keeps {U : Nat} {s₀ : State} {s : State} {p : Page} {f : Fld} (hk : Keeps U s₀ s) (hT : fldMask f ||| U = U := by first | decide | (split <;> first | decide | with_unfolding_all (refine fldMask_of (by conv => lhs; whnf) ?_; decide)) | with_unfolding_all (refine fldMask_of (by conv => lhs; whnf) ?_; decide)) : Keeps U s₀ (incWrap s p f) := addWrap_keeps hk hT

theorem orBits_keeps {U : Nat} {s₀ : State} {s : State} {p : Page} {f : Fld} {m : Nat} (hk : Keeps U s₀ s) (hT : setMask f ||| U = U := by first | decide | exact sub_trans (setMask_fldMask _) (by first | decide | (split <;> first | decide | with_unfolding_all (refine fldMask_of (by conv => lhs; whnf) ?_; decide)) | with_unfolding_all (refine fldMask_of (by conv => lhs; whnf) ?_; decide))) : Keeps U s₀ (orBits s p f m) := Keeps.orField hk hT

theorem freeStep_keeps {U : Nat} {s₀ s : State} (hk : Keeps U s₀ s) (hT : 32768 ||| U = U := by decide) : Keeps U s₀ (freeStep s) := Keeps.drawnOne hk hT

theorem emit_keeps {U : Nat} {s₀ s : State} {o : Out} (hk : Keeps U s₀ s) (hT : 16384 ||| U = U := by decide) : Keeps U s₀ (emit s o) := Keeps.emitted hk hT

theorem countNonown_keeps {U : Nat} {s₀ : State} {s : State} {m : Nat} (hk : Keeps U s₀ s) (hT : 0x100000000000000000000000000000000000000000000000000000000000000000000000000000000000000000000000000000000000000000000000000000000000000000001 ||| U = U := by decide) : Keeps U s₀ (countNonown s m) := by
  refine Keeps.step ?_ hT hk
  clear hk hT; unfold countNonown
  repeat' with_reducible first
    | exact Keeps.refl _ _ | assumption | refine Keeps.ite ?_ ?_ | refine incSat_keeps ?_ | split

theorem raiseVector_keeps {U : Nat} {s₀ : State} {s : State} {n src : Nat} (hk : Keeps U s₀ s) (hT : 0x200000000000000000000000000000000000000000000000000000000000000000000000000000000000000000000000000000000000000000000000000000000000000000000000004001 ||| U = U := by decide) : Keeps U s₀ (raiseVector s n src) := by
  refine Keeps.step ?_ hT hk
  clear hk hT; unfold raiseVector
  repeat' with_reducible first
    | exact Keeps.refl _ _ | assumption | refine Keeps.ite ?_ ?_ | refine emit_keeps ?_ | refine orBits_keeps ?_ | dsimp only | split

theorem raiseInt_keeps {U : Nat} {s₀ : State} {s : State} {p : Page} {b : Nat} (hk : Keeps U s₀ s) (hT : 0x800200000000000000000000000000000000000000000000000000000000000000000000000000000000000000000000000000000000000000000000000000000000000000000000000004001 ||| U = U := by decide) : Keeps U s₀ (raiseInt s p b) := by
  refine Keeps.step ?_ hT hk
  clear hk hT; unfold raiseInt
  repeat' with_reducible first
    | exact Keeps.refl _ _ | assumption | refine Keeps.ite ?_ ?_ | refine raiseVector_keeps ?_ | refine orBits_keeps ?_ | dsimp only | split

theorem reraise_keeps {U : Nat} {s₀ : State} {s : State} {p : Page} {bitList : List Nat} (hk : Keeps U s₀ s) (hT : 0x200000000000000000000000000000000000000000000000000000000000000000000000000000000000000000000000000000000000000000000000000000000000000000000000004001 ||| U = U := by decide) : Keeps U s₀ (reraise s p bitList) := by
  refine Keeps.step ?_ hT hk
  clear hk hT; unfold reraise
  repeat' with_reducible first
    | exact Keeps.refl _ _ | assumption | refine Keeps.ite ?_ ?_ | refine raiseVector_keeps ?_ | refine forS_keeps ?_ ?_ | dsimp only | intro _
    | split

theorem evlog_keeps {U : Nat} {s₀ s : State} {kind typ inst cause detail : Nat} (h : Keeps U s₀ s) (hT : 0x30000000000000000000000000000000000000000000000000000000000000000000000000000000000000000000000000000000000000000000000000000000000000000000000000000000000000005 ||| U = U := by decide) : Keeps U s₀ (evlog s kind typ inst cause detail) := by
  refine Keeps.step ?_ hT h
  unfold evlog
  refine wr_keeps (whenS_keeps (fun x => incSat_keeps (Keeps.refl _ _) (by decide)) (Keeps.setLog ?_ rfl (Keeps.refl _ _) (by decide))) (by decide)
  intro h y hy
  rcases mem_tabPut _ _ _ _ _ hy with ⟨rfl, -⟩ | hy
  · exact Nat.mod_lt _ (by decide)
  · exact h y hy

theorem setFltRec_keeps {U : Nat} {s₀ : State} {s : State} {p : Page} {c : Nat} {r : FltRec} (hk : Keeps U s₀ s) (hT : 4 ||| U = U := by decide) : Keeps U s₀ (setFltRec s p c r) := by
  refine Keeps.step ?_ hT hk
  clear hk hT; unfold setFltRec
  repeat' with_reducible first
    | exact Keeps.refl _ _ | assumption
    | (constructor <;> first | exact fun _ => rfl | exact fun _ _ => rfl | exact rfl | exact List.prefix_refl _ | exact Nat.le_refl _ | exact fun w => w | exact fun _ _ w => w | exact fun h => absurd h (by decide) | exact fun _ => ⟨fun _ _ => ⟨fun w => w, fun w => w⟩⟩)
    | refine Keeps.setMgt ⟨rfl, rfl⟩ ?_

theorem becomeSevere_keeps {U : Nat} {s₀ : State} {s : State} {p : Page} {c : Nat} (hk : Keeps U s₀ s) (hT : 0x3830000020800200000000000000000000000000000000000000000000000000000000000000000000000000000000000000000000000000000000000000000000000000000000000000000000000004005 ||| U = U := by decide) : Keeps U s₀ (becomeSevere s p c) := by
  refine Keeps.step ?_ hT hk
  clear hk hT; unfold becomeSevere
  repeat' with_reducible first
    | exact Keeps.refl _ _ | assumption | refine Keeps.ite ?_ ?_ | refine setFltRec_keeps ?_ | refine evlog_keeps ?_ | refine raiseInt_keeps ?_
    | refine orBits_keeps ?_ | refine wrs_keeps ?_ | refine whenS_keeps ?_ ?_ | dsimp only | intro _

theorem fltEvent_keeps {U : Nat} {s₀ : State} {s : State} {p : Page} {c : Nat} (hk : Keeps U s₀ s) (hT : 0x3830000068800200000000000000000000000000000000000000000000000000000000000000000000000000000000000000000000000000000000000000000000000000000000000000000000000004005 ||| U = U := by decide) : Keeps U s₀ (fltEvent s p c) := by
  refine Keeps.step ?_ hT hk
  clear hk hT; unfold fltEvent
  repeat' with_reducible first
    | exact Keeps.refl _ _ | assumption | refine Keeps.ite ?_ ?_ | refine becomeSevere_keeps ?_ | refine setFltRec_keeps ?_ | refine evlog_keeps ?_
    | refine orBits_keeps ?_ | refine incSat_keeps ?_ | refine whenS_keeps ?_ ?_ | dsimp only | intro _ | split

theorem setLive_keeps {U : Nat} {s₀ : State} {s : State} {p : Page} {c : Nat} {holds : Bool} (hk : Keeps U s₀ s) (hT : 0x3830000078800200000000000000000000000000000000000000000000000000000000000000000000000000000000000000000000000000000000000000000000000000000000000000000000000004005 ||| U = U := by decide) : Keeps U s₀ (setLive s p c holds) := by
  refine Keeps.step ?_ hT hk
  clear hk hT; unfold setLive
  repeat' with_reducible first
    | exact Keeps.refl _ _ | assumption | refine Keeps.ite ?_ ?_ | refine fltEvent_keeps ?_ | refine orBits_keeps ?_ | refine wr_keeps ?_ | dsimp only
    | split

theorem setLiveInt_keeps {U : Nat} {s₀ : State} {s : State} {p : Page} {c i : Nat} {holds : Bool} (hk : Keeps U s₀ s) (hT : 0x3830000078800200000000000000000000000000000000000000000000000000000000000000000000000000000000000000000000000000000000000000000000000000000000000000000000000004005 ||| U = U := by decide) : Keeps U s₀ (setLiveInt s p c i holds) := by
  refine Keeps.step ?_ hT hk
  clear hk hT; unfold setLiveInt
  repeat' with_reducible first
    | exact Keeps.refl _ _ | assumption | refine Keeps.ite ?_ ?_ | refine setLive_keeps ?_ | refine raiseInt_keeps ?_ | dsimp only | split

theorem writeLocked_keeps {U : Nat} {s₀ : State} {s : State} {p : Page} (hk : Keeps U s₀ s) (hT : 0x3830020068800200000000000000000000000000000000000000000000000000000000000000000000000000000000000000000000000000000000000000000000000000000000000000000000000004005 ||| U = U := by decide) : Keeps U s₀ (writeLocked s p) := by
  refine Keeps.step ?_ hT hk
  clear hk hT; unfold writeLocked
  repeat' with_reducible first
    | exact Keeps.refl _ _ | assumption | refine fltEvent_keeps ?_ | refine incSat_keeps ?_

theorem cplErr_keeps {U : Nat} {s₀ : State} {s : State} {p : Page} (hk : Keeps U s₀ s) (hT : 0x3830040068800200000000000000000000000000000000000000000000000000000000000000000000000000000000000000000000000000000000000000000000000000000000000000000000000004005 ||| U = U := by decide) : Keeps U s₀ (cplErr s p) := by
  refine Keeps.step ?_ hT hk
  clear hk hT; unfold cplErr
  repeat' with_reducible first
    | exact Keeps.refl _ _ | assumption | refine fltEvent_keeps ?_ | refine incSat_keeps ?_

theorem dropPair_keeps {U : Nat} {s₀ : State} {s : State} {m : Nat} {p : Page} {off : Nat} (hk : Keeps U s₀ s) (hT : 4 ||| U = U := by decide) : Keeps U s₀ (dropPair s m p off) := by
  refine Keeps.step ?_ hT hk
  clear hk hT; unfold dropPair
  repeat' with_reducible first
    | exact Keeps.refl _ _ | assumption
    | (constructor <;> first | exact fun _ => rfl | exact fun _ _ => rfl | exact rfl | exact List.prefix_refl _ | exact Nat.le_refl _ | exact fun w => w | exact fun _ _ w => w | exact fun h => absurd h (by decide) | exact fun _ => ⟨fun _ _ => ⟨fun w => w, fun w => w⟩⟩)
    | refine Keeps.setMgt ⟨rfl, rfl⟩ ?_

theorem pairOpen_keeps {U : Nat} {s₀ : State} {m : Nat} {p : Page} {off v : Nat} {s : State} (hk : Keeps U s₀ s) (hT : 0x3830040068800200000000000000000000000000000000000000000000000000000000000000000000000000000000000000000000000000000000000000000000000000000000000000000000000004005 ||| U = U := by decide) : Keeps U s₀ (pairOpen m p off v s) := by
  refine Keeps.step ?_ hT hk
  clear hk hT; unfold pairOpen
  repeat' with_reducible first
    | exact Keeps.refl _ _ | assumption | refine Keeps.ite ?_ ?_ | refine cplErr_keeps ?_ | dsimp only | split
    | (constructor <;> first | exact fun _ => rfl | exact fun _ _ => rfl | exact rfl | exact List.prefix_refl _ | exact Nat.le_refl _ | exact fun w => w | exact fun _ _ w => w | exact fun h => absurd h (by decide) | exact fun _ => ⟨fun _ _ => ⟨fun w => w, fun w => w⟩⟩)
    | refine Keeps.setMgt ⟨rfl, rfl⟩ ?_

end Sys2Proof.Machine
end

