-- ==== Sys2Proof/Laws/Access.lean ====
section
/-! SUPPORT. What the operations and commands of Machine/Access.lean keep, and the components of the state they may write (Laws/Keeps.lean). -/

set_option exponentiation.threshold 2000

set_option Elab.async false

namespace Sys2Proof.Machine

open Sys2Proof

theorem setBank_keeps {U : Nat} {s₀ : State} {s : State} {b : Nat} {x : Bank} (hk : Keeps U s₀ s) (hT : 64 ||| U = U := by decide) : Keeps U s₀ (setBank s b x) := by
  refine Keeps.step ?_ hT hk
  clear hk hT; unfold setBank
  repeat' with_reducible first
    | exact Keeps.refl _ _ | assumption
    | (constructor <;> first | exact fun _ => rfl | exact fun _ _ => rfl | exact rfl | exact List.prefix_refl _ | exact Nat.le_refl _ | exact fun w => w | exact fun _ _ w => w | exact fun h => absurd h (by decide) | exact fun _ => ⟨fun _ _ => ⟨fun w => w, fun w => w⟩⟩)
    | refine Keeps.setPin ?_

theorem setBankSafe_keeps {U : Nat} {s₀ : State} {s : State} {b why : Nat} {on : Bool} (hk : Keeps U s₀ s) (hT : 0x40000000000000000000000000000000000000000000000000000000000041 ||| U = U := by decide) : Keeps U s₀ (setBankSafe s b why on) := by
  refine Keeps.step ?_ hT hk
  clear hk hT; unfold setBankSafe
  repeat' with_reducible first
    | exact Keeps.refl _ _ | assumption | refine setBank_keeps ?_ | refine wrb_keeps ?_ | dsimp only

theorem setTport_keeps {U : Nat} {s₀ : State} {s : State} {n : Nat} {x : TlkPort} (hk : Keeps U s₀ s) (hT : 16 ||| U = U := by decide) : Keeps U s₀ (setTport s n x) := by
  refine Keeps.step ?_ hT hk
  clear hk hT; unfold setTport
  repeat' with_reducible first
    | exact Keeps.refl _ _ | assumption
    | (constructor <;> first | exact fun _ => rfl | exact fun _ _ => rfl | exact rfl | exact List.prefix_refl _ | exact Nat.le_refl _ | exact fun w => w | exact fun _ _ w => w | exact fun h => absurd h (by decide) | exact fun _ => ⟨fun _ _ => ⟨fun w => w, fun w => w⟩⟩)
    | refine Keeps.setTlk ?_

theorem endLinkConditions_keeps {U : Nat} {s₀ : State} {s : State} {n : Nat} (hk : Keeps U s₀ s) (hT : 0x3830000078800200000000000000000000000000000000000000000000000000000000000000000000000000000000000000000000000000000000000000000000000000000000000000000000000004005 ||| U = U := by decide) : Keeps U s₀ (endLinkConditions s n) := by
  refine Keeps.step ?_ hT hk
  clear hk hT; unfold endLinkConditions
  repeat' with_reducible first
    | exact Keeps.refl _ _ | assumption | refine setLive_keeps ?_

theorem setTlane_keeps {U : Nat} {s₀ : State} {s : State} {l : Nat} {x : TlkLane} (hk : Keeps U s₀ s) (hT : 16 ||| U = U := by decide) : Keeps U s₀ (setTlane s l x) := by
  refine Keeps.step ?_ hT hk
  clear hk hT; unfold setTlane
  repeat' with_reducible first
    | exact Keeps.refl _ _ | assumption
    | (constructor <;> first | exact fun _ => rfl | exact fun _ _ => rfl | exact rfl | exact List.prefix_refl _ | exact Nat.le_refl _ | exact fun w => w | exact fun _ _ w => w | exact fun h => absurd h (by decide) | exact fun _ => ⟨fun _ _ => ⟨fun w => w, fun w => w⟩⟩)
    | refine Keeps.setTlk ?_

theorem moveLane_keeps {U : Nat} {s₀ : State} {s : State} {n : Nat} (hk : Keeps U s₀ s) (hT : 0x3830000078800200000000000000000000000000000000000000000000000000000000000000000000000000000000000000000000000000000000000000000000000070000000000000000000000004015 ||| U = U := by decide) : Keeps U s₀ (moveLane s n) := by
  refine Keeps.step ?_ hT hk
  clear hk hT; unfold moveLane
  repeat' with_reducible first
    | exact Keeps.refl _ _ | assumption | refine Keeps.ite ?_ ?_ | refine setTlane_keeps ?_ | refine setTport_keeps ?_ | refine setLive_keeps ?_
    | refine wrs_keeps ?_ | dsimp only | intro _ | split

theorem startSearch_keeps {U : Nat} {s₀ : State} {n : Nat} {s : State} (hk : Keeps U s₀ s) (hT : 0x3830000078800200000000000000000000000000000000000000000000000000000000000000000000000000000000000000000000000000000000000000000000000070000080000000000000000004015 ||| U = U := by decide) : Keeps U s₀ (startSearch s n) := by
  refine Keeps.step ?_ hT hk
  clear hk hT; unfold startSearch
  repeat' with_reducible first
    | exact Keeps.refl _ _ | assumption | refine Keeps.ite ?_ ?_ | refine endLinkConditions_keeps ?_ | refine moveLane_keeps ?_
    | refine setTport_keeps ?_ | refine wr_keeps ?_ | dsimp only | intro _ | split

theorem beginSearch_keeps {U : Nat} {s₀ : State} {s : State} {n : Nat} (hk : Keeps U s₀ s) (hT : 0x3830000078800200000000000000000000000000000000000000000000000000000000000000000000000000000000000000000000000000000000000000000000000070000080000000000000000004015 ||| U = U := by decide) : Keeps U s₀ (beginSearch s n) := by
  refine Keeps.step ?_ hT hk
  clear hk hT; unfold beginSearch
  repeat' with_reducible first
    | exact Keeps.refl _ _ | assumption | refine startSearch_keeps ?_ | refine Keeps.ite ?_ ?_ | refine moveLane_keeps ?_
    | refine endLinkConditions_keeps ?_ | refine setTport_keeps ?_ | refine wr_keeps ?_ | dsimp only | intro _ | split

theorem leaveSafe_keeps {U : Nat} {s₀ : State} {p : Page} {s : State} (hk : Keeps U s₀ s) (hT : 0x3830000078a00200000000000000000000000000000000000000000000000000000000000000000000000000000000000000040000000000000000000000000000000070000080000000000000000004055 ||| U = U := by decide) : Keeps U s₀ (leaveSafe p s) := by
  refine Keeps.step ?_ hT hk
  clear hk hT; unfold leaveSafe
  repeat' with_reducible first
    | exact Keeps.refl _ _ | assumption | refine Keeps.ite ?_ ?_ | refine beginSearch_keeps ?_ | refine setBankSafe_keeps ?_ | refine wrb_keeps ?_
    | refine forS_keeps ?_ ?_ | dsimp only | intro _ | split

theorem parityWritten_keeps {U : Nat} {s₀ : State} {p : Page} {off : Nat} {s : State} (hk : Keeps U s₀ s) (hT : (parMask ||| 0x3830000078a00200000000000000000000000000000000000000000000000000000000000000000000000000000000000000040000000000000000000000000000000070000080000000000000000004055) ||| U = U := by decide) : Keeps U s₀ (parityWritten p off s) := by
  refine Keeps.step ?_ hT hk
  clear hk hT; unfold parityWritten
  repeat' with_reducible first
    | exact Keeps.refl _ _ | assumption | refine Keeps.ite ?_ ?_ | refine leaveSafe_keeps ?_ | refine setLive_keeps ?_ | dsimp only | split
    | (constructor <;> first | exact fun _ => rfl | exact fun _ _ => rfl | exact rfl | exact List.prefix_refl _ | exact Nat.le_refl _ | exact fun w => w | exact fun _ _ w => w | exact fun h => absurd h (by decide) | exact fun _ => ⟨fun _ _ => ⟨fun w => w, fun w => w⟩⟩)
    | refine Keeps.setPar rfl ?_

theorem badAccess_keeps {U : Nat} {s₀ : State} {s : State} {m : Nat} (hk : Keeps U s₀ s) (hT : 0x40000000000000000000000000000000000000000000000000000000000000000000000000000000000000000000000000000000000000000000000000000000000000000001 ||| U = U := by decide) : Keeps U s₀ (badAccess s m) := by
  refine Keeps.step ?_ hT hk
  clear hk hT; unfold badAccess
  repeat' with_reducible first
    | exact Keeps.refl _ _ | assumption | refine Keeps.ite ?_ ?_ | refine incSat_keeps ?_ | split

theorem badPlace_keeps {U : Nat} {s₀ : State} {m : Nat} {s : State} (hk : Keeps U s₀ s) (hT : 0x40000000000000000000000000000000000000000000000000000000000000000000000000000000000000000000000000000000000000000000000000000000000000000001 ||| U = U := by decide) : Keeps U s₀ (badPlace m s) := by
  refine Keeps.step ?_ hT hk
  clear hk hT; unfold badPlace
  repeat' with_reducible first
    | exact Keeps.refl _ _ | assumption
    | refine badAccess_keeps ?_ | refine Keeps.ite ?_ ?_ | dsimp only | intro _ | split

theorem takeIn_keeps {U : Nat} {s₀ y : State} {m : Nat} {c : Instr} {wait : Bool} {f : State → State} (hf : ∀ x, Keeps U x (f x)) (h : Keeps U s₀ y) (hU : busMask ||| U = U := by decide) : Keeps U s₀ (takeIn m c wait f y) := by
  unfold takeIn
  exact Keeps.ite (Keeps.setBus h hU) (Keeps.step (hf y) (Nat.or_self U) h)

theorem safeRefused_keeps {U : Nat} {s₀ : State} {s : State} {p : Page} (hk : Keeps U s₀ s) (hT : 0x3830000068800200000000000000000000000000000000000000000000000000000000000000000000000000000000000000000000000000000000000000000000000000000000000000000000000004005 ||| U = U := by decide) : Keeps U s₀ (safeRefused s p) := by
  refine Keeps.step ?_ hT hk
  clear hk hT; unfold safeRefused
  repeat' with_reducible first
    | exact Keeps.refl _ _ | assumption | refine Keeps.ite ?_ ?_ | refine fltEvent_keeps ?_ | split

theorem voidShadow_keeps {U : Nat} {s₀ : State} {m : Nat} {p : Page} {s : State} (hk : Keeps U s₀ s) (hT : 4 ||| U = U := by decide) : Keeps U s₀ (voidShadow m p s) := by
  refine Keeps.step ?_ hT hk
  clear hk hT; unfold voidShadow
  repeat' with_reducible first
    | exact Keeps.refl _ _ | assumption | refine Keeps.ite ?_ ?_ | split
    | (constructor <;> first | exact fun _ => rfl | exact fun _ _ => rfl | exact rfl | exact List.prefix_refl _ | exact Nat.le_refl _ | exact fun w => w | exact fun _ _ w => w | exact fun h => absurd h (by decide) | exact fun _ => ⟨fun _ _ => ⟨fun w => w, fun w => w⟩⟩)
    | refine Keeps.setMgt ⟨rfl, rfl⟩ ?_

theorem takenWrite_keeps {U : Nat} {s₀ y : State} {p : Page} {off : Nat} {stores : Bool} {f : State → State} (hf : ∀ x, Keeps U x (f x)) (h : Keeps U s₀ y) (hU : (parMask ||| 0x3830000078a00200000000000000000000000000000000000000000000000000000000000000000000000000000000000000040000000000000000000000000000000070000080000000000000000004055) ||| U = U := by decide) : Keeps U s₀ (takenWrite p off stores f y) := by
  have hf' : Keeps U s₀ (f y) := Keeps.step (hf y) (Nat.or_self U) h
  unfold takenWrite
  exact Keeps.ite hf' (parityWritten_keeps hf' (sub_trans (by decide) hU))

theorem accessFor_keeps {U : Nat} {s₀ y : State} {stores : Bool} {m : Nat} {p : Page} {off : Nat} {may : Bool} {f : State → State} (hf : ∀ x, Keeps U x (f x)) (h : Keeps U s₀ y) (hU : (parMask ||| 0x3830000078a00200000000140000000000000000000000000000000000000000000000000000000000000000000000000000040000000000000000000000000000000070000080000000000000000004055) ||| U = U := by decide) : Keeps U s₀ (accessFor stores y m p off may f) := by
  unfold accessFor
  repeat' with_reducible first
    | exact Keeps.refl _ _ | assumption | refine Keeps.ite ?_ ?_ | refine voidShadow_keeps ?_ (sub_trans (by decide) hU)
    | refine badAccess_keeps ?_ (sub_trans (by decide) hU) | refine countNonown_keeps ?_ (sub_trans (by decide) hU)
    | refine safeRefused_keeps ?_ (sub_trans (by decide) hU) | refine takenWrite_keeps ?_ ?_ (sub_trans (by decide) hU) | dsimp only

theorem accessIf_keeps {U : Nat} {s₀ y : State} {m : Nat} {p : Page} {off : Nat} {may : Bool} {f : State → State} (hf : ∀ x, Keeps U x (f x)) (h : Keeps U s₀ y) (hU : (parMask ||| 0x3830000078a00200000000140000000000000000000000000000000000000000000000000000000000000000000000000000040000000000000000000000000000000070000080000000000000000004055) ||| U = U := by decide) : Keeps U s₀ (accessIf y m p off may f) := accessFor_keeps hf h (sub_trans (by decide) hU)

theorem asWriter_keeps {U : Nat} {s₀ y : State} {m : Nat} {p : Page} {off : Nat} {prv : Bool} {f : State → State} (hf : ∀ x, Keeps U x (f x)) (h : Keeps U s₀ y) (hU : (parMask ||| 0x3830000078a00200000000140000000000000000000000000000000000000000000000000000000000000000000000000000040000000000000000000000000000000070000080000000000000000004055) ||| U = U := by decide) : Keeps U s₀ (asWriter y m p off prv f) := by
  have hf' : ∀ {a x}, Keeps U a x → Keeps U a (f x) := fun k => Keeps.step (hf ..) (Nat.or_self U) k
  unfold asWriter
  repeat' with_reducible first
    | exact Keeps.refl _ _ | assumption | refine hf' ?_ | refine accessIf_keeps ?_ ?_ (sub_trans (by decide) hU) | intro _

theorem bar4Access_keeps {U : Nat} {s₀ y : State} {n : Nat} {f : State → State} (hf : ∀ x, Keeps U x (f x)) (h : Keeps U s₀ y) (hU : 4 ||| U = U := by decide) : Keeps U s₀ (bar4Access n f y) :=
  whenS_keeps (fun x => Keeps.step (hf _) (Nat.or_self U) (voidShadow_keeps (Keeps.refl _ _) hU)) h

theorem pairComplete_keeps {U : Nat} {s₀ y : State} {m : Nat} {p : Page} {off comp : Nat} {f : Nat → State → State} (hf : ∀ v x, Keeps U x (f v x)) (h : Keeps U s₀ y) (hU : (parMask ||| 0x3830040078a00200000000140000000000000000000000000000000000000000000000000000000000000000000000000000040000000000000000000000000000000070000080000000000000000004055) ||| U = U := by decide) : Keeps U s₀ (pairComplete m p off comp f y) := by
  have hf' : ∀ {a v x}, Keeps U a x → Keeps U a (f v x) := fun k => Keeps.step (hf ..) (Nat.or_self U) k
  unfold pairComplete
  repeat' with_reducible first
    | exact Keeps.refl _ _ | assumption | refine hf' ?_ | refine Keeps.ite ?_ ?_ | refine accessFor_keeps ?_ ?_ (sub_trans (by decide) hU)
    | refine dropPair_keeps ?_ (sub_trans (by decide) hU) | refine cplErr_keeps ?_ (sub_trans (by decide) hU) | intro _ | split

end Sys2Proof.Machine
end

