-- ==== Sys2Proof/Laws/Mem.lean ====
section
/-! SUPPORT. What the operations and commands of Machine/Mem.lean keep, and the components of the state they may write (Laws/Keeps.lean). -/

set_option exponentiation.threshold 2000

set_option Elab.async false

namespace Sys2Proof.Machine

open Sys2Proof

theorem quotaFld_mask {U : Nat} {n : Nat} (h : 0x3c00000000000000000000000000000000000000000000000000000000000000000000000000000000000000000000000000000000000000000000000000000000000000001 ||| U = U) : fldMask (quotaFld n) ||| U = U := by
  refine sub_trans ?_ h
  unfold quotaFld
  repeat' split
  all_goals decide

theorem putByte_keeps {U : Nat} {s₀ s : State} {part addr : Nat} {b : BitVec 8} (hk : Keeps U s₀ s) (hT : 2 ||| U = U := by decide) : Keeps U s₀ (putByte s part addr b) :=
  Keeps.setMem (Memory.wf_put s.mem _ b) hk hT

theorem putLE_keeps {U : Nat} {s₀ s : State} {part addr n v : Nat} (hk : Keeps U s₀ s) (hT : 2 ||| U = U := by decide) : Keeps U s₀ (putLE s part addr n v) := by
  induction n generalizing s addr v with
  | zero => exact hk
  | succ n ih => exact ih (putByte_keeps hk hT)

theorem putBytes_keeps {U : Nat} {s₀ s : State} {part addr : Nat} {l : List Nat} (hk : Keeps U s₀ s) (hT : 2 ||| U = U := by decide) : Keeps U s₀ (putBytes s part addr l) := by
  induction l generalizing s addr with
  | nil => exact hk
  | cons b l ih => exact ih (putByte_keeps hk hT)

theorem setMapEnt_keeps {U : Nat} {s₀ : State} {h : Nat} {x : MapEnt} {s : State} (hk : Keeps U s₀ s) (hT : 512 ||| U = U := by decide) : Keeps U s₀ (setMapEnt h x s) := by
  refine Keeps.step ?_ hT hk
  clear hk hT; unfold setMapEnt
  repeat' with_reducible first
    | exact Keeps.refl _ _ | assumption
    | (constructor <;> first | exact fun _ => rfl | exact fun _ _ => rfl | exact rfl | exact List.prefix_refl _ | exact Nat.le_refl _ | exact fun w => w | exact fun _ _ w => w | exact fun h => absurd h (by decide) | exact fun _ => ⟨fun _ _ => ⟨fun w => w, fun w => w⟩⟩)
    | refine Keeps.setMemc ⟨rfl, rfl⟩ ?_

theorem setPoison_keeps {U : Nat} {s₀ : State} {h blk : Nat} {on : Bool} {s : State} (hk : Keeps U s₀ s) (hT : 512 ||| U = U := by decide) : Keeps U s₀ (setPoison h blk on s) := by
  refine Keeps.step ?_ hT hk
  clear hk hT; unfold setPoison
  repeat' with_reducible first
    | exact Keeps.refl _ _ | assumption | refine setMapEnt_keeps ?_

theorem recordUe_keeps {U : Nat} {s₀ : State} {cls : Nat} {part : Option Nat} {frame blk addr : Nat} {write : Bool} {s : State} (hk : Keeps U s₀ s) (hT : 0x38300000688002000000000000007f01003fc000000000000000000000000000000000000000000000000000000000000000000000000000000000000000000000000000000000000000000000000004005 ||| U = U := by decide) : Keeps U s₀ (recordUe cls part frame blk addr write s) := by
  refine Keeps.step ?_ hT hk
  clear hk hT; unfold recordUe
  repeat' with_reducible first
    | exact Keeps.refl _ _ | assumption | refine fltEvent_keeps ?_ | refine raiseInt_keeps ?_ | refine incSat_keeps ?_ | refine wrs_keeps ?_
    | dsimp only | split

theorem recordUeAt_keeps {U : Nat} {s₀ : State} {cls part addr : Nat} {write : Bool} {s : State} (hk : Keeps U s₀ s) (hT : 0x38300000688002000000000000007f01003fc000000000000000000000000000000000000000000000000000000000000000000000000000000000000000000000000000000000000000000000000004205 ||| U = U := by decide) : Keeps U s₀ (recordUeAt cls part addr write s) := by
  refine Keeps.step ?_ hT hk
  clear hk hT; unfold recordUeAt
  repeat' with_reducible first
    | exact Keeps.refl _ _ | assumption | refine Keeps.ite ?_ ?_ | refine recordUe_keeps ?_ | dsimp only | split
    | (constructor <;> first | exact fun _ => rfl | exact fun _ _ => rfl | exact rfl | exact List.prefix_refl _ | exact Nat.le_refl _ | exact fun w => w | exact fun _ _ w => w | exact fun h => absurd h (by decide) | exact fun _ => ⟨fun _ _ => ⟨fun w => w, fun w => w⟩⟩)
    | refine Keeps.setMemc ⟨rfl, rfl⟩ ?_

theorem mendBlock_keeps {U : Nat} {s₀ : State} {cls part addr n : Nat} {bad : Bool} {blk : Nat} {s : State} (hk : Keeps U s₀ s) (hT : 0x38300000688002000000000000007f01003fc000000000000000000000000000000000000000000000000000000000000000000000000000000000000000000000000000000000000000000000000004207 ||| U = U := by decide) : Keeps U s₀ (mendBlock cls part addr n bad blk s) := by
  refine Keeps.step ?_ hT hk
  clear hk hT; unfold mendBlock
  repeat' with_reducible first
    | exact Keeps.refl _ _ | assumption | refine Keeps.ite ?_ ?_ | refine recordUeAt_keeps ?_ | refine setPoison_keeps ?_ | refine putBytes_keeps ?_
    | dsimp only | split

theorem countBytes_keeps {U : Nat} {s₀ : State} {cls part n : Nat} {s : State} (hk : Keeps U s₀ s) (hT : 0x7000000000000000000000000000000000000000000000000000000000000000000000000000000000000000000000000000000000000000000000000000000000000001 ||| U = U := by decide) : Keeps U s₀ (countBytes cls part n s) := by
  refine Keeps.step ?_ hT hk
  clear hk hT; unfold countBytes
  repeat' with_reducible first
    | exact Keeps.refl _ _ | assumption | refine addWrap_keeps ?_ | split

theorem beforeWrite_keeps {U : Nat} {s₀ : State} {cls part addr n : Nat} {s : State} (hk : Keeps U s₀ s) (hT : 0x38300000688002000000000000077f01003fc000000000000000000000000000000000000000000000000000000000000000000000000000000000000000000000000000000000000000000000000004207 ||| U = U := by decide) : Keeps U s₀ (beforeWrite cls part addr n s) := by
  refine Keeps.step ?_ hT hk
  clear hk hT; unfold beforeWrite
  repeat' with_reducible first
    | exact Keeps.refl _ _ | assumption | refine Keeps.ite ?_ ?_ | refine countBytes_keeps ?_ | refine mendBlock_keeps ?_ | refine forS_keeps ?_ ?_
    | dsimp only | intro _ | split

theorem writeMem_keeps {U : Nat} {s₀ : State} {s : State} {part addr n v : Nat} (hk : Keeps U s₀ s) (hT : 0x38300000688002000000000000077f01003fc000000000000000000000000000000000000000000000000000000000000000000000000000000000000000000000000000000000000000000000000004207 ||| U = U := by decide) : Keeps U s₀ (writeMem s part addr n v) := by
  refine Keeps.step ?_ hT hk
  clear hk hT; unfold writeMem
  repeat' with_reducible first
    | exact Keeps.refl _ _ | assumption | refine beforeWrite_keeps ?_ | refine putLE_keeps ?_

theorem writeBytes_keeps {U : Nat} {s₀ : State} {cls part addr : Nat} {l : List Nat} {s : State} (hk : Keeps U s₀ s) (hT : 0x38300000688002000000000000077f01003fc000000000000000000000000000000000000000000000000000000000000000000000000000000000000000000000000000000000000000000000000004207 ||| U = U := by decide) : Keeps U s₀ (writeBytes cls part addr l s) := by
  refine Keeps.step ?_ hT hk
  clear hk hT; unfold writeBytes
  repeat' with_reducible first
    | exact Keeps.refl _ _ | assumption | refine beforeWrite_keeps ?_ | refine putBytes_keeps ?_

theorem abortEntry_keeps {U : Nat} {s₀ : State} {s : State} (hk : Keeps U s₀ s) (hT : 0x800200000000000000001000000000000000000000000000000000000000000000000000000000000000000000000000000000000000000000000000000000000000000000000000000004201 ||| U = U := by decide) : Keeps U s₀ (abortEntry s) := by
  refine Keeps.step ?_ hT hk
  clear hk hT; unfold abortEntry
  repeat' with_reducible first
    | exact Keeps.refl _ _ | assumption | refine Keeps.ite ?_ ?_ | refine raiseInt_keeps ?_ | refine incSat_keeps ?_ | dsimp only | intro _ | split
    | (constructor <;> first | exact fun _ => rfl | exact fun _ _ => rfl | exact rfl | exact List.prefix_refl _ | exact Nat.le_refl _ | exact fun w => w | exact fun _ _ w => w | exact fun h => absurd h (by decide) | exact fun _ => ⟨fun _ _ => ⟨fun w => w, fun w => w⟩⟩)
    | refine Keeps.setMemc ⟨rfl, rfl⟩ ?_

theorem ringSpace_keeps {U : Nat} {s₀ : State} {n r before : Nat} {s : State} (hk : Keeps U s₀ s) (hT : 0x800200000000000000000000000000000000000000000000000000000000000000000000000000000000000000000000000000000000000000000000000000000000000000000000000004001 ||| U = U := by decide) : Keeps U s₀ (ringSpace n r before s) := by
  refine Keeps.step ?_ hT hk
  clear hk hT; unfold ringSpace
  repeat' with_reducible first
    | exact Keeps.refl _ _ | assumption
    | refine raiseInt_keeps ?_ | refine Keeps.ite ?_ ?_ | dsimp only | intro _ | split

theorem ringAdvance_keeps {U : Nat} {s₀ : State} {n r bytes : Nat} {s : State} (hk : Keeps U s₀ s) (hT : 0x800200800000000000000000000000000000000000000000000000000000000000000000000000000000000000000000000000000000000000000000000000000000000000000000000004001 ||| U = U := by decide) : Keeps U s₀ (ringAdvance n r bytes s) := by
  refine Keeps.step ?_ hT hk
  clear hk hT; unfold ringAdvance
  repeat' with_reducible first
    | exact Keeps.refl _ _ | assumption
    | refine ringSpace_keeps ?_ | refine Keeps.ite ?_ ?_ | refine raiseInt_keeps ?_ | refine addWrap_keeps ?_ | dsimp only | split
    | intro _

theorem ringUnderrun_keeps {U : Nat} {s₀ : State} {n r : Nat} {s : State} (hk : Keeps U s₀ s) (hT : 0x800281000000000000000000000000000000000000000000000000000000000000000000000000000000000000000000000000000000000000000000000000000000000000000000000004001 ||| U = U := by decide) : Keeps U s₀ (ringUnderrun n r s) := by
  refine Keeps.step ?_ hT hk
  clear hk hT; unfold ringUnderrun
  repeat' with_reducible first
    | exact Keeps.refl _ _ | assumption | refine raiseInt_keeps ?_ | refine incSat_keeps ?_ | refine wrb_keeps ?_

end Sys2Proof.Machine
end

