-- ==== Sys2Proof/Laws/PatOps.lean ====
section
/-! SUPPORT. What the operations and commands of Machine/PatOps.lean keep, and the components of the state they may write (Laws/Keeps.lean). -/

set_option exponentiation.threshold 2000

set_option Elab.async false

namespace Sys2Proof.Machine

open Sys2Proof

theorem setSite_keeps {U : Nat} {s₀ : State} {s : State} {i : Nat} {x : Site} (hk : Keeps U s₀ s) (hT : 32 ||| U = U := by decide) : Keeps U s₀ (setSite s i x) := by
  refine Keeps.step ?_ hT hk
  clear hk hT; unfold setSite
  repeat' with_reducible first
    | exact Keeps.refl _ _ | assumption
    | (constructor <;> first | exact fun _ => rfl | exact fun _ _ => rfl | exact rfl | exact List.prefix_refl _ | exact Nat.le_refl _ | exact fun w => w | exact fun _ _ w => w | exact fun h => absurd h (by decide) | exact fun _ => ⟨fun _ _ => ⟨fun w => w, fun w => w⟩⟩)
    | refine Keeps.setPat ?_

theorem setRoute_keeps {U : Nat} {s₀ : State} {s : State} {r : Nat} {x : Route} (hk : Keeps U s₀ s) (hT : 32 ||| U = U := by decide) : Keeps U s₀ (setRoute s r x) := by
  refine Keeps.step ?_ hT hk
  clear hk hT; unfold setRoute
  repeat' with_reducible first
    | exact Keeps.refl _ _ | assumption
    | (constructor <;> first | exact fun _ => rfl | exact fun _ _ => rfl | exact rfl | exact List.prefix_refl _ | exact Nat.le_refl _ | exact fun w => w | exact fun _ _ w => w | exact fun h => absurd h (by decide) | exact fun _ => ⟨fun _ _ => ⟨fun w => w, fun w => w⟩⟩)
    | refine Keeps.setPat ?_

theorem setFur_keeps {U : Nat} {s₀ : State} {s : State} {q : Nat} {x : Fur} (hk : Keeps U s₀ s) (hT : 32 ||| U = U := by decide) : Keeps U s₀ (setFur s q x) := by
  refine Keeps.step ?_ hT hk
  clear hk hT; unfold setFur
  repeat' with_reducible first
    | exact Keeps.refl _ _ | assumption
    | (constructor <;> first | exact fun _ => rfl | exact fun _ _ => rfl | exact rfl | exact List.prefix_refl _ | exact Nat.le_refl _ | exact fun w => w | exact fun _ _ w => w | exact fun h => absurd h (by decide) | exact fun _ => ⟨fun _ _ => ⟨fun w => w, fun w => w⟩⟩)
    | refine Keeps.setPat ?_

theorem setEng_keeps {U : Nat} {s₀ : State} {s : State} {e : Nat} {x : Eng} (hk : Keeps U s₀ s) (hT : 32 ||| U = U := by decide) : Keeps U s₀ (setEng s e x) := by
  refine Keeps.step ?_ hT hk
  clear hk hT; unfold setEng
  repeat' with_reducible first
    | exact Keeps.refl _ _ | assumption
    | (constructor <;> first | exact fun _ => rfl | exact fun _ _ => rfl | exact rfl | exact List.prefix_refl _ | exact Nat.le_refl _ | exact fun w => w | exact fun _ _ w => w | exact fun h => absurd h (by decide) | exact fun _ => ⟨fun _ _ => ⟨fun w => w, fun w => w⟩⟩)
    | refine Keeps.setPat ?_

theorem setPin_keeps {U : Nat} {s₀ : State} {s : State} {p : Nat} {x : Pin} (hk : Keeps U s₀ s) (hT : 64 ||| U = U := by decide) : Keeps U s₀ (setPin s p x) := by
  refine Keeps.step ?_ hT hk
  clear hk hT; unfold setPin
  repeat' with_reducible first
    | exact Keeps.refl _ _ | assumption
    | (constructor <;> first | exact fun _ => rfl | exact fun _ _ => rfl | exact rfl | exact List.prefix_refl _ | exact Nat.le_refl _ | exact fun w => w | exact fun _ _ w => w | exact fun h => absurd h (by decide) | exact fun _ => ⟨fun _ _ => ⟨fun w => w, fun w => w⟩⟩)
    | refine Keeps.setPin ?_

theorem setPec_keeps {U : Nat} {s₀ : State} {s : State} {n : Nat} {x : Pec} (hk : Keeps U s₀ s) (hT : 64 ||| U = U := by decide) : Keeps U s₀ (setPec s n x) := by
  refine Keeps.step ?_ hT hk
  clear hk hT; unfold setPec
  repeat' with_reducible first
    | exact Keeps.refl _ _ | assumption
    | (constructor <;> first | exact fun _ => rfl | exact fun _ _ => rfl | exact rfl | exact List.prefix_refl _ | exact Nat.le_refl _ | exact fun w => w | exact fun _ _ w => w | exact fun h => absurd h (by decide) | exact fun _ => ⟨fun _ _ => ⟨fun w => w, fun w => w⟩⟩)
    | refine Keeps.setPin ?_

theorem setLedger_keeps {U : Nat} {s₀ : State} {s : State} {n : Nat} {x : Ledger} (hk : Keeps U s₀ s) (hT : 64 ||| U = U := by decide) : Keeps U s₀ (setLedger s n x) := by
  refine Keeps.step ?_ hT hk
  clear hk hT; unfold setLedger
  repeat' with_reducible first
    | exact Keeps.refl _ _ | assumption
    | (constructor <;> first | exact fun _ => rfl | exact fun _ _ => rfl | exact rfl | exact List.prefix_refl _ | exact Nat.le_refl _ | exact fun w => w | exact fun _ _ w => w | exact fun h => absurd h (by decide) | exact fun _ => ⟨fun _ _ => ⟨fun w => w, fun w => w⟩⟩)
    | refine Keeps.setPin ?_

theorem setConv_keeps {U : Nat} {s₀ : State} {s : State} {p : Nat} {x : Conv} (hk : Keeps U s₀ s) (hT : 64 ||| U = U := by decide) : Keeps U s₀ (setConv s p x) := by
  refine Keeps.step ?_ hT hk
  clear hk hT; unfold setConv
  repeat' with_reducible first
    | exact Keeps.refl _ _ | assumption
    | (constructor <;> first | exact fun _ => rfl | exact fun _ _ => rfl | exact rfl | exact List.prefix_refl _ | exact Nat.le_refl _ | exact fun w => w | exact fun _ _ w => w | exact fun h => absurd h (by decide) | exact fun _ => ⟨fun _ _ => ⟨fun w => w, fun w => w⟩⟩)
    | refine Keeps.setPin ?_

theorem setSring_keeps {U : Nat} {s₀ : State} {s : State} {b : Nat} {x : SRing} (hk : Keeps U s₀ s) (hT : 64 ||| U = U := by decide) : Keeps U s₀ (setSring s b x) := by
  refine Keeps.step ?_ hT hk
  clear hk hT; unfold setSring
  repeat' with_reducible first
    | exact Keeps.refl _ _ | assumption
    | (constructor <;> first | exact fun _ => rfl | exact fun _ _ => rfl | exact rfl | exact List.prefix_refl _ | exact Nat.le_refl _ | exact fun w => w | exact fun _ _ w => w | exact fun h => absurd h (by decide) | exact fun _ => ⟨fun _ _ => ⟨fun w => w, fun w => w⟩⟩)
    | refine Keeps.setPin ?_

theorem setAu_keeps {U : Nat} {s₀ : State} {s : State} {u : Nat} {x : Au} (hk : Keeps U s₀ s) (hT : 128 ||| U = U := by decide) : Keeps U s₀ (setAu s u x) := by
  refine Keeps.step ?_ hT hk
  clear hk hT; unfold setAu
  repeat' with_reducible first
    | exact Keeps.refl _ _ | assumption
    | (constructor <;> first | exact fun _ => rfl | exact fun _ _ => rfl | exact rfl | exact List.prefix_refl _ | exact Nat.le_refl _ | exact fun w => w | exact fun _ _ w => w | exact fun h => absurd h (by decide) | exact fun _ => ⟨fun _ _ => ⟨fun w => w, fun w => w⟩⟩)
    | refine Keeps.setAu ?_

theorem setSiteState_keeps {U : Nat} {s₀ : State} {s : State} {i v : Nat} (hk : Keeps U s₀ s) (hT : 0x10000000000000000000000000000001 ||| U = U := by decide) : Keeps U s₀ (setSiteState s i v) := by
  refine Keeps.step ?_ hT hk
  clear hk hT; unfold setSiteState
  repeat' with_reducible first
    | exact Keeps.refl _ _ | assumption | refine wr_keeps ?_

theorem calAbortDue_keeps {U : Nat} {s₀ : State} {b : Nat} {s : State} (hk : Keeps U s₀ s) (hT : 256 ||| U = U := by decide) : Keeps U s₀ (calAbortDue b s) := by
  refine Keeps.step ?_ hT hk
  clear hk hT; unfold calAbortDue
  repeat' with_reducible first
    | exact Keeps.refl _ _ | assumption | refine Keeps.ite ?_ ?_ | intro _ | split
    | (constructor <;> first | exact fun _ => rfl | exact fun _ _ => rfl | exact rfl | exact List.prefix_refl _ | exact Nat.le_refl _ | exact fun w => w | exact fun _ _ w => w | exact fun h => absurd h (by decide) | exact fun _ => ⟨fun _ _ => ⟨fun w => w, fun w => w⟩⟩)
    | refine Keeps.setCal ?_

theorem pinsSafe_keeps {U : Nat} {s₀ : State} {l : List Nat} {s : State} (hk : Keeps U s₀ s) (hT : 64 ||| U = U := by decide) : Keeps U s₀ (pinsSafe l s) := by
  refine Keeps.step ?_ hT hk
  clear hk hT; unfold pinsSafe
  repeat' with_reducible first
    | exact Keeps.refl _ _ | assumption | refine setPin_keeps ?_ | refine forS_keeps ?_ ?_ | intro _

theorem siteInt_keeps {U : Nat} {s₀ : State} {i bit : Nat} {s : State} (hk : Keeps U s₀ s) (hT : 0x800200000000000000000000000000000000000000000000000000000000100000000000000000000000000000000000000000000000000000000000000000000000000000000000000004001 ||| U = U := by decide) : Keeps U s₀ (siteInt i bit s) := by
  refine Keeps.step ?_ hT hk
  clear hk hT; unfold siteInt
  repeat' with_reducible first
    | exact Keeps.refl _ _ | assumption | refine raiseInt_keeps ?_ | refine orBits_keeps ?_

theorem enterState_keeps {U : Nat} {s₀ : State} {i st causes : Nat} {s : State} (hk : Keeps U s₀ s) (hT : 0x800200000000000000000000000000000000000000000000000000000000100000000000000000000000000000000000000000000000000000000000150000000000000000000000000004001 ||| U = U := by decide) : Keeps U s₀ (enterState i st causes s) := by
  refine Keeps.step ?_ hT hk
  clear hk hT; unfold enterState
  repeat' with_reducible first
    | exact Keeps.refl _ _ | assumption | refine siteInt_keeps ?_ | refine setSiteState_keeps ?_ | refine orBits_keeps ?_ | refine wr_keeps ?_
    | dsimp only

theorem openStop_keeps {U : Nat} {s₀ : State} {i st : Nat} {s : State} (hk : Keeps U s₀ s) (hT : 32 ||| U = U := by decide) : Keeps U s₀ (openStop i st s) := by
  refine Keeps.step ?_ hT hk
  clear hk hT; unfold openStop
  repeat' with_reducible first
    | exact Keeps.refl _ _ | assumption | refine Keeps.ite ?_ ?_ | refine setSite_keeps ?_ | dsimp only | intro _ | split

theorem makePending_keeps {U : Nat} {s₀ : State} {i alt code : Nat} {s : State} (hk : Keeps U s₀ s) (hT : 32 ||| U = U := by decide) : Keeps U s₀ (makePending i alt code s) := by
  refine Keeps.step ?_ hT hk
  clear hk hT; unfold makePending
  repeat' with_reducible first
    | exact Keeps.refl _ _ | assumption | refine Keeps.ite ?_ ?_ | refine setSite_keeps ?_ | dsimp only | split

theorem jumpEvent_keeps {U : Nat} {s₀ : State} {code i : Nat} {s : State} (hk : Keeps U s₀ s) (hT : 32 ||| U = U := by decide) : Keeps U s₀ (jumpEvent code i s) := by
  refine Keeps.step ?_ hT hk
  clear hk hT; unfold jumpEvent
  repeat' with_reducible first
    | exact Keeps.refl _ _ | assumption | refine makePending_keeps ?_

end Sys2Proof.Machine
end

