-- ==== Sys2Proof/Laws/Acquire.lean ====
section
/-! SUPPORT. What the operations and commands of Machine/Acquire.lean keep, and the components of the state they may write (Laws/Keeps.lean). -/

set_option exponentiation.threshold 2000

set_option Elab.async false

namespace Sys2Proof.Machine

open Sys2Proof

theorem maskEdge_keeps {U : Nat} {s₀ : State} {p i t : Nat} {rising : Bool} {s : State} (hk : Keeps U s₀ s) (hT : 64 ||| U = U := by decide) : Keeps U s₀ (maskEdge p i t rising s) := by
  refine Keeps.step ?_ hT hk
  clear hk hT; unfold maskEdge
  repeat' with_reducible first
    | exact Keeps.refl _ _ | assumption | refine Keeps.ite ?_ ?_ | refine setConv_keeps ?_ | dsimp only | intro _ | split

theorem trigOutEnd_keeps {U : Nat} {s₀ : State} {t : Nat} {s : State} (hk : Keeps U s₀ s) (hT : 16448 ||| U = U := by decide) : Keeps U s₀ (trigOutEnd t s) := by
  refine Keeps.step ?_ hT hk
  clear hk hT; unfold trigOutEnd
  repeat' with_reducible first
    | exact Keeps.refl _ _ | assumption | refine Keeps.ite ?_ ?_ | refine emit_keeps ?_ | dsimp only | intro _
    | (constructor <;> first | exact fun _ => rfl | exact fun _ _ => rfl | exact rfl | exact List.prefix_refl _ | exact Nat.le_refl _ | exact fun w => w | exact fun _ _ w => w | exact fun h => absurd h (by decide) | exact fun _ => ⟨fun _ _ => ⟨fun w => w, fun w => w⟩⟩)
    | refine Keeps.setPin ?_ | split

theorem trigOutFire_keeps {U : Nat} {s₀ : State} {t : Nat} {time : Option Nat} {s : State} (hk : Keeps U s₀ s) (hT : 0x20000000000000000000000000000000000000000000000000000000000000000000000000000000000000000000004041 ||| U = U := by decide) : Keeps U s₀ (trigOutFire t time s) := by
  refine Keeps.step ?_ hT hk
  clear hk hT; unfold trigOutFire
  repeat' with_reducible first
    | exact Keeps.refl _ _ | assumption | refine Keeps.ite ?_ ?_ | refine emit_keeps ?_ | refine incSat_keeps ?_ | dsimp only | intro _
    | (constructor <;> first | exact fun _ => rfl | exact fun _ _ => rfl | exact rfl | exact List.prefix_refl _ | exact Nat.le_refl _ | exact fun w => w | exact fun _ _ w => w | exact fun h => absurd h (by decide) | exact fun _ => ⟨fun _ _ => ⟨fun w => w, fun w => w⟩⟩)
    | refine Keeps.setPin ?_ | split

theorem trigOutSegment_keeps {U : Nat} {s₀ : State} {i start : Nat} {s : State} (hk : Keeps U s₀ s) (hT : 0x20000000000000000000000000000000000000000000000000000000000000000000000000000000000000000000004041 ||| U = U := by decide) : Keeps U s₀ (trigOutSegment i start s) := by
  refine Keeps.step ?_ hT hk
  clear hk hT; unfold trigOutSegment
  repeat' with_reducible first
    | exact Keeps.refl _ _ | assumption | refine Keeps.ite ?_ ?_ | refine trigOutFire_keeps ?_ | refine forS_keeps ?_ ?_ | dsimp only | intro _
    | split

theorem trigOutTrigger_keeps {U : Nat} {s₀ : State} {b : Nat} {s : State} (hk : Keeps U s₀ s) (hT : 0x20000000000000000000000000000000000000000000000000000000000000000000000000000000000000000000004041 ||| U = U := by decide) : Keeps U s₀ (trigOutTrigger b s) := by
  refine Keeps.step ?_ hT hk
  clear hk hT; unfold trigOutTrigger
  repeat' with_reducible first
    | exact Keeps.refl _ _ | assumption | refine Keeps.ite ?_ ?_ | refine trigOutFire_keeps ?_ | refine forS_keeps ?_ ?_ | intro _ | dsimp only
    | split

theorem setAcq_keeps {U : Nat} {s₀ : State} {s : State} {b : Nat} {x : AcqChan} (hk : Keeps U s₀ s) (hT : 0x600000000000000000000000000000000000000000000000000000000000000000000000000000041 ||| U = U := by decide) : Keeps U s₀ (setAcq s b x) := by
  refine Keeps.step ?_ hT hk
  clear hk hT; unfold setAcq
  repeat' with_reducible first
    | exact Keeps.refl _ _ | assumption | refine setBank_keeps ?_ | refine wrs_keeps ?_ | dsimp only

theorem drainLogs_keeps {U : Nat} {s₀ : State} {b : Nat} {s : State} (hk : Keeps U s₀ s) (hT : 0x38300000688002000000000000077f01003fc000000000000000000000000000000000000000000000600000000000000000000000000000000000000000000000000000000000000000000000000004247 ||| U = U := by decide) : Keeps U s₀ (drainLogs b s) := by
  refine Keeps.step ?_ hT hk
  clear hk hT; unfold drainLogs
  repeat' with_reducible first
    | exact Keeps.refl _ _ | assumption | refine Keeps.ite ?_ ?_ | refine forS_keeps ?_ ?_ | refine writeMem_keeps ?_ | refine setAcq_keeps ?_ | dsimp only | intro _ | split

theorem setAcqState_keeps {U : Nat} {s₀ : State} {s : State} {b v : Nat} (hk : Keeps U s₀ s) (hT : 0x100000000000000000000000000000000000000000000000000000000000000000000000000000001 ||| U = U := by decide) : Keeps U s₀ (setAcqState s b v) := by
  refine Keeps.step ?_ hT hk
  clear hk hT; unfold setAcqState
  repeat' with_reducible first
    | exact Keeps.refl _ _ | assumption | refine wr_keeps ?_

theorem enterArmed_keeps {U : Nat} {s₀ : State} {b : Nat} {s : State} (hk : Keeps U s₀ s) (hT : 0x700000000000000000000000000000000000000000000000000000000000000000000000000000041 ||| U = U := by decide) : Keeps U s₀ (enterArmed b s) := by
  refine Keeps.step ?_ hT hk
  clear hk hT; unfold enterArmed
  repeat' with_reducible first
    | exact Keeps.refl _ _ | assumption | refine Keeps.ite ?_ ?_ | refine setAcqState_keeps ?_ | refine setAcq_keeps ?_ | dsimp only | intro _
    | split

theorem endRecord_keeps {U : Nat} {s₀ : State} {b : Nat} {s : State} (hk : Keeps U s₀ s) (hT : 0x100000000000000000000000000000000000000000000000000000000000000000000000000000001 ||| U = U := by decide) : Keeps U s₀ (endRecord b s) := by
  refine Keeps.step ?_ hT hk
  clear hk hT; unfold endRecord
  repeat' with_reducible first
    | exact Keeps.refl _ _ | assumption | refine setAcqState_keeps ?_

theorem backlogCheck_keeps {U : Nat} {s₀ : State} {b : Nat} {s : State} (hk : Keeps U s₀ s) (hT : 0x3830000068800200000000000000000000000000000000000000000000000000000000000000000000700000000000000000000000000000000000000000000000000000000000000000000000000004045 ||| U = U := by decide) : Keeps U s₀ (backlogCheck b s) := by
  refine Keeps.step ?_ hT hk
  clear hk hT; unfold backlogCheck
  repeat' with_reducible first
    | exact Keeps.refl _ _ | assumption | refine Keeps.ite ?_ ?_ | refine setAcq_keeps ?_ | refine endRecord_keeps ?_ | refine fltEvent_keeps ?_
    | refine raiseInt_keeps ?_ | dsimp only | intro _ | split

theorem placeRecord_keeps {U : Nat} {s₀ : State} {b : Nat} {t : Nat × Nat} {present past : List (Nat × Nat)} {cycle : Option Nat} {s : State} (hk : Keeps U s₀ s) (hT : 0x3830000068800200000000000000000000000000000000000000000000000000000000000000000001700000000000000000000000000000000000000000000000000000000000000000000000000004045 ||| U = U := by decide) : Keeps U s₀ (placeRecord b t present past cycle s) := by
  refine Keeps.step ?_ hT hk
  clear hk hT; unfold placeRecord
  repeat' with_reducible first
    | exact Keeps.refl _ _ | assumption
    | refine setAcqState_keeps ?_ | refine wr_keeps ?_ | refine setAcq_keeps ?_ | refine endRecord_keeps ?_ | refine backlogCheck_keeps ?_
    | refine Keeps.ite ?_ ?_ | dsimp only | intro _ | split
    | (constructor <;> first | exact fun _ => rfl | exact fun _ _ => rfl | exact rfl | exact List.prefix_refl _ | exact Nat.le_refl _ | exact fun w => w | exact fun _ _ w => w | exact fun h => absurd h (by decide) | exact fun _ => ⟨fun _ _ => ⟨fun w => w, fun w => w⟩⟩)

theorem startRecord_keeps {U : Nat} {s₀ : State} {b : Nat} {t : Nat × Nat} {present : List (Nat × Nat)} {cycle : Option Nat} {s : State} (hk : Keeps U s₀ s) (hT : 0x3830000068800200000000000000000000000000000000000000000000000000020000000000000001700000000000000000000000000000000000000000000000000000000000000000000000000004065 ||| U = U := by decide) : Keeps U s₀ (startRecord b t present cycle s) := by
  refine Keeps.step ?_ hT hk
  clear hk hT; unfold startRecord
  repeat' with_reducible first
    | exact Keeps.refl _ _ | assumption
    | refine placeRecord_keeps ?_ | refine Keeps.ite ?_ ?_ | refine trigOutTrigger_keeps ?_ | refine jumpEvent_keeps ?_
    | refine backlogCheck_keeps ?_ | refine setAcq_keeps ?_ | refine endRecord_keeps ?_ | refine setAcqState_keeps ?_ | refine raiseInt_keeps ?_
    | refine wr_keeps ?_ | dsimp only | intro _ | split

theorem acqCycle_keeps {U : Nat} {s₀ : State} {cycle : Option Nat} {l : List (Nat × Nat × Nat)} {c : State} (hk : Keeps U s₀ c) (hT : 0x3830000068800200000000000000000000000000000000000000000000000000020000000000000401700000000000000000000000000000000000000000000000000000000000000000000000000004065 ||| U = U := by decide) : Keeps U s₀ (acqCycle cycle l c) := by
  refine Keeps.step ?_ hT hk
  clear hk hT; unfold acqCycle
  repeat' with_reducible first
    | exact Keeps.refl _ _ | assumption
    | refine placeRecord_keeps ?_ | refine Keeps.ite ?_ ?_ | refine startRecord_keeps ?_ | refine setAcq_keeps ?_ | refine forS_keeps ?_ ?_
    | refine addSat_keeps ?_ | dsimp only | intro _ | split

theorem acqTrigger_keeps {U : Nat} {s₀ : State} {i b src tvn : Nat} {s : State} (hk : Keeps U s₀ s) (hT : 0x3830000068800200000000000000000000000000000000000000000000000000020000000000000401700000000000000000000000000000000000000000000000000000000000000000000000000004065 ||| U = U := by decide) : Keeps U s₀ (acqTrigger i b src tvn s) := by
  refine Keeps.step ?_ hT hk
  clear hk hT; unfold acqTrigger
  repeat' with_reducible first
    | exact Keeps.refl _ _ | assumption | refine acqCycle_keeps ?_ | refine Keeps.ite ?_ ?_ | dsimp only | intro _
    | split

theorem acqFail_keeps {U : Nat} {s₀ : State} {i b tvn cycle : Nat} {s : State} (hk : Keeps U s₀ s) (hT : 0x3830000068800200000000000000000000000000000000000000000000000000020000000000000401700000000000000000000000000000000000000000000000000000000000000000000000000004065 ||| U = U := by decide) : Keeps U s₀ (acqFail i b tvn cycle s) := by
  refine Keeps.step ?_ hT hk
  clear hk hT; unfold acqFail
  repeat' with_reducible first
    | exact Keeps.refl _ _ | assumption
    | refine acqCycle_keeps ?_ | refine Keeps.ite ?_ ?_ | refine acqTrigger_keeps ?_ | refine setAcq_keeps ?_ | dsimp only | intro _ | split

theorem acqStore_keeps {U : Nat} {s₀ : State} {b vn word : Nat} {s : State} (hk : Keeps U s₀ s) (hT : 0x3830000068800200000000000000000000000000000000000000000000000000000000000000001000700000000000000000000000000000000000000000000000000000000000000000000000000004045 ||| U = U := by decide) : Keeps U s₀ (acqStore b vn word s) := by
  refine Keeps.step ?_ hT hk
  clear hk hT; unfold acqStore
  repeat' with_reducible first
    | exact Keeps.refl _ _ | assumption | refine backlogCheck_keeps ?_ | refine Keeps.ite ?_ ?_ | refine endRecord_keeps ?_ | refine setAcq_keeps ?_
    | refine fltEvent_keeps ?_ | refine raiseInt_keeps ?_ | refine incSat_keeps ?_ | dsimp only | intro _ | split

theorem acqLevel_keeps {U : Nat} {s₀ : State} {b slot vn level : Nat} {s : State} (hk : Keeps U s₀ s) (hT : 0x600000000000000000000000000000000000000000000000000000000000000000000000000000041 ||| U = U := by decide) : Keeps U s₀ (acqLevel b slot vn level s) := by
  refine Keeps.step ?_ hT hk
  clear hk hT; unfold acqLevel
  repeat' with_reducible first
    | exact Keeps.refl _ _ | assumption | refine Keeps.ite ?_ ?_ | refine setAcq_keeps ?_ | dsimp only | intro _ | split

theorem acqSiteStop_keeps {U : Nat} {s₀ : State} {i : Nat} {s : State} (hk : Keeps U s₀ s) (hT : 0x700000000000000000000000000000000000000000000000000000000000000000000000000000041 ||| U = U := by decide) : Keeps U s₀ (acqSiteStop i s) := by
  refine Keeps.step ?_ hT hk
  clear hk hT; unfold acqSiteStop
  repeat' with_reducible first
    | exact Keeps.refl _ _ | assumption | refine Keeps.ite ?_ ?_ | refine endRecord_keeps ?_ | refine setAcqState_keeps ?_ | refine setAcq_keeps ?_
    | refine forS_keeps ?_ ?_ | intro _ | dsimp only | split

theorem acqEpoch_keeps {U : Nat} {s₀ : State} {i : Nat} {s : State} (hk : Keeps U s₀ s) (hT : 0x21e600000000000000000000000000000000000000000000000000000000000000000000000000000041 ||| U = U := by decide) : Keeps U s₀ (acqEpoch i s) := by
  refine Keeps.step ?_ hT hk
  clear hk hT; unfold acqEpoch
  repeat' with_reducible first
    | exact Keeps.refl _ _ | assumption | refine setConv_keeps ?_ | refine setAcq_keeps ?_ | refine Keeps.ite ?_ ?_ | refine wrs_keeps ?_
    | refine wr_keeps ?_ | refine forS_keeps ?_ ?_ | dsimp only | intro _ | split

theorem acqCtrlStore_keeps {U : Nat} {s₀ : State} {b word : Nat} {s : State} (hk : Keeps U s₀ s) (hT : 0x3f000000000000000000000000000000000000000000000000000000000000000000000000001 ||| U = U := by decide) : Keeps U s₀ (acqCtrlStore b word s) := by
  refine Keeps.step ?_ hT hk
  clear hk hT; unfold acqCtrlStore
  repeat' with_reducible first
    | exact Keeps.refl _ _ | assumption | refine wrs_keeps ?_

theorem armChannel_keeps {U : Nat} {s₀ : State} {b word : Nat} {s : State} (hk : Keeps U s₀ s) (hT : 0x3830000068800200000000000000000000000000000000000000000000000000000000000000000000fc003f000000000000000000000000000000000000000000000000000000000000000000000004045 ||| U = U := by decide) : Keeps U s₀ (armChannel b word s) := by
  refine Keeps.step ?_ hT hk
  clear hk hT; unfold armChannel
  repeat' with_reducible first
    | exact Keeps.refl _ _ | assumption | refine Keeps.ite ?_ ?_ | refine acqCtrlStore_keeps ?_ | refine enterArmed_keeps ?_ | refine setAcq_keeps ?_
    | refine fltEvent_keeps ?_ | refine wrs_keeps ?_ | refine wr_keeps ?_ | dsimp only | split

theorem disarmChannel_keeps {U : Nat} {s₀ : State} {b : Nat} {s : State} (hk : Keeps U s₀ s) (hT : 0x700000000000000000000000000000000000000000000000000000000000000000000000000000041 ||| U = U := by decide) : Keeps U s₀ (disarmChannel b s) := by
  refine Keeps.step ?_ hT hk
  clear hk hT; unfold disarmChannel
  repeat' with_reducible first
    | exact Keeps.refl _ _ | assumption | refine setAcqState_keeps ?_ | refine setAcq_keeps ?_

theorem drainWords_keeps {U : Nat} {s₀ s : State} {b n : Nat} (hk : Keeps U s₀ s) (hT : 0x38300000688002000000000000077f01003fc000000000000000000000000000000000000000000000600000000000000000000000000000000000000000000000000000000000000000000000000004247 ||| U = U := by decide) : Keeps U s₀ (drainWords b n s) := by
  induction n generalizing U s₀ s with
  | zero => exact hk
  | succ n ih =>
    simp only [drainWords]
    repeat' with_reducible first
      | exact Keeps.refl _ _ | assumption | refine ih ?_ hT | refine Keeps.ite ?_ ?_ | refine setAcq_keeps ?_ (sub_trans (by decide) hT)
      | refine writeMem_keeps ?_ (sub_trans (by decide) hT) | dsimp only | split

theorem writerDrain_keeps {U : Nat} {s₀ : State} {b n : Nat} {s : State} (hk : Keeps U s₀ s) (hT : 0x38300000688002000000000000077f01003fc000000000000000000000000000000000000000000000700000000000000000000000000000000000000000000000000000000000000000000000000004247 ||| U = U := by decide) : Keeps U s₀ (writerDrain b n s) := by
  refine Keeps.step ?_ hT hk
  clear hk hT; unfold writerDrain
  repeat' with_reducible first
    | exact Keeps.refl _ _ | assumption | refine Keeps.ite ?_ ?_ | refine drainWords_keeps ?_ | refine drainLogs_keeps ?_
    | refine backlogCheck_keeps ?_ | dsimp only | intro _
    | (constructor <;> first | exact fun _ => rfl | exact fun _ _ => rfl | exact rfl | exact List.prefix_refl _ | exact Nat.le_refl _ | exact fun w => w | exact fun _ _ w => w | exact fun h => absurd h (by decide) | exact fun _ => ⟨fun _ _ => ⟨fun w => w, fun w => w⟩⟩)
    | refine Keeps.setPin ?_ | split

theorem acqRcntEffect_keeps {U : Nat} {s₀ : State} {b v : Nat} {s : State} (hk : Keeps U s₀ s) (hT : 0x3830000068800200000000000000000000000000000000000000000000000000000000000000000000780000000000000000000000000000000000000000000000000000000000000000000000000004045 ||| U = U := by decide) : Keeps U s₀ (acqRcntEffect b v s) := by
  refine Keeps.step ?_ hT hk
  clear hk hT; unfold acqRcntEffect
  repeat' with_reducible first
    | exact Keeps.refl _ _ | assumption | refine Keeps.ite ?_ ?_ | refine enterArmed_keeps ?_ | refine fltEvent_keeps ?_ | refine wr_keeps ?_
    | dsimp only | split

theorem maskEffect_keeps {U : Nat} {s₀ : State} {b j word idx : Nat} {s : State} (hk : Keeps U s₀ s) (hT : 0x38300000688002000000000000000000000000000000000000000000000000000000000000000001e0000000000000000000000000000000000000000000000000000000000000000000000000000004005 ||| U = U := by decide) : Keeps U s₀ (maskEffect b j word idx s) := by
  refine Keeps.step ?_ hT hk
  clear hk hT; unfold maskEffect
  repeat' with_reducible first
    | exact Keeps.refl _ _ | assumption | refine Keeps.ite ?_ ?_ | refine fltEvent_keeps ?_ | refine wrs_keeps ?_ | dsimp only | split

theorem maskViolation_keeps {U : Nat} {s₀ : State} {b j vn : Nat} {s : State} (hk : Keeps U s₀ s) (hT : 0x383000006880020000000000000000000000000000000000000000000000000002000000000000061f700000000000000000000000000000000000000000000000000000000000000000000000000004065 ||| U = U := by decide) : Keeps U s₀ (maskViolation b j vn s) := by
  refine Keeps.step ?_ hT hk
  clear hk hT; unfold maskViolation
  repeat' with_reducible first
    | exact Keeps.refl _ _ | assumption | refine setConv_keeps ?_ | refine Keeps.ite ?_ ?_ | refine acqTrigger_keeps ?_ | refine jumpEvent_keeps ?_
    | refine openStop_keeps ?_ | refine raiseInt_keeps ?_ | refine incSat_keeps ?_ | refine wrb_keeps ?_ | refine wrs_keeps ?_ | dsimp only | intro _
    | split

theorem toOwnerEffect_keeps {U : Nat} {s₀ : State} {word : Nat} {s : State} (hk : Keeps U s₀ s) (hT : 0x200000000000000000000000000000000000000000000000000000c00000000000000000000000000000000000000000000000000000000000000000000000000000000000000000004001 ||| U = U := by decide) : Keeps U s₀ (toOwnerEffect word s) := by
  refine Keeps.step ?_ hT hk
  clear hk hT; unfold toOwnerEffect
  repeat' with_reducible first
    | exact Keeps.refl _ _ | assumption
    | refine reraise_keeps ?_ | refine Keeps.ite ?_ ?_ | refine wr_keeps ?_ | refine forS_keeps ?_ ?_ | dsimp only | intro _ | split

theorem acqTrigin_keeps {U : Nat} {s₀ : State} {n : Nat} {s : State} (hk : Keeps U s₀ s) (hT : 0x3830000068800200000000000000000000000000000000000000000000000000020000000000000401700000000000000000000000000000000000000000000000000000000000000000000000000004065 ||| U = U := by decide) : Keeps U s₀ (acqTrigin n s) := by
  refine Keeps.step ?_ hT hk
  clear hk hT; unfold acqTrigin
  repeat' with_reducible first
    | exact Keeps.refl _ _ | assumption | refine Keeps.ite ?_ ?_ | refine acqCycle_keeps ?_ | refine acqTrigger_keeps ?_ | refine forS_keeps ?_ ?_
    | dsimp only | intro _ | split

theorem execAcqArm_keeps {m b word : Nat} {s : State} {t' : State} (hx : execAcqArm m b word s = .next t') :
    Keeps (busMask ||| parMask ||| 0x3830000078a00200000000140000000000000000000000000000000000000000000000000000000000fc003f000000000000040000000000000000000000000000000070000080000000000000000004055) s t' := by
  unfold execAcqArm at hx; obtain rfl := Host.Outcome.next.inj hx
  repeat' with_reducible first
    | exact Keeps.refl _ _ | assumption
    | refine takeIn_keeps ?_ ?_ | refine armChannel_keeps ?_ | refine asWriter_keeps ?_ ?_ | intro _
    | dsimp only

theorem execAcqDisarm_keeps {m b word : Nat} {s : State} {t' : State} (hx : execAcqDisarm m b word s = .next t') :
    Keeps (busMask ||| parMask ||| 0x3830000078a0020000000014000000000000000000000000000000000000000000000000000000000070003f000000000000040000000000000000000000000000000070000080000000000000000004055) s t' := by
  unfold execAcqDisarm at hx; obtain rfl := Host.Outcome.next.inj hx
  repeat' with_reducible first
    | exact Keeps.refl _ _ | assumption
    | refine takeIn_keeps ?_ ?_ | refine disarmChannel_keeps ?_ | refine acqCtrlStore_keeps ?_ | refine asWriter_keeps ?_ ?_ | intro _
    | dsimp only

theorem execAcqForce_keeps {m b word : Nat} {s : State} {t' : State} (hx : execAcqForce m b word s = .next t') :
    Keeps (busMask ||| parMask ||| 0x3830000078a0020000000014000000000000000000000000000000000000000002000000000000040170003f000000000000040000000000000000000000000000000070000080000000000000000004075) s t' := by
  unfold execAcqForce at hx; obtain rfl := Host.Outcome.next.inj hx
  repeat' with_reducible first
    | exact Keeps.refl _ _ | assumption
    | refine takeIn_keeps ?_ ?_ | refine acqCtrlStore_keeps ?_ | refine acqTrigger_keeps ?_ | refine asWriter_keeps ?_ ?_ | dsimp only
    | intro _

theorem execAcqAutoTrigger_keeps {b : Nat} {s : State} {t' : State} (hx : execAcqAutoTrigger b s = .next t') :
    Keeps 0x3830000068800200000000000000000000000000000000000000000000000000020000000000000401700000000000000000000000000000000000000000000000000000000000000000000000000004065 s t' := by
  unfold execAcqAutoTrigger at hx; obtain rfl := Host.Outcome.next.inj hx
  repeat' with_reducible first
    | exact Keeps.refl _ _ | assumption | refine Keeps.ite ?_ ?_ | refine acqTrigger_keeps ?_ | dsimp only | intro _ | split

theorem execAcqWriterDrain_keeps {b n : Nat} {s : State} {t' : State} (hx : execAcqWriterDrain b n s = .next t') :
    Keeps 0x38300000688002000000000000077f01003fc000000000000000000000000000000000000000000000700000000000000000000000000000000000000000000000000000000000000000000000000004247 s t' := by
  unfold execAcqWriterDrain at hx; obtain rfl := Host.Outcome.next.inj hx
  repeat' with_reducible first
    | exact Keeps.refl _ _ | assumption | refine writerDrain_keeps ?_ | refine Keeps.ite ?_ ?_ | refine drainWords_keeps ?_ | dsimp only | intro _
    | split

theorem execRecordDone_keeps {b : Nat} {s : State} {t' : State} (hx : execRecordDone b s = .next t') :
    Keeps 0x38300000688002000000000000077f01003fc000000000000000000000000000000000000000000800740000000000000000000000000000000000000000000000000000000000000000000000000004247 s t' := by
  unfold execRecordDone at hx; obtain rfl := Host.Outcome.next.inj hx
  repeat' with_reducible first
    | exact Keeps.refl _ _ | assumption | refine drainLogs_keeps ?_ | refine Keeps.ite ?_ ?_ | refine writeLogs_keeps ?_
    | refine setAcqState_keeps ?_ | refine setAcq_keeps ?_ | refine writeMem_keeps ?_ | refine raiseInt_keeps ?_ | refine incWrap_keeps ?_
    | refine addWrap_keeps ?_ | dsimp only | intro _ | split

theorem execAcqRearmEnd_keeps {b : Nat} {s : State} {t' : State} (hx : execAcqRearmEnd b s = .next t') :
    Keeps 0x700000000000000000000000000000000000000000000000000000000000000000000000000000041 s t' := by
  unfold execAcqRearmEnd at hx; obtain rfl := Host.Outcome.next.inj hx
  repeat' with_reducible first
    | exact Keeps.refl _ _ | assumption | refine Keeps.ite ?_ ?_ | refine enterArmed_keeps ?_ | split

theorem execAcqRcntWrite_keeps {m b v : Nat} {s : State} {t' : State} (hx : execAcqRcntWrite m b v s = .next t') :
    Keeps (busMask ||| parMask ||| 0x3830000078a00200000000140000000000000000000000000000000000000000000000000000000000780000000000000000040000000000000000000000000000000070000080000000000000000004055) s t' := by
  unfold execAcqRcntWrite at hx; obtain rfl := Host.Outcome.next.inj hx
  repeat' with_reducible first
    | exact Keeps.refl _ _ | assumption
    | refine takeIn_keeps ?_ ?_ | refine acqRcntEffect_keeps ?_ | refine asWriter_keeps ?_ ?_ | intro _
    | dsimp only

theorem execMaskWrite_keeps {m b j idx word : Nat} {s : State} {t' : State} (hx : execMaskWrite m b j idx word s = .next t') :
    Keeps (busMask ||| parMask ||| 0x3830000078a002000000001400000000000000000000000000000000000000000000000000000001e0000000000000000000040000000000000000000000000000000070000080000000000000000004055) s t' := by
  unfold execMaskWrite at hx; obtain rfl := Host.Outcome.next.inj hx
  repeat' with_reducible first
    | exact Keeps.refl _ _ | assumption
    | refine takeIn_keeps ?_ ?_ | refine maskEffect_keeps ?_ | refine asWriter_keeps ?_ ?_ | intro _
    | dsimp only

theorem execMaskViolation_keeps {b j vn : Nat} {s : State} {t' : State} (hx : execMaskViolation b j vn s = .next t') :
    Keeps 0x383000006880020000000000000000000000000000000000000000000000000002000000000000061f700000000000000000000000000000000000000000000000000000000000000000000000000004065 s t' := by
  unfold execMaskViolation at hx; obtain rfl := Host.Outcome.next.inj hx
  repeat' with_reducible first
    | exact Keeps.refl _ _ | assumption | refine maskViolation_keeps ?_

theorem execTrigoutOwnerWrite_keeps {m word : Nat} {s : State} {t' : State} (hx : execTrigoutOwnerWrite m word s = .next t') :
    Keeps (busMask ||| parMask ||| 0x3830000078a00200000000140000000000000000000000000000000000000000000c00000000000000000000000000000000040000000000000000000000000000000070000080000000000000000004055) s t' := by
  unfold execTrigoutOwnerWrite at hx; obtain rfl := Host.Outcome.next.inj hx
  repeat' with_reducible first
    | exact Keeps.refl _ _ | assumption
    | refine takeIn_keeps ?_ ?_ | refine toOwnerEffect_keeps ?_ | refine asWriter_keeps ?_ ?_ | intro _
    | dsimp only

theorem execTrigoutWidthEnd_keeps {t : Nat} {s : State} {t' : State} (hx : execTrigoutWidthEnd t s = .next t') :
    Keeps 16448 s t' := by
  unfold execTrigoutWidthEnd at hx; obtain rfl := Host.Outcome.next.inj hx
  repeat' with_reducible first
    | exact Keeps.refl _ _ | assumption | refine Keeps.ite ?_ ?_ | refine trigOutEnd_keeps ?_
    | (constructor <;> first | exact fun _ => rfl | exact fun _ _ => rfl | exact rfl | exact List.prefix_refl _ | exact Nat.le_refl _ | exact fun w => w | exact fun _ _ w => w | exact fun h => absurd h (by decide) | exact fun _ => ⟨fun _ _ => ⟨fun w => w, fun w => w⟩⟩)
    | refine Keeps.setPin ?_ | dsimp only | intro _ | split

theorem execTriginEdge_keeps {n : Nat} {s : State} {t' : State} (hx : execTriginEdge n s = .next t') :
    Keeps 0x3830000068800200000000000000000000000000000000000000000000000000020000000000000401700000000000000000000000000000000000000000000000000000000000000000000000000004065 s t' := by
  unfold execTriginEdge at hx; obtain rfl := Host.Outcome.next.inj hx
  repeat' with_reducible first
    | exact Keeps.refl _ _ | assumption | refine acqTrigin_keeps ?_ | refine jumpEvent_keeps ?_ | refine forS_keeps ?_ ?_ | intro _

end Sys2Proof.Machine
end

