-- ==== Sys2Proof/Laws/Compare.lean ====
section
/-! SUPPORT. What the operations and commands of Machine/Compare.lean keep, and the components of the state they may write (Laws/Keeps.lean). -/

set_option exponentiation.threshold 2000

set_option Elab.async false

namespace Sys2Proof.Machine

open Sys2Proof

theorem dropJudging_keeps {U : Nat} {s₀ : State} {i : Nat} {s : State} (hk : Keeps U s₀ s) (hT : 64 ||| U = U := by decide) : Keeps U s₀ (dropJudging i s) := by
  refine Keeps.step ?_ hT hk
  clear hk hT; unfold dropJudging
  repeat' with_reducible first
    | exact Keeps.refl _ _ | assumption | refine Keeps.ite ?_ ?_ | refine forS_keeps ?_ ?_ | dsimp only | intro _
    | (constructor <;> first | exact fun _ => rfl | exact fun _ _ => rfl | exact rfl | exact List.prefix_refl _ | exact Nat.le_refl _ | exact fun w => w | exact fun _ _ w => w | exact fun h => absurd h (by decide) | exact fun _ => ⟨fun _ _ => ⟨fun w => w, fun w => w⟩⟩)
    | refine Keeps.setPin ?_ | split

theorem ledgerStat_keeps {U : Nat} {s₀ : State} {n : Nat} {s : State} (hk : Keeps U s₀ s) (hT : 0xf0000000000000000000000000000000000000000000000000000000000000000000000000000000000000000001 ||| U = U := by decide) : Keeps U s₀ (ledgerStat n s) := by
  refine Keeps.step ?_ hT hk
  clear hk hT; unfold ledgerStat
  repeat' with_reducible first
    | exact Keeps.refl _ _ | assumption | refine wrs_keeps ?_ | dsimp only | intro _

theorem ledgerPush_keeps {U : Nat} {s₀ : State} {n : Nat} {e : LedEntry} {s : State} (hk : Keeps U s₀ s) (hT : 0xf0000000000000000000000000000000000000000000000000000000000000000000000000000000000000000041 ||| U = U := by decide) : Keeps U s₀ (ledgerPush n e s) := by
  refine Keeps.step ?_ hT hk
  clear hk hT; unfold ledgerPush
  repeat' with_reducible first
    | exact Keeps.refl _ _ | assumption | refine Keeps.ite ?_ ?_ | refine ledgerStat_keeps ?_ | refine setLedger_keeps ?_ | dsimp only | intro _
    | split

theorem closeSummary_keeps {U : Nat} {s₀ : State} {n i r cycle : Nat} {s : State} (hk : Keeps U s₀ s) (hT : 0xf0000000000000000000000000000000000000000000000000000000000000000000000000000000000000000061 ||| U = U := by decide) : Keeps U s₀ (closeSummary n i r cycle s) := by
  refine Keeps.step ?_ hT hk
  clear hk hT; unfold closeSummary
  repeat' with_reducible first
    | exact Keeps.refl _ _ | assumption | refine Keeps.ite ?_ ?_ | refine ledgerPush_keeps ?_ | refine setRoute_keeps ?_ | dsimp only | intro _
    | split

theorem leaveSummaries_keeps {U : Nat} {s₀ : State} {n : Nat} {s : State} (hk : Keeps U s₀ s) (hT : 0xf0000000000000000000000000000000000000000000000000000000000000000000000000000000000000000061 ||| U = U := by decide) : Keeps U s₀ (leaveSummaries n s) := by
  refine Keeps.step ?_ hT hk
  clear hk hT; unfold leaveSummaries
  repeat' with_reducible first
    | exact Keeps.refl _ _ | assumption | refine Keeps.ite ?_ ?_ | refine closeSummary_keeps ?_ | refine setRoute_keeps ?_ | refine forS_keeps ?_ ?_
    | intro _ | split

theorem extendSummary_keeps {U : Nat} {s₀ : State} {n i r cycle vn mask : Nat} {s : State} (hk : Keeps U s₀ s) (hT : 0xf0000000000000000000000000000000000000000000000000000000000000000000000000000000000000000061 ||| U = U := by decide) : Keeps U s₀ (extendSummary n i r cycle vn mask s) := by
  refine Keeps.step ?_ hT hk
  clear hk hT; unfold extendSummary
  repeat' with_reducible first
    | exact Keeps.refl _ _ | assumption | refine Keeps.ite ?_ ?_ | refine closeSummary_keeps ?_ | refine setRoute_keeps ?_ | dsimp only | intro _
    | split

theorem queueFails_keeps {U : Nat} {s₀ s : State} {n i r : Nat} {a : FailAcc} {l : List Nat} (hk : Keeps U s₀ s) (hT : 0x8002000000000000000000000000000000000000000000000000000000004f0000000000000000000000000000000000000000000000000000000000000000000000000000000000000004061 ||| U = U := by decide) : Keeps U s₀ (queueFails n i r a l s) := by
  induction l generalizing U s₀ s with
  | nil => exact hk
  | cons x l ih =>
    simp only [queueFails]
    repeat' with_reducible first
      | exact Keeps.refl _ _ | assumption | refine ih ?_ hT | refine Keeps.ite ?_ ?_ | refine extendSummary_keeps ?_ (sub_trans (by decide) hT)
      | refine ledgerPush_keeps ?_ (sub_trans (by decide) hT) | refine ledgerStat_keeps ?_ (sub_trans (by decide) hT)
      | refine setRoute_keeps ?_ (sub_trans (by decide) hT) | refine raiseInt_keeps ?_ (sub_trans (by decide) hT)
      | refine incSat_keeps ?_ (sub_trans (by first | decide | (split <;> first | decide | with_unfolding_all (refine fldMask_of (by conv => lhs; whnf) ?_; decide)) | with_unfolding_all (refine fldMask_of (by conv => lhs; whnf) ?_; decide)) hT)
      | dsimp only | split

theorem routeJudged_keeps {U : Nat} {s₀ : State} {i r : Nat} {a : FailAcc} {s : State} (hk : Keeps U s₀ s) (hT : 0x8002000000000000000000000000000000000000000000000000000000004f0000000000000000000000000000000000000000000000000000000000000000000000000000000000000004061 ||| U = U := by decide) : Keeps U s₀ (routeJudged i r a s) := by
  refine Keeps.step ?_ hT hk
  clear hk hT; unfold routeJudged
  repeat' with_reducible first
    | exact Keeps.refl _ _ | assumption | refine Keeps.ite ?_ ?_ | refine queueFails_keeps ?_ | refine extendSummary_keeps ?_
    | refine closeSummary_keeps ?_ | dsimp only | intro _ | split

theorem ledgerIssue_keeps {U : Nat} {s₀ : State} {n : Nat} {e : LedEntry} {s : State} (hk : Keeps U s₀ s) (hT : 0x38300000688002000000000000077f01003fc000000000000000000000000000000000000000000000000000000000000000000000000000000000000000000000000000000000000000000000000004247 ||| U = U := by decide) : Keeps U s₀ (ledgerIssue n e s) := by
  refine Keeps.step ?_ hT hk
  clear hk hT; unfold ledgerIssue
  repeat' with_reducible first
    | exact Keeps.refl _ _ | assumption | refine Keeps.ite ?_ ?_ | refine setLedger_keeps ?_ | refine writeMem_keeps ?_ | refine raiseInt_keeps ?_
    | dsimp only | split

theorem ledgerLose_keeps {U : Nat} {s₀ : State} {n : Nat} {e : LedEntry} {s : State} (hk : Keeps U s₀ s) (hT : 0x800200000000000000000000000000000000000000000000000000000000200000000000000000000000000000000000000000000000000000000000000000000000000000000000000004041 ||| U = U := by decide) : Keeps U s₀ (ledgerLose n e s) := by
  refine Keeps.step ?_ hT hk
  clear hk hT; unfold ledgerLose
  repeat' with_reducible first
    | exact Keeps.refl _ _ | assumption | refine setLedger_keeps ?_ | refine raiseInt_keeps ?_ | refine incSat_keeps ?_ | dsimp only | split

theorem ledgerDrain_keeps {U : Nat} {s₀ : State} {n cycles : Nat} {s : State} (hk : Keeps U s₀ s) (hT : 0x38300000688002000000000000077f01003fc0000000000000000000000000000000002f0000000000000000000000000000000000000000000000000000000000000000000000000000000000000004267 ||| U = U := by decide) : Keeps U s₀ (ledgerDrain n cycles s) := by
  refine Keeps.step ?_ hT hk
  clear hk hT; unfold ledgerDrain
  repeat' with_reducible first
    | exact Keeps.refl _ _ | assumption | refine Keeps.ite ?_ ?_ | refine ledgerLose_keeps ?_ | refine ledgerIssue_keeps ?_
    | refine leaveSummaries_keeps ?_ | refine ledgerStat_keeps ?_ | refine setLedger_keeps ?_ | dsimp only | intro _ | split

theorem ledgerAck_keeps {U : Nat} {s₀ : State} {n : Nat} {s : State} (hk : Keeps U s₀ s) (hT : 0x800200000000000000000000000000000000000000000000000000000000004000000000000000000000000000000000000000000000000000000000000000000000000000000000000004041 ||| U = U := by decide) : Keeps U s₀ (ledgerAck n s) := by
  refine Keeps.step ?_ hT hk
  clear hk hT; unfold ledgerAck
  repeat' with_reducible first
    | exact Keeps.refl _ _ | assumption | refine Keeps.ite ?_ ?_ | refine setLedger_keeps ?_ | refine raiseInt_keeps ?_ | refine addWrap_keeps ?_
    | dsimp only | split

theorem ledgerCfg_keeps {U : Nat} {s₀ : State} {n : Nat} {s : State} (hk : Keeps U s₀ s) (hT : 0x3830000068800200000000000000000000000000000000000000000000000000000000000000000000000000000000000000000000000000000000000000000000000000000000000000000000000004005 ||| U = U := by decide) : Keeps U s₀ (ledgerCfg n s) := by
  refine Keeps.step ?_ hT hk
  clear hk hT; unfold ledgerCfg
  repeat' with_reducible first
    | exact Keeps.refl _ _ | assumption | refine fltEvent_keeps ?_

theorem ledgerCtrlEffect_keeps {U : Nat} {s₀ : State} {n word : Nat} {s : State} (hk : Keeps U s₀ s) (hT : 0x38300000688002000000000000000000000000000000000000000000000000000000000fc380000000000000000000000000000000000000000000000000000000000000000000000000000000000004065 ||| U = U := by decide) : Keeps U s₀ (ledgerCtrlEffect n word s) := by
  refine Keeps.step ?_ hT hk
  clear hk hT; unfold ledgerCtrlEffect
  repeat' with_reducible first
    | exact Keeps.refl _ _ | assumption | refine leaveSummaries_keeps ?_ | refine raiseInt_keeps ?_ | refine Keeps.ite ?_ ?_
    | refine ledgerCfg_keeps ?_ | refine ledgerStat_keeps ?_ | refine setLedger_keeps ?_ | refine wrs_keeps ?_ | dsimp only | intro _ | split

theorem ledgerRcntEffect_keeps {U : Nat} {s₀ : State} {n v : Nat} {s : State} (hk : Keeps U s₀ s) (hT : 0x38300000688002000000000000000000000000000000000000000000000000000000000f8000000000000000000000000000000000000000000000000000000000000000000000000000000000000004005 ||| U = U := by decide) : Keeps U s₀ (ledgerRcntEffect n v s) := by
  refine Keeps.step ?_ hT hk
  clear hk hT; unfold ledgerRcntEffect
  repeat' with_reducible first
    | exact Keeps.refl _ _ | assumption | refine Keeps.ite ?_ ?_ | refine ledgerCfg_keeps ?_ | refine ledgerStat_keeps ?_ | refine wr_keeps ?_
    | dsimp only | split

theorem ledRateEffect_keeps {U : Nat} {s₀ : State} {n word : Nat} {s : State} (hk : Keeps U s₀ s) (hT : 0x3830000068800200000000000000000000000000000000000000000000000000000000001000000000000000000000000000000000000000000000000000000000000000000000000000000000000004045 ||| U = U := by decide) : Keeps U s₀ (ledRateEffect n word s) := by
  refine Keeps.step ?_ hT hk
  clear hk hT; unfold ledRateEffect
  repeat' with_reducible first
    | exact Keeps.refl _ _ | assumption | refine Keeps.ite ?_ ?_ | refine ledgerCfg_keeps ?_ | refine setLedger_keeps ?_ | refine wr_keeps ?_
    | dsimp only | split

theorem pinFail_keeps {U : Nat} {s₀ : State} {i p vn cycle : Nat} {s : State} (hk : Keeps U s₀ s) (hT : 0x383000006880020000000000000000000000000000000000000000000000000002003f000000000401700000000000000000000000000000000000000000000000400000000000000000000000000004065 ||| U = U := by decide) : Keeps U s₀ (pinFail i p vn cycle s) := by
  refine Keeps.step ?_ hT hk
  clear hk hT; unfold pinFail
  repeat' with_reducible first
    | exact Keeps.refl _ _ | assumption | refine Keeps.ite ?_ ?_ | refine acqFail_keeps ?_ | refine wrb_keeps ?_ | refine setSite_keeps ?_
    | refine wrs_keeps ?_ | refine incSat_keeps ?_ | dsimp only | intro _
    | (constructor <;> first | exact fun _ => rfl | exact fun _ _ => rfl | exact rfl | exact List.prefix_refl _ | exact Nat.le_refl _ | exact fun w => w | exact fun _ _ w => w | exact fun h => absurd h (by decide) | exact fun _ => ⟨fun _ _ => ⟨fun w => w, fun w => w⟩⟩)
    | refine Keeps.setPin ?_ | split

theorem vecStrobe_keeps {U : Nat} {s₀ : State} {i vn : Nat} {s : State} (hk : Keeps U s₀ s) (hT : 64 ||| U = U := by decide) : Keeps U s₀ (vecStrobe i vn s) := by
  refine Keeps.step ?_ hT hk
  clear hk hT; unfold vecStrobe
  repeat' with_reducible first
    | exact Keeps.refl _ _ | assumption | refine Keeps.ite ?_ ?_ | dsimp only | split
    | (constructor <;> first | exact fun _ => rfl | exact fun _ _ => rfl | exact rfl | exact List.prefix_refl _ | exact Nat.le_refl _ | exact fun w => w | exact fun _ _ w => w | exact fun h => absurd h (by decide) | exact fun _ => ⟨fun _ _ => ⟨fun w => w, fun w => w⟩⟩)
    | refine Keeps.setPin ?_

theorem settleClean_keeps {U : Nat} {s₀ : State} {i r n : Nat} {s : State} (hk : Keeps U s₀ s) (hT : 0x8002000000000000000000000000000000000000000000000000000000004f0000000000000000000000000000000000000000000000000000000000000000000000000000000000000004061 ||| U = U := by decide) : Keeps U s₀ (settleClean i r n s) := by
  induction n generalizing s with
  | zero => exact hk
  | succ n ih =>
    simp only [settleClean]
    split
    · split
      · exact ih (routeJudged_keeps (Keeps.setPin hk (sub_trans (by decide) hT)) (sub_trans (by decide) hT))
      · exact hk
    · exact hk

theorem routeStrobe_keeps {U : Nat} {s₀ : State} {i p vn cycle sym level : Nat} {failed : Bool} {s : State} (hk : Keeps U s₀ s) (hT : 0x8002000000000000000000000000000000000000000000000000000000004f0000000000000000000000000000000000000000000000000000000000000000000000000000000000000004061 ||| U = U := by decide) : Keeps U s₀ (routeStrobe i p vn cycle sym level failed s) := by
  refine Keeps.step ?_ hT hk
  clear hk hT; unfold routeStrobe
  repeat' with_reducible first
    | exact Keeps.refl _ _ | assumption | refine Keeps.ite ?_ ?_ | refine settleClean_keeps ?_ | refine routeJudged_keeps ?_ | dsimp only | split | intro _
    | (constructor <;> first | exact fun _ => rfl | exact fun _ _ => rfl | exact rfl | exact List.prefix_refl _ | exact Nat.le_refl _ | exact fun w => w | exact fun _ _ w => w | exact fun h => absurd h (by decide) | exact fun _ => ⟨fun _ _ => ⟨fun w => w, fun w => w⟩⟩)
    | refine Keeps.setPin ?_

theorem judgeStrobe_keeps {U : Nat} {s₀ : State} {p level : Nat} {dev : Option Nat} {s : State} (hk : Keeps U s₀ s) (hT : 0x383000006880020000000000000000000000000000000000000000000000000002003f4f0000000401700000000000000000000000000000000000000000000000400000000000000000000000000004065 ||| U = U := by decide) : Keeps U s₀ (judgeStrobe p level dev s) := by
  refine Keeps.step ?_ hT hk
  clear hk hT; unfold judgeStrobe
  repeat' with_reducible first
    | exact Keeps.refl _ _ | assumption | refine Keeps.ite ?_ ?_ | refine routeStrobe_keeps ?_ | refine vecStrobe_keeps ?_ | refine pinFail_keeps ?_
    | refine acqLevel_keeps ?_ | refine setPin_keeps ?_ | refine setSite_keeps ?_ | dsimp only | intro _ | split

theorem discardStrobes_keeps {U : Nat} {s₀ : State} {l : List Nat} {s : State} (hk : Keeps U s₀ s) (hT : 0x800000000000000000000000000000000000000000000000000000000000000000000000000000000000000000041 ||| U = U := by decide) : Keeps U s₀ (discardStrobes l s) := by
  refine Keeps.step ?_ hT hk
  clear hk hT; unfold discardStrobes
  repeat' with_reducible first
    | exact Keeps.refl _ _ | assumption | refine Keeps.ite ?_ ?_ | refine vecStrobe_keeps ?_ | refine setPin_keeps ?_ | refine forS_keeps ?_ ?_
    | refine addSat_keeps ?_ | dsimp only | intro _
    | (constructor <;> first | exact fun _ => rfl | exact fun _ _ => rfl | exact rfl | exact List.prefix_refl _ | exact Nat.le_refl _ | exact fun w => w | exact fun _ _ w => w | exact fun h => absurd h (by decide) | exact fun _ => ⟨fun _ _ => ⟨fun w => w, fun w => w⟩⟩)
    | refine Keeps.setPin ?_ | split

theorem cmpEpoch_keeps {U : Nat} {s₀ : State} {i : Nat} {s : State} (hk : Keeps U s₀ s) (hT : 0x3f000000000000000000000000000000000000000000000000000000000000400000000000000000000000000000001 ||| U = U := by decide) : Keeps U s₀ (cmpEpoch i s) := by
  refine Keeps.step ?_ hT hk
  clear hk hT; unfold cmpEpoch
  repeat' with_reducible first
    | exact Keeps.refl _ _ | assumption | refine wrs_keeps ?_ | refine forS_keeps ?_ ?_ | dsimp only | intro _

theorem cmpSiteStop_keeps {U : Nat} {s₀ : State} {i : Nat} {s : State} (hk : Keeps U s₀ s) (hT : 0xf0000000000000000000000000000000000000000000000000000000000000000000000000000000000000000061 ||| U = U := by decide) : Keeps U s₀ (cmpSiteStop i s) := by
  refine Keeps.step ?_ hT hk
  clear hk hT; unfold cmpSiteStop
  repeat' with_reducible first
    | exact Keeps.refl _ _ | assumption | refine closeSummary_keeps ?_ | refine ledgerStat_keeps ?_ | refine forS_keeps ?_ ?_ | intro _

theorem execLedgerDrain_keeps {n cycles : Nat} {s : State} {t' : State} (hx : execLedgerDrain n cycles s = .next t') :
    Keeps 0x38300000688002000000000000077f01003fc0000000000000000000000000000000002f0000000000000000000000000000000000000000000000000000000000000000000000000000000000000004267 s t' := by
  unfold execLedgerDrain at hx; obtain rfl := Host.Outcome.next.inj hx
  repeat' with_reducible first
    | exact Keeps.refl _ _ | assumption | refine ledgerDrain_keeps ?_

theorem execLedgerWriteAck_keeps {n : Nat} {s : State} {t' : State} (hx : execLedgerWriteAck n s = .next t') :
    Keeps 0x800200000000000000000000000000000000000000000000000000000000004000000000000000000000000000000000000000000000000000000000000000000000000000000000000004041 s t' := by
  unfold execLedgerWriteAck at hx; obtain rfl := Host.Outcome.next.inj hx
  repeat' with_reducible first
    | exact Keeps.refl _ _ | assumption | refine ledgerAck_keeps ?_

theorem execLedgerCtrlWrite_keeps {m n word : Nat} {s : State} {t' : State} (hx : execLedgerCtrlWrite m n word s = .next t') :
    Keeps (busMask ||| parMask ||| 0x3830000078a002000000001400000000000000000000000000000000000000000000000fc380000000000000000000000000040000000000000000000000000000000070000080000000000000000004075) s t' := by
  unfold execLedgerCtrlWrite at hx; obtain rfl := Host.Outcome.next.inj hx
  repeat' with_reducible first
    | exact Keeps.refl _ _ | assumption
    | refine takeIn_keeps ?_ ?_ | refine ledgerCtrlEffect_keeps ?_ | refine asWriter_keeps ?_ ?_ | intro _
    | dsimp only

theorem execLedgerRcntWrite_keeps {m n v : Nat} {s : State} {t' : State} (hx : execLedgerRcntWrite m n v s = .next t') :
    Keeps (busMask ||| parMask ||| 0x3830000078a002000000001400000000000000000000000000000000000000000000000f8000000000000000000000000000040000000000000000000000000000000070000080000000000000000004055) s t' := by
  unfold execLedgerRcntWrite at hx; obtain rfl := Host.Outcome.next.inj hx
  repeat' with_reducible first
    | exact Keeps.refl _ _ | assumption
    | refine takeIn_keeps ?_ ?_ | refine ledgerRcntEffect_keeps ?_ | refine asWriter_keeps ?_ ?_ | intro _
    | dsimp only

theorem execLedRateWrite_keeps {m n word : Nat} {s : State} {t' : State} (hx : execLedRateWrite m n word s = .next t') :
    Keeps (busMask ||| parMask ||| 0x3830000078a00200000000140000000000000000000000000000000000000000000000001000000000000000000000000000040000000000000000000000000000000070000080000000000000000004055) s t' := by
  unfold execLedRateWrite at hx; obtain rfl := Host.Outcome.next.inj hx
  repeat' with_reducible first
    | exact Keeps.refl _ _ | assumption
    | refine takeIn_keeps ?_ ?_ | refine ledRateEffect_keeps ?_ | refine asWriter_keeps ?_ ?_ | intro _
    | dsimp only

theorem execStrobeJudge_keeps {p level : Nat} {dev : Option Nat} {s : State} {t' : State} (hx : execStrobeJudge p level dev s = .next t') :
    Keeps 0x383000006880020000000000000000000000000000000000000000000000000002003f4f0000000401700000000000000000000000000000000000000000000000400000000000000000000000000004065 s t' := by
  unfold execStrobeJudge at hx; obtain rfl := Host.Outcome.next.inj hx
  repeat' with_reducible first
    | exact Keeps.refl _ _ | assumption | refine judgeStrobe_keeps ?_

theorem execSiteFailDelivery_keeps {i : Nat} {s : State} {t' : State} (hx : execSiteFailDelivery i s = .next t') :
    Keeps 32 s t' := by
  unfold execSiteFailDelivery at hx; obtain rfl := Host.Outcome.next.inj hx
  repeat' with_reducible first
    | exact Keeps.refl _ _ | assumption | refine Keeps.ite ?_ ?_ | refine openStop_keeps ?_ | refine setSite_keeps ?_ | split

theorem execPinFcntWrite_keeps {m p v : Nat} {s : State} {t' : State} (hx : execPinFcntWrite m p v s = .next t') :
    Keeps (busMask ||| parMask ||| 0x3830000078a00200000000140000000000000000000000000000000000000000000008000000000000000000000000000000040000000000000000000000000000000070000080000000000000000004055) s t' := by
  unfold execPinFcntWrite at hx; obtain rfl := Host.Outcome.next.inj hx
  repeat' with_reducible first
    | exact Keeps.refl _ _ | assumption
    | refine takeIn_keeps ?_ ?_ | refine accessIf_keeps ?_ ?_ | refine wr_keeps ?_ | intro _
    | dsimp only

end Sys2Proof.Machine
end

