-- ==== Sys2Proof/Laws/Pins.lean ====
section
/-! SUPPORT. What the operations and commands of Machine/Pins.lean keep, and the components of the state they may write (Laws/Keeps.lean). -/

set_option exponentiation.threshold 2000

set_option Elab.async false

namespace Sys2Proof.Machine

open Sys2Proof

theorem followClear_keeps {U : Nat} {s₀ : State} {b : Nat} {s : State} (hk : Keeps U s₀ s) (hT : 0x38300000788002000000000000000000000000000000000000000000000000000000000000000000000000000000000e0000000000000000000000000000000000000000000000000000000000000004005 ||| U = U := by decide) : Keeps U s₀ (followClear b s) := by
  refine Keeps.step ?_ hT hk
  clear hk hT; unfold followClear
  repeat' with_reducible first
    | exact Keeps.refl _ _ | assumption | refine Keeps.ite ?_ ?_ | refine setLive_keeps ?_ | refine wrs_keeps ?_ | refine raiseInt_keeps ?_
    | dsimp only | intro _ | split

theorem followPhaseEffect_keeps {U : Nat} {s₀ : State} {b word : Nat} {s : State} (hk : Keeps U s₀ s) (hT : 0x10000000000000000000000000000000000000000000000000000000000000000041 ||| U = U := by decide) : Keeps U s₀ (followPhaseEffect b word s) := by
  refine Keeps.step ?_ hT hk
  clear hk hT; unfold followPhaseEffect
  repeat' with_reducible first
    | exact Keeps.refl _ _ | assumption | refine Keeps.ite ?_ ?_ | refine setBank_keeps ?_ | refine wr_keeps ?_ | dsimp only | intro _ | split

theorem tsOutcome_keeps {U : Nat} {s₀ : State} {b set err pin : Nat} {s : State} (hk : Keeps U s₀ s) (hT : 0x38300000688002000000000000000000000000000000000000000000000000000000000000000000000000000000000001e0000000000000000000000000000000000000000000000000000000000004005 ||| U = U := by decide) : Keeps U s₀ (tsOutcome b set err pin s) := by
  refine Keeps.step ?_ hT hk
  clear hk hT; unfold tsOutcome
  repeat' with_reducible first
    | exact Keeps.refl _ _ | assumption | refine Keeps.ite ?_ ?_ | refine fltEvent_keeps ?_ | refine raiseInt_keeps ?_ | refine wrs_keeps ?_
    | dsimp only | split

theorem tsCommand_keeps {U : Nat} {s₀ : State} {b word : Nat} {s : State} (hk : Keeps U s₀ s) (hT : 0x38300000688002000000000000000000000000000000000000000000000000000000000000000000000000000000000001fc000000000000000000000000000000000000000000000000000000000004045 ||| U = U := by decide) : Keeps U s₀ (tsCommand b word s) := by
  refine Keeps.step ?_ hT hk
  clear hk hT; unfold tsCommand
  repeat' with_reducible first
    | exact Keeps.refl _ _ | assumption | refine Keeps.ite ?_ ?_ | refine tsOutcome_keeps ?_ | refine setBank_keeps ?_ | refine fltEvent_keeps ?_
    | refine wrs_keeps ?_ | refine wr_keeps ?_ | dsimp only | split

theorem putEdge_keeps {U : Nat} {s₀ : State} {b k v : Nat} {s : State} (hk : Keeps U s₀ s) (hT : 0x4000000000000000000000000000000000000000000000000000000000000000000000000000000000000000000000000000000000000000000000000000000000000000000000000000000000000000000000000000000000000000000001 ||| U = U := by decide) : Keeps U s₀ (putEdge b k v s) := by
  refine Keeps.step ?_ hT hk
  clear hk hT; unfold putEdge
  repeat' with_reducible first
    | exact Keeps.refl _ _ | assumption | refine wrs_keeps ?_

theorem putPinRec_keeps {U : Nat} {s₀ : State} {b j : Nat} {r : PinRec} {s : State} (hk : Keeps U s₀ s) (hT : 0x4000000000000000000000000000000000000000000000000000000000000000000000000000000000000000000000000000000000000000000000000000000000000000000000000000000000000000000000000000000000000000000001 ||| U = U := by decide) : Keeps U s₀ (putPinRec b j r s) := by
  refine Keeps.step ?_ hT hk
  clear hk hT; unfold putPinRec
  repeat' with_reducible first
    | exact Keeps.refl _ _ | assumption | refine putEdge_keeps ?_ | refine wrs_keeps ?_ | dsimp only

theorem putWindow_keeps {U : Nat} {s₀ : State} {b : Nat} {t : TimingSet} {s : State} (hk : Keeps U s₀ s) (hT : 0x4000000000000000000000000000000000000000000000000000000000000000000000000000000000000000000000000000000000000000000000000000000000000000000000000000000000000000000000000000000000000000000001 ||| U = U := by decide) : Keeps U s₀ (putWindow b t s) := by
  refine Keeps.step ?_ hT hk
  clear hk hT; unfold putWindow
  repeat' with_reducible first
    | exact Keeps.refl _ _ | assumption | refine putPinRec_keeps ?_ | refine wrs_keeps ?_ | refine wr_keeps ?_ | refine forS_keeps ?_ ?_ | dsimp only
    | intro _

theorem tsDone_keeps {U : Nat} {s₀ : State} {b : Nat} {s : State} (hk : Keeps U s₀ s) (hT : 0x40000000000000000000000000038300000688002000000000000000000000000000000000000000000000000000000000000000000000000000000000001f8000000000000000000000000000000000000000000000000000000000004045 ||| U = U := by decide) : Keeps U s₀ (tsDone b s) := by
  refine Keeps.step ?_ hT hk
  clear hk hT; unfold tsDone
  repeat' with_reducible first
    | exact Keeps.refl _ _ | assumption
    | refine wrs_keeps ?_ | refine Keeps.ite ?_ ?_ | refine putWindow_keeps ?_ | refine tsOutcome_keeps ?_ | refine setBank_keeps ?_
    | dsimp only | split
    | intro _

theorem modeEffect_keeps {U : Nat} {s₀ : State} {b mode : Nat} {s : State} (hk : Keeps U s₀ s) (hT : 0x38300000688002000000000000000000000000000000000000000000000000000000008000000000000000000000000000000f0000000000000000000000000000000000000000000000000000000004145 ||| U = U := by decide) : Keeps U s₀ (modeEffect b mode s) := by
  refine Keeps.step ?_ hT hk
  clear hk hT; unfold modeEffect
  repeat' with_reducible first
    | exact Keeps.refl _ _ | assumption | refine discardStrobes_keeps ?_ | refine Keeps.ite ?_ ?_ | refine pinsSafe_keeps ?_
    | refine calAbortDue_keeps ?_ | refine setBankSafe_keeps ?_ | refine setBank_keeps ?_ | refine fltEvent_keeps ?_ | refine wrs_keeps ?_
    | dsimp only | intro _ | split

theorem issueEdge_keeps {U : Nat} {s₀ : State} {p : Nat} {den : Bool} {org base len : Nat} {e : Nat × Bool} {s : State} (hk : Keeps U s₀ s) (hT : 0x3830000068800200000000000000000000000000000000000000000000000000000000000000000000000000000000600000100000000000000000000000000000000000000000000000000000000004045 ||| U = U := by decide) : Keeps U s₀ (issueEdge p den org base len e s) := by
  refine Keeps.step ?_ hT hk
  clear hk hT; unfold issueEdge
  repeat' with_reducible first
    | exact Keeps.refl _ _ | assumption | refine Keeps.ite ?_ ?_ | refine setPin_keeps ?_ | refine fltEvent_keeps ?_ | refine raiseInt_keeps ?_
    | refine emit_keeps ?_ | refine incSat_keeps ?_ | refine wr_keeps ?_ | dsimp only | intro _ | split

theorem pinEdges_keeps {U : Nat} {s₀ : State} {p : Nat} {r : PinRec} {code : Option Nat} {scale : Option (Nat × Nat)} {sel : Nat → Bool} {org base len : Nat} {s : State} (hk : Keeps U s₀ s) (hT : 0x3830000068800200000000000000000000000000000000000000000000000000000000000000000000000000000000600000100000000000000000000000000000000000000000000000000000000004045 ||| U = U := by decide) : Keeps U s₀ (pinEdges p r code scale sel org base len s) := by
  refine Keeps.step ?_ hT hk
  clear hk hT; unfold pinEdges
  repeat' with_reducible first
    | exact Keeps.refl _ _ | assumption | refine Keeps.ite ?_ ?_ | refine issueEdge_keeps ?_ | refine forS_keeps ?_ ?_ | dsimp only | intro _ | split

theorem issueStrobe_keeps {U : Nat} {s₀ : State} {p : Nat} {r : PinRec} {scale : Option (Nat × Nat)} {base len : Nat} {st : Strobe} {s : State} (hk : Keeps U s₀ s) (hT : 0x3830000068800200000000000000000000000000000000000000000000000000000000000000000000000000000000600000100000000000000000000000000000000000000000000000000000000004045 ||| U = U := by decide) : Keeps U s₀ (issueStrobe p r scale base len st s) := by
  refine Keeps.step ?_ hT hk
  clear hk hT; unfold issueStrobe
  repeat' with_reducible first
    | exact Keeps.refl _ _ | assumption | refine forS_keeps ?_ ?_ | refine Keeps.ite ?_ ?_ | refine setPin_keeps ?_ | refine fltEvent_keeps ?_
    | refine raiseInt_keeps ?_ | refine incSat_keeps ?_ | refine wr_keeps ?_ | dsimp only | intro _ | split

theorem loadTaps_keeps {U : Nat} {s₀ : State} {p period : Nat} {s : State} (hk : Keeps U s₀ s) (hT : 16448 ||| U = U := by decide) : Keeps U s₀ (loadTaps p period s) := by
  refine Keeps.step ?_ hT hk
  clear hk hT; unfold loadTaps
  repeat' with_reducible first
    | exact Keeps.refl _ _ | assumption | refine Keeps.ite ?_ ?_ | refine setPin_keeps ?_ | refine emit_keeps ?_ | dsimp only | intro _ | split

theorem presentPin_keeps {U : Nat} {s₀ : State} {i : Nat} {c : Cur} {len : Option Nat} {p : Nat} {s : State} (hk : Keeps U s₀ s) (hT : 0x3830000068800200000000000000000000000000000000000000000000000000000000000000000000000000000000600000100000000000000000000000000000000000000000000000000000000004045 ||| U = U := by decide) : Keeps U s₀ (presentPin i c len p s) := by
  refine Keeps.step ?_ hT hk
  clear hk hT; unfold presentPin
  repeat' with_reducible first
    | exact Keeps.refl _ _ | assumption | refine Keeps.ite ?_ ?_ | refine loadTaps_keeps ?_ | refine issueStrobe_keeps ?_ | refine pinEdges_keeps ?_
    | dsimp only | intro _ | split

theorem openVector_keeps {U : Nat} {s₀ : State} {i : Nat} {c : Cur} {s : State} (hk : Keeps U s₀ s) (hT : 0x8002000000000000000000000000000000000000000000000000000000004f0000000000000000000000000000000000000000000000000000000000000000000000000000000000000004061 ||| U = U := by decide) : Keeps U s₀ (openVector i c s) := by
  refine Keeps.step ?_ hT hk
  clear hk hT; unfold openVector
  repeat' with_reducible first
    | exact Keeps.refl _ _ | assumption | refine Keeps.ite ?_ ?_ | refine routeJudged_keeps ?_ | refine forS_keeps ?_ ?_ | dsimp only | intro _
    | (constructor <;> first | exact fun _ => rfl | exact fun _ _ => rfl | exact rfl | exact List.prefix_refl _ | exact Nat.le_refl _ | exact fun w => w | exact fun _ _ w => w | exact fun h => absurd h (by decide) | exact fun _ => ⟨fun _ _ => ⟨fun w => w, fun w => w⟩⟩)
    | refine Keeps.setPin ?_ | split

theorem startVector_keeps {U : Nat} {s₀ : State} {i : Nat} {c : Cur} {s : State} (hk : Keeps U s₀ s) (hT : 0x38300000688002000000000000000000000000000000000000000000000000000000004f0000001000700000000000600000100000000000000000000000000000000000000000000000000000000004065 ||| U = U := by decide) : Keeps U s₀ (startVector i c s) := by
  refine Keeps.step ?_ hT hk
  clear hk hT; unfold startVector
  repeat' with_reducible first
    | exact Keeps.refl _ _ | assumption | refine Keeps.ite ?_ ?_ | refine openVector_keeps ?_ | refine presentPin_keeps ?_ | refine acqStore_keeps ?_
    | refine setSite_keeps ?_ | refine forS_keeps ?_ ?_ | dsimp only | intro _ | split

theorem finishVector_keeps {U : Nat} {s₀ : State} {i len : Nat} {s : State} (hk : Keeps U s₀ s) (hT : 0x3830000068800200000000000000000000000000000000000000000000000000000000000000000000000000000000600000100000000000000000000000000000000000000000000000000000000004065 ||| U = U := by decide) : Keeps U s₀ (finishVector i len s) := by
  refine Keeps.step ?_ hT hk
  clear hk hT; unfold finishVector
  repeat' with_reducible first
    | exact Keeps.refl _ _ | assumption | refine Keeps.ite ?_ ?_ | refine presentPin_keeps ?_ | refine setSite_keeps ?_ | refine forS_keeps ?_ ?_
    | dsimp only | intro _ | split

theorem followEffect_keeps {U : Nat} {s₀ : State} {b word : Nat} {s : State} (hk : Keeps U s₀ s) (hT : 0x38300000788002000000000000000000000000000000000000000000000000000000000000000000000000000000000efe00000000000000000000000000000000000000000000000000000000000004045 ||| U = U := by decide) : Keeps U s₀ (followEffect b word s) := by
  refine Keeps.step ?_ hT hk
  clear hk hT; unfold followEffect
  repeat' with_reducible first
    | exact Keeps.refl _ _ | assumption | refine followClear_keeps ?_ | refine Keeps.ite ?_ ?_ | refine setBank_keeps ?_ | refine fltEvent_keeps ?_
    | refine wrs_keeps ?_ | dsimp only | intro _ | split

theorem followLock_keeps {U : Nat} {s₀ : State} {b : Nat} {err : Nat} {s : State} (hk : Keeps U s₀ s) (hT : 0x800200000000000000000000000000000000000000000000000000000000000000000000000000000000020000000000000000000000000000000000000000000000000000000000000004041 ||| U = U := by decide) : Keeps U s₀ (followLock b err s) := by
  refine Keeps.step ?_ hT hk
  clear hk hT; unfold followLock
  repeat' with_reducible first
    | exact Keeps.refl _ _ | assumption | refine Keeps.ite ?_ ?_ | refine setBank_keeps ?_ | refine raiseInt_keeps ?_ | refine wrb_keeps ?_
    | dsimp only | split

theorem followedEdge_keeps {U : Nat} {s₀ : State} {b : Nat} {s : State} (hk : Keeps U s₀ s) (hT : 0x38300000788002000000000000000000000000000000000000000000000000000000000000000000000000000000001e000000000000000000000000000000000000000000000000000000000000000c045 ||| U = U := by decide) : Keeps U s₀ (followedEdge b s) := by
  refine Keeps.step ?_ hT hk
  clear hk hT; unfold followedEdge
  repeat' with_reducible first
    | exact Keeps.refl _ _ | assumption | refine Keeps.ite ?_ ?_ | refine followLock_keeps ?_ | refine freeStep_keeps ?_ | refine setLiveInt_keeps ?_
    | refine setBank_keeps ?_ | refine setLive_keeps ?_ | refine wrb_keeps ?_ | refine raiseInt_keeps ?_ | refine wr_keeps ?_ | dsimp only | intro _
    | split

theorem followHold_keeps {U : Nat} {s₀ : State} {b : Nat} {s : State} (hk : Keeps U s₀ s) (hT : 0x3830000078800200000000000000000000000000000000000000000000000000000000000000000000000000000002140000000000000000000000000000000000000000000000000000000000000004045 ||| U = U := by decide) : Keeps U s₀ (followHold b s) := by
  refine Keeps.step ?_ hT hk
  clear hk hT; unfold followHold
  repeat' with_reducible first
    | exact Keeps.refl _ _ | assumption | refine setBank_keeps ?_ | refine wr_keeps ?_ | refine Keeps.ite ?_ ?_ | refine setLiveInt_keeps ?_
    | refine incSat_keeps ?_ | refine wrb_keeps ?_ | dsimp only | intro _ | split

theorem pinTxeqEffect_keeps {U : Nat} {s₀ : State} {b j word : Nat} {s : State} (hk : Keeps U s₀ s) (hT : 0x3830000068800200000000000000000000000000000000000000000000000000000000000038000000000000000000000000000000000000000000000000000000000000000000000000000000000004005 ||| U = U := by decide) : Keeps U s₀ (pinTxeqEffect b j word s) := by
  refine Keeps.step ?_ hT hk
  clear hk hT; unfold pinTxeqEffect
  repeat' with_reducible first
    | exact Keeps.refl _ _ | assumption | refine Keeps.ite ?_ ?_ | refine fltEvent_keeps ?_ | refine wrs_keeps ?_ | dsimp only | split

theorem putPec_keeps {U : Nat} {s₀ : State} {n : Nat} {x : Pec} {s : State} (hk : Keeps U s₀ s) (hT : 0xf00000000000000000000000000000000000000000000000000000000000000000000041 ||| U = U := by decide) : Keeps U s₀ (putPec n x s) := by
  refine Keeps.step ?_ hT hk
  clear hk hT; unfold putPec
  repeat' with_reducible first
    | exact Keeps.refl _ _ | assumption | refine setPec_keeps ?_ | refine wrs_keeps ?_ | dsimp only | intro _

theorem pecLost_keeps {U : Nat} {s₀ : State} {b : Nat} {s : State} (hk : Keeps U s₀ s) (hT : 0xf00000000000000000000000000000000000000000000000000000000000000000000041 ||| U = U := by decide) : Keeps U s₀ (pecLost b s) := by
  refine Keeps.step ?_ hT hk
  clear hk hT; unfold pecLost
  repeat' with_reducible first
    | exact Keeps.refl _ _ | assumption
    | refine putPec_keeps ?_ | refine Keeps.ite ?_ ?_ | dsimp only | intro _ | split

theorem pecPush_keeps {U : Nat} {s₀ : State} {b word : Nat} {s : State} (hk : Keeps U s₀ s) (hT : 0x3830000068800200000000000000000000000000000000000000000000000000000000000000000000000000000f00000000000000000000000000000000000000000000000000000000000000000004045 ||| U = U := by decide) : Keeps U s₀ (pecPush b word s) := by
  refine Keeps.step ?_ hT hk
  clear hk hT; unfold pecPush
  repeat' with_reducible first
    | exact Keeps.refl _ _ | assumption | refine Keeps.ite ?_ ?_ | refine putPec_keeps ?_ | refine fltEvent_keeps ?_ | dsimp only | split

theorem pecSiteStop_keeps {U : Nat} {s₀ : State} {i : Nat} {s : State} (hk : Keeps U s₀ s) (hT : 0xf01000000000000000000000000000000000000000000000000000000000000000000041 ||| U = U := by decide) : Keeps U s₀ (pecSiteStop i s) := by
  refine Keeps.step ?_ hT hk
  clear hk hT; unfold pecSiteStop
  repeat' with_reducible first
    | exact Keeps.refl _ _ | assumption | refine Keeps.ite ?_ ?_ | refine putPec_keeps ?_ | refine addSat_keeps ?_ | refine forS_keeps ?_ ?_
    | dsimp only | intro _ | split

theorem pecStart_keeps {U : Nat} {s₀ : State} {n : Nat} {s : State} (hk : Keeps U s₀ s) (hT : 0x800200000000000000000000000000000000000000000000000000000000000000000000000000000f01800000000000000000000000000000000000000000000000000000000000000004041 ||| U = U := by decide) : Keeps U s₀ (pecStart n s) := by
  refine Keeps.step ?_ hT hk
  clear hk hT; unfold pecStart
  repeat' with_reducible first
    | exact Keeps.refl _ _ | assumption | refine Keeps.ite ?_ ?_ | refine pecSiteStop_keeps ?_ | refine putPec_keeps ?_ | refine raiseInt_keeps ?_
    | refine emit_keeps ?_ | refine incSat_keeps ?_ | dsimp only | intro _ | split

theorem pecEnd_keeps {U : Nat} {s₀ : State} {n miso : Nat} {s : State} (hk : Keeps U s₀ s) (hT : 0x3830000068800200000000000000000000000000000000000000000000000000000000000000000000000000000f00000000000000000000000000000000000000000000000000000000000000000004045 ||| U = U := by decide) : Keeps U s₀ (pecEnd n miso s) := by
  refine Keeps.step ?_ hT hk
  clear hk hT; unfold pecEnd
  repeat' with_reducible first
    | exact Keeps.refl _ _ | assumption | refine Keeps.ite ?_ ?_ | refine putPec_keeps ?_ | refine fltEvent_keeps ?_ | dsimp only | split

theorem pecPop_keeps {U : Nat} {s₀ : State} {m b : Nat} {s : State} (hk : Keeps U s₀ s) (hT : 0xf00000000000000000000000000000000000000000000000000000000000000000004041 ||| U = U := by decide) : Keeps U s₀ (pecPop m b s) := by
  refine Keeps.step ?_ hT hk
  clear hk hT; unfold pecPop
  repeat' with_reducible first
    | exact Keeps.refl _ _ | assumption | refine Keeps.ite ?_ ?_ | refine putPec_keeps ?_ | refine emit_keeps ?_ | dsimp only | split

theorem pecCfgEffect_keeps {U : Nat} {s₀ : State} {m b word : Nat} {s : State} (hk : Keeps U s₀ s) (hT : 0x3830000068800200000000100000000000000000000000000000000000000000000000000000000000000000000ffc000000000000000000000000000000000000000000000000000000000000000004045 ||| U = U := by decide) : Keeps U s₀ (pecCfgEffect m b word s) := by
  refine Keeps.step ?_ hT hk
  clear hk hT; unfold pecCfgEffect
  repeat' with_reducible first
    | exact Keeps.refl _ _ | assumption
    | refine countNonown_keeps ?_ | refine Keeps.ite ?_ ?_ | refine putPec_keeps ?_ | refine fltEvent_keeps ?_ | refine wrs_keeps ?_
    | refine wr_keeps ?_ | dsimp only | intro _ | split

theorem sliceSubstitute_keeps {U : Nat} {s₀ : State} {b : Nat} {s : State} (hk : Keeps U s₀ s) (hT : 0x2000000000000000000000000000000000000000000000000000000000000041 ||| U = U := by decide) : Keeps U s₀ (sliceSubstitute b s) := by
  refine Keeps.step ?_ hT hk
  clear hk hT; unfold sliceSubstitute
  repeat' with_reducible first
    | exact Keeps.refl _ _ | assumption | refine Keeps.ite ?_ ?_ | refine setBank_keeps ?_ | refine wrb_keeps ?_ | dsimp only | split

theorem execTsLoad_keeps {m b word : Nat} {s : State} {t' : State} (hx : execTsLoad m b word s = .next t') :
    Keeps (busMask ||| parMask ||| 0x3830000078a002000000001400000000000000000000000000000000000000000000000000000000000000000000000001fc040000000000000000000000000000000070000080000000000000000004055) s t' := by
  unfold execTsLoad at hx; obtain rfl := Host.Outcome.next.inj hx
  repeat' with_reducible first
    | exact Keeps.refl _ _ | assumption
    | refine takeIn_keeps ?_ ?_ | refine tsCommand_keeps ?_ | refine asWriter_keeps ?_ ?_ | intro _
    | dsimp only

theorem execTsRead_keeps {m b word : Nat} {s : State} {t' : State} (hx : execTsRead m b word s = .next t') :
    Keeps (busMask ||| parMask ||| 0x3830000078a002000000001400000000000000000000000000000000000000000000000000000000000000000000000001fc040000000000000000000000000000000070000080000000000000000004055) s t' := by
  unfold execTsRead at hx; obtain rfl := Host.Outcome.next.inj hx
  repeat' with_reducible first
    | exact Keeps.refl _ _ | assumption
    | refine takeIn_keeps ?_ ?_ | refine tsCommand_keeps ?_ | refine asWriter_keeps ?_ ?_ | intro _
    | dsimp only

theorem execTsDone_keeps {b : Nat} {s : State} {t' : State} (hx : execTsDone b s = .next t') :
    Keeps 0x40000000000000000000000000038300000688002000000000000000000000000000000000000000000000000000000000000000000000000000000000001f8000000000000000000000000000000000000000000000000000000000004045 s t' := by
  unfold execTsDone at hx; obtain rfl := Host.Outcome.next.inj hx
  repeat' with_reducible first
    | exact Keeps.refl _ _ | assumption | refine tsDone_keeps ?_

theorem execModeChange_keeps {m b mode : Nat} {s : State} {t' : State} (hx : execModeChange m b mode s = .next t') :
    Keeps (busMask ||| parMask ||| 0x3830000078a002000000001400000000000000000000000000000000000000000000008000000000000000000000000000000f0000000000000000000000000000000070000080000000000000000004155) s t' := by
  unfold execModeChange at hx; obtain rfl := Host.Outcome.next.inj hx
  repeat' with_reducible first
    | exact Keeps.refl _ _ | assumption
    | refine takeIn_keeps ?_ ?_ | refine modeEffect_keeps ?_ | refine asWriter_keeps ?_ ?_ | intro _
    | dsimp only

theorem execModeChangeEnd_keeps {b : Nat} {s : State} {t' : State} (hx : execModeChangeEnd b s = .next t') :
    Keeps 0xc0000000000000000000000000000000000000000000000000000000000041 s t' := by
  unfold execModeChangeEnd at hx; obtain rfl := Host.Outcome.next.inj hx
  repeat' with_reducible first
    | exact Keeps.refl _ _ | assumption | refine setBankSafe_keeps ?_ | refine wrb_keeps ?_

theorem execFollowWrite_keeps {m b word : Nat} {s : State} {t' : State} (hx : execFollowWrite m b word s = .next t') :
    Keeps (busMask ||| parMask ||| 0x3830000078a002000000001400000000000000000000000000000000000000000000000000000000000000000000000efe00040000000000000000000000000000000070000080000000000000000004055) s t' := by
  unfold execFollowWrite at hx; obtain rfl := Host.Outcome.next.inj hx
  repeat' with_reducible first
    | exact Keeps.refl _ _ | assumption
    | refine takeIn_keeps ?_ ?_ | refine followEffect_keeps ?_ | refine asWriter_keeps ?_ ?_ | intro _
    | dsimp only

theorem execFollowedEdge_keeps {b : Nat} {s : State} {t' : State} (hx : execFollowedEdge b s = .next t') :
    Keeps 0x38300000788002000000000000000000000000000000000000000000000000000000000000000000000000000000001e000000000000000000000000000000000000000000000000000000000000000c045 s t' := by
  unfold execFollowedEdge at hx; obtain rfl := Host.Outcome.next.inj hx
  repeat' with_reducible first
    | exact Keeps.refl _ _ | assumption | refine Keeps.ite ?_ ?_ | refine followedEdge_keeps ?_ | dsimp only | intro _ | split

theorem execFollowHold_keeps {b : Nat} {s : State} {t' : State} (hx : execFollowHold b s = .next t') :
    Keeps 0x3830000078800200000000000000000000000000000000000000000000000000000000000000000000000000000002140000000000000000000000000000000000000000000000000000000000000004045 s t' := by
  unfold execFollowHold at hx; obtain rfl := Host.Outcome.next.inj hx
  repeat' with_reducible first
    | exact Keeps.refl _ _ | assumption | refine followHold_keeps ?_

theorem execPinTxeqWrite_keeps {m b j word : Nat} {s : State} {t' : State} (hx : execPinTxeqWrite m b j word s = .next t') :
    Keeps (busMask ||| parMask ||| 0x3830000078a00200000000140000000000000000000000000000000000000000000000000038000000000000000000000000040000000000000000000000000000000070000080000000000000000004055) s t' := by
  unfold execPinTxeqWrite at hx; obtain rfl := Host.Outcome.next.inj hx
  repeat' with_reducible first
    | exact Keeps.refl _ _ | assumption
    | refine takeIn_keeps ?_ ?_ | refine pinTxeqEffect_keeps ?_ | refine asWriter_keeps ?_ ?_ | intro _
    | dsimp only

theorem execPecTxPush_keeps {m b word : Nat} {s : State} {t' : State} (hx : execPecTxPush m b word s = .next t') :
    Keeps (busMask ||| parMask ||| 0x3830000078a00200000000140000000000000000000000000000000000000000000000000000000000000000000f00000000040000000000000000000000000000000070000080000000000000000004055) s t' := by
  unfold execPecTxPush at hx; obtain rfl := Host.Outcome.next.inj hx
  repeat' with_reducible first
    | exact Keeps.refl _ _ | assumption
    | refine takeIn_keeps ?_ ?_ | refine pecPush_keeps ?_ | refine asWriter_keeps ?_ ?_ | intro _
    | dsimp only

theorem execPecTransferStart_keeps {n : Nat} {s : State} {t' : State} (hx : execPecTransferStart n s = .next t') :
    Keeps 0x800200000000000000000000000000000000000000000000000000000000000000000000000000000f01800000000000000000000000000000000000000000000000000000000000000004041 s t' := by
  unfold execPecTransferStart at hx; obtain rfl := Host.Outcome.next.inj hx
  repeat' with_reducible first
    | exact Keeps.refl _ _ | assumption | refine pecStart_keeps ?_

theorem execPecTransferEnd_keeps {n miso : Nat} {s : State} {t' : State} (hx : execPecTransferEnd n miso s = .next t') :
    Keeps 0x3830000068800200000000000000000000000000000000000000000000000000000000000000000000000000000f00000000000000000000000000000000000000000000000000000000000000000004045 s t' := by
  unfold execPecTransferEnd at hx; obtain rfl := Host.Outcome.next.inj hx
  repeat' with_reducible first
    | exact Keeps.refl _ _ | assumption | refine pecEnd_keeps ?_

theorem execPecRxPop_keeps {m b : Nat} {s : State} {t' : State} (hx : execPecRxPop m b s = .next t') :
    Keeps (busMask ||| 0xf00000000000000000000000000000000000000000000000000000000000000000004041) s t' := by
  unfold execPecRxPop at hx; obtain rfl := Host.Outcome.next.inj hx
  repeat' with_reducible first
    | exact Keeps.refl _ _ | assumption
    | refine takeIn_keeps ?_ ?_ | refine pecPop_keeps ?_
    | dsimp only | intro _

theorem execPecCfgWrite_keeps {m b word : Nat} {s : State} {t' : State} (hx : execPecCfgWrite m b word s = .next t') :
    Keeps (busMask ||| parMask ||| 0x3830000078a00200000000140000000000000000000000000000000000000000000000000000000000000000000ffc000000040000000000000000000000000000000070000080000000000000000004055) s t' := by
  unfold execPecCfgWrite at hx; obtain rfl := Host.Outcome.next.inj hx
  repeat' with_reducible first
    | exact Keeps.refl _ _ | assumption
    | refine takeIn_keeps ?_ ?_ | refine pecCfgEffect_keeps ?_ | refine accessIf_keeps ?_ ?_ | intro _
    | dsimp only

theorem execBnkSpareWrite_keeps {m b comp : Nat} {s : State} {t' : State} (hx : execBnkSpareWrite m b comp s = .next t') :
    Keeps (busMask ||| parMask ||| 0x3830040078a00200000000140000000000000000000000000000000000000000000000000000000000000000000000000001840000000000000000000000000000000070000080000000000000000004055) s t' := by
  unfold execBnkSpareWrite at hx; obtain rfl := Host.Outcome.next.inj hx
  repeat' with_reducible first
    | exact Keeps.refl _ _ | assumption
    | refine takeIn_keeps ?_ ?_ | refine pairComplete_keeps ?_ ?_ | refine wrs_keeps ?_ | intro _
    | dsimp only

end Sys2Proof.Machine
end

