-- ==== Sys2Proof/Laws/Caravans.lean ====
section
/-! SUPPORT. What the operations and commands of Machine/Caravans.lean keep, and the components of the state they may write (Laws/Keeps.lean). -/

set_option exponentiation.threshold 2000

set_option Elab.async false

namespace Sys2Proof.Machine

open Sys2Proof

theorem csLoad_keeps {U : Nat} {s₀ : State} {k : Nat} {s : State} (hk : Keeps U s₀ s) (hT : 32 ||| U = U := by decide) : Keeps U s₀ (csLoad k s) := by
  refine Keeps.step ?_ hT hk
  clear hk hT; unfold csLoad
  repeat' with_reducible first
    | exact Keeps.refl _ _ | assumption | refine Keeps.ite ?_ ?_ | dsimp only | intro _
    | (constructor <;> first | exact fun _ => rfl | exact fun _ _ => rfl | exact rfl | exact List.prefix_refl _ | exact Nat.le_refl _ | exact fun w => w | exact fun _ _ w => w | exact fun h => absurd h (by decide) | exact fun _ => ⟨fun _ _ => ⟨fun w => w, fun w => w⟩⟩)
    | refine Keeps.setPat ?_ | split

theorem csLost_keeps {U : Nat} {s₀ : State} {k : Nat} {s : State} (hk : Keeps U s₀ s) (hT : 32 ||| U = U := by decide) : Keeps U s₀ (csLost k s) := by
  refine Keeps.step ?_ hT hk
  clear hk hT; unfold csLost
  repeat' with_reducible first
    | exact Keeps.refl _ _ | assumption | refine Keeps.ite ?_ ?_ | dsimp only | intro _
    | (constructor <;> first | exact fun _ => rfl | exact fun _ _ => rfl | exact rfl | exact List.prefix_refl _ | exact Nat.le_refl _ | exact fun w => w | exact fun _ _ w => w | exact fun h => absurd h (by decide) | exact fun _ => ⟨fun _ _ => ⟨fun w => w, fun w => w⟩⟩)
    | refine Keeps.setPat ?_ | split

theorem heldOver_keeps {U : Nat} {s₀ : State} {s : State} (hk : Keeps U s₀ s) (hT : 0x3830000078800200000000000000000000000000000000000000000000000000000000000000000000000000000000000000000000000000000000000000000000000000000000000000000000000004005 ||| U = U := by decide) : Keeps U s₀ (heldOver s) := by
  refine Keeps.step ?_ hT hk
  clear hk hT; unfold heldOver
  repeat' with_reducible first
    | exact Keeps.refl _ _ | assumption | refine Keeps.ite ?_ ?_ | refine setLive_keeps ?_ | dsimp only | intro _ | split

theorem putFur_keeps {U : Nat} {s₀ : State} {q : Nat} {x : Fur} {s : State} (hk : Keeps U s₀ s) (hT : 0x800200000000000000000000000000000000000000000000000000000000000000000000000000000000000000000000000000000000000000000000000000000000000000000000000004021 ||| U = U := by decide) : Keeps U s₀ (putFur q x s) := by
  refine Keeps.step ?_ hT hk
  clear hk hT; unfold putFur
  repeat' with_reducible first
    | exact Keeps.refl _ _ | assumption | refine Keeps.ite ?_ ?_ | refine setFur_keeps ?_ | refine raiseInt_keeps ?_ | dsimp only | split

theorem poolCheck_keeps {U : Nat} {s₀ : State} {before s : State} (hk : Keeps U s₀ s) (hT : 0x800200000000000000000000000000000000000000000000000000000000000000000000000000000000000000000000000000000000000000000000000000000000000000000000000004001 ||| U = U := by decide) : Keeps U s₀ (poolCheck before s) := by
  refine Keeps.step ?_ hT hk
  clear hk hT; unfold poolCheck
  repeat' with_reducible first
    | exact Keeps.refl _ _ | assumption | refine Keeps.ite ?_ ?_ | refine raiseInt_keeps ?_ | split

theorem settle_keeps {U : Nat} {s₀ : State} {s : State} (hk : Keeps U s₀ s) (hT : 32 ||| U = U := by decide) : Keeps U s₀ (settle s) := by
  refine Keeps.step ?_ hT hk
  clear hk hT; unfold settle
  repeat' with_reducible first
    | exact Keeps.refl _ _ | assumption
    | (constructor <;> first | exact fun _ => rfl | exact fun _ _ => rfl | exact rfl | exact List.prefix_refl _ | exact Nat.le_refl _ | exact fun w => w | exact fun _ _ w => w | exact fun h => absurd h (by decide) | exact fun _ => ⟨fun _ _ => ⟨fun w => w, fun w => w⟩⟩)
    | refine Keeps.setPat ?_

theorem setReserved_keeps {U : Nat} {s₀ : State} {n d v : Nat} {s : State} (hk : Keeps U s₀ s) (hT : 32 ||| U = U := by decide) : Keeps U s₀ (setReserved n d v s) := by
  refine Keeps.step ?_ hT hk
  clear hk hT; unfold setReserved
  repeat' with_reducible first
    | exact Keeps.refl _ _ | assumption
    | (constructor <;> first | exact fun _ => rfl | exact fun _ _ => rfl | exact rfl | exact List.prefix_refl _ | exact Nat.le_refl _ | exact fun w => w | exact fun _ _ w => w | exact fun h => absurd h (by decide) | exact fun _ => ⟨fun _ _ => ⟨fun w => w, fun w => w⟩⟩)
    | refine Keeps.setPat ?_

theorem putCompletion_keeps {U : Nat} {s₀ : State} {n d ident status event route site : Nat} {s : State} (hk : Keeps U s₀ s) (hT : 0x800200000800000000000000000000000000000000000000000000000000000000000000000000000000000000000000000000000000000000000000000000000000000000000000000004001 ||| U = U := by decide) : Keeps U s₀ (putCompletion n d ident status event route site s) := by
  refine Keeps.step ?_ hT hk
  clear hk hT; unfold putCompletion
  repeat' with_reducible first
    | exact Keeps.refl _ _ | assumption | refine raiseInt_keeps ?_ | refine emit_keeps ?_ | refine wr_keeps ?_ | dsimp only

theorem notifyDone_keeps {U : Nat} {s₀ : State} {c : Car} {event : Nat} {s : State} (hk : Keeps U s₀ s) (hT : 0x800200000800400000000000000000000000000000000000000000000000000000000000000000000000000000000000000000000000000000000000000000000000000000000000000004021 ||| U = U := by decide) : Keeps U s₀ (notifyDone c event s) := by
  refine Keeps.step ?_ hT hk
  clear hk hT; unfold notifyDone
  repeat' with_reducible first
    | exact Keeps.refl _ _ | assumption | refine Keeps.ite ?_ ?_ | refine putCompletion_keeps ?_ | refine setReserved_keeps ?_
    | refine raiseInt_keeps ?_ | refine incSat_keeps ?_ | split

theorem fileCar_keeps {U : Nat} {s₀ : State} {c : Car} {s : State} (hk : Keeps U s₀ s) (hT : 32 ||| U = U := by decide) : Keeps U s₀ (fileCar c s) := by
  refine Keeps.step ?_ hT hk
  clear hk hT; unfold fileCar
  repeat' with_reducible first
    | exact Keeps.refl _ _ | assumption | refine Keeps.ite ?_ ?_ | refine setRoute_keeps ?_ | dsimp only | split
    | (constructor <;> first | exact fun _ => rfl | exact fun _ _ => rfl | exact rfl | exact List.prefix_refl _ | exact Nat.le_refl _ | exact fun w => w | exact fun _ _ w => w | exact fun h => absurd h (by decide) | exact fun _ => ⟨fun _ _ => ⟨fun w => w, fun w => w⟩⟩)
    | refine Keeps.setPat ?_

theorem refuseCar_keeps {U : Nat} {s₀ : State} {c : Car} {status : Nat} {s : State} (hk : Keeps U s₀ s) (hT : 0x8002000000000000000000000000000000000000000000000000000000000000000000000000000000000000000000000000000000027c0000000000000000000000000000000000000004001 ||| U = U := by decide) : Keeps U s₀ (refuseCar c status s) := by
  refine Keeps.step ?_ hT hk
  clear hk hT; unfold refuseCar
  repeat' with_reducible first
    | exact Keeps.refl _ _ | assumption | refine Keeps.ite ?_ ?_ | refine raiseInt_keeps ?_ | refine incSat_keeps ?_ | refine wrs_keeps ?_
    | dsimp only | split

theorem submitCopy_keeps {U : Nat} {s₀ : State} {c : Car} {s : State} (hk : Keeps U s₀ s) (hT : 0x800200000800400000000000000000000000000000000000000000000000000000000000000000000000000000000000000000000002fc0000000000000000000000000000000000000004021 ||| U = U := by decide) : Keeps U s₀ (submitCopy c s) := by
  refine Keeps.step ?_ hT hk
  clear hk hT; unfold submitCopy
  repeat' with_reducible first
    | exact Keeps.refl _ _ | assumption | refine Keeps.ite ?_ ?_ | refine refuseCar_keeps ?_ | refine fileCar_keeps ?_ | refine incWrap_keeps ?_
    | refine putCompletion_keeps ?_ | refine raiseInt_keeps ?_ | refine emit_keeps ?_ | refine incSat_keeps ?_ | dsimp only | intro _ | split

theorem submitCar_keeps {U : Nat} {s₀ : State} {c : Car} {resv : Bool} {s : State} (hk : Keeps U s₀ s) (hT : 0x800200000000000000000000000000000000000000000000000000000000000000000000000000000000000000000000000000000002fc0000000000000000000000000000000000000004021 ||| U = U := by decide) : Keeps U s₀ (submitCar c resv s) := by
  refine Keeps.step ?_ hT hk
  clear hk hT; unfold submitCar
  repeat' with_reducible first
    | exact Keeps.refl _ _ | assumption | refine Keeps.ite ?_ ?_ | refine refuseCar_keeps ?_ | refine fileCar_keeps ?_ | refine poolCheck_keeps ?_
    | refine emit_keeps ?_ | refine incWrap_keeps ?_ | dsimp only | split

theorem serveFw_keeps {U : Nat} {s₀ s : State} {n : Nat} (hk : Keeps U s₀ s) (hT : 0x800200000000000000000000000000000000000000000000000000000000000000000000000000000000000000000000000000000002fc0000000000000000000000000000000000000004021 ||| U = U := by decide) : Keeps U s₀ (serveFw n s) := by
  induction n generalizing U s₀ s with
  | zero => exact hk
  | succ n ih =>
    simp only [serveFw]
    repeat' with_reducible first
      | exact Keeps.refl _ _ | assumption | refine ih ?_ hT | refine Keeps.ite ?_ ?_ | refine submitCar_keeps ?_ (sub_trans (by decide) hT) | split
      | (constructor <;> first | exact fun _ => rfl | exact fun _ _ => rfl | exact rfl | exact List.prefix_refl _ | exact Nat.le_refl _ | exact fun w => w | exact fun _ _ w => w | exact fun h => absurd h (by decide) | exact fun _ => ⟨fun _ _ => ⟨fun w => w, fun w => w⟩⟩)
      | refine Keeps.setPat ?_ (sub_trans (by decide) hT)

theorem serveSides_keeps {U : Nat} {s₀ : State} {s : State} (hk : Keeps U s₀ s) (hT : 0x800200000000000000000000000000000000000000000000000000000000000000000000000000000000000000000000000000000000000000000000000000000000000000000000000004021 ||| U = U := by decide) : Keeps U s₀ (serveSides s) := by
  refine Keeps.step ?_ hT hk
  clear hk hT; unfold serveSides
  repeat' with_reducible first
    | exact Keeps.refl _ _ | assumption | refine Keeps.ite ?_ ?_ | refine poolCheck_keeps ?_ | refine setRoute_keeps ?_ | refine forS_keeps ?_ ?_
    | dsimp only | intro _ | split

theorem serveWaiting_keeps {U : Nat} {s₀ : State} {s : State} (hk : Keeps U s₀ s) (hT : 0x800200000000000000000000000000000000000000000000000000000000000000000000000000000000000000000000000000000002fc0000000000000000000000000000000000000004021 ||| U = U := by decide) : Keeps U s₀ (serveWaiting s) := by
  refine Keeps.step ?_ hT hk
  clear hk hT; unfold serveWaiting
  repeat' with_reducible first
    | exact Keeps.refl _ _ | assumption | refine serveSides_keeps ?_ | refine serveFw_keeps ?_

theorem firmwareSubmit_keeps {U : Nat} {s₀ : State} {raw : Nat} {s : State} (hk : Keeps U s₀ s) (hT : 0x80020000000000000000000000000000000000000000000000000000000000000000000000000000000000000000000000000000000afc0000000000000000000000000000000000000004021 ||| U = U := by decide) : Keeps U s₀ (firmwareSubmit raw s) := by
  refine Keeps.step ?_ hT hk
  clear hk hT; unfold firmwareSubmit
  repeat' with_reducible first
    | exact Keeps.refl _ _ | assumption | refine Keeps.ite ?_ ?_ | refine serveFw_keeps ?_ | refine incSat_keeps ?_ | dsimp only | split
    | (constructor <;> first | exact fun _ => rfl | exact fun _ _ => rfl | exact rfl | exact List.prefix_refl _ | exact Nat.le_refl _ | exact fun w => w | exact fun _ _ w => w | exact fun h => absurd h (by decide) | exact fun _ => ⟨fun _ _ => ⟨fun w => w, fun w => w⟩⟩)
    | refine Keeps.setPat ?_

theorem setRingWait_keeps {U : Nat} {s₀ : State} {n d : Nat} {on : Bool} {s : State} (hk : Keeps U s₀ s) (hT : 0x8000000000000000000000000000000000000000000021 ||| U = U := by decide) : Keeps U s₀ (setRingWait n d on s) := by
  refine Keeps.step ?_ hT hk
  clear hk hT; unfold setRingWait
  repeat' with_reducible first
    | exact Keeps.refl _ _ | assumption
    | refine incSat_keeps ?_ | refine Keeps.ite ?_ ?_ | refine Keeps.setPat ?_ | dsimp only | intro _ | split
    | (constructor <;> first | exact fun _ => rfl | exact fun _ _ => rfl | exact rfl | exact List.prefix_refl _ | exact Nat.le_refl _ | exact fun w => w | exact fun _ _ w => w | exact fun h => absurd h (by decide) | exact fun _ => ⟨fun _ _ => ⟨fun w => w, fun w => w⟩⟩)

theorem holdRing_keeps {U : Nat} {s₀ : State} {n d : Nat} {held wait : Bool} {s : State} (hk : Keeps U s₀ s) (hT : 0x4000000000000000000000000000000000000000000000000000000000000000000000000000000000000000000000000008000000000000000000000000000000000000000000021 ||| U = U := by decide) : Keeps U s₀ (holdRing n d held wait s) := by
  refine Keeps.step ?_ hT hk
  clear hk hT; unfold holdRing
  repeat' with_reducible first
    | exact Keeps.refl _ _ | assumption
    | refine setRingWait_keeps ?_ | refine wrb_keeps ?_ | dsimp only | intro _

theorem descFetch_keeps {U : Nat} {s₀ : State} {n d raw : Nat} {s : State} (hk : Keeps U s₀ s) (hT : 0x800200004c0000000000000000000000000000000000000000000000000000000000000000000000000000000000000000000000000afc0000000000000000000000000000000000000004021 ||| U = U := by decide) : Keeps U s₀ (descFetch n d raw s) := by
  refine Keeps.step ?_ hT hk
  clear hk hT; unfold descFetch
  repeat' with_reducible first
    | exact Keeps.refl _ _ | assumption
    | refine holdRing_keeps ?_ | refine Keeps.ite ?_ ?_ | refine submitCar_keeps ?_ | refine refuseCar_keeps ?_
    | refine putCompletion_keeps ?_ | refine setReserved_keeps ?_ | refine incSat_keeps ?_ | refine wrb_keeps ?_ | refine wr_keeps ?_ | dsimp only
    | intro _ | split

theorem setSharesAct_keeps {U : Nat} {s₀ : State} {l : List Nat} {s : State} (hk : Keeps U s₀ s) (hT : 0xf000000000000000000000000000000000001 ||| U = U := by decide) : Keeps U s₀ (setSharesAct l s) := by
  refine Keeps.step ?_ hT hk
  clear hk hT; unfold setSharesAct
  repeat' with_reducible first
    | exact Keeps.refl _ _ | assumption | refine wrs_keeps ?_

theorem refitShares_keeps {U : Nat} {s₀ : State} {s : State} (hk : Keeps U s₀ s) (hT : 0xf000000000000000000000000000000000001 ||| U = U := by decide) : Keeps U s₀ (refitShares s) := by
  refine Keeps.step ?_ hT hk
  clear hk hT; unfold refitShares
  repeat' with_reducible first
    | exact Keeps.refl _ _ | assumption
    | refine setSharesAct_keeps ?_ | dsimp only | intro _

theorem takeShares_keeps {U : Nat} {s₀ : State} {l : List Nat} {s : State} (hk : Keeps U s₀ s) (hT : 0xf000000000000000000000000000000000021 ||| U = U := by decide) : Keeps U s₀ (takeShares l s) := by
  refine Keeps.step ?_ hT hk
  clear hk hT; unfold takeShares
  repeat' with_reducible first
    | exact Keeps.refl _ _ | assumption
    | refine refitShares_keeps ?_ | refine Keeps.setPat ?_ | dsimp only | intro _
    | (constructor <;> first | exact fun _ => rfl | exact fun _ _ => rfl | exact rfl | exact List.prefix_refl _ | exact Nat.le_refl _ | exact fun w => w | exact fun _ _ w => w | exact fun h => absurd h (by decide) | exact fun _ => ⟨fun _ _ => ⟨fun w => w, fun w => w⟩⟩)

theorem reserve_keeps {U : Nat} {s₀ : State} {c : Car} {n : Nat} {s : State} (hk : Keeps U s₀ s) (hT : 32 ||| U = U := by decide) : Keeps U s₀ (reserve c n s) := by
  refine Keeps.step ?_ hT hk
  clear hk hT; unfold reserve
  repeat' with_reducible first
    | exact Keeps.refl _ _ | assumption | refine Keeps.ite ?_ ?_ | refine setFur_keeps ?_ | refine forS_keeps ?_ ?_ | dsimp only | intro _ | split

theorem assign_keeps {U : Nat} {s₀ : State} {c : Car} {e : Nat} {s : State} (hk : Keeps U s₀ s) (hT : 0x100004000800000000000000000000000000000000000000021 ||| U = U := by decide) : Keeps U s₀ (assign c e s) := by
  refine Keeps.step ?_ hT hk
  clear hk hT; unfold assign
  repeat' with_reducible first
    | exact Keeps.refl _ _ | assumption | refine Keeps.ite ?_ ?_ | refine reserve_keeps ?_ | refine setRoute_keeps ?_ | refine incSat_keeps ?_
    | dsimp only | split
    | (constructor <;> first | exact fun _ => rfl | exact fun _ _ => rfl | exact rfl | exact List.prefix_refl _ | exact Nat.le_refl _ | exact fun w => w | exact fun _ _ w => w | exact fun h => absurd h (by decide) | exact fun _ => ⟨fun _ _ => ⟨fun w => w, fun w => w⟩⟩)
    | refine Keeps.setPat ?_

theorem decide__keeps {U : Nat} {s₀ s : State} {fuel slots : Nat} (hk : Keeps U s₀ s) (hT : 0x100004000800000000000000000000000000000000000000021 ||| U = U := by decide) : Keeps U s₀ (decide_ fuel slots s) := by
  induction fuel generalizing U s₀ s slots with
  | zero => exact hk
  | succ fuel ih =>
    cases slots with
    | zero => exact hk
    | succ slots =>
    simp only [decide_]
    repeat' with_reducible first
      | exact Keeps.refl _ _ | assumption | refine ih ?_ hT | refine Keeps.ite ?_ ?_ | refine assign_keeps ?_ (sub_trans (by decide) hT) | dsimp only
      | intro _ | split
      | (constructor <;> first | exact fun _ => rfl | exact fun _ _ => rfl | exact rfl | exact List.prefix_refl _ | exact Nat.le_refl _ | exact fun w => w | exact fun _ _ w => w | exact fun h => absurd h (by decide) | exact fun _ => ⟨fun _ _ => ⟨fun w => w, fun w => w⟩⟩)
      | refine Keeps.setPat ?_ (sub_trans (by decide) hT)

theorem releaseDue_keeps {U : Nat} {s₀ : State} {s : State} (hk : Keeps U s₀ s) (hT : 32 ||| U = U := by decide) : Keeps U s₀ (releaseDue s) := by
  refine Keeps.step ?_ hT hk
  clear hk hT; unfold releaseDue
  repeat' with_reducible first
    | exact Keeps.refl _ _ | assumption | refine Keeps.ite ?_ ?_ | refine setRoute_keeps ?_ | refine forS_keeps ?_ ?_ | dsimp only | intro _ | split
    | (constructor <;> first | exact fun _ => rfl | exact fun _ _ => rfl | exact rfl | exact List.prefix_refl _ | exact Nat.le_refl _ | exact fun w => w | exact fun _ _ w => w | exact fun h => absurd h (by decide) | exact fun _ => ⟨fun _ _ => ⟨fun w => w, fun w => w⟩⟩)
    | refine Keeps.setPat ?_

theorem countSpaceWait_keeps {U : Nat} {s₀ : State} {s : State} (hk : Keeps U s₀ s) (hT : 0x80000000000000000000000000000000000000000000000001 ||| U = U := by decide) : Keeps U s₀ (countSpaceWait s) := by
  refine Keeps.step ?_ hT hk
  clear hk hT; unfold countSpaceWait
  repeat' with_reducible first
    | exact Keeps.refl _ _ | assumption | refine Keeps.ite ?_ ?_ | refine incSat_keeps ?_ | refine forS_keeps ?_ ?_ | intro _ | split

theorem tickEnd_keeps {U : Nat} {s₀ : State} {s : State} (hk : Keeps U s₀ s) (hT : 0x18000000000000000002000000000000000000000000000000021 ||| U = U := by decide) : Keeps U s₀ (tickEnd s) := by
  refine Keeps.step ?_ hT hk
  clear hk hT; unfold tickEnd
  repeat' with_reducible first
    | exact Keeps.refl _ _ | assumption | refine Keeps.ite ?_ ?_ | refine setEng_keeps ?_ | refine addWrap_keeps ?_ | refine forS_keeps ?_ ?_
    | dsimp only | intro _ | split

theorem dispatchDecision_keeps {U : Nat} {s₀ : State} {s : State} (hk : Keeps U s₀ s) (hT : 0x800200000000000000000000000000000000000000000000000000000000000000000000000000000000000000000000000018180006fc080000f002000000000000000000000000000006021 ||| U = U := by decide) : Keeps U s₀ (dispatchDecision s) := by
  refine Keeps.step ?_ hT hk
  clear hk hT; unfold dispatchDecision
  repeat' with_reducible first
    | exact Keeps.refl _ _ | assumption
    | refine takeShares_keeps ?_ | refine Keeps.ite ?_ ?_ | refine tickEnd_keeps ?_ | refine countSpaceWait_keeps ?_
    | refine releaseDue_keeps ?_ | refine decide__keeps ?_ | refine setSharesAct_keeps ?_ | refine serveWaiting_keeps ?_ | refine settle_keeps ?_
    | dsimp only
    | (constructor <;> first | exact fun _ => rfl | exact fun _ _ => rfl | exact rfl | exact List.prefix_refl _ | exact Nat.le_refl _ | exact fun w => w | exact fun _ _ w => w | exact fun h => absurd h (by decide) | exact fun _ => ⟨fun _ _ => ⟨fun w => w, fun w => w⟩⟩)
    | refine Keeps.setLcs ⟨rfl, rfl⟩ ?_ | intro _ | split

theorem dropStaged_keeps {U : Nat} {s₀ : State} {c : Car} {s : State} (hk : Keeps U s₀ s) (hT : 32 ||| U = U := by decide) : Keeps U s₀ (dropStaged c s) := by
  refine Keeps.step ?_ hT hk
  clear hk hT; unfold dropStaged
  repeat' with_reducible first
    | exact Keeps.refl _ _ | assumption | refine Keeps.ite ?_ ?_ | refine setFur_keeps ?_ | refine forS_keeps ?_ ?_ | dsimp only | intro _ | split

theorem freeEng_keeps {U : Nat} {s₀ : State} {e : Nat} {s : State} (hk : Keeps U s₀ s) (hT : 32 ||| U = U := by decide) : Keeps U s₀ (freeEng e s) := by
  refine Keeps.step ?_ hT hk
  clear hk hT; unfold freeEng
  repeat' with_reducible first
    | exact Keeps.refl _ _ | assumption | refine Keeps.ite ?_ ?_ | refine setEng_keeps ?_ | dsimp only | intro _
    | (constructor <;> first | exact fun _ => rfl | exact fun _ _ => rfl | exact rfl | exact List.prefix_refl _ | exact Nat.le_refl _ | exact fun w => w | exact fun _ _ w => w | exact fun h => absurd h (by decide) | exact fun _ => ⟨fun _ _ => ⟨fun w => w, fun w => w⟩⟩)
    | refine Keeps.setPat ?_ | split

theorem withdrawSite_keeps {U : Nat} {s₀ : State} {i : Nat} {notify : Bool} {s : State} (hk : Keeps U s₀ s) (hT : 0x3830000078800200000800400000000000000000000000000000000000000000000000000000000000000000000000000000000000000000000002fc0000000000000000000000000000000000000004025 ||| U = U := by decide) : Keeps U s₀ (withdrawSite i notify s) := by
  refine Keeps.step ?_ hT hk
  clear hk hT; unfold withdrawSite
  repeat' with_reducible first
    | exact Keeps.refl _ _ | assumption | refine heldOver_keeps ?_ | refine Keeps.ite ?_ ?_ | refine freeEng_keeps ?_ | refine dropStaged_keeps ?_
    | refine serveWaiting_keeps ?_ | refine notifyDone_keeps ?_ | refine setRoute_keeps ?_ | refine setLive_keeps ?_ | refine forS_keeps ?_ ?_
    | split | intro _ | dsimp only
    | (constructor <;> first | exact fun _ => rfl | exact fun _ _ => rfl | exact rfl | exact List.prefix_refl _ | exact Nat.le_refl _ | exact fun w => w | exact fun _ _ w => w | exact fun h => absurd h (by decide) | exact fun _ => ⟨fun _ _ => ⟨fun w => w, fun w => w⟩⟩)
    | refine Keeps.setPat ?_

theorem quarantine_keeps {U : Nat} {s₀ : State} {e : Nat} {s : State} (hk : Keeps U s₀ s) (hT : 0x383000006880020000000000000000000000000000000000000000000000000000000000000000000000000000000000000000000000000000000000100000f000000000000000000000000000000004025 ||| U = U := by decide) : Keeps U s₀ (quarantine e s) := by
  refine Keeps.step ?_ hT hk
  clear hk hT; unfold quarantine
  repeat' with_reducible first
    | exact Keeps.refl _ _ | assumption
    | refine refitShares_keeps ?_ | refine setSharesAct_keeps ?_ | refine setEng_keeps ?_ | refine fltEvent_keeps ?_ | refine raiseInt_keeps ?_
    | refine incSat_keeps ?_ | dsimp only
    | intro _

theorem requeue_keeps {U : Nat} {s₀ : State} {e : Nat} {s : State} (hk : Keeps U s₀ s) (hT : 0x3830000078800200000000000000000000000000000000000000000000000000000000000000000000000000000000000000000000000000000000000000000000000000000000000000000000000004025 ||| U = U := by decide) : Keeps U s₀ (requeue e s) := by
  refine Keeps.step ?_ hT hk
  clear hk hT; unfold requeue
  repeat' with_reducible first
    | exact Keeps.refl _ _ | assumption | refine Keeps.ite ?_ ?_ | refine freeEng_keeps ?_ | refine dropStaged_keeps ?_ | refine setRoute_keeps ?_
    | refine setLiveInt_keeps ?_ | dsimp only | intro _ | split

theorem machineCheck_keeps {U : Nat} {s₀ : State} {e cause : Nat} {s : State} (hk : Keeps U s₀ s) (hT : 0x38300000788002000000000000000000000000000000000000000000000000000000000000000000000000000000000000000000000000460000000017a000f000000000000000000000000000000004025 ||| U = U := by decide) : Keeps U s₀ (machineCheck e cause s) := by
  refine Keeps.step ?_ hT hk
  clear hk hT; unfold machineCheck
  repeat' with_reducible first
    | exact Keeps.refl _ _ | assumption
    | refine setLiveInt_keeps ?_ | refine Keeps.ite ?_ ?_ | refine requeue_keeps ?_ | refine quarantine_keeps ?_ | refine settle_keeps ?_
    | refine setEng_keeps ?_ | refine fltEvent_keeps ?_ | refine raiseInt_keeps ?_ | refine orBits_keeps ?_ | refine incSat_keeps ?_
    | refine wrs_keeps ?_ | refine wr_keeps ?_ | dsimp only | intro _ | split

theorem poolRead_keeps {U : Nat} {s₀ : State} {m : Nat} {s : State} (hk : Keeps U s₀ s) (hT : 16416 ||| U = U := by decide) : Keeps U s₀ (poolRead m s) := by
  refine Keeps.step ?_ hT hk
  clear hk hT; unfold poolRead
  repeat' with_reducible first
    | exact Keeps.refl _ _ | assumption | refine Keeps.ite ?_ ?_ | refine settle_keeps ?_ | refine emit_keeps ?_ | dsimp only | split
    | (constructor <;> first | exact fun _ => rfl | exact fun _ _ => rfl | exact rfl | exact List.prefix_refl _ | exact Nat.le_refl _ | exact fun w => w | exact fun _ _ w => w | exact fun h => absurd h (by decide) | exact fun _ => ⟨fun _ _ => ⟨fun w => w, fun w => w⟩⟩)
    | refine Keeps.setPat ?_

theorem shareEffect_keeps {U : Nat} {s₀ : State} {word : Nat} {s : State} (hk : Keeps U s₀ s) (hT : 0x3830000068800200000000000000000000000000000000000000000000000000000000000000000000000000000000000000000000000000000000000000000f00000000000000000000000000000004005 ||| U = U := by decide) : Keeps U s₀ (shareEffect word s) := by
  refine Keeps.step ?_ hT hk
  clear hk hT; unfold shareEffect
  repeat' with_reducible first
    | exact Keeps.refl _ _ | assumption | refine Keeps.ite ?_ ?_ | refine fltEvent_keeps ?_ | refine wrs_keeps ?_ | dsimp only | intro _ | split

theorem execFirmwareSubmission_keeps {raw : Nat} {s : State} {t' : State} (hx : execFirmwareSubmission raw s = .next t') :
    Keeps 0x80020000000000000000000000000000000000000000000000000000000000000000000000000000000000000000000000000000000afc0000000000000000000000000000000000000004021 s t' := by
  unfold execFirmwareSubmission at hx; obtain rfl := Host.Outcome.next.inj hx
  repeat' with_reducible first
    | exact Keeps.refl _ _ | assumption | refine firmwareSubmit_keeps ?_ | refine settle_keeps ?_

theorem execDescriptorFetch_keeps {n d raw : Nat} {s : State} {t' : State} (hx : execDescriptorFetch n d raw s = .next t') :
    Keeps 0x800200004c0000000000000000000000000000000000000000000000000000000000000000000000000000000000000000000000000afc0000000000000000000000000000000000000004021 s t' := by
  unfold execDescriptorFetch at hx; obtain rfl := Host.Outcome.next.inj hx
  repeat' with_reducible first
    | exact Keeps.refl _ _ | assumption | refine descFetch_keeps ?_ | refine settle_keeps ?_

theorem execDispatchDecision_keeps {s : State} {t' : State} (hx : execDispatchDecision s = .next t') :
    Keeps 0x800200000000000000000000000000000000000000000000000000000000000000000000000000000000000000000000000018180006fc080000f002000000000000000000000000000006021 s t' := by
  unfold execDispatchDecision at hx; obtain rfl := Host.Outcome.next.inj hx
  repeat' with_reducible first
    | exact Keeps.refl _ _ | assumption | refine dispatchDecision_keeps ?_

theorem execMachineCheck_keeps {e cause : Nat} {s : State} {t' : State} (hx : execMachineCheck e cause s = .next t') :
    Keeps 0x38300000788002000000000000000000000000000000000000000000000000000000000000000000000000000000000000000000000000460000000017a000f000000000000000000000000000000004025 s t' := by
  unfold execMachineCheck at hx; obtain rfl := Host.Outcome.next.inj hx
  repeat' with_reducible first
    | exact Keeps.refl _ _ | assumption | refine machineCheck_keeps ?_

theorem execMcHang_keeps {e : Nat} {s : State} {t' : State} (hx : execMcHang e s = .next t') :
    Keeps 0x38300000788002000000000000000000000000000000000000000000000000000000000000000000000000000000000000000000000000460000000017a000f000000000000000000000000000000004025 s t' := by
  unfold execMcHang at hx; obtain rfl := Host.Outcome.next.inj hx
  repeat' with_reducible first
    | exact Keeps.refl _ _ | assumption | refine Keeps.ite ?_ ?_ | refine machineCheck_keeps ?_ | split

theorem csHoldEnds_keeps {U : Nat} {s₀ : State} {k : Nat} {s : State} (hk : Keeps U s₀ s) (hT : 0x3830000078800200000000000000000000000000000000000000000000000000000000000000000000000000000000000000000000000000000000000020000000000000000000000000000000000004005 ||| U = U := by decide) : Keeps U s₀ (csHoldEnds k s) := by
  refine Keeps.step ?_ hT hk
  clear hk hT; unfold csHoldEnds
  repeat' with_reducible first
    | exact Keeps.refl _ _ | assumption
    | refine forS_keeps ?_ ?_ | refine setLive_keeps ?_ | refine wr_keeps ?_ | dsimp only | intro _

theorem execCsRewriteDone_keeps {k : Nat} {s : State} {t' : State} (hx : execCsRewriteDone k s = .next t') :
    Keeps 0x3830000078800200000000000000000000000000000000000000000000000000000000000000000000000000000000000000000000000000000000000020000000000000000000000000000000000004005 s t' := by
  unfold execCsRewriteDone at hx; obtain rfl := Host.Outcome.next.inj hx
  repeat' with_reducible first
    | exact Keeps.refl _ _ | assumption
    | refine csHoldEnds_keeps ?_ | refine wr_keeps ?_
    | dsimp only | intro _

theorem execPoolCountRead_keeps {m : Nat} {s : State} {t' : State} (hx : execPoolCountRead m s = .next t') :
    Keeps (busMask ||| 16416) s t' := by
  unfold execPoolCountRead at hx; obtain rfl := Host.Outcome.next.inj hx
  repeat' with_reducible first
    | exact Keeps.refl _ _ | assumption
    | refine takeIn_keeps ?_ ?_ | refine poolRead_keeps ?_
    | dsimp only | intro _

theorem execDisShareWrite_keeps {m word : Nat} {s : State} {t' : State} (hx : execDisShareWrite m word s = .next t') :
    Keeps (busMask ||| parMask ||| 0x3830000078a00200000000140000000000000000000000000000000000000000000000000000000000000000000000000000040000000000000000000000000f00000070000080000000000000000004055) s t' := by
  unfold execDisShareWrite at hx; obtain rfl := Host.Outcome.next.inj hx
  repeat' with_reducible first
    | exact Keeps.refl _ _ | assumption
    | refine takeIn_keeps ?_ ?_ | refine shareEffect_keeps ?_ | refine asWriter_keeps ?_ ?_ | intro _
    | dsimp only

end Sys2Proof.Machine
end

