-- ==== Sys2Proof/Laws/Time.lean ====
section
/-! SUPPORT. What the operations and commands of Machine/Time.lean keep, and the components of the state they may write (Laws/Keeps.lean). -/

set_option exponentiation.threshold 2000

set_option Elab.async false

namespace Sys2Proof.Machine

open Sys2Proof

theorem srcOk_mask {U : Nat} {src : Nat} (h : 0x7000001 ||| U = U) : fldMask (srcOk src) ||| U = U := by
  refine sub_trans ?_ h
  unfold srcOk
  repeat' split
  all_goals decide

theorem tbSet_keeps {U : Nat} {s₀ : State} {s : State} {b t : Nat} (hk : Keeps U s₀ s) (hT : 0x3c00000009 ||| U = U := by decide) : Keeps U s₀ (tbSet s b t) := by
  refine Keeps.step ?_ hT hk
  clear hk hT; unfold tbSet
  repeat' with_reducible first
    | exact Keeps.refl _ _ | assumption | refine wrs_keeps ?_ | dsimp only
    | (constructor <;> first | exact fun _ => rfl | exact fun _ _ => rfl | exact rfl | exact List.prefix_refl _ | exact Nat.le_refl _ | exact fun w => w | exact fun _ _ w => w | exact fun h => absurd h (by decide) | exact fun _ => ⟨fun _ _ => ⟨fun w => w, fun w => w⟩⟩)
    | refine Keeps.setTim ?_

theorem setTbInc_keeps {U : Nat} {s₀ : State} {s : State} {b v : Nat} (hk : Keeps U s₀ s) (hT : 8 ||| U = U := by decide) : Keeps U s₀ (setTbInc s b v) := by
  refine Keeps.step ?_ hT hk
  clear hk hT; unfold setTbInc
  repeat' with_reducible first
    | exact Keeps.refl _ _ | assumption
    | (constructor <;> first | exact fun _ => rfl | exact fun _ _ => rfl | exact rfl | exact List.prefix_refl _ | exact Nat.le_refl _ | exact fun w => w | exact fun _ _ w => w | exact fun h => absurd h (by decide) | exact fun _ => ⟨fun _ _ => ⟨fun w => w, fun w => w⟩⟩)
    | refine Keeps.setTim ?_

theorem countTick_keeps {U : Nat} {s₀ : State} {s : State} {b : Nat} (hk : Keeps U s₀ s) (hT : 8 ||| U = U := by decide) : Keeps U s₀ (countTick s b) := by
  refine Keeps.step ?_ hT hk
  clear hk hT; unfold countTick
  repeat' with_reducible first
    | exact Keeps.refl _ _ | assumption
    | (constructor <;> first | exact fun _ => rfl | exact fun _ _ => rfl | exact rfl | exact List.prefix_refl _ | exact Nat.le_refl _ | exact fun w => w | exact fun _ _ w => w | exact fun h => absurd h (by decide) | exact fun _ => ⟨fun _ _ => ⟨fun w => w, fun w => w⟩⟩)
    | refine Keeps.setTim ?_

theorem timeRefused_keeps {U : Nat} {s₀ : State} {s : State} {p : Page} (hk : Keeps U s₀ s) (hT : 0x3830000068800200000000000000000000000000000000000000000000000000000000000000000000000000000000000000000000000000000000000000000000000000000000000000000000000004005 ||| U = U := by decide) : Keeps U s₀ (timeRefused s p) := by
  refine Keeps.step ?_ hT hk
  clear hk hT; unfold timeRefused
  repeat' with_reducible first
    | exact Keeps.refl _ _ | assumption | refine fltEvent_keeps ?_ | refine raiseInt_keeps ?_

theorem checkHoldLimit_keeps {U : Nat} {s₀ : State} {s : State} (hk : Keeps U s₀ s) (hT : 0x3830000078800200000000000000000000000000000000000000000000000000000000000000000000000000000000000000000000000000000000000000000000000000000000000000000000000004005 ||| U = U := by decide) : Keeps U s₀ (checkHoldLimit s) := by
  refine Keeps.step ?_ hT hk
  clear hk hT; unfold checkHoldLimit
  repeat' with_reducible first
    | exact Keeps.refl _ _ | assumption | refine setLiveInt_keeps ?_

theorem setSlewRate_keeps {U : Nat} {s₀ : State} {r : Option Int} {s : State} (hk : Keeps U s₀ s) (hT : 8 ||| U = U := by decide) : Keeps U s₀ (setSlewRate s r) := by
  refine Keeps.step ?_ hT hk
  clear hk hT; unfold setSlewRate
  repeat' with_reducible first
    | exact Keeps.refl _ _ | assumption
    | refine Keeps.setTim ?_ | dsimp only | intro _
    | (constructor <;> first | exact fun _ => rfl | exact fun _ _ => rfl | exact rfl | exact List.prefix_refl _ | exact Nat.le_refl _ | exact fun w => w | exact fun _ _ w => w | exact fun h => absurd h (by decide) | exact fun _ => ⟨fun _ _ => ⟨fun w => w, fun w => w⟩⟩)

theorem slewEffect_keeps {U : Nat} {s₀ : State} {s : State} (hk : Keeps U s₀ s) (hT : 8 ||| U = U := by decide) : Keeps U s₀ (slewEffect s) := by
  refine Keeps.step ?_ hT hk
  clear hk hT; unfold slewEffect
  repeat' with_reducible first
    | exact Keeps.refl _ _ | assumption
    | refine setSlewRate_keeps ?_ | refine Keeps.ite ?_ ?_ | dsimp only | intro _ | split

theorem enterHoldover_keeps {U : Nat} {s₀ : State} {s : State} {m : HoldMeas} (hk : Keeps U s₀ s) (hT : 0x3830000078800200000000000000000000000000000000000000000000000000000000000000000000000000000000000000000000000000000000000000000000000000000000000000000000098c0400d ||| U = U := by decide) : Keeps U s₀ (enterHoldover s m) := by
  refine Keeps.step ?_ hT hk
  clear hk hT; unfold enterHoldover
  repeat' with_reducible first
    | exact Keeps.refl _ _ | assumption | refine Keeps.ite ?_ ?_ | refine checkHoldLimit_keeps ?_ | refine wrs_keeps ?_ | dsimp only
    | (constructor <;> first | exact fun _ => rfl | exact fun _ _ => rfl | exact rfl | exact List.prefix_refl _ | exact Nat.le_refl _ | exact fun w => w | exact fun _ _ w => w | exact fun h => absurd h (by decide) | exact fun _ => ⟨fun _ _ => ⟨fun w => w, fun w => w⟩⟩)
    | refine Keeps.setTim ?_ | intro _ | split

theorem followSource_keeps {U : Nat} {s₀ : State} {src : Nat} {start : Option Int} {s : State} (hk : Keeps U s₀ s) (hT : 0x3830000078800200000000000000000000000000000000000000000000000000000000000000000000000000000000000000000000000000000000000000000000000000000000000000000000008e0400d ||| U = U := by decide) : Keeps U s₀ (followSource s src start) := by
  refine Keeps.step ?_ hT hk
  clear hk hT; unfold followSource
  repeat' with_reducible first
    | exact Keeps.refl _ _ | assumption
    | refine Keeps.ite ?_ ?_ | refine checkHoldLimit_keeps ?_ | refine setLive_keeps ?_ | refine wrs_keeps ?_ | dsimp only
    | (constructor <;> first | exact fun _ => rfl | exact fun _ _ => rfl | exact rfl | exact List.prefix_refl _ | exact Nat.le_refl _ | exact fun w => w | exact fun _ _ w => w | exact fun h => absurd h (by decide) | exact fun _ => ⟨fun _ _ => ⟨fun w => w, fun w => w⟩⟩)
    | refine Keeps.setTim ?_
    | intro _ | split

theorem refLossEffect_keeps {U : Nat} {s₀ : State} {src : Nat} {m : HoldMeas} {s : State} (hk : Keeps U s₀ s) (hT : 0x383000007880020000000000000000000000000000000000000000000000000000000000000000000000000000000000000000000000000000000000000000000000000000000000000000000009fc0400d ||| U = U := by decide) : Keeps U s₀ (refLossEffect src m s) := by
  refine Keeps.step ?_ hT hk
  clear hk hT; unfold refLossEffect
  repeat' with_reducible first
    | exact Keeps.refl _ _ | assumption | refine Keeps.ite ?_ ?_ | refine wrb_keeps ?_ (srcOk_mask (by decide)) | refine enterHoldover_keeps ?_
    | refine setLiveInt_keeps ?_ | refine wrb_keeps ?_ | dsimp only | split
    | (constructor <;> first | exact fun _ => rfl | exact fun _ _ => rfl | exact rfl | exact List.prefix_refl _ | exact Nat.le_refl _ | exact fun w => w | exact fun _ _ w => w | exact fun h => absurd h (by decide) | exact fun _ => ⟨fun _ _ => ⟨fun w => w, fun w => w⟩⟩)
    | refine Keeps.setTim ?_

theorem sourceQualifiedEffect_keeps {U : Nat} {s₀ : State} {src : Nat} {s : State} (hk : Keeps U s₀ s) (hT : 0x383000007880020000000000000000000000000000000000000000000000000000000000000000000000000000000000000000000000000000000000000000000000000000000000000000000000fe0400d ||| U = U := by decide) : Keeps U s₀ (sourceQualifiedEffect src s) := by
  refine Keeps.step ?_ hT hk
  clear hk hT; unfold sourceQualifiedEffect
  repeat' with_reducible first
    | exact Keeps.refl _ _ | assumption | refine Keeps.ite ?_ ?_ | refine wrb_keeps ?_ (srcOk_mask (by decide)) | refine followSource_keeps ?_
    | refine setLive_keeps ?_ | refine raiseInt_keeps ?_ | refine wrb_keeps ?_ | dsimp only | intro _ | split

theorem refSelectEffect_keeps {U : Nat} {s₀ : State} {word : Nat} {meas : HoldMeas} {s : State} (hk : Keeps U s₀ s) (hT : 0x3830000078800200000000000000000000000000000000000000000000000000000000000000000000000000000000000000000000000000000000000000000000000000000000000000000000098fe400d ||| U = U := by decide) : Keeps U s₀ (refSelectEffect word meas s) := by
  refine Keeps.step ?_ hT hk
  clear hk hT; unfold refSelectEffect
  repeat' with_reducible first
    | exact Keeps.refl _ _ | assumption | refine Keeps.ite ?_ ?_ | refine followSource_keeps ?_ | refine enterHoldover_keeps ?_
    | refine timeRefused_keeps ?_ | refine wrs_keeps ?_ | dsimp only | split
    | (constructor <;> first | exact fun _ => rfl | exact fun _ _ => rfl | exact rfl | exact List.prefix_refl _ | exact Nat.le_refl _ | exact fun w => w | exact fun _ _ w => w | exact fun h => absurd h (by decide) | exact fun _ => ⟨fun _ _ => ⟨fun w => w, fun w => w⟩⟩)
    | refine Keeps.setTim ?_

theorem holdEstEffect_keeps {U : Nat} {s₀ : State} {s : State} (hk : Keeps U s₀ s) (hT : 0x383000007880020000000000000000000000000000000000000000000000000000000000000000000000000000000000000000000000000000000000000000000000000000000000000000000001800400d ||| U = U := by decide) : Keeps U s₀ (holdEstEffect s) := by
  refine Keeps.step ?_ hT hk
  clear hk hT; unfold holdEstEffect
  repeat' with_reducible first
    | exact Keeps.refl _ _ | assumption | refine Keeps.ite ?_ ?_ | refine checkHoldLimit_keeps ?_ | refine incSat_keeps ?_ | refine wr_keeps ?_
    | dsimp only | split
    | (constructor <;> first | exact fun _ => rfl | exact fun _ _ => rfl | exact rfl | exact List.prefix_refl _ | exact Nat.le_refl _ | exact fun w => w | exact fun _ _ w => w | exact fun h => absurd h (by decide) | exact fun _ => ⟨fun _ _ => ⟨fun w => w, fun w => w⟩⟩)
    | refine Keeps.setTim ?_

theorem setPulse_keeps {U : Nat} {s₀ : State} {s : State} {p : Nat} {x : Option Pulse} (hk : Keeps U s₀ s) (hT : 8 ||| U = U := by decide) : Keeps U s₀ (setPulse s p x) := by
  refine Keeps.step ?_ hT hk
  clear hk hT; unfold setPulse
  repeat' with_reducible first
    | exact Keeps.refl _ _ | assumption
    | (constructor <;> first | exact fun _ => rfl | exact fun _ _ => rfl | exact rfl | exact List.prefix_refl _ | exact Nat.le_refl _ | exact fun w => w | exact fun _ _ w => w | exact fun h => absurd h (by decide) | exact fun _ => ⟨fun _ _ => ⟨fun w => w, fun w => w⟩⟩)
    | refine Keeps.setTim ?_

theorem drivePulse_keeps {U : Nat} {s₀ : State} {p step : Nat} {on : Option PulseOn} {pol : Bool} {s : State} (hk : Keeps U s₀ s) (hT : 16392 ||| U = U := by decide) : Keeps U s₀ (drivePulse s p step on pol) := by
  refine Keeps.step ?_ hT hk
  clear hk hT; unfold drivePulse
  repeat' with_reducible first
    | exact Keeps.refl _ _ | assumption | refine Keeps.ite ?_ ?_ | refine emit_keeps ?_ | dsimp only | intro _
    | (constructor <;> first | exact fun _ => rfl | exact fun _ _ => rfl | exact rfl | exact List.prefix_refl _ | exact Nat.le_refl _ | exact fun w => w | exact fun _ _ w => w | exact fun h => absurd h (by decide) | exact fun _ => ⟨fun _ _ => ⟨fun w => w, fun w => w⟩⟩)
    | refine Keeps.setTim ?_ | split

theorem rescheduleOne_keeps {U : Nat} {s₀ : State} {b old new p : Nat} {s : State} (hk : Keeps U s₀ s) (hT : 0x800200000000000000000000000000000000000000000000000000000000000000000000000000000000000000000000000000000000000000000000000000000000000020000000000004009 ||| U = U := by decide) : Keeps U s₀ (rescheduleOne b old new p s) := by
  refine Keeps.step ?_ hT hk
  clear hk hT; unfold rescheduleOne
  repeat' with_reducible first
    | exact Keeps.refl _ _ | assumption | refine Keeps.ite ?_ ?_ | refine setPulse_keeps ?_ | refine raiseInt_keeps ?_ | refine incSat_keeps ?_
    | refine addSat_keeps ?_ | dsimp only | split

theorem reschedule_keeps {U : Nat} {s₀ : State} {s : State} {b old new : Nat} (hk : Keeps U s₀ s) (hT : 0x800200000000000000000000000000000000000000000000000000000000000000000000000000000000000000000000000000000000000000000000000000000000000020000000000004009 ||| U = U := by decide) : Keeps U s₀ (reschedule s b old new) := by
  refine Keeps.step ?_ hT hk
  clear hk hT; unfold reschedule
  repeat' with_reducible first
    | exact Keeps.refl _ _ | assumption | refine rescheduleOne_keeps ?_ | refine forS_keeps ?_ ?_ | intro _

theorem clearGo_keeps {U : Nat} {s₀ : State} {s : State} {b : Nat} (hk : Keeps U s₀ s) (hT : 0x1c00000000001 ||| U = U := by decide) : Keeps U s₀ (clearGo s b) := by
  refine Keeps.step ?_ hT hk
  clear hk hT; unfold clearGo
  repeat' with_reducible first
    | exact Keeps.refl _ _ | assumption | refine wrs_keeps ?_

theorem setStepFrom_keeps {U : Nat} {s₀ : State} {b : Nat} {x : Option Nat} {s : State} (hk : Keeps U s₀ s) (hT : 8 ||| U = U := by decide) : Keeps U s₀ (setStepFrom s b x) := by
  refine Keeps.step ?_ hT hk
  clear hk hT; unfold setStepFrom
  repeat' with_reducible first
    | exact Keeps.refl _ _ | assumption | refine Keeps.ite ?_ ?_ | dsimp only | intro _
    | (constructor <;> first | exact fun _ => rfl | exact fun _ _ => rfl | exact rfl | exact List.prefix_refl _ | exact Nat.le_refl _ | exact fun w => w | exact fun _ _ w => w | exact fun h => absurd h (by decide) | exact fun _ => ⟨fun _ _ => ⟨fun w => w, fun w => w⟩⟩)
    | refine Keeps.setTim ?_ | split

theorem plainTick_keeps {U : Nat} {s₀ : State} {s : State} {b : Nat} (hk : Keeps U s₀ s) (hT : 0x3c00000009 ||| U = U := by decide) : Keeps U s₀ (plainTick s b) := by
  refine Keeps.step ?_ hT hk
  clear hk hT; unfold plainTick
  repeat' with_reducible first
    | exact Keeps.refl _ _ | assumption | refine Keeps.ite ?_ ?_ | refine setStepFrom_keeps ?_ | refine tbSet_keeps ?_ | dsimp only | intro _ | split

theorem commandTick_keeps {U : Nat} {s₀ : State} {s : State} {b : Nat} (hk : Keeps U s₀ s) (hT : 0x3830000068800200000000000000000000000000000000000000000000000000000000000000000000000000000000000000000000000000000000000000000000000000000000000020001c03c0000400d ||| U = U := by decide) : Keeps U s₀ (commandTick s b) := by
  refine Keeps.step ?_ hT hk
  clear hk hT; unfold commandTick
  repeat' with_reducible first
    | exact Keeps.refl _ _ | assumption | refine setStepFrom_keeps ?_ | refine Keeps.ite ?_ ?_ | refine plainTick_keeps ?_ | refine clearGo_keeps ?_
    | refine reschedule_keeps ?_ | refine timeRefused_keeps ?_ | refine setTbInc_keeps ?_ | refine tbSet_keeps ?_ | dsimp only | intro _ | split

theorem xtalOffset_keeps {U : Nat} {s₀ : State} {s : State} (hk : Keeps U s₀ s) (hT : 0x100008001 ||| U = U := by decide) : Keeps U s₀ (xtalOffset s) := by
  refine Keeps.step ?_ hT hk
  clear hk hT; unfold xtalOffset
  repeat' with_reducible first
    | exact Keeps.refl _ _ | assumption | refine Keeps.ite ?_ ?_ | refine freeStep_keeps ?_ | refine wr_keeps ?_ | split

theorem tickEffect_keeps {U : Nat} {s₀ : State} {b : Nat} {s : State} (hk : Keeps U s₀ s) (hT : 0x3830000068800200000000000000000000000000000000000000000000000000000000000000000000000000000000000000000000000000000000000000000000000000000000000020001c03d0000c00d ||| U = U := by decide) : Keeps U s₀ (tickEffect b s) := by
  refine Keeps.step ?_ hT hk
  clear hk hT; unfold tickEffect
  repeat' with_reducible first
    | exact Keeps.refl _ _ | assumption
    | refine slewEffect_keeps ?_ | refine Keeps.ite ?_ ?_ | refine xtalOffset_keeps ?_ | refine commandTick_keeps ?_
    | refine plainTick_keeps ?_ | refine countTick_keeps ?_ | dsimp only | split
    | intro _

theorem goEffect_keeps {U : Nat} {s₀ : State} {b word : Nat} {s : State} (hk : Keeps U s₀ s) (hT : 0x3830000068800200000000000000000000000000000000000000000000000000000000000000000000000000000000000000000000000000000000000000000000000000000000000000001c00000004005 ||| U = U := by decide) : Keeps U s₀ (goEffect b word s) := by
  refine Keeps.step ?_ hT hk
  clear hk hT; unfold goEffect
  repeat' with_reducible first
    | exact Keeps.refl _ _ | assumption | refine Keeps.ite ?_ ?_ | refine timeRefused_keeps ?_ | refine wrs_keeps ?_ | split

theorem goWrite_keeps {U : Nat} {s₀ : State} {m b word : Nat} {s : State} (hk : Keeps U s₀ s) (hT : 0x3830020068800200000000000000000000000000000000000000000000000000000000000000000000000000000000000000000000000000000000000000000000000000000000000000001c00000004005 ||| U = U := by decide) : Keeps U s₀ (goWrite m b word s) := by
  refine Keeps.step ?_ hT hk
  clear hk hT; unfold goWrite
  repeat' with_reducible first
    | exact Keeps.refl _ _ | assumption | refine Keeps.ite ?_ ?_ | refine goEffect_keeps ?_ | refine writeLocked_keeps ?_ | split

theorem snapshotEffect_keeps {U : Nat} {s₀ : State} {m : Nat} {tv : TimeRef} {s : State} (hk : Keeps U s₀ s) (hT : 16392 ||| U = U := by decide) : Keeps U s₀ (snapshotEffect m tv s) := by
  refine Keeps.step ?_ hT hk
  clear hk hT; unfold snapshotEffect
  repeat' with_reducible first
    | exact Keeps.refl _ _ | assumption | refine Keeps.ite ?_ ?_ | refine emit_keeps ?_ | dsimp only | split
    | (constructor <;> first | exact fun _ => rfl | exact fun _ _ => rfl | exact rfl | exact List.prefix_refl _ | exact Nat.le_refl _ | exact fun w => w | exact fun _ _ w => w | exact fun h => absurd h (by decide) | exact fun _ => ⟨fun _ _ => ⟨fun w => w, fun w => w⟩⟩)
    | refine Keeps.setTim ?_

theorem clearSnaps_keeps {U : Nat} {s₀ : State} {s : State} {m : Nat} (hk : Keeps U s₀ s) (hT : 8 ||| U = U := by decide) : Keeps U s₀ (clearSnaps s m) := by
  refine Keeps.step ?_ hT hk
  clear hk hT; unfold clearSnaps
  repeat' with_reducible first
    | exact Keeps.refl _ _ | assumption
    | (constructor <;> first | exact fun _ => rfl | exact fun _ _ => rfl | exact rfl | exact List.prefix_refl _ | exact Nat.le_refl _ | exact fun w => w | exact fun _ _ w => w | exact fun h => absurd h (by decide) | exact fun _ => ⟨fun _ _ => ⟨fun w => w, fun w => w⟩⟩)
    | refine Keeps.setTim ?_

theorem armEffect_keeps {U : Nat} {s₀ : State} {p mode : Nat} {tbsel pol : Bool} {s : State} (hk : Keeps U s₀ s) (hT : 0x383000006880020000000000000000000000000000000000000000000000000000000000000000000000000000000000000000000000000000000000000000000000000000000000002780000000000400d ||| U = U := by decide) : Keeps U s₀ (armEffect p mode tbsel pol s) := by
  refine Keeps.step ?_ hT hk
  clear hk hT; unfold armEffect
  repeat' with_reducible first
    | exact Keeps.refl _ _ | assumption | refine drivePulse_keeps ?_ | refine Keeps.ite ?_ ?_ | refine setPulse_keeps ?_
    | refine timeRefused_keeps ?_ | refine raiseInt_keeps ?_ | refine incSat_keeps ?_ | refine wrb_keeps ?_ | refine wrs_keeps ?_ | dsimp only
    | intro _ | split

theorem disarmPulse_keeps {U : Nat} {s₀ : State} {p : Nat} {s : State} (hk : Keeps U s₀ s) (hT : 0x4800000000000009 ||| U = U := by decide) : Keeps U s₀ (disarmPulse p s) := by
  refine Keeps.step ?_ hT hk
  clear hk hT; unfold disarmPulse
  repeat' with_reducible first
    | exact Keeps.refl _ _ | assumption | refine setPulse_keeps ?_ | refine wrs_keeps ?_

theorem tpOwnerEffect_keeps {U : Nat} {s₀ : State} {word : Nat} {s : State} (hk : Keeps U s₀ s) (hT : 0x200000000000000000000000000000000000000000000000000000000000000000000000000000000000000000000000000000000000000000000000000000000000004802000000004009 ||| U = U := by decide) : Keeps U s₀ (tpOwnerEffect word s) := by
  refine Keeps.step ?_ hT hk
  clear hk hT; unfold tpOwnerEffect
  repeat' with_reducible first
    | exact Keeps.refl _ _ | assumption
    | refine reraise_keeps ?_ | refine Keeps.ite ?_ ?_ | refine disarmPulse_keeps ?_ | refine wr_keeps ?_ | refine forS_keeps ?_ ?_
    | dsimp only | intro _ | split

theorem tpFiredEffect_keeps {U : Nat} {s₀ : State} {p : Nat} {s : State} (hk : Keeps U s₀ s) (hT : 0x80020000000000000000000000000000000000000000000000000000000000000000000000000000000000000000000000000000000000000000000000000000000000001c800000000004009 ||| U = U := by decide) : Keeps U s₀ (tpFiredEffect p s) := by
  refine Keeps.step ?_ hT hk
  clear hk hT; unfold tpFiredEffect
  repeat' with_reducible first
    | exact Keeps.refl _ _ | assumption | refine drivePulse_keeps ?_ | refine Keeps.ite ?_ ?_ | refine setPulse_keeps ?_ | refine raiseInt_keeps ?_
    | refine incWrap_keeps ?_ | refine wrb_keeps ?_ | refine wrs_keeps ?_ | dsimp only | intro _ | split

theorem driftEffect_keeps {U : Nat} {s₀ : State} {n i : Nat} {s : State} (hk : Keeps U s₀ s) (hT : 0x400000000000001 ||| U = U := by decide) : Keeps U s₀ (driftEffect n i s) := by
  refine Keeps.step ?_ hT hk
  clear hk hT; unfold driftEffect
  repeat' with_reducible first
    | exact Keeps.refl _ _ | assumption | refine wr_keeps ?_ | dsimp only

theorem execRefLoss_keeps {src : Nat} {meas : HoldMeas} {s : State} {t' : State} (hx : execRefLoss src meas s = .next t') :
    Keeps 0x383000007880020000000000000000000000000000000000000000000000000000000000000000000000000000000000000000000000000000000000000000000000000000000000000000000009fc0400d s t' := by
  unfold execRefLoss at hx; obtain rfl := Host.Outcome.next.inj hx
  repeat' with_reducible first
    | exact Keeps.refl _ _ | assumption | refine refLossEffect_keeps ?_

theorem execXtalFail_keeps {s : State} {t' : State} (hx : execXtalFail s = .next t') :
    Keeps 0x3830000078800200000000000000000000000000000000000000000000000000000000000000000000000000000000000000000000000000000000000000000000000000000000000000000000004004005 s t' := by
  unfold execXtalFail at hx; obtain rfl := Host.Outcome.next.inj hx
  repeat' with_reducible first
    | exact Keeps.refl _ _ | assumption | refine setLiveInt_keeps ?_ | refine wrb_keeps ?_

theorem execSourceQualified_keeps {src : Nat} {s : State} {t' : State} (hx : execSourceQualified src s = .next t') :
    Keeps 0x383000007880020000000000000000000000000000000000000000000000000000000000000000000000000000000000000000000000000000000000000000000000000000000000000000000000fe0400d s t' := by
  unfold execSourceQualified at hx; obtain rfl := Host.Outcome.next.inj hx
  repeat' with_reducible first
    | exact Keeps.refl _ _ | assumption | refine sourceQualifiedEffect_keeps ?_

theorem execRefSelectWrite_keeps {m word : Nat} {meas : HoldMeas} {s : State} {t' : State} (hx : execRefSelectWrite m word meas s = .next t') :
    Keeps (busMask ||| parMask ||| 0x3830000078a00200000000140000000000000000000000000000000000000000000000000000000000000000000000000000040000000000000000000000000000000070000080000000000000098fe405d) s t' := by
  unfold execRefSelectWrite at hx; obtain rfl := Host.Outcome.next.inj hx
  repeat' with_reducible first
    | exact Keeps.refl _ _ | assumption
    | refine takeIn_keeps ?_ ?_ | refine refSelectEffect_keeps ?_ | refine asWriter_keeps ?_ ?_ | intro _
    | dsimp only

theorem slewDone_keeps {U : Nat} {s₀ : State} {s : State} (hk : Keeps U s₀ s) (hT : 0x800009 ||| U = U := by decide) : Keeps U s₀ (slewDone s) := by
  refine Keeps.step ?_ hT hk
  clear hk hT; unfold slewDone
  repeat' with_reducible first
    | exact Keeps.refl _ _ | assumption
    | refine setSlewRate_keeps ?_ | refine wrb_keeps ?_ | refine Keeps.ite ?_ ?_ | dsimp only | intro _ | split

theorem execRefSlewDone_keeps {s : State} {t' : State} (hx : execRefSlewDone s = .next t') :
    Keeps 0x800009 s t' := by
  unfold execRefSlewDone at hx; obtain rfl := Host.Outcome.next.inj hx
  repeat' with_reducible first
    | exact Keeps.refl _ _ | assumption
    | refine slewDone_keeps ?_ | refine wrb_keeps ?_
    | dsimp only | intro _

theorem execHoldEstUpdate_keeps {s : State} {t' : State} (hx : execHoldEstUpdate s = .next t') :
    Keeps 0x383000007880020000000000000000000000000000000000000000000000000000000000000000000000000000000000000000000000000000000000000000000000000000000000000000000001800400d s t' := by
  unfold execHoldEstUpdate at hx; obtain rfl := Host.Outcome.next.inj hx
  repeat' with_reducible first
    | exact Keeps.refl _ _ | assumption | refine holdEstEffect_keeps ?_

theorem execTimeBaseTick_keeps {b : Nat} {s : State} {t' : State} (hx : execTimeBaseTick b s = .next t') :
    Keeps 0x3830000068800200000000000000000000000000000000000000000000000000000000000000000000000000000000000000000000000000000000000000000000000000000000000020001c03d0000c00d s t' := by
  unfold execTimeBaseTick at hx; obtain rfl := Host.Outcome.next.inj hx
  repeat' with_reducible first
    | exact Keeps.refl _ _ | assumption | refine tickEffect_keeps ?_

theorem execIncGo_keeps {m b word : Nat} {s : State} {t' : State} (hx : execIncGo m b word s = .next t') :
    Keeps (busMask ||| parMask ||| 0x3830020078a00200000000140000000000000000000000000000000000000000000000000000000000000000000000000000040000000000000000000000000000000070000080000000001c00000004055) s t' := by
  unfold execIncGo at hx; obtain rfl := Host.Outcome.next.inj hx
  repeat' with_reducible first
    | exact Keeps.refl _ _ | assumption
    | refine takeIn_keeps ?_ ?_ | refine goWrite_keeps ?_ | refine asWriter_keeps ?_ ?_ | intro _
    | dsimp only

theorem execAdjGo_keeps {m b word : Nat} {s : State} {t' : State} (hx : execAdjGo m b word s = .next t') :
    Keeps (busMask ||| parMask ||| 0x3830020078a00200000000140000000000000000000000000000000000000000000000000000000000000000000000000000040000000000000000000000000000000070000080000000001c00000004055) s t' := by
  unfold execAdjGo at hx; obtain rfl := Host.Outcome.next.inj hx
  repeat' with_reducible first
    | exact Keeps.refl _ _ | assumption
    | refine takeIn_keeps ?_ ?_ | refine goWrite_keeps ?_ | refine asWriter_keeps ?_ ?_ | intro _
    | dsimp only

theorem execSetGo_keeps {m b word : Nat} {s : State} {t' : State} (hx : execSetGo m b word s = .next t') :
    Keeps (busMask ||| parMask ||| 0x3830020078a00200000000140000000000000000000000000000000000000000000000000000000000000000000000000000040000000000000000000000000000000070000080000000001c00000004055) s t' := by
  unfold execSetGo at hx; obtain rfl := Host.Outcome.next.inj hx
  repeat' with_reducible first
    | exact Keeps.refl _ _ | assumption
    | refine takeIn_keeps ?_ ?_ | refine goWrite_keeps ?_ | refine asWriter_keeps ?_ ?_ | intro _
    | dsimp only

theorem execTimeCommandApply_keeps {b : Nat} {s : State} {t' : State} (hx : execTimeCommandApply b s = .next t') :
    Keeps 0x3830000068800200000000000000000000000000000000000000000000000000000000000000000000000000000000000000000000000000000000000000000000000000000000000020001c03d0000c00d s t' := by
  unfold execTimeCommandApply at hx; obtain rfl := Host.Outcome.next.inj hx
  repeat' with_reducible first
    | exact Keeps.refl _ _ | assumption | refine Keeps.ite ?_ ?_ | refine tickEffect_keeps ?_ | split

theorem execTimeSnapshotRead_keeps {m : Nat} {tv : TimeRef} {s : State} {t' : State} (hx : execTimeSnapshotRead m tv s = .next t') :
    Keeps (busMask ||| 16392) s t' := by
  unfold execTimeSnapshotRead at hx; obtain rfl := Host.Outcome.next.inj hx
  repeat' with_reducible first
    | exact Keeps.refl _ _ | assumption
    | refine takeIn_keeps ?_ ?_ | refine snapshotEffect_keeps ?_
    | dsimp only | intro _

theorem execTpArmOnce_keeps {m p : Nat} {tbsel pol : Bool} {s : State} {t' : State} (hx : execTpArmOnce m p tbsel pol s = .next t') :
    Keeps (busMask ||| parMask ||| 0x3830000078a0020000000014000000000000000000000000000000000000000000000000000000000000000000000000000004000000000000000000000000000000007000008000002780000000000405d) s t' := by
  unfold execTpArmOnce at hx; obtain rfl := Host.Outcome.next.inj hx
  repeat' with_reducible first
    | exact Keeps.refl _ _ | assumption
    | refine takeIn_keeps ?_ ?_ | refine armEffect_keeps ?_ | refine asWriter_keeps ?_ ?_ | intro _
    | dsimp only

theorem execTpArmPeriodic_keeps {m p : Nat} {tbsel pol : Bool} {s : State} {t' : State} (hx : execTpArmPeriodic m p tbsel pol s = .next t') :
    Keeps (busMask ||| parMask ||| 0x3830000078a0020000000014000000000000000000000000000000000000000000000000000000000000000000000000000004000000000000000000000000000000007000008000002780000000000405d) s t' := by
  unfold execTpArmPeriodic at hx; obtain rfl := Host.Outcome.next.inj hx
  repeat' with_reducible first
    | exact Keeps.refl _ _ | assumption
    | refine takeIn_keeps ?_ ?_ | refine armEffect_keeps ?_ | refine asWriter_keeps ?_ ?_ | intro _
    | dsimp only

theorem safePulse_keeps {U : Nat} {s₀ : State} {p : Nat} {s : State} (hk : Keeps U s₀ s) (hT : 0xc800000000004009 ||| U = U := by decide) : Keeps U s₀ (safePulse p s) := by
  refine Keeps.step ?_ hT hk
  clear hk hT; unfold safePulse
  repeat' with_reducible first
    | exact Keeps.refl _ _ | assumption
    | refine disarmPulse_keeps ?_ | refine wrb_keeps ?_ | refine drivePulse_keeps ?_ | refine Keeps.ite ?_ ?_ | dsimp only | intro _ | split

theorem execTpDisarm_keeps {m p : Nat} {tbsel pol : Bool} {s : State} {t' : State} (hx : execTpDisarm m p tbsel pol s = .next t') :
    Keeps (busMask ||| parMask ||| 0x3830000078a0020000000014000000000000000000000000000000000000000000000000000000000000000000000000000004000000000000000000000000000000007000008000000780000000000405d) s t' := by
  unfold execTpDisarm at hx; obtain rfl := Host.Outcome.next.inj hx
  repeat' with_reducible first
    | exact Keeps.refl _ _ | assumption
    | refine takeIn_keeps ?_ ?_ | refine disarmPulse_keeps ?_ | refine asWriter_keeps ?_ ?_ | refine wrs_keeps ?_ | intro _
    | dsimp only

theorem execTpOwnerWrite_keeps {m word : Nat} {s : State} {t' : State} (hx : execTpOwnerWrite m word s = .next t') :
    Keeps (busMask ||| parMask ||| 0x3830000078a0020000000014000000000000000000000000000000000000000000000000000000000000000000000000000004000000000000000000000000000000007000008000000480200000000405d) s t' := by
  unfold execTpOwnerWrite at hx; obtain rfl := Host.Outcome.next.inj hx
  repeat' with_reducible first
    | exact Keeps.refl _ _ | assumption
    | refine takeIn_keeps ?_ ?_ | refine tpOwnerEffect_keeps ?_ | refine asWriter_keeps ?_ ?_ | intro _
    | dsimp only

theorem execTpFired_keeps {p : Nat} {s : State} {t' : State} (hx : execTpFired p s = .next t') :
    Keeps 0x80020000000000000000000000000000000000000000000000000000000000000000000000000000000000000000000000000000000000000000000000000000000000001c800000000004009 s t' := by
  unfold execTpFired at hx; obtain rfl := Host.Outcome.next.inj hx
  repeat' with_reducible first
    | exact Keeps.refl _ _ | assumption | refine tpFiredEffect_keeps ?_

theorem tpWidthEnd_keeps {U : Nat} {s₀ : State} {p : Nat} {s : State} (hk : Keeps U s₀ s) (hT : 0x8000000000004009 ||| U = U := by decide) : Keeps U s₀ (tpWidthEnd p s) := by
  refine Keeps.step ?_ hT hk
  clear hk hT; unfold tpWidthEnd
  repeat' with_reducible first
    | exact Keeps.refl _ _ | assumption | refine Keeps.ite ?_ ?_ | refine drivePulse_keeps ?_ | refine wrb_keeps ?_ | dsimp only | intro _ | split

theorem execTpWidthEnd_keeps {p : Nat} {s : State} {t' : State} (hx : execTpWidthEnd p s = .next t') :
    Keeps 0x8000000000004009 s t' := by
  unfold execTpWidthEnd at hx; obtain rfl := Host.Outcome.next.inj hx
  repeat' with_reducible first
    | exact Keeps.refl _ _ | assumption | refine Keeps.ite ?_ ?_ | refine tpWidthEnd_keeps ?_ | refine wrb_keeps ?_ | dsimp only | intro _ | split

end Sys2Proof.Machine
end

