-- ==== Sys2Proof/Laws/Stops.lean ====
section
/-! SUPPORT. What the operations and commands of Machine/Stops.lean keep, and the components of the state they may write (Laws/Keeps.lean). -/

set_option exponentiation.threshold 2000

set_option Elab.async false

namespace Sys2Proof.Machine

open Sys2Proof

theorem gapEnd_keeps {U : Nat} {s₀ : State} {i : Nat} {s : State} (hk : Keeps U s₀ s) (hT : 0xf000000000000000000000000000000000000000000000000000000000021 ||| U = U := by decide) : Keeps U s₀ (gapEnd i s) := by
  refine Keeps.step ?_ hT hk
  clear hk hT; unfold gapEnd
  repeat' with_reducible first
    | exact Keeps.refl _ _ | assumption | refine setSite_keeps ?_ | refine addWrap_keeps ?_ | refine incSat_keeps ?_ | refine wrs_keeps ?_
    | refine forS_keeps ?_ ?_ | dsimp only | intro _ | split

theorem unbindRings_keeps {U : Nat} {s₀ : State} {i : Nat} {s : State} (hk : Keeps U s₀ s) (hT : 0x14000000000000000000000000000000000000000000000000000000000000000000000000000000000000000000000000000000000000000000000000000000000000000000000000001 ||| U = U := by decide) : Keeps U s₀ (unbindRings i s) := by
  refine Keeps.step ?_ hT hk
  clear hk hT; unfold unbindRings
  repeat' with_reducible first
    | exact Keeps.refl _ _ | assumption | refine wrs_keeps ?_ | refine forS_keeps ?_ ?_ | intro _

theorem furrowsStop_keeps {U : Nat} {s₀ : State} {i : Nat} {s : State} (hk : Keeps U s₀ s) (hT : 32 ||| U = U := by decide) : Keeps U s₀ (furrowsStop i s) := by
  refine Keeps.step ?_ hT hk
  clear hk hT; unfold furrowsStop
  repeat' with_reducible first
    | exact Keeps.refl _ _ | assumption | refine setFur_keeps ?_ | refine forS_keeps ?_ ?_ | intro _

theorem sitePinsSafe_keeps {U : Nat} {s₀ : State} {i : Nat} {s : State} (hk : Keeps U s₀ s) (hT : 0x800000000000000000000000000000000000000000000000000000000000000000000000000000000000000000041 ||| U = U := by decide) : Keeps U s₀ (sitePinsSafe i s) := by
  refine Keeps.step ?_ hT hk
  clear hk hT; unfold sitePinsSafe
  repeat' with_reducible first
    | exact Keeps.refl _ _ | assumption | refine Keeps.ite ?_ ?_ | refine dropJudging_keeps ?_ | refine discardStrobes_keeps ?_
    | refine pinsSafe_keeps ?_ | dsimp only | intro _ | split

theorem stopSite_keeps {U : Nat} {s₀ : State} {i : Nat} {l : List Nat} {cut notify : Bool} {s : State} (hk : Keeps U s₀ s) (hT : 0x38300000788002140008004000000000000000000000000000000000000000000000009f0000000000700000000f0160000010f000000000000002fc0000000000150000000000000000500000000004065 ||| U = U := by decide) : Keeps U s₀ (stopSite i l cut notify s) := by
  refine Keeps.step ?_ hT hk
  clear hk hT; unfold stopSite
  repeat' with_reducible first
    | exact Keeps.refl _ _ | assumption | refine Keeps.ite ?_ ?_ | refine sitePinsSafe_keeps ?_ | refine furrowsStop_keeps ?_
    | refine unbindRings_keeps ?_ | refine gapEnd_keeps ?_ | refine withdrawSite_keeps ?_ | refine pecSiteStop_keeps ?_
    | refine finishVector_keeps ?_ | refine cmpSiteStop_keeps ?_ | refine acqSiteStop_keeps ?_ | refine enterState_keeps ?_ | refine setSite_keeps ?_
    | refine driftEffect_keeps ?_ | refine wrb_keeps ?_ | dsimp only | intro _ | split

theorem poisonSite_keeps {U : Nat} {s₀ : State} {i : Nat} {s : State} (hk : Keeps U s₀ s) (hT : 0x38300000788002140008004000000000000000000000000000000000000000000000009f0000000000700000000f0160000010f000000000000002fc0000000000150000000000000000500000000004065 ||| U = U := by decide) : Keeps U s₀ (poisonSite i s) := by
  refine Keeps.step ?_ hT hk
  clear hk hT; unfold poisonSite
  repeat' with_reducible first
    | exact Keeps.refl _ _ | assumption | refine Keeps.ite ?_ ?_ | refine stopSite_keeps ?_ | split

theorem safeSite_keeps {U : Nat} {s₀ : State} {i : Nat} {notify : Bool} {s : State} (hk : Keeps U s₀ s) (hT : 0x38300000788002140008004000000000000000000000000000000000000000000000009f0000000000700000000f0160000010f000000000000002fc0000000000150000000000000000500000000004065 ||| U = U := by decide) : Keeps U s₀ (safeSite i notify s) := by
  refine Keeps.step ?_ hT hk
  clear hk hT; unfold safeSite
  repeat' with_reducible first
    | exact Keeps.refl _ _ | assumption | refine Keeps.ite ?_ ?_ | refine stopSite_keeps ?_ | refine sitePinsSafe_keeps ?_
    | refine enterState_keeps ?_ | refine setSite_keeps ?_ | dsimp only | split

theorem safeBank_keeps {U : Nat} {s₀ : State} {b why : Nat} {s : State} (hk : Keeps U s₀ s) (hT : 0x38300000788002140008004000000000000000000000000000000000000000000000009f0000000000700000000f0160000014f000000000000002fc0000000000150000000000000000500000000004065 ||| U = U := by decide) : Keeps U s₀ (safeBank b why s) := by
  refine Keeps.step ?_ hT hk
  clear hk hT; unfold safeBank
  repeat' with_reducible first
    | exact Keeps.refl _ _ | assumption | refine Keeps.ite ?_ ?_ | refine discardStrobes_keeps ?_ | refine safeSite_keeps ?_
    | refine pinsSafe_keeps ?_ | refine setBankSafe_keeps ?_ | refine forS_keeps ?_ ?_ | dsimp only | intro _ | split

theorem engineUe_keeps {U : Nat} {s₀ : State} {e part blk : Nat} {s : State} (hk : Keeps U s₀ s) (hT : 0x38300000788002140008004000007f01003fc0000000000000000000000000000000009f0000000000700000000f0160000010f000000000000002fc0000000000150000000000000000500000000004265 ||| U = U := by decide) : Keeps U s₀ (engineUe e part blk s) := by
  refine Keeps.step ?_ hT hk
  clear hk hT; unfold engineUe
  repeat' with_reducible first
    | exact Keeps.refl _ _ | assumption | refine Keeps.ite ?_ ?_ | refine poisonSite_keeps ?_ | refine freeEng_keeps ?_ | refine recordUeAt_keeps ?_
    | dsimp only | split

end Sys2Proof.Machine
end

