-- ==== Sys2Proof/Laws/Patterns.lean ====
section
/-! SUPPORT. What the operations and commands of Machine/Patterns.lean keep, and the components of the state they may write (Laws/Keeps.lean). -/

set_option exponentiation.threshold 2000

set_option Elab.async false

namespace Sys2Proof.Machine

open Sys2Proof

theorem putWork_keeps {U : Nat} {s₀ : State} {e : Nat} {w : Work} {s : State} (hk : Keeps U s₀ s) (hT : 32 ||| U = U := by decide) : Keeps U s₀ (putWork e w s) := by
  refine Keeps.step ?_ hT hk
  clear hk hT; unfold putWork
  repeat' with_reducible first
    | exact Keeps.refl _ _ | assumption | refine setEng_keeps ?_

theorem patFault_keeps {U : Nat} {s₀ : State} {e code : Nat} {w : Work} {s : State} (hk : Keeps U s₀ s) (hT : 32 ||| U = U := by decide) : Keeps U s₀ (patFault e code w s) := by
  refine Keeps.step ?_ hT hk
  clear hk hT; unfold patFault
  repeat' with_reducible first
    | exact Keeps.refl _ _ | assumption | refine putWork_keeps ?_

theorem runBody_keeps {U : Nat} {s₀ : State} {e : Nat} {i : PInstr} {w : Work} {words : List Nat} {s : State} (hk : Keeps U s₀ s) (hT : 0x800281000000000000000000000000000000000000000000000000000000000000000000000000000000000000000000000000000000000000000000000000000000000000000000000004021 ||| U = U := by decide) : Keeps U s₀ (runBody e i w words s) := by
  refine Keeps.step ?_ hT hk
  clear hk hT; unfold runBody
  repeat' with_reducible first
    | exact Keeps.refl _ _ | assumption | refine putWork_keeps ?_ | refine ringUnderrun_keeps ?_ | dsimp only | split

theorem runRead_keeps {U : Nat} {s₀ : State} {e : Nat} {i : PInstr} {w : Work} {words : List Nat} {s : State} (hk : Keeps U s₀ s) (hT : 0x38300000788002950008004000007f11003fc0000000000000000000000000000000009f0000000000700000000f0160000010f000000000000002fc0000000000150000000000000000500000000004265 ||| U = U := by decide) : Keeps U s₀ (runRead e i w words s) := by
  refine Keeps.step ?_ hT hk
  clear hk hT; unfold runRead
  repeat' with_reducible first
    | exact Keeps.refl _ _ | assumption | refine Keeps.ite ?_ ?_ | refine runBody_keeps ?_ | refine engineUe_keeps ?_ | refine abortEntry_keeps ?_
    | intro _ | split

theorem fetchRun_keeps {U : Nat} {s₀ : State} {e : Nat} {i : PInstr} {w : Work} {s : State} (hk : Keeps U s₀ s) (hT : 0x38300000788002950008004000007f11003fc0000000000000000000000000000000009f0000000000700000000f0160000010f000000000000002fc0000000000150000000000000000500000000004265 ||| U = U := by decide) : Keeps U s₀ (fetchRun e i w s) := by
  refine Keeps.step ?_ hT hk
  clear hk hT; unfold fetchRun
  repeat' with_reducible first
    | exact Keeps.refl _ _ | assumption | refine Keeps.ite ?_ ?_ | refine runRead_keeps ?_ | refine patFault_keeps ?_ | refine engineUe_keeps ?_
    | dsimp only | intro _ | split

theorem runInstr_keeps {U : Nat} {s₀ : State} {e : Nat} {i : PInstr} {s : State} (hk : Keeps U s₀ s) (hT : 0x38300000788002950008004000007f11003fc0000000000000000000000000000000009f0000000000700000000f0160000010f000000000000002fc0000000000150000000000000000500000000004265 ||| U = U := by decide) : Keeps U s₀ (runInstr e i s) := by
  refine Keeps.step ?_ hT hk
  clear hk hT; unfold runInstr
  repeat' with_reducible first
    | exact Keeps.refl _ _ | assumption | refine settle_keeps ?_ | refine Keeps.ite ?_ ?_ | refine fetchRun_keeps ?_ | refine runRead_keeps ?_
    | refine patFault_keeps ?_ | refine abortEntry_keeps ?_ | dsimp only | intro _ | split

theorem execNop_keeps {e : Nat} {s : State} {t' : State} (hx : execNop e s = .next t') :
    Keeps 0x38300000788002950008004000007f11003fc0000000000000000000000000000000009f0000000000700000000f0160000010f000000000000002fc0000000000150000000000000000500000000004265 s t' := by
  unfold execNop at hx; obtain rfl := Host.Outcome.next.inj hx
  repeat' with_reducible first
    | exact Keeps.refl _ _ | assumption | refine runInstr_keeps ?_

theorem execPal_keeps {e : Nat} {s : State} {t' : State} (hx : execPal e s = .next t') :
    Keeps 0x38300000788002950008004000007f11003fc0000000000000000000000000000000009f0000000000700000000f0160000010f000000000000002fc0000000000150000000000000000500000000004265 s t' := by
  unfold execPal at hx; obtain rfl := Host.Outcome.next.inj hx
  repeat' with_reducible first
    | exact Keeps.refl _ _ | assumption | refine runInstr_keeps ?_

theorem execLabel_keeps {e : Nat} {s : State} {t' : State} (hx : execLabel e s = .next t') :
    Keeps 0x38300000788002950008004000007f11003fc0000000000000000000000000000000009f0000000000700000000f0160000010f000000000000002fc0000000000150000000000000000500000000004265 s t' := by
  unfold execLabel at hx; obtain rfl := Host.Outcome.next.inj hx
  repeat' with_reducible first
    | exact Keeps.refl _ _ | assumption | refine runInstr_keeps ?_

theorem execFlag_keeps {e : Nat} {s : State} {t' : State} (hx : execFlag e s = .next t') :
    Keeps 0x38300000788002950008004000007f11003fc0000000000000000000000000000000009f0000000000700000000f0160000010f000000000000002fc0000000000150000000000000000500000000004265 s t' := by
  unfold execFlag at hx; obtain rfl := Host.Outcome.next.inj hx
  repeat' with_reducible first
    | exact Keeps.refl _ _ | assumption | refine runInstr_keeps ?_

theorem execTrig_keeps {e : Nat} {s : State} {t' : State} (hx : execTrig e s = .next t') :
    Keeps 0x38300000788002950008004000007f11003fc0000000000000000000000000000000009f0000000000700000000f0160000010f000000000000002fc0000000000150000000000000000500000000004265 s t' := by
  unfold execTrig at hx; obtain rfl := Host.Outcome.next.inj hx
  repeat' with_reducible first
    | exact Keeps.refl _ _ | assumption | refine runInstr_keeps ?_

theorem execVec_keeps {e : Nat} {s : State} {t' : State} (hx : execVec e s = .next t') :
    Keeps 0x38300000788002950008004000007f11003fc0000000000000000000000000000000009f0000000000700000000f0160000010f000000000000002fc0000000000150000000000000000500000000004265 s t' := by
  unfold execVec at hx; obtain rfl := Host.Outcome.next.inj hx
  repeat' with_reducible first
    | exact Keeps.refl _ _ | assumption | refine runInstr_keeps ?_

theorem execVecLoad_keeps {e : Nat} {s : State} {t' : State} (hx : execVecLoad e s = .next t') :
    Keeps 0x38300000788002950008004000007f11003fc0000000000000000000000000000000009f0000000000700000000f0160000010f000000000000002fc0000000000150000000000000000500000000004265 s t' := by
  unfold execVecLoad at hx; obtain rfl := Host.Outcome.next.inj hx
  repeat' with_reducible first
    | exact Keeps.refl _ _ | assumption | refine runInstr_keeps ?_

theorem execVeci_keeps {e : Nat} {s : State} {t' : State} (hx : execVeci e s = .next t') :
    Keeps 0x38300000788002950008004000007f11003fc0000000000000000000000000000000009f0000000000700000000f0160000010f000000000000002fc0000000000150000000000000000500000000004265 s t' := by
  unfold execVeci at hx; obtain rfl := Host.Outcome.next.inj hx
  repeat' with_reducible first
    | exact Keeps.refl _ _ | assumption | refine runInstr_keeps ?_

theorem execRpt_keeps {e : Nat} {s : State} {t' : State} (hx : execRpt e s = .next t') :
    Keeps 0x38300000788002950008004000007f11003fc0000000000000000000000000000000009f0000000000700000000f0160000010f000000000000002fc0000000000150000000000000000500000000004265 s t' := by
  unfold execRpt at hx; obtain rfl := Host.Outcome.next.inj hx
  repeat' with_reducible first
    | exact Keeps.refl _ _ | assumption | refine runInstr_keeps ?_

theorem execFill_keeps {e : Nat} {s : State} {t' : State} (hx : execFill e s = .next t') :
    Keeps 0x38300000788002950008004000007f11003fc0000000000000000000000000000000009f0000000000700000000f0160000010f000000000000002fc0000000000150000000000000000500000000004265 s t' := by
  unfold execFill at hx; obtain rfl := Host.Outcome.next.inj hx
  repeat' with_reducible first
    | exact Keeps.refl _ _ | assumption | refine runInstr_keeps ?_

theorem execStream_keeps {e : Nat} {s : State} {t' : State} (hx : execStream e s = .next t') :
    Keeps 0x38300000788002950008004000007f11003fc0000000000000000000000000000000009f0000000000700000000f0160000010f000000000000002fc0000000000150000000000000000500000000004265 s t' := by
  unfold execStream at hx; obtain rfl := Host.Outcome.next.inj hx
  repeat' with_reducible first
    | exact Keeps.refl _ _ | assumption | refine runInstr_keeps ?_

theorem execRingDataResume_keeps {e : Nat} {s : State} {t' : State} (hx : execRingDataResume e s = .next t') :
    Keeps 32 s t' := by
  unfold execRingDataResume at hx; obtain rfl := Host.Outcome.next.inj hx
  repeat' with_reducible first
    | exact Keeps.refl _ _ | assumption | refine Keeps.ite ?_ ?_ | refine putWork_keeps ?_ | dsimp only | split

theorem execScan_keeps {e : Nat} {s : State} {t' : State} (hx : execScan e s = .next t') :
    Keeps 0x38300000788002950008004000007f11003fc0000000000000000000000000000000009f0000000000700000000f0160000010f000000000000002fc0000000000150000000000000000500000000004265 s t' := by
  unfold execScan at hx; obtain rfl := Host.Outcome.next.inj hx
  repeat' with_reducible first
    | exact Keeps.refl _ _ | assumption | refine runInstr_keeps ?_

theorem execWaitt_keeps {e : Nat} {s : State} {t' : State} (hx : execWaitt e s = .next t') :
    Keeps 0x38300000788002950008004000007f11003fc0000000000000000000000000000000009f0000000000700000000f0160000010f000000000000002fc0000000000150000000000000000500000000004265 s t' := by
  unfold execWaitt at hx; obtain rfl := Host.Outcome.next.inj hx
  repeat' with_reducible first
    | exact Keeps.refl _ _ | assumption | refine runInstr_keeps ?_

theorem execLoop_keeps {e : Nat} {s : State} {t' : State} (hx : execLoop e s = .next t') :
    Keeps 0x38300000788002950008004000007f11003fc0000000000000000000000000000000009f0000000000700000000f0160000010f000000000000002fc0000000000150000000000000000500000000004265 s t' := by
  unfold execLoop at hx; obtain rfl := Host.Outcome.next.inj hx
  repeat' with_reducible first
    | exact Keeps.refl _ _ | assumption | refine runInstr_keeps ?_

theorem execEndl_keeps {e : Nat} {s : State} {t' : State} (hx : execEndl e s = .next t') :
    Keeps 0x38300000788002950008004000007f11003fc0000000000000000000000000000000009f0000000000700000000f0160000010f000000000000002fc0000000000150000000000000000500000000004265 s t' := by
  unfold execEndl at hx; obtain rfl := Host.Outcome.next.inj hx
  repeat' with_reducible first
    | exact Keeps.refl _ _ | assumption | refine runInstr_keeps ?_

theorem execCall_keeps {e : Nat} {s : State} {t' : State} (hx : execCall e s = .next t') :
    Keeps 0x38300000788002950008004000007f11003fc0000000000000000000000000000000009f0000000000700000000f0160000010f000000000000002fc0000000000150000000000000000500000000004265 s t' := by
  unfold execCall at hx; obtain rfl := Host.Outcome.next.inj hx
  repeat' with_reducible first
    | exact Keeps.refl _ _ | assumption | refine runInstr_keeps ?_

theorem execRet_keeps {e : Nat} {s : State} {t' : State} (hx : execRet e s = .next t') :
    Keeps 0x38300000788002950008004000007f11003fc0000000000000000000000000000000009f0000000000700000000f0160000010f000000000000002fc0000000000150000000000000000500000000004265 s t' := by
  unfold execRet at hx; obtain rfl := Host.Outcome.next.inj hx
  repeat' with_reducible first
    | exact Keeps.refl _ _ | assumption | refine runInstr_keeps ?_

theorem execJmp_keeps {e : Nat} {s : State} {t' : State} (hx : execJmp e s = .next t') :
    Keeps 0x38300000788002950008004000007f11003fc0000000000000000000000000000000009f0000000000700000000f0160000010f000000000000002fc0000000000150000000000000000500000000004265 s t' := by
  unfold execJmp at hx; obtain rfl := Host.Outcome.next.inj hx
  repeat' with_reducible first
    | exact Keeps.refl _ _ | assumption | refine runInstr_keeps ?_

theorem execHaltInstruction_keeps {e : Nat} {s : State} {t' : State} (hx : execHaltInstruction e s = .next t') :
    Keeps 0x38300000788002950008004000007f11003fc0000000000000000000000000000000009f0000000000700000000f0160000010f000000000000002fc0000000000150000000000000000500000000004265 s t' := by
  unfold execHaltInstruction at hx; obtain rfl := Host.Outcome.next.inj hx
  repeat' with_reducible first
    | exact Keeps.refl _ _ | assumption | refine runInstr_keeps ?_

theorem execSeg_keeps {e : Nat} {s : State} {t' : State} (hx : execSeg e s = .next t') :
    Keeps 0x38300000788002950008004000007f11003fc0000000000000000000000000000000009f0000000000700000000f0160000010f000000000000002fc0000000000150000000000000000500000000004265 s t' := by
  unfold execSeg at hx; obtain rfl := Host.Outcome.next.inj hx
  repeat' with_reducible first
    | exact Keeps.refl _ _ | assumption | refine runInstr_keeps ?_

theorem execAlt_keeps {e : Nat} {s : State} {t' : State} (hx : execAlt e s = .next t') :
    Keeps 0x38300000788002950008004000007f11003fc0000000000000000000000000000000009f0000000000700000000f0160000010f000000000000002fc0000000000150000000000000000500000000004265 s t' := by
  unfold execAlt at hx; obtain rfl := Host.Outcome.next.inj hx
  repeat' with_reducible first
    | exact Keeps.refl _ _ | assumption | refine runInstr_keeps ?_

theorem execMark_keeps {e : Nat} {s : State} {t' : State} (hx : execMark e s = .next t') :
    Keeps 0x38300000788002950008004000007f11003fc0000000000000000000000000000000009f0000000000700000000f0160000010f000000000000002fc0000000000150000000000000000500000000004265 s t' := by
  unfold execMark at hx; obtain rfl := Host.Outcome.next.inj hx
  repeat' with_reducible first
    | exact Keeps.refl _ _ | assumption | refine runInstr_keeps ?_

theorem execMatch_keeps {e : Nat} {s : State} {t' : State} (hx : execMatch e s = .next t') :
    Keeps 0x38300000788002950008004000007f11003fc0000000000000000000000000000000009f0000000000700000000f0160000010f000000000000002fc0000000000150000000000000000500000000004265 s t' := by
  unfold execMatch at hx; obtain rfl := Host.Outcome.next.inj hx
  repeat' with_reducible first
    | exact Keeps.refl _ _ | assumption | refine runInstr_keeps ?_

end Sys2Proof.Machine
end

