-- ==== Sys2Proof/Laws/Commit.lean ====
section
/-! SUPPORT. What the operations and commands of Machine/Commit.lean keep, and the components of the state they may write (Laws/Keeps.lean). -/

set_option exponentiation.threshold 2000

set_option Elab.async false

namespace Sys2Proof.Machine

open Sys2Proof

theorem writeTag_keeps {U : Nat} {s₀ : State} {region : Nat} {t : Tag} {q : Nat} {s : State} (hk : Keeps U s₀ s) (hT : 32 ||| U = U := by decide) : Keeps U s₀ (writeTag region t q s) := by
  refine Keeps.step ?_ hT hk
  clear hk hT; unfold writeTag
  repeat' with_reducible first
    | exact Keeps.refl _ _ | assumption | refine Keeps.ite ?_ ?_ | refine setFur_keeps ?_ | dsimp only | intro _ | split

theorem writeWord_keeps {U : Nat} {s₀ : State} {q region word : Nat} {s : State} (hk : Keeps U s₀ s) (hT : 32 ||| U = U := by decide) : Keeps U s₀ (writeWord q region word s) := by
  refine Keeps.step ?_ hT hk
  clear hk hT; unfold writeWord
  repeat' with_reducible first
    | exact Keeps.refl _ _ | assumption | refine Keeps.ite ?_ ?_ | refine setFur_keeps ?_ | dsimp only | intro _ | split

theorem lateCheck_keeps {U : Nat} {s₀ : State} {e : Nat} {c : Car} {s : State} (hk : Keeps U s₀ s) (hT : 0x3830000078800200000000000000000000000000000000000000000000000000000000000000000000000000000000000000000000000004000000000780000000000000000000000000000000000004025 ||| U = U := by decide) : Keeps U s₀ (lateCheck e c s) := by
  refine Keeps.step ?_ hT hk
  clear hk hT; unfold lateCheck
  repeat' with_reducible first
    | exact Keeps.refl _ _ | assumption | refine Keeps.ite ?_ ?_ | refine requeue_keeps ?_ | refine setEng_keeps ?_ | refine wrs_keeps ?_
    | dsimp only | intro _ | split

theorem takeBack_keeps {U : Nat} {s₀ : State} {c : Car} {s : State} (hk : Keeps U s₀ s) (hT : 32 ||| U = U := by decide) : Keeps U s₀ (takeBack c s) := by
  refine Keeps.step ?_ hT hk
  clear hk hT; unfold takeBack
  repeat' with_reducible first
    | exact Keeps.refl _ _ | assumption | refine Keeps.ite ?_ ?_ | refine setRoute_keeps ?_ | dsimp only | intro _ | split

theorem rsCheck_keeps {U : Nat} {s₀ : State} {c : Car} {s : State} (hk : Keeps U s₀ s) (hT : 0x38300000788002140008004000000000000000000000000000000000000000000000009f0000000000700000000f0160000010f000000000000002fc0000000000150000000000000000500000000004065 ||| U = U := by decide) : Keeps U s₀ (rsCheck c s) := by
  refine Keeps.step ?_ hT hk
  clear hk hT; unfold rsCheck
  repeat' with_reducible first
    | exact Keeps.refl _ _ | assumption | refine poisonSite_keeps ?_ | refine fltEvent_keeps ?_ | refine raiseInt_keeps ?_ | dsimp only
    | (constructor <;> first | exact fun _ => rfl | exact fun _ _ => rfl | exact rfl | exact List.prefix_refl _ | exact Nat.le_refl _ | exact fun w => w | exact fun _ _ w => w | exact fun h => absurd h (by decide) | exact fun _ => ⟨fun _ _ => ⟨fun w => w, fun w => w⟩⟩)
    | refine Keeps.setPat ?_

theorem caravanHandover_keeps {U : Nat} {s₀ : State} {ok : Bool} {s : State} (hk : Keeps U s₀ s) (hT : 0x38300000788002140008004000000000000000000000000000000000000000000000009f0000000000700000000f0160000010f000000004000002fc0780000000150000000000000000500000000004065 ||| U = U := by decide) : Keeps U s₀ (caravanHandover ok s) := by
  refine Keeps.step ?_ hT hk
  clear hk hT; unfold caravanHandover
  repeat' with_reducible first
    | exact Keeps.refl _ _ | assumption | refine lateCheck_keeps ?_ | refine takeBack_keeps ?_ | refine Keeps.ite ?_ ?_ | refine rsCheck_keeps ?_
    | refine putWork_keeps ?_ | refine settle_keeps ?_ | refine setEng_keeps ?_ | split | dsimp only
    | (constructor <;> first | exact fun _ => rfl | exact fun _ _ => rfl | exact rfl | exact List.prefix_refl _ | exact Nat.le_refl _ | exact fun w => w | exact fun _ _ w => w | exact fun h => absurd h (by decide) | exact fun _ => ⟨fun _ _ => ⟨fun w => w, fun w => w⟩⟩)
    | refine Keeps.setPat ?_ | intro _

theorem writeEntry_keeps {U : Nat} {s₀ : State} {b region : Nat} {quads : List Nat} {it : Nat × Cell} {s : State} (hk : Keeps U s₀ s) (hT : 32 ||| U = U := by decide) : Keeps U s₀ (writeEntry b region quads it s) := by
  refine Keeps.step ?_ hT hk
  clear hk hT; unfold writeEntry
  repeat' with_reducible first
    | exact Keeps.refl _ _ | assumption | refine Keeps.ite ?_ ?_ | refine writeTag_keeps ?_ | refine writeWord_keeps ?_ | refine forS_keeps ?_ ?_
    | dsimp only | intro _ | split

theorem sluiceGrant_keeps {U : Nat} {s₀ : State} {b : Nat} {s : State} (hk : Keeps U s₀ s) (hT : 0x10000000000000000000000000000000000000000000000000021 ||| U = U := by decide) : Keeps U s₀ (sluiceGrant b s) := by
  refine Keeps.step ?_ hT hk
  clear hk hT; unfold sluiceGrant
  repeat' with_reducible first
    | exact Keeps.refl _ _ | assumption | refine Keeps.ite ?_ ?_ | refine incWrap_keeps ?_ | refine writeEntry_keeps ?_ | refine putWork_keeps ?_
    | refine forS_keeps ?_ ?_ | intro _ | split | dsimp only
    | (constructor <;> first | exact fun _ => rfl | exact fun _ _ => rfl | exact rfl | exact List.prefix_refl _ | exact Nat.le_refl _ | exact fun w => w | exact fun _ _ w => w | exact fun h => absurd h (by decide) | exact fun _ => ⟨fun _ _ => ⟨fun w => w, fun w => w⟩⟩)
    | refine Keeps.setPat ?_

theorem fileSide_keeps {U : Nat} {s₀ : State} {c : Car} {s : State} (hk : Keeps U s₀ s) (hT : 0x800200000000000000000000000000000000000000000000000000000000000000000000000000000000000000000000000000000008000000000000000000000000000000000000000004021 ||| U = U := by decide) : Keeps U s₀ (fileSide c s) := by
  refine Keeps.step ?_ hT hk
  clear hk hT; unfold fileSide
  repeat' with_reducible first
    | exact Keeps.refl _ _ | assumption | refine Keeps.ite ?_ ?_ | refine poolCheck_keeps ?_ | refine setRoute_keeps ?_ | refine incSat_keeps ?_
    | dsimp only | intro _ | split

theorem dropCars_keeps {U : Nat} {s₀ : State} {r : Nat} {p : Car → Bool} {s : State} (hk : Keeps U s₀ s) (hT : 0x3830000078800200000000000000000000000000000000000000000000000000000000000000000000000000000000000000000000000000000000000000000000000000000000000000000000000004025 ||| U = U := by decide) : Keeps U s₀ (dropCars r p s) := by
  refine Keeps.step ?_ hT hk
  clear hk hT; unfold dropCars
  repeat' with_reducible first
    | exact Keeps.refl _ _ | assumption | refine Keeps.ite ?_ ?_ | refine heldOver_keeps ?_ | refine setRoute_keeps ?_ | refine freeEng_keeps ?_
    | refine dropStaged_keeps ?_ | intro _ | split | dsimp only
    | (constructor <;> first | exact fun _ => rfl | exact fun _ _ => rfl | exact rfl | exact List.prefix_refl _ | exact Nat.le_refl _ | exact fun w => w | exact fun _ _ w => w | exact fun h => absurd h (by decide) | exact fun _ => ⟨fun _ _ => ⟨fun w => w, fun w => w⟩⟩)
    | refine Keeps.setPat ?_

theorem clearHalf_keeps {U : Nat} {s₀ : State} {i r k bound : Nat} {s : State} (hk : Keeps U s₀ s) (hT : 32 ||| U = U := by decide) : Keeps U s₀ (clearHalf i r k bound s) := by
  refine Keeps.step ?_ hT hk
  clear hk hT; unfold clearHalf
  repeat' with_reducible first
    | exact Keeps.refl _ _ | assumption | refine Keeps.ite ?_ ?_ | refine setFur_keeps ?_ | refine forS_keeps ?_ ?_ | intro _ | dsimp only | split

theorem dropB_keeps {U : Nat} {s₀ : State} {i r bound : Nat} {s : State} (hk : Keeps U s₀ s) (hT : 0x3830000078800200000000000000000000000000000000000000000000000000000000000000000000000000000000000000000000000000000000000000000000000000000000000000000000000004025 ||| U = U := by decide) : Keeps U s₀ (dropB i r bound s) := by
  refine Keeps.step ?_ hT hk
  clear hk hT; unfold dropB
  repeat' with_reducible first
    | exact Keeps.refl _ _ | assumption | refine Keeps.ite ?_ ?_ | refine clearHalf_keeps ?_ | refine dropCars_keeps ?_ | refine setRoute_keeps ?_
    | dsimp only | intro _ | split

theorem fileAlt_keeps {U : Nat} {s₀ : State} {c : Car} {a : NewAlt} {s : State} (hk : Keeps U s₀ s) (hT : 0x3830000078800200000000000000000000000000000000000000000000000000000000000000000000000000000000000000000000000000000008000000000000000000000000000000000000000004025 ||| U = U := by decide) : Keeps U s₀ (fileAlt c a s) := by
  refine Keeps.step ?_ hT hk
  clear hk hT; unfold fileAlt
  repeat' with_reducible first
    | exact Keeps.refl _ _ | assumption | refine Keeps.ite ?_ ?_ | refine dropB_keeps ?_ | refine fileSide_keeps ?_ | refine setRoute_keeps ?_
    | dsimp only | intro _ | split

theorem sideDone_keeps {U : Nat} {s₀ : State} {w : Work} {why : EndWhy} {pos : Nat} {s : State} (hk : Keeps U s₀ s) (hT : 0x800200000000000000000000000000000000000000000000000000000000000000000000000000000000000000000000000000000008000000000000000000000000000000000000000004021 ||| U = U := by decide) : Keeps U s₀ (sideDone w why pos s) := by
  refine Keeps.step ?_ hT hk
  clear hk hT; unfold sideDone
  repeat' with_reducible first
    | exact Keeps.refl _ _ | assumption | refine Keeps.ite ?_ ?_ | refine fileSide_keeps ?_ | refine setRoute_keeps ?_ | dsimp only | intro _ | split

theorem disarmAlt_keeps {U : Nat} {s₀ : State} {i index bound : Nat} {s : State} (hk : Keeps U s₀ s) (hT : 0x3830000078800200000000000000000000000000000000000000000000000000000000000000000000000000000000000000000000000000000000000000000000000000000000000000000000000004025 ||| U = U := by decide) : Keeps U s₀ (disarmAlt i index bound s) := by
  refine Keeps.step ?_ hT hk
  clear hk hT; unfold disarmAlt
  repeat' with_reducible first
    | exact Keeps.refl _ _ | assumption | refine Keeps.ite ?_ ?_ | refine clearHalf_keeps ?_ | refine dropCars_keeps ?_ | refine setRoute_keeps ?_
    | refine setSite_keeps ?_ | refine forS_keeps ?_ ?_ | dsimp only | intro _ | split

theorem recordFault_keeps {U : Nat} {s₀ : State} {c : Car} {code addr : Nat} {s : State} (hk : Keeps U s₀ s) (hT : 0x80020000000000000000000000000000000000000000000000000000000000000000000000000000000000000000000000000003c000000000000000000000000000000000000000000004001 ||| U = U := by decide) : Keeps U s₀ (recordFault c code addr s) := by
  refine Keeps.step ?_ hT hk
  clear hk hT; unfold recordFault
  repeat' with_reducible first
    | exact Keeps.refl _ _ | assumption | refine raiseInt_keeps ?_ | refine wrs_keeps ?_ | dsimp only

theorem commitFurrows_keeps {U : Nat} {s₀ : State} {c : Car} {s : State} (hk : Keeps U s₀ s) (hT : 0x800200000000000000000000000000000000000000000000000000000000000000000000000000000000000000000000000000000000000000000000000000000000000000000000000004021 ||| U = U := by decide) : Keeps U s₀ (commitFurrows c s) := by
  refine Keeps.step ?_ hT hk
  clear hk hT; unfold commitFurrows
  repeat' with_reducible first
    | exact Keeps.refl _ _ | assumption | refine Keeps.ite ?_ ?_ | refine putFur_keeps ?_ | refine forS_keeps ?_ ?_ | dsimp only | intro _ | split

theorem retireToken_keeps {U : Nat} {s₀ : State} {c : Car} {ended : Bool} {s : State} (hk : Keeps U s₀ s) (hT : 0x8000000000000000000000000000000000000000000021 ||| U = U := by decide) : Keeps U s₀ (retireToken c ended s) := by
  refine Keeps.step ?_ hT hk
  clear hk hT; unfold retireToken
  repeat' with_reducible first
    | exact Keeps.refl _ _ | assumption | refine incSat_keeps ?_ | refine Keeps.ite ?_ ?_ | split
    | (constructor <;> first | exact fun _ => rfl | exact fun _ _ => rfl | exact rfl | exact List.prefix_refl _ | exact Nat.le_refl _ | exact fun w => w | exact fun _ _ w => w | exact fun h => absurd h (by decide) | exact fun _ => ⟨fun _ _ => ⟨fun w => w, fun w => w⟩⟩)
    | refine Keeps.setPat ?_ | dsimp only | intro _

theorem commitMain_keeps {U : Nat} {s₀ : State} {w : Work} {why : EndWhy} {s : State} (hk : Keeps U s₀ s) (hT : 0x38300000788002140008004000000000000000000000000000000000000000000000009f0000000000700000000f0160000010f00000000003c00afc0000000000150000000000000000500000000004065 ||| U = U := by decide) : Keeps U s₀ (commitMain w why s) := by
  refine Keeps.step ?_ hT hk
  clear hk hT; unfold commitMain
  repeat' with_reducible first
    | exact Keeps.refl _ _ | assumption | refine Keeps.ite ?_ ?_ | refine recordFault_keeps ?_ | refine fileAlt_keeps ?_ | refine stopSite_keeps ?_
    | refine setRoute_keeps ?_ | refine forS_keeps ?_ ?_ | dsimp only | intro _ | split

theorem caravanCommit_keeps {U : Nat} {s₀ : State} {e : Nat} {s : State} (hk : Keeps U s₀ s) (hT : 0x38300000788002148008004000000000000000000000000000000000000000000000009f0000000000700000000f0160000010f00000002007e00bfc0000000000150000000000000000500000000004065 ||| U = U := by decide) : Keeps U s₀ (caravanCommit e s) := by
  refine Keeps.step ?_ hT hk
  clear hk hT; unfold caravanCommit
  repeat' with_reducible first
    | exact Keeps.refl _ _ | assumption | refine Keeps.ite ?_ ?_ | refine commitMain_keeps ?_ | refine retireToken_keeps ?_
    | refine commitFurrows_keeps ?_ | refine recordFault_keeps ?_ | refine disarmAlt_keeps ?_ | refine sideDone_keeps ?_ | refine freeEng_keeps ?_
    | refine serveWaiting_keeps ?_ | refine notifyDone_keeps ?_ | refine settle_keeps ?_ | refine ringAdvance_keeps ?_ | refine raiseInt_keeps ?_
    | refine incWrap_keeps ?_ | refine wr_keeps ?_ | refine forS_keeps ?_ ?_ | dsimp only | intro _ | split

theorem retiringExit_keeps {U : Nat} {s₀ : State} {s : State} (hk : Keeps U s₀ s) (hT : 0x800200000800400000000000000000000000000000000000000000000000000000000000000000000000000000000000000000000002fc0000000000000000000000000000000000000004021 ||| U = U := by decide) : Keeps U s₀ (retiringExit s) := by
  refine Keeps.step ?_ hT hk
  clear hk hT; unfold retiringExit
  repeat' with_reducible first
    | exact Keeps.refl _ _ | assumption | refine Keeps.ite ?_ ?_ | refine submitCopy_keeps ?_ | refine serveWaiting_keeps ?_
    | refine submitCar_keeps ?_ | refine settle_keeps ?_ | intro _ | split | dsimp only
    | (constructor <;> first | exact fun _ => rfl | exact fun _ _ => rfl | exact rfl | exact List.prefix_refl _ | exact Nat.le_refl _ | exact fun w => w | exact fun _ _ w => w | exact fun h => absurd h (by decide) | exact fun _ => ⟨fun _ _ => ⟨fun w => w, fun w => w⟩⟩)
    | refine Keeps.setPat ?_

theorem transferRead_keeps {U : Nat} {s₀ : State} {q : Nat} {s : State} (hk : Keeps U s₀ s) (hT : 32 ||| U = U := by decide) : Keeps U s₀ (transferRead q s) := by
  refine Keeps.step ?_ hT hk
  clear hk hT; unfold transferRead
  repeat' with_reducible first
    | exact Keeps.refl _ _ | assumption | refine Keeps.ite ?_ ?_ | refine setFur_keeps ?_ | dsimp only | intro _ | split

theorem transferWrite_keeps {U : Nat} {s₀ : State} {q : Nat} {s : State} (hk : Keeps U s₀ s) (hT : 32 ||| U = U := by decide) : Keeps U s₀ (transferWrite q s) := by
  refine Keeps.step ?_ hT hk
  clear hk hT; unfold transferWrite
  repeat' with_reducible first
    | exact Keeps.refl _ _ | assumption | refine Keeps.ite ?_ ?_ | refine setFur_keeps ?_ | dsimp only | intro _ | split

theorem execCaravanHandover_keeps {ok : Bool} {s : State} {t' : State} (hx : execCaravanHandover ok s = .next t') :
    Keeps 0x38300000788002140008004000000000000000000000000000000000000000000000009f0000000000700000000f0160000010f000000004000002fc0780000000150000000000000000500000000004065 s t' := by
  unfold execCaravanHandover at hx; obtain rfl := Host.Outcome.next.inj hx
  repeat' with_reducible first
    | exact Keeps.refl _ _ | assumption | refine caravanHandover_keeps ?_

theorem execSluiceGrant_keeps {b : Nat} {s : State} {t' : State} (hx : execSluiceGrant b s = .next t') :
    Keeps 0x10000000000000000000000000000000000000000000000000021 s t' := by
  unfold execSluiceGrant at hx; obtain rfl := Host.Outcome.next.inj hx
  repeat' with_reducible first
    | exact Keeps.refl _ _ | assumption | refine sluiceGrant_keeps ?_

theorem execCaravanCommit_keeps {e : Nat} {s : State} {t' : State} (hx : execCaravanCommit e s = .next t') :
    Keeps 0x38300000788002148008004000000000000000000000000000000000000000000000009f0000000000700000000f0160000010f00000002007e00bfc0000000000150000000000000000500000000004065 s t' := by
  unfold execCaravanCommit at hx; obtain rfl := Host.Outcome.next.inj hx
  repeat' with_reducible first
    | exact Keeps.refl _ _ | assumption | refine caravanCommit_keeps ?_

theorem execRetiringExit_keeps {s : State} {t' : State} (hx : execRetiringExit s = .next t') :
    Keeps 0x800200000800400000000000000000000000000000000000000000000000000000000000000000000000000000000000000000000002fc0000000000000000000000000000000000000004021 s t' := by
  unfold execRetiringExit at hx; obtain rfl := Host.Outcome.next.inj hx
  repeat' with_reducible first
    | exact Keeps.refl _ _ | assumption | refine retiringExit_keeps ?_

theorem execPointerQueueTransfer_keeps {quad : Nat} {toWriteSide : Bool} {s : State} {t' : State} (hx : execPointerQueueTransfer quad toWriteSide s = .next t') :
    Keeps 32 s t' := by
  unfold execPointerQueueTransfer at hx; obtain rfl := Host.Outcome.next.inj hx
  repeat' with_reducible first
    | exact Keeps.refl _ _ | assumption | refine Keeps.ite ?_ ?_ | refine transferWrite_keeps ?_ | refine transferRead_keeps ?_ | split

end Sys2Proof.Machine
end

