-- ==== Sys2Proof/Laws/Sites.lean ====
section
/-! SUPPORT. What the operations and commands of Machine/Sites.lean keep, and the components of the state they may write (Laws/Keeps.lean). -/

set_option exponentiation.threshold 2000

set_option Elab.async false

namespace Sys2Proof.Machine

open Sys2Proof

theorem followBegin_keeps {U : Nat} {s₀ : State} {i : Nat} {s : State} (hk : Keeps U s₀ s) (hT : 64 ||| U = U := by decide) : Keeps U s₀ (followBegin i s) := by
  refine Keeps.step ?_ hT hk
  clear hk hT; unfold followBegin
  repeat' with_reducible first
    | exact Keeps.refl _ _ | assumption | refine Keeps.ite ?_ ?_ | refine setBank_keeps ?_ | dsimp only | intro _ | split

theorem respond_keeps {U : Nat} {s₀ : State} {p : Nat} {words : List Nat} {s : State} (hk : Keeps U s₀ s) (hT : 0x800200000009000000000000000000000000000000000000000000000000000000000000000000000000000000000000000000000000000000000000000000000000000000000000000004001 ||| U = U := by decide) : Keeps U s₀ (respond p words s) := by
  refine Keeps.step ?_ hT hk
  clear hk hT; unfold respond
  repeat' with_reducible first
    | exact Keeps.refl _ _ | assumption | refine raiseInt_keeps ?_ | refine addWrap_keeps ?_ | refine wr_keeps ?_ | refine forS_keeps ?_ ?_
    | dsimp only | intro _

theorem doorbell_keeps {U : Nat} {s₀ : State} {p v : Nat} {s : State} (hk : Keeps U s₀ s) (hT : 0x800200000002000000000000000000000000000000000000000000000000000000000000000000000000000000000000000000000000000000000000000000000000000000000000000004001 ||| U = U := by decide) : Keeps U s₀ (doorbell p v s) := by
  refine Keeps.step ?_ hT hk
  clear hk hT; unfold doorbell
  repeat' with_reducible first
    | exact Keeps.refl _ _ | assumption | refine Keeps.ite ?_ ?_ | refine raiseInt_keeps ?_ | refine wr_keeps ?_ | dsimp only | split

theorem rspConsWrite_keeps {U : Nat} {s₀ : State} {p v : Nat} {s : State} (hk : Keeps U s₀ s) (hT : 0x800200000010000000000000000000000000000000000000000000000000000000000000000000000000000000000000000000000000000000000000000000000000000000000000000004001 ||| U = U := by decide) : Keeps U s₀ (rspConsWrite p v s) := by
  refine Keeps.step ?_ hT hk
  clear hk hT; unfold rspConsWrite
  repeat' with_reducible first
    | exact Keeps.refl _ _ | assumption | refine Keeps.ite ?_ ?_ | refine raiseInt_keeps ?_ | refine wr_keeps ?_ | split

theorem clearPalettes_keeps {U : Nat} {s₀ : State} {r : Nat} {s : State} (hk : Keeps U s₀ s) (hT : 32 ||| U = U := by decide) : Keeps U s₀ (clearPalettes r s) := by
  refine Keeps.step ?_ hT hk
  clear hk hT; unfold clearPalettes
  repeat' with_reducible first
    | exact Keeps.refl _ _ | assumption
    | (constructor <;> first | exact fun _ => rfl | exact fun _ _ => rfl | exact rfl | exact List.prefix_refl _ | exact Nat.le_refl _ | exact fun w => w | exact fun _ _ w => w | exact fun h => absurd h (by decide) | exact fun _ => ⟨fun _ _ => ⟨fun w => w, fun w => w⟩⟩)
    | refine Keeps.setPat ?_

theorem defineSite_keeps {U : Nat} {s₀ : State} {p : Nat} {cmd : List Nat} {s : State} (hk : Keeps U s₀ s) (hT : 0x10000000000000000000000000000029 ||| U = U := by decide) : Keeps U s₀ (defineSite p cmd s) := by
  refine Keeps.step ?_ hT hk
  clear hk hT; unfold defineSite
  repeat' with_reducible first
    | exact Keeps.refl _ _ | assumption | refine Keeps.ite ?_ ?_ | refine clearPalettes_keeps ?_ | refine setSiteState_keeps ?_
    | refine setSite_keeps ?_ | refine forS_keeps ?_ ?_ | dsimp only | intro _
    | (constructor <;> first | exact fun _ => rfl | exact fun _ _ => rfl | exact rfl | exact List.prefix_refl _ | exact Nat.le_refl _ | exact fun w => w | exact fun _ _ w => w | exact fun h => absurd h (by decide) | exact fun _ => ⟨fun _ _ => ⟨fun w => w, fun w => w⟩⟩)
    | refine Keeps.setTim ?_ | split

theorem deleteSite_keeps {U : Nat} {s₀ : State} {i : Nat} {s : State} (hk : Keeps U s₀ s) (hT : 0xf0000000000000000000000000000000000000000000000000000000000010000000000000000000000000000061 ||| U = U := by decide) : Keeps U s₀ (deleteSite i s) := by
  refine Keeps.step ?_ hT hk
  clear hk hT; unfold deleteSite
  repeat' with_reducible first
    | exact Keeps.refl _ _ | assumption
    | refine setRoute_keeps ?_ | refine cmpSiteStop_keeps ?_ | refine Keeps.ite ?_ ?_ | refine forS_keeps ?_ ?_ | refine setSiteState_keeps ?_ | refine setSite_keeps ?_
    | dsimp only | intro _
    | (constructor <;> first | exact fun _ => rfl | exact fun _ _ => rfl | exact rfl | exact List.prefix_refl _ | exact Nat.le_refl _ | exact fun w => w | exact fun _ _ w => w | exact fun h => absurd h (by decide) | exact fun _ => ⟨fun _ _ => ⟨fun w => w, fun w => w⟩⟩)
    | refine Keeps.setPat ?_ | split

theorem loadPalette_keeps {U : Nat} {s₀ : State} {cmd : List Nat} {s : State} (hk : Keeps U s₀ s) (hT : 32 ||| U = U := by decide) : Keeps U s₀ (loadPalette cmd s) := by
  refine Keeps.step ?_ hT hk
  clear hk hT; unfold loadPalette
  repeat' with_reducible first
    | exact Keeps.refl _ _ | assumption | refine forS_keeps ?_ ?_ | dsimp only | intro _
    | (constructor <;> first | exact fun _ => rfl | exact fun _ _ => rfl | exact rfl | exact List.prefix_refl _ | exact Nat.le_refl _ | exact fun w => w | exact fun _ _ w => w | exact fun h => absurd h (by decide) | exact fun _ => ⟨fun _ _ => ⟨fun w => w, fun w => w⟩⟩)
    | refine Keeps.setPat ?_

theorem runFurrow_keeps {U : Nat} {s₀ : State} {weir q : Nat} {s : State} (hk : Keeps U s₀ s) (hT : 0xf1f0000200000000000000000000000000000000000000000000000000001 ||| U = U := by decide) : Keeps U s₀ (runFurrow weir q s) := by
  refine Keeps.step ?_ hT hk
  clear hk hT; unfold runFurrow
  repeat' with_reducible first
    | exact Keeps.refl _ _ | assumption | refine wrs_keeps ?_ | dsimp only

theorem runRoute_keeps {U : Nat} {s₀ : State} {p : Nat} {cmd : List Nat} {rk : Nat × Nat} {s : State} (hk : Keeps U s₀ s) (hT : 0x14000000000000000000000000000000000000000000000000000000000000000000000000000000000000000000000000110000000000000000000000000000000000000000000000021 ||| U = U := by decide) : Keeps U s₀ (runRoute p cmd rk s) := by
  refine Keeps.step ?_ hT hk
  clear hk hT; unfold runRoute
  repeat' with_reducible first
    | exact Keeps.refl _ _ | assumption | refine Keeps.ite ?_ ?_ | refine setRoute_keeps ?_ | refine wrs_keeps ?_ | refine forS_keeps ?_ ?_
    | dsimp only | intro _ | split

theorem runSite_keeps {U : Nat} {s₀ : State} {p : Nat} {cmd : List Nat} {s : State} (hk : Keeps U s₀ s) (hT : 0x1400000000000000000000000000000000000000000000000000000000000000000000000000000000000000f1f0000200110000000000000000810000000000000000000000000000021 ||| U = U := by decide) : Keeps U s₀ (runSite p cmd s) := by
  refine Keeps.step ?_ hT hk
  clear hk hT; unfold runSite
  repeat' with_reducible first
    | exact Keeps.refl _ _ | assumption | refine Keeps.ite ?_ ?_ | refine runRoute_keeps ?_ | refine runFurrow_keeps ?_
    | refine setSiteState_keeps ?_ | refine setSite_keeps ?_ | refine wr_keeps ?_ | refine forS_keeps ?_ ?_ | dsimp only | intro _ | split

theorem haltSite_keeps {U : Nat} {s₀ : State} {i : Nat} {atBoundary : Bool} {s : State} (hk : Keeps U s₀ s) (hT : 0x38300000788002140008004000000000000000000000000000000000000000000000009f0000000000700000000f0160000010f000000000000002fc0000000000150000000000000000500000000004065 ||| U = U := by decide) : Keeps U s₀ (haltSite i atBoundary s) := by
  refine Keeps.step ?_ hT hk
  clear hk hT; unfold haltSite
  repeat' with_reducible first
    | exact Keeps.refl _ _ | assumption | refine Keeps.ite ?_ ?_ | refine stopSite_keeps ?_ | refine openStop_keeps ?_ | refine wr_keeps ?_ | split

theorem cmdEffect_keeps {U : Nat} {s₀ : State} {p : Nat} {cmd : List Nat} {s : State} (hk : Keeps U s₀ s) (hT : 0x38300000788002140008004000000000000000000000000000000000000000000000009f0000000000700000000f0160000010f1f0000200110002fc000000000095000000000000000050000000000406d ||| U = U := by decide) : Keeps U s₀ (cmdEffect p cmd s) := by
  refine Keeps.step ?_ hT hk
  clear hk hT; unfold cmdEffect
  repeat' with_reducible first
    | exact Keeps.refl _ _ | assumption | refine haltSite_keeps ?_ | refine runSite_keeps ?_ | refine loadPalette_keeps ?_
    | refine deleteSite_keeps ?_ | refine defineSite_keeps ?_ | refine setSiteState_keeps ?_ | split

theorem runCommand_keeps {U : Nat} {s₀ : State} {p : Nat} {cmd : List Nat} {s : State} (hk : Keeps U s₀ s) (hT : 0x38300000788002140008094000000000000000000000000000000000000000000000009f0000000000700000000f0160000010f1f0000200110002fc000000000095000000000000000050000000000406d ||| U = U := by decide) : Keeps U s₀ (runCommand p cmd s) := by
  refine Keeps.step ?_ hT hk
  clear hk hT; unfold runCommand
  repeat' with_reducible first
    | exact Keeps.refl _ _ | assumption | refine Keeps.ite ?_ ?_ | refine cmdEffect_keeps ?_ | refine respond_keeps ?_ | dsimp only | split

theorem takeCommand_keeps {U : Nat} {s₀ : State} {p op : Nat} {s : State} (hk : Keeps U s₀ s) (hT : 0x383000007880021400080d4000000000000000000000000000000000000000000000009f0000000000700000000f0160000010f1f0000200110002fc000000000095000000000000000050000000000406d ||| U = U := by decide) : Keeps U s₀ (takeCommand p op s) := by
  refine Keeps.step ?_ hT hk
  clear hk hT; unfold takeCommand
  repeat' with_reducible first
    | exact Keeps.refl _ _ | assumption | refine Keeps.ite ?_ ?_ | refine runCommand_keeps ?_ | refine addWrap_keeps ?_ | dsimp only | split
    | (constructor <;> first | exact fun _ => rfl | exact fun _ _ => rfl | exact rfl | exact List.prefix_refl _ | exact Nat.le_refl _ | exact fun w => w | exact fun _ _ w => w | exact fun h => absurd h (by decide) | exact fun _ => ⟨fun _ _ => ⟨fun w => w, fun w => w⟩⟩)
    | refine Keeps.setPat ?_

theorem edgEpoch_keeps {U : Nat} {s₀ : State} {i : Nat} {s : State} (hk : Keeps U s₀ s) (hT : 64 ||| U = U := by decide) : Keeps U s₀ (edgEpoch i s) := by
  refine Keeps.step ?_ hT hk
  clear hk hT; unfold edgEpoch
  repeat' with_reducible first
    | exact Keeps.refl _ _ | assumption | refine setConv_keeps ?_ | refine forS_keeps ?_ ?_ | dsimp only | intro _
    | (constructor <;> first | exact fun _ => rfl | exact fun _ _ => rfl | exact rfl | exact List.prefix_refl _ | exact Nat.le_refl _ | exact fun w => w | exact fun _ _ w => w | exact fun h => absurd h (by decide) | exact fun _ => ⟨fun _ _ => ⟨fun w => w, fun w => w⟩⟩)
    | refine Keeps.setPin ?_

theorem openSite_keeps {U : Nat} {s₀ : State} {i : Nat} {st : SiteStart} {late : Bool} {s : State} (hk : Keeps U s₀ s) (hT : 0x383000006880020000000000000000000000000000000000000000000000000000003f00000000021e6000000000006000001000000000000000000000000000015700000000000000007fc00000000406d ||| U = U := by decide) : Keeps U s₀ (openSite i st late s) := by
  refine Keeps.step ?_ hT hk
  clear hk hT; unfold openSite
  repeat' with_reducible first
    | exact Keeps.refl _ _ | assumption | refine followBegin_keeps ?_ | refine Keeps.ite ?_ ?_ | refine edgEpoch_keeps ?_
    | refine finishVector_keeps ?_ | refine cmpEpoch_keeps ?_ | refine acqEpoch_keeps ?_ | refine setSite_keeps ?_ | refine raiseInt_keeps ?_
    | refine wrs_keeps ?_ | dsimp only
    | (constructor <;> first | exact fun _ => rfl | exact fun _ _ => rfl | exact rfl | exact List.prefix_refl _ | exact Nat.le_refl _ | exact fun w => w | exact fun _ _ w => w | exact fun h => absurd h (by decide) | exact fun _ => ⟨fun _ _ => ⟨fun w => w, fun w => w⟩⟩)
    | refine Keeps.setTim ?_ | intro _ | split

theorem headgateOpen_keeps {U : Nat} {s₀ : State} {i : Nat} {onTime : Bool} {s : State} (hk : Keeps U s₀ s) (hT : 0x383000006880020000000000000000000000000000000000000000000000000000003f00000000021e6000000000006000001000000000000000000000000000015700000000000000007fc00000000406d ||| U = U := by decide) : Keeps U s₀ (headgateOpen i onTime s) := by
  refine Keeps.step ?_ hT hk
  clear hk hT; unfold headgateOpen
  repeat' with_reducible first
    | exact Keeps.refl _ _ | assumption | refine Keeps.ite ?_ ?_ | refine openSite_keeps ?_ | dsimp only | intro _ | split

theorem execMailboxDoorbell_keeps {p v : Nat} {s : State} {t' : State} (hx : execMailboxDoorbell p v s = .next t') :
    Keeps (busMask ||| 0x800200000002000000000000000000000000000000000000000000000000000000000000000000000000000000000000000000000000000000000000000000000000000000000000000004005) s t' := by
  unfold execMailboxDoorbell at hx; obtain rfl := Host.Outcome.next.inj hx
  repeat' with_reducible first
    | exact Keeps.refl _ _ | assumption
    | refine takeIn_keeps ?_ ?_ | refine bar4Access_keeps ?_ ?_ | refine Keeps.ite ?_ ?_ | refine doorbell_keeps ?_ | refine whenS_keeps ?_ ?_ | intro _
    | dsimp only

theorem execMbxRspConsWrite_keeps {p v : Nat} {s : State} {t' : State} (hx : execMbxRspConsWrite p v s = .next t') :
    Keeps (busMask ||| 0x800200000010000000000000000000000000000000000000000000000000000000000000000000000000000000000000000000000000000000000000000000000000000000000000000004005) s t' := by
  unfold execMbxRspConsWrite at hx; obtain rfl := Host.Outcome.next.inj hx
  repeat' with_reducible first
    | exact Keeps.refl _ _ | assumption
    | refine takeIn_keeps ?_ ?_ | refine bar4Access_keeps ?_ ?_ | refine Keeps.ite ?_ ?_ | refine rspConsWrite_keeps ?_ | refine whenS_keeps ?_ ?_ | intro _
    | dsimp only

theorem execSiteDefine_keeps {p : Nat} {s : State} {t' : State} (hx : execSiteDefine p s = .next t') :
    Keeps 0x383000007880021400080d4000000000000000000000000000000000000000000000009f0000000000700000000f0160000010f1f0000200110002fc000000000095000000000000000050000000000406d s t' := by
  unfold execSiteDefine at hx; obtain rfl := Host.Outcome.next.inj hx
  repeat' with_reducible first
    | exact Keeps.refl _ _ | assumption | refine takeCommand_keeps ?_

theorem execSiteDelete_keeps {p : Nat} {s : State} {t' : State} (hx : execSiteDelete p s = .next t') :
    Keeps 0x383000007880021400080d4000000000000000000000000000000000000000000000009f0000000000700000000f0160000010f1f0000200110002fc000000000095000000000000000050000000000406d s t' := by
  unfold execSiteDelete at hx; obtain rfl := Host.Outcome.next.inj hx
  repeat' with_reducible first
    | exact Keeps.refl _ _ | assumption | refine takeCommand_keeps ?_

theorem execPalLoad_keeps {p : Nat} {s : State} {t' : State} (hx : execPalLoad p s = .next t') :
    Keeps 0x383000007880021400080d4000000000000000000000000000000000000000000000009f0000000000700000000f0160000010f1f0000200110002fc000000000095000000000000000050000000000406d s t' := by
  unfold execPalLoad at hx; obtain rfl := Host.Outcome.next.inj hx
  repeat' with_reducible first
    | exact Keeps.refl _ _ | assumption | refine takeCommand_keeps ?_

theorem execRun_keeps {p : Nat} {s : State} {t' : State} (hx : execRun p s = .next t') :
    Keeps 0x383000007880021400080d4000000000000000000000000000000000000000000000009f0000000000700000000f0160000010f1f0000200110002fc000000000095000000000000000050000000000406d s t' := by
  unfold execRun at hx; obtain rfl := Host.Outcome.next.inj hx
  repeat' with_reducible first
    | exact Keeps.refl _ _ | assumption | refine takeCommand_keeps ?_

theorem execHalt_keeps {p : Nat} {s : State} {t' : State} (hx : execHalt p s = .next t') :
    Keeps 0x383000007880021400080d4000000000000000000000000000000000000000000000009f0000000000700000000f0160000010f1f0000200110002fc000000000095000000000000000050000000000406d s t' := by
  unfold execHalt at hx; obtain rfl := Host.Outcome.next.inj hx
  repeat' with_reducible first
    | exact Keeps.refl _ _ | assumption | refine takeCommand_keeps ?_

theorem execClear_keeps {p : Nat} {s : State} {t' : State} (hx : execClear p s = .next t') :
    Keeps 0x383000007880021400080d4000000000000000000000000000000000000000000000009f0000000000700000000f0160000010f1f0000200110002fc000000000095000000000000000050000000000406d s t' := by
  unfold execClear at hx; obtain rfl := Host.Outcome.next.inj hx
  repeat' with_reducible first
    | exact Keeps.refl _ _ | assumption | refine takeCommand_keeps ?_

theorem execStatus_keeps {p : Nat} {s : State} {t' : State} (hx : execStatus p s = .next t') :
    Keeps 0x383000007880021400080d4000000000000000000000000000000000000000000000009f0000000000700000000f0160000010f1f0000200110002fc000000000095000000000000000050000000000406d s t' := by
  unfold execStatus at hx; obtain rfl := Host.Outcome.next.inj hx
  repeat' with_reducible first
    | exact Keeps.refl _ _ | assumption | refine takeCommand_keeps ?_

theorem execRunDeferredStart_keeps {site : Nat} {s : State} {t' : State} (hx : execRunDeferredStart site s = .next t') :
    Keeps 0x38300000788002140008094000000000000000000000000000000000000000000000009f0000000000700000000f0160000010f1f0000200110002fc000000000095000000000000000050000000000406d s t' := by
  unfold execRunDeferredStart at hx; obtain rfl := Host.Outcome.next.inj hx
  repeat' with_reducible first
    | exact Keeps.refl _ _ | assumption | refine Keeps.ite ?_ ?_ | refine runCommand_keeps ?_ | intro _ | split
    | (constructor <;> first | exact fun _ => rfl | exact fun _ _ => rfl | exact rfl | exact List.prefix_refl _ | exact Nat.le_refl _ | exact fun w => w | exact fun _ _ w => w | exact fun h => absurd h (by decide) | exact fun _ => ⟨fun _ _ => ⟨fun w => w, fun w => w⟩⟩)
    | refine Keeps.setPat ?_

theorem execHeadgateOpen_keeps {site : Nat} {onTime : Bool} {s : State} {t' : State} (hx : execHeadgateOpen site onTime s = .next t') :
    Keeps 0x383000006880020000000000000000000000000000000000000000000000000000003f00000000021e6000000000006000001000000000000000000000000000015700000000000000007fc00000000406d s t' := by
  unfold execHeadgateOpen at hx; obtain rfl := Host.Outcome.next.inj hx
  repeat' with_reducible first
    | exact Keeps.refl _ _ | assumption | refine Keeps.ite ?_ ?_ | refine headgateOpen_keeps ?_ | dsimp only | intro _ | split

theorem execDriftUpdate_keeps {site : Nat} {s : State} {t' : State} (hx : execDriftUpdate site s = .next t') :
    Keeps 0x400000000000001 s t' := by
  unfold execDriftUpdate at hx; obtain rfl := Host.Outcome.next.inj hx
  repeat' with_reducible first
    | exact Keeps.refl _ _ | assumption | refine Keeps.ite ?_ ?_ | refine driftEffect_keeps ?_ | split

theorem execStopAtBoundary_keeps {site : Nat} {s : State} {t' : State} (hx : execStopAtBoundary site s = .next t') :
    Keeps 0x38300000788002140008004000000000000000000000000000000000000000000000009f0000000000700000000f0160000010f000000000000002fc0000000000150000000000000000500000000004065 s t' := by
  unfold execStopAtBoundary at hx; obtain rfl := Host.Outcome.next.inj hx
  repeat' with_reducible first
    | exact Keeps.refl _ _ | assumption | refine Keeps.ite ?_ ?_ | refine stopSite_keeps ?_ | dsimp only | intro _ | split

theorem execFurrowClear_keeps {quad : Nat} {s : State} {t' : State} (hx : execFurrowClear quad s = .next t') :
    Keeps 32 s t' := by
  unfold execFurrowClear at hx; obtain rfl := Host.Outcome.next.inj hx
  repeat' with_reducible first
    | exact Keeps.refl _ _ | assumption | refine Keeps.ite ?_ ?_ | refine setFur_keeps ?_ | split

theorem execJumpRequest_keeps {m n i word : Nat} {s : State} {t' : State} (hx : execJumpRequest m n i word s = .next t') :
    Keeps (busMask ||| parMask ||| 0x3830000078a00200000000140000000000000000000000000000000000000000000000000000000000000000000000000000040000000000000000000000000000000070000080000000000000000004075) s t' := by
  unfold execJumpRequest at hx; obtain rfl := Host.Outcome.next.inj hx
  repeat' with_reducible first
    | exact Keeps.refl _ _ | assumption
    | refine takeIn_keeps ?_ ?_ | refine Keeps.ite ?_ ?_ | refine makePending_keeps ?_ | refine asWriter_keeps ?_ ?_ | intro _ | split
    | dsimp only

end Sys2Proof.Machine
end

