-- ==== Sys2Proof/Laws/Read.lean ====
section
/-! SUPPORT. What the operations and commands of Machine/Read.lean keep, and the components of the state they may write (Laws/Keeps.lean). -/

set_option exponentiation.threshold 2000

set_option Elab.async false

namespace Sys2Proof.Machine

open Sys2Proof

theorem discardCar_keeps {U : Nat} {s₀ : State} {e : Nat} {c : Car} {s : State} (hk : Keeps U s₀ s) (hT : 32 ||| U = U := by decide) : Keeps U s₀ (discardCar e c s) := by
  refine Keeps.step ?_ hT hk
  clear hk hT; unfold discardCar
  repeat' with_reducible first
    | exact Keeps.refl _ _ | assumption | refine Keeps.ite ?_ ?_ | refine freeEng_keeps ?_ | refine dropStaged_keeps ?_ | refine setReserved_keeps ?_
    | dsimp only | intro _ | split

theorem setReq_keeps {U : Nat} {s₀ : State} {i k : Nat} {q : Option Req} {s : State} (hk : Keeps U s₀ s) (hT : 32 ||| U = U := by decide) : Keeps U s₀ (setReq i k q s) := by
  refine Keeps.step ?_ hT hk
  clear hk hT; unfold setReq
  repeat' with_reducible first
    | exact Keeps.refl _ _ | assumption | refine Keeps.ite ?_ ?_ | refine setSite_keeps ?_ | dsimp only | split

theorem settleAlt_keeps {U : Nat} {s₀ s : State} {i k : Nat} (hk : Keeps U s₀ s) (hT : 0x800200000000000000000000000000000000000000000000000000000000100000000000000000000000000000000000000000000000000000000001020000000000000000000000000004021 ||| U = U := by decide) : Keeps U s₀ ((settleAlt i k s).1) := by
  refine Keeps.step ?_ hT hk
  clear hk hT
  unfold settleAlt
  repeat' with_reducible first
    | exact Keeps.refl _ _ | assumption | refine Keeps.ite ?_ ?_ | refine setReq_keeps ?_ | refine siteInt_keeps ?_ | refine incSat_keeps ?_
    | refine wr_keeps ?_ | dsimp only | intro _ | split

theorem settleBoth_keeps {U : Nat} {s₀ s : State} {i : Nat} (hk : Keeps U s₀ s) (hT : 0x800200000000000000000000000000000000000000000000000000000000100000000000000000000000000000000000000000000000000000000001020000000000000000000000000004021 ||| U = U := by decide) : Keeps U s₀ (settleBoth i s).1 := by
  have h1 : Keeps U s₀ (settleAlt i 1 s).1 := settleAlt_keeps hk (sub_trans (by decide) hT)
  unfold settleBoth
  split
  · rename_i e; rw [e] at h1; exact h1
  · rename_i t e
    rw [e] at h1
    have h2 : Keeps U s₀ (settleAlt i 2 t).1 := settleAlt_keeps h1 (sub_trans (by decide) hT)
    split
    · rename_i e; rw [e] at h2; exact h2
    · rename_i e; rw [e] at h2; exact h2

theorem noJump_keeps {U : Nat} {s₀ : State} {i : Nat} {s : State} (hk : Keeps U s₀ s) (hT : 0x3830000078800200000000000000000000000000000000000000000000000000000000000000000000000000000000000000000000000000000002fc0000000000000000000000000000000000000004025 ||| U = U := by decide) : Keeps U s₀ (noJump i s) := by
  refine Keeps.step ?_ hT hk
  clear hk hT; unfold noJump
  repeat' with_reducible first
    | exact Keeps.refl _ _ | assumption | refine Keeps.ite ?_ ?_ | refine dropCars_keeps ?_ | refine serveWaiting_keeps ?_ | refine setFur_keeps ?_
    | refine setRoute_keeps ?_ | refine forS_keeps ?_ ?_ | dsimp only | intro _ | split

theorem passBoundary_keeps {U : Nat} {s₀ : State} {q : Nat} {s : State} (hk : Keeps U s₀ s) (hT : 32 ||| U = U := by decide) : Keeps U s₀ (passBoundary q s) := by
  refine Keeps.step ?_ hT hk
  clear hk hT; unfold passBoundary
  repeat' with_reducible first
    | exact Keeps.refl _ _ | assumption | refine Keeps.ite ?_ ?_ | refine setFur_keeps ?_ | dsimp only | intro _ | split

theorem jumpFurrow_keeps {U : Nat} {s₀ : State} {regs : List Nat} {q : Nat} {s : State} (hk : Keeps U s₀ s) (hT : 32 ||| U = U := by decide) : Keeps U s₀ (jumpFurrow regs q s) := by
  refine Keeps.step ?_ hT hk
  clear hk hT; unfold jumpFurrow
  repeat' with_reducible first
    | exact Keeps.refl _ _ | assumption | refine Keeps.ite ?_ ?_ | refine setFur_keeps ?_ | dsimp only | intro _ | split

theorem jumpRoute_keeps {U : Nat} {s₀ : State} {i k r : Nat} {s : State} (hk : Keeps U s₀ s) (hT : 0x3830000078800200000000000000000000000000000000000000000000000000000000000000000000000000000000000000000000000000000008000000000000000000000000000000000000000004025 ||| U = U := by decide) : Keeps U s₀ (jumpRoute i k r s) := by
  refine Keeps.step ?_ hT hk
  clear hk hT; unfold jumpRoute
  repeat' with_reducible first
    | exact Keeps.refl _ _ | assumption | refine Keeps.ite ?_ ?_ | refine discardCar_keeps ?_ | refine heldOver_keeps ?_ | refine jumpFurrow_keeps ?_
    | refine fileAlt_keeps ?_ | refine freeEng_keeps ?_ | refine dropStaged_keeps ?_ | refine setRoute_keeps ?_ | refine forS_keeps ?_ ?_
    | intro _ | split | dsimp only
    | (constructor <;> first | exact fun _ => rfl | exact fun _ _ => rfl | exact rfl | exact List.prefix_refl _ | exact Nat.le_refl _ | exact fun w => w | exact fun _ _ w => w | exact fun h => absurd h (by decide) | exact fun _ => ⟨fun _ _ => ⟨fun w => w, fun w => w⟩⟩)
    | refine Keeps.setPat ?_

theorem putJumpLog_keeps {U : Nat} {s₀ : State} {i v : Nat} {s : State} (hk : Keeps U s₀ s) (hT : 0x38300000688002000000000000077f01003fc000000000000000000000000000000000000000000000000000000000000000000000000000000000000000000000000000000000000000000000000004227 ||| U = U := by decide) : Keeps U s₀ (putJumpLog i v s) := by
  refine Keeps.step ?_ hT hk
  clear hk hT; unfold putJumpLog
  repeat' with_reducible first
    | exact Keeps.refl _ _ | assumption
    | refine writeMem_keeps ?_ | refine setSite_keeps ?_ | dsimp only | intro _
    | (constructor <;> first | exact fun _ => rfl | exact fun _ _ => rfl | exact rfl | exact List.prefix_refl _ | exact Nat.le_refl _ | exact fun w => w | exact fun _ _ w => w | exact fun h => absurd h (by decide) | exact fun _ => ⟨fun _ _ => ⟨fun w => w, fun w => w⟩⟩)

theorem jumpLog_keeps {U : Nat} {s₀ : State} {i k target bvn : Nat} {source : Nat} {late : Bool} {s : State} (hk : Keeps U s₀ s) (hT : 0x38300000688002000000000000077f01003fc000000000000000000000000000000000000000000000000000000000000000000000000000000000000000000000000000000000000000000000000004227 ||| U = U := by decide) : Keeps U s₀ (jumpLog i k target bvn source late s) := by
  refine Keeps.step ?_ hT hk
  clear hk hT; unfold jumpLog
  repeat' with_reducible first
    | exact Keeps.refl _ _ | assumption
    | refine putJumpLog_keeps ?_ | refine Keeps.ite ?_ ?_ | refine setSite_keeps ?_ | refine writeMem_keeps ?_ | dsimp only | split
    | intro _

theorem jumpLogEnd_keeps {U : Nat} {s₀ : State} {i : Nat} {s : State} (hk : Keeps U s₀ s) (hT : 0x38300000688002000000000000077f01003fc000000000000000000000000000000000000000000000000000000000000000000000000000000000000000000000000000000000000000000000000004227 ||| U = U := by decide) : Keeps U s₀ (jumpLogEnd i s) := by
  refine Keeps.step ?_ hT hk
  clear hk hT; unfold jumpLogEnd
  repeat' with_reducible first
    | exact Keeps.refl _ _ | assumption
    | refine putJumpLog_keeps ?_ | dsimp only | intro _ | split

theorem takeJump_keeps {U : Nat} {s₀ : State} {i k : Nat} {req : Nat × Bool} {q : List Pres} {s : State} (hk : Keeps U s₀ s) (hT : 0x38300000788002000000000000077f01003fc00000000000000000000000000000000000000000000000000000000000000000000000000000000afc0000000000000000000000000000000000000004227 ||| U = U := by decide) : Keeps U s₀ (takeJump i k req q s) := by
  refine Keeps.step ?_ hT hk
  clear hk hT; unfold takeJump
  repeat' with_reducible first
    | exact Keeps.refl _ _ | assumption | refine jumpLog_keeps ?_ | refine jumpRoute_keeps ?_ | refine serveWaiting_keeps ?_ | refine setSite_keeps ?_
    | refine forS_keeps ?_ ?_ | dsimp only | intro _

theorem decisionPoint_keeps {U : Nat} {s₀ s : State} {i : Nat} {q : List Pres} (hk : Keeps U s₀ s) (hT : 0x38300000788002000000000000077f01003fc00000000000000000000000000000000010000000000000000000000000000000000000000000000afc0000000001020000000000000000000000000004227 ||| U = U := by decide) : Keeps U s₀ (decisionPoint i q s).1 := by
  have h1 : Keeps U s₀ (settleBoth i s).1 := settleBoth_keeps hk (sub_trans (by decide) hT)
  unfold decisionPoint
  split
  · exact setSite_keeps hk (sub_trans (by decide) hT)
  · split
    · exact hk
    · split
      · rename_i e; rw [e] at h1; with_reducible refine takeJump_keeps ?_ ?_; exact h1; exact sub_trans (by decide) hT
      · rename_i e; rw [e] at h1; with_reducible refine noJump_keeps ?_ ?_; exact h1; exact sub_trans (by decide) hT

theorem furParity_keeps {U : Nat} {s₀ : State} {i q : Nat} {s : State} (hk : Keeps U s₀ s) (hT : 0x38300000788002140008004000000000000000000000000000000000000000000000009f0000000000700000000f0160000010fe00000000000002fc0000000000150000000000000000500000000004065 ||| U = U := by decide) : Keeps U s₀ (furParity i q s) := by
  refine Keeps.step ?_ hT hk
  clear hk hT; unfold furParity
  repeat' with_reducible first
    | exact Keeps.refl _ _ | assumption | refine poisonSite_keeps ?_ | refine fltEvent_keeps ?_ | refine raiseInt_keeps ?_ | refine incSat_keeps ?_
    | refine wrs_keeps ?_ | dsimp only | split

theorem stepTo_keeps {U : Nat} {s₀ : State} {lead : Nat} {p : RPtr} {x : Fur} {q : Nat} {s : State} (hk : Keeps U s₀ s) (hT : 32 ||| U = U := by decide) : Keeps U s₀ (stepTo lead p x q s) := by
  refine Keeps.step ?_ hT hk
  clear hk hT; unfold stepTo
  repeat' with_reducible first
    | exact Keeps.refl _ _ | assumption
    | refine setFur_keeps ?_ | refine Keeps.ite ?_ ?_ | dsimp only | intro _ | split
    | (constructor <;> first | exact fun _ => rfl | exact fun _ _ => rfl | exact rfl | exact List.prefix_refl _ | exact Nat.le_refl _ | exact fun w => w | exact fun _ _ w => w | exact fun h => absurd h (by decide) | exact fun _ => ⟨fun _ _ => ⟨fun w => w, fun w => w⟩⟩)

theorem stepQuad_keeps {U : Nat} {s₀ : State} {lead : Nat} {q : Nat} {s : State} (hk : Keeps U s₀ s) (hT : 32 ||| U = U := by decide) : Keeps U s₀ (stepQuad lead q s) := by
  refine Keeps.step ?_ hT hk
  clear hk hT; unfold stepQuad
  repeat' with_reducible first
    | exact Keeps.refl _ _ | assumption
    | refine stepTo_keeps ?_ | refine Keeps.ite ?_ ?_ | refine setFur_keeps ?_ | dsimp only | intro _ | split

theorem stepAgain_keeps {U : Nat} {s₀ : State} {lead : Nat} {q : Nat} {s : State} (hk : Keeps U s₀ s) (hT : 32 ||| U = U := by decide) : Keeps U s₀ (stepAgain lead q s) := by
  refine Keeps.step ?_ hT hk
  clear hk hT; unfold stepAgain
  repeat' with_reducible first
    | exact Keeps.refl _ _ | assumption
    | refine stepTo_keeps ?_ | dsimp only | intro _ | split
    | (constructor <;> first | exact fun _ => rfl | exact fun _ _ => rfl | exact rfl | exact List.prefix_refl _ | exact Nat.le_refl _ | exact fun w => w | exact fun _ _ w => w | exact fun h => absurd h (by decide) | exact fun _ => ⟨fun _ _ => ⟨fun w => w, fun w => w⟩⟩)

theorem amendLast_keeps {U : Nat} {s₀ : State} {i : Nat} {f : Pres → Pres} {s : State} (hk : Keeps U s₀ s) (hT : 32 ||| U = U := by decide) : Keeps U s₀ (amendLast i f s) := by
  refine Keeps.step ?_ hT hk
  clear hk hT; unfold amendLast
  repeat' with_reducible first
    | exact Keeps.refl _ _ | assumption
    | refine setSite_keeps ?_ | refine Keeps.ite ?_ ?_ | dsimp only | intro _ | split
    | (constructor <;> first | exact fun _ => rfl | exact fun _ _ => rfl | exact rfl | exact List.prefix_refl _ | exact Nat.le_refl _ | exact fun w => w | exact fun _ _ w => w | exact fun h => absurd h (by decide) | exact fun _ => ⟨fun _ _ => ⟨fun w => w, fun w => w⟩⟩)

theorem decideLate_keeps {U : Nat} {s₀ : State} {i : Nat} {s : State} (hk : Keeps U s₀ s) (hT : 0x38300000788002000000000000077f01003fc00000000000000000000000000000000010000000000000000000000000000000000000000000000afc0000000001020000000000000000000000000004227 ||| U = U := by decide) : Keeps U s₀ (decideLate i s).1 := by
  refine Keeps.step ?_ hT hk
  clear hk hT; unfold decideLate
  repeat' with_reducible first
    | exact Keeps.refl _ _ | assumption | refine amendLast_keeps ?_ | refine decisionPoint_keeps ?_ | refine passBoundary_keeps ?_ | refine forS_keeps ?_ ?_
    | dsimp only | intro _ | split

theorem takeEntry_keeps {U : Nat} {s₀ : State} {i : Nat} {k : Peek} {s : State} (hk : Keeps U s₀ s) (hT : 0x38300000788002000000000000077f01003fc00000000000000000000000000000000010000000000000000000000000000000000000000000000afc0000000001020000000000000000000000000004227 ||| U = U := by decide) : Keeps U s₀ (takeEntry i k s) := by
  refine Keeps.step ?_ hT hk
  clear hk hT; unfold takeEntry
  repeat' with_reducible first
    | exact Keeps.refl _ _ | assumption
    | refine amendLast_keeps ?_ | refine Keeps.ite ?_ ?_ | refine decisionPoint_keeps ?_ | refine stepQuad_keeps ?_ | refine setSite_keeps ?_ | refine forS_keeps ?_ ?_
    | dsimp only | intro _ | split

theorem takeAgain_keeps {U : Nat} {s₀ : State} {i : Nat} {p : Pres} {rest : List Pres} {s : State} (hk : Keeps U s₀ s) (hT : 32 ||| U = U := by decide) : Keeps U s₀ (takeAgain i p rest s) := by
  refine Keeps.step ?_ hT hk
  clear hk hT; unfold takeAgain
  repeat' with_reducible first
    | exact Keeps.refl _ _ | assumption
    | refine forS_keeps ?_ ?_ | refine stepAgain_keeps ?_ | refine setSite_keeps ?_ | refine Keeps.ite ?_ ?_ | dsimp only | intro _ | split
    | (constructor <;> first | exact fun _ => rfl | exact fun _ _ => rfl | exact rfl | exact List.prefix_refl _ | exact Nat.le_refl _ | exact fun w => w | exact fun _ _ w => w | exact fun h => absurd h (by decide) | exact fun _ => ⟨fun _ _ => ⟨fun w => w, fun w => w⟩⟩)

theorem decideLone_keeps {U : Nat} {s₀ : State} {i : Nat} {s : State} (hk : Keeps U s₀ s) (hT : 0x38300000788002000000000000077f01003fc00000000000000000000000000000000010000000000000000000000000000000000000000000000afc0000000001020000000000000000000000000004227 ||| U = U := by decide) : Keeps U s₀ (decideLone i s) := by
  refine Keeps.step ?_ hT hk
  clear hk hT; unfold decideLone
  repeat' with_reducible first
    | exact Keeps.refl _ _ | assumption
    | refine setSite_keeps ?_ | refine amendLast_keeps ?_ | refine decideLate_keeps ?_ | refine openStop_keeps ?_ | refine Keeps.ite ?_ ?_ | dsimp only
    | intro _ | split
    | (constructor <;> first | exact fun _ => rfl | exact fun _ _ => rfl | exact rfl | exact List.prefix_refl _ | exact Nat.le_refl _ | exact fun w => w | exact fun _ _ w => w | exact fun h => absurd h (by decide) | exact fun _ => ⟨fun _ _ => ⟨fun w => w, fun w => w⟩⟩)

theorem fetchEntry_keeps {U : Nat} {s₀ : State} {i : Nat} {upset : Option Nat} {s : State} (hk : Keeps U s₀ s) (hT : 0x38300000788002140008004000077f01003fc0000000000000000000000000000000009f0000000000700000000f0160000010fe0000000000000afc0000000001170000000000000000500000000004267 ||| U = U := by decide) : Keeps U s₀ (fetchEntry i upset s) := by
  refine Keeps.step ?_ hT hk
  clear hk hT; unfold fetchEntry
  repeat' with_reducible first
    | exact Keeps.refl _ _ | assumption
    | refine takeAgain_keeps ?_ | refine decideLone_keeps ?_ | refine takeEntry_keeps ?_ | refine openStop_keeps ?_ | refine Keeps.ite ?_ ?_ | refine stepQuad_keeps ?_
    | refine furParity_keeps ?_ | refine decideLate_keeps ?_ | refine decisionPoint_keeps ?_ | refine setSite_keeps ?_ | refine forS_keeps ?_ ?_ | dsimp only | intro _ | split

theorem passEntry_keeps {U : Nat} {s₀ : State} {q : Nat} {s : State} (hk : Keeps U s₀ s) (hT : 32 ||| U = U := by decide) : Keeps U s₀ (passEntry q s) := by
  refine Keeps.step ?_ hT hk
  clear hk hT; unfold passEntry
  repeat' with_reducible first
    | exact Keeps.refl _ _ | assumption | refine Keeps.ite ?_ ?_ | refine setFur_keeps ?_ | dsimp only | intro _ | split

theorem entryDone_keeps {U : Nat} {s₀ : State} {i : Nat} {s : State} (hk : Keeps U s₀ s) (hT : 0x38300000688002000000000000077f01003fc000000000000000000000000000000000000000000000000000000000000000000000000000000000000000000000000000000000000000000000000004227 ||| U = U := by decide) : Keeps U s₀ (entryDone i s) := by
  refine Keeps.step ?_ hT hk
  clear hk hT; unfold entryDone
  repeat' with_reducible first
    | exact Keeps.refl _ _ | assumption
    | refine jumpLogEnd_keeps ?_ | refine Keeps.ite ?_ ?_ | refine passEntry_keeps ?_ | refine passBoundary_keeps ?_ | refine setFur_keeps ?_
    | refine setSite_keeps ?_ | refine forS_keeps ?_ ?_ | dsimp only | intro _ | split

theorem beginVector_keeps {U : Nat} {s₀ : State} {i : Nat} {c : Cur} {label : Option Nat} {s : State} (hk : Keeps U s₀ s) (hT : 0x38300000688002000000000000000000000000000000000000000000000000000200004f0000001401700000000000600000100000000000000000000000000000000000000000000000200000000004065 ||| U = U := by decide) : Keeps U s₀ (beginVector i c label s) := by
  refine Keeps.step ?_ hT hk
  clear hk hT; unfold beginVector
  repeat' with_reducible first
    | exact Keeps.refl _ _ | assumption | refine acqCycle_keeps ?_ | refine Keeps.ite ?_ ?_ | refine startVector_keeps ?_
    | refine setSite_keeps ?_ | refine wr_keeps ?_ | refine forS_keeps ?_ ?_ | dsimp only | intro _ | split

theorem passComplete_keeps {U : Nat} {s₀ : State} {i : Nat} {c : Cur} {s : State} (hk : Keeps U s₀ s) (hT : 32 ||| U = U := by decide) : Keeps U s₀ (passComplete i c s) := by
  refine Keeps.step ?_ hT hk
  clear hk hT; unfold passComplete
  repeat' with_reducible first
    | exact Keeps.refl _ _ | assumption | refine Keeps.ite ?_ ?_ | refine setSite_keeps ?_ | dsimp only | split

theorem flagAction_keeps {U : Nat} {s₀ : State} {i : Nat} {t : Tag} {s : State} (hk : Keeps U s₀ s) (hT : 0x800000000000000000000000000000001 ||| U = U := by decide) : Keeps U s₀ (flagAction i t s) := by
  refine Keeps.step ?_ hT hk
  clear hk hT; unfold flagAction
  repeat' with_reducible first
    | exact Keeps.refl _ _ | assumption | refine Keeps.ite ?_ ?_ | refine wr_keeps ?_ | dsimp only | split

theorem presentEntry_keeps {U : Nat} {s₀ : State} {i : Nat} {p : Pres} {rest : List Pres} {s : State} (hk : Keeps U s₀ s) (hT : 0x38300000688002000000000000000000000000000000000000000000000000000200004f000000140170000000000060000010f140000000000000000000000000800000000000000000200000000004065 ||| U = U := by decide) : Keeps U s₀ (presentEntry i p rest s) := by
  refine Keeps.step ?_ hT hk
  clear hk hT; unfold presentEntry
  repeat' with_reducible first
    | exact Keeps.refl _ _ | assumption | refine Keeps.ite ?_ ?_ | refine flagAction_keeps ?_ | refine passComplete_keeps ?_
    | refine beginVector_keeps ?_ | refine gapEnd_keeps ?_ | refine finishVector_keeps ?_ | refine trigOutSegment_keeps ?_ | refine setSite_keeps ?_
    | refine incSat_keeps ?_ | refine wr_keeps ?_ | refine forS_keeps ?_ ?_ | dsimp only | intro _ | split

theorem repeatVector_keeps {U : Nat} {s₀ : State} {i : Nat} {c : Cur} {s : State} (hk : Keeps U s₀ s) (hT : 0x38300000688002000000000000000000000000000000000000000000000000000200004f0000001401700000000000600000100000000000000000000000000000000000000000000000200000000004065 ||| U = U := by decide) : Keeps U s₀ (repeatVector i c s) := by
  refine Keeps.step ?_ hT hk
  clear hk hT; unfold repeatVector
  repeat' with_reducible first
    | exact Keeps.refl _ _ | assumption | refine passComplete_keeps ?_ | refine beginVector_keeps ?_ | refine finishVector_keeps ?_ | dsimp only

theorem idleItem_keeps {U : Nat} {s₀ : State} {i : Nat} {s : State} (hk : Keeps U s₀ s) (hT : 0x38300000688002000000000000000000000000000000000000000000000000000000004f0000001000700000000000600000100000000000000000000000000000000000000000000000000000000004065 ||| U = U := by decide) : Keeps U s₀ (idleItem i s) := by
  refine Keeps.step ?_ hT hk
  clear hk hT; unfold idleItem
  repeat' with_reducible first
    | exact Keeps.refl _ _ | assumption | refine Keeps.ite ?_ ?_ | refine finishVector_keeps ?_ | refine startVector_keeps ?_ | dsimp only | intro _
    | split

theorem underrunItem_keeps {U : Nat} {s₀ : State} {i : Nat} {s : State} (hk : Keeps U s₀ s) (hT : 0x38300000688002000000000000000000000000000000000000000000000000000000004f0000001000700000000000600000100000000000000000000000000000000000000000000000000000000004065 ||| U = U := by decide) : Keeps U s₀ (underrunItem i s) := by
  refine Keeps.step ?_ hT hk
  clear hk hT; unfold underrunItem
  repeat' with_reducible first
    | exact Keeps.refl _ _ | assumption | refine Keeps.ite ?_ ?_ | refine idleItem_keeps ?_ | refine openStop_keeps ?_ | refine setSite_keeps ?_
    | refine raiseInt_keeps ?_ | refine forS_keeps ?_ ?_ | dsimp only | intro _ | split

theorem unmark_keeps {U : Nat} {s₀ : State} {i n : Nat} {s : State} (hk : Keeps U s₀ s) (hT : 32 ||| U = U := by decide) : Keeps U s₀ (unmark i n s) := by
  refine Keeps.step ?_ hT hk
  clear hk hT; unfold unmark
  repeat' with_reducible first
    | exact Keeps.refl _ _ | assumption | refine Keeps.ite ?_ ?_ | refine setFur_keeps ?_ | refine forS_keeps ?_ ?_ | dsimp only | intro _ | split

theorem rewind_keeps {U : Nat} {s₀ : State} {i : Nat} {u : Pass} {s : State} (hk : Keeps U s₀ s) (hT : 0xc0000000000000000000000000000000000000000000000000000000021 ||| U = U := by decide) : Keeps U s₀ (rewind i u s) := by
  refine Keeps.step ?_ hT hk
  clear hk hT; unfold rewind
  repeat' with_reducible first
    | exact Keeps.refl _ _ | assumption | refine Keeps.ite ?_ ?_ | refine setFur_keeps ?_ | refine setSite_keeps ?_ | refine incSat_keeps ?_
    | refine wr_keeps ?_ | refine forS_keeps ?_ ?_ | dsimp only | intro _ | split

theorem entryStops_keeps {U : Nat} {s₀ : State} {i : Nat} {p : Pres} {s : State} (hk : Keeps U s₀ s) (hT : 0x38300000788002140008004000000000000000000000000000000000000000000000009f0000000000700000000f0160000010f000000000000002fc0000000000150000000000000000500000000004065 ||| U = U := by decide) : Keeps U s₀ (entryStops i p s) := by
  refine Keeps.step ?_ hT hk
  clear hk hT; unfold entryStops
  repeat' with_reducible first
    | exact Keeps.refl _ _ | assumption | refine Keeps.ite ?_ ?_ | refine stopSite_keeps ?_ | dsimp only | intro _ | split

theorem dwellEnd_keeps {U : Nat} {s₀ : State} {i : Nat} {s : State} (hk : Keeps U s₀ s) (hT : 0x38300000788002140008004000077f01003fc0000000000000000000000000000000009f0000000000700000000f0160000010f0f000000000000afc0000000001170000000000000000500000000004267 ||| U = U := by decide) : Keeps U s₀ (dwellEnd i s) := by
  refine Keeps.step ?_ hT hk
  clear hk hT; unfold dwellEnd
  repeat' with_reducible first
    | exact Keeps.refl _ _ | assumption | refine Keeps.ite ?_ ?_ | refine entryStops_keeps ?_ | refine rewind_keeps ?_ | refine unmark_keeps ?_
    | refine entryDone_keeps ?_ | refine decideLate_keeps ?_ | refine decisionPoint_keeps ?_ | refine passBoundary_keeps ?_ | refine stopSite_keeps ?_ | refine setSite_keeps ?_
    | refine wrs_keeps ?_ | refine forS_keeps ?_ ?_ | dsimp only | intro _ | split

theorem nextPeriod_keeps {U : Nat} {s₀ : State} {i : Nat} {s : State} (hk : Keeps U s₀ s) (hT : 0x38300000688002000000000000000000000000000000000000000000000000000200004f000000140170000000000060000010f140000000000000000000000000800000000000000000200000000004065 ||| U = U := by decide) : Keeps U s₀ (nextPeriod i s) := by
  refine Keeps.step ?_ hT hk
  clear hk hT; unfold nextPeriod
  repeat' with_reducible first
    | exact Keeps.refl _ _ | assumption | refine Keeps.ite ?_ ?_ | refine underrunItem_keeps ?_ | refine idleItem_keeps ?_
    | refine presentEntry_keeps ?_ | split

theorem noteEnd_keeps {U : Nat} {s₀ : State} {i : Nat} {s : State} (hk : Keeps U s₀ s) (hT : 32 ||| U = U := by decide) : Keeps U s₀ (noteEnd i s) := by
  refine Keeps.step ?_ hT hk
  clear hk hT; unfold noteEnd
  repeat' with_reducible first
    | exact Keeps.refl _ _ | assumption
    | refine setSite_keeps ?_ | refine amendLast_keeps ?_ | refine Keeps.ite ?_ ?_ | dsimp only | intro _ | split
    | (constructor <;> first | exact fun _ => rfl | exact fun _ _ => rfl | exact rfl | exact List.prefix_refl _ | exact Nat.le_refl _ | exact fun w => w | exact fun _ _ w => w | exact fun h => absurd h (by decide) | exact fun _ => ⟨fun _ _ => ⟨fun w => w, fun w => w⟩⟩)

theorem vectorPeriodOf_keeps {U : Nat} {s₀ : State} {i : Nat} {s : State} (hk : Keeps U s₀ s) (hT : 0x38300000788002140008004000077f01003fc000000000000000000000000000020000df0000001401700000000f0160000010f1f000000000000afc0000000001970000000000000000700000000004267 ||| U = U := by decide) : Keeps U s₀ (vectorPeriodOf i s) := by
  refine Keeps.step ?_ hT hk
  clear hk hT; unfold vectorPeriodOf
  repeat' with_reducible first
    | exact Keeps.refl _ _ | assumption
    | refine noteEnd_keeps ?_ | refine stopSite_keeps ?_ | refine Keeps.ite ?_ ?_ | refine nextPeriod_keeps ?_ | refine dwellEnd_keeps ?_
    | refine entryStops_keeps ?_ | refine repeatVector_keeps ?_ | refine entryDone_keeps ?_ | refine setSite_keeps ?_ | dsimp only | intro _ | split

theorem loneIdle_keeps {U : Nat} {s₀ : State} {q : Nat} {s : State} (hk : Keeps U s₀ s) (hT : 0x3830000068800200000000000000000000000000000000000000000000000000000000000000000000000000000000600000100000000000000000000000000000000000000000000000000000000004065 ||| U = U := by decide) : Keeps U s₀ (loneIdle q s) := by
  refine Keeps.step ?_ hT hk
  clear hk hT; unfold loneIdle
  repeat' with_reducible first
    | exact Keeps.refl _ _ | assumption
    | refine loadTaps_keeps ?_ | refine Keeps.ite ?_ ?_ | refine pinEdges_keeps ?_ | refine forS_keeps ?_ ?_ | dsimp only | intro _
    | (constructor <;> first | exact fun _ => rfl | exact fun _ _ => rfl | exact rfl | exact List.prefix_refl _ | exact Nat.le_refl _ | exact fun w => w | exact fun _ _ w => w | exact fun h => absurd h (by decide) | exact fun _ => ⟨fun _ _ => ⟨fun w => w, fun w => w⟩⟩)
    | refine Keeps.setPat ?_ | split

theorem execEntryFetch_keeps {site : Nat} {upset : Option Nat} {s : State} {t' : State} (hx : execEntryFetch site upset s = .next t') :
    Keeps 0x38300000788002140008004000077f01003fc0000000000000000000000000000000009f0000000000700000000f0160000010fe0000000000000afc0000000001170000000000000000500000000004267 s t' := by
  unfold execEntryFetch at hx; obtain rfl := Host.Outcome.next.inj hx
  repeat' with_reducible first
    | exact Keeps.refl _ _ | assumption | refine fetchEntry_keeps ?_

theorem execResumePositionArrival_keeps {site : Nat} {s : State} {t' : State} (hx : execResumePositionArrival site s = .next t') :
    Keeps 32 s t' := by
  unfold execResumePositionArrival at hx; obtain rfl := Host.Outcome.next.inj hx
  repeat' with_reducible first
    | exact Keeps.refl _ _ | assumption | refine Keeps.ite ?_ ?_ | refine setFur_keeps ?_ | refine forS_keeps ?_ ?_ | dsimp only | intro _ | split

theorem execSiteStepBroadcast_keeps {quad : Nat} {s : State} {t' : State} (hx : execSiteStepBroadcast quad s = .next t') :
    Keeps 32 s t' := by
  unfold execSiteStepBroadcast at hx; obtain rfl := Host.Outcome.next.inj hx
  repeat' with_reducible first
    | exact Keeps.refl _ _ | assumption | refine setFur_keeps ?_ | split

theorem execMatchDecision_keeps {site : Nat} {s : State} {t' : State} (hx : execMatchDecision site s = .next t') :
    Keeps 32 s t' := by
  unfold execMatchDecision at hx; obtain rfl := Host.Outcome.next.inj hx
  repeat' with_reducible first
    | exact Keeps.refl _ _ | assumption | refine Keeps.ite ?_ ?_ | refine setSite_keeps ?_ | dsimp only | intro _ | split

theorem execDwellEnd_keeps {site : Nat} {s : State} {t' : State} (hx : execDwellEnd site s = .next t') :
    Keeps 0x38300000788002140008004000077f01003fc0000000000000000000000000000000009f0000000000700000000f0160000010f0f000000000000afc0000000001170000000000000000500000000004267 s t' := by
  unfold execDwellEnd at hx; obtain rfl := Host.Outcome.next.inj hx
  repeat' with_reducible first
    | exact Keeps.refl _ _ | assumption | refine Keeps.ite ?_ ?_ | refine dwellEnd_keeps ?_ | split

theorem execVectorPeriod_keeps {quad : Bool} {k : Nat} {s : State} {t' : State} (hx : execVectorPeriod quad k s = .next t') :
    Keeps 0x38300000788002140008004000077f01003fc000000000000000000000000000020000df0000001401700000000f0160000010f1f000000000000afc0000000001970000000000000000700000000004267 s t' := by
  unfold execVectorPeriod at hx; obtain rfl := Host.Outcome.next.inj hx
  repeat' with_reducible first
    | exact Keeps.refl _ _ | assumption | refine Keeps.ite ?_ ?_ | refine loneIdle_keeps ?_ | refine vectorPeriodOf_keeps ?_ | split

end Sys2Proof.Machine
end

