-- ==== Sys2Proof/Laws/Wear.lean ====
section
/-! SUPPORT. What the operations and commands of Machine/Wear.lean keep, and the components of the state they may write (Laws/Keeps.lean). -/

set_option exponentiation.threshold 2000

set_option Elab.async false

namespace Sys2Proof.Machine

open Sys2Proof

theorem propLeave_keeps {U : Nat} {s₀ : State} {id : Nat} {noSpare : Bool} {s : State} (hk : Keeps U s₀ s) (hT : 0x30000000000000000000000000000000000000000000000000000000000000000000000000000000000000000000000000000000000000000000000000000000000000000000000000000000000000000000000000000000000002001 ||| U = U := by decide) : Keeps U s₀ (propLeave id noSpare s) := by
  refine Keeps.step ?_ hT hk
  exact wrs_keeps (Keeps.setProps rfl (fun h => Nat.le_trans (List.length_filter_le ..) h) (Keeps.refl _ _))

theorem propDone_keeps {U : Nat} {s₀ : State} {kind inst : Nat} {s : State} (hk : Keeps U s₀ s) (hT : 0x2030000000000000000000000030000000800200000000000000000000000000000000000000000000000000000000000000000000000000000000000000000000000000000000000000000000000000000000000000000000000006005 ||| U = U := by decide) : Keeps U s₀ (propDone kind inst s) := by
  refine Keeps.step ?_ hT hk
  clear hk hT; unfold propDone
  repeat' with_reducible first
    | exact Keeps.refl _ _ | assumption | refine propLeave_keeps ?_ | refine evlog_keeps ?_ | refine raiseInt_keeps ?_ | refine incSat_keeps ?_
    | dsimp only | split

theorem propNoSpare_keeps {U : Nat} {s₀ : State} {kind inst : Nat} {s : State} (hk : Keeps U s₀ s) (hT : 0x30000000000000000000000000000000000000000000000000000000000000000000000000000000000000000000000000000000000000000000000000000000000000000000000000000000000000000000000000000000000002001 ||| U = U := by decide) : Keeps U s₀ (propNoSpare kind inst s) := by
  refine Keeps.step ?_ hT hk
  clear hk hT; unfold propNoSpare
  repeat' with_reducible first
    | exact Keeps.refl _ _ | assumption | refine propLeave_keeps ?_ | split

theorem propApprove_keeps {U : Nat} {s₀ : State} {id : Nat} {s : State} (hk : Keeps U s₀ s) (hT : 8704 ||| U = U := by decide) : Keeps U s₀ (propApprove id s) := by
  refine Keeps.step ?_ hT hk
  constructor
  case wfProps => exact fun h => by simpa [propApprove] using h
  all_goals first | exact fun _ => rfl | exact fun _ _ => rfl | exact rfl | exact List.prefix_refl _ | exact Nat.le_refl _ | exact fun w => w | exact fun _ _ w => w | exact fun h => absurd h (by decide) | exact fun _ => ⟨fun _ _ => ⟨fun w => w, fun w => w⟩⟩

theorem propFile_keeps {U : Nat} {s₀ : State} {kind inst cause : Nat} {s : State} (hk : Keeps U s₀ s) (hT : 0x1800000000000000000000003830000068800200000000000000000000000000000000000000000000000000000000000000000000000000000000000000000000000000000000000000000000000000000000000000000000000006205 ||| U = U := by decide) : Keeps U s₀ (propFile kind inst cause s) := by
  refine Keeps.step ?_ hT hk
  clear hk hT; unfold propFile
  refine Keeps.ite (incSat_keeps (Keeps.refl _ _)) ?_
  split
  · exact raiseInt_keeps (fltEvent_keeps (Keeps.refl _ _))
  · rename_i h
    have k : Keeps 0x1800000000000000000000003830000068800200000000000000000000000000000000000000000000000000000000000000000000000000000000000000000000000000000000000000000000000000000000000000000000000006205 s { s with lcs := { s.lcs with props := s.lcs.props ++ [⟨s.lcs.nextId, kind, inst, cause, false⟩], nextId := (s.lcs.nextId + 1) % 256 } } :=
      Keeps.setProps rfl (fun _ => by simp; omega) (Keeps.refl _ _)
    dsimp only
    exact Keeps.ite (propApprove_keeps (raiseInt_keeps (incSat_keeps k))) (raiseInt_keeps (incSat_keeps k))

theorem ptbFollow_keeps {U : Nat} {s₀ : State} {s : State} (hk : Keeps U s₀ s) (hT : 0x10000000000000000000000003830000878800200000000000000000000000000000000000000000000000000000000000000000000000000000000000000000000000000000000000000000000000000000000000000000000000004005 ||| U = U := by decide) : Keeps U s₀ (ptbFollow s) := by
  refine Keeps.step ?_ hT hk
  clear hk hT; unfold ptbFollow
  repeat' with_reducible first
    | exact Keeps.refl _ _ | assumption | refine Keeps.ite ?_ ?_ | refine setLiveInt_keeps ?_ | refine orBits_keeps ?_ | refine wrb_keeps ?_
    | dsimp only | split

theorem ptbQuiet_keeps {U : Nat} {s₀ : State} {s : State} (hk : Keeps U s₀ s) (hT : 8192 ||| U = U := by decide) : Keeps U s₀ (ptbQuiet s) := by
  refine Keeps.step ?_ hT hk
  clear hk hT; unfold ptbQuiet
  repeat' with_reducible first
    | exact Keeps.refl _ _ | assumption
    | refine Keeps.setLcs ⟨rfl, rfl⟩ ?_ | dsimp only | intro _
    | (constructor <;> first | exact fun _ => rfl | exact fun _ _ => rfl | exact rfl | exact List.prefix_refl _ | exact Nat.le_refl _ | exact fun w => w | exact fun _ _ w => w | exact fun h => absurd h (by decide) | exact fun _ => ⟨fun _ _ => ⟨fun w => w, fun w => w⟩⟩)

theorem ptbDisarm_keeps {U : Nat} {s₀ : State} {k : Nat} {s : State} (hk : Keeps U s₀ s) (hT : 0x90000000000000000000000003830000878800200000000000000000000000000000000000000000000000000000000000000000000000000000000000000000000000000000000000000000000000000000000000000000000000004005 ||| U = U := by decide) : Keeps U s₀ (ptbDisarm k s) := by
  refine Keeps.step ?_ hT hk
  clear hk hT; unfold ptbDisarm
  repeat' with_reducible first
    | exact Keeps.refl _ _ | assumption | refine ptbFollow_keeps ?_ | refine wr_keeps ?_

theorem ptbLock_keeps {U : Nat} {s₀ : State} {s : State} (hk : Keeps U s₀ s) (hT : 0xbc000000000000000000000003830000878800200000000000000000000000000000000000000000000000000000000000000000000000000000000000000000000000000000000000000000000000000000000000000000000000006005 ||| U = U := by decide) : Keeps U s₀ (ptbLock s) := by
  refine Keeps.step ?_ hT hk
  clear hk hT; unfold ptbLock
  repeat' with_reducible first
    | exact Keeps.refl _ _ | assumption
    | refine ptbQuiet_keeps ?_ | refine Keeps.ite ?_ ?_ | refine ptbFollow_keeps ?_ | refine evlog_keeps ?_ | refine wrs_keeps ?_
    | refine wr_keeps ?_ | refine forS_keeps ?_ ?_ | dsimp only | intro _ | split
    | (constructor <;> first | exact fun _ => rfl | exact fun _ _ => rfl | exact rfl | exact List.prefix_refl _ | exact Nat.le_refl _ | exact fun w => w | exact fun _ _ w => w | exact fun h => absurd h (by decide) | exact fun _ => ⟨fun _ _ => ⟨fun w => w, fun w => w⟩⟩)
    | refine Keeps.setLcs ⟨rfl, rfl⟩ ?_

end Sys2Proof.Machine
end

