-- ==== Sys2Proof/Laws/Analysis.lean ====
section
/-! SUPPORT. What the operations and commands of Machine/Analysis.lean keep, and the components of the state they may write (Laws/Keeps.lean). -/

set_option exponentiation.threshold 2000

set_option Elab.async false

namespace Sys2Proof.Machine

open Sys2Proof

theorem putAu_keeps {U : Nat} {s₀ : State} {u : Nat} {x : Au} {s : State} (hk : Keeps U s₀ s) (hT : 0x20000400000000000000000000000000000000000000000000000000000000000000000000000000000000000000000000000000000081 ||| U = U := by decide) : Keeps U s₀ (putAu u x s) := by
  refine Keeps.step ?_ hT hk
  clear hk hT; unfold putAu
  repeat' with_reducible first
    | exact Keeps.refl _ _ | assumption | refine setAu_keeps ?_ | refine wrs_keeps ?_

theorem setAuState_keeps {U : Nat} {s₀ : State} {u v : Nat} {s : State} (hk : Keeps U s₀ s) (hT : 0x100000000000000000000000000000000000000000000000000000000000000000000000000000000000000000000000000000001 ||| U = U := by decide) : Keeps U s₀ (setAuState u v s) := by
  refine Keeps.step ?_ hT hk
  clear hk hT; unfold setAuState
  repeat' with_reducible first
    | exact Keeps.refl _ _ | assumption | refine wr_keeps ?_

theorem setAuX_keeps {U : Nat} {s₀ : State} {u k v : Nat} {s : State} (hk : Keeps U s₀ s) (hT : 0x8000000000000000000000000000000000000000000000000000000000000000000000000000000000000000000000000000000000000001 ||| U = U := by decide) : Keeps U s₀ (setAuX u k v s) := by
  refine Keeps.step ?_ hT hk
  clear hk hT; unfold setAuX
  repeat' with_reducible first
    | exact Keeps.refl _ _ | assumption | refine wr_keeps ?_

theorem setAuData_keeps {U : Nat} {s₀ : State} {u a v : Nat} {s : State} (hk : Keeps U s₀ s) (hT : 128 ||| U = U := by decide) : Keeps U s₀ (setAuData u a v s) := by
  refine Keeps.step ?_ hT hk
  clear hk hT; unfold setAuData
  repeat' with_reducible first
    | exact Keeps.refl _ _ | assumption | refine setAu_keeps ?_

theorem setAuProg_keeps {U : Nat} {s₀ : State} {u a v : Nat} {s : State} (hk : Keeps U s₀ s) (hT : 128 ||| U = U := by decide) : Keeps U s₀ (setAuProg u a v s) := by
  refine Keeps.step ?_ hT hk
  clear hk hT; unfold setAuProg
  repeat' with_reducible first
    | exact Keeps.refl _ _ | assumption | refine setAu_keeps ?_

theorem tapArrive_keeps {U : Nat} {s₀ : State} {u : Nat} {t : TapEnt} {s : State} (hk : Keeps U s₀ s) (hT : 0x800200000000000000000000000000000000003000020000400000000000000000000000000000000000000000000000000000000000000000000000000000000000000000000000000004081 ||| U = U := by decide) : Keeps U s₀ (tapArrive u t s) := by
  refine Keeps.step ?_ hT hk
  clear hk hT; unfold tapArrive
  repeat' with_reducible first
    | exact Keeps.refl _ _ | assumption | refine Keeps.ite ?_ ?_ | refine putAu_keeps ?_ | refine setAu_keeps ?_ | refine raiseInt_keeps ?_
    | refine incSat_keeps ?_ | dsimp only | split

theorem tapPop_keeps {U : Nat} {s₀ : State} {u : Nat} {s : State} (hk : Keeps U s₀ s) (hT : 0x20000400000000000000000000000000000000000000000000000000000000000000000000000000000000000000000000000000000081 ||| U = U := by decide) : Keeps U s₀ (tapPop u s) := by
  refine Keeps.step ?_ hT hk
  clear hk hT; unfold tapPop
  repeat' with_reducible first
    | exact Keeps.refl _ _ | assumption | refine Keeps.ite ?_ ?_ | refine putAu_keeps ?_ | dsimp only | split

theorem auFault_keeps {U : Nat} {s₀ : State} {u code addr : Nat} {s : State} (hk : Keeps U s₀ s) (hT : 0x3830000068800200000000000000000000000000000000000000000380300000000000000000000000000000000000000000000000000000000000000000000000000000000000000000000000000006085 ||| U = U := by decide) : Keeps U s₀ (auFault u code addr s) := by
  refine Keeps.step ?_ hT hk
  clear hk hT; unfold auFault
  repeat' with_reducible first
    | exact Keeps.refl _ _ | assumption | refine wearNote_keeps ?_ | refine Keeps.ite ?_ ?_ | refine setAu_keeps ?_ | refine fltEvent_keeps ?_
    | refine raiseInt_keeps ?_ | refine wrs_keeps ?_ | refine wr_keeps ?_ | dsimp only | intro _ | split

theorem auAdvance_keeps {U : Nat} {s₀ : State} {u : Nat} {was : Option Nat} {s : State} (hk : Keeps U s₀ s) (hT : 0x200000000000000000000000000000000000000000000000000000000000000000000000000000000000000000000000000000081 ||| U = U := by decide) : Keeps U s₀ (auAdvance u was s) := by
  refine Keeps.step ?_ hT hk
  clear hk hT; unfold auAdvance
  repeat' with_reducible first
    | exact Keeps.refl _ _ | assumption | refine Keeps.ite ?_ ?_ | refine setAu_keeps ?_ | refine wr_keeps ?_ | dsimp only | split

theorem auHaltCheck_keeps {U : Nat} {s₀ : State} {u : Nat} {s : State} (hk : Keeps U s₀ s) (hT : 0x100000000000000000000000000000000000000000000000000000000000000000000000000000000000000000000000000000081 ||| U = U := by decide) : Keeps U s₀ (auHaltCheck u s) := by
  refine Keeps.step ?_ hT hk
  clear hk hT; unfold auHaltCheck
  repeat' with_reducible first
    | exact Keeps.refl _ _ | assumption | refine Keeps.ite ?_ ?_ | refine setAuState_keeps ?_ | refine setAu_keeps ?_ | dsimp only | split

theorem auExec_keeps {U : Nat} {s₀ y : State} {u : Nat} {up : AuUpset} {waited : Nat} {i : AuInstr} 
    (hf : ∀ w x, Keeps U x (i.run u w x)) (h : Keeps U s₀ y) (hU : 0x3830000068800200000000000000000000000000000000000c00000380300000000000000000000000000000000000000000000000000000000000000000000000000000000000000000000000000006085 ||| U = U := by decide) : Keeps U s₀ (auExec u up waited i y) := by
  have hf' : ∀ {a w x}, Keeps U a x → Keeps U a (i.run u w x) := fun k => Keeps.step (hf ..) (Nat.or_self U) k
  unfold auExec
  repeat' with_reducible first
    | exact Keeps.refl _ _ | assumption | refine hf' ?_ | refine Keeps.ite ?_ ?_ | refine auHaltCheck_keeps ?_ (sub_trans (by decide) hU)
    | refine auAdvance_keeps ?_ (sub_trans (by decide) hU) | refine auFault_keeps ?_ (sub_trans (by decide) hU)
    | refine setAuState_keeps ?_ (sub_trans (by decide) hU) | refine setAu_keeps ?_ (sub_trans (by decide) hU)
    | refine addWrap_keeps ?_ (sub_trans (by first | decide | (split <;> first | decide | with_unfolding_all (refine fldMask_of (by conv => lhs; whnf) ?_; decide)) | with_unfolding_all (refine fldMask_of (by conv => lhs; whnf) ?_; decide)) hU)
    | dsimp only | split

theorem postModify_keeps {U : Nat} {s₀ : State} {u n code : Nat} {s : State} (hk : Keeps U s₀ s) (hT : 0x40000000000000000000000000000000000000000000000000000000000000000000000000000000000000000000000000000000000000001 ||| U = U := by decide) : Keeps U s₀ (postModify u n code s) := by
  refine Keeps.step ?_ hT hk
  clear hk hT; unfold postModify
  repeat' with_reducible first
    | exact Keeps.refl _ _ | assumption | refine Keeps.ite ?_ ?_ | refine wr_keeps ?_ | dsimp only | split

theorem accumulate_keeps {U : Nat} {s₀ : State} {u w : Nat} {prod : Int × Int} {s : State} (hk : Keeps U s₀ s) (hT : 0x800200000000000000000000000000000000000030000006000000000000000000000000000000000000000000000000000000000000000000000000000000000000000000000000000004001 ||| U = U := by decide) : Keeps U s₀ (accumulate u w prod s) := by
  refine Keeps.step ?_ hT hk
  clear hk hT; unfold accumulate
  repeat' with_reducible first
    | exact Keeps.refl _ _ | assumption | refine Keeps.ite ?_ ?_ | refine raiseInt_keeps ?_ | refine wrb_keeps ?_ | refine wr_keeps ?_ | dsimp only
    | split

theorem setZN_keeps {U : Nat} {s₀ : State} {u v : Nat} {s : State} (hk : Keeps U s₀ s) (hT : 0x60000000000000000000000000000000000000000000000000000000000000000000000000000000000000000000000000000000001 ||| U = U := by decide) : Keeps U s₀ (setZN u v s) := by
  refine Keeps.step ?_ hT hk
  clear hk hT; unfold setZN
  repeat' with_reducible first
    | exact Keeps.refl _ _ | assumption | refine wrs_keeps ?_

theorem setReft_keeps {U : Nat} {s₀ : State} {u v : Nat} {s : State} (hk : Keeps U s₀ s) (hT : 0xc0000000000000000000000000000000000000000000000000000000000000000000000000000000000000000000000000000000000001 ||| U = U := by decide) : Keeps U s₀ (setReft u v s) := by
  refine Keeps.step ?_ hT hk
  clear hk hT; unfold setReft
  repeat' with_reducible first
    | exact Keeps.refl _ _ | assumption | refine wrs_keeps ?_

theorem tapTake_keeps {U : Nat} {s₀ : State} {u xd xe : Nat} {s : State} (hk : Keeps U s₀ s) (hT : 0x80e0010400000000000000000000000000000000000000000000000000000000000000000000000000000000000000000000000000000081 ||| U = U := by decide) : Keeps U s₀ (tapTake u xd xe s) := by
  refine Keeps.step ?_ hT hk
  clear hk hT; unfold tapTake
  repeat' with_reducible first
    | exact Keeps.refl _ _ | assumption | refine Keeps.ite ?_ ?_ | refine setReft_keeps ?_ | refine tapPop_keeps ?_ | refine setAuX_keeps ?_
    | refine setAu_keeps ?_ | refine wrb_keeps ?_ | dsimp only | intro _ | split

theorem setSlots_keeps {U : Nat} {s₀ : State} {u : Nat} {t : Option Nat} {s : State} (hk : Keeps U s₀ s) (hT : 128 ||| U = U := by decide) : Keeps U s₀ (setSlots u t s) := by
  refine Keeps.step ?_ hT hk
  clear hk hT; unfold setSlots
  repeat' with_reducible first
    | exact Keeps.refl _ _ | assumption | refine setAu_keeps ?_

theorem auReturn_keeps {U : Nat} {s₀ : State} {u : Nat} {s : State} (hk : Keeps U s₀ s) (hT : 0x20000400000000000000000000000000000000000000000000000000000000000000000000000000000000000000000000000000000081 ||| U = U := by decide) : Keeps U s₀ (auReturn u s) := by
  refine Keeps.step ?_ hT hk
  clear hk hT; unfold auReturn
  repeat' with_reducible first
    | exact Keeps.refl _ _ | assumption | refine setSlots_keeps ?_ | refine putAu_keeps ?_ | dsimp only

theorem clearRegs_keeps {U : Nat} {s₀ : State} {u : Nat} {s : State} (hk : Keeps U s₀ s) (hT : 0x3f8000000000000000000000000000000000000000000000000000000000000000000000000000000000000000000000000000000000000001 ||| U = U := by decide) : Keeps U s₀ (clearRegs u s) := by
  refine Keeps.step ?_ hT hk
  clear hk hT; unfold clearRegs
  repeat' with_reducible first
    | exact Keeps.refl _ _ | assumption | refine wrs_keeps ?_ | refine forS_keeps ?_ ?_ | dsimp only | intro _

theorem clearFlags_keeps {U : Nat} {s₀ : State} {u : Nat} {s : State} (hk : Keeps U s₀ s) (hT : 0x7e000000000000000000000000000000000000000000000000000000000000000000000000000000000000000000000000000000001 ||| U = U := by decide) : Keeps U s₀ (clearFlags u s) := by
  refine Keeps.step ?_ hT hk
  clear hk hT; unfold clearFlags
  repeat' with_reducible first
    | exact Keeps.refl _ _ | assumption | refine wrs_keeps ?_

theorem auReset_keeps {U : Nat} {s₀ : State} {u : Nat} {s : State} (hk : Keeps U s₀ s) (hT : 0x3f802007e400000000000000000000000000000000000000000000000000000000000000000000000000000000000000000000000000000081 ||| U = U := by decide) : Keeps U s₀ (auReset u s) := by
  refine Keeps.step ?_ hT hk
  clear hk hT; unfold auReset
  repeat' with_reducible first
    | exact Keeps.refl _ _ | assumption | refine Keeps.ite ?_ ?_ | refine clearFlags_keeps ?_ | refine clearRegs_keeps ?_ | refine putAu_keeps ?_
    | split

theorem auGo_keeps {U : Nat} {s₀ : State} {u : Nat} {s : State} (hk : Keeps U s₀ s) (hT : 0xb00000000000000000000000000000000000000000000000000000000000000000000000000000000000000000000000000000081 ||| U = U := by decide) : Keeps U s₀ (auGo u s) := by
  refine Keeps.step ?_ hT hk
  clear hk hT; unfold auGo
  repeat' with_reducible first
    | exact Keeps.refl _ _ | assumption | refine setAu_keeps ?_ | refine wrs_keeps ?_ | dsimp only

theorem auHalt_keeps {U : Nat} {s₀ : State} {u : Nat} {s : State} (hk : Keeps U s₀ s) (hT : 0x100000000000000000000000000000000000000000000000000000000000000000000000000000000000000000000000000000081 ||| U = U := by decide) : Keeps U s₀ (auHalt u s) := by
  refine Keeps.step ?_ hT hk
  clear hk hT; unfold auHalt
  repeat' with_reducible first
    | exact Keeps.refl _ _ | assumption | refine Keeps.ite ?_ ?_ | refine auHaltCheck_keeps ?_ | refine setAu_keeps ?_ | split

theorem auCtrl_keeps {U : Nat} {s₀ : State} {m u word : Nat} {s : State} (hk : Keeps U s₀ s) (hT : 0x38300200688002000000000000000000000000000000000003f802007efc0000000000000000000000000000000000000000000000000000000000000000000000000000000000000000000000000004085 ||| U = U := by decide) : Keeps U s₀ (auCtrl m u word s) := by
  refine Keeps.step ?_ hT hk
  clear hk hT; unfold auCtrl
  repeat' with_reducible first
    | exact Keeps.refl _ _ | assumption | refine Keeps.ite ?_ ?_ | refine auHalt_keeps ?_ | refine auGo_keeps ?_ | refine auReset_keeps ?_
    | refine writeLocked_keeps ?_ | refine fltEvent_keeps ?_ | refine wrs_keeps ?_ | dsimp only | split

theorem assignEffect_keeps {U : Nat} {s₀ : State} {u word : Nat} {s : State} (hk : Keeps U s₀ s) (hT : 0x3830000068800200000000000000000000000000000000000000000000006000000000000000000000000000000000000000000000000000000000000000000000000000000000000000000000000004005 ||| U = U := by decide) : Keeps U s₀ (assignEffect u word s) := by
  refine Keeps.step ?_ hT hk
  clear hk hT; unfold assignEffect
  repeat' with_reducible first
    | exact Keeps.refl _ _ | assumption
    | refine reraise_keeps ?_ | refine Keeps.ite ?_ ?_ | refine fltEvent_keeps ?_ | refine wrs_keeps ?_ | dsimp only | split
    | intro _

theorem auSubstitute_keeps {U : Nat} {s₀ : State} {s : State} (hk : Keeps U s₀ s) (hT : 0x100000000000000000000000000000000000000000000000000000000000000000000000000000000000000000000000000000081 ||| U = U := by decide) : Keeps U s₀ (auSubstitute s) := by
  refine Keeps.step ?_ hT hk
  clear hk hT; unfold auSubstitute
  repeat' with_reducible first
    | exact Keeps.refl _ _ | assumption | refine Keeps.ite ?_ ?_ | refine setAuState_keeps ?_ | dsimp only | split
    | (constructor <;> first | exact fun _ => rfl | exact fun _ _ => rfl | exact rfl | exact List.prefix_refl _ | exact Nat.le_refl _ | exact fun w => w | exact fun _ _ w => w | exact fun h => absurd h (by decide) | exact fun _ => ⟨fun _ _ => ⟨fun w => w, fun w => w⟩⟩)
    | refine Keeps.setAu ?_

theorem instrCmac_keeps {u w : Nat} {s : State} : Keeps 0x800200000000000000000000000000000000000070000006000000000000000000000000000000000000000000000000000000000000000000000000000000000000000000000000000004001 s (instrCmac.run u w s) := by
  simp only [instrCmac, auPlain]
  repeat' with_reducible first
    | exact Keeps.refl _ _ | assumption | refine accumulate_keeps ?_ | refine postModify_keeps ?_ | refine auPlain_keeps ?_ | dsimp only | intro _

theorem instrCmacx_keeps {u w : Nat} {s : State} : Keeps 0x800200000000000000000000000000000000000070000006000000000000000000000000000000000000000000000000000000000000000000000000000000000000000000000000000004001 s (instrCmacx.run u w s) := by
  simp only [instrCmacx, auPlain]
  repeat' with_reducible first
    | exact Keeps.refl _ _ | assumption | refine accumulate_keeps ?_ | refine postModify_keeps ?_ | refine auPlain_keeps ?_ | dsimp only | intro _

theorem instrRnd_keeps {u w : Nat} {s : State} : Keeps 0x8000008000000000000000000000000000000000000000000000000000000000000000000000000000000000000000000000000000000001 s (instrRnd.run u w s) := by
  simp only [instrRnd, auPlain]
  repeat' with_reducible first
    | exact Keeps.refl _ _ | assumption | refine Keeps.ite ?_ ?_ | refine auPlain_keeps ?_ | refine setAuX_keeps ?_ | refine wrb_keeps ?_ | dsimp only
    | intro _ | split

theorem instrMva_keeps {u w : Nat} {s : State} : Keeps 0x8000000000000000000000000000000000000000000000000000000000000000000000000000000000000000000000000000000000000001 s (instrMva.run u w s) := by
  simp only [instrMva, auPlain]
  repeat' with_reducible first
    | exact Keeps.refl _ _ | assumption | refine Keeps.ite ?_ ?_ | refine auPlain_keeps ?_ | refine setAuX_keeps ?_ | dsimp only | intro _ | split

theorem instrLd_keeps {u w : Nat} {s : State} : Keeps 0x48000000000000000000000000000000000000000000000000000000000000000000000000000000000000000000000000000000000000001 s (instrLd.run u w s) := by
  simp only [instrLd, auPlain]
  repeat' with_reducible first
    | exact Keeps.refl _ _ | assumption | refine postModify_keeps ?_ | refine auPlain_keeps ?_ | refine setAuX_keeps ?_ | dsimp only | intro _

theorem instrSt_keeps {u w : Nat} {s : State} : Keeps 0x40000000000000000000000000000000000000000000000000000000000000000000000000000000000000000000000000000000000000081 s (instrSt.run u w s) := by
  simp only [instrSt, auPlain]
  repeat' with_reducible first
    | exact Keeps.refl _ _ | assumption | refine postModify_keeps ?_ | refine auPlain_keeps ?_ | refine setAuData_keeps ?_ | intro _

theorem instrLdi_keeps {u w : Nat} {s : State} : Keeps 0x8000000000000000000000000000000000000000000000000000000000000000000000000000000000000000000000000000000000000001 s (instrLdi.run u w s) := by
  simp only [instrLdi, auPlain]
  repeat' with_reducible first
    | exact Keeps.refl _ _ | assumption | refine Keeps.ite ?_ ?_ | refine auPlain_keeps ?_ | refine setAuX_keeps ?_ | dsimp only | intro _ | split

theorem instrAlu_keeps {u w : Nat} {s : State} : Keeps 0x8000060000000000000000000000000000000000000000000000000000000000000000000000000000000000000000000000000000000001 s (instrAlu.run u w s) := by
  simp only [instrAlu, auPlain]
  repeat' with_reducible first
    | exact Keeps.refl _ _ | assumption | refine Keeps.ite ?_ ?_ | refine setZN_keeps ?_ | refine auPlain_keeps ?_ | refine setAuX_keeps ?_
    | dsimp only | intro _ | split

theorem instrAddi_keeps {u w : Nat} {s : State} : Keeps 0x8000060000000000000000000000000000000000000000000000000000000000000000000000000000000000000000000000000000000001 s (instrAddi.run u w s) := by
  simp only [instrAddi, auPlain]
  repeat' with_reducible first
    | exact Keeps.refl _ _ | assumption | refine setZN_keeps ?_ | refine auPlain_keeps ?_ | refine setAuX_keeps ?_ | dsimp only | intro _

theorem instrLda_keeps {u w : Nat} {s : State} : Keeps 0x3c0000000000000000000000000000000000000000000000000000000000000000000000000000000000000000000000000000000000000001 s (instrLda.run u w s) := by
  simp only [instrLda, auPlain]
  refine wr_keeps (Keeps.refl _ _) ?_
  split <;> with_unfolding_all (refine fldMask_of (by conv => lhs; whnf) ?_; decide)

theorem instrTapd_keeps {u w : Nat} {s : State} : Keeps 0x80e0010400000000000000000000000000000000000000000000000000000000000000000000000000000000000000000000000000000081 s (instrTapd.run u w s) := by
  simp only [instrTapd, auPlain]
  repeat' with_reducible first
    | exact Keeps.refl _ _ | assumption | refine tapTake_keeps ?_ | refine auPlain_keeps ?_ | intro _

theorem instrBr_keeps {u w : Nat} {s : State} : Keeps 128 s (instrBr.run u w s) := by
  simp only [instrBr, auControl]
  repeat' with_reducible first
    | exact Keeps.refl _ _ | assumption | refine Keeps.ite ?_ ?_ | refine setSlots_keeps ?_ | refine auControl_keeps ?_ | intro _ | split

theorem instrCall_keeps {u w : Nat} {s : State} : Keeps 0x20000400000000000000000000000000000000000000000000000000000000000000000000000000000000000000000000000000000081 s (instrCall.run u w s) := by
  simp only [instrCall, auControl]
  repeat' with_reducible first
    | exact Keeps.refl _ _ | assumption | refine setSlots_keeps ?_ | refine auControl_keeps ?_ | refine putAu_keeps ?_ | dsimp only | intro _

theorem instrRet_keeps {u w : Nat} {s : State} : Keeps 0x20000400000000000000000000000000000000000000000000000000000000000000000000000000000000000000000000000000000081 s (instrRet.run u w s) := by
  simp only [instrRet, auControl]
  repeat' with_reducible first
    | exact Keeps.refl _ _ | assumption | refine auReturn_keeps ?_ | refine auControl_keeps ?_ | intro _

theorem instrReti_keeps {u w : Nat} {s : State} : Keeps 0x20000c00000000000000000000000000000000000000000000000000000000000000000000000000000000000000000000000000000081 s (instrReti.run u w s) := by
  simp only [instrReti, auControl]
  repeat' with_reducible first
    | exact Keeps.refl _ _ | assumption | refine auReturn_keeps ?_ | refine auControl_keeps ?_ | refine wrb_keeps ?_ | intro _

theorem instrRpt_keeps {u w : Nat} {s : State} : Keeps 128 s (instrRpt.run u w s) := by
  simp only [instrRpt, auControl]
  repeat' with_reducible first
    | exact Keeps.refl _ _ | assumption | refine auControl_keeps ?_ | refine setAu_keeps ?_ | intro _

theorem instrRptr_keeps {u w : Nat} {s : State} : Keeps 0x200000000000000000000000000000000000000000000000000000000000000000000000000000000000000000000000000000081 s (instrRptr.run u w s) := by
  simp only [instrRptr, auControl]
  repeat' with_reducible first
    | exact Keeps.refl _ _ | assumption | refine Keeps.ite ?_ ?_ | refine auControl_keeps ?_ | refine auAdvance_keeps ?_ | refine setAu_keeps ?_
    | dsimp only | intro _ | split

theorem instrRptb_keeps {u w : Nat} {s : State} : Keeps 128 s (instrRptb.run u w s) := by
  simp only [instrRptb, auControl]
  repeat' with_reducible first
    | exact Keeps.refl _ _ | assumption | refine auControl_keeps ?_ | refine setAu_keeps ?_ | intro _

theorem instrWait_keeps {u w : Nat} {s : State} : Keeps 0 s (instrWait.run u w s) := by
  simp only [instrWait, auControl]
  repeat' with_reducible first
    | exact Keeps.refl _ _ | assumption | refine auControl_keeps ?_ | intro _

theorem instrHalt_keeps {u w : Nat} {s : State} : Keeps 0x800200000000000000000000000000000000000000000000100000000000000000000000000000000000000000000000000000000000000000000000000000000000000000000000000004081 s (instrHalt.run u w s) := by
  simp only [instrHalt, auControl]
  repeat' with_reducible first
    | exact Keeps.refl _ _ | assumption | refine auControl_keeps ?_ | refine setAuState_keeps ?_ | refine setAu_keeps ?_ | refine raiseInt_keeps ?_
    | intro _

theorem instrSig_keeps {u w : Nat} {s : State} : Keeps 0x800200000000000000000000000000000000000000000400000000000000000000000000000000000000000000000000000000000000000000000000000000000000000000000000000004001 s (instrSig.run u w s) := by
  simp only [instrSig, auPlain]
  repeat' with_reducible first
    | exact Keeps.refl _ _ | assumption | refine auPlain_keeps ?_ | refine raiseInt_keeps ?_ | refine wr_keeps ?_ | intro _

theorem instrClrf_keeps {u w : Nat} {s : State} : Keeps 0x1e000000000000000000000000000000000000000000000000000000000000000000000000000000000000000000000000000000001 s (instrClrf.run u w s) := by
  simp only [instrClrf, auPlain]
  simp only [forS, List.foldl]
  repeat' with_reducible first
    | exact Keeps.refl _ _ | refine Keeps.ite ?_ ?_ | refine wrb_keeps ?_

theorem execAuInterrupt_keeps {u : Nat} {s : State} {t' : State} (hx : execAuInterrupt u s = .next t') :
    Keeps 0x3830000068800200000000000000000000000000000000000000020380f00000000000000000000000000000000000000000000000000000000000000000000000000000000000000000000000000006085 s t' := by
  unfold execAuInterrupt at hx; obtain rfl := Host.Outcome.next.inj hx
  repeat' with_reducible first
    | exact Keeps.refl _ _ | assumption | refine Keeps.ite ?_ ?_ | refine auFault_keeps ?_ | refine putAu_keeps ?_ | refine wrs_keeps ?_ | dsimp only
    | split

theorem execAuNop_keeps {u : Nat} {up : AuUpset} {s : State} {t' : State} (hx : execAuNop u up s = .next t') :
    Keeps 0x3830000068800200000000000000000000000000000000000c00000380300000000000000000000000000000000000000000000000000000000000000000000000000000000000000000000000000006085 s t' := by
  unfold execAuNop at hx; obtain rfl := Host.Outcome.next.inj hx
  exact auExec_keeps (fun w x => Keeps.refl _ _) (Keeps.refl _ _)

theorem execCmac_keeps {u : Nat} {up : AuUpset} {s : State} {t' : State} (hx : execCmac u up s = .next t') :
    Keeps 0x3830000068800200000000000000000000000000000000000c70000386300000000000000000000000000000000000000000000000000000000000000000000000000000000000000000000000000006085 s t' := by
  unfold execCmac at hx; obtain rfl := Host.Outcome.next.inj hx
  exact auExec_keeps (fun w x => instrCmac_keeps.weaken (by decide)) (Keeps.refl _ _)

theorem execCmacx_keeps {u : Nat} {up : AuUpset} {s : State} {t' : State} (hx : execCmacx u up s = .next t') :
    Keeps 0x3830000068800200000000000000000000000000000000000c70000386300000000000000000000000000000000000000000000000000000000000000000000000000000000000000000000000000006085 s t' := by
  unfold execCmacx at hx; obtain rfl := Host.Outcome.next.inj hx
  exact auExec_keeps (fun w x => instrCmacx_keeps.weaken (by decide)) (Keeps.refl _ _)

theorem execRnd_keeps {u : Nat} {up : AuUpset} {s : State} {t' : State} (hx : execRnd u up s = .next t') :
    Keeps 0x3830000068800200000000000000000000000000000000000c08000388300000000000000000000000000000000000000000000000000000000000000000000000000000000000000000000000000006085 s t' := by
  unfold execRnd at hx; obtain rfl := Host.Outcome.next.inj hx
  exact auExec_keeps (fun w x => instrRnd_keeps.weaken (by decide)) (Keeps.refl _ _)

theorem execMva_keeps {u : Nat} {up : AuUpset} {s : State} {t' : State} (hx : execMva u up s = .next t') :
    Keeps 0x3830000068800200000000000000000000000000000000000c08000380300000000000000000000000000000000000000000000000000000000000000000000000000000000000000000000000000006085 s t' := by
  unfold execMva at hx; obtain rfl := Host.Outcome.next.inj hx
  exact auExec_keeps (fun w x => instrMva_keeps.weaken (by decide)) (Keeps.refl _ _)

theorem execLd_keeps {u : Nat} {up : AuUpset} {s : State} {t' : State} (hx : execLd u up s = .next t') :
    Keeps 0x3830000068800200000000000000000000000000000000000c48000380300000000000000000000000000000000000000000000000000000000000000000000000000000000000000000000000000006085 s t' := by
  unfold execLd at hx; obtain rfl := Host.Outcome.next.inj hx
  exact auExec_keeps (fun w x => instrLd_keeps.weaken (by decide)) (Keeps.refl _ _)

theorem execSt_keeps {u : Nat} {up : AuUpset} {s : State} {t' : State} (hx : execSt u up s = .next t') :
    Keeps 0x3830000068800200000000000000000000000000000000000c40000380300000000000000000000000000000000000000000000000000000000000000000000000000000000000000000000000000006085 s t' := by
  unfold execSt at hx; obtain rfl := Host.Outcome.next.inj hx
  exact auExec_keeps (fun w x => instrSt_keeps.weaken (by decide)) (Keeps.refl _ _)

theorem execLdi_keeps {u : Nat} {up : AuUpset} {s : State} {t' : State} (hx : execLdi u up s = .next t') :
    Keeps 0x3830000068800200000000000000000000000000000000000c08000380300000000000000000000000000000000000000000000000000000000000000000000000000000000000000000000000000006085 s t' := by
  unfold execLdi at hx; obtain rfl := Host.Outcome.next.inj hx
  exact auExec_keeps (fun w x => instrLdi_keeps.weaken (by decide)) (Keeps.refl _ _)

theorem execAlu_keeps {u : Nat} {up : AuUpset} {s : State} {t' : State} (hx : execAlu u up s = .next t') :
    Keeps 0x3830000068800200000000000000000000000000000000000c080003e0300000000000000000000000000000000000000000000000000000000000000000000000000000000000000000000000000006085 s t' := by
  unfold execAlu at hx; obtain rfl := Host.Outcome.next.inj hx
  exact auExec_keeps (fun w x => instrAlu_keeps.weaken (by decide)) (Keeps.refl _ _)

theorem execAddi_keeps {u : Nat} {up : AuUpset} {s : State} {t' : State} (hx : execAddi u up s = .next t') :
    Keeps 0x3830000068800200000000000000000000000000000000000c080003e0300000000000000000000000000000000000000000000000000000000000000000000000000000000000000000000000000006085 s t' := by
  unfold execAddi at hx; obtain rfl := Host.Outcome.next.inj hx
  exact auExec_keeps (fun w x => instrAddi_keeps.weaken (by decide)) (Keeps.refl _ _)

theorem execLda_keeps {u : Nat} {up : AuUpset} {s : State} {t' : State} (hx : execLda u up s = .next t') :
    Keeps 0x3830000068800200000000000000000000000000000000000fc0000380300000000000000000000000000000000000000000000000000000000000000000000000000000000000000000000000000006085 s t' := by
  unfold execLda at hx; obtain rfl := Host.Outcome.next.inj hx
  exact auExec_keeps (fun w x => instrLda_keeps.weaken (by decide)) (Keeps.refl _ _)

theorem execTapd_keeps {u : Nat} {up : AuUpset} {waited : Nat} {s : State} {t' : State} (hx : execTapd u up waited s = .next t') :
    Keeps 0x3830000068800200000000000000000000000000000000000c080e0390700000000000000000000000000000000000000000000000000000000000000000000000000000000000000000000000000006085 s t' := by
  unfold execTapd at hx; obtain rfl := Host.Outcome.next.inj hx
  exact auExec_keeps (fun w x => instrTapd_keeps.weaken (by decide)) (Keeps.refl _ _)

theorem execBr_keeps {u : Nat} {up : AuUpset} {s : State} {t' : State} (hx : execBr u up s = .next t') :
    Keeps 0x3830000068800200000000000000000000000000000000000c00000380300000000000000000000000000000000000000000000000000000000000000000000000000000000000000000000000000006085 s t' := by
  unfold execBr at hx; obtain rfl := Host.Outcome.next.inj hx
  exact auExec_keeps (fun w x => instrBr_keeps.weaken (by decide)) (Keeps.refl _ _)

theorem execAuCall_keeps {u : Nat} {up : AuUpset} {s : State} {t' : State} (hx : execAuCall u up s = .next t') :
    Keeps 0x3830000068800200000000000000000000000000000000000c00020380700000000000000000000000000000000000000000000000000000000000000000000000000000000000000000000000000006085 s t' := by
  unfold execAuCall at hx; obtain rfl := Host.Outcome.next.inj hx
  exact auExec_keeps (fun w x => instrCall_keeps.weaken (by decide)) (Keeps.refl _ _)

theorem execAuRet_keeps {u : Nat} {up : AuUpset} {s : State} {t' : State} (hx : execAuRet u up s = .next t') :
    Keeps 0x3830000068800200000000000000000000000000000000000c00020380700000000000000000000000000000000000000000000000000000000000000000000000000000000000000000000000000006085 s t' := by
  unfold execAuRet at hx; obtain rfl := Host.Outcome.next.inj hx
  exact auExec_keeps (fun w x => instrRet_keeps.weaken (by decide)) (Keeps.refl _ _)

theorem execReti_keeps {u : Nat} {up : AuUpset} {s : State} {t' : State} (hx : execReti u up s = .next t') :
    Keeps 0x3830000068800200000000000000000000000000000000000c00020380f00000000000000000000000000000000000000000000000000000000000000000000000000000000000000000000000000006085 s t' := by
  unfold execReti at hx; obtain rfl := Host.Outcome.next.inj hx
  exact auExec_keeps (fun w x => instrReti_keeps.weaken (by decide)) (Keeps.refl _ _)

theorem execAuRpt_keeps {u : Nat} {up : AuUpset} {s : State} {t' : State} (hx : execAuRpt u up s = .next t') :
    Keeps 0x3830000068800200000000000000000000000000000000000c00000380300000000000000000000000000000000000000000000000000000000000000000000000000000000000000000000000000006085 s t' := by
  unfold execAuRpt at hx; obtain rfl := Host.Outcome.next.inj hx
  exact auExec_keeps (fun w x => instrRpt_keeps.weaken (by decide)) (Keeps.refl _ _)

theorem execRptr_keeps {u : Nat} {up : AuUpset} {s : State} {t' : State} (hx : execRptr u up s = .next t') :
    Keeps 0x3830000068800200000000000000000000000000000000000c00000380300000000000000000000000000000000000000000000000000000000000000000000000000000000000000000000000000006085 s t' := by
  unfold execRptr at hx; obtain rfl := Host.Outcome.next.inj hx
  exact auExec_keeps (fun w x => instrRptr_keeps.weaken (by decide)) (Keeps.refl _ _)

theorem execRptb_keeps {u : Nat} {up : AuUpset} {s : State} {t' : State} (hx : execRptb u up s = .next t') :
    Keeps 0x3830000068800200000000000000000000000000000000000c00000380300000000000000000000000000000000000000000000000000000000000000000000000000000000000000000000000000006085 s t' := by
  unfold execRptb at hx; obtain rfl := Host.Outcome.next.inj hx
  exact auExec_keeps (fun w x => instrRptb_keeps.weaken (by decide)) (Keeps.refl _ _)

theorem execWait_keeps {u : Nat} {up : AuUpset} {waited : Nat} {s : State} {t' : State} (hx : execWait u up waited s = .next t') :
    Keeps 0x3830000068800200000000000000000000000000000000000c00000380300000000000000000000000000000000000000000000000000000000000000000000000000000000000000000000000000006085 s t' := by
  unfold execWait at hx; obtain rfl := Host.Outcome.next.inj hx
  exact auExec_keeps (fun w x => instrWait_keeps.weaken (by decide)) (Keeps.refl _ _)

theorem execAuHaltInstruction_keeps {u : Nat} {up : AuUpset} {s : State} {t' : State} (hx : execAuHaltInstruction u up s = .next t') :
    Keeps 0x3830000068800200000000000000000000000000000000000c00000380300000000000000000000000000000000000000000000000000000000000000000000000000000000000000000000000000006085 s t' := by
  unfold execAuHaltInstruction at hx; obtain rfl := Host.Outcome.next.inj hx
  exact auExec_keeps (fun w x => instrHalt_keeps.weaken (by decide)) (Keeps.refl _ _)

theorem execSig_keeps {u : Nat} {up : AuUpset} {s : State} {t' : State} (hx : execSig u up s = .next t') :
    Keeps 0x3830000068800200000000000000000000000000000000000c00000780300000000000000000000000000000000000000000000000000000000000000000000000000000000000000000000000000006085 s t' := by
  unfold execSig at hx; obtain rfl := Host.Outcome.next.inj hx
  exact auExec_keeps (fun w x => instrSig_keeps.weaken (by decide)) (Keeps.refl _ _)

theorem execClrf_keeps {u : Nat} {up : AuUpset} {s : State} {t' : State} (hx : execClrf u up s = .next t') :
    Keeps 0x3830000068800200000000000000000000000000000000000c0000039e300000000000000000000000000000000000000000000000000000000000000000000000000000000000000000000000000006085 s t' := by
  unfold execClrf at hx; obtain rfl := Host.Outcome.next.inj hx
  exact auExec_keeps (fun w x => instrClrf_keeps.weaken (by decide)) (Keeps.refl _ _)

theorem execAuGo_keeps {m u word : Nat} {s : State} {t' : State} (hx : execAuGo m u word s = .next t') :
    Keeps (busMask ||| parMask ||| 0x3830020078a002000000001400000000000000000000000003f802007efc00000000000000000000000000000000000000000400000000000000000000000000000000700000800000000000000000040d5) s t' := by
  unfold execAuGo at hx; obtain rfl := Host.Outcome.next.inj hx
  repeat' with_reducible first
    | exact Keeps.refl _ _ | assumption
    | refine takeIn_keeps ?_ ?_ | refine auCtrl_keeps ?_ | refine asWriter_keeps ?_ ?_ | intro _
    | dsimp only

theorem execAuHalt_keeps {m u word : Nat} {s : State} {t' : State} (hx : execAuHalt m u word s = .next t') :
    Keeps (busMask ||| parMask ||| 0x3830020078a002000000001400000000000000000000000003f802007efc00000000000000000000000000000000000000000400000000000000000000000000000000700000800000000000000000040d5) s t' := by
  unfold execAuHalt at hx; obtain rfl := Host.Outcome.next.inj hx
  repeat' with_reducible first
    | exact Keeps.refl _ _ | assumption
    | refine takeIn_keeps ?_ ?_ | refine auCtrl_keeps ?_ | refine asWriter_keeps ?_ ?_ | intro _
    | dsimp only

theorem execAuReset_keeps {m u word : Nat} {s : State} {t' : State} (hx : execAuReset m u word s = .next t') :
    Keeps (busMask ||| parMask ||| 0x3830020078a002000000001400000000000000000000000003f802007efc00000000000000000000000000000000000000000400000000000000000000000000000000700000800000000000000000040d5) s t' := by
  unfold execAuReset at hx; obtain rfl := Host.Outcome.next.inj hx
  repeat' with_reducible first
    | exact Keeps.refl _ _ | assumption
    | refine takeIn_keeps ?_ ?_ | refine auCtrl_keeps ?_ | refine asWriter_keeps ?_ ?_ | intro _
    | dsimp only

theorem execAuDoorbell_keeps {m u word : Nat} {s : State} {t' : State} (hx : execAuDoorbell m u word s = .next t') :
    Keeps (busMask ||| parMask ||| 0x3830000078a002000000001400000000000000000000000000000000000000000000000000000000000000000000000000000400000000000000000000000000000000700000800000000000000000040d5) s t' := by
  unfold execAuDoorbell at hx; obtain rfl := Host.Outcome.next.inj hx
  repeat' with_reducible first
    | exact Keeps.refl _ _ | assumption
    | refine takeIn_keeps ?_ ?_ | refine Keeps.ite ?_ ?_ | refine setAu_keeps ?_ | refine asWriter_keeps ?_ ?_ | intro _ | split
    | dsimp only

theorem execAuAssignWrite_keeps {m u word : Nat} {s : State} {t' : State} (hx : execAuAssignWrite m u word s = .next t') :
    Keeps (busMask ||| parMask ||| 0x3830000078a00200000000140000000000000000000000000000000000006000000000000000000000000000000000000000040000000000000000000000000000000070000080000000000000000004055) s t' := by
  unfold execAuAssignWrite at hx; obtain rfl := Host.Outcome.next.inj hx
  repeat' with_reducible first
    | exact Keeps.refl _ _ | assumption
    | refine takeIn_keeps ?_ ?_ | refine assignEffect_keeps ?_ | refine asWriter_keeps ?_ ?_ | intro _
    | dsimp only

theorem execAuClearDone_keeps {u : Nat} {s : State} {t' : State} (hx : execAuClearDone u s = .next t') :
    Keeps 0x3f80e007e404000000000000000000000000000000000000000000000000000000000000000000000000000000000000000000000000000081 s t' := by
  unfold execAuClearDone at hx; obtain rfl := Host.Outcome.next.inj hx
  repeat' with_reducible first
    | exact Keeps.refl _ _ | assumption | refine Keeps.ite ?_ ?_ | refine clearFlags_keeps ?_ | refine clearRegs_keeps ?_ | refine setReft_keeps ?_
    | refine putAu_keeps ?_ | refine wrb_keeps ?_ | dsimp only | split

theorem execAuDataWindowRead_keeps {m u idx : Nat} {bad : Bool} {s : State} {t' : State} (hx : execAuDataWindowRead m u idx bad s = .next t') :
    Keeps (busMask ||| 0x3830000068800200000000000000000000000000000000000000000000000000000000000000000000000000000000000000000000000000000000000000000000000000000000000000000000000006005) s t' := by
  unfold execAuDataWindowRead at hx; obtain rfl := Host.Outcome.next.inj hx
  repeat' with_reducible first
    | exact Keeps.refl _ _ | assumption
    | refine takeIn_keeps ?_ ?_ | refine wearNote_keeps ?_ | refine Keeps.ite ?_ ?_ | refine fltEvent_keeps ?_ | refine raiseInt_keeps ?_ | refine emit_keeps ?_
    | dsimp only | split
    | intro _

theorem execAuSpareWrite_keeps {m comp : Nat} {s : State} {t' : State} (hx : execAuSpareWrite m comp s = .next t') :
    Keeps (busMask ||| parMask ||| 0x3830040078a00200000000140000000000000000000000000001800000000000000000000000000000000000000000000000040000000000000000000000000000000070000080000000000000000004055) s t' := by
  unfold execAuSpareWrite at hx; obtain rfl := Host.Outcome.next.inj hx
  repeat' with_reducible first
    | exact Keeps.refl _ _ | assumption
    | refine takeIn_keeps ?_ ?_ | refine pairComplete_keeps ?_ ?_ | refine wrs_keeps ?_ | intro _
    | dsimp only

theorem copyMask {s : State} {p : Page} : ∀ x ∈ auCopyFields.map fun f => (f, rd s p f), fldMask x.1 ||| 0x2030000000000000000000000030000000800200000000000000000000000000000000003ffa3c307f100000000000000000000000000000000000000000000000000000000000000000000000000000000000000000000000000006085 = 0x2030000000000000000000000030000000800200000000000000000000000000000000003ffa3c307f100000000000000000000000000000000000000000000000000000000000000000000000000000000000000000000000000006085 := by
  intro x hx
  obtain ⟨f, hf, rfl⟩ := List.mem_map.1 hx
  have h : ∀ f ∈ auCopyFields, fldMask f ||| 0x2030000000000000000000000030000000800200000000000000000000000000000000003ffa3c307f100000000000000000000000000000000000000000000000000000000000000000000000000000000000000000000000000006085 = 0x2030000000000000000000000030000000800200000000000000000000000000000000003ffa3c307f100000000000000000000000000000000000000000000000000000000000000000000000000000000000000000000000000006085 := by decide
  exact h f hf

theorem execAuSubstDone_keeps {s : State} {t' : State} (hx : execAuSubstDone s = .next t') :
    Keeps 0x2030000000000000000000000030000000800200000000000000000000000000000000003ffa3c307f100000000000000000000000000000000000000000000000000000000000000000000000000000000000000000000000000006085 s t' := by
  unfold execAuSubstDone at hx; obtain rfl := Host.Outcome.next.inj hx
  repeat' with_reducible first
    | exact Keeps.refl _ _ | assumption
    | refine auSubstitute_keeps ?_ | refine Keeps.ite ?_ ?_ | refine setAuState_keeps ?_ | refine setAu_keeps ?_ | refine propDone_keeps ?_
    | refine wrb_keeps ?_ | refine wrs_keeps ?_ copyMask | dsimp only | intro _ | split
    | (constructor <;> first | exact fun _ => rfl | exact fun _ _ => rfl | exact rfl | exact List.prefix_refl _ | exact Nat.le_refl _ | exact fun w => w | exact fun _ _ w => w | exact fun h => absurd h (by decide) | exact fun _ => ⟨fun _ _ => ⟨fun w => w, fun w => w⟩⟩)
    | refine Keeps.setAu ?_

end Sys2Proof.Machine
end

