-- ==== Sys2Proof/Laws/Events.lean ====
section
/-! SUPPORT. The operations on register fields, counters and events leave every component alone but the registers, the fault and log state and what is sent. -/

set_option exponentiation.threshold 2000

set_option Elab.async false

namespace Sys2Proof.Machine

open Sys2Proof

@[simp] theorem wrs_mem (s : State) (p : Page) (l : List (Fld × Nat)) : (wrs s p l).mem = s.mem := (wrs_keeps (Keeps.refl anyField s) (fun x _ => fldMask_any x.1)).mem (by decide)
@[simp] theorem wrs_mgt (s : State) (p : Page) (l : List (Fld × Nat)) : (wrs s p l).mgt = s.mgt := (wrs_keeps (Keeps.refl anyField s) (fun x _ => fldMask_any x.1)).mgt (by decide)
@[simp] theorem wrs_tim (s : State) (p : Page) (l : List (Fld × Nat)) : (wrs s p l).tim = s.tim := (wrs_keeps (Keeps.refl anyField s) (fun x _ => fldMask_any x.1)).tim (by decide)
@[simp] theorem wrs_tlk (s : State) (p : Page) (l : List (Fld × Nat)) : (wrs s p l).tlk = s.tlk := (wrs_keeps (Keeps.refl anyField s) (fun x _ => fldMask_any x.1)).tlk (by decide)
@[simp] theorem wrs_pat (s : State) (p : Page) (l : List (Fld × Nat)) : (wrs s p l).pat = s.pat := (wrs_keeps (Keeps.refl anyField s) (fun x _ => fldMask_any x.1)).pat (by decide)
@[simp] theorem wrs_pin (s : State) (p : Page) (l : List (Fld × Nat)) : (wrs s p l).pin = s.pin := (wrs_keeps (Keeps.refl anyField s) (fun x _ => fldMask_any x.1)).pin (by decide)
@[simp] theorem wrs_au (s : State) (p : Page) (l : List (Fld × Nat)) : (wrs s p l).au = s.au := (wrs_keeps (Keeps.refl anyField s) (fun x _ => fldMask_any x.1)).au (by decide)
@[simp] theorem wrs_cal (s : State) (p : Page) (l : List (Fld × Nat)) : (wrs s p l).cal = s.cal := (wrs_keeps (Keeps.refl anyField s) (fun x _ => fldMask_any x.1)).cal (by decide)
@[simp] theorem wrs_memc (s : State) (p : Page) (l : List (Fld × Nat)) : (wrs s p l).memc = s.memc := (wrs_keeps (Keeps.refl anyField s) (fun x _ => fldMask_any x.1)).memc (by decide)
@[simp] theorem wrs_hif (s : State) (p : Page) (l : List (Fld × Nat)) : (wrs s p l).hif = s.hif := (wrs_keeps (Keeps.refl anyField s) (fun x _ => fldMask_any x.1)).hif (by decide)
@[simp] theorem wrs_pwr (s : State) (p : Page) (l : List (Fld × Nat)) : (wrs s p l).pwr = s.pwr := (wrs_keeps (Keeps.refl anyField s) (fun x _ => fldMask_any x.1)).pwr (by decide)
@[simp] theorem wrs_boot (s : State) (p : Page) (l : List (Fld × Nat)) : (wrs s p l).boot = s.boot := (wrs_keeps (Keeps.refl anyField s) (fun x _ => fldMask_any x.1)).boot (by decide)
@[simp] theorem wrs_lcs (s : State) (p : Page) (l : List (Fld × Nat)) : (wrs s p l).lcs = s.lcs := (wrs_keeps (Keeps.refl anyField s) (fun x _ => fldMask_any x.1)).lcs (by decide)
@[simp] theorem wrs_out (s : State) (p : Page) (l : List (Fld × Nat)) : (wrs s p l).out = s.out := (wrs_keeps (Keeps.refl anyField s) (fun x _ => fldMask_any x.1)).out (by decide)
@[simp] theorem wrs_freeCtr (s : State) (p : Page) (l : List (Fld × Nat)) : (wrs s p l).freeCtr = s.freeCtr := (wrs_keeps (Keeps.refl anyField s) (fun x _ => fldMask_any x.1)).free (by decide)
@[simp] theorem wrs_pending (s : State) (p : Page) (l : List (Fld × Nat)) : (wrs s p l).pending = s.pending := (wrs_keeps (Keeps.refl anyField s) (fun x _ => fldMask_any x.1)).pending

@[simp] theorem wrb_mem (s : State) (p : Page) (f : Fld) (v : Bool) : (wrb s p f v).mem = s.mem := (wrb_keeps (Keeps.refl anyField s) (fldMask_any f)).mem (by decide)
@[simp] theorem wrb_mgt (s : State) (p : Page) (f : Fld) (v : Bool) : (wrb s p f v).mgt = s.mgt := (wrb_keeps (Keeps.refl anyField s) (fldMask_any f)).mgt (by decide)
@[simp] theorem wrb_tim (s : State) (p : Page) (f : Fld) (v : Bool) : (wrb s p f v).tim = s.tim := (wrb_keeps (Keeps.refl anyField s) (fldMask_any f)).tim (by decide)
@[simp] theorem wrb_tlk (s : State) (p : Page) (f : Fld) (v : Bool) : (wrb s p f v).tlk = s.tlk := (wrb_keeps (Keeps.refl anyField s) (fldMask_any f)).tlk (by decide)
@[simp] theorem wrb_pat (s : State) (p : Page) (f : Fld) (v : Bool) : (wrb s p f v).pat = s.pat := (wrb_keeps (Keeps.refl anyField s) (fldMask_any f)).pat (by decide)
@[simp] theorem wrb_pin (s : State) (p : Page) (f : Fld) (v : Bool) : (wrb s p f v).pin = s.pin := (wrb_keeps (Keeps.refl anyField s) (fldMask_any f)).pin (by decide)
@[simp] theorem wrb_au (s : State) (p : Page) (f : Fld) (v : Bool) : (wrb s p f v).au = s.au := (wrb_keeps (Keeps.refl anyField s) (fldMask_any f)).au (by decide)
@[simp] theorem wrb_cal (s : State) (p : Page) (f : Fld) (v : Bool) : (wrb s p f v).cal = s.cal := (wrb_keeps (Keeps.refl anyField s) (fldMask_any f)).cal (by decide)
@[simp] theorem wrb_memc (s : State) (p : Page) (f : Fld) (v : Bool) : (wrb s p f v).memc = s.memc := (wrb_keeps (Keeps.refl anyField s) (fldMask_any f)).memc (by decide)
@[simp] theorem wrb_hif (s : State) (p : Page) (f : Fld) (v : Bool) : (wrb s p f v).hif = s.hif := (wrb_keeps (Keeps.refl anyField s) (fldMask_any f)).hif (by decide)
@[simp] theorem wrb_pwr (s : State) (p : Page) (f : Fld) (v : Bool) : (wrb s p f v).pwr = s.pwr := (wrb_keeps (Keeps.refl anyField s) (fldMask_any f)).pwr (by decide)
@[simp] theorem wrb_boot (s : State) (p : Page) (f : Fld) (v : Bool) : (wrb s p f v).boot = s.boot := (wrb_keeps (Keeps.refl anyField s) (fldMask_any f)).boot (by decide)
@[simp] theorem wrb_lcs (s : State) (p : Page) (f : Fld) (v : Bool) : (wrb s p f v).lcs = s.lcs := (wrb_keeps (Keeps.refl anyField s) (fldMask_any f)).lcs (by decide)
@[simp] theorem wrb_out (s : State) (p : Page) (f : Fld) (v : Bool) : (wrb s p f v).out = s.out := (wrb_keeps (Keeps.refl anyField s) (fldMask_any f)).out (by decide)
@[simp] theorem wrb_freeCtr (s : State) (p : Page) (f : Fld) (v : Bool) : (wrb s p f v).freeCtr = s.freeCtr := (wrb_keeps (Keeps.refl anyField s) (fldMask_any f)).free (by decide)
@[simp] theorem wrb_pending (s : State) (p : Page) (f : Fld) (v : Bool) : (wrb s p f v).pending = s.pending := (wrb_keeps (Keeps.refl anyField s) (fldMask_any f)).pending

@[simp] theorem addSat_mem (s : State) (p : Page) (f : Fld) (n : Nat) : (addSat s p f n).mem = s.mem := (addSat_keeps (Keeps.refl anyField s) (fldMask_any f)).mem (by decide)
@[simp] theorem addSat_mgt (s : State) (p : Page) (f : Fld) (n : Nat) : (addSat s p f n).mgt = s.mgt := (addSat_keeps (Keeps.refl anyField s) (fldMask_any f)).mgt (by decide)
@[simp] theorem addSat_tim (s : State) (p : Page) (f : Fld) (n : Nat) : (addSat s p f n).tim = s.tim := (addSat_keeps (Keeps.refl anyField s) (fldMask_any f)).tim (by decide)
@[simp] theorem addSat_tlk (s : State) (p : Page) (f : Fld) (n : Nat) : (addSat s p f n).tlk = s.tlk := (addSat_keeps (Keeps.refl anyField s) (fldMask_any f)).tlk (by decide)
@[simp] theorem addSat_pat (s : State) (p : Page) (f : Fld) (n : Nat) : (addSat s p f n).pat = s.pat := (addSat_keeps (Keeps.refl anyField s) (fldMask_any f)).pat (by decide)
@[simp] theorem addSat_pin (s : State) (p : Page) (f : Fld) (n : Nat) : (addSat s p f n).pin = s.pin := (addSat_keeps (Keeps.refl anyField s) (fldMask_any f)).pin (by decide)
@[simp] theorem addSat_au (s : State) (p : Page) (f : Fld) (n : Nat) : (addSat s p f n).au = s.au := (addSat_keeps (Keeps.refl anyField s) (fldMask_any f)).au (by decide)
@[simp] theorem addSat_cal (s : State) (p : Page) (f : Fld) (n : Nat) : (addSat s p f n).cal = s.cal := (addSat_keeps (Keeps.refl anyField s) (fldMask_any f)).cal (by decide)
@[simp] theorem addSat_memc (s : State) (p : Page) (f : Fld) (n : Nat) : (addSat s p f n).memc = s.memc := (addSat_keeps (Keeps.refl anyField s) (fldMask_any f)).memc (by decide)
@[simp] theorem addSat_hif (s : State) (p : Page) (f : Fld) (n : Nat) : (addSat s p f n).hif = s.hif := (addSat_keeps (Keeps.refl anyField s) (fldMask_any f)).hif (by decide)
@[simp] theorem addSat_pwr (s : State) (p : Page) (f : Fld) (n : Nat) : (addSat s p f n).pwr = s.pwr := (addSat_keeps (Keeps.refl anyField s) (fldMask_any f)).pwr (by decide)
@[simp] theorem addSat_boot (s : State) (p : Page) (f : Fld) (n : Nat) : (addSat s p f n).boot = s.boot := (addSat_keeps (Keeps.refl anyField s) (fldMask_any f)).boot (by decide)
@[simp] theorem addSat_lcs (s : State) (p : Page) (f : Fld) (n : Nat) : (addSat s p f n).lcs = s.lcs := (addSat_keeps (Keeps.refl anyField s) (fldMask_any f)).lcs (by decide)
@[simp] theorem addSat_out (s : State) (p : Page) (f : Fld) (n : Nat) : (addSat s p f n).out = s.out := (addSat_keeps (Keeps.refl anyField s) (fldMask_any f)).out (by decide)
@[simp] theorem addSat_freeCtr (s : State) (p : Page) (f : Fld) (n : Nat) : (addSat s p f n).freeCtr = s.freeCtr := (addSat_keeps (Keeps.refl anyField s) (fldMask_any f)).free (by decide)
@[simp] theorem addSat_pending (s : State) (p : Page) (f : Fld) (n : Nat) : (addSat s p f n).pending = s.pending := (addSat_keeps (Keeps.refl anyField s) (fldMask_any f)).pending

@[simp] theorem incSat_mem (s : State) (p : Page) (f : Fld) : (incSat s p f).mem = s.mem := (incSat_keeps (Keeps.refl anyField s) (fldMask_any f)).mem (by decide)
@[simp] theorem incSat_mgt (s : State) (p : Page) (f : Fld) : (incSat s p f).mgt = s.mgt := (incSat_keeps (Keeps.refl anyField s) (fldMask_any f)).mgt (by decide)
@[simp] theorem incSat_tim (s : State) (p : Page) (f : Fld) : (incSat s p f).tim = s.tim := (incSat_keeps (Keeps.refl anyField s) (fldMask_any f)).tim (by decide)
@[simp] theorem incSat_tlk (s : State) (p : Page) (f : Fld) : (incSat s p f).tlk = s.tlk := (incSat_keeps (Keeps.refl anyField s) (fldMask_any f)).tlk (by decide)
@[simp] theorem incSat_pat (s : State) (p : Page) (f : Fld) : (incSat s p f).pat = s.pat := (incSat_keeps (Keeps.refl anyField s) (fldMask_any f)).pat (by decide)
@[simp] theorem incSat_pin (s : State) (p : Page) (f : Fld) : (incSat s p f).pin = s.pin := (incSat_keeps (Keeps.refl anyField s) (fldMask_any f)).pin (by decide)
@[simp] theorem incSat_au (s : State) (p : Page) (f : Fld) : (incSat s p f).au = s.au := (incSat_keeps (Keeps.refl anyField s) (fldMask_any f)).au (by decide)
@[simp] theorem incSat_cal (s : State) (p : Page) (f : Fld) : (incSat s p f).cal = s.cal := (incSat_keeps (Keeps.refl anyField s) (fldMask_any f)).cal (by decide)
@[simp] theorem incSat_memc (s : State) (p : Page) (f : Fld) : (incSat s p f).memc = s.memc := (incSat_keeps (Keeps.refl anyField s) (fldMask_any f)).memc (by decide)
@[simp] theorem incSat_hif (s : State) (p : Page) (f : Fld) : (incSat s p f).hif = s.hif := (incSat_keeps (Keeps.refl anyField s) (fldMask_any f)).hif (by decide)
@[simp] theorem incSat_pwr (s : State) (p : Page) (f : Fld) : (incSat s p f).pwr = s.pwr := (incSat_keeps (Keeps.refl anyField s) (fldMask_any f)).pwr (by decide)
@[simp] theorem incSat_boot (s : State) (p : Page) (f : Fld) : (incSat s p f).boot = s.boot := (incSat_keeps (Keeps.refl anyField s) (fldMask_any f)).boot (by decide)
@[simp] theorem incSat_lcs (s : State) (p : Page) (f : Fld) : (incSat s p f).lcs = s.lcs := (incSat_keeps (Keeps.refl anyField s) (fldMask_any f)).lcs (by decide)
@[simp] theorem incSat_out (s : State) (p : Page) (f : Fld) : (incSat s p f).out = s.out := (incSat_keeps (Keeps.refl anyField s) (fldMask_any f)).out (by decide)
@[simp] theorem incSat_freeCtr (s : State) (p : Page) (f : Fld) : (incSat s p f).freeCtr = s.freeCtr := (incSat_keeps (Keeps.refl anyField s) (fldMask_any f)).free (by decide)
@[simp] theorem incSat_pending (s : State) (p : Page) (f : Fld) : (incSat s p f).pending = s.pending := (incSat_keeps (Keeps.refl anyField s) (fldMask_any f)).pending

@[simp] theorem addWrap_mem (s : State) (p : Page) (f : Fld) (n : Nat) : (addWrap s p f n).mem = s.mem := (addWrap_keeps (Keeps.refl anyField s) (fldMask_any f)).mem (by decide)
@[simp] theorem addWrap_mgt (s : State) (p : Page) (f : Fld) (n : Nat) : (addWrap s p f n).mgt = s.mgt := (addWrap_keeps (Keeps.refl anyField s) (fldMask_any f)).mgt (by decide)
@[simp] theorem addWrap_tim (s : State) (p : Page) (f : Fld) (n : Nat) : (addWrap s p f n).tim = s.tim := (addWrap_keeps (Keeps.refl anyField s) (fldMask_any f)).tim (by decide)
@[simp] theorem addWrap_tlk (s : State) (p : Page) (f : Fld) (n : Nat) : (addWrap s p f n).tlk = s.tlk := (addWrap_keeps (Keeps.refl anyField s) (fldMask_any f)).tlk (by decide)
@[simp] theorem addWrap_pat (s : State) (p : Page) (f : Fld) (n : Nat) : (addWrap s p f n).pat = s.pat := (addWrap_keeps (Keeps.refl anyField s) (fldMask_any f)).pat (by decide)
@[simp] theorem addWrap_pin (s : State) (p : Page) (f : Fld) (n : Nat) : (addWrap s p f n).pin = s.pin := (addWrap_keeps (Keeps.refl anyField s) (fldMask_any f)).pin (by decide)
@[simp] theorem addWrap_au (s : State) (p : Page) (f : Fld) (n : Nat) : (addWrap s p f n).au = s.au := (addWrap_keeps (Keeps.refl anyField s) (fldMask_any f)).au (by decide)
@[simp] theorem addWrap_cal (s : State) (p : Page) (f : Fld) (n : Nat) : (addWrap s p f n).cal = s.cal := (addWrap_keeps (Keeps.refl anyField s) (fldMask_any f)).cal (by decide)
@[simp] theorem addWrap_memc (s : State) (p : Page) (f : Fld) (n : Nat) : (addWrap s p f n).memc = s.memc := (addWrap_keeps (Keeps.refl anyField s) (fldMask_any f)).memc (by decide)
@[simp] theorem addWrap_hif (s : State) (p : Page) (f : Fld) (n : Nat) : (addWrap s p f n).hif = s.hif := (addWrap_keeps (Keeps.refl anyField s) (fldMask_any f)).hif (by decide)
@[simp] theorem addWrap_pwr (s : State) (p : Page) (f : Fld) (n : Nat) : (addWrap s p f n).pwr = s.pwr := (addWrap_keeps (Keeps.refl anyField s) (fldMask_any f)).pwr (by decide)
@[simp] theorem addWrap_boot (s : State) (p : Page) (f : Fld) (n : Nat) : (addWrap s p f n).boot = s.boot := (addWrap_keeps (Keeps.refl anyField s) (fldMask_any f)).boot (by decide)
@[simp] theorem addWrap_lcs (s : State) (p : Page) (f : Fld) (n : Nat) : (addWrap s p f n).lcs = s.lcs := (addWrap_keeps (Keeps.refl anyField s) (fldMask_any f)).lcs (by decide)
@[simp] theorem addWrap_out (s : State) (p : Page) (f : Fld) (n : Nat) : (addWrap s p f n).out = s.out := (addWrap_keeps (Keeps.refl anyField s) (fldMask_any f)).out (by decide)
@[simp] theorem addWrap_freeCtr (s : State) (p : Page) (f : Fld) (n : Nat) : (addWrap s p f n).freeCtr = s.freeCtr := (addWrap_keeps (Keeps.refl anyField s) (fldMask_any f)).free (by decide)
@[simp] theorem addWrap_pending (s : State) (p : Page) (f : Fld) (n : Nat) : (addWrap s p f n).pending = s.pending := (addWrap_keeps (Keeps.refl anyField s) (fldMask_any f)).pending

@[simp] theorem incWrap_mem (s : State) (p : Page) (f : Fld) : (incWrap s p f).mem = s.mem := (incWrap_keeps (Keeps.refl anyField s) (fldMask_any f)).mem (by decide)
@[simp] theorem incWrap_mgt (s : State) (p : Page) (f : Fld) : (incWrap s p f).mgt = s.mgt := (incWrap_keeps (Keeps.refl anyField s) (fldMask_any f)).mgt (by decide)
@[simp] theorem incWrap_tim (s : State) (p : Page) (f : Fld) : (incWrap s p f).tim = s.tim := (incWrap_keeps (Keeps.refl anyField s) (fldMask_any f)).tim (by decide)
@[simp] theorem incWrap_tlk (s : State) (p : Page) (f : Fld) : (incWrap s p f).tlk = s.tlk := (incWrap_keeps (Keeps.refl anyField s) (fldMask_any f)).tlk (by decide)
@[simp] theorem incWrap_pat (s : State) (p : Page) (f : Fld) : (incWrap s p f).pat = s.pat := (incWrap_keeps (Keeps.refl anyField s) (fldMask_any f)).pat (by decide)
@[simp] theorem incWrap_pin (s : State) (p : Page) (f : Fld) : (incWrap s p f).pin = s.pin := (incWrap_keeps (Keeps.refl anyField s) (fldMask_any f)).pin (by decide)
@[simp] theorem incWrap_au (s : State) (p : Page) (f : Fld) : (incWrap s p f).au = s.au := (incWrap_keeps (Keeps.refl anyField s) (fldMask_any f)).au (by decide)
@[simp] theorem incWrap_cal (s : State) (p : Page) (f : Fld) : (incWrap s p f).cal = s.cal := (incWrap_keeps (Keeps.refl anyField s) (fldMask_any f)).cal (by decide)
@[simp] theorem incWrap_memc (s : State) (p : Page) (f : Fld) : (incWrap s p f).memc = s.memc := (incWrap_keeps (Keeps.refl anyField s) (fldMask_any f)).memc (by decide)
@[simp] theorem incWrap_hif (s : State) (p : Page) (f : Fld) : (incWrap s p f).hif = s.hif := (incWrap_keeps (Keeps.refl anyField s) (fldMask_any f)).hif (by decide)
@[simp] theorem incWrap_pwr (s : State) (p : Page) (f : Fld) : (incWrap s p f).pwr = s.pwr := (incWrap_keeps (Keeps.refl anyField s) (fldMask_any f)).pwr (by decide)
@[simp] theorem incWrap_boot (s : State) (p : Page) (f : Fld) : (incWrap s p f).boot = s.boot := (incWrap_keeps (Keeps.refl anyField s) (fldMask_any f)).boot (by decide)
@[simp] theorem incWrap_lcs (s : State) (p : Page) (f : Fld) : (incWrap s p f).lcs = s.lcs := (incWrap_keeps (Keeps.refl anyField s) (fldMask_any f)).lcs (by decide)
@[simp] theorem incWrap_out (s : State) (p : Page) (f : Fld) : (incWrap s p f).out = s.out := (incWrap_keeps (Keeps.refl anyField s) (fldMask_any f)).out (by decide)
@[simp] theorem incWrap_freeCtr (s : State) (p : Page) (f : Fld) : (incWrap s p f).freeCtr = s.freeCtr := (incWrap_keeps (Keeps.refl anyField s) (fldMask_any f)).free (by decide)
@[simp] theorem incWrap_pending (s : State) (p : Page) (f : Fld) : (incWrap s p f).pending = s.pending := (incWrap_keeps (Keeps.refl anyField s) (fldMask_any f)).pending

@[simp] theorem orBits_mem (s : State) (p : Page) (f : Fld) (n : Nat) : (orBits s p f n).mem = s.mem := (orBits_keeps (Keeps.refl anyField s) (sub_trans (setMask_fldMask f) (fldMask_any f))).mem (by decide)
@[simp] theorem orBits_mgt (s : State) (p : Page) (f : Fld) (n : Nat) : (orBits s p f n).mgt = s.mgt := (orBits_keeps (Keeps.refl anyField s) (sub_trans (setMask_fldMask f) (fldMask_any f))).mgt (by decide)
@[simp] theorem orBits_tim (s : State) (p : Page) (f : Fld) (n : Nat) : (orBits s p f n).tim = s.tim := (orBits_keeps (Keeps.refl anyField s) (sub_trans (setMask_fldMask f) (fldMask_any f))).tim (by decide)
@[simp] theorem orBits_tlk (s : State) (p : Page) (f : Fld) (n : Nat) : (orBits s p f n).tlk = s.tlk := (orBits_keeps (Keeps.refl anyField s) (sub_trans (setMask_fldMask f) (fldMask_any f))).tlk (by decide)
@[simp] theorem orBits_pat (s : State) (p : Page) (f : Fld) (n : Nat) : (orBits s p f n).pat = s.pat := (orBits_keeps (Keeps.refl anyField s) (sub_trans (setMask_fldMask f) (fldMask_any f))).pat (by decide)
@[simp] theorem orBits_pin (s : State) (p : Page) (f : Fld) (n : Nat) : (orBits s p f n).pin = s.pin := (orBits_keeps (Keeps.refl anyField s) (sub_trans (setMask_fldMask f) (fldMask_any f))).pin (by decide)
@[simp] theorem orBits_au (s : State) (p : Page) (f : Fld) (n : Nat) : (orBits s p f n).au = s.au := (orBits_keeps (Keeps.refl anyField s) (sub_trans (setMask_fldMask f) (fldMask_any f))).au (by decide)
@[simp] theorem orBits_cal (s : State) (p : Page) (f : Fld) (n : Nat) : (orBits s p f n).cal = s.cal := (orBits_keeps (Keeps.refl anyField s) (sub_trans (setMask_fldMask f) (fldMask_any f))).cal (by decide)
@[simp] theorem orBits_memc (s : State) (p : Page) (f : Fld) (n : Nat) : (orBits s p f n).memc = s.memc := (orBits_keeps (Keeps.refl anyField s) (sub_trans (setMask_fldMask f) (fldMask_any f))).memc (by decide)
@[simp] theorem orBits_hif (s : State) (p : Page) (f : Fld) (n : Nat) : (orBits s p f n).hif = s.hif := (orBits_keeps (Keeps.refl anyField s) (sub_trans (setMask_fldMask f) (fldMask_any f))).hif (by decide)
@[simp] theorem orBits_pwr (s : State) (p : Page) (f : Fld) (n : Nat) : (orBits s p f n).pwr = s.pwr := (orBits_keeps (Keeps.refl anyField s) (sub_trans (setMask_fldMask f) (fldMask_any f))).pwr (by decide)
@[simp] theorem orBits_boot (s : State) (p : Page) (f : Fld) (n : Nat) : (orBits s p f n).boot = s.boot := (orBits_keeps (Keeps.refl anyField s) (sub_trans (setMask_fldMask f) (fldMask_any f))).boot (by decide)
@[simp] theorem orBits_lcs (s : State) (p : Page) (f : Fld) (n : Nat) : (orBits s p f n).lcs = s.lcs := (orBits_keeps (Keeps.refl anyField s) (sub_trans (setMask_fldMask f) (fldMask_any f))).lcs (by decide)
@[simp] theorem orBits_out (s : State) (p : Page) (f : Fld) (n : Nat) : (orBits s p f n).out = s.out := (orBits_keeps (Keeps.refl anyField s) (sub_trans (setMask_fldMask f) (fldMask_any f))).out (by decide)
@[simp] theorem orBits_freeCtr (s : State) (p : Page) (f : Fld) (n : Nat) : (orBits s p f n).freeCtr = s.freeCtr := (orBits_keeps (Keeps.refl anyField s) (sub_trans (setMask_fldMask f) (fldMask_any f))).free (by decide)
@[simp] theorem orBits_pending (s : State) (p : Page) (f : Fld) (n : Nat) : (orBits s p f n).pending = s.pending := (orBits_keeps (Keeps.refl anyField s) (sub_trans (setMask_fldMask f) (fldMask_any f))).pending

@[simp] theorem evlog_mem (s : State) (k t i c d : Nat) : (evlog s k t i c d).mem = s.mem := (evlog_keeps (Keeps.refl _ s) (Nat.or_self _)).mem (by decide)
@[simp] theorem evlog_tim (s : State) (k t i c d : Nat) : (evlog s k t i c d).tim = s.tim := (evlog_keeps (Keeps.refl _ s) (Nat.or_self _)).tim (by decide)
@[simp] theorem evlog_tlk (s : State) (k t i c d : Nat) : (evlog s k t i c d).tlk = s.tlk := (evlog_keeps (Keeps.refl _ s) (Nat.or_self _)).tlk (by decide)
@[simp] theorem evlog_pat (s : State) (k t i c d : Nat) : (evlog s k t i c d).pat = s.pat := (evlog_keeps (Keeps.refl _ s) (Nat.or_self _)).pat (by decide)
@[simp] theorem evlog_pin (s : State) (k t i c d : Nat) : (evlog s k t i c d).pin = s.pin := (evlog_keeps (Keeps.refl _ s) (Nat.or_self _)).pin (by decide)
@[simp] theorem evlog_au (s : State) (k t i c d : Nat) : (evlog s k t i c d).au = s.au := (evlog_keeps (Keeps.refl _ s) (Nat.or_self _)).au (by decide)
@[simp] theorem evlog_cal (s : State) (k t i c d : Nat) : (evlog s k t i c d).cal = s.cal := (evlog_keeps (Keeps.refl _ s) (Nat.or_self _)).cal (by decide)
@[simp] theorem evlog_memc (s : State) (k t i c d : Nat) : (evlog s k t i c d).memc = s.memc := (evlog_keeps (Keeps.refl _ s) (Nat.or_self _)).memc (by decide)
@[simp] theorem evlog_hif (s : State) (k t i c d : Nat) : (evlog s k t i c d).hif = s.hif := (evlog_keeps (Keeps.refl _ s) (Nat.or_self _)).hif (by decide)
@[simp] theorem evlog_pwr (s : State) (k t i c d : Nat) : (evlog s k t i c d).pwr = s.pwr := (evlog_keeps (Keeps.refl _ s) (Nat.or_self _)).pwr (by decide)
@[simp] theorem evlog_boot (s : State) (k t i c d : Nat) : (evlog s k t i c d).boot = s.boot := (evlog_keeps (Keeps.refl _ s) (Nat.or_self _)).boot (by decide)
@[simp] theorem evlog_lcs (s : State) (k t i c d : Nat) : (evlog s k t i c d).lcs = s.lcs := (evlog_keeps (Keeps.refl _ s) (Nat.or_self _)).lcs (by decide)
@[simp] theorem evlog_out (s : State) (k t i c d : Nat) : (evlog s k t i c d).out = s.out := (evlog_keeps (Keeps.refl _ s) (Nat.or_self _)).out (by decide)
@[simp] theorem evlog_freeCtr (s : State) (k t i c d : Nat) : (evlog s k t i c d).freeCtr = s.freeCtr := (evlog_keeps (Keeps.refl _ s) (Nat.or_self _)).free (by decide)
@[simp] theorem evlog_pending (s : State) (k t i c d : Nat) : (evlog s k t i c d).pending = s.pending := (evlog_keeps (Keeps.refl _ s) (Nat.or_self _)).pending

@[simp] theorem raiseInt_mem (s : State) (p : Page) (b : Nat) : (raiseInt s p b).mem = s.mem := (raiseInt_keeps (Keeps.refl _ s) (Nat.or_self _)).mem (by decide)
@[simp] theorem raiseInt_mgt (s : State) (p : Page) (b : Nat) : (raiseInt s p b).mgt = s.mgt := (raiseInt_keeps (Keeps.refl _ s) (Nat.or_self _)).mgt (by decide)
@[simp] theorem raiseInt_tim (s : State) (p : Page) (b : Nat) : (raiseInt s p b).tim = s.tim := (raiseInt_keeps (Keeps.refl _ s) (Nat.or_self _)).tim (by decide)
@[simp] theorem raiseInt_tlk (s : State) (p : Page) (b : Nat) : (raiseInt s p b).tlk = s.tlk := (raiseInt_keeps (Keeps.refl _ s) (Nat.or_self _)).tlk (by decide)
@[simp] theorem raiseInt_pat (s : State) (p : Page) (b : Nat) : (raiseInt s p b).pat = s.pat := (raiseInt_keeps (Keeps.refl _ s) (Nat.or_self _)).pat (by decide)
@[simp] theorem raiseInt_pin (s : State) (p : Page) (b : Nat) : (raiseInt s p b).pin = s.pin := (raiseInt_keeps (Keeps.refl _ s) (Nat.or_self _)).pin (by decide)
@[simp] theorem raiseInt_au (s : State) (p : Page) (b : Nat) : (raiseInt s p b).au = s.au := (raiseInt_keeps (Keeps.refl _ s) (Nat.or_self _)).au (by decide)
@[simp] theorem raiseInt_cal (s : State) (p : Page) (b : Nat) : (raiseInt s p b).cal = s.cal := (raiseInt_keeps (Keeps.refl _ s) (Nat.or_self _)).cal (by decide)
@[simp] theorem raiseInt_memc (s : State) (p : Page) (b : Nat) : (raiseInt s p b).memc = s.memc := (raiseInt_keeps (Keeps.refl _ s) (Nat.or_self _)).memc (by decide)
@[simp] theorem raiseInt_hif (s : State) (p : Page) (b : Nat) : (raiseInt s p b).hif = s.hif := (raiseInt_keeps (Keeps.refl _ s) (Nat.or_self _)).hif (by decide)
@[simp] theorem raiseInt_pwr (s : State) (p : Page) (b : Nat) : (raiseInt s p b).pwr = s.pwr := (raiseInt_keeps (Keeps.refl _ s) (Nat.or_self _)).pwr (by decide)
@[simp] theorem raiseInt_boot (s : State) (p : Page) (b : Nat) : (raiseInt s p b).boot = s.boot := (raiseInt_keeps (Keeps.refl _ s) (Nat.or_self _)).boot (by decide)
@[simp] theorem raiseInt_lcs (s : State) (p : Page) (b : Nat) : (raiseInt s p b).lcs = s.lcs := (raiseInt_keeps (Keeps.refl _ s) (Nat.or_self _)).lcs (by decide)
@[simp] theorem raiseInt_freeCtr (s : State) (p : Page) (b : Nat) : (raiseInt s p b).freeCtr = s.freeCtr := (raiseInt_keeps (Keeps.refl _ s) (Nat.or_self _)).free (by decide)
@[simp] theorem raiseInt_pending (s : State) (p : Page) (b : Nat) : (raiseInt s p b).pending = s.pending := (raiseInt_keeps (Keeps.refl _ s) (Nat.or_self _)).pending

@[simp] theorem becomeSevere_mem (s : State) (p : Page) (c : Nat) : (becomeSevere s p c).mem = s.mem := (becomeSevere_keeps (Keeps.refl _ s) (Nat.or_self _)).mem (by decide)
@[simp] theorem becomeSevere_tim (s : State) (p : Page) (c : Nat) : (becomeSevere s p c).tim = s.tim := (becomeSevere_keeps (Keeps.refl _ s) (Nat.or_self _)).tim (by decide)
@[simp] theorem becomeSevere_tlk (s : State) (p : Page) (c : Nat) : (becomeSevere s p c).tlk = s.tlk := (becomeSevere_keeps (Keeps.refl _ s) (Nat.or_self _)).tlk (by decide)
@[simp] theorem becomeSevere_pat (s : State) (p : Page) (c : Nat) : (becomeSevere s p c).pat = s.pat := (becomeSevere_keeps (Keeps.refl _ s) (Nat.or_self _)).pat (by decide)
@[simp] theorem becomeSevere_pin (s : State) (p : Page) (c : Nat) : (becomeSevere s p c).pin = s.pin := (becomeSevere_keeps (Keeps.refl _ s) (Nat.or_self _)).pin (by decide)
@[simp] theorem becomeSevere_au (s : State) (p : Page) (c : Nat) : (becomeSevere s p c).au = s.au := (becomeSevere_keeps (Keeps.refl _ s) (Nat.or_self _)).au (by decide)
@[simp] theorem becomeSevere_cal (s : State) (p : Page) (c : Nat) : (becomeSevere s p c).cal = s.cal := (becomeSevere_keeps (Keeps.refl _ s) (Nat.or_self _)).cal (by decide)
@[simp] theorem becomeSevere_memc (s : State) (p : Page) (c : Nat) : (becomeSevere s p c).memc = s.memc := (becomeSevere_keeps (Keeps.refl _ s) (Nat.or_self _)).memc (by decide)
@[simp] theorem becomeSevere_hif (s : State) (p : Page) (c : Nat) : (becomeSevere s p c).hif = s.hif := (becomeSevere_keeps (Keeps.refl _ s) (Nat.or_self _)).hif (by decide)
@[simp] theorem becomeSevere_pwr (s : State) (p : Page) (c : Nat) : (becomeSevere s p c).pwr = s.pwr := (becomeSevere_keeps (Keeps.refl _ s) (Nat.or_self _)).pwr (by decide)
@[simp] theorem becomeSevere_boot (s : State) (p : Page) (c : Nat) : (becomeSevere s p c).boot = s.boot := (becomeSevere_keeps (Keeps.refl _ s) (Nat.or_self _)).boot (by decide)
@[simp] theorem becomeSevere_lcs (s : State) (p : Page) (c : Nat) : (becomeSevere s p c).lcs = s.lcs := (becomeSevere_keeps (Keeps.refl _ s) (Nat.or_self _)).lcs (by decide)
@[simp] theorem becomeSevere_freeCtr (s : State) (p : Page) (c : Nat) : (becomeSevere s p c).freeCtr = s.freeCtr := (becomeSevere_keeps (Keeps.refl _ s) (Nat.or_self _)).free (by decide)
@[simp] theorem becomeSevere_pending (s : State) (p : Page) (c : Nat) : (becomeSevere s p c).pending = s.pending := (becomeSevere_keeps (Keeps.refl _ s) (Nat.or_self _)).pending

@[simp] theorem fltEvent_mem (s : State) (p : Page) (c : Nat) : (fltEvent s p c).mem = s.mem := (fltEvent_keeps (Keeps.refl _ s) (Nat.or_self _)).mem (by decide)
@[simp] theorem fltEvent_tim (s : State) (p : Page) (c : Nat) : (fltEvent s p c).tim = s.tim := (fltEvent_keeps (Keeps.refl _ s) (Nat.or_self _)).tim (by decide)
@[simp] theorem fltEvent_tlk (s : State) (p : Page) (c : Nat) : (fltEvent s p c).tlk = s.tlk := (fltEvent_keeps (Keeps.refl _ s) (Nat.or_self _)).tlk (by decide)
@[simp] theorem fltEvent_pat (s : State) (p : Page) (c : Nat) : (fltEvent s p c).pat = s.pat := (fltEvent_keeps (Keeps.refl _ s) (Nat.or_self _)).pat (by decide)
@[simp] theorem fltEvent_pin (s : State) (p : Page) (c : Nat) : (fltEvent s p c).pin = s.pin := (fltEvent_keeps (Keeps.refl _ s) (Nat.or_self _)).pin (by decide)
@[simp] theorem fltEvent_au (s : State) (p : Page) (c : Nat) : (fltEvent s p c).au = s.au := (fltEvent_keeps (Keeps.refl _ s) (Nat.or_self _)).au (by decide)
@[simp] theorem fltEvent_cal (s : State) (p : Page) (c : Nat) : (fltEvent s p c).cal = s.cal := (fltEvent_keeps (Keeps.refl _ s) (Nat.or_self _)).cal (by decide)
@[simp] theorem fltEvent_memc (s : State) (p : Page) (c : Nat) : (fltEvent s p c).memc = s.memc := (fltEvent_keeps (Keeps.refl _ s) (Nat.or_self _)).memc (by decide)
@[simp] theorem fltEvent_hif (s : State) (p : Page) (c : Nat) : (fltEvent s p c).hif = s.hif := (fltEvent_keeps (Keeps.refl _ s) (Nat.or_self _)).hif (by decide)
@[simp] theorem fltEvent_pwr (s : State) (p : Page) (c : Nat) : (fltEvent s p c).pwr = s.pwr := (fltEvent_keeps (Keeps.refl _ s) (Nat.or_self _)).pwr (by decide)
@[simp] theorem fltEvent_boot (s : State) (p : Page) (c : Nat) : (fltEvent s p c).boot = s.boot := (fltEvent_keeps (Keeps.refl _ s) (Nat.or_self _)).boot (by decide)
@[simp] theorem fltEvent_lcs (s : State) (p : Page) (c : Nat) : (fltEvent s p c).lcs = s.lcs := (fltEvent_keeps (Keeps.refl _ s) (Nat.or_self _)).lcs (by decide)
@[simp] theorem fltEvent_freeCtr (s : State) (p : Page) (c : Nat) : (fltEvent s p c).freeCtr = s.freeCtr := (fltEvent_keeps (Keeps.refl _ s) (Nat.or_self _)).free (by decide)
@[simp] theorem fltEvent_pending (s : State) (p : Page) (c : Nat) : (fltEvent s p c).pending = s.pending := (fltEvent_keeps (Keeps.refl _ s) (Nat.or_self _)).pending

@[simp] theorem setLive_mem (s : State) (p : Page) (c : Nat) (b : Bool) : (setLive s p c b).mem = s.mem := (setLive_keeps (Keeps.refl _ s) (Nat.or_self _)).mem (by decide)
@[simp] theorem setLive_tim (s : State) (p : Page) (c : Nat) (b : Bool) : (setLive s p c b).tim = s.tim := (setLive_keeps (Keeps.refl _ s) (Nat.or_self _)).tim (by decide)
@[simp] theorem setLive_tlk (s : State) (p : Page) (c : Nat) (b : Bool) : (setLive s p c b).tlk = s.tlk := (setLive_keeps (Keeps.refl _ s) (Nat.or_self _)).tlk (by decide)
@[simp] theorem setLive_pat (s : State) (p : Page) (c : Nat) (b : Bool) : (setLive s p c b).pat = s.pat := (setLive_keeps (Keeps.refl _ s) (Nat.or_self _)).pat (by decide)
@[simp] theorem setLive_pin (s : State) (p : Page) (c : Nat) (b : Bool) : (setLive s p c b).pin = s.pin := (setLive_keeps (Keeps.refl _ s) (Nat.or_self _)).pin (by decide)
@[simp] theorem setLive_au (s : State) (p : Page) (c : Nat) (b : Bool) : (setLive s p c b).au = s.au := (setLive_keeps (Keeps.refl _ s) (Nat.or_self _)).au (by decide)
@[simp] theorem setLive_cal (s : State) (p : Page) (c : Nat) (b : Bool) : (setLive s p c b).cal = s.cal := (setLive_keeps (Keeps.refl _ s) (Nat.or_self _)).cal (by decide)
@[simp] theorem setLive_memc (s : State) (p : Page) (c : Nat) (b : Bool) : (setLive s p c b).memc = s.memc := (setLive_keeps (Keeps.refl _ s) (Nat.or_self _)).memc (by decide)
@[simp] theorem setLive_hif (s : State) (p : Page) (c : Nat) (b : Bool) : (setLive s p c b).hif = s.hif := (setLive_keeps (Keeps.refl _ s) (Nat.or_self _)).hif (by decide)
@[simp] theorem setLive_pwr (s : State) (p : Page) (c : Nat) (b : Bool) : (setLive s p c b).pwr = s.pwr := (setLive_keeps (Keeps.refl _ s) (Nat.or_self _)).pwr (by decide)
@[simp] theorem setLive_boot (s : State) (p : Page) (c : Nat) (b : Bool) : (setLive s p c b).boot = s.boot := (setLive_keeps (Keeps.refl _ s) (Nat.or_self _)).boot (by decide)
@[simp] theorem setLive_lcs (s : State) (p : Page) (c : Nat) (b : Bool) : (setLive s p c b).lcs = s.lcs := (setLive_keeps (Keeps.refl _ s) (Nat.or_self _)).lcs (by decide)
@[simp] theorem setLive_freeCtr (s : State) (p : Page) (c : Nat) (b : Bool) : (setLive s p c b).freeCtr = s.freeCtr := (setLive_keeps (Keeps.refl _ s) (Nat.or_self _)).free (by decide)
@[simp] theorem setLive_pending (s : State) (p : Page) (c : Nat) (b : Bool) : (setLive s p c b).pending = s.pending := (setLive_keeps (Keeps.refl _ s) (Nat.or_self _)).pending

@[simp] theorem setLiveInt_mem (s : State) (p : Page) (c i : Nat) (b : Bool) : (setLiveInt s p c i b).mem = s.mem := (setLiveInt_keeps (Keeps.refl _ s) (Nat.or_self _)).mem (by decide)
@[simp] theorem setLiveInt_tim (s : State) (p : Page) (c i : Nat) (b : Bool) : (setLiveInt s p c i b).tim = s.tim := (setLiveInt_keeps (Keeps.refl _ s) (Nat.or_self _)).tim (by decide)
@[simp] theorem setLiveInt_tlk (s : State) (p : Page) (c i : Nat) (b : Bool) : (setLiveInt s p c i b).tlk = s.tlk := (setLiveInt_keeps (Keeps.refl _ s) (Nat.or_self _)).tlk (by decide)
@[simp] theorem setLiveInt_pat (s : State) (p : Page) (c i : Nat) (b : Bool) : (setLiveInt s p c i b).pat = s.pat := (setLiveInt_keeps (Keeps.refl _ s) (Nat.or_self _)).pat (by decide)
@[simp] theorem setLiveInt_pin (s : State) (p : Page) (c i : Nat) (b : Bool) : (setLiveInt s p c i b).pin = s.pin := (setLiveInt_keeps (Keeps.refl _ s) (Nat.or_self _)).pin (by decide)
@[simp] theorem setLiveInt_au (s : State) (p : Page) (c i : Nat) (b : Bool) : (setLiveInt s p c i b).au = s.au := (setLiveInt_keeps (Keeps.refl _ s) (Nat.or_self _)).au (by decide)
@[simp] theorem setLiveInt_cal (s : State) (p : Page) (c i : Nat) (b : Bool) : (setLiveInt s p c i b).cal = s.cal := (setLiveInt_keeps (Keeps.refl _ s) (Nat.or_self _)).cal (by decide)
@[simp] theorem setLiveInt_memc (s : State) (p : Page) (c i : Nat) (b : Bool) : (setLiveInt s p c i b).memc = s.memc := (setLiveInt_keeps (Keeps.refl _ s) (Nat.or_self _)).memc (by decide)
@[simp] theorem setLiveInt_hif (s : State) (p : Page) (c i : Nat) (b : Bool) : (setLiveInt s p c i b).hif = s.hif := (setLiveInt_keeps (Keeps.refl _ s) (Nat.or_self _)).hif (by decide)
@[simp] theorem setLiveInt_pwr (s : State) (p : Page) (c i : Nat) (b : Bool) : (setLiveInt s p c i b).pwr = s.pwr := (setLiveInt_keeps (Keeps.refl _ s) (Nat.or_self _)).pwr (by decide)
@[simp] theorem setLiveInt_boot (s : State) (p : Page) (c i : Nat) (b : Bool) : (setLiveInt s p c i b).boot = s.boot := (setLiveInt_keeps (Keeps.refl _ s) (Nat.or_self _)).boot (by decide)
@[simp] theorem setLiveInt_lcs (s : State) (p : Page) (c i : Nat) (b : Bool) : (setLiveInt s p c i b).lcs = s.lcs := (setLiveInt_keeps (Keeps.refl _ s) (Nat.or_self _)).lcs (by decide)
@[simp] theorem setLiveInt_freeCtr (s : State) (p : Page) (c i : Nat) (b : Bool) : (setLiveInt s p c i b).freeCtr = s.freeCtr := (setLiveInt_keeps (Keeps.refl _ s) (Nat.or_self _)).free (by decide)
@[simp] theorem setLiveInt_pending (s : State) (p : Page) (c i : Nat) (b : Bool) : (setLiveInt s p c i b).pending = s.pending := (setLiveInt_keeps (Keeps.refl _ s) (Nat.or_self _)).pending

@[simp] theorem writeLocked_mem (s : State) (p : Page) : (writeLocked s p).mem = s.mem := (writeLocked_keeps (Keeps.refl _ s) (Nat.or_self _)).mem (by decide)
@[simp] theorem writeLocked_tim (s : State) (p : Page) : (writeLocked s p).tim = s.tim := (writeLocked_keeps (Keeps.refl _ s) (Nat.or_self _)).tim (by decide)
@[simp] theorem writeLocked_tlk (s : State) (p : Page) : (writeLocked s p).tlk = s.tlk := (writeLocked_keeps (Keeps.refl _ s) (Nat.or_self _)).tlk (by decide)
@[simp] theorem writeLocked_pat (s : State) (p : Page) : (writeLocked s p).pat = s.pat := (writeLocked_keeps (Keeps.refl _ s) (Nat.or_self _)).pat (by decide)
@[simp] theorem writeLocked_pin (s : State) (p : Page) : (writeLocked s p).pin = s.pin := (writeLocked_keeps (Keeps.refl _ s) (Nat.or_self _)).pin (by decide)
@[simp] theorem writeLocked_au (s : State) (p : Page) : (writeLocked s p).au = s.au := (writeLocked_keeps (Keeps.refl _ s) (Nat.or_self _)).au (by decide)
@[simp] theorem writeLocked_cal (s : State) (p : Page) : (writeLocked s p).cal = s.cal := (writeLocked_keeps (Keeps.refl _ s) (Nat.or_self _)).cal (by decide)
@[simp] theorem writeLocked_memc (s : State) (p : Page) : (writeLocked s p).memc = s.memc := (writeLocked_keeps (Keeps.refl _ s) (Nat.or_self _)).memc (by decide)
@[simp] theorem writeLocked_hif (s : State) (p : Page) : (writeLocked s p).hif = s.hif := (writeLocked_keeps (Keeps.refl _ s) (Nat.or_self _)).hif (by decide)
@[simp] theorem writeLocked_pwr (s : State) (p : Page) : (writeLocked s p).pwr = s.pwr := (writeLocked_keeps (Keeps.refl _ s) (Nat.or_self _)).pwr (by decide)
@[simp] theorem writeLocked_boot (s : State) (p : Page) : (writeLocked s p).boot = s.boot := (writeLocked_keeps (Keeps.refl _ s) (Nat.or_self _)).boot (by decide)
@[simp] theorem writeLocked_lcs (s : State) (p : Page) : (writeLocked s p).lcs = s.lcs := (writeLocked_keeps (Keeps.refl _ s) (Nat.or_self _)).lcs (by decide)
@[simp] theorem writeLocked_freeCtr (s : State) (p : Page) : (writeLocked s p).freeCtr = s.freeCtr := (writeLocked_keeps (Keeps.refl _ s) (Nat.or_self _)).free (by decide)
@[simp] theorem writeLocked_pending (s : State) (p : Page) : (writeLocked s p).pending = s.pending := (writeLocked_keeps (Keeps.refl _ s) (Nat.or_self _)).pending

@[simp] theorem cplErr_mem (s : State) (p : Page) : (cplErr s p).mem = s.mem := (cplErr_keeps (Keeps.refl _ s) (Nat.or_self _)).mem (by decide)
@[simp] theorem cplErr_tim (s : State) (p : Page) : (cplErr s p).tim = s.tim := (cplErr_keeps (Keeps.refl _ s) (Nat.or_self _)).tim (by decide)
@[simp] theorem cplErr_tlk (s : State) (p : Page) : (cplErr s p).tlk = s.tlk := (cplErr_keeps (Keeps.refl _ s) (Nat.or_self _)).tlk (by decide)
@[simp] theorem cplErr_pat (s : State) (p : Page) : (cplErr s p).pat = s.pat := (cplErr_keeps (Keeps.refl _ s) (Nat.or_self _)).pat (by decide)
@[simp] theorem cplErr_pin (s : State) (p : Page) : (cplErr s p).pin = s.pin := (cplErr_keeps (Keeps.refl _ s) (Nat.or_self _)).pin (by decide)
@[simp] theorem cplErr_au (s : State) (p : Page) : (cplErr s p).au = s.au := (cplErr_keeps (Keeps.refl _ s) (Nat.or_self _)).au (by decide)
@[simp] theorem cplErr_cal (s : State) (p : Page) : (cplErr s p).cal = s.cal := (cplErr_keeps (Keeps.refl _ s) (Nat.or_self _)).cal (by decide)
@[simp] theorem cplErr_memc (s : State) (p : Page) : (cplErr s p).memc = s.memc := (cplErr_keeps (Keeps.refl _ s) (Nat.or_self _)).memc (by decide)
@[simp] theorem cplErr_hif (s : State) (p : Page) : (cplErr s p).hif = s.hif := (cplErr_keeps (Keeps.refl _ s) (Nat.or_self _)).hif (by decide)
@[simp] theorem cplErr_pwr (s : State) (p : Page) : (cplErr s p).pwr = s.pwr := (cplErr_keeps (Keeps.refl _ s) (Nat.or_self _)).pwr (by decide)
@[simp] theorem cplErr_boot (s : State) (p : Page) : (cplErr s p).boot = s.boot := (cplErr_keeps (Keeps.refl _ s) (Nat.or_self _)).boot (by decide)
@[simp] theorem cplErr_lcs (s : State) (p : Page) : (cplErr s p).lcs = s.lcs := (cplErr_keeps (Keeps.refl _ s) (Nat.or_self _)).lcs (by decide)
@[simp] theorem cplErr_freeCtr (s : State) (p : Page) : (cplErr s p).freeCtr = s.freeCtr := (cplErr_keeps (Keeps.refl _ s) (Nat.or_self _)).free (by decide)
@[simp] theorem cplErr_pending (s : State) (p : Page) : (cplErr s p).pending = s.pending := (cplErr_keeps (Keeps.refl _ s) (Nat.or_self _)).pending

/-! ### No event touches the record of parity mismatches -/

@[simp] theorem whenS_parBad (b : Bool) (f : State → State) (s : State) (h : (f s).mgt.parBad = s.mgt.parBad) : (whenS b f s).mgt.parBad = s.mgt.parBad := by
  cases b
  · rfl
  · exact h

@[simp] theorem wr_parBad (s : State) (p : Page) (f : Fld) (v : Nat) : (wr s p f v).mgt.parBad = s.mgt.parBad := rfl

@[simp] theorem setFltRec_parBad (s : State) (p : Page) (c : Nat) (r : FltRec) : (setFltRec s p c r).mgt.parBad = s.mgt.parBad := rfl

theorem setLog_parBad (s : State) (x : Tab LogEntry) : ({ s with mgt := { s.mgt with log := x } } : State).mgt.parBad = s.mgt.parBad := rfl

theorem logged_parBad {s t : State} (c : Bool) (n : Nat) (h : t.mgt.parBad = s.mgt.parBad) :
    (wr (whenS c (fun t => incSat t .mgtDev F.MGT_EVLOG_OVWR) t) .mgtDev F.MGT_EVLOG_WCNT n).mgt.parBad = s.mgt.parBad := by
  cases c <;> simp [h]

@[simp] theorem evlog_parBad (s : State) (k t i c d : Nat) : (evlog s k t i c d).mgt.parBad = s.mgt.parBad := by
  unfold evlog
  refine logged_parBad _ _ ?_
  exact setLog_parBad _ _

@[simp] theorem becomeSevere_parBad (s : State) (p : Page) (c : Nat) : (becomeSevere s p c).mgt.parBad = s.mgt.parBad := by
  unfold becomeSevere
  dsimp only
  rw [whenS_parBad _ _ _ (by simp)]
  simp

@[simp] theorem fltEvent_parBad (s : State) (p : Page) (c : Nat) : (fltEvent s p c).mgt.parBad = s.mgt.parBad := by
  unfold fltEvent
  dsimp only
  repeat' split
  all_goals simp

@[simp] theorem setLive_parBad (s : State) (p : Page) (c : Nat) (b : Bool) : (setLive s p c b).mgt.parBad = s.mgt.parBad := by
  unfold setLive
  dsimp only
  repeat' split
  all_goals simp

@[simp] theorem setLiveInt_parBad (s : State) (p : Page) (c i : Nat) (b : Bool) : (setLiveInt s p c i b).mgt.parBad = s.mgt.parBad := by
  unfold setLiveInt
  dsimp only
  split <;> simp

@[simp] theorem writeLocked_parBad (s : State) (p : Page) : (writeLocked s p).mgt.parBad = s.mgt.parBad := by simp [writeLocked]

@[simp] theorem cplErr_parBad (s : State) (p : Page) : (cplErr s p).mgt.parBad = s.mgt.parBad := by simp [cplErr]

end Sys2Proof.Machine
end

