-- ==== Sys2Proof/Laws/Raise.lean ====
section
/-! SUPPORT. Events: what raising an interrupt, counting a fault cause and writing the event log leave alone; and what an access that is granted does. -/

set_option exponentiation.threshold 2000

set_option Elab.async false

namespace Sys2Proof.Machine

open Sys2Proof

theorem rd_congr {s t : State} (h : t.regs = s.regs) (q : Page) (f : Fld) : rd t q f = rd s q f := by
  unfold rd; rw [h]

theorem rd_ite {s t : State} {c : Prop} [Decidable c] {q : Page} {f : Fld} {v : Nat} (h1 : rd s q f = v) (h2 : rd t q f = v) :
    rd (if c then s else t) q f = v := by
  split <;> assumption

/-- A field whose row is not in the mask keeps its value. -/
theorem Keeps.rd {T : Nat} {s t : State} (k : Keeps T s t) (q : Page) (f : Fld) (h : T.testBit (16 + f.num % 1024) = false) : rd t q f = rd s q f := by
  have e : fldKey q f % 1024 = f.num % 1024 := by simp [fldKey]
  unfold Machine.rd tabGet
  rw [k.flds _ (by rw [e]; exact h)]

/-- The row's number is none of those an event writes: `INT_RAW`, `FLT_CAUSE`, `FLT_LIVE`, `FLT_SEVERE`, `FLT_CNT`, the counters of the event log, the record of the last
severe cause, the pending array of MSI-X. -/
def quiet (f : Fld) : Bool :=
  !([F.INT_RAW, F.FLT_CAUSE, F.FLT_LIVE, F.FLT_SEVERE, F.FLT_CNT, F.MGT_EVLOG_WCNT, F.MGT_EVLOG_OVWR, F.MGT_P_LAST_TYPE, F.MGT_P_LAST_INST, F.MGT_P_LAST_CAUSE,
    F.MSIX_PBA 0].any fun g => g.num == f.num % 1024)

/-- The mask of what an event may write. -/
def eventMask : Nat :=
  [F.INT_RAW, F.FLT_CAUSE, F.FLT_LIVE, F.FLT_SEVERE, F.FLT_CNT, F.MGT_EVLOG_WCNT, F.MGT_EVLOG_OVWR, F.MGT_P_LAST_TYPE, F.MGT_P_LAST_INST, F.MGT_P_LAST_CAUSE,
    F.MSIX_PBA 0].foldl (fun m g => m ||| 1 <<< (16 + g.num)) 16389

theorem testBit_foldl (l : List Fld) (m k : Nat) (h : m.testBit (16 + k) = false) (hl : (l.any fun g => g.num == k) = false) :
    (l.foldl (fun m g => m ||| 1 <<< (16 + g.num)) m).testBit (16 + k) = false := by
  induction l generalizing m with
  | nil => exact h
  | cons g l ih =>
    simp only [List.any_cons, Bool.or_eq_false_iff, beq_eq_false_iff_ne] at hl
    refine ih _ ?_ hl.2
    rw [Nat.testBit_or, h, Nat.testBit_shiftLeft, Bool.false_or, Bool.and_eq_false_iff]
    by_cases hlt : 16 + g.num ≤ 16 + k
    · right
      rw [← Bool.not_eq_true, Nat.testBit_one_eq_true_iff_self_eq_zero]
      omega
    · left; simpa using hlt

theorem eventMask_quiet {f : Fld} (h : quiet f = true) : eventMask.testBit (16 + f.num % 1024) = false := by
  refine testBit_foldl _ _ _ ?_ (by simpa only [quiet, Bool.not_eq_true'] using h)
  have : 16389 < 2 ^ (16 + f.num % 1024) := Nat.lt_of_lt_of_le (by decide : 16389 < 2 ^ 16) (Nat.pow_le_pow_right (by decide) (by omega))
  exact Nat.testBit_lt_two_pow this

@[simp] theorem rd_raiseInt {s : State} {p q : Page} {f : Fld} {b : Nat} (h : quiet f = true) : rd (raiseInt s p b) q f = rd s q f :=
  (raiseInt_keeps (U := eventMask) (Keeps.refl _ s)).rd q f (eventMask_quiet h)

@[simp] theorem rd_evlog {s : State} {k t i c d : Nat} {q : Page} {f : Fld} (h : quiet f = true) : rd (evlog s k t i c d) q f = rd s q f :=
  (evlog_keeps (U := eventMask) (Keeps.refl _ s)).rd q f (eventMask_quiet h)

@[simp] theorem rd_fltEvent {s : State} {p q : Page} {f : Fld} {c : Nat} (h : quiet f = true) : rd (fltEvent s p c) q f = rd s q f :=
  (fltEvent_keeps (U := eventMask) (Keeps.refl _ s)).rd q f (eventMask_quiet h)

@[simp] theorem rd_setLive {s : State} {p q : Page} {f : Fld} {c : Nat} {b : Bool} (h : quiet f = true) : rd (setLive s p c b) q f = rd s q f :=
  (setLive_keeps (U := eventMask) (Keeps.refl _ s)).rd q f (eventMask_quiet h)

@[simp] theorem rd_setLiveInt {s : State} {p q : Page} {f : Fld} {c i : Nat} {b : Bool} (h : quiet f = true) : rd (setLiveInt s p c i b) q f = rd s q f :=
  (setLiveInt_keeps (U := eventMask) (Keeps.refl _ s)).rd q f (eventMask_quiet h)

/-! ### What an event sets -/

theorem testBit_or_shift (v c w : Nat) (h : c < w) : ((v ||| 1 <<< c) % 2 ^ w).testBit c = true := by
  simp [Nat.testBit_mod_two_pow, h]

/-- Bits set in a field are set. -/
theorem orBits_bit (s : State) (p : Page) (f : Fld) (c : Nat) (h : c < f.width) : (rd (orBits s p f (1 <<< c)) p f).testBit c = true := by
  unfold orBits; rw [rd_wr_self]; exact testBit_or_shift _ _ _ h

/-- An interrupt that is raised is set in `INT_RAW` (R417, R427). -/
theorem raised_raiseInt (s : State) (p : Page) (b : Nat) (h : b < 32) : (rd (raiseInt s p b) p F.INT_RAW).testBit b = true := by
  have k := orBits_bit s p F.INT_RAW b h
  have hv : ∀ n src, (rd (raiseVector (orBits s p F.INT_RAW (1 <<< b)) n src) p F.INT_RAW).testBit b = true := fun n src => by
    rw [(raiseVector_keeps (Keeps.refl _ (orBits s p F.INT_RAW (1 <<< b))) (Nat.or_self _)).rd p F.INT_RAW (by decide)]
    exact k
  unfold raiseInt
  dsimp only
  split
  · exact k
  · split
    · exact hv _ _
    · exact k

/-- A bit of `INT_RAW` that stands stays when another interrupt is raised. -/
theorem raised_stays {s : State} {p q : Page} {b c : Nat} (h : (rd s q F.INT_RAW).testBit c = true) : (rd (raiseInt s p b) q F.INT_RAW).testBit c = true := by
  have k : (rd (orBits s p F.INT_RAW (1 <<< b)) q F.INT_RAW).testBit c = true := by
    unfold orBits
    by_cases e : fldKey q F.INT_RAW = fldKey p F.INT_RAW
    · have e2 : rd (wr s p F.INT_RAW (rd s p F.INT_RAW ||| 1 <<< b)) q F.INT_RAW = rd (wr s p F.INT_RAW (rd s p F.INT_RAW ||| 1 <<< b)) p F.INT_RAW := by
        unfold rd; rw [e]
      have e3 : rd s q F.INT_RAW = rd s p F.INT_RAW := by unfold rd; rw [e]
      rw [e3] at h
      have hc : c < 32 := by
        refine Decidable.byContradiction fun hc => ?_
        have : rd s p F.INT_RAW < 2 ^ c := Nat.lt_of_lt_of_le (Nat.mod_lt _ (by decide)) (Nat.pow_le_pow_right (by decide) (by omega : 32 ≤ c))
        rw [Nat.testBit_lt_two_pow this] at h; exact absurd h (by decide)
      rw [e2, rd_wr_self, show F.INT_RAW.width = 32 from rfl, Nat.testBit_mod_two_pow, Nat.testBit_or, h]
      simp [hc]
    · rw [rd_wr_other e]; exact h
  have hv : ∀ n src, (rd (raiseVector (orBits s p F.INT_RAW (1 <<< b)) n src) q F.INT_RAW).testBit c = true := fun n src => by
    rw [(raiseVector_keeps (Keeps.refl _ (orBits s p F.INT_RAW (1 <<< b))) (Nat.or_self _)).rd q F.INT_RAW (by decide)]
    exact k
  unfold raiseInt
  dsimp only
  split
  · exact k
  · split
    · exact hv _ _
    · exact k

theorem rd_becomeSevere {s : State} {p q : Page} {f : Fld} {c : Nat} (h : f.num % 1024 ≠ F.INT_RAW.num)
    (h' : quiet f = true ∨ f = F.FLT_CAUSE ∨ f = F.FLT_LIVE ∨ f = F.FLT_CNT) : rd (becomeSevere s p c) q f = rd s q f := by
  refine (becomeSevere_keeps (Keeps.refl _ s) (Nat.or_self _)).rd q f ?_
  rcases h' with h' | rfl | rfl | rfl
  · exact testBit_sub (U := eventMask) (by decide) (eventMask_quiet h')
  all_goals decide

/-- What one event of a cause does to `FLT_CAUSE`, `FLT_LIVE` and `FLT_CNT` is done when the bit has been set and the event counted. -/
theorem rd_fltEvent_after {s : State} {p q : Page} {f : Fld} {c : Nat} (h : f = F.FLT_CAUSE ∨ f = F.FLT_LIVE ∨ f = F.FLT_CNT) :
    rd (fltEvent s p c) q f = rd (incSat (orBits s p F.FLT_CAUSE (1 <<< c)) p F.FLT_CNT) q f := by
  have hn : f.num % 1024 ≠ F.INT_RAW.num := by rcases h with rfl | rfl | rfl <;> decide
  have kl : ∀ (x : State) k t i c d, rd (evlog x k t i c d) q f = rd x q f := fun x k t i c d => by
    refine (evlog_keeps (Keeps.refl _ x) (Nat.or_self _)).rd q f ?_
    rcases h with rfl | rfl | rfl <;> decide
  have k' : ∀ b (g : State → State), (∀ x, rd (g x) q f = rd x q f) → ∀ x, rd (whenS b g x) q f = rd x q f := fun b g hg x => by
    unfold whenS; split
    · exact hg x
    · rfl
  unfold fltEvent
  dsimp only
  split
  · rw [k' _ _ (fun x => kl _ _ _ _ _ _)]
  · refine rd_ite ?_ ?_
    · rw [rd_becomeSevere hn (Or.inr h), rd_setFltRec, k' _ _ (fun x => kl _ _ _ _ _ _)]
    · rw [rd_setFltRec, k' _ _ (fun x => kl _ _ _ _ _ _)]

/-- A write of a field leaves the fields of every other row alone. -/
@[simp] theorem rd_wr_num {s : State} {p q : Page} {f g : Fld} {v : Nat} (h : g.num % 1024 ≠ f.num % 1024) : rd (wr s p f v) q g = rd s q g := by
  refine rd_wr_other fun e => h ?_
  have e1 : fldKey q g % 1024 = g.num % 1024 := by simp [fldKey]
  have e2 : fldKey p f % 1024 = f.num % 1024 := by simp [fldKey]
  rw [← e1, ← e2, e]

/-- An event of a cause leaves its bit set in `FLT_CAUSE` (R442). -/
theorem cause_fltEvent (s : State) (p : Page) (c : Nat) (h : c < 32) : (rd (fltEvent s p c) p F.FLT_CAUSE).testBit c = true := by
  rw [rd_fltEvent_after (Or.inl rfl)]
  unfold incSat addSat
  rw [rd_wr_num (by decide)]
  exact orBits_bit _ _ _ _ h

/-- A condition cause that holds is set in `FLT_LIVE` (R441). -/
theorem live_setLive (s : State) (p : Page) (c : Nat) (h : c < 32) : (rd (setLive s p c true) p F.FLT_LIVE).testBit c = true := by
  unfold setLive
  dsimp only
  simp only [if_true]
  split
  · assumption
  · rw [rd_fltEvent_after (Or.inr (Or.inl rfl))]
    unfold incSat addSat
    rw [rd_wr_num (by decide)]
    refine (congrArg (fun v => Nat.testBit v c) (rd_wr_num (by decide))).trans ?_
    exact orBits_bit _ _ _ _ h

/-- A condition that holds is live, whether or not it raises its interrupt anew. -/
theorem live_setLiveInt (s : State) (p : Page) (c i : Nat) (h : c < 32) : (rd (setLiveInt s p c i true) p F.FLT_LIVE).testBit c = true := by
  unfold setLiveInt
  dsimp only
  split
  · rw [(raiseInt_keeps (Keeps.refl _ (setLive s p c true)) (Nat.or_self _)).rd p F.FLT_LIVE (by decide)]
    exact live_setLive s p c h
  · exact live_setLive s p c h

/-- A write that is granted does what its register does, and nothing else. -/
theorem accessIf_granted {s : State} {m : Nat} {p : Page} {off : Nat} {may : Bool} {f : State → State} (h : Granted s m p off may)
    (hp : (f s).mgt.parBad = []) : accessIf s m p off may f = f s := by
  obtain ⟨h1, h2, h3, h4, h5, h6, h7⟩ := h
  have e : voidShadow m p s = s := by simp [voidShadow, h5]
  have e' : parityWritten p off (f s) = f s := by simp [parityWritten, hp, tabGet, tabFind]
  have h2' : (!pageOn s p && !servedOff off) = false := by rcases h2 with h | h <;> simp [h]
  simp [accessIf, accessFor, h1, h2', h3, h4, h7, takenWrite, e, e']

end Sys2Proof.Machine
end

