-- ==== Sys2Proof/Laws/Bases.lean ====
section
/-! SUPPORT. Time bases and pulses: a value read after it is stored, and what leaves it alone. -/

set_option exponentiation.threshold 2000

set_option Elab.async false

namespace Sys2Proof.Machine

open Sys2Proof

/-- A condition decides between two states; so does it between their fields. -/
theorem rd_cond {c : Prop} [Decidable c] (s t : State) (p : Page) (f : Fld) : rd (if c then s else t) p f = if c then rd s p f else rd t p f := by
  split <;> rfl

/-- The value of a time base is its four register fields and its fraction. -/
theorem tbNow_congr {s t : State} {b : Nat} (h1 : rd t (basePage b) F.TIM_DTB_SEC_HI = rd s (basePage b) F.TIM_DTB_SEC_HI)
    (h2 : rd t (basePage b) F.TIM_DTB_SEC_LO = rd s (basePage b) F.TIM_DTB_SEC_LO) (h3 : rd t (basePage b) F.TIM_DTB_NS = rd s (basePage b) F.TIM_DTB_NS)
    (h4 : rd t (basePage b) F.TIM_DTB_SUBNS = rd s (basePage b) F.TIM_DTB_SUBNS) (h5 : t.tim.fracLo = s.tim.fracLo) : tbNow t b = tbNow s b := by
  simp only [tbNow, h1, h2, h3, h4, h5]

/-- The value stored in a time base is what it holds (R44). -/
theorem tbNow_tbSet (s : State) (b t : Nat) (h : t < timeEnd) : tbNow (tbSet s b t) b = t := by
  have e : ∀ f, rd (tbSet s b t) (basePage b) f = rd (wrs s (basePage b) [(F.TIM_DTB_SEC_HI, t / secUnits / 2 ^ 32), (F.TIM_DTB_SEC_LO, t / secUnits % 2 ^ 32),
      (F.TIM_DTB_NS, t % secUnits / 2 ^ 32), (F.TIM_DTB_SUBNS, t % 2 ^ 32 / 2 ^ 16)]) (basePage b) f := fun f => rfl
  have h1 : rd (tbSet s b t) (basePage b) F.TIM_DTB_SUBNS = t % 2 ^ 32 / 2 ^ 16 := by
    rw [e]; simp only [wrs_cons, wrs_nil, rd_wr_self]
    exact Nat.mod_eq_of_lt (by simp only [F.TIM_DTB_SUBNS]; omega)
  have h2 : rd (tbSet s b t) (basePage b) F.TIM_DTB_NS = t % secUnits / 2 ^ 32 := by
    rw [e]; simp only [wrs_cons, wrs_nil]
    rw [rd_wr_num (by decide), rd_wr_self]
    exact Nat.mod_eq_of_lt (by simp only [F.TIM_DTB_NS, secUnits]; omega)
  have h3 : rd (tbSet s b t) (basePage b) F.TIM_DTB_SEC_LO = t / secUnits % 2 ^ 32 := by
    rw [e]; simp only [wrs_cons, wrs_nil]
    rw [rd_wr_num (by decide), rd_wr_num (by decide), rd_wr_self]
    exact Nat.mod_eq_of_lt (by simp only [F.TIM_DTB_SEC_LO]; omega)
  have h4 : rd (tbSet s b t) (basePage b) F.TIM_DTB_SEC_HI = t / secUnits / 2 ^ 32 := by
    rw [e]; simp only [wrs_cons, wrs_nil]
    rw [rd_wr_num (by decide), rd_wr_num (by decide), rd_wr_num (by decide), rd_wr_self]
    exact Nat.mod_eq_of_lt (by simp only [F.TIM_DTB_SEC_HI, secUnits, timeEnd] at h ⊢; omega)
  have h5 : tabGet 0 (tbSet s b t).tim.fracLo b = t % 2 ^ 16 := tabGet_tabPut_self 0 s.tim.fracLo b _
  simp only [tbNow, h1, h2, h3, h4, h5, secUnits]
  omega

@[simp] theorem tbInc_tbSet (s : State) (b c t : Nat) : tbInc (tbSet s b t) c = tbInc s c := by
  simp [tbInc, tbSet]

@[simp] theorem tbInc_setTbInc (s : State) (b v : Nat) : tbInc (setTbInc s b v) b = v := tabGet_tabPut_self _ s.tim.inc b v

theorem tbInc_congr {s t : State} (h : t.tim.inc = s.tim.inc) (b : Nat) : tbInc t b = tbInc s b := by simp only [tbInc, h]

@[simp] theorem pulseOf_setPulse (s : State) (p : Nat) (x : Option Pulse) : pulseOf (setPulse s p x) p = x := tabGet_tabPut_self none s.tim.pulses p x

@[simp] theorem rd_setPulse (s : State) (p : Nat) (x : Option Pulse) (q : Page) (f : Fld) : rd (setPulse s p x) q f = rd s q f := rfl

end Sys2Proof.Machine
end

