-- ==== Sys2Proof/Laws/Edge.lean ====
section
/-! SUPPORT. What the operations and commands of Machine/Edge.lean keep, and the components of the state they may write (Laws/Keeps.lean). -/

set_option exponentiation.threshold 2000

set_option Elab.async false

namespace Sys2Proof.Machine

open Sys2Proof

theorem followTake_keeps {U : Nat} {s₀ : State} {p t : Nat} {s : State} (hk : Keeps U s₀ s) (hT : 64 ||| U = U := by decide) : Keeps U s₀ (followTake p t s) := by
  refine Keeps.step ?_ hT hk
  clear hk hT; unfold followTake
  repeat' with_reducible first
    | exact Keeps.refl _ _ | assumption | refine Keeps.ite ?_ ?_ | refine setBank_keeps ?_ | dsimp only | intro _ | split

theorem ringPop_keeps {U : Nat} {s₀ : State} {b e : Nat} {rest : List Nat} {s : State} (hk : Keeps U s₀ s) (hT : 64 ||| U = U := by decide) : Keeps U s₀ (ringPop b e rest s) := by
  refine Keeps.step ?_ hT hk
  clear hk hT; unfold ringPop
  repeat' with_reducible first
    | exact Keeps.refl _ _ | assumption | refine Keeps.ite ?_ ?_ | refine setSring_keeps ?_ | dsimp only | intro _ | split

theorem ringStat_keeps {U : Nat} {s₀ : State} {b : Nat} {s : State} (hk : Keeps U s₀ s) (hT : 0x300000000000000000000000000000000000000000000000000000000000000000000000000000000000001 ||| U = U := by decide) : Keeps U s₀ (ringStat b s) := by
  refine Keeps.step ?_ hT hk
  clear hk hT; unfold ringStat
  repeat' with_reducible first
    | exact Keeps.refl _ _ | assumption | refine wrs_keeps ?_

theorem streamPush_keeps {U : Nat} {s₀ : State} {b entry : Nat} {s : State} (hk : Keeps U s₀ s) (hT : 0x300000000000000000000000000000000000000000000000000000000000000000000000000000000000041 ||| U = U := by decide) : Keeps U s₀ (streamPush b entry s) := by
  refine Keeps.step ?_ hT hk
  clear hk hT; unfold streamPush
  repeat' with_reducible first
    | exact Keeps.refl _ _ | assumption | refine Keeps.ite ?_ ?_ | refine ringStat_keeps ?_ | refine setSring_keeps ?_ | dsimp only | split

theorem eraPush_keeps {U : Nat} {s₀ : State} {b i : Nat} {s : State} (hk : Keeps U s₀ s) (hT : 0x300000000000000000000000000000000000000000000000000000000000000000000000000000000000041 ||| U = U := by decide) : Keeps U s₀ (eraPush b i s) := by
  refine Keeps.step ?_ hT hk
  clear hk hT; unfold eraPush
  repeat' with_reducible first
    | exact Keeps.refl _ _ | assumption | refine Keeps.ite ?_ ?_ | refine streamPush_keeps ?_ | dsimp only | intro _
    | (constructor <;> first | exact fun _ => rfl | exact fun _ _ => rfl | exact rfl | exact List.prefix_refl _ | exact Nat.le_refl _ | exact fun w => w | exact fun _ _ w => w | exact fun h => absurd h (by decide) | exact fun _ => ⟨fun _ _ => ⟨fun w => w, fun w => w⟩⟩)
    | refine Keeps.setPin ?_ | split

theorem eraUpTo_keeps {U : Nat} {s₀ : State} {b i t : Nat} {s : State} (hk : Keeps U s₀ s) (hT : 0x300000000000000000000000000000000000000000000000000000000000000000000000000000000000041 ||| U = U := by decide) : Keeps U s₀ (eraUpTo b i t s) := by
  refine Keeps.step ?_ hT hk
  clear hk hT; unfold eraUpTo
  repeat' with_reducible first
    | exact Keeps.refl _ _ | assumption | refine Keeps.ite ?_ ?_ | refine eraPush_keeps ?_ | refine forS_keeps ?_ ?_ | dsimp only | intro _ | split

theorem ringPut_keeps {U : Nat} {s₀ : State} {b entry : Nat} {s : State} (hk : Keeps U s₀ s) (hT : 0x38300000688002000000000000077f01003fc000000000000000000000000000000000000000040000000000000000000000000000000000000000000000000000000000000000000000000000000004207 ||| U = U := by decide) : Keeps U s₀ (ringPut b entry s) := by
  refine Keeps.step ?_ hT hk
  clear hk hT; unfold ringPut
  repeat' with_reducible first
    | exact Keeps.refl _ _ | assumption | refine Keeps.ite ?_ ?_ | refine writeMem_keeps ?_ | refine raiseInt_keeps ?_ | refine wr_keeps ?_
    | dsimp only | split

theorem ringWrite_keeps {U : Nat} {s₀ : State} {b : Nat} {s : State} (hk : Keeps U s₀ s) (hT : 0x38300000688002000000000000077f01003fc000000000000000000000000000000000000002340000000000000000000000000000000000000000000000000000000000000000000000000000000004247 ||| U = U := by decide) : Keeps U s₀ (ringWrite b s) := by
  refine Keeps.step ?_ hT hk
  clear hk hT; unfold ringWrite
  repeat' with_reducible first
    | exact Keeps.refl _ _ | assumption | refine ringPop_keeps ?_ | refine Keeps.ite ?_ ?_ | refine ringPut_keeps ?_ | refine ringStat_keeps ?_
    | refine setSring_keeps ?_ | refine incSat_keeps ?_ | dsimp only | intro _ | split

theorem stampCtrlEffect_keeps {U : Nat} {s₀ : State} {b word : Nat} {s : State} (hk : Keeps U s₀ s) (hT : 0x38300000688002000000000000000000000000000000000000000000000000000000000000003ce000000000000000000000000000000000000000000000000000000000000000000000000000000004045 ||| U = U := by decide) : Keeps U s₀ (stampCtrlEffect b word s) := by
  refine Keeps.step ?_ hT hk
  clear hk hT; unfold stampCtrlEffect
  repeat' with_reducible first
    | exact Keeps.refl _ _ | assumption | refine raiseInt_keeps ?_ | refine Keeps.ite ?_ ?_ | refine ringStat_keeps ?_ | refine setSring_keeps ?_
    | refine fltEvent_keeps ?_ | refine wrs_keeps ?_ | dsimp only | intro _ | split

theorem stampRcntEffect_keeps {U : Nat} {s₀ : State} {b v : Nat} {s : State} (hk : Keeps U s₀ s) (hT : 0x3830000068800200000000000000000000000000000000000000000000000000000000000000380000000000000000000000000000000000000000000000000000000000000000000000000000000004005 ||| U = U := by decide) : Keeps U s₀ (stampRcntEffect b v s) := by
  refine Keeps.step ?_ hT hk
  clear hk hT; unfold stampRcntEffect
  repeat' with_reducible first
    | exact Keeps.refl _ _ | assumption | refine Keeps.ite ?_ ?_ | refine ringStat_keeps ?_ | refine fltEvent_keeps ?_ | refine wr_keeps ?_
    | dsimp only | split

theorem convSkip_keeps {U : Nat} {s₀ : State} {p : Nat} {f : Fld} {s : State} (hk : Keeps U s₀ s) (hT : fldMask f ||| U = U := by first | decide | (split <;> first | decide | with_unfolding_all (refine fldMask_of (by conv => lhs; whnf) ?_; decide)) | with_unfolding_all (refine fldMask_of (by conv => lhs; whnf) ?_; decide)) (hT2 : 64 ||| U = U := by decide) : Keeps U s₀ (convSkip p f s) := by
  unfold convSkip
  exact Keeps.ite (setConv_keeps (incSat_keeps hk hT) hT2) hk

theorem fcEdge_keeps {U : Nat} {s₀ : State} {p t : Nat} {s : State} (hk : Keeps U s₀ s) (hT : 64 ||| U = U := by decide) : Keeps U s₀ (fcEdge p t s) := by
  refine Keeps.step ?_ hT hk
  clear hk hT; unfold fcEdge
  repeat' with_reducible first
    | exact Keeps.refl _ _ | assumption | refine Keeps.ite ?_ ?_ | refine setConv_keeps ?_ | dsimp only | intro _ | split

theorem stampLost_keeps {U : Nat} {s₀ : State} {p : Nat} {s : State} (hk : Keeps U s₀ s) (hT : 0x3830000068800200000000000000000000000000000000000000000000001000000000000000000000000000000000000000000000000000000000000000000000000000000000000000000000000004045 ||| U = U := by decide) : Keeps U s₀ (stampLost p s) := by
  refine Keeps.step ?_ hT hk
  clear hk hT; unfold stampLost
  repeat' with_reducible first
    | exact Keeps.refl _ _ | assumption | refine Keeps.ite ?_ ?_ | refine setConv_keeps ?_ | refine fltEvent_keeps ?_ | refine raiseInt_keeps ?_
    | refine incSat_keeps ?_ | dsimp only | split

theorem deliverStamp_keeps {U : Nat} {s₀ : State} {p i t : Nat} {rising idle : Bool} {s : State} (hk : Keeps U s₀ s) (hT : 0x38300000688002000000000000000000000000000000000030000200004011000000000000003000000000000000000000000000000000000000000000000000000000000000000000000000000000040c5 ||| U = U := by decide) : Keeps U s₀ (deliverStamp p i t rising idle s) := by
  refine Keeps.step ?_ hT hk
  clear hk hT; unfold deliverStamp
  repeat' with_reducible first
    | exact Keeps.refl _ _ | assumption | refine eraUpTo_keeps ?_ | refine Keeps.ite ?_ ?_ | refine stampLost_keeps ?_ | refine streamPush_keeps ?_
    | refine tapArrive_keeps ?_ | refine setConv_keeps ?_ | refine addWrap_keeps ?_ | dsimp only | intro _ | split

theorem useEdge_keeps {U : Nat} {s₀ : State} {p t : Nat} {rising : Bool} {s : State} (hk : Keeps U s₀ s) (hT : 0x38300000688002000000000000000000000000000000000030000200004013000000000000003000000000000000000000000000000000000000000000000000000000000000000000000000000000040c5 ||| U = U := by decide) : Keeps U s₀ (useEdge p t rising s) := by
  refine Keeps.step ?_ hT hk
  clear hk hT; unfold useEdge
  repeat' with_reducible first
    | exact Keeps.refl _ _ | assumption | refine Keeps.ite ?_ ?_ | refine maskEdge_keeps ?_ | refine deliverStamp_keeps ?_ | refine fcEdge_keeps ?_
    | refine addWrap_keeps ?_ | dsimp only | intro _ | split

theorem jitterDone_keeps {U : Nat} {s₀ : State} {p : Nat} {s : State} (hk : Keeps U s₀ s) (hT : 0x2000000000000000000000000000000000000000000000000000000000000000000000000000000000000000000000000000000000000000000000000000000000000000000000000000000000000000000000000000000000000000008001 ||| U = U := by decide) : Keeps U s₀ (jitterDone p s) := by
  refine Keeps.step ?_ hT hk
  clear hk hT; unfold jitterDone
  repeat' with_reducible first
    | exact Keeps.refl _ _ | assumption | refine freeStep_keeps ?_ | refine incSat_keeps ?_ | split

theorem acceptEdge_keeps {U : Nat} {s₀ : State} {p t0 : Nat} {rising : Bool} {s : State} (hk : Keeps U s₀ s) (hT : 0x200000000000000000000000000383000006880020000000000000000000000000000000000300002000040130000000000000030000000000000000000000000000000000000000000000000000000000000000000000000000000000c0c5 ||| U = U := by decide) : Keeps U s₀ (acceptEdge p t0 rising s) := by
  refine Keeps.step ?_ hT hk
  clear hk hT; unfold acceptEdge
  repeat' with_reducible first
    | exact Keeps.refl _ _ | assumption | refine followTake_keeps ?_ | refine useEdge_keeps ?_ | refine Keeps.ite ?_ ?_ | refine jitterDone_keeps ?_
    | refine deliverStamp_keeps ?_ | refine fcEdge_keeps ?_ | refine setConv_keeps ?_ | refine addWrap_keeps ?_ | dsimp only | intro _ | split

theorem converterEdge_keeps {U : Nat} {s₀ : State} {p t : Nat} {cml rising merge held : Bool} {s : State} (hk : Keeps U s₀ s) (hT : 0x2000000000000000000000000003830000068800200000000000000000000000000000000003000020000401f0000000000000030000000000000000000000000000000000000000000000000000000000000000000000000000000000c0c5 ||| U = U := by decide) : Keeps U s₀ (converterEdge p t cml rising merge held s) := by
  refine Keeps.step ?_ hT hk
  clear hk hT; unfold converterEdge
  repeat' with_reducible first
    | exact Keeps.refl _ _ | assumption
    | refine tapArrive_keeps ?_ | refine Keeps.ite ?_ ?_ | refine acceptEdge_keeps ?_ | refine convSkip_keeps ?_ | refine setConv_keeps ?_
    | dsimp only | intro _ | split

theorem fcStart_keeps {U : Nat} {s₀ : State} {p : Nat} {s : State} (hk : Keeps U s₀ s) (hT : 64 ||| U = U := by decide) : Keeps U s₀ (fcStart p s) := by
  refine Keeps.step ?_ hT hk
  clear hk hT; unfold fcStart
  repeat' with_reducible first
    | exact Keeps.refl _ _ | assumption | refine setConv_keeps ?_ | dsimp only

theorem pinCfgEffect_keeps {U : Nat} {s₀ : State} {p word : Nat} {s : State} (hk : Keeps U s₀ s) (hT : 0x3830000068800200000000000000000000000000000000000000000000001f01fc0000000000000000000000000000000000000000000000000000000000000000000000000000000000000000000004045 ||| U = U := by decide) : Keeps U s₀ (pinCfgEffect p word s) := by
  refine Keeps.step ?_ hT hk
  clear hk hT; unfold pinCfgEffect
  repeat' with_reducible first
    | exact Keeps.refl _ _ | assumption | refine Keeps.ite ?_ ?_ | refine fcStart_keeps ?_ | refine setConv_keeps ?_ | refine fltEvent_keeps ?_
    | refine wrs_keeps ?_ | dsimp only | split

theorem fcDone_keeps {U : Nat} {s₀ : State} {p : Nat} {s : State} (hk : Keeps U s₀ s) (hT : 0x8002000000000000000000000000000000000000000000000000f8000000000000000000000000000000000000000000000000000000000000000000000000000000000000000000000004041 ||| U = U := by decide) : Keeps U s₀ (fcDone p s) := by
  refine Keeps.step ?_ hT hk
  clear hk hT; unfold fcDone
  repeat' with_reducible first
    | exact Keeps.refl _ _ | assumption | refine Keeps.ite ?_ ?_ | refine fcStart_keeps ?_ | refine raiseInt_keeps ?_ | refine wrs_keeps ?_
    | dsimp only | intro _ | split

theorem fcNRead_keeps {U : Nat} {s₀ : State} {m p : Nat} {s : State} (hk : Keeps U s₀ s) (hT : 16448 ||| U = U := by decide) : Keeps U s₀ (fcNRead m p s) := by
  refine Keeps.step ?_ hT hk
  clear hk hT; unfold fcNRead
  repeat' with_reducible first
    | exact Keeps.refl _ _ | assumption | refine Keeps.ite ?_ ?_ | refine emit_keeps ?_ | dsimp only | split
    | (constructor <;> first | exact fun _ => rfl | exact fun _ _ => rfl | exact rfl | exact List.prefix_refl _ | exact Nat.le_refl _ | exact fun w => w | exact fun _ _ w => w | exact fun h => absurd h (by decide) | exact fun _ => ⟨fun _ _ => ⟨fun w => w, fun w => w⟩⟩)
    | refine Keeps.setPin ?_

theorem edgLostRead_keeps {U : Nat} {s₀ : State} {m p : Nat} {s : State} (hk : Keeps U s₀ s) (hT : 16448 ||| U = U := by decide) : Keeps U s₀ (edgLostRead m p s) := by
  refine Keeps.step ?_ hT hk
  clear hk hT; unfold edgLostRead
  repeat' with_reducible first
    | exact Keeps.refl _ _ | assumption | refine Keeps.ite ?_ ?_ | refine setConv_keeps ?_ | refine emit_keeps ?_ | dsimp only | split

theorem convSubstitute_keeps {U : Nat} {s₀ : State} {b : Nat} {s : State} (hk : Keeps U s₀ s) (hT : 0x1000000000000000000000000000000000000000000000000000000000000000000000000000000000000041 ||| U = U := by decide) : Keeps U s₀ (convSubstitute b s) := by
  refine Keeps.step ?_ hT hk
  clear hk hT; unfold convSubstitute
  repeat' with_reducible first
    | exact Keeps.refl _ _ | assumption | refine setBank_keeps ?_ | refine Keeps.ite ?_ ?_ | refine wrb_keeps ?_ | dsimp only | intro _ | split

theorem execStampRingWrite_keeps {b : Nat} {s : State} {t' : State} (hx : execStampRingWrite b s = .next t') :
    Keeps 0x38300000688002000000000000077f01003fc000000000000000000000000000000000000002340000000000000000000000000000000000000000000000000000000000000000000000000000000004247 s t' := by
  unfold execStampRingWrite at hx; obtain rfl := Host.Outcome.next.inj hx
  repeat' with_reducible first
    | exact Keeps.refl _ _ | assumption | refine Keeps.ite ?_ ?_ | refine ringWrite_keeps ?_ | split

theorem execStampRingCtrlWrite_keeps {m b word : Nat} {s : State} {t' : State} (hx : execStampRingCtrlWrite m b word s = .next t') :
    Keeps (busMask ||| parMask ||| 0x3830000078a002000000001400000000000000000000000000000000000000000000000000003ce000000000000000000000040000000000000000000000000000000070000080000000000000000004055) s t' := by
  unfold execStampRingCtrlWrite at hx; obtain rfl := Host.Outcome.next.inj hx
  repeat' with_reducible first
    | exact Keeps.refl _ _ | assumption
    | refine takeIn_keeps ?_ ?_ | refine stampCtrlEffect_keeps ?_ | refine asWriter_keeps ?_ ?_ | intro _
    | dsimp only

theorem execStampRingRcntWrite_keeps {m b v : Nat} {s : State} {t' : State} (hx : execStampRingRcntWrite m b v s = .next t') :
    Keeps (busMask ||| parMask ||| 0x3830000078a00200000000140000000000000000000000000000000000000000000000000000380000000000000000000000040000000000000000000000000000000070000080000000000000000004055) s t' := by
  unfold execStampRingRcntWrite at hx; obtain rfl := Host.Outcome.next.inj hx
  repeat' with_reducible first
    | exact Keeps.refl _ _ | assumption
    | refine takeIn_keeps ?_ ?_ | refine stampRcntEffect_keeps ?_ | refine asWriter_keeps ?_ ?_ | intro _
    | dsimp only

theorem execEraMarker_keeps {b site : Nat} {s : State} {t' : State} (hx : execEraMarker b site s = .next t') :
    Keeps 0x300000000000000000000000000000000000000000000000000000000000000000000000000000000000041 s t' := by
  unfold execEraMarker at hx; obtain rfl := Host.Outcome.next.inj hx
  repeat' with_reducible first
    | exact Keeps.refl _ _ | assumption | refine eraPush_keeps ?_ | refine Keeps.ite ?_ ?_ | refine streamPush_keeps ?_ | dsimp only
    | (constructor <;> first | exact fun _ => rfl | exact fun _ _ => rfl | exact rfl | exact List.prefix_refl _ | exact Nat.le_refl _ | exact fun w => w | exact fun _ _ w => w | exact fun h => absurd h (by decide) | exact fun _ => ⟨fun _ _ => ⟨fun w => w, fun w => w⟩⟩)
    | refine Keeps.setPin ?_ | intro _ | split

theorem execConverterEdge_keeps {p t : Nat} {cml rising merge held : Bool} {s : State} {t' : State} (hx : execConverterEdge p t cml rising merge held s = .next t') :
    Keeps 0x2000000000000000000000000003830000068800200000000000000000000000000000000003000020000401f0000000000000030000000000000000000000000000000000000000000000000000000000000000000000000000000000c0c5 s t' := by
  unfold execConverterEdge at hx; obtain rfl := Host.Outcome.next.inj hx
  repeat' with_reducible first
    | exact Keeps.refl _ _ | assumption | refine Keeps.ite ?_ ?_ | refine converterEdge_keeps ?_ | dsimp only | intro _ | split

theorem execStampCreditRefill_keeps {p : Nat} {s : State} {t' : State} (hx : execStampCreditRefill p s = .next t') :
    Keeps 64 s t' := by
  unfold execStampCreditRefill at hx; obtain rfl := Host.Outcome.next.inj hx
  repeat' with_reducible first
    | exact Keeps.refl _ _ | assumption | refine setConv_keeps ?_

theorem execEdgPinCfgWrite_keeps {m p word : Nat} {s : State} {t' : State} (hx : execEdgPinCfgWrite m p word s = .next t') :
    Keeps (busMask ||| parMask ||| 0x3830000078a00200000000140000000000000000000000000000000000001f01fc0000000000000000000000000000000000040000000000000000000000000000000070000080000000000000000004055) s t' := by
  unfold execEdgPinCfgWrite at hx; obtain rfl := Host.Outcome.next.inj hx
  repeat' with_reducible first
    | exact Keeps.refl _ _ | assumption
    | refine takeIn_keeps ?_ ?_ | refine pinCfgEffect_keeps ?_ | refine asWriter_keeps ?_ ?_ | intro _
    | dsimp only

theorem execFcDone_keeps {p : Nat} {s : State} {t' : State} (hx : execFcDone p s = .next t') :
    Keeps 0x8002000000000000000000000000000000000000000000000000f8000000000000000000000000000000000000000000000000000000000000000000000000000000000000000000000004041 s t' := by
  unfold execFcDone at hx; obtain rfl := Host.Outcome.next.inj hx
  repeat' with_reducible first
    | exact Keeps.refl _ _ | assumption | refine fcDone_keeps ?_

theorem execFcNRead_keeps {m p : Nat} {s : State} {t' : State} (hx : execFcNRead m p s = .next t') :
    Keeps (busMask ||| 16448) s t' := by
  unfold execFcNRead at hx; obtain rfl := Host.Outcome.next.inj hx
  repeat' with_reducible first
    | exact Keeps.refl _ _ | assumption
    | refine takeIn_keeps ?_ ?_ | refine fcNRead_keeps ?_
    | dsimp only | intro _

theorem execEdgLostRead_keeps {m p : Nat} {s : State} {t' : State} (hx : execEdgLostRead m p s = .next t') :
    Keeps (busMask ||| 16448) s t' := by
  unfold execEdgLostRead at hx; obtain rfl := Host.Outcome.next.inj hx
  repeat' with_reducible first
    | exact Keeps.refl _ _ | assumption
    | refine takeIn_keeps ?_ ?_ | refine edgLostRead_keeps ?_
    | dsimp only | intro _

theorem execEdgSpareWrite_keeps {m b comp : Nat} {s : State} {t' : State} (hx : execEdgSpareWrite m b comp s = .next t') :
    Keeps (busMask ||| parMask ||| 0x3830040078a00200000000140000000000000000000000000000000000000000000000000000c00000000000000000000000040000000000000000000000000000000070000080000000000000000004055) s t' := by
  unfold execEdgSpareWrite at hx; obtain rfl := Host.Outcome.next.inj hx
  repeat' with_reducible first
    | exact Keeps.refl _ _ | assumption
    | refine takeIn_keeps ?_ ?_ | refine pairComplete_keeps ?_ ?_ | refine wrs_keeps ?_ | intro _
    | dsimp only

end Sys2Proof.Machine
end

