-- ==== Sys2Proof/Laws/Flash.lean ====
section
/-! SUPPORT. What the operations and commands of Machine/Flash.lean keep, and the components of the state they may write (Laws/Keeps.lean). -/

set_option exponentiation.threshold 2000

set_option Elab.async false

namespace Sys2Proof.Machine

open Sys2Proof

theorem storeList_keeps {U : Nat} {s₀ : State} {l : List Nat} {s : State} (hk : Keeps U s₀ s) (hT : 4096 ||| U = U := by decide) : Keeps U s₀ (storeList l s) := by
  refine Keeps.step ?_ hT hk
  clear hk hT; unfold storeList
  repeat' with_reducible first
    | exact Keeps.refl _ _ | assumption | refine Keeps.ite ?_ ?_ | dsimp only | split | intro _
    | (constructor <;> first | exact fun _ => rfl | exact fun _ _ => rfl | exact rfl | exact List.prefix_refl _ | exact Nat.le_refl _ | exact fun w => w | exact fun _ _ w => w | exact fun h => absurd h (by decide) | exact fun _ => ⟨fun _ _ => ⟨fun w => w, fun w => w⟩⟩)
    | refine Keeps.setBoot ?_

theorem storeDir_keeps {U : Nat} {s₀ : State} {d : Directory} {s : State} (hk : Keeps U s₀ s) (hT : 4096 ||| U = U := by decide) : Keeps U s₀ (storeDir d s) := by
  refine Keeps.step ?_ hT hk
  clear hk hT; unfold storeDir
  repeat' with_reducible first
    | exact Keeps.refl _ _ | assumption | refine Keeps.ite ?_ ?_ | dsimp only | split
    | (constructor <;> first | exact fun _ => rfl | exact fun _ _ => rfl | exact rfl | exact List.prefix_refl _ | exact Nat.le_refl _ | exact fun w => w | exact fun _ _ w => w | exact fun h => absurd h (by decide) | exact fun _ => ⟨fun _ _ => ⟨fun w => w, fun w => w⟩⟩)
    | refine Keeps.setBoot ?_ | intro _

theorem flashStart_keeps {U : Nat} {s₀ : State} {s : State} (hk : Keeps U s₀ s) (hT : 0x10000000000000000000000000000000000000000000000000000000000000000000000000000000000000000000000000000000000000000000000000000000000000000000000000000000000000001001 ||| U = U := by decide) : Keeps U s₀ (flashStart s) := by
  refine Keeps.step ?_ hT hk
  clear hk hT; unfold flashStart
  repeat' with_reducible first
    | exact Keeps.refl _ _ | assumption | refine Keeps.ite ?_ ?_ | split
    | (constructor <;> first | exact fun _ => rfl | exact fun _ _ => rfl | exact rfl | exact List.prefix_refl _ | exact Nat.le_refl _ | exact fun w => w | exact fun _ _ w => w | exact fun h => absurd h (by decide) | exact fun _ => ⟨fun _ _ => ⟨fun w => w, fun w => w⟩⟩)
    | refine Keeps.setBoot ?_

theorem flashPush_keeps {U : Nat} {s₀ : State} {op : FlashOp} {s : State} (hk : Keeps U s₀ s) (hT : 0x10000000000000000000000000000000000000000000000000000000000000000000000000000000000000000000000000000000000000000000000000000000000000000000000000000000000000001001 ||| U = U := by decide) : Keeps U s₀ (flashPush op s) := by
  refine Keeps.step ?_ hT hk
  clear hk hT; unfold flashPush
  repeat' with_reducible first
    | exact Keeps.refl _ _ | assumption | refine flashStart_keeps ?_
    | (constructor <;> first | exact fun _ => rfl | exact fun _ _ => rfl | exact rfl | exact List.prefix_refl _ | exact Nat.le_refl _ | exact fun w => w | exact fun _ _ w => w | exact fun h => absurd h (by decide) | exact fun _ => ⟨fun _ _ => ⟨fun w => w, fun w => w⟩⟩)
    | refine Keeps.setBoot ?_

theorem flashEnd_keeps {U : Nat} {s₀ : State} {s : State} (hk : Keeps U s₀ s) (hT : 0x4000000000000010000000000000000000000000000000000000000000000000000000000000000000000000000000000000000000000000000000000000000000000000000000000000000000000000000000000000001001 ||| U = U := by decide) : Keeps U s₀ (flashEnd s) := by
  refine Keeps.step ?_ hT hk
  clear hk hT; unfold flashEnd
  repeat' with_reducible first
    | exact Keeps.refl _ _ | assumption | refine flashStart_keeps ?_ | refine incSat_keeps ?_
    | (constructor <;> first | exact fun _ => rfl | exact fun _ _ => rfl | exact rfl | exact List.prefix_refl _ | exact Nat.le_refl _ | exact fun w => w | exact fun _ _ w => w | exact fun h => absurd h (by decide) | exact fun _ => ⟨fun _ _ => ⟨fun w => w, fun w => w⟩⟩)
    | refine Keeps.setBoot ?_

theorem writeDir_keeps {U : Nat} {s₀ : State} {d : Directory} {s : State} (hk : Keeps U s₀ s) (hT : 0x10000000000000000000000000000000000000000000000000000000000000000000000000000000000000000000000000000000000000000000000000000000000000000000000000000000000000001001 ||| U = U := by decide) : Keeps U s₀ (writeDir d s) := by
  refine Keeps.step ?_ hT hk
  clear hk hT; unfold writeDir
  repeat' with_reducible first
    | exact Keeps.refl _ _ | assumption | refine flashPush_keeps ?_
    | (constructor <;> first | exact fun _ => rfl | exact fun _ _ => rfl | exact rfl | exact List.prefix_refl _ | exact Nat.le_refl _ | exact fun w => w | exact fun _ _ w => w | exact fun h => absurd h (by decide) | exact fun _ => ⟨fun _ _ => ⟨fun w => w, fun w => w⟩⟩)
    | refine Keeps.setBoot ?_

theorem retireAdd_keeps {U : Nat} {s₀ : State} {l : List Nat} {s : State} (hk : Keeps U s₀ s) (hT : 0x10000000000000000000000000000000000000000000000000000000000000000000000000000000000000000000000000000000000000000000000000000000000000000000000000000000000000001001 ||| U = U := by decide) : Keeps U s₀ (retireAdd l s) := by
  refine Keeps.step ?_ hT hk
  clear hk hT; unfold retireAdd
  repeat' with_reducible first
    | exact Keeps.refl _ _ | assumption | refine Keeps.ite ?_ ?_ | refine flashPush_keeps ?_ | dsimp only | intro _ | split

end Sys2Proof.Machine
end

