-- ==== Sys2Proof/Laws/Calibrate.lean ====
section
/-! SUPPORT. What the operations and commands of Machine/Calibrate.lean keep, and the components of the state they may write (Laws/Keeps.lean). -/

set_option exponentiation.threshold 2000

set_option Elab.async false

namespace Sys2Proof.Machine

open Sys2Proof

theorem restoreTimes_keeps {U : Nat} {s₀ : State} {cls b : Nat} {l : List CalRec} {s : State} (hk : Keeps U s₀ s) (hT : 0x4000000000000000000000000000000000000000000000000000000000000000000000000000000000000000000000000000000000000000000000101 ||| U = U := by decide) : Keeps U s₀ (restoreTimes cls b l s) := by
  refine Keeps.step ?_ hT hk
  clear hk hT; unfold restoreTimes
  repeat' with_reducible first
    | exact Keeps.refl _ _ | assumption | refine Keeps.ite ?_ ?_ | refine wr_keeps ?_ | intro _ | split | dsimp only
    | (constructor <;> first | exact fun _ => rfl | exact fun _ _ => rfl | exact rfl | exact List.prefix_refl _ | exact Nat.le_refl _ | exact fun w => w | exact fun _ _ w => w | exact fun h => absurd h (by decide) | exact fun _ => ⟨fun _ _ => ⟨fun w => w, fun w => w⟩⟩)
    | refine Keeps.setCal ?_

theorem calMissing_keeps {U : Nat} {s₀ : State} {s : State} (hk : Keeps U s₀ s) (hT : 0x3830000078800200000000000000000000000000000000000000000000000000000000000000000000000000000000000000000000000000000000000000000000000000000000000000000000000004005 ||| U = U := by decide) : Keeps U s₀ (calMissing s) := by
  refine Keeps.step ?_ hT hk
  clear hk hT; unfold calMissing
  repeat' with_reducible first
    | exact Keeps.refl _ _ | assumption | refine Keeps.ite ?_ ?_ | refine setLiveInt_keeps ?_ | dsimp only | intro _ | split

theorem restoreCounts_keeps {U : Nat} {s₀ : State} {s : State} (hk : Keeps U s₀ s) (hT : 0x680000000000000000000000000000000000000000000000000000000000000000000000000000000000000000000000000000000000000000000001 ||| U = U := by decide) : Keeps U s₀ (restoreCounts s) := by
  refine Keeps.step ?_ hT hk
  clear hk hT; unfold restoreCounts
  repeat' with_reducible first
    | exact Keeps.refl _ _ | assumption | refine Keeps.ite ?_ ?_ | refine forS_keeps ?_ ?_ | refine wrs_keeps ?_ | dsimp only | intro _ | split

theorem calStat_keeps {U : Nat} {s₀ : State} {s : State} (hk : Keeps U s₀ s) (hT : 0x10000000000000000000000000000000000000000000003c00000000000000000000000000000000000000000000000000000000000000000000000000000000000000000000000000000000000000000001 ||| U = U := by decide) : Keeps U s₀ (calStat s) := by
  refine Keeps.step ?_ hT hk
  clear hk hT; unfold calStat
  repeat' with_reducible first
    | exact Keeps.refl _ _ | assumption | refine Keeps.ite ?_ ?_ | refine Keeps.foldl _ ?_ ?_ | refine wrs_keeps ?_ | refine wr_keeps ?_ | dsimp only
    | intro _ | split

theorem setCal_keeps {U : Nat} {s₀ : State} {c : CalState} {s : State} (hk : Keeps U s₀ s) (hT : 0x10000000000000000000000000000000000000000000003c00000000000000000000000000000000000000000000000000000000000000000000000000000000000000000000000000000000000000000101 ||| U = U := by decide) : Keeps U s₀ (setCal c s) := by
  refine Keeps.step ?_ hT hk
  clear hk hT; unfold setCal
  repeat' with_reducible first
    | exact Keeps.refl _ _ | assumption | refine calStat_keeps ?_
    | (constructor <;> first | exact fun _ => rfl | exact fun _ _ => rfl | exact rfl | exact List.prefix_refl _ | exact Nat.le_refl _ | exact fun w => w | exact fun _ _ w => w | exact fun h => absurd h (by decide) | exact fun _ => ⟨fun _ _ => ⟨fun w => w, fun w => w⟩⟩)
    | refine Keeps.setCal ?_

theorem fileRequest_keeps {U : Nat} {s₀ : State} {banks classes : Nat} {s : State} (hk : Keeps U s₀ s) (hT : 0x10000000000000000000000000000000000000000000003c00000000000000000000000000000000000000000000000000000000000000000000000000000000000000000000000000000000000000000101 ||| U = U := by decide) : Keeps U s₀ (fileRequest banks classes s) := by
  refine Keeps.step ?_ hT hk
  clear hk hT; unfold fileRequest
  repeat' with_reducible first
    | exact Keeps.refl _ _ | assumption | refine setCal_keeps ?_

theorem itemDone_keeps {U : Nat} {s₀ : State} {bank cls : Nat} {s : State} (hk : Keeps U s₀ s) (hT : 0x10000000000800200000000000000000000000000000003c00000000000000000000000000000000000000000000000000000000000000000000000000000000000000000000000000000000000000004101 ||| U = U := by decide) : Keeps U s₀ (itemDone bank cls s) := by
  refine Keeps.step ?_ hT hk
  clear hk hT; unfold itemDone
  repeat' with_reducible first
    | exact Keeps.refl _ _ | assumption | refine Keeps.ite ?_ ?_ | refine setCal_keeps ?_ | refine raiseInt_keeps ?_ | dsimp only | intro _ | split

theorem calRequest_keeps {U : Nat} {s₀ : State} {part : Option Nat} {word : Nat} {s : State} (hk : Keeps U s₀ s) (hT : 0xa0000000000000000000000000013830000068800200000000000000000000000000000003c24000000000000000000000000000000000000000000000000000000000000000000000000000000000000000000000000000000000000004105 ||| U = U := by decide) : Keeps U s₀ (calRequest part word s) := by
  refine Keeps.step ?_ hT hk
  clear hk hT; unfold calRequest
  repeat' with_reducible first
    | exact Keeps.refl _ _ | assumption | refine Keeps.ite ?_ ?_ | refine Keeps.foldl _ ?_ ?_ | refine fileRequest_keeps ?_ | refine setCal_keeps ?_
    | refine fltEvent_keeps ?_ | refine wrs_keeps ?_ | dsimp only | intro _ | split

theorem setRun_keeps {U : Nat} {s₀ : State} {b : Nat} {r : Option CalRun} {s : State} (hk : Keeps U s₀ s) (hT : 0x10000000000000000000000000000000000000000000003c00000000000000000000000000000000000000000000000000000000000000000000000000000000000000000000000000000000000000000101 ||| U = U := by decide) : Keeps U s₀ (setRun b r s) := by
  refine Keeps.step ?_ hT hk
  clear hk hT; unfold setRun
  repeat' with_reducible first
    | exact Keeps.refl _ _ | assumption | refine setCal_keeps ?_ | intro _

theorem calLast_keeps {U : Nat} {s₀ : State} {b cls reason slot persist : Nat} {s : State} (hk : Keeps U s₀ s) (hT : 0x7c000000000000000000000000000000000000000000000000000000000000000000000000000000000000000000000000000000000000000000001 ||| U = U := by decide) : Keeps U s₀ (calLast b cls reason slot persist s) := by
  refine Keeps.step ?_ hT hk
  clear hk hT; unfold calLast
  repeat' with_reducible first
    | exact Keeps.refl _ _ | assumption | refine wrs_keeps ?_

theorem releaseCu_keeps {U : Nat} {s₀ : State} {r : CalRun} {s : State} (hk : Keeps U s₀ s) (hT : 0x4000000000000000000000000000000000000000000000000000000000000000000000000000000000000000000000000000000000000001 ||| U = U := by decide) : Keeps U s₀ (releaseCu r s) := by
  refine Keeps.step ?_ hT hk
  clear hk hT; unfold releaseCu
  repeat' with_reducible first
    | exact Keeps.refl _ _ | assumption | refine wrb_keeps ?_

theorem calReject_keeps {U : Nat} {s₀ : State} {r : CalRun} {reason slot : Nat} {s : State} (hk : Keeps U s₀ s) (hT : 0x1000000000080020000000000000000000000000000017fc00004000000000000000000000000000000000000000000000000000000000000000000000000000000000000000000000000000000000006101 ||| U = U := by decide) : Keeps U s₀ (calReject r reason slot s) := by
  refine Keeps.step ?_ hT hk
  clear hk hT; unfold calReject
  repeat' with_reducible first
    | exact Keeps.refl _ _ | assumption | refine Keeps.ite ?_ ?_ | refine wearNote_keeps ?_ | refine releaseCu_keeps ?_ | refine calLast_keeps ?_
    | refine setRun_keeps ?_ | refine itemDone_keeps ?_ | refine raiseInt_keeps ?_ | refine incSat_keeps ?_ | dsimp only | intro _ | split

theorem installSlot_keeps {U : Nat} {s₀ : State} {r : CalRun} {vals : List Int} {slot : Nat} {s : State} (hk : Keeps U s₀ s) (hT : 256 ||| U = U := by decide) : Keeps U s₀ (installSlot r vals slot s) := by
  refine Keeps.step ?_ hT hk
  clear hk hT; unfold installSlot
  repeat' with_reducible first
    | exact Keeps.refl _ _ | assumption | refine Keeps.ite ?_ ?_ | dsimp only | intro _ | split
    | (constructor <;> first | exact fun _ => rfl | exact fun _ _ => rfl | exact rfl | exact List.prefix_refl _ | exact Nat.le_refl _ | exact fun w => w | exact fun _ _ w => w | exact fun h => absurd h (by decide) | exact fun _ => ⟨fun _ _ => ⟨fun w => w, fun w => w⟩⟩)
    | refine Keeps.setCal ?_

theorem calAccept_keeps {U : Nat} {s₀ : State} {r : CalRun} {vals : List (List Int)} {temp : Int} {s : State} (hk : Keeps U s₀ s) (hT : 0x13830000078800200000000000000000000000000007803c00000000000000000000000000000000000000000000000000000000000000000000000000000000000000000000000000000000000000007105 ||| U = U := by decide) : Keeps U s₀ (calAccept r vals temp s) := by
  refine Keeps.step ?_ hT hk
  clear hk hT; unfold calAccept
  repeat' with_reducible first
    | exact Keeps.refl _ _ | assumption | refine wearClear_keeps ?_ | refine calMissing_keeps ?_ | refine Keeps.ite ?_ ?_
    | refine installSlot_keeps ?_ | refine setRun_keeps ?_ | refine flashPush_keeps ?_ | refine raiseInt_keeps ?_ | refine wrs_keeps ?_
    | refine forS_keeps ?_ ?_ | dsimp only | intro _
    | (constructor <;> first | exact fun _ => rfl | exact fun _ _ => rfl | exact rfl | exact List.prefix_refl _ | exact Nat.le_refl _ | exact fun w => w | exact fun _ _ w => w | exact fun h => absurd h (by decide) | exact fun _ => ⟨fun _ _ => ⟨fun w => w, fun w => w⟩⟩)
    | refine Keeps.setCal ?_ | split

theorem putRec_keeps {U : Nat} {s₀ : State} {cls b slot : Nat} {r : CalRec} {s : State} (hk : Keeps U s₀ s) (hT : 256 ||| U = U := by decide) : Keeps U s₀ (putRec cls b slot r s) := by
  refine Keeps.step ?_ hT hk
  clear hk hT; unfold putRec
  repeat' with_reducible first
    | exact Keeps.refl _ _ | assumption | refine Keeps.ite ?_ ?_ | dsimp only
    | (constructor <;> first | exact fun _ => rfl | exact fun _ _ => rfl | exact rfl | exact List.prefix_refl _ | exact Nat.le_refl _ | exact fun w => w | exact fun _ _ w => w | exact fun h => absurd h (by decide) | exact fun _ => ⟨fun _ _ => ⟨fun w => w, fun w => w⟩⟩)
    | refine Keeps.setCal ?_ | intro _ | split

theorem calRestore_keeps {U : Nat} {s₀ : State} {s : State} (hk : Keeps U s₀ s) (hT : 0x3830000078800200000000000000000000000000005e80000000000000000000000000000000000000000000000000000000000000000000000000000000000000000000000000000000000000000004105 ||| U = U := by decide) : Keeps U s₀ (calRestore s) := by
  refine Keeps.step ?_ hT hk
  clear hk hT; unfold calRestore
  repeat' with_reducible first
    | exact Keeps.refl _ _ | assumption | refine restoreTimes_keeps ?_ | refine calMissing_keeps ?_ | refine restoreCounts_keeps ?_
    | refine Keeps.ite ?_ ?_ | refine fltEvent_keeps ?_ | refine raiseInt_keeps ?_ | refine wrs_keeps ?_ | refine forS_keeps ?_ ?_ | dsimp only
    | intro _
    | (constructor <;> first | exact fun _ => rfl | exact fun _ _ => rfl | exact rfl | exact List.prefix_refl _ | exact Nat.le_refl _ | exact fun w => w | exact fun _ _ w => w | exact fun h => absurd h (by decide) | exact fun _ => ⟨fun _ _ => ⟨fun w => w, fun w => w⟩⟩)
    | refine Keeps.setCal ?_ | split

theorem execCalRequest_keeps {m : Nat} {part : Option Nat} {word : Nat} {s : State} {t' : State} (hx : execCalRequest m part word s = .next t') :
    Keeps (busMask ||| parMask ||| 0xa0000000000000000000000000013830000078a00200000000140000000000000000000003c24000000000000000000000000000000000000000000000000000040000000000000000000000000000000070000080000000000000000004155) s t' := by
  unfold execCalRequest at hx; obtain rfl := Host.Outcome.next.inj hx
  repeat' with_reducible first
    | exact Keeps.refl _ _ | assumption
    | refine takeIn_keeps ?_ ?_ | refine calRequest_keeps ?_ | refine asWriter_keeps ?_ ?_ | intro _
    | dsimp only

theorem execCalCancel_keeps {m word : Nat} {s : State} {t' : State} (hx : execCalCancel m word s = .next t') :
    Keeps (busMask ||| parMask ||| 0xa0000000000000000000000000013830000078a00200000000140000000000000000000003c24000000000000000000000000000000000000000000000000000040000000000000000000000000000000070000080000000000000000004155) s t' := by
  unfold execCalCancel at hx; obtain rfl := Host.Outcome.next.inj hx
  repeat' with_reducible first
    | exact Keeps.refl _ _ | assumption
    | refine takeIn_keeps ?_ ?_ | refine calRequest_keeps ?_ | refine asWriter_keeps ?_ ?_ | intro _
    | dsimp only

theorem execCalAutoRequest_keeps {b : Nat} {s : State} {t' : State} (hx : execCalAutoRequest b s = .next t') :
    Keeps 0x10000000000000000000000000000000000000000000003c00000000000000000000000000000000000000000000000000000000000000000000000000000000000000000000000000000000000000000101 s t' := by
  unfold execCalAutoRequest at hx; obtain rfl := Host.Outcome.next.inj hx
  repeat' with_reducible first
    | exact Keeps.refl _ _ | assumption | refine Keeps.ite ?_ ?_ | refine fileRequest_keeps ?_ | dsimp only | intro _ | split

theorem execCalClassStart_keeps {temp : Int} {s : State} {t' : State} (hx : execCalClassStart temp s = .next t') :
    Keeps 0x1000000000080020000000000000000000000000000017fc00004000000000000000000000000000000000000000000000000000000000000000000000000000000000000000000000000000000000006141 s t' := by
  unfold execCalClassStart at hx; obtain rfl := Host.Outcome.next.inj hx
  repeat' with_reducible first
    | exact Keeps.refl _ _ | assumption | refine Keeps.ite ?_ ?_ | refine calReject_keeps ?_ | refine setRun_keeps ?_ | refine setPin_keeps ?_
    | refine wrb_keeps ?_ | refine forS_keeps ?_ ?_ | dsimp only | intro _ | split

theorem factoryRecords_keeps {U : Nat} {s₀ : State} {b : Nat} {meas : CalMeas} {s : State} (hk : Keeps U s₀ s) (hT : 256 ||| U = U := by decide) : Keeps U s₀ (factoryRecords b meas s) := by
  refine Keeps.step ?_ hT hk
  clear hk hT; unfold factoryRecords
  repeat' with_reducible first
    | exact Keeps.refl _ _ | assumption
    | refine forS_keeps ?_ ?_ | refine putRec_keeps ?_ | refine Keeps.ite ?_ ?_ | dsimp only | intro _ | split

theorem execCalRunDone_keeps {b : Nat} {meas : CalMeas} {s : State} {t' : State} (hx : execCalRunDone b meas s = .next t') :
    Keeps 0x1383000007880020000000000000000000000000000797fc00004000000000000000000000000000000000000000000000000000000000000000000000000000000000000000000000000000000000007105 s t' := by
  unfold execCalRunDone at hx; obtain rfl := Host.Outcome.next.inj hx
  repeat' with_reducible first
    | exact Keeps.refl _ _ | assumption
    | refine factoryRecords_keeps ?_ | refine Keeps.ite ?_ ?_ | refine calAccept_keeps ?_ | refine calReject_keeps ?_ | refine setRun_keeps ?_
    | dsimp only | intro _ | split

theorem execCalAbort_keeps {b : Nat} {s : State} {t' : State} (hx : execCalAbort b s = .next t') :
    Keeps 0x1000000000000000000000000000000000000000000807fc00004000000000000000000000000000000000000000000000000000000000000000000000000000000000000000000000000000000000000101 s t' := by
  unfold execCalAbort at hx; obtain rfl := Host.Outcome.next.inj hx
  repeat' with_reducible first
    | exact Keeps.refl _ _ | assumption | refine Keeps.ite ?_ ?_ | refine releaseCu_keeps ?_ | refine calLast_keeps ?_ | refine setRun_keeps ?_
    | refine setCal_keeps ?_ | refine incSat_keeps ?_ | dsimp only | intro _ | split

theorem execCalRecordWrite_keeps {b : Nat} {ok : Bool} {s : State} {t' : State} (hx : execCalRecordWrite b ok s = .next t') :
    Keeps 0x40000000000000138300000688002000000000000000000000000000106ffc00004000000000000000000000000000000000000000000000000000000000000000000000000000000000000000000000000000000000005105 s t' := by
  unfold execCalRecordWrite at hx; obtain rfl := Host.Outcome.next.inj hx
  repeat' with_reducible first
    | exact Keeps.refl _ _ | assumption | refine Keeps.ite ?_ ?_ | refine putRec_keeps ?_ | refine releaseCu_keeps ?_ | refine calLast_keeps ?_
    | refine setRun_keeps ?_ | refine itemDone_keeps ?_ | refine flashEnd_keeps ?_ | refine fltEvent_keeps ?_ | refine raiseInt_keeps ?_
    | refine incSat_keeps ?_ | refine wrs_keeps ?_ | refine forS_keeps ?_ ?_ | dsimp only | intro _ | split

end Sys2Proof.Machine
end

