-- ==== Sys2Proof/Laws/Stack.lean ====
section
/-! SUPPORT. What the operations and commands of Machine/Stack.lean keep, and the components of the state they may write (Laws/Keeps.lean). -/

set_option exponentiation.threshold 2000

set_option Elab.async false

namespace Sys2Proof.Machine

open Sys2Proof

theorem setChan_keeps {U : Nat} {s₀ : State} {c : Nat} {l : List MemReq} {s : State} (hk : Keeps U s₀ s) (hT : 512 ||| U = U := by decide) : Keeps U s₀ (setChan c l s) := by
  refine Keeps.step ?_ hT hk
  clear hk hT; unfold setChan
  repeat' with_reducible first
    | exact Keeps.refl _ _ | assumption
    | (constructor <;> first | exact fun _ => rfl | exact fun _ _ => rfl | exact rfl | exact List.prefix_refl _ | exact Nat.le_refl _ | exact fun w => w | exact fun _ _ w => w | exact fun h => absurd h (by decide) | exact fun _ => ⟨fun _ _ => ⟨fun w => w, fun w => w⟩⟩)
    | refine Keeps.setMemc ⟨rfl, rfl⟩ ?_

theorem hotSpend_keeps {U : Nat} {s₀ : State} {cls now len : Nat} {s : State} (hk : Keeps U s₀ s) (hT : 512 ||| U = U := by decide) : Keeps U s₀ (hotSpend cls now len s) := by
  refine Keeps.step ?_ hT hk
  clear hk hT; unfold hotSpend
  repeat' with_reducible first
    | exact Keeps.refl _ _ | assumption
    | refine Keeps.ite ?_ ?_ | refine Keeps.setMemc ⟨rfl, rfl⟩ ?_ | dsimp only | intro _ | split
    | (constructor <;> first | exact fun _ => rfl | exact fun _ _ => rfl | exact rfl | exact List.prefix_refl _ | exact Nat.le_refl _ | exact fun w => w | exact fun _ _ w => w | exact fun h => absurd h (by decide) | exact fun _ => ⟨fun _ _ => ⟨fun w => w, fun w => w⟩⟩)

theorem mapUe_keeps {U : Nat} {s₀ : State} {cls fails : Nat} {s : State} (hk : Keeps U s₀ s) (hT : 0x38300000688002000000000000007f01003fc00000000000000000000000000000000000000000000000000000000000000000000000000000000000000000000000000000000000000000000000000c005 ||| U = U := by decide) : Keeps U s₀ (mapUe cls fails s) := by
  refine Keeps.step ?_ hT hk
  clear hk hT; unfold mapUe
  repeat' with_reducible first
    | exact Keeps.refl _ _ | assumption
    | refine forS_keeps ?_ ?_ | refine freeStep_keeps ?_ | refine recordUe_keeps ?_ | refine raiseInt_keeps ?_ | refine fltEvent_keeps ?_
    | refine Keeps.ite ?_ ?_ | dsimp only | intro _ | split

theorem putStack_keeps {U : Nat} {s₀ : State} {a : Nat} {l : List Nat} {s : State} (hk : Keeps U s₀ s) (hT : 2 ||| U = U := by decide) : Keeps U s₀ (putStack a l s) := by
  induction l generalizing s a with
  | nil => exact hk
  | cons b l ih => exact ih (Keeps.setMem (Memory.wf_put s.mem _ _) hk hT)

theorem mapRead_keeps {U : Nat} {s₀ s : State} {cls h fails : Nat} (hk : Keeps U s₀ s) (hT : 0x38300000688002000000000000007f01003fc00000000000000000000000000000000000000000000000000000000000000000000000000000000000000000000000000000000000000000000000000c205 ||| U = U := by decide) : Keeps U s₀ (mapRead cls h fails s).2 := by
  refine Keeps.step ?_ hT hk
  clear hk hT; unfold mapRead
  dsimp only
  split
  · exact Keeps.refl _ _
  · have k := mapUe_keeps (cls := cls) (fails := fails) (Keeps.refl _ s) (Nat.or_self _)
    split
    · exact Keeps.weaken k (by decide)
    · exact Keeps.setQueues (fun w => w) (fun _ => List.length_take_le ..) (Keeps.weaken k (by decide))

theorem chanPush_keeps {U : Nat} {s₀ : State} {c : Nat} {r : MemReq} {s : State} (hk : Keeps U s₀ s) (hT : 8704 ||| U = U := by decide) : Keeps U s₀ (chanPush c r s) := by
  refine Keeps.step ?_ hT hk
  clear hk hT; unfold chanPush
  repeat' with_reducible first
    | exact Keeps.refl _ _ | assumption
    | refine setChan_keeps ?_ | refine Keeps.ite ?_ ?_ | refine Keeps.setLcs ⟨rfl, rfl⟩ ?_ | dsimp only | intro _ | split
    | (constructor <;> first | exact fun _ => rfl | exact fun _ _ => rfl | exact rfl | exact List.prefix_refl _ | exact Nat.le_refl _ | exact fun w => w | exact fun _ _ w => w | exact fun h => absurd h (by decide) | exact fun _ => ⟨fun _ _ => ⟨fun w => w, fun w => w⟩⟩)

theorem memoryRequest_keeps {U : Nat} {s₀ : State} {r : Nat} {part : Option Nat} {addr len : Nat} {data : Option (List Nat)} {now fails : Nat} {s : State} (hk : Keeps U s₀ s) (hT : 0x38300000688002000000000000007f11003fc00000000000000000000000000000000000000000000000000000000000000000000000000000000000000000000000000000000000000000000000000e205 ||| U = U := by decide) : Keeps U s₀ (memoryRequest r part addr len data now fails s) := by
  refine Keeps.step ?_ hT hk
  clear hk hT; unfold memoryRequest
  repeat' with_reducible first
    | exact Keeps.refl _ _ | assumption
    | refine chanPush_keeps ?_ | refine Keeps.ite ?_ ?_ | refine mapRead_keeps ?_ | refine setChan_keeps ?_ | refine abortEntry_keeps ?_
    | dsimp only | split
    | intro _

theorem laneHit_keeps {U : Nat} {s₀ : State} {c l : Nat} {s : State} (hk : Keeps U s₀ s) (hT : 0x3830000068800200000000000000000000000000000000000000000000000000000000000000000000000000000000000000000000000000000000000000000000000000000000000000000000000004205 ||| U = U := by decide) : Keeps U s₀ (laneHit c l s) := by
  refine Keeps.step ?_ hT hk
  clear hk hT; unfold laneHit
  repeat' with_reducible first
    | exact Keeps.refl _ _ | assumption | refine Keeps.ite ?_ ?_ | refine fltEvent_keeps ?_ | refine raiseInt_keeps ?_ | dsimp only | split
    | (constructor <;> first | exact fun _ => rfl | exact fun _ _ => rfl | exact rfl | exact List.prefix_refl _ | exact Nat.le_refl _ | exact fun w => w | exact fun _ _ w => w | exact fun h => absurd h (by decide) | exact fun _ => ⟨fun _ _ => ⟨fun w => w, fun w => w⟩⟩)
    | refine Keeps.setMemc ⟨rfl, rfl⟩ ?_

theorem addCand_keeps {U : Nat} {s₀ : State} {h : Nat} {s : State} (hk : Keeps U s₀ s) (hT : 512 ||| U = U := by decide) : Keeps U s₀ (addCand h s) := by
  refine Keeps.step ?_ hT hk
  clear hk hT; unfold addCand
  repeat' with_reducible first
    | exact Keeps.refl _ _ | assumption | refine Keeps.ite ?_ ?_ | split
    | (constructor <;> first | exact fun _ => rfl | exact fun _ _ => rfl | exact rfl | exact List.prefix_refl _ | exact Nat.le_refl _ | exact fun w => w | exact fun _ _ w => w | exact fun h => absurd h (by decide) | exact fun _ => ⟨fun _ _ => ⟨fun w => w, fun w => w⟩⟩)
    | refine Keeps.setMemc ⟨rfl, rfl⟩ ?_

theorem corrected_keeps {U : Nat} {s₀ : State} {c : Nat} {part : Option Nat} {h : Option Nat} {errs : List Nat} {s : State} (hk : Keeps U s₀ s) (hT : 0x38300000688002000000000000008000c0000000000000000000000000000000000000000000000000000000000000000000000000000000000000000000000000000000000000000000000000000004205 ||| U = U := by decide) : Keeps U s₀ (corrected c part h errs s) := by
  refine Keeps.step ?_ hT hk
  clear hk hT; unfold corrected
  repeat' with_reducible first
    | exact Keeps.refl _ _ | assumption | refine Keeps.ite ?_ ?_ | refine addCand_keeps ?_ | refine laneHit_keeps ?_ | refine incSat_keeps ?_
    | refine addSat_keeps ?_ | refine forS_keeps ?_ ?_ | dsimp only | intro _ | split

theorem reqUe_keeps {U : Nat} {s₀ : State} {cls : Nat} {write : Bool} {r : MemReq} {s : State} (hk : Keeps U s₀ s) (hT : 0x38300000688002000000000000007f01003fc000000000000000000000000000000000000000000000000000000000000000000000000000000000000000000000000000000000000000000000000004205 ||| U = U := by decide) : Keeps U s₀ (reqUe cls write r s) := by
  refine Keeps.step ?_ hT hk
  clear hk hT; unfold reqUe
  repeat' with_reducible first
    | exact Keeps.refl _ _ | assumption
    | refine addCand_keeps ?_ | refine recordUeAt_keeps ?_ | refine recordUe_keeps ?_ | split
    | dsimp only | intro _

theorem mendStack_keeps {U : Nat} {s₀ : State} {cls : Nat} {r : MemReq} {full bad : Bool} {s : State} (hk : Keeps U s₀ s) (hT : 0x38300000688002000000000000007f01003fc000000000000000000000000000000000000000000000000000000000000000000000000000000000000000000000000000000000000000000000000004207 ||| U = U := by decide) : Keeps U s₀ (mendStack cls r full bad s) := by
  refine Keeps.step ?_ hT hk
  clear hk hT; unfold mendStack
  repeat' with_reducible first
    | exact Keeps.refl _ _ | assumption
    | refine putStack_keeps ?_
    | refine setPoison_keeps ?_ | refine reqUe_keeps ?_ | refine Keeps.ite ?_ ?_ | dsimp only | intro _ | split

theorem phyErrors_keeps {U : Nat} {s₀ : State} {n : Nat} {s : State} (hk : Keeps U s₀ s) (hT : 0x3830000068800200000000000000000000000000000000000000000000000000000000000000000000000000000000000000000000000000000000000000000000000000000000000000000000000004005 ||| U = U := by decide) : Keeps U s₀ (phyErrors n s) := by
  refine Keeps.step ?_ hT hk
  clear hk hT; unfold phyErrors
  repeat' with_reducible first
    | exact Keeps.refl _ _ | assumption | refine Keeps.ite ?_ ?_ | refine fltEvent_keeps ?_ | refine raiseInt_keeps ?_ | split

theorem earlyScrub_keeps {U : Nat} {s₀ : State} {blk : Nat} {s : State} (hk : Keeps U s₀ s) (hT : 512 ||| U = U := by decide) : Keeps U s₀ (earlyScrub blk s) := by
  refine Keeps.step ?_ hT hk
  clear hk hT; unfold earlyScrub
  split
  · rename_i h
    exact Keeps.setQueues (fun _ => by simp; omega) (fun w => w) (Keeps.refl _ _)
  · exact Keeps.refl _ _

theorem rsDone_keeps {U : Nat} {s₀ : State} {r : MemReq} {write : Bool} {s : State} (hk : Keeps U s₀ s) (hT : 40960 ||| U = U := by decide) : Keeps U s₀ (rsDone r write s) := by
  refine Keeps.step ?_ hT hk
  clear hk hT; unfold rsDone
  exact Keeps.ite (Keeps.refl _ _) (by split <;> first | exact freeStep_keeps (Keeps.setLcs ⟨rfl, rfl⟩ (Keeps.refl _ _)) | exact Keeps.refl _ _)

theorem storeInverted_keeps {U : Nat} {s₀ : State} {blk : Nat} {l : List Nat} {s : State} (hk : Keeps U s₀ s) (hT : 8192 ||| U = U := by decide) : Keeps U s₀ (storeInverted blk l s) := by
  refine Keeps.step ?_ hT hk
  clear hk hT; unfold storeInverted
  repeat' with_reducible first
    | exact Keeps.refl _ _ | assumption
    | refine Keeps.setLcs ⟨rfl, rfl⟩ ?_ | dsimp only | intro _
    | (constructor <;> first | exact fun _ => rfl | exact fun _ _ => rfl | exact rfl | exact List.prefix_refl _ | exact Nat.le_refl _ | exact fun w => w | exact fun _ _ w => w | exact fun h => absurd h (by decide) | exact fun _ => ⟨fun _ _ => ⟨fun w => w, fun w => w⟩⟩)

theorem readDone_keeps {U : Nat} {s₀ : State} {c now : Nat} {errs : List Nat} {phy : Nat} {s : State} (hk : Keeps U s₀ s) (hT : 0x3830000078800214000800400007ff01c03fc0000000000000000000000000000000009f0000000000700000000f0160000010f000000000000002fc000000000015000000000000000050000000000e265 ||| U = U := by decide) : Keeps U s₀ (readDone c now errs phy s) := by
  refine Keeps.step ?_ hT hk
  clear hk hT; unfold readDone
  repeat' with_reducible first
    | exact Keeps.refl _ _ | assumption
    | refine hotSpend_keeps ?_ | refine rsDone_keeps ?_ | refine Keeps.ite ?_ ?_ | refine earlyScrub_keeps ?_ | refine phyErrors_keeps ?_ | refine reqUe_keeps ?_
    | refine corrected_keeps ?_ | refine setChan_keeps ?_ | refine engineUe_keeps ?_ | refine countBytes_keeps ?_ | refine recordUeAt_keeps ?_
    | refine emit_keeps ?_ | refine freeStep_keeps ?_ | dsimp only | intro _ | split

theorem writeAck_keeps {U : Nat} {s₀ : State} {c now : Nat} {errs : List Nat} {phy : Nat} {s : State} (hk : Keeps U s₀ s) (hT : 0x3830000068800200000000000007ff01c03fc00000000000000000000000000000000000000000000000000000000000000000000000000000000000000000000000000000000000000000000000000e207 ||| U = U := by decide) : Keeps U s₀ (writeAck c now errs phy s) := by
  refine Keeps.step ?_ hT hk
  clear hk hT; unfold writeAck
  repeat' with_reducible first
    | exact Keeps.refl _ _ | assumption
    | refine putStack_keeps ?_
    | refine storeInverted_keeps ?_ | refine hotSpend_keeps ?_ | refine rsDone_keeps ?_ | refine mendStack_keeps ?_ | refine freeStep_keeps ?_ | refine emit_keeps ?_ | refine Keeps.ite ?_ ?_ | refine phyErrors_keeps ?_
    | refine reqUe_keeps ?_ | refine corrected_keeps ?_ | refine setChan_keeps ?_ | refine countBytes_keeps ?_ | refine mendBlock_keeps ?_
    | refine putBytes_keeps ?_ | dsimp only | intro _ | split

theorem setOwed_keeps {U : Nat} {s₀ : State} {c : Nat} {v : Int} {s : State} (hk : Keeps U s₀ s) (hT : 512 ||| U = U := by decide) : Keeps U s₀ (setOwed c v s) := by
  refine Keeps.step ?_ hT hk
  clear hk hT; unfold setOwed
  repeat' with_reducible first
    | exact Keeps.refl _ _ | assumption
    | (constructor <;> first | exact fun _ => rfl | exact fun _ _ => rfl | exact rfl | exact List.prefix_refl _ | exact Nat.le_refl _ | exact fun w => w | exact fun _ _ w => w | exact fun h => absurd h (by decide) | exact fun _ => ⟨fun _ _ => ⟨fun w => w, fun w => w⟩⟩)
    | refine Keeps.setMemc ⟨rfl, rfl⟩ ?_

theorem setHotRate_keeps {U : Nat} {s₀ : State} {on : Bool} {s : State} (hk : Keeps U s₀ s) (hT : 0x800200000000000000000000000000400000000000000000000000000000000000000000000000000000000000000000000000000000000000000000000000000000000000000000000004201 ||| U = U := by decide) : Keeps U s₀ (setHotRate on s) := by
  refine Keeps.step ?_ hT hk
  clear hk hT; unfold setHotRate
  repeat' with_reducible first
    | exact Keeps.refl _ _ | assumption | refine Keeps.ite ?_ ?_ | refine raiseInt_keeps ?_ | refine wrb_keeps ?_ | dsimp only | intro _ | split
    | (constructor <;> first | exact fun _ => rfl | exact fun _ _ => rfl | exact rfl | exact List.prefix_refl _ | exact Nat.le_refl _ | exact fun w => w | exact fun _ _ w => w | exact fun h => absurd h (by decide) | exact fun _ => ⟨fun _ _ => ⟨fun w => w, fun w => w⟩⟩)
    | refine Keeps.setMemc ⟨rfl, rfl⟩ ?_

theorem tempRead_keeps {U : Nat} {s₀ : State} {t : Option Int} {s : State} (hk : Keeps U s₀ s) (hT : 0x3830000078800200000000000000000000000000f00000000000000000000000000000000000000000000000000000000000000000000000000000000000000000000000000000000000000000000004205 ||| U = U := by decide) : Keeps U s₀ (tempRead t s) := by
  refine Keeps.step ?_ hT hk
  clear hk hT; unfold tempRead
  repeat' with_reducible first
    | exact Keeps.refl _ _ | assumption | refine Keeps.ite ?_ ?_ | refine setHotRate_keeps ?_ | refine setLiveInt_keeps ?_ | refine wrb_keeps ?_
    | refine wrs_keeps ?_ | dsimp only | split

theorem refreshUnit_keeps {U : Nat} {s₀ : State} {c : Nat} {s : State} (hk : Keeps U s₀ s) (hT : 0x800000000000000000000000000000000000000000000000000000000000000000000000000000000000000000000000000000000000000000000000000000000201 ||| U = U := by decide) : Keeps U s₀ (refreshUnit c s) := by
  refine Keeps.step ?_ hT hk
  clear hk hT; unfold refreshUnit
  repeat' with_reducible first
    | exact Keeps.refl _ _ | assumption | refine Keeps.ite ?_ ?_ | refine setOwed_keeps ?_ | refine incSat_keeps ?_ | dsimp only | split
    | (constructor <;> first | exact fun _ => rfl | exact fun _ _ => rfl | exact rfl | exact List.prefix_refl _ | exact Nat.le_refl _ | exact fun w => w | exact fun _ _ w => w | exact fun h => absurd h (by decide) | exact fun _ => ⟨fun _ _ => ⟨fun w => w, fun w => w⟩⟩)
    | refine Keeps.setMemc ⟨rfl, rfl⟩ ?_

theorem speedTarget_keeps {U : Nat} {s₀ : State} {word : Nat} {s : State} (hk : Keeps U s₀ s) (hT : 0xa0000000000000000000000000000000000000000000000000000000000000000000000000000000000000000000000000000000000000000000000001 ||| U = U := by decide) : Keeps U s₀ (speedTarget word s) := by
  refine Keeps.step ?_ hT hk
  clear hk hT; unfold speedTarget
  repeat' with_reducible first
    | exact Keeps.refl _ _ | assumption | refine wrb_keeps ?_ | refine wr_keeps ?_ | dsimp only

theorem entryDecision_keeps {U : Nat} {s₀ : State} {sleep : Bool} {s : State} (hk : Keeps U s₀ s) (hT : 512 ||| U = U := by decide) : Keeps U s₀ (entryDecision sleep s) := by
  refine Keeps.step ?_ hT hk
  clear hk hT; unfold entryDecision
  repeat' with_reducible first
    | exact Keeps.refl _ _ | assumption
    | (constructor <;> first | exact fun _ => rfl | exact fun _ _ => rfl | exact rfl | exact List.prefix_refl _ | exact Nat.le_refl _ | exact fun w => w | exact fun _ _ w => w | exact fun h => absurd h (by decide) | exact fun _ => ⟨fun _ _ => ⟨fun w => w, fun w => w⟩⟩)
    | refine Keeps.setMemc ⟨rfl, rfl⟩ ?_

theorem entryCommand_keeps {U : Nat} {s₀ : State} {s : State} (hk : Keeps U s₀ s) (hT : 0x800000000000000000000000000000000000000000000000000000000000000000000000000000000000000000000000000000000000000000000000000000000201 ||| U = U := by decide) : Keeps U s₀ (entryCommand s) := by
  refine Keeps.step ?_ hT hk
  clear hk hT; unfold entryCommand
  repeat' with_reducible first
    | exact Keeps.refl _ _ | assumption
    | refine incSat_keeps ?_ | refine Keeps.ite ?_ ?_ | refine setOwed_keeps ?_ | refine forS_keeps ?_ ?_ | dsimp only | intro _ | split
    | (constructor <;> first | exact fun _ => rfl | exact fun _ _ => rfl | exact rfl | exact List.prefix_refl _ | exact Nat.le_refl _ | exact fun w => w | exact fun _ _ w => w | exact fun h => absurd h (by decide) | exact fun _ => ⟨fun _ _ => ⟨fun w => w, fun w => w⟩⟩)
    | refine Keeps.setMemc ⟨rfl, rfl⟩ ?_

theorem selfRefreshExit_keeps {U : Nat} {s₀ : State} {s : State} (hk : Keeps U s₀ s) (hT : 512 ||| U = U := by decide) : Keeps U s₀ (selfRefreshExit s) := by
  refine Keeps.step ?_ hT hk
  clear hk hT; unfold selfRefreshExit
  repeat' with_reducible first
    | exact Keeps.refl _ _ | assumption | refine Keeps.ite ?_ ?_ | refine setOwed_keeps ?_ | refine forS_keeps ?_ ?_ | dsimp only | intro _ | split
    | (constructor <;> first | exact fun _ => rfl | exact fun _ _ => rfl | exact rfl | exact List.prefix_refl _ | exact Nat.le_refl _ | exact fun w => w | exact fun _ _ w => w | exact fun h => absurd h (by decide) | exact fun _ => ⟨fun _ _ => ⟨fun w => w, fun w => w⟩⟩)
    | refine Keeps.setMemc ⟨rfl, rfl⟩ ?_

theorem speedSwitch_keeps {U : Nat} {s₀ : State} {s : State} (hk : Keeps U s₀ s) (hT : 0xc0000000000000000000000000000000000000000000000000000000000000000000000000000000000000000000000000000000000000000000000001 ||| U = U := by decide) : Keeps U s₀ (speedSwitch s) := by
  refine Keeps.step ?_ hT hk
  clear hk hT; unfold speedSwitch
  repeat' with_reducible first
    | exact Keeps.refl _ _ | assumption | refine wrs_keeps ?_

theorem scrubAdvance_keeps {U : Nat} {s₀ : State} {s : State} (hk : Keeps U s₀ s) (hT : 0x200000020000000000000000000000000000000000000000000000000000000000000000000000000000000000000000000000000000000000000000000000000201 ||| U = U := by decide) : Keeps U s₀ (scrubAdvance s) := by
  refine Keeps.step ?_ hT hk
  clear hk hT; unfold scrubAdvance
  repeat' with_reducible first
    | exact Keeps.refl _ _ | assumption | refine Keeps.ite ?_ ?_ | refine incWrap_keeps ?_ | refine addWrap_keeps ?_ | refine wr_keeps ?_ | dsimp only
    | split
    | (constructor <;> first | exact fun _ => rfl | exact fun _ _ => rfl | exact rfl | exact List.prefix_refl _ | exact Nat.le_refl _ | exact fun w => w | exact fun _ _ w => w | exact fun h => absurd h (by decide) | exact fun _ => ⟨fun _ _ => ⟨fun w => w, fun w => w⟩⟩)
    | refine Keeps.setMemc ⟨rfl, rfl⟩ ?_

theorem passHit_keeps {U : Nat} {s₀ : State} {h : Nat} {s : State} (hk : Keeps U s₀ s) (hT : 512 ||| U = U := by decide) : Keeps U s₀ (passHit h s) := by
  refine Keeps.step ?_ hT hk
  clear hk hT; unfold passHit
  repeat' with_reducible first
    | exact Keeps.refl _ _ | assumption | refine Keeps.ite ?_ ?_ | refine addCand_keeps ?_ | dsimp only | split
    | (constructor <;> first | exact fun _ => rfl | exact fun _ _ => rfl | exact rfl | exact List.prefix_refl _ | exact Nat.le_refl _ | exact fun w => w | exact fun _ _ w => w | exact fun h => absurd h (by decide) | exact fun _ => ⟨fun _ _ => ⟨fun w => w, fun w => w⟩⟩)
    | refine Keeps.setMemc ⟨rfl, rfl⟩ ?_

theorem scrubBlock_keeps {U : Nat} {s₀ : State} {frame blk : Nat} {errs : List Nat} {s : State} (hk : Keeps U s₀ s) (hT : 0x3830000068800200000000000000ff01c03fc000000000000000000000000000000000000000000000000000000000000000000000000000000000000000000000000000000000000000000000000006205 ||| U = U := by decide) : Keeps U s₀ (scrubBlock frame blk errs s) := by
  refine Keeps.step ?_ hT hk
  clear hk hT; unfold scrubBlock
  repeat' with_reducible first
    | exact Keeps.refl _ _ | assumption
    | refine storeInverted_keeps ?_ | refine Keeps.ite ?_ ?_ | refine passHit_keeps ?_ | refine corrected_keeps ?_ | refine addCand_keeps ?_
    | refine recordUeAt_keeps ?_ | refine recordUe_keeps ?_ | refine setPoison_keeps ?_ | dsimp only | split
    | intro _

theorem retireStart_keeps {U : Nat} {s₀ : State} {h : Nat} {s : State} (hk : Keeps U s₀ s) (hT : 0x30000000000000000000000000000000800200000000000000000000000000000000000000000000000000000000000000000000000000000000000000000000000000000000000000000000000000000000000000000000000006201 ||| U = U := by decide) : Keeps U s₀ (retireStart h s) := by
  refine Keeps.step ?_ hT hk
  clear hk hT; unfold retireStart
  repeat' with_reducible first
    | exact Keeps.refl _ _ | assumption | refine Keeps.ite ?_ ?_ | refine propNoSpare_keeps ?_ | refine raiseInt_keeps ?_ | dsimp only | split
    | (constructor <;> first | exact fun _ => rfl | exact fun _ _ => rfl | exact rfl | exact List.prefix_refl _ | exact Nat.le_refl _ | exact fun w => w | exact fun _ _ w => w | exact fun h => absurd h (by decide) | exact fun _ => ⟨fun _ _ => ⟨fun w => w, fun w => w⟩⟩)
    | refine Keeps.setMemc ⟨rfl, rfl⟩ ?_

theorem copyUe_keeps {U : Nat} {s₀ : State} {h blk : Nat} {s : State} (hk : Keeps U s₀ s) (hT : 0x38300000688002000000000000007f01003fc000000000000000000000000000000000000000000000000000000000000000000000000000000000000000000000000000000000000000000000000004205 ||| U = U := by decide) : Keeps U s₀ (copyUe h blk s) := by
  refine Keeps.step ?_ hT hk
  clear hk hT; unfold copyUe
  repeat' with_reducible first
    | exact Keeps.refl _ _ | assumption | refine recordUeAt_keeps ?_ | refine recordUe_keeps ?_ | split

theorem retireDone_keeps {U : Nat} {s₀ : State} {bad : Nat} {row : Option Nat} {s : State} (hk : Keeps U s₀ s) (hT : 0x20300000000000000000000138300000788002000000000000007f05003fe000000000000000000000000000000000000000000000000000000000000000000000000000000000000000000000000000000000000000000000000007205 ||| U = U := by decide) : Keeps U s₀ (retireDone bad row s) := by
  refine Keeps.step ?_ hT hk
  clear hk hT; unfold retireDone
  repeat' with_reducible first
    | exact Keeps.refl _ _ | assumption | refine Keeps.ite ?_ ?_ | refine copyUe_keeps ?_ | refine retireAdd_keeps ?_ | refine setMapEnt_keeps ?_
    | refine propDone_keeps ?_ | refine setLiveInt_keeps ?_ | refine forS_keeps ?_ ?_ | refine incSat_keeps ?_ | refine wr_keeps ?_ | split | dsimp only
    | intro _
    | (constructor <;> first | exact fun _ => rfl | exact fun _ _ => rfl | exact rfl | exact List.prefix_refl _ | exact Nat.le_refl _ | exact fun w => w | exact fun _ _ w => w | exact fun h => absurd h (by decide) | exact fun _ => ⟨fun _ _ => ⟨fun w => w, fun w => w⟩⟩)
    | refine Keeps.setMemc ⟨rfl, rfl⟩ ?_

theorem execMemoryRequest_keeps {r : Nat} {part : Option Nat} {addr len : Nat} {data : Option (List Nat)} {now fails : Nat} {s : State} {t' : State} (hx : execMemoryRequest r part addr len data now fails s = .next t') :
    Keeps 0x38300000688002000000000000007f11003fc00000000000000000000000000000000000000000000000000000000000000000000000000000000000000000000000000000000000000000000000000e205 s t' := by
  unfold execMemoryRequest at hx; obtain rfl := Host.Outcome.next.inj hx
  repeat' with_reducible first
    | exact Keeps.refl _ _ | assumption | refine Keeps.ite ?_ ?_ | refine memoryRequest_keeps ?_ | dsimp only | intro _ | split

theorem execMemoryReadDone_keeps {c now : Nat} {errs : List Nat} {phy : Nat} {s : State} {t' : State} (hx : execMemoryReadDone c now errs phy s = .next t') :
    Keeps 0x3830000078800214000800400007ff01c03fc0000000000000000000000000000000009f0000000000700000000f0160000010f000000000000002fc000000000015000000000000000050000000000e265 s t' := by
  unfold execMemoryReadDone at hx; obtain rfl := Host.Outcome.next.inj hx
  repeat' with_reducible first
    | exact Keeps.refl _ _ | assumption | refine readDone_keeps ?_

theorem execMemoryWriteAck_keeps {c now : Nat} {errs : List Nat} {phy : Nat} {s : State} {t' : State} (hx : execMemoryWriteAck c now errs phy s = .next t') :
    Keeps 0x3830000068800200000000000007ff01c03fc00000000000000000000000000000000000000000000000000000000000000000000000000000000000000000000000000000000000000000000000000e207 s t' := by
  unfold execMemoryWriteAck at hx; obtain rfl := Host.Outcome.next.inj hx
  repeat' with_reducible first
    | exact Keeps.refl _ _ | assumption | refine writeAck_keeps ?_

theorem execStackTempRead_keeps {t : Option Int} {s : State} {t' : State} (hx : execStackTempRead t s = .next t') :
    Keeps 0x3830000078800200000000000000000000000000f00000000000000000000000000000000000000000000000000000000000000000000000000000000000000000000000000000000000000000000004205 s t' := by
  unfold execStackTempRead at hx; obtain rfl := Host.Outcome.next.inj hx
  repeat' with_reducible first
    | exact Keeps.refl _ _ | assumption | refine tempRead_keeps ?_

theorem execRefreshTick_keeps {c : Nat} {s : State} {t' : State} (hx : execRefreshTick c s = .next t') :
    Keeps 512 s t' := by
  unfold execRefreshTick at hx; obtain rfl := Host.Outcome.next.inj hx
  repeat' with_reducible first
    | exact Keeps.refl _ _ | assumption | refine Keeps.ite ?_ ?_ | refine setOwed_keeps ?_ | split

theorem execRefreshUnit_keeps {c : Nat} {s : State} {t' : State} (hx : execRefreshUnit c s = .next t') :
    Keeps 0x800000000000000000000000000000000000000000000000000000000000000000000000000000000000000000000000000000000000000000000000000000000201 s t' := by
  unfold execRefreshUnit at hx; obtain rfl := Host.Outcome.next.inj hx
  repeat' with_reducible first
    | exact Keeps.refl _ _ | assumption | refine refreshUnit_keeps ?_

theorem execSpeedTargetWrite_keeps {m word : Nat} {s : State} {t' : State} (hx : execSpeedTargetWrite m word s = .next t') :
    Keeps (busMask ||| parMask ||| 0x3830000078a002000000001400000000000000000a0000000000000000000000000000000000000000000000000000000000040000000000000000000000000000000070000080000000000000000004055) s t' := by
  unfold execSpeedTargetWrite at hx; obtain rfl := Host.Outcome.next.inj hx
  repeat' with_reducible first
    | exact Keeps.refl _ _ | assumption
    | refine takeIn_keeps ?_ ?_ | refine speedTarget_keeps ?_ | refine asWriter_keeps ?_ ?_ | intro _
    | dsimp only

theorem execSpeedChangeEntry_keeps {command : Bool} {s : State} {t' : State} (hx : execSpeedChangeEntry command s = .next t') :
    Keeps 0x800000000000000000000000000000000000000000000000000000000000000000000000000000000000000000000000000000000000000000000000000000000201 s t' := by
  unfold execSpeedChangeEntry at hx; obtain rfl := Host.Outcome.next.inj hx
  repeat' with_reducible first
    | exact Keeps.refl _ _ | assumption | refine Keeps.ite ?_ ?_ | refine entryCommand_keeps ?_ | refine entryDecision_keeps ?_ | split

theorem execSpeedDone_keeps {s : State} {t' : State} (hx : execSpeedDone s = .next t') :
    Keeps 0x8002000000000000000000000000000c0000000000000000000000000000000000000000000000000000000000000000000000000000000000000000000000000000000000000000000004201 s t' := by
  unfold execSpeedDone at hx; obtain rfl := Host.Outcome.next.inj hx
  repeat' with_reducible first
    | exact Keeps.refl _ _ | assumption | refine Keeps.ite ?_ ?_ | refine speedSwitch_keeps ?_ | refine selfRefreshExit_keeps ?_
    | refine raiseInt_keeps ?_ | split

theorem execScrubRead_keeps {errs : List Nat} {s : State} {t' : State} (hx : execScrubRead errs s = .next t') :
    Keeps 0x3830000068800200000000000000ff03c03fc020000000000000000000000000000000000000000000000000000000000000000000000000000000000000000000000000000000000000000000000006205 s t' := by
  unfold execScrubRead at hx; obtain rfl := Host.Outcome.next.inj hx
  refine Keeps.ite (Keeps.refl _ _) ?_
  split
  · rename_i b l e
    exact scrubBlock_keeps (Keeps.setQueues (fun w => by simp [e] at w ⊢; omega) (fun w => w) (Keeps.refl _ _))
  · exact scrubAdvance_keeps (scrubBlock_keeps (Keeps.refl _ _))

theorem execRetirementStart_keeps {h : Nat} {s : State} {t' : State} (hx : execRetirementStart h s = .next t') :
    Keeps 0x30000000000000000000000000000000800200000000000000000000000000000000000000000000000000000000000000000000000000000000000000000000000000000000000000000000000000000000000000000000000006201 s t' := by
  unfold execRetirementStart at hx; obtain rfl := Host.Outcome.next.inj hx
  repeat' with_reducible first
    | exact Keeps.refl _ _ | assumption | refine retireStart_keeps ?_

theorem execRetirementDone_keeps {bad : Nat} {row : Option Nat} {s : State} {t' : State} (hx : execRetirementDone bad row s = .next t') :
    Keeps 0x20300000000000000000000138300000788002000000000000007f05003fe000000000000000000000000000000000000000000000000000000000000000000000000000000000000000000000000000000000000000000000000007205 s t' := by
  unfold execRetirementDone at hx; obtain rfl := Host.Outcome.next.inj hx
  repeat' with_reducible first
    | exact Keeps.refl _ _ | assumption | refine Keeps.ite ?_ ?_ | refine retireDone_keeps ?_ | dsimp only | intro _ | split

theorem execMapLookup_keeps {m word : Nat} {s : State} {t' : State} (hx : execMapLookup m word s = .next t') :
    Keeps (busMask ||| parMask ||| 0x3830000078a00200000000140000000000000800000000000000000000000000000000000000000000000000000000000000040000000000000000000000000000000070000080000000000000000004255) s t' := by
  unfold execMapLookup at hx; obtain rfl := Host.Outcome.next.inj hx
  repeat' with_reducible first
    | exact Keeps.refl _ _ | assumption
    | refine takeIn_keeps ?_ ?_ | refine asWriter_keeps ?_ ?_ | refine wr_keeps ?_ | dsimp only | intro _
    | (constructor <;> first | exact fun _ => rfl | exact fun _ _ => rfl | exact rfl | exact List.prefix_refl _ | exact Nat.le_refl _ | exact fun w => w | exact fun _ _ w => w | exact fun h => absurd h (by decide) | exact fun _ => ⟨fun _ _ => ⟨fun w => w, fun w => w⟩⟩)
    | refine Keeps.setMemc ⟨rfl, rfl⟩ ?_

theorem execMapLookupDone_keeps {fails : Nat} {s : State} {t' : State} (hx : execMapLookupDone fails s = .next t') :
    Keeps 0x38300000688002000000000000007f01003fd00000000000000000000000000000000000000000000000000000000000000000000000000000000000000000000000000000000000000000000000000c205 s t' := by
  unfold execMapLookupDone at hx; obtain rfl := Host.Outcome.next.inj hx
  repeat' with_reducible first
    | exact Keeps.refl _ _ | assumption
    | refine mapUe_keeps ?_ | refine Keeps.ite ?_ ?_ | refine fltEvent_keeps ?_ | refine raiseInt_keeps ?_ | refine freeStep_keeps ?_
    | refine wr_keeps ?_ | dsimp only | split
    | (constructor <;> first | exact fun _ => rfl | exact fun _ _ => rfl | exact rfl | exact List.prefix_refl _ | exact Nat.le_refl _ | exact fun w => w | exact fun _ _ w => w | exact fun h => absurd h (by decide) | exact fun _ => ⟨fun _ _ => ⟨fun w => w, fun w => w⟩⟩)
    | refine Keeps.setMemc ⟨rfl, rfl⟩ ?_
    | intro _

end Sys2Proof.Machine
end

