-- ==== Sys2Proof/Laws/Host.lean ====
section
/-! SUPPORT. What the operations and commands of Machine/Host.lean keep, and the components of the state they may write (Laws/Keeps.lean). -/

set_option exponentiation.threshold 2000

set_option Elab.async false

namespace Sys2Proof.Machine

open Sys2Proof

theorem domPush_keeps {U : Nat} {s₀ : State} {d : Nat} {on : Bool} {s : State} (hk : Keeps U s₀ s) (hT : 2048 ||| U = U := by decide) : Keeps U s₀ (domPush d on s) := by
  refine Keeps.step ?_ hT hk
  clear hk hT; unfold domPush
  repeat' with_reducible first
    | exact Keeps.refl _ _ | assumption | refine Keeps.ite ?_ ?_
    | (constructor <;> first | exact fun _ => rfl | exact fun _ _ => rfl | exact rfl | exact List.prefix_refl _ | exact Nat.le_refl _ | exact fun w => w | exact fun _ _ w => w | exact fun h => absurd h (by decide) | exact fun _ => ⟨fun _ _ => ⟨fun w => w, fun w => w⟩⟩)
    | refine Keeps.setPwr ?_ | dsimp only | intro _ | split

theorem enableEffect_keeps {U : Nat} {s₀ : State} {p : Page} {s : State} (hk : Keeps U s₀ s) (hT : 0xa0000000000000000000000000000000000000000000000000000000000000000000000000000000000000000000000000000000000000000000000000000000000000000000000000000801 ||| U = U := by decide) : Keeps U s₀ (enableEffect p s) := by
  refine Keeps.step ?_ hT hk
  clear hk hT; unfold enableEffect
  repeat' with_reducible first
    | exact Keeps.refl _ _ | assumption | refine Keeps.ite ?_ ?_ | refine domPush_keeps ?_ | refine wrb_keeps ?_ | dsimp only | intro _ | split

theorem turnOff_keeps {U : Nat} {s₀ : State} {p : Page} {s : State} (hk : Keeps U s₀ s) (hT : 0x1a0000000000000000000000000000000000000000000000000000000000000000000000000000000000000000000000000000000000000000000000000000000000000000000000000000801 ||| U = U := by decide) : Keeps U s₀ (turnOff p s) := by
  refine Keeps.step ?_ hT hk
  clear hk hT; unfold turnOff
  repeat' with_reducible first
    | exact Keeps.refl _ _ | assumption | refine Keeps.ite ?_ ?_ | refine domPush_keeps ?_ | refine wrb_keeps ?_ | refine wrs_keeps ?_ | dsimp only
    | intro _ | split

theorem enReset_keeps {U : Nat} {s₀ : State} {p : Page} {s : State} (hk : Keeps U s₀ s) (hT : 0x1a0000000000000000000000000000000000000000000000000000000000000000000000000000000000000000000000000000000000000000000000000000000000000000000000000000801 ||| U = U := by decide) : Keeps U s₀ (enReset p s) := by
  refine Keeps.step ?_ hT hk
  clear hk hT; unfold enReset
  repeat' with_reducible first
    | exact Keeps.refl _ _ | assumption | refine Keeps.ite ?_ ?_ | refine turnOff_keeps ?_ | refine enableEffect_keeps ?_ | dsimp only | intro _
    | split

theorem resetRange_keeps {U : Nat} {s₀ : State} {lo hi : Nat} {s : State} (hk : Keeps U s₀ s) (hT : (anyField ||| 1) ||| U = U := by decide) : Keeps U s₀ (resetRange lo hi s) := by
  refine Keeps.step ?_ hT hk
  clear hk hT; unfold resetRange
  repeat' with_reducible first
    | exact Keeps.refl _ _ | assumption
    | (constructor <;> first | exact fun _ => rfl | exact fun _ _ => rfl | exact rfl | exact List.prefix_refl _ | exact Nat.le_refl _ | exact fun w => w | exact fun _ _ w => w | exact fun h => absurd h (by decide) | exact fun _ => ⟨fun _ _ => ⟨fun w => w, fun w => w⟩⟩)
    | refine Keeps.setAnyField ?_

theorem forgetPage_keeps {U : Nat} {s₀ : State} {p : Page} {s : State} (hk : Keeps U s₀ s) (hT : (parMask ||| 0x4) ||| U = U := by decide) : Keeps U s₀ (forgetPage p s) := by
  refine Keeps.step ?_ hT hk
  clear hk hT; unfold forgetPage
  repeat' with_reducible first
    | exact Keeps.refl _ _ | assumption | dsimp only | intro _
    | (constructor <;> first | exact fun _ => rfl | exact fun _ _ => rfl | exact rfl | exact List.prefix_refl _ | exact Nat.le_refl _ | exact fun w => w | exact fun _ _ w => w | exact fun h => absurd h (by decide) | exact fun _ => ⟨fun _ _ => ⟨fun w => w, fun w => w⟩⟩)
    | refine Keeps.setPar rfl ?_

theorem forgetFaults_keeps {U : Nat} {s₀ : State} {p : Page} {s : State} (hk : Keeps U s₀ s) (hT : 4 ||| U = U := by decide) : Keeps U s₀ (forgetFaults p s) := by
  refine Keeps.step ?_ hT hk
  clear hk hT; unfold forgetFaults
  repeat' with_reducible first
    | exact Keeps.refl _ _ | assumption | dsimp only
    | (constructor <;> first | exact fun _ => rfl | exact fun _ _ => rfl | exact rfl | exact List.prefix_refl _ | exact Nat.le_refl _ | exact fun w => w | exact fun _ _ w => w | exact fun h => absurd h (by decide) | exact fun _ => ⟨fun _ _ => ⟨fun w => w, fun w => w⟩⟩)
    | refine Keeps.setMgt ⟨rfl, rfl⟩ ?_

theorem resetFields_keeps {U : Nat} {s₀ : State} {p : Page} {keep : List Fld} {s : State} (hk : Keeps U s₀ s) (hT : (anyField ||| parMask ||| 5) ||| U = U := by decide) : Keeps U s₀ (resetFields p keep s) := by
  refine Keeps.step ?_ hT hk
  clear hk hT; unfold resetFields
  repeat' with_reducible first
    | exact Keeps.refl _ _ | assumption | refine Keeps.ite ?_ ?_ | refine resetRange_keeps ?_ | refine forgetPage_keeps ?_
    | refine forgetFaults_keeps ?_ | refine wrs_keeps ?_ (fun x _ => sub_trans (fldMask_any x.1) (by decide)) | dsimp only | intro _ | split

theorem resetPage_keeps {U : Nat} {s₀ : State} {p : Page} {keep : List Fld} {s : State} (hk : Keeps U s₀ s) (hT : (anyField ||| parMask ||| 2053) ||| U = U := by decide) : Keeps U s₀ (resetPage p keep s) := by
  refine Keeps.step ?_ hT hk
  clear hk hT; unfold resetPage
  repeat' with_reducible first
    | exact Keeps.refl _ _ | assumption | refine Keeps.ite ?_ ?_ | refine enReset_keeps ?_ | refine resetFields_keeps ?_

theorem resetBank_keeps {U : Nat} {s₀ : State} {b : Nat} {s : State} (hk : Keeps U s₀ s) (hT : (anyField ||| parMask ||| 2149) ||| U = U := by decide) : Keeps U s₀ (resetBank b s) := by
  refine Keeps.step ?_ hT hk
  clear hk hT; unfold resetBank
  repeat' with_reducible first
    | exact Keeps.refl _ _ | assumption
    | refine pecLost_keeps ?_ | refine putPec_keeps ?_ | refine Keeps.ite ?_ ?_ | refine resetPage_keeps ?_ | refine setSring_keeps ?_ | refine setConv_keeps ?_ | refine setFur_keeps ?_
    | refine setBank_keeps ?_ | refine wrs_keeps ?_ (fun x _ => sub_trans (fldMask_any x.1) (by decide)) | refine forS_keeps ?_ ?_ | dsimp only
    | intro _
    | split

theorem bankMove_keeps {U : Nat} {s₀ : State} {b : Nat} {s : State} (hk : Keeps U s₀ s) (hT : 0x38300000788002140008004000200000000000000000000000000000000000000000009f0000000000700000000f0160000014f000000000000002fc0000000000150000000000000000500000000004565 ||| U = U := by decide) : Keeps U s₀ (bankMove b s) := by
  refine Keeps.step ?_ hT hk
  clear hk hT; unfold bankMove
  repeat' with_reducible first
    | exact Keeps.refl _ _ | assumption | refine safeBank_keeps ?_ | refine calAbortDue_keeps ?_ | refine wrb_keeps ?_ | dsimp only
    | (constructor <;> first | exact fun _ => rfl | exact fun _ _ => rfl | exact rfl | exact List.prefix_refl _ | exact Nat.le_refl _ | exact fun w => w | exact fun _ _ w => w | exact fun h => absurd h (by decide) | exact fun _ => ⟨fun _ _ => ⟨fun w => w, fun w => w⟩⟩)
    | refine Keeps.setHif ?_

theorem bankOwnWrite_keeps {U : Nat} {s₀ : State} {hi : Bool} {word : Nat} {s : State} (hk : Keeps U s₀ s) (hT : 0x38300000788002140008004003200000000000000000000000000000000000000000009f0000000000700000000f0160000014f000000000000002fc0000000000150000000000000000500000000004565 ||| U = U := by decide) : Keeps U s₀ (bankOwnWrite hi word s) := by
  refine Keeps.step ?_ hT hk
  clear hk hT; unfold bankOwnWrite
  repeat' with_reducible first
    | exact Keeps.refl _ _ | assumption | refine Keeps.ite ?_ ?_ | refine bankMove_keeps ?_ | refine fltEvent_keeps ?_ | refine wr_keeps ?_
    | refine forS_keeps ?_ ?_ | dsimp only | intro _ | split

theorem mapWrite_keeps {U : Nat} {s₀ y : State} {f : State → State} (hf : ∀ x, Keeps U x (f x)) (h : Keeps U s₀ y) (hU : 0x3830000068800200000000000000000000000000000000000000000000000000000000000000000000000000000000000000000000000000000000000000000000000000000000000000000000000004005 ||| U = U := by decide) : Keeps U s₀ (mapWrite f y) := by
  have hf' : ∀ {a x}, Keeps U a x → Keeps U a (f x) := fun k => Keeps.step (hf ..) (Nat.or_self U) k
  unfold mapWrite
  repeat' with_reducible first
    | exact Keeps.refl _ _ | assumption | refine hf' ?_ | refine Keeps.ite ?_ ?_ | refine fltEvent_keeps ?_ (sub_trans (by decide) hU) | split

/-- Regions dropped keep the canonical form of pattern memory. -/
theorem dropRegions_wf (l : List Nat) (m : List Host.Cell) (h : Memory.wf m = true) : Memory.wf (dropRegions l m) = true := by
  unfold dropRegions
  induction l generalizing m with
  | nil => exact h
  | cons a l ih => exact ih _ (Memory.wf_drop _ _ _ h)

theorem latchGrain_keeps {U : Nat} {s₀ : State} {n old q : Nat} {s : State} (hk : Keeps U s₀ s) (hT : 512 ||| U = U := by decide) : Keeps U s₀ (latchGrain n old q s) := by
  refine Keeps.step ?_ hT hk
  clear hk hT; unfold latchGrain
  repeat' with_reducible first
    | exact Keeps.refl _ _ | assumption
    | refine Keeps.ite ?_ ?_ | refine Keeps.setMemc ⟨rfl, rfl⟩ ?_ | dsimp only | intro _ | split
    | (constructor <;> first | exact fun _ => rfl | exact fun _ _ => rfl | exact rfl | exact List.prefix_refl _ | exact Nat.le_refl _ | exact fun w => w | exact fun _ _ w => w | exact fun h => absurd h (by decide) | exact fun _ => ⟨fun _ _ => ⟨fun w => w, fun w => w⟩⟩)

theorem setQuota_keeps {U : Nat} {s₀ : State} {n q : Nat} {s : State} (hk : Keeps U s₀ s) (hT : 0x3c00000000000000000000000000000000000000000000000000000000000000000000000000000000000000000000000000000000000000000000000000000000000000203 ||| U = U := by decide) : Keeps U s₀ (setQuota n q s) := by
  refine Keeps.step ?_ hT hk
  clear hk hT
  have hw : Keeps 0x3c00000000000000000000000000000000000000000000000000000000000000000000000000000000000000000000000000000000000000000000000000000000000000203 s (latchGrain n (rd s .hifDev (quotaFld n)) q (wr s .hifDev (quotaFld n) q)) :=
    latchGrain_keeps (wr_keeps (Keeps.refl _ _) (quotaFld_mask (by decide)))
  unfold setQuota
  dsimp only
  refine Keeps.ite ?_ ?_
  · exact Keeps.setMemMemc (Memory.wf_drop _ _ _) ⟨rfl, rfl⟩ hw
  · exact Keeps.setMemMemc (dropRegions_wf _ _) ⟨rfl, rfl⟩ hw

theorem quotaWrite_keeps {U : Nat} {s₀ : State} {word : Nat} {s : State} (hk : Keeps U s₀ s) (hT : 0x3830000068800200000000003c00000000000000000000000000000000000000000000000000000000000000000000000000000000000000000000000000000000000000000000000000000000000004207 ||| U = U := by decide) : Keeps U s₀ (quotaWrite word s) := by
  refine Keeps.step ?_ hT hk
  clear hk hT; unfold quotaWrite
  repeat' with_reducible first
    | exact Keeps.refl _ _ | assumption | refine Keeps.ite ?_ ?_ | refine setQuota_keeps ?_ | refine fltEvent_keeps ?_ | refine forS_keeps ?_ ?_
    | dsimp only | intro _ | split

theorem barWrite_keeps {U : Nat} {s₀ : State} {n x : Nat} {data : List Nat} {ep : Bool} {s : State} (hk : Keeps U s₀ s) (hT : 0x38300000688002000000002800077f01003fc000000000000000000000000000000000000000000000000000000000000000000000000000000000000000000000000000000000000000000000000004207 ||| U = U := by decide) : Keeps U s₀ (barWrite n x data ep s) := by
  refine Keeps.step ?_ hT hk
  clear hk hT; unfold barWrite
  repeat' with_reducible first
    | exact Keeps.refl _ _ | assumption | refine Keeps.ite ?_ ?_ | refine writeBytes_keeps ?_ | refine incSat_keeps ?_ | dsimp only | intro _ | split

theorem barPart_keeps {U : Nat} {s₀ : State} {n a len : Nat} {ue : List Nat} {blk : Nat} {s : State} (hk : Keeps U s₀ s) (hT : 0x38300000688002000000000000007f01003fc000000000000000000000000000000000000000000000000000000000000000000000000000000000000000000000000000000000000000000000000004205 ||| U = U := by decide) : Keeps U s₀ (barPart n a len ue blk s) := by
  refine Keeps.step ?_ hT hk
  clear hk hT; unfold barPart
  repeat' with_reducible first
    | exact Keeps.refl _ _ | assumption | refine Keeps.ite ?_ ?_ | refine recordUeAt_keeps ?_ | refine emit_keeps ?_ | dsimp only | split

theorem barRead_keeps {U : Nat} {s₀ : State} {n x len : Nat} {ue : List Nat} {s : State} (hk : Keeps U s₀ s) (hT : 0x38300000688002000000000800077f01003fc000000000000000000000000000000000000000000000000000000000000000000000000000000000000000000000000000000000000000000000000004205 ||| U = U := by decide) : Keeps U s₀ (barRead n x len ue s) := by
  refine Keeps.step ?_ hT hk
  clear hk hT; unfold barRead
  repeat' with_reducible first
    | exact Keeps.refl _ _ | assumption | refine Keeps.ite ?_ ?_ | refine barPart_keeps ?_ | refine countBytes_keeps ?_ | refine emit_keeps ?_
    | refine incSat_keeps ?_ | refine forS_keeps ?_ ?_ | dsimp only | intro _ | split

theorem winWrite_keeps {U : Nat} {s₀ : State} {n word : Nat} {s : State} (hk : Keeps U s₀ s) (hT : 0x3830000068800200000000010000000000000000000000000000000000000000000000000000000000000000000000000000000000000000000000000000000000000000000000000000000000000004005 ||| U = U := by decide) : Keeps U s₀ (winWrite n word s) := by
  refine Keeps.step ?_ hT hk
  clear hk hT; unfold winWrite
  repeat' with_reducible first
    | exact Keeps.refl _ _ | assumption | refine Keeps.ite ?_ ?_ | refine fltEvent_keeps ?_ | refine wr_keeps ?_ | split

theorem descCtrl_keeps {U : Nat} {s₀ : State} {n d word : Nat} {s : State} (hk : Keeps U s₀ s) (hT : 0x3830000068800200001e60000000000000000000000000000000000000000000000000000000000000000000000000000000000000000000000000000000000000000000000000000000000000000004025 ||| U = U := by decide) : Keeps U s₀ (descCtrl n d word s) := by
  refine Keeps.step ?_ hT hk
  clear hk hT; unfold descCtrl
  repeat' with_reducible first
    | exact Keeps.refl _ _ | assumption | refine Keeps.ite ?_ ?_ | refine setReserved_keeps ?_ | refine fltEvent_keeps ?_ | refine wrs_keeps ?_
    | dsimp only | split

theorem descProd_keeps {U : Nat} {s₀ : State} {n d v : Nat} {s : State} (hk : Keeps U s₀ s) (hT : 0x800200000200000000000000000000000000000000000000000000000000000000000000000000000000000000000000000000000000000000000000000000000000000000000000000004001 ||| U = U := by decide) : Keeps U s₀ (descProd n d v s) := by
  refine Keeps.step ?_ hT hk
  clear hk hT; unfold descProd
  repeat' with_reducible first
    | exact Keeps.refl _ _ | assumption | refine Keeps.ite ?_ ?_ | refine raiseInt_keeps ?_ | refine wr_keeps ?_ | split

theorem descCplCons_keeps {U : Nat} {s₀ : State} {n d v : Nat} {s : State} (hk : Keeps U s₀ s) (hT : 0x800200001000000000000000000000000000000000000000000000000000000000000000000000000000000000000000000000000000000000000000000000000000000000000000000004001 ||| U = U := by decide) : Keeps U s₀ (descCplCons n d v s) := by
  refine Keeps.step ?_ hT hk
  clear hk hT; unfold descCplCons
  repeat' with_reducible first
    | exact Keeps.refl _ _ | assumption | refine Keeps.ite ?_ ?_ | refine raiseInt_keeps ?_ | refine wr_keeps ?_ | dsimp only | split

theorem ringCtrl_keeps {U : Nat} {s₀ : State} {n r word : Nat} {s : State} (hk : Keeps U s₀ s) (hT : 0x3830000068800200c78000000000000000000000000000000000000000000000000000000000000000000000000000000000000000000000000000000000000000000000000000000000000000000004005 ||| U = U := by decide) : Keeps U s₀ (ringCtrl n r word s) := by
  refine Keeps.step ?_ hT hk
  clear hk hT; unfold ringCtrl
  repeat' with_reducible first
    | exact Keeps.refl _ _ | assumption
    | refine ringSpace_keeps ?_ | refine Keeps.ite ?_ ?_ | refine fltEvent_keeps ?_ | refine wrs_keeps ?_ | dsimp only | split
    | intro _

theorem ringWrWrite_keeps {U : Nat} {s₀ : State} {n r v : Nat} {s : State} (hk : Keeps U s₀ s) (hT : 0x3830020068800200400000000000000000000000000000000000000000000000000000000000000000000000000000000000000000000000000000000000000000000000000000000000000000000004005 ||| U = U := by decide) : Keeps U s₀ (ringWrWrite n r v s) := by
  refine Keeps.step ?_ hT hk
  clear hk hT; unfold ringWrWrite
  repeat' with_reducible first
    | exact Keeps.refl _ _ | assumption | refine Keeps.ite ?_ ?_ | refine writeLocked_keeps ?_ | refine raiseInt_keeps ?_ | refine wr_keeps ?_
    | dsimp only | split

theorem setFetch_keeps {U : Nat} {s₀ : State} {n r : Nat} {l : List FetchEnt} {on : Bool} {s : State} (hk : Keeps U s₀ s) (hT : 0x8000000000000000000000000000000000000000000000000000000000000000000000000000000000000000000000000000000000000000000000000000000000000000000000000401 ||| U = U := by decide) : Keeps U s₀ (setFetch n r l on s) := by
  refine Keeps.step ?_ hT hk
  clear hk hT; unfold setFetch
  repeat' with_reducible first
    | exact Keeps.refl _ _ | assumption | refine wr_keeps ?_ | dsimp only
    | (constructor <;> first | exact fun _ => rfl | exact fun _ _ => rfl | exact rfl | exact List.prefix_refl _ | exact Nat.le_refl _ | exact fun w => w | exact fun _ _ w => w | exact fun h => absurd h (by decide) | exact fun _ => ⟨fun _ _ => ⟨fun w => w, fun w => w⟩⟩)
    | refine Keeps.setHif ?_

theorem fetchPush_keeps {U : Nat} {s₀ : State} {n r len : Nat} {s : State} (hk : Keeps U s₀ s) (hT : 0x800208000000000000000000000000000000000000000000000000000000000000000000000000000000000000000000000000000000000000000000000000000000000000000000000004401 ||| U = U := by decide) : Keeps U s₀ (fetchPush n r len s) := by
  refine Keeps.step ?_ hT hk
  clear hk hT; unfold fetchPush
  repeat' with_reducible first
    | exact Keeps.refl _ _ | assumption | refine Keeps.ite ?_ ?_ | refine setFetch_keeps ?_ | refine raiseInt_keeps ?_ | dsimp only | intro _ | split

theorem msixUnmask_keeps {U : Nat} {s₀ : State} {n v : Nat} {s : State} (hk : Keeps U s₀ s) (hT : 0x300000000000000000000000000000000000000000000000000000000000000000000000000000000000000000000000000000000000000000000000000000000000000000000000004001 ||| U = U := by decide) : Keeps U s₀ (msixUnmask n v s) := by
  refine Keeps.step ?_ hT hk
  clear hk hT; unfold msixUnmask
  repeat' with_reducible first
    | exact Keeps.refl _ _ | assumption | refine Keeps.ite ?_ ?_ | refine emit_keeps ?_ | refine wr_keeps ?_ | dsimp only | split

theorem intClear_keeps {U : Nat} {s₀ : State} {p : Page} {word : Nat} {s : State} (hk : Keeps U s₀ s) (hT : 0x200000000000000000000000000000000000000000000000000000000000000000000000000000000000000000000000000000000000800200000000000000000000000000000000000000000000000000000000000000000000000000000000000000000000000000000000000000000000000000000000000000000000000004001 ||| U = U := by decide) : Keeps U s₀ (intClear p word s) := by
  refine Keeps.step ?_ hT hk
  clear hk hT; unfold intClear
  repeat' with_reducible first
    | exact Keeps.refl _ _ | assumption | refine reraise_keeps ?_ | refine wr_keeps ?_ | dsimp only

theorem intSet_keeps {U : Nat} {s₀ : State} {p : Page} {word : Nat} {s : State} (hk : Keeps U s₀ s) (hT : 0x800200000000000000000000000000000000000000000000000000000000000000000000000000000000000000000000000000000000000000000000000000000000000000000000000004001 ||| U = U := by decide) : Keeps U s₀ (intSet p word s) := by
  refine Keeps.step ?_ hT hk
  clear hk hT; unfold intSet
  repeat' with_reducible first
    | exact Keeps.refl _ _ | assumption | refine Keeps.ite ?_ ?_ | refine raiseInt_keeps ?_ | refine forS_keeps ?_ ?_ | intro _ | dsimp only | split

theorem forgetMaster_keeps {U : Nat} {s₀ : State} {m : Nat} {s : State} (hk : Keeps U s₀ s) (hT : 76 ||| U = U := by decide) : Keeps U s₀ (forgetMaster m s) := by
  refine Keeps.step ?_ hT hk
  clear hk hT
  unfold forgetMaster
  refine Keeps.step (T := 76) (x := clearSnaps s m) ?_ (by decide) (clearSnaps_keeps (Keeps.refl _ _) (by decide))
  constructor <;> first | exact rfl | exact List.prefix_refl _ | exact Nat.le_refl _ | exact fun w => w | exact fun _ _ w => w | exact fun _ => rfl | exact fun _ _ => rfl | exact fun h => absurd h (by decide) | exact fun _ => ⟨fun _ _ => ⟨fun w => w, fun w => w⟩⟩

theorem dropHeld_keeps {U : Nat} {s₀ : State} {n : Nat} {s : State} (hk : Keeps U s₀ s) (hT : busMask ||| U = U := by decide) : Keeps U s₀ (dropHeld n s) := by
  refine Keeps.step ?_ hT hk
  clear hk hT; unfold dropHeld
  repeat' with_reducible first
    | exact Keeps.refl _ _ | assumption
    | refine Keeps.setBus ?_ | dsimp only | intro _
    | (constructor <;> first | exact fun _ => rfl | exact fun _ _ => rfl | exact rfl | exact List.prefix_refl _ | exact Nat.le_refl _ | exact fun w => w | exact fun _ _ w => w | exact fun h => absurd h (by decide) | exact fun _ => ⟨fun _ _ => ⟨fun w => w, fun w => w⟩⟩)

theorem portQuiet_keeps {U : Nat} {s₀ : State} {n : Nat} {s : State} (hk : Keeps U s₀ s) (hT : (busMask ||| 0x8008032000000000000000000000000000000000000000000000000000000000000000000000000000000000000000000000000000000000000000000000000000000000000000000421) ||| U = U := by decide) : Keeps U s₀ (portQuiet n s) := by
  refine Keeps.step ?_ hT hk
  clear hk hT; unfold portQuiet
  repeat' with_reducible first
    | exact Keeps.refl _ _ | assumption
    | refine dropHeld_keeps ?_ | refine setFetch_keeps ?_ | refine setReserved_keeps ?_ | refine wrs_keeps ?_ | refine wr_keeps ?_
    | refine forS_keeps ?_ ?_ | dsimp only | intro _
    | (constructor <;> first | exact fun _ => rfl | exact fun _ _ => rfl | exact rfl | exact List.prefix_refl _ | exact Nat.le_refl _ | exact fun w => w | exact fun _ _ w => w | exact fun h => absurd h (by decide) | exact fun _ => ⟨fun _ _ => ⟨fun w => w, fun w => w⟩⟩)
    | refine Keeps.setPat ?_

theorem partQuiet_keeps {U : Nat} {s₀ : State} {n : Nat} {s : State} (hk : Keeps U s₀ s) (hT : 0x100000000800000000000000700000000f00000000000000000000000000000000000000000000000000000004801c000000001c9 ||| U = U := by decide) : Keeps U s₀ (partQuiet n s) := by
  refine Keeps.step ?_ hT hk
  clear hk hT; unfold partQuiet
  repeat' with_reducible first
    | exact Keeps.refl _ _ | assumption | refine Keeps.ite ?_ ?_ | refine auHalt_keeps ?_ | refine putPec_keeps ?_ | refine disarmChannel_keeps ?_
    | refine calAbortDue_keeps ?_ | refine disarmPulse_keeps ?_ | refine clearGo_keeps ?_ | refine wr_keeps ?_ | refine forS_keeps ?_ ?_ | dsimp only
    | intro _ | split
    | (constructor <;> first | exact fun _ => rfl | exact fun _ _ => rfl | exact rfl | exact List.prefix_refl _ | exact Nat.le_refl _ | exact fun w => w | exact fun _ _ w => w | exact fun h => absurd h (by decide) | exact fun _ => ⟨fun _ _ => ⟨fun w => w, fun w => w⟩⟩)
    | refine Keeps.setPin ?_

theorem partReset_keeps {U : Nat} {s₀ : State} {n : Nat} {s : State} (hk : Keeps U s₀ s) (hT : (busMask ||| 0x383000007880021c0088324000800000000000000000000000000000001000000008009f0000000000700000000f0160000010f000000000000002fc0000000000150000000000000004d01c000000045ed) ||| U = U := by decide) : Keeps U s₀ (partReset n s) := by
  refine Keeps.step ?_ hT hk
  clear hk hT; unfold partReset
  repeat' with_reducible first
    | exact Keeps.refl _ _ | assumption | refine partQuiet_keeps ?_ | refine portQuiet_keeps ?_ | refine forgetMaster_keeps ?_
    | refine deleteSite_keeps ?_ | refine safeSite_keeps ?_ | refine evlog_keeps ?_ | refine wr_keeps ?_ | refine forS_keeps ?_ ?_ | dsimp only
    | intro _

theorem linkDown_keeps {U : Nat} {s₀ : State} {n : Nat} {s : State} (hk : Keeps U s₀ s) (hT : 0xc040000000000000000000000000000000000000000000000000000000000000000000000000000000000000000000000000000000000000000000000000000000000000401 ||| U = U := by decide) : Keeps U s₀ (linkDown n s) := by
  refine Keeps.step ?_ hT hk
  clear hk hT; unfold linkDown
  repeat' with_reducible first
    | exact Keeps.refl _ _ | assumption | refine wrs_keeps ?_ | refine wr_keeps ?_ | dsimp only
    | (constructor <;> first | exact fun _ => rfl | exact fun _ _ => rfl | exact rfl | exact List.prefix_refl _ | exact Nat.le_refl _ | exact fun w => w | exact fun _ _ w => w | exact fun h => absurd h (by decide) | exact fun _ => ⟨fun _ _ => ⟨fun w => w, fun w => w⟩⟩)
    | refine Keeps.setHif ?_

theorem resetTimPart_keeps {U : Nat} {s₀ : State} {n : Nat} {s : State} (hk : Keeps U s₀ s) (hT : (anyField ||| parMask ||| 2053) ||| U = U := by decide) : Keeps U s₀ (resetTimPart n s) := by
  refine Keeps.step ?_ hT hk
  clear hk hT; unfold resetTimPart
  repeat' with_reducible first
    | exact Keeps.refl _ _ | assumption | refine resetPage_keeps ?_ | refine wrs_keeps ?_ (fun x _ => sub_trans (fldMask_any x.1) (by decide))
    | dsimp only

theorem resetBankEntries_keeps {U : Nat} {s₀ : State} {b : Nat} {s : State} (hk : Keeps U s₀ s) (hT : (anyField ||| 1) ||| U = U := by decide) : Keeps U s₀ (resetBankEntries b s) := by
  refine Keeps.step ?_ hT hk
  clear hk hT; unfold resetBankEntries
  repeat' with_reducible first
    | exact Keeps.refl _ _ | assumption | refine resetRange_keeps ?_ | dsimp only

theorem resetAuPage_keeps {U : Nat} {s₀ : State} {n u : Nat} {s : State} (hk : Keeps U s₀ s) (hT : (anyField ||| parMask ||| 2181) ||| U = U := by decide) : Keeps U s₀ (resetAuPage n u s) := by
  refine Keeps.step ?_ hT hk
  clear hk hT; unfold resetAuPage
  repeat' with_reducible first
    | exact Keeps.refl _ _ | assumption | refine Keeps.ite ?_ ?_ | refine resetPage_keeps ?_ | refine setAu_keeps ?_
    | refine wrb_keeps ?_ (sub_trans (fldMask_any _) (by decide)) | dsimp only | split

theorem partResetDone_keeps {U : Nat} {s₀ : State} {n : Nat} {s : State} (hk : Keeps U s₀ s) (hT : (anyField ||| parMask ||| 3301) ||| U = U := by decide) : Keeps U s₀ (partResetDone n s) := by
  refine Keeps.step ?_ hT hk
  clear hk hT; unfold partResetDone
  repeat' with_reducible first
    | exact Keeps.refl _ _ | assumption | refine Keeps.ite ?_ ?_ | refine resetAuPage_keeps ?_ | refine resetBankEntries_keeps ?_
    | refine resetTimPart_keeps ?_ | refine resetBank_keeps ?_ | refine resetPage_keeps ?_ | refine setLedger_keeps ?_
    | refine wr_keeps ?_ (sub_trans (fldMask_any _) (by decide)) | refine forS_keeps ?_ ?_ | dsimp only | intro _ | split
    | (constructor <;> first | exact fun _ => rfl | exact fun _ _ => rfl | exact rfl | exact List.prefix_refl _ | exact Nat.le_refl _ | exact fun w => w | exact fun _ _ w => w | exact fun h => absurd h (by decide) | exact fun _ => ⟨fun _ _ => ⟨fun w => w, fun w => w⟩⟩)
    | refine Keeps.setHif ?_

theorem execBankOwnerChange_keeps {m : Nat} {hi : Bool} {word : Nat} {s : State} {t' : State} (hx : execBankOwnerChange m hi word s = .next t') :
    Keeps (busMask ||| parMask ||| 0x3830000078a002140008005403200000000000000000000000000000000000000000009f0000000000700000000f0160000014f000000000000002fc0000000000150070000080000000500000000004575) s t' := by
  unfold execBankOwnerChange at hx; obtain rfl := Host.Outcome.next.inj hx
  repeat' with_reducible first
    | exact Keeps.refl _ _ | assumption
    | refine takeIn_keeps ?_ ?_ | refine Keeps.ite ?_ ?_ | refine mapWrite_keeps ?_ ?_ | refine bankOwnWrite_keeps ?_
    | refine asWriter_keeps ?_ ?_ | intro _ | split
    | dsimp only

theorem execBankMoveDone_keeps {b : Nat} {s : State} {t' : State} (hx : execBankMoveDone b s = .next t') :
    Keeps (anyField ||| parMask ||| 3173) s t' := by
  unfold execBankMoveDone at hx; obtain rfl := Host.Outcome.next.inj hx
  repeat' with_reducible first
    | exact Keeps.refl _ _ | assumption | refine Keeps.ite ?_ ?_ | refine resetBank_keeps ?_
    | refine wrb_keeps ?_ (sub_trans (fldMask_any _) (by decide)) | dsimp only | split
    | (constructor <;> first | exact fun _ => rfl | exact fun _ _ => rfl | exact rfl | exact List.prefix_refl _ | exact Nat.le_refl _ | exact fun w => w | exact fun _ _ w => w | exact fun h => absurd h (by decide) | exact fun _ => ⟨fun _ _ => ⟨fun w => w, fun w => w⟩⟩)
    | refine Keeps.setHif ?_

theorem execQuotaWrite_keeps {m word : Nat} {s : State} {t' : State} (hx : execQuotaWrite m word s = .next t') :
    Keeps (busMask ||| parMask ||| 0x3830000078a00200000000143c00000000000000000000000000000000000000000000000000000000000000000000000000040000000000000000000000000000000070000080000000000000000004257) s t' := by
  unfold execQuotaWrite at hx; obtain rfl := Host.Outcome.next.inj hx
  repeat' with_reducible first
    | exact Keeps.refl _ _ | assumption
    | refine takeIn_keeps ?_ ?_ | refine quotaWrite_keeps ?_ | refine mapWrite_keeps ?_ ?_ | refine asWriter_keeps ?_ ?_ | intro _
    | dsimp only

theorem execClearDone_keeps {n : Nat} {s : State} {t' : State} (hx : execClearDone n s = .next t') :
    Keeps 0x800200000000000000000000000000000000000000000000000000000000000000000000000000000000000000000000000000000000000000000000000000000000000000000000000004201 s t' := by
  unfold execClearDone at hx; obtain rfl := Host.Outcome.next.inj hx
  repeat' with_reducible first
    | exact Keeps.refl _ _ | assumption | refine Keeps.ite ?_ ?_ | refine raiseInt_keeps ?_ | dsimp only | split
    | (constructor <;> first | exact fun _ => rfl | exact fun _ _ => rfl | exact rfl | exact List.prefix_refl _ | exact Nat.le_refl _ | exact fun w => w | exact fun _ _ w => w | exact fun h => absurd h (by decide) | exact fun _ => ⟨fun _ _ => ⟨fun w => w, fun w => w⟩⟩)
    | refine Keeps.setMemc ⟨rfl, rfl⟩ ?_

theorem execBar2Write_keeps {n x : Nat} {data : List Nat} {ep : Bool} {s : State} {t' : State} (hx : execBar2Write n x data ep s = .next t') :
    Keeps (busMask ||| 0x38300000688002000000002800077f01003fc000000000000000000000000000000000000000000000000000000000000000000000000000000000000000000000000000000000000000000000000004207) s t' := by
  unfold execBar2Write at hx; obtain rfl := Host.Outcome.next.inj hx
  repeat' with_reducible first
    | exact Keeps.refl _ _ | assumption
    | refine takeIn_keeps ?_ ?_ | refine barWrite_keeps ?_
    | dsimp only | intro _

theorem execBar2Read_keeps {n x len : Nat} {ue : List Nat} {s : State} {t' : State} (hx : execBar2Read n x len ue s = .next t') :
    Keeps (busMask ||| 0x38300000688002000000000800077f01003fc000000000000000000000000000000000000000000000000000000000000000000000000000000000000000000000000000000000000000000000000004205) s t' := by
  unfold execBar2Read at hx; obtain rfl := Host.Outcome.next.inj hx
  repeat' with_reducible first
    | exact Keeps.refl _ _ | assumption
    | refine takeIn_keeps ?_ ?_ | refine barRead_keeps ?_
    | dsimp only | intro _

theorem execBar2Resize_keeps {n k : Nat} {s : State} {t' : State} (hx : execBar2Resize n k s = .next t') :
    Keeps 0x10000000000000000000000000000000000000000000000000000000000000000000000000000000000000000000000000000000000000000000000000000000000000000401 s t' := by
  unfold execBar2Resize at hx; obtain rfl := Host.Outcome.next.inj hx
  repeat' with_reducible first
    | exact Keeps.refl _ _ | assumption | refine Keeps.ite ?_ ?_ | refine wr_keeps ?_ | dsimp only | split
    | (constructor <;> first | exact fun _ => rfl | exact fun _ _ => rfl | exact rfl | exact List.prefix_refl _ | exact Nat.le_refl _ | exact fun w => w | exact fun _ _ w => w | exact fun h => absurd h (by decide) | exact fun _ => ⟨fun _ _ => ⟨fun w => w, fun w => w⟩⟩)
    | refine Keeps.setHif ?_

theorem execHifPWinWrite_keeps {m n word : Nat} {s : State} {t' : State} (hx : execHifPWinWrite m n word s = .next t') :
    Keeps (busMask ||| parMask ||| 0x3830000078a00200000000150000000000000000000000000000000000000000000000000000000000000000000000000000040000000000000000000000000000000070000080000000000000000004055) s t' := by
  unfold execHifPWinWrite at hx; obtain rfl := Host.Outcome.next.inj hx
  repeat' with_reducible first
    | exact Keeps.refl _ _ | assumption
    | refine takeIn_keeps ?_ ?_ | refine winWrite_keeps ?_ | refine asWriter_keeps ?_ ?_ | intro _
    | dsimp only

theorem execDescCtrlWrite_keeps {n d word : Nat} {s : State} {t' : State} (hx : execDescCtrlWrite n d word s = .next t') :
    Keeps (busMask ||| 0x3830000068800200001e60000000000000000000000000000000000000000000000000000000000000000000000000000000000000000000000000000000000000000000000000000000000000000004025) s t' := by
  unfold execDescCtrlWrite at hx; obtain rfl := Host.Outcome.next.inj hx
  repeat' with_reducible first
    | exact Keeps.refl _ _ | assumption
    | refine takeIn_keeps ?_ ?_ | refine bar4Access_keeps ?_ ?_ | refine Keeps.ite ?_ ?_ | refine descCtrl_keeps ?_ | refine whenS_keeps ?_ ?_ | intro _
    | dsimp only

theorem execDescProdWrite_keeps {n d v : Nat} {s : State} {t' : State} (hx : execDescProdWrite n d v s = .next t') :
    Keeps (busMask ||| 0x800200000200000000000000000000000000000000000000000000000000000000000000000000000000000000000000000000000000000000000000000000000000000000000000000004005) s t' := by
  unfold execDescProdWrite at hx; obtain rfl := Host.Outcome.next.inj hx
  repeat' with_reducible first
    | exact Keeps.refl _ _ | assumption
    | refine takeIn_keeps ?_ ?_ | refine bar4Access_keeps ?_ ?_ | refine Keeps.ite ?_ ?_ | refine descProd_keeps ?_ | refine whenS_keeps ?_ ?_ | intro _
    | dsimp only

theorem execDescCplConsWrite_keeps {n d v : Nat} {s : State} {t' : State} (hx : execDescCplConsWrite n d v s = .next t') :
    Keeps (busMask ||| 0x800200001000000000000000000000000000000000000000000000000000000000000000000000000000000000000000000000000000000000000000000000000000000000000000000004005) s t' := by
  unfold execDescCplConsWrite at hx; obtain rfl := Host.Outcome.next.inj hx
  repeat' with_reducible first
    | exact Keeps.refl _ _ | assumption
    | refine takeIn_keeps ?_ ?_ | refine bar4Access_keeps ?_ ?_ | refine Keeps.ite ?_ ?_ | refine descCplCons_keeps ?_ | refine whenS_keeps ?_ ?_ | intro _
    | dsimp only

theorem execRingCtrlWrite_keeps {n r word : Nat} {s : State} {t' : State} (hx : execRingCtrlWrite n r word s = .next t') :
    Keeps (busMask ||| 0x3830000068800200c78000000000000000000000000000000000000000000000000000000000000000000000000000000000000000000000000000000000000000000000000000000000000000000004005) s t' := by
  unfold execRingCtrlWrite at hx; obtain rfl := Host.Outcome.next.inj hx
  repeat' with_reducible first
    | exact Keeps.refl _ _ | assumption
    | refine takeIn_keeps ?_ ?_ | refine bar4Access_keeps ?_ ?_ | refine Keeps.ite ?_ ?_ | refine ringCtrl_keeps ?_ | refine whenS_keeps ?_ ?_ | intro _
    | dsimp only

theorem execRingWrWrite_keeps {n r v : Nat} {s : State} {t' : State} (hx : execRingWrWrite n r v s = .next t') :
    Keeps (busMask ||| 0x3830020068800200400000000000000000000000000000000000000000000000000000000000000000000000000000000000000000000000000000000000000000000000000000000000000000000004005) s t' := by
  unfold execRingWrWrite at hx; obtain rfl := Host.Outcome.next.inj hx
  repeat' with_reducible first
    | exact Keeps.refl _ _ | assumption
    | refine takeIn_keeps ?_ ?_ | refine bar4Access_keeps ?_ ?_ | refine Keeps.ite ?_ ?_ | refine ringWrWrite_keeps ?_ | refine whenS_keeps ?_ ?_ | intro _
    | dsimp only

theorem execRingFetchPush_keeps {n r len : Nat} {s : State} {t' : State} (hx : execRingFetchPush n r len s = .next t') :
    Keeps (busMask ||| 0x800208000000000000000000000000000000000000000000000000000000000000000000000000000000000000000000000000000000000000000000000000000000000000000000000004405) s t' := by
  unfold execRingFetchPush at hx; obtain rfl := Host.Outcome.next.inj hx
  repeat' with_reducible first
    | exact Keeps.refl _ _ | assumption
    | refine takeIn_keeps ?_ ?_ | refine bar4Access_keeps ?_ ?_ | refine Keeps.ite ?_ ?_ | refine fetchPush_keeps ?_ | refine whenS_keeps ?_ ?_ | intro _
    | dsimp only

theorem execRingFetchStart_keeps {n r : Nat} {s : State} {t' : State} (hx : execRingFetchStart n r s = .next t') :
    Keeps 0x8000000000000000000000000000000000000000000000000000000000000000000000000000000000000000000000000000000000000000000000000000000000000000000000000401 s t' := by
  unfold execRingFetchStart at hx; obtain rfl := Host.Outcome.next.inj hx
  repeat' with_reducible first
    | exact Keeps.refl _ _ | assumption | refine Keeps.ite ?_ ?_ | refine setFetch_keeps ?_ | dsimp only | split

theorem execRingFetchDone_keeps {n r : Nat} {data : List Nat} {s : State} {t' : State} (hx : execRingFetchDone n r data s = .next t') :
    Keeps 0x38300000688002084000000000077f01003fc000000000000000000000000000000000000000000000000000000000000000000000000000000000000000000000000000000000000000000000000004607 s t' := by
  unfold execRingFetchDone at hx; obtain rfl := Host.Outcome.next.inj hx
  repeat' with_reducible first
    | exact Keeps.refl _ _ | assumption | refine Keeps.ite ?_ ?_ | refine setFetch_keeps ?_ | refine writeBytes_keeps ?_ | refine addWrap_keeps ?_
    | dsimp only | split

theorem execDmaErr_keeps {n : Nat} {stream : Bool} {k : Nat} {s : State} {t' : State} (hx : execDmaErr n stream k s = .next t') :
    Keeps 0x383000006880020a00a020000000000000000000000000000000000000000000000000000000000000000000000000000000000000000000000000000000000000000000000000000000000000000004405 s t' := by
  unfold execDmaErr at hx; obtain rfl := Host.Outcome.next.inj hx
  repeat' with_reducible first
    | exact Keeps.refl _ _ | assumption | refine Keeps.ite ?_ ?_ | refine setFetch_keeps ?_ | refine fltEvent_keeps ?_ | refine raiseInt_keeps ?_
    | refine wrs_keeps ?_ | dsimp only | split

theorem execMsixUnmask_keeps {n v : Nat} {s : State} {t' : State} (hx : execMsixUnmask n v s = .next t') :
    Keeps (busMask ||| 0x300000000000000000000000000000000000000000000000000000000000000000000000000000000000000000000000000000000000000000000000000000000000000000000000004005) s t' := by
  unfold execMsixUnmask at hx; obtain rfl := Host.Outcome.next.inj hx
  repeat' with_reducible first
    | exact Keeps.refl _ _ | assumption
    | refine takeIn_keeps ?_ ?_ | refine bar4Access_keeps ?_ ?_ | refine Keeps.ite ?_ ?_ | refine msixUnmask_keeps ?_ | refine whenS_keeps ?_ ?_ | intro _
    | dsimp only

theorem execIntRawClear_keeps {m addr word : Nat} {s : State} {t' : State} (hx : execIntRawClear m addr word s = .next t') :
    Keeps (busMask ||| parMask ||| 0x200000000000000000000000000000000000000000000000000000000000000000000000000000000000000000000000003830000078a00200000000140000000000000000000000000000000000000000000000000000000000000000000000000000040000000000000000000000000000000070000080000000000000000004055) s t' := by
  unfold execIntRawClear at hx; obtain rfl := Host.Outcome.next.inj hx
  repeat' with_reducible first
    | exact Keeps.refl _ _ | assumption
    | refine takeIn_keeps ?_ ?_ | refine intClear_keeps ?_ | refine asWriter_keeps ?_ ?_ | intro _ | split
    | dsimp only

theorem execIntSetWrite_keeps {m addr word : Nat} {s : State} {t' : State} (hx : execIntSetWrite m addr word s = .next t') :
    Keeps (busMask ||| parMask ||| 0x3830000078a00200000000140000000000000000000000000000000000000000000000000000000000000000000000000000040000000000000000000000000000000070000080000000000000000004055) s t' := by
  unfold execIntSetWrite at hx; obtain rfl := Host.Outcome.next.inj hx
  repeat' with_reducible first
    | exact Keeps.refl _ _ | assumption
    | refine takeIn_keeps ?_ ?_ | refine intSet_keeps ?_ | refine asWriter_keeps ?_ ?_ | intro _ | split
    | dsimp only

theorem execPartitionReset_keeps {n cause : Nat} {s : State} {t' : State} (hx : execPartitionReset n cause s = .next t') :
    Keeps (busMask ||| 0x383000007880021c00883240c0c00000000000000000000000000000001000000008009f0000000000700000000f0160000010f000000000000002fc0000000000150000000000000004d01c000000045ed) s t' := by
  unfold execPartitionReset at hx; obtain rfl := Host.Outcome.next.inj hx
  repeat' with_reducible first
    | exact Keeps.refl _ _ | assumption | refine Keeps.ite ?_ ?_ | refine linkDown_keeps ?_ | refine partReset_keeps ?_ | split

theorem execPartitionResetDone_keeps {n : Nat} {s : State} {t' : State} (hx : execPartitionResetDone n s = .next t') :
    Keeps (anyField ||| parMask ||| 3301) s t' := by
  unfold execPartitionResetDone at hx; obtain rfl := Host.Outcome.next.inj hx
  repeat' with_reducible first
    | exact Keeps.refl _ _ | assumption | refine partResetDone_keeps ?_

theorem execPcieLinkTrainingStart_keeps {pin : PortPin} {s : State} {t' : State} (hx : execPcieLinkTrainingStart pin s = .next t') :
    Keeps 1024 s t' := by
  unfold execPcieLinkTrainingStart at hx; obtain rfl := Host.Outcome.next.inj hx
  repeat' with_reducible first
    | exact Keeps.refl _ _ | assumption | refine Keeps.ite ?_ ?_ | split
    | (constructor <;> first | exact fun _ => rfl | exact fun _ _ => rfl | exact rfl | exact List.prefix_refl _ | exact Nat.le_refl _ | exact fun w => w | exact fun _ _ w => w | exact fun h => absurd h (by decide) | exact fun _ => ⟨fun _ _ => ⟨fun w => w, fun w => w⟩⟩)
    | refine Keeps.setHif ?_

theorem linkUp_keeps {U : Nat} {s₀ : State} {n speed width : Nat} {s : State} (hk : Keeps U s₀ s) (hT : 0xc040000000000000000000000000000000000000000000000000000000000000000000000000000000000000000000000000000000000000000000000000000000000004401 ||| U = U := by decide) : Keeps U s₀ (linkUp n speed width s) := by
  refine Keeps.step ?_ hT hk
  clear hk hT; unfold linkUp
  repeat' with_reducible first
    | exact Keeps.refl _ _ | assumption
    | refine wrs_keeps ?_ | refine wr_keeps ?_ | refine emit_keeps ?_ | refine Keeps.ite ?_ ?_ | refine Keeps.setHif ?_ | dsimp only | intro _ | split
    | (constructor <;> first | exact fun _ => rfl | exact fun _ _ => rfl | exact rfl | exact List.prefix_refl _ | exact Nat.le_refl _ | exact fun w => w | exact fun _ _ w => w | exact fun h => absurd h (by decide) | exact fun _ => ⟨fun _ _ => ⟨fun w => w, fun w => w⟩⟩)

theorem execDataLinkUp_keeps {n speed width : Nat} {s : State} {t' : State} (hx : execDataLinkUp n speed width s = .next t') :
    Keeps 0xc040000000000000000000000000000000000000000000000000000000000000000000000000000000000000000000000000000000000000000000000000000000000004401 s t' := by
  unfold execDataLinkUp at hx; obtain rfl := Host.Outcome.next.inj hx
  repeat' with_reducible first
    | exact Keeps.refl _ _ | assumption
    | refine linkUp_keeps ?_ | refine emit_keeps ?_ | refine Keeps.ite ?_ ?_ | refine wrs_keeps ?_ | refine wr_keeps ?_ | dsimp only
    | (constructor <;> first | exact fun _ => rfl | exact fun _ _ => rfl | exact rfl | exact List.prefix_refl _ | exact Nat.le_refl _ | exact fun w => w | exact fun _ _ w => w | exact fun h => absurd h (by decide) | exact fun _ => ⟨fun _ _ => ⟨fun w => w, fun w => w⟩⟩)
    | refine Keeps.setHif ?_ | intro _ | split

end Sys2Proof.Machine
end

