-- ==== Sys2Proof/Laws/Link.lean ====
section
/-! SUPPORT. What the operations and commands of Machine/Link.lean keep, and the components of the state they may write (Laws/Keeps.lean). -/

set_option exponentiation.threshold 2000

set_option Elab.async false

namespace Sys2Proof.Machine

open Sys2Proof

theorem roleStart_keeps {U : Nat} {s₀ : State} {n : Nat} {s : State} (hk : Keeps U s₀ s) (hT : 0x3830000078800200000000000000000000000000000000000000000000000000000000000000000000000000000000000000000000000000000000000000000000000000000100000000000000000004015 ||| U = U := by decide) : Keeps U s₀ (roleStart n s) := by
  refine Keeps.step ?_ hT hk
  clear hk hT; unfold roleStart
  repeat' with_reducible first
    | exact Keeps.refl _ _ | assumption | refine Keeps.ite ?_ ?_ | refine setTport_keeps ?_ | refine setLive_keeps ?_ | refine wr_keeps ?_
    | dsimp only | intro _ | split

theorem movePort_keeps {U : Nat} {s₀ : State} {n : Nat} {s : State} (hk : Keeps U s₀ s) (hT : 0x3830000078800200000000000000000000000000000000000000000000000000000000000000000000000000000000000000000000000000000000000000000000000070000080000000000000000004015 ||| U = U := by decide) : Keeps U s₀ (movePort n s) := by
  refine Keeps.step ?_ hT hk
  clear hk hT; unfold movePort
  repeat' with_reducible first
    | exact Keeps.refl _ _ | assumption | refine Keeps.ite ?_ ?_ | refine beginSearch_keeps ?_ | dsimp only | intro _ | split

theorem movePorts_keeps {U : Nat} {s₀ : State} {s : State} (hk : Keeps U s₀ s) (hT : 0x3830000078800200000000000000000000000000000000000000000000000000000000000000000000000000000000000000000000000000000000000000000000000070000080000000000000000004015 ||| U = U := by decide) : Keeps U s₀ (movePorts s) := by
  refine Keeps.step ?_ hT hk
  clear hk hT; unfold movePorts
  repeat' with_reducible first
    | exact Keeps.refl _ _ | assumption | refine Keeps.ite ?_ ?_ | refine movePort_keeps ?_ | dsimp only | intro _ | split

theorem enterLocked_keeps {U : Nat} {s₀ : State} {s : State} {n : Nat} (hk : Keeps U s₀ s) (hT : 0x3830000078800200000000000000000000000000000000000000000000000000000000000000000000000000000000000000000000000000000000000000000000000000000080000000000000000004015 ||| U = U := by decide) : Keeps U s₀ (enterLocked s n) := by
  refine Keeps.step ?_ hT hk
  clear hk hT; unfold enterLocked
  repeat' with_reducible first
    | exact Keeps.refl _ _ | assumption | refine endLinkConditions_keeps ?_ | refine setTport_keeps ?_ | refine wr_keeps ?_ | dsimp only

theorem masterLost_keeps {U : Nat} {s₀ : State} {s : State} (hk : Keeps U s₀ s) (hT : 0x3830000078800200000000000000000000000000000000000000000000000000000000000000000000000000000000000000000000000000000000000000000000000000000100000000000000000004015 ||| U = U := by decide) : Keeps U s₀ (masterLost s) := by
  refine Keeps.step ?_ hT hk
  clear hk hT; unfold masterLost
  repeat' with_reducible first
    | exact Keeps.refl _ _ | assumption | refine Keeps.ite ?_ ?_ | refine setTport_keeps ?_ | refine setLiveInt_keeps ?_ | refine wr_keeps ?_
    | dsimp only | split

theorem freezeLane_keeps {U : Nat} {s₀ : State} {s : State} {l : Nat} (hk : Keeps U s₀ s) (hT : 0x800200000000000000000000000000000000000000000000000000000000000000000000000000000000000000000000000000000000000000000000000040000000000000000000000004011 ||| U = U := by decide) : Keeps U s₀ (freezeLane s l) := by
  refine Keeps.step ?_ hT hk
  clear hk hT; unfold freezeLane
  repeat' with_reducible first
    | exact Keeps.refl _ _ | assumption | refine Keeps.ite ?_ ?_ | refine setTlane_keeps ?_ | refine raiseInt_keeps ?_ | refine wrb_keeps ?_ | split

theorem portCtrlWrite_keeps {U : Nat} {s₀ : State} {n dm : Nat} {nopart en : Bool} {s : State} (hk : Keeps U s₀ s) (hT : 0x38300000788002000000000000000000000000000000000000000000000000000000000000000000000000000000000000000000000000000000000000000000000000700001f0000000000000000004015 ||| U = U := by decide) : Keeps U s₀ (portCtrlWrite n dm nopart en s) := by
  refine Keeps.step ?_ hT hk
  clear hk hT; unfold portCtrlWrite
  repeat' with_reducible first
    | exact Keeps.refl _ _ | assumption | refine Keeps.ite ?_ ?_ | refine beginSearch_keeps ?_ | refine setTport_keeps ?_ | refine setLive_keeps ?_
    | refine fltEvent_keeps ?_ | refine wrs_keeps ?_ | refine wr_keeps ?_ | dsimp only | intro _ | split

theorem tlkCtrlWrite_keeps {U : Nat} {s₀ : State} {word : Nat} {s : State} (hk : Keeps U s₀ s) (hT : 0x383000007880020000000000000000000000000000000000000000000000000000000000000000000000000000000000000000000000000000000000000000000000000000010001e000000000000004015 ||| U = U := by decide) : Keeps U s₀ (tlkCtrlWrite word s) := by
  refine Keeps.step ?_ hT hk
  clear hk hT; unfold tlkCtrlWrite
  repeat' with_reducible first
    | exact Keeps.refl _ _ | assumption | refine roleStart_keeps ?_ | refine Keeps.ite ?_ ?_ | refine fltEvent_keeps ?_ | refine wrs_keeps ?_
    | refine wr_keeps ?_ | refine forS_keeps ?_ ?_ | dsimp only | intro _ | split

theorem intvWrite_keeps {U : Nat} {s₀ : State} {n word : Nat} {s : State} (hk : Keeps U s₀ s) (hT : 0x3830000068800200000000000000000000000000000000000000000000000000000000000000000000000000000000000000000000000000000000000000000000000000003c00000000000000000004005 ||| U = U := by decide) : Keeps U s₀ (intvWrite n word s) := by
  refine Keeps.step ?_ hT hk
  clear hk hT; unfold intvWrite
  repeat' with_reducible first
    | exact Keeps.refl _ _ | assumption | refine Keeps.ite ?_ ?_ | refine fltEvent_keeps ?_ | refine wrs_keeps ?_ | dsimp only | split

theorem blockLockEffect_keeps {U : Nat} {s₀ : State} {l : Nat} {s : State} (hk : Keeps U s₀ s) (hT : 0x3830000078800200000000000000000000000000000000000000000000000000000000000000000000000000000000000000000000000000000000000000000000000010000080000000000000000004015 ||| U = U := by decide) : Keeps U s₀ (blockLockEffect l s) := by
  refine Keeps.step ?_ hT hk
  clear hk hT; unfold blockLockEffect
  repeat' with_reducible first
    | exact Keeps.refl _ _ | assumption | refine Keeps.ite ?_ ?_ | refine enterLocked_keeps ?_ | refine wrb_keeps ?_ | dsimp only | split

theorem noPartnerEffect_keeps {U : Nat} {s₀ : State} {n : Nat} {s : State} (hk : Keeps U s₀ s) (hT : 0x3830000078800200000000000000000000000000000000000000000000000000000000000000000000000000000000000000000000000000000000000000000000000000000080000000000000000004015 ||| U = U := by decide) : Keeps U s₀ (noPartnerEffect n s) := by
  refine Keeps.step ?_ hT hk
  clear hk hT; unfold noPartnerEffect
  repeat' with_reducible first
    | exact Keeps.refl _ _ | assumption | refine Keeps.ite ?_ ?_ | refine setTport_keeps ?_ | refine setLive_keeps ?_ | refine raiseInt_keeps ?_
    | refine wr_keeps ?_ | dsimp only | split

theorem adaptRestartEffect_keeps {U : Nat} {s₀ : State} {n : Nat} {s : State} (hk : Keeps U s₀ s) (hT : 0x400000000000000000000000011 ||| U = U := by decide) : Keeps U s₀ (adaptRestartEffect n s) := by
  refine Keeps.step ?_ hT hk
  clear hk hT; unfold adaptRestartEffect
  repeat' with_reducible first
    | exact Keeps.refl _ _ | assumption | refine Keeps.ite ?_ ?_ | refine setTlane_keeps ?_ | refine setTport_keeps ?_ | refine incSat_keeps ?_
    | dsimp only | split

theorem lockLossEffect_keeps {U : Nat} {s₀ : State} {l : Nat} {s : State} (hk : Keeps U s₀ s) (hT : 0x3830000078800200000000000000000000000000000000000000000000000000000000000000000000000000000000000000000000000000000000000000000000000070000180000000000000000004015 ||| U = U := by decide) : Keeps U s₀ (lockLossEffect l s) := by
  refine Keeps.step ?_ hT hk
  clear hk hT; unfold lockLossEffect
  repeat' with_reducible first
    | exact Keeps.refl _ _ | assumption | refine Keeps.ite ?_ ?_ | refine freezeLane_keeps ?_ | refine masterLost_keeps ?_
    | refine beginSearch_keeps ?_ | refine setTlane_keeps ?_ | refine setTport_keeps ?_ | refine setLiveInt_keeps ?_ | refine wrb_keeps ?_
    | dsimp only | split

theorem hiBerEffect_keeps {U : Nat} {s₀ : State} {l : Nat} {s : State} (hk : Keeps U s₀ s) (hT : 0x3830000078800200000000000000000000000000000000000000000000000000000000000000000000000000000000000000000000000000000000000000000000000070000080000000000000000006015 ||| U = U := by decide) : Keeps U s₀ (hiBerEffect l s) := by
  refine Keeps.step ?_ hT hk
  clear hk hT; unfold hiBerEffect
  repeat' with_reducible first
    | exact Keeps.refl _ _ | assumption | refine wearNote_keeps ?_ | refine Keeps.ite ?_ ?_ | refine movePort_keeps ?_ | refine setTport_keeps ?_
    | refine setLiveInt_keeps ?_ | refine wrb_keeps ?_ | refine wr_keeps ?_ | dsimp only | intro _ | split

theorem hiBerClearEffect_keeps {U : Nat} {s₀ : State} {l : Nat} {s : State} (hk : Keeps U s₀ s) (hT : 0x3830000078800200000000000000000000000000000000000000000000000000000000000000000000000000000000000000000000000000000000000000000000000020000080000000000000000004015 ||| U = U := by decide) : Keeps U s₀ (hiBerClearEffect l s) := by
  refine Keeps.step ?_ hT hk
  clear hk hT; unfold hiBerClearEffect
  repeat' with_reducible first
    | exact Keeps.refl _ _ | assumption | refine Keeps.ite ?_ ?_ | refine enterLocked_keeps ?_ | refine setLive_keeps ?_ | refine wrb_keeps ?_
    | dsimp only | split

theorem txeqEffect_keeps {U : Nat} {s₀ : State} {l word : Nat} {s : State} (hk : Keeps U s₀ s) (hT : 0x3830000068800200000000000000000000000000000000000000000000000000000000000000000000000000000000000000000000000000000000000000000000000003800000000000000000000004005 ||| U = U := by decide) : Keeps U s₀ (txeqEffect l word s) := by
  refine Keeps.step ?_ hT hk
  clear hk hT; unfold txeqEffect
  repeat' with_reducible first
    | exact Keeps.refl _ _ | assumption | refine Keeps.ite ?_ ?_ | refine fltEvent_keeps ?_ | refine wrs_keeps ?_ | dsimp only | split

theorem adaptFreezeEffect_keeps {U : Nat} {s₀ : State} {l density : Nat} {s : State} (hk : Keeps U s₀ s) (hT : 0x8002000000000000000000000000000000000000000000000000000000000000000000000000000000000000000000000000000000000000000000000000c0000000000000000000000004011 ||| U = U := by decide) : Keeps U s₀ (adaptFreezeEffect l density s) := by
  refine Keeps.step ?_ hT hk
  clear hk hT; unfold adaptFreezeEffect
  repeat' with_reducible first
    | exact Keeps.refl _ _ | assumption | refine Keeps.ite ?_ ?_ | refine freezeLane_keeps ?_ | refine wr_keeps ?_ | dsimp only | split

theorem adaptResumeEffect_keeps {U : Nat} {s₀ : State} {l density : Nat} {s : State} (hk : Keeps U s₀ s) (hT : 0xc0000000000000000000000000001 ||| U = U := by decide) : Keeps U s₀ (adaptResumeEffect l density s) := by
  refine Keeps.step ?_ hT hk
  clear hk hT; unfold adaptResumeEffect
  repeat' with_reducible first
    | exact Keeps.refl _ _ | assumption | refine Keeps.ite ?_ ?_ | refine wrb_keeps ?_ | refine wr_keeps ?_ | dsimp only | split

theorem rxCtrlWrite_keeps {U : Nat} {s₀ : State} {l : Nat} {freeze preset : Bool} {s : State} (hk : Keeps U s₀ s) (hT : 0x800200000000000000000000000000000000000000000000000000000000000000000000000000000000000000000000000000000000000000000000000044000000000000000000000004011 ||| U = U := by decide) : Keeps U s₀ (rxCtrlWrite l freeze preset s) := by
  refine Keeps.step ?_ hT hk
  clear hk hT; unfold rxCtrlWrite
  repeat' with_reducible first
    | exact Keeps.refl _ _ | assumption | refine Keeps.ite ?_ ?_ | refine freezeLane_keeps ?_ | refine setTlane_keeps ?_ | refine wrb_keeps ?_
    | dsimp only | split

theorem prbsWrite_keeps {U : Nat} {s₀ : State} {l word : Nat} {s : State} (hk : Keeps U s₀ s) (hT : 0x3830000078800200000000000000000000000000000000000000000000000000000000000000000000000000000000000000000000000000000000000000000000001b70000080000000000000000004015 ||| U = U := by decide) : Keeps U s₀ (prbsWrite l word s) := by
  refine Keeps.step ?_ hT hk
  clear hk hT; unfold prbsWrite
  repeat' with_reducible first
    | exact Keeps.refl _ _ | assumption | refine Keeps.ite ?_ ?_ | refine beginSearch_keeps ?_ | refine fltEvent_keeps ?_ | refine emit_keeps ?_
    | refine wrb_keeps ?_ | refine wrs_keeps ?_ | dsimp only | split

theorem addPrbsErrs_keeps {U : Nat} {s₀ : State} {l errs : Nat} {s : State} (hk : Keeps U s₀ s) (hT : 0x2000000000000000000000000000001 ||| U = U := by decide) : Keeps U s₀ (addPrbsErrs l errs s) := by
  refine Keeps.step ?_ hT hk
  clear hk hT; unfold addPrbsErrs
  repeat' with_reducible first
    | exact Keeps.refl _ _ | assumption | refine Keeps.ite ?_ ?_ | refine addSat_keeps ?_ | split

theorem prbsErrRead_keeps {U : Nat} {s₀ : State} {m l errs : Nat} {s : State} (hk : Keeps U s₀ s) (hT : 0x2000000000000000000000000004001 ||| U = U := by decide) : Keeps U s₀ (prbsErrRead m l errs s) := by
  refine Keeps.step ?_ hT hk
  clear hk hT; unfold prbsErrRead
  repeat' with_reducible first
    | exact Keeps.refl _ _ | assumption | refine Keeps.ite ?_ ?_ | refine addPrbsErrs_keeps ?_ | refine emit_keeps ?_ | refine wr_keeps ?_
    | dsimp only | split

theorem dropDone_keeps {U : Nat} {s₀ : State} {n : Nat} {tx : Bool} {s : State} (hk : Keeps U s₀ s) (hT : 8192 ||| U = U := by decide) : Keeps U s₀ (dropDone n tx s) := by
  refine Keeps.step ?_ hT hk
  clear hk hT; unfold dropDone
  repeat' with_reducible first
    | exact Keeps.refl _ _ | assumption
    | (constructor <;> first | exact fun _ => rfl | exact fun _ _ => rfl | exact rfl | exact List.prefix_refl _ | exact Nat.le_refl _ | exact fun w => w | exact fun _ _ w => w | exact fun h => absurd h (by decide) | exact fun _ => ⟨fun _ _ => ⟨fun w => w, fun w => w⟩⟩)
    | refine Keeps.setLcs ⟨rfl, rfl⟩ ?_

theorem sendFrame_keeps {U : Nat} {s₀ : State} {s : State} {n : Nat} {f : TxFrame} (hk : Keeps U s₀ s) (hT : 24576 ||| U = U := by decide) : Keeps U s₀ (sendFrame s n f) := by
  refine Keeps.step ?_ hT hk
  clear hk hT; unfold sendFrame
  repeat' with_reducible first
    | exact Keeps.refl _ _ | assumption | refine Keeps.ite ?_ ?_ | refine dropDone_keeps ?_ | refine emit_keeps ?_ | split

theorem received_keeps {U : Nat} {s₀ y : State} {n ty : Nat} {f : State → State} (hf : ∀ x, Keeps U x (f x)) (h : Keeps U s₀ y) (hU : 8192 ||| U = U := by decide) : Keeps U s₀ (received n ty f y) := by
  have hf' : ∀ {a x}, Keeps U a x → Keeps U a (f x) := fun k => Keeps.step (hf ..) (Nat.or_self U) k
  unfold received
  repeat' with_reducible first
    | exact Keeps.refl _ _ | assumption | refine hf' ?_ | refine Keeps.ite ?_ ?_ | refine dropDone_keeps ?_ (sub_trans (by decide) hU) | split

theorem frameEffect_keeps {U : Nat} {s₀ : State} {n : Nat} {f : RxFrame} {s : State} (hk : Keeps U s₀ s) (hT : 0x80000000000000000000000011 ||| U = U := by decide) : Keeps U s₀ (frameEffect n f s) := by
  refine Keeps.step ?_ hT hk
  clear hk hT; unfold frameEffect
  repeat' with_reducible first
    | exact Keeps.refl _ _ | assumption | refine Keeps.ite ?_ ?_ | refine setTport_keeps ?_ | refine incSat_keeps ?_ | dsimp only | intro _ | split

theorem eventSent_keeps {U : Nat} {s₀ : State} {n ty : Nat} {s : State} (hk : Keeps U s₀ s) (hT : 8192 ||| U = U := by decide) : Keeps U s₀ (eventSent n ty s) := by
  refine Keeps.step ?_ hT hk
  clear hk hT; unfold eventSent
  repeat' with_reducible first
    | exact Keeps.refl _ _ | assumption
    | refine Keeps.ite ?_ ?_ | refine Keeps.setLcs ⟨rfl, rfl⟩ ?_ | dsimp only | intro _ | split
    | (constructor <;> first | exact fun _ => rfl | exact fun _ _ => rfl | exact rfl | exact List.prefix_refl _ | exact Nat.le_refl _ | exact fun w => w | exact fun _ _ w => w | exact fun h => absurd h (by decide) | exact fun _ => ⟨fun _ _ => ⟨fun w => w, fun w => w⟩⟩)

theorem servoStep_keeps {U : Nat} {s₀ : State} {s : State} (hk : Keeps U s₀ s) (hT : 0x3830000068800200000000000000000000000000000000000000000000000000000000000000000000000000000000000000000000000000000000000000000000000000000000000000001c3c000004015 ||| U = U := by decide) : Keeps U s₀ (servoStep s) := by
  refine Keeps.step ?_ hT hk
  clear hk hT; unfold servoStep
  repeat' with_reducible first
    | exact Keeps.refl _ _ | assumption | refine Keeps.ite ?_ ?_ | refine goEffect_keeps ?_ | refine wrs_keeps ?_ | dsimp only | split
    | (constructor <;> first | exact fun _ => rfl | exact fun _ _ => rfl | exact rfl | exact List.prefix_refl _ | exact Nat.le_refl _ | exact fun w => w | exact fun _ _ w => w | exact fun h => absurd h (by decide) | exact fun _ => ⟨fun _ _ => ⟨fun w => w, fun w => w⟩⟩)
    | refine Keeps.setTlk ?_

theorem offsetNew_keeps {U : Nat} {s₀ : State} {n : Nat} {off mpd : Int} {s : State} (hk : Keeps U s₀ s) (hT : 0x3830000068800200000000000000000000000000000000000000000000000000000000000000000000000000000000000000000000000000000000000000000000000000018100000000001c3c000004015 ||| U = U := by decide) : Keeps U s₀ (offsetNew n off mpd s) := by
  refine Keeps.step ?_ hT hk
  clear hk hT; unfold offsetNew
  repeat' with_reducible first
    | exact Keeps.refl _ _ | assumption | refine Keeps.ite ?_ ?_ | refine servoStep_keeps ?_ | refine setTport_keeps ?_ | refine raiseInt_keeps ?_
    | refine wrs_keeps ?_ | refine wr_keeps ?_ | dsimp only | split

theorem tryOffset_keeps {U : Nat} {s₀ : State} {n : Nat} {s : State} (hk : Keeps U s₀ s) (hT : 0x3830000068800200000000000000000000000000000000000000000000000000000000000000000000000000000000000000000000000000000000000000000000000000018100000000001c3c000004015 ||| U = U := by decide) : Keeps U s₀ (tryOffset n s) := by
  refine Keeps.step ?_ hT hk
  clear hk hT; unfold tryOffset
  repeat' with_reducible first
    | exact Keeps.refl _ _ | assumption | refine Keeps.ite ?_ ?_ | refine offsetNew_keeps ?_ | refine setTport_keeps ?_ | dsimp only | split

theorem seqMismatch_keeps {U : Nat} {s₀ : State} {s : State} {n : Nat} (hk : Keeps U s₀ s) (hT : 0x100000000000000000000000001 ||| U = U := by decide) : Keeps U s₀ (seqMismatch s n) := by
  refine Keeps.step ?_ hT hk
  clear hk hT; unfold seqMismatch
  repeat' with_reducible first
    | exact Keeps.refl _ _ | assumption | refine incSat_keeps ?_

theorem dmMismatch_keeps {U : Nat} {s₀ : State} {s : State} {n : Nat} (hk : Keeps U s₀ s) (hT : 0x200000000000000000000000001 ||| U = U := by decide) : Keeps U s₀ (dmMismatch s n) := by
  refine Keeps.step ?_ hT hk
  clear hk hT; unfold dmMismatch
  repeat' with_reducible first
    | exact Keeps.refl _ _ | assumption | refine incSat_keeps ?_

theorem syncEffect_keeps {U : Nat} {s₀ : State} {n : Nat} {g : PtpMsg} {s : State} (hk : Keeps U s₀ s) (hT : 0x3830000068800200000000000000000000000000000000000000000000000000000000000000000000000000000000000000000000000000000000000000000000000000058100000000001c3c000004015 ||| U = U := by decide) : Keeps U s₀ (syncEffect n g s) := by
  refine Keeps.step ?_ hT hk
  clear hk hT; unfold syncEffect
  repeat' with_reducible first
    | exact Keeps.refl _ _ | assumption | refine Keeps.ite ?_ ?_ | refine tryOffset_keeps ?_ | refine setTport_keeps ?_ | refine incWrap_keeps ?_
    | dsimp only | split

theorem followUpEffect_keeps {U : Nat} {s₀ : State} {n : Nat} {g : PtpMsg} {s : State} (hk : Keeps U s₀ s) (hT : 0x3830000068800200000000000000000000000000000000000000000000000000000000000000000000000000000000000000000000000000000000000000000000000000118100000000001c3c000004015 ||| U = U := by decide) : Keeps U s₀ (followUpEffect n g s) := by
  refine Keeps.step ?_ hT hk
  clear hk hT; unfold followUpEffect
  repeat' with_reducible first
    | exact Keeps.refl _ _ | assumption | refine Keeps.ite ?_ ?_ | refine seqMismatch_keeps ?_ | refine tryOffset_keeps ?_ | refine setTport_keeps ?_
    | dsimp only | intro _ | split

theorem delayReqEffect_keeps {U : Nat} {s₀ : State} {n : Nat} {g : PtpMsg} {s : State} (hk : Keeps U s₀ s) (hT : 0x200000000000000000000006001 ||| U = U := by decide) : Keeps U s₀ (delayReqEffect n g s) := by
  refine Keeps.step ?_ hT hk
  clear hk hT; unfold delayReqEffect
  repeat' with_reducible first
    | exact Keeps.refl _ _ | assumption | refine Keeps.ite ?_ ?_ | refine dmMismatch_keeps ?_ | refine sendFrame_keeps ?_ | dsimp only | intro _
    | split

theorem delayRespEffect_keeps {U : Nat} {s₀ : State} {n : Nat} {g : PtpMsg} {s : State} (hk : Keeps U s₀ s) (hT : 0x3830000068800200000000000000000000000000000000000000000000000000000000000000000000000000000000000000000000000000000000000000000000000000318100000000001c3c000004015 ||| U = U := by decide) : Keeps U s₀ (delayRespEffect n g s) := by
  refine Keeps.step ?_ hT hk
  clear hk hT; unfold delayRespEffect
  repeat' with_reducible first
    | exact Keeps.refl _ _ | assumption | refine Keeps.ite ?_ ?_ | refine dmMismatch_keeps ?_ | refine seqMismatch_keeps ?_
    | refine tryOffset_keeps ?_ | refine setTport_keeps ?_ | dsimp only | intro _ | split

theorem pdelayReqEffect_keeps {U : Nat} {s₀ : State} {n : Nat} {g : PtpMsg} {txAt : Nat} {s : State} (hk : Keeps U s₀ s) (hT : 0x200000000000000000000006001 ||| U = U := by decide) : Keeps U s₀ (pdelayReqEffect n g txAt s) := by
  refine Keeps.step ?_ hT hk
  clear hk hT; unfold pdelayReqEffect
  repeat' with_reducible first
    | exact Keeps.refl _ _ | assumption
    | refine eventSent_keeps ?_ | refine Keeps.ite ?_ ?_ | refine dmMismatch_keeps ?_ | refine sendFrame_keeps ?_ | dsimp only | intro _
    | split

theorem pdelayRespEffect_keeps {U : Nat} {s₀ : State} {n : Nat} {g : PtpMsg} {s : State} (hk : Keeps U s₀ s) (hT : 0x3830000068800200000000000000000000000000000000000000000000000000000000000000000000000000000000000000000000000000000000000000000000000000318100000000001c3c000004015 ||| U = U := by decide) : Keeps U s₀ (pdelayRespEffect n g s) := by
  refine Keeps.step ?_ hT hk
  clear hk hT; unfold pdelayRespEffect
  repeat' with_reducible first
    | exact Keeps.refl _ _ | assumption | refine Keeps.ite ?_ ?_ | refine dmMismatch_keeps ?_ | refine seqMismatch_keeps ?_
    | refine tryOffset_keeps ?_ | refine setTport_keeps ?_ | dsimp only | intro _ | split

theorem pdelayFupEffect_keeps {U : Nat} {s₀ : State} {n : Nat} {g : PtpMsg} {s : State} (hk : Keeps U s₀ s) (hT : 0x3830000068800200000000000000000000000000000000000000000000000000000000000000000000000000000000000000000000000000000000000000000000000000318100000000001c3c000004015 ||| U = U := by decide) : Keeps U s₀ (pdelayFupEffect n g s) := by
  refine Keeps.step ?_ hT hk
  clear hk hT; unfold pdelayFupEffect
  repeat' with_reducible first
    | exact Keeps.refl _ _ | assumption | refine Keeps.ite ?_ ?_ | refine dmMismatch_keeps ?_ | refine seqMismatch_keeps ?_
    | refine tryOffset_keeps ?_ | refine setTport_keeps ?_ | dsimp only | intro _ | split

theorem announceEffect_keeps {U : Nat} {s₀ : State} {n : Nat} {gm : GmFields} {steps : Nat} {s : State} (hk : Keeps U s₀ s) (hT : 0x3830000078800200000000000000000000000000000000000000000000000000000000000000000000000000000000000000000000000000000000000000000000000000000300000000000000000004015 ||| U = U := by decide) : Keeps U s₀ (announceEffect n gm steps s) := by
  refine Keeps.step ?_ hT hk
  clear hk hT; unfold announceEffect
  repeat' with_reducible first
    | exact Keeps.refl _ _ | assumption | refine Keeps.ite ?_ ?_ | refine setTport_keeps ?_ | refine setLiveInt_keeps ?_ | refine setLive_keeps ?_
    | refine wr_keeps ?_ | dsimp only
    | (constructor <;> first | exact fun _ => rfl | exact fun _ _ => rfl | exact rfl | exact List.prefix_refl _ | exact Nat.le_refl _ | exact fun w => w | exact fun _ _ w => w | exact fun h => absurd h (by decide) | exact fun _ => ⟨fun _ _ => ⟨fun w => w, fun w => w⟩⟩)
    | refine Keeps.setTlk ?_ | intro _ | split

theorem useSeq_keeps {U : Nat} {s₀ : State} {s : State} {n ty : Nat} (hk : Keeps U s₀ s) (hT : 16 ||| U = U := by decide) : Keeps U s₀ (useSeq s n ty) := by
  refine Keeps.step ?_ hT hk
  clear hk hT; unfold useSeq
  repeat' with_reducible first
    | exact Keeps.refl _ _ | assumption | refine setTport_keeps ?_

theorem syncTxEffect_keeps {U : Nat} {s₀ : State} {n at' : Nat} {s : State} (hk : Keeps U s₀ s) (hT : 0x20000000000000000000006011 ||| U = U := by decide) : Keeps U s₀ (syncTxEffect n at' s) := by
  refine Keeps.step ?_ hT hk
  clear hk hT; unfold syncTxEffect
  repeat' with_reducible first
    | exact Keeps.refl _ _ | assumption
    | refine eventSent_keeps ?_ | refine Keeps.ite ?_ ?_ | refine useSeq_keeps ?_ | refine sendFrame_keeps ?_ | refine incWrap_keeps ?_
    | dsimp only | intro _ | split

theorem announceTxEffect_keeps {U : Nat} {s₀ : State} {n : Nat} {s : State} (hk : Keeps U s₀ s) (hT : 24592 ||| U = U := by decide) : Keeps U s₀ (announceTxEffect n s) := by
  refine Keeps.step ?_ hT hk
  clear hk hT; unfold announceTxEffect
  repeat' with_reducible first
    | exact Keeps.refl _ _ | assumption | refine Keeps.ite ?_ ?_ | refine useSeq_keeps ?_ | refine sendFrame_keeps ?_ | dsimp only | intro _ | split

theorem requestTx_keeps {U : Nat} {s₀ : State} {n ty at' : Nat} {s : State} (hk : Keeps U s₀ s) (hT : 24592 ||| U = U := by decide) : Keeps U s₀ (requestTx n ty at' s) := by
  refine Keeps.step ?_ hT hk
  clear hk hT; unfold requestTx
  repeat' with_reducible first
    | exact Keeps.refl _ _ | assumption
    | refine eventSent_keeps ?_ | refine Keeps.ite ?_ ?_ | refine useSeq_keeps ?_ | refine sendFrame_keeps ?_ | refine setTport_keeps ?_
    | dsimp only | intro _ | split

theorem tlkMapEffect_keeps {U : Nat} {s₀ : State} {v : Nat} {s : State} (hk : Keeps U s₀ s) (hT : 0x3830000078800200000000000000000000000000000000000000000000000000000000000000000000000000000000000000000000000000000000000000000000000070000080600000000000000004015 ||| U = U := by decide) : Keeps U s₀ (tlkMapEffect v s) := by
  refine Keeps.step ?_ hT hk
  clear hk hT; unfold tlkMapEffect
  repeat' with_reducible first
    | exact Keeps.refl _ _ | assumption | refine movePorts_keeps ?_ | refine Keeps.ite ?_ ?_ | refine movePort_keeps ?_ | refine fltEvent_keeps ?_
    | refine wrs_keeps ?_ | dsimp only | intro _ | split

theorem execLinkEnable_keeps {m port dm : Nat} {nopartFlt : Bool} {s : State} {t' : State} (hx : execLinkEnable m port dm nopartFlt s = .next t') :
    Keeps (busMask ||| parMask ||| 0x3830000078a002000000001400000000000000000000000000000000000000000000000000000000000000000000000000000400000000000000000000000000000000700001f0000000000000000004055) s t' := by
  unfold execLinkEnable at hx; obtain rfl := Host.Outcome.next.inj hx
  repeat' with_reducible first
    | exact Keeps.refl _ _ | assumption
    | refine takeIn_keeps ?_ ?_ | refine portCtrlWrite_keeps ?_ | refine asWriter_keeps ?_ ?_ | intro _
    | dsimp only

theorem execLinkDisable_keeps {m port dm : Nat} {nopartFlt : Bool} {s : State} {t' : State} (hx : execLinkDisable m port dm nopartFlt s = .next t') :
    Keeps (busMask ||| parMask ||| 0x3830000078a002000000001400000000000000000000000000000000000000000000000000000000000000000000000000000400000000000000000000000000000000700001f0000000000000000004055) s t' := by
  unfold execLinkDisable at hx; obtain rfl := Host.Outcome.next.inj hx
  repeat' with_reducible first
    | exact Keeps.refl _ _ | assumption
    | refine takeIn_keeps ?_ ?_ | refine portCtrlWrite_keeps ?_ | refine asWriter_keeps ?_ ?_ | intro _
    | dsimp only

theorem execBlockLock_keeps {l : Nat} {s : State} {t' : State} (hx : execBlockLock l s = .next t') :
    Keeps 0x3830000078800200000000000000000000000000000000000000000000000000000000000000000000000000000000000000000000000000000000000000000000000010000080000000000000000004015 s t' := by
  unfold execBlockLock at hx; obtain rfl := Host.Outcome.next.inj hx
  repeat' with_reducible first
    | exact Keeps.refl _ _ | assumption | refine blockLockEffect_keeps ?_

theorem execNoPartner_keeps {port : Nat} {s : State} {t' : State} (hx : execNoPartner port s = .next t') :
    Keeps 0x3830000078800200000000000000000000000000000000000000000000000000000000000000000000000000000000000000000000000000000000000000000000000000000080000000000000000004015 s t' := by
  unfold execNoPartner at hx; obtain rfl := Host.Outcome.next.inj hx
  repeat' with_reducible first
    | exact Keeps.refl _ _ | assumption | refine noPartnerEffect_keeps ?_

theorem execAdaptRestart_keeps {port : Nat} {s : State} {t' : State} (hx : execAdaptRestart port s = .next t') :
    Keeps 0x400000000000000000000000011 s t' := by
  unfold execAdaptRestart at hx; obtain rfl := Host.Outcome.next.inj hx
  repeat' with_reducible first
    | exact Keeps.refl _ _ | assumption | refine adaptRestartEffect_keeps ?_

theorem execLockLoss_keeps {l : Nat} {s : State} {t' : State} (hx : execLockLoss l s = .next t') :
    Keeps 0x3830000078800200000000000000000000000000000000000000000000000000000000000000000000000000000000000000000000000000000000000000000000000070000180000000000000000004015 s t' := by
  unfold execLockLoss at hx; obtain rfl := Host.Outcome.next.inj hx
  repeat' with_reducible first
    | exact Keeps.refl _ _ | assumption | refine lockLossEffect_keeps ?_

theorem execHiBer_keeps {l : Nat} {s : State} {t' : State} (hx : execHiBer l s = .next t') :
    Keeps 0x3830000078800200000000000000000000000000000000000000000000000000000000000000000000000000000000000000000000000000000000000000000000000070000080000000000000000006015 s t' := by
  unfold execHiBer at hx; obtain rfl := Host.Outcome.next.inj hx
  repeat' with_reducible first
    | exact Keeps.refl _ _ | assumption | refine hiBerEffect_keeps ?_

theorem execHiBerClear_keeps {l : Nat} {s : State} {t' : State} (hx : execHiBerClear l s = .next t') :
    Keeps 0x3830000078800200000000000000000000000000000000000000000000000000000000000000000000000000000000000000000000000000000000000000000000000020000080000000000000000004015 s t' := by
  unfold execHiBerClear at hx; obtain rfl := Host.Outcome.next.inj hx
  repeat' with_reducible first
    | exact Keeps.refl _ _ | assumption | refine hiBerClearEffect_keeps ?_

theorem execTxeqWrite_keeps {m l word : Nat} {s : State} {t' : State} (hx : execTxeqWrite m l word s = .next t') :
    Keeps (busMask ||| parMask ||| 0x3830000078a00200000000140000000000000000000000000000000000000000000000000000000000000000000000000000040000000000000000000000000000000073800080000000000000000004055) s t' := by
  unfold execTxeqWrite at hx; obtain rfl := Host.Outcome.next.inj hx
  repeat' with_reducible first
    | exact Keeps.refl _ _ | assumption
    | refine takeIn_keeps ?_ ?_ | refine txeqEffect_keeps ?_ | refine asWriter_keeps ?_ ?_ | intro _
    | dsimp only

theorem execAdaptFreeze_keeps {l density : Nat} {s : State} {t' : State} (hx : execAdaptFreeze l density s = .next t') :
    Keeps 0x8002000000000000000000000000000000000000000000000000000000000000000000000000000000000000000000000000000000000000000000000000c0000000000000000000000004011 s t' := by
  unfold execAdaptFreeze at hx; obtain rfl := Host.Outcome.next.inj hx
  repeat' with_reducible first
    | exact Keeps.refl _ _ | assumption | refine adaptFreezeEffect_keeps ?_

theorem execAdaptResume_keeps {l density : Nat} {s : State} {t' : State} (hx : execAdaptResume l density s = .next t') :
    Keeps 0xc0000000000000000000000000001 s t' := by
  unfold execAdaptResume at hx; obtain rfl := Host.Outcome.next.inj hx
  repeat' with_reducible first
    | exact Keeps.refl _ _ | assumption | refine adaptResumeEffect_keeps ?_

theorem execRxPreset_keeps {m l : Nat} {freeze : Bool} {s : State} {t' : State} (hx : execRxPreset m l freeze s = .next t') :
    Keeps (busMask ||| parMask ||| 0x3830000078a00200000000140000000000000000000000000000000000000000000000000000000000000000000000000000040000000000000000000000000000000074000080000000000000000004055) s t' := by
  unfold execRxPreset at hx; obtain rfl := Host.Outcome.next.inj hx
  repeat' with_reducible first
    | exact Keeps.refl _ _ | assumption
    | refine takeIn_keeps ?_ ?_ | refine rxCtrlWrite_keeps ?_ | refine asWriter_keeps ?_ ?_ | intro _
    | dsimp only

theorem execPrbsGenEn_keeps {m l word : Nat} {s : State} {t' : State} (hx : execPrbsGenEn m l word s = .next t') :
    Keeps (busMask ||| parMask ||| 0x3830000078a00200000000140000000000000000000000000000000000000000000000000000000000000000000000000000040000000000000000000000000000001b70000080000000000000000004055) s t' := by
  unfold execPrbsGenEn at hx; obtain rfl := Host.Outcome.next.inj hx
  repeat' with_reducible first
    | exact Keeps.refl _ _ | assumption
    | refine takeIn_keeps ?_ ?_ | refine prbsWrite_keeps ?_ | refine asWriter_keeps ?_ ?_ | intro _
    | dsimp only

theorem execPrbsChkEn_keeps {m l word : Nat} {s : State} {t' : State} (hx : execPrbsChkEn m l word s = .next t') :
    Keeps (busMask ||| parMask ||| 0x3830000078a00200000000140000000000000000000000000000000000000000000000000000000000000000000000000000040000000000000000000000000000001b70000080000000000000000004055) s t' := by
  unfold execPrbsChkEn at hx; obtain rfl := Host.Outcome.next.inj hx
  repeat' with_reducible first
    | exact Keeps.refl _ _ | assumption
    | refine takeIn_keeps ?_ ?_ | refine prbsWrite_keeps ?_ | refine asWriter_keeps ?_ ?_ | intro _
    | dsimp only

theorem execInjOne_keeps {m l word : Nat} {s : State} {t' : State} (hx : execInjOne m l word s = .next t') :
    Keeps (busMask ||| parMask ||| 0x3830000078a00200000000140000000000000000000000000000000000000000000000000000000000000000000000000000040000000000000000000000000000001b70000080000000000000000004055) s t' := by
  unfold execInjOne at hx; obtain rfl := Host.Outcome.next.inj hx
  repeat' with_reducible first
    | exact Keeps.refl _ _ | assumption
    | refine takeIn_keeps ?_ ?_ | refine prbsWrite_keeps ?_ | refine asWriter_keeps ?_ ?_ | intro _
    | dsimp only

theorem execInjRate_keeps {m l word : Nat} {s : State} {t' : State} (hx : execInjRate m l word s = .next t') :
    Keeps (busMask ||| parMask ||| 0x3830000078a00200000000140000000000000000000000000000000000000000000000000000000000000000000000000000040000000000000000000000000000001b70000080000000000000000004055) s t' := by
  unfold execInjRate at hx; obtain rfl := Host.Outcome.next.inj hx
  repeat' with_reducible first
    | exact Keeps.refl _ _ | assumption
    | refine takeIn_keeps ?_ ?_ | refine prbsWrite_keeps ?_ | refine asWriter_keeps ?_ ?_ | intro _
    | dsimp only

theorem execPrbsErrRead_keeps {m l errs : Nat} {s : State} {t' : State} (hx : execPrbsErrRead m l errs s = .next t') :
    Keeps (busMask ||| 0x2000000000000000000000000004001) s t' := by
  unfold execPrbsErrRead at hx; obtain rfl := Host.Outcome.next.inj hx
  repeat' with_reducible first
    | exact Keeps.refl _ _ | assumption
    | refine takeIn_keeps ?_ ?_ | refine prbsErrRead_keeps ?_
    | dsimp only | intro _

theorem execChkLock_keeps {l : Nat} {s : State} {t' : State} (hx : execChkLock l s = .next t') :
    Keeps 0x1000000000000000000000000000001 s t' := by
  unfold execChkLock at hx; obtain rfl := Host.Outcome.next.inj hx
  repeat' with_reducible first
    | exact Keeps.refl _ _ | assumption | refine Keeps.ite ?_ ?_ | refine wrb_keeps ?_ | refine whenS_keeps ?_ ?_ | intro _

theorem execChkLockLoss_keeps {l errs : Nat} {s : State} {t' : State} (hx : execChkLockLoss l errs s = .next t') :
    Keeps 0x3000000000000000000000000000001 s t' := by
  unfold execChkLockLoss at hx; obtain rfl := Host.Outcome.next.inj hx
  repeat' with_reducible first
    | exact Keeps.refl _ _ | assumption | refine addPrbsErrs_keeps ?_ | refine wrb_keeps ?_

theorem execFrameReceive_keeps {port : Nat} {f : RxFrame} {s : State} {t' : State} (hx : execFrameReceive port f s = .next t') :
    Keeps 0x80000000000000000000000011 s t' := by
  unfold execFrameReceive at hx; obtain rfl := Host.Outcome.next.inj hx
  repeat' with_reducible first
    | exact Keeps.refl _ _ | assumption | refine frameEffect_keeps ?_

theorem execSync_keeps {port : Nat} {msg : PtpMsg} {s : State} {t' : State} (hx : execSync port msg s = .next t') :
    Keeps 0x3830000068800200000000000000000000000000000000000000000000000000000000000000000000000000000000000000000000000000000000000000000000000000058100000000001c3c000006015 s t' := by
  unfold execSync at hx; obtain rfl := Host.Outcome.next.inj hx
  repeat' with_reducible first
    | exact Keeps.refl _ _ | assumption | refine syncEffect_keeps ?_ | refine received_keeps ?_ ?_ | intro _

theorem execFollowUp_keeps {port : Nat} {msg : PtpMsg} {s : State} {t' : State} (hx : execFollowUp port msg s = .next t') :
    Keeps 0x3830000068800200000000000000000000000000000000000000000000000000000000000000000000000000000000000000000000000000000000000000000000000000118100000000001c3c000006015 s t' := by
  unfold execFollowUp at hx; obtain rfl := Host.Outcome.next.inj hx
  repeat' with_reducible first
    | exact Keeps.refl _ _ | assumption | refine followUpEffect_keeps ?_ | refine received_keeps ?_ ?_ | intro _

theorem execDelayReq_keeps {port : Nat} {msg : PtpMsg} {s : State} {t' : State} (hx : execDelayReq port msg s = .next t') :
    Keeps 0x200000000000000000000006001 s t' := by
  unfold execDelayReq at hx; obtain rfl := Host.Outcome.next.inj hx
  repeat' with_reducible first
    | exact Keeps.refl _ _ | assumption | refine delayReqEffect_keeps ?_ | refine received_keeps ?_ ?_ | intro _

theorem execDelayResp_keeps {port : Nat} {msg : PtpMsg} {s : State} {t' : State} (hx : execDelayResp port msg s = .next t') :
    Keeps 0x3830000068800200000000000000000000000000000000000000000000000000000000000000000000000000000000000000000000000000000000000000000000000000318100000000001c3c000006015 s t' := by
  unfold execDelayResp at hx; obtain rfl := Host.Outcome.next.inj hx
  repeat' with_reducible first
    | exact Keeps.refl _ _ | assumption | refine delayRespEffect_keeps ?_ | refine received_keeps ?_ ?_ | intro _

theorem execPdelayReq_keeps {port : Nat} {msg : PtpMsg} {txAt : Nat} {s : State} {t' : State} (hx : execPdelayReq port msg txAt s = .next t') :
    Keeps 0x200000000000000000000006001 s t' := by
  unfold execPdelayReq at hx; obtain rfl := Host.Outcome.next.inj hx
  repeat' with_reducible first
    | exact Keeps.refl _ _ | assumption | refine pdelayReqEffect_keeps ?_ | refine received_keeps ?_ ?_ | intro _

theorem execPdelayResp_keeps {port : Nat} {msg : PtpMsg} {s : State} {t' : State} (hx : execPdelayResp port msg s = .next t') :
    Keeps 0x3830000068800200000000000000000000000000000000000000000000000000000000000000000000000000000000000000000000000000000000000000000000000000318100000000001c3c000006015 s t' := by
  unfold execPdelayResp at hx; obtain rfl := Host.Outcome.next.inj hx
  repeat' with_reducible first
    | exact Keeps.refl _ _ | assumption | refine pdelayRespEffect_keeps ?_ | refine received_keeps ?_ ?_ | intro _

theorem execPdelayRespFollowUp_keeps {port : Nat} {msg : PtpMsg} {s : State} {t' : State} (hx : execPdelayRespFollowUp port msg s = .next t') :
    Keeps 0x3830000068800200000000000000000000000000000000000000000000000000000000000000000000000000000000000000000000000000000000000000000000000000318100000000001c3c000006015 s t' := by
  unfold execPdelayRespFollowUp at hx; obtain rfl := Host.Outcome.next.inj hx
  repeat' with_reducible first
    | exact Keeps.refl _ _ | assumption | refine pdelayFupEffect_keeps ?_ | refine received_keeps ?_ ?_ | intro _

theorem execAnnounce_keeps {port : Nat} {gm : GmFields} {steps : Nat} {s : State} {t' : State} (hx : execAnnounce port gm steps s = .next t') :
    Keeps 0x3830000078800200000000000000000000000000000000000000000000000000000000000000000000000000000000000000000000000000000000000000000000000000000300000000000000000006015 s t' := by
  unfold execAnnounce at hx; obtain rfl := Host.Outcome.next.inj hx
  repeat' with_reducible first
    | exact Keeps.refl _ _ | assumption | refine announceEffect_keeps ?_ | refine received_keeps ?_ ?_ | intro _

theorem execSyncTransmit_keeps {port sentAt : Nat} {s : State} {t' : State} (hx : execSyncTransmit port sentAt s = .next t') :
    Keeps 0x20000000000000000000006011 s t' := by
  unfold execSyncTransmit at hx; obtain rfl := Host.Outcome.next.inj hx
  repeat' with_reducible first
    | exact Keeps.refl _ _ | assumption | refine syncTxEffect_keeps ?_

theorem execAnnounceTransmit_keeps {port : Nat} {s : State} {t' : State} (hx : execAnnounceTransmit port s = .next t') :
    Keeps 24592 s t' := by
  unfold execAnnounceTransmit at hx; obtain rfl := Host.Outcome.next.inj hx
  repeat' with_reducible first
    | exact Keeps.refl _ _ | assumption | refine announceTxEffect_keeps ?_

theorem execDelayReqTransmit_keeps {port sentAt : Nat} {s : State} {t' : State} (hx : execDelayReqTransmit port sentAt s = .next t') :
    Keeps 24592 s t' := by
  unfold execDelayReqTransmit at hx; obtain rfl := Host.Outcome.next.inj hx
  repeat' with_reducible first
    | exact Keeps.refl _ _ | assumption | refine Keeps.ite ?_ ?_ | refine requestTx_keeps ?_ | refine whenS_keeps ?_ ?_ | intro _

theorem execPdelayReqTransmit_keeps {port sentAt : Nat} {s : State} {t' : State} (hx : execPdelayReqTransmit port sentAt s = .next t') :
    Keeps 24592 s t' := by
  unfold execPdelayReqTransmit at hx; obtain rfl := Host.Outcome.next.inj hx
  repeat' with_reducible first
    | exact Keeps.refl _ _ | assumption | refine Keeps.ite ?_ ?_ | refine requestTx_keeps ?_ | refine whenS_keeps ?_ ?_ | intro _ | dsimp only
    | split

theorem execAnnounceReceiptTimeout_keeps {s : State} {t' : State} (hx : execAnnounceReceiptTimeout s = .next t') :
    Keeps 0x3830000078800200000000000000000000000000000000000000000000000000000000000000000000000000000000000000000000000000000000000000000000000000000100000000000000000004015 s t' := by
  unfold execAnnounceReceiptTimeout at hx; obtain rfl := Host.Outcome.next.inj hx
  repeat' with_reducible first
    | exact Keeps.refl _ _ | assumption | refine masterLost_keeps ?_

theorem execSyncReceiptTimeout_keeps {s : State} {t' : State} (hx : execSyncReceiptTimeout s = .next t') :
    Keeps 0x3830000078800200000000000000000000000000000000000000000000000000000000000000000000000000000000000000000000000000000000000000000000000000000100000000000000000004015 s t' := by
  unfold execSyncReceiptTimeout at hx; obtain rfl := Host.Outcome.next.inj hx
  repeat' with_reducible first
    | exact Keeps.refl _ _ | assumption | refine masterLost_keeps ?_

theorem execTlkMapWrite_keeps {m comp : Nat} {s : State} {t' : State} (hx : execTlkMapWrite m comp s = .next t') :
    Keeps (busMask ||| parMask ||| 0x3830040078a00200000000140000000000000000000000000000000000000000000000000000000000000000000000000000040000000000000000000000000000000070000080600000000000000004055) s t' := by
  unfold execTlkMapWrite at hx; obtain rfl := Host.Outcome.next.inj hx
  repeat' with_reducible first
    | exact Keeps.refl _ _ | assumption
    | refine takeIn_keeps ?_ ?_ | refine tlkMapEffect_keeps ?_ | refine pairComplete_keeps ?_ ?_ | intro _
    | dsimp only

end Sys2Proof.Machine
end

