-- ==== Sys2Proof/Laws/Faults.lean ====
section
/-! SUPPORT. What the operations and commands of Machine/Faults.lean keep, and the components of the state they may write (Laws/Keeps.lean). -/

set_option exponentiation.threshold 2000

set_option Elab.async false

namespace Sys2Proof.Machine

open Sys2Proof

theorem resetUnit_keeps {U : Nat} {s₀ old : State} {u : Nat} {s : State} (hk : Keeps U s₀ s) (hT : 0x4000000000000000000000000000000000000000000000000000000000000000000000000000000000000000000000000000081 ||| U = U := by decide) : Keeps U s₀ (resetUnit old u s) := by
  refine Keeps.step ?_ hT hk
  clear hk hT; unfold resetUnit
  repeat' with_reducible first
    | exact Keeps.refl _ _ | assumption | refine Keeps.ite ?_ ?_ | refine setAu_keeps ?_ | refine wrb_keeps ?_ | dsimp only | intro _ | split

theorem resetHifDev_keeps {U : Nat} {s₀ old : State} {s : State} (hk : Keeps U s₀ s) (hT : (anyField ||| parMask ||| 18279) ||| U = U := by decide) : Keeps U s₀ (resetHifDev old s) := by
  refine Keeps.step ?_ hT hk
  clear hk hT; unfold resetHifDev
  repeat' with_reducible first
    | exact Keeps.refl _ _ | assumption | refine bankMove_keeps ?_ | refine setQuota_keeps ?_ | refine forS_keeps ?_ ?_
    | refine wrs_keeps ?_ (fun x _ => sub_trans (fldMask_any x.1) (by decide)) | refine wr_keeps ?_ (sub_trans (fldMask_any _) (by decide)) | dsimp only | intro _

theorem safeSites_keeps {U : Nat} {s₀ : State} {l : List Nat} {s : State} (hk : Keeps U s₀ s) (hT : 0x38300000788002140008004000000000000000000000000000000000000000000000009f0000000000700000000f0160000010f000000000000002fc0000000000150000000000000000500000000004065 ||| U = U := by decide) : Keeps U s₀ (safeSites l s) := by
  refine Keeps.step ?_ hT hk
  clear hk hT; unfold safeSites
  repeat' with_reducible first
    | exact Keeps.refl _ _ | assumption | refine safeSite_keeps ?_ | refine forS_keeps ?_ ?_ | intro _

theorem engDiscard_keeps {U : Nat} {s₀ : State} {e : Nat} {s : State} (hk : Keeps U s₀ s) (hT : 32 ||| U = U := by decide) : Keeps U s₀ (engDiscard e s) := by
  refine Keeps.step ?_ hT hk
  clear hk hT; unfold engDiscard
  repeat' with_reducible first
    | exact Keeps.refl _ _ | assumption | refine Keeps.ite ?_ ?_ | refine freeEng_keeps ?_ | refine dropStaged_keeps ?_ | refine setRoute_keeps ?_
    | dsimp only | intro _ | split

theorem safeOneSite_keeps {U : Nat} {s₀ : State} {i : Nat} {s : State} (hk : Keeps U s₀ s) (hT : 0x38300000788002140008004000000000000000000000000000000000000000000000009f0000000000700000000f0160000014f000000000000002fc0000000000150000000000000000500000000004065 ||| U = U := by decide) : Keeps U s₀ (safeOneSite i s) := by
  refine Keeps.step ?_ hT hk
  clear hk hT; unfold safeOneSite
  repeat' with_reducible first
    | exact Keeps.refl _ _ | assumption | refine safeBank_keeps ?_ | refine safeSite_keeps ?_ | refine forS_keeps ?_ ?_ | intro _

theorem auStop_keeps {U : Nat} {s₀ : State} {u : Nat} {s : State} (hk : Keeps U s₀ s) (hT : 0x100000000000000000000000000000000000000000000000000000000000000000000000000000000000000000000000000000081 ||| U = U := by decide) : Keeps U s₀ (auStop u s) := by
  refine Keeps.step ?_ hT hk
  clear hk hT; unfold auStop
  repeat' with_reducible first
    | exact Keeps.refl _ _ | assumption | refine setAu_keeps ?_ | refine wr_keeps ?_

theorem calAbortAll_keeps {U : Nat} {s₀ : State} {s : State} (hk : Keeps U s₀ s) (hT : 256 ||| U = U := by decide) : Keeps U s₀ (calAbortAll s) := by
  refine Keeps.step ?_ hT hk
  clear hk hT; unfold calAbortAll
  repeat' with_reducible first
    | exact Keeps.refl _ _ | assumption | refine calAbortDue_keeps ?_ | refine forS_keeps ?_ ?_ | intro _

theorem safeActs_keeps {U : Nat} {s₀ : State} {p : Page} {why c : Nat} {s : State} (hk : Keeps U s₀ s) (hT : 0xbc0000000000000000000000038300008788002140088204000000000000000000000000000000000001000000000009f0000000000700000000f0160000014f000000000000002fc000000000015007000008000000cd000000000061fd ||| U = U := by decide) : Keeps U s₀ (safeActs p why c s) := by
  refine Keeps.step ?_ hT hk
  clear hk hT; unfold safeActs
  repeat' with_reducible first
    | exact Keeps.refl _ _ | assumption
    | refine safePulse_keeps ?_ | refine Keeps.ite ?_ ?_ | refine calAbortAll_keeps ?_ | refine auStop_keeps ?_ | refine safeOneSite_keeps ?_
    | refine engDiscard_keeps ?_ | refine safeSites_keeps ?_ | refine safeBank_keeps ?_ | refine disarmChannel_keeps ?_ | refine calAbortDue_keeps ?_
    | refine disarmPulse_keeps ?_ | refine ptbLock_keeps ?_ | refine beginSearch_keeps ?_ | refine wr_keeps ?_ | refine forS_keeps ?_ ?_ | dsimp only
    | intro _ | split

theorem enterSafe_keeps {U : Nat} {s₀ : State} {p : Page} {why c : Nat} {s : State} (hk : Keeps U s₀ s) (hT : 0xbc000000000000000000000003830000878a002140088204000000000000000000000000000000000001000000000009f0000000000700000000f0160000014f000000000000002fc000000000015007000008000000cd000000000061fd ||| U = U := by decide) : Keeps U s₀ (enterSafe p why c s) := by
  refine Keeps.step ?_ hT hk
  clear hk hT; unfold enterSafe
  repeat' with_reducible first
    | exact Keeps.refl _ _ | assumption | refine safeActs_keeps ?_ | refine wrb_keeps ?_

theorem flipParity_keeps {U : Nat} {s₀ : State} {k : Nat} {s : State} (hk : Keeps U s₀ s) (hT : parMask ||| U = U := by decide) : Keeps U s₀ (flipParity k s) :=
  Keeps.setPar rfl hk hT

theorem upsetBit_keeps {U : Nat} {s₀ : State} {p : Page} {off bit : Nat} {s : State} (hk : Keeps U s₀ s) (hT : (anyField ||| parMask ||| 5) ||| U = U := by decide) : Keeps U s₀ (upsetBit p off bit s) := by
  refine Keeps.step ?_ hT hk
  clear hk hT; unfold upsetBit
  repeat' with_reducible first
    | exact Keeps.refl _ _ | assumption | refine flipParity_keeps ?_ | refine wr_keeps ?_ (sub_trans (fldMask_any _) (by decide)) | split

theorem parityFound_keeps {U : Nat} {s₀ : State} {p : Page} {off : Nat} {s : State} (hk : Keeps U s₀ s) (hT : 0xbc000000000000000000000003830007878a002140088204000000000000000000000000000000000001000000000009f0000000000700000000f0160000014f000000000000002fc000000000015007000008000000cd000000000061fd ||| U = U := by decide) : Keeps U s₀ (parityFound p off s) := by
  refine Keeps.step ?_ hT hk
  clear hk hT; unfold parityFound
  repeat' with_reducible first
    | exact Keeps.refl _ _ | assumption | refine Keeps.ite ?_ ?_ | refine enterSafe_keeps ?_ | refine setLive_keeps ?_ | refine incSat_keeps ?_
    | refine wrs_keeps ?_ | dsimp only | split
    | (constructor <;> first | exact fun _ => rfl | exact fun _ _ => rfl | exact rfl | exact List.prefix_refl _ | exact Nat.le_refl _ | exact fun w => w | exact fun _ _ w => w | exact fun h => absurd h (by decide) | exact fun _ => ⟨fun _ _ => ⟨fun w => w, fun w => w⟩⟩)
    | refine Keeps.setMgt ⟨rfl, rfl⟩ ?_

theorem parityScan_keeps {U : Nat} {s₀ : State} {p : Page} {upsets : List (Nat × Nat)} {s : State} (hk : Keeps U s₀ s) (hT : (anyField ||| parMask ||| 25085) ||| U = U := by decide) : Keeps U s₀ (parityScan p upsets s) := by
  refine Keeps.step ?_ hT hk
  clear hk hT; unfold parityScan
  repeat' with_reducible first
    | exact Keeps.refl _ _ | assumption | refine parityFound_keeps ?_ | refine upsetBit_keeps ?_ | refine forS_keeps ?_ ?_ | dsimp only | intro _

theorem deviceHalt_keeps {U : Nat} {s₀ : State} {p : Page} {c : Nat} {s : State} (hk : Keeps U s₀ s) (hT : 0x3833a00078a002140008004000000000000000000000000000000000001000000000009f0000000000700000000f0160000014f000000000000002fc00000000001500000000000000005000000000041e5 ||| U = U := by decide) : Keeps U s₀ (deviceHalt p c s) := by
  refine Keeps.step ?_ hT hk
  clear hk hT; unfold deviceHalt
  repeat' with_reducible first
    | exact Keeps.refl _ _ | assumption
    | refine wrb_keeps ?_ | refine Keeps.ite ?_ ?_ | refine calAbortAll_keeps ?_ | refine auStop_keeps ?_ | refine safeSites_keeps ?_
    | refine safeBank_keeps ?_ | refine freeEng_keeps ?_ | refine dropStaged_keeps ?_ | refine wrs_keeps ?_ | refine forS_keeps ?_ ?_ | split | dsimp only
    | intro _
    | (constructor <;> first | exact fun _ => rfl | exact fun _ _ => rfl | exact rfl | exact List.prefix_refl _ | exact Nat.le_refl _ | exact fun w => w | exact fun _ _ w => w | exact fun h => absurd h (by decide) | exact fun _ => ⟨fun _ _ => ⟨fun w => w, fun w => w⟩⟩)
    | refine Keeps.setPat ?_

theorem escalate_keeps {U : Nat} {s₀ : State} {p : Page} {c : Nat} {s : State} (hk : Keeps U s₀ s) (hT : 0xbc000000000000000000000003933a00878a002140088204000000000000000000000000000000000001000000000009f0000000000700000000f0160000014f000000000000002fc000000000015007000008000000cd000000000061fd ||| U = U := by decide) : Keeps U s₀ (escalate p c s) := by
  refine Keeps.step ?_ hT hk
  clear hk hT; unfold escalate
  repeat' with_reducible first
    | exact Keeps.refl _ _ | assumption | refine Keeps.ite ?_ ?_ | refine deviceHalt_keeps ?_ | refine enterSafe_keeps ?_ | refine setFltRec_keeps ?_
    | refine evlog_keeps ?_ | refine raiseInt_keeps ?_ | refine incSat_keeps ?_ | refine wrb_keeps ?_ | dsimp only | split
    | (constructor <;> first | exact fun _ => rfl | exact fun _ _ => rfl | exact rfl | exact List.prefix_refl _ | exact Nat.le_refl _ | exact fun w => w | exact fun _ _ w => w | exact fun h => absurd h (by decide) | exact fun _ => ⟨fun _ _ => ⟨fun w => w, fun w => w⟩⟩)
    | refine Keeps.setMgt ⟨rfl, rfl⟩ ?_

theorem endConditions_keeps {U : Nat} {s₀ : State} {p : Page} {s : State} (hk : Keeps U s₀ s) (hT : 0x3830000078800200000000000000000000000000000000000000000000000000000000000000000000000000000000000000000000000000000000000000000000000000000000000000000000000004005 ||| U = U := by decide) : Keeps U s₀ (endConditions p s) := by
  refine Keeps.step ?_ hT hk
  clear hk hT; unfold endConditions
  repeat' with_reducible first
    | exact Keeps.refl _ _ | assumption
    | refine forS_keeps ?_ ?_ | refine setLive_keeps ?_ | dsimp only | intro _ | split

theorem resetTurns_keeps {U : Nat} {s₀ : State} {s : State} (hk : Keeps U s₀ s) (hT : 32 ||| U = U := by decide) : Keeps U s₀ (resetTurns s) := by
  refine Keeps.step ?_ hT hk
  clear hk hT; unfold resetTurns
  repeat' with_reducible first
    | exact Keeps.refl _ _ | assumption
    | refine Keeps.setPat ?_ | dsimp only | intro _
    | (constructor <;> first | exact fun _ => rfl | exact fun _ _ => rfl | exact rfl | exact List.prefix_refl _ | exact Nat.le_refl _ | exact fun w => w | exact fun _ _ w => w | exact fun h => absurd h (by decide) | exact fun _ => ⟨fun _ _ => ⟨fun w => w, fun w => w⟩⟩)

theorem resetBlockState_keeps {U : Nat} {s₀ : State} {old : State} {p : Page} {s : State} (hk : Keeps U s₀ s) (hT : (anyField ||| parMask ||| 26623) ||| U = U := by decide) : Keeps U s₀ (resetBlockState p old s) := by
  refine Keeps.step ?_ hT hk
  clear hk hT; unfold resetBlockState
  repeat' with_reducible first
    | exact Keeps.refl _ _ | assumption
    | refine resetTurns_keeps ?_
    | refine csHoldEnds_keeps ?_ | refine ptbQuiet_keeps ?_
    | refine takeShares_keeps ?_ | refine Keeps.ite ?_ ?_ | refine calRestore_keeps ?_ | refine resetUnit_keeps ?_ | refine setCal_keeps ?_
    | refine setSharesAct_keeps ?_ | refine setPulse_keeps ?_ | refine ptbFollow_keeps ?_ | refine setSring_keeps ?_ | refine resetHifDev_keeps ?_
    | refine setConv_keeps ?_ | refine setTport_keeps ?_ | refine setTlane_keeps ?_ | refine setLedger_keeps ?_ | refine setBank_keeps ?_
    | refine setEng_keeps ?_ | refine setFur_keeps ?_ | refine forS_keeps ?_ ?_ | refine wrs_keeps ?_ (fun x _ => sub_trans (fldMask_any x.1) (by decide)) | intro _ | split | dsimp only
    | (constructor <;> first | exact fun _ => rfl | exact fun _ _ => rfl | exact rfl | exact List.prefix_refl _ | exact Nat.le_refl _ | exact fun w => w | exact fun _ _ w => w | exact fun h => absurd h (by decide) | exact fun _ => ⟨fun _ _ => ⟨fun w => w, fun w => w⟩⟩)
    | refine Keeps.setPin ?_ | refine Keeps.setTlk ?_ | refine Keeps.setLcs ⟨rfl, rfl⟩ ?_

theorem blockResetDone_keeps {U : Nat} {s₀ : State} {p : Page} {s : State} (hk : Keeps U s₀ s) (hT : (anyField ||| parMask ||| 28671) ||| U = U := by decide) : Keeps U s₀ (blockResetDone p s) := by
  refine Keeps.step ?_ hT hk
  clear hk hT; unfold blockResetDone
  repeat' with_reducible first
    | exact Keeps.refl _ _ | assumption
    | refine endConditions_keeps ?_ | refine Keeps.ite ?_ ?_ | refine resetBlockState_keeps ?_ | refine enReset_keeps ?_ | refine forgetPage_keeps ?_
    | refine resetRange_keeps ?_ | refine leaveSafe_keeps ?_ | refine setLive_keeps ?_ | refine evlog_keeps ?_
    | refine wrs_keeps ?_ (fun x _ => sub_trans (fldMask_any x.1) (by decide)) | intro _ | split | dsimp only
    | (constructor <;> first | exact fun _ => rfl | exact fun _ _ => rfl | exact rfl | exact List.prefix_refl _ | exact Nat.le_refl _ | exact fun w => w | exact fun _ _ w => w | exact fun h => absurd h (by decide) | exact fun _ => ⟨fun _ _ => ⟨fun w => w, fun w => w⟩⟩)
    | refine Keeps.setMgt ⟨rfl, rfl⟩ ?_

theorem clearCause_keeps {U : Nat} {s₀ : State} {m : Nat} {p : Page} {c : Nat} {s : State} (hk : Keeps U s₀ s) (hT : 0x2000000000000000000000000000000000000000000000000000000000000000000000000000000000000000000000000000b0000028000000000000000000000000000000000000000000000000000000000000000000000000000000000000000000000000000000000000000000000000000000000000000000000000000000005 ||| U = U := by decide) : Keeps U s₀ (clearCause m p c s) := by
  refine Keeps.step ?_ hT hk
  clear hk hT; unfold clearCause
  repeat' with_reducible first
    | exact Keeps.refl _ _ | assumption | refine Keeps.ite ?_ ?_ | refine setFltRec_keeps ?_ | refine evlog_keeps ?_ | refine incSat_keeps ?_
    | refine wrs_keeps ?_ | dsimp only | split
    | (constructor <;> first | exact fun _ => rfl | exact fun _ _ => rfl | exact rfl | exact List.prefix_refl _ | exact Nat.le_refl _ | exact fun w => w | exact fun _ _ w => w | exact fun h => absurd h (by decide) | exact fun _ => ⟨fun _ _ => ⟨fun w => w, fun w => w⟩⟩)
    | refine Keeps.setMgt ⟨rfl, rfl⟩ ?_

theorem clearCauses_keeps {U : Nat} {s₀ : State} {m : Nat} {p : Page} {word : Nat} {s : State} (hk : Keeps U s₀ s) (hT : 0x2000000000000000000000000000000000000000000000000000000000000000000000000000000000000000000000000038b0000078a00200000000000000000000000000000000000000000000000000000000000000000000000000000000000000040000000000000000000000000000000070000080000000000000000004055 ||| U = U := by decide) : Keeps U s₀ (clearCauses m p word s) := by
  refine Keeps.step ?_ hT hk
  clear hk hT; unfold clearCauses
  repeat' with_reducible first
    | exact Keeps.refl _ _ | assumption | refine Keeps.ite ?_ ?_ | refine clearCause_keeps ?_ | refine leaveSafe_keeps ?_ | refine forS_keeps ?_ ?_
    | dsimp only | intro _ | split

theorem evlogIdx_keeps {U : Nat} {s₀ : State} {m word : Nat} {s : State} (hk : Keeps U s₀ s) (hT : 0x4000000000000000000000000000000000000000000000000000000000000000000000000000000000000000000000000000000000000000000000000000000000000000000000000000000000000005 ||| U = U := by decide) : Keeps U s₀ (evlogIdx m word s) := by
  refine Keeps.step ?_ hT hk
  clear hk hT; unfold evlogIdx
  repeat' with_reducible first
    | exact Keeps.refl _ _ | assumption | refine wr_keeps ?_ | dsimp only
    | (constructor <;> first | exact fun _ => rfl | exact fun _ _ => rfl | exact rfl | exact List.prefix_refl _ | exact Nat.le_refl _ | exact fun w => w | exact fun _ _ w => w | exact fun h => absurd h (by decide) | exact fun _ => ⟨fun _ _ => ⟨fun w => w, fun w => w⟩⟩)
    | refine Keeps.setMgt ⟨rfl, rfl⟩ ?_

theorem execParityScan_keeps {addr : Nat} {upsets : List (Nat × Nat)} {s : State} {t' : State} (hx : execParityScan addr upsets s = .next t') :
    Keeps (anyField ||| parMask ||| 25085) s t' := by
  unfold execParityScan at hx; obtain rfl := Host.Outcome.next.inj hx
  repeat' with_reducible first
    | exact Keeps.refl _ _ | assumption | refine parityScan_keeps ?_ | split

theorem execGraceExpiry_keeps {addr c : Nat} {s : State} {t' : State} (hx : execGraceExpiry addr c s = .next t') :
    Keeps 0xbc000000000000000000000003933a00878a002140088204000000000000000000000000000000000001000000000009f0000000000700000000f0160000014f000000000000002fc000000000015007000008000000cd000000000061fd s t' := by
  unfold execGraceExpiry at hx; obtain rfl := Host.Outcome.next.inj hx
  repeat' with_reducible first
    | exact Keeps.refl _ _ | assumption | refine Keeps.ite ?_ ?_ | refine escalate_keeps ?_ | refine setFltRec_keeps ?_ | split

theorem execBlockResetDone_keeps {addr : Nat} {s : State} {t' : State} (hx : execBlockResetDone addr s = .next t') :
    Keeps (anyField ||| parMask ||| 28671) s t' := by
  unfold execBlockResetDone at hx; obtain rfl := Host.Outcome.next.inj hx
  repeat' with_reducible first
    | exact Keeps.refl _ _ | assumption | refine blockResetDone_keeps ?_ | split

theorem execFaultClear_keeps {m addr word : Nat} {s : State} {t' : State} (hx : execFaultClear m addr word s = .next t') :
    Keeps (busMask ||| parMask ||| 0x2000000000000000000000000000000000000000000000000000000000000000000000000000000000000000000000000038b0000078a00200000000140000000000000000000000000000000000000000000000000000000000000000000000000000040000000000000000000000000000000070000080000000000000000004055) s t' := by
  unfold execFaultClear at hx; obtain rfl := Host.Outcome.next.inj hx
  repeat' with_reducible first
    | exact Keeps.refl _ _ | assumption
    | refine takeIn_keeps ?_ ?_ | refine clearCauses_keeps ?_ | refine asWriter_keeps ?_ ?_ | intro _ | split
    | dsimp only

theorem execFwWdog_keeps {s : State} {t' : State} (hx : execFwWdog s = .next t') :
    Keeps 0x3830000068800200000000000000000000000000000000000000000000000000000000000000000000000000000000000000000000000000000000000000000000000000000000000000000000000006005 s t' := by
  unfold execFwWdog at hx; obtain rfl := Host.Outcome.next.inj hx
  repeat' with_reducible first
    | exact Keeps.refl _ _ | assumption | refine Keeps.ite ?_ ?_ | refine wearNote_keeps ?_ | refine fltEvent_keeps ?_ | refine raiseInt_keeps ?_
    | dsimp only | intro _ | split

theorem execEvlogIdxWrite_keeps {m word : Nat} {s : State} {t' : State} (hx : execEvlogIdxWrite m word s = .next t') :
    Keeps (busMask ||| parMask ||| 0x3834000078a00200000000140000000000000000000000000000000000000000000000000000000000000000000000000000040000000000000000000000000000000070000080000000000000000004055) s t' := by
  unfold execEvlogIdxWrite at hx; obtain rfl := Host.Outcome.next.inj hx
  repeat' with_reducible first
    | exact Keeps.refl _ _ | assumption
    | refine takeIn_keeps ?_ ?_ | refine evlogIdx_keeps ?_ | refine asWriter_keeps ?_ ?_ | intro _
    | dsimp only

theorem execEvlogMark_keeps {m word : Nat} {s : State} {t' : State} (hx : execEvlogMark m word s = .next t') :
    Keeps (busMask ||| parMask ||| 0x3830000078a00200000000140000000000000000000000000000000000000000000000000000000000000000000000000000040000000000000000000000000000000070000080000000000000000004055) s t' := by
  unfold execEvlogMark at hx; obtain rfl := Host.Outcome.next.inj hx
  repeat' with_reducible first
    | exact Keeps.refl _ _ | assumption
    | refine takeIn_keeps ?_ ?_ | refine asWriter_keeps ?_ ?_ | refine evlog_keeps ?_ | intro _
    | dsimp only

end Sys2Proof.Machine
end

