-- ==== Sys2Proof/Laws/Power.lean ====
section
/-! SUPPORT. What the operations and commands of Machine/Power.lean keep, and the components of the state they may write (Laws/Keeps.lean). -/

set_option exponentiation.threshold 2000

set_option Elab.async false

namespace Sys2Proof.Machine

open Sys2Proof

theorem sleepHalts_keeps {U : Nat} {s₀ : State} {s : State} (hk : Keeps U s₀ s) (hT : 0x38300000788002140008004000000000000000000000000000000000000000000000009f0000000000700000000f0160000010f000000000000002fc0000000000150000000000000000500000000004065 ||| U = U := by decide) : Keeps U s₀ (sleepHalts s) := by
  refine Keeps.step ?_ hT hk
  clear hk hT; unfold sleepHalts
  repeat' with_reducible first
    | exact Keeps.refl _ _ | assumption | refine Keeps.ite ?_ ?_ | refine haltSite_keeps ?_ | refine forS_keeps ?_ ?_ | dsimp only | intro _ | split

theorem loadFuses_keeps {U : Nat} {s₀ : State} {s : State} (hk : Keeps U s₀ s) (hT : 0x4380000400000000000000000000000000000000000100000000000000000000000000000000000000000000000000000000000000000000000000000000000000000000000000000000000000000001e0000000000000000001 ||| U = U := by decide) : Keeps U s₀ (loadFuses s) := by
  refine Keeps.step ?_ hT hk
  clear hk hT; unfold loadFuses
  repeat' with_reducible first
    | exact Keeps.refl _ _ | assumption | refine wrb_keeps ?_ | refine wrs_keeps ?_ | refine wr_keeps ?_ | dsimp only

theorem remapMem_wf (s : State) (h : Memory.wf s.mem = true) : Memory.wf (remapMem s) = true := by
  have hall : ∀ c ∈ s.mem, c.2 ≠ 0 := by
    simp only [Memory.wf, Bool.and_eq_true, List.all_eq_true] at h
    intro c hc; simpa using h.2 c hc
  unfold remapMem
  generalize s.mem = l at hall
  suffices H : ∀ m : List Host.Cell, Memory.wf m = true → Memory.wf (l.foldl (fun m c =>
    match foundAt s c.1 with | some k => tabIns m k c.2 | none => m) m) = true from H [] rfl
  induction l with
  | nil => exact fun m hm => hm
  | cons c l ih =>
    intro m hm
    refine ih (fun c hc => hall c (List.mem_cons_of_mem _ hc)) _ ?_
    dsimp only
    split
    · simp only [Memory.wf, Bool.and_eq_true, List.all_eq_true] at hm ⊢
      refine ⟨tabSorted_tabIns _ _ _ hm.1, fun x hx => ?_⟩
      rcases mem_tabIns _ _ _ _ hx with rfl | hx
      · simpa using hall c (List.mem_cons_self ..)
      · exact hm.2 x hx
    · exact hm

theorem deviceReset_keeps {U : Nat} {s₀ : State} {keep : Bool} {s : State} (hk : Keeps U s₀ s) (hT : anyField ||| parMask ||| busMask ||| 32762 ||| U = U := by decide) : Keeps U s₀ (deviceReset keep s) := by
  refine Keeps.step ?_ hT hk
  clear hk hT
  unfold deviceReset
  dsimp only
  refine wr_keeps (loadFuses_keeps (forS_keeps (fun b x => emit_keeps (Keeps.refl _ _) (by decide)) (wrs_keeps (Keeps.foldl _ (fun x a => wr_keeps (Keeps.refl _ _) (sub_trans (fldMask_any _) (by decide))) ?_) (fun x _ => sub_trans (fldMask_any x.1) (by decide)))) (by decide)) (sub_trans (fldMask_any _) (by decide))
  · constructor
    case wfMem =>
      intro h
      dsimp only
      split
      · exact remapMem_wf s h
      · rfl
    case flds => exact fun k h => absurd h (by rw [Nat.testBit_or, Nat.testBit_or, Nat.testBit_or, anyField_bit, Bool.true_or, Bool.true_or, Bool.true_or]; decide)
    case sticky => exact fun h => absurd h (by rw [Nat.testBit_or, Nat.testBit_or, Nat.testBit_or, anyField_sticky, Bool.true_or, Bool.true_or, Bool.true_or]; decide)
    all_goals first | exact rfl | exact List.prefix_refl _ | exact Nat.le_refl _ | exact fun w => w | exact fun _ _ w => w | exact fun _ => rfl | exact fun _ _ => rfl | exact fun _ => Nat.zero_le _ | exact fun h => absurd h (by decide) | exact fun _ => ⟨fun _ _ => ⟨fun w => w, fun w => w⟩⟩

theorem setStage_keeps {U : Nat} {s₀ : State} {x : Stage} {s : State} (hk : Keeps U s₀ s) (hT : 2048 ||| U = U := by decide) : Keeps U s₀ (setStage x s) := by
  refine Keeps.step ?_ hT hk
  clear hk hT; unfold setStage
  repeat' with_reducible first
    | exact Keeps.refl _ _ | assumption
    | (constructor <;> first | exact fun _ => rfl | exact fun _ _ => rfl | exact rfl | exact List.prefix_refl _ | exact Nat.le_refl _ | exact fun w => w | exact fun _ _ w => w | exact fun h => absurd h (by decide) | exact fun _ => ⟨fun _ _ => ⟨fun w => w, fun w => w⟩⟩)
    | refine Keeps.setPwr ?_

theorem powerUp_keeps {U : Nat} {s₀ : State} {s : State} (hk : Keeps U s₀ s) (hT : 0x10000000000000000000000000000000000000000000000000000000000000000000000000000000000000000000000000000000000000000000000000000000000000000000000000000000000000000801 ||| U = U := by decide) : Keeps U s₀ (powerUp s) := by
  refine Keeps.step ?_ hT hk
  clear hk hT; unfold powerUp
  repeat' with_reducible first
    | exact Keeps.refl _ _ | assumption | refine Keeps.ite ?_ ?_ | refine setStage_keeps ?_ | refine wr_keeps ?_ | split

theorem rstReset_keeps {U : Nat} {s₀ : State} {s : State} (hk : Keeps U s₀ s) (hT : (anyField ||| busMask ||| parMask ||| 32766) ||| U = U := by decide) : Keeps U s₀ (rstReset s) := by
  refine Keeps.step ?_ hT hk
  clear hk hT; unfold rstReset
  repeat' with_reducible first
    | exact Keeps.refl _ _ | assumption | refine setStage_keeps ?_ | refine deviceReset_keeps ?_ | refine ptbLock_keeps ?_ | refine evlog_keeps ?_

theorem restart_keeps {U : Nat} {s₀ : State} {s : State} (hk : Keeps U s₀ s) (hT : (anyField ||| busMask ||| parMask ||| 32766) ||| U = U := by decide) : Keeps U s₀ (restart s) := by
  refine Keeps.step ?_ hT hk
  clear hk hT; unfold restart
  repeat' with_reducible first
    | exact Keeps.refl _ _ | assumption | refine Keeps.ite ?_ ?_ | refine rstReset_keeps ?_ | refine powerUp_keeps ?_ | split

theorem logOff_keeps {U : Nat} {s₀ : State} {p : Page} {s : State} (hk : Keeps U s₀ s) (hT : 0x30000000000000000000000000000000000000000000000000000000000000000000000000000000000000000000000000000000000000000000000000000000000000000000000000000000000000005 ||| U = U := by decide) : Keeps U s₀ (logOff p s) := by
  refine Keeps.step ?_ hT hk
  clear hk hT; unfold logOff
  repeat' with_reducible first
    | exact Keeps.refl _ _ | assumption
    | refine evlog_keeps ?_ | refine Keeps.ite ?_ ?_ | dsimp only | intro _ | split

theorem brownOut_keeps {U : Nat} {s₀ : State} {s : State} (hk : Keeps U s₀ s) (hT : (anyField ||| busMask ||| parMask ||| 32766) ||| U = U := by decide) : Keeps U s₀ (brownOut s) := by
  refine Keeps.step ?_ hT hk
  clear hk hT; unfold brownOut
  repeat' with_reducible first
    | exact Keeps.refl _ _ | assumption
    | refine forS_keeps ?_ ?_ | refine logOff_keeps ?_ | refine Keeps.ite ?_ ?_ | refine setStage_keeps ?_ | refine deviceReset_keeps ?_ | refine evlog_keeps ?_
    | refine incSat_keeps ?_ (sub_trans (fldMask_any _) (by decide)) | refine wrb_keeps ?_ (sub_trans (fldMask_any _) (by decide)) | dsimp only
    | split
    | intro _

theorem powerOnReset_keeps {U : Nat} {s₀ : State} {vin hbmKept : Bool} {s : State} (hk : Keeps U s₀ s) (hT : anyField ||| parMask ||| busMask ||| 32767 ||| U = U := by decide) : Keeps U s₀ (powerOnReset vin hbmKept s) := by
  refine Keeps.step ?_ hT hk
  clear hk hT
  have h : Keeps (anyField ||| parMask ||| busMask ||| 32767) s { s with mgt := { s.mgt with log := [] }, tim := State.reset.tim } :=
    Keeps.setLog (s := { s with tim := State.reset.tim }) (fun _ y hy => absurd hy (by simp)) rfl (Keeps.setTim (Keeps.refl _ _) (by decide)) (by decide)
  unfold powerOnReset
  dsimp only
  refine powerUp_keeps ?_ (by decide)
  exact wrs_keeps (wrs_keeps (wrs_keeps (deviceReset_keeps h (by decide)) (fun x _ => sub_trans (fldMask_any x.1) (by decide))) (fun x _ => sub_trans (fldMask_any x.1) (by decide))) (fun x _ => sub_trans (fldMask_any x.1) (by decide))

theorem ilimEffect_keeps {U : Nat} {s₀ : State} {v : Nat} {s : State} (hk : Keeps U s₀ s) (hT : 0x4003830000068800200000000000000000000000000000000000000000000000000000000000000000000000000000000000000000000000000000000000000000000000000000000000000000000000004005 ||| U = U := by decide) : Keeps U s₀ (ilimEffect v s) := by
  refine Keeps.step ?_ hT hk
  clear hk hT; unfold ilimEffect
  repeat' with_reducible first
    | exact Keeps.refl _ _ | assumption | refine Keeps.ite ?_ ?_ | refine fltEvent_keeps ?_ | refine wr_keeps ?_ | split

theorem disableEffect_keeps {U : Nat} {s₀ : State} {p : Page} {s : State} (hk : Keeps U s₀ s) (hT : 0x38300000689a0200000000000000000000000000000000000000000000000000000000000000000000000000000000000000000000000000000000000000000000000000000000000000000000000004905 ||| U = U := by decide) : Keeps U s₀ (disableEffect p s) := by
  refine Keeps.step ?_ hT hk
  clear hk hT; unfold disableEffect
  repeat' with_reducible first
    | exact Keeps.refl _ _ | assumption | refine turnOff_keeps ?_ | refine Keeps.ite ?_ ?_ | refine domPush_keeps ?_ | refine calAbortDue_keeps ?_
    | refine fltEvent_keeps ?_ | refine wrb_keeps ?_ | refine wrs_keeps ?_ | dsimp only | intro _ | split

theorem pageOff_keeps {U : Nat} {s₀ : State} {p : Page} {s : State} (hk : Keeps U s₀ s) (hT : (anyField ||| parMask ||| 5) ||| U = U := by decide) : Keeps U s₀ (pageOff p s) := by
  refine Keeps.step ?_ hT hk
  clear hk hT; unfold pageOff
  repeat' with_reducible first
    | exact Keeps.refl _ _ | assumption
    | refine logOff_keeps ?_ | refine Keeps.ite ?_ ?_ | refine resetFields_keeps ?_ | refine evlog_keeps ?_ | dsimp only | split
    | (constructor <;> first | exact fun _ => rfl | exact fun _ _ => rfl | exact rfl | exact List.prefix_refl _ | exact Nat.le_refl _ | exact fun w => w | exact fun _ _ w => w | exact fun h => absurd h (by decide) | exact fun _ => ⟨fun _ _ => ⟨fun w => w, fun w => w⟩⟩)
    | refine Keeps.setMgt ⟨rfl, rfl⟩ ?_
    | intro _

theorem dropLatches_keeps {U : Nat} {s₀ : State} {s : State} (hk : Keeps U s₀ s) (hT : 32 ||| U = U := by decide) : Keeps U s₀ (dropLatches s) := by
  refine Keeps.step ?_ hT hk
  clear hk hT; unfold dropLatches
  repeat' with_reducible first
    | exact Keeps.refl _ _ | assumption
    | refine Keeps.setPat ?_ | dsimp only | intro _
    | (constructor <;> first | exact fun _ => rfl | exact fun _ _ => rfl | exact rfl | exact List.prefix_refl _ | exact Nat.le_refl _ | exact fun w => w | exact fun _ _ w => w | exact fun h => absurd h (by decide) | exact fun _ => ⟨fun _ _ => ⟨fun w => w, fun w => w⟩⟩)

theorem storageOff_keeps {U : Nat} {s₀ : State} {d : Nat} {s : State} (hk : Keeps U s₀ s) (hT : 0x3830000078a00200000800400000000000000000000000000000000000000000000000000001000000000000000f00000002040000000000000002fc00000000000000000000000000000000000000042f5 ||| U = U := by decide) : Keeps U s₀ (storageOff d s) := by
  refine Keeps.step ?_ hT hk
  clear hk hT; unfold storageOff
  repeat' with_reducible first
    | exact Keeps.refl _ _ | assumption
    | refine dropLatches_keeps ?_ | refine resetTurns_keeps ?_
    | refine pecLost_keeps ?_ | refine withdrawSite_keeps ?_ | refine csLost_keeps ?_ | refine emit_keeps ?_ | refine Keeps.ite ?_ ?_ | refine engDiscard_keeps ?_
    | refine setAu_keeps ?_ | refine setSring_keeps ?_ | refine setConv_keeps ?_ | refine setLedger_keeps ?_ | refine setPin_keeps ?_
    | refine setFur_keeps ?_ | refine setBank_keeps ?_ | refine wrs_keeps ?_ | refine forS_keeps ?_ ?_ | dsimp only | intro _
    | refine Keeps.setQueues (fun w => w) (fun _ => by simp) ?_
    | (constructor <;> first | exact fun _ => rfl | exact fun _ _ => rfl | exact rfl | exact List.prefix_refl _ | exact Nat.le_refl _ | exact fun w => w | exact fun _ _ w => w | exact fun h => absurd h (by decide) | exact fun _ => ⟨fun _ _ => ⟨fun w => w, fun w => w⟩⟩)
    | refine Keeps.setTlk ?_ | refine Keeps.setPin ?_ | refine Keeps.setMemc ⟨rfl, rfl⟩ ?_ | split

theorem domOff_keeps {U : Nat} {s₀ : State} {d : Nat} {s : State} (hk : Keeps U s₀ s) (hT : (anyField ||| parMask ||| 25333) ||| U = U := by decide) : Keeps U s₀ (domOff d s) := by
  refine Keeps.step ?_ hT hk
  clear hk hT; unfold domOff
  repeat' with_reducible first
    | exact Keeps.refl _ _ | assumption | refine Keeps.ite ?_ ?_ | refine storageOff_keeps ?_ | refine pageOff_keeps ?_ | refine ptbLock_keeps ?_
    | refine wrb_keeps ?_ (sub_trans (fldMask_any _) (by decide)) | refine wr_keeps ?_ (sub_trans (fldMask_any _) (by decide))
    | refine forS_keeps ?_ ?_ | dsimp only | intro _ | split

theorem domUp_keeps {U : Nat} {s₀ : State} {d : Nat} {s : State} (hk : Keeps U s₀ s) (hT : 0x1383000007880020000000000000000000000000020000000000000000000000000000000000000000000000000000000000002000000000000000000000000f000000070000180000000000000000004075 ||| U = U := by decide) : Keeps U s₀ (domUp d s) := by
  refine Keeps.step ?_ hT hk
  clear hk hT; unfold domUp
  repeat' with_reducible first
    | exact Keeps.refl _ _ | assumption
    | refine takeShares_keeps ?_ | refine fcStart_keeps ?_ | refine csLoad_keeps ?_ | refine emit_keeps ?_ | refine Keeps.ite ?_ ?_
    | refine beginSearch_keeps ?_ | refine wr_keeps ?_ | refine forS_keeps ?_ ?_ | dsimp only | intro _ | split

theorem domPop_keeps {U : Nat} {s₀ : State} {s : State} (hk : Keeps U s₀ s) (hT : 2048 ||| U = U := by decide) : Keeps U s₀ (domPop s) := by
  refine Keeps.step ?_ hT hk
  clear hk hT; unfold domPop
  repeat' with_reducible first
    | exact Keeps.refl _ _ | assumption
    | (constructor <;> first | exact fun _ => rfl | exact fun _ _ => rfl | exact rfl | exact List.prefix_refl _ | exact Nat.le_refl _ | exact fun w => w | exact fun _ _ w => w | exact fun h => absurd h (by decide) | exact fun _ => ⟨fun _ _ => ⟨fun w => w, fun w => w⟩⟩)
    | refine Keeps.setPwr ?_

theorem setFn_keeps {U : Nat} {s₀ : State} {on off : List Page} {s : State} (hk : Keeps U s₀ s) (hT : 2048 ||| U = U := by decide) : Keeps U s₀ (setFn on off s) := by
  refine Keeps.step ?_ hT hk
  clear hk hT; unfold setFn
  repeat' with_reducible first
    | exact Keeps.refl _ _ | assumption
    | refine Keeps.setPwr ?_ | dsimp only | intro _
    | (constructor <;> first | exact fun _ => rfl | exact fun _ _ => rfl | exact rfl | exact List.prefix_refl _ | exact Nat.le_refl _ | exact fun w => w | exact fun _ _ w => w | exact fun h => absurd h (by decide) | exact fun _ => ⟨fun _ _ => ⟨fun w => w, fun w => w⟩⟩)

theorem shutdownDone_keeps {U : Nat} {s₀ : State} {d : Nat} {s : State} (hk : Keeps U s₀ s) (hT : (anyField ||| parMask ||| 27381) ||| U = U := by decide) : Keeps U s₀ (shutdownDone d s) := by
  refine Keeps.step ?_ hT hk
  clear hk hT; unfold shutdownDone
  repeat' with_reducible first
    | exact Keeps.refl _ _ | assumption
    | refine setFn_keeps ?_ | refine forS_keeps ?_ ?_ | refine wrs_keeps ?_ | refine Keeps.ite ?_ ?_ | refine domPop_keeps ?_ | refine domOff_keeps ?_
    | dsimp only | intro _ | split
    | (constructor <;> first | exact fun _ => rfl | exact fun _ _ => rfl | exact rfl | exact List.prefix_refl _ | exact Nat.le_refl _ | exact fun w => w | exact fun _ _ w => w | exact fun h => absurd h (by decide) | exact fun _ => ⟨fun _ _ => ⟨fun w => w, fun w => w⟩⟩)
    | refine Keeps.setPwr ?_

theorem startupDone_keeps {U : Nat} {s₀ : State} {d : Nat} {s : State} (hk : Keeps U s₀ s) (hT : 0x1383000007898020000000000000000000000000020000000000000000000000000000000000000000000000000000000000002000000000000000000000000f000000070000180000000000000000005875 ||| U = U := by decide) : Keeps U s₀ (startupDone d s) := by
  refine Keeps.step ?_ hT hk
  clear hk hT; unfold startupDone
  repeat' with_reducible first
    | exact Keeps.refl _ _ | assumption
    | refine setFn_keeps ?_ | refine forS_keeps ?_ ?_ | refine wrb_keeps ?_ | refine flashStart_keeps ?_ | refine Keeps.ite ?_ ?_ | refine domPop_keeps ?_ | refine domUp_keeps ?_
    | dsimp only | intro _ | split
    | (constructor <;> first | exact fun _ => rfl | exact fun _ _ => rfl | exact rfl | exact List.prefix_refl _ | exact Nat.le_refl _ | exact fun w => w | exact fun _ _ w => w | exact fun h => absurd h (by decide) | exact fun _ => ⟨fun _ _ => ⟨fun w => w, fun w => w⟩⟩)
    | refine Keeps.setPwr ?_

theorem recordBases_keeps {U : Nat} {s₀ : State} {s : State} (hk : Keeps U s₀ s) (hT : 8 ||| U = U := by decide) : Keeps U s₀ (recordBases s) := by
  refine Keeps.step ?_ hT hk
  clear hk hT; unfold recordBases
  repeat' with_reducible first
    | exact Keeps.refl _ _ | assumption | intro _
    | (constructor <;> first | exact fun _ => rfl | exact fun _ _ => rfl | exact rfl | exact List.prefix_refl _ | exact Nat.le_refl _ | exact fun w => w | exact fun _ _ w => w | exact fun h => absurd h (by decide) | exact fun _ => ⟨fun _ _ => ⟨fun w => w, fun w => w⟩⟩)
    | refine Keeps.setTim ?_

theorem calSleep_keeps {U : Nat} {s₀ : State} {s : State} (hk : Keeps U s₀ s) (hT : 0x10000000000000000000000000000000000000000000003c00000000000000000000000000000000000000000000000000000000000000000000000000000000000000000000000000000000000000000101 ||| U = U := by decide) : Keeps U s₀ (calSleep s) := by
  refine Keeps.step ?_ hT hk
  clear hk hT; unfold calSleep
  repeat' with_reducible first
    | exact Keeps.refl _ _ | assumption | refine calAbortAll_keeps ?_ | refine setCal_keeps ?_ | dsimp only | intro _

theorem sleepSteps_keeps {U : Nat} {s₀ : State} {s : State} (hk : Keeps U s₀ s) (hT : 0x138300000788002000008004000000000000000000c0003c00000000000000000000000000000000000000000000000000000000000000000000002fc000000000000000000000000000000000000000432d ||| U = U := by decide) : Keeps U s₀ (sleepSteps s) := by
  refine Keeps.step ?_ hT hk
  clear hk hT; unfold sleepSteps
  repeat' with_reducible first
    | exact Keeps.refl _ _ | assumption | refine Keeps.ite ?_ ?_ | refine recordBases_keeps ?_ | refine entryDecision_keeps ?_
    | refine speedSwitch_keeps ?_ | refine calSleep_keeps ?_ | refine withdrawSite_keeps ?_ | refine forS_keeps ?_ ?_ | refine raiseInt_keeps ?_
    | dsimp only | intro _ | split

theorem sleepDecision_keeps {U : Nat} {s₀ : State} {s : State} (hk : Keeps U s₀ s) (hT : 0x178300000788002140008004000000000000000000c0003c000000000000000000000009f0000000000700000000f0160000010f000000000000002fc0000000000150000000000000000500000000004b6d ||| U = U := by decide) : Keeps U s₀ (sleepDecision s) := by
  refine Keeps.step ?_ hT hk
  clear hk hT; unfold sleepDecision
  repeat' with_reducible first
    | exact Keeps.refl _ _ | assumption | refine sleepHalts_keeps ?_ | refine sleepSteps_keeps ?_ | refine Keeps.ite ?_ ?_ | refine calSleep_keeps ?_
    | refine recordBases_keeps ?_ | refine speedSwitch_keeps ?_ | refine entryDecision_keeps ?_ | refine withdrawSite_keeps ?_
    | refine raiseInt_keeps ?_ | refine wr_keeps ?_ | refine forS_keeps ?_ ?_ | dsimp only | intro _
    | (constructor <;> first | exact fun _ => rfl | exact fun _ _ => rfl | exact rfl | exact List.prefix_refl _ | exact Nat.le_refl _ | exact fun w => w | exact fun _ _ w => w | exact fun h => absurd h (by decide) | exact fun _ => ⟨fun _ _ => ⟨fun w => w, fun w => w⟩⟩)
    | refine Keeps.setPwr ?_ | split

theorem pwrInt_keeps {U : Nat} {s₀ : State} {b : Nat} {s : State} (hk : Keeps U s₀ s) (hT : 0x800200000000000000000000000000000000000000000000000000000000000000000000000000000000000000000000000000000000000000000000000000000000000000000000000004001 ||| U = U := by decide) : Keeps U s₀ (pwrInt b s) := by
  refine Keeps.step ?_ hT hk
  clear hk hT; unfold pwrInt
  repeat' with_reducible first
    | exact Keeps.refl _ _ | assumption | refine raiseInt_keeps ?_ | refine forS_keeps ?_ ?_ | intro _

theorem startWake_keeps {U : Nat} {s₀ : State} {l : List Nat} {s : State} (hk : Keeps U s₀ s) (hT : 0x2004030000000000000000000000000000000000000000000000000000000000000000000000000000000000000000000000000000000000000000000000000000000000000000000000000000000000000805 ||| U = U := by decide) : Keeps U s₀ (startWake l s) := by
  refine Keeps.step ?_ hT hk
  clear hk hT; unfold startWake
  repeat' with_reducible first
    | exact Keeps.refl _ _ | assumption | refine Keeps.foldl _ ?_ ?_ | refine evlog_keeps ?_ | refine wrs_keeps ?_ | dsimp only
    | (constructor <;> first | exact fun _ => rfl | exact fun _ _ => rfl | exact rfl | exact List.prefix_refl _ | exact Nat.le_refl _ | exact fun w => w | exact fun _ _ w => w | exact fun h => absurd h (by decide) | exact fun _ => ⟨fun _ _ => ⟨fun w => w, fun w => w⟩⟩)
    | refine Keeps.setPwr ?_

theorem sleepOff_keeps {U : Nat} {s₀ : State} {s : State} (hk : Keeps U s₀ s) (hT : (anyField ||| parMask ||| 27381) ||| U = U := by decide) : Keeps U s₀ (sleepOff s) := by
  refine Keeps.step ?_ hT hk
  clear hk hT; unfold sleepOff
  repeat' with_reducible first
    | exact Keeps.refl _ _ | assumption | refine domOff_keeps ?_ | refine forS_keeps ?_ ?_ | intro _ | split | dsimp only
    | (constructor <;> first | exact fun _ => rfl | exact fun _ _ => rfl | exact rfl | exact List.prefix_refl _ | exact Nat.le_refl _ | exact fun w => w | exact fun _ _ w => w | exact fun h => absurd h (by decide) | exact fun _ => ⟨fun _ _ => ⟨fun w => w, fun w => w⟩⟩)
    | refine Keeps.setPwr ?_

theorem sleepEntryDone_keeps {U : Nat} {s₀ : State} {s : State} (hk : Keeps U s₀ s) (hT : (anyField ||| parMask ||| 32767) ||| U = U := by decide) : Keeps U s₀ (sleepEntryDone s) := by
  refine Keeps.step ?_ hT hk
  clear hk hT; unfold sleepEntryDone
  repeat' with_reducible first
    | exact Keeps.refl _ _ | assumption | refine Keeps.ite ?_ ?_ | refine sleepOff_keeps ?_ | refine sleepSteps_keeps ?_ | refine startWake_keeps ?_ | refine pwrInt_keeps ?_
    | refine entryCommand_keeps ?_ | refine entryDecision_keeps ?_ | refine flashStart_keeps ?_ | refine evlog_keeps ?_
    | refine incSat_keeps ?_ (sub_trans (fldMask_any _) (by decide)) | refine wr_keeps ?_ (sub_trans (fldMask_any _) (by decide)) | dsimp only | split
    | (constructor <;> first | exact fun _ => rfl | exact fun _ _ => rfl | exact rfl | exact List.prefix_refl _ | exact Nat.le_refl _ | exact fun w => w | exact fun _ _ w => w | exact fun h => absurd h (by decide) | exact fun _ => ⟨fun _ _ => ⟨fun w => w, fun w => w⟩⟩)
    | refine Keeps.setMemc ⟨rfl, rfl⟩ ?_ | refine Keeps.setPwr ?_

theorem wakeSource_keeps {U : Nat} {s₀ : State} {k : Nat} {s : State} (hk : Keeps U s₀ s) (hT : 0x2004030000000000000000000000000000000000000000000000000000000000000000000000000000000000000000000000000000000000000000000000000000000000000000000000000000000000000805 ||| U = U := by decide) : Keeps U s₀ (wakeSource k s) := by
  refine Keeps.step ?_ hT hk
  clear hk hT; unfold wakeSource
  repeat' with_reducible first
    | exact Keeps.refl _ _ | assumption | refine Keeps.ite ?_ ?_ | refine startWake_keeps ?_ | dsimp only | split
    | (constructor <;> first | exact fun _ => rfl | exact fun _ _ => rfl | exact rfl | exact List.prefix_refl _ | exact Nat.le_refl _ | exact fun w => w | exact fun _ _ w => w | exact fun h => absurd h (by decide) | exact fun _ => ⟨fun _ _ => ⟨fun w => w, fun w => w⟩⟩)
    | refine Keeps.setPwr ?_

theorem wakeBase_keeps {U : Nat} {s₀ : State} {b : Nat} {s : State} (hk : Keeps U s₀ s) (hT : 0x800200000000000000000000000000000000000000000000000000000000000000000000000000000000000000000000000000000000000000000000000000000000000020000003c00004009 ||| U = U := by decide) : Keeps U s₀ (wakeBase b s) := by
  refine Keeps.step ?_ hT hk
  clear hk hT; unfold wakeBase
  repeat' with_reducible first
    | exact Keeps.refl _ _ | assumption
    | refine reschedule_keeps ?_ | refine tbSet_keeps ?_ | dsimp only
    | intro _

theorem wakeRef_keeps {U : Nat} {s₀ : State} {m : HoldMeas} {s : State} (hk : Keeps U s₀ s) (hT : 0x3830000078800200000000000000000000000000000000000000000000000000000000000000000000000000000000000000000000000000000000000000000000000000000000000000000000098c0400d ||| U = U := by decide) : Keeps U s₀ (wakeRef m s) := by
  refine Keeps.step ?_ hT hk
  clear hk hT; unfold wakeRef
  repeat' with_reducible first
    | exact Keeps.refl _ _ | assumption | refine Keeps.ite ?_ ?_ | refine enterHoldover_keeps ?_ | refine raiseInt_keeps ?_ | dsimp only | intro _
    | split

theorem wakeDone_keeps {U : Nat} {s₀ : State} {m : HoldMeas} {s : State} (hk : Keeps U s₀ s) (hT : 0x1783000007880020000000000000000000000000020000000000000000000000000000000000000000000000000000000000002000000000000000000000000f000000070000180000020000003c98c05a7d ||| U = U := by decide) : Keeps U s₀ (wakeDone m s) := by
  refine Keeps.step ?_ hT hk
  clear hk hT; unfold wakeDone
  repeat' with_reducible first
    | exact Keeps.refl _ _ | assumption
    | refine reschedule_keeps ?_ | refine Keeps.ite ?_ ?_ | refine wakeRef_keeps ?_ | refine wakeBase_keeps ?_ | refine pwrInt_keeps ?_
    | refine domUp_keeps ?_ | refine selfRefreshExit_keeps ?_ | refine flashStart_keeps ?_ | refine wr_keeps ?_ | refine forS_keeps ?_ ?_ | dsimp only
    | intro _ | split
    | (constructor <;> first | exact fun _ => rfl | exact fun _ _ => rfl | exact rfl | exact List.prefix_refl _ | exact Nat.le_refl _ | exact fun w => w | exact fun _ _ w => w | exact fun h => absurd h (by decide) | exact fun _ => ⟨fun _ _ => ⟨fun w => w, fun w => w⟩⟩)
    | refine Keeps.setPwr ?_

theorem execRstNAssert_keeps {s : State} {t' : State} (hx : execRstNAssert s = .next t') :
    Keeps (anyField ||| busMask ||| parMask ||| 32766) s t' := by
  unfold execRstNAssert at hx; obtain rfl := Host.Outcome.next.inj hx
  repeat' with_reducible first
    | exact Keeps.refl _ _ | assumption | refine Keeps.ite ?_ ?_ | refine rstReset_keeps ?_ | dsimp only | split
    | (constructor <;> first | exact fun _ => rfl | exact fun _ _ => rfl | exact rfl | exact List.prefix_refl _ | exact Nat.le_refl _ | exact fun w => w | exact fun _ _ w => w | exact fun h => absurd h (by decide) | exact fun _ => ⟨fun _ _ => ⟨fun w => w, fun w => w⟩⟩)
    | refine Keeps.setPwr ?_

theorem execRstNRelease_keeps {s : State} {t' : State} (hx : execRstNRelease s = .next t') :
    Keeps 0x10000000000000000000000000000000000000000000000000000000000000000000000000000000000000000000000000000000000000000000000000000000000000000000000000000000000000000801 s t' := by
  unfold execRstNRelease at hx; obtain rfl := Host.Outcome.next.inj hx
  repeat' with_reducible first
    | exact Keeps.refl _ _ | assumption | refine Keeps.ite ?_ ?_ | refine powerUp_keeps ?_ | dsimp only | split
    | (constructor <;> first | exact fun _ => rfl | exact fun _ _ => rfl | exact rfl | exact List.prefix_refl _ | exact Nat.le_refl _ | exact fun w => w | exact fun _ _ w => w | exact fun h => absurd h (by decide) | exact fun _ => ⟨fun _ _ => ⟨fun w => w, fun w => w⟩⟩)
    | refine Keeps.setPwr ?_

theorem vinMeas_keeps {U : Nat} {s₀ : State} {lo hi : Nat} {s : State} (hk : Keeps U s₀ s) (hT : 0x8000000000000000000000000000000000000000000000000000000000000000000000000000000000000000000000000000000000000000000000000000000000000000000000000000000000000000008001 ||| U = U := by decide) : Keeps U s₀ (vinMeas lo hi s) := by
  refine Keeps.step ?_ hT hk
  clear hk hT; unfold vinMeas
  repeat' with_reducible first
    | exact Keeps.refl _ _ | assumption
    | refine freeStep_keeps ?_ | refine wr_keeps ?_ | dsimp only | intro _

theorem execBrownOut_keeps {s : State} {t' : State} (hx : execBrownOut s = .next t') :
    Keeps (anyField ||| busMask ||| parMask ||| 65534) s t' := by
  unfold execBrownOut at hx; obtain rfl := Host.Outcome.next.inj hx
  repeat' with_reducible first
    | exact Keeps.refl _ _ | assumption
    | refine vinMeas_keeps ?_ | refine Keeps.ite ?_ ?_ | refine brownOut_keeps ?_
    | dsimp only | intro _ | split

theorem vinBack_keeps {U : Nat} {s₀ : State} {s : State} (hk : Keeps U s₀ s) (hT : 0x18000000000000000000000000000000000000000000000000000000000000000000000000000000000000000000000000000000000000000000000000000000000000000000000000000000000000000801 ||| U = U := by decide) : Keeps U s₀ (vinBack s) := by
  refine Keeps.step ?_ hT hk
  clear hk hT; unfold vinBack
  repeat' with_reducible first
    | exact Keeps.refl _ _ | assumption
    | refine powerUp_keeps ?_ | refine wrb_keeps ?_ | dsimp only | intro _

theorem execVinRestore_keeps {s : State} {t' : State} (hx : execVinRestore s = .next t') :
    Keeps 0x8018000000000000000000000000000000000000000000000000000000000000000000000000000000000000000000000000000000000000000000000000000000000000000000000000000000000000008801 s t' := by
  unfold execVinRestore at hx; obtain rfl := Host.Outcome.next.inj hx
  repeat' with_reducible first
    | exact Keeps.refl _ _ | assumption
    | refine vinBack_keeps ?_ | refine vinMeas_keeps ?_ | refine Keeps.ite ?_ ?_ | refine powerUp_keeps ?_ | refine wrb_keeps ?_ | split
    | dsimp only | intro _

theorem overtemp_keeps {U : Nat} {s₀ : State} {t : Int} {s : State} (hk : Keeps U s₀ s) (hT : (anyField ||| busMask ||| parMask ||| 32766) ||| U = U := by decide) : Keeps U s₀ (overtemp t s) := by
  refine Keeps.step ?_ hT hk
  clear hk hT; unfold overtemp
  repeat' with_reducible first
    | exact Keeps.refl _ _ | assumption
    | refine wr_keeps ?_ | refine brownOut_keeps ?_ | dsimp only | intro _

theorem execJunctionOvertemp_keeps {t : Int} {s : State} {t' : State} (hx : execJunctionOvertemp t s = .next t') :
    Keeps (anyField ||| busMask ||| parMask ||| 32766) s t' := by
  unfold execJunctionOvertemp at hx; obtain rfl := Host.Outcome.next.inj hx
  repeat' with_reducible first
    | exact Keeps.refl _ _ | assumption
    | refine overtemp_keeps ?_ | refine Keeps.ite ?_ ?_ | refine brownOut_keeps ?_
    | refine wr_keeps ?_ (sub_trans (fldMask_any _) (by decide)) | split
    | dsimp only | intro _

theorem execVstbyLoss_keeps {s : State} {t' : State} (hx : execVstbyLoss s = .next t') :
    Keeps (anyField ||| busMask ||| parMask ||| 32766) s t' := by
  unfold execVstbyLoss at hx; obtain rfl := Host.Outcome.next.inj hx
  repeat' with_reducible first
    | exact Keeps.refl _ _ | assumption | refine setStage_keeps ?_ | refine deviceReset_keeps ?_

theorem execPowerOnReset_keeps {vin hbmKept : Bool} {s : State} {t' : State} (hx : execPowerOnReset vin hbmKept s = .next t') :
    Keeps (anyField ||| busMask ||| parMask ||| 32766) s t' := by
  unfold execPowerOnReset at hx; obtain rfl := Host.Outcome.next.inj hx
  repeat' with_reducible first
    | exact Keeps.refl _ _ | assumption | refine powerOnReset_keeps ?_

theorem execVinLow_keeps {mv : Nat} {s : State} {t' : State} (hx : execVinLow mv s = .next t') :
    Keeps (anyField ||| busMask ||| parMask ||| 32766) s t' := by
  unfold execVinLow at hx; obtain rfl := Host.Outcome.next.inj hx
  repeat' with_reducible first
    | exact Keeps.refl _ _ | assumption
    | refine setStage_keeps ?_ | refine deviceReset_keeps ?_ | refine Keeps.ite ?_ ?_ | refine setLiveInt_keeps ?_ | refine wrs_keeps ?_ | split
    | dsimp only | intro _

theorem execVinOk_keeps {mv : Nat} {s : State} {t' : State} (hx : execVinOk mv s = .next t') :
    Keeps 0x801b830000078800200000000000000000000000000000000000000000000000000000000000000000000000000000000000000000000000000000000000000000000000000000000000000000000000004805 s t' := by
  unfold execVinOk at hx; obtain rfl := Host.Outcome.next.inj hx
  repeat' with_reducible first
    | exact Keeps.refl _ _ | assumption
    | refine vinBack_keeps ?_ | refine wr_keeps ?_ | refine Keeps.ite ?_ ?_ | refine setLive_keeps ?_ | refine wrs_keeps ?_ | split
    | dsimp only | intro _

theorem execOvercurrent_keeps {i : Nat} {s : State} {t' : State} (hx : execOvercurrent i s = .next t') :
    Keeps 0x10003830000078800200000000000000000000000000000000000000000000000000000000000000000000000000000000000000000000000000000000000000000000000000000000000000000000000004005 s t' := by
  unfold execOvercurrent at hx; obtain rfl := Host.Outcome.next.inj hx
  repeat' with_reducible first
    | exact Keeps.refl _ _ | assumption | refine Keeps.ite ?_ ?_ | refine setLiveInt_keeps ?_ | refine wr_keeps ?_ | split

theorem execCurrentBelowLimit_keeps {i : Nat} {s : State} {t' : State} (hx : execCurrentBelowLimit i s = .next t') :
    Keeps 0x10003830000078800200000000000000000000000000000000000000000000000000000000000000000000000000000000000000000000000000000000000000000000000000000000000000000000000004005 s t' := by
  unfold execCurrentBelowLimit at hx; obtain rfl := Host.Outcome.next.inj hx
  repeat' with_reducible first
    | exact Keeps.refl _ _ | assumption | refine Keeps.ite ?_ ?_ | refine setLive_keeps ?_ | refine wr_keeps ?_ | split

theorem execRegFault_keeps {s : State} {t' : State} (hx : execRegFault s = .next t') :
    Keeps 0x3830000078800200000000000000000000000000000000000000000000000000000000000000000000000000000000000000000000000000000000000000000000000000000000000000000000000004005 s t' := by
  unfold execRegFault at hx; obtain rfl := Host.Outcome.next.inj hx
  repeat' with_reducible first
    | exact Keeps.refl _ _ | assumption | refine Keeps.ite ?_ ?_ | refine setLiveInt_keeps ?_ | split

theorem execRailInRegulation_keeps {s : State} {t' : State} (hx : execRailInRegulation s = .next t') :
    Keeps 0x3830000078800200000000000000000000000000000000000000000000000000000000000000000000000000000000000000000000000000000000000000000000000000000000000000000000000004005 s t' := by
  unfold execRailInRegulation at hx; obtain rfl := Host.Outcome.next.inj hx
  repeat' with_reducible first
    | exact Keeps.refl _ _ | assumption | refine Keeps.ite ?_ ?_ | refine setLive_keeps ?_ | split

theorem execTjHot_keeps {t : Int} {s : State} {t' : State} (hx : execTjHot t s = .next t') :
    Keeps (anyField ||| busMask ||| parMask ||| 32766) s t' := by
  unfold execTjHot at hx; obtain rfl := Host.Outcome.next.inj hx
  repeat' with_reducible first
    | exact Keeps.refl _ _ | assumption
    | refine overtemp_keeps ?_ | refine Keeps.ite ?_ ?_ | refine setLiveInt_keeps ?_ | refine wr_keeps ?_ | split
    | dsimp only | intro _

theorem execTjBelowLimit_keeps {t : Int} {s : State} {t' : State} (hx : execTjBelowLimit t s = .next t') :
    Keeps 0x23830000078800200000000000000000000000000000000000000000000000000000000000000000000000000000000000000000000000000000000000000000000000000000000000000000000000004005 s t' := by
  unfold execTjBelowLimit at hx; obtain rfl := Host.Outcome.next.inj hx
  repeat' with_reducible first
    | exact Keeps.refl _ _ | assumption | refine Keeps.ite ?_ ?_ | refine setLive_keeps ?_ | refine wr_keeps ?_ | split

theorem execPwrIlimWrite_keeps {m comp : Nat} {s : State} {t' : State} (hx : execPwrIlimWrite m comp s = .next t') :
    Keeps (busMask ||| parMask ||| 0x4003830040078a00200000000140000000000000000000000000000000000000000000000000000000000000000000000000000040000000000000000000000000000000070000080000000000000000004055) s t' := by
  unfold execPwrIlimWrite at hx; obtain rfl := Host.Outcome.next.inj hx
  repeat' with_reducible first
    | exact Keeps.refl _ _ | assumption
    | refine takeIn_keeps ?_ ?_ | refine ilimEffect_keeps ?_ | refine pairComplete_keeps ?_ ?_ | intro _
    | dsimp only

theorem execFunctionEnable_keeps {m addr : Nat} {s : State} {t' : State} (hx : execFunctionEnable m addr s = .next t') :
    Keeps (busMask ||| parMask ||| 0x3830000078aa0200000000140000000000000000000000000000000000000000000000000000000000000000000000000000040000000000000000000000000000000070000080000000000000000004855) s t' := by
  unfold execFunctionEnable at hx; obtain rfl := Host.Outcome.next.inj hx
  repeat' with_reducible first
    | exact Keeps.refl _ _ | assumption
    | refine takeIn_keeps ?_ ?_ | refine badPlace_keeps ?_ | refine Keeps.ite ?_ ?_ | refine enableEffect_keeps ?_ | refine asWriter_keeps ?_ ?_
    | refine badAccess_keeps ?_ | intro _ | split
    | dsimp only

theorem execFunctionDisable_keeps {m addr : Nat} {s : State} {t' : State} (hx : execFunctionDisable m addr s = .next t') :
    Keeps (busMask ||| parMask ||| 0x3830000078ba0200000000140000000000000000000000000000000000000000000000000000000000000000000000000000040000000000000000000000000000000070000080000000000000000004955) s t' := by
  unfold execFunctionDisable at hx; obtain rfl := Host.Outcome.next.inj hx
  repeat' with_reducible first
    | exact Keeps.refl _ _ | assumption
    | refine takeIn_keeps ?_ ?_ | refine badPlace_keeps ?_ | refine Keeps.ite ?_ ?_ | refine disableEffect_keeps ?_ | refine asWriter_keeps ?_ ?_
    | refine badAccess_keeps ?_ | intro _ | split
    | dsimp only

theorem execShutdownDone_keeps {d : Nat} {s : State} {t' : State} (hx : execShutdownDone d s = .next t') :
    Keeps (anyField ||| parMask ||| 27381) s t' := by
  unfold execShutdownDone at hx; obtain rfl := Host.Outcome.next.inj hx
  repeat' with_reducible first
    | exact Keeps.refl _ _ | assumption | refine shutdownDone_keeps ?_

theorem execStartupDone_keeps {d : Nat} {s : State} {t' : State} (hx : execStartupDone d s = .next t') :
    Keeps 0x1383000007898020000000000000000000000000020000000000000000000000000000000000000000000000000000000000002000000000000000000000000f000000070000180000000000000000005875 s t' := by
  unfold execStartupDone at hx; obtain rfl := Host.Outcome.next.inj hx
  repeat' with_reducible first
    | exact Keeps.refl _ _ | assumption | refine startupDone_keeps ?_

theorem execSleepVote_keeps {m n word : Nat} {s : State} {t' : State} (hx : execSleepVote m n word s = .next t') :
    Keeps (busMask ||| parMask ||| 0x100003830000078a00200000000140000000000000000000000000000000000000000000000000000000000000000000000000000040000000000000000000000000000000070000080000000000000000004055) s t' := by
  unfold execSleepVote at hx; obtain rfl := Host.Outcome.next.inj hx
  repeat' with_reducible first
    | exact Keeps.refl _ _ | assumption
    | refine takeIn_keeps ?_ ?_ | refine asWriter_keeps ?_ ?_ | refine wr_keeps ?_ | intro _
    | dsimp only

theorem execSleepReq_keeps {s : State} {t' : State} (hx : execSleepReq s = .next t') :
    Keeps 0x38300000788002140008004000000000000000000000000000000000000000000000009f0000000000700000000f0160000010f000000000000002fc0000000000150000000000000000500000000004865 s t' := by
  unfold execSleepReq at hx; obtain rfl := Host.Outcome.next.inj hx
  repeat' with_reducible first
    | exact Keeps.refl _ _ | assumption | refine sleepHalts_keeps ?_ | refine Keeps.ite ?_ ?_ | refine haltSite_keeps ?_ | refine forS_keeps ?_ ?_
    | dsimp only | intro _
    | (constructor <;> first | exact fun _ => rfl | exact fun _ _ => rfl | exact rfl | exact List.prefix_refl _ | exact Nat.le_refl _ | exact fun w => w | exact fun _ _ w => w | exact fun h => absurd h (by decide) | exact fun _ => ⟨fun _ _ => ⟨fun w => w, fun w => w⟩⟩)
    | refine Keeps.setPwr ?_ | split

theorem execSleepDecision_keeps {s : State} {t' : State} (hx : execSleepDecision s = .next t') :
    Keeps 0x178300000788002140008004000000000000000000c0003c000000000000000000000009f0000000000700000000f0160000010f000000000000002fc0000000000150000000000000000500000000004b6d s t' := by
  unfold execSleepDecision at hx; obtain rfl := Host.Outcome.next.inj hx
  repeat' with_reducible first
    | exact Keeps.refl _ _ | assumption | refine sleepDecision_keeps ?_

theorem execSleepEntryDone_keeps {s : State} {t' : State} (hx : execSleepEntryDone s = .next t') :
    Keeps (anyField ||| parMask ||| 32767) s t' := by
  unfold execSleepEntryDone at hx; obtain rfl := Host.Outcome.next.inj hx
  repeat' with_reducible first
    | exact Keeps.refl _ _ | assumption | refine sleepEntryDone_keeps ?_

theorem execWake_keeps {s : State} {t' : State} (hx : execWake s = .next t') :
    Keeps 0x2004030000000000000000000000000000000000000000000000000000000000000000000000000000000000000000000000000000000000000000000000000000000000000000000000000000000000000805 s t' := by
  unfold execWake at hx; obtain rfl := Host.Outcome.next.inj hx
  repeat' with_reducible first
    | exact Keeps.refl _ _ | assumption | refine Keeps.ite ?_ ?_ | refine wakeSource_keeps ?_ | refine whenS_keeps ?_ ?_ | intro _

theorem execL1ExitRequest_keeps {n : Nat} {s : State} {t' : State} (hx : execL1ExitRequest n s = .next t') :
    Keeps 0x2004030000000000000000000000000000000000000000000000000000000000000000000000000000000000000000000000000000000000000000000000000000000000000000000000000000000000000805 s t' := by
  unfold execL1ExitRequest at hx; obtain rfl := Host.Outcome.next.inj hx
  repeat' with_reducible first
    | exact Keeps.refl _ _ | assumption | refine Keeps.ite ?_ ?_ | refine wakeSource_keeps ?_ | refine whenS_keeps ?_ ?_ | intro _

theorem execWakeTime_keeps {s : State} {t' : State} (hx : execWakeTime s = .next t') :
    Keeps 0x2004030000000000000000000000000000000000000000000000000000000000000000000000000000000000000000000000000000000000000000000000000000000000000000000000000000000000000805 s t' := by
  unfold execWakeTime at hx; obtain rfl := Host.Outcome.next.inj hx
  repeat' with_reducible first
    | exact Keeps.refl _ _ | assumption | refine Keeps.ite ?_ ?_ | refine wakeSource_keeps ?_ | refine whenS_keeps ?_ ?_ | intro _

theorem execSleepReqFall_keeps {s : State} {t' : State} (hx : execSleepReqFall s = .next t') :
    Keeps 0x2004030000000000000000000000000000000000000000000000000000000000000000000000000000000000000000000000000000000000000000000000000000000000000000000000000000000000000805 s t' := by
  unfold execSleepReqFall at hx; obtain rfl := Host.Outcome.next.inj hx
  repeat' with_reducible first
    | exact Keeps.refl _ _ | assumption | refine Keeps.ite ?_ ?_ | refine wakeSource_keeps ?_ | refine whenS_keeps ?_ ?_ | dsimp only | intro _
    | (constructor <;> first | exact fun _ => rfl | exact fun _ _ => rfl | exact rfl | exact List.prefix_refl _ | exact Nat.le_refl _ | exact fun w => w | exact fun _ _ w => w | exact fun h => absurd h (by decide) | exact fun _ => ⟨fun _ _ => ⟨fun w => w, fun w => w⟩⟩)
    | refine Keeps.setPwr ?_

theorem execWakeDone_keeps {meas : HoldMeas} {s : State} {t' : State} (hx : execWakeDone meas s = .next t') :
    Keeps 0x1783000007880020000000000000000000000000020000000000000000000000000000000000000000000000000000000000002000000000000000000000000f000000070000180000020000003c98c05a7d s t' := by
  unfold execWakeDone at hx; obtain rfl := Host.Outcome.next.inj hx
  repeat' with_reducible first
    | exact Keeps.refl _ _ | assumption | refine wakeDone_keeps ?_

end Sys2Proof.Machine
end

