-- ==== Sys2Proof/Laws/Boot.lean ====
section
/-! SUPPORT. What the operations and commands of Machine/Boot.lean keep, and the components of the state they may write (Laws/Keeps.lean). -/

set_option exponentiation.threshold 2000

set_option Elab.async false

namespace Sys2Proof.Machine

open Sys2Proof

theorem repairRows_keeps {U : Nat} {s₀ : State} {s : State} (hk : Keeps U s₀ s) (hT : 512 ||| U = U := by decide) : Keeps U s₀ (repairRows s) := by
  refine Keeps.step ?_ hT hk
  clear hk hT; unfold repairRows
  repeat' with_reducible first
    | exact Keeps.refl _ _ | assumption | refine Keeps.ite ?_ ?_ | dsimp only | intro _
    | (constructor <;> first | exact fun _ => rfl | exact fun _ _ => rfl | exact rfl | exact List.prefix_refl _ | exact Nat.le_refl _ | exact fun w => w | exact fun _ _ w => w | exact fun h => absurd h (by decide) | exact fun _ => ⟨fun _ _ => ⟨fun w => w, fun w => w⟩⟩)
    | refine Keeps.setMemc ⟨rfl, rfl⟩ ?_ | split

theorem slotVer_mask {U : Nat} {slot : Nat} (h : 0x300000000000000000000000000000000000000000000000000000000000000000000000000000000000000000000000000000000000000000000000000000000000000000000000000000000000000000000000000000001 ||| U = U) : fldMask (slotVer slot) ||| U = U := by
  refine sub_trans ?_ h
  unfold slotVer
  repeat' split
  all_goals decide

theorem fwLog_keeps {U : Nat} {s₀ : State} {event slot reason : Nat} {s : State} (hk : Keeps U s₀ s) (hT : 0x30000000000000000000000000000000000000000000000000000000000000000000000000000000000000000000000000000000000000000000000000000000000000000000000000000000000000005 ||| U = U := by decide) : Keeps U s₀ (fwLog event slot reason s) := by
  refine Keeps.step ?_ hT hk
  clear hk hT; unfold fwLog
  repeat' with_reducible first
    | exact Keeps.refl _ _ | assumption | refine evlog_keeps ?_

theorem failSlot_keeps {U : Nat} {s₀ : State} {store : Bool} {slot reason part : Nat} {s : State} (hk : Keeps U s₀ s) (hT : 0x200000f000000003830000068800200000000000000000000000000000000000000000000000000000000000000000000000000000000000000000000000000000000000000000000000000000000000000000000000005005 ||| U = U := by decide) : Keeps U s₀ (failSlot store slot reason part s) := by
  refine Keeps.step ?_ hT hk
  clear hk hT; unfold failSlot
  repeat' with_reducible first
    | exact Keeps.refl _ _ | assumption | refine Keeps.ite ?_ ?_ | refine fwLog_keeps ?_ | refine storeDir_keeps ?_ | refine fltEvent_keeps ?_
    | refine raiseInt_keeps ?_ | refine incSat_keeps ?_ | refine wrs_keeps ?_ | dsimp only | split
    | (constructor <;> first | exact fun _ => rfl | exact fun _ _ => rfl | exact rfl | exact List.prefix_refl _ | exact Nat.le_refl _ | exact fun w => w | exact fun _ _ w => w | exact fun h => absurd h (by decide) | exact fun _ => ⟨fun _ _ => ⟨fun w => w, fun w => w⟩⟩)
    | refine Keeps.setBoot ?_

theorem bootAgain_keeps {U : Nat} {s₀ : State} {s : State} (hk : Keeps U s₀ s) (hT : (anyField ||| busMask ||| parMask ||| 32766) ||| U = U := by decide) : Keeps U s₀ (bootAgain s) := by
  refine Keeps.step ?_ hT hk
  clear hk hT; unfold bootAgain
  repeat' with_reducible first
    | exact Keeps.refl _ _ | assumption | refine restart_keeps ?_ | refine wr_keeps ?_ (sub_trans (fldMask_any _) (by decide)) | dsimp only
    | (constructor <;> first | exact fun _ => rfl | exact fun _ _ => rfl | exact rfl | exact List.prefix_refl _ | exact Nat.le_refl _ | exact fun w => w | exact fun _ _ w => w | exact fun h => absurd h (by decide) | exact fun _ => ⟨fun _ _ => ⟨fun w => w, fun w => w⟩⟩)
    | refine Keeps.setBoot ?_

theorem enterRecovery_keeps {U : Nat} {s₀ : State} {cause : Nat} {s : State} (hk : Keeps U s₀ s) (hT : 0x8000010030000000000000000000000000000000000000000000000000000000000000000000000000000000000000000000000000000000000000000000000000000000000000000000000000000000000000805 ||| U = U := by decide) : Keeps U s₀ (enterRecovery cause s) := by
  refine Keeps.step ?_ hT hk
  clear hk hT; unfold enterRecovery
  repeat' with_reducible first
    | exact Keeps.refl _ _ | assumption | refine fwLog_keeps ?_ | refine setStage_keeps ?_ | refine wr_keeps ?_ | dsimp only

theorem bootFacts_keeps {U : Nat} {s₀ : State} {l : List Nat} {key : Nat} {vers : List Nat} {s : State} (hk : Keeps U s₀ s) (hT : 6144 ||| U = U := by decide) :
    Keeps U s₀ (bootFacts l key vers s) := by
  refine Keeps.step ?_ hT hk
  clear hk hT; unfold bootFacts
  constructor <;> first | exact fun _ => rfl | exact fun _ _ => rfl | exact rfl | exact List.prefix_refl _ | exact Nat.le_refl _ | exact fun w => w | exact fun _ _ w => w | exact fun h => absurd h (by decide) | exact fun _ => ⟨fun _ _ => ⟨fun w => w, fun w => w⟩⟩

theorem portsRelease_keeps {U : Nat} {s₀ : State} {x : SlotImage} {s : State} (hk : Keeps U s₀ s) (hT : 0xc048000000000000000000000000000000000000000000000000000000000000000000000000000000000000000000000000000000000000000000000000000000000005401 ||| U = U := by decide) : Keeps U s₀ (portsRelease x s) := by
  refine Keeps.step ?_ hT hk
  clear hk hT; unfold portsRelease
  repeat' with_reducible first
    | exact Keeps.refl _ _ | assumption
    | refine linkUp_keeps ?_
    | refine wr_keeps ?_ | refine forS_keeps ?_ ?_ | refine Keeps.setBoot ?_ | dsimp only | intro _
    | (constructor <;> first | exact fun _ => rfl | exact fun _ _ => rfl | exact rfl | exact List.prefix_refl _ | exact Nat.le_refl _ | exact fun w => w | exact fun _ _ w => w | exact fun h => absurd h (by decide) | exact fun _ => ⟨fun _ _ => ⟨fun w => w, fun w => w⟩⟩)

theorem linkSettings_keeps {U : Nat} {s₀ : State} {x : SlotImage} {s : State} (hk : Keeps U s₀ s) (hT : 0xc000000000000000000000000001001 ||| U = U := by decide) : Keeps U s₀ (linkSettings x s) := by
  refine Keeps.step ?_ hT hk
  clear hk hT; unfold linkSettings
  repeat' with_reducible first
    | exact Keeps.refl _ _ | assumption
    | refine forS_keeps ?_ ?_ | refine wrs_keeps ?_ | refine Keeps.setBoot ?_ | dsimp only | intro _
    | (constructor <;> first | exact fun _ => rfl | exact fun _ _ => rfl | exact rfl | exact List.prefix_refl _ | exact Nat.le_refl _ | exact fun w => w | exact fun _ _ w => w | exact fun h => absurd h (by decide) | exact fun _ => ⟨fun _ _ => ⟨fun w => w, fun w => w⟩⟩)

theorem handOver_keeps {U : Nat} {s₀ : State} {slot : Nat} {trial : Bool} {x : SlotImage} {s : State} (hk : Keeps U s₀ s) (hT : 0x31c00000013830000078820200000000000008000000000000205e8000000000000000000000000000000000000000000000000000000002000000000000000000000000ff0000c070000180000000000000000005b75 ||| U = U := by decide) : Keeps U s₀ (handOver slot trial x s) := by
  refine Keeps.step ?_ hT hk
  clear hk hT; unfold handOver
  repeat' with_reducible first
    | exact Keeps.refl _ _ | assumption
    | refine linkSettings_keeps ?_
    | refine takeShares_keeps ?_ | refine Keeps.ite ?_ ?_ | refine repairRows_keeps ?_ | refine bootFacts_keeps ?_ | refine csLost_keeps ?_ | refine fwLog_keeps ?_
    | refine domUp_keeps ?_ | refine setStage_keeps ?_ | refine calRestore_keeps ?_ | refine setSharesAct_keeps ?_ | refine wrb_keeps ?_
    | refine wrs_keeps ?_ | refine wr_keeps ?_ | refine forS_keeps ?_ ?_ | dsimp only | intro _
    | (constructor <;> first | exact fun _ => rfl | exact fun _ _ => rfl | exact rfl | exact List.prefix_refl _ | exact Nat.le_refl _ | exact fun w => w | exact fun _ _ w => w | exact fun h => absurd h (by decide) | exact fun _ => ⟨fun _ _ => ⟨fun w => w, fun w => w⟩⟩)
    | refine Keeps.setBoot ?_ | refine Keeps.setPwr ?_ | split

theorem tryBoot_keeps {U : Nat} {s₀ s : State} {f : FlashFacts} {l : List (Nat × Bool)} (hk : Keeps U s₀ s) (hT : (anyField ||| busMask ||| parMask ||| 32766) ||| U = U := by decide) : Keeps U s₀ (tryBoot f l s) := by
  induction l generalizing U s₀ s with
  | nil => exact enterRecovery_keeps hk (sub_trans (by decide) hT)
  | cons x l ih =>
    simp only [tryBoot]
    repeat' with_reducible first
      | exact Keeps.refl _ _ | assumption
      | refine portsRelease_keeps ?_ (sub_trans (by decide) hT) | refine ih ?_ hT | refine Keeps.ite ?_ ?_ | refine handOver_keeps ?_ (sub_trans (by decide) hT)
      | refine enterRecovery_keeps ?_ (sub_trans (by decide) hT) | refine bootAgain_keeps ?_ (sub_trans (by decide) hT)
      | refine failSlot_keeps ?_ (sub_trans (by decide) hT) | dsimp only | split

theorem flashFound_keeps {U : Nat} {s₀ : State} {f : FlashFacts} {s : State} (hk : Keeps U s₀ s) (hT : 0xf00000000000000000000000000000000000000000000000000000000000000000000000000000000000000000000000000000000000000000000000000000000000000000000000000000000000000000000000000000001 ||| U = U := by decide) : Keeps U s₀ (flashFound f s) := by
  refine Keeps.step ?_ hT hk
  clear hk hT; unfold flashFound
  repeat' with_reducible first
    | exact Keeps.refl _ _ | assumption | refine Keeps.ite ?_ ?_ | refine wrs_keeps ?_ | dsimp only | split

theorem romBoot_keeps {U : Nat} {s₀ : State} {f : FlashFacts} {s : State} (hk : Keeps U s₀ s) (hT : (anyField ||| busMask ||| parMask ||| 32766) ||| U = U := by decide) : Keeps U s₀ (romBoot f s) := by
  refine Keeps.step ?_ hT hk
  clear hk hT; unfold romBoot
  repeat' with_reducible first
    | exact Keeps.refl _ _ | assumption | refine Keeps.ite ?_ ?_ | refine flashFound_keeps ?_ | refine tryBoot_keeps ?_
    | refine enterRecovery_keeps ?_ | dsimp only | split
    | (constructor <;> first | exact fun _ => rfl | exact fun _ _ => rfl | exact rfl | exact List.prefix_refl _ | exact Nat.le_refl _ | exact fun w => w | exact fun _ _ w => w | exact fun h => absurd h (by decide) | exact fun _ => ⟨fun _ _ => ⟨fun w => w, fun w => w⟩⟩)
    | refine Keeps.setBoot ?_

theorem bootReady_keeps {U : Nat} {s₀ : State} {s : State} (hk : Keeps U s₀ s) (hT : 0x200000010030000000000000000000000000000000000000000000000000000000000000000000000000000000000000000000000000000000000000000000000000000000000000000000000000000000000001005 ||| U = U := by decide) : Keeps U s₀ (bootReady s) := by
  refine Keeps.step ?_ hT hk
  clear hk hT; unfold bootReady
  repeat' with_reducible first
    | exact Keeps.refl _ _ | assumption | refine Keeps.ite ?_ ?_ | refine fwLog_keeps ?_ | refine writeDir_keeps ?_ | refine wrb_keeps ?_ | dsimp only
    | split

theorem blow_keeps {U : Nat} {s₀ : State} {row word v : Nat} {s : State} (hk : Keeps U s₀ s) (hT : 8192 ||| U = U := by decide) : Keeps U s₀ (blow row word v s) := by
  refine Keeps.setFuses ?_ rfl hk hT
  intro k b w
  by_cases e : k = row * 32 + word
  · subst e; simp only [tabGet_tabPut_self, fuseWord, Nat.testBit_or] at w ⊢; simp [w]
  · simpa only [tabGet_tabPut_other 0 s.lcs.fuses _ e] using w

theorem returnErased_keeps {U : Nat} {s₀ : State} {s : State} (hk : Keeps U s₀ s) (hT : 0x20000000000000000000000000000000000000000000000000000000000000000000000000000000000000000000000000000000000000000000000000000000000000000000000000000000000000000000000000000002303 ||| U = U := by decide) : Keeps U s₀ (returnErased s) := by
  refine Keeps.step ?_ hT hk
  clear hk hT
  have h1 : ∀ (m : Tab MapEnt) (l : List Host.Cell), (Memory.wf s.mem = true → Memory.wf l = true) →
      Keeps 0x20000000000000000000000000000000000000000000000000000000000000000000000000000000000000000000000000000000000000000000000000000000000000000000000000000000000000000000000000000002303 s { s with mem := l, memc := { s.memc with map := m } } := fun m l h => Keeps.setMemMemc h ⟨rfl, rfl⟩ (Keeps.refl _ _)
  have h2 : Memory.wf s.mem = true → Memory.wf (tabDrop (tabDrop s.mem 0 (2 ^ 37 + 2 ^ 35)) (2 ^ 37 + 2 ^ 35 + 2 ^ 31) (2 ^ 39)) = true :=
    fun w => Memory.wf_drop _ _ _ (Memory.wf_drop _ _ _ w)
  unfold returnErased
  dsimp only
  refine Keeps.ite (Keeps.refl _ _) (wr_keeps (blow_keeps (Keeps.ite (Keeps.setCal (Keeps.ite (h1 _ _ h2) (Keeps.refl _ _)) ?_) (Keeps.ite (h1 _ _ h2) (Keeps.refl _ _))) ?_) ?_) <;> first | decide | rfl

theorem updResult_keeps {U : Nat} {s₀ : State} {r : Nat} {s : State} (hk : Keeps U s₀ s) (hT : 0x80000000000000000000000000000000000000000000000000000000000000000000000000000000000000000000000000000000000000000000000000000000000000000000000000000000000000000000000000000001 ||| U = U := by decide) : Keeps U s₀ (updResult r s) := by
  refine Keeps.step ?_ hT hk
  clear hk hT; unfold updResult
  repeat' with_reducible first
    | exact Keeps.refl _ _ | assumption | refine wr_keeps ?_

theorem updWrite_keeps {U : Nat} {s₀ : State} {s : State} (hk : Keeps U s₀ s) (hT : 0x3c0000000000010000000000000000000000000000000000000000000000000000000000000000000000000000000000000000000000000000000000000000000000000000000000000000000000000000000000000001001 ||| U = U := by decide) : Keeps U s₀ (updWrite s) := by
  refine Keeps.step ?_ hT hk
  clear hk hT; unfold updWrite
  repeat' with_reducible first
    | exact Keeps.refl _ _ | assumption | refine Keeps.ite ?_ ?_
    | refine wrs_keeps ?_ (by (repeat' first | exact forallNil | refine forallCons ?_ ?_) <;> first | decide | exact slotVer_mask (by decide))
    | refine updResult_keeps ?_ | refine writeDir_keeps ?_ | refine flashPush_keeps ?_ | refine wrs_keeps ?_ | dsimp only | intro _ | split

theorem updPend_keeps {U : Nat} {s₀ : State} {s : State} (hk : Keeps U s₀ s) (hT : 0x80000000000010030000000000000000000000000000000000000000000000000000000000000000000000000000000000000000000000000000000000000000000000000000000000000000000000000000000000001005 ||| U = U := by decide) : Keeps U s₀ (updPend s) := by
  refine Keeps.step ?_ hT hk
  clear hk hT; unfold updPend
  repeat' with_reducible first
    | exact Keeps.refl _ _ | assumption | refine Keeps.ite ?_ ?_ | refine updResult_keeps ?_ | refine fwLog_keeps ?_ | refine writeDir_keeps ?_
    | dsimp only | split

theorem updUnpend_keeps {U : Nat} {s₀ : State} {s : State} (hk : Keeps U s₀ s) (hT : 0x80000000000010030000000000000000000000000000000000000000000000000000000000000000000000000000000000000000000000000000000000000000000000000000000000000000000000000000000000001005 ||| U = U := by decide) : Keeps U s₀ (updUnpend s) := by
  refine Keeps.step ?_ hT hk
  clear hk hT; unfold updUnpend
  repeat' with_reducible first
    | exact Keeps.refl _ _ | assumption | refine updResult_keeps ?_ | refine fwLog_keeps ?_ | refine writeDir_keeps ?_ | intro _ | split

theorem updRecover_keeps {U : Nat} {s₀ : State} {s : State} (hk : Keeps U s₀ s) (hT : 0x80000000000010000000000000000000000000000000000000000000000000000000000000000000000000000000000000000000000000000000000000000000000000000000000000000000000000000000000000001001 ||| U = U := by decide) : Keeps U s₀ (updRecover s) := by
  refine Keeps.step ?_ hT hk
  clear hk hT; unfold updRecover
  repeat' with_reducible first
    | exact Keeps.refl _ _ | assumption | refine updResult_keeps ?_ | refine writeDir_keeps ?_

theorem updCmd_keeps {U : Nat} {s₀ : State} {word : Nat} {s : State} (hk : Keeps U s₀ s) (hT : 0x3c0000000000010030000000000000000000000000000000000000000000000000000000000000000000000000000000000000000000000000000000000000000000000000000000000000000000000000000000000001005 ||| U = U := by decide) : Keeps U s₀ (updCmd word s) := by
  refine Keeps.step ?_ hT hk
  clear hk hT; unfold updCmd
  repeat' with_reducible first
    | exact Keeps.refl _ _ | assumption | refine Keeps.ite ?_ ?_ | refine updRecover_keeps ?_ | refine updUnpend_keeps ?_ | refine updPend_keeps ?_
    | refine updWrite_keeps ?_ | refine updResult_keeps ?_ | dsimp only | split

theorem updAccess_keeps {U : Nat} {s₀ : State} {m word : Nat} {s : State} (hk : Keeps U s₀ s) (hT : (parMask ||| 0x3c0000000000013830000078a00200000000140000000000000000000000000000000000000000000000000000000000000000000000000000040000000000000000000000000000000070000080000000000000000005055) ||| U = U := by decide) : Keeps U s₀ (updAccess m word s) := by
  refine Keeps.step ?_ hT hk
  clear hk hT; unfold updAccess
  repeat' with_reducible first
    | exact Keeps.refl _ _ | assumption | refine Keeps.ite ?_ ?_ | refine updCmd_keeps ?_ | refine asWriter_keeps ?_ ?_ | refine whenS_keeps ?_ ?_
    | intro _

theorem updDone_keeps {U : Nat} {s₀ : State} {ok ue : Bool} {s : State} (hk : Keeps U s₀ s) (hT : 0x43c00000000000138300000688002000000000000077f01003fc000000000000000000000000000000000000000000000000000000000000000000000000000000000000000000000000000000000000000000000000005205 ||| U = U := by decide) : Keeps U s₀ (updDone ok ue s) := by
  refine Keeps.step ?_ hT hk
  clear hk hT; unfold updDone
  repeat' with_reducible first
    | exact Keeps.refl _ _ | assumption | refine Keeps.ite ?_ ?_ | refine updResult_keeps ?_ | refine fwLog_keeps ?_ | refine countBytes_keeps ?_
    | refine recordUeAt_keeps ?_ | refine writeDir_keeps ?_ | refine flashEnd_keeps ?_ | refine fltEvent_keeps ?_ | refine raiseInt_keeps ?_
    | refine wr_keeps ?_ | refine wr_keeps ?_ (slotVer_mask (by decide)) | dsimp only | split

theorem flashOpDone_keeps {U : Nat} {s₀ : State} {s : State} (hk : Keeps U s₀ s) (hT : 0x4000000000000010000000000000000000000000000000000000000000000000000000000000000000000000000000000000000000000000000000000000000000000000000000000000000000000000000000000000001001 ||| U = U := by decide) : Keeps U s₀ (flashOpDone s) := by
  refine Keeps.step ?_ hT hk
  clear hk hT; unfold flashOpDone
  repeat' with_reducible first
    | exact Keeps.refl _ _ | assumption | refine Keeps.ite ?_ ?_ | refine storeList_keeps ?_ | refine flashEnd_keeps ?_ | refine storeDir_keeps ?_ | split
    | (constructor <;> first | exact fun _ => rfl | exact fun _ _ => rfl | exact rfl | exact List.prefix_refl _ | exact Nat.le_refl _ | exact fun w => w | exact fun _ _ w => w | exact fun h => absurd h (by decide) | exact fun _ => ⟨fun _ _ => ⟨fun w => w, fun w => w⟩⟩)
    | refine Keeps.setBoot ?_ | dsimp only | intro _

theorem recResult_keeps {U : Nat} {s₀ : State} {r reason : Nat} {s : State} (hk : Keeps U s₀ s) (hT : 0x7000000000000000000000000000000000000000000000000000000000000000000000000000000000000000000000000000000000000000000000000000000000000000000000000000000000000000000000001 ||| U = U := by decide) : Keeps U s₀ (recResult r reason s) := by
  refine Keeps.step ?_ hT hk
  clear hk hT; unfold recResult
  repeat' with_reducible first
    | exact Keeps.refl _ _ | assumption | refine wrs_keeps ?_

theorem recDir_keeps {U : Nat} {s₀ : State} {d : Directory} {s : State} (hk : Keeps U s₀ s) (hT : 4096 ||| U = U := by decide) : Keeps U s₀ (recDir d s) := by
  refine Keeps.step ?_ hT hk
  clear hk hT; unfold recDir
  repeat' with_reducible first
    | exact Keeps.refl _ _ | assumption | refine storeDir_keeps ?_
    | (constructor <;> first | exact fun _ => rfl | exact fun _ _ => rfl | exact rfl | exact List.prefix_refl _ | exact Nat.le_refl _ | exact fun w => w | exact fun _ _ w => w | exact fun h => absurd h (by decide) | exact fun _ => ⟨fun _ _ => ⟨fun w => w, fun w => w⟩⟩)
    | refine Keeps.setBoot ?_

theorem recCmd_keeps {U : Nat} {s₀ : State} {c : Nat} {s : State} (hk : Keeps U s₀ s) (hT : 0x7000000000000000000000000000000000000000000000000000000000000000000000000000000000000000000000000000000000000000000000000000000000000000000000000000000000000000000001001 ||| U = U := by decide) : Keeps U s₀ (recCmd c s) := by
  refine Keeps.step ?_ hT hk
  clear hk hT; unfold recCmd
  repeat' with_reducible first
    | exact Keeps.refl _ _ | assumption | refine Keeps.ite ?_ ?_ | refine recDir_keeps ?_ | refine recResult_keeps ?_ | refine wrs_keeps ?_
    | refine wr_keeps ?_ | dsimp only | split
    | (constructor <;> first | exact fun _ => rfl | exact fun _ _ => rfl | exact rfl | exact List.prefix_refl _ | exact Nat.le_refl _ | exact fun w => w | exact fun _ _ w => w | exact fun h => absurd h (by decide) | exact fun _ => ⟨fun _ _ => ⟨fun w => w, fun w => w⟩⟩)
    | refine Keeps.setBoot ?_

theorem recDone_keeps {U : Nat} {s₀ : State} {ok : Bool} {image : SlotBytes} {s : State} (hk : Keeps U s₀ s) (hT : (anyField ||| busMask ||| parMask ||| 32766) ||| U = U := by decide) : Keeps U s₀ (recDone ok image s) := by
  refine Keeps.step ?_ hT hk
  clear hk hT; unfold recDone
  repeat' with_reducible first
    | exact Keeps.refl _ _ | assumption | refine Keeps.ite ?_ ?_ | refine recCmd_keeps ?_ | refine recDir_keeps ?_ | refine recResult_keeps ?_
    | refine fwLog_keeps ?_ | refine restart_keeps ?_ | dsimp only | split
    | (constructor <;> first | exact fun _ => rfl | exact fun _ _ => rfl | exact rfl | exact List.prefix_refl _ | exact Nat.le_refl _ | exact fun w => w | exact fun _ _ w => w | exact fun h => absurd h (by decide) | exact fun _ => ⟨fun _ _ => ⟨fun w => w, fun w => w⟩⟩)
    | refine Keeps.setBoot ?_

theorem execRomBoot_keeps {facts : FlashFacts} {s : State} {t' : State} (hx : execRomBoot facts s = .next t') :
    Keeps (anyField ||| busMask ||| parMask ||| 32766) s t' := by
  unfold execRomBoot at hx; obtain rfl := Host.Outcome.next.inj hx
  repeat' with_reducible first
    | exact Keeps.refl _ _ | assumption | refine romBoot_keeps ?_

theorem execBootReady_keeps {s : State} {t' : State} (hx : execBootReady s = .next t') :
    Keeps 0x200000010030000000000000000000000000000000000000000000000000000000000000000000000000000000000000000000000000000000000000000000000000000000000000000000000000000000000001005 s t' := by
  unfold execBootReady at hx; obtain rfl := Host.Outcome.next.inj hx
  repeat' with_reducible first
    | exact Keeps.refl _ _ | assumption | refine bootReady_keeps ?_

theorem execConfirmTimeout_keeps {s : State} {t' : State} (hx : execConfirmTimeout s = .next t') :
    Keeps (anyField ||| busMask ||| parMask ||| 32766) s t' := by
  unfold execConfirmTimeout at hx; obtain rfl := Host.Outcome.next.inj hx
  repeat' with_reducible first
    | exact Keeps.refl _ _ | assumption | refine Keeps.ite ?_ ?_ | refine bootAgain_keeps ?_ | refine failSlot_keeps ?_ | split

theorem execReturnErasureDone_keeps {s : State} {t' : State} (hx : execReturnErasureDone s = .next t') :
    Keeps 0x20000000000000000000000000000000000000000000000000000000000000000000000000000000000000000000000000000000000000000000000000000000000000000000000000000000000000000000000000000002303 s t' := by
  unfold execReturnErasureDone at hx; obtain rfl := Host.Outcome.next.inj hx
  repeat' with_reducible first
    | exact Keeps.refl _ _ | assumption | refine returnErased_keeps ?_

theorem execUpdateWrite_keeps {m word : Nat} {s : State} {t' : State} (hx : execUpdateWrite m word s = .next t') :
    Keeps (busMask ||| parMask ||| 0x3c0000000000013830000078a00200000000140000000000000000000000000000000000000000000000000000000000000000000000000000040000000000000000000000000000000070000080000000000000000005055) s t' := by
  unfold execUpdateWrite at hx; obtain rfl := Host.Outcome.next.inj hx
  repeat' with_reducible first
    | exact Keeps.refl _ _ | assumption
    | refine takeIn_keeps ?_ ?_ | refine updAccess_keeps ?_
    | dsimp only | intro _

theorem execUpdatePend_keeps {m word : Nat} {s : State} {t' : State} (hx : execUpdatePend m word s = .next t') :
    Keeps (busMask ||| parMask ||| 0x3c0000000000013830000078a00200000000140000000000000000000000000000000000000000000000000000000000000000000000000000040000000000000000000000000000000070000080000000000000000005055) s t' := by
  unfold execUpdatePend at hx; obtain rfl := Host.Outcome.next.inj hx
  repeat' with_reducible first
    | exact Keeps.refl _ _ | assumption
    | refine takeIn_keeps ?_ ?_ | refine updAccess_keeps ?_
    | dsimp only | intro _

theorem execUpdateUnpend_keeps {m word : Nat} {s : State} {t' : State} (hx : execUpdateUnpend m word s = .next t') :
    Keeps (busMask ||| parMask ||| 0x3c0000000000013830000078a00200000000140000000000000000000000000000000000000000000000000000000000000000000000000000040000000000000000000000000000000070000080000000000000000005055) s t' := by
  unfold execUpdateUnpend at hx; obtain rfl := Host.Outcome.next.inj hx
  repeat' with_reducible first
    | exact Keeps.refl _ _ | assumption
    | refine takeIn_keeps ?_ ?_ | refine updAccess_keeps ?_
    | dsimp only | intro _

theorem execRecoverRequest_keeps {m word : Nat} {s : State} {t' : State} (hx : execRecoverRequest m word s = .next t') :
    Keeps (busMask ||| parMask ||| 0x3c0000000000013830000078a00200000000140000000000000000000000000000000000000000000000000000000000000000000000000000040000000000000000000000000000000070000080000000000000000005055) s t' := by
  unfold execRecoverRequest at hx; obtain rfl := Host.Outcome.next.inj hx
  repeat' with_reducible first
    | exact Keeps.refl _ _ | assumption
    | refine takeIn_keeps ?_ ?_ | refine updAccess_keeps ?_
    | dsimp only | intro _

theorem execUpdDone_keeps {ok ue : Bool} {s : State} {t' : State} (hx : execUpdDone ok ue s = .next t') :
    Keeps 0x43c00000000000138300000688002000000000000077f01003fc000000000000000000000000000000000000000000000000000000000000000000000000000000000000000000000000000000000000000000000000005205 s t' := by
  unfold execUpdDone at hx; obtain rfl := Host.Outcome.next.inj hx
  repeat' with_reducible first
    | exact Keeps.refl _ _ | assumption | refine updDone_keeps ?_

theorem execFlashOperationDone_keeps {s : State} {t' : State} (hx : execFlashOperationDone s = .next t') :
    Keeps 0x4000000000000010000000000000000000000000000000000000000000000000000000000000000000000000000000000000000000000000000000000000000000000000000000000000000000000000000000000000001001 s t' := by
  unfold execFlashOperationDone at hx; obtain rfl := Host.Outcome.next.inj hx
  repeat' with_reducible first
    | exact Keeps.refl _ _ | assumption | refine flashOpDone_keeps ?_

theorem execRecErase_keeps {s : State} {t' : State} (hx : execRecErase s = .next t') :
    Keeps 0x7000000000000000000000000000000000000000000000000000000000000000000000000000000000000000000000000000000000000000000000000000000000000000000000000000000000000000000001001 s t' := by
  unfold execRecErase at hx; obtain rfl := Host.Outcome.next.inj hx
  repeat' with_reducible first
    | exact Keeps.refl _ _ | assumption | refine recCmd_keeps ?_

theorem execRecWrite_keeps {s : State} {t' : State} (hx : execRecWrite s = .next t') :
    Keeps 0x7000000000000000000000000000000000000000000000000000000000000000000000000000000000000000000000000000000000000000000000000000000000000000000000000000000000000000000001001 s t' := by
  unfold execRecWrite at hx; obtain rfl := Host.Outcome.next.inj hx
  repeat' with_reducible first
    | exact Keeps.refl _ _ | assumption | refine recCmd_keeps ?_

theorem execRecVerify_keeps {s : State} {t' : State} (hx : execRecVerify s = .next t') :
    Keeps 0x7000000000000000000000000000000000000000000000000000000000000000000000000000000000000000000000000000000000000000000000000000000000000000000000000000000000000000000001001 s t' := by
  unfold execRecVerify at hx; obtain rfl := Host.Outcome.next.inj hx
  repeat' with_reducible first
    | exact Keeps.refl _ _ | assumption | refine recCmd_keeps ?_

theorem execRecCommit_keeps {s : State} {t' : State} (hx : execRecCommit s = .next t') :
    Keeps 0x7000000000000000000000000000000000000000000000000000000000000000000000000000000000000000000000000000000000000000000000000000000000000000000000000000000000000000000001001 s t' := by
  unfold execRecCommit at hx; obtain rfl := Host.Outcome.next.inj hx
  repeat' with_reducible first
    | exact Keeps.refl _ _ | assumption | refine recCmd_keeps ?_

theorem execRecCommandDone_keeps {ok : Bool} {image : SlotBytes} {s : State} {t' : State} (hx : execRecCommandDone ok image s = .next t') :
    Keeps (anyField ||| busMask ||| parMask ||| 32766) s t' := by
  unfold execRecCommandDone at hx; obtain rfl := Host.Outcome.next.inj hx
  repeat' with_reducible first
    | exact Keeps.refl _ _ | assumption | refine recDone_keeps ?_

end Sys2Proof.Machine
end

