-- ==== Sys2Proof/Laws/LifeCycle.lean ====
section
/-! SUPPORT. What the operations and commands of Machine/LifeCycle.lean keep, and the components of the state they may write (Laws/Keeps.lean). -/

set_option exponentiation.threshold 2000

set_option Elab.async false

namespace Sys2Proof.Machine

open Sys2Proof

theorem fuseSelect_keeps {U : Nat} {s₀ : State} {word : Nat} {s : State} (hk : Keeps U s₀ s) (hT : 0x29800000000000000003830000068800200000000000000000000000000000000000000000000000000000000000000000000000000000000000000000000000000000000000000000000000000000000000000000000000004005 ||| U = U := by decide) : Keeps U s₀ (fuseSelect word s) := by
  refine Keeps.step ?_ hT hk
  clear hk hT; unfold fuseSelect
  repeat' with_reducible first
    | exact Keeps.refl _ _ | assumption | refine Keeps.ite ?_ ?_ | refine fltEvent_keeps ?_ | refine wrs_keeps ?_ | refine wr_keeps ?_ | dsimp only
    | split

theorem fuseRefuse_keeps {U : Nat} {s₀ : State} {r : Nat} {s : State} (hk : Keeps U s₀ s) (hT : 0x20000000000000000003830000068800200000000000000000000000000000000000000000000000000000000000000000000000000000000000000000000000000000000000000000000000000000000000000000000000004005 ||| U = U := by decide) : Keeps U s₀ (fuseRefuse r s) := by
  refine Keeps.step ?_ hT hk
  clear hk hT; unfold fuseRefuse
  repeat' with_reducible first
    | exact Keeps.refl _ _ | assumption | refine fltEvent_keeps ?_ | refine raiseInt_keeps ?_ | refine wr_keeps ?_

theorem fuseProgram_keeps {U : Nat} {s₀ : State} {v : Nat} {s : State} (hk : Keeps U s₀ s) (hT : 0x34000000000000000003830000068800200000000000000000000000000000000000000000000000000000000000000000000000000000000000000000000000000000000000000000000000000000000000000000000000006005 ||| U = U := by decide) : Keeps U s₀ (fuseProgram v s) := by
  refine Keeps.step ?_ hT hk
  clear hk hT; unfold fuseProgram
  repeat' with_reducible first
    | exact Keeps.refl _ _ | assumption | refine Keeps.ite ?_ ?_ | refine fuseRefuse_keeps ?_ | refine wrs_keeps ?_ | dsimp only | split
    | (constructor <;> first | exact fun _ => rfl | exact fun _ _ => rfl | exact rfl | exact List.prefix_refl _ | exact Nat.le_refl _ | exact fun w => w | exact fun _ _ w => w | exact fun h => absurd h (by decide) | exact fun _ => ⟨fun _ _ => ⟨fun w => w, fun w => w⟩⟩)
    | refine Keeps.setLcs ⟨rfl, rfl⟩ ?_

theorem fuseDerived_keeps {U : Nat} {s₀ : State} {s : State} (hk : Keeps U s₀ s) (hT : 0x400000040000000000000000000000000000000000010000000000000000000000000000000000000000000000000000000000000000000000000000000000000000000000000000000000000000000000000000000000000001 ||| U = U := by decide) : Keeps U s₀ (fuseDerived s) := by
  refine Keeps.step ?_ hT hk
  clear hk hT; unfold fuseDerived
  repeat' with_reducible first
    | exact Keeps.refl _ _ | assumption | refine wrb_keeps ?_ | refine wr_keeps ?_ | dsimp only

theorem fuseDone_keeps {U : Nat} {s₀ : State} {blown : Nat} {s : State} (hk : Keeps U s₀ s) (hT : 0x34400000040000000003830000068800200000000000010000000000000000000000000000000000000000000000000000000000000000000000000000000000000000000000000000000000000000000000000000000000006005 ||| U = U := by decide) : Keeps U s₀ (fuseDone blown s) := by
  refine Keeps.step ?_ hT hk
  clear hk hT; unfold fuseDone
  repeat' with_reducible first
    | exact Keeps.refl _ _ | assumption | refine Keeps.ite ?_ ?_ | refine fuseDerived_keeps ?_ | refine blow_keeps ?_ | refine fltEvent_keeps ?_
    | refine raiseInt_keeps ?_ | refine wrs_keeps ?_ | dsimp only | split
    | (constructor <;> first | exact fun _ => rfl | exact fun _ _ => rfl | exact rfl | exact List.prefix_refl _ | exact Nat.le_refl _ | exact fun w => w | exact fun _ _ w => w | exact fun h => absurd h (by decide) | exact fun _ => ⟨fun _ _ => ⟨fun w => w, fun w => w⟩⟩)
    | refine Keeps.setLcs ⟨rfl, rfl⟩ ?_

theorem transRequest_keeps {U : Nat} {s₀ : State} {m v : Nat} {s : State} (hk : Keeps U s₀ s) (hT : 0x3c0000000000000003830000068800200000000000000000000000000000000000000000000000000000000000000000000000000000000000000000000000000000000000000000000000000000000000000000000000006005 ||| U = U := by decide) : Keeps U s₀ (transRequest m v s) := by
  refine Keeps.step ?_ hT hk
  clear hk hT; unfold transRequest
  repeat' with_reducible first
    | exact Keeps.refl _ _ | assumption | refine Keeps.ite ?_ ?_ | refine fltEvent_keeps ?_ | refine wrs_keeps ?_ | refine wr_keeps ?_ | dsimp only
    | split
    | (constructor <;> first | exact fun _ => rfl | exact fun _ _ => rfl | exact rfl | exact List.prefix_refl _ | exact Nat.le_refl _ | exact fun w => w | exact fun _ _ w => w | exact fun h => absurd h (by decide) | exact fun _ => ⟨fun _ _ => ⟨fun w => w, fun w => w⟩⟩)
    | refine Keeps.setLcs ⟨rfl, rfl⟩ ?_

theorem transDone_keeps {U : Nat} {s₀ : State} {lc erase : Nat} {s : State} (hk : Keeps U s₀ s) (hT : (anyField ||| busMask ||| parMask ||| 65534) ||| U = U := by decide) : Keeps U s₀ (transDone lc erase s) := by
  refine Keeps.step ?_ hT hk
  clear hk hT; unfold transDone
  repeat' with_reducible first
    | exact Keeps.refl _ _ | assumption | refine Keeps.ite ?_ ?_ | refine blow_keeps ?_ | refine restart_keeps ?_ | refine fltEvent_keeps ?_
    | refine evlog_keeps ?_ | refine raiseInt_keeps ?_ | refine freeStep_keeps ?_ | refine wr_keeps ?_ (sub_trans (fldMask_any _) (by decide))
    | dsimp only | split
    | (constructor <;> first | exact fun _ => rfl | exact fun _ _ => rfl | exact rfl | exact List.prefix_refl _ | exact Nat.le_refl _ | exact fun w => w | exact fun _ _ w => w | exact fun h => absurd h (by decide) | exact fun _ => ⟨fun _ _ => ⟨fun w => w, fun w => w⟩⟩)
    | refine Keeps.setLcs ⟨rfl, rfl⟩ ?_

theorem attestWrite_keeps {U : Nat} {s₀ : State} {word : Nat} {s : State} (hk : Keeps U s₀ s) (hT : 0xc0000000000000000000000000000000000000000000000000000000000000000000000000000000000000000000000000000000000000000000000000000000000000000000000000000000000000000000000000000000000000001 ||| U = U := by decide) : Keeps U s₀ (attestWrite word s) := by
  refine Keeps.step ?_ hT hk
  clear hk hT; unfold attestWrite
  repeat' with_reducible first
    | exact Keeps.refl _ _ | assumption | refine Keeps.ite ?_ ?_ | refine wr_keeps ?_ | dsimp only | split

theorem attestDone_keeps {U : Nat} {s₀ : State} {s : State} (hk : Keeps U s₀ s) (hT : 0x580000000000000000000000000000000800200000000000000000000000000000000000000000000000000000000000000000000000000000000000000000000000000000000000000000000000000000000000000000000000004001 ||| U = U := by decide) : Keeps U s₀ (attestDone s) := by
  refine Keeps.step ?_ hT hk
  clear hk hT; unfold attestDone
  repeat' with_reducible first
    | exact Keeps.refl _ _ | assumption | refine Keeps.ite ?_ ?_ | refine raiseInt_keeps ?_ | refine wrs_keeps ?_ | refine wr_keeps ?_
    | refine forS_keeps ?_ ?_ | dsimp only | intro _ | split

theorem tapSelect_keeps {U : Nat} {s₀ : State} {code : Nat} {s : State} (hk : Keeps U s₀ s) (hT : (anyField ||| busMask ||| parMask ||| 32766) ||| U = U := by decide) : Keeps U s₀ (tapSelect code s) := by
  refine Keeps.step ?_ hT hk
  clear hk hT; unfold tapSelect
  repeat' with_reducible first
    | exact Keeps.refl _ _ | assumption | refine Keeps.ite ?_ ?_ | refine rstReset_keeps ?_ | refine powerUp_keeps ?_ | dsimp only | split
    | (constructor <;> first | exact fun _ => rfl | exact fun _ _ => rfl | exact rfl | exact List.prefix_refl _ | exact Nat.le_refl _ | exact fun w => w | exact fun _ _ w => w | exact fun h => absurd h (by decide) | exact fun _ => ⟨fun _ _ => ⟨fun w => w, fun w => w⟩⟩)
    | refine Keeps.setLcs ⟨rfl, rfl⟩ ?_

theorem ageing_keeps {U : Nat} {s₀ : State} {slow : List (Nat × Nat)} {s : State} (hk : Keeps U s₀ s) (hT : 0x1800000000000000000000003830000068800200000000000000000000000000000000000000000000000000000000000000000000000000000000000000000000000000000000000000000000000000000000000000000000000006205 ||| U = U := by decide) : Keeps U s₀ (ageing slow s) := by
  refine Keeps.step ?_ hT hk
  clear hk hT; unfold ageing
  repeat' with_reducible first
    | exact Keeps.refl _ _ | assumption | refine Keeps.ite ?_ ?_ | refine propFile_keeps ?_ | refine forS_keeps ?_ ?_ | intro _ | split

theorem propControl_keeps {U : Nat} {s₀ : State} {v : Nat} {s : State} (hk : Keeps U s₀ s) (hT : 0x37000000000000000000003830000068800200000000000000000000000000000000000000000000000000000000000000000000000000000000000000000000000000000000000000000000000000000000000000000000000006205 ||| U = U := by decide) : Keeps U s₀ (propControl v s) := by
  refine Keeps.step ?_ hT hk
  clear hk hT; unfold propControl
  repeat' with_reducible first
    | exact Keeps.refl _ _ | assumption | refine Keeps.ite ?_ ?_ | refine propApprove_keeps ?_ | refine propLeave_keeps ?_ | refine fltEvent_keeps ?_
    | refine wrs_keeps ?_ | dsimp only | intro _ | split
    | (constructor <;> first | exact fun _ => rfl | exact fun _ _ => rfl | exact rfl | exact List.prefix_refl _ | exact Nat.le_refl _ | exact fun w => w | exact fun _ _ w => w | exact fun h => absurd h (by decide) | exact fun _ => ⟨fun _ _ => ⟨fun w => w, fun w => w⟩⟩)
    | refine Keeps.setMemc ⟨rfl, rfl⟩ ?_

theorem substEngine_keeps {U : Nat} {s₀ : State} {e : Nat} {s : State} (hk : Keeps U s₀ s) (hT : 0x203000000000000000000000003000000080020000000000000000000000000000000000000000000000000000000000000000000000000000000000000000000000000000000000000000f000000000000000000000000000000006025 ||| U = U := by decide) : Keeps U s₀ (substEngine e s) := by
  refine Keeps.step ?_ hT hk
  clear hk hT; unfold substEngine
  repeat' with_reducible first
    | exact Keeps.refl _ _ | assumption
    | refine refitShares_keeps ?_ | refine Keeps.ite ?_ ?_ | refine setSharesAct_keeps ?_ | refine setEng_keeps ?_ | refine propNoSpare_keeps ?_
    | refine propDone_keeps ?_ | dsimp only | split
    | intro _

theorem substPin_keeps {U : Nat} {s₀ y : State} {kind p : Nat} {pin valid : Fld} {act : Nat → State → State} (hf : ∀ v x, Keeps U x (act v x)) (h : Keeps U s₀ y) (hp : fldMask pin ||| U = U := by first | decide | (split <;> first | decide | with_unfolding_all (refine fldMask_of (by conv => lhs; whnf) ?_; decide)) | with_unfolding_all (refine fldMask_of (by conv => lhs; whnf) ?_; decide)) (hv : fldMask valid ||| U = U := by first | decide | (split <;> first | decide | with_unfolding_all (refine fldMask_of (by conv => lhs; whnf) ?_; decide)) | with_unfolding_all (refine fldMask_of (by conv => lhs; whnf) ?_; decide)) (hU : 0x2030000000000000000000000030000000800200000000000000000000000000000000000000000000000000000000000000000000000000000000000000000000000000000000000000000000000000000000000000000000000006005 ||| U = U := by decide) : Keeps U s₀ (substPin kind p pin valid act y) := by
  have hf' : ∀ {a v x}, Keeps U a x → Keeps U a (act v x) := fun k => Keeps.step (hf ..) (Nat.or_self U) k
  unfold substPin
  repeat' with_reducible first
    | exact Keeps.refl _ _ | assumption | refine hf' ?_ | refine Keeps.ite ?_ ?_ | refine propNoSpare_keeps ?_ (sub_trans (by decide) hU)
    | refine propDone_keeps ?_ (sub_trans (by decide) hU)
    | refine wrs_keeps ?_ (forallCons hp (forallCons hv forallNil))
    | dsimp only | split

theorem substUnit_keeps {U : Nat} {s₀ : State} {u : Nat} {s : State} (hk : Keeps U s₀ s) (hT : 0x30000000000000000000000000000000000000000000000000000000000000000000000001800000100000000000000000000000000000000000000000000000000000000000000000000000000000000000000000000000000002081 ||| U = U := by decide) : Keeps U s₀ (substUnit u s) := by
  refine Keeps.step ?_ hT hk
  clear hk hT; unfold substUnit
  repeat' with_reducible first
    | exact Keeps.refl _ _ | assumption | refine Keeps.ite ?_ ?_ | refine auSubstitute_keeps ?_ | refine propNoSpare_keeps ?_ | refine wrs_keeps ?_
    | split

theorem substCore_keeps {U : Nat} {s₀ : State} {n : Nat} {s : State} (hk : Keeps U s₀ s) (hT : 0x2030000000000000000000000030000000800200000000000000000000000000000000000000000000000000000000000000000000000000000000000000000000000000000000000000000000000000000000000000000000000006005 ||| U = U := by decide) : Keeps U s₀ (substCore n s) := by
  refine Keeps.step ?_ hT hk
  clear hk hT; unfold substCore
  repeat' with_reducible first
    | exact Keeps.refl _ _ | assumption | refine Keeps.ite ?_ ?_ | refine propNoSpare_keeps ?_ | refine propDone_keeps ?_ | split
    | (constructor <;> first | exact fun _ => rfl | exact fun _ _ => rfl | exact rfl | exact List.prefix_refl _ | exact Nat.le_refl _ | exact fun w => w | exact fun _ _ w => w | exact fun h => absurd h (by decide) | exact fun _ => ⟨fun _ _ => ⟨fun w => w, fun w => w⟩⟩)
    | refine Keeps.setLcs ⟨rfl, rfl⟩ ?_

theorem substLane_keeps {U : Nat} {s₀ : State} {l : Nat} {s : State} (hk : Keeps U s₀ s) (hT : 0x2030000000000000000000003830000078800200000000000000000000000000000000000000000000000000000000000000000000000000000000000000000000000000000000000000000000000070000080600000000000000006015 ||| U = U := by decide) : Keeps U s₀ (substLane l s) := by
  refine Keeps.step ?_ hT hk
  clear hk hT; unfold substLane
  repeat' with_reducible first
    | exact Keeps.refl _ _ | assumption | refine Keeps.ite ?_ ?_ | refine movePort_keeps ?_ | refine propNoSpare_keeps ?_ | refine propDone_keeps ?_
    | refine wr_keeps ?_ | split

theorem substColumn_keeps {U : Nat} {s₀ : State} {q : Nat} {s : State} (hk : Keeps U s₀ s) (hT : 0x2030000000000000000000000030000000800200000000000000000000000000000000000000000000000000000000000000000000000000000000000000000000000000000000000000000000000000000000000000000000000006005 ||| U = U := by decide) : Keeps U s₀ (substColumn q s) := by
  refine Keeps.step ?_ hT hk
  clear hk hT; unfold substColumn
  repeat' with_reducible first
    | exact Keeps.refl _ _ | assumption | refine Keeps.ite ?_ ?_ | refine propNoSpare_keeps ?_ | refine propDone_keeps ?_ | dsimp only | split
    | (constructor <;> first | exact fun _ => rfl | exact fun _ _ => rfl | exact rfl | exact List.prefix_refl _ | exact Nat.le_refl _ | exact fun w => w | exact fun _ _ w => w | exact fun h => absurd h (by decide) | exact fun _ => ⟨fun _ _ => ⟨fun w => w, fun w => w⟩⟩)
    | refine Keeps.setLcs ⟨rfl, rfl⟩ ?_

theorem substApproved_keeps {U : Nat} {s₀ : State} {kind inst : Nat} {s : State} (hk : Keeps U s₀ s) (hT : 0x2030000000000000000000013830000078800200000000000000000000000000000000000001800000100000000000000001c0000000000000000000000380000000000000000000000000f0000000700000806000000000000000072f5 ||| U = U := by decide) : Keeps U s₀ (substApproved kind inst s) := by
  refine Keeps.step ?_ hT hk
  clear hk hT; unfold substApproved
  repeat' with_reducible first
    | exact Keeps.refl _ _ | assumption | refine Keeps.ite ?_ ?_ | refine substColumn_keeps ?_ | refine substLane_keeps ?_
    | refine substCore_keeps ?_ | refine substUnit_keeps ?_ | refine substPin_keeps ?_ ?_ | refine substEngine_keeps ?_ | refine retireStart_keeps ?_
    | refine convSubstitute_keeps ?_ | refine sliceSubstitute_keeps ?_ | refine retireAdd_keeps ?_ | refine propDone_keeps ?_ | intro _ | dsimp only
    | split

theorem substPending_keeps {U : Nat} {s₀ : State} {kind inst : Nat} {s : State} (hk : Keeps U s₀ s) (hT : 0x38300000788002000000000000000000000000000000000000000000001000000000000000010000000000000000000000020000000000000000000000000000000000700000800000000000000000040d5 ||| U = U := by decide) : Keeps U s₀ (substPending kind inst s) := by
  refine Keeps.step ?_ hT hk
  clear hk hT; unfold substPending
  repeat' with_reducible first
    | exact Keeps.refl _ _ | assumption | refine movePorts_keeps ?_ | refine Keeps.ite ?_ ?_ | refine convSubstitute_keeps ?_
    | refine auSubstitute_keeps ?_ | refine sliceSubstitute_keeps ?_ | refine movePort_keeps ?_ | dsimp only | intro _ | split

theorem ptbUnlock_keeps {U : Nat} {s₀ : State} {s : State} (hk : Keeps U s₀ s) (hT : 0x2c000000000000000000000000030000000000000000000000000000000000000000000000000000000000000000000000000000000000000000000000000000000000000000000000000000000000000000000000000000000000002005 ||| U = U := by decide) : Keeps U s₀ (ptbUnlock s) := by
  refine Keeps.step ?_ hT hk
  clear hk hT; unfold ptbUnlock
  repeat' with_reducible first
    | exact Keeps.refl _ _ | assumption | refine evlog_keeps ?_ | refine wrs_keeps ?_ | dsimp only
    | (constructor <;> first | exact fun _ => rfl | exact fun _ _ => rfl | exact rfl | exact List.prefix_refl _ | exact Nat.le_refl _ | exact fun w => w | exact fun _ _ w => w | exact fun h => absurd h (by decide) | exact fun _ => ⟨fun _ _ => ⟨fun w => w, fun w => w⟩⟩)
    | refine Keeps.setLcs ⟨rfl, rfl⟩ ?_

theorem ptbUnlockEffect_keeps {U : Nat} {s₀ : State} {v : Nat} {s : State} (hk : Keeps U s₀ s) (hT : 0xbc000000000000000000000003830000878800200000000000000000000000000000000000000000000000000000000000000000000000000000000000000000000000000000000000000000000000000000000000000000000000006005 ||| U = U := by decide) : Keeps U s₀ (ptbUnlockEffect v s) := by
  refine Keeps.step ?_ hT hk
  clear hk hT; unfold ptbUnlockEffect
  repeat' with_reducible first
    | exact Keeps.refl _ _ | assumption | refine Keeps.ite ?_ ?_ | refine ptbUnlock_keeps ?_ | refine ptbLock_keeps ?_ | refine fltEvent_keeps ?_
    | split

theorem ptbExpire_keeps {U : Nat} {s₀ : State} {s : State} (hk : Keeps U s₀ s) (hT : 0xbc000000000000000000000003830000878800200000000000000000000000000000000000000000000000000000000000000000000000000000000000000000000000000000000000000000000000000000000000000000000000006005 ||| U = U := by decide) : Keeps U s₀ (ptbExpire s) := by
  refine Keeps.step ?_ hT hk
  clear hk hT; unfold ptbExpire
  repeat' with_reducible first
    | exact Keeps.refl _ _ | assumption | refine Keeps.ite ?_ ?_ | refine ptbLock_keeps ?_ | refine raiseInt_keeps ?_ | dsimp only | intro _ | split

theorem ptbCtrl_keeps {U : Nat} {s₀ : State} {k word : Nat} {s : State} (hk : Keeps U s₀ s) (hT : 0x2790000000000000000000000003830000878800200000000000000000000000000000000000000000000000000000000000000000000000000000000000000000000000000000000000000000000000000000000000000000000000004025 ||| U = U := by decide) : Keeps U s₀ (ptbCtrl k word s) := by
  refine Keeps.step ?_ hT hk
  clear hk hT; unfold ptbCtrl
  repeat' with_reducible first
    | exact Keeps.refl _ _ | assumption
    | refine setEng_keeps ?_ | refine Keeps.ite ?_ ?_ | refine ptbFollow_keeps ?_ | refine fltEvent_keeps ?_ | refine evlog_keeps ?_
    | refine wrs_keeps ?_ | refine wr_keeps ?_ | dsimp only | intro _ | split

theorem ptbSlot_keeps {U : Nat} {s₀ : State} {k r word : Nat} {s : State} (hk : Keeps U s₀ s) (hT : 0x3f90000000000000000000000003830000878800200000000000000000000000000000000000000000000000000000000000000000000000000000000000000000000000000000000000000000000000000000000000000000000000004025 ||| U = U := by decide) : Keeps U s₀ (ptbSlot k r word s) := by
  refine Keeps.step ?_ hT hk
  clear hk hT; unfold ptbSlot
  repeat' with_reducible first
    | exact Keeps.refl _ _ | assumption | refine Keeps.ite ?_ ?_ | refine ptbCtrl_keeps ?_ | refine fltEvent_keeps ?_ | refine wr_keeps ?_
    | dsimp only | split

theorem ptbParity_keeps {U : Nat} {s₀ : State} {ty inst off : Nat} {s : State} (hk : Keeps U s₀ s) (hT : (parMask ||| 0x4) ||| U = U := by decide) : Keeps U s₀ (ptbParity ty inst off s) := by
  refine Keeps.step ?_ hT hk
  clear hk hT; unfold ptbParity
  repeat' with_reducible first
    | exact Keeps.refl _ _ | assumption | refine Keeps.ite ?_ ?_ | refine flipParity_keeps ?_ | split

theorem ptbInject_keeps {U : Nat} {s₀ : State} {k : Nat} {s : State} (hk : Keeps U s₀ s) (hT : (parMask ||| 0x900000000000000000000000038300008788002000000000000000000000000000000000000000000000000000000000000000000000000000000000000000000000000460000000017a000f000000000000000000000000000000006025) ||| U = U := by decide) : Keeps U s₀ (ptbInject k s) := by
  refine Keeps.step ?_ hT hk
  clear hk hT; unfold ptbInject
  repeat' with_reducible first
    | exact Keeps.refl _ _ | assumption | refine ptbParity_keeps ?_ | refine machineCheck_keeps ?_ | refine ptbDisarm_keeps ?_ | dsimp only | split
    | (constructor <;> first | exact fun _ => rfl | exact fun _ _ => rfl | exact rfl | exact List.prefix_refl _ | exact Nat.le_refl _ | exact fun w => w | exact fun _ _ w => w | exact fun h => absurd h (by decide) | exact fun _ => ⟨fun _ _ => ⟨fun w => w, fun w => w⟩⟩)
    | refine Keeps.setLcs ⟨rfl, rfl⟩ ?_

theorem execFuseSelect_keeps {m word : Nat} {s : State} {t' : State} (hx : execFuseSelect m word s = .next t') :
    Keeps (busMask ||| parMask ||| 0x29800000000000000003830000078a00200000000140000000000000000000000000000000000000000000000000000000000000000000000000000040000000000000000000000000000000070000080000000000000000004055) s t' := by
  unfold execFuseSelect at hx; obtain rfl := Host.Outcome.next.inj hx
  repeat' with_reducible first
    | exact Keeps.refl _ _ | assumption
    | refine takeIn_keeps ?_ ?_ | refine fuseSelect_keeps ?_ | refine asWriter_keeps ?_ ?_ | intro _
    | dsimp only

theorem execFuseProgram_keeps {m comp : Nat} {s : State} {t' : State} (hx : execFuseProgram m comp s = .next t') :
    Keeps (busMask ||| parMask ||| 0x34000000000000000003830040078a00200000000140000000000000000000000000000000000000000000000000000000000000000000000000000040000000000000000000000000000000070000080000000000000000006055) s t' := by
  unfold execFuseProgram at hx; obtain rfl := Host.Outcome.next.inj hx
  repeat' with_reducible first
    | exact Keeps.refl _ _ | assumption
    | refine takeIn_keeps ?_ ?_ | refine fuseProgram_keeps ?_ | refine pairComplete_keeps ?_ ?_ | intro _
    | dsimp only

theorem execFuseDone_keeps {blown : Nat} {s : State} {t' : State} (hx : execFuseDone blown s = .next t') :
    Keeps 0x34400000040000000003830000068800200000000000010000000000000000000000000000000000000000000000000000000000000000000000000000000000000000000000000000000000000000000000000000000000006005 s t' := by
  unfold execFuseDone at hx; obtain rfl := Host.Outcome.next.inj hx
  repeat' with_reducible first
    | exact Keeps.refl _ _ | assumption | refine fuseDone_keeps ?_

theorem execLifeCycleTransition_keeps {m comp : Nat} {s : State} {t' : State} (hx : execLifeCycleTransition m comp s = .next t') :
    Keeps (busMask ||| parMask ||| 0x3c0000000000000003830040078a00200000000140000000000000000000000000000000000000000000000000000000000000000000000000000040000000000000000000000000000000070000080000000000000000006055) s t' := by
  unfold execLifeCycleTransition at hx; obtain rfl := Host.Outcome.next.inj hx
  repeat' with_reducible first
    | exact Keeps.refl _ _ | assumption
    | refine takeIn_keeps ?_ ?_ | refine transRequest_keeps ?_ | refine pairComplete_keeps ?_ ?_ | intro _
    | dsimp only

theorem execTransDone_keeps {lc erase : Nat} {s : State} {t' : State} (hx : execTransDone lc erase s = .next t') :
    Keeps (anyField ||| busMask ||| parMask ||| 65534) s t' := by
  unfold execTransDone at hx; obtain rfl := Host.Outcome.next.inj hx
  repeat' with_reducible first
    | exact Keeps.refl _ _ | assumption | refine transDone_keeps ?_

theorem execAttest_keeps {m word : Nat} {s : State} {t' : State} (hx : execAttest m word s = .next t') :
    Keeps (busMask ||| parMask ||| 0xc0000000000000000000003830000078a00200000000140000000000000000000000000000000000000000000000000000000000000000000000000000040000000000000000000000000000000070000080000000000000000004055) s t' := by
  unfold execAttest at hx; obtain rfl := Host.Outcome.next.inj hx
  repeat' with_reducible first
    | exact Keeps.refl _ _ | assumption
    | refine takeIn_keeps ?_ ?_ | refine attestWrite_keeps ?_ | refine asWriter_keeps ?_ ?_ | intro _
    | dsimp only

theorem execAttestDone_keeps {s : State} {t' : State} (hx : execAttestDone s = .next t') :
    Keeps 0x580000000000000000000000000000000800200000000000000000000000000000000000000000000000000000000000000000000000000000000000000000000000000000000000000000000000000000000000000000000000004001 s t' := by
  unfold execAttestDone at hx; obtain rfl := Host.Outcome.next.inj hx
  repeat' with_reducible first
    | exact Keeps.refl _ _ | assumption | refine attestDone_keeps ?_

theorem execExtest_keeps {s : State} {t' : State} (hx : execExtest s = .next t') :
    Keeps (anyField ||| busMask ||| parMask ||| 32766) s t' := by
  unfold execExtest at hx; obtain rfl := Host.Outcome.next.inj hx
  repeat' with_reducible first
    | exact Keeps.refl _ _ | assumption | refine tapSelect_keeps ?_

theorem execSamplePreload_keeps {s : State} {t' : State} (hx : execSamplePreload s = .next t') :
    Keeps (anyField ||| busMask ||| parMask ||| 32766) s t' := by
  unfold execSamplePreload at hx; obtain rfl := Host.Outcome.next.inj hx
  repeat' with_reducible first
    | exact Keeps.refl _ _ | assumption | refine tapSelect_keeps ?_

theorem execIdcode_keeps {s : State} {t' : State} (hx : execIdcode s = .next t') :
    Keeps (anyField ||| busMask ||| parMask ||| 32766) s t' := by
  unfold execIdcode at hx; obtain rfl := Host.Outcome.next.inj hx
  repeat' with_reducible first
    | exact Keeps.refl _ _ | assumption | refine tapSelect_keeps ?_ | refine emit_keeps ?_

theorem execClamp_keeps {s : State} {t' : State} (hx : execClamp s = .next t') :
    Keeps (anyField ||| busMask ||| parMask ||| 32766) s t' := by
  unfold execClamp at hx; obtain rfl := Host.Outcome.next.inj hx
  repeat' with_reducible first
    | exact Keeps.refl _ _ | assumption | refine tapSelect_keeps ?_

theorem execHighz_keeps {s : State} {t' : State} (hx : execHighz s = .next t') :
    Keeps (anyField ||| busMask ||| parMask ||| 32766) s t' := by
  unfold execHighz at hx; obtain rfl := Host.Outcome.next.inj hx
  repeat' with_reducible first
    | exact Keeps.refl _ _ | assumption | refine tapSelect_keeps ?_

theorem execExtestPulse_keeps {s : State} {t' : State} (hx : execExtestPulse s = .next t') :
    Keeps (anyField ||| busMask ||| parMask ||| 32766) s t' := by
  unfold execExtestPulse at hx; obtain rfl := Host.Outcome.next.inj hx
  repeat' with_reducible first
    | exact Keeps.refl _ _ | assumption | refine tapSelect_keeps ?_

theorem execExtestTrain_keeps {s : State} {t' : State} (hx : execExtestTrain s = .next t') :
    Keeps (anyField ||| busMask ||| parMask ||| 32766) s t' := by
  unfold execExtestTrain at hx; obtain rfl := Host.Outcome.next.inj hx
  repeat' with_reducible first
    | exact Keeps.refl _ _ | assumption | refine tapSelect_keeps ?_

theorem execDebug_keeps {s : State} {t' : State} (hx : execDebug s = .next t') :
    Keeps (anyField ||| busMask ||| parMask ||| 32766) s t' := by
  unfold execDebug at hx; obtain rfl := Host.Outcome.next.inj hx
  repeat' with_reducible first
    | exact Keeps.refl _ _ | assumption | refine tapSelect_keeps ?_

theorem execBypass_keeps {s : State} {t' : State} (hx : execBypass s = .next t') :
    Keeps (anyField ||| busMask ||| parMask ||| 32766) s t' := by
  unfold execBypass at hx; obtain rfl := Host.Outcome.next.inj hx
  repeat' with_reducible first
    | exact Keeps.refl _ _ | assumption | refine tapSelect_keeps ?_

theorem execAgeingMeasurement_keeps {slow : List (Nat × Nat)} {s : State} {t' : State} (hx : execAgeingMeasurement slow s = .next t') :
    Keeps 0x1800000000000000000000003830000068800200000000000000000000000000000000000000000000000000000000000000000000000000000000000000000000000000000000000000000000000000000000000000000000000006205 s t' := by
  unfold execAgeingMeasurement at hx; obtain rfl := Host.Outcome.next.inj hx
  repeat' with_reducible first
    | exact Keeps.refl _ _ | assumption | refine ageing_keeps ?_

theorem execProposal_keeps {kind inst : Nat} {facts : WearFacts} {s : State} {t' : State} (hx : execProposal kind inst facts s = .next t') :
    Keeps 0x1800000000000000000000003830000068800200000000000000000000000000000000000000000000000000000000000000000000000000000000000000000000000000000000000000000000000000000000000000000000000006205 s t' := by
  unfold execProposal at hx; obtain rfl := Host.Outcome.next.inj hx
  repeat' with_reducible first
    | exact Keeps.refl _ _ | assumption | refine wearClear_keeps ?_ | refine fltEvent_keeps ?_ | refine raiseInt_keeps ?_ | refine Keeps.ite ?_ ?_
    | refine propFile_keeps ?_ | dsimp only | intro _ | split

theorem execProposalApprove_keeps {m comp : Nat} {s : State} {t' : State} (hx : execProposalApprove m comp s = .next t') :
    Keeps (busMask ||| parMask ||| 0x37000000000000000000003830040078a00200000000140000000000000000000000000000000000000000000000000000000000000000000000000000040000000000000000000000000000000070000080000000000000000006255) s t' := by
  unfold execProposalApprove at hx; obtain rfl := Host.Outcome.next.inj hx
  repeat' with_reducible first
    | exact Keeps.refl _ _ | assumption
    | refine takeIn_keeps ?_ ?_ | refine propControl_keeps ?_ | refine pairComplete_keeps ?_ ?_ | intro _
    | dsimp only

theorem execProposalReject_keeps {m comp : Nat} {s : State} {t' : State} (hx : execProposalReject m comp s = .next t') :
    Keeps (busMask ||| parMask ||| 0x37000000000000000000003830040078a00200000000140000000000000000000000000000000000000000000000000000000000000000000000000000040000000000000000000000000000000070000080000000000000000006255) s t' := by
  unfold execProposalReject at hx; obtain rfl := Host.Outcome.next.inj hx
  repeat' with_reducible first
    | exact Keeps.refl _ _ | assumption
    | refine takeIn_keeps ?_ ?_ | refine propControl_keeps ?_ | refine pairComplete_keeps ?_ ?_ | intro _
    | dsimp only

theorem execSpareSubstitution_keeps {kind inst : Nat} {s : State} {t' : State} (hx : execSpareSubstitution kind inst s = .next t') :
    Keeps 0x2030000000000000000000013830000078800200000000000000000000000000000000000001800000100000000000000001c0000000000000000000000380000000000000000000000000f0000000700000806000000000000000072f5 s t' := by
  unfold execSpareSubstitution at hx; obtain rfl := Host.Outcome.next.inj hx
  repeat' with_reducible first
    | exact Keeps.refl _ _ | assumption | refine Keeps.ite ?_ ?_ | refine substPending_keeps ?_ | refine substApproved_keeps ?_ | split

theorem execPtbUnlock_keeps {m comp : Nat} {s : State} {t' : State} (hx : execPtbUnlock m comp s = .next t') :
    Keeps (busMask ||| parMask ||| 0xbc000000000000000000000003830040878a00200000000140000000000000000000000000000000000000000000000000000000000000000000000000000040000000000000000000000000000000070000080000000000000000006055) s t' := by
  unfold execPtbUnlock at hx; obtain rfl := Host.Outcome.next.inj hx
  repeat' with_reducible first
    | exact Keeps.refl _ _ | assumption
    | refine takeIn_keeps ?_ ?_ | refine ptbUnlockEffect_keeps ?_ | refine pairComplete_keeps ?_ ?_ | intro _
    | dsimp only

theorem execPtbLock_keeps {m comp : Nat} {s : State} {t' : State} (hx : execPtbLock m comp s = .next t') :
    Keeps (busMask ||| parMask ||| 0xbc000000000000000000000003830040878a00200000000140000000000000000000000000000000000000000000000000000000000000000000000000000040000000000000000000000000000000070000080000000000000000006055) s t' := by
  unfold execPtbLock at hx; obtain rfl := Host.Outcome.next.inj hx
  repeat' with_reducible first
    | exact Keeps.refl _ _ | assumption
    | refine takeIn_keeps ?_ ?_ | refine ptbUnlockEffect_keeps ?_ | refine pairComplete_keeps ?_ ?_ | intro _
    | dsimp only

theorem execPtbTimeout_keeps {s : State} {t' : State} (hx : execPtbTimeout s = .next t') :
    Keeps 0xbc000000000000000000000003830000878800200000000000000000000000000000000000000000000000000000000000000000000000000000000000000000000000000000000000000000000000000000000000000000000000006005 s t' := by
  unfold execPtbTimeout at hx; obtain rfl := Host.Outcome.next.inj hx
  repeat' with_reducible first
    | exact Keeps.refl _ _ | assumption | refine ptbExpire_keeps ?_

theorem execPtbSlotWrite_keeps {m k r word : Nat} {s : State} {t' : State} (hx : execPtbSlotWrite m k r word s = .next t') :
    Keeps (busMask ||| parMask ||| 0x3f90000000000000000000000003830000878a00200000000140000000000000000000000000000000000000000000000000000000000000000000000000000040000000000000000000000000000000070000080000000000000000004075) s t' := by
  unfold execPtbSlotWrite at hx; obtain rfl := Host.Outcome.next.inj hx
  repeat' with_reducible first
    | exact Keeps.refl _ _ | assumption
    | refine takeIn_keeps ?_ ?_ | refine ptbSlot_keeps ?_ | refine asWriter_keeps ?_ ?_ | intro _
    | dsimp only

theorem execPtbInjection_keeps {k : Nat} {s : State} {t' : State} (hx : execPtbInjection k s = .next t') :
    Keeps (parMask ||| 0x20900000000000000000000000038300008788002000000000000000000000000000000000000000000000000000000000000000000000000000000000000000000000000460000000017a000f000000000000000000000000000000006025) s t' := by
  unfold execPtbInjection at hx; obtain rfl := Host.Outcome.next.inj hx
  repeat' with_reducible first
    | exact Keeps.refl _ _ | assumption | refine Keeps.ite ?_ ?_ | refine ptbInject_keeps ?_ | refine incSat_keeps ?_ | split

end Sys2Proof.Machine
end

