-- ==== Sys2Proof/Laws/Regs.lean ====
section
/-! SUPPORT. What the operations and commands of Machine/Regs.lean keep, and the components of the state they may write (Laws/Keeps.lean). -/

set_option exponentiation.threshold 2000

set_option Elab.async false

namespace Sys2Proof.Machine

open Sys2Proof

theorem abortAccess_keeps {U : Nat} {s₀ : State} {m : Nat} {s : State} (hk : Keeps U s₀ s) (hT : 0x40000000000000000000000000000000000000000000000000000000000000000000000000000000000000000000000000000000000000000000000000000000000000004001 ||| U = U := by decide) : Keeps U s₀ (abortAccess m s) := by
  refine Keeps.step ?_ hT hk
  clear hk hT; unfold abortAccess
  repeat' with_reducible first
    | exact Keeps.refl _ _ | assumption | refine Keeps.ite ?_ ?_ | refine badAccess_keeps ?_ | refine emit_keeps ?_ | dsimp only | intro _ | split

theorem storeValue_keeps {U : Nat} {s₀ : State} {p : Page} {f : Fld} {a : Acc} {v : Nat} {s : State} (hk : Keeps U s₀ s) (hT : (anyField ||| 16389) ||| U = U := by decide) : Keeps U s₀ (storeValue p f a v s) := by
  refine Keeps.step ?_ hT hk
  clear hk hT; unfold storeValue
  repeat' with_reducible first
    | exact Keeps.refl _ _ | assumption | refine Keeps.ite ?_ ?_ | refine writeLocked_keeps ?_
    | refine orBits_keeps ?_ (sub_trans (setMask_fldMask _) (sub_trans (fldMask_any _) (by decide)))
    | refine wr_keeps ?_ (sub_trans (fldMask_any _) (by decide)) | split

theorem storeWord_keeps {U : Nat} {s₀ : State} {p : Page} {off word : Nat} {s : State} (hk : Keeps U s₀ s) (hT : (anyField ||| 16389) ||| U = U := by decide) : Keeps U s₀ (storeWord p off word s) := by
  refine Keeps.step ?_ hT hk
  clear hk hT; unfold storeWord
  repeat' with_reducible first
    | exact Keeps.refl _ _ | assumption
    | refine writeLocked_keeps ?_ | refine Keeps.ite ?_ ?_ | refine storeValue_keeps ?_ | refine forS_keeps ?_ ?_ | intro _ | split
    | dsimp only

theorem headerWrite_keeps {U : Nat} {s₀ : State} {m : Nat} {p : Page} {off word : Nat} {s : State} (hk : Keeps U s₀ s) (hT : (anyField ||| 18773) ||| U = U := by decide) : Keeps U s₀ (headerWrite m p off word s) := by
  refine Keeps.step ?_ hT hk
  clear hk hT; unfold headerWrite
  repeat' with_reducible first
    | exact Keeps.refl _ _ | assumption | refine Keeps.ite ?_ ?_ | refine storeWord_keeps ?_ | refine disableEffect_keeps ?_
    | refine enableEffect_keeps ?_ | refine clearCauses_keeps ?_ | refine intSet_keeps ?_ | refine intClear_keeps ?_ | refine reraise_keeps ?_
    | refine wr_keeps ?_ (sub_trans (fldMask_any _) (by decide)) | dsimp only | split

theorem timWrite_keeps {U : Nat} {s₀ : State} {m b off word : Nat} {meas : HoldMeas} {s : State} (hk : Keeps U s₀ s) (hT : (anyField ||| 16397) ||| U = U := by decide) : Keeps U s₀ (timWrite m b off word meas s) := by
  refine Keeps.step ?_ hT hk
  clear hk hT; unfold timWrite
  repeat' with_reducible first
    | exact Keeps.refl _ _ | assumption | refine Keeps.ite ?_ ?_ | refine storeWord_keeps ?_ | refine tpOwnerEffect_keeps ?_ | refine goWrite_keeps ?_
    | refine refSelectEffect_keeps ?_ | refine checkHoldLimit_keeps ?_ | refine writeLocked_keeps ?_ | dsimp only | split
    | (constructor <;> first | exact fun _ => rfl | exact fun _ _ => rfl | exact rfl | exact List.prefix_refl _ | exact Nat.le_refl _ | exact fun w => w | exact fun _ _ w => w | exact fun h => absurd h (by decide) | exact fun _ => ⟨fun _ _ => ⟨fun w => w, fun w => w⟩⟩)
    | refine Keeps.setTim ?_

theorem pulseWrite_keeps {U : Nat} {s₀ : State} {q off word : Nat} {s : State} (hk : Keeps U s₀ s) (hT : (anyField ||| 16397) ||| U = U := by decide) : Keeps U s₀ (pulseWrite q off word s) := by
  refine Keeps.step ?_ hT hk
  clear hk hT; unfold pulseWrite
  repeat' with_reducible first
    | exact Keeps.refl _ _ | assumption | refine Keeps.ite ?_ ?_ | refine storeWord_keeps ?_ | refine disarmPulse_keeps ?_ | refine armEffect_keeps ?_
    | refine timeRefused_keeps ?_ | refine wrs_keeps ?_ (fun x _ => sub_trans (fldMask_any x.1) (by decide)) | split

theorem tlkWrite_keeps {U : Nat} {s₀ : State} {p : Page} {off word : Nat} {s : State} (hk : Keeps U s₀ s) (hT : (anyField ||| 16405) ||| U = U := by decide) : Keeps U s₀ (tlkWrite p off word s) := by
  refine Keeps.step ?_ hT hk
  clear hk hT; unfold tlkWrite
  repeat' with_reducible first
    | exact Keeps.refl _ _ | assumption | refine Keeps.ite ?_ ?_ | refine storeWord_keeps ?_ | refine prbsWrite_keeps ?_ | refine rxCtrlWrite_keeps ?_
    | refine txeqEffect_keeps ?_ | refine intvWrite_keeps ?_ | refine tlkCtrlWrite_keeps ?_ | refine portCtrlWrite_keeps ?_ | split

theorem disWrite_keeps {U : Nat} {s₀ : State} {off word : Nat} {s : State} (hk : Keeps U s₀ s) (hT : (anyField ||| 16389) ||| U = U := by decide) : Keeps U s₀ (disWrite off word s) := by
  refine Keeps.step ?_ hT hk
  clear hk hT; unfold disWrite
  repeat' with_reducible first
    | exact Keeps.refl _ _ | assumption | refine Keeps.ite ?_ ?_ | refine storeWord_keeps ?_ | refine shareEffect_keeps ?_ | refine fltEvent_keeps ?_
    | dsimp only | split

theorem acqCtrlWrite_keeps {U : Nat} {s₀ : State} {b word : Nat} {s : State} (hk : Keeps U s₀ s) (hT : 0x3830000068800200000000000000000000000000000000000000000000000000020000000000000401fc003f000000000000000000000000000000000000000000000000000000000000000000000004065 ||| U = U := by decide) : Keeps U s₀ (acqCtrlWrite b word s) := by
  refine Keeps.step ?_ hT hk
  clear hk hT; unfold acqCtrlWrite
  repeat' with_reducible first
    | exact Keeps.refl _ _ | assumption | refine Keeps.ite ?_ ?_ | refine disarmChannel_keeps ?_ | refine armChannel_keeps ?_
    | refine acqCtrlStore_keeps ?_ | refine acqTrigger_keeps ?_ | dsimp only | split

theorem bankWrite_keeps {U : Nat} {s₀ : State} {m b off word : Nat} {s : State} (hk : Keeps U s₀ s) (hT : (anyField ||| 16741) ||| U = U := by decide) : Keeps U s₀ (bankWrite m b off word s) := by
  refine Keeps.step ?_ hT hk
  clear hk hT; unfold bankWrite
  repeat' with_reducible first
    | exact Keeps.refl _ _ | assumption | refine Keeps.ite ?_ ?_ | refine acqCtrlWrite_keeps ?_ | refine followPhaseEffect_keeps ?_ | refine storeWord_keeps ?_
    | refine pinCfgEffect_keeps ?_ | refine fcStart_keeps ?_ | refine stampCtrlEffect_keeps ?_ | refine pecCfgEffect_keeps ?_
    | refine pecPush_keeps ?_ | refine pinTxeqEffect_keeps ?_ | refine followEffect_keeps ?_ | refine modeEffect_keeps ?_ | refine tsCommand_keeps ?_
    | refine maskEffect_keeps ?_ | refine fltEvent_keeps ?_ | dsimp only | split

theorem cmpWrite_keeps {U : Nat} {s₀ : State} {n off word : Nat} {s : State} (hk : Keeps U s₀ s) (hT : (anyField ||| 16485) ||| U = U := by decide) : Keeps U s₀ (cmpWrite n off word s) := by
  refine Keeps.step ?_ hT hk
  clear hk hT; unfold cmpWrite
  repeat' with_reducible first
    | exact Keeps.refl _ _ | assumption | refine Keeps.ite ?_ ?_ | refine storeWord_keeps ?_ | refine ledRateEffect_keeps ?_
    | refine ledgerCtrlEffect_keeps ?_ | refine makePending_keeps ?_ | refine fltEvent_keeps ?_ | dsimp only | split

theorem acqWrite_keeps {U : Nat} {s₀ : State} {p : Page} {off word : Nat} {s : State} (hk : Keeps U s₀ s) (hT : (anyField ||| 16389) ||| U = U := by decide) : Keeps U s₀ (acqWrite p off word s) := by
  refine Keeps.step ?_ hT hk
  clear hk hT; unfold acqWrite
  repeat' with_reducible first
    | exact Keeps.refl _ _ | assumption | refine Keeps.ite ?_ ?_ | refine storeWord_keeps ?_ | refine toOwnerEffect_keeps ?_
    | refine fltEvent_keeps ?_ | dsimp only | split

theorem auGuard_keeps {U : Nat} {s₀ y : State} {m u : Nat} {held stopped : Bool} {f : State → State} (hf : ∀ x, Keeps U x (f x)) (h : Keeps U s₀ y) (hU : 0x3830020068800200000000000000000000000000000000000000000000000000000000000000000000000000000000000000000000000000000000000000000000000000000000000000000000000004005 ||| U = U := by decide) : Keeps U s₀ (auGuard m u held stopped f y) := by
  have hf' : ∀ {a x}, Keeps U a x → Keeps U a (f x) := fun k => Keeps.step (hf ..) (Nat.or_self U) k
  unfold auGuard
  repeat' with_reducible first
    | exact Keeps.refl _ _ | assumption | refine hf' ?_ | refine Keeps.ite ?_ ?_ | refine writeLocked_keeps ?_ (sub_trans (by decide) hU) | split

theorem auWrite_keeps {U : Nat} {s₀ : State} {m u off word : Nat} {s : State} (hk : Keeps U s₀ s) (hT : (anyField ||| 16517) ||| U = U := by decide) : Keeps U s₀ (auWrite m u off word s) := by
  refine Keeps.step ?_ hT hk
  clear hk hT; unfold auWrite
  repeat' with_reducible first
    | exact Keeps.refl _ _ | assumption | refine Keeps.ite ?_ ?_ | refine auGuard_keeps ?_ ?_ | refine storeWord_keeps ?_
    | refine assignEffect_keeps ?_ | refine auCtrl_keeps ?_ | refine setAuProg_keeps ?_ | refine setAuData_keeps ?_ | refine setAu_keeps ?_
    | refine fltEvent_keeps ?_ | dsimp only | intro _ | split

theorem calWrite_keeps {U : Nat} {s₀ : State} {p : Page} {off word : Nat} {s : State} (hk : Keeps U s₀ s) (hT : (anyField ||| 16645) ||| U = U := by decide) : Keeps U s₀ (calWrite p off word s) := by
  refine Keeps.step ?_ hT hk
  clear hk hT; unfold calWrite
  repeat' with_reducible first
    | exact Keeps.refl _ _ | assumption | refine Keeps.ite ?_ ?_ | refine storeWord_keeps ?_ | refine calRequest_keeps ?_ | refine fltEvent_keeps ?_
    | dsimp only | split

theorem mapLookup_keeps {U : Nat} {s₀ : State} {s : State} (hk : Keeps U s₀ s) (hT : 512 ||| U = U := by decide) : Keeps U s₀ (mapLookup s) := Keeps.setMemc ⟨rfl, rfl⟩ hk hT

theorem memWrite_keeps {U : Nat} {s₀ : State} {off word : Nat} {s : State} (hk : Keeps U s₀ s) (hT : (anyField ||| 16901) ||| U = U := by decide) : Keeps U s₀ (memWrite off word s) := by
  refine Keeps.step ?_ hT hk
  clear hk hT; unfold memWrite
  repeat' with_reducible first
    | exact Keeps.refl _ _ | assumption | refine Keeps.ite ?_ ?_ | refine mapLookup_keeps ?_ | refine storeWord_keeps ?_ | refine speedTarget_keeps ?_ | refine fltEvent_keeps ?_
    | refine wr_keeps ?_ (sub_trans (fldMask_any _) (by decide)) | dsimp only | split

theorem hifWrite_keeps {U : Nat} {s₀ : State} {p : Page} {off word : Nat} {s : State} (hk : Keeps U s₀ s) (hT : (anyField ||| 18279) ||| U = U := by decide) : Keeps U s₀ (hifWrite p off word s) := by
  refine Keeps.step ?_ hT hk
  clear hk hT; unfold hifWrite
  repeat' with_reducible first
    | exact Keeps.refl _ _ | assumption | refine Keeps.ite ?_ ?_ | refine storeWord_keeps ?_ | refine winWrite_keeps ?_ | refine quotaWrite_keeps ?_
    | refine mapWrite_keeps ?_ ?_ | refine bankOwnWrite_keeps ?_ | intro _ | split

theorem bar4Write_keeps {U : Nat} {s₀ : State} {n off word : Nat} {s : State} (hk : Keeps U s₀ s) (hT : (anyField ||| 17445) ||| U = U := by decide) : Keeps U s₀ (bar4Write n off word s) := by
  refine Keeps.step ?_ hT hk
  clear hk hT; unfold bar4Write
  repeat' with_reducible first
    | exact Keeps.refl _ _ | assumption | refine Keeps.ite ?_ ?_ | refine storeWord_keeps ?_ | refine msixUnmask_keeps ?_ | refine fetchPush_keeps ?_
    | refine ringCtrl_keeps ?_ | refine descCplCons_keeps ?_ | refine descProd_keeps ?_ | refine descCtrl_keeps ?_ | refine rspConsWrite_keeps ?_
    | refine doorbell_keeps ?_ | refine fltEvent_keeps ?_ | dsimp only | split

theorem lcsWrite_keeps {U : Nat} {s₀ : State} {off word : Nat} {s : State} (hk : Keeps U s₀ s) (hT : (anyField ||| 16389) ||| U = U := by decide) : Keeps U s₀ (lcsWrite off word s) := by
  refine Keeps.step ?_ hT hk
  clear hk hT; unfold lcsWrite
  repeat' with_reducible first
    | exact Keeps.refl _ _ | assumption | refine Keeps.ite ?_ ?_ | refine storeWord_keeps ?_ | refine attestWrite_keeps ?_
    | refine fuseSelect_keeps ?_ | split

theorem ptbWrite_keeps {U : Nat} {s₀ : State} {off word : Nat} {s : State} (hk : Keeps U s₀ s) (hT : (anyField ||| 16420) ||| U = U := by decide) : Keeps U s₀ (ptbWrite off word s) := by
  refine Keeps.step ?_ hT hk
  clear hk hT; unfold ptbWrite
  repeat' with_reducible first
    | exact Keeps.refl _ _ | assumption | refine Keeps.ite ?_ ?_ | refine storeWord_keeps ?_ | refine ptbSlot_keeps ?_ | split

theorem bufferPut_keeps {U : Nat} {s₀ : State} {k word : Nat} {s : State} (hk : Keeps U s₀ s) (hT : 4096 ||| U = U := by decide) : Keeps U s₀ (bufferPut k word s) := Keeps.setBoot hk hT

theorem srcAlign_keeps {U : Nat} {s₀ : State} {v : Nat} {s : State} (hk : Keeps U s₀ s) (hT : 4096 ||| U = U := by decide) : Keeps U s₀ (srcAlign v s) := Keeps.setBoot hk hT

theorem fetchAlign_keeps {U : Nat} {s₀ : State} {k v : Nat} {s : State} (hk : Keeps U s₀ s) (hT : 1024 ||| U = U := by decide) : Keeps U s₀ (fetchAlign k v s) := Keeps.setHif hk hT

theorem wordEffect_keeps {U : Nat} {s₀ : State} {m : Nat} {p : Page} {off word : Nat} {meas : HoldMeas} {s : State} (hk : Keeps U s₀ s) (hT : (anyField ||| 24575) ||| U = U := by decide) : Keeps U s₀ (wordEffect m p off word meas s) := by
  refine Keeps.step ?_ hT hk
  clear hk hT; unfold wordEffect
  repeat' with_reducible first
    | exact Keeps.refl _ _ | assumption | refine Keeps.ite ?_ ?_ | refine ptbWrite_keeps ?_ | refine lcsWrite_keeps ?_ | refine bar4Write_keeps ?_
    | refine hifWrite_keeps ?_ | refine memWrite_keeps ?_ | refine calWrite_keeps ?_ | refine auWrite_keeps ?_ | refine acqWrite_keeps ?_
    | refine cmpWrite_keeps ?_ | refine bankWrite_keeps ?_ | refine disWrite_keeps ?_ | refine tlkWrite_keeps ?_ | refine pulseWrite_keeps ?_
    | refine timWrite_keeps ?_ | refine headerWrite_keeps ?_ | refine storeWord_keeps ?_ | refine recCmd_keeps ?_ | refine bufferPut_keeps ?_ | refine srcAlign_keeps ?_ | refine updCmd_keeps ?_
    | refine evlogIdx_keeps ?_ | refine fltEvent_keeps ?_ | refine evlog_keeps ?_ | refine whenS_keeps ?_ ?_ | intro _ | split

theorem wideEffect_keeps {U : Nat} {s₀ : State} {m : Nat} {p : Page} {f : Fld} {a : Acc} {raw : Nat} {s : State} (hk : Keeps U s₀ s) (hT : (anyField ||| 17477) ||| U = U := by decide) : Keeps U s₀ (wideEffect m p f a raw s) := by
  refine Keeps.step ?_ hT hk
  clear hk hT; unfold wideEffect
  repeat' with_reducible first
    | exact Keeps.refl _ _ | assumption | refine Keeps.ite ?_ ?_ | refine auGuard_keeps ?_ ?_ | refine storeValue_keeps ?_ | refine fetchAlign_keeps ?_
    | refine ringWrWrite_keeps ?_ | refine stampRcntEffect_keeps ?_ | refine ledgerRcntEffect_keeps ?_ | refine acqRcntEffect_keeps ?_
    | refine fltEvent_keeps ?_ | dsimp only | intro _ | split

theorem halfWrite_keeps {U : Nat} {s₀ : State} {m : Nat} {p : Page} {x : Fld × RegRow} {off word : Nat} {shadow : Option (Nat × Nat)} {s : State} (hk : Keeps U s₀ s) (hT : (anyField ||| 17477) ||| U = U := by decide) : Keeps U s₀ (halfWrite m p x off word shadow s) := by
  refine Keeps.step ?_ hT hk
  clear hk hT; unfold halfWrite
  repeat' with_reducible first
    | exact Keeps.refl _ _ | assumption | refine Keeps.ite ?_ ?_ | refine wideEffect_keeps ?_ | refine badAccess_keeps ?_ | split
    | (constructor <;> first | exact fun _ => rfl | exact fun _ _ => rfl | exact rfl | exact List.prefix_refl _ | exact Nat.le_refl _ | exact fun w => w | exact fun _ _ w => w | exact fun h => absurd h (by decide) | exact fun _ => ⟨fun _ _ => ⟨fun w => w, fun w => w⟩⟩)
    | refine Keeps.setMgt ⟨rfl, rfl⟩ ?_

theorem pairEffect_keeps {U : Nat} {s₀ : State} {m : Nat} {p : Page} {off v : Nat} {s : State} (hk : Keeps U s₀ s) (hT : 0xbc0370343c0000000000004003830000878800200000000000000000000000000000000000001800000000000000000000000c00000000000000000000001800000000000000000000000000000000070000080600000000000000006215 ||| U = U := by decide) : Keeps U s₀ (pairEffect m p off v s) := by
  refine Keeps.step ?_ hT hk
  clear hk hT; unfold pairEffect
  repeat' with_reducible first
    | exact Keeps.refl _ _ | assumption | refine Keeps.ite ?_ ?_ | refine ptbUnlockEffect_keeps ?_ | refine propControl_keeps ?_
    | refine transRequest_keeps ?_ | refine fuseProgram_keeps ?_ | refine ilimEffect_keeps ?_ | refine tlkMapEffect_keeps ?_ | refine wrs_keeps ?_
    | split

theorem badWrite_keeps {U : Nat} {s₀ : State} {m a : Nat} {s : State} (hk : Keeps U s₀ s) (hT : 0x40000000000000000000000000000000000000000000000000000000000000000000000000000000000000000000000000000000000000000000000000000000000000000005 ||| U = U := by decide) : Keeps U s₀ (badWrite m a s) := by
  refine Keeps.step ?_ hT hk
  clear hk hT; unfold badWrite
  repeat' with_reducible first
    | exact Keeps.refl _ _ | assumption
    | refine badAccess_keeps ?_ | refine voidShadow_keeps ?_ | refine badPlace_keeps ?_ | refine Keeps.ite ?_ ?_ | dsimp only | intro _ | split

theorem regWrite_keeps {U : Nat} {s₀ : State} {m a word : Nat} {meas : HoldMeas} {s : State} (hk : Keeps U s₀ s) (hT : (anyField ||| parMask ||| 32767) ||| U = U := by decide) : Keeps U s₀ (regWrite m a word meas s) := by
  refine Keeps.step ?_ hT hk
  clear hk hT; unfold regWrite
  repeat' with_reducible first
    | exact Keeps.refl _ _ | assumption
    | refine badWrite_keeps ?_ | refine accessFor_keeps ?_ ?_ | refine Keeps.ite ?_ ?_ | refine pairEffect_keeps ?_ | refine halfWrite_keeps ?_ | refine wordEffect_keeps ?_
    | refine pairComplete_keeps ?_ ?_ | refine asWriter_keeps ?_ ?_ | refine accessIf_keeps ?_ ?_ | refine badAccess_keeps ?_
    | refine pairOpen_keeps ?_ | dsimp only | intro _ | split

theorem regWrite8_keeps {U : Nat} {s₀ : State} {m a word : Nat} {meas : HoldMeas} {s : State} (hk : Keeps U s₀ s) (hT : (anyField ||| parMask ||| 32767) ||| U = U := by decide) : Keeps U s₀ (regWrite8 m a word meas s) := by
  refine Keeps.step ?_ hT hk
  clear hk hT; unfold regWrite8
  repeat' with_reducible first
    | exact Keeps.refl _ _ | assumption
    | refine badWrite_keeps ?_ | refine Keeps.ite ?_ ?_ | refine regWrite_keeps ?_ | refine wideEffect_keeps ?_
    | refine accessIf_keeps ?_ ?_ | refine badAccess_keeps ?_ | dsimp only | intro _ | split

theorem writeRequest_keeps {U : Nat} {s₀ : State} {m a len be word : Nat} {meas : HoldMeas} {s : State} (hk : Keeps U s₀ s) (hT : (anyField ||| parMask ||| 32767) ||| U = U := by decide) : Keeps U s₀ (writeRequest m a len be word meas s) := by
  refine Keeps.step ?_ hT hk
  clear hk hT; unfold writeRequest
  repeat' with_reducible first
    | exact Keeps.refl _ _ | assumption
    | refine badWrite_keeps ?_ | refine Keeps.ite ?_ ?_ | refine regWrite8_keeps ?_ | refine regWrite_keeps ?_ | refine abortAccess_keeps ?_
    | refine badAccess_keeps ?_ | dsimp only | intro _ | split

theorem wideWrite_keeps {U : Nat} {s₀ : State} {m a word : Nat} {low : Bool} {s : State} (hk : Keeps U s₀ s) (hT : (anyField ||| parMask ||| 17493) ||| U = U := by decide) : Keeps U s₀ (wideWrite m a word low s) := by
  refine Keeps.step ?_ hT hk
  clear hk hT; unfold wideWrite
  repeat' with_reducible first
    | exact Keeps.refl _ _ | assumption
    | refine badWrite_keeps ?_ | refine accessFor_keeps ?_ ?_ | refine Keeps.ite ?_ ?_ | refine halfWrite_keeps ?_ | refine accessIf_keeps ?_ ?_ | refine badAccess_keeps ?_
    | dsimp only | intro _ | split

theorem clearRead_keeps {U : Nat} {s₀ : State} {m : Nat} {p : Page} {off : Nat} {s : State} (hk : Keeps U s₀ s) (hT : (anyField ||| 1) ||| U = U := by decide) : Keeps U s₀ (clearRead m p off s) := by
  refine Keeps.step ?_ hT hk
  clear hk hT; unfold clearRead
  repeat' with_reducible first
    | exact Keeps.refl _ _ | assumption | refine Keeps.ite ?_ ?_ | refine wr_keeps ?_ (sub_trans (fldMask_any _) (by decide))
    | refine forS_keeps ?_ ?_ | intro _ | split

theorem plainRead_keeps {U : Nat} {s₀ : State} {m : Nat} {p : Page} {off : Nat} {s : State} (hk : Keeps U s₀ s) (hT : (anyField ||| 16389) ||| U = U := by decide) : Keeps U s₀ (plainRead m p off s) := by
  refine Keeps.step ?_ hT hk
  clear hk hT; unfold plainRead
  repeat' with_reducible first
    | exact Keeps.refl _ _ | assumption | refine Keeps.ite ?_ ?_ | refine clearRead_keeps ?_ | refine emit_keeps ?_ | dsimp only | split
    | (constructor <;> first | exact fun _ => rfl | exact fun _ _ => rfl | exact rfl | exact List.prefix_refl _ | exact Nat.le_refl _ | exact fun w => w | exact fun _ _ w => w | exact fun h => absurd h (by decide) | exact fun _ => ⟨fun _ _ => ⟨fun w => w, fun w => w⟩⟩)
    | refine Keeps.setMgt ⟨rfl, rfl⟩ ?_

theorem pageRead_keeps {U : Nat} {s₀ : State} {m : Nat} {p : Page} {off : Nat} {s : State} (hk : Keeps U s₀ s) (hT : (anyField ||| 16493) ||| U = U := by decide) : Keeps U s₀ (pageRead m p off s) := by
  refine Keeps.step ?_ hT hk
  clear hk hT; unfold pageRead
  repeat' with_reducible first
    | exact Keeps.refl _ _ | assumption | refine Keeps.ite ?_ ?_ | refine plainRead_keeps ?_ | refine edgLostRead_keeps ?_ | refine fcNRead_keeps ?_
    | refine poolRead_keeps ?_ | refine pecPop_keeps ?_ | refine prbsErrRead_keeps ?_ | refine snapshotEffect_keeps ?_ | refine emit_keeps ?_
    | dsimp only | split
    | (constructor <;> first | exact fun _ => rfl | exact fun _ _ => rfl | exact rfl | exact List.prefix_refl _ | exact Nat.le_refl _ | exact fun w => w | exact fun _ _ w => w | exact fun h => absurd h (by decide) | exact fun _ => ⟨fun _ _ => ⟨fun w => w, fun w => w⟩⟩)
    | refine Keeps.setMgt ⟨rfl, rfl⟩ ?_

theorem regRead_keeps {U : Nat} {s₀ : State} {m a : Nat} {s : State} (hk : Keeps U s₀ s) (hT : (anyField ||| 16493) ||| U = U := by decide) : Keeps U s₀ (regRead m a s) := by
  refine Keeps.step ?_ hT hk
  clear hk hT; unfold regRead
  repeat' with_reducible first
    | exact Keeps.refl _ _ | assumption | refine pageRead_keeps ?_ | refine emit_keeps ?_ | split

theorem cutAnswers_keeps {U : Nat} {f : Nat → Nat} {s t : State} (k : Keeps U s t) (hT : 16384 ||| U = U := by decide) : Keeps U s (cutAnswers f s t) :=
  ⟨k.pending, List.prefix_append _ _, k.drawn, k.wfMem, k.wfLog, k.wfProps, k.wfEarly, k.wfLines, k.fuses, k.regs, k.mem, k.mgt, k.tim, k.tlk, k.pat, k.pin, k.au, k.cal, k.memc, k.hif,
    k.pwr, k.boot, k.lcs, fun h => absurd (testBit_sub hT h) (by decide), k.free, k.bus, k.flds, k.par, fun h => ⟨(k.sticky h).stays⟩⟩

theorem narrowRead_keeps {U : Nat} {s₀ : State} {m a lo n : Nat} {s : State} (hk : Keeps U s₀ s) (hT : (anyField ||| 16493) ||| U = U := by decide) : Keeps U s₀ (narrowRead m a lo n s) := by
  refine Keeps.step ?_ hT hk
  clear hk hT; unfold narrowRead
  repeat' with_reducible first
    | exact Keeps.refl _ _ | assumption | refine Keeps.ite ?_ ?_ | refine cutAnswers_keeps ?_ | refine regRead_keeps ?_ | refine emit_keeps ?_ | dsimp only | intro _
    | (constructor <;> first | exact fun _ => rfl | exact fun _ _ => rfl | exact rfl | exact List.prefix_refl _ | exact Nat.le_refl _ | exact fun w => w | exact fun _ _ w => w | exact fun h => absurd h (by decide) | exact fun _ => ⟨fun _ _ => ⟨fun w => w, fun w => w⟩⟩)
    | split

theorem regRead8_keeps {U : Nat} {s₀ : State} {m a : Nat} {s : State} (hk : Keeps U s₀ s) (hT : (anyField ||| 16493) ||| U = U := by decide) : Keeps U s₀ (regRead8 m a s) := by
  refine Keeps.step ?_ hT hk
  clear hk hT; unfold regRead8
  repeat' with_reducible first
    | exact Keeps.refl _ _ | assumption | refine Keeps.ite ?_ ?_ | refine regRead_keeps ?_ | refine emit_keeps ?_ | dsimp only | intro _ | split

theorem spanRead_keeps {U : Nat} {s₀ : State} {m a lo len : Nat} {s : State} (hk : Keeps U s₀ s) (hT : (anyField ||| 16492) ||| U = U := by decide) : Keeps U s₀ (spanRead m a lo len s) := by
  refine Keeps.step ?_ hT hk
  clear hk hT; unfold spanRead
  repeat' with_reducible first
    | exact Keeps.refl _ _ | assumption
    | refine narrowRead_keeps ?_ | refine emit_keeps ?_ | refine Keeps.ite ?_ ?_ | dsimp only | intro _ | split

theorem readRequest_keeps {U : Nat} {s₀ : State} {m a len : Nat} {s : State} (hk : Keeps U s₀ s) (hT : (anyField ||| 16493) ||| U = U := by decide) : Keeps U s₀ (readRequest m a len s) := by
  refine Keeps.step ?_ hT hk
  clear hk hT; unfold readRequest
  repeat' with_reducible first
    | exact Keeps.refl _ _ | assumption
    | refine spanRead_keeps ?_ | refine Keeps.ite ?_ ?_ | refine narrowRead_keeps ?_ | refine regRead8_keeps ?_ | refine regRead_keeps ?_
    | refine abortAccess_keeps ?_ | dsimp only | intro _ | split

theorem execRegisterWrite_keeps {m addr len be word : Nat} {meas : HoldMeas} {s : State} {t' : State} (hx : execRegisterWrite m addr len be word meas s = .next t') :
    Keeps (anyField ||| busMask ||| parMask ||| 32766) s t' := by
  unfold execRegisterWrite at hx; obtain rfl := Host.Outcome.next.inj hx
  repeat' with_reducible first
    | exact Keeps.refl _ _ | assumption
    | refine takeIn_keeps ?_ ?_ | refine Keeps.ite ?_ ?_ | refine writeRequest_keeps ?_ | dsimp only | intro _ | split

theorem execComplementPairOpen_keeps {m addr v : Nat} {s : State} {t' : State} (hx : execComplementPairOpen m addr v s = .next t') :
    Keeps (busMask ||| parMask ||| 0x3830040078a00200000000140000000000000000000000000000000000000000000000000000000000000000000000000000040000000000000000000000000000000070000080000000000000000004055) s t' := by
  unfold execComplementPairOpen at hx; obtain rfl := Host.Outcome.next.inj hx
  repeat' with_reducible first
    | exact Keeps.refl _ _ | assumption
    | refine takeIn_keeps ?_ ?_ | refine accessFor_keeps ?_ ?_ | refine badWrite_keeps ?_ | refine Keeps.ite ?_ ?_ | refine asWriter_keeps ?_ ?_ | refine badAccess_keeps ?_ | refine pairOpen_keeps ?_
    | intro _ | split
    | dsimp only

theorem execCplPairTimeout_keeps {m addr : Nat} {s : State} {t' : State} (hx : execCplPairTimeout m addr s = .next t') :
    Keeps 0x3830040068800200000000000000000000000000000000000000000000000000000000000000000000000000000000000000000000000000000000000000000000000000000000000000000000000004005 s t' := by
  unfold execCplPairTimeout at hx; obtain rfl := Host.Outcome.next.inj hx
  repeat' with_reducible first
    | exact Keeps.refl _ _ | assumption | refine Keeps.ite ?_ ?_ | refine dropPair_keeps ?_ | refine cplErr_keeps ?_ | split

theorem execLowWordWrite_keeps {m addr v : Nat} {s : State} {t' : State} (hx : execLowWordWrite m addr v s = .next t') :
    Keeps (anyField ||| busMask ||| parMask ||| 17492) s t' := by
  unfold execLowWordWrite at hx; obtain rfl := Host.Outcome.next.inj hx
  repeat' with_reducible first
    | exact Keeps.refl _ _ | assumption
    | refine takeIn_keeps ?_ ?_ | refine wideWrite_keeps ?_
    | dsimp only | intro _

theorem execHighWordWrite_keeps {m addr v : Nat} {s : State} {t' : State} (hx : execHighWordWrite m addr v s = .next t') :
    Keeps (anyField ||| busMask ||| parMask ||| 17492) s t' := by
  unfold execHighWordWrite at hx; obtain rfl := Host.Outcome.next.inj hx
  repeat' with_reducible first
    | exact Keeps.refl _ _ | assumption
    | refine takeIn_keeps ?_ ?_ | refine wideWrite_keeps ?_
    | dsimp only | intro _

theorem execLockWrite_keeps {m addr word : Nat} {s : State} {t' : State} (hx : execLockWrite m addr word s = .next t') :
    Keeps (anyField ||| busMask ||| parMask ||| 17492) s t' := by
  unfold execLockWrite at hx; obtain rfl := Host.Outcome.next.inj hx
  repeat' with_reducible first
    | exact Keeps.refl _ _ | assumption
    | refine takeIn_keeps ?_ ?_ | refine badPlace_keeps ?_ | refine storeWord_keeps ?_ | refine asWriter_keeps ?_ ?_ | refine badAccess_keeps ?_ | intro _ | split
    | dsimp only

theorem execLowWordRead_keeps {m addr len : Nat} {s : State} {t' : State} (hx : execLowWordRead m addr len s = .next t') :
    Keeps (anyField ||| busMask ||| 16492) s t' := by
  unfold execLowWordRead at hx; obtain rfl := Host.Outcome.next.inj hx
  repeat' with_reducible first
    | exact Keeps.refl _ _ | assumption
    | refine takeIn_keeps ?_ ?_ | refine Keeps.ite ?_ ?_ | refine readRequest_keeps ?_ | dsimp only | intro _ | split

end Sys2Proof.Machine
end

