-- ==== Sys2Proof/Laws/Signals.lean ====
section
/-! SUPPORT. Sticky bits: an event or an interrupt never clears a bit of `INT_RAW` or `FLT_CAUSE`, and a condition that holds or ends moves its own bit of `FLT_LIVE`. -/

set_option exponentiation.threshold 2000

set_option Elab.async false

namespace Sys2Proof.Machine

open Sys2Proof

/-- A bit of `INT_RAW` that stands, stays through whatever clears none (R417). -/
theorem Keeps.raised {T : Nat} {s t : State} (k : Keeps T s t) (h : T.testBit 1041 = false) {q : Page} {b : Nat} (hb : (Machine.rd s q F.INT_RAW).testBit b = true) :
    (Machine.rd t q F.INT_RAW).testBit b = true := ((k.sticky h).stays q b).1 hb

/-- A bit of `FLT_CAUSE` that stands, stays through whatever clears none (R442). -/
theorem Keeps.caused {T : Nat} {s t : State} (k : Keeps T s t) (h : T.testBit 1041 = false) {q : Page} {b : Nat} (hb : (Machine.rd s q F.FLT_CAUSE).testBit b = true) :
    (Machine.rd t q F.FLT_CAUSE).testBit b = true := ((k.sticky h).stays q b).2 hb

theorem clrBit_testBit (v c k : Nat) : (clrBit v c).testBit k = (v.testBit k && decide (k ≠ c)) := by
  unfold clrBit
  rw [Nat.testBit_xor, Nat.testBit_and, Nat.testBit_shiftLeft]
  by_cases e : k = c
  · subst e; simp
  · by_cases h : c ≤ k
    · have : (1 : Nat).testBit (k - c) = false := by
        rw [← Bool.not_eq_true, Nat.testBit_one_eq_true_iff_self_eq_zero]; omega
      simp [e, h, this]
    · simp [e, h]

/-- Two fields of one row and page have one value; on pages of one key. -/
theorem rd_key {p q : Page} {f : Fld} (e : fldKey q f = fldKey p f) (s : State) : rd s q f = rd s p f := by unfold rd; rw [e]

/-- A condition that holds or ends moves its own bit of `FLT_LIVE` and no other (R441). -/
theorem live_setLive_bit (s : State) (p : Page) (c k : Nat) (x : Bool) (h : c < 32) :
    (rd (setLive s p c x) p F.FLT_LIVE).testBit k = if k = c then x else (rd s p F.FLT_LIVE).testBit k := by
  cases x with
  | true =>
    by_cases e : k = c
    · subst e; simp [live_setLive s p k h]
    · unfold setLive
      simp only [if_true, e, if_false]
      split
      · rfl
      · rw [rd_fltEvent_after (Or.inr (Or.inl rfl))]
        unfold incSat addSat
        rw [rd_wr_num (by decide)]
        refine (congrArg (fun v => Nat.testBit v k) (rd_wr_num (by decide))).trans ?_
        unfold orBits
        rw [rd_wr_self, Nat.testBit_mod_two_pow, Nat.testBit_or, Nat.testBit_shiftLeft]
        have h1 : (decide (k ≥ c) && (1 : Nat).testBit (k - c)) = false := by
          by_cases hc : c ≤ k
          · have : (1 : Nat).testBit (k - c) = false := by
              rw [← Bool.not_eq_true, Nat.testBit_one_eq_true_iff_self_eq_zero]; omega
            simp [this]
          · simp [hc]
        rw [h1, Bool.or_false]
        by_cases hb : (rd s p F.FLT_LIVE).testBit k = true
        · have := testBit_lt (rd_lt s p F.FLT_LIVE) hb
          simp [hb, this]
        · simp only [Bool.not_eq_true] at hb
          simp [hb]
  | false =>
    unfold setLive
    simp only [Bool.false_eq_true, if_false]
    rw [rd_wr_self, Nat.testBit_mod_two_pow, clrBit_testBit]
    by_cases e : k = c
    · simp [e]
    · simp only [e, if_false]
      by_cases hb : (rd s p F.FLT_LIVE).testBit k = true
      · have := testBit_lt (rd_lt s p F.FLT_LIVE) hb
        simp [hb, this, e]
      · simp only [Bool.not_eq_true] at hb
        simp [hb]

/-- A condition of one page leaves `FLT_LIVE` of another alone. -/
theorem live_setLive_page {s : State} {p q : Page} {c : Nat} {x : Bool} (h : fldKey q F.FLT_LIVE ≠ fldKey p F.FLT_LIVE) :
    rd (setLive s p c x) q F.FLT_LIVE = rd s q F.FLT_LIVE := by
  unfold setLive
  dsimp only
  split
  · split
    · rfl
    · rw [(fltEvent_keeps (Keeps.refl _ (orBits s p F.FLT_LIVE (1 <<< c))) (Nat.or_self _)).rd q F.FLT_LIVE (by decide)]
      exact rd_wr_other h
  · exact rd_wr_other h

theorem live_raiseInt (s : State) (p q : Page) (b : Nat) : rd (raiseInt s p b) q F.FLT_LIVE = rd s q F.FLT_LIVE :=
  (raiseInt_keeps (Keeps.refl _ s) (Nat.or_self _)).rd q F.FLT_LIVE (by decide)

theorem live_setLiveInt_bit (s : State) (p : Page) (c i k : Nat) (x : Bool) (h : c < 32) :
    (rd (setLiveInt s p c i x) p F.FLT_LIVE).testBit k = if k = c then x else (rd s p F.FLT_LIVE).testBit k := by
  unfold setLiveInt
  dsimp only
  split
  · rw [live_raiseInt]; exact live_setLive_bit s p c k x h
  · exact live_setLive_bit s p c k x h

theorem live_setLiveInt_page {s : State} {p q : Page} {c i : Nat} {x : Bool} (h : fldKey q F.FLT_LIVE ≠ fldKey p F.FLT_LIVE) :
    rd (setLiveInt s p c i x) q F.FLT_LIVE = rd s q F.FLT_LIVE := by
  unfold setLiveInt
  dsimp only
  split
  · rw [live_raiseInt]; exact live_setLive_page h
  · exact live_setLive_page h

/-- A condition that becomes true raises its interrupt. -/
theorem raised_setLiveInt (s : State) (p : Page) (c i : Nat) (hi : i < 32) (h : (rd s p F.FLT_LIVE).testBit c = false) :
    (rd (setLiveInt s p c i true) p F.INT_RAW).testBit i = true := by
  unfold setLiveInt
  simp only [h, Bool.not_false, Bool.and_self, if_true]
  exact raised_raiseInt _ _ _ hi

/-- A condition that becomes true sets its cause. -/
theorem cause_setLive (s : State) (p : Page) (c : Nat) (hc : c < 32) (h : (rd s p F.FLT_LIVE).testBit c = false) :
    (rd (setLive s p c true) p F.FLT_CAUSE).testBit c = true := by
  unfold setLive
  simp only [h, if_true, Bool.false_eq_true, if_false]
  exact cause_fltEvent _ _ _ hc

end Sys2Proof.Machine
end

