-- ==== Sys2Proof/Machine/Balls.lean ====
section
/-! DEFINITION. How each group of output and input balls is held (R512, Table 21-7), as a view of the state. -/

namespace Sys2Proof.Machine

open Sys2Proof

/-- The ball groups of Table 21-7: the outputs DRV and DEN, and the inputs CMH and CML, of a pin channel; a PCIe port; a time-link lane; TRIGOUT and TPULSE; ERR_N; the boot
flash; the PEC outputs of a bank; TDO. -/
inductive Ball where
  | drvDen (pin : Nat)
  | cmhCml (pin : Nat)
  | pcieTx (port : Nat)
  | linkTx (lane : Nat)
  | trigOut
  | tpulse
  | errN
  | boot
  | pec (bank : Nat)
  | tdo
deriving DecidableEq, Repr

/-- How a group is held: `driven` as its block drives it, `configured` as a receiver is set, `safe` as R229 has it, `perTap` as the TAP has it. -/
inductive Held where
  | highZ
  | unterminated
  | terminatedIgnored
  | configured
  | electricalIdle
  | idleOrL1
  | inactive
  | released
  | low
  | safe
  | perTap
  | driven
deriving DecidableEq, Repr

/-- The columns of Table 21-7, and none of them. -/
inductive BallCol where
  | noVstby
  | vinOff
  | powerUp
  | domainOff
  | safeState
  | scrapped
  | running
deriving DecidableEq, Repr

/-- The power domain of a group, where it has one (Table 18-3). -/
def ballDom : Ball → Option Nat
  | .drvDen p => some (p / 16)
  | .cmhCml p => some (p / 16)
  | .pcieTx _ => some 22
  | .linkTx _ => some 23
  | .trigOut => some 24
  | .tpulse => none
  | .errN => some 28
  | .boot => some 28
  | .pec b => some b
  | .tdo => none

/-- The group is in its safe state: of a pin, with its bank or with its site in POISON or SAFE (R229). -/
def ballSafe (s : State) : Ball → Bool
  | .drvDen p => pinSafe s p
  | .cmhCml p => pinSafe s p
  | .pec b => bankSafe s b
  | .trigOut => pageSafe s .acqDev
  | _ => false

/-- The group's domain is not on, or the device is in SLEEP or WAKING: while it only enters sleep the domains still drive (R468 step 6, R470). -/
def ballOff (s : State) (g : Ball) : Bool :=
  !((ballDom g).map (domOn s)).getD true || decide (2 ≤ rd s .pwrDev F.PWR_STAT_STATE)

/-- Power-up has not reached the group: its domain is not on, or the ROM has not yet released the PCIe ports (R480). -/
def ballBooting (s : State) (g : Ball) : Bool :=
  s.pwr.stage == .rom && (match g with | .pcieTx _ => true | _ => ballOff s g)

/-- The column that holds for a group: of two that apply the leftmost (R512), that of a domain that is off before SCRAPPED too (log 105). -/
def ballCol (s : State) (g : Ball) : BallCol :=
  if s.pwr.stage = .noVstby then .noVstby
  else if s.pwr.stage = .noVin || s.pwr.stage = .held || s.pwr.rstLow || tapHold s then .vinOff
  else if ballBooting s g then .powerUp
  else if ballOff s g then .domainOff
  else if ballSafe s g then .safeState
  else if s.pwr.stage = .scrapped then .scrapped
  else .running

/-- Table 21-7, row by row. -/
def ballHeld (s : State) (g : Ball) : Held :=
  let errN : Held := if errLow s then .low else .released
  match g, ballCol s g with
  | .drvDen _, .safeState => .safe
  | .drvDen _, .scrapped => .safe
  | .drvDen _, .running => .driven
  | .drvDen _, _ => .highZ
  | .cmhCml _, .safeState => .terminatedIgnored
  | .cmhCml _, .running => .configured
  | .cmhCml _, _ => .unterminated
  | .pcieTx _, .powerUp => .electricalIdle
  | .pcieTx _, .domainOff => .idleOrL1
  | .pcieTx _, .running => .driven
  | .pcieTx _, _ => .highZ
  | .linkTx _, .powerUp => .electricalIdle
  | .linkTx _, .domainOff => .electricalIdle
  | .linkTx _, .running => .driven
  | .linkTx _, _ => .highZ
  | .trigOut, .safeState => .inactive
  | .trigOut, .running => .driven
  | .trigOut, _ => .highZ
  | .tpulse, .noVstby => .highZ
  | .tpulse, .running => .driven
  | .tpulse, _ => .inactive
  | .errN, .noVstby => .released
  | .errN, .vinOff => .released
  | .errN, .powerUp => .released
  | .errN, .scrapped => .low
  | .errN, _ => errN
  | .boot, .running => .driven
  | .boot, _ => .highZ
  | .pec _, .safeState => .driven
  | .pec _, .running => .driven
  | .pec _, _ => .highZ
  | .tdo, .noVstby => .highZ
  | .tdo, _ => .perTap

end Sys2Proof.Machine
end

