-- ==== Sys2Proof/Tests/Slice0.lean ====
section
/-! SUPPORT. Concrete states. `met_<Obligation>_<n>` applies an obligation to a state and operands that meet the hypotheses of one of its clauses together; each
hypothesis is checked by the kernel. `test_<command>` looks at one step on a small state. -/

set_option Elab.async false

namespace Sys2Proof.Tests
open Sys2Proof.Machine
set_option maxRecDepth 100000

/-- A state with register fields written. -/
noncomputable def withRegs (s : State) (l : List (Page × Fld × Nat)) : State := l.foldl (fun s x => wr s x.1 x.2.1 x.2.2) s

/-- The device after reset, with firmware's READY bit set. -/
noncomputable def R : State := withRegs State.reset [(.boot, F.BOOT_STAT_READY, 1)]

/-- The next command in partition 0's mailbox. -/
noncomputable def withCmd (s : State) (words : List Nat) : State :=
  withRegs s ((.bar4 0, F.MBX_CMD_PROD, (rd s (.bar4 0) F.MBX_CMD_PROD + 1)) ::
    words.zipIdx.map fun w => (.bar4 0, F.MBX_CMD_SLOT (64 * (rd s (.bar4 0) F.MBX_CMD_PROD % 64) + w.2), w.1))

/-- Every bank belongs to partition 0. -/
noncomputable def owned : State := withRegs R [(.hifDev, F.HIF_BANK_OWN_LO, 0), (.hifDev, F.HIF_BANK_OWN_HI, 0)]

/-- Site 1 of partition 0 with quads 0 and 5, in state `st`. -/
noncomputable def site1 (st : Nat) (s : State := owned) : State := setSiteState (setSite s 1 { siteFree with owner := some 0, mask := 0x21 }) 1 st

/-- The state after a command. -/
noncomputable def post (s : State) (i : Instr) : State := match exec i s with | .next t => t | _ => s

/-- A caravan of 300 entries of route 0 of site 1. -/
noncomputable def car1 : Car := { route := 0, site := 1, part := 0, kind := 0, entries := 300, asked := 0, relMode := false, release := 0, relTick := none, prio := 0, chainN := 0, chainStep := 0, ident := 0, notify := false, source := 0, ring := 0, submitTick := 0, deadline := 0, fails := 0, lastEng := none, altIndex := 0, bound := 0, resv := false }

/-- A route record with some of what a program leaves in it. -/
noncomputable def st1 : RouteRec := { recInit 0x1000 with segNum := some 1, segCnt := 2, lastVec := some ⟨0x55, 1, 2⟩, curTs := 3, curPs := 4 }

/-- An engine's work on that caravan. -/
noncomputable def work1 (st : RouteRec) : Work := { car := car1, st := st, base := 0, buf := [], slices := [], entries := 0, tags := 0, newAlts := [], trig := none, ringRead := [], stalled := none, first := false, ended := none }

/-! Chapter 2: time bases. -/

namespace Ch02

noncomputable def wRef : State := withRegs R [(.timDev, F.TIM_REF_CTRL_SEL, 0), (.timDev, F.TIM_REF_STAT_REFCLK_OK, 1)]

noncomputable def wHold : State := withRegs R [(.timDev, F.TIM_REF_STAT_HOLDOVER, 1), (.timDev, F.TIM_REF_CTRL_SEL, 0), (.timDev, F.TIM_REF_STAT_REFCLK_OK, 0)]

theorem met_ReferenceSource_1 (h : Obligations.ReferenceSource) :
    type_of% (h.1 wRef 0 ⟨0,0,0⟩ (by decide) (by decide) (by decide)) :=
  h.1 wRef 0 ⟨0,0,0⟩ (by decide) (by decide) (by decide)

theorem met_ReferenceSource_2 (h : Obligations.ReferenceSource) :
    type_of% (h.2.1 R) :=
  h.2.1 R

theorem met_ReferenceSource_3 (h : Obligations.ReferenceSource) :
    type_of% (h.2.2.1 wHold 0 (by decide) (by decide) (by decide)  (by decide) (by decide) (by decide)) :=
  h.2.2.1 wHold 0 (by decide) (by decide) (by decide)  (by decide) (by decide) (by decide)

theorem met_ReferenceSource_4 (h : Obligations.ReferenceSource) :
    type_of% (h.2.2.2.1 R 4 0x00123405 ⟨0,0,0⟩ (by decide) (by decide)) :=
  h.2.2.2.1 R 4 0x00123405 ⟨0,0,0⟩ (by decide) (by decide)

theorem met_ReferenceSource_5 (h : Obligations.ReferenceSource) :
    type_of% (h.2.2.2.2.1 R (by decide)) :=
  h.2.2.2.2.1 R (by decide)

noncomputable def wSlew : State := { wHold with tim := { wHold.tim with slewRate := some 0, holdRatio := 2 ^ 32 } }

theorem met_ReferenceSource_6 (h : Obligations.ReferenceSource) :
    type_of% (h.2.2.2.2.2.1 wSlew (by decide +kernel)) :=
  h.2.2.2.2.2.1 wSlew (by decide +kernel)

theorem met_ReferenceSource_7 (h : Obligations.ReferenceSource) :
    type_of% (h.2.2.2.2.2.2.1 wSlew 0 (2 ^ 32) (by decide) (by decide) (by decide +kernel)) :=
  h.2.2.2.2.2.2.1 wSlew 0 (2 ^ 32) (by decide) (by decide) (by decide +kernel)

theorem met_ReferenceSource_8 (h : Obligations.ReferenceSource) :
    type_of% (h.2.2.2.2.2.2.2 wHold (by decide)) :=
  h.2.2.2.2.2.2.2 wHold (by decide)

theorem met_TimeBases_1 (h : Obligations.TimeBases) :
    type_of% (h.1 R 0 (by decide) (by decide) (by decide) (by decide)) :=
  h.1 R 0 (by decide) (by decide) (by decide) (by decide)

theorem met_TimeBases_2 (h : Obligations.TimeBases) :
    type_of% (h.2 R 4 (.base 0) (by decide)) :=
  h.2 R 4 (.base 0) (by decide)

noncomputable def wGo : State := withRegs R [(.timDev, F.TIM_DTB_CMD_ADJ_GO, 1), (.timDev, F.TIM_DTB_CMD_SET_GO, 1), (.timDev, F.TIM_DTB_ADJ_LO, 77), (.timDev, F.TIM_DTB_SET_NS, 5), (.timDev, F.TIM_DTB_CMD_INC_GO, 1),(.timDev, F.TIM_DTB_INC_HI, 10)]

noncomputable def wGo2 : State := withRegs R [(.timDev, F.TIM_DTB_CMD_SET_GO, 1), (.timDev, F.TIM_DTB_SET_NS, 1000000000)]

theorem met_TimeCommands_1 (h : Obligations.TimeCommands) :
    type_of% (h.1 R 4 0 0 (by decide) (by decide) (by decide) (by decide)) :=
  h.1 R 4 0 0 (by decide) (by decide) (by decide) (by decide)

theorem met_TimeCommands_2 (h : Obligations.TimeCommands) :
    type_of% (h.2.1 wGo 0 (by decide) (by decide) (by decide) (by decide)) :=
  h.2.1 wGo 0 (by decide) (by decide) (by decide) (by decide)

theorem met_TimeCommands_3 (h : Obligations.TimeCommands) :
    type_of% (h.2.2 wGo2 0 (by decide) (by decide) (by decide) (by decide)) :=
  h.2.2 wGo2 0 (by decide) (by decide) (by decide) (by decide)

noncomputable def wPulse : State := withRegs R [(.timPulse 0, F.TIM_TP_START_NS, 10), (.timPulse 0, F.TIM_TP_WIDTH, 100), (.timPulse 0, F.TIM_TP_PER_NS, 100000)]

theorem met_TimedPulses_1 (h : Obligations.TimedPulses) :
    type_of% (h.1 wPulse 0 0 false false (by decide) (by decide) (by decide) (by decide)) :=
  h.1 wPulse 0 0 false false (by decide) (by decide) (by decide) (by decide)

theorem met_TimedPulses_2 (h : Obligations.TimedPulses) :
    type_of% (h.2.1 wPulse 0 0 false false (by decide) (by decide) (by decide)) :=
  h.2.1 wPulse 0 0 false false (by decide) (by decide) (by decide)

theorem met_TimedPulses_3 (h : Obligations.TimedPulses) :
    type_of% (h.2.2.1 wPulse 0 0 false false (by decide) (by decide)) :=
  h.2.2.1 wPulse 0 0 false false (by decide) (by decide)

theorem met_TimedPulses_4 (h : Obligations.TimedPulses) :
    type_of% (h.2.2.2.1 wPulse 4 0x41 (by decide)) :=
  h.2.2.2.1 wPulse 4 0x41 (by decide)

noncomputable def wFire : State := { withRegs R [] with tim := { R.tim with pulses := [(0, some ⟨5, 0, 10, false, false, 0⟩)] } }

theorem met_TimedPulses_5 (h : Obligations.TimedPulses) :
    type_of% (h.2.2.2.2.1 wFire 0 ⟨5, 0, 10, false, false, 0⟩ (by decide) (by decide) (by decide) (by decide) (by decide) (by decide) (by decide) (by decide)) :=
  h.2.2.2.2.1 wFire 0 ⟨5, 0, 10, false, false, 0⟩ (by decide) (by decide) (by decide) (by decide) (by decide) (by decide) (by decide) (by decide)

noncomputable def wOn : State := { withRegs R [] with tim := { R.tim with pulseOn := [(0, some ⟨0, 0, 10, false⟩)] } }

theorem met_TimedPulses_6 (h : Obligations.TimedPulses) :
    type_of% ((h.2.2.2.2.2 wOn 0 ⟨0, 0, 10, false⟩ (by decide)).1 (by decide)) :=
  (h.2.2.2.2.2 wOn 0 ⟨0, 0, 10, false⟩ (by decide)).1 (by decide)

noncomputable def wOn2 : State := { withRegs R [] with tim := { R.tim with pulseOn := [(0, some ⟨0, 0, 2 ^ 50, false⟩)] } }

theorem met_TimedPulses_7 (h : Obligations.TimedPulses) :
    type_of% ((h.2.2.2.2.2 wOn2 0 ⟨0, 0, 2 ^ 50, false⟩ (by decide)).2 (by decide)) :=
  (h.2.2.2.2.2 wOn2 0 ⟨0, 0, 2 ^ 50, false⟩ (by decide)).2 (by decide)

theorem test_slew :
    (post wSlew (.timeBaseTick 0)).tim.slewRate = some 0 ∧ (post wSlew .refSlewDone).tim.slewRate = some 0 := by decide +kernel

end Ch02

/-! Chapter 3: the time link. -/

namespace Ch03

noncomputable def lnk (n st : Nat) (l : List (Page × Fld × Nat)) : State := withRegs R ([(.tlkPort n, F.TLK_P_STAT_LINK, st), (.tlkPort n, F.TLK_P_CTRL_EN, 1)] ++ l)

theorem met_LinkBringUp_1 (h : Obligations.LinkBringUp) :
    type_of% (h.1 R 4 1 0 true (by decide) (by decide) (by decide) (by decide +kernel) (by decide) (by decide) (by decide) (by decide)) :=
  h.1 R 4 1 0 true (by decide) (by decide) (by decide) (by decide +kernel) (by decide) (by decide) (by decide) (by decide)

theorem met_LinkBringUp_2 (h : Obligations.LinkBringUp) :
    type_of% (h.2.1 (lnk 1 2 []) 4 1 0 true (by decide) (by decide) (by decide) (by decide) (by decide) (by decide)) :=
  h.2.1 (lnk 1 2 []) 4 1 0 true (by decide) (by decide) (by decide) (by decide) (by decide) (by decide)

theorem met_LinkBringUp_3 (h : Obligations.LinkBringUp) :
    type_of% (h.2.2.1 (lnk 1 1 []) 1 1 (by decide) (by decide) (by decide)) :=
  h.2.2.1 (lnk 1 1 []) 1 1 (by decide) (by decide) (by decide)

theorem met_LinkBringUp_4 (h : Obligations.LinkBringUp) :
    type_of% (h.2.2.2.1 (lnk 1 1 []) 1 (by decide) (by decide)) :=
  h.2.2.2.1 (lnk 1 1 []) 1 (by decide) (by decide)

theorem met_LinkBringUp_5 (h : Obligations.LinkBringUp) :
    type_of% (h.2.2.2.2.1 (lnk 1 3 []) 1 (by decide)) :=
  h.2.2.2.2.1 (lnk 1 3 []) 1 (by decide)

theorem met_LinkBringUp_6 (h : Obligations.LinkBringUp) :
    type_of% (h.2.2.2.2.2.1 (lnk 0 2 [(.tlkPort 0, F.TLK_P_STAT_PTP, 3)]) 0 0 (by decide) (by decide) (by decide) (by decide +kernel) (by decide) (by decide) (by decide) (by decide)) :=
  h.2.2.2.2.2.1 (lnk 0 2 [(.tlkPort 0, F.TLK_P_STAT_PTP, 3)]) 0 0 (by decide) (by decide) (by decide) (by decide +kernel) (by decide) (by decide) (by decide) (by decide)

theorem met_LinkBringUp_7 (h : Obligations.LinkBringUp) :
    type_of% (h.2.2.2.2.2.2.1 (lnk 0 2 []) 0 0 (by decide) (by decide) (by decide)) :=
  h.2.2.2.2.2.2.1 (lnk 0 2 []) 0 0 (by decide) (by decide) (by decide)

theorem met_LinkBringUp_8 (h : Obligations.LinkBringUp) :
    type_of% (h.2.2.2.2.2.2.2.1 (lnk 0 1 [(.tlkLane 0, F.TLK_L_RXSTAT_BLOCK_LOCK, 1)]) 0 0 (by decide) (by decide) (by decide)) :=
  h.2.2.2.2.2.2.2.1 (lnk 0 1 [(.tlkLane 0, F.TLK_L_RXSTAT_BLOCK_LOCK, 1)]) 0 0 (by decide) (by decide) (by decide)

theorem met_LinkBringUp_9 (h : Obligations.LinkBringUp) :
    type_of% (h.2.2.2.2.2.2.2.2 (lnk 0 2 []) (post (lnk 0 2 []) (.hiBer 0)) (.hiBer 0) 4 0 0 0 false (by decide) (by decide) (by decide) rfl) :=
  h.2.2.2.2.2.2.2.2 (lnk 0 2 []) (post (lnk 0 2 []) (.hiBer 0)) (.hiBer 0) 4 0 0 0 false (by decide) (by decide) (by decide) rfl

theorem met_LinkLanes_1 (h : Obligations.LinkLanes) :
    type_of% (h.1 R 4 1 0x00093605 (by decide) (by decide)) :=
  h.1 R 4 1 0x00093605 (by decide) (by decide)

theorem met_LinkLanes_2 (h : Obligations.LinkLanes) :
    type_of% (h.1 R 4 1 0x00093F05 (by decide) (by decide)) :=
  h.1 R 4 1 0x00093F05 (by decide) (by decide)

theorem met_LinkLanes_3 (h : Obligations.LinkLanes) :
    type_of% (h.2.1 R 1 29 (by decide) (by decide)) :=
  h.2.1 R 1 29 (by decide) (by decide)

theorem met_LinkLanes_4 (h : Obligations.LinkLanes) :
    type_of% (h.2.2.1 (withRegs R [(.tlkLane 1, F.TLK_L_RXSTAT_FROZEN, 1)]) 1 30 (by decide) (by decide)) :=
  h.2.2.1 (withRegs R [(.tlkLane 1, F.TLK_L_RXSTAT_FROZEN, 1)]) 1 30 (by decide) (by decide)

theorem met_LinkLanes_5 (h : Obligations.LinkLanes) :
    type_of% (h.2.2.2.1 R 4 1 true (by decide) (by decide)) :=
  h.2.2.2.1 R 4 1 true (by decide) (by decide)

theorem met_LinkLanes_6 (h : Obligations.LinkLanes) :
    type_of% (h.2.2.2.2.1 R 4 1 0xA03 (by decide) (by decide) (by decide)) :=
  h.2.2.2.2.1 R 4 1 0xA03 (by decide) (by decide) (by decide)

theorem met_LinkLanes_7 (h : Obligations.LinkLanes) :
    type_of% (h.2.2.2.2.2.1 (withRegs R [(.tlkLane 1, F.TLK_L_PRBS_CHK_EN, 1)]) 1 (by decide)) :=
  h.2.2.2.2.2.1 (withRegs R [(.tlkLane 1, F.TLK_L_PRBS_CHK_EN, 1)]) 1 (by decide)

theorem met_LinkLanes_8 (h : Obligations.LinkLanes) :
    type_of% (h.2.2.2.2.2.2.1 (withRegs R [(.tlkLane 1, F.TLK_L_PRBS_CHK_LOCK, 1)]) 1 70 (by decide)) :=
  h.2.2.2.2.2.2.1 (withRegs R [(.tlkLane 1, F.TLK_L_PRBS_CHK_LOCK, 1)]) 1 70 (by decide)

theorem met_LinkLanes_9 (h : Obligations.LinkLanes) :
    type_of% (h.2.2.2.2.2.2.2 (withRegs R [(.tlkLane 1, F.TLK_L_PRBS_CHK_LOCK, 1)]) 4 1 70 (by decide) (by decide)) :=
  h.2.2.2.2.2.2.2 (withRegs R [(.tlkLane 1, F.TLK_L_PRBS_CHK_LOCK, 1)]) 4 1 70 (by decide) (by decide)

theorem met_LinkReceives_1 (h : Obligations.LinkReceives) :
    type_of% (h.1 (lnk 0 2 []) 0 ⟨64, true, false, 0x88F7, 0x011B19000000, 0, 2, 0⟩ (by decide)) :=
  h.1 (lnk 0 2 []) 0 ⟨64, true, false, 0x88F7, 0x011B19000000, 0, 2, 0⟩ (by decide)

theorem met_LinkReceives_2 (h : Obligations.LinkReceives) :
    type_of% (h.1 (lnk 0 2 []) 0 ⟨64, true, false, 0x88F7, 0x011B19000000, 0, 2, 4⟩ (by decide)) :=
  h.1 (lnk 0 2 []) 0 ⟨64, true, false, 0x88F7, 0x011B19000000, 0, 2, 4⟩ (by decide)

theorem met_LinkReceives_10 (h : Obligations.LinkReceives) :
    type_of% (h.1 (lnk 0 2 []) 0 ⟨1519, true, false, 0x88F7, 0x011B19000000, 0, 2, 0⟩ (by decide)) :=
  h.1 (lnk 0 2 []) 0 ⟨1519, true, false, 0x88F7, 0x011B19000000, 0, 2, 0⟩ (by decide)

noncomputable def slv : State := lnk 0 2 [(.tlkPort 0, F.TLK_P_STAT_PTP, 2)]

noncomputable def slv2 : State := setTport slv 0 { tport slv 0 with sync := some ⟨7, 1000, 2000, 3, true, false⟩, req := some (1, 7, 55), reverse := some 4 }

noncomputable def msg : PtpMsg := ⟨7, false, 1000, 5, ownPortId slv 0, 3000⟩

theorem met_LinkReceives_3 (h : Obligations.LinkReceives) : (∃ t, exec (.sync 0 msg) slv = .next t) := let ⟨t, e, _⟩ := h.2.1 slv 0 msg (by decide) (by decide); ⟨t, e⟩

theorem test_sync_1 : (tport (syncEffect 0 msg slv2) 0).sync = some ⟨7, 1000, 3000 - rd slv (.tlkLane 0) F.TLK_L_RX_LAT, 5, false, true⟩ := by decide +kernel

theorem test_sync_2 : (tport (followUpEffect 0 msg slv2) 0).sync = some ⟨7, 1000, 2000, 8, false, true⟩ := by decide +kernel

theorem test_link_1 : (tport (delayRespEffect 0 msg slv2) 0).reverse = some (1000 - 55 - 5) ∧ (tport (delayRespEffect 0 msg slv2) 0).req = none := by decide +kernel

theorem met_LinkReceives_4 (h : Obligations.LinkReceives) :
    type_of% (h.2.2.2.2.2.2 (lnk 0 2 [(.tlkPort 0, F.TLK_P_STAT_PTP, 1)]) ⟨9,1,2,3,4,true⟩ 16 (by decide) (by decide) (by decide) (by decide)) :=
  h.2.2.2.2.2.2 (lnk 0 2 [(.tlkPort 0, F.TLK_P_STAT_PTP, 1)]) ⟨9,1,2,3,4,true⟩ 16 (by decide) (by decide) (by decide) (by decide)

theorem met_LinkReceives_5 (h : Obligations.LinkReceives) :
    type_of% (h.2.2.2.2.2.2 (lnk 0 2 [(.tlkPort 0, F.TLK_P_STAT_PTP, 1)]) ⟨9,1,2,3,4,true⟩ 15 (by decide) (by decide) (by decide) (by decide)) :=
  h.2.2.2.2.2.2 (lnk 0 2 [(.tlkPort 0, F.TLK_P_STAT_PTP, 1)]) ⟨9,1,2,3,4,true⟩ 15 (by decide) (by decide) (by decide) (by decide)

theorem met_LinkSends_1 (h : Obligations.LinkSends) :
    type_of% (h.1 (lnk 1 2 [(.tlkPort 1, F.TLK_P_STAT_PTP, 4)]) 1 65537 (by decide) (by decide) (by decide)) :=
  h.1 (lnk 1 2 [(.tlkPort 1, F.TLK_P_STAT_PTP, 4)]) 1 65537 (by decide) (by decide) (by decide)

theorem met_LinkSends_2 (h : Obligations.LinkSends) :
    type_of% (h.1 slv 0 65537 (by decide) (by decide) (by decide)) :=
  h.1 slv 0 65537 (by decide) (by decide) (by decide)

theorem met_LinkSends_3 (h : Obligations.LinkSends) :
    type_of% (h.2.1 slv .announceReceiptTimeout (by decide) (by decide)) :=
  h.2.1 slv .announceReceiptTimeout (by decide) (by decide)

theorem met_LinkSends_4 (h : Obligations.LinkSends) :
    type_of% (h.2.1 slv .syncReceiptTimeout (by decide) (by decide)) :=
  h.2.1 slv .syncReceiptTimeout (by decide) (by decide)

noncomputable def mapW (v : Nat) : State := { lnk 0 2 [] with mgt := { R.mgt with pairs := [(pairKey 4 .tlkCtl 0x114, v)] } }

theorem met_LinkSends_5 (h : Obligations.LinkSends) : (∃ t, exec (.tlkMapWrite 4 (2^32-1-6)) (mapW 6) = .next t) := let ⟨t, e, _⟩ := (h.2.2 (mapW 6) 4 6 (2^32-1-6) (by decide) (by decide) (by decide)); ⟨t, e⟩

theorem test_link_2 : let t := pairComplete 4 .tlkCtl F.TLK_MAP_TL0_LANE.off (2^32-1-6) tlkMapEffect (mapW 6)
  mappedLane t 0 = 2 ∧ mappedLane t 1 = 1 ∧ laneOf t 0 = 0 ∧ linkState t 0 = 2 := by decide +kernel

theorem test_link_3 : let t := lockLossEffect 0 (pairComplete 4 .tlkCtl F.TLK_MAP_TL0_LANE.off (2^32-1-6) tlkMapEffect (mapW 6))
  mappedLane t 0 = 2 ∧ mappedLane t 1 = 1 ∧ laneOf t 0 = 2 ∧ linkState t 0 = 1 := by decide +kernel

theorem met_LinkReceives_6 (h : Obligations.LinkReceives) :
    type_of% (h.2.1 slv 0 msg (by decide +kernel) (by decide +kernel)) :=
  h.2.1 slv 0 msg (by decide +kernel) (by decide +kernel)

theorem met_LinkReceives_7 (h : Obligations.LinkReceives) :
    type_of% (h.2.1 slv2 0 msg (by decide +kernel) (by decide +kernel)) :=
  h.2.1 slv2 0 msg (by decide +kernel) (by decide +kernel)

theorem met_LinkReceives_8 (h : Obligations.LinkReceives) :
    type_of% (h.2.2.2.2.1 slv 0 msg (by decide +kernel) (by decide +kernel) (by decide +kernel)) :=
  h.2.2.2.2.1 slv 0 msg (by decide +kernel) (by decide +kernel) (by decide +kernel)

theorem met_LinkReceives_11 (h : Obligations.LinkReceives) :
    type_of% (h.2.2.2.2.1 slv2 0 msg (by decide +kernel) (by decide +kernel) (by decide +kernel)) :=
  h.2.2.2.2.1 slv2 0 msg (by decide +kernel) (by decide +kernel) (by decide +kernel)

noncomputable def peerPort : State := setTport (lnk 0 2 [(.tlkPort 0, F.TLK_P_STAT_PTP, 4), (.tlkPort 0, F.TLK_P_CTRL_DM, 1)]) 0 { tport (lnk 0 2 []) 0 with req := some (2, 7, 55), pdelay := some (7, 100) }

theorem met_LinkReceives_9 (h : Obligations.LinkReceives) :
    type_of% (h.2.2.2.2.2.1 peerPort 0 msg 7 (by decide +kernel) (by decide +kernel) (by decide +kernel) (by decide +kernel)) :=
  h.2.2.2.2.2.1 peerPort 0 msg 7 (by decide +kernel) (by decide +kernel) (by decide +kernel) (by decide +kernel)

theorem met_LinkReceives_12 (h : Obligations.LinkReceives) :
    type_of% (h.2.2.1 (lnk 0 2 [(.tlkPort 0, F.TLK_P_STAT_PTP, 1)]) 0 msg (by decide +kernel) (by decide +kernel) (.inl (by decide +kernel))) :=
  h.2.2.1 (lnk 0 2 [(.tlkPort 0, F.TLK_P_STAT_PTP, 1)]) 0 msg (by decide +kernel) (by decide +kernel) (.inl (by decide +kernel))

/-- A slave port with one offset behind it, which steers the link time base, with a step limit. -/
noncomputable def slvS (step : Nat) : State := setTport (withRegs slv2 [(.tlkCtl, F.TLK_CTRL_SERVO_EN, 1), (.tlkCtl, F.TLK_SERVO_STEP, step)]) 0 { tport slv2 0 with offsets := 1 }

theorem met_LinkReceives_13 (h : Obligations.LinkReceives) :
    type_of% ((h.2.2.2.1 (slvS 0) 0 msg 995 1000 (by decide +kernel) (by decide +kernel) rfl (.inl ⟨(by decide +kernel), 4, (by decide +kernel), (by decide +kernel)⟩) (by decide +kernel))) :=
  (h.2.2.2.1 (slvS 0) 0 msg 995 1000 (by decide +kernel) (by decide +kernel) rfl (.inl ⟨(by decide +kernel), 4, (by decide +kernel), (by decide +kernel)⟩) (by decide +kernel))

theorem met_LinkReceives_14 (h : Obligations.LinkReceives) :
    type_of% ((h.2.2.2.1 (slvS 1) 0 msg 995 1000 (by decide +kernel) (by decide +kernel) rfl (.inl ⟨(by decide +kernel), 4, (by decide +kernel), (by decide +kernel)⟩) (by decide +kernel))) :=
  (h.2.2.2.1 (slvS 1) 0 msg 995 1000 (by decide +kernel) (by decide +kernel) rfl (.inl ⟨(by decide +kernel), 4, (by decide +kernel), (by decide +kernel)⟩) (by decide +kernel))

noncomputable def slvP : State := setTport (withRegs slv [(.tlkPort 0, F.TLK_P_CTRL_DM, 1)]) 0 { tport slv 0 with peer := some 300 }

theorem met_LinkReceives_15 (h : Obligations.LinkReceives) :
    type_of% ((h.2.2.2.1 slvP 0 msg 300 1695 (by decide +kernel) (by decide +kernel) rfl (.inr ⟨(by decide +kernel), (by decide +kernel)⟩) (by decide +kernel))) :=
  (h.2.2.2.1 slvP 0 msg 300 1695 (by decide +kernel) (by decide +kernel) rfl (.inr ⟨(by decide +kernel), (by decide +kernel)⟩) (by decide +kernel))

theorem test_offset :
    (∀ k ∈ [0, 1], let t := syncEffect 0 msg (slvS k); rd t (.tlkPort 0) F.TLK_P_OFFSET = 1000 ∧ rd t (.tlkPort 0) F.TLK_P_MPD = 995 ∧ ptpState t 0 = 3 ∧
      linkBase (slvS k) < 5 ∧ tbPending (slvS k) (linkBase (slvS k)) = false ∧ rdb t (basePage (linkBase (slvS k))) F.TIM_DTB_CMD_ADJ_GO = decide (k = 0)) ∧
    rd (syncEffect 0 msg slvP) (.tlkPort 0) F.TLK_P_OFFSET = 1695 := by decide +kernel

theorem met_LinkSends_6 (h : Obligations.LinkSends) :
    type_of% (h.2.2 (mapW 6) 4 6 (2 ^ 32 - 1 - 6) (by decide +kernel) (by decide +kernel) (by decide +kernel)) :=
  h.2.2 (mapW 6) 4 6 (2 ^ 32 - 1 - 6) (by decide +kernel) (by decide +kernel) (by decide +kernel)

theorem met_LinkSends_7 (h : Obligations.LinkSends) :
    type_of% (h.2.2 (mapW 5) 4 5 (2 ^ 32 - 1 - 5) (by decide +kernel) (by decide +kernel) (by decide +kernel)) :=
  h.2.2 (mapW 5) 4 5 (2 ^ 32 - 1 - 5) (by decide +kernel) (by decide +kernel) (by decide +kernel)

end Ch03

/-! Chapter 4: sites and the mailbox. -/

namespace Ch04

noncomputable def pad (l : List Nat) : List Nat := l ++ List.replicate (64 - l.length) 0

noncomputable def cDef := pad [0xAA030101, 0x21, 0]

noncomputable def cDel := pad [0xAA010102]

noncomputable def cPal := pad [0xAA0A0103, 0x340, 0x00010002, 3, 4, 5, 6,7,8,9]

noncomputable def cRun := pad ([0xAA120110, 0x1000, 0, 1,2,3,4, 1, 100, 0x6, 0, 0] ++ [0x2000, 0, 0, 0x4000, 0, 0])

noncomputable def cHalt := pad [0xAA020111, 0]

noncomputable def cHaltB := pad [0xAA020111, 1]

noncomputable def cClear := pad [0xAA010112]

noncomputable def cStat := pad [0xAA010120]

noncomputable def cBad := pad [0xAA0101FF]

theorem met_SiteCommandsAnswered_1 (h : Obligations.SiteCommandsAnswered) : (∃ t, exec (.siteDefine 0) (withCmd owned cDef) = .next t) := let ⟨t, e, _⟩ := h (withCmd owned cDef) 0 cDef (by decide +kernel) |>.1; ⟨t, e⟩

theorem met_SiteCommandsAnswered_2 (h : Obligations.SiteCommandsAnswered) : (∃ t, exec (.status 0) (withCmd owned cBad) = .next t) := let ⟨t, e, _⟩ := h (withCmd owned cBad) 0 cBad (by decide +kernel) |>.1; ⟨t, e⟩

noncomputable def okAns (s : State) (i : Instr) (ws : List Nat) : Bool := let t := post s i; decide (rd t (.bar4 0) F.MBX_RSP_PROD = (rd s (.bar4 0) F.MBX_RSP_PROD + 1) % 2 ^ 32 ∧ (rd t (.hifPart 0) F.INT_RAW).testBit 0 = true) &&
  (List.range ws.length).all fun k => rd t (.bar4 0) (F.MBX_RSP_SLOT (8 * (rd s (.bar4 0) F.MBX_RSP_PROD % 64) + k)) == ws.getD k 0 % 2 ^ 32

theorem met_SiteMailbox_1 (h : Obligations.SiteMailbox) :
    type_of% (h.1 R 0 5 (by decide +kernel) (by decide +kernel) (by decide +kernel)  (by decide +kernel) (by decide +kernel)) :=
  h.1 R 0 5 (by decide +kernel) (by decide +kernel) (by decide +kernel)  (by decide +kernel) (by decide +kernel)

theorem met_SiteMailbox_2 (h : Obligations.SiteMailbox) :
    type_of% (h.2.1 R 0 65 (by decide +kernel) (by decide +kernel) (by decide +kernel)  (by decide +kernel)) :=
  h.2.1 R 0 65 (by decide +kernel) (by decide +kernel) (by decide +kernel)  (by decide +kernel)

theorem met_SiteMailbox_3 (h : Obligations.SiteMailbox) :
    type_of% (h.2.2.1 R 0 0 (by decide +kernel) (by decide +kernel) (by decide +kernel)) :=
  h.2.2.1 R 0 0 (by decide +kernel) (by decide +kernel) (by decide +kernel)

theorem met_SiteMailbox_4 (h : Obligations.SiteMailbox) :
    type_of% (h.2.2.1 R 0 1 (by decide +kernel) (by decide +kernel) (by decide +kernel)) :=
  h.2.2.1 R 0 1 (by decide +kernel) (by decide +kernel) (by decide +kernel)

noncomputable def held : State := let s := site1 1; { s with pat := { s.pat with heldCmds := [⟨0, cRun⟩] } }

theorem met_SiteMailbox_5 (h : Obligations.SiteMailbox) :
    type_of% (h.2.2.2.1 held 1 ⟨0, cRun⟩ (by decide +kernel) (by decide +kernel) (by decide +kernel) (by decide +kernel) (by decide +kernel)) :=
  h.2.2.2.1 held 1 ⟨0, cRun⟩ (by decide +kernel) (by decide +kernel) (by decide +kernel) (by decide +kernel) (by decide +kernel)

theorem met_SiteMailbox_6 (h : Obligations.SiteMailbox) :
    type_of% (h.2.2.2.2.1 (site1 3) 0 0 1 2 (by decide +kernel) (by decide +kernel) (by decide +kernel)  (by decide +kernel) (by decide +kernel)) :=
  h.2.2.2.2.1 (site1 3) 0 0 1 2 (by decide +kernel) (by decide +kernel) (by decide +kernel)  (by decide +kernel) (by decide +kernel)

theorem met_SiteMailbox_7 (h : Obligations.SiteMailbox) :
    type_of% (h.2.2.2.2.2 (setFur R 3 { furInit with resetPend := true, pr := 3 }) 3 (by decide +kernel)) :=
  h.2.2.2.2.2 (setFur R 3 { furInit with resetPend := true, pr := 3 }) 3 (by decide +kernel)

noncomputable def prim : State := let s := post (withCmd (site1 1) cRun) (.run 0); withRegs (setRoute (setRoute s 0 { routeOf s 0 with endPos := some (0, 0) }) 5 { routeOf s 5 with endPos := some (0, 0) }) [(.hifDev, F.HIF_BANK_OWN_LO, 0)]

theorem met_SiteStarts_1 (h : Obligations.SiteStarts) :
    type_of% (h.1 prim 1 true false ⟨1, 0, 0xA00000000⟩ (by decide +kernel) (by decide +kernel) (by decide +kernel) (by decide +kernel) rfl (by decide +kernel) (by decide +kernel) (by decide +kernel)) :=
  h.1 prim 1 true false ⟨1, 0, 0xA00000000⟩ (by decide +kernel) (by decide +kernel) (by decide +kernel) (by decide +kernel) rfl (by decide +kernel) (by decide +kernel) (by decide +kernel)

noncomputable def running : State := post prim (.headgateOpen 1 true)

theorem met_SiteStarts_2 (h : Obligations.SiteStarts) :
    type_of% (h.2.1 running 1 (by decide +kernel)) :=
  h.2.1 running 1 (by decide +kernel)

noncomputable def stopping : State := post (withCmd running cHalt) (.halt 0)

theorem met_SiteStarts_3 (h : Obligations.SiteStarts) :
    type_of% (h.2.2 stopping 1 (by decide +kernel) (by decide +kernel) (by decide +kernel) (by decide +kernel)) :=
  h.2.2 stopping 1 (by decide +kernel) (by decide +kernel) (by decide +kernel) (by decide +kernel)

theorem met_SiteCommandsAnswered_3 (h : Obligations.SiteCommandsAnswered) :
    type_of% ((h (withCmd owned cDef) 0 cDef (by decide +kernel)).1) :=
  (h (withCmd owned cDef) 0 cDef (by decide +kernel)).1

theorem met_SiteCommandsAnswered_4 (h : Obligations.SiteCommandsAnswered) :
    type_of% ((h (withCmd owned cBad) 0 cBad (by decide +kernel)).1) :=
  (h (withCmd owned cBad) 0 cBad (by decide +kernel)).1

theorem met_SiteCommandsAnswered_5 (h : Obligations.SiteCommandsAnswered) :
    type_of% ((h (withCmd (site1 3) cStat) 0 cStat (by decide +kernel)).2 (by decide +kernel) (by decide +kernel)) :=
  (h (withCmd (site1 3) cStat) 0 cStat (by decide +kernel)).2 (by decide +kernel) (by decide +kernel)

theorem met_SiteCommands_1 (h : Obligations.SiteCommands) :
    type_of% ((h (withCmd owned cDef) 0 cDef (by decide +kernel) (by decide +kernel)).1 (by decide +kernel)) :=
  (h (withCmd owned cDef) 0 cDef (by decide +kernel) (by decide +kernel)).1 (by decide +kernel)

theorem met_SiteCommands_2 (h : Obligations.SiteCommands) :
    type_of% ((h (withCmd (site1 4) cDel) 0 cDel (by decide +kernel) (by decide +kernel)).2.1 (by decide +kernel)) :=
  (h (withCmd (site1 4) cDel) 0 cDel (by decide +kernel) (by decide +kernel)).2.1 (by decide +kernel)

theorem met_SiteCommands_3 (h : Obligations.SiteCommands) :
    type_of% ((h (withCmd (site1 1) cPal) 0 cPal (by decide +kernel) (by decide +kernel)).2.2.1 (by decide +kernel)) :=
  (h (withCmd (site1 1) cPal) 0 cPal (by decide +kernel) (by decide +kernel)).2.2.1 (by decide +kernel)

theorem met_SiteCommands_4 (h : Obligations.SiteCommands) :
    type_of% ((h (withCmd (site1 1) cRun) 0 cRun (by decide +kernel) (by decide +kernel)).2.2.2.1 (by decide +kernel)) :=
  (h (withCmd (site1 1) cRun) 0 cRun (by decide +kernel) (by decide +kernel)).2.2.2.1 (by decide +kernel)

theorem met_SiteCommands_5 (h : Obligations.SiteCommands) :
    type_of% ((h (withCmd (site1 2) cHalt) 0 cHalt (by decide +kernel) (by decide +kernel)).2.2.2.2.1 (by decide +kernel)) :=
  (h (withCmd (site1 2) cHalt) 0 cHalt (by decide +kernel) (by decide +kernel)).2.2.2.2.1 (by decide +kernel)

theorem met_SiteCommands_6 (h : Obligations.SiteCommands) :
    type_of% ((h (withCmd (site1 3) cHaltB) 0 cHaltB (by decide +kernel) (by decide +kernel)).2.2.2.2.1 (by decide +kernel)) :=
  (h (withCmd (site1 3) cHaltB) 0 cHaltB (by decide +kernel) (by decide +kernel)).2.2.2.2.1 (by decide +kernel)

theorem met_SiteCommands_7 (h : Obligations.SiteCommands) :
    type_of% ((h (withCmd (site1 10) cClear) 0 cClear (by decide +kernel) (by decide +kernel)).2.2.2.2.2 (by decide +kernel)) :=
  (h (withCmd (site1 10) cClear) 0 cClear (by decide +kernel) (by decide +kernel)).2.2.2.2.2 (by decide +kernel)

theorem test_status_1 : okAns (withCmd (site1 3) cStat) (.status 0) [0xAA000120, 0, 3, 0, 0, 0] = true := (by decide +kernel)

theorem test_siteDelete_1 : okAns (withCmd (site1 3) cDel) (.siteDelete 0) [0xAA040102, 0] = true := (by decide +kernel)

theorem test_siteDefine_1 : siteState (post (withCmd owned cDef) (.siteDefine 0)) 1 = 1 ∧ (siteOf (post (withCmd owned cDef) (.siteDefine 0)) 1).mask = 0x21 := (by decide +kernel)

theorem test_palLoad_1 : tabGet 0x2222 (post (withCmd (site1 1) cPal) (.palLoad 0)).pat.palettes (5 * 128 + 3 * 16) = 2 := (by decide +kernel)

end Ch04

/-! Chapter 5: the pattern instructions. -/

namespace Ch05

noncomputable def mem1 (l : List Nat) : State := l.zipIdx.foldl (fun s w => putLE s 0 (0x1000 + 8 * w.2) 8 w.1) (site1 2)

noncomputable def eng1 (l : List Nat) (st : RouteRec := st1) : State := setEng (mem1 l) 0 { engOf R 0 with work := some (work1 st) }

noncomputable def I (op m d : Nat) : Nat := op * 2^56 + m * 2^48 + d

theorem test_pattern_1 : AtInstr (eng1 [0]) 0 (work1 st1) [0] := by decide +kernel

theorem test_pattern_2 : (work1 st1).st.segNum.isSome = true ∧ (work1 st1).st.block = none ∧ (work1 st1).st.dps.length = 4 := ⟨rfl, rfl, rfl⟩

theorem test_pattern_3 : Untagged (work1 st1).st.pend := by decide +kernel

theorem met_PatternControl_1 (h : Obligations.PatternControl) :
    type_of% ((h (eng1 [0]) 0 (work1 st1) 0 (by decide +kernel)).1 rfl) :=
  (h (eng1 [0]) 0 (work1 st1) 0 (by decide +kernel)).1 rfl

theorem met_PatternControl_2 (h : Obligations.PatternControl) :
    type_of% ((h (eng1 [I 5 7 0x3f07]) 0 (work1 st1) (I 5 7 0x3f07) (by decide +kernel)).2.1 (by decide +kernel) (by decide +kernel) (by decide +kernel) (by decide +kernel)) :=
  (h (eng1 [I 5 7 0x3f07]) 0 (work1 st1) (I 5 7 0x3f07) (by decide +kernel)).2.1 (by decide +kernel) (by decide +kernel) (by decide +kernel) (by decide +kernel)

theorem met_PatternControl_3 (h : Obligations.PatternControl) :
    type_of% ((h (eng1 [I 0x22 0 0x3f07]) 0 (work1 st1) (I 0x22 0 0x3f07) (by decide +kernel)).2.2.1 (by decide +kernel) (by decide +kernel) (by decide +kernel)) :=
  (h (eng1 [I 0x22 0 0x3f07]) 0 (work1 st1) (I 0x22 0 0x3f07) (by decide +kernel)).2.2.1 (by decide +kernel) (by decide +kernel) (by decide +kernel)

noncomputable def stF : RouteRec := { st1 with pend := { pendClear with flag := true, flagSet := 3, flagClr := 4 } }

theorem met_PatternControl_4 (h : Obligations.PatternControl) :
    type_of% ((h (eng1 [I 0x23 0 0x14] stF) 0 (work1 stF) (I 0x23 0 0x14) (by decide +kernel)).2.2.2.1 (by decide +kernel) (by decide +kernel) (by decide +kernel) (by decide +kernel) (by decide +kernel)) :=
  (h (eng1 [I 0x23 0 0x14] stF) 0 (work1 stF) (I 0x23 0 0x14) (by decide +kernel)).2.2.2.1 (by decide +kernel) (by decide +kernel) (by decide +kernel) (by decide +kernel) (by decide +kernel)

theorem met_PatternControl_5 (h : Obligations.PatternControl) :
    type_of% ((h (eng1 [I 0x21 0 0x14]) 0 (work1 st1) (I 0x21 0 0x14) (by decide +kernel)).2.2.2.2.1 (by decide +kernel) (by decide +kernel) (by decide +kernel)) :=
  (h (eng1 [I 0x21 0 0x14]) 0 (work1 st1) (I 0x21 0 0x14) (by decide +kernel)).2.2.2.2.1 (by decide +kernel) (by decide +kernel) (by decide +kernel)

theorem met_PatternControl_6 (h : Obligations.PatternControl) :
    type_of% ((h (eng1 [I 1 0xA 0x14]) 0 (work1 st1) (I 1 0xA 0x14) (by decide +kernel)).2.2.2.2.2.1 (by decide +kernel) (by decide +kernel) (by decide +kernel) (by decide +kernel)) :=
  (h (eng1 [I 1 0xA 0x14]) 0 (work1 st1) (I 1 0xA 0x14) (by decide +kernel)).2.2.2.2.2.1 (by decide +kernel) (by decide +kernel) (by decide +kernel) (by decide +kernel)

theorem met_PatternControl_7 (h : Obligations.PatternControl) :
    type_of% ((h (eng1 [I 0x10 0 0x14]) 0 (work1 st1) (I 0x10 0 0x14) (by decide +kernel)).2.2.2.2.2.2.1 (by decide +kernel) (by decide +kernel) (by decide +kernel) (by decide +kernel) (by decide +kernel)) :=
  (h (eng1 [I 0x10 0 0x14]) 0 (work1 st1) (I 0x10 0 0x14) (by decide +kernel)).2.2.2.2.2.2.1 (by decide +kernel) (by decide +kernel) (by decide +kernel) (by decide +kernel) (by decide +kernel)

noncomputable def stL : RouteRec := { st1 with loops := [(3, 0x800), (1, 0x700)] }

noncomputable def stL1 : RouteRec := { st1 with loops := [(1, 0x700)] }

theorem met_PatternControl_8 (h : Obligations.PatternControl) :
    type_of% ((h (eng1 [I 0x11 0 0] stL) 0 (work1 stL) (I 0x11 0 0) (by decide +kernel)).2.2.2.2.2.2.2.1 (by decide +kernel) (by decide +kernel) (by decide +kernel) _ _ _ rfl) :=
  (h (eng1 [I 0x11 0 0] stL) 0 (work1 stL) (I 0x11 0 0) (by decide +kernel)).2.2.2.2.2.2.2.1 (by decide +kernel) (by decide +kernel) (by decide +kernel) _ _ _ rfl

theorem met_PatternControl_9 (h : Obligations.PatternControl) :
    type_of% ((h (eng1 [I 0x11 0 0] stL1) 0 (work1 stL1) (I 0x11 0 0) (by decide +kernel)).2.2.2.2.2.2.2.1 (by decide +kernel) (by decide +kernel) (by decide +kernel) _ _ _ rfl) :=
  (h (eng1 [I 0x11 0 0] stL1) 0 (work1 stL1) (I 0x11 0 0) (by decide +kernel)).2.2.2.2.2.2.2.1 (by decide +kernel) (by decide +kernel) (by decide +kernel) _ _ _ rfl

theorem met_PatternControl_10 (h : Obligations.PatternControl) :
    type_of% ((h (eng1 [I 0x12 0 0x2000]) 0 (work1 st1) (I 0x12 0 0x2000) (by decide +kernel)).2.2.2.2.2.2.2.2.1 (by decide +kernel) (by decide +kernel) (by decide +kernel) (by decide +kernel) (by decide +kernel)) :=
  (h (eng1 [I 0x12 0 0x2000]) 0 (work1 st1) (I 0x12 0 0x2000) (by decide +kernel)).2.2.2.2.2.2.2.2.1 (by decide +kernel) (by decide +kernel) (by decide +kernel) (by decide +kernel) (by decide +kernel)

noncomputable def stC : RouteRec := { stL with calls := [(0x900, 2)] }

theorem met_PatternControl_11 (h : Obligations.PatternControl) :
    type_of% ((h (eng1 [I 0x13 0 0] stC) 0 (work1 stC) (I 0x13 0 0) (by decide +kernel)).2.2.2.2.2.2.2.2.2.1 (by decide +kernel) (by decide +kernel) (by decide +kernel) _ _ rfl) :=
  (h (eng1 [I 0x13 0 0] stC) 0 (work1 stC) (I 0x13 0 0) (by decide +kernel)).2.2.2.2.2.2.2.2.2.1 (by decide +kernel) (by decide +kernel) (by decide +kernel) _ _ rfl

theorem met_PatternControl_12 (h : Obligations.PatternControl) :
    type_of% ((h (eng1 [I 0x14 0 0x2000]) 0 (work1 st1) (I 0x14 0 0x2000) (by decide +kernel)).2.2.2.2.2.2.2.2.2.2.1 (by decide +kernel) (by decide +kernel) (by decide +kernel) (by decide +kernel)) :=
  (h (eng1 [I 0x14 0 0x2000]) 0 (work1 st1) (I 0x14 0 0x2000) (by decide +kernel)).2.2.2.2.2.2.2.2.2.2.1 (by decide +kernel) (by decide +kernel) (by decide +kernel) (by decide +kernel)

theorem met_PatternControl_13 (h : Obligations.PatternControl) :
    type_of% ((h (eng1 [I 0x3F 0 0]) 0 (work1 st1) (I 0x3F 0 0) (by decide +kernel)).2.2.2.2.2.2.2.2.2.2.2 (by decide +kernel) (by decide +kernel) (by decide +kernel) (by decide +kernel) (by decide +kernel)) :=
  (h (eng1 [I 0x3F 0 0]) 0 (work1 st1) (I 0x3F 0 0) (by decide +kernel)).2.2.2.2.2.2.2.2.2.2.2 (by decide +kernel) (by decide +kernel) (by decide +kernel) (by decide +kernel) (by decide +kernel)

theorem met_PatternSegments_1 (h : Obligations.PatternSegments) :
    type_of% ((h (eng1 [I 0x18 0 5]) 0 (work1 st1) (I 0x18 0 5) (by decide +kernel)).1 (by decide +kernel) (by decide +kernel) (by decide +kernel) (by decide +kernel) (by decide +kernel) (by decide +kernel) (by decide +kernel)) :=
  (h (eng1 [I 0x18 0 5]) 0 (work1 st1) (I 0x18 0 5) (by decide +kernel)).1 (by decide +kernel) (by decide +kernel) (by decide +kernel) (by decide +kernel) (by decide +kernel) (by decide +kernel) (by decide +kernel)

theorem met_PatternSegments_2 (h : Obligations.PatternSegments) :
    type_of% ((h (eng1 [I 0x19 1 0x5000]) 0 (work1 st1) (I 0x19 1 0x5000) (by decide +kernel)).2.1 (by decide +kernel) (by decide +kernel) (by decide +kernel) (by decide +kernel) rfl (by decide +kernel) (by decide +kernel) (by decide +kernel)) :=
  (h (eng1 [I 0x19 1 0x5000]) 0 (work1 st1) (I 0x19 1 0x5000) (by decide +kernel)).2.1 (by decide +kernel) (by decide +kernel) (by decide +kernel) (by decide +kernel) rfl (by decide +kernel) (by decide +kernel) (by decide +kernel)

theorem met_PatternSegments_3 (h : Obligations.PatternSegments) :
    type_of% ((h (eng1 [I 0x1A 0 0]) 0 (work1 st1) (I 0x1A 0 0) (by decide +kernel)).2.2.1 (by decide +kernel) (by decide +kernel) (by decide +kernel) (by decide +kernel)) :=
  (h (eng1 [I 0x1A 0 0]) 0 (work1 st1) (I 0x1A 0 0) (by decide +kernel)).2.2.1 (by decide +kernel) (by decide +kernel) (by decide +kernel) (by decide +kernel)

noncomputable def stB : RouteRec := { st1 with block := some ⟨5, 0, 0⟩ }

theorem met_PatternSegments_4 (h : Obligations.PatternSegments) :
    type_of% ((h (eng1 [I 0x1B 0 7] stB) 0 (work1 stB) (I 0x1B 0 7) (by decide +kernel)).2.2.2 (by decide +kernel) (by decide +kernel) (by decide +kernel) (by decide +kernel) _ rfl (by decide +kernel) (by decide +kernel)) :=
  (h (eng1 [I 0x1B 0 7] stB) 0 (work1 stB) (I 0x1B 0 7) (by decide +kernel)).2.2.2 (by decide +kernel) (by decide +kernel) (by decide +kernel) (by decide +kernel) _ rfl (by decide +kernel) (by decide +kernel)

noncomputable def veci := I 2 0 (0x12345678 + 5 * 2^32 + 2*2^38)

theorem met_PatternVectors_1 (h : Obligations.PatternVectors) :
    type_of% (h.1 (eng1 [veci]) 0 (work1 st1) veci (by decide +kernel) (by decide +kernel) (by decide +kernel) (by decide +kernel) (by decide +kernel) (by decide +kernel) (by decide +kernel)) :=
  h.1 (eng1 [veci]) 0 (work1 st1) veci (by decide +kernel) (by decide +kernel) (by decide +kernel) (by decide +kernel) (by decide +kernel) (by decide +kernel) (by decide +kernel)

theorem met_PatternVectors_2 (h : Obligations.PatternVectors) :
    type_of% ((h.2.1 (eng1 [I 3 0 700]) 0 (work1 st1) (I 3 0 700) (by decide +kernel) (by decide +kernel) (by decide +kernel) (by decide +kernel) (by decide +kernel) (by decide +kernel) (by decide +kernel)).1 (by decide +kernel) (by decide +kernel) _ rfl) :=
  (h.2.1 (eng1 [I 3 0 700]) 0 (work1 st1) (I 3 0 700) (by decide +kernel) (by decide +kernel) (by decide +kernel) (by decide +kernel) (by decide +kernel) (by decide +kernel) (by decide +kernel)).1 (by decide +kernel) (by decide +kernel) _ rfl

theorem met_PatternVectors_3 (h : Obligations.PatternVectors) :
    type_of% ((h.2.1 (eng1 [I 4 2 700]) 0 (work1 st1) (I 4 2 700) (by decide +kernel) (by decide +kernel) (by decide +kernel) (by decide +kernel) (by decide +kernel) (by decide +kernel) (by decide +kernel)).2 (by decide +kernel) (by decide +kernel)) :=
  (h.2.1 (eng1 [I 4 2 700]) 0 (work1 st1) (I 4 2 700) (by decide +kernel) (by decide +kernel) (by decide +kernel) (by decide +kernel) (by decide +kernel) (by decide +kernel) (by decide +kernel)).2 (by decide +kernel) (by decide +kernel)

noncomputable def vec := I 1 1 3

theorem met_PatternVectors_4 (h : Obligations.PatternVectors) :
    type_of% (h.2.2.1 (eng1 [vec]) 0 (work1 st1) vec (by decide +kernel) test_pattern_2.1 test_pattern_2.2.1 (by decide +kernel) (by decide +kernel) (by decide +kernel) (by decide +kernel) (by decide +kernel) (by decide +kernel) (.inl (by decide +kernel)) test_pattern_2.2.2 (by decide +kernel) (by decide +kernel) (by decide +kernel)) :=
  h.2.2.1 (eng1 [vec]) 0 (work1 st1) vec (by decide +kernel) test_pattern_2.1 test_pattern_2.2.1 (by decide +kernel) (by decide +kernel) (by decide +kernel) (by decide +kernel) (by decide +kernel) (by decide +kernel) (.inl (by decide +kernel)) test_pattern_2.2.2 (by decide +kernel) (by decide +kernel) (by decide +kernel)

noncomputable def vecx := I 1 5 3

theorem met_PatternVectors_5 (h : Obligations.PatternVectors) :
    type_of% (h.2.2.1 (eng1 [vecx]) 0 (work1 st1) vecx (by decide +kernel) test_pattern_2.1 test_pattern_2.2.1 (by decide +kernel) (by decide +kernel) (by decide +kernel) (by decide +kernel) (by decide +kernel) (by decide +kernel) (.inl (by decide +kernel)) test_pattern_2.2.2 (by decide +kernel) (by decide +kernel) (by decide +kernel)) :=
  h.2.2.1 (eng1 [vecx]) 0 (work1 st1) vecx (by decide +kernel) test_pattern_2.1 test_pattern_2.2.1 (by decide +kernel) (by decide +kernel) (by decide +kernel) (by decide +kernel) (by decide +kernel) (by decide +kernel) (.inl (by decide +kernel)) test_pattern_2.2.2 (by decide +kernel) (by decide +kernel) (by decide +kernel)

noncomputable def stream := I 6 2 3

noncomputable def rstream : State := setRoute (eng1 [stream]) 0 { routeOf R 0 with streams := [none, none, some 1, none] }

noncomputable def rstream2 : State := withRegs rstream [(.bar4 0, F.RING_BASE_LO 1, 1),(.bar4 0, F.RING_CTRL_NPAGES 1, 1),(.bar4 0, F.RING_WR 1, 64)]

theorem met_PatternVectors_6 (h : Obligations.PatternVectors) :
    type_of% ((h.2.2.2.1 rstream2 0 (work1 st1) stream 1 (by decide +kernel) test_pattern_2.1 test_pattern_2.2.1 (by decide +kernel) (by decide +kernel) (by decide +kernel) (by decide +kernel) (by decide +kernel) rfl test_pattern_3 (by decide +kernel) (by decide +kernel) (by decide +kernel)).1 (by decide +kernel) (by decide +kernel)) :=
  (h.2.2.2.1 rstream2 0 (work1 st1) stream 1 (by decide +kernel) test_pattern_2.1 test_pattern_2.2.1 (by decide +kernel) (by decide +kernel) (by decide +kernel) (by decide +kernel) (by decide +kernel) rfl test_pattern_3 (by decide +kernel) (by decide +kernel) (by decide +kernel)).1 (by decide +kernel) (by decide +kernel)

theorem met_PatternVectors_7 (h : Obligations.PatternVectors) :
    type_of% ((h.2.2.2.1 rstream 0 (work1 st1) stream 1 (by decide +kernel) test_pattern_2.1 test_pattern_2.2.1 (by decide +kernel) (by decide +kernel) (by decide +kernel) (by decide +kernel) (by decide +kernel) rfl test_pattern_3 (by decide +kernel) (by decide +kernel) (by decide +kernel)).2 (by decide +kernel)) :=
  (h.2.2.2.1 rstream 0 (work1 st1) stream 1 (by decide +kernel) test_pattern_2.1 test_pattern_2.2.1 (by decide +kernel) (by decide +kernel) (by decide +kernel) (by decide +kernel) (by decide +kernel) rfl test_pattern_3 (by decide +kernel) (by decide +kernel) (by decide +kernel)).2 (by decide +kernel)

noncomputable def sc1 := I 7 0 9

noncomputable def sc2 : Nat := 2^48 + 2 * 2^32 + 0x21

theorem met_PatternVectors_8 (h : Obligations.PatternVectors) :
    type_of% (h.2.2.2.2.1 (eng1 [sc1,sc2]) 0 (work1 st1) sc1 sc2 (by decide +kernel) test_pattern_2.1 test_pattern_2.2.1 (by decide +kernel) (by decide +kernel) (by decide +kernel) (by decide +kernel) (by decide +kernel) (by decide +kernel) (by decide +kernel) test_pattern_3 test_pattern_2.2.2 (by decide +kernel) (by decide +kernel) (by decide +kernel) (by decide +kernel)) :=
  h.2.2.2.2.1 (eng1 [sc1,sc2]) 0 (work1 st1) sc1 sc2 (by decide +kernel) test_pattern_2.1 test_pattern_2.2.1 (by decide +kernel) (by decide +kernel) (by decide +kernel) (by decide +kernel) (by decide +kernel) (by decide +kernel) (by decide +kernel) test_pattern_3 test_pattern_2.2.2 (by decide +kernel) (by decide +kernel) (by decide +kernel) (by decide +kernel)

theorem met_PatternVectors_9 (h : Obligations.PatternVectors) :
    type_of% (h.2.2.2.2.2.1 (eng1 [I 0x20 1 0, 77, 5*2^32 + 9]) 0 (work1 st1) (I 0x20 1 0) 77 (5*2^32+9) ⟨0x55, 1, 2⟩ (by decide +kernel) (by decide +kernel) (by decide +kernel) (by decide +kernel) (by decide +kernel) rfl (by decide +kernel) (by decide +kernel) (by decide +kernel) (by decide +kernel)) :=
  h.2.2.2.2.2.1 (eng1 [I 0x20 1 0, 77, 5*2^32 + 9]) 0 (work1 st1) (I 0x20 1 0) 77 (5*2^32+9) ⟨0x55, 1, 2⟩ (by decide +kernel) (by decide +kernel) (by decide +kernel) (by decide +kernel) (by decide +kernel) rfl (by decide +kernel) (by decide +kernel) (by decide +kernel) (by decide +kernel)

theorem met_PatternVectors_10 (h : Obligations.PatternVectors) :
    type_of% (h.2.2.2.2.2.1 (eng1 [I 0x20 0 0, 77, 0]) 0 (work1 st1) (I 0x20 0 0) 77 (0) ⟨0x55, 1, 2⟩ (by decide +kernel) (by decide +kernel) (by decide +kernel) (by decide +kernel) (by decide +kernel) rfl (by decide +kernel) (by decide +kernel) (by decide +kernel) (by decide +kernel)) :=
  h.2.2.2.2.2.1 (eng1 [I 0x20 0 0, 77, 0]) 0 (work1 st1) (I 0x20 0 0) 77 (0) ⟨0x55, 1, 2⟩ (by decide +kernel) (by decide +kernel) (by decide +kernel) (by decide +kernel) (by decide +kernel) rfl (by decide +kernel) (by decide +kernel) (by decide +kernel) (by decide +kernel)

noncomputable def wst : Work := { work1 { st1 with resid := some ⟨[stream], 3, 0⟩ } with stalled := some 1 }

theorem met_PatternVectors_11 (h : Obligations.PatternVectors) :
    type_of% (h.2.2.2.2.2.2 (setEng rstream2 0 { engOf R 0 with work := some wst }) 0 1 wst ⟨[stream],3,0⟩ (by decide +kernel) (by decide +kernel) (by decide +kernel) (by decide +kernel)) :=
  h.2.2.2.2.2.2 (setEng rstream2 0 { engOf R 0 with work := some wst }) 0 1 wst ⟨[stream],3,0⟩ (by decide +kernel) (by decide +kernel) (by decide +kernel) (by decide +kernel)

noncomputable def wq := work1 { st1 with pc := 2^35 }

theorem met_PatternFaults_1 (h : Obligations.PatternFaults) :
    type_of% (h.1 (setEng rstream2 0 { engOf R 0 with work := some wq }) 0 wq (.seg 0) (by decide +kernel) (by decide +kernel) rfl rfl rfl (by decide +kernel) rfl (by decide +kernel) (by decide +kernel)) :=
  h.1 (setEng rstream2 0 { engOf R 0 with work := some wq }) 0 wq (.seg 0) (by decide +kernel) (by decide +kernel) rfl rfl rfl (by decide +kernel) rfl (by decide +kernel) (by decide +kernel)

theorem met_PatternFaults_2 (h : Obligations.PatternFaults) :
    type_of% ((h.2 (eng1 [I 0x30 0 0]) 0 (work1 st1) (I 0x30 0 0) (by decide +kernel)).1 (.vec 0) (by decide +kernel) (by decide +kernel)) :=
  (h.2 (eng1 [I 0x30 0 0]) 0 (work1 st1) (I 0x30 0 0) (by decide +kernel)).1 (.vec 0) (by decide +kernel) (by decide +kernel)

theorem met_PatternFaults_3 (h : Obligations.PatternFaults) :
    type_of% ((h.2 (eng1 [I 0 1 0]) 0 (work1 st1) (I 0 1 0) (by decide +kernel)).2.1 (by decide +kernel) (by decide +kernel) (by decide +kernel)) :=
  (h.2 (eng1 [I 0 1 0]) 0 (work1 st1) (I 0 1 0) (by decide +kernel)).2.1 (by decide +kernel) (by decide +kernel) (by decide +kernel)

theorem met_PatternFaults_4 (h : Obligations.PatternFaults) :
    type_of% ((h.2 (eng1 [I 0x14 0 4]) 0 (work1 st1) (I 0x14 0 4) (by decide +kernel)).2.2.1 (by decide +kernel) (by decide +kernel) (by decide +kernel) (by decide +kernel)) :=
  (h.2 (eng1 [I 0x14 0 4]) 0 (work1 st1) (I 0x14 0 4) (by decide +kernel)).2.2.1 (by decide +kernel) (by decide +kernel) (by decide +kernel) (by decide +kernel)

theorem met_PatternFaults_5 (h : Obligations.PatternFaults) :
    type_of% ((h.2 (eng1 [I 0x3 0 0]) 0 (work1 st1) (I 0x3 0 0) (by decide +kernel)).2.2.2.1 (by decide +kernel) (by decide +kernel) (by decide +kernel)) :=
  (h.2 (eng1 [I 0x3 0 0]) 0 (work1 st1) (I 0x3 0 0) (by decide +kernel)).2.2.2.1 (by decide +kernel) (by decide +kernel) (by decide +kernel)

noncomputable def stN : RouteRec := recInit 0x1000

theorem met_PatternFaults_6 (h : Obligations.PatternFaults) :
    type_of% ((h.2 (eng1 [I 0x19 0 8] stN) 0 (work1 stN) (I 0x19 0 8) (by decide +kernel)).2.2.2.2.1 (by decide +kernel) (by decide +kernel) (by decide +kernel) (by decide +kernel) (by decide +kernel)) :=
  (h.2 (eng1 [I 0x19 0 8] stN) 0 (work1 stN) (I 0x19 0 8) (by decide +kernel)).2.2.2.2.1 (by decide +kernel) (by decide +kernel) (by decide +kernel) (by decide +kernel) (by decide +kernel)

theorem met_PatternFaults_7 (h : Obligations.PatternFaults) :
    type_of% ((h.2 (eng1 [I 0x3F 0 0] stB) 0 (work1 stB) (I 0x3F 0 0) (by decide +kernel)).2.2.2.2.2.1 (by decide +kernel) (by decide +kernel) (by decide +kernel) (by decide +kernel)) :=
  (h.2 (eng1 [I 0x3F 0 0] stB) 0 (work1 stB) (I 0x3F 0 0) (by decide +kernel)).2.2.2.2.2.1 (by decide +kernel) (by decide +kernel) (by decide +kernel) (by decide +kernel)

theorem met_PatternFaults_8 (h : Obligations.PatternFaults) :
    type_of% ((h.2 (eng1 [I 0x11 0 0]) 0 (work1 st1) (I 0x11 0 0) (by decide +kernel)).2.2.2.2.2.2 (by decide +kernel) (by decide +kernel) (by decide +kernel) (by decide +kernel)) :=
  (h.2 (eng1 [I 0x11 0 0]) 0 (work1 st1) (I 0x11 0 0) (by decide +kernel)).2.2.2.2.2.2 (by decide +kernel) (by decide +kernel) (by decide +kernel) (by decide +kernel)

end Ch05

/-! Chapter 6: caravans. -/

namespace Ch06

noncomputable def desc (e rt st ri prio chain id notify : Nat) (relmode : Nat := 0) (rel : Nat := 0) : Nat := rel + e * 2^64 + rt * 2^80 + st * 2^88 + relmode * 2^94 + prio * 2^96 + ri * 2^104 + chain * 2^112 + 5 * 2^128 + id * 2^160 + notify * 2^176

noncomputable def S6 : State := site1 2

noncomputable def d1 := desc 100 0 1 0 255 0 9 1

theorem met_Submissions_1 (h : Obligations.Submissions) :
    type_of% ((h.1 S6 d1 _ (by decide +kernel) rfl).1 (by decide +kernel) (by decide +kernel) (by decide +kernel) (by decide +kernel)) :=
  (h.1 S6 d1 _ (by decide +kernel) rfl).1 (by decide +kernel) (by decide +kernel) (by decide +kernel) (by decide +kernel)

noncomputable def d2 := desc 100 0 1 0 255 0 9 1 0 77

theorem met_Submissions_2 (h : Obligations.Submissions) :
    type_of% ((h.1 S6 d2 _ (by decide +kernel) rfl).2.1 (by decide +kernel) (by decide +kernel) (by decide +kernel) (by decide +kernel) (by decide +kernel)) :=
  (h.1 S6 d2 _ (by decide +kernel) rfl).2.1 (by decide +kernel) (by decide +kernel) (by decide +kernel) (by decide +kernel) (by decide +kernel)

noncomputable def bads : List (Nat × Nat) := [(1, desc 100 1 1 0 255 0 9 1), (2, desc 63 0 1 0 255 0 9 1), (3, desc 100 0 1 1 255 0 9 1), (3, desc 100 0 1 0 255 0 9 1 2 0), (2, desc 8193 5 1 3 0 0 9 1)]

noncomputable def S6q : State := withRegs S6 [(.disDev, F.DIS_POOL_QUOTA_0, 0)]

theorem met_Submissions_3 (h : Obligations.Submissions) :
    type_of% ((h.1 S6q d2 _ (by decide +kernel) rfl).2.2.2 (by decide +kernel)) :=
  (h.1 S6q d2 _ (by decide +kernel) rfl).2.2.2 (by decide +kernel)

noncomputable def S6r : State := withRegs S6 [(.bar4 0, F.DESC_CTRL_EN 1, 1), (.bar4 0, F.DESC_CTRL_SIZE 1, 8), (.bar4 0, F.DESC_PROD 1, 3)]

theorem met_Submissions_4 (h : Obligations.Submissions) :
    type_of% ((h.2 S6r 0 1 d1 _ (by decide +kernel) (by decide +kernel) rfl (by decide +kernel) (by decide +kernel) (by decide +kernel)).1 (by decide +kernel) (by decide +kernel) (by decide +kernel) (by decide +kernel)) :=
  (h.2 S6r 0 1 d1 _ (by decide +kernel) (by decide +kernel) rfl (by decide +kernel) (by decide +kernel) (by decide +kernel)).1 (by decide +kernel) (by decide +kernel) (by decide +kernel) (by decide +kernel)

theorem met_Submissions_5 (h : Obligations.Submissions) :
    type_of% ((h.2 S6r 0 1 (desc 63 0 1 0 255 0 9 1) _ (by decide +kernel) (by decide +kernel) rfl (by decide +kernel) (by decide +kernel) (by decide +kernel)).2.1 (by decide +kernel) (by decide +kernel) (by decide +kernel) 2 (by decide +kernel) (by decide +kernel)) :=
  (h.2 S6r 0 1 (desc 63 0 1 0 255 0 9 1) _ (by decide +kernel) (by decide +kernel) rfl (by decide +kernel) (by decide +kernel) (by decide +kernel)).2.1 (by decide +kernel) (by decide +kernel) (by decide +kernel) 2 (by decide +kernel) (by decide +kernel)

noncomputable def S6r' : State := withRegs S6r [(.disDev, F.DIS_POOL_QUOTA_0, 0)]

theorem met_Submissions_6 (h : Obligations.Submissions) :
    type_of% ((h.2 S6r' 0 1 d1 _ (by decide +kernel) (by decide +kernel) rfl (by decide +kernel) (by decide +kernel) (by decide +kernel)).2.2 (.inr (.inl (by decide +kernel)))) :=
  (h.2 S6r' 0 1 d1 _ (by decide +kernel) (by decide +kernel) rfl (by decide +kernel) (by decide +kernel) (by decide +kernel)).2.2 (.inr (.inl (by decide +kernel)))

noncomputable def S6r0 : State := withRegs S6r [(.bar4 0, F.DESC_CTRL_SIZE 1, 1), (.bar4 0, F.DESC_CPL_PROD 1, 2)]

theorem met_Submissions_10 (h : Obligations.Submissions) :
    type_of% ((h.2 S6r0 0 1 d1 _ (by decide +kernel) (by decide +kernel) rfl (by decide +kernel) (by decide +kernel) (by decide +kernel)).2.2 (.inl (by decide +kernel))) :=
  (h.2 S6r0 0 1 d1 _ (by decide +kernel) (by decide +kernel) rfl (by decide +kernel) (by decide +kernel) (by decide +kernel)).2.2 (.inl (by decide +kernel))

noncomputable def S6s : State := post (post S6 (.firmwareSubmission d1)) (.firmwareSubmission (desc 128 5 1 0 200 0 10 0))

noncomputable def S6sa : State := post S6s .dispatchDecision

theorem met_Dispatch_1 (h : Obligations.Dispatch) :
    type_of% (h.1.1 S6s (by decide +kernel) (by decide +kernel)) :=
  h.1.1 S6s (by decide +kernel) (by decide +kernel)

noncomputable def S6c : State := { setSharesAct (shares S6s) S6s with pat := { S6s.pat with credits := [3,0,0,0] } }

noncomputable def c0 : Car := ((candidate S6c 0)).getD car1

theorem met_Dispatch_2 (h : Obligations.Dispatch) :
    type_of% (h.1.2.1 S6c c0 0 0 (by decide +kernel) (by decide +kernel) (by decide +kernel)) :=
  h.1.2.1 S6c c0 0 0 (by decide +kernel) (by decide +kernel) (by decide +kernel)

theorem met_Dispatch_3 (h : Obligations.Dispatch) :
    type_of% (h.1.2.2 S6c 0 c0 (by decide +kernel)) :=
  h.1.2.2 S6c 0 c0 (by decide +kernel)

noncomputable def S6h : State := S6sa

noncomputable def cc := (S6sa.pat.assigned.getD 0 (car1, 0))

/-- The route's record carries its check (R175). -/
noncomputable def S6k : State := setRoute S6sa 0 { routeOf S6sa 0 with checks := [recordCheck (carRecord S6sa cc.1), 0] }

theorem met_Dispatch_4 (h : Obligations.Dispatch) :
    type_of% ((h.2 S6k cc.1 cc.2 _ rfl).1 (by decide +kernel) (by decide +kernel) (by decide +kernel)) :=
  (h.2 S6k cc.1 cc.2 _ rfl).1 (by decide +kernel) (by decide +kernel) (by decide +kernel)

theorem met_Dispatch_5 (h : Obligations.Dispatch) :
    type_of% ((h.2 S6k cc.1 cc.2 _ rfl).2.1 false (by decide +kernel) (by decide +kernel) (.inl rfl) (by decide +kernel) (by decide +kernel) (by decide +kernel)) :=
  (h.2 S6k cc.1 cc.2 _ rfl).2.1 false (by decide +kernel) (by decide +kernel) (.inl rfl) (by decide +kernel) (by decide +kernel) (by decide +kernel)

noncomputable def S6k2 : State := setRoute S6k 0 { routeOf S6k 0 with checks := [1 + recordCheck (carRecord S6sa cc.1), 0] }

theorem met_Dispatch_8 (h : Obligations.Dispatch) :
    type_of% ((h.2 S6k2 cc.1 cc.2 _ rfl).2.1 true (by decide +kernel) (by decide +kernel) (.inr (by decide +kernel)) (by decide +kernel) (by decide +kernel) (by decide +kernel)) :=
  (h.2 S6k2 cc.1 cc.2 _ rfl).2.1 true (by decide +kernel) (by decide +kernel) (.inr (by decide +kernel)) (by decide +kernel) (by decide +kernel) (by decide +kernel)

noncomputable def S6k3 : State := withRegs S6k [(.disDev, F.DIS_CLU_STAT_CS_HOLD, 0xF)]

theorem met_Dispatch_9 (h : Obligations.Dispatch) :
    type_of% ((h.2 S6k3 cc.1 cc.2 _ rfl).2.2 true (by decide +kernel)) :=
  (h.2 S6k3 cc.1 cc.2 _ rfl).2.2 true (by decide +kernel)

noncomputable def wE (why : EndWhy) (sl : List Slice) (ch := 2) : Work := { work1 { st1 with pc := 0x1010 } with ended := some why, entries := 5, slices := sl, trig := some 7, car := { car1 with chainN := ch, chainStep := 3 } }

noncomputable def S6e (w : Work) : State := let s := setFur (setFur S6 0 { furInit with stg := 5, res := 300 }) 1 furInit; setEng s 3 { engInit with work := some w }

theorem met_Commits_1 (h : Obligations.Commits) :
    type_of% (h.1 (S6e (wE .full [⟨0,0,[]⟩])) 3 _ rfl (by decide +kernel)) :=
  h.1 (S6e (wE .full [⟨0,0,[]⟩])) 3 _ rfl (by decide +kernel)

theorem met_Commits_2 (h : Obligations.Commits) :
    type_of% (h.2.1 (S6e (wE .full [])) 3 _ .full rfl rfl (by decide +kernel) (by decide +kernel) (by decide +kernel) rfl (by decide +kernel) (by decide +kernel) (by decide +kernel) (by decide +kernel)) :=
  h.2.1 (S6e (wE .full [])) 3 _ .full rfl rfl (by decide +kernel) (by decide +kernel) (by decide +kernel) rfl (by decide +kernel) (by decide +kernel) (by decide +kernel) (by decide +kernel)

theorem met_Commits_3 (h : Obligations.Commits) :
    type_of% (h.2.1 (S6e (wE .halt [])) 3 _ .halt rfl rfl (by decide +kernel) (by decide +kernel) (by decide +kernel) rfl (by decide +kernel) (by decide +kernel) (by decide +kernel) (by decide +kernel)) :=
  h.2.1 (S6e (wE .halt [])) 3 _ .halt rfl rfl (by decide +kernel) (by decide +kernel) (by decide +kernel) rfl (by decide +kernel) (by decide +kernel) (by decide +kernel) (by decide +kernel)

noncomputable def S6ret : State := { S6 with pat := { S6.pat with retiring := [{ car1 with source := 2, release := 50, chainN := 3 }] } }

theorem met_Commits_4 (h : Obligations.Commits) :
    type_of% ((h.2.2 S6ret _ _ rfl rfl (by decide +kernel) (by decide +kernel) (by decide +kernel) 0 (by decide +kernel)).1 rfl) :=
  (h.2.2 S6ret _ _ rfl rfl (by decide +kernel) (by decide +kernel) (by decide +kernel) 0 (by decide +kernel)).1 rfl

noncomputable def S6rf : State := { S6 with pat := { S6.pat with retiring := [{ car1 with source := 2, route := 1, release := 50, chainN := 3 }] } }

theorem met_Commits_5 (h : Obligations.Commits) :
    type_of% ((h.2.2 S6rf _ _ rfl rfl (by decide +kernel) (by decide +kernel) (by decide +kernel) 1 (by decide +kernel)).2 (by decide +kernel)) :=
  (h.2.2 S6rf _ _ rfl rfl (by decide +kernel) (by decide +kernel) (by decide +kernel) 1 (by decide +kernel)).2 (by decide +kernel)

theorem met_MachineChecks_1 (h : Obligations.MachineChecks) :
    type_of% (h.1 (S6e (wE .full [])) 3 1 _ (.inl ⟨rfl, by decide +kernel, by decide +kernel⟩) (by decide +kernel) (by decide +kernel) _ rfl (by decide +kernel) (by decide +kernel)) :=
  h.1 (S6e (wE .full [])) 3 1 _ (.inl ⟨rfl, by decide +kernel, by decide +kernel⟩) (by decide +kernel) (by decide +kernel) _ rfl (by decide +kernel) (by decide +kernel)

noncomputable def S6f : State := let s := S6e { (wE .full []) with car := { car1 with fails := 3 } }; setEng s 3 { engOf s 3 with checks := [0,0] }

theorem met_MachineChecks_2 (h : Obligations.MachineChecks) :
    type_of% (h.1 S6f 3 4 (.mcHang 3) (.inr ⟨rfl, by decide +kernel, by intro w hw; cases hw; rfl⟩) (by decide +kernel) (by decide +kernel) _ rfl (by decide +kernel) (by decide +kernel)) :=
  h.1 S6f 3 4 (.mcHang 3) (.inr ⟨rfl, by decide +kernel, by intro w hw; cases hw; rfl⟩) (by decide +kernel) (by decide +kernel) _ rfl (by decide +kernel) (by decide +kernel)

theorem met_MachineChecks_3 (h : Obligations.MachineChecks) :
    type_of% (h.2.1 S6f 3 (by decide +kernel)) :=
  h.2.1 S6f 3 (by decide +kernel)

theorem met_MachineChecks_4 (h : Obligations.MachineChecks) :
    type_of% (h.2.2.2.2.2 (withRegs R [(.disDev, F.DIS_CLU_STAT_CS_HOLD, 5)]) 2 (by decide +kernel)) :=
  h.2.2.2.2.2 (withRegs R [(.disDev, F.DIS_CLU_STAT_CS_HOLD, 5)]) 2 (by decide +kernel)

theorem met_MachineChecks_5 (h : Obligations.MachineChecks) :
    type_of% (h.2.2.1 S6 3 2 (by decide +kernel) (by decide +kernel) (by decide +kernel) (by decide +kernel)) :=
  h.2.2.1 S6 3 2 (by decide +kernel) (by decide +kernel) (by decide +kernel) (by decide +kernel)

noncomputable def S6due : State := setEng S6k cc.2 { engOf S6k cc.2 with due := true }

theorem met_MachineChecks_6 (h : Obligations.MachineChecks) :
    type_of% (h.2.2.2.2.1 S6due true cc.1 cc.2 _ rfl (by decide +kernel) (by decide +kernel) (by decide +kernel) (by decide +kernel) (by decide +kernel)) :=
  h.2.2.2.2.1 S6due true cc.1 cc.2 _ rfl (by decide +kernel) (by decide +kernel) (by decide +kernel) (by decide +kernel) (by decide +kernel)

theorem met_MachineChecks_7 (h : Obligations.MachineChecks) :
    type_of% (h.2.2.2.1 S6 3 6 (.inr (by decide))) :=
  h.2.2.2.1 S6 3 6 (.inr (by decide))

theorem met_PoolAndShares_1 (h : Obligations.PoolAndShares) :
    type_of% (h.1 S6sa 4 (by decide +kernel)) :=
  h.1 S6sa 4 (by decide +kernel)

theorem met_PoolAndShares_2 (h : Obligations.PoolAndShares) :
    type_of% (h.2.1 S6sa 1 (by decide +kernel) (by decide +kernel)) :=
  h.2.1 S6sa 1 (by decide +kernel) (by decide +kernel)

theorem met_PoolAndShares_3 (h : Obligations.PoolAndShares) :
    type_of% ((h.2.2 R 4 0x2020 _ _ _ _ (by decide +kernel) rfl rfl rfl rfl).1 (by decide +kernel) (by decide +kernel)) :=
  (h.2.2 R 4 0x2020 _ _ _ _ (by decide +kernel) rfl rfl rfl rfl).1 (by decide +kernel) (by decide +kernel)

theorem met_PoolAndShares_4 (h : Obligations.PoolAndShares) :
    type_of% ((h.2.2 R 4 0x2041 _ _ _ _ (by decide +kernel) rfl rfl rfl rfl).2 (by decide +kernel)) :=
  (h.2.2 R 4 0x2041 _ _ _ _ (by decide +kernel) rfl rfl rfl rfl).2 (by decide +kernel)

noncomputable def wSl : Work := wE .full [⟨0, 0, [(0, ⟨5, none⟩), (1, ⟨6, none⟩), (0, ⟨7, none⟩)]⟩]

theorem met_SluiceAndPointers_1 (h : Obligations.SluiceAndPointers) :
    type_of% (h.1 (S6e wSl) 0 3 [] _ _ _ (by decide +kernel) rfl rfl (by decide +kernel) (by decide +kernel)) :=
  h.1 (S6e wSl) 0 3 [] _ _ _ (by decide +kernel) rfl rfl (by decide +kernel) (by decide +kernel)

noncomputable def S6p : State := setFur R 3 { furInit with toRead := [⟨5, 6, 7, 0, 0, 0⟩], holdRead := some ⟨8, 9, 10, 0, 0, 0⟩, toWrite := [⟨3, 1, 2, 4, 5, 6⟩] }

theorem met_SluiceAndPointers_2 (h : Obligations.SluiceAndPointers) :
    type_of% (h.2.1 S6p 3 _ _ rfl (by decide +kernel)) :=
  h.2.1 S6p 3 _ _ rfl (by decide +kernel)

theorem met_SluiceAndPointers_3 (h : Obligations.SluiceAndPointers) :
    type_of% (h.2.2.1 S6p 3 _ _ rfl (by decide +kernel)) :=
  h.2.2.1 S6p 3 _ _ rfl (by decide +kernel)

theorem met_SluiceAndPointers_4 (h : Obligations.SluiceAndPointers) :
    type_of% (h.2.2.2 (setFur R 3 { furOf S6p 3 with resetPend := true }) 3 true (by decide +kernel)) :=
  h.2.2.2 (setFur R 3 { furOf S6p 3 with resetPend := true }) 3 true (by decide +kernel)

theorem met_Submissions_7 (h : Obligations.Submissions) :
    type_of% ((h.1 S6 (desc 100 1 1 0 255 0 9 1) _ (by decide +kernel) rfl).2.2.1 (by decide +kernel) 1 (by decide +kernel) (by decide +kernel)) :=
  (h.1 S6 (desc 100 1 1 0 255 0 9 1) _ (by decide +kernel) rfl).2.2.1 (by decide +kernel) 1 (by decide +kernel) (by decide +kernel)

theorem met_Submissions_8 (h : Obligations.Submissions) :
    type_of% ((h.1 S6 (desc 63 0 1 0 255 0 9 1) _ (by decide +kernel) rfl).2.2.1 (by decide +kernel) 2 (by decide +kernel) (by decide +kernel)) :=
  (h.1 S6 (desc 63 0 1 0 255 0 9 1) _ (by decide +kernel) rfl).2.2.1 (by decide +kernel) 2 (by decide +kernel) (by decide +kernel)

theorem met_Submissions_9 (h : Obligations.Submissions) :
    type_of% ((h.1 S6 (desc 100 0 1 1 255 0 9 1) _ (by decide +kernel) rfl).2.2.1 (by decide +kernel) 3 (by decide +kernel) (by decide +kernel)) :=
  (h.1 S6 (desc 100 0 1 1 255 0 9 1) _ (by decide +kernel) rfl).2.2.1 (by decide +kernel) 3 (by decide +kernel) (by decide +kernel)

theorem met_Dispatch_6 (h : Obligations.Dispatch) :
    type_of% ((h.1.2.2 S6c 0 c0 (by decide +kernel)).2.2.1 (by decide +kernel)) :=
  (h.1.2.2 S6c 0 c0 (by decide +kernel)).2.2.1 (by decide +kernel)

theorem met_Dispatch_7 (h : Obligations.Dispatch) :
    type_of% ((h.1.2.2 S6c 0 c0 (by decide +kernel)).2.2.2.2 (by decide +kernel) (by decide +kernel) 0 (by decide +kernel)) :=
  (h.1.2.2 S6c 0 c0 (by decide +kernel)).2.2.2.2 (by decide +kernel) (by decide +kernel) 0 (by decide +kernel)

end Ch06

/-! Chapter 7: the sluice and vectors. -/

namespace Ch07

noncomputable def run1 : State := site1 3

noncomputable def cells (l : List (Nat × Nat)) : Tab Cell := l.map fun x => (x.1, ⟨x.2, none⟩)

noncomputable def furA (l : List (Nat × Nat)) (n : Nat) : Fur := { furInit with cells := cells l, vis := n, visR := n, stg := n, res := n }

noncomputable def fs (l : List (Nat × Nat)) (n : Nat) (s : State := run1) : State := setFur (setFur s 0 (furA l n)) 5 (furA l n)

noncomputable def S7 := fs [(0, 0x60000), (1, 0x123), (2, 0x4000077)] 3

noncomputable def pk (s : State) : Peek := (peek s 0).getD ⟨⟨0, none⟩, rptrInit, rptrInit, none, false⟩

theorem met_EntryFetches_1 (h : Obligations.EntryFetches) :
    type_of% (h.1 S7 1 (pk S7) (by decide +kernel) (by decide +kernel)) :=
  h.1 S7 1 (pk S7) (by decide +kernel) (by decide +kernel)

noncomputable def S7b := fs [(1, 0x123), (2, 0x4000077)] 3 (withRegs run1 [(sitePage run1 1, F.CMP_SITE_STATE_HALT_PEND 1, 1)])

noncomputable def at2 (s : State) : State := setFur (setFur s 0 { furOf s 0 with seq := { rptrInit with rd := 1 }, now := { rptrInit with rd := 1 } }) 5 { furOf s 5 with seq := { rptrInit with rd := 1 }, now := { rptrInit with rd := 1 } }

noncomputable def S7h := at2 S7b

theorem met_EntryFetches_2 (h : Obligations.EntryFetches) :
    type_of% ((h.2.2.2.1 S7h 1 (pk S7h) (by decide +kernel) (by decide +kernel) (by decide +kernel) (by decide +kernel) (by decide +kernel)).1 (by decide +kernel)) :=
  (h.2.2.2.1 S7h 1 (pk S7h) (by decide +kernel) (by decide +kernel) (by decide +kernel) (by decide +kernel) (by decide +kernel)).1 (by decide +kernel)

noncomputable def S7n := at2 (fs [(1, 0x123), (2, 0x4000077)] 3)

theorem met_EntryFetches_3 (h : Obligations.EntryFetches) :
    type_of% ((h.2.2.2.1 S7n 1 (pk S7n) (by decide +kernel) (by decide +kernel) (by decide +kernel) (by decide +kernel) (by decide +kernel)).2.1 (by decide +kernel) (by decide +kernel) (by decide +kernel)) :=
  (h.2.2.2.1 S7n 1 (pk S7n) (by decide +kernel) (by decide +kernel) (by decide +kernel) (by decide +kernel) (by decide +kernel)).2.1 (by decide +kernel) (by decide +kernel) (by decide +kernel)

noncomputable def alt1 : AltHead := ⟨1, 0, false, recInit 0x4000, true, true, 9, { recInit 0x5000 with segNum := some 4 }, recInit 0x4800, none, [], []⟩

noncomputable def S7j := let s := setSite S7n 1 { siteOf S7n 1 with req1 := some ⟨2, false⟩ }; let s := setRoute (setRoute s 0 { routeOf s 0 with heads := [alt1] }) 5 { routeOf s 5 with heads := [alt1] }
  setFur (setFur s 0 { furOf s 0 with half1 := { halfInit with vis := 9, stg := 9, res := 9, bound := some 0 } }) 5 { furOf s 5 with half1 := { halfInit with vis := 9, stg := 9, res := 9, bound := some 0 } }

theorem met_EntryFetches_4 (h : Obligations.EntryFetches) :
    type_of% ((h.2.2.2.1 S7j 1 (pk S7j) (by decide +kernel) (by decide +kernel) (by decide +kernel) (by decide +kernel) (by decide +kernel)).2.2.1 (by decide +kernel) (2, false) (by decide +kernel) (by decide +kernel) (by decide +kernel)) :=
  (h.2.2.2.1 S7j 1 (pk S7j) (by decide +kernel) (by decide +kernel) (by decide +kernel) (by decide +kernel) (by decide +kernel)).2.2.1 (by decide +kernel) (2, false) (by decide +kernel) (by decide +kernel) (by decide +kernel)

noncomputable def S7d := setSite S7n 1 { siteOf S7n 1 with req1 := some ⟨2, false⟩ }

theorem met_EntryFetches_5 (h : Obligations.EntryFetches) :
    type_of% ((h.2.2.2.1 S7d 1 (pk S7d) (by decide +kernel) (by decide +kernel) (by decide +kernel) (by decide +kernel) (by decide +kernel)).2.2.2 (by decide +kernel) (2, false) (by decide +kernel) (by decide +kernel) (by decide +kernel)) :=
  (h.2.2.2.1 S7d 1 (pk S7d) (by decide +kernel) (by decide +kernel) (by decide +kernel) (by decide +kernel) (by decide +kernel)).2.2.2 (by decide +kernel) (2, false) (by decide +kernel) (by decide +kernel) (by decide +kernel)

theorem met_EntryFetches_6 (h : Obligations.EntryFetches) :
    type_of% (h.2.2.2.2.1 S7 1 5 (pk S7) (by decide +kernel) (by decide +kernel) (by decide +kernel)) :=
  h.2.2.2.2.1 S7 1 5 (pk S7) (by decide +kernel) (by decide +kernel) (by decide +kernel)

noncomputable def S7mt : State := let c : Tab Cell := [(1, ⟨0x123, some (⟨false, false, true, false, false, 0, 0, 0, 0, 0⟩ : Tag)⟩), (2, ⟨0x4000077, none⟩)]
  at2 (setFur (setFur run1 0 { furA [] 3 with cells := c }) 5 { furA [] 3 with cells := c })

theorem met_EntryFetches_9 (h : Obligations.EntryFetches) :
    type_of% (h.2.1 S7mt 1 (pk S7mt) (by decide +kernel) (by decide +kernel) (by decide +kernel)) :=
  h.2.1 S7mt 1 (pk S7mt) (by decide +kernel) (by decide +kernel) (by decide +kernel)

noncomputable def S7v (l : List Pres) (c : Option Cur := none) : State := setSite run1 1 { siteOf run1 1 with queue := l, cur := c, nextVn := 12 }

noncomputable def p1 : Pres := ⟨[(0, 0x123), (5, 0x123)], 0x60123, none, none, false, [], false, false⟩

theorem met_VectorPeriods_1 (h : Obligations.VectorPeriods) :
    type_of% ((h.1 (S7v [p1]) 1 (by decide +kernel) (by decide +kernel) (by decide +kernel) (by decide +kernel) (by decide +kernel)).1 p1 [] rfl (by decide +kernel) (by decide +kernel) (by decide +kernel)) :=
  (h.1 (S7v [p1]) 1 (by decide +kernel) (by decide +kernel) (by decide +kernel) (by decide +kernel) (by decide +kernel)).1 p1 [] rfl (by decide +kernel) (by decide +kernel) (by decide +kernel)

theorem met_EntryFetches_10 (h : Obligations.EntryFetches) :
    type_of% (h.2.2.1 (setSite run1 1 { siteOf run1 1 with redo := [p1] }) 1 p1 [] (by decide +kernel) (by decide +kernel) (by decide +kernel) (by decide +kernel)) :=
  h.2.2.1 (setSite run1 1 { siteOf run1 1 with redo := [p1] }) 1 p1 [] (by decide +kernel) (by decide +kernel) (by decide +kernel) (by decide +kernel)

noncomputable def S7u : State := let s := S7v []; setSite s 1 { siteOf s 1 with args := { (siteOf s 1).args with underrunStop := true } }

theorem met_VectorPeriods_2 (h : Obligations.VectorPeriods) :
    type_of% ((h.1 S7u 1 (by decide +kernel) (by decide +kernel) (by decide +kernel) (by decide +kernel) (by decide +kernel)).2 (by decide +kernel) (by decide +kernel)) :=
  (h.1 S7u 1 (by decide +kernel) (by decide +kernel) (by decide +kernel) (by decide +kernel) (by decide +kernel)).2 (by decide +kernel) (by decide +kernel)

noncomputable def cur1 : Cur := ⟨{ p1 with last := [4] }, 2, 11, 100, 50, .ordinary, false, []⟩

theorem met_VectorPeriods_3 (h : Obligations.VectorPeriods) :
    type_of% (h.2.1 (S7v [] (some cur1)) 1 cur1 (by decide +kernel) (by decide +kernel) rfl (by decide +kernel) (by decide +kernel) (by decide +kernel) (by decide +kernel) (by decide +kernel)) :=
  h.2.1 (S7v [] (some cur1)) 1 cur1 (by decide +kernel) (by decide +kernel) rfl (by decide +kernel) (by decide +kernel) (by decide +kernel) (by decide +kernel) (by decide +kernel)

theorem met_VectorPeriods_4 (h : Obligations.VectorPeriods) :
    type_of% (h.2.2.1 (S7v [] (some { cur1 with left := 0 })) 1 _ (by decide +kernel) (by decide +kernel) rfl (by decide +kernel) (by decide +kernel) (by decide +kernel) (by decide +kernel) (by decide +kernel) (by decide +kernel) (by decide +kernel)) :=
  h.2.2.1 (S7v [] (some { cur1 with left := 0 })) 1 _ (by decide +kernel) (by decide +kernel) rfl (by decide +kernel) (by decide +kernel) (by decide +kernel) (by decide +kernel) (by decide +kernel) (by decide +kernel) (by decide +kernel)

theorem met_VectorPeriods_5 (h : Obligations.VectorPeriods) :
    type_of% (h.2.2.2.2.1 (site1 2) 1 (by decide +kernel) (by decide +kernel)) :=
  h.2.2.2.2.1 (site1 2) 1 (by decide +kernel) (by decide +kernel)

noncomputable def S7w : State := setSite run1 1 { siteOf run1 1 with stops := [7], stopBy := some 0 }

theorem met_VectorPeriods_7 (h : Obligations.VectorPeriods) :
    type_of% (h.2.2.2.1 S7w 1 7 (by decide +kernel) (by decide +kernel) (by decide +kernel) (by decide +kernel) (by decide +kernel) (by decide +kernel)) :=
  h.2.2.2.1 S7w 1 7 (by decide +kernel) (by decide +kernel) (by decide +kernel) (by decide +kernel) (by decide +kernel) (by decide +kernel)

noncomputable def Son : State := withRegs R ((List.range 64).map fun q => (.bnk (q/4), F.FUR_CTRL_IDLE_TS (q%4), 3))

noncomputable def S7m (d : Option Bool) (lim : Nat) : State := let s := S7v [] (some { cur1 with left := 0, pres := p1 }); setSite s 1 { siteOf s 1 with pass := some ⟨3, lim, true, d == some false, d, 5⟩, block := [p1] }

theorem met_MatchBlocks_1 (h : Obligations.MatchBlocks) :
    type_of% (h.1 (S7m none 9) 1 _ rfl (by decide +kernel) (by decide +kernel) (by decide +kernel)) :=
  h.1 (S7m none 9) 1 _ rfl (by decide +kernel) (by decide +kernel) (by decide +kernel)

theorem met_MatchBlocks_2 (h : Obligations.MatchBlocks) :
    type_of% ((h.2 (S7m (some true) 9) 1 _ _ (by decide +kernel) (by decide +kernel) rfl (by decide +kernel) rfl (by decide +kernel)).1 (by decide +kernel) (by decide +kernel) (by decide +kernel)) :=
  (h.2 (S7m (some true) 9) 1 _ _ (by decide +kernel) (by decide +kernel) rfl (by decide +kernel) rfl (by decide +kernel)).1 (by decide +kernel) (by decide +kernel) (by decide +kernel)

theorem met_MatchBlocks_3 (h : Obligations.MatchBlocks) :
    type_of% ((h.2 (S7m (some false) 9) 1 _ _ (by decide +kernel) (by decide +kernel) rfl (by decide +kernel) rfl (by decide +kernel)).2.1 (by decide +kernel) (by decide +kernel)) :=
  (h.2 (S7m (some false) 9) 1 _ _ (by decide +kernel) (by decide +kernel) rfl (by decide +kernel) rfl (by decide +kernel)).2.1 (by decide +kernel) (by decide +kernel)

theorem met_MatchBlocks_4 (h : Obligations.MatchBlocks) :
    type_of% ((h.2 (S7m (some false) 3) 1 _ _ (by decide +kernel) (by decide +kernel) rfl (by decide +kernel) rfl (by decide +kernel)).2.2 (by decide +kernel) (by decide +kernel) (by decide +kernel)) :=
  (h.2 (S7m (some false) 3) 1 _ _ (by decide +kernel) (by decide +kernel) rfl (by decide +kernel) rfl (by decide +kernel)).2.2 (by decide +kernel) (by decide +kernel) (by decide +kernel)

noncomputable def stepped : State := setFur S7 5 { furOf S7 5 with steps := [rptrInit, rptrInit] }

theorem met_EntryFetches_7 (h : Obligations.EntryFetches) :
    type_of% (h.2.2.2.2.2.2 stepped 5 rptrInit [rptrInit] (by decide +kernel)) :=
  h.2.2.2.2.2.2 stepped 5 rptrInit [rptrInit] (by decide +kernel)

theorem met_EntryFetches_8 (h : Obligations.EntryFetches) :
    type_of% (h.2.2.2.2.2.1 stepped 1) :=
  h.2.2.2.2.2.1 stepped 1

theorem met_VectorPeriods_6 (h : Obligations.VectorPeriods) :
    type_of% (h.2.2.2.2.2 R 5 (by decide +kernel) (by decide +kernel) (by decide +kernel) (by decide +kernel)) :=
  h.2.2.2.2.2 R 5 (by decide +kernel) (by decide +kernel) (by decide +kernel) (by decide +kernel)

end Ch07

/-! Chapter 8: banks and pins. -/

namespace Ch08

theorem met_TimingSets_1 (h : Obligations.TimingSets) :
    type_of% ((h.1 owned 0 0 0x105 (by decide +kernel) (by decide +kernel) (by decide +kernel)).1 (by decide +kernel) (by decide +kernel) (by decide +kernel)) :=
  (h.1 owned 0 0 0x105 (by decide +kernel) (by decide +kernel) (by decide +kernel)).1 (by decide +kernel) (by decide +kernel) (by decide +kernel)

theorem met_TimingSets_2 (h : Obligations.TimingSets) :
    type_of% ((h.1 owned 0 0 0x205 (by decide +kernel) (by decide +kernel) (by decide +kernel)).2.1 (by decide +kernel) (by decide +kernel)) :=
  (h.1 owned 0 0 0x205 (by decide +kernel) (by decide +kernel) (by decide +kernel)).2.1 (by decide +kernel) (by decide +kernel)

theorem met_TimingSets_3 (h : Obligations.TimingSets) :
    type_of% ((h.1 owned 0 0 0x305 (by decide +kernel) (by decide +kernel) (by decide +kernel)).2.2 (.tsLoad 0 0 0x305) 2 (by decide +kernel)) :=
  (h.1 owned 0 0 0x305 (by decide +kernel) (by decide +kernel) (by decide +kernel)).2.2 (.tsLoad 0 0 0x305) 2 (by decide +kernel)

theorem met_TimingSets_4 (h : Obligations.TimingSets) :
    type_of% ((h.1 (site1 2) 0 0 0x105 (by decide +kernel) (by decide +kernel) (by decide +kernel)).2.2 (.tsLoad 0 0 0x105) 1 (by decide +kernel)) :=
  (h.1 (site1 2) 0 0 0x105 (by decide +kernel) (by decide +kernel) (by decide +kernel)).2.2 (.tsLoad 0 0 0x105) 1 (by decide +kernel)

noncomputable def busyTs := post owned (.tsRead 0 0 0x205)

theorem met_TimingSets_5 (h : Obligations.TimingSets) :
    type_of% (h.2.1 busyTs 0 0 0x106 (.tsLoad 0 0 0x106) (by decide +kernel) (by decide +kernel) (by decide +kernel) (by decide +kernel)) :=
  h.2.1 busyTs 0 0 0x106 (.tsLoad 0 0 0x106) (by decide +kernel) (by decide +kernel) (by decide +kernel) (by decide +kernel)

noncomputable def rdDone := post busyTs (.tsDone 0)

theorem met_TimingSets_6 (h : Obligations.TimingSets) :
    type_of% (h.2.2.1 (post rdDone (.tsLoad 0 0 0x107)) 0 7 (by decide +kernel) (by decide +kernel) (by decide +kernel) 0 0 (by decide +kernel) (by decide +kernel) (by decide +kernel)) :=
  h.2.2.1 (post rdDone (.tsLoad 0 0 0x107)) 0 7 (by decide +kernel) (by decide +kernel) (by decide +kernel) 0 0 (by decide +kernel) (by decide +kernel) (by decide +kernel)

noncomputable def bk (s : State) : State := setBank s 0 { bankOf s 0 with tsets := [(5, { setReset with period := 2^40 + 77, pins := [{ pinRecReset with d1 := 2^33+5, fmt := 1 }] })] }

theorem met_TimingSets_7 (h : Obligations.TimingSets) :
    type_of% (h.2.2.2 busyTs 0 5 (by decide +kernel) (by decide +kernel) (by decide +kernel)) :=
  h.2.2.2 busyTs 0 5 (by decide +kernel) (by decide +kernel) (by decide +kernel)

theorem met_BankControl_1 (h : Obligations.BankControl) :
    type_of% ((h.2.1 (bk owned) 0 0 1 (by decide +kernel) (by decide +kernel) (by decide +kernel) (by decide +kernel)).1 (by decide +kernel)) :=
  (h.2.1 (bk owned) 0 0 1 (by decide +kernel) (by decide +kernel) (by decide +kernel) (by decide +kernel)).1 (by decide +kernel)

theorem met_BankControl_2 (h : Obligations.BankControl) :
    type_of% ((h.2.1 (site1 2) 0 0 1 (by decide +kernel) (by decide +kernel) (by decide +kernel) (by decide +kernel)).2 (by decide +kernel)) :=
  (h.2.1 (site1 2) 0 0 1 (by decide +kernel) (by decide +kernel) (by decide +kernel) (by decide +kernel)).2 (by decide +kernel)

theorem met_BankControl_3 (h : Obligations.BankControl) :
    type_of% (h.2.2.1 (bk owned) 0) :=
  h.2.2.1 (bk owned) 0

noncomputable def fw := 1 + 3 * 2 + 2 * 2^8 + 3 * 2^12 + 4 * 2^16

theorem met_BankControl_4 (h : Obligations.BankControl) :
    type_of% ((h.2.2.2.1 owned 0 0 fw (by decide +kernel) (by decide +kernel)).1 (by decide +kernel) (by decide +kernel) (by decide +kernel) (by decide +kernel) (by decide +kernel)) :=
  (h.2.2.2.1 owned 0 0 fw (by decide +kernel) (by decide +kernel)).1 (by decide +kernel) (by decide +kernel) (by decide +kernel) (by decide +kernel) (by decide +kernel)

theorem met_BankControl_5 (h : Obligations.BankControl) :
    type_of% ((h.2.2.2.1 owned 0 0 (fw + 2 * 2^16) (by decide +kernel) (by decide +kernel)).2 (by decide +kernel)) :=
  (h.2.2.2.1 owned 0 0 (fw + 2 * 2^16) (by decide +kernel) (by decide +kernel)).2 (by decide +kernel)

noncomputable def Sf := post owned (.followWrite 0 0 fw)

/-- A loop with its edges waiting and the one before them. -/
noncomputable def Sfe (l : List Nat) (v : Option Nat) (s : State := Sf) : State := setBank s 0 { bankOf s 0 with follow := { (bankOf s 0).follow with edges := l, last := v, seen := v.isSome, inBand := 1023 } }

theorem met_BankControl_6 (h : Obligations.BankControl) :
    type_of% (h.2.2.2.2.1 (Sfe [2^40 + 2^31] (some (2^40))) 0 (2^40 + 2^31) _ _ [] (by decide +kernel) (by decide +kernel) rfl rfl) :=
  h.2.2.2.2.1 (Sfe [2^40 + 2^31] (some (2^40))) 0 (2^40 + 2^31) _ _ [] (by decide +kernel) (by decide +kernel) rfl rfl

theorem met_BankControl_7 (h : Obligations.BankControl) :
    type_of% (h.2.2.2.2.1 (Sfe [2^61] none) 0 (2^61) _ _ [] (by decide +kernel) (by decide +kernel) rfl rfl) :=
  h.2.2.2.2.1 (Sfe [2^61] none) 0 (2^61) _ _ [] (by decide +kernel) (by decide +kernel) rfl rfl

noncomputable def Sfh := Sfe [2^42] none (post (Sfe [] (some (2^40))) (.followHold 0))

theorem met_BankControl_8 (h : Obligations.BankControl) :
    type_of% (h.2.2.2.2.1 Sfh 0 (2^42) _ _ [] (by decide +kernel) (by decide +kernel) rfl rfl) :=
  h.2.2.2.2.1 Sfh 0 (2^42) _ _ [] (by decide +kernel) (by decide +kernel) rfl rfl

theorem met_BankControl_9 (h : Obligations.BankControl) :
    type_of% (h.2.2.2.2.2.1 Sf 0 (by decide +kernel) (by decide +kernel) (by decide +kernel)) :=
  h.2.2.2.2.2.1 Sf 0 (by decide +kernel) (by decide +kernel) (by decide +kernel)

theorem met_BankControl_10 (h : Obligations.BankControl) :
    type_of% (h.2.2.2.2.2.2.1 owned 0 0 3 0xA3002 2 48 10 (by decide +kernel) (by decide +kernel) (by decide +kernel) (by decide +kernel) (by decide +kernel) (by decide +kernel)) :=
  h.2.2.2.2.2.2.1 owned 0 0 3 0xA3002 2 48 10 (by decide +kernel) (by decide +kernel) (by decide +kernel) (by decide +kernel) (by decide +kernel) (by decide +kernel)

theorem met_BankControl_11 (h : Obligations.BankControl) :
    type_of% (h.2.2.2.2.2.2.1 owned 0 0 3 0x173002 2 48 23 (by decide +kernel) (by decide +kernel) (by decide +kernel) (by decide +kernel) (by decide +kernel) (by decide +kernel)) :=
  h.2.2.2.2.2.2.1 owned 0 0 3 0x173002 2 48 23 (by decide +kernel) (by decide +kernel) (by decide +kernel) (by decide +kernel) (by decide +kernel) (by decide +kernel)

noncomputable def Sp := post owned (.complementPairOpen 4 (pageBase (.bnk 0) + 0x10c) 0x15)

theorem met_BankControl_12 (h : Obligations.BankControl) :
    type_of% (h.2.2.2.2.2.2.2 Sp 4 0 0xFFFFFFEA 0x15 (by decide +kernel) (by decide +kernel) (by decide +kernel)) :=
  h.2.2.2.2.2.2.2 Sp 4 0 0xFFFFFFEA 0x15 (by decide +kernel) (by decide +kernel) (by decide +kernel)

theorem met_BankControl_13 (h : Obligations.BankControl) :
    type_of% (h.2.2.2.2.2.2.2 Sp 4 0 0xFFFFFFEB 0x15 (by decide +kernel) (by decide +kernel) (by decide +kernel)) :=
  h.2.2.2.2.2.2.2 Sp 4 0 0xFFFFFFEB 0x15 (by decide +kernel) (by decide +kernel) (by decide +kernel)

noncomputable def pe (s : State) : State := withRegs s [(.bnk 0, F.BNK_PEC_CFG_EN, 1), (.bnk 0, F.BNK_PEC_TX_LO, 0x1234)]

theorem met_PeControlPorts_1 (h : Obligations.PeControlPorts) :
    type_of% ((h.1 (pe owned) 0 0 0x1000010 (by decide +kernel) (by decide +kernel) (by decide +kernel)).1 (by decide +kernel) (by decide +kernel) (by decide +kernel) (by decide +kernel) (by decide +kernel)) :=
  (h.1 (pe owned) 0 0 0x1000010 (by decide +kernel) (by decide +kernel) (by decide +kernel)).1 (by decide +kernel) (by decide +kernel) (by decide +kernel) (by decide +kernel) (by decide +kernel)

theorem met_PeControlPorts_2 (h : Obligations.PeControlPorts) :
    type_of% ((h.1 (pe (site1 1)) 0 0 0x1010120 (by decide +kernel) (by decide +kernel) (by decide +kernel)).1 (by decide +kernel) (by decide +kernel) (by decide +kernel) (by decide +kernel) (by decide +kernel)) :=
  (h.1 (pe (site1 1)) 0 0 0x1010120 (by decide +kernel) (by decide +kernel) (by decide +kernel)).1 (by decide +kernel) (by decide +kernel) (by decide +kernel) (by decide +kernel) (by decide +kernel)

theorem met_PeControlPorts_3 (h : Obligations.PeControlPorts) :
    type_of% ((h.1 (pe owned) 0 0 7 (by decide +kernel) (by decide +kernel) (by decide +kernel)).2 (by decide +kernel)) :=
  (h.1 (pe owned) 0 0 7 (by decide +kernel) (by decide +kernel) (by decide +kernel)).2 (by decide +kernel)

noncomputable def q1 := post (pe owned) (.pecTxPush 0 0 0x1000010)

theorem met_PeControlPorts_4 (h : Obligations.PeControlPorts) :
    type_of% ((h.2.1 q1 0 _ [] _ (by decide +kernel) rfl rfl (by decide +kernel) rfl).1 rfl) :=
  (h.2.1 q1 0 _ [] _ (by decide +kernel) rfl rfl (by decide +kernel) rfl).1 rfl

noncomputable def q2 (st : Nat) (nv : Nat) := let s := post (pe (site1 1)) (.pecTxPush 0 0 0x1010120); let s := setSite s 1 { siteOf s 1 with nextVn := nv }; setSiteState s 1 st

theorem met_PeControlPorts_5 (h : Obligations.PeControlPorts) :
    type_of% ((h.2.1 (q2 3 5) 0 _ [] _ (by decide +kernel) rfl rfl (by decide +kernel) rfl).2.1 1 0 (by decide +kernel) (by decide +kernel) (by decide +kernel)) :=
  (h.2.1 (q2 3 5) 0 _ [] _ (by decide +kernel) rfl rfl (by decide +kernel) rfl).2.1 1 0 (by decide +kernel) (by decide +kernel) (by decide +kernel)

theorem met_PeControlPorts_6 (h : Obligations.PeControlPorts) :
    type_of% ((h.2.1 (q2 3 0) 0 _ [] _ (by decide +kernel) rfl rfl (by decide +kernel) rfl).2.2.1 1 0 (by decide +kernel) (by decide +kernel) (by decide +kernel)) :=
  (h.2.1 (q2 3 0) 0 _ [] _ (by decide +kernel) rfl rfl (by decide +kernel) rfl).2.2.1 1 0 (by decide +kernel) (by decide +kernel) (by decide +kernel)

theorem met_PeControlPorts_7 (h : Obligations.PeControlPorts) :
    type_of% ((h.2.1 (q2 1 0) 0 _ [] _ (by decide +kernel) rfl rfl (by decide +kernel) rfl).2.2.2 1 0 (by decide +kernel) (by decide +kernel)) :=
  (h.2.1 (q2 1 0) 0 _ [] _ (by decide +kernel) rfl rfl (by decide +kernel) rfl).2.2.2 1 0 (by decide +kernel) (by decide +kernel)

noncomputable def q3 := post q1 (.pecTransferStart 0)

theorem met_PeControlPorts_8 (h : Obligations.PeControlPorts) :
    type_of% (h.2.2.1 q3 0 0x777777 _ (by decide +kernel) rfl) :=
  h.2.2.1 q3 0 0x777777 _ (by decide +kernel) rfl

noncomputable def q4 := post q3 (.pecTransferEnd 0 0x777777)

theorem met_PeControlPorts_9 (h : Obligations.PeControlPorts) :
    type_of% ((h.2.2.2.1 q4 0 0 (by decide +kernel) (by decide +kernel) (by decide +kernel)).1 0x7777 [] (by decide +kernel)) :=
  (h.2.2.2.1 q4 0 0 (by decide +kernel) (by decide +kernel) (by decide +kernel)).1 0x7777 [] (by decide +kernel)

theorem met_PeControlPorts_10 (h : Obligations.PeControlPorts) :
    type_of% ((h.2.2.2.2 q1 0 0 1 (by decide +kernel) (by decide +kernel) (by decide +kernel) (by decide +kernel)).1 (by decide +kernel)) :=
  (h.2.2.2.2 q1 0 0 1 (by decide +kernel) (by decide +kernel) (by decide +kernel) (by decide +kernel)).1 (by decide +kernel)

theorem met_PeControlPorts_11 (h : Obligations.PeControlPorts) :
    type_of% ((h.2.2.2.2 q1 0 0 0x50 (by decide +kernel) (by decide +kernel) (by decide +kernel) (by decide +kernel)).2 (by decide +kernel) (by decide +kernel)) :=
  (h.2.2.2.2 q1 0 0 0x50 (by decide +kernel) (by decide +kernel) (by decide +kernel) (by decide +kernel)).2 (by decide +kernel) (by decide +kernel)

theorem met_BankControl_14 (h : Obligations.BankControl) :
    type_of% (h.1.2.1 3 (by decide +kernel)) :=
  h.1.2.1 3 (by decide +kernel)

theorem met_BankControl_15 (h : Obligations.BankControl) :
    type_of% (h.1.2.2.2 rdDone 0 (by decide +kernel) (by decide +kernel) (by decide +kernel)) :=
  h.1.2.2.2 rdDone 0 (by decide +kernel) (by decide +kernel) (by decide +kernel)

theorem met_PeControlPorts_12 (h : Obligations.PeControlPorts) :
    type_of% ((h.2.2.2.1 q1 0 0 (by decide +kernel) (by decide +kernel) (by decide +kernel)).2 (by decide +kernel)) :=
  (h.2.2.2.1 q1 0 0 (by decide +kernel) (by decide +kernel) (by decide +kernel)).2 (by decide +kernel)

theorem met_TimingSets_8 (h : Obligations.TimingSets) :
    type_of% (h.2.2.1 (post owned (.tsLoad 0 0 0x107)) 0 7 (by decide +kernel) (by decide +kernel) (by decide +kernel) 3 0 (by decide +kernel) (by decide +kernel) (by decide +kernel)) :=
  h.2.2.1 (post owned (.tsLoad 0 0 0x107)) 0 7 (by decide +kernel) (by decide +kernel) (by decide +kernel) 3 0 (by decide +kernel) (by decide +kernel) (by decide +kernel)

end Ch08

/-! Chapter 9: strobes and the ledger. -/

namespace Ch09

noncomputable def strobe1 : Strobe := { site := 1, vn := 5000, code := 5, sym := 1, ps := 0, ts := 2, cls := .ordinary, pass := 3, window := false, noSample := false, store := true, due := 7 }

noncomputable def runS : State := let s := site1 3; let s := withRegs s [(.cmpPart 0, F.CMP_LED_CTRL_EN, 1)]; setSite s 1 { siteOf s 1 with args := { (siteOf s 1).args with stopFF := true }, pass := some ⟨3, 9, false, false, none, 0⟩ }

noncomputable def wSt (st : Strobe) : State := let s := setPin runS 2 { pinInit with strobes := [st] }; { s with pin := { s.pin with fails := tabPut ⟨0,0,0,0,0,0,0,0⟩ s.pin.fails (vecKey 0 5000) ⟨7, 5000, 1, 0, 0, 0, 0, 2⟩, vecs := tabPut (0,false) s.pin.vecs (vecKey 1 5000) (1, false) } }

theorem met_Judgements_1 (h : Obligations.Judgements) :
    type_of% ((h.1 (wSt strobe1) 2 0 0 none strobe1 [] (by decide +kernel) rfl (by decide +kernel)).1 (by decide +kernel) (by decide +kernel)) :=
  (h.1 (wSt strobe1) 2 0 0 none strobe1 [] (by decide +kernel) rfl (by decide +kernel)).1 (by decide +kernel) (by decide +kernel)

theorem met_Judgements_2 (h : Obligations.Judgements) :
    type_of% ((h.1 (wSt strobe1) 2 1 0 none strobe1 [] (by decide +kernel) rfl (by decide +kernel)).2 (by decide +kernel)) :=
  (h.1 (wSt strobe1) 2 1 0 none strobe1 [] (by decide +kernel) rfl (by decide +kernel)).2 (by decide +kernel)

noncomputable def strobe2 : Strobe := { strobe1 with cls := .pass }

theorem met_Judgements_3 (h : Obligations.Judgements) :
    type_of% (h.2.1 (wSt strobe2) 2 0 0 none strobe2 [] (by decide +kernel) (by decide +kernel)) :=
  h.2.1 (wSt strobe2) 2 0 0 none strobe2 [] (by decide +kernel) (by decide +kernel)

theorem met_Judgements_4 (h : Obligations.Judgements) :
    type_of% (h.2.2.1 runS 1 5 0 ⟨9, 5000, 1, 0x204, 16, 4 * 2^16, 0, 2⟩ (by decide +kernel) (by decide +kernel) (by decide +kernel) (by decide +kernel) (by decide +kernel) (by decide +kernel)) :=
  h.2.2.1 runS 1 5 0 ⟨9, 5000, 1, 0x204, 16, 4 * 2^16, 0, 2⟩ (by decide +kernel) (by decide +kernel) (by decide +kernel) (by decide +kernel) (by decide +kernel) (by decide +kernel)

theorem met_Judgements_5 (h : Obligations.Judgements) :
    type_of% (h.2.2.2.2 (setSite runS 1 { siteOf runS 1 with failDue := true }) 1 (by decide +kernel) (by decide +kernel)) :=
  h.2.2.2.2 (setSite runS 1 { siteOf runS 1 with failDue := true }) 1 (by decide +kernel) (by decide +kernel)

noncomputable def led1 := routeJudged 1 5 ⟨9, 5000, 1, 0x204, 16, 4 * 2^16, 0, 2⟩ runS

noncomputable def ent (c i : Nat) : LedEntry := ⟨c, 5000, 4, 1, 0, 0, i, 9⟩

noncomputable def led2 : State := setLedger runS 0 { ledgerOf runS 0 with queue := [ent 5 1, ent 9 2] }

theorem met_Judgements_6 (h : Obligations.Judgements) :
    type_of% (h.2.2.2.1 led2 0 (ent 9 1) (ent 9 2) [ent 5 1] [] rfl rfl (by decide +kernel) (by decide +kernel) (by decide +kernel)) :=
  h.2.2.2.1 led2 0 (ent 9 1) (ent 9 2) [ent 5 1] [] rfl rfl (by decide +kernel) (by decide +kernel) (by decide +kernel)

theorem met_Ledger_1 (h : Obligations.Ledger) :
    type_of% ((h.1 led1 0 10 _ _ (by decide +kernel) (by decide +kernel) (by decide +kernel) rfl (by decide +kernel) (.inr (by decide +kernel))).1 (by decide +kernel)) :=
  (h.1 led1 0 10 _ _ (by decide +kernel) (by decide +kernel) (by decide +kernel) rfl (by decide +kernel) (.inr (by decide +kernel))).1 (by decide +kernel)

noncomputable def ledF := setLedger (withRegs led1 [(.cmpPart 0, F.CMP_LED_CTRL_MODE, 1)]) 0 { ledgerOf led1 0 with icnt := 256 }

theorem met_Ledger_2 (h : Obligations.Ledger) :
    type_of% ((h.1 ledF 0 10 _ _ (by decide +kernel) (by decide +kernel) (by decide +kernel) rfl (by decide +kernel) (.inr (by decide +kernel))).2.2 (by decide +kernel) (by decide +kernel)) :=
  (h.1 ledF 0 10 _ _ (by decide +kernel) (by decide +kernel) (by decide +kernel) rfl (by decide +kernel) (.inr (by decide +kernel))).2.2 (by decide +kernel) (by decide +kernel)

noncomputable def ledG := setLedger ledF 0 { ledgerOf ledF 0 with drainCfg := some (true, 8) }

theorem met_Ledger_14 (h : Obligations.Ledger) :
    type_of% ((h.1 ledG 0 10 _ _ (by decide +kernel) (by decide +kernel) (by decide +kernel) rfl (by decide +kernel) (.inr (by decide +kernel))).2.1 (by decide +kernel) (by decide +kernel)) :=
  (h.1 ledG 0 10 _ _ (by decide +kernel) (by decide +kernel) (by decide +kernel) rfl (by decide +kernel) (.inr (by decide +kernel))).2.1 (by decide +kernel) (by decide +kernel)

noncomputable def ledL := withRegs (post ledF (.ledgerDrain 0 10)) [(.cmpPart 0, F.CMP_LED_RCNT, 1)]

theorem met_Ledger_3 (h : Obligations.Ledger) :
    type_of% (h.2.1 ledL 0 10 _ (by decide +kernel) (by decide +kernel) rfl (by decide +kernel)) :=
  h.2.1 ledL 0 10 _ (by decide +kernel) (by decide +kernel) rfl (by decide +kernel)

theorem met_Ledger_4 (h : Obligations.Ledger) :
    type_of% (h.2.2.1 (post led1 (.ledgerDrain 0 10)) 0 (by decide +kernel) (by decide +kernel) (by decide +kernel)) :=
  h.2.2.1 (post led1 (.ledgerDrain 0 10)) 0 (by decide +kernel) (by decide +kernel) (by decide +kernel)

theorem met_Ledger_5 (h : Obligations.Ledger) :
    type_of% ((h.2.2.2.1 owned 0 0 0x1403 (by decide +kernel) (by decide +kernel) (by decide +kernel)).1 (by decide +kernel) (by decide +kernel) (by decide +kernel) (by decide +kernel) (by decide +kernel) (by decide +kernel) (by decide +kernel)) :=
  (h.2.2.2.1 owned 0 0 0x1403 (by decide +kernel) (by decide +kernel) (by decide +kernel)).1 (by decide +kernel) (by decide +kernel) (by decide +kernel) (by decide +kernel) (by decide +kernel) (by decide +kernel) (by decide +kernel)

noncomputable def ledI := setSiteState led1 1 1

theorem met_Ledger_6 (h : Obligations.Ledger) :
    type_of% ((h.2.2.2.1 ledI 0 0 0x1402 (by decide +kernel) (by decide +kernel) (by decide +kernel)).2.1 (by decide +kernel) (by decide +kernel)) :=
  (h.2.2.2.1 ledI 0 0 0x1402 (by decide +kernel) (by decide +kernel) (by decide +kernel)).2.1 (by decide +kernel) (by decide +kernel)

theorem met_Ledger_7 (h : Obligations.Ledger) :
    type_of% ((h.2.2.2.1 led1 0 0 0x1402 (by decide +kernel) (by decide +kernel) (by decide +kernel)).2.2 (by decide +kernel)) :=
  (h.2.2.2.1 led1 0 0 0x1402 (by decide +kernel) (by decide +kernel) (by decide +kernel)).2.2 (by decide +kernel)

theorem met_Ledger_8 (h : Obligations.Ledger) :
    type_of% ((h.2.2.2.1 owned 0 0 0x0703 (by decide +kernel) (by decide +kernel) (by decide +kernel)).2.2 (by decide +kernel)) :=
  (h.2.2.2.1 owned 0 0 0x0703 (by decide +kernel) (by decide +kernel) (by decide +kernel)).2.2 (by decide +kernel)

noncomputable def ledW := withRegs owned [(.cmpPart 0, F.CMP_LED_WCNT, 10), (.cmpPart 0, F.CMP_LED_RCNT, 4)]

theorem met_Ledger_9 (h : Obligations.Ledger) :
    type_of% (h.2.2.2.2.1 ledW 0 0 7 (by decide +kernel) (by decide +kernel)) :=
  h.2.2.2.2.1 ledW 0 0 7 (by decide +kernel) (by decide +kernel)

theorem met_Ledger_10 (h : Obligations.Ledger) :
    type_of% (h.2.2.2.2.1 ledW 0 0 11 (by decide +kernel) (by decide +kernel)) :=
  h.2.2.2.2.1 ledW 0 0 11 (by decide +kernel) (by decide +kernel)

theorem met_Ledger_11 (h : Obligations.Ledger) :
    type_of% (h.2.2.2.2.2.1 ledW 0 0 7 (by decide +kernel) (by decide +kernel)) :=
  h.2.2.2.2.2.1 ledW 0 0 7 (by decide +kernel) (by decide +kernel)

theorem met_Ledger_12 (h : Obligations.Ledger) :
    type_of% (h.2.2.2.2.2.1 ledW 0 0 0 (by decide +kernel) (by decide +kernel)) :=
  h.2.2.2.2.2.1 ledW 0 0 0 (by decide +kernel) (by decide +kernel)

theorem met_Ledger_13 (h : Obligations.Ledger) :
    type_of% (h.2.2.2.2.2.2 owned 0 3 7 (by decide +kernel) (by decide +kernel) (by decide +kernel)) :=
  h.2.2.2.2.2.2 owned 0 3 7 (by decide +kernel) (by decide +kernel) (by decide +kernel)

end Ch09

/-! Chapter 10: acquisition. -/

namespace Ch10

noncomputable def acq0 : State := withRegs (site1 3) [(.bnk 0, F.ACQ_C_TRIG_SRC_EN, 3), (.bnk 0, F.ACQ_C_PRE, 4), (.bnk 0, F.ACQ_C_POST, 2), (.bnk 0, F.ACQ_C_AREA_LO, 16), (.bnk 0, F.ACQ_C_AUTO, 5)]

theorem met_Acquisition_1 (h : Obligations.Acquisition) :
    type_of% ((h.1 acq0 0 0 0x119 (by decide +kernel) (by decide +kernel)).1 (by decide +kernel)) :=
  (h.1 acq0 0 0 0x119 (by decide +kernel) (by decide +kernel)).1 (by decide +kernel)

theorem met_Acquisition_2 (h : Obligations.Acquisition) :
    type_of% ((h.1 (site1 3) 0 0 0x119 (by decide +kernel) (by decide +kernel)).2.1 2 (by decide +kernel) (by decide +kernel)) :=
  (h.1 (site1 3) 0 0 0x119 (by decide +kernel) (by decide +kernel)).2.1 2 (by decide +kernel) (by decide +kernel)

noncomputable def acq1 := post acq0 (.acqArm 0 0 0x119)

theorem met_Acquisition_3 (h : Obligations.Acquisition) :
    type_of% ((h.1 acq1 0 0 0x102 (by decide +kernel) (by decide +kernel)).2.2.1) :=
  (h.1 acq1 0 0 0x102 (by decide +kernel) (by decide +kernel)).2.2.1

noncomputable def acq2 := acqStore 0 4 0x77 (acqStore 0 3 0x66 acq1)

noncomputable def acq2' := withRegs acq2 [(.timPart 0, F.SITE_VCOUNT 1, 4)]

theorem met_Acquisition_4 (h : Obligations.Acquisition) :
    type_of% ((h.1 acq2' 0 0 0x104 (by decide +kernel) (by decide +kernel)).2.2.2.1 (by decide +kernel) (by decide +kernel) (by decide +kernel) (by decide +kernel)) :=
  (h.1 acq2' 0 0 0x104 (by decide +kernel) (by decide +kernel)).2.2.2.1 (by decide +kernel) (by decide +kernel) (by decide +kernel) (by decide +kernel)

noncomputable def acq3 := post acq2' (.acqForce 0 0 0x104)

/-- A later CORE cycle: the site has begun another vector. -/
noncomputable def acq3j := setSite acq3 1 { siteOf acq3 1 with nextVn := (siteOf acq3 1).nextVn + 1 }

theorem met_Acquisition_5 (h : Obligations.Acquisition) :
    type_of% ((h.1 acq3j 0 0 0x104 (by decide +kernel) (by decide +kernel)).2.2.2.2.1 (by decide +kernel) (by decide +kernel) (by decide +kernel) (by decide +kernel) (by decide +kernel)) :=
  (h.1 acq3j 0 0 0x104 (by decide +kernel) (by decide +kernel)).2.2.2.2.1 (by decide +kernel) (by decide +kernel) (by decide +kernel) (by decide +kernel) (by decide +kernel)

theorem met_Acquisition_6 (h : Obligations.Acquisition) :
    type_of% ((h.2.2.1 acq3 0 1 ((acqOf acq3 0).record.get (by decide +kernel)) (by decide +kernel) (by decide +kernel) (by decide +kernel) (by decide +kernel) (by decide +kernel)).1 (by decide +kernel)) :=
  (h.2.2.1 acq3 0 1 ((acqOf acq3 0).record.get (by decide +kernel)) (by decide +kernel) (by decide +kernel) (by decide +kernel) (by decide +kernel) (by decide +kernel)).1 (by decide +kernel)

/-- A strobe of the oldest word's vector still waits. -/
noncomputable def acq3w : State := setPin acq3 2 { pinInit with strobes := [⟨1, 3, 5, 1, 0, 0, .ordinary, 0, false, false, true, 9⟩] }

theorem met_Acquisition_12 (h : Obligations.Acquisition) :
    type_of% ((h.2.2.1 acq3w 0 1 ((acqOf acq3w 0).record.get (by decide +kernel)) (by decide +kernel) (by decide +kernel) (by decide +kernel) (by decide +kernel) (by decide +kernel)).2 _ _ rfl (by decide +kernel)) :=
  (h.2.2.1 acq3w 0 1 ((acqOf acq3w 0).record.get (by decide +kernel)) (by decide +kernel) (by decide +kernel) (by decide +kernel) (by decide +kernel) (by decide +kernel)).2 _ _ rfl (by decide +kernel)

theorem met_Acquisition_13 (h : Obligations.Acquisition) :
    type_of% (h.2.2.2.2.1 (withRegs acq3 [(.acqDev, F.ACQ_SHARE_0, 0)]) 0 1 (by decide +kernel)) :=
  h.2.2.2.2.1 (withRegs acq3 [(.acqDev, F.ACQ_SHARE_0, 0)]) 0 1 (by decide +kernel)

noncomputable def acq4 := post (acqStore 0 5 0x88 acq3) (.acqWriterDrain 0 3)

theorem met_Acquisition_7 (h : Obligations.Acquisition) :
    type_of% (h.2.2.2.2.2.1 acq4 0 ((acqOf acq4 0).record.get (by decide +kernel)) (by decide +kernel) (by decide +kernel) (by decide +kernel) (by decide +kernel) (by decide +kernel)) :=
  h.2.2.2.2.2.1 acq4 0 ((acqOf acq4 0).record.get (by decide +kernel)) (by decide +kernel) (by decide +kernel) (by decide +kernel) (by decide +kernel) (by decide +kernel)

noncomputable def acq5 := post acq4 (.recordDone 0)

theorem met_Acquisition_8 (h : Obligations.Acquisition) :
    type_of% (h.2.2.2.2.2.2 acq5 0 (by decide +kernel)) :=
  h.2.2.2.2.2.2 acq5 0 (by decide +kernel)

noncomputable def acq6 := setAcqState (withRegs acq5 [(.bnk 0, F.ACQ_C_WCNT, 5), (.bnk 0, F.ACQ_C_RCNT, 4)]) 0 6

theorem met_Acquisition_9 (h : Obligations.Acquisition) :
    type_of% ((h.1 acq6 0 0 0x119 (by decide +kernel) (by decide +kernel)).2.2.2.2.2 5 (by decide +kernel) (by decide +kernel)) :=
  (h.1 acq6 0 0 0x119 (by decide +kernel) (by decide +kernel)).2.2.2.2.2 5 (by decide +kernel) (by decide +kernel)

theorem met_Acquisition_10 (h : Obligations.Acquisition) :
    type_of% ((h.1 acq6 0 0 0x119 (by decide +kernel) (by decide +kernel)).2.2.2.2.2 3 (by decide +kernel) (by decide +kernel)) :=
  (h.1 acq6 0 0 0x119 (by decide +kernel) (by decide +kernel)).2.2.2.2.2 3 (by decide +kernel) (by decide +kernel)

/-- Armed with the automatic trigger, its time up. -/
noncomputable def acqA : State := setAcq acq1 0 { acqOf acq1 0 with since := 0, cfg := { (acqOf acq1 0).cfg with auto := true, autoUs := 0 } }

theorem met_Acquisition_11 (h : Obligations.Acquisition) :
    type_of% (h.2.1 acqA 0 (by decide +kernel) (by decide +kernel) (by decide +kernel) (by decide +kernel) (by decide +kernel) (by decide +kernel)) :=
  h.2.1 acqA 0 (by decide +kernel) (by decide +kernel) (by decide +kernel) (by decide +kernel) (by decide +kernel) (by decide +kernel)

/-- The channel has taken its automatic trigger in this CORE cycle. -/
noncomputable def acqT : State := post acqA (.acqAutoTrigger 0)

/-- What holds of a table's default and of every listed value holds of every value read. -/
theorem tabGet_all {α : Type} (P : α → Prop) (d : α) (hd : P d) (t : Tab α) (h : ∀ x ∈ t, P x.2) (k : Nat) : P (tabGet d t k) := by
  induction t with
  | nil => simpa [tabGet, tabFind] using hd
  | cons x t ih =>
    have ht := ih fun y hy => h y (List.mem_cons_of_mem _ hy)
    by_cases e : x.1 = k
    · simpa [tabGet, tabFind, e] using h x List.mem_cons_self
    · simpa [tabGet, tabFind, e, Ne.symm e] using ht

theorem acqT_no_link (k : Nat) : (acqOf acqT k).cfg.srcEn.testBit 9 = false :=
  tabGet_all (fun x => x.acq.cfg.srcEn.testBit 9 = false) bankInit (by decide +kernel) acqT.pin.banks (by decide +kernel) k

theorem met_Acquisition_14 (h : Obligations.Acquisition) :
    type_of% (h.2.2.2.1 acqT 0 9 1 ((joins acqT 0 none).get (by decide +kernel)) none (by decide +kernel) (by decide +kernel) acqT_no_link (by decide +kernel) (by decide +kernel) (by decide +kernel) (by decide +kernel) (by decide +kernel)) :=
  h.2.2.2.1 acqT 0 9 1 ((joins acqT 0 none).get (by decide +kernel)) none (by decide +kernel) (by decide +kernel) acqT_no_link (by decide +kernel) (by decide +kernel) (by decide +kernel) (by decide +kernel) (by decide +kernel)

theorem met_MasksAndTriggers_1 (h : Obligations.MasksAndTriggers) :
    type_of% (h.1 owned 0 0 3 2 100 _ _ _ _ (by decide +kernel) (by decide +kernel) (by decide +kernel) (by decide +kernel) (by decide +kernel) rfl rfl rfl rfl) :=
  h.1 owned 0 0 3 2 100 _ _ _ _ (by decide +kernel) (by decide +kernel) (by decide +kernel) (by decide +kernel) (by decide +kernel) rfl rfl rfl rfl

noncomputable def mk1 := post owned (.maskWrite 0 0 3 2 100)

theorem met_MasksAndTriggers_2 (h : Obligations.MasksAndTriggers) :
    type_of% (h.1 mk1 0 0 3 0 3 _ _ _ _ (by decide +kernel) (by decide +kernel) (by decide +kernel) (by decide +kernel) (by decide +kernel) rfl rfl rfl rfl) :=
  h.1 mk1 0 0 3 0 3 _ _ _ _ (by decide +kernel) (by decide +kernel) (by decide +kernel) (by decide +kernel) (by decide +kernel) rfl rfl rfl rfl

noncomputable def mk2 := let s := withRegs acq1 [(.bnk 0, F.BNK_MASK_MODE 3, 1), (.bnk 0, F.EDG_PIN_CFG_EN 3, 1)]; let s := setBank s 0 { bankOf s 0 with acq := { acqOf s 0 with cfg := { (acqOf s 0).cfg with maskStop := true } } }; setSite s 1 { siteOf s 1 with hist := [(77, 1000, 2 ^ 41)], args := { (siteOf s 1).args with jsrc := 1 <<< 18 } }

/-- A selected edge of vector 77 inside the keep-out window. -/
noncomputable def mk3 : State := setConv (withRegs mk2 [(.bnk 0, F.BNK_MASK_EDGE 3, 1), (.bnk 0, F.BNK_MASK_MC 3, 100)]) 3 { convOf mk2 3 with edges := [(2000, true)] }

/-- The edge of a require window that has come only after the vector. -/
noncomputable def mk4 : State := withRegs (setConv mk3 3 { convOf mk3 3 with edges := [(2 ^ 42, true)] }) [(.bnk 0, F.BNK_MASK_MODE 3, 2)]

theorem met_MasksAndTriggers_3 (h : Obligations.MasksAndTriggers) :
    type_of% ((h.2.1 mk3 0 3 77 1 (by decide +kernel) (by decide +kernel) (by decide +kernel) (by decide +kernel) (by decide +kernel)).1 (by decide +kernel)) :=
  (h.2.1 mk3 0 3 77 1 (by decide +kernel) (by decide +kernel) (by decide +kernel) (by decide +kernel) (by decide +kernel)).1 (by decide +kernel)

theorem met_MasksAndTriggers_6 (h : Obligations.MasksAndTriggers) :
    type_of% ((h.2.1 mk2 0 3 77 1 (by decide +kernel) (by decide +kernel) (by decide +kernel) (by decide +kernel) (by decide +kernel)).2.1 (by decide +kernel)) :=
  (h.2.1 mk2 0 3 77 1 (by decide +kernel) (by decide +kernel) (by decide +kernel) (by decide +kernel) (by decide +kernel)).2.1 (by decide +kernel)

theorem met_MasksAndTriggers_7 (h : Obligations.MasksAndTriggers) :
    type_of% (((h.2.1 mk3 0 3 77 1 (by decide +kernel) (by decide +kernel) (by decide +kernel) (by decide +kernel) (by decide +kernel)).2.2 1000 (2 ^ 41) 2000 true (by decide +kernel) (by decide +kernel) (by decide +kernel)).1 (by decide +kernel) (by decide +kernel) (by decide +kernel)) :=
  ((h.2.1 mk3 0 3 77 1 (by decide +kernel) (by decide +kernel) (by decide +kernel) (by decide +kernel) (by decide +kernel)).2.2 1000 (2 ^ 41) 2000 true (by decide +kernel) (by decide +kernel) (by decide +kernel)).1 (by decide +kernel) (by decide +kernel) (by decide +kernel)

theorem met_MasksAndTriggers_8 (h : Obligations.MasksAndTriggers) :
    type_of% (((h.2.1 mk4 0 3 77 1 (by decide +kernel) (by decide +kernel) (by decide +kernel) (by decide +kernel) (by decide +kernel)).2.2 1000 (2 ^ 41) (2 ^ 42) true (by decide +kernel) (by decide +kernel) (by decide +kernel)).2 (by decide +kernel) (by decide +kernel) (by decide +kernel)) :=
  ((h.2.1 mk4 0 3 77 1 (by decide +kernel) (by decide +kernel) (by decide +kernel) (by decide +kernel) (by decide +kernel)).2.2 1000 (2 ^ 41) (2 ^ 42) true (by decide +kernel) (by decide +kernel) (by decide +kernel)).2 (by decide +kernel) (by decide +kernel) (by decide +kernel)

theorem met_MasksAndTriggers_4 (h : Obligations.MasksAndTriggers) :
    type_of% (h.2.2.1 (withRegs R [(.acqTo 1, F.ACQ_TO_CTRL_MODE, 2), (.acqTo 2, F.ACQ_TO_CTRL_MODE, 1)]) 4 0x04 (by decide +kernel) (by decide +kernel)) :=
  h.2.2.1 (withRegs R [(.acqTo 1, F.ACQ_TO_CTRL_MODE, 2), (.acqTo 2, F.ACQ_TO_CTRL_MODE, 1)]) 4 0x04 (by decide +kernel) (by decide +kernel)

theorem met_MasksAndTriggers_5 (h : Obligations.MasksAndTriggers) :
    type_of% (h.2.2.2.2 (setSite mk2 1 { siteOf mk2 1 with args := { (siteOf mk2 1).args with jsrc := 2 <<< 2 } }) 1 1 (by decide +kernel) (by decide +kernel) (by decide +kernel)) :=
  h.2.2.2.2 (setSite mk2 1 { siteOf mk2 1 with args := { (siteOf mk2 1).args with jsrc := 2 <<< 2 } }) 1 1 (by decide +kernel) (by decide +kernel) (by decide +kernel)

theorem met_MasksAndTriggers_9 (h : Obligations.MasksAndTriggers) :
    type_of% (h.2.2.2.1 (withRegs R []) 1) :=
  h.2.2.2.1 (withRegs R []) 1

end Ch10

/-! Chapter 11: edge converters. -/

namespace Ch11

noncomputable def edg0 : State := withRegs (site1 3) [(.bnk 0, F.EDG_PIN_CFG_EN 0, 1), (.bnk 0, F.EDG_PIN_CFG_RING 0, 1), (.bnk 0, F.EDG_SR_CTRL_EN, 1), (.bnk 0, F.EDG_PIN_HOLDOFF 0, 900)]

noncomputable def edgP : State := withRegs edg0 [(.bnk 0, F.EDG_PIN_CFG_PRE 0, 1)]

theorem met_Converters_1 (h : Obligations.Converters) :
    type_of% (h.2.2.1 edgP 0 100 false true false false (by decide +kernel) (by decide +kernel) (by decide +kernel) (by decide +kernel)) :=
  h.2.2.1 edgP 0 100 false true false false (by decide +kernel) (by decide +kernel) (by decide +kernel) (by decide +kernel)

theorem met_Converters_7 (h : Obligations.Converters) :
    type_of% (h.1 R 3 100 false true false false (by decide +kernel) (by decide +kernel) (.inl (by decide +kernel))) :=
  h.1 R 3 100 false true false false (by decide +kernel) (by decide +kernel) (.inl (by decide +kernel))

theorem met_Converters_8 (h : Obligations.Converters) :
    type_of% (h.1 edg0 0 100 true true false false (by decide +kernel) (by decide +kernel) (.inr (by decide +kernel))) :=
  h.1 edg0 0 100 true true false false (by decide +kernel) (by decide +kernel) (.inr (by decide +kernel))

/-- A class of calibration has the converters of bank 0. -/
noncomputable def edgC : State := { edg0 with cal := { edg0.cal with runs := [⟨0, 2, 17, 30, none, false, false, 0⟩] } }

theorem met_Converters_12 (h : Obligations.Converters) :
    type_of% (h.2.1 edgC 0 5 ⟨0, 2, 17, 30, none, false, false, 0⟩ false true false false (by decide +kernel)) :=
  h.2.1 edgC 0 5 ⟨0, 2, 17, 30, none, false, false, 0⟩ false true false false (by decide +kernel)

noncomputable def edg1 : State := post edg0 (.converterEdge 0 100000 false true false false)

theorem met_Converters_2 (h : Obligations.Converters) :
    type_of% ((h.2.2.2.1 edg1 0 100300 100000 false true false false (by decide +kernel) (by decide +kernel) (by decide +kernel)).1 (.inl (by decide +kernel)) (by decide +kernel)) :=
  (h.2.2.2.1 edg1 0 100300 100000 false true false false (by decide +kernel) (by decide +kernel) (by decide +kernel)).1 (.inl (by decide +kernel)) (by decide +kernel)

theorem met_Converters_3 (h : Obligations.Converters) :
    type_of% ((h.2.2.2.1 edg1 0 (100000 + 2^31) 100000 false true false false (by decide +kernel) (by decide +kernel) (by decide +kernel)).2.1 (by decide +kernel) (.inl (by decide +kernel)) (by decide +kernel)) :=
  (h.2.2.2.1 edg1 0 (100000 + 2^31) 100000 false true false false (by decide +kernel) (by decide +kernel) (by decide +kernel)).2.1 (by decide +kernel) (.inl (by decide +kernel)) (by decide +kernel)

theorem met_Converters_9 (h : Obligations.Converters) :
    type_of% ((h.2.2.2.1 edg1 0 (100000 + 1675037245) 100000 false true true false (by decide +kernel) (by decide +kernel) (by decide +kernel)).1 (.inr ⟨rfl, (by decide +kernel)⟩) (by decide +kernel)) :=
  (h.2.2.2.1 edg1 0 (100000 + 1675037245) 100000 false true true false (by decide +kernel) (by decide +kernel) (by decide +kernel)).1 (.inr ⟨rfl, (by decide +kernel)⟩) (by decide +kernel)

theorem met_Converters_10 (h : Obligations.Converters) :
    type_of% ((h.2.2.2.1 edg1 0 (100000 + 3886945402) 100000 false true false true (by decide +kernel) (by decide +kernel) (by decide +kernel)).2.1 (by decide +kernel) (.inr ⟨rfl, (by decide +kernel)⟩) (by decide +kernel)) :=
  (h.2.2.2.1 edg1 0 (100000 + 3886945402) 100000 false true false true (by decide +kernel) (by decide +kernel) (by decide +kernel)).2.1 (by decide +kernel) (.inr ⟨rfl, (by decide +kernel)⟩) (by decide +kernel)

noncomputable def edg1' : State := setConv edg1 0 { convOf edg1 0 with hold := 399 }

theorem met_Converters_4 (h : Obligations.Converters) :
    type_of% ((h.2.2.2.1 edg1' 0 (100000 + 2^31) 100000 false true false false (by decide +kernel) (by decide +kernel) (by decide +kernel)).2.2 (by decide +kernel) (.inl (by decide +kernel))) :=
  (h.2.2.2.1 edg1' 0 (100000 + 2^31) 100000 false true false false (by decide +kernel) (by decide +kernel) (by decide +kernel)).2.2 (by decide +kernel) (.inl (by decide +kernel))

theorem met_Converters_11 (h : Obligations.Converters) :
    type_of% ((h.2.2.2.1 edg1 0 (100000 + 2^32) 100000 false true false false (by decide +kernel) (by decide +kernel) (by decide +kernel)).2.2 (by decide +kernel) (.inr (by decide +kernel))) :=
  (h.2.2.2.1 edg1 0 (100000 + 2^32) 100000 false true false false (by decide +kernel) (by decide +kernel) (by decide +kernel)).2.2 (by decide +kernel) (.inr (by decide +kernel))

theorem met_Converters_5 (h : Obligations.Converters) :
    type_of% ((h.2.2.2.2.1 edg0 0 1 100000 _ false true false false rfl (by decide +kernel) (by decide +kernel) (by decide +kernel) (by decide +kernel) (by decide +kernel) (by decide +kernel) (by decide +kernel) (by decide +kernel) (by decide +kernel) (by decide +kernel) (by decide +kernel)).1 (by decide +kernel) (by decide +kernel) (by decide +kernel)) :=
  (h.2.2.2.2.1 edg0 0 1 100000 _ false true false false rfl (by decide +kernel) (by decide +kernel) (by decide +kernel) (by decide +kernel) (by decide +kernel) (by decide +kernel) (by decide +kernel) (by decide +kernel) (by decide +kernel) (by decide +kernel) (by decide +kernel)).1 (by decide +kernel) (by decide +kernel) (by decide +kernel)

noncomputable def edg64 : State := setConv edg0 0 { convOf edg0 0 with used := 64 }

theorem met_Converters_6 (h : Obligations.Converters) :
    type_of% ((h.2.2.2.2.1 edg64 0 1 100000 _ false true false false rfl (by decide +kernel) (by decide +kernel) (by decide +kernel) (by decide +kernel) (by decide +kernel) (by decide +kernel) (by decide +kernel) (by decide +kernel) (by decide +kernel) (by decide +kernel) (by decide +kernel)).2 (.inl (by decide +kernel))) :=
  (h.2.2.2.2.1 edg64 0 1 100000 _ false true false false rfl (by decide +kernel) (by decide +kernel) (by decide +kernel) (by decide +kernel) (by decide +kernel) (by decide +kernel) (by decide +kernel) (by decide +kernel) (by decide +kernel) (by decide +kernel) (by decide +kernel)).2 (.inl (by decide +kernel))

theorem met_Converters_13 (h : Obligations.Converters) :
    type_of% (h.2.2.2.2.2 edg64 0) :=
  h.2.2.2.2.2 edg64 0

theorem met_StampRings_1 (h : Obligations.StampRings) :
    type_of% (h.1 edg0 0 1 (by decide +kernel) (by decide +kernel) (by decide +kernel)) :=
  h.1 edg0 0 1 (by decide +kernel) (by decide +kernel) (by decide +kernel)

noncomputable def ringed : State := post (withRegs (post (withRegs owned [(.bnk 0, F.EDG_SR_BASE_LO, 16)]) (.stampRingCtrlWrite 0 0 0x803)) []) (.stampRingRcntWrite 0 0 0)

noncomputable def ringQ : State := setSring ringed 0 { sringOf ringed 0 with queue := [0x1234, 5] }

theorem met_StampRings_2 (h : Obligations.StampRings) :
    type_of% ((h.2.1 ringQ 0 0x1234 [5] (by decide +kernel) (by decide +kernel)).1 (by decide +kernel) (by decide +kernel) (by decide +kernel)) :=
  (h.2.1 ringQ 0 0x1234 [5] (by decide +kernel) (by decide +kernel)).1 (by decide +kernel) (by decide +kernel) (by decide +kernel)

noncomputable def ringF : State := withRegs ringQ [(.bnk 0, F.EDG_SR_WCNT, 300), (.bnk 0, F.EDG_SR_RCNT, 44)]

theorem met_StampRings_3 (h : Obligations.StampRings) :
    type_of% ((h.2.1 ringF 0 0x1234 [5] (by decide +kernel) (by decide +kernel)).2.2.1 (by decide +kernel) rfl) :=
  (h.2.1 ringF 0 0x1234 [5] (by decide +kernel) (by decide +kernel)).2.2.1 (by decide +kernel) rfl

noncomputable def ringG : State := setSring ringF 0 { sringOf ringF 0 with drainCfg := some (true, 8) }

theorem met_StampRings_15 (h : Obligations.StampRings) :
    type_of% ((h.2.1 ringG 0 0x1234 [5] (by decide +kernel) (by decide +kernel)).2.1 (by decide +kernel) (by decide +kernel)) :=
  (h.2.1 ringG 0 0x1234 [5] (by decide +kernel) (by decide +kernel)).2.1 (by decide +kernel) (by decide +kernel)

noncomputable def ringL : State := setSring ringQ 0 { sringOf ringQ 0 with lost := 7 }

theorem met_StampRings_4 (h : Obligations.StampRings) :
    type_of% ((h.2.1 ringL 0 0x1234 [5] (by decide +kernel) (by decide +kernel)).2.2.2 (by decide +kernel) (by decide +kernel)) :=
  (h.2.1 ringL 0 0x1234 [5] (by decide +kernel) (by decide +kernel)).2.2.2 (by decide +kernel) (by decide +kernel)

theorem met_StampRings_5 (h : Obligations.StampRings) :
    type_of% ((h.2.2.1 (withRegs owned [(.bnk 0, F.EDG_SR_BASE_LO, 16)]) 0 0 0x1A03 (by decide +kernel) (by decide +kernel)).1 (by decide +kernel) (by decide +kernel) (by decide +kernel) (by decide +kernel) (by decide +kernel) (by decide +kernel) (by decide +kernel)) :=
  (h.2.2.1 (withRegs owned [(.bnk 0, F.EDG_SR_BASE_LO, 16)]) 0 0 0x1A03 (by decide +kernel) (by decide +kernel)).1 (by decide +kernel) (by decide +kernel) (by decide +kernel) (by decide +kernel) (by decide +kernel) (by decide +kernel) (by decide +kernel)

theorem met_StampRings_6 (h : Obligations.StampRings) :
    type_of% ((h.2.2.1 owned 0 0 0x1B03 (by decide +kernel) (by decide +kernel)).2 (by decide +kernel)) :=
  (h.2.2.1 owned 0 0 0x1B03 (by decide +kernel) (by decide +kernel)).2 (by decide +kernel)

theorem met_StampRings_7 (h : Obligations.StampRings) :
    type_of% (h.2.2.2.1 ringF 0 0 301 (by decide +kernel) (by decide +kernel) (by decide +kernel)) :=
  h.2.2.2.1 ringF 0 0 301 (by decide +kernel) (by decide +kernel) (by decide +kernel)

theorem met_StampRings_8 (h : Obligations.StampRings) :
    type_of% (h.2.2.2.1 ringF 0 0 300 (by decide +kernel) (by decide +kernel) (by decide +kernel)) :=
  h.2.2.2.1 ringF 0 0 300 (by decide +kernel) (by decide +kernel) (by decide +kernel)

theorem met_StampRings_9 (h : Obligations.StampRings) :
    type_of% (h.2.2.2.2.1 owned 0 3 0x1000A3 (by decide +kernel) (by decide +kernel)) :=
  h.2.2.2.2.1 owned 0 3 0x1000A3 (by decide +kernel) (by decide +kernel)

theorem met_StampRings_10 (h : Obligations.StampRings) :
    type_of% (h.2.2.2.2.1 owned 0 3 0x30113 (by decide +kernel) (by decide +kernel)) :=
  h.2.2.2.2.1 owned 0 3 0x30113 (by decide +kernel) (by decide +kernel)

noncomputable def fc0 : State := setConv edg0 0 { convOf edg0 0 with fcOn := true, fcN := 3, fcFirst := some 4, fcLast := 77 }

theorem met_StampRings_11 (h : Obligations.StampRings) :
    type_of% (h.2.2.2.2.2.1 fc0 0 (by decide +kernel) (by decide +kernel) (by decide +kernel)) :=
  h.2.2.2.2.2.1 fc0 0 (by decide +kernel) (by decide +kernel) (by decide +kernel)

theorem met_StampRings_12 (h : Obligations.StampRings) :
    type_of% (h.2.2.2.2.2.2.1 (withRegs edg0 [(.bnk 0, F.EDG_LOST 0, 5), (.bnk 0, F.EDG_FC_T 0, 99)]) 0 0 (by decide +kernel) (by decide +kernel) (by decide +kernel) (by decide +kernel)) :=
  h.2.2.2.2.2.2.1 (withRegs edg0 [(.bnk 0, F.EDG_LOST 0, 5), (.bnk 0, F.EDG_FC_T 0, 99)]) 0 0 (by decide +kernel) (by decide +kernel) (by decide +kernel) (by decide +kernel)

noncomputable def sp0 : State := post R (.complementPairOpen 4 (pageBase (.bnk 0) + F.EDG_SPARE_PIN.off) 0x13)

theorem met_StampRings_13 (h : Obligations.StampRings) :
    type_of% (h.2.2.2.2.2.2.2 sp0 4 0 (2 ^ 32 - 1 - 0x13) 0x13 (by decide +kernel) (by decide +kernel) (by decide +kernel)) :=
  h.2.2.2.2.2.2.2 sp0 4 0 (2 ^ 32 - 1 - 0x13) 0x13 (by decide +kernel) (by decide +kernel) (by decide +kernel)

theorem met_StampRings_14 (h : Obligations.StampRings) :
    type_of% (h.2.2.2.2.2.2.2 sp0 4 0 5 0x13 (by decide +kernel) (by decide +kernel) (by decide +kernel)) :=
  h.2.2.2.2.2.2.2 sp0 4 0 5 0x13 (by decide +kernel) (by decide +kernel) (by decide +kernel)

end Ch11

/-! Chapter 12: analysis units. -/

namespace Ch12

/-- Unit u of partition 0 RUNNING at word 16 with a program. -/
noncomputable def auAt (u : Nat) (prog : List Nat) (l : List (Page × Fld × Nat) := []) : State :=
  let s := prog.zipIdx.foldl (fun s w => setAuProg u (16 + w.2) w.1 s) R
  withRegs s ((.au u, F.AU_STAT_STATE, 1) :: (.au u, F.AU_STAT_PC, 16) :: (.au u, F.AU_X 1, 0x80007FFF) :: (.au u, F.AU_X 2, 3) :: (.au u, F.AU_AR_PTR 1, 150) :: (.au u, F.AU_AR_BASE 1, 100) ::
    (.au u, F.AU_AR_LEN 1, 32) :: (.au u, F.AU_A_RE 0, 2 ^ 39 + 5) :: (.au u, F.AU_A_IM 0, 3 * 2 ^ 20) :: l)

noncomputable def up0 : AuUpset := ⟨false, none⟩

theorem met_AnalysisArithmetic_1 (h : Obligations.AnalysisArithmetic) :
    type_of% (h.2.1 (auAt 2 [0]) 2 0 up0 (⟨by decide +kernel, by decide +kernel, by decide +kernel, rfl, by decide +kernel⟩) (by decide +kernel)) :=
  h.2.1 (auAt 2 [0]) 2 0 up0 (⟨by decide +kernel, by decide +kernel, by decide +kernel, rfl, by decide +kernel⟩) (by decide +kernel)

noncomputable def dm (s : State) : State := setAuData 2 150 0x80004000 (setAuData 2 0 0x7FFF8000 s)

noncomputable def sC : State := dm (auAt 2 [0x040A0000 + 2 ^ 22 + 2 ^ 17])

theorem met_AnalysisArithmetic_2 (h : Obligations.AnalysisArithmetic) :
    type_of% (h.2.2.1 sC 2 _ 1 0 _ up0 (.cmac 2 up0) ⟨rfl, by decide +kernel, by decide +kernel, rfl, by decide +kernel⟩ (by decide +kernel) (by decide +kernel) (by decide +kernel) (Or.inl ⟨rfl, by decide +kernel, rfl⟩)) :=
  h.2.2.1 sC 2 _ 1 0 _ up0 (.cmac 2 up0) ⟨rfl, by decide +kernel, by decide +kernel, rfl, by decide +kernel⟩ (by decide +kernel) (by decide +kernel) (by decide +kernel) (Or.inl ⟨rfl, by decide +kernel, rfl⟩)

theorem met_AnalysisArithmetic_3 (h : Obligations.AnalysisArithmetic) :
    type_of% (h.2.2.1 (auAt 17 [0x09080000]) 17 _ 2 0 _ up0 (.cmacx 17 up0) ⟨rfl, by decide +kernel, by decide +kernel, rfl, by decide +kernel⟩ (by decide +kernel) (by decide +kernel) (by decide +kernel) (Or.inr ⟨rfl, by decide +kernel, by decide +kernel, rfl⟩)) :=
  h.2.2.1 (auAt 17 [0x09080000]) 17 _ 2 0 _ up0 (.cmacx 17 up0) ⟨rfl, by decide +kernel, by decide +kernel, rfl, by decide +kernel⟩ (by decide +kernel) (by decide +kernel) (by decide +kernel) (Or.inr ⟨rfl, by decide +kernel, by decide +kernel, rfl⟩)

theorem met_AnalysisArithmetic_4 (h : Obligations.AnalysisArithmetic) :
    type_of% (h.2.2.2.1 (auAt 2 [0x0D150000]) 2 _ 0 21 up0 ⟨rfl, by decide +kernel, by decide +kernel, rfl, by decide +kernel⟩ (by decide +kernel) (by decide +kernel) (by decide +kernel) (by decide +kernel) (by decide +kernel)) :=
  h.2.2.2.1 (auAt 2 [0x0D150000]) 2 _ 0 21 up0 ⟨rfl, by decide +kernel, by decide +kernel, rfl, by decide +kernel⟩ (by decide +kernel) (by decide +kernel) (by decide +kernel) (by decide +kernel) (by decide +kernel)

theorem met_AnalysisArithmetic_5 (h : Obligations.AnalysisArithmetic) :
    type_of% (h.2.2.2.2.1 (auAt 2 [0x11500000]) 2 _ _ up0 ⟨rfl, by decide +kernel, by decide +kernel, rfl, by decide +kernel⟩ (by decide +kernel) (by decide +kernel) rfl) :=
  h.2.2.2.2.1 (auAt 2 [0x11500000]) 2 _ _ up0 ⟨rfl, by decide +kernel, by decide +kernel, rfl, by decide +kernel⟩ (by decide +kernel) (by decide +kernel) rfl

theorem met_AnalysisArithmetic_6 (h : Obligations.AnalysisArithmetic) :
    type_of% ((h.2.2.2.2.2.1 (dm (auAt 2 [0x140A0000])) 2 0x140A0000 1 1 up0 (by decide +kernel) (by decide +kernel) (by decide +kernel) (by decide +kernel)).1 ⟨rfl, by decide +kernel, by decide +kernel, by decide +kernel, by decide +kernel⟩) :=
  (h.2.2.2.2.2.1 (dm (auAt 2 [0x140A0000])) 2 0x140A0000 1 1 up0 (by decide +kernel) (by decide +kernel) (by decide +kernel) (by decide +kernel)).1 ⟨rfl, by decide +kernel, by decide +kernel, by decide +kernel, by decide +kernel⟩

theorem test_st_1 : ∃ t, exec (.st 2 up0) (dm (auAt 2 [0x184E0000])) = .next t ∧ auData t 2 150 = 0x80007FFF ∧ arPtr t 2 1 = arPtr (postModify 2 1 3 (dm (auAt 2 [0x184E0000]))) 2 1 ∧ auData t 2 0 = 0x7FFF8000 := ⟨_, rfl, by decide +kernel, by decide +kernel, by decide +kernel⟩

theorem met_AnalysisArithmetic_7 (h : Obligations.AnalysisArithmetic) :
    type_of% ((h.2.2.2.2.2.1 (dm (auAt 2 [0x180C0000])) 2 0x180C0000 1 2 up0 (by decide +kernel) (by decide +kernel) (by decide +kernel) (by decide +kernel)).2.2 _ _ _ _ rfl rfl rfl rfl) :=
  (h.2.2.2.2.2.1 (dm (auAt 2 [0x180C0000])) 2 0x180C0000 1 2 up0 (by decide +kernel) (by decide +kernel) (by decide +kernel) (by decide +kernel)).2.2 _ _ _ _ rfl rfl rfl rfl

theorem met_AnalysisArithmetic_8 (h : Obligations.AnalysisArithmetic) :
    type_of% (h.2.2.2.2.2.2.1 (auAt 2 [0x1C601234]) 2 _ _ up0 ⟨rfl, by decide +kernel, by decide +kernel, rfl, by decide +kernel⟩ (by decide +kernel) (by decide +kernel) rfl) :=
  h.2.2.2.2.2.2.1 (auAt 2 [0x1C601234]) 2 _ _ up0 ⟨rfl, by decide +kernel, by decide +kernel, rfl, by decide +kernel⟩ (by decide +kernel) (by decide +kernel) rfl

theorem met_AnalysisArithmetic_9 (h : Obligations.AnalysisArithmetic) :
    type_of% (h.2.2.2.2.2.2.2.1 (auAt 2 [0x20000000 + 6 * 2 ^ 22 + 3 * 2 ^ 19 + 2 ^ 16 + 2 * 2 ^ 13]) 2 _ _ _ _ 0xF0000FFF up0 ⟨rfl, by decide +kernel, by decide +kernel, rfl, by decide +kernel⟩ rfl (by decide +kernel) (by decide +kernel) rfl rfl (by decide +kernel) (by decide +kernel) (by decide +kernel) (by decide +kernel) (fun e => absurd e (by decide +kernel)) (by decide +kernel) (by decide +kernel) (by decide +kernel) (by decide +kernel)) :=
  h.2.2.2.2.2.2.2.1 (auAt 2 [0x20000000 + 6 * 2 ^ 22 + 3 * 2 ^ 19 + 2 ^ 16 + 2 * 2 ^ 13]) 2 _ _ _ _ 0xF0000FFF up0 ⟨rfl, by decide +kernel, by decide +kernel, rfl, by decide +kernel⟩ rfl (by decide +kernel) (by decide +kernel) rfl rfl (by decide +kernel) (by decide +kernel) (by decide +kernel) (by decide +kernel) (fun e => absurd e (by decide +kernel)) (by decide +kernel) (by decide +kernel) (by decide +kernel) (by decide +kernel)

theorem met_AnalysisArithmetic_10 (h : Obligations.AnalysisArithmetic) :
    type_of% (h.2.2.2.2.2.2.2.1 (auAt 2 [0x20000000 + 9 * 2 ^ 22 + 3 * 2 ^ 19 + 2 ^ 16 + 2 * 2 ^ 13]) 2 _ _ _ _ 0x8000 up0 ⟨rfl, by decide +kernel, by decide +kernel, rfl, by decide +kernel⟩ rfl (by decide +kernel) (by decide +kernel) rfl rfl (by decide +kernel) (by decide +kernel) (by decide +kernel) (by decide +kernel) (fun e => absurd e (by decide +kernel)) (by decide +kernel) (by decide +kernel) (by decide +kernel) (by decide +kernel)) :=
  h.2.2.2.2.2.2.2.1 (auAt 2 [0x20000000 + 9 * 2 ^ 22 + 3 * 2 ^ 19 + 2 ^ 16 + 2 * 2 ^ 13]) 2 _ _ _ _ 0x8000 up0 ⟨rfl, by decide +kernel, by decide +kernel, rfl, by decide +kernel⟩ rfl (by decide +kernel) (by decide +kernel) rfl rfl (by decide +kernel) (by decide +kernel) (by decide +kernel) (by decide +kernel) (fun e => absurd e (by decide +kernel)) (by decide +kernel) (by decide +kernel) (by decide +kernel) (by decide +kernel)

theorem met_AnalysisArithmetic_11 (h : Obligations.AnalysisArithmetic) :
    type_of% (h.2.2.2.2.2.2.2.2.1 (auAt 2 [0x2440FFFF]) 2 _ _ 0x80007FFE up0 ⟨rfl, by decide +kernel, by decide +kernel, rfl, by decide +kernel⟩ (by decide +kernel) (by decide +kernel) rfl (by decide +kernel)) :=
  h.2.2.2.2.2.2.2.2.1 (auAt 2 [0x2440FFFF]) 2 _ _ 0x80007FFE up0 ⟨rfl, by decide +kernel, by decide +kernel, rfl, by decide +kernel⟩ (by decide +kernel) (by decide +kernel) rfl (by decide +kernel)

theorem met_AnalysisArithmetic_12 (h : Obligations.AnalysisArithmetic) :
    type_of% (h.2.2.2.2.2.2.2.2.2.1 (auAt 2 [0x28C00400]) 2 _ _ _ up0 ⟨rfl, by decide +kernel, by decide +kernel, rfl, by decide +kernel⟩ (by decide +kernel) rfl rfl) :=
  h.2.2.2.2.2.2.2.2.2.1 (auAt 2 [0x28C00400]) 2 _ _ _ up0 ⟨rfl, by decide +kernel, by decide +kernel, rfl, by decide +kernel⟩ (by decide +kernel) rfl rfl

noncomputable def sT : State := setAu (auAt 2 [0x2C080000] [(.au 2, F.AU_TAP_AUTOREF, 0), (.au 2, F.AU_REFT, 90), (.au 2, F.AU_REFSTEP, 7)]) 2 { auOf (auAt 2 [0x2C080000]) 2 with tap := [⟨100, 0x105, false⟩, ⟨200, 0x105, false⟩], lost := 3 }

theorem met_AnalysisArithmetic_13 (h : Obligations.AnalysisArithmetic) :
    type_of% (h.2.2.2.2.2.2.2.2.2.2.1 sT 2 _ _ _ 4 ⟨100, 0x105, false⟩ [⟨200, 0x105, false⟩] up0 ⟨rfl, by decide +kernel, by decide +kernel, rfl, by decide +kernel⟩ (by decide +kernel) (by decide +kernel) rfl rfl (by decide +kernel) (by decide +kernel) (by decide +kernel)) :=
  h.2.2.2.2.2.2.2.2.2.2.1 sT 2 _ _ _ 4 ⟨100, 0x105, false⟩ [⟨200, 0x105, false⟩] up0 ⟨rfl, by decide +kernel, by decide +kernel, rfl, by decide +kernel⟩ (by decide +kernel) (by decide +kernel) rfl rfl (by decide +kernel) (by decide +kernel) (by decide +kernel)

theorem met_AnalysisArithmetic_14 (h : Obligations.AnalysisArithmetic) :
    type_of% (h.2.2.2.2.2.2.2.2.2.2.2.1 (auAt 2 [0x68000055]) 2 0x68000055 up0 (by decide +kernel) ⟨rfl, by decide +kernel, by decide +kernel, by decide +kernel, by decide +kernel⟩) :=
  h.2.2.2.2.2.2.2.2.2.2.2.1 (auAt 2 [0x68000055]) 2 0x68000055 up0 (by decide +kernel) ⟨rfl, by decide +kernel, by decide +kernel, by decide +kernel, by decide +kernel⟩

theorem met_AnalysisArithmetic_15 (h : Obligations.AnalysisArithmetic) :
    type_of% (h.2.2.2.2.2.2.2.2.2.2.2.2 (auAt 2 [0x6C000004] [(.au 2, F.AU_FLAGS_RSAT, 1), (.au 2, F.AU_FLAGS_OVF_A0, 1)]) 2 0x6C000004 up0 (by decide +kernel) ⟨rfl, by decide +kernel, by decide +kernel, by decide +kernel, by decide +kernel⟩) :=
  h.2.2.2.2.2.2.2.2.2.2.2.2 (auAt 2 [0x6C000004] [(.au 2, F.AU_FLAGS_RSAT, 1), (.au 2, F.AU_FLAGS_OVF_A0, 1)]) 2 0x6C000004 up0 (by decide +kernel) ⟨rfl, by decide +kernel, by decide +kernel, by decide +kernel, by decide +kernel⟩

noncomputable def ctl (w : Nat) (x : Au) : State := setAu (auAt 2 [w]) 2 { x with prog := (auOf (auAt 2 [w]) 2).prog }

noncomputable def c1s := ctl 0 { auInit with slots := some (2, some 40) }

theorem test_auNop_1 : ∃ t, exec (.auNop 2 up0) c1s = .next t ∧ (auOf t 2).slots = some (1, some 40) ∧ rd t (.au 2) F.AU_STAT_PC = 17 := ⟨_, rfl, by decide +kernel⟩

theorem test_analysis_1 : AuAt c1s 2 up0 0 0 ∧ bits 0 25 0 = 0 ∧ 16 = rd c1s (.au 2) F.AU_STAT_PC ∧ (auOf c1s 2).haltReq = false := ⟨⟨rfl, by decide +kernel, by decide +kernel, by decide +kernel, by decide +kernel⟩, by decide +kernel⟩

noncomputable def sF (w : Nat) : State := ctl w { auInit with stack := [77, 5] }

theorem met_AnalysisControl_1 (h : Obligations.AnalysisControl) :
    type_of% ((h.2.1 (sF 0x40800019) 2 0x40800019 16 up0 (by decide +kernel) (by decide +kernel)).1 (⟨rfl, by decide +kernel, by decide +kernel, by decide +kernel, by decide +kernel⟩) (by decide +kernel) (by decide +kernel)) :=
  (h.2.1 (sF 0x40800019) 2 0x40800019 16 up0 (by decide +kernel) (by decide +kernel)).1 (⟨rfl, by decide +kernel, by decide +kernel, by decide +kernel, by decide +kernel⟩) (by decide +kernel) (by decide +kernel)

theorem met_AnalysisControl_2 (h : Obligations.AnalysisControl) :
    type_of% ((h.2.1 (sF 0x44000019) 2 0x44000019 16 up0 (by decide +kernel) (by decide +kernel)).2.1 (⟨rfl, by decide +kernel, by decide +kernel, by decide +kernel, by decide +kernel⟩) (by decide +kernel) (by decide +kernel)) :=
  (h.2.1 (sF 0x44000019) 2 0x44000019 16 up0 (by decide +kernel) (by decide +kernel)).2.1 (⟨rfl, by decide +kernel, by decide +kernel, by decide +kernel, by decide +kernel⟩) (by decide +kernel) (by decide +kernel)

theorem met_AnalysisControl_3 (h : Obligations.AnalysisControl) :
    type_of% ((h.2.1 (sF 0x4C000000) 2 0x4C000000 16 up0 (by decide +kernel) (by decide +kernel)).2.2.1 77 [5] (.reti 2 up0) 0x13 (by decide +kernel) (by decide +kernel) (⟨rfl, by decide +kernel, by decide +kernel, by decide +kernel, by decide +kernel⟩) (by decide +kernel)) :=
  (h.2.1 (sF 0x4C000000) 2 0x4C000000 16 up0 (by decide +kernel) (by decide +kernel)).2.2.1 77 [5] (.reti 2 up0) 0x13 (by decide +kernel) (by decide +kernel) (⟨rfl, by decide +kernel, by decide +kernel, by decide +kernel, by decide +kernel⟩) (by decide +kernel)

theorem met_AnalysisControl_4 (h : Obligations.AnalysisControl) :
    type_of% ((h.2.1 (sF 0x500003FF) 2 0x500003FF 16 up0 (by decide +kernel) (by decide +kernel)).2.2.2.1 (⟨rfl, by decide +kernel, by decide +kernel, by decide +kernel, by decide +kernel⟩) (by decide +kernel) (by decide +kernel)) :=
  (h.2.1 (sF 0x500003FF) 2 0x500003FF 16 up0 (by decide +kernel) (by decide +kernel)).2.2.2.1 (⟨rfl, by decide +kernel, by decide +kernel, by decide +kernel, by decide +kernel⟩) (by decide +kernel) (by decide +kernel)

theorem met_AnalysisControl_5 (h : Obligations.AnalysisControl) :
    type_of% ((h.2.1 (sF 0x54800000) 2 0x54800000 16 up0 (by decide +kernel) (by decide +kernel)).2.2.2.2.1 (⟨rfl, by decide +kernel, by decide +kernel, by decide +kernel, by decide +kernel⟩) (by decide +kernel) (by decide +kernel)) :=
  (h.2.1 (sF 0x54800000) 2 0x54800000 16 up0 (by decide +kernel) (by decide +kernel)).2.2.2.2.1 (⟨rfl, by decide +kernel, by decide +kernel, by decide +kernel, by decide +kernel⟩) (by decide +kernel) (by decide +kernel)

theorem met_AnalysisControl_6 (h : Obligations.AnalysisControl) :
    type_of% ((h.2.1 (sF 0x55C00000) 2 0x55C00000 16 up0 (by decide +kernel) (by decide +kernel)).2.2.2.2.1 (⟨rfl, by decide +kernel, by decide +kernel, by decide +kernel, by decide +kernel⟩) (by decide +kernel) (by decide +kernel)) :=
  (h.2.1 (sF 0x55C00000) 2 0x55C00000 16 up0 (by decide +kernel) (by decide +kernel)).2.2.2.2.1 (⟨rfl, by decide +kernel, by decide +kernel, by decide +kernel, by decide +kernel⟩) (by decide +kernel) (by decide +kernel)

theorem met_AnalysisControl_7 (h : Obligations.AnalysisControl) :
    type_of% ((h.2.1 (sF 0x58400013) 2 0x58400013 16 up0 (by decide +kernel) (by decide +kernel)).2.2.2.2.2.1 (⟨rfl, by decide +kernel, by decide +kernel, by decide +kernel, by decide +kernel⟩) (by decide +kernel) (by decide +kernel)) :=
  (h.2.1 (sF 0x58400013) 2 0x58400013 16 up0 (by decide +kernel) (by decide +kernel)).2.2.2.2.2.1 (⟨rfl, by decide +kernel, by decide +kernel, by decide +kernel, by decide +kernel⟩) (by decide +kernel) (by decide +kernel)

theorem met_AnalysisControl_8 (h : Obligations.AnalysisControl) :
    type_of% (((h.2.1 (sF 0x60000000) 2 0x60000000 16 up0 (by decide +kernel) (by decide +kernel)).2.2.2.2.2.2.1 0 (⟨rfl, by decide +kernel, by decide +kernel, by decide +kernel, by decide +kernel⟩) (by decide +kernel)).2 (by decide +kernel) (by decide +kernel)) :=
  ((h.2.1 (sF 0x60000000) 2 0x60000000 16 up0 (by decide +kernel) (by decide +kernel)).2.2.2.2.2.2.1 0 (⟨rfl, by decide +kernel, by decide +kernel, by decide +kernel, by decide +kernel⟩) (by decide +kernel)).2 (by decide +kernel) (by decide +kernel)

noncomputable def sD := setAu (sF 0x60000000) 2 { auOf (sF 0x60000000) 2 with tap := [⟨1,1,false⟩] }

theorem met_AnalysisControl_9 (h : Obligations.AnalysisControl) :
    type_of% (((h.2.1 sD 2 0x60000000 16 up0 (by decide +kernel) (by decide +kernel)).2.2.2.2.2.2.1 0 (⟨rfl, by decide +kernel, by decide +kernel, by decide +kernel, by decide +kernel⟩) (by decide +kernel)).1 (by decide +kernel)) :=
  ((h.2.1 sD 2 0x60000000 16 up0 (by decide +kernel) (by decide +kernel)).2.2.2.2.2.2.1 0 (⟨rfl, by decide +kernel, by decide +kernel, by decide +kernel, by decide +kernel⟩) (by decide +kernel)).1 (by decide +kernel)

theorem met_AnalysisControl_10 (h : Obligations.AnalysisControl) :
    type_of% ((h.2.1 (sF 0x64000000) 2 0x64000000 16 up0 (by decide +kernel) (by decide +kernel)).2.2.2.2.2.2.2 (⟨rfl, by decide +kernel, by decide +kernel, by decide +kernel, by decide +kernel⟩) (by decide +kernel)) :=
  (h.2.1 (sF 0x64000000) 2 0x64000000 16 up0 (by decide +kernel) (by decide +kernel)).2.2.2.2.2.2.2 (⟨rfl, by decide +kernel, by decide +kernel, by decide +kernel, by decide +kernel⟩) (by decide +kernel)

theorem met_AnalysisControl_11 (h : Obligations.AnalysisControl) :
    type_of% (h.2.2.1 (sF 0x70000000) 2 0 up0 (.ld 2 up0) (by decide +kernel) (by decide +kernel) (by decide +kernel) (by decide +kernel)) :=
  h.2.2.1 (sF 0x70000000) 2 0 up0 (.ld 2 up0) (by decide +kernel) (by decide +kernel) (by decide +kernel) (by decide +kernel)

noncomputable def sI : State := withRegs sD [(.au 2, F.AU_IEN_TAP, 1), (.au 2, F.AU_TAP_THR, 1), (.au 2, F.AU_STAT_IE, 1)]

theorem met_AnalysisControl_12 (h : Obligations.AnalysisControl) :
    type_of% (h.2.2.2.1 sI 2 2 (by decide +kernel) (by decide +kernel)) :=
  h.2.2.2.1 sI 2 2 (by decide +kernel) (by decide +kernel)

noncomputable def sH (st : Nat) : State := withRegs (sF 0) [(.au 2, F.AU_STAT_STATE, st), (.au 2, F.AU_START, 99)]

theorem met_AnalysisControl_13 (h : Obligations.AnalysisControl) :
    type_of% ((h.2.2.2.2.1 (sH 3) 0 2 0x10 (by decide +kernel) (by decide +kernel) (by decide +kernel) (by decide +kernel)).1 (by decide +kernel) (by decide +kernel) (by decide +kernel)) :=
  (h.2.2.2.2.1 (sH 3) 0 2 0x10 (by decide +kernel) (by decide +kernel) (by decide +kernel) (by decide +kernel)).1 (by decide +kernel) (by decide +kernel) (by decide +kernel)

theorem met_AnalysisControl_14 (h : Obligations.AnalysisControl) :
    type_of% ((h.2.2.2.2.1 (sH 3) 0 2 0x12 (by decide +kernel) (by decide +kernel) (by decide +kernel) (by decide +kernel)).2.1 (by decide +kernel)) :=
  (h.2.2.2.2.1 (sH 3) 0 2 0x12 (by decide +kernel) (by decide +kernel) (by decide +kernel) (by decide +kernel)).2.1 (by decide +kernel)

theorem met_AnalysisControl_15 (h : Obligations.AnalysisControl) :
    type_of% ((h.2.2.2.2.1 (sH 1) 0 2 0x10 (by decide +kernel) (by decide +kernel) (by decide +kernel) (by decide +kernel)).2.2.1 (by decide +kernel) (by decide +kernel) (by decide +kernel)) :=
  (h.2.2.2.2.1 (sH 1) 0 2 0x10 (by decide +kernel) (by decide +kernel) (by decide +kernel) (by decide +kernel)).2.2.1 (by decide +kernel) (by decide +kernel) (by decide +kernel)

theorem met_AnalysisControl_16 (h : Obligations.AnalysisControl) :
    type_of% ((h.2.2.2.2.1 (sH 0) 0 2 0x10 (by decide +kernel) (by decide +kernel) (by decide +kernel) (by decide +kernel)).2.2.2 (by decide +kernel) (by decide +kernel) (by decide +kernel)) :=
  (h.2.2.2.2.1 (sH 0) 0 2 0x10 (by decide +kernel) (by decide +kernel) (by decide +kernel) (by decide +kernel)).2.2.2 (by decide +kernel) (by decide +kernel) (by decide +kernel)

theorem met_AnalysisControl_17 (h : Obligations.AnalysisControl) :
    type_of% (h.2.2.2.2.2.1 (sH 0) 0 2 1 (by decide +kernel) (by decide +kernel) (by decide +kernel) (by decide +kernel)) :=
  h.2.2.2.2.2.1 (sH 0) 0 2 1 (by decide +kernel) (by decide +kernel) (by decide +kernel) (by decide +kernel)

theorem met_AnalysisControl_18 (h : Obligations.AnalysisControl) :
    type_of% (h.2.2.2.2.2.2.1 (sH 0) 4 2 1 (by decide +kernel) (by decide +kernel) (by decide +kernel)) :=
  h.2.2.2.2.2.2.1 (sH 0) 4 2 1 (by decide +kernel) (by decide +kernel) (by decide +kernel)

theorem met_AnalysisControl_19 (h : Obligations.AnalysisControl) :
    type_of% (h.2.2.2.2.2.2.1 (sH 1) 4 2 1 (by decide +kernel) (by decide +kernel) (by decide +kernel)) :=
  h.2.2.2.2.2.2.1 (sH 1) 4 2 1 (by decide +kernel) (by decide +kernel) (by decide +kernel)

noncomputable def sK := post (sH 0) (.auAssignWrite 4 2 1)

theorem met_AnalysisControl_20 (h : Obligations.AnalysisControl) :
    type_of% (h.2.2.2.2.2.2.2.1 sK 2 (by decide +kernel)) :=
  h.2.2.2.2.2.2.2.1 sK 2 (by decide +kernel)

theorem met_AnalysisControl_21 (h : Obligations.AnalysisControl) :
    type_of% (h.2.2.2.2.2.2.2.2.1 (dm (sH 1)) 0 2 150 true (by decide +kernel) (by decide +kernel) (by decide +kernel)) :=
  h.2.2.2.2.2.2.2.2.1 (dm (sH 1)) 0 2 150 true (by decide +kernel) (by decide +kernel) (by decide +kernel)

noncomputable def sL : State := post R (.complementPairOpen 4 (pageBase (.au 16) + F.AU_SPARE_UNIT.off) 0x13)

theorem met_AnalysisControl_22 (h : Obligations.AnalysisControl) :
    type_of% (h.2.2.2.2.2.2.2.2.2.1 sL 4 (2 ^ 32 - 1 - 0x13) 0x13 (by decide +kernel) (by decide +kernel)) :=
  h.2.2.2.2.2.2.2.2.2.1 sL 4 (2 ^ 32 - 1 - 0x13) 0x13 (by decide +kernel) (by decide +kernel)

noncomputable def sM : State := auSubstitute (post sL (.auSpareWrite 4 (2 ^ 32 - 1 - 0x13)))

theorem test_auSubstDone_1 : sM.au.subst = some (3, some 3, 0) ∧ ∃ t, exec .auSubstDone sM = .next t ∧ auState t 3 = 0 ∧ t.au.spare = some 3 ∧ t.au.subst = none ∧ rdb t (.au 16) F.AU_SPARE_ACTIVE = true := ⟨by decide +kernel, ⟨_, rfl, by decide +kernel⟩⟩

theorem met_AnalysisArithmetic_16 (h : Obligations.AnalysisArithmetic) :
    type_of% ((h.2.2.2.2.2.1 (dm (auAt 2 [0x184E0000])) 2 0x184E0000 1 3 up0 (by decide +kernel) (by decide +kernel) (by decide +kernel) (by decide +kernel)).2.1 ⟨rfl, (by decide +kernel), (by decide +kernel), (by decide +kernel), (by decide +kernel)⟩) :=
  (h.2.2.2.2.2.1 (dm (auAt 2 [0x184E0000])) 2 0x184E0000 1 3 up0 (by decide +kernel) (by decide +kernel) (by decide +kernel) (by decide +kernel)).2.1 ⟨rfl, (by decide +kernel), (by decide +kernel), (by decide +kernel), (by decide +kernel)⟩

theorem met_AnalysisArithmetic_17 (h : Obligations.AnalysisArithmetic) :
    type_of% (h.1 (auAt 2 [0]) 2 0 0 0 up0 (.auNop 2 up0) ⟨rfl, by decide +kernel, by decide +kernel, rfl, by decide +kernel⟩ (by decide +kernel)) :=
  h.1 (auAt 2 [0]) 2 0 0 0 up0 (.auNop 2 up0) ⟨rfl, by decide +kernel, by decide +kernel, rfl, by decide +kernel⟩ (by decide +kernel)

theorem met_AnalysisControl_23 (h : Obligations.AnalysisControl) :
    type_of% (h.1 c1s 2 0 16 up0 ⟨rfl, (by decide +kernel), (by decide +kernel), (by decide +kernel), (by decide +kernel)⟩ (by decide +kernel) (by decide +kernel) (by decide +kernel)) :=
  h.1 c1s 2 0 16 up0 ⟨rfl, (by decide +kernel), (by decide +kernel), (by decide +kernel), (by decide +kernel)⟩ (by decide +kernel) (by decide +kernel) (by decide +kernel)

theorem met_AnalysisControl_24 (h : Obligations.AnalysisControl) :
    type_of% (h.2.2.2.2.2.2.2.2.2.2.2.1 sM 3 0 (some 3) (by decide +kernel) (by decide +kernel) (by decide +kernel) (by decide +kernel)) :=
  h.2.2.2.2.2.2.2.2.2.2.2.1 sM 3 0 (some 3) (by decide +kernel) (by decide +kernel) (by decide +kernel) (by decide +kernel)

/-- Unit 3 is to take the place that unit 5 leaves. -/
noncomputable def sN : State := let s := post sL (.auSpareWrite 4 (2 ^ 32 - 1 - 0x13)); { s with au := { s.au with subst := some (5, none, 0) } }

theorem met_AnalysisControl_26 (h : Obligations.AnalysisControl) :
    type_of% (h.2.2.2.2.2.2.2.2.2.2.1 sN 5 3 0 (by decide +kernel) (by decide +kernel) (by decide +kernel) (by decide +kernel) (by decide +kernel) (by decide +kernel) (by decide +kernel)) :=
  h.2.2.2.2.2.2.2.2.2.2.1 sN 5 3 0 (by decide +kernel) (by decide +kernel) (by decide +kernel) (by decide +kernel) (by decide +kernel) (by decide +kernel) (by decide +kernel)

/-- Both destinations of the tap read are one register. -/
noncomputable def sTx : State := setAu (auAt 2 [0x2C000000]) 2 { auOf (auAt 2 [0x2C000000]) 2 with tap := [⟨100, 0x105, false⟩, ⟨200, 0x105, false⟩] }

theorem met_AnalysisControl_25 (h : Obligations.AnalysisControl) :
    type_of% (h.2.2.2.2.2.2.2.2.2.2.2.2 sTx 2 _ _ 4 ⟨100, 0x105, false⟩ [⟨200, 0x105, false⟩] up0 ⟨rfl, by decide +kernel, by decide +kernel, rfl, by decide +kernel⟩ (by decide +kernel) (by decide +kernel) rfl (by decide +kernel) rfl (by decide +kernel)) :=
  h.2.2.2.2.2.2.2.2.2.2.2.2 sTx 2 _ _ 4 ⟨100, 0x105, false⟩ [⟨200, 0x105, false⟩] up0 ⟨rfl, by decide +kernel, by decide +kernel, rfl, by decide +kernel⟩ (by decide +kernel) (by decide +kernel) rfl (by decide +kernel) rfl (by decide +kernel)

end Ch12

/-! Chapter 13: calibration. -/

namespace Ch13

theorem met_Calibration_1 (h : Obligations.Calibration) :
    type_of% ((h.1 owned 0 0x00200101 (some 0) (by intro n hn; cases hn; decide) (by decide +kernel) (by decide +kernel) (by decide +kernel) _ rfl).1 (by decide +kernel) (by decide +kernel) (by decide +kernel)) :=
  (h.1 owned 0 0x00200101 (some 0) (by intro n hn; cases hn; decide) (by decide +kernel) (by decide +kernel) (by decide +kernel) _ rfl).1 (by decide +kernel) (by decide +kernel) (by decide +kernel)

theorem met_Calibration_2 (h : Obligations.Calibration) :
    type_of% ((h.1 R 4 0x00000109 none (by intro n hn; cases hn) (by decide +kernel) (by decide +kernel) (by decide +kernel) _ rfl).2 (by decide +kernel)) :=
  (h.1 R 4 0x00000109 none (by intro n hn; cases hn) (by decide +kernel) (by decide +kernel) (by decide +kernel) _ rfl).2 (by decide +kernel)

noncomputable def q1 : State := post R (.calRequest 4 none 0x00200107)

noncomputable def q2 : State := post q1 (.calClassStart 400)

noncomputable def q2c : State := { q2 with cal := { q2.cal with runs := q2.cal.runs.map fun r => { r with cls := 2 } } }

theorem met_Calibration_3 (h : Obligations.Calibration) :
    type_of% (h.2.1 q2 4 0x200 (by decide +kernel) (by decide +kernel)) :=
  h.2.1 q2 4 0x200 (by decide +kernel) (by decide +kernel)

theorem met_Calibration_4 (h : Obligations.Calibration) :
    type_of% (h.2.2.1 (withRegs R [(.calDev, F.CAL_AUTO_EN, 1), (.calDev, F.CAL_BANK_DUE 3, 2), (.calDev, F.CAL_AUTO_TEMP_TRIG, 50)]) 3 (by decide +kernel) (by decide +kernel) (by decide +kernel) (.inl (by decide +kernel))) :=
  h.2.2.1 (withRegs R [(.calDev, F.CAL_AUTO_EN, 1), (.calDev, F.CAL_BANK_DUE 3, 2), (.calDev, F.CAL_AUTO_TEMP_TRIG, 50)]) 3 (by decide +kernel) (by decide +kernel) (by decide +kernel) (.inl (by decide +kernel))

/-- AUTO with a stored desk temperature and a stored time of bank 3. -/
noncomputable def qA (x : Int) (l : List (Page × Fld × Nat)) : State :=
  withRegs { R with cal := { R.cal with deskTemp := tabPut 0 R.cal.deskTemp 3 x, lastTime := tabPut 0 R.cal.lastTime 3 7 } } ((.calDev, F.CAL_AUTO_EN, 1) :: l)

theorem met_Calibration_16 (h : Obligations.Calibration) :
    type_of% (h.2.2.1 (qA 999 [(.calDev, F.CAL_AUTO_TEMP_TRIG, 5)]) 3 (by decide +kernel) (by decide +kernel) (by decide +kernel) (.inr (.inl ⟨999, rfl, (by decide +kernel)⟩))) :=
  h.2.2.1 (qA 999 [(.calDev, F.CAL_AUTO_TEMP_TRIG, 5)]) 3 (by decide +kernel) (by decide +kernel) (by decide +kernel) (.inr (.inl ⟨999, rfl, (by decide +kernel)⟩))

theorem met_Calibration_17 (h : Obligations.Calibration) :
    type_of% (h.2.2.1 (qA 0 [(.calDev, F.CAL_AUTO_INTERVAL, 1), (.timDev, F.TIM_DTB_SEC_LO, 3607)]) 3 (by decide +kernel) (by decide +kernel) (by decide +kernel) (.inr (.inr ⟨(by decide +kernel), 7, rfl, (by decide +kernel)⟩))) :=
  h.2.2.1 (qA 0 [(.calDev, F.CAL_AUTO_INTERVAL, 1), (.timDev, F.TIM_DTB_SEC_LO, 3607)]) 3 (by decide +kernel) (by decide +kernel) (by decide +kernel) (.inr (.inr ⟨(by decide +kernel), 7, rfl, (by decide +kernel)⟩))

theorem met_Calibration_5 (h : Obligations.Calibration) :
    type_of% ((h.2.2.2.1 q1 5 1 17 400 (by decide +kernel) (by decide +kernel) (by decide +kernel)).2.1 (by decide +kernel) (by decide +kernel)) :=
  (h.2.2.2.1 q1 5 1 17 400 (by decide +kernel) (by decide +kernel) (by decide +kernel)).2.1 (by decide +kernel) (by decide +kernel)

noncomputable def q3 : State := post R (.calRequest 4 none 0x00200104)

theorem met_Calibration_6 (h : Obligations.Calibration) :
    type_of% ((h.2.2.2.1 q3 5 3 17 400 (by decide +kernel) (by decide +kernel) (by decide +kernel)).2.2 0 (by decide +kernel) (by decide +kernel) (by decide +kernel) (by decide +kernel) (by decide +kernel)) :=
  (h.2.2.2.1 q3 5 3 17 400 (by decide +kernel) (by decide +kernel) (by decide +kernel)).2.2 0 (by decide +kernel) (by decide +kernel) (by decide +kernel) (by decide +kernel) (by decide +kernel)

noncomputable def ms (a : Option Nat) (v : Int) : CalMeas := ⟨[], [], List.replicate 17 [v, 2, 3, 4], a, 405⟩

noncomputable def r0 : CalRun := ⟨5, 3, 17, 400, none, false, false, 1⟩

noncomputable def qe : State := setRun 5 (some r0) (post R (.calRequest 4 none 0x00200104))

theorem met_Calibration_7 (h : Obligations.Calibration) :
    type_of% ((h.2.2.2.2.1 qe 5 r0 (ms none 1) (by decide +kernel) (by decide +kernel) (by decide +kernel) (by decide +kernel) (by decide +kernel) (by decide +kernel) (by decide +kernel)).1 (by decide +kernel) (by decide +kernel) (by decide +kernel)) :=
  (h.2.2.2.2.1 qe 5 r0 (ms none 1) (by decide +kernel) (by decide +kernel) (by decide +kernel) (by decide +kernel) (by decide +kernel) (by decide +kernel) (by decide +kernel)).1 (by decide +kernel) (by decide +kernel) (by decide +kernel)

theorem met_Calibration_8 (h : Obligations.Calibration) :
    type_of% ((h.2.2.2.2.1 qe 5 r0 (ms (some 3) 1) (by decide +kernel) (by decide +kernel) (by decide +kernel) (by decide +kernel) (by decide +kernel) (by decide +kernel) (by decide +kernel)).2.1 3 (by decide +kernel) (by decide +kernel) (by decide +kernel)) :=
  (h.2.2.2.2.1 qe 5 r0 (ms (some 3) 1) (by decide +kernel) (by decide +kernel) (by decide +kernel) (by decide +kernel) (by decide +kernel) (by decide +kernel) (by decide +kernel)).2.1 3 (by decide +kernel) (by decide +kernel) (by decide +kernel)

noncomputable def qf : State := post qe (.calRunDone 5 (ms none 1))

noncomputable def r1 : CalRun := { r0 with first := some (calSlots.map (runValues r0 (ms none 1)), none) }

theorem met_Calibration_9 (h : Obligations.Calibration) :
    type_of% ((((h.2.2.2.2.1 qf 5 r1 (ms none 1) (by decide +kernel) (by decide +kernel) (by decide +kernel) (by decide +kernel) (by decide +kernel) (by decide +kernel) (by decide +kernel)).2.2 _ none rfl (by decide +kernel) (by decide +kernel) (by decide +kernel))).2 (by decide +kernel) (by decide +kernel) (by decide +kernel) (by decide +kernel) (by decide +kernel)) :=
  (((h.2.2.2.2.1 qf 5 r1 (ms none 1) (by decide +kernel) (by decide +kernel) (by decide +kernel) (by decide +kernel) (by decide +kernel) (by decide +kernel) (by decide +kernel)).2.2 _ none rfl (by decide +kernel) (by decide +kernel) (by decide +kernel))).2 (by decide +kernel) (by decide +kernel) (by decide +kernel) (by decide +kernel) (by decide +kernel)

theorem met_Calibration_10 (h : Obligations.Calibration) :
    type_of% ((((h.2.2.2.2.1 qf 5 r1 (ms none 90000) (by decide +kernel) (by decide +kernel) (by decide +kernel) (by decide +kernel) (by decide +kernel) (by decide +kernel) (by decide +kernel)).2.2 _ none rfl (by simp) (.inr rfl) (by decide +kernel))).1 (by decide +kernel)) :=
  (((h.2.2.2.2.1 qf 5 r1 (ms none 90000) (by decide +kernel) (by decide +kernel) (by decide +kernel) (by decide +kernel) (by decide +kernel) (by decide +kernel) (by decide +kernel)).2.2 _ none rfl (by simp) (.inr rfl) (by decide +kernel))).1 (by decide +kernel)

noncomputable def qg : State := setRun 5 (some { r0 with abort := true }) qe

theorem test_calAbort_1 : let t := post qg (.calAbort 5)
    calRunOf qg 5 = some { r0 with abort := true } ∧ calRunOf t 5 = none ∧ rd t .calDev F.CAL_LAST_REASON = 8 ∧ t.cal.reqs = [] := by decide +kernel

noncomputable def qh : State := post qf (.calRunDone 5 (ms none 1))

noncomputable def r2 : CalRun := { r1 with accepted := true, temp := 405 }

theorem test_calRecord_1 : calRunOf qh 5 = some r2 ∧ flashNow qh = some (.calRecord 5) := by decide +kernel

theorem met_Calibration_11 (h : Obligations.Calibration) :
    type_of% (h.2.2.2.2.2.2.1 qh 5 r2 true test_calRecord_1.1 rfl test_calRecord_1.2 (by decide +kernel) (by decide +kernel) (by decide +kernel)) :=
  h.2.2.2.2.2.2.1 qh 5 r2 true test_calRecord_1.1 rfl test_calRecord_1.2 (by decide +kernel) (by decide +kernel) (by decide +kernel)

theorem met_Calibration_12 (h : Obligations.Calibration) :
    type_of% (h.2.2.2.2.2.2.1 qh 5 r2 false test_calRecord_1.1 rfl test_calRecord_1.2 (by decide +kernel) (by decide +kernel) (by decide +kernel)) :=
  h.2.2.2.2.2.2.1 qh 5 r2 false test_calRecord_1.1 rfl test_calRecord_1.2 (by decide +kernel) (by decide +kernel) (by decide +kernel)

noncomputable def twoBanks : State := withRegs (post R (.calRequest 4 none 0x00210107)) [(.bnk 0, F.BNK_STAT_CHANGING, 1)]

theorem met_Calibration_13 (h : Obligations.Calibration) :
    type_of% ((h.2.2.2.1 twoBanks 5 1 17 400 (by decide +kernel) (by decide +kernel) (by decide +kernel)).1) :=
  (h.2.2.2.1 twoBanks 5 1 17 400 (by decide +kernel) (by decide +kernel) (by decide +kernel)).1

theorem met_Calibration_14 (h : Obligations.Calibration) :
    type_of% ((h.2.2.2.1 twoBanks 5 1 17 400 (by decide +kernel) (by decide +kernel) (by decide +kernel)).1.2.2.2.2.2 0 1 (by decide +kernel) (by decide +kernel) (by decide +kernel) (by decide +kernel) (by decide +kernel)) :=
  (h.2.2.2.1 twoBanks 5 1 17 400 (by decide +kernel) (by decide +kernel) (by decide +kernel)).1.2.2.2.2.2 0 1 (by decide +kernel) (by decide +kernel) (by decide +kernel) (by decide +kernel) (by decide +kernel)

theorem met_Calibration_15 (h : Obligations.Calibration) :
    type_of% (h.2.2.2.2.2.1 qg 5 { r0 with abort := true } (by decide +kernel) (by decide +kernel) (by decide +kernel) (by decide +kernel) (by decide +kernel)) :=
  h.2.2.2.2.2.1 qg 5 { r0 with abort := true } (by decide +kernel) (by decide +kernel) (by decide +kernel) (by decide +kernel) (by decide +kernel)

theorem met_Calibration_18 (h : Obligations.Calibration) :
    type_of% (h.2.2.2.2.2.2.2 R 5 ⟨[], [], List.replicate 17 [1, 2, 3, 4, 5, 6, 7, 8], none, 405⟩ (by decide +kernel) (by decide +kernel)) :=
  h.2.2.2.2.2.2.2 R 5 ⟨[], [], List.replicate 17 [1, 2, 3, 4, 5, 6, 7, 8], none, 405⟩ (by decide +kernel) (by decide +kernel)

end Ch13

/-! Chapter 14: memory. -/

namespace Ch14

theorem met_MemoryRequests_1 (h : Obligations.MemoryRequests) :
    type_of% ((h.2.2.2.1 R 68 0 0x12345 64 7 0 _ none (some [1]) (by decide +kernel) (by decide +kernel) rfl (by decide +kernel)).1 (by decide +kernel) (by decide +kernel)) :=
  (h.2.2.2.1 R 68 0 0x12345 64 7 0 _ none (some [1]) (by decide +kernel) (by decide +kernel) rfl (by decide +kernel)).1 (by decide +kernel) (by decide +kernel)

theorem met_MemoryRequests_2 (h : Obligations.MemoryRequests) :
    type_of% ((h.2.2.2.1 R 68 0 0x12345 64 7 2 _ none (some [1]) (by decide +kernel) (by decide +kernel) rfl (by decide +kernel)).2.2 (by decide +kernel) (by decide +kernel) (by decide +kernel)) :=
  (h.2.2.2.1 R 68 0 0x12345 64 7 2 _ none (some [1]) (by decide +kernel) (by decide +kernel) rfl (by decide +kernel)).2.2 (by decide +kernel) (by decide +kernel) (by decide +kernel)

theorem test_memory_1 : inQuota R 0 (2 ^ 35) 64 = false ∧ inQuota R 0 0x12345 64 = true := by decide +kernel

noncomputable def mr (r addr : Nat) (d : Option (List Nat)) (s : State) : State := post s (.memoryRequest r (some 0) addr 4 d 7 0)

noncomputable def ab : State := post (mr 109 0x12345 none { (withRegs R [(.memDev, F.MEM_SPEED_PENDING, 1)]) with memc := { R.memc with sr := 0 } }) (.speedChangeEntry false)

/-- Engine 3 has a caravan. -/
noncomputable def abW : State := setEng ab 3 { engInit with work := some (work1 st1) }

theorem test_memoryRequest_1 : reqClass 3 = 1 ∧ ab.memc.sr = 1 ∧ ∃ t, exec (.memoryRequest 3 (some 0) 0x40 64 none 9 0) abW = .next t ∧ t.memc.sr = 0 ∧ (rd t .memDev F.INT_RAW).testBit 11 = true ∧ rd t .memDev F.MEM_SPEED_ABORT = 1 := ⟨by decide +kernel, by decide +kernel, ⟨_, rfl, by decide +kernel⟩⟩

noncomputable def q0 : State := mr 109 0x12345 none R

noncomputable def q0r : MemReq := ⟨109, 7, 7, some 0, 0x12345, 4, none, false, 0⟩

theorem test_memory_2 : bestReq q0 9 (chanReqs q0 (chanOfPart R 0 0x12345)) = some q0r := by decide +kernel

theorem met_MemoryRequests_3 (h : Obligations.MemoryRequests) :
    type_of% ((h.2.2.2.2.2.2.1 q0 2 9 0 [3] _ q0r (by decide +kernel) rfl rfl (by decide +kernel) rfl).1 (by decide +kernel) (by decide +kernel)) :=
  (h.2.2.2.2.2.2.1 q0 2 9 0 [3] _ q0r (by decide +kernel) rfl rfl (by decide +kernel) rfl).1 (by decide +kernel) (by decide +kernel)

theorem met_MemoryRequests_4 (h : Obligations.MemoryRequests) :
    type_of% ((h.2.2.2.2.2.2.1 q0 2 9 0 [3, 5, 6, 7, 8] _ q0r (by decide +kernel) rfl rfl (by decide +kernel) rfl).2 (by decide +kernel) (by decide +kernel) (by decide +kernel)) :=
  (h.2.2.2.2.2.2.1 q0 2 9 0 [3, 5, 6, 7, 8] _ q0r (by decide +kernel) rfl rfl (by decide +kernel) rfl).2 (by decide +kernel) (by decide +kernel) (by decide +kernel)

noncomputable def q1 : State := mr 109 0x12345 (some [1, 2, 3, 0]) (setPoison 0x48 13 true (putByte R 0 0x12340 7))

noncomputable def q1r : MemReq := ⟨109, 7, 7, some 0, 0x12345, 4, some [1, 2, 3, 0], false, 0⟩

theorem test_memoryWriteAck_1 : nextReq q1 2 9 = some q1r ∧ reqPoison q1 q1r = true ∧ ∃ t, exec (.memoryWriteAck 2 9 [] 0) q1 = .next t ∧ memByte t 0 0x12345 = 1 ∧ memByte t 0 0x12340 = 0 ∧ poisonAt t 0 0x12345 = false ∧ rd t .memDev F.MEM_UE_INFO_WRITE = 1 ∧ rd t .memDev F.MEM_UE = 1 := ⟨by decide +kernel, by decide +kernel, ⟨_, rfl, by decide +kernel⟩⟩

theorem met_MemoryRequests_5 (h : Obligations.MemoryRequests) :
    type_of% (h.2.2.2.2.2.2.2.2.2.2.1 R 4 0x48 (by decide +kernel)) :=
  h.2.2.2.2.2.2.2.2.2.2.1 R 4 0x48 (by decide +kernel)

theorem met_MemoryRequests_6 (h : Obligations.MemoryRequests) :
    type_of% (h.2.2.2.2.2.2.2.2.2.2.2 (post q1 (.mapLookup 4 0x48)) 1 _ (by decide +kernel) rfl (by decide +kernel) (by decide +kernel)) :=
  h.2.2.2.2.2.2.2.2.2.2.2 (post q1 (.mapLookup 4 0x48)) 1 _ (by decide +kernel) rfl (by decide +kernel) (by decide +kernel)

noncomputable def hot : State := setOwed 5 6 R

theorem met_StackCare_1 (h : Obligations.StackCare) :
    type_of% (h.1 hot 96 (by decide +kernel) (by decide +kernel)) :=
  h.1 hot 96 (by decide +kernel) (by decide +kernel)

theorem met_StackCare_2 (h : Obligations.StackCare) :
    type_of% (h.1 (post hot (.stackTempRead (some 96))) 80 (by decide +kernel) (by decide +kernel)) :=
  h.1 (post hot (.stackTempRead (some 96))) 80 (by decide +kernel) (by decide +kernel)

theorem met_StackCare_3 (h : Obligations.StackCare) :
    type_of% (h.2.1 R) :=
  h.2.1 R

theorem met_StackCare_4 (h : Obligations.StackCare) :
    type_of% ((h.2.2.1 hot 5 (by decide +kernel)).1) :=
  (h.2.2.1 hot 5 (by decide +kernel)).1

theorem met_StackCare_5 (h : Obligations.StackCare) :
    type_of% ((h.2.2.1 hot 5 (by decide +kernel)).2.1 (by decide +kernel)) :=
  (h.2.2.1 hot 5 (by decide +kernel)).2.1 (by decide +kernel)

theorem met_StackCare_6 (h : Obligations.StackCare) :
    type_of% ((h.2.2.1 (setOwed 5 (-8) R) 5 (by decide +kernel)).2.2 (by decide +kernel) (by decide +kernel) (by decide +kernel) (by decide +kernel)) :=
  (h.2.2.1 (setOwed 5 (-8) R) 5 (by decide +kernel)).2.2 (by decide +kernel) (by decide +kernel) (by decide +kernel) (by decide +kernel)

theorem met_StackCare_7 (h : Obligations.StackCare) :
    type_of% (h.2.2.2.1 R 4 1 (by decide +kernel)) :=
  h.2.2.2.1 R 4 1 (by decide +kernel)

noncomputable def sp : State := post R (.speedTargetWrite 4 1)

theorem met_StackCare_8 (h : Obligations.StackCare) :
    type_of% ((h.2.2.2.2.1 sp (by decide +kernel) (by decide +kernel)).1 (by decide +kernel)) :=
  (h.2.2.2.2.1 sp (by decide +kernel) (by decide +kernel)).1 (by decide +kernel)

noncomputable def sp1 : State := post (setOwed 5 6 sp) (.speedChangeEntry false)

theorem met_StackCare_9 (h : Obligations.StackCare) :
    type_of% ((h.2.2.2.2.2.1 sp1 (by decide +kernel)).1 (by decide +kernel)) :=
  (h.2.2.2.2.2.1 sp1 (by decide +kernel)).1 (by decide +kernel)

noncomputable def sp2 : State := post sp1 (.speedChangeEntry true)

theorem test_speedDone_1 : sp2.memc.sr = 2 ∧ ∃ t, exec .speedDone sp2 = .next t ∧ t.memc.sr = 0 ∧ rd t .memDev F.MEM_SPEED_ACTIVE = 1 ∧ rd t .memDev F.MEM_SPEED_PENDING = 0 ∧ (rd t .memDev F.INT_RAW).testBit 10 = true := ⟨by decide +kernel, ⟨_, rfl, by decide +kernel⟩⟩

noncomputable def nr : State := { R with memc := { R.memc with regions := [[1], [], [], []] } }

theorem test_scrubRead_1 : scrubRuns nr = true ∧ ∃ t, exec (.scrubRead [1,2,3,4,5]) nr = .next t ∧ t.memc.scrubBlk = 1 ∧ (mapEnt t 0).poison = 1 ∧ t.memc.cands = [0] ∧ rd t .memDev F.MEM_UE = 1 ∧ rd t .memDev F.MEM_UE_INFO_RESERVED = 1 := ⟨by decide +kernel, ⟨_, rfl, by decide +kernel⟩⟩

noncomputable def ap : State := { nr with memc := { nr.memc with approved := [0x48] } }

theorem met_StackCare_10 (h : Obligations.StackCare) :
    type_of% ((h.2.2.2.2.2.2.2.1 ap 0x48 (by decide +kernel) (by decide +kernel) (by decide +kernel) (by decide +kernel)).1 (by decide +kernel)) :=
  (h.2.2.2.2.2.2.2.1 ap 0x48 (by decide +kernel) (by decide +kernel) (by decide +kernel) (by decide +kernel)).1 (by decide +kernel)

theorem met_StackCare_11 (h : Obligations.StackCare) :
    type_of% ((h.2.2.2.2.2.2.2.1 (withRegs ap [(.memDev, F.MEM_SPARES, 0)]) 0x48 (by decide +kernel) (by decide +kernel) (by decide +kernel) (by decide +kernel)).2 (by decide +kernel)) :=
  (h.2.2.2.2.2.2.2.1 (withRegs ap [(.memDev, F.MEM_SPARES, 0)]) 0x48 (by decide +kernel) (by decide +kernel) (by decide +kernel) (by decide +kernel)).2 (by decide +kernel)

theorem met_StackCare_12 (h : Obligations.StackCare) :
    type_of% (h.2.2.2.2.2.2.2.2.2.1 (post ap (.retirementStart 0x48)) 0x48 (33 * 2 ^ 20) 3 (some 77) (by decide +kernel) (by decide +kernel) (by decide +kernel) (by decide +kernel) (by decide +kernel)) :=
  h.2.2.2.2.2.2.2.2.2.1 (post ap (.retirementStart 0x48)) 0x48 (33 * 2 ^ 20) 3 (some 77) (by decide +kernel) (by decide +kernel) (by decide +kernel) (by decide +kernel) (by decide +kernel)

/-- A site of the frame's partition runs. -/
noncomputable def apBusy : State := site1 3 { R with memc := { R.memc with copying := some (0x48, 33 * 2 ^ 20) } }

theorem met_StackCare_17 (h : Obligations.StackCare) :
    type_of% (h.2.2.2.2.2.2.2.2.1 apBusy 0x48 (33 * 2 ^ 20) 3 none (by decide +kernel) (by decide +kernel)) :=
  h.2.2.2.2.2.2.2.2.1 apBusy 0x48 (33 * 2 ^ 20) 3 none (by decide +kernel) (by decide +kernel)

theorem met_StackCare_13 (h : Obligations.StackCare) :
    type_of% (h.2.2.2.2.2.2.2.2.2.2 { R with memc := { R.memc with clearing := [(1, some 2)] } } 1 (by decide +kernel) (by decide +kernel) (by decide +kernel) (by decide +kernel)) :=
  h.2.2.2.2.2.2.2.2.2.2 { R with memc := { R.memc with clearing := [(1, some 2)] } } 1 (by decide +kernel) (by decide +kernel) (by decide +kernel) (by decide +kernel)

theorem met_MemoryRequests_7 (h : Obligations.MemoryRequests) :
    type_of% ((h.2.2.2.1 R 68 0 0x12345 64 7 0 0x48 none (some [1]) (by decide +kernel) (by decide +kernel) (by decide +kernel) (by decide +kernel)).1 (by decide +kernel) (by decide +kernel)) :=
  (h.2.2.2.1 R 68 0 0x12345 64 7 0 0x48 none (some [1]) (by decide +kernel) (by decide +kernel) (by decide +kernel) (by decide +kernel)).1 (by decide +kernel) (by decide +kernel)

theorem met_MemoryRequests_8 (h : Obligations.MemoryRequests) :
    type_of% ((h.2.2.2.1 R 68 0 (2 ^ 35 - 32) 64 7 0 (32 * 2 ^ 20 - 1) none (some [1]) (by decide +kernel) (by decide +kernel) (by decide +kernel) (by decide +kernel)).2.1 (by decide +kernel)) :=
  (h.2.2.2.1 R 68 0 (2 ^ 35 - 32) 64 7 0 (32 * 2 ^ 20 - 1) none (some [1]) (by decide +kernel) (by decide +kernel) (by decide +kernel) (by decide +kernel)).2.1 (by decide +kernel)

theorem met_MemoryRequests_9 (h : Obligations.MemoryRequests) :
    type_of% (h.2.2.2.2.1 abW 3 0 0x40 64 9 (by decide +kernel) (by decide +kernel) (by decide +kernel)) :=
  h.2.2.2.2.1 abW 3 0 0x40 64 9 (by decide +kernel) (by decide +kernel) (by decide +kernel)

theorem met_MemoryRequests_10 (h : Obligations.MemoryRequests) :
    type_of% (h.2.2.2.2.2.1 q0 9 (chanReqs q0 (chanOfPart R 0 0x12345)) q0r (by decide +kernel)) :=
  h.2.2.2.2.2.1 q0 9 (chanReqs q0 (chanOfPart R 0 0x12345)) q0r (by decide +kernel)

theorem met_MemoryRequests_11 (h : Obligations.MemoryRequests) :
    type_of% ((h.2.2.2.2.2.1 q0 9 (chanReqs q0 (chanOfPart R 0 0x12345)) q0r (by decide +kernel)).2 q0r (by decide +kernel)) :=
  (h.2.2.2.2.2.1 q0 9 (chanReqs q0 (chanOfPart R 0 0x12345)) q0r (by decide +kernel)).2 q0r (by decide +kernel)

theorem met_MemoryRequests_12 (h : Obligations.MemoryRequests) :
    type_of% (h.2.2.2.2.2.2.2.2.1 q1 2 9 0 0x48 [] _ [1, 2, 3, 0] q1r (by decide +kernel) (by decide +kernel) rfl (by decide +kernel) (by decide +kernel) rfl (by decide +kernel) (by decide +kernel) (by decide +kernel)) :=
  h.2.2.2.2.2.2.2.2.1 q1 2 9 0 0x48 [] _ [1, 2, 3, 0] q1r (by decide +kernel) (by decide +kernel) rfl (by decide +kernel) (by decide +kernel) rfl (by decide +kernel) (by decide +kernel) (by decide +kernel)

theorem met_MemoryRequests_13 (h : Obligations.MemoryRequests) :
    type_of% (h.1 R 3 0x40 64 7 0 (some 0) none (by decide +kernel)) :=
  h.1 R 3 0x40 64 7 0 (some 0) none (by decide +kernel)

theorem met_MemoryRequests_14 (h : Obligations.MemoryRequests) :
    type_of% (h.2.1 abW 3 (some 1) (by decide +kernel)) :=
  h.2.1 abW 3 (some 1) (by decide +kernel)

theorem met_MemoryRequests_15 (h : Obligations.MemoryRequests) :
    type_of% ((h.2.1 abW 3 (some 1) (by decide +kernel)).2.2 (work1 st1) rfl) :=
  (h.2.1 abW 3 (some 1) (by decide +kernel)).2.2 (work1 st1) rfl

theorem met_MemoryRequests_16 (h : Obligations.MemoryRequests) :
    type_of% (h.2.2.1 R 0 0x12345 0x48 (by decide +kernel)) :=
  h.2.2.1 R 0 0x12345 0x48 (by decide +kernel)

theorem met_MemoryRequests_17 (h : Obligations.MemoryRequests) :
    type_of% (h.2.2.2.2.2.2.2.1 R 3 [1, 2]) :=
  h.2.2.2.2.2.2.2.1 R 3 [1, 2]

/-- A write of a control core to a reserved region, by its address in the stack. -/
noncomputable def qs : State := post R (.memoryRequest 109 none (32 * 2 ^ 30 + 0x800) 4 (some [1, 2, 3, 0]) 7 0)

noncomputable def qsr : MemReq := ⟨109, 7, 7, none, 32 * 2 ^ 30 + 0x800, 4, some [1, 2, 3, 0], false, 0⟩

theorem met_MemoryRequests_18 (h : Obligations.MemoryRequests) :
    type_of% ((h.2.2.2.2.2.2.2.2.2.1 qs 2 9 [] qsr (by decide +kernel) (by decide +kernel) (by decide +kernel) (by decide +kernel) (by decide +kernel)).1 [1, 2, 3, 0] rfl (by decide +kernel)) :=
  (h.2.2.2.2.2.2.2.2.2.1 qs 2 9 [] qsr (by decide +kernel) (by decide +kernel) (by decide +kernel) (by decide +kernel) (by decide +kernel)).1 [1, 2, 3, 0] rfl (by decide +kernel)

noncomputable def qt : State := post R (.memoryRequest 109 none (32 * 2 ^ 30 + 0x800) 4 none 7 0)

theorem met_MemoryRequests_19 (h : Obligations.MemoryRequests) :
    type_of% ((h.2.2.2.2.2.2.2.2.2.1 qt 2 9 [3, 5] { qsr with data := none } (by decide +kernel) (by decide +kernel) (by decide +kernel) (by decide +kernel) (by decide +kernel)).2 rfl (by decide +kernel)) :=
  (h.2.2.2.2.2.2.2.2.2.1 qt 2 9 [3, 5] { qsr with data := none } (by decide +kernel) (by decide +kernel) (by decide +kernel) (by decide +kernel) (by decide +kernel)).2 rfl (by decide +kernel)

noncomputable def spRun : State := site1 3 sp

theorem met_StackCare_14 (h : Obligations.StackCare) :
    type_of% ((h.2.2.2.2.1 spRun (by decide +kernel) (by decide +kernel)).2 1 (by decide +kernel) (by decide +kernel)) :=
  (h.2.2.2.2.1 spRun (by decide +kernel) (by decide +kernel)).2 1 (by decide +kernel) (by decide +kernel)

theorem met_StackCare_15 (h : Obligations.StackCare) :
    type_of% ((h.2.2.2.2.2.1 sp2 (by decide +kernel)).2 (by decide +kernel)) :=
  (h.2.2.2.2.2.1 sp2 (by decide +kernel)).2 (by decide +kernel)

theorem met_StackCare_16 (h : Obligations.StackCare) :
    type_of% (h.2.2.2.2.2.2.1 nr [1, 2, 3, 4, 5] (by decide +kernel) (by decide +kernel)) :=
  h.2.2.2.2.2.2.1 nr [1, 2, 3, 4, 5] (by decide +kernel) (by decide +kernel)

end Ch14

/-! Chapter 15: partitions, rings and the host. -/

namespace Ch15

theorem met_PartitionMap_1 (h : Obligations.PartitionMap) :
    type_of% ((h.1 R 4 33 (by decide +kernel) (by decide +kernel)).1 (by decide +kernel)) :=
  (h.1 R 4 33 (by decide +kernel) (by decide +kernel)).1 (by decide +kernel)

theorem met_PartitionMap_2 (h : Obligations.PartitionMap) :
    type_of% ((h.1 R 4 33 (by decide +kernel) (by decide +kernel)).2.1 (by decide +kernel)) :=
  (h.1 R 4 33 (by decide +kernel) (by decide +kernel)).2.1 (by decide +kernel)

noncomputable def qsh : State := post (putByte R 0 (17 * 2 ^ 30) 5) (.quotaWrite 4 0x00001010)

theorem test_host_1 : quotaBad R 0x00001010 = false ∧ rd qsh .hifDev (quotaFld 0) = 16 ∧ quotaGib qsh 0 = 16 ∧ quotaGib qsh 1 = 0 ∧ memByte qsh 0 (17 * 2 ^ 30) = 0 := by decide +kernel

theorem met_PartitionMap_3 (h : Obligations.PartitionMap) :
    type_of% ((h.2.1 R 4 0x00000020 false F.HIF_BANK_OWN_LO rfl (by decide +kernel) (by decide +kernel) (by decide +kernel) _ rfl _ rfl).1 (by decide +kernel)) :=
  (h.2.1 R 4 0x00000020 false F.HIF_BANK_OWN_LO rfl (by decide +kernel) (by decide +kernel) (by decide +kernel) _ rfl _ rfl).1 (by decide +kernel)

theorem met_PartitionMap_4 (h : Obligations.PartitionMap) :
    type_of% ((h.2.1 R 4 0x00000040 false F.HIF_BANK_OWN_LO rfl (by decide +kernel) (by decide +kernel) (by decide +kernel) _ rfl _ rfl).2 1 (by decide +kernel) (by decide +kernel) (by decide +kernel)) :=
  (h.2.1 R 4 0x00000040 false F.HIF_BANK_OWN_LO rfl (by decide +kernel) (by decide +kernel) (by decide +kernel) _ rfl _ rfl).2 1 (by decide +kernel) (by decide +kernel) (by decide +kernel)

noncomputable def mv : State := post (withRegs R [(.bnk 1, F.BNK_FOLLOW_EN, 1)]) (.bankOwnerChange 4 false 0x20)

theorem test_bankMoveDone_1 : mv.hif.moving.contains 1 = true ∧ ∃ t, exec (.bankMoveDone 1) mv = .next t ∧ t.hif.moving = [] ∧ rd t .hifDev F.HIF_DEV_STAT_MOVING = 0 ∧ rd t (.bnk 1) F.BNK_FOLLOW_EN = 0 ∧ timingSet t 1 5 = setReset := ⟨by decide +kernel, ⟨_, rfl, by decide +kernel⟩⟩

theorem met_PartitionMap_5 (h : Obligations.PartitionMap) :
    type_of% (h.2.2.2.1 R 0 0 0x14 (by decide +kernel) (by decide +kernel) (by decide +kernel) (by decide +kernel)) :=
  h.2.2.2.1 R 0 0 0x14 (by decide +kernel) (by decide +kernel) (by decide +kernel) (by decide +kernel)

theorem met_PartitionMap_6 (h : Obligations.PartitionMap) :
    type_of% (h.2.2.2.2.1 (withRegs R [(.hifPart 0, F.HIF_P_WIN, 0x17)]) 0 31 (by decide +kernel) (by decide +kernel) (by decide +kernel)) :=
  h.2.2.2.2.1 (withRegs R [(.hifPart 0, F.HIF_P_WIN, 0x17)]) 0 31 (by decide +kernel) (by decide +kernel) (by decide +kernel)

noncomputable def bx : State := setPoison 0 1 true R

theorem met_PartitionMap_7 (h : Obligations.PartitionMap) :
    type_of% ((h.2.2.2.2.2.1 bx 0 0x48 _ [1, 2, 3] (by decide +kernel) (by decide +kernel) (by decide +kernel) (by decide +kernel) (by decide +kernel) rfl (by decide +kernel)).1) :=
  (h.2.2.2.2.2.1 bx 0 0x48 _ [1, 2, 3] (by decide +kernel) (by decide +kernel) (by decide +kernel) (by decide +kernel) (by decide +kernel) rfl (by decide +kernel)).1

theorem met_PartitionMap_8 (h : Obligations.PartitionMap) :
    type_of% ((h.2.2.2.2.2.1 (withRegs bx [(.hifPart 0, F.HIF_P_WIN, 0x7f)]) 0 (2 ^ 28) _ [1, 2, 3] (by decide +kernel) (by decide +kernel) (by decide +kernel) (by decide +kernel) (by decide +kernel) rfl (by decide +kernel)).2.1 (by decide +kernel)) :=
  (h.2.2.2.2.2.1 (withRegs bx [(.hifPart 0, F.HIF_P_WIN, 0x7f)]) 0 (2 ^ 28) _ [1, 2, 3] (by decide +kernel) (by decide +kernel) (by decide +kernel) (by decide +kernel) (by decide +kernel) rfl (by decide +kernel)).2.1 (by decide +kernel)

theorem test_bar2Write_1 : hostQuota bx 0 0x48 3 = true ∧ ∃ t, exec (.bar2Write 0 0x48 [1, 2, 3] false) bx = .next t ∧ memByte t 0 0x49 = 2 ∧ poisonAt t 0 0x48 = false ∧ rd t .memDev F.MEM_UE_INFO_WRITE = 1 := ⟨by decide +kernel, ⟨_, rfl, by decide +kernel⟩⟩

theorem met_PartitionMap_9 (h : Obligations.PartitionMap) :
    type_of% ((h.2.2.2.2.2.2.1 bx 0 0x88 _ 3 [] (by decide +kernel) (by decide +kernel) (by decide +kernel) (by decide +kernel) (by decide +kernel) rfl (by decide +kernel) (by decide +kernel) (by decide +kernel)).2.1 (by decide +kernel) (by decide +kernel) (by decide +kernel)) :=
  (h.2.2.2.2.2.2.1 bx 0 0x88 _ 3 [] (by decide +kernel) (by decide +kernel) (by decide +kernel) (by decide +kernel) (by decide +kernel) rfl (by decide +kernel) (by decide +kernel) (by decide +kernel)).2.1 (by decide +kernel) (by decide +kernel) (by decide +kernel)

theorem met_PartitionMap_10 (h : Obligations.PartitionMap) :
    type_of% ((h.2.2.2.2.2.2.1 bx 0 0x48 _ 3 [] (by decide +kernel) (by decide +kernel) (by decide +kernel) (by decide +kernel) (by decide +kernel) rfl (by decide +kernel) (by decide +kernel) (by decide +kernel)).2.2 (by decide +kernel) (by decide +kernel) (.inl (by decide +kernel))) :=
  (h.2.2.2.2.2.2.1 bx 0 0x48 _ 3 [] (by decide +kernel) (by decide +kernel) (by decide +kernel) (by decide +kernel) (by decide +kernel) rfl (by decide +kernel) (by decide +kernel) (by decide +kernel)).2.2 (by decide +kernel) (by decide +kernel) (.inl (by decide +kernel))

noncomputable def rg : State := withRegs R [(.bar4 0, F.RING_BASE_LO 5, 0x4000), (.bar4 0, F.RING_LOW 5, 2048)]

theorem met_RingsAndPorts_1 (h : Obligations.RingsAndPorts) :
    type_of% ((h.1 rg 0 5 0x813 _ _ (by decide +kernel) (by decide +kernel) (by decide +kernel) rfl rfl).1 (by decide +kernel) (by decide +kernel) (by decide +kernel)) :=
  (h.1 rg 0 5 0x813 _ _ (by decide +kernel) (by decide +kernel) (by decide +kernel) rfl rfl).1 (by decide +kernel) (by decide +kernel) (by decide +kernel)

theorem met_RingsAndPorts_2 (h : Obligations.RingsAndPorts) :
    type_of% ((h.1 rg 0 5 0x81f _ _ (by decide +kernel) (by decide +kernel) (by decide +kernel) rfl rfl).2 (by decide +kernel)) :=
  (h.1 rg 0 5 0x81f _ _ (by decide +kernel) (by decide +kernel) (by decide +kernel) rfl rfl).2 (by decide +kernel)

noncomputable def rg1 : State := post rg (.ringCtrlWrite 0 5 0x811)

theorem met_RingsAndPorts_3 (h : Obligations.RingsAndPorts) :
    type_of% (h.2.1 rg1 0 5 64 (by decide +kernel) (by decide +kernel) (by decide +kernel) (by decide +kernel)) :=
  h.2.1 rg1 0 5 64 (by decide +kernel) (by decide +kernel) (by decide +kernel) (by decide +kernel)

theorem met_RingsAndPorts_4 (h : Obligations.RingsAndPorts) :
    type_of% (h.2.1 rg1 0 5 (2 ^ 30) (by decide +kernel) (by decide +kernel) (by decide +kernel) (by decide +kernel)) :=
  h.2.1 rg1 0 5 (2 ^ 30) (by decide +kernel) (by decide +kernel) (by decide +kernel) (by decide +kernel)

noncomputable def rg2 : State := post rg (.ringCtrlWrite 0 5 0x813)

theorem met_RingsAndPorts_5 (h : Obligations.RingsAndPorts) :
    type_of% (h.2.1 rg2 0 5 64 (by decide +kernel) (by decide +kernel) (by decide +kernel) (by decide +kernel)) :=
  h.2.1 rg2 0 5 64 (by decide +kernel) (by decide +kernel) (by decide +kernel) (by decide +kernel)

theorem met_RingsAndPorts_6 (h : Obligations.RingsAndPorts) :
    type_of% (h.2.2.1 rg2 0 5 64 (by decide +kernel) (by decide +kernel) (by decide +kernel)) :=
  h.2.2.1 rg2 0 5 64 (by decide +kernel) (by decide +kernel) (by decide +kernel)

theorem met_RingsAndPorts_7 (h : Obligations.RingsAndPorts) :
    type_of% (h.2.2.1 rg2 0 5 63 (by decide +kernel) (by decide +kernel) (by decide +kernel)) :=
  h.2.2.1 rg2 0 5 63 (by decide +kernel) (by decide +kernel) (by decide +kernel)

noncomputable def rg3 : State := post rg2 (.ringFetchPush 0 5 64)

theorem met_RingsAndPorts_8 (h : Obligations.RingsAndPorts) :
    type_of% ((h.2.2.2.1 rg3 0 5 ⟨0, 64⟩ [] (by decide +kernel) (by decide +kernel) (by decide +kernel)).1 (by decide +kernel) (by decide +kernel) (by decide +kernel) (by decide +kernel)) :=
  (h.2.2.2.1 rg3 0 5 ⟨0, 64⟩ [] (by decide +kernel) (by decide +kernel) (by decide +kernel)).1 (by decide +kernel) (by decide +kernel) (by decide +kernel) (by decide +kernel)

noncomputable def rg4 : State := post rg3 (.ringFetchStart 0 5)

theorem test_ringFetchDone_1 : fetching rg4 0 5 = true ∧ ∃ t, exec (.ringFetchDone 0 5 (List.replicate 64 7)) rg4 = .next t ∧ fetchOf t 0 5 = [] ∧ rd t (.bar4 0) (F.RING_WR 5) = 64 ∧ memByte t 0 (0x40000000 + 63) = 7 := ⟨by decide +kernel, ⟨_, rfl, by decide +kernel⟩⟩

theorem met_RingsAndPorts_9 (h : Obligations.RingsAndPorts) :
    type_of% (h.2.2.2.2.1 rg4 0 5 true (by decide +kernel) (by decide +kernel) (by decide +kernel)) :=
  h.2.2.2.2.1 rg4 0 5 true (by decide +kernel) (by decide +kernel) (by decide +kernel)

theorem met_RingsAndPorts_10 (h : Obligations.RingsAndPorts) :
    type_of% (h.2.2.2.2.1 rg4 0 3 false (by decide +kernel) (by decide +kernel) (by decide +kernel)) :=
  h.2.2.2.2.1 rg4 0 3 false (by decide +kernel) (by decide +kernel) (by decide +kernel)

theorem met_RingsAndPorts_11 (h : Obligations.RingsAndPorts) :
    type_of% (h.2.2.2.2.2.1 (withRegs R [(.bar4 0, F.MSIX_PBA 1, 2)]) 0 33 (by decide +kernel) (by decide +kernel) (by decide +kernel)) :=
  h.2.2.2.2.2.1 (withRegs R [(.bar4 0, F.MSIX_PBA 1, 2)]) 0 33 (by decide +kernel) (by decide +kernel) (by decide +kernel)

theorem test_host_2 : pageOfAddr (pageBase .memDev + F.INT_RAW.off) = some (.memDev, F.INT_RAW.off) ∧ MayWrite R 4 .memDev F.INT_RAW.off false ∧ MayWrite R 4 .memDev F.INT_SET.off false := by decide +kernel

noncomputable def ps : State := { site1 3 with mem := [(5, 6)] }

theorem test_partitionReset_1 : (rd (post ps (.partitionReset 0 2)) .hifDev F.HIF_DEV_STAT_PRESET).testBit 0 = true ∧ (siteOf (post ps (.partitionReset 0 2)) 1).owner = none ∧ siteState (post ps (.partitionReset 0 2)) 1 = 0 ∧
   (∀ k < 4, rd (post ps (.partitionReset 0 2)) .hifDev (quotaFld k) = rd ps .hifDev (quotaFld k)) := by decide +kernel

noncomputable def pr : State := post ps (.partitionReset 0 2)

theorem test_partitionResetDone_1 : (rd (post pr (.partitionResetDone 0)) .hifDev F.HIF_DEV_STAT_PRESET).testBit 0 = false ∧ barLog (post pr (.partitionResetDone 0)) 0 = 30 ∧ (post pr (.partitionResetDone 0)).mem = [(5,6)] := by decide +kernel

theorem met_RingsAndPorts_12 (h : Obligations.RingsAndPorts) :
    type_of% (h.2.2.2.2.2.2.2.2.2.1 R 2 (by decide +kernel) (by decide +kernel) (by decide +kernel) (by decide +kernel)) :=
  h.2.2.2.2.2.2.2.2.2.1 R 2 (by decide +kernel) (by decide +kernel) (by decide +kernel) (by decide +kernel)

theorem met_RingsAndPorts_13 (h : Obligations.RingsAndPorts) :
    type_of% ((h.2.2.2.2.2.2.2.2.2.2.1 (post R (.pcieLinkTrainingStart ⟨2, true⟩)) 2 5 2 (by decide +kernel) (by decide +kernel)).1 (by decide +kernel) (by decide +kernel) (by decide +kernel)) :=
  (h.2.2.2.2.2.2.2.2.2.2.1 (post R (.pcieLinkTrainingStart ⟨2, true⟩)) 2 5 2 (by decide +kernel) (by decide +kernel)).1 (by decide +kernel) (by decide +kernel) (by decide +kernel)

theorem met_RingsAndPorts_25 (h : Obligations.RingsAndPorts) :
    type_of% ((h.2.2.2.2.2.2.2.2.2.2.1 (post R (.pcieLinkTrainingStart ⟨2, true⟩)) 2 7 2 (by decide +kernel) (by decide +kernel)).2 (.inl (by decide +kernel))) :=
  (h.2.2.2.2.2.2.2.2.2.2.1 (post R (.pcieLinkTrainingStart ⟨2, true⟩)) 2 7 2 (by decide +kernel) (by decide +kernel)).2 (.inl (by decide +kernel))

theorem met_RingsAndPorts_14 (h : Obligations.RingsAndPorts) :
    type_of% ((h.2.2.2.2.2.2.2.2.2.2.2 R 1 2 0x701 7 0 (by decide +kernel) (by decide +kernel) (by decide +kernel) (by decide +kernel) (by decide +kernel)).1 (by decide +kernel) (by decide +kernel) (by decide +kernel)) :=
  (h.2.2.2.2.2.2.2.2.2.2.2 R 1 2 0x701 7 0 (by decide +kernel) (by decide +kernel) (by decide +kernel) (by decide +kernel) (by decide +kernel)).1 (by decide +kernel) (by decide +kernel) (by decide +kernel)

noncomputable def dr : State := withRegs R [(.bar4 1, F.DESC_CTRL_EN 2, 1), (.bar4 1, F.DESC_CPL_PROD 2, 3)]

theorem met_RingsAndPorts_15 (h : Obligations.RingsAndPorts) :
    type_of% ((h.2.2.2.2.2.2.2.2.2.2.2 dr 1 2 0x701 7 0 (by decide +kernel) (by decide +kernel) (by decide +kernel) (by decide +kernel) (by decide +kernel)).2.2.1 (.inr (.inr (by decide +kernel)))) :=
  (h.2.2.2.2.2.2.2.2.2.2.2 dr 1 2 0x701 7 0 (by decide +kernel) (by decide +kernel) (by decide +kernel) (by decide +kernel) (by decide +kernel)).2.2.1 (.inr (.inr (by decide +kernel)))

theorem met_RingsAndPorts_26 (h : Obligations.RingsAndPorts) :
    type_of% ((h.2.2.2.2.2.2.2.2.2.2.2 dr 1 2 0x401 4 0 (by decide +kernel) (by decide +kernel) (by decide +kernel) (by decide +kernel) (by decide +kernel)).2.1 (by decide +kernel) (by decide +kernel) (by decide +kernel) (by decide +kernel)) :=
  (h.2.2.2.2.2.2.2.2.2.2.2 dr 1 2 0x401 4 0 (by decide +kernel) (by decide +kernel) (by decide +kernel) (by decide +kernel) (by decide +kernel)).2.1 (by decide +kernel) (by decide +kernel) (by decide +kernel) (by decide +kernel)

theorem met_RingsAndPorts_27 (h : Obligations.RingsAndPorts) :
    type_of% ((h.2.2.2.2.2.2.2.2.2.2.2 R 1 2 0x301 3 0 (by decide +kernel) (by decide +kernel) (by decide +kernel) (by decide +kernel) (by decide +kernel)).2.2.1 (.inl (by decide +kernel))) :=
  (h.2.2.2.2.2.2.2.2.2.2.2 R 1 2 0x301 3 0 (by decide +kernel) (by decide +kernel) (by decide +kernel) (by decide +kernel) (by decide +kernel)).2.2.1 (.inl (by decide +kernel))

theorem test_descProdWrite_1 : cntDiff 16 0 ≤ 2 ^ rd dr (.bar4 1) (F.DESC_CTRL_SIZE 2) ∧ rd (post dr (.descProdWrite 1 2 16)) (.bar4 1) (F.DESC_PROD 2) = 16 := by decide +kernel

theorem met_RingsAndPorts_16 (h : Obligations.RingsAndPorts) :
    type_of% ((h.2.2.2.2.2.2.2.2.2.2.2 dr 1 2 0x701 7 17 (by decide +kernel) (by decide +kernel) (by decide +kernel) (by decide +kernel) (by decide +kernel)).2.2.2.2.1 (by decide +kernel)) :=
  (h.2.2.2.2.2.2.2.2.2.2.2 dr 1 2 0x701 7 17 (by decide +kernel) (by decide +kernel) (by decide +kernel) (by decide +kernel) (by decide +kernel)).2.2.2.2.1 (by decide +kernel)

theorem met_RingsAndPorts_17 (h : Obligations.RingsAndPorts) :
    type_of% ((h.2.2.2.2.2.2.2.2.2.2.2 dr 1 2 0x701 7 3 (by decide +kernel) (by decide +kernel) (by decide +kernel) (by decide +kernel) (by decide +kernel)).2.2.2.2.2.1 (by decide +kernel)) :=
  (h.2.2.2.2.2.2.2.2.2.2.2 dr 1 2 0x701 7 3 (by decide +kernel) (by decide +kernel) (by decide +kernel) (by decide +kernel) (by decide +kernel)).2.2.2.2.2.1 (by decide +kernel)

theorem met_RingsAndPorts_18 (h : Obligations.RingsAndPorts) :
    type_of% ((h.2.2.2.2.2.2.2.2.2.2.2 dr 1 2 0x701 7 4 (by decide +kernel) (by decide +kernel) (by decide +kernel) (by decide +kernel) (by decide +kernel)).2.2.2.2.2.2 (by decide +kernel)) :=
  (h.2.2.2.2.2.2.2.2.2.2.2 dr 1 2 0x701 7 4 (by decide +kernel) (by decide +kernel) (by decide +kernel) (by decide +kernel) (by decide +kernel)).2.2.2.2.2.2 (by decide +kernel)

theorem met_PartitionMap_11 (h : Obligations.PartitionMap) :
    type_of% ((h.1 (site1 3) 4 0x10 (by decide +kernel) (by decide +kernel)).2.2.1 0 (by decide +kernel) (by decide +kernel)) :=
  (h.1 (site1 3) 4 0x10 (by decide +kernel) (by decide +kernel)).2.2.1 0 (by decide +kernel) (by decide +kernel)

theorem met_PartitionMap_12 (h : Obligations.PartitionMap) :
    type_of% ((h.1 R 4 0x00001010 (by decide +kernel) (by decide +kernel)).2.2.2 (by decide +kernel)) :=
  (h.1 R 4 0x00001010 (by decide +kernel) (by decide +kernel)).2.2.2 (by decide +kernel)

theorem met_PartitionMap_13 (h : Obligations.PartitionMap) :
    type_of% (h.2.2.1 mv 1 (by decide +kernel) (by decide +kernel)) :=
  h.2.2.1 mv 1 (by decide +kernel) (by decide +kernel)

theorem met_PartitionMap_14 (h : Obligations.PartitionMap) :
    type_of% ((h.2.2.2.2.2.1 bx 0 0x48 _ [1, 2, 3] (by decide +kernel) (by decide +kernel) (by decide +kernel) (by decide +kernel) (by decide +kernel) rfl (by decide +kernel)).2.2 (by decide +kernel) (by decide +kernel)) :=
  (h.2.2.2.2.2.1 bx 0 0x48 _ [1, 2, 3] (by decide +kernel) (by decide +kernel) (by decide +kernel) (by decide +kernel) (by decide +kernel) rfl (by decide +kernel)).2.2 (by decide +kernel) (by decide +kernel)

theorem met_PartitionMap_15 (h : Obligations.PartitionMap) :
    type_of% ((h.2.2.2.2.2.2.1 (withRegs bx [(.hifPart 0, F.HIF_P_WIN, 0x7f)]) 0 (2 ^ 28) _ 3 [] (by decide +kernel) (by decide +kernel) (by decide +kernel) (by decide +kernel) (by decide +kernel) rfl (by decide +kernel) (by decide +kernel) (by decide +kernel)).1 (by decide +kernel)) :=
  (h.2.2.2.2.2.2.1 (withRegs bx [(.hifPart 0, F.HIF_P_WIN, 0x7f)]) 0 (2 ^ 28) _ 3 [] (by decide +kernel) (by decide +kernel) (by decide +kernel) (by decide +kernel) (by decide +kernel) rfl (by decide +kernel) (by decide +kernel) (by decide +kernel)).1 (by decide +kernel)

theorem met_PartitionMap_16 (h : Obligations.PartitionMap) :
    type_of% ((h.2.2.2.2.2.2.2 bx 0 (2 ^ 30 - 1) 2 [] [] false (by decide +kernel)).2.1 (by decide +kernel) (by decide +kernel) (by decide +kernel)) :=
  (h.2.2.2.2.2.2.2 bx 0 (2 ^ 30 - 1) 2 [] [] false (by decide +kernel)).2.1 (by decide +kernel) (by decide +kernel) (by decide +kernel)

theorem met_PartitionMap_17 (h : Obligations.PartitionMap) :
    type_of% ((h.2.2.2.2.2.2.2 bx 0 (2 ^ 30 - 1) 2 [] [1, 2] false (by decide +kernel)).2.2.1 (by decide +kernel) (by decide +kernel) (by decide +kernel)) :=
  (h.2.2.2.2.2.2.2 bx 0 (2 ^ 30 - 1) 2 [] [1, 2] false (by decide +kernel)).2.2.1 (by decide +kernel) (by decide +kernel) (by decide +kernel)

/-- The frame of the block is being copied (R394). -/
noncomputable def bc : State := { R with memc := { R.memc with copying := some (0x48, 33 * 2 ^ 20) } }

theorem met_PartitionMap_18 (h : Obligations.PartitionMap) :
    type_of% ((h.2.2.2.2.2.2.2 bc 0 0x12300 2 [] [1, 2] false (by decide +kernel)).2.2.2.1 (by decide +kernel) (.inr (by decide +kernel))) :=
  (h.2.2.2.2.2.2.2 bc 0 0x12300 2 [] [1, 2] false (by decide +kernel)).2.2.2.1 (by decide +kernel) (.inr (by decide +kernel))

theorem met_PartitionMap_19 (h : Obligations.PartitionMap) :
    type_of% ((h.2.2.2.2.2.2.2 bc 0 0x12300 2 [] [1, 2] false (by decide +kernel)).2.2.2.2 (by decide +kernel) (.inr (by decide +kernel))) :=
  (h.2.2.2.2.2.2.2 bc 0 0x12300 2 [] [1, 2] false (by decide +kernel)).2.2.2.2 (by decide +kernel) (.inr (by decide +kernel))

theorem met_RingsAndPorts_19 (h : Obligations.RingsAndPorts) :
    type_of% ((h.2.2.2.1 rg4 0 5 ⟨0, 64⟩ [] (by decide +kernel) (by decide +kernel) (by decide +kernel)).2 (List.replicate 64 7) (by decide +kernel) (by decide +kernel) (by decide +kernel) (by decide +kernel) (by decide +kernel)) :=
  (h.2.2.2.1 rg4 0 5 ⟨0, 64⟩ [] (by decide +kernel) (by decide +kernel) (by decide +kernel)).2 (List.replicate 64 7) (by decide +kernel) (by decide +kernel) (by decide +kernel) (by decide +kernel) (by decide +kernel)

theorem met_RingsAndPorts_20 (h : Obligations.RingsAndPorts) :
    type_of% ((h.2.2.2.2.2.2.1 R 4 (pageBase .memDev + F.INT_RAW.off) F.INT_RAW.off 5 .memDev (by decide +kernel) (by decide +kernel)).1 (by decide +kernel)) :=
  (h.2.2.2.2.2.2.1 R 4 (pageBase .memDev + F.INT_RAW.off) F.INT_RAW.off 5 .memDev (by decide +kernel) (by decide +kernel)).1 (by decide +kernel)

theorem met_RingsAndPorts_21 (h : Obligations.RingsAndPorts) :
    type_of% ((h.2.2.2.2.2.2.1 R 4 (pageBase .memDev + F.INT_SET.off) F.INT_SET.off 5 .memDev (by decide +kernel) (by decide +kernel)).2 (by decide +kernel)) :=
  (h.2.2.2.2.2.2.1 R 4 (pageBase .memDev + F.INT_SET.off) F.INT_SET.off 5 .memDev (by decide +kernel) (by decide +kernel)).2 (by decide +kernel)

theorem met_RingsAndPorts_22 (h : Obligations.RingsAndPorts) :
    type_of% (h.2.2.2.2.2.2.2.1 ps 0 2 (by decide +kernel) (by decide +kernel)) :=
  h.2.2.2.2.2.2.2.1 ps 0 2 (by decide +kernel) (by decide +kernel)

theorem met_RingsAndPorts_23 (h : Obligations.RingsAndPorts) :
    type_of% (h.2.2.2.2.2.2.2.2.1 pr 0 (by decide +kernel) (by decide +kernel)) :=
  h.2.2.2.2.2.2.2.2.1 pr 0 (by decide +kernel) (by decide +kernel)

theorem met_RingsAndPorts_24 (h : Obligations.RingsAndPorts) :
    type_of% ((h.2.2.2.2.2.2.2.2.2.2.2 dr 1 2 0x701 7 16 (by decide +kernel) (by decide +kernel) (by decide +kernel) (by decide +kernel) (by decide +kernel)).2.2.2.1 (by decide +kernel)) :=
  (h.2.2.2.2.2.2.2.2.2.2.2 dr 1 2 0x701 7 16 (by decide +kernel) (by decide +kernel) (by decide +kernel) (by decide +kernel) (by decide +kernel)).2.2.2.1 (by decide +kernel)

end Ch15

/-! Chapter 16: register accesses. -/

namespace Ch16

noncomputable def hm : HoldMeas := ⟨0, 0, 0⟩

theorem met_RegisterAccesses_1 (h : Obligations.RegisterAccesses) :
    type_of% ((h.1 R 0 (pageBase .memDev + 0x14) 0x55 .memDev hm (by decide +kernel)).1 (by decide +kernel) (by decide +kernel)) :=
  (h.1 R 0 (pageBase .memDev + 0x14) 0x55 .memDev hm (by decide +kernel)).1 (by decide +kernel) (by decide +kernel)

theorem met_RegisterAccesses_2 (h : Obligations.RegisterAccesses) :
    type_of% ((h.1 R 4 (pageBase (.bnk 3) + 0x34) 0x50055 (.bnk 3) hm (by decide +kernel)).2.1 (by decide +kernel) (by decide +kernel)) :=
  (h.1 R 4 (pageBase (.bnk 3) + 0x34) 0x50055 (.bnk 3) hm (by decide +kernel)).2.1 (by decide +kernel) (by decide +kernel)

theorem met_RegisterAccesses_3 (h : Obligations.RegisterAccesses) :
    type_of% ((h.1 R 4 (pageBase (.bnk 3) + 0x3C) 3 (.bnk 3) hm (by decide +kernel)).2.2 (by decide +kernel) (by decide +kernel)) :=
  (h.1 R 4 (pageBase (.bnk 3) + 0x3C) 3 (.bnk 3) hm (by decide +kernel)).2.2 (by decide +kernel) (by decide +kernel)

theorem met_RegisterAccesses_4 (h : Obligations.RegisterAccesses) :
    type_of% (h.2.1 R 4 _ 79 hm rfl (by decide +kernel)) :=
  h.2.1 R 4 _ 79 hm rfl (by decide +kernel)

theorem met_RegisterAccesses_5 (h : Obligations.RegisterAccesses) :
    type_of% (h.2.1 R 4 _ 90 hm rfl (by decide +kernel)) :=
  h.2.1 R 4 _ 90 hm rfl (by decide +kernel)

theorem test_registerWrite_1 : locate 1 0xFF0000 = none ∧ rd (post R (.registerWrite 1 0xFF0000 4 15 1 hm)) (.hifPart 1) F.BAD_ACCESS = 1 := by decide +kernel

theorem test_registerWrite_2 : mayWriteAt R 1 .memDev 0x108 = false ∧ hostServed R 1 .memDev 0x108 = true ∧ pageOn R .memDev = true ∧ rd (post R (.registerWrite 1 (pageBase .memDev + 0x108) 4 15 80 hm)) (.hifPart 1) F.NONOWN_WR = 1 := by decide +kernel

theorem test_access_1 : locate 1 (pageBase .memDev + 0x108) = some (.memDev, 0x108) ∧ hostServed State.reset 1 .memDev 0x108 = false := by decide +kernel

theorem met_RegisterAccesses_6 (h : Obligations.RegisterAccesses) :
    type_of% (h.2.2.2.2.1 R 4 (pageBase (.bnk 1) + F.BNK_SPARE_PIN.off) _ 0x13 (.bnk 1) rfl (by decide +kernel) (by decide +kernel)) :=
  h.2.2.2.2.1 R 4 (pageBase (.bnk 1) + F.BNK_SPARE_PIN.off) _ 0x13 (.bnk 1) rfl (by decide +kernel) (by decide +kernel)

noncomputable def po : State := post R (.complementPairOpen 4 (pageBase (.bnk 1) + F.BNK_SPARE_PIN.off) 0x13)

theorem met_RegisterAccesses_7 (h : Obligations.RegisterAccesses) :
    type_of% (h.2.2.2.2.1 po 4 (pageBase (.bnk 1) + F.BNK_SPARE_PIN.off) _ 0x15 (.bnk 1) rfl (by decide +kernel) (by decide +kernel)) :=
  h.2.2.2.2.1 po 4 (pageBase (.bnk 1) + F.BNK_SPARE_PIN.off) _ 0x15 (.bnk 1) rfl (by decide +kernel) (by decide +kernel)

theorem met_RegisterAccesses_8 (h : Obligations.RegisterAccesses) :
    type_of% (h.2.2.2.2.2.1 po 4 (pageBase (.bnk 1) + F.BNK_SPARE_PIN.off) _ (.bnk 1) rfl (by decide +kernel)) :=
  h.2.2.2.2.2.1 po 4 (pageBase (.bnk 1) + F.BNK_SPARE_PIN.off) _ (.bnk 1) rfl (by decide +kernel)

noncomputable def led : State := withRegs R [(.cmpPart 0, F.CMP_LED_WCNT, 0x500000000)]

theorem met_RegisterAccesses_9 (h : Obligations.RegisterAccesses) :
    type_of% (h.2.2.2.2.2.2.1 led 0 (pageBase (.cmpPart 0) + F.CMP_LED_RCNT.off) 7 (.cmpPart 0) ((wideAt (.cmpPart 0) F.CMP_LED_RCNT.off).get (by decide +kernel)) (by decide +kernel) (Option.some_get _).symm (by decide +kernel)) :=
  h.2.2.2.2.2.2.1 led 0 (pageBase (.cmpPart 0) + F.CMP_LED_RCNT.off) 7 (.cmpPart 0) ((wideAt (.cmpPart 0) F.CMP_LED_RCNT.off).get (by decide +kernel)) (by decide +kernel) (Option.some_get _).symm (by decide +kernel)

noncomputable def led1 : State := post led (.lowWordWrite 0 (pageBase (.cmpPart 0) + F.CMP_LED_RCNT.off) 7)

theorem met_RegisterAccesses_10 (h : Obligations.RegisterAccesses) :
    type_of% ((h.2.2.2.2.2.2.2.1 led1 0 0 7 1 (by decide +kernel) (by decide +kernel) (by decide +kernel) (by decide +kernel) (by decide +kernel) (by decide +kernel) (by decide +kernel)).1 (by decide +kernel) (by decide +kernel) (by decide +kernel)) :=
  (h.2.2.2.2.2.2.2.1 led1 0 0 7 1 (by decide +kernel) (by decide +kernel) (by decide +kernel) (by decide +kernel) (by decide +kernel) (by decide +kernel) (by decide +kernel)).1 (by decide +kernel) (by decide +kernel) (by decide +kernel)

theorem met_RegisterAccesses_11 (h : Obligations.RegisterAccesses) :
    type_of% ((h.2.2.2.2.2.2.2.1 led 0 0 7 1 (by decide +kernel) (by decide +kernel) (by decide +kernel) (by decide +kernel) (by decide +kernel) (by decide +kernel) (by decide +kernel)).2 (by decide +kernel)) :=
  (h.2.2.2.2.2.2.2.1 led 0 0 7 1 (by decide +kernel) (by decide +kernel) (by decide +kernel) (by decide +kernel) (by decide +kernel) (by decide +kernel) (by decide +kernel)).2 (by decide +kernel)

theorem met_RegisterAccesses_12 (h : Obligations.RegisterAccesses) :
    type_of% ((h.2.2.2.2.2.2.2.2.1 R 1 (pageBase .memDev + 0x108) 0x108 (by decide +kernel) (by decide +kernel)).1 (by decide +kernel) (by decide +kernel) (by decide +kernel)) :=
  (h.2.2.2.2.2.2.2.2.1 R 1 (pageBase .memDev + 0x108) 0x108 (by decide +kernel) (by decide +kernel)).1 (by decide +kernel) (by decide +kernel) (by decide +kernel)

noncomputable def cb : State := withRegs R [(.memPart 0, F.MEM_P_C1_BYTES, 0x500000007)]

theorem met_RegisterAccesses_13 (h : Obligations.RegisterAccesses) :
    type_of% ((h.2.2.2.2.2.2.2.2.1 cb 0 (pageBase (.memPart 0) + F.MEM_P_C1_BYTES.off) 0 (by decide +kernel) (by decide +kernel)).2.1 0 F.MEM_P_C1_BYTES (by decide +kernel) (by decide +kernel) (by decide +kernel) (by decide +kernel) (by decide +kernel)) :=
  (h.2.2.2.2.2.2.2.2.1 cb 0 (pageBase (.memPart 0) + F.MEM_P_C1_BYTES.off) 0 (by decide +kernel) (by decide +kernel)).2.1 0 F.MEM_P_C1_BYTES (by decide +kernel) (by decide +kernel) (by decide +kernel) (by decide +kernel) (by decide +kernel)

theorem met_RegisterAccesses_14 (h : Obligations.RegisterAccesses) :
    type_of% ((h.2.2.2.2.2.2.2.2.1 cb 0 0xFF0000 0 (by decide +kernel) (by decide +kernel)).2.2 (by decide +kernel)) :=
  (h.2.2.2.2.2.2.2.2.1 cb 0 0xFF0000 0 (by decide +kernel) (by decide +kernel)).2.2 (by decide +kernel)

theorem test_lockWrite_1 : MayWrite R 0 (.memPart 0) F.LOCK.off false ∧ rd (post R (.lockWrite 0 (pageBase (.memPart 0)) 1)) (.memPart 0) F.LOCK = 1 := by decide +kernel

theorem met_RegisterAccesses_15 (h : Obligations.RegisterAccesses) :
    type_of% ((h.2.2.1 R 1 0xFF0000 1 hm).2.1 (by decide +kernel) (by decide +kernel) (by decide +kernel)) :=
  (h.2.2.1 R 1 0xFF0000 1 hm).2.1 (by decide +kernel) (by decide +kernel) (by decide +kernel)

theorem met_RegisterAccesses_16 (h : Obligations.RegisterAccesses) :
    type_of% ((h.2.2.1 R 1 (pageBase .memDev + 0x108) 80 hm).2.2.1 .memDev 0x108 (by decide +kernel) (by decide +kernel) (by decide +kernel) (by decide +kernel) (by decide +kernel) (by decide +kernel) (by decide +kernel)) :=
  (h.2.2.1 R 1 (pageBase .memDev + 0x108) 80 hm).2.2.1 .memDev 0x108 (by decide +kernel) (by decide +kernel) (by decide +kernel) (by decide +kernel) (by decide +kernel) (by decide +kernel) (by decide +kernel)

theorem met_RegisterAccesses_17 (h : Obligations.RegisterAccesses) :
    type_of% ((h.2.2.1 State.reset 1 (pageBase .memDev + 0x108) 80 hm).2.2.2 .memDev 0x108 (by decide +kernel) (by decide +kernel) (by decide +kernel) (by decide +kernel) (by decide +kernel)) :=
  (h.2.2.1 State.reset 1 (pageBase .memDev + 0x108) 80 hm).2.2.2 .memDev 0x108 (by decide +kernel) (by decide +kernel) (by decide +kernel) (by decide +kernel) (by decide +kernel)

theorem met_RegisterAccesses_18 (h : Obligations.RegisterAccesses) :
    type_of% (h.2.2.2.2.2.2.2.2.2 R 0 (pageBase (.memPart 0)) 0 1 (.memPart 0) (by decide +kernel) (by decide +kernel)) :=
  h.2.2.2.2.2.2.2.2.2 R 0 (pageBase (.memPart 0)) 0 1 (.memPart 0) (by decide +kernel) (by decide +kernel)

theorem met_RegisterAccesses_19 (h : Obligations.RegisterAccesses) :
    type_of% ((h.2.2.2.1 R 1 4 8 0xFF 7 hm (by decide +kernel)).1 (by decide +kernel)) :=
  (h.2.2.2.1 R 1 4 8 0xFF 7 hm (by decide +kernel)).1 (by decide +kernel)

theorem met_RegisterAccesses_20 (h : Obligations.RegisterAccesses) :
    type_of% ((h.2.2.2.1 R 1 4 4 7 7 hm (by decide +kernel)).2 (by decide +kernel) (.inl (by decide +kernel))) :=
  (h.2.2.2.1 R 1 4 4 7 7 hm (by decide +kernel)).2 (by decide +kernel) (.inl (by decide +kernel))

theorem met_RegisterAccesses_21 (h : Obligations.RegisterAccesses) :
    type_of% ((h.2.2.2.1 R 1 2 4 15 7 hm (by decide +kernel)).2 (by decide +kernel) (.inr (by decide +kernel))) :=
  (h.2.2.2.1 R 1 2 4 15 7 hm (by decide +kernel)).2 (by decide +kernel) (.inr (by decide +kernel))

/-- A read of partition 1's host is still held. -/
noncomputable def rq : State := { R with bus := { R.bus with held := [(1, .lowWordRead 1 0 4)] } }

theorem met_RegisterAccesses_22 (h : Obligations.RegisterAccesses) :
    type_of% ((h.2.2.1 rq 1 0xFF0000 1 hm).1 (by decide +kernel) (by decide +kernel) (by decide +kernel)) :=
  (h.2.2.1 rq 1 0xFF0000 1 hm).1 (by decide +kernel) (by decide +kernel) (by decide +kernel)

end Ch16

/-! Chapter 17: faults. -/

namespace Ch17

theorem test_fault_1 : ∀ x ∈ R.mgt.parBad, tabGet false R.mgt.parBad x.1 = true := by decide +kernel

noncomputable def pb (p : Page) (f : Fld) : State := post R (.parityScan (pageBase p) [(f.off, f.lo)])

noncomputable def hyp (s : State) (p : Page) (o bit : Nat) (f : Fld) (row : RegRow) : Prop := pageOfAddr (pageBase p) = some (p, 0) ∧ tabGet false s.mgt.parBad (pageBase p + o) = false ∧ (rd s p F.FLT_LIVE).testBit 0 = false ∧
      tabGet false s.mgt.safePar (pageBase p) = false ∧ (f, row) ∈ fieldsAt p o ∧ isConfig p (f, row) = true ∧ f.off = o ∧ f.lo ≤ bit ∧ bit < f.lo + f.width ∧ o < pageSize p

theorem test_fault_2 : ((fieldsAt .memDev 0x108).map (·.1)).head? = some F.MEM_REF_CFG_THR ∧ ((fieldsAt .memDev 0x108).head?.map fun x => isConfig .memDev x) = some true ∧ (rd R .memDev F.FLT_LIVE).testBit 0 = false ∧ tabGet false R.mgt.safePar (pageBase .memDev) = false ∧ tabGet false R.mgt.parBad (pageBase .memDev + 0x108) = false := by decide +kernel

theorem test_fault_3 : let t := pb .memDev F.MEM_REF_CFG_THR
  (rd t .memDev F.FLT_CAUSE).testBit 0 = true ∧ (rd t .memDev F.FLT_LIVE).testBit 0 = true ∧ rd t .memDev F.BLK_STAT_SAFE = 1 ∧ rd t .memDev F.PAR_STAT_COUNT = 1 ∧ rd t .memDev F.PAR_STAT_OFFSET = 0x108 ∧ rd t .memDev F.PAR_STAT_VALID = 1 := by decide +kernel

noncomputable def sev : State := setFltRec (withRegs (site1 3) [(.bnk 0, F.FLT_CAUSE, 16), (.bnk 0, F.FLT_SEVERE, 16)]) (.bnk 0) 4 ⟨1, 0, some (0, 0), false⟩

theorem met_FaultHandling_1 (h : Obligations.FaultHandling) :
    type_of% ((h.2.2.1 sev (pageBase (.bnk 0)) 0 4 (.bnk 0) (by decide +kernel) (by decide +kernel) (by decide +kernel)).1 (by decide +kernel)) :=
  (h.2.2.1 sev (pageBase (.bnk 0)) 0 4 (.bnk 0) (by decide +kernel) (by decide +kernel) (by decide +kernel)).1 (by decide +kernel)

theorem met_FaultHandling_2 (h : Obligations.FaultHandling) :
    type_of% ((h.2.2.1 (withRegs sev [(.bnk 0, F.FLT_ACTION, 2)]) (pageBase (.bnk 0)) 0 4 (.bnk 0) (by decide +kernel) (by decide +kernel) (by decide +kernel)).1 (by decide +kernel)) :=
  (h.2.2.1 (withRegs sev [(.bnk 0, F.FLT_ACTION, 2)]) (pageBase (.bnk 0)) 0 4 (.bnk 0) (by decide +kernel) (by decide +kernel) (by decide +kernel)).1 (by decide +kernel)

theorem test_graceExpiry_1 : (fltRec (post (withRegs sev [(.bnk 0, F.FLT_CAUSE, 0)]) (.graceExpiry (pageBase (.bnk 0)) 4)) (.bnk 0) 4).grace = none := by decide +kernel

noncomputable def br : State := post (withRegs sev [(.bnk 0, F.FLT_ACTION, 1), (.bnk 0, F.LOCK, 1), (.bnk 0, F.INT_EN, 5)]) (.graceExpiry (pageBase (.bnk 0)) 4)

theorem met_FaultHandling_3 (h : Obligations.FaultHandling) :
    type_of% (h.2.2.2.1 br (pageBase (.bnk 0)) 0 (.bnk 0) (by decide +kernel) (by decide +kernel)) :=
  h.2.2.2.1 br (pageBase (.bnk 0)) 0 (.bnk 0) (by decide +kernel) (by decide +kernel)

theorem test_blockResetDone_1 : rd br (.bnk 0) F.BLK_STAT_SAFE = 1 ∧ rd (post br (.blockResetDone (pageBase (.bnk 0)))) (.bnk 0) F.BLK_STAT_SAFE = 0 := by decide +kernel

noncomputable def fc : State := withRegs R [(.bnk 0, F.FLT_CAUSE, 0x70), (.bnk 0, F.FLT_LIVE, 0x20), (.bnk 0, F.FLT_SEVERE, 0x30)]

theorem test_fault_4 : MayWrite fc 4 (.bnk 0) F.FLT_CAUSE.off false ∨ MayWrite (withRegs fc [(.hifDev, F.HIF_BANK_OWN_LO, 0)]) 0 (.bnk 0) F.FLT_CAUSE.off false := by decide +kernel

theorem test_faultClear_1 : let t := post (withRegs fc [(.hifDev, F.HIF_BANK_OWN_LO, 0)]) (.faultClear 0 (pageBase (.bnk 0)) 0x31)
  rd t (.bnk 0) F.FLT_CAUSE = 0x60 ∧ rd t (.bnk 0) F.FLT_SEVERE = 0x20 ∧ rd t .mgtDev F.CLR_REFUSED = 1 := by decide +kernel

theorem met_FaultHandling_4 (h : Obligations.FaultHandling) :
    type_of% (h.2.2.2.2.2.1 R) :=
  h.2.2.2.2.2.1 R

noncomputable def lg : State := post R (.evlogMark 4 0x77)

theorem met_FaultHandling_5 (h : Obligations.FaultHandling) :
    type_of% (h.2.2.2.2.2.2.1 lg 4 0 (by decide +kernel)) :=
  h.2.2.2.2.2.2.1 lg 4 0 (by decide +kernel)

theorem test_fault_5 : rd lg .mgtDev F.MGT_EVLOG_WCNT = 1 ∧ (tabGet logInit lg.mgt.log 0).detail = 0x77 ∧ MayWrite R 4 .mgtDev F.MGT_EVLOG_MARK.off true := by decide +kernel

noncomputable def thrRow : RegRow := ((fieldsAt .memDev 0x108).head (by decide +kernel)).2

theorem met_FaultHandling_6 (h : Obligations.FaultHandling) :
    type_of% (h.1 R (pageBase .memDev) 0 .memDev (by decide +kernel) (by decide +kernel)) :=
  h.1 R (pageBase .memDev) 0 .memDev (by decide +kernel) (by decide +kernel)

theorem thr_mem : (F.MEM_REF_CFG_THR, thrRow) ∈ fieldsAt .memDev 0x108 := by
  rw [show fieldsAt .memDev 0x108 = (F.MEM_REF_CFG_THR, thrRow) :: (fieldsAt .memDev 0x108).tail from rfl]
  exact List.mem_cons_self ..

theorem met_FaultHandling_7 (h : Obligations.FaultHandling) :
    type_of% (h.2.1 R (pageBase .memDev) 0 0x108 7 .memDev F.MEM_REF_CFG_THR thrRow (by decide +kernel) (by decide +kernel) (by decide +kernel) (by decide +kernel) (by decide +kernel) (by decide +kernel) thr_mem (by decide +kernel) (by decide +kernel) (by decide +kernel) (by decide +kernel) (by decide +kernel)) :=
  h.2.1 R (pageBase .memDev) 0 0x108 7 .memDev F.MEM_REF_CFG_THR thrRow (by decide +kernel) (by decide +kernel) (by decide +kernel) (by decide +kernel) (by decide +kernel) (by decide +kernel) thr_mem (by decide +kernel) (by decide +kernel) (by decide +kernel) (by decide +kernel) (by decide +kernel)

theorem met_FaultHandling_8 (h : Obligations.FaultHandling) :
    type_of% ((h.2.2.1 (withRegs sev [(.bnk 0, F.FLT_CAUSE, 0)]) (pageBase (.bnk 0)) 0 4 (.bnk 0) (by decide +kernel) (by decide +kernel) (by decide +kernel)).2 (by decide +kernel)) :=
  (h.2.2.1 (withRegs sev [(.bnk 0, F.FLT_CAUSE, 0)]) (pageBase (.bnk 0)) 0 4 (.bnk 0) (by decide +kernel) (by decide +kernel) (by decide +kernel)).2 (by decide +kernel)

theorem met_FaultHandling_9 (h : Obligations.FaultHandling) :
    type_of% (h.2.2.2.2.1 (withRegs fc [(.hifDev, F.HIF_BANK_OWN_LO, 0)]) 0 (pageBase (.bnk 0)) 0 0x31 (.bnk 0) (by decide +kernel) (by decide +kernel) (by decide +kernel)) :=
  h.2.2.2.2.1 (withRegs fc [(.hifDev, F.HIF_BANK_OWN_LO, 0)]) 0 (pageBase (.bnk 0)) 0 0x31 (.bnk 0) (by decide +kernel) (by decide +kernel) (by decide +kernel)

theorem met_FaultHandling_10 (h : Obligations.FaultHandling) :
    type_of% (h.2.2.2.2.2.2.2 R 4 0x77 0 (by decide +kernel) (by decide +kernel) (by decide +kernel)) :=
  h.2.2.2.2.2.2.2 R 4 0x77 0 (by decide +kernel) (by decide +kernel) (by decide +kernel)

end Ch17

/-! Chapter 18: power, reset and sleep. -/

namespace Ch18

noncomputable def H (k : List (Page × Fld × Nat)) (s : State) : State := withRegs s k

theorem met_SuppliesAndConditions_1 (h : Obligations.SuppliesAndConditions) :
    type_of% ((h.1.1 R (by decide +kernel) (by decide +kernel))) :=
  (h.1.1 R (by decide +kernel) (by decide +kernel))

noncomputable def hl : State := post (post R .rstNAssert) .rstNRelease

theorem met_SuppliesAndConditions_2 (h : Obligations.SuppliesAndConditions) :
    type_of% ((h.1.2.1 (post R .rstNAssert) (by decide +kernel) (by decide +kernel))) :=
  (h.1.2.1 (post R .rstNAssert) (by decide +kernel) (by decide +kernel))

theorem test_brownOut_1 : powered R = true ∧ (post R .brownOut).pwr.stage = .noVin ∧ rd (brownOut R) .pwrDev F.BROWNOUTS = 1 := by decide +kernel

theorem test_junctionOvertemp_1 : (post R (.junctionOvertemp 125)).pwr.stage = .noVin ∧ rd (post R (.junctionOvertemp 125)) .pwrDev F.BROWNOUTS = 1 ∧ (post R (.junctionOvertemp 124)).pwr.stage = .run := by decide +kernel

theorem met_SuppliesAndConditions_3 (h : Obligations.SuppliesAndConditions) :
    type_of% (h.1.2.2.2.2.1 (brownOut R) (by decide +kernel) (by decide +kernel) (by decide +kernel) (by decide +kernel)) :=
  h.1.2.2.2.2.1 (brownOut R) (by decide +kernel) (by decide +kernel) (by decide +kernel) (by decide +kernel)

theorem met_SuppliesAndConditions_4 (h : Obligations.SuppliesAndConditions) :
    type_of% (h.1.2.2.2.2.2.1 R) :=
  h.1.2.2.2.2.2.1 R

theorem met_SuppliesAndConditions_5 (h : Obligations.SuppliesAndConditions) :
    type_of% ((h.2.1 R (by decide +kernel)).1 2650 (by decide +kernel) (by decide +kernel)) :=
  (h.2.1 R (by decide +kernel)).1 2650 (by decide +kernel) (by decide +kernel)

theorem met_SuppliesAndConditions_6 (h : Obligations.SuppliesAndConditions) :
    type_of% ((h.2.1 (post R (.vinLow 2650)) (by decide +kernel)).2.1 2700 (by decide +kernel) (by decide +kernel)) :=
  (h.2.1 (post R (.vinLow 2650)) (by decide +kernel)).2.1 2700 (by decide +kernel) (by decide +kernel)

theorem met_SuppliesAndConditions_7 (h : Obligations.SuppliesAndConditions) :
    type_of% ((h.2.1 R (by decide +kernel)).2.2.1 5600 (by decide +kernel) (by decide +kernel) (by decide +kernel)) :=
  (h.2.1 R (by decide +kernel)).2.2.1 5600 (by decide +kernel) (by decide +kernel) (by decide +kernel)

theorem met_SuppliesAndConditions_8 (h : Obligations.SuppliesAndConditions) :
    type_of% ((h.2.1 (post R (.overcurrent 5600)) (by decide +kernel)).2.2.2.1 5599 (by decide +kernel) (by decide +kernel)) :=
  (h.2.1 (post R (.overcurrent 5600)) (by decide +kernel)).2.2.2.1 5599 (by decide +kernel) (by decide +kernel)

theorem met_SuppliesAndConditions_9 (h : Obligations.SuppliesAndConditions) :
    type_of% ((h.2.1 R (by decide +kernel)).2.2.2.2.1 (by decide +kernel)) :=
  (h.2.1 R (by decide +kernel)).2.2.2.2.1 (by decide +kernel)

theorem test_railInRegulation_1 : rd (post (post R .regFault) .railInRegulation) .pwrDev F.FLT_LIVE = 0 := by decide +kernel

theorem met_SuppliesAndConditions_10 (h : Obligations.SuppliesAndConditions) :
    type_of% ((h.2.1 R (by decide +kernel)).2.2.2.2.2.2.1 106 (by decide +kernel) (by decide +kernel) (by decide +kernel)) :=
  (h.2.1 R (by decide +kernel)).2.2.2.2.2.2.1 106 (by decide +kernel) (by decide +kernel) (by decide +kernel)

theorem met_SuppliesAndConditions_11 (h : Obligations.SuppliesAndConditions) :
    type_of% ((h.2.1 (post R (.tjHot 106)) (by decide +kernel)).2.2.2.2.2.2.2 105 (by decide +kernel) (by decide +kernel)) :=
  (h.2.1 (post R (.tjHot 106)) (by decide +kernel)).2.2.2.2.2.2.2 105 (by decide +kernel) (by decide +kernel)

noncomputable def op (v : Nat) : State := post R (.complementPairOpen 4 (pageBase .pwrDev + F.PWR_ILIM.off) v)

theorem met_SuppliesAndConditions_12 (h : Obligations.SuppliesAndConditions) :
    type_of% (h.2.2 (op 40) 4 _ 40 (by decide +kernel) (by decide +kernel) rfl) :=
  h.2.2 (op 40) 4 _ 40 (by decide +kernel) (by decide +kernel) rfl

theorem met_SuppliesAndConditions_13 (h : Obligations.SuppliesAndConditions) :
    type_of% (h.2.2 (op 113) 4 _ 113 (by decide +kernel) (by decide +kernel) rfl) :=
  h.2.2 (op 113) 4 _ 113 (by decide +kernel) (by decide +kernel) rfl

noncomputable def off3 : State := H [(.bnk 3, F.BLK_CTRL_EN, 0), (.pwrDev, F.PWR_DOM_ON, 2 ^ 30 - 1 - 8 - 2 ^ 27 - 2 ^ 28)] owned

noncomputable def en3 (s : State) : State := post s (.functionEnable 0 (pageBase (.bnk 3)))

noncomputable def dis3 (s : State) : State := post s (.functionDisable 0 (pageBase (.bnk 3)))

theorem met_SwitchedDomains_1 (h : Obligations.SwitchedDomains) :
    type_of% ((h.1 off3 0 (pageBase (.bnk 3)) (.bnk 3) 0 (by decide +kernel) (by decide +kernel) (by decide +kernel)).1 (by decide +kernel)) :=
  (h.1 off3 0 (pageBase (.bnk 3)) (.bnk 3) 0 (by decide +kernel) (by decide +kernel) (by decide +kernel)).1 (by decide +kernel)

theorem met_SwitchedDomains_2 (h : Obligations.SwitchedDomains) :
    type_of% ((h.1 owned 0 (pageBase (.bnk 3)) (.bnk 3) 0 (by decide +kernel) (by decide +kernel) (by decide +kernel)).1 (by decide +kernel)) :=
  (h.1 owned 0 (pageBase (.bnk 3)) (.bnk 3) 0 (by decide +kernel) (by decide +kernel) (by decide +kernel)).1 (by decide +kernel)

theorem met_SwitchedDomains_3 (h : Obligations.SwitchedDomains) :
    type_of% ((h.1 (dis3 owned) 0 (pageBase (.bnk 3)) (.bnk 3) 0 (by decide +kernel) (by decide +kernel) (by decide +kernel)).2.1 (by decide +kernel)) :=
  (h.1 (dis3 owned) 0 (pageBase (.bnk 3)) (.bnk 3) 0 (by decide +kernel) (by decide +kernel) (by decide +kernel)).2.1 (by decide +kernel)

theorem met_SwitchedDomains_4 (h : Obligations.SwitchedDomains) :
    type_of% ((h.1 (site1 3) 0 (pageBase (.bnk 0)) (.bnk 0) 0 (by decide +kernel) (by decide +kernel) (by decide +kernel)).2.2.1 (by decide +kernel)) :=
  (h.1 (site1 3) 0 (pageBase (.bnk 0)) (.bnk 0) 0 (by decide +kernel) (by decide +kernel) (by decide +kernel)).2.2.1 (by decide +kernel)

theorem met_SwitchedDomains_5 (h : Obligations.SwitchedDomains) :
    type_of% ((h.1 (H [(.tlkCtl, F.TLK_CTRL_SERVO_EN, 1)] R) 4 (pageBase .tlkCtl) .tlkCtl 0 (by decide +kernel) (by decide +kernel) (by decide +kernel)).2.2.1 (by decide +kernel)) :=
  (h.1 (H [(.tlkCtl, F.TLK_CTRL_SERVO_EN, 1)] R) 4 (pageBase .tlkCtl) .tlkCtl 0 (by decide +kernel) (by decide +kernel) (by decide +kernel)).2.2.1 (by decide +kernel)

theorem met_SwitchedDomains_6 (h : Obligations.SwitchedDomains) :
    type_of% ((h.1 owned 0 (pageBase (.bnk 3)) (.bnk 3) 0 (by decide +kernel) (by decide +kernel) (by decide +kernel)).2.2.2 (by decide +kernel)) :=
  (h.1 owned 0 (pageBase (.bnk 3)) (.bnk 3) 0 (by decide +kernel) (by decide +kernel) (by decide +kernel)).2.2.2 (by decide +kernel)

noncomputable def auOnly : State := H ((.pwrDev, F.PWR_DOM_ON, 2 ^ 30 - 1 - 2 ^ 27 - 2 ^ 28) :: (List.range 18).map fun u => (.au (u + 1), F.BLK_CTRL_EN, 0)) R

theorem met_SwitchedDomains_7 (h : Obligations.SwitchedDomains) :
    type_of% ((h.1 auOnly 0 (pageBase (.au 0)) (.au 0) 0 (by decide +kernel) (by decide +kernel) (by decide +kernel)).2.2.2 (by decide +kernel)) :=
  (h.1 auOnly 0 (pageBase (.au 0)) (.au 0) 0 (by decide +kernel) (by decide +kernel) (by decide +kernel)).2.2.2 (by decide +kernel)

noncomputable def dz : State := dis3 (setFur (H [(.pwrDev, F.PWR_DOM_ON, 2 ^ 30 - 1 - 2 ^ 27 - 2 ^ 28), (.bnk 3, F.INT_RAW, 7), (.bnk 3, F.INT_EN, 7), (.bnk 3, F.FLT_CAUSE, 4), (.bnk 3, F.FLT_CNT, 4)] owned) 13 { furInit with pr := 3 })

theorem test_power_1 : dz.pwr.queue = [(3, false)] ∧ changeHeld dz 3 = false ∧ dz.pwr.stage = .run := by decide +kernel

theorem test_shutdownDone_1 : let t := post dz (.shutdownDone 3); domOn t 3 = false ∧ domOn t 4 = true ∧ t.pwr.queue = [] ∧ furOf t 13 = furInit ∧ rd t (.bnk 3) F.INT_RAW = 0 ∧ rd t (.bnk 3) F.INT_EN = 7 ∧ rd t (.bnk 3) F.FLT_CNT = 0 ∧ rd t (.bnk 3) F.BLK_STAT_OFF_PENDING = 0 ∧ rd t (.bnk 3) F.FLT_CAUSE = 0 := by decide +kernel

theorem test_shutdownDone_2 : let s := post auOnly (.functionDisable 0 (pageBase (.au 0))); s.pwr.queue = [(25, false)] ∧ changeHeld s 25 = false ∧ domOn (post s (.shutdownDone 25)) 25 = false := by decide +kernel

theorem test_startupDone_1 : let s := en3 off3; s.pwr.queue = [(3, true)] ∧ rd s (.bnk 3) F.BLK_STAT_OFF_PENDING = 0 ∧ domOn (post s (.startupDone 3)) 3 = true ∧ (post s (.startupDone 3)).pwr.queue = [] := by decide +kernel

theorem test_startupDone_2 : let s := dis3 (en3 off3); s.pwr.queue = [(3, true)] ∧ rd s (.bnk 3) F.BLK_STAT_OFF_PENDING = 1 ∧ rd s (.bnk 3) F.BLK_CTRL_EN = 0 ∧ domOn (post s (.startupDone 3)) 3 = true ∧ (post s (.startupDone 3)).pwr.queue = [(3, false)] := by decide +kernel

theorem test_sleepVote_1 : MayWrite R 1 (.pwrPart 1) F.PWR_P_SLEEP_VOTE.off false ∧ rd (post R (.sleepVote 1 1 1)) (.pwrPart 1) F.PWR_P_SLEEP_VOTE = 1 := by decide +kernel

theorem met_SleepAndWake_1 (h : Obligations.SleepAndWake) :
    type_of% (h.2.1 (H [(.pwrDev, F.PWR_SLEEP_CTRL_SREQ_EN, 1)] (site1 3)) (by decide +kernel) (by decide +kernel) (by decide +kernel)) :=
  h.2.1 (H [(.pwrDev, F.PWR_SLEEP_CTRL_SREQ_EN, 1)] (site1 3)) (by decide +kernel) (by decide +kernel) (by decide +kernel)

theorem met_SleepAndWake_2 (h : Obligations.SleepAndWake) :
    type_of% (h.2.1 (H [(.pwrDev, F.PWR_SLEEP_CTRL_SREQ_EN, 1)] (site1 2)) (by decide +kernel) (by decide +kernel) (by decide +kernel)) :=
  h.2.1 (H [(.pwrDev, F.PWR_SLEEP_CTRL_SREQ_EN, 1)] (site1 2)) (by decide +kernel) (by decide +kernel) (by decide +kernel)

noncomputable def vt : State := H ((List.range 4).map fun n => (.pwrPart n, F.PWR_P_SLEEP_VOTE, 1)) R

theorem met_SleepAndWake_3 (h : Obligations.SleepAndWake) :
    type_of% ((h.2.2.1 vt (by decide +kernel)).1 (by decide +kernel)) :=
  (h.2.2.1 vt (by decide +kernel)).1 (by decide +kernel)

theorem met_SleepAndWake_16 (h : Obligations.SleepAndWake) :
    type_of% ((h.2.2.1 { vt with boot := { vt.boot with busy := true } } (by decide +kernel)).2 (by decide +kernel)) :=
  (h.2.2.1 { vt with boot := { vt.boot with busy := true } } (by decide +kernel)).2 (by decide +kernel)

theorem met_SleepAndWake_4 (h : Obligations.SleepAndWake) :
    type_of% (h.2.2.2.2.1 vt (by decide +kernel) (by decide +kernel) (by decide +kernel) (by decide +kernel)) :=
  h.2.2.2.2.1 vt (by decide +kernel) (by decide +kernel) (by decide +kernel) (by decide +kernel)

noncomputable def en : State := post vt .sleepDecision

theorem test_power_2 : rd en .pwrDev F.PWR_STAT_STATE = 1 ∧ en.boot.busy = false ∧ en.cal.runs = [] ∧ en.memc.sr = 1 ∧ en.pwr.wakes = [] := by decide +kernel

noncomputable def ab1 : State := { en with memc := { en.memc with sr := 0 } }

theorem met_SleepAndWake_17 (h : Obligations.SleepAndWake) :
    type_of% (h.2.2.2.1 ab1 (by decide +kernel) (by decide +kernel) (by decide +kernel) (by decide +kernel)) :=
  h.2.2.2.1 ab1 (by decide +kernel) (by decide +kernel) (by decide +kernel) (by decide +kernel)

noncomputable def ab1' : State := { ab1 with memc := { ab1.memc with srAborted := true } }

theorem met_SleepAndWake_5 (h : Obligations.SleepAndWake) :
    type_of% ((h.2.2.2.2.2.1 ab1' (by decide +kernel) (by decide +kernel) (by decide +kernel)).2.2.1 (by decide +kernel) (by decide +kernel) (by decide +kernel) (by decide +kernel)) :=
  (h.2.2.2.2.2.1 ab1' (by decide +kernel) (by decide +kernel) (by decide +kernel)).2.2.1 (by decide +kernel) (by decide +kernel) (by decide +kernel) (by decide +kernel)

noncomputable def ab2 : State := { ab1' with pwr := { ab1'.pwr with aborts := 1 } }

theorem met_SleepAndWake_6 (h : Obligations.SleepAndWake) :
    type_of% ((h.2.2.2.2.2.1 ab2 (by decide +kernel) (by decide +kernel) (by decide +kernel)).2.2.2 (by decide +kernel) (by decide +kernel) (by decide +kernel) (by decide +kernel)) :=
  (h.2.2.2.2.2.1 ab2 (by decide +kernel) (by decide +kernel) (by decide +kernel)).2.2.2 (by decide +kernel) (by decide +kernel) (by decide +kernel) (by decide +kernel)

noncomputable def sl : State := let s := H [(.pwrDev, F.PWR_STAT_STATE, 2), (.pwrDev, F.PWR_DOM_ON, 2 ^ 22)] R
  { s with memc := { s.memc with sr := 2, srSleep := true }, pwr := { s.pwr with sleepDom := 2 ^ 30 - 1 } }

theorem met_SleepAndWake_7 (h : Obligations.SleepAndWake) :
    type_of% ((h.2.2.2.2.2.2.1 sl .wake 1 (by simp) (by decide +kernel) (by decide +kernel) (by decide +kernel) (by decide +kernel) (by decide +kernel)).2.1 (by decide +kernel) (by decide +kernel)) :=
  (h.2.2.2.2.2.2.1 sl .wake 1 (by simp) (by decide +kernel) (by decide +kernel) (by decide +kernel) (by decide +kernel) (by decide +kernel)).2.1 (by decide +kernel) (by decide +kernel)

theorem met_SleepAndWake_8 (h : Obligations.SleepAndWake) :
    type_of% ((h.2.2.2.2.2.2.1 en (.l1ExitRequest 0) 2 (by simp) (by decide +kernel) (by decide +kernel) (by decide +kernel) (by decide +kernel) (by decide +kernel)).1 (by decide +kernel)) :=
  (h.2.2.2.2.2.2.1 en (.l1ExitRequest 0) 2 (by simp) (by decide +kernel) (by decide +kernel) (by decide +kernel) (by decide +kernel) (by decide +kernel)).1 (by decide +kernel)

theorem met_SleepAndWake_9 (h : Obligations.SleepAndWake) :
    type_of% ((h.2.2.2.2.2.2.1 (H [(.pwrDev, F.PWR_SLEEP_CTRL_TIMER_EN, 1)] sl) .wakeTime 3 (by simp) (by decide +kernel) (by decide +kernel) (by decide +kernel) (by decide +kernel) (by decide +kernel)).2.1 (by decide +kernel) (by decide +kernel)) :=
  (h.2.2.2.2.2.2.1 (H [(.pwrDev, F.PWR_SLEEP_CTRL_TIMER_EN, 1)] sl) .wakeTime 3 (by simp) (by decide +kernel) (by decide +kernel) (by decide +kernel) (by decide +kernel) (by decide +kernel)).2.1 (by decide +kernel) (by decide +kernel)

theorem met_SleepAndWake_10 (h : Obligations.SleepAndWake) :
    type_of% ((h.2.2.2.2.2.2.1 (H [(.pwrDev, F.PWR_SLEEP_CTRL_SREQ_EN, 1)] sl) .sleepReqFall 4 (by simp) (by decide +kernel) (by decide +kernel) (by decide +kernel) (by decide +kernel) (by decide +kernel)).2.1 (by decide +kernel) (by decide +kernel)) :=
  (h.2.2.2.2.2.2.1 (H [(.pwrDev, F.PWR_SLEEP_CTRL_SREQ_EN, 1)] sl) .sleepReqFall 4 (by simp) (by decide +kernel) (by decide +kernel) (by decide +kernel) (by decide +kernel) (by decide +kernel)).2.1 (by decide +kernel) (by decide +kernel)

theorem met_SleepAndWake_11 (h : Obligations.SleepAndWake) :
    type_of% (h.2.2.2.2.2.2.2.1 (H [(.pwrDev, F.PWR_SLEEP_CTRL_SREQ_EN, 1)] { sl with pwr := { sl.pwr with sreq := true } }) (by decide +kernel) (by decide +kernel) (by decide +kernel) (by decide +kernel) (by decide +kernel)) :=
  h.2.2.2.2.2.2.2.1 (H [(.pwrDev, F.PWR_SLEEP_CTRL_SREQ_EN, 1)] { sl with pwr := { sl.pwr with sreq := true } }) (by decide +kernel) (by decide +kernel) (by decide +kernel) (by decide +kernel) (by decide +kernel)

noncomputable def wk : State := H [(.timDev, F.TIM_DTB_SEC_LO, 3600)] (post sl .wake)

theorem met_SleepAndWake_12 (h : Obligations.SleepAndWake) :
    type_of% (h.2.2.2.2.2.2.2.2 wk ⟨0, 0, 0⟩ (by decide +kernel)) :=
  h.2.2.2.2.2.2.2.2 wk ⟨0, 0, 0⟩ (by decide +kernel)

theorem met_SuppliesAndConditions_14 (h : Obligations.SuppliesAndConditions) :
    type_of% (h.1.2.2.1 R (by decide +kernel)) :=
  h.1.2.2.1 R (by decide +kernel)

theorem met_SuppliesAndConditions_15 (h : Obligations.SuppliesAndConditions) :
    type_of% (h.1.2.2.2.1 R 125 (by decide +kernel) (by decide +kernel)) :=
  h.1.2.2.2.1 R 125 (by decide +kernel) (by decide +kernel)

theorem met_SuppliesAndConditions_16 (h : Obligations.SuppliesAndConditions) :
    type_of% ((h.2.1 (post R .regFault) (by decide +kernel)).2.2.2.2.2.1) :=
  (h.2.1 (post R .regFault) (by decide +kernel)).2.2.2.2.2.1

theorem met_SwitchedDomains_8 (h : Obligations.SwitchedDomains) :
    type_of% (h.2.2.1 dz 3 [] (by decide +kernel) (by decide +kernel) (by decide +kernel) (by decide +kernel) (by decide +kernel) (by decide +kernel) (by decide +kernel)) :=
  h.2.2.1 dz 3 [] (by decide +kernel) (by decide +kernel) (by decide +kernel) (by decide +kernel) (by decide +kernel) (by decide +kernel) (by decide +kernel)

theorem met_SwitchedDomains_9 (h : Obligations.SwitchedDomains) :
    type_of% (h.2.2.2.1 (post auOnly (.functionDisable 0 (pageBase (.au 0)))) [] (by decide +kernel) (by decide +kernel) (by decide +kernel) (by decide +kernel) (by decide +kernel) (by decide +kernel) (by decide +kernel)) :=
  h.2.2.2.1 (post auOnly (.functionDisable 0 (pageBase (.au 0)))) [] (by decide +kernel) (by decide +kernel) (by decide +kernel) (by decide +kernel) (by decide +kernel) (by decide +kernel) (by decide +kernel)

theorem met_SwitchedDomains_10 (h : Obligations.SwitchedDomains) :
    type_of% (h.2.2.2.2.1 (en3 off3) 3 [] (by decide +kernel) (by decide +kernel) (by decide +kernel) (by decide +kernel) (by decide +kernel)) :=
  h.2.2.2.2.1 (en3 off3) 3 [] (by decide +kernel) (by decide +kernel) (by decide +kernel) (by decide +kernel) (by decide +kernel)

theorem met_SwitchedDomains_11 (h : Obligations.SwitchedDomains) :
    type_of% (h.2.2.2.2.1 (dis3 (en3 off3)) 3 [] (by decide +kernel) (by decide +kernel) (by decide +kernel) (by decide +kernel) (by decide +kernel)) :=
  h.2.2.2.2.1 (dis3 (en3 off3)) 3 [] (by decide +kernel) (by decide +kernel) (by decide +kernel) (by decide +kernel) (by decide +kernel)

/-- Cluster 1 is to be shut down. -/
noncomputable def cl1 : State := { setSharesAct [0, 0, 0, 0] (H [(.disDev, F.DIS_SHARE_0, 0), (.disDev, F.DIS_SHARE_1, 0), (.disDev, F.DIS_SHARE_2, 0), (.disDev, F.DIS_SHARE_3, 0)] R) with pwr := { R.pwr with queue := [(17, false)] } }

theorem met_SwitchedDomains_12 (h : Obligations.SwitchedDomains) :
    type_of% (h.2.2.2.2.2 cl1 1 (by decide +kernel) (by decide +kernel) (by decide +kernel) (by decide +kernel) (by decide +kernel) (by decide +kernel)) :=
  h.2.2.2.2.2 cl1 1 (by decide +kernel) (by decide +kernel) (by decide +kernel) (by decide +kernel) (by decide +kernel) (by decide +kernel)

theorem met_SwitchedDomains_13 (h : Obligations.SwitchedDomains) :
    type_of% (h.2.2.2.2.1 { cl1 with pwr := { cl1.pwr with queue := [(18, true)] } } 18 [] (by decide +kernel) (by decide +kernel) (by decide +kernel) (by decide +kernel) (by decide +kernel)) :=
  h.2.2.2.2.1 { cl1 with pwr := { cl1.pwr with queue := [(18, true)] } } 18 [] (by decide +kernel) (by decide +kernel) (by decide +kernel) (by decide +kernel) (by decide +kernel)

theorem met_SwitchedDomains_14 (h : Obligations.SwitchedDomains) :
    type_of% (h.2.1 owned (.bnk 3)) :=
  h.2.1 owned (.bnk 3)

theorem met_SleepAndWake_13 (h : Obligations.SleepAndWake) :
    type_of% (h.1 R 1 1 1 (by decide +kernel) (by decide +kernel)) :=
  h.1 R 1 1 1 (by decide +kernel) (by decide +kernel)

theorem met_SleepAndWake_14 (h : Obligations.SleepAndWake) :
    type_of% ((h.2.2.2.2.2.1 en (by decide +kernel) (by decide +kernel) (by decide +kernel)).2.1 (by decide +kernel) (by decide +kernel) (by decide +kernel)) :=
  (h.2.2.2.2.2.1 en (by decide +kernel) (by decide +kernel) (by decide +kernel)).2.1 (by decide +kernel) (by decide +kernel) (by decide +kernel)

theorem met_SleepAndWake_18 (h : Obligations.SleepAndWake) :
    type_of% ((h.2.2.2.2.2.1 { en with memc := { en.memc with srSleep := false } } (by decide +kernel) (by decide +kernel) (by decide +kernel)).1 (by decide +kernel) (by decide +kernel)) :=
  (h.2.2.2.2.2.1 { en with memc := { en.memc with srSleep := false } } (by decide +kernel) (by decide +kernel) (by decide +kernel)).1 (by decide +kernel) (by decide +kernel)

noncomputable def waking : State := withRegs sl [(.pwrDev, F.PWR_STAT_STATE, 3)]

theorem met_SleepAndWake_15 (h : Obligations.SleepAndWake) :
    type_of% ((h.2.2.2.2.2.2.1 waking .wake 1 (by simp) (by decide +kernel) (by decide +kernel) (by decide +kernel) (by decide +kernel) (by decide +kernel)).2.2 (by decide +kernel)) :=
  (h.2.2.2.2.2.2.1 waking .wake 1 (by simp) (by decide +kernel) (by decide +kernel) (by decide +kernel) (by decide +kernel) (by decide +kernel)).2.2 (by decide +kernel)

end Ch18

/-! Chapter 19: boot and update. -/

namespace Ch19

noncomputable def dirA : Directory := ⟨7, 0, false, 3, 2, 0, 0, 5⟩

noncomputable def dirB : Directory := ⟨7, 0, false, 0, 4, 0, 0, 5⟩

noncomputable def dcopy (d : Directory) : Option DirCopy := some ⟨d, dirCheck d⟩

/-- n bytes of a number, least significant first. -/
noncomputable def le (n v : Nat) : List Nat := (List.range n).map fun k => v / 2 ^ (8 * k) % 256

/-- A part entry (Table 19-4) in the slot's byte layout. -/
noncomputable def entry (ty : Nat) : List Nat := le 2 ty ++ [0, 0] ++ le 4 0x02010028 ++ le 4 (16384 * ty) ++ le 4 16384 ++ List.replicate 64 0

/-- A slot whose bytes pass every check under key 0, with a PUBKEY of zeros (Tables 19-3 and 19-4). -/
noncomputable def slot : SlotBytes :=
  ⟨true, le 4 0x4D444C4E ++ [1, 8, 0, 0] ++ le 4 0x02010028 ++ le 4 0 ++ List.replicate 144 0 ++ (List.range 8).flatMap (fun i => entry (i + 1)), true, [], [], [2], 2 ^ 30 - 1, [], [], []⟩

noncomputable def slotBad : SlotBytes := { slot with sigOk := false }

noncomputable def img : SlotImage := slotImage slot

noncomputable def bad : SlotImage := slotImage slotBad

/-- The fuses of key row 0 hold the hash of that PUBKEY. -/
noncomputable def RK : State := let v := fileNum (sha384 (List.replicate 96 0)) 0 48
  { R with lcs := { R.lcs with fuses := (List.range 12).foldl (fun t w => tabPut 0 t (5 * 32 + w) (v / 2 ^ (32 * w) % 2 ^ 32)) R.lcs.fuses } }

noncomputable def inRom (a b : Nat) (s : State := RK) : State := { s with pwr := { s.pwr with stage := .rom }, boot := { s.boot with copy0 := dcopy { dirA with stA := a, stB := b } } }

noncomputable def flash (x y : SlotBytes) : FlashFacts := ⟨true, 0xEF4020, 64, x, y⟩

theorem met_BootFromFlash_1 (h : Obligations.BootFromFlash) :
    type_of% ((h.1 ⟨7, 0, false, 3, 2, 0, 0, 5⟩ true 1 (by decide +kernel)).1.2 (by decide +kernel)) :=
  (h.1 ⟨7, 0, false, 3, 2, 0, 0, 5⟩ true 1 (by decide +kernel)).1.2 (by decide +kernel)

theorem test_boot_1 : slotFault RK true img = none ∧ slotFault RK true bad = some (5, 0, false) ∧ slotFault RK true (slotImage { slot with digestBad := [2] }) = some (8, 2, true) := by decide +kernel

theorem test_boot_2 : bootCandidates ⟨7, 0, false, 3, 2, 0, 0, 5⟩ true = [(1, true), (0, false)] ∧ (inRom 3 2).pwr.stage = .rom ∧ newestDir (inRom 3 2) = some (0, ⟨7, 0, false, 3, 2, 0, 0, 5⟩) ∧ (inRom 3 2).boot.tried = [] := by decide +kernel

theorem test_romBoot_1 : let t := post (inRom 3 2) (.romBoot (flash slot slot)); t.pwr.stage = .run ∧ rd t .boot F.BOOT_STAT_SLOT = 1 ∧ rd t .boot F.BOOT_STAT_TRIAL = 1 ∧ rd t .boot F.BOOT_STAT_FALLBACK = 0 ∧ rd t .boot F.BOOT_VER_ACT = 0x02010028 := by decide +kernel

theorem test_romBoot_2 : let t := post (inRom 3 2) (.romBoot (flash slot slotBad)); t.pwr.stage = .run ∧ rd t .boot F.BOOT_STAT_SLOT = 0 ∧ rd t .boot F.BOOT_STAT_FALLBACK = 1 ∧ rd t .boot F.BOOT_LAST_REASON = 5 ∧ rd t .boot F.BOOT_LAST_SLOT = 1 ∧ slotState t.boot.dir 1 = 4 := by decide +kernel

theorem test_romBoot_3 : let t := post (inRom 0 4) (.romBoot (flash slot slotBad)); t.pwr.stage = .recovery ∧ rd t .recov F.REC_STAT_CAUSE = 0 := by decide +kernel

noncomputable def nr : State := withRegs { R with boot := { R.boot with dir := ⟨7, 0, false, 3, 2, 0, 0, 5⟩ } } [(.boot, F.BOOT_STAT_READY, 0), (.boot, F.BOOT_STAT_TRIAL, 1), (.boot, F.BOOT_STAT_SLOT, 1)]

theorem met_BootFromFlash_2 (h : Obligations.BootFromFlash) :
    type_of% (h.2.2.2.1 nr (by decide +kernel) (by decide +kernel) (by decide +kernel)) :=
  h.2.2.2.1 nr (by decide +kernel) (by decide +kernel) (by decide +kernel)

noncomputable def late : State := { nr with tim := { nr.tim with ticks := [(0, 500000000)] } }

theorem met_BootFromFlash_3 (h : Obligations.BootFromFlash) :
    type_of% (h.2.2.2.2 late (by decide +kernel) (by decide +kernel) (by decide +kernel) (by decide +kernel) (by decide +kernel) (by decide +kernel) (by decide +kernel) (by decide +kernel)) :=
  h.2.2.2.2 late (by decide +kernel) (by decide +kernel) (by decide +kernel) (by decide +kernel) (by decide +kernel) (by decide +kernel) (by decide +kernel) (by decide +kernel)

noncomputable def up (n : Nat) (s : State := R) : State := withRegs { s with boot := { s.boot with dir := ⟨7, 0, false, 3, 1, 0, 0, 5⟩ } } [(.boot, F.BOOT_UPD_LEN, n)]

theorem test_boot_3 : ∃ m, m < 6 ∧ MayWrite (up 4096) m .boot F.BOOT_UPD_CMD_WRITE.off true := ⟨4, by decide +kernel⟩

noncomputable def bz : State := withRegs (up 4096) [(.boot, F.BOOT_UPD_STAT_BUSY, 1)]

theorem test_recoverRequest_1 : ∀ c ∈ [Instr.updateWrite 4 1, .updatePend 4 2, .updateUnpend 4 4, .recoverRequest 4 8], rd (post bz c) .boot F.BOOT_UPD_STAT_RESULT = 1 := by decide +kernel

theorem met_UpdateAndRecovery_1 (h : Obligations.UpdateAndRecovery) :
    type_of% (((h.1 (up 0) 4 1 (by decide +kernel) (by decide +kernel) (by decide +kernel)).2 (by decide +kernel)).1 (by decide +kernel)) :=
  ((h.1 (up 0) 4 1 (by decide +kernel) (by decide +kernel) (by decide +kernel)).2 (by decide +kernel)).1 (by decide +kernel)

theorem met_UpdateAndRecovery_2 (h : Obligations.UpdateAndRecovery) :
    type_of% (((h.1 (withRegs (up 4096) [(.boot, F.BOOT_UPD_SRC_HI, 7), (.boot, F.BOOT_UPD_SRC_LO, 0xFFFFF), (.boot, F.BOOT_UPD_LEN, 8192)]) 4 1 (by decide +kernel) (by decide +kernel) (by decide +kernel)).2 (by decide +kernel)).2.1 (by decide +kernel) (by decide +kernel) (by decide +kernel) (by decide +kernel)) :=
  ((h.1 (withRegs (up 4096) [(.boot, F.BOOT_UPD_SRC_HI, 7), (.boot, F.BOOT_UPD_SRC_LO, 0xFFFFF), (.boot, F.BOOT_UPD_LEN, 8192)]) 4 1 (by decide +kernel) (by decide +kernel) (by decide +kernel)).2 (by decide +kernel)).2.1 (by decide +kernel) (by decide +kernel) (by decide +kernel) (by decide +kernel)

theorem met_UpdateAndRecovery_3 (h : Obligations.UpdateAndRecovery) :
    type_of% (((h.1 (up 4096) 4 1 (by decide +kernel) (by decide +kernel) (by decide +kernel)).2 (by decide +kernel)).2.2.1 (by decide +kernel) (by decide +kernel) (by decide +kernel) (by decide +kernel)) :=
  ((h.1 (up 4096) 4 1 (by decide +kernel) (by decide +kernel) (by decide +kernel)).2 (by decide +kernel)).2.2.1 (by decide +kernel) (by decide +kernel) (by decide +kernel) (by decide +kernel)

theorem met_UpdateAndRecovery_4 (h : Obligations.UpdateAndRecovery) :
    type_of% (((h.1 (up 4096) 4 1 (by decide +kernel) (by decide +kernel) (by decide +kernel)).2 (by decide +kernel)).2.2.2.1 (by decide +kernel)) :=
  ((h.1 (up 4096) 4 1 (by decide +kernel) (by decide +kernel) (by decide +kernel)).2 (by decide +kernel)).2.2.2.1 (by decide +kernel)

noncomputable def pd : State := post (up 4096) (.updatePend 4 2)

theorem met_UpdateAndRecovery_5 (h : Obligations.UpdateAndRecovery) :
    type_of% (((h.1 pd 4 1 (by decide +kernel) (by decide +kernel) (by decide +kernel)).2 (by decide +kernel)).2.2.2.2.1 (by decide +kernel)) :=
  ((h.1 pd 4 1 (by decide +kernel) (by decide +kernel) (by decide +kernel)).2 (by decide +kernel)).2.2.2.2.1 (by decide +kernel)

theorem met_UpdateAndRecovery_6 (h : Obligations.UpdateAndRecovery) :
    type_of% (((h.1 pd 4 1 (by decide +kernel) (by decide +kernel) (by decide +kernel)).2 (by decide +kernel)).2.2.2.2.2.1 (by decide +kernel) (by decide +kernel)) :=
  ((h.1 pd 4 1 (by decide +kernel) (by decide +kernel) (by decide +kernel)).2 (by decide +kernel)).2.2.2.2.2.1 (by decide +kernel) (by decide +kernel)

theorem met_UpdateAndRecovery_7 (h : Obligations.UpdateAndRecovery) :
    type_of% (((h.1 (up 4096) 4 1 (by decide +kernel) (by decide +kernel) (by decide +kernel)).2 (by decide +kernel)).2.2.2.2.2.2) :=
  ((h.1 (up 4096) 4 1 (by decide +kernel) (by decide +kernel) (by decide +kernel)).2 (by decide +kernel)).2.2.2.2.2.2

noncomputable def wr1 : State := { bz with boot := { bz.boot with busy := true, ops := [.image] } }

theorem met_UpdateAndRecovery_8 (h : Obligations.UpdateAndRecovery) :
    type_of% (h.2.1 wr1 true false 1 [] (by decide +kernel) (by decide +kernel) (by decide +kernel) (by decide +kernel)) :=
  h.2.1 wr1 true false 1 [] (by decide +kernel) (by decide +kernel) (by decide +kernel) (by decide +kernel)

theorem met_UpdateAndRecovery_9 (h : Obligations.UpdateAndRecovery) :
    type_of% (h.2.1 wr1 true true 1 [] (by decide +kernel) (by decide +kernel) (by decide +kernel) (by decide +kernel)) :=
  h.2.1 wr1 true true 1 [] (by decide +kernel) (by decide +kernel) (by decide +kernel) (by decide +kernel)

noncomputable def fo (op : FlashOp) : State := { R with boot := { R.boot with busy := true, ops := [op], copy0 := dcopy dirA } }

theorem test_flashOperationDone_1 : let t := post (fo (.directory ⟨0, 1, false, 3, 3, 0, 0, 6⟩)) .flashOperationDone; newestDir t = some (1, ⟨8, 1, false, 3, 3, 0, 0, 6⟩) ∧ t.boot.ops = [] ∧ rd t .boot F.FLASH_OPS = 1 := by decide +kernel

noncomputable def rc (busy : Nat) (n : Nat := 32768) (v : List Nat := []) : State := withRegs { (inRom 0 4) with pwr := { R.pwr with stage := .recovery }, boot := { R.boot with verified := v } } [(.recov, F.REC_STAT_BUSY, busy), (.recov, F.REC_LEN, n), (.recov, F.REC_SLOT, 1)]

theorem test_recCommit_1 : ∀ c ∈ [Instr.recErase, .recWrite, .recVerify, .recCommit], rd (post (rc 1) c) .recov F.REC_STAT_RESULT = 1 := by decide +kernel

theorem met_UpdateAndRecovery_11 (h : Obligations.UpdateAndRecovery) :
    type_of% ((h.2.2.2.1 (rc 0) 1 32768 (by decide +kernel) (by decide +kernel) (by decide +kernel)).2 (by decide +kernel)) :=
  (h.2.2.2.1 (rc 0) 1 32768 (by decide +kernel) (by decide +kernel) (by decide +kernel)).2 (by decide +kernel)

theorem met_UpdateAndRecovery_12 (h : Obligations.UpdateAndRecovery) :
    type_of% (((h.2.2.2.1 (rc 0) 1 32768 (by decide +kernel) (by decide +kernel) (by decide +kernel)).2 (by decide +kernel)).2.1 (by decide +kernel) (by decide +kernel) (by decide +kernel)) :=
  ((h.2.2.2.1 (rc 0) 1 32768 (by decide +kernel) (by decide +kernel) (by decide +kernel)).2 (by decide +kernel)).2.1 (by decide +kernel) (by decide +kernel) (by decide +kernel)

theorem met_UpdateAndRecovery_13 (h : Obligations.UpdateAndRecovery) :
    type_of% (((h.2.2.2.1 (rc 0 32769) 1 32769 (by decide +kernel) (by decide +kernel) (by decide +kernel)).2 (by decide +kernel)).2.2.1 (by decide +kernel)) :=
  ((h.2.2.2.1 (rc 0 32769) 1 32769 (by decide +kernel) (by decide +kernel) (by decide +kernel)).2 (by decide +kernel)).2.2.1 (by decide +kernel)

theorem met_UpdateAndRecovery_14 (h : Obligations.UpdateAndRecovery) :
    type_of% (((h.2.2.2.1 (rc 0) 1 32768 (by decide +kernel) (by decide +kernel) (by decide +kernel)).2 (by decide +kernel)).2.2.2.1) :=
  ((h.2.2.2.1 (rc 0) 1 32768 (by decide +kernel) (by decide +kernel) (by decide +kernel)).2 (by decide +kernel)).2.2.2.1

theorem met_UpdateAndRecovery_15 (h : Obligations.UpdateAndRecovery) :
    type_of% (((h.2.2.2.1 (rc 0 1 [1]) 1 1 (by decide +kernel) (by decide +kernel) (by decide +kernel)).2 (by decide +kernel)).2.2.2.2.1 (by decide +kernel)) :=
  ((h.2.2.2.1 (rc 0 1 [1]) 1 1 (by decide +kernel) (by decide +kernel) (by decide +kernel)).2 (by decide +kernel)).2.2.2.2.1 (by decide +kernel)

theorem met_UpdateAndRecovery_16 (h : Obligations.UpdateAndRecovery) :
    type_of% (((h.2.2.2.1 (rc 0 1 [0]) 1 1 (by decide +kernel) (by decide +kernel) (by decide +kernel)).2 (by decide +kernel)).2.2.2.2.2 (by decide +kernel)) :=
  ((h.2.2.2.1 (rc 0 1 [0]) 1 1 (by decide +kernel) (by decide +kernel) (by decide +kernel)).2 (by decide +kernel)).2.2.2.2.2 (by decide +kernel)

noncomputable def run (c : Nat) : State := { (rc 1) with boot := { (rc 1).boot with recCmd := c + 8, verified := [0] } }

theorem met_UpdateAndRecovery_17 (h : Obligations.UpdateAndRecovery) :
    type_of% ((h.2.2.2.2 (run 2) 1 2 false slot (by decide +kernel) (by decide +kernel) (by decide +kernel)).1 (by decide +kernel)) :=
  (h.2.2.2.2 (run 2) 1 2 false slot (by decide +kernel) (by decide +kernel) (by decide +kernel)).1 (by decide +kernel)

theorem met_UpdateAndRecovery_18 (h : Obligations.UpdateAndRecovery) :
    type_of% ((h.2.2.2.2 (run 3) 1 3 true slot (by decide +kernel) (by decide +kernel) (by decide +kernel)).2.1 (by decide +kernel) (by decide +kernel)) :=
  (h.2.2.2.2 (run 3) 1 3 true slot (by decide +kernel) (by decide +kernel) (by decide +kernel)).2.1 (by decide +kernel) (by decide +kernel)

theorem met_UpdateAndRecovery_19 (h : Obligations.UpdateAndRecovery) :
    type_of% ((h.2.2.2.2 (run 3) 1 3 true slotBad (by decide +kernel) (by decide +kernel) (by decide +kernel)).2.2.1 5 0 false (by decide +kernel) (by decide +kernel) (by decide +kernel)) :=
  (h.2.2.2.2 (run 3) 1 3 true slotBad (by decide +kernel) (by decide +kernel) (by decide +kernel)).2.2.1 5 0 false (by decide +kernel) (by decide +kernel) (by decide +kernel)

theorem test_recCommandDone_1 : let t := post (run 4) (.recCommandDone true slot); t.pwr.stage = .rom ∧ (newestDir t).map (fun d => slotState d.2 1) = some 2 := by decide +kernel

theorem met_BootFromFlash_4 (h : Obligations.BootFromFlash) :
    type_of% (h.1 dirA true 1 (by decide +kernel)) :=
  h.1 dirA true 1 (by decide +kernel)

theorem met_BootFromFlash_5 (h : Obligations.BootFromFlash) :
    type_of% ((h.1 dirB true 0 (by decide +kernel)).2.1 (by decide +kernel)) :=
  (h.1 dirB true 0 (by decide +kernel)).2.1 (by decide +kernel)

theorem met_BootFromFlash_6 (h : Obligations.BootFromFlash) :
    type_of% ((h.1 dirB true 1 (by decide +kernel)).2.1 (by decide +kernel)) :=
  (h.1 dirB true 1 (by decide +kernel)).2.1 (by decide +kernel)

theorem met_BootFromFlash_7 (h : Obligations.BootFromFlash) :
    type_of% ((h.1 dirA true 0 (by decide +kernel)).2.2.1 (by decide +kernel)) :=
  (h.1 dirA true 0 (by decide +kernel)).2.2.1 (by decide +kernel)

theorem met_BootFromFlash_8 (h : Obligations.BootFromFlash) :
    type_of% ((h.1 dirA true 0 (by decide +kernel)).2.2.2 (by decide +kernel)) :=
  (h.1 dirA true 0 (by decide +kernel)).2.2.2 (by decide +kernel)

theorem met_BootFromFlash_9 (h : Obligations.BootFromFlash) :
    type_of% (h.2.1 RK true img (by decide +kernel)) :=
  h.2.1 RK true img (by decide +kernel)

theorem met_BootFromFlash_10 (h : Obligations.BootFromFlash) :
    type_of% ((h.2.1 RK true img (by decide +kernel)).2.2.2.2.2.2.2.2.2.2.2.2 ⟨2, 0x02010028, 32768, 16384, true, true⟩ (by decide +kernel)) :=
  (h.2.1 RK true img (by decide +kernel)).2.2.2.2.2.2.2.2.2.2.2.2 ⟨2, 0x02010028, 32768, 16384, true, true⟩ (by decide +kernel)

theorem met_BootFromFlash_11 (h : Obligations.BootFromFlash) :
    type_of% (((h.2.1 RK true img (by decide +kernel)).2.2.2.2.2.2.2.2.2.2.2.2 ⟨2, 0x02010028, 32768, 16384, true, true⟩ (by decide +kernel)).2.2.2.2.2 (by decide +kernel)) :=
  ((h.2.1 RK true img (by decide +kernel)).2.2.2.2.2.2.2.2.2.2.2.2 ⟨2, 0x02010028, 32768, 16384, true, true⟩ (by decide +kernel)).2.2.2.2.2 (by decide +kernel)

theorem met_BootFromFlash_12 (h : Obligations.BootFromFlash) :
    type_of% ((h.2.2.1 (inRom 3 2) (flash slot slot) (by decide +kernel)).1 0 dirA 1 true [(0, false)] img (by decide +kernel) (by decide +kernel) (by decide +kernel) (by decide +kernel) (by decide +kernel) rfl (by decide +kernel) (by decide +kernel) (by decide +kernel) (by decide +kernel)) :=
  (h.2.2.1 (inRom 3 2) (flash slot slot) (by decide +kernel)).1 0 dirA 1 true [(0, false)] img (by decide +kernel) (by decide +kernel) (by decide +kernel) (by decide +kernel) (by decide +kernel) rfl (by decide +kernel) (by decide +kernel) (by decide +kernel) (by decide +kernel)

theorem met_BootFromFlash_13 (h : Obligations.BootFromFlash) :
    type_of% ((h.2.2.1 (inRom 3 2) (flash slot slotBad) (by decide +kernel)).2.1 0 dirA 1 true 0 false [] 5 0 bad img (by decide +kernel) (by decide +kernel) (by decide +kernel) (by decide +kernel) (by decide +kernel) rfl rfl (by decide +kernel) (by decide +kernel)) :=
  (h.2.2.1 (inRom 3 2) (flash slot slotBad) (by decide +kernel)).2.1 0 dirA 1 true 0 false [] 5 0 bad img (by decide +kernel) (by decide +kernel) (by decide +kernel) (by decide +kernel) (by decide +kernel) rfl rfl (by decide +kernel) (by decide +kernel)

theorem met_BootFromFlash_14 (h : Obligations.BootFromFlash) :
    type_of% ((h.2.2.1 (inRom 0 4) (flash slot slotBad) (by decide +kernel)).2.2 0 dirB (by decide +kernel) (by decide +kernel) (by decide +kernel) (by decide +kernel)) :=
  (h.2.2.1 (inRom 0 4) (flash slot slotBad) (by decide +kernel)).2.2 0 dirB (by decide +kernel) (by decide +kernel) (by decide +kernel) (by decide +kernel)

theorem met_UpdateAndRecovery_20 (h : Obligations.UpdateAndRecovery) :
    type_of% ((h.1 bz 4 1 (by decide +kernel) (by decide +kernel) (by decide +kernel)).1 (by decide +kernel) (.updateWrite 4 1) (by simp)) :=
  (h.1 bz 4 1 (by decide +kernel) (by decide +kernel) (by decide +kernel)).1 (by decide +kernel) (.updateWrite 4 1) (by simp)

theorem met_UpdateAndRecovery_21 (h : Obligations.UpdateAndRecovery) :
    type_of% (((h.1 (up 4096) 4 1 (by decide +kernel) (by decide +kernel) (by decide +kernel)).2 (by decide +kernel)).2.2.2.2.2.2.1 (by decide +kernel) (by decide +kernel)) :=
  ((h.1 (up 4096) 4 1 (by decide +kernel) (by decide +kernel) (by decide +kernel)).2 (by decide +kernel)).2.2.2.2.2.2.1 (by decide +kernel) (by decide +kernel)

theorem seq_small (s : State) (d : Nat × Directory) (e : newestDir s = some d) (b : d.2.seq < 2 ^ 32) : ∀ c o, newestDir s = some (c, o) → o.seq < 2 ^ 32 := by
  intro c o e'
  rw [e] at e'
  cases e'
  exact b

theorem no_list (s : State) (e : newestList s = none) : ∀ c o, newestList s = some (c, o) → o.seq < 2 ^ 32 := by
  intro c o e'
  rw [e] at e'
  cases e'

noncomputable def low : State := { up 4096 with boot := { (up 4096).boot with srcLow := 1 } }

theorem met_UpdateAndRecovery_25 (h : Obligations.UpdateAndRecovery) :
    type_of% (((h.1 low 4 1 (by decide +kernel) (by decide +kernel) rfl).2 (by decide +kernel)).1 (by decide +kernel)) :=
  ((h.1 low 4 1 (by decide +kernel) (by decide +kernel) rfl).2 (by decide +kernel)).1 (by decide +kernel)

theorem met_UpdateAndRecovery_10 (h : Obligations.UpdateAndRecovery) :
    type_of% ((h.2.2.1 (fo (.retireList [5])) [] (by decide +kernel)).2 [5] (by decide +kernel) (no_list _ (by decide +kernel))) :=
  (h.2.2.1 (fo (.retireList [5])) [] (by decide +kernel)).2 [5] (by decide +kernel) (no_list _ (by decide +kernel))

theorem met_UpdateAndRecovery_22 (h : Obligations.UpdateAndRecovery) :
    type_of% ((h.2.2.1 (fo (.directory ⟨0, 1, false, 3, 3, 0, 0, 6⟩)) [] (by decide +kernel)).1 ⟨0, 1, false, 3, 3, 0, 0, 6⟩ (by decide +kernel) (seq_small _ (0, dirA) (by decide +kernel) (by decide +kernel))) :=
  (h.2.2.1 (fo (.directory ⟨0, 1, false, 3, 3, 0, 0, 6⟩)) [] (by decide +kernel)).1 ⟨0, 1, false, 3, 3, 0, 0, 6⟩ (by decide +kernel) (seq_small _ (0, dirA) (by decide +kernel) (by decide +kernel))

theorem met_UpdateAndRecovery_23 (h : Obligations.UpdateAndRecovery) :
    type_of% ((h.2.2.2.1 (rc 1) 1 32768 (by decide +kernel) (by decide +kernel) (by decide +kernel)).1 (by decide +kernel) .recErase (by simp)) :=
  (h.2.2.2.1 (rc 1) 1 32768 (by decide +kernel) (by decide +kernel) (by decide +kernel)).1 (by decide +kernel) .recErase (by simp)

noncomputable def run4 : State := { run 4 with boot := { (run 4).boot with copy0 := dcopy dirB } }

theorem met_UpdateAndRecovery_24 (h : Obligations.UpdateAndRecovery) :
    type_of% ((h.2.2.2.2 run4 1 4 true slot (by decide +kernel) (by decide +kernel) (by decide +kernel)).2.2.2 (by decide +kernel) (by decide +kernel) (by decide +kernel) (by decide +kernel) (by decide +kernel) (by decide +kernel) (seq_small _ (0, dirB) (by decide +kernel) (by decide +kernel))) :=
  (h.2.2.2.2 run4 1 4 true slot (by decide +kernel) (by decide +kernel) (by decide +kernel)).2.2.2 (by decide +kernel) (by decide +kernel) (by decide +kernel) (by decide +kernel) (by decide +kernel) (by decide +kernel) (seq_small _ (0, dirB) (by decide +kernel) (by decide +kernel))

end Ch19

/-! Chapter 20: the life cycle, spares and the perturbation bench. -/

namespace Ch20

/-- fuses: row 0 count n. -/
noncomputable def fz (n : Nat) (s : State := R) (more : List (Nat × Nat) := []) : State := wrs { s with lcs := { s.lcs with fuses := more.foldl (fun f x => tabPut 0 f x.1 x.2) (tabPut 0 s.lcs.fuses 0 (2 ^ n - 1)) } } .lcs [(F.LCS_STATE_STATE, [0, 1, 2, 3].getD (if n = 0 then 0 else (n - 1) % 3 + 1) 0), (F.LCS_STATE_CYCLES, n / 3)]

theorem met_FusesAndTransitions_1 (h : Obligations.FusesAndTransitions) :
    type_of% (h.2.1 (fz 2 R [(64 + 1, 0x1234)]) 4 0x201 2 1 (by decide +kernel) (by decide +kernel) (by decide +kernel)) :=
  h.2.1 (fz 2 R [(64 + 1, 0x1234)]) 4 0x201 2 1 (by decide +kernel) (by decide +kernel) (by decide +kernel)

theorem met_FusesAndTransitions_2 (h : Obligations.FusesAndTransitions) :
    type_of% (h.2.1 R 4 0x1C00 28 0 (by decide +kernel) (by decide +kernel) (by decide +kernel)) :=
  h.2.1 R 4 0x1C00 28 0 (by decide +kernel) (by decide +kernel) (by decide +kernel)

noncomputable def sel (row data v : Nat) (s : State) : State := { (withRegs s [(.lcs, F.LCS_FUSE_SEL_ROW, row), (.lcs, F.LCS_FUSE_DATA, data)]) with mgt := { s.mgt with pairs := [(pairKey 4 .lcs F.LCS_FUSE_CMD_PROG.off, v)] } }

theorem met_FusesAndTransitions_3 (h : Obligations.FusesAndTransitions) :
    type_of% (h.2.2.1 (sel 10 0 1 (fz 2)) 4 _ 1 10 0 0 (by decide +kernel) (by decide +kernel) rfl (by decide +kernel) (by decide +kernel) (by decide +kernel) (by decide +kernel)) :=
  h.2.2.1 (sel 10 0 1 (fz 2)) 4 _ 1 10 0 0 (by decide +kernel) (by decide +kernel) rfl (by decide +kernel) (by decide +kernel) (by decide +kernel) (by decide +kernel)

theorem met_FusesAndTransitions_4 (h : Obligations.FusesAndTransitions) :
    type_of% (h.2.2.1 (sel 9 1 1 (fz 2)) 4 _ 1 9 0 1 (by decide +kernel) (by decide +kernel) rfl (by decide +kernel) (by decide +kernel) (by decide +kernel) (by decide +kernel)) :=
  h.2.2.1 (sel 9 1 1 (fz 2)) 4 _ 1 9 0 1 (by decide +kernel) (by decide +kernel) rfl (by decide +kernel) (by decide +kernel) (by decide +kernel) (by decide +kernel)

theorem test_lifecycle_1 : fuseResult (sel 2 1 1 (fz 2)) 2 0 1 = 2 ∧ fuseResult (sel 0 1 1 (fz 2)) 0 0 1 = 3 ∧ fuseResult (sel 9 1 1 (fz 2)) 9 0 1 = 4 := by decide +kernel

noncomputable def pg : State := { (fz 2) with lcs := { (fz 2).lcs with prog := some (10, 0, 3) } }

theorem test_fuseDone_1 : let t := post pg (.fuseDone 3); t.lcs.prog = none ∧ fuseWord t 10 0 = 3 ∧ rd t .lcs F.LCS_FUSE_STAT_RESULT = 0 ∧ rd t .boot F.BOOT_SVN_MIN = 2 ∧ (rd t .lcs F.INT_RAW).testBit 9 = true := by decide +kernel

theorem test_fuseDone_2 : let t := post pg (.fuseDone 1); fuseWord t 10 0 = 1 ∧ rd t .lcs F.LCS_FUSE_STAT_RESULT = 5 ∧ (rd t .lcs F.FLT_SEVERE).testBit 2 = true := by decide +kernel

theorem test_lifecycle_2 : transCheck (fz 2) 4 3 = 0 ∧ anyBusy (fz 2) = false ∧ lcState (fz 2) = 2 ∧ transCheck (fz 1) 0 2 = 0 ∧ transCheck (fz 3 R [(32, 8)]) 5 1 = 0 ∧ transCheck (fz 11) 4 3 = 2 ∧ transCheck (fz 3) 4 1 = 5 ∧ transCheck (fz 0) 4 1 = 4 ∧ transCheck (fz 2) 4 1 = 1 ∧ transCheck (fz 0) 4 4 = 0 := by decide +kernel

theorem test_lifecycle_3 : transCheck { (fz 0 R [(160, 1)]) with cal := { R.cal with recs := [] } } 4 1 = 4 := by decide +kernel

noncomputable def tr (v : Nat) (s : State) : State := { s with mgt := { s.mgt with pairs := [(pairKey 4 .lcs F.LCS_TRANS_TARGET.off, v)] } }

theorem met_FusesAndTransitions_5 (h : Obligations.FusesAndTransitions) :
    type_of% (h.2.2.2.2.2.1 (tr 0x503 (fz 2)) 4 _ 0x503 0 (by decide +kernel) (by decide +kernel) rfl (by decide +kernel) (by decide +kernel)) :=
  h.2.2.2.2.2.1 (tr 0x503 (fz 2)) 4 _ 0x503 0 (by decide +kernel) (by decide +kernel) rfl (by decide +kernel) (by decide +kernel)

theorem met_FusesAndTransitions_6 (h : Obligations.FusesAndTransitions) :
    type_of% (h.2.2.2.2.2.1 (tr 1 (fz 2)) 4 _ 1 1 (by decide +kernel) (by decide +kernel) rfl (by decide +kernel) (by decide +kernel)) :=
  h.2.2.2.2.2.1 (tr 1 (fz 2)) 4 _ 1 1 (by decide +kernel) (by decide +kernel) rfl (by decide +kernel) (by decide +kernel)

noncomputable def td (t sel : Nat) : State := { (fz 2) with lcs := { (fz 2).lcs with trans := some (t, sel) } }

theorem test_lifecycle_4 : fuseWord (td 3 5) 0 0 = 2 ^ 2 - 1 ∧ powered (td 3 5) = true ∧ tapHold (td 3 5) = false := by decide +kernel

theorem met_FusesAndTransitions_7 (h : Obligations.FusesAndTransitions) :
    type_of% ((h.2.2.2.2.2.2.1 (td 4 0) 4 0 2 rfl (by decide +kernel) (by decide +kernel) (by decide +kernel)).2.1 rfl (by decide +kernel) (by decide +kernel) (by decide +kernel)) :=
  (h.2.2.2.2.2.2.1 (td 4 0) 4 0 2 rfl (by decide +kernel) (by decide +kernel) (by decide +kernel)).2.1 rfl (by decide +kernel) (by decide +kernel) (by decide +kernel)

theorem met_FusesAndTransitions_8 (h : Obligations.FusesAndTransitions) :
    type_of% ((h.2.2.2.2.2.2.1 (td 3 5) 3 5 2 rfl (by decide +kernel) (by decide +kernel) (by decide +kernel)).2.2 (by decide +kernel)) :=
  (h.2.2.2.2.2.2.1 (td 3 5) 3 5 2 rfl (by decide +kernel) (by decide +kernel) (by decide +kernel)).2.2 (by decide +kernel)

noncomputable def er : State := fz 3 (putByte R 0 77 1) [(32, 6)]

theorem test_returnErasureDone_1 : er.pwr.stage = .run ∧ erasePend er = true ∧ eraseSelected er 1 = true ∧ eraseSelected er 2 = true ∧ (let t := post er .returnErasureDone; erasePend t = false ∧ lcState t = 3 ∧ t.mem = []) := by decide +kernel

theorem met_AttestationAndTestAccess_1 (h : Obligations.AttestationAndTestAccess) :
    type_of% (h.1 R 4 2 (by decide +kernel)) :=
  h.1 R 4 2 (by decide +kernel)

noncomputable def at0 : State := post R (.attest 4 2)

theorem met_AttestationAndTestAccess_2 (h : Obligations.AttestationAndTestAccess) :
    type_of% ((h.2.1 at0 2 (by decide +kernel) (by decide +kernel) (by decide +kernel)).2 (by decide +kernel)) :=
  (h.2.1 at0 2 (by decide +kernel) (by decide +kernel) (by decide +kernel)).2 (by decide +kernel)

theorem test_attest_1 : keyGen (post (fz 2 R [((12 + 2) * 32, 7)]) (.attest 4 2)) 2 = some 0 := by decide +kernel

theorem met_AttestationAndTestAccess_3 (h : Obligations.AttestationAndTestAccess) :
    type_of% (h.2.2.1 R .clamp 3 (by simp) (by decide +kernel) (by decide +kernel) (by decide +kernel)) :=
  h.2.2.1 R .clamp 3 (by simp) (by decide +kernel) (by decide +kernel) (by decide +kernel)

theorem met_AttestationAndTestAccess_4 (h : Obligations.AttestationAndTestAccess) :
    type_of% ((h.2.2.2.1 R .idcode 2 (by simp)).1 (by decide +kernel)) :=
  (h.2.2.2.1 R .idcode 2 (by simp)).1 (by decide +kernel)

theorem test_bypass_1 : let s := post R .extest; tapHold s = true ∧ s.pwr.stage = .held ∧ s.pwr.rstLow = false ∧ rd s .lcs F.LCS_STATE_STATE ≠ 4 ∧ (post s .bypass).pwr.stage = .rom := by decide +kernel

theorem test_debug_1 : debugLive (post (fz 0) .debug) = true := by decide +kernel

noncomputable def w1 : WearFacts := ⟨1, [], []⟩

noncomputable def w4 : WearFacts := ⟨4, [], []⟩

/-- 16 corrected bits of an SRAM column at the present tick (Table 20-6). -/
noncomputable def w9 : WearFacts := ⟨1, List.replicate 16 0, []⟩

theorem met_SpareProposals_1 (h : Obligations.SpareProposals) :
    type_of% (((h.1 R 9 5 w9 (by decide +kernel) (by decide +kernel)).1 (by decide +kernel) (by decide)).1 (by decide +kernel) (by decide +kernel)) :=
  ((h.1 R 9 5 w9 (by decide +kernel) (by decide +kernel)).1 (by decide +kernel) (by decide)).1 (by decide +kernel) (by decide +kernel)

noncomputable def p1 : State := withRegs { R with lcs := { R.lcs with props := [⟨3, 9, 5, 1, false⟩], nextId := 9 } } [(.lcs, F.LCS_POLICY_AUTO, 0)]

theorem met_SpareProposals_2 (h : Obligations.SpareProposals) :
    type_of% (((h.1 p1 9 5 w9 (by decide +kernel) (by decide +kernel)).1 (by decide +kernel) (by decide)).2.1 (by decide +kernel)) :=
  ((h.1 p1 9 5 w9 (by decide +kernel) (by decide +kernel)).1 (by decide +kernel) (by decide)).2.1 (by decide +kernel)

noncomputable def pf : State := { R with lcs := { R.lcs with props := (List.range 16).map fun i => ⟨i, 2, i, 1, false⟩ } }

theorem met_SpareProposals_3 (h : Obligations.SpareProposals) :
    type_of% (((h.1 pf 9 5 w9 (by decide +kernel) (by decide +kernel)).1 (by decide +kernel) (by decide)).2.2 (by decide +kernel) (by decide +kernel)) :=
  ((h.1 pf 9 5 w9 (by decide +kernel) (by decide +kernel)).1 (by decide +kernel) (by decide)).2.2 (by decide +kernel) (by decide +kernel)

theorem met_SpareProposals_4 (h : Obligations.SpareProposals) :
    type_of% ((h.1 R 4 5 w1 (by decide +kernel) (by decide +kernel)).2.2.2 (by decide) (by decide) (by decide +kernel) (by decide +kernel)) :=
  (h.1 R 4 5 w1 (by decide +kernel) (by decide +kernel)).2.2.2 (by decide) (by decide) (by decide +kernel) (by decide +kernel)

noncomputable def full : State := { R with memc := { R.memc with cands := [7] }, boot := { R.boot with ops := [.retireList (List.replicate retireCap 0)] } }

theorem full_list : retireCap ≤ (retireNow full).length := by simp [retireNow, full]

theorem met_SpareProposals_12 (h : Obligations.SpareProposals) :
    type_of% ((h.1 full 7 7 w1 (by decide +kernel) (by decide)).2.1 (by decide +kernel) rfl full_list) :=
  (h.1 full 7 7 w1 (by decide +kernel) (by decide)).2.1 (by decide +kernel) rfl full_list

theorem met_SpareProposals_13 (h : Obligations.SpareProposals) :
    type_of% ((h.1 R 4 5 w1 (by decide +kernel) (by decide)).2.2.1 (by decide +kernel)) :=
  (h.1 R 4 5 w1 (by decide +kernel) (by decide)).2.2.1 (by decide +kernel)

/-- Table 20-6: an engine in quarantine is evidence, an engine in service is none; a frame needs its candidacy. -/
theorem test_evidence_1 : evidence R 1 5 w4 = false ∧ evidence (setEng R 5 { engOf R 5 with role := 1 }) 1 5 w4 = true ∧ evidence R 7 7 w1 = false ∧ evidence full 7 7 w1 = true ∧ evidence R 9 5 w1 = false ∧ evidence R 9 5 w9 = true := by decide +kernel

noncomputable def pc (v : Nat) : State := { p1 with mgt := { p1.mgt with pairs := [(pairKey 4 .lcs F.LCS_PROP_CTL_ID.off, v)] } }

theorem met_SpareProposals_5 (h : Obligations.SpareProposals) :
    type_of% ((h.2.1 (pc 0x104) 4 (2 ^ 32 - 1 - 0x104) 0x104 (by decide +kernel) (by decide +kernel) rfl (.proposalApprove 4 (2 ^ 32 - 1 - 0x104)) (by simp)).1 (by decide +kernel)) :=
  (h.2.1 (pc 0x104) 4 (2 ^ 32 - 1 - 0x104) 0x104 (by decide +kernel) (by decide +kernel) rfl (.proposalApprove 4 (2 ^ 32 - 1 - 0x104)) (by simp)).1 (by decide +kernel)

theorem met_SpareProposals_6 (h : Obligations.SpareProposals) :
    type_of% ((h.2.1 (pc 0x103) 4 (2 ^ 32 - 1 - 0x103) 0x103 (by decide +kernel) (by decide +kernel) rfl (.proposalApprove 4 (2 ^ 32 - 1 - 0x103)) (by simp)).2.1 ⟨3, 9, 5, 1, false⟩ (by decide +kernel) (by decide +kernel) (by decide +kernel)) :=
  (h.2.1 (pc 0x103) 4 (2 ^ 32 - 1 - 0x103) 0x103 (by decide +kernel) (by decide +kernel) rfl (.proposalApprove 4 (2 ^ 32 - 1 - 0x103)) (by simp)).2.1 ⟨3, 9, 5, 1, false⟩ (by decide +kernel) (by decide +kernel) (by decide +kernel)

theorem met_SpareProposals_7 (h : Obligations.SpareProposals) :
    type_of% ((h.2.1 (pc 0x203) 4 (2 ^ 32 - 1 - 0x203) 0x203 (by decide +kernel) (by decide +kernel) rfl (.proposalReject 4 (2 ^ 32 - 1 - 0x203)) (by simp)).2.2 ⟨3, 9, 5, 1, false⟩ (by decide +kernel) (by decide +kernel) (by decide +kernel) (by decide +kernel)) :=
  (h.2.1 (pc 0x203) 4 (2 ^ 32 - 1 - 0x203) 0x203 (by decide +kernel) (by decide +kernel) rfl (.proposalReject 4 (2 ^ 32 - 1 - 0x203)) (by simp)).2.2 ⟨3, 9, 5, 1, false⟩ (by decide +kernel) (by decide +kernel) (by decide +kernel) (by decide +kernel)

noncomputable def ap (k i : Nat) (s : State := R) : State := { s with lcs := { s.lcs with props := [⟨3, k, i, 4, true⟩] } }

theorem met_SpareProposals_8 (h : Obligations.SpareProposals) :
    type_of% ((h.2.2 (ap 1 5) 1 5 ⟨3, 1, 5, 4, true⟩ (by decide +kernel) (by decide +kernel) (by decide +kernel)).1 rfl 16 (by decide +kernel) (by decide +kernel)) :=
  (h.2.2 (ap 1 5) 1 5 ⟨3, 1, 5, 4, true⟩ (by decide +kernel) (by decide +kernel) (by decide +kernel)).1 rfl 16 (by decide +kernel) (by decide +kernel)

noncomputable def noSp : State := [16, 33, 50, 67].foldl (fun s k => setEng s k { engOf s k with role := 2 }) (ap 1 5)

theorem met_SpareProposals_9 (h : Obligations.SpareProposals) :
    type_of% ((h.2.2 noSp 1 5 ⟨3, 1, 5, 4, true⟩ (by decide +kernel) (by decide +kernel) (by decide +kernel)).2.1 rfl (by decide +kernel) (by decide +kernel)) :=
  (h.2.2 noSp 1 5 ⟨3, 1, 5, 4, true⟩ (by decide +kernel) (by decide +kernel) (by decide +kernel)).2.1 rfl (by decide +kernel) (by decide +kernel)

theorem met_SpareProposals_10 (h : Obligations.SpareProposals) :
    type_of% ((h.2.2 (ap 9 5) 9 5 ⟨3, 9, 5, 4, true⟩ (by decide +kernel) (by decide +kernel) (by decide +kernel)).2.2.1 rfl (by decide +kernel) (by decide +kernel)) :=
  (h.2.2 (ap 9 5) 9 5 ⟨3, 9, 5, 4, true⟩ (by decide +kernel) (by decide +kernel) (by decide +kernel)).2.2.1 rfl (by decide +kernel) (by decide +kernel)

theorem test_lifecycle_5 : partBusy (ap 5 0 (site1 3)) 0 = true := by decide +kernel

noncomputable def un (v : Nat) (s : State := R) : State := { s with mgt := { s.mgt with pairs := [(pairKey 4 .ptb F.PTB_UNLOCK.off, v)] } }

theorem met_Perturbations_1 (h : Obligations.Perturbations) :
    type_of% ((h.1 (un 1) 4 _ 1 (by decide +kernel) (by decide +kernel) rfl).1 (by decide +kernel) (by decide +kernel)) :=
  (h.1 (un 1) 4 _ 1 (by decide +kernel) (by decide +kernel) rfl).1 (by decide +kernel) (by decide +kernel)

theorem met_Perturbations_2 (h : Obligations.Perturbations) :
    type_of% ((h.1 (un 1 (withRegs R [(.lcs, F.LCS_STATE_STATE, 4)])) 4 _ 1 (by decide +kernel) (by decide +kernel) rfl).2.1 (by decide +kernel) (by decide +kernel)) :=
  (h.1 (un 1 (withRegs R [(.lcs, F.LCS_STATE_STATE, 4)])) 4 _ 1 (by decide +kernel) (by decide +kernel) rfl).2.1 (by decide +kernel) (by decide +kernel)

noncomputable def ul : State := withRegs R [(.ptb, F.PTB_STAT_UNLOCKED, 1), (.ptb, F.PTB_MAG 3, 7)]

theorem met_Perturbations_3 (h : Obligations.Perturbations) :
    type_of% ((h.1 (un 0 ul) 4 _ 0 (by decide +kernel) (by decide +kernel) rfl).2.2 (by decide +kernel) (by decide +kernel)) :=
  (h.1 (un 0 ul) 4 _ 0 (by decide +kernel) (by decide +kernel) rfl).2.2 (by decide +kernel) (by decide +kernel)

theorem met_Perturbations_4 (h : Obligations.Perturbations) :
    type_of% ((h.2.1 { ul with tim := { ul.tim with ticks := [(0, 60000000000)] } } 600 (by decide +kernel) (by decide +kernel) (by decide +kernel)).1 (by decide +kernel)) :=
  (h.2.1 { ul with tim := { ul.tim with ticks := [(0, 60000000000)] } } 600 (by decide +kernel) (by decide +kernel) (by decide +kernel)).1 (by decide +kernel)

theorem met_Perturbations_5 (h : Obligations.Perturbations) :
    type_of% ((h.2.1 ul 600 (by decide +kernel) (by decide +kernel) (by decide +kernel)).2 (by decide +kernel)) :=
  (h.2.1 ul 600 (by decide +kernel) (by decide +kernel) (by decide +kernel)).2 (by decide +kernel)

theorem met_Perturbations_6 (h : Obligations.Perturbations) :
    type_of% (((h.2.2.1 ul 4 3 0x503 1 (by decide +kernel) (by decide +kernel)).1 (by decide +kernel) (by decide +kernel)).1 (by decide +kernel) (by decide +kernel) (by decide +kernel) (by decide +kernel) (by decide +kernel) (by decide +kernel)) :=
  ((h.2.2.1 ul 4 3 0x503 1 (by decide +kernel) (by decide +kernel)).1 (by decide +kernel) (by decide +kernel)).1 (by decide +kernel) (by decide +kernel) (by decide +kernel) (by decide +kernel) (by decide +kernel) (by decide +kernel)

theorem met_Perturbations_7 (h : Obligations.Perturbations) :
    type_of% (((h.2.2.1 R 4 3 0x503 1 (by decide +kernel) (by decide +kernel)).1 (by decide +kernel) (by decide +kernel)).2 (by decide +kernel)) :=
  ((h.2.2.1 R 4 3 0x503 1 (by decide +kernel) (by decide +kernel)).1 (by decide +kernel) (by decide +kernel)).2 (by decide +kernel)

noncomputable def ar (ty a : Nat) (s : State := ul) : State := withRegs s [(.ptb, F.PTB_CTRL_EN 3, 1), (.ptb, F.PTB_CTRL_TYPE 3, ty), (.ptb, F.PTB_CTRL_A 3, a)]

theorem met_Perturbations_8 (h : Obligations.Perturbations) :
    type_of% ((h.2.2.1 (ar 1 5) 4 3 256 1 (by decide +kernel) (by decide +kernel)).2 (by decide +kernel) (by decide +kernel)) :=
  (h.2.2.1 (ar 1 5) 4 3 256 1 (by decide +kernel) (by decide +kernel)).2 (by decide +kernel) (by decide +kernel)

theorem met_Perturbations_9 (h : Obligations.Perturbations) :
    type_of% ((h.2.2.2 (ar 2 0) 3 (by decide +kernel) (by decide +kernel)).1 (by decide +kernel)) :=
  (h.2.2.2 (ar 2 0) 3 (by decide +kernel) (by decide +kernel)).1 (by decide +kernel)

theorem met_Perturbations_10 (h : Obligations.Perturbations) :
    type_of% ((h.2.2.2 (ar 8 0) 3 (by decide +kernel) (by decide +kernel)).2.1 (by decide +kernel)) :=
  (h.2.2.2 (ar 8 0) 3 (by decide +kernel) (by decide +kernel)).2.1 (by decide +kernel)

noncomputable def mc : State := ar 9 5 (setEng ul 5 { engOf ul 5 with work := some (work1 st1) })

theorem met_Perturbations_11 (h : Obligations.Perturbations) :
    type_of% ((h.2.2.2 mc 3 (by decide +kernel) (by decide +kernel)).2.2.2 5 (work1 st1) (by decide +kernel) (by decide +kernel) (by decide +kernel) (by decide +kernel)) :=
  (h.2.2.2 mc 3 (by decide +kernel) (by decide +kernel)).2.2.2 5 (work1 st1) (by decide +kernel) (by decide +kernel) (by decide +kernel) (by decide +kernel)

theorem met_Perturbations_12 (h : Obligations.Perturbations) :
    type_of% ((h.2.2.2 mc 3 (by decide +kernel) (by decide +kernel)).2.2.1 _ _ _ rfl rfl rfl) :=
  (h.2.2.2 mc 3 (by decide +kernel) (by decide +kernel)).2.2.1 _ _ _ rfl rfl rfl

theorem met_FusesAndTransitions_9 (h : Obligations.FusesAndTransitions) :
    type_of% (h.1 (fz 2) 3 (by decide +kernel)) :=
  h.1 (fz 2) 3 (by decide +kernel)

theorem met_FusesAndTransitions_10 (h : Obligations.FusesAndTransitions) :
    type_of% ((h.1 (fz 16) 65535 (by decide +kernel)).2.2.1 (Or.inl (by decide +kernel))) :=
  (h.1 (fz 16) 65535 (by decide +kernel)).2.2.1 (Or.inl (by decide +kernel))

theorem three_thermometer : ∀ i j, i < j → j < 11 → (3 : Nat).testBit j = true → (3 : Nat).testBit i = true := by
  intro i j hij hj h
  exact (by decide : ∀ j < 11, ∀ i < j, (3 : Nat).testBit j = true → (3 : Nat).testBit i = true) j hj i hij h

theorem met_FusesAndTransitions_11 (h : Obligations.FusesAndTransitions) :
    type_of% ((h.1 (fz 2) 3 (by decide +kernel)).2.2.2 (by decide +kernel) three_thermometer) :=
  (h.1 (fz 2) 3 (by decide +kernel)).2.2.2 (by decide +kernel) three_thermometer

theorem met_FusesAndTransitions_12 (h : Obligations.FusesAndTransitions) :
    type_of% (h.2.2.2.1 pg 10 0 3 1 (by decide +kernel) (by decide +kernel)) :=
  h.2.2.2.1 pg 10 0 3 1 (by decide +kernel) (by decide +kernel)

theorem met_FusesAndTransitions_13 (h : Obligations.FusesAndTransitions) :
    type_of% ((h.2.2.2.2.1 (fz 2) 4 3).1 (by decide +kernel)) :=
  (h.2.2.2.2.1 (fz 2) 4 3).1 (by decide +kernel)

theorem met_FusesAndTransitions_14 (h : Obligations.FusesAndTransitions) :
    type_of% (((h.2.2.2.2.1 (fz 2) 4 3).1 (by decide +kernel)).2.2.1 (by decide +kernel) (by decide +kernel)) :=
  ((h.2.2.2.2.1 (fz 2) 4 3).1 (by decide +kernel)).2.2.1 (by decide +kernel) (by decide +kernel)

theorem met_FusesAndTransitions_15 (h : Obligations.FusesAndTransitions) :
    type_of% (((h.2.2.2.2.1 (fz 3 R [(32, 8)]) 5 1).1 (by decide +kernel)).2.2.2.1 (by decide +kernel) (by decide +kernel)) :=
  ((h.2.2.2.2.1 (fz 3 R [(32, 8)]) 5 1).1 (by decide +kernel)).2.2.2.1 (by decide +kernel) (by decide +kernel)

/-- The converters of the device: bank and slot. -/
noncomputable def places : List (Nat × Nat) := (List.range 16).flatMap fun b => calSlots.map fun k => (b, k)

/-- A FACTORY record of a converter, with the CHECK of its bytes. -/
noncomputable def factoryRec (x : Nat × Nat) : CalRec := ⟨1, 0, 0, 0, [], calCheck 4 x.1 x.2 ⟨1, 0, 0, 0, [], 0⟩⟩

theorem factory_check (b k : Nat) : calCheck 4 b k (factoryRec (b, k)) = (factoryRec (b, k)).check := by
  simp only [calCheck, factoryRec]

theorem tabFind_mapped {α : Type} (f : Nat × Nat → Nat) (g : Nat × Nat → α) (a : Nat × Nat) :
    ∀ l : List (Nat × Nat), a ∈ l → (∀ x ∈ l, f x = f a → x = a) → tabFind (l.map fun x => (f x, g x)) (f a) = some (g a)
  | [], m, _ => by cases m
  | x :: l, m, u => by
    by_cases e : f a = f x
    · simp [tabFind, u x (.head _) e.symm]
    · have n : a ∈ l := by
        cases m with
        | head => exact absurd rfl e
        | tail _ n => exact n
      simpa [tabFind, e] using tabFind_mapped f g a l n fun y hy => u y (.tail _ hy)

theorem places_small (x : Nat × Nat) : x ∈ places ↔ x.1 < 16 ∧ x.2 < 17 := by
  obtain ⟨b, k⟩ := x
  simp [places, calSlots]

/-- A manufactured device: key 0 in the fuses, and a FACTORY record of every slot. -/
noncomputable def made : State :=
  let s := fz 0 R [(160, 1)]
  { s with cal := { s.cal with recs := places.map fun x => (calKey 4 x.1 x.2 * 2, factoryRec x) } }

theorem made_whole : factoryWhole made = true := by
  unfold factoryWhole
  simp only [List.all_eq_true]
  intro b hb k hk
  have f : tabFind made.cal.recs (calKey 4 b k * 2 + 0) = some (factoryRec (b, k)) := by
    refine tabFind_mapped (fun x => calKey 4 x.1 x.2 * 2) factoryRec (b, k) places ((places_small _).2 ?_) ?_
    · simp only [calSlots, List.mem_range] at hb hk
      exact ⟨hb, hk⟩
    · intro x hx e
      have := (places_small x).1 hx
      simp only [calSlots, List.mem_range, calKey] at hb hk e
      exact Prod.ext (by simp only []; omega) (by simp only []; omega)
  have v : validRec made 4 b k 0 = some (factoryRec (b, k)) := by
    unfold validRec
    rw [f, Option.filter_some, if_pos]
    rw [factory_check]
    exact beq_self_eq_true _
  unfold newestRec
  rw [v]
  split <;> simp_all
  split <;> rfl

theorem made_key : anyBusy made = false ∧ lcState made = 0 ∧ keyProgrammed made 0 = true := (by decide +kernel)

theorem made_allowed : transCheck made 4 1 = 0 := by
  unfold transCheck
  simp [made_whole, made_key.1, made_key.2.1, made_key.2.2]


theorem met_FusesAndTransitions_16 (h : Obligations.FusesAndTransitions) :
    type_of% (((h.2.2.2.2.1 made 4 1).1 made_allowed).2.2.2.2 made_key.2.1 rfl) :=
  ((h.2.2.2.2.1 made 4 1).1 made_allowed).2.2.2.2 made_key.2.1 rfl

theorem met_FusesAndTransitions_17 (h : Obligations.FusesAndTransitions) :
    type_of% ((h.2.2.2.2.1 (fz 0) 4 4).2.1 (by decide +kernel) (by decide +kernel) (by decide +kernel)) :=
  (h.2.2.2.2.1 (fz 0) 4 4).2.1 (by decide +kernel) (by decide +kernel) (by decide +kernel)

theorem met_FusesAndTransitions_18 (h : Obligations.FusesAndTransitions) :
    type_of% ((h.2.2.2.2.1 (fz 1) 0 2).2.2.1 (by decide +kernel) (by decide +kernel) (by decide +kernel) (by decide +kernel)) :=
  (h.2.2.2.2.1 (fz 1) 0 2).2.2.1 (by decide +kernel) (by decide +kernel) (by decide +kernel) (by decide +kernel)

theorem met_FusesAndTransitions_19 (h : Obligations.FusesAndTransitions) :
    type_of% ((h.2.2.2.2.1 (fz 2) 4 3).2.2.2.1 (by decide +kernel) (by decide +kernel) (by decide +kernel) (by decide +kernel) (by decide +kernel)) :=
  (h.2.2.2.2.1 (fz 2) 4 3).2.2.2.1 (by decide +kernel) (by decide +kernel) (by decide +kernel) (by decide +kernel) (by decide +kernel)

theorem met_FusesAndTransitions_20 (h : Obligations.FusesAndTransitions) :
    type_of% ((h.2.2.2.2.1 (fz 3 R [(32, 8)]) 5 1).2.2.2.2.1 (by decide +kernel) (by decide +kernel) (by decide +kernel) (by decide +kernel) (by decide +kernel)) :=
  (h.2.2.2.2.1 (fz 3 R [(32, 8)]) 5 1).2.2.2.2.1 (by decide +kernel) (by decide +kernel) (by decide +kernel) (by decide +kernel) (by decide +kernel)

theorem met_FusesAndTransitions_21 (h : Obligations.FusesAndTransitions) :
    type_of% ((h.2.2.2.2.1 made 4 1).2.2.2.2.2 made_key.1 made_key.2.1 rfl (.inl rfl) made_key.2.2 made_whole) :=
  (h.2.2.2.2.1 made 4 1).2.2.2.2.2 made_key.1 made_key.2.1 rfl (.inl rfl) made_key.2.2 made_whole

theorem met_FusesAndTransitions_22 (h : Obligations.FusesAndTransitions) :
    type_of% ((h.2.2.2.2.2.2.1 (td 3 5) 3 5 2 (by decide +kernel) (by decide +kernel) (by decide +kernel) (by decide +kernel)).1 (by decide +kernel) (by decide +kernel) (by decide +kernel) (by decide +kernel)) :=
  (h.2.2.2.2.2.2.1 (td 3 5) 3 5 2 (by decide +kernel) (by decide +kernel) (by decide +kernel) (by decide +kernel)).1 (by decide +kernel) (by decide +kernel) (by decide +kernel) (by decide +kernel)

theorem met_FusesAndTransitions_23 (h : Obligations.FusesAndTransitions) :
    type_of% (h.2.2.2.2.2.2.2 er (by decide +kernel) (by decide +kernel)) :=
  h.2.2.2.2.2.2.2 er (by decide +kernel) (by decide +kernel)

noncomputable def keyed : State := post (fz 2 R [((12 + 2) * 32, 7)]) (.attest 4 2)

theorem met_AttestationAndTestAccess_5 (h : Obligations.AttestationAndTestAccess) :
    type_of% ((h.2.1 keyed 2 (by decide +kernel) (by decide +kernel) (by decide +kernel)).1 0 (by decide +kernel)) :=
  (h.2.1 keyed 2 (by decide +kernel) (by decide +kernel) (by decide +kernel)).1 0 (by decide +kernel)

theorem met_AttestationAndTestAccess_6 (h : Obligations.AttestationAndTestAccess) :
    type_of% ((h.2.2.2.1 (post R .extest) .bypass 0xFF (by simp)).2 (by decide +kernel) (by decide +kernel) (by decide +kernel) (by decide +kernel) (by decide +kernel)) :=
  (h.2.2.2.1 (post R .extest) .bypass 0xFF (by simp)).2 (by decide +kernel) (by decide +kernel) (by decide +kernel) (by decide +kernel) (by decide +kernel)

theorem met_AttestationAndTestAccess_7 (h : Obligations.AttestationAndTestAccess) :
    type_of% (h.2.2.2.2 (post (fz 0) .debug) (by decide +kernel)) :=
  h.2.2.2.2 (post (fz 0) .debug) (by decide +kernel)

theorem met_SpareProposals_11 (h : Obligations.SpareProposals) :
    type_of% ((h.2.2 (ap 5 0 (site1 3)) 5 0 ⟨3, 5, 0, 4, true⟩ (by decide +kernel) (by decide +kernel) (by decide +kernel)).2.2.2 (by decide +kernel) (by decide +kernel)) :=
  (h.2.2 (ap 5 0 (site1 3)) 5 0 ⟨3, 5, 0, 4, true⟩ (by decide +kernel) (by decide +kernel) (by decide +kernel)).2.2.2 (by decide +kernel) (by decide +kernel)

end Ch20

/-! The operands of a command: well-formed ones, and for each check of `Instr.wf` a command that it refuses. -/

namespace Operands

theorem test_wf_accepts_1 : ∀ c ∈ ([
    .refLoss 0 ⟨0, 0, 0⟩, .sourceQualified 0, .refSelectWrite 0 0 ⟨0, 0, 0⟩, .timeBaseTick 0, .incGo 0 0 1, .adjGo 0 0 2, .setGo 0 0 4,
    .timeCommandApply 0, .timeSnapshotRead 0 (.base 0), .driftUpdate 0, .headgateOpen 0 false, .tpArmOnce 0 0 false false,
    .tpArmPeriodic 0 0 false false, .tpDisarm 0 0 false false, .tpOwnerWrite 0 0, .tpFired 0, .tpWidthEnd 0, .linkEnable 0 0 0 false,
    .linkDisable 0 0 0 false, .blockLock 0, .noPartner 0, .adaptRestart 0, .lockLoss 0, .hiBer 0, .hiBerClear 0, .txeqWrite 0 0 0, .adaptFreeze 0 0,
    .adaptResume 0 0, .rxPreset 0 0 false, .prbsGenEn 0 0 0, .prbsChkEn 0 0 0, .injOne 0 0 4, .injRate 0 0 0, .prbsErrRead 0 0 0,
    .frameReceive 0 ⟨64, true, false, 0x88F7, 0, 0, 2, 0⟩, .sync 0 ⟨0, false, 0, 0, 0, 0⟩, .followUp 0 ⟨0, false, 0, 0, 0, 0⟩,
    .delayReq 0 ⟨0, false, 0, 0, 0, 0⟩, .delayResp 0 ⟨0, false, 0, 0, 0, 0⟩, .pdelayReq 0 ⟨0, false, 0, 0, 0, 0⟩ 0,
    .pdelayResp 0 ⟨0, false, 0, 0, 0, 0⟩, .pdelayRespFollowUp 0 ⟨0, false, 0, 0, 0, 0⟩, .announce 0 ⟨0, 0, 0, 0, 0, false⟩ 0, .syncTransmit 0 0,
    .announceTransmit 0, .delayReqTransmit 0 0, .pdelayReqTransmit 0 0, .tlkMapWrite 0 0, .siteDefine 0, .siteDelete 0, .palLoad 0, .run 0,
    .runDeferredStart 0, .halt 0, .clear 0, .status 0, .mailboxDoorbell 0 0, .mbxRspConsWrite 0 0, .jumpRequest 0 0 0 0, .triginEdge 0] : List Instr), c.wf = true := by decide +kernel

theorem test_wf_accepts_2 : ∀ c ∈ ([
    .entryFetch 0 none, .resumePositionArrival 0, .siteStepBroadcast 0, .vectorPeriod false 0, .stopAtBoundary 0, .furrowClear 0, .nop 0, .vec 0,
    .vecLoad 0, .veci 0, .rpt 0, .fill 0, .pal 0, .stream 0, .ringDataResume 0, .scan 0, .loop 0, .endl 0, .call 0, .ret 0, .jmp 0, .seg 0, .alt 0,
    .mark 0, .match 0, .waitt 0, .trig 0, .label 0, .flag 0, .haltInstruction 0, .firmwareSubmission 0, .descCtrlWrite 0 0 0, .descProdWrite 0 0 0,
    .descriptorFetch 0 0 0, .descCplConsWrite 0 0 0, .caravanCommit 0, .machineCheck 0 1, .machineCheck 0 5, .mcHang 0, .csRewriteDone 0, .poolCountRead 0,
    .disShareWrite 0 0, .sluiceGrant 0, .pointerQueueTransfer 0 false, .matchDecision 0, .dwellEnd 0, .modeChange 0 0 0, .modeChangeEnd 0,
    .tsLoad 0 0 0, .tsRead 0 0 0, .tsDone 0, .followWrite 0 0 0, .followedEdge 0, .followHold 0, .pinTxeqWrite 0 0 0 0, .pecTxPush 0 0 0,
    .pecTransferStart 0, .pecTransferEnd 0 0, .pecRxPop 0 0, .pecCfgWrite 0 0 0, .bnkSpareWrite 0 0 0] : List Instr), c.wf = true := by decide +kernel

theorem test_wf_accepts_3 : ∀ c ∈ ([
    .spareSubstitution 1 0, .strobeJudge 0 0 none, .siteFailDelivery 0, .ledgerDrain 0 0, .ledgerWriteAck 0, .ledgerCtrlWrite 0 0 0,
    .ledgerRcntWrite 0 0 0, .ledRateWrite 0 0 0, .pinFcntWrite 0 0 0, .acqArm 0 0 0, .acqDisarm 0 0 0, .acqForce 0 0 0, .acqAutoTrigger 0,
    .acqWriterDrain 0 0, .recordDone 0, .acqRearmEnd 0, .acqRcntWrite 0 0 0, .maskWrite 0 0 0 0 0, .maskViolation 0 0 0, .trigoutOwnerWrite 0 0,
    .trigoutWidthEnd 0, .converterEdge 0 0 false false false false, .stampCreditRefill 0, .eraMarker 0 0, .stampRingWrite 0, .stampRingCtrlWrite 0 0 0,
    .stampRingRcntWrite 0 0 0, .edgPinCfgWrite 0 0 0, .fcDone 0, .fcNRead 0 0, .edgLostRead 0 0, .edgSpareWrite 0 0 0, .auAssignWrite 0 0 0,
    .auClearDone 0, .auGo 0 0 0, .auHalt 0 0 0, .auReset 0 0 0, .auDoorbell 0 0 0, .auInterrupt 0, .auDataWindowRead 0 0 0 false,
    .auNop 0 ⟨false, none⟩, .cmac 0 ⟨false, none⟩, .cmacx 0 ⟨false, none⟩, .rnd 0 ⟨false, none⟩, .mva 0 ⟨false, none⟩, .ld 0 ⟨false, none⟩,
    .st 0 ⟨false, none⟩, .ldi 0 ⟨false, none⟩, .alu 0 ⟨false, none⟩, .addi 0 ⟨false, none⟩, .lda 0 ⟨false, none⟩, .tapd 0 ⟨false, none⟩ 0,
    .br 0 ⟨false, none⟩, .auCall 0 ⟨false, none⟩, .auRet 0 ⟨false, none⟩, .reti 0 ⟨false, none⟩, .auRpt 0 ⟨false, none⟩, .rptr 0 ⟨false, none⟩,
    .rptb 0 ⟨false, none⟩, .wait 0 ⟨false, none⟩ 0] : List Instr), c.wf = true := by decide +kernel

theorem test_wf_accepts_4 : ∀ c ∈ ([
    .auHaltInstruction 0 ⟨false, none⟩, .sig 0 ⟨false, none⟩, .clrf 0 ⟨false, none⟩, .auSpareWrite 0 0, .calRequest 0 none 0, .calCancel 0 0,
    .calAutoRequest 0, .calRunDone 0 ⟨[], [], [], none, 0⟩, .calAbort 0, .calRecordWrite 0 false, .memoryRequest 0 none 0 1 none 0 0,
    .memoryReadDone 0 0 [] 0, .memoryWriteAck 0 0 [] 0, .refreshTick 0, .refreshUnit 0, .speedTargetWrite 0 0, .scrubRead [], .retirementStart 0,
    .retirementDone 0 none, .retirementDone 1 (some 9), .mapLookup 0 0, .mapLookupDone 0, .quotaWrite 0 0, .clearDone 0, .bar2Write 0 0 [] false, .bar2Read 0 0 1 [], .bar2Resize 0 28,
    .hifPWinWrite 0 0 0, .bankOwnerChange 0 false 0, .bankMoveDone 0, .ringCtrlWrite 0 0 0, .ringWrWrite 0 0 0, .ringFetchPush 0 0 0,
    .ringFetchStart 0 0, .ringFetchDone 0 0 [], .dmaErr 0 false 0, .msixUnmask 0 0, .intRawClear 0 0 0, .intSetWrite 0 0 0, .partitionReset 0 0,
    .partitionResetDone 0, .pcieLinkTrainingStart ⟨0, false⟩, .registerWrite 0 0 4 15 0 ⟨0, 0, 0⟩, .complementPairOpen 0 0 0, .cplPairTimeout 0 0,
    .lowWordWrite 0 0 0, .highWordWrite 0 0 0, .lowWordRead 0 0 4, .lockWrite 0 0 0, .parityScan 0 [], .functionEnable 0 0, .functionDisable 0 0,
    .shutdownDone 0, .startupDone 0, .graceExpiry 0 0, .blockResetDone 0, .faultClear 0 0 0, .evlogIdxWrite 0 0, .evlogMark 0 0, .junctionOvertemp 125,
    .overcurrent 0] : List Instr), c.wf = true := by decide +kernel

theorem test_wf_accepts_5 : ∀ c ∈ ([
    .vinLow 0, .tjHot 106, .pwrIlimWrite 0 0, .sleepVote 0 0 0, .l1ExitRequest 0, .updateWrite 0 0, .updatePend 0 0, .updateUnpend 0 0,
    .recoverRequest 0 0, .fuseSelect 0 0, .fuseProgram 0 0, .fuseDone 0, .lifeCycleTransition 0 0, .attest 0 0, .proposal 1 0 ⟨1, [], []⟩, .proposalApprove 0 0,
    .proposalReject 0 0, .ptbUnlock 0 0, .ptbLock 0 0, .ptbSlotWrite 0 0 0 0, .ptbInjection 0, .chkLock 0, .chkLockLoss 0 0, .dataLinkUp 0 1 1,
    .transDone 0 0, .vinOk 2700, .currentBelowLimit 0, .tjBelowLimit 0, .recCommandDone true ⟨true, [0], true, [], [], [], 0, [], [], []⟩,
    .romBoot ⟨true, 0, 0, ⟨true, [0], true, [], [], [], 0, [], [], []⟩, ⟨true, [0], true, [], [], [], 0, [], [], []⟩⟩] : List Instr), c.wf = true := by decide +kernel

theorem test_wf_refuses_1 : ∀ c ∈ ([
    .refLoss 3 ⟨0, 0, 0⟩, .sourceQualified 3, .refSelectWrite 6 0 ⟨0, 0, 0⟩, .refSelectWrite 0 (2 ^ 32) ⟨0, 0, 0⟩, .timeBaseTick 5, .incGo 6 0 1,
    .incGo 0 5 1, .incGo 0 0 0, .incGo 0 0 8, .adjGo 6 0 2, .adjGo 0 5 2, .adjGo 0 0 0, .adjGo 0 0 8, .setGo 6 0 4, .setGo 0 5 4, .setGo 0 0 0,
    .setGo 0 0 8, .timeCommandApply 5, .timeSnapshotRead 6 (.base 0), .driftUpdate 64, .headgateOpen 64 false, .tpArmOnce 6 0 false false,
    .tpArmOnce 0 4 false false, .tpArmPeriodic 6 0 false false, .tpArmPeriodic 0 4 false false, .tpDisarm 6 0 false false, .tpDisarm 0 4 false false,
    .tpOwnerWrite 6 0, .tpOwnerWrite 0 256, .tpFired 4, .tpWidthEnd 4, .linkEnable 6 0 0 false, .linkEnable 0 2 0 false, .linkEnable 0 0 4 false,
    .linkDisable 6 0 0 false, .linkDisable 0 2 0 false, .linkDisable 0 0 4 false, .blockLock 3, .noPartner 2, .adaptRestart 2, .lockLoss 3, .hiBer 3,
    .hiBerClear 3, .txeqWrite 6 0 0, .txeqWrite 0 3 0, .txeqWrite 0 0 (2 ^ 32), .adaptFreeze 3 0, .adaptFreeze 0 101, .adaptResume 3 0,
    .adaptResume 0 101, .rxPreset 6 0 false, .rxPreset 0 3 false, .prbsGenEn 6 0 0, .prbsGenEn 0 3 0, .prbsGenEn 0 0 (2 ^ 14), .prbsChkEn 6 0 0,
    .prbsChkEn 0 3 0, .prbsChkEn 0 0 (2 ^ 14), .injOne 6 0 4, .injOne 0 3 4] : List Instr), c.wf = false := by decide +kernel

theorem test_wf_refuses_2 : ∀ c ∈ ([
    .injOne 0 0 (2 ^ 14), .injOne 0 0 0, .injRate 6 0 0, .injRate 0 3 0, .injRate 0 0 (2 ^ 14), .prbsErrRead 6 0 0, .prbsErrRead 0 3 0,
    .frameReceive 2 ⟨64, true, false, 0x88F7, 0, 0, 2, 0⟩, .sync 2 ⟨0, false, 0, 0, 0, 0⟩, .sync 0 ⟨2 ^ 16, false, 0, 0, 0, 0⟩,
    .followUp 2 ⟨0, false, 0, 0, 0, 0⟩, .followUp 0 ⟨2 ^ 16, false, 0, 0, 0, 0⟩, .delayReq 2 ⟨0, false, 0, 0, 0, 0⟩,
    .delayReq 0 ⟨2 ^ 16, false, 0, 0, 0, 0⟩, .delayResp 2 ⟨0, false, 0, 0, 0, 0⟩, .delayResp 0 ⟨2 ^ 16, false, 0, 0, 0, 0⟩,
    .pdelayReq 2 ⟨0, false, 0, 0, 0, 0⟩ 0, .pdelayReq 0 ⟨2 ^ 16, false, 0, 0, 0, 0⟩ 0, .pdelayResp 2 ⟨0, false, 0, 0, 0, 0⟩,
    .pdelayResp 0 ⟨2 ^ 16, false, 0, 0, 0, 0⟩, .pdelayRespFollowUp 2 ⟨0, false, 0, 0, 0, 0⟩, .pdelayRespFollowUp 0 ⟨2 ^ 16, false, 0, 0, 0, 0⟩,
    .announce 2 ⟨0, 0, 0, 0, 0, false⟩ 0, .announce 0 ⟨0, 0, 0, 0, 0, false⟩ (2 ^ 16), .syncTransmit 2 0, .announceTransmit 2, .delayReqTransmit 2 0,
    .pdelayReqTransmit 2 0, .tlkMapWrite 6 0, .tlkMapWrite 0 (2 ^ 32), .siteDefine 4, .siteDelete 4, .palLoad 4, .run 4, .runDeferredStart 64, .halt 4,
    .clear 4, .status 4, .mailboxDoorbell 4 0, .mailboxDoorbell 0 (2 ^ 32), .mbxRspConsWrite 4 0, .mbxRspConsWrite 0 (2 ^ 32), .jumpRequest 6 0 0 0,
    .jumpRequest 0 4 0 0, .jumpRequest 0 0 64 0, .jumpRequest 0 0 0 (2 ^ 32), .triginEdge 4, .entryFetch 64 none, .entryFetch 0 (some 64),
    .resumePositionArrival 64, .siteStepBroadcast 64, .vectorPeriod false 64, .stopAtBoundary 64, .furrowClear 64, .nop 68, .vec 68, .vecLoad 68,
    .veci 68, .rpt 68, .fill 68] : List Instr), c.wf = false := by decide +kernel

theorem test_wf_refuses_3 : ∀ c ∈ ([
    .pal 68, .stream 68, .ringDataResume 68, .scan 68, .loop 68, .endl 68, .call 68, .ret 68, .jmp 68, .seg 68, .alt 68, .mark 68, .match 68, .waitt 68,
    .trig 68, .label 68, .flag 68, .haltInstruction 68, .firmwareSubmission (2 ^ 256), .descCtrlWrite 4 0 0, .descCtrlWrite 0 4 0,
    .descCtrlWrite 0 0 (2 ^ 32), .descProdWrite 4 0 0, .descProdWrite 0 4 0, .descProdWrite 0 0 (2 ^ 32), .descriptorFetch 4 0 0,
    .descriptorFetch 0 4 0, .descriptorFetch 0 0 (2 ^ 256), .descCplConsWrite 4 0 0, .descCplConsWrite 0 4 0, .descCplConsWrite 0 0 (2 ^ 32),
    .caravanCommit 68, .machineCheck 68 1, .machineCheck 0 0, .machineCheck 0 6, .mcHang 68, .csRewriteDone 4, .poolCountRead 6, .disShareWrite 6 0,
    .disShareWrite 0 (2 ^ 32), .sluiceGrant 16, .pointerQueueTransfer 64 false, .matchDecision 64, .dwellEnd 64, .modeChange 6 0 0, .modeChange 0 16 0,
    .modeChange 0 0 2, .modeChangeEnd 16, .tsLoad 6 0 0, .tsLoad 0 16 0, .tsLoad 0 0 (2 ^ 32), .tsRead 6 0 0, .tsRead 0 16 0, .tsRead 0 0 (2 ^ 32),
    .tsDone 16, .followWrite 6 0 0, .followWrite 0 16 0, .followWrite 0 0 (2 ^ 32), .followedEdge 16, .followHold 16] : List Instr), c.wf = false := by decide +kernel

theorem test_wf_refuses_4 : ∀ c ∈ ([
    .pinTxeqWrite 6 0 0 0, .pinTxeqWrite 0 16 0 0, .pinTxeqWrite 0 0 16 0, .pinTxeqWrite 0 0 0 (2 ^ 32), .pecTxPush 6 0 0, .pecTxPush 0 16 0,
    .pecTxPush 0 0 (2 ^ 32), .pecTransferStart 8, .pecTransferEnd 8 0, .pecTransferEnd 0 (2 ^ 64), .pecRxPop 6 0, .pecRxPop 0 16, .pecCfgWrite 6 0 0,
    .pecCfgWrite 0 16 0, .pecCfgWrite 0 0 (2 ^ 32), .bnkSpareWrite 6 0 0, .bnkSpareWrite 0 16 0, .bnkSpareWrite 0 0 (2 ^ 32), .spareSubstitution 0 0,
    .spareSubstitution 10 0, .spareSubstitution 1 (2 ^ 26), .strobeJudge 256 0 none, .strobeJudge 0 4 none, .strobeJudge 0 0 (some 4),
    .siteFailDelivery 64, .ledgerDrain 4 0, .ledgerWriteAck 4, .ledgerCtrlWrite 6 0 0, .ledgerCtrlWrite 0 4 0, .ledgerCtrlWrite 0 0 (2 ^ 32),
    .ledgerRcntWrite 6 0 0, .ledgerRcntWrite 0 4 0, .ledgerRcntWrite 0 0 (2 ^ 64), .ledRateWrite 6 0 0, .ledRateWrite 0 4 0, .ledRateWrite 0 0 (2 ^ 32),
    .pinFcntWrite 6 0 0, .pinFcntWrite 0 256 0, .pinFcntWrite 0 0 (2 ^ 32), .acqArm 6 0 0, .acqArm 0 16 0, .acqArm 0 0 (2 ^ 32), .acqDisarm 6 0 0,
    .acqDisarm 0 16 0, .acqDisarm 0 0 (2 ^ 32), .acqForce 6 0 0, .acqForce 0 16 0, .acqForce 0 0 (2 ^ 32), .acqAutoTrigger 16, .acqWriterDrain 16 0,
    .acqWriterDrain 0 131073, .recordDone 16, .acqRearmEnd 16, .acqRcntWrite 6 0 0, .acqRcntWrite 0 16 0, .acqRcntWrite 0 0 (2 ^ 32),
    .maskWrite 6 0 0 0 0, .maskWrite 0 16 0 0 0, .maskWrite 0 0 16 0 0, .maskWrite 0 0 0 3 0] : List Instr), c.wf = false := by decide +kernel

theorem test_wf_refuses_5 : ∀ c ∈ ([
    .maskWrite 0 0 0 0 (2 ^ 32), .maskViolation 16 0 0, .maskViolation 0 16 0, .maskViolation 0 0 (2 ^ 64), .trigoutOwnerWrite 6 0,
    .trigoutOwnerWrite 0 (2 ^ 32), .trigoutWidthEnd 4, .converterEdge 256 0 false false false false, .stampCreditRefill 256, .eraMarker 16 0, .eraMarker 0 64,
    .stampRingWrite 16, .stampRingCtrlWrite 6 0 0, .stampRingCtrlWrite 0 16 0, .stampRingCtrlWrite 0 0 (2 ^ 32), .stampRingRcntWrite 6 0 0,
    .stampRingRcntWrite 0 16 0, .stampRingRcntWrite 0 0 (2 ^ 64), .edgPinCfgWrite 6 0 0, .edgPinCfgWrite 0 256 0, .edgPinCfgWrite 0 0 (2 ^ 32),
    .fcDone 256, .fcNRead 6 0, .fcNRead 0 256, .edgLostRead 6 0, .edgLostRead 0 256, .edgSpareWrite 6 0 0, .edgSpareWrite 0 16 0,
    .edgSpareWrite 0 0 (2 ^ 32), .auAssignWrite 6 0 0, .auAssignWrite 0 19 0, .auAssignWrite 0 0 (2 ^ 32), .auClearDone 19, .auGo 6 0 0, .auGo 0 19 0,
    .auGo 0 0 (2 ^ 32), .auHalt 6 0 0, .auHalt 0 19 0, .auHalt 0 0 (2 ^ 32), .auReset 6 0 0, .auReset 0 19 0, .auReset 0 0 (2 ^ 32), .auDoorbell 6 0 0,
    .auDoorbell 0 19 0, .auDoorbell 0 0 (2 ^ 32), .auInterrupt 19, .auDataWindowRead 6 0 0 false, .auDataWindowRead 0 19 0 false,
    .auDataWindowRead 0 0 8192 false, .auNop 19 ⟨false, none⟩, .cmac 19 ⟨false, none⟩, .cmacx 19 ⟨false, none⟩, .rnd 19 ⟨false, none⟩,
    .mva 19 ⟨false, none⟩, .ld 19 ⟨false, none⟩, .st 19 ⟨false, none⟩, .ldi 19 ⟨false, none⟩, .alu 19 ⟨false, none⟩, .addi 19 ⟨false, none⟩,
    .lda 19 ⟨false, none⟩] : List Instr), c.wf = false := by decide +kernel

theorem test_wf_refuses_6 : ∀ c ∈ ([
    .tapd 19 ⟨false, none⟩ 0, .br 19 ⟨false, none⟩, .auCall 19 ⟨false, none⟩, .auRet 19 ⟨false, none⟩, .reti 19 ⟨false, none⟩, .auRpt 19 ⟨false, none⟩,
    .rptr 19 ⟨false, none⟩, .rptb 19 ⟨false, none⟩, .wait 19 ⟨false, none⟩ 0, .auHaltInstruction 19 ⟨false, none⟩, .sig 19 ⟨false, none⟩,
    .clrf 19 ⟨false, none⟩, .auSpareWrite 6 0, .auSpareWrite 0 (2 ^ 32), .calRequest 6 none 0, .calRequest 0 (some 4) 0, .calRequest 0 none (2 ^ 32),
    .calCancel 6 0, .calCancel 0 (2 ^ 32), .calAutoRequest 16, .calRunDone 16 ⟨[], [], [], none, 0⟩, .calAbort 16, .calRecordWrite 16 false,
    .memoryRequest 113 none 0 1 none 0 0, .memoryRequest 0 (some 4) 0 1 none 0 0, .memoryRequest 0 none (36 * 2 ^ 30) 1 none 0 0,
    .memoryRequest 0 none 0 0 none 0 0, .memoryRequest 0 none 63 2 none 0 0, .memoryRequest 0 none 0 1 (some []) 0 0,
    .memoryRequest 0 none 0 1 (some [256]) 0 0, .memoryRequest 0 none 0 1 none 0 3, .memoryReadDone 16 0 [] 0, .memoryReadDone 0 0 [72] 0,
    .memoryReadDone 0 0 [] 3, .memoryWriteAck 16 0 [] 0, .memoryWriteAck 0 0 [72] 0, .memoryWriteAck 0 0 [] 3, .refreshTick 16, .refreshUnit 16,
    .speedTargetWrite 6 0, .speedTargetWrite 0 (2 ^ 32), .scrubRead [72], .retirementStart (2 ^ 25), .retirementDone (2 ^ 16) none, .retirementDone 0 (some (2 ^ 32)), .mapLookup 6 0,
    .mapLookup 0 (2 ^ 32), .mapLookupDone 3, .quotaWrite 6 0, .quotaWrite 0 (2 ^ 32), .clearDone 4, .bar2Write 4 0 [] false,
    .bar2Write 0 (2 ^ 35) [] false, .bar2Write 0 0 [256] false, .bar2Write 0 0 (List.replicate 513 0) false, .bar2Read 4 0 1 [],
    .bar2Read 0 (2 ^ 35) 1 [], .bar2Read 0 0 0 [], .bar2Read 0 0 4097 [], .bar2Resize 4 28, .bar2Resize 0 (27)] : List Instr), c.wf = false := by decide +kernel

theorem test_wf_refuses_7 : ∀ c ∈ ([
    .bar2Resize 0 36, .hifPWinWrite 6 0 0, .hifPWinWrite 0 4 0, .hifPWinWrite 0 0 (2 ^ 32), .bankOwnerChange 6 false 0,
    .bankOwnerChange 0 false (2 ^ 32), .bankMoveDone 16, .ringCtrlWrite 4 0 0, .ringCtrlWrite 0 16 0, .ringCtrlWrite 0 0 (2 ^ 32), .ringWrWrite 4 0 0,
    .ringWrWrite 0 16 0, .ringWrWrite 0 0 (2 ^ 64), .ringFetchPush 4 0 0, .ringFetchPush 0 16 0, .ringFetchPush 0 0 (2 ^ 23), .ringFetchStart 4 0,
    .ringFetchStart 0 16, .ringFetchDone 4 0 [], .ringFetchDone 0 16 [], .ringFetchDone 0 0 [256], .dmaErr 4 false 0, .dmaErr 0 false 16,
    .msixUnmask 4 0, .msixUnmask 0 256, .intRawClear 6 0 0, .intRawClear 0 (2 ^ 24) 0, .intRawClear 0 0 (2 ^ 32), .intSetWrite 6 0 0,
    .intSetWrite 0 (2 ^ 24) 0, .intSetWrite 0 0 (2 ^ 32), .partitionReset 4 0, .partitionReset 0 3, .partitionResetDone 4, .pcieLinkTrainingStart ⟨4, true⟩,
    .registerWrite 6 0 4 15 0 ⟨0, 0, 0⟩, .registerWrite 0 (2 ^ 31) 4 15 0 ⟨0, 0, 0⟩, .registerWrite 0 0 0 0 0 ⟨0, 0, 0⟩, .registerWrite 0 0 513 0 0 ⟨0, 0, 0⟩,
    .registerWrite 0 0 4 16 0 ⟨0, 0, 0⟩, .registerWrite 0 0 4 15 (2 ^ 32) ⟨0, 0, 0⟩, .complementPairOpen 6 0 0,
    .complementPairOpen 0 (2 ^ 31) 0, .complementPairOpen 0 0 (2 ^ 32), .cplPairTimeout 6 0, .cplPairTimeout 0 (2 ^ 31), .lowWordWrite 6 0 0,
    .lowWordWrite 0 (2 ^ 31) 0, .lowWordWrite 0 0 (2 ^ 32), .highWordWrite 6 0 0, .highWordWrite 0 (2 ^ 31) 0, .highWordWrite 0 0 (2 ^ 32),
    .lowWordRead 6 0 4, .lowWordRead 0 (2 ^ 31) 4, .lowWordRead 0 0 0, .lowWordRead 0 0 4097, .lockWrite 6 0 0, .lockWrite 0 (2 ^ 24) 0, .lockWrite 0 0 (2 ^ 32), .parityScan (2 ^ 24) [],
    .functionEnable 6 0, .functionEnable 0 (2 ^ 24), .functionDisable 6 0, .functionDisable 0 (2 ^ 24), .shutdownDone 30] : List Instr), c.wf = false := by decide +kernel

theorem test_wf_refuses_8 : ∀ c ∈ ([
    .startupDone 30, .graceExpiry (2 ^ 24) 0, .graceExpiry 0 32, .blockResetDone (2 ^ 24), .faultClear 6 0 0, .faultClear 0 (2 ^ 24) 0,
    .faultClear 0 0 (2 ^ 32), .evlogIdxWrite 6 0, .evlogIdxWrite 0 (2 ^ 32), .evlogMark 6 0, .evlogMark 0 (2 ^ 32), .junctionOvertemp (124),
    .junctionOvertemp 128, .overcurrent (2 ^ 16), .vinLow 2700, .tjHot 105, .tjHot 128, .pwrIlimWrite 6 0, .pwrIlimWrite 0 (2 ^ 32), .sleepVote 6 0 0,
    .sleepVote 0 4 0, .sleepVote 0 0 (2 ^ 32), .l1ExitRequest 4, .updateWrite 6 0, .updateWrite 0 (2 ^ 32), .updatePend 6 0, .updatePend 0 (2 ^ 32),
    .updateUnpend 6 0, .updateUnpend 0 (2 ^ 32), .recoverRequest 6 0, .recoverRequest 0 (2 ^ 32), .fuseSelect 6 0, .fuseSelect 0 (2 ^ 32),
    .fuseProgram 6 0, .fuseProgram 0 (2 ^ 32), .fuseDone (2 ^ 32), .lifeCycleTransition 6 0, .lifeCycleTransition 0 (2 ^ 32), .attest 6 0,
    .attest 0 (2 ^ 32), .proposal 0 0 ⟨1, [], []⟩, .proposal 10 0 ⟨1, [], []⟩, .proposal 1 (2 ^ 26) ⟨1, [], []⟩, .proposal 1 0 ⟨0, [], []⟩, .proposal 1 0 ⟨5, [], []⟩, .proposalApprove 6 0,
    .proposalApprove 0 (2 ^ 32), .proposalReject 6 0, .proposalReject 0 (2 ^ 32), .ptbUnlock 6 0, .ptbUnlock 0 (2 ^ 32), .ptbLock 6 0,
    .ptbLock 0 (2 ^ 32), .ptbSlotWrite 6 0 0 0, .ptbSlotWrite 0 16 0 0, .ptbSlotWrite 0 0 4 0, .ptbSlotWrite 0 0 0 (2 ^ 32), .ptbInjection 16,
    .chkLock 3, .chkLockLoss 3 0] : List Instr), c.wf = false := by decide +kernel

theorem test_wf_refuses_9 : ∀ c ∈ ([
    .dataLinkUp 4 0 0, .dataLinkUp 0 8 0, .dataLinkUp 0 0 16, .transDone (2 ^ 16) 0, .transDone 0 (2 ^ 16), .vinOk (2699), .vinOk (2 ^ 16),
    .currentBelowLimit (2 ^ 16), .tjBelowLimit (-129), .tjBelowLimit 106,
    .recCommandDone true ⟨true, [256], true, [], [], [], 0, [], [], []⟩, .recCommandDone true ⟨true, [0], true, [], [], [], 0, [], [], [⟨4, 1, 1⟩]⟩,
    .romBoot ⟨true, 0, 0, ⟨true, [0], true, [], [], [256], 0, [], [], []⟩, ⟨true, [0], true, [], [], [], 0, [], [], []⟩⟩,
    .romBoot ⟨true, 0, 0, ⟨true, [0], true, [], [], [], 0, [], [], []⟩, ⟨true, [0], true, [], [], [], 0, [2 ^ 32], [], []⟩⟩] : List Instr), c.wf = false := by decide +kernel

theorem test_no_word_spells_a_command : decodeTableWord 64 0x0123456789ABCDEF = none := rfl

end Operands

/-! Every command. -/

namespace All

theorem reset_inv : Sys2Proof.Machine.Inv State.reset := by
  unfold Sys2Proof.Machine.Inv
  decide +kernel

noncomputable def queued : State := { State.reset with pending := [.refreshTick 3, .wake] }

noncomputable def ticked : State := post { State.reset with pending := [.wake] } (.refreshTick 3)

theorem met_StepRunsFront_1 (h : Obligations.StepRunsFront) :
    type_of% (h.1 queued (.refreshTick 3) [.wake] rfl) :=
  h.1 queued (.refreshTick 3) [.wake] rfl

theorem met_StepRunsFront_2 (h : Obligations.StepRunsFront) :
    type_of% (h.2.1 State.reset rfl rfl) :=
  h.2.1 State.reset rfl rfl

theorem met_StepRunsFront_3 (h : Obligations.StepRunsFront) :
    type_of% (h.2.2.2.2 queued ticked (.refreshTick 3) [.wake] rfl rfl) :=
  h.2.2.2.2 queued ticked (.refreshTick 3) [.wake] rfl rfl

/-- A read of partition 1's host that was held. -/
noncomputable def heldOne : State := { R with bus := { R.bus with held := [(1, .lowWordRead 1 0 4)] } }

theorem met_StepRunsFront_4 (h : Obligations.StepRunsFront) :
    type_of% (h.2.2.1 heldOne _ (.lowWordRead 1 0 4) [] rfl (by decide +kernel) rfl) :=
  h.2.2.1 heldOne _ (.lowWordRead 1 0 4) [] rfl (by decide +kernel) rfl

theorem met_StepRunsFront_5 (h : Obligations.StepRunsFront) :
    type_of% (h.2.2.2.1 State.reset rfl) :=
  h.2.2.2.1 State.reset rfl

theorem queued_inv : Sys2Proof.Machine.Inv queued := by
  unfold Sys2Proof.Machine.Inv
  decide +kernel

theorem met_InvKept_1 (h : Obligations.InvKept) :
    type_of% (h queued ticked queued_inv rfl) :=
  h queued ticked queued_inv rfl

theorem met_FusesOnlyBlow_1 (h : Obligations.FusesOnlyBlow) :
    type_of% (h (.fuseDone 3) Ch20.pg (post Ch20.pg (.fuseDone 3)) rfl 0 0 0 (by decide +kernel)) :=
  h (.fuseDone 3) Ch20.pg (post Ch20.pg (.fuseDone 3)) rfl 0 0 0 (by decide +kernel)

noncomputable def raised : State := withRegs R [(.memDev, F.INT_RAW, 8), (.memDev, F.FLT_CAUSE, 8)]

theorem met_RaisedBitsStay_1 (h : Obligations.RaisedBitsStay) :
    type_of% ((h (.refreshTick 3) raised (post raised (.refreshTick 3)) rfl rfl .memDev 3).1 (by decide +kernel)) :=
  (h (.refreshTick 3) raised (post raised (.refreshTick 3)) rfl rfl .memDev 3).1 (by decide +kernel)

theorem met_RaisedBitsStay_2 (h : Obligations.RaisedBitsStay) :
    type_of% ((h (.refreshTick 3) raised (post raised (.refreshTick 3)) rfl rfl .memDev 3).2 (by decide +kernel)) :=
  (h (.refreshTick 3) raised (post raised (.refreshTick 3)) rfl rfl .memDev 3).2 (by decide +kernel)

theorem met_Frame_1 (h : Obligations.Frame) :
    type_of% ((h (.refreshTick 3) raised (post raised (.refreshTick 3)) [.memc] [] rfl rfl).1 .mem (by decide)) :=
  (h (.refreshTick 3) raised (post raised (.refreshTick 3)) [.memc] [] rfl rfl).1 .mem (by decide)

theorem met_Frame_2 (h : Obligations.Frame) :
    type_of% ((h (.refreshTick 3) raised (post raised (.refreshTick 3)) [.memc] [] rfl rfl).2 .memDev F.INT_RAW (by simp)) :=
  (h (.refreshTick 3) raised (post raised (.refreshTick 3)) [.memc] [] rfl rfl).2 .memDev F.INT_RAW (by simp)

noncomputable def filled : State := acqStore 0 5 0x88 Ch10.acq3

theorem met_MemoryFrames_1 (h : Obligations.MemoryFrames) :
    type_of% ((h filled (post filled (.acqWriterDrain 0 3)) 0 0x100 (by decide +kernel)).1 0 3 (acqOf filled 0) ((acqOf filled 0).record.get (by decide +kernel)) _ _ rfl (Option.some_get _).symm rfl (by decide +kernel) (by decide +kernel) (.inr (.inl (by decide +kernel))) (.inr (.inl (by decide +kernel))) rfl) :=
  (h filled (post filled (.acqWriterDrain 0 3)) 0 0x100 (by decide +kernel)).1 0 3 (acqOf filled 0) ((acqOf filled 0).record.get (by decide +kernel)) _ _ rfl (Option.some_get _).symm rfl (by decide +kernel) (by decide +kernel) (.inr (.inl (by decide +kernel))) (.inr (.inl (by decide +kernel))) rfl

theorem met_MemoryFrames_2 (h : Obligations.MemoryFrames) :
    type_of% ((h Ch10.acq4 (post Ch10.acq4 (.recordDone 0)) 0 0x100 (by decide +kernel)).2.1 0 (acqOf Ch10.acq4 0) rfl (by decide +kernel) (.inr (.inl (by decide +kernel))) rfl) :=
  (h Ch10.acq4 (post Ch10.acq4 (.recordDone 0)) 0 0x100 (by decide +kernel)).2.1 0 (acqOf Ch10.acq4 0) rfl (by decide +kernel) (.inr (.inl (by decide +kernel))) rfl

theorem met_MemoryFrames_3 (h : Obligations.MemoryFrames) :
    type_of% ((h Ch09.led1 (post Ch09.led1 (.ledgerDrain 0 9)) 1 0 (by decide +kernel)).2.2.1 0 9 _ rfl (by decide +kernel) (.inl (by decide +kernel)) rfl) :=
  (h Ch09.led1 (post Ch09.led1 (.ledgerDrain 0 9)) 1 0 (by decide +kernel)).2.2.1 0 9 _ rfl (by decide +kernel) (.inl (by decide +kernel)) rfl

theorem met_MemoryFrames_4 (h : Obligations.MemoryFrames) :
    type_of% ((h Ch11.ringQ (post Ch11.ringQ (.stampRingWrite 0)) 0 0 (by decide +kernel)).2.2.2.1 0 _ rfl (by decide +kernel) (.inr (.inl (by decide +kernel))) rfl) :=
  (h Ch11.ringQ (post Ch11.ringQ (.stampRingWrite 0)) 0 0 (by decide +kernel)).2.2.2.1 0 _ rfl (by decide +kernel) (.inr (.inl (by decide +kernel))) rfl

theorem met_MemoryFrames_5 (h : Obligations.MemoryFrames) :
    type_of% ((h Ch15.rg4 (post Ch15.rg4 (.ringFetchDone 0 5 (List.replicate 64 7))) 1 0 (by decide +kernel)).2.2.2.2.1 0 5 (List.replicate 64 7) (by decide +kernel) (by decide +kernel) (by decide +kernel) (.inl (by decide +kernel)) rfl) :=
  (h Ch15.rg4 (post Ch15.rg4 (.ringFetchDone 0 5 (List.replicate 64 7))) 1 0 (by decide +kernel)).2.2.2.2.1 0 5 (List.replicate 64 7) (by decide +kernel) (by decide +kernel) (by decide +kernel) (.inl (by decide +kernel)) rfl

theorem one_site : Ch07.S7.pat.sites = [(1, siteOf Ch07.S7 1)] := by decide +kernel

theorem no_jump_log (j : Nat) : (siteOf Ch07.S7 j).args.jlogEn = false := by
  show (tabGet siteFree Ch07.S7.pat.sites j).args.jlogEn = false
  rw [one_site]
  by_cases e : j = 1
  · subst e
    decide +kernel
  · simp [tabGet, tabFind, e]
    decide

theorem met_MemoryFrames_6 (h : Obligations.MemoryFrames) :
    type_of% ((h Ch07.S7 (post Ch07.S7 (.entryFetch 1 none)) 0 0 (by decide +kernel)).2.2.2.2.2 1 none false 1 (fun j hj => absurd hj (by simp [no_jump_log j])) (.inl rfl)) :=
  (h Ch07.S7 (post Ch07.S7 (.entryFetch 1 none)) 0 0 (by decide +kernel)).2.2.2.2.2 1 none false 1 (fun j hj => absurd hj (by simp [no_jump_log j])) (.inl rfl)

theorem met_MemoryFrames_7 (h : Obligations.MemoryFrames) :
    type_of% ((h Ch07.S7 (post Ch07.S7 (.vectorPeriod false 1)) 0 0 (by decide +kernel)).2.2.2.2.2 1 none false 1 (fun j hj => absurd hj (by simp [no_jump_log j])) (.inr (.inr rfl))) :=
  (h Ch07.S7 (post Ch07.S7 (.vectorPeriod false 1)) 0 0 (by decide +kernel)).2.2.2.2.2 1 none false 1 (fun j hj => absurd hj (by simp [no_jump_log j])) (.inr (.inr rfl))

end All

end Sys2Proof.Tests
end

section
/-! SUPPORT. The rule for one pattern instruction without a fault, from its fetch to its effect (R129-R131, R138, R164, R518), and the instructions that emit no vector. -/

namespace Sys2Proof.Machine

open Sys2Proof

/-! ### What the fetch of an instruction reads of the state -/

/-- Two states hold the same pattern memory, with the same poisoned blocks and the same quotas: all that a fetch reads (R25, R130). -/
structure SameStore (s t : State) : Prop where
  mem : t.mem = s.mem
  map : t.memc.map = s.memc.map
  regions : t.memc.regions = s.memc.regions
  quota : ∀ n, quotaBytes t n = quotaBytes s n

theorem SameStore.readMem {s t : State} (h : SameStore s t) (part addr n : Nat) : readMem t part addr n = readMem s part addr n := by
  induction n generalizing addr with
  | zero => rfl
  | succ n ih => simp only [Machine.readMem, memByte, h.mem, ih]

theorem SameStore.fetchWords {s t : State} (h : SameStore s t) (part addr n : Nat) : fetchWords t part addr n = fetchWords s part addr n := by
  induction n generalizing addr with
  | zero => rfl
  | succ n ih => simp only [Machine.fetchWords, h.readMem, ih]

theorem SameStore.fillWindow {s t : State} (h : SameStore s t) (w : Work) (n : Nat) : fillWindow t w n = fillWindow s w n := by
  simp only [Machine.fillWindow, h.fetchWords]

theorem SameStore.poisonAt {s t : State} (h : SameStore s t) (part : Nat) : poisonAt t part = poisonAt s part := by
  funext addr
  simp only [Machine.poisonAt, homeFrame, mapEnt, h.map, h.regions]

theorem SameStore.firstPoison {s t : State} (h : SameStore s t) (part addr n : Nat) : firstPoison t part addr n = firstPoison s part addr n := by
  rw [Machine.firstPoison, Machine.firstPoison, h.map, h.poisonAt]

theorem SameStore.inQuota {s t : State} (h : SameStore s t) (part addr n : Nat) : inQuota t part addr n = inQuota s part addr n := by
  rw [Machine.inQuota, Machine.inQuota, h.quota]

theorem SameStore.fetchStop {s t : State} (h : SameStore s t) (w : Work) (n : Nat) : fetchStop t w n = fetchStop s w n := by
  simp only [Machine.fetchStop, h.inQuota, h.firstPoison]

theorem abortEntry_mem (s : State) : (abortEntry s).mem = s.mem :=
  (abortEntry_keeps (Keeps.refl _ s) (Nat.or_self _)).mem (by decide)

theorem abortEntry_memc (s : State) : ∃ sr sl ab chans, (abortEntry s).memc = { s.memc with sr := sr, srSleep := sl, srAborted := ab, chans := chans } := by
  unfold abortEntry
  dsimp only
  split
  · split
    · exact ⟨_, _, _, _, raiseInt_memc _ _ _⟩
    · exact ⟨_, _, _, _, rfl⟩
  · exact ⟨_, _, _, _, rfl⟩

theorem abortEntry_rd_quota (s : State) (n : Nat) : rd (abortEntry s) .hifDev (quotaFld n) = rd s .hifDev (quotaFld n) := by
  refine (abortEntry_keeps (Keeps.refl _ s) (Nat.or_self _)).rd _ _ ?_
  unfold quotaFld
  split <;> decide

theorem abortEntry_sameStore (s : State) : SameStore s (abortEntry s) := by
  obtain ⟨sr, sl, ab, chans, hm⟩ := abortEntry_memc s
  constructor
  case mem => exact abortEntry_mem s
  case quota => intro n; simp only [quotaBytes, quotaGib, abortEntry_rd_quota, hm]
  all_goals rw [hm]

/-- An engine begins an instruction on the state that this leaves: the cycle of a handover is over, and an entry into self-refresh is aborted (R177, R386). -/
theorem abortEntry_settle_sameStore (s : State) : SameStore s (abortEntry (settle s)) :=
  let ⟨mem, map, regions, quota⟩ := abortEntry_sameStore (settle s)
  ⟨mem, map, regions, quota⟩

/-! ### From the fetch to the effect of an instruction -/

@[simp] theorem wordAt_zero (x : Nat) (l : List Nat) : wordAt (x :: l) 0 = x := rfl

/-- A work with another content of the instruction buffer. -/
abbrev rebuffer (w : Work) (base : Nat) (buf : List Nat) : Work := { w with base := base, buf := buf }

/-- The work with its buffer filled for an instruction of n words at PC: first through the first word, which tells n, then through all of them (R129, R164). -/
def fetched (s : State) (w : Work) (n : Nat) : Work := fillWindow s (moveWindow (fillWindow s (moveWindow w 1) 1) n) n

theorem moveWindow_eq (w : Work) (n : Nat) : ∃ base buf, moveWindow w n = rebuffer w base buf := by
  unfold moveWindow
  split
  · exact ⟨_, _, rfl⟩
  · exact ⟨_, _, rfl⟩

/-- The fetch moves and fills the buffer, and changes nothing else of the work. -/
theorem fetched_eq (s : State) (w : Work) (n : Nat) : ∃ base buf, fetched s w n = rebuffer w base buf := by
  obtain ⟨b₁, l₁, h₁⟩ := moveWindow_eq w 1
  obtain ⟨b₂, l₂, h₂⟩ := moveWindow_eq (fillWindow s (moveWindow w 1) 1) n
  rw [fetched, h₂, h₁]
  exact ⟨_, _, rfl⟩

/-- An engine with work w takes the instruction l as its row's own and finds no fault in it (R518), whatever its buffer holds. -/
structure Accepts (i : PInstr) (w : Work) (l : List Nat) : Prop where
  assigned : opAssigned (opOf (wordAt l 0)) = true
  mine : i.mine (wordAt l 0) = true
  words : i.words = l.length := by rfl
  encoding : i.badEncoding l = false
  target : i.badTarget l = false := by rfl
  value : i.badValue l = none := by rfl
  seg : (i.needsSeg && w.st.segNum.isNone) = false := by rfl
  context : i.context w.st = none := by rfl
  own : ∀ t base buf, i.own t (rebuffer w base buf) l = [] := by intros; rfl

theorem Accepts.firstFault {i : PInstr} {w : Work} {l : List Nat} (h : Accepts i w l) (hfirst : w.first = false) (t : State) (base : Nat) (buf : List Nat) :
    firstFault t i (rebuffer w base buf) l = none := by
  simp [Machine.firstFault, h.encoding, h.target, h.value, h.seg, h.context, h.own t base buf, hfirst, lowestCode]

/-- The fetch succeeds, and an instruction of the row's own kind without a fault takes effect. -/
theorem fetchRun_of_atInstr {s t : State} {e : Nat} {w : Work} {l : List Nat} {i : PInstr} (h : AtInstr s e w l) (hst : SameStore s t) (ok : Accepts i w l)
    (fault : firstFault t i (fetched s w l.length) l = none) :
    fetchRun e i w t = runRead e i (fetched s w l.length) l t := by
  obtain ⟨-, -, -, -, -, -, -, ⟨stop₁, word⟩, stop, all⟩ := h
  rw [fetched] at fault
  simp [fetchRun, fetched, hst.fetchStop, hst.fillWindow, stop₁, word, ok.assigned, ok.mine, ok.words, stop, all, fault]

/-- An engine at an instruction of the row's kind fetches it, on the state with the handover over and an entry into self-refresh aborted (R177, R386). -/
theorem runInstr_of_atInstr {s : State} {e : Nat} {w : Work} {l : List Nat} {i : PInstr} (h : AtInstr s e w l) :
    runInstr e i s = fetchRun e i w (abortEntry (settle s)) := by
  obtain ⟨hwork, hended, hstalled, hmchk, hserves, hresid, -⟩ := h
  have hwork' : (engOf (settle s) e).work = some w := hwork
  have hmchk' : (engOf (settle s) e).mchk = false := hmchk
  have hserves' : memServes (settle s) 1 = true := hserves
  simp [runInstr, hwork', hended, hstalled, hmchk', hserves', hresid]

@[simp] theorem engOf_putWork (e : Nat) (w : Work) (s : State) : (engOf (putWork e w s) e).work = some w := by
  simp [engOf, putWork, setEng]

@[simp] theorem endIfFull_st (w : Work) : (endIfFull w).st = w.st := by
  unfold endIfFull; split <;> rfl

@[simp] theorem endIfFull_trig (w : Work) : (endIfFull w).trig = w.trig := by
  unfold endIfFull; split <;> rfl

@[simp] theorem endIfFull_stalled (w : Work) : (endIfFull w).stalled = w.stalled := by
  unfold endIfFull; split <;> rfl

/-- A caravan that has ended keeps its reason. -/
theorem endIfFull_of_ended {w : Work} {r : EndWhy} (h : w.ended = some r) : endIfFull w = w := by
  simp [endIfFull, h]

/-- The work after an instruction without a fault (R138). -/
def afterInstr (i : PInstr) (t : State) (v : Work) (l : List Nat) : Work := endIfFull { i.run t v l with first := false }

@[simp] theorem afterInstr_st (i : PInstr) (t : State) (v : Work) (l : List Nat) : (afterInstr i t v l).st = (i.run t v l).st := endIfFull_st _

@[simp] theorem afterInstr_trig (i : PInstr) (t : State) (v : Work) (l : List Nat) : (afterInstr i t v l).trig = (i.run t v l).trig := endIfFull_trig _

/-- The rule for one instruction that is accepted, reads no pattern data and does not stall: the engine goes on with the effect on its work. -/
theorem runs_of_accepts {s : State} {e : Nat} {w : Work} {l : List Nat} {c : Instr} {i : PInstr} {P : Work → Prop} (h : AtInstr s e w l)
    (hexec : exec c s = .next (runInstr e i s)) (ok : Accepts i w l) (effect : ∀ t base buf, P (afterInstr i t (rebuffer w base buf) l))
    (reads : ∀ t base buf, i.reads t (rebuffer w base buf) l = [] := by intros; rfl)
    (stalled : ∀ t base buf, (i.run t (rebuffer w base buf) l).stalled = w.stalled := by intros; rfl) : Runs c s e P := by
  obtain ⟨base, buf, hv⟩ := fetched_eq s w l.length
  obtain ⟨-, -, hstalled, -, -, -, hfirst, -⟩ := id h
  have fault := ok.firstFault hfirst (abortEntry (settle s)) base buf
  have goes : (i.run (abortEntry (settle s)) (rebuffer w base buf) l).stalled = none := (stalled _ _ _).trans hstalled
  refine ⟨_, hexec, afterInstr i (abortEntry (settle s)) (rebuffer w base buf) l, ?_, effect _ _ _⟩
  rw [runInstr_of_atInstr h, fetchRun_of_atInstr h (abortEntry_settle_sameStore s) ok (hv ▸ fault), hv]
  simp [runRead, reads, runBody, goes, afterInstr]

/-! ### The parts of an instruction word and the effects on the state of the expansion -/

@[simp] theorem testBit_bits (v hi lo k : Nat) : (bits v hi lo).testBit k = (decide (k < hi + 1 - lo) && v.testBit (lo + k)) := by
  simp [bits, Nat.testBit_mod_two_pow, Nat.testBit_shiftRight]

theorem bits_lt (v hi lo : Nat) : bits v hi lo < 2 ^ (hi + 1 - lo) := Nat.mod_lt _ (Nat.two_pow_pos _)

/-- The bits of a value outside a mask are what is left when the shared bits are taken away. -/
theorem ldiff_eq_sub_and (a m : Nat) : Nat.ldiff a m = a - (a &&& m) := by
  suffices h : Nat.ldiff a m + (a &&& m) = a by omega
  induction a using Nat.binaryRec generalizing m with
  | zero => simp [Nat.ldiff]
  | bit b n ih =>
    have rest := ih m.div2
    rw [← Nat.bit_bodd_div2 m, Nat.ldiff_bit, Nat.land_bit]
    cases b <;> cases m.bodd <;> simp [Nat.bit_val] <;> omega

theorem testBit_sub_and (a m k : Nat) : (a - (a &&& m)).testBit k = (a.testBit k && !m.testBit k) := by
  rw [← ldiff_eq_sub_and, Nat.testBit_ldiff]

/-- A later FLAG overrides an earlier one bit by bit (R134): it sets what it names in SET and keeps what it does not name in CLR. -/
theorem testBit_flagPend_flagSet (p : Pend) (set clr k : Nat) :
    (flagPend p set clr).flagSet.testBit k = (set.testBit k || (p.flagSet.testBit k && !clr.testBit k)) := by
  rw [flagPend, Nat.testBit_or, testBit_sub_and, Bool.or_comm]

theorem testBit_flagPend_flagClr (p : Pend) (set clr k : Nat) :
    (flagPend p set clr).flagClr.testBit k = (clr.testBit k || (p.flagClr.testBit k && !set.testBit k)) := by
  rw [flagPend, Nat.testBit_or, testBit_sub_and, Bool.or_comm]

/-- A value of 35 bits is held by a data pointer as it is (R142). -/
theorem setDp_of_lt {v : Nat} (h : v < 2 ^ 35) (st : RouteRec) (d : Nat) : setDp st d v = { st with dps := st.dps.set d v } := by
  rw [setDp, Nat.mod_eq_of_lt h]

/-- The rule for an instruction of which only the state of the expansion is said: no part of it is left over (R129), as before it. -/
theorem runs_st {s : State} {e : Nat} {w : Work} {l : List Nat} {c : Instr} {i : PInstr} {r : RouteRec} (h : AtInstr s e w l)
    (hexec : exec c s = .next (runInstr e i s)) (ok : Accepts i w l) (resid : r.resid = none)
    (effect : ∀ t base buf, (i.run t (rebuffer w base buf) l).st = { r with resid := none })
    (reads : ∀ t base buf, i.reads t (rebuffer w base buf) l = [] := by intros; rfl)
    (stalled : ∀ t base buf, (i.run t (rebuffer w base buf) l).stalled = w.stalled := by intros; rfl) : Runs c s e fun v => v.st = r :=
  runs_of_accepts h hexec ok (fun t base buf => by rw [afterInstr_st, effect, ← resid]) reads stalled

theorem Runs.mono {c : Instr} {s : State} {e : Nat} {P Q : Work → Prop} (h : Runs c s e P) (imp : ∀ v, P v → Q v) : Runs c s e Q := by
  obtain ⟨t, hexec, v, hwork, hv⟩ := h
  exact ⟨t, hexec, v, hwork, imp v hv⟩

/-! ### When the instructions that emit no vector have no fault -/

section
variable {w : Work} {x : Nat}

theorem accepts_nop : Accepts nopInstr w [0] where
  assigned := rfl
  mine := rfl
  encoding := rfl

theorem accepts_pal (op : opOf x = 0x05) (mods : bits x 55 51 = 0) (operands : bits x 47 14 = 0) (gap : bits x 7 3 = 0) : Accepts palInstr w [x] where
  assigned := congrArg opAssigned op
  mine := beq_iff_eq.2 op
  encoding := by simp [palInstr, mods, operands, gap]

theorem accepts_label (op : opOf x = 0x22) (mods : modOf x = 0) (operands : bits x 47 16 = 0) : Accepts labelInstr w [x] where
  assigned := congrArg opAssigned op
  mine := beq_iff_eq.2 op
  encoding := by simp [labelInstr, mods, operands]

theorem accepts_flag (op : opOf x = 0x23) (mods : modOf x = 0) (gap : x.testBit 3 = false) (operands : bits x 47 7 = 0) (apart : bits x 2 0 &&& bits x 6 4 = 0) :
    Accepts flagInstr w [x] where
  assigned := congrArg opAssigned op
  mine := beq_iff_eq.2 op
  encoding := by simp [flagInstr, mods, gap, operands, apart]

theorem accepts_trig (op : opOf x = 0x21) (mods : modOf x = 0) (operands : bits x 47 8 = 0) : Accepts trigInstr w [x] where
  assigned := congrArg opAssigned op
  mine := beq_iff_eq.2 op
  encoding := by simp [trigInstr, mods, operands]

theorem accepts_vecLoad (op : opOf x = 0x01) (load : x.testBit 51 = true) (mods : bits x 55 52 = 0) (operands : bits x 47 35 = 0) : Accepts vecLoadInstr w [x] where
  assigned := congrArg opAssigned op
  mine := by simp [vecLoadInstr, op, load]
  encoding := by simp [vecLoadInstr, mods, operands]

theorem accepts_loop (op : opOf x = 0x10) (mods : modOf x = 0) (operands : bits x 47 32 = 0) (count : bits x 31 0 ≠ 0) (room : w.st.loops.length < 8) :
    Accepts loopInstr w [x] where
  assigned := congrArg opAssigned op
  mine := beq_iff_eq.2 op
  encoding := by simp [loopInstr, mods, operands]
  value := by simp [loopInstr, zeroCount, countOf, count]
  own := by simp [loopInstr, room]

theorem accepts_endl (op : opOf x = 0x11) (mods : modOf x = 0) (operands : opdOf x = 0) (frame : w.st.loops ≠ []) : Accepts endlInstr w [x] where
  assigned := congrArg opAssigned op
  mine := beq_iff_eq.2 op
  encoding := by simp [endlInstr, plainInstr, mods, operands]
  own := by simp [endlInstr, frame]

theorem accepts_call (op : opOf x = 0x12) (mods : modOf x = 0) (operands : bits x 47 35 = 0) (aligned : bits x 34 0 % 8 = 0) (room : w.st.calls.length < 16) :
    Accepts callInstr w [x] where
  assigned := congrArg opAssigned op
  mine := beq_iff_eq.2 op
  encoding := by simp [callInstr, mods, operands]
  target := by simp [callInstr, targetOf, aligned]
  own := by simp [callInstr, room]

theorem accepts_ret (op : opOf x = 0x13) (mods : modOf x = 0) (operands : opdOf x = 0) (frame : retFaults w.st = []) : Accepts retInstr w [x] where
  assigned := congrArg opAssigned op
  mine := beq_iff_eq.2 op
  encoding := by simp [retInstr, plainInstr, mods, operands]
  own := by simp [retInstr, frame]

theorem accepts_jmp (op : opOf x = 0x14) (mods : modOf x = 0) (operands : bits x 47 35 = 0) (aligned : bits x 34 0 % 8 = 0) : Accepts jmpInstr w [x] where
  assigned := congrArg opAssigned op
  mine := beq_iff_eq.2 op
  encoding := by simp [jmpInstr, mods, operands]
  target := by simp [jmpInstr, targetOf, aligned]

theorem accepts_halt (op : opOf x = 0x3F) (mods : modOf x = 0) (operands : opdOf x = 0) (closed : w.st.block = none) (begun : w.st.pend.seg = false) :
    Accepts haltInstr w [x] where
  assigned := congrArg opAssigned op
  mine := beq_iff_eq.2 op
  encoding := by simp [haltInstr, plainInstr, mods, operands]
  context := by simp [haltInstr, closed]
  own := by simp [haltInstr, begun]

end

/-! ### The pattern instructions that emit no vector, and the flow of control -/

/-- Settles O13: each instruction is accepted where it stands, so that the engine goes on with its effect; what is left is to read the effect off. -/
theorem patternControl : Obligations.PatternControl := by
  unfold Obligations.PatternControl
  intro s e w x h
  obtain ⟨-, -, -, -, -, hresid, -⟩ := id h
  refine ⟨?nop, ?pal, ?label, ?flag, ?trig, ?vecLoad, ?loop, ?endl, ?call, ?ret, ?jmp, ?halt⟩
  case nop =>
    rintro rfl
    exact runs_st h rfl accepts_nop hresid fun _ _ _ => rfl
  case pal =>
    intro op mods operands gap
    exact runs_st h rfl (accepts_pal op mods operands gap) hresid fun _ _ _ => rfl
  case label =>
    intro op mods operands
    exact runs_st h rfl (accepts_label op mods operands) hresid fun _ _ _ => rfl
  case flag =>
    intro op mods gap operands apart
    have effect : Runs (.flag e) s e fun v =>
        v.st = { w.st with pc := w.st.pc + 8, pend := flagPend w.st.pend (bits x 2 0) (bits x 6 4) } :=
      runs_st h rfl (accepts_flag op mods gap operands apart) hresid fun _ _ _ => rfl
    refine effect.mono fun v hv => ?_
    rw [hv]
    refine ⟨rfl, rfl, fun k hk => ?_⟩
    simp [testBit_flagPend_flagSet, testBit_flagPend_flagClr, hk]
  case trig =>
    intro op mods operands
    refine runs_of_accepts h rfl (accepts_trig op mods operands) fun t base buf => ⟨afterInstr_trig .., ?_⟩
    simp [trigInstr, pastWords, ← hresid]
  case vecLoad =>
    intro op load mods operands
    refine runs_st h rfl (accepts_vecLoad op load mods operands) hresid fun t base buf => ?_
    simp [vecLoadInstr, withSt, pastWords, setDp_of_lt (bits_lt x 34 0)]
  case loop =>
    intro op mods operands count room
    exact runs_st h rfl (accepts_loop op mods operands count room) hresid fun _ _ _ => rfl
  case endl =>
    intro op mods operands n body rest frame
    refine runs_st h rfl (accepts_endl op mods operands (by simp [frame])) (by split <;> exact hresid) fun t base buf => ?_
    simp only [endlInstr, plainInstr, withSt, pastWords, endlEffect, frame]
    split <;> rfl
  case call =>
    intro op mods operands aligned room
    exact runs_st h rfl (accepts_call op mods operands aligned room) hresid fun _ _ _ => rfl
  case ret =>
    intro op mods operands a rest frame
    refine runs_st h rfl (accepts_ret op mods operands (by simp [retFaults, frame])) hresid fun t base buf => ?_
    simp [retInstr, plainInstr, withSt, pastWords, retEffect, frame]
  case jmp =>
    intro op mods operands aligned
    exact runs_st h rfl (accepts_jmp op mods operands aligned) hresid fun _ _ _ => rfl
  case halt =>
    intro op mods operands closed begun
    refine runs_of_accepts h rfl (accepts_halt op mods operands closed begun) fun t base buf => ?_
    rw [afterInstr, endIfFull_of_ended rfl]
    simp [haltInstr, withSt, pastWords, ← hresid]

end Sys2Proof.Machine
end

section
/-! SUPPORT. The rule for one instruction of an analysis unit (R327, R328, R334, R335, R342), and the instructions that move data and compute (Table 12-2). -/

namespace Sys2Proof.Machine

open Sys2Proof

/-! ### Two's-complement numbers of a unit -/

/-- A two's-complement value is the balanced remainder. -/
theorem toSigned_eq_bmod {w : Nat} (h : 0 < w) (v : Nat) : toSigned w v = Int.bmod v (2 ^ w) := by
  obtain ⟨n, rfl⟩ : ∃ n, w = n + 1 := ⟨w - 1, by omega⟩
  have half : (((2 ^ (n + 1) : Nat) : Int) + 1) / 2 = (2 ^ n : Nat) := by omega
  rw [toSigned, Int.bmod, half, ← Int.natCast_mod, Nat.add_sub_cancel]
  norm_cast

theorem cast_ofSigned (w : Nat) (x : Int) : (ofSigned w x : Int) = x % 2 ^ w := by
  rw [ofSigned, Int.toNat_of_nonneg (Int.emod_nonneg _ (by positivity))]
  norm_cast

theorem ofSigned_lt (w : Nat) (x : Int) : ofSigned w x < 2 ^ w := by
  have := Int.emod_lt_of_pos x (b := 2 ^ w) (by positivity)
  rw [← cast_ofSigned] at this
  exact_mod_cast this

/-- A number within the range of w bits is held exactly. -/
theorem toSigned_ofSigned {w : Nat} (hw : 0 < w) {x : Int} (lo : -(2 : Int) ^ (w - 1) ≤ x) (hi : x < (2 : Int) ^ (w - 1)) : toSigned w (ofSigned w x) = x := by
  obtain ⟨n, rfl⟩ : ∃ n, w = n + 1 := ⟨w - 1, by omega⟩
  have wide : (ofSigned (n + 1) x : Int) = x % (2 ^ (n + 1) : Nat) := by rw [cast_ofSigned]; norm_cast
  rw [toSigned_eq_bmod hw, wide, Int.emod_bmod]
  simp only [Nat.add_sub_cancel] at lo hi
  apply Int.bmod_eq_of_le <;> push_cast [pow_succ] <;> omega

/-- The low w bits of a value's number are the value's. -/
theorem ofSigned_toSigned {w : Nat} (hw : 0 < w) (v : Nat) : ofSigned w (toSigned w v) = v % 2 ^ w := by
  have := Int.bmod_emod (x := v) (m := 2 ^ w)
  rw [toSigned_eq_bmod hw, ofSigned, this]
  rfl

theorem toSigned_mod (w v : Nat) : toSigned w (v % 2 ^ w) = toSigned w v := by
  simp [toSigned]

theorem toSigned_low (a b : Nat) : toSigned 16 (a + b * 2 ^ 16) = toSigned 16 a := by
  rw [← toSigned_mod 16, Nat.add_mul_mod_self_right, toSigned_mod]

theorem toSigned_mem {w : Nat} (hw : 0 < w) (v : Nat) : -(2 : Int) ^ (w - 1) ≤ toSigned w v ∧ toSigned w v < (2 : Int) ^ (w - 1) := by
  obtain ⟨n, rfl⟩ : ∃ n, w = n + 1 := ⟨w - 1, by omega⟩
  have pos := Nat.two_pow_pos (n + 1)
  have lo := Int.le_bmod (x := v) pos
  have hi := Int.bmod_lt (x := v) pos
  rw [toSigned_eq_bmod hw, Nat.add_sub_cancel]
  push_cast [pow_succ] at lo hi ⊢
  omega

/-- A number held within the limits of w bits reads as itself. -/
theorem toSigned_ofSigned_clamp16 (x : Int) : toSigned 16 (ofSigned 16 (max (-32768) (min x 32767))) = max (-32768) (min x 32767) :=
  toSigned_ofSigned (by decide) (by omega) (by omega)

theorem toSigned_ofSigned_clamp32 (x : Int) : toSigned 32 (ofSigned 32 (max (-(2 ^ 31)) (min x (2 ^ 31 - 1)))) = max (-(2 ^ 31)) (min x (2 ^ 31 - 1)) :=
  toSigned_ofSigned (by decide) (by omega) (by omega)

/-- Two numbers of w bits with one signed value are the same. -/
theorem eq_ofSigned {w v : Nat} (hw : 0 < w) (hv : v < 2 ^ w) {x : Int} (h : toSigned w v = x) : v = ofSigned w x := by
  rw [← h, ofSigned_toSigned hw, Nat.mod_eq_of_lt hv]

theorem eq_ofSigned_of_cast {w v : Nat} {x : Int} (h : (v : Int) = x % 2 ^ w) : v = ofSigned w x := by
  rw [← cast_ofSigned] at h
  exact_mod_cast h

/-! ### Accumulators and rounding (R332, R333) -/

theorem accOut_iff (x : Int) : accOut x = true ↔ x < -(2 ^ 39) ∨ 2 ^ 39 ≤ x := by simp [accOut]

theorem accKeep_lt (sat : Bool) (x : Int) : accKeep sat x < 2 ^ 40 := by
  unfold accKeep
  split
  · split
    · exact ofSigned_lt 40 _
    · decide
  · exact ofSigned_lt 40 x

/-- An exact sum is kept as R332 says: itself where it fits, else its low 40 bits or the nearer limit. -/
theorem partIs_accKeep (sat : Bool) (x : Int) : PartIs (accKeep sat x) sat x := by
  unfold PartIs accKeep
  by_cases inside : -(2 ^ 39) ≤ x ∧ x < 2 ^ 39
  · have fits : accOut x = false := by rw [← Bool.not_eq_true, accOut_iff]; omega
    simp only [inside, and_self, if_true, fits, Bool.and_false, Bool.false_eq_true, if_false]
    exact toSigned_ofSigned (by decide) inside.1 inside.2
  · have out : accOut x = true := by rw [accOut_iff]; omega
    cases sat with
    | false => simpa only [inside, if_false, Bool.false_and, Bool.false_eq_true] using cast_ofSigned 40 x
    | true =>
      simp only [inside, if_false, out, Bool.and_self, if_true]
      split <;> decide

/-- Convergent rounding gives the nearest integer, exact halves to the even one (R333). -/
theorem nearestEven_roundHalfEven (v : Int) (sh : Nat) : NearestEven v sh (roundHalfEven v sh) := by
  have pos : (0 : Int) < 2 ^ sh := by positivity
  have division := Int.mul_ediv_add_emod v (2 ^ sh)
  have lo := Int.emod_nonneg v pos.ne'
  have hi := Int.emod_lt_of_pos v pos
  unfold NearestEven roundHalfEven
  dsimp only
  generalize hd : (2 : Int) ^ sh = d at *
  have hdn : (2 ^ sh : Nat) = d.toNat := by rw [← hd]; norm_cast
  rw [hdn]
  generalize v / d = q at *
  generalize v % d = r at *
  have below : v - q * d = r := by linarith
  have above : v - (q + 1) * d = r - d := by linarith
  split
  · rw [below]; omega
  · split
    · rw [above]; omega
    · split
      · rw [below]; omega
      · rw [above]; omega

/-- A number saturated to 16 bits (R333). -/
theorem saturated16_eq (x : Int) :
    (if x < -32768 then 0x8000 else if 32767 < x then 0x7FFF else ofSigned 16 x) = ofSigned 16 (max (-32768) (min x 32767)) := by
  split
  · rw [show max (-32768) (min x 32767) = -32768 by omega]; rfl
  · split
    · rw [show max (-32768) (min x 32767) = 32767 by omega]; rfl
    · rw [show max (-32768) (min x 32767) = x by omega]

/-- A rounded part is the nearest 16-bit number (R333). -/
theorem round16_fst (v : Int) (sh : Nat) : (round16 v sh).1 = ofSigned 16 (max (-32768) (min (roundHalfEven v sh) 32767)) := by
  rw [← saturated16_eq, round16, apply_ite Prod.fst, apply_ite Prod.fst]

/-- A part saturates where its rounded value needs more than 16 bits (R333). -/
theorem round16_snd (v : Int) (sh : Nat) : (round16 v sh).2 = decide (roundHalfEven v sh < -32768 ∨ 32767 < roundHalfEven v sh) := by
  unfold round16
  dsimp only
  split
  · simp [*]
  · split <;> simp [*]

/-! ### The functions of the ALU (Table 12-2) -/

theorem aluResult_lt {fn a b : Nat} (ha : a < 2 ^ 32) (hb : b < 2 ^ 32) : aluResult fn a b < 2 ^ 32 := by
  have low : 0 < 2 ^ 32 := by decide
  unfold aluResult
  dsimp only
  split
  case h_1 | h_2 | h_6 | h_9 => exact Nat.mod_lt _ low
  case h_3 => exact Nat.and_lt_two_pow _ hb
  case h_4 => exact Nat.or_lt_two_pow ha hb
  case h_5 => exact Nat.xor_lt_two_pow ha hb
  case h_7 => exact ofSigned_lt 32 _
  case h_8 => exact (Nat.div_le_self _ _).trans_lt ha
  case h_10 => rw [saturated16_eq]; exact (ofSigned_lt 16 _).trans (by decide)

/-! ### What the parts of a unit read after a write -/

/-- Two fields of different rows. -/
def apart (f g : Fld) : Bool := f.num % 1024 != g.num % 1024

theorem rd_wr_apart {s : State} {p q : Page} {f g : Fld} {v : Nat} (h : apart f g = true) : rd (wr s p g v) q f = rd s q f :=
  rd_wr_num (by simpa [apart] using h)

/-- The entries of an array of fields are kept where its row is not written. -/
theorem Keeps.rd_array {T : Nat} {s t : State} (k : Keeps T s t) (p : Page) (f : Nat → Fld) (n : Nat) (row : ∀ j, (f j).num = (f 0).num := by intro _; rfl)
    (h : T.testBit (16 + (f 0).num % 1024) = false := by decide) : Machine.rd t p (f n) = Machine.rd s p (f n) :=
  k.rd p (f n) (by rw [row]; exact h)

@[simp] theorem auOf_setAu (s : State) (u : Nat) (x : Au) : auOf (setAu s u x) u = x := tabGet_tabPut_self ..

@[simp] theorem rd_setAu (s : State) (u : Nat) (x : Au) (p : Page) (f : Fld) : rd (setAu s u x) p f = rd s p f := rfl

@[simp] theorem auOf_wr (s : State) (p : Page) (f : Fld) (v u : Nat) : auOf (wr s p f v) u = auOf s u := rfl

theorem auOf_congr {s t : State} (h : t.au = s.au) (u : Nat) : auOf t u = auOf s u := by rw [auOf, h, auOf]

theorem auX_lt (s : State) (u k : Nat) : auX s u k < 2 ^ 32 := rd_lt ..

theorem arPtr_lt (s : State) (u n : Nat) : arPtr s u n < 2 ^ 14 := rd_lt ..

@[simp] theorem auX_setAuX_self (s : State) (u k v : Nat) : auX (setAuX u k v s) u k = v % 2 ^ 32 := rd_wr_self ..

theorem auX_setAuX_other (s : State) {u j k : Nat} (h : j ≠ k) (v : Nat) : auX (setAuX u k v s) u j = auX s u j := by
  refine rd_wr_other fun e => h ?_
  simp only [fldKey, F.AU_X] at e
  omega

@[simp] theorem auData_setAuData_self (s : State) (u a v : Nat) : auData (setAuData u a v s) u a = v % 2 ^ 32 := by
  simp [auData, setAuData]

theorem auData_setAuData_other (s : State) {u a b : Nat} (ha : a < 16384) (hb : b < 16384) (h : a ≠ b) (v : Nat) : auData (setAuData u b v s) u a = auData s u a := by
  rw [auData, setAuData, auOf_setAu, Nat.mod_eq_of_lt ha, Nat.mod_eq_of_lt hb]
  rw [tabGet_tabPut_other _ _ _ h, auData, Nat.mod_eq_of_lt ha]

/-! ### One instruction of a unit (R327, R328, R334, R335, R341, R342) -/

/-- The counts of an instruction that a unit carries out (R328); the unit is RUNNING. -/
def auCounted (u waited : Nat) (i : AuInstr) (w : Nat) (s : State) : State :=
  setAuState u 1 (addWrap (addWrap s (.au u) F.AU_INSNS 1) (.au u) F.AU_STALLS (auStall (auOf s u) i w + waited))

/-- What the stalls of the next instruction depend on (R328). -/
def auNoted (u : Nat) (i : AuInstr) (w : Nat) (s : State) : State :=
  setAu s u { auOf s u with prevAcc := if i.op = 1 || i.op = 2 then some (bits w 25 25) else none, prevLoad := if i.op = 5 then some (bits w 24 22) else none }

/-- The effect of an instruction on a unit that has counted it. -/
def auEffect (u waited : Nat) (i : AuInstr) (w : Nat) (s : State) : State := i.run u w (auCounted u waited i w s)

/-- A unit has carried an instruction out, and its program counter has moved on. -/
def auDone (u waited : Nat) (i : AuInstr) (w : Nat) (s : State) : State :=
  auHaltCheck u (auAdvance u (auOf s u).rpt (auNoted u i w (auEffect u waited i w s)))

/-- A unit takes the word w as its own instruction, with no fault and no wait (R342). -/
structure AuAccepts (i : AuInstr) (s : State) (u w : Nat) : Prop where
  assigned : auAssigned i.op = true := by rfl
  encoding : i.bad w = false
  calUnit : isCu u = true → i.badCu w = false := by exact fun _ => rfl
  control : i.control = false := by rfl
  noBlock : i.noBlock = false := by rfl
  badRepeat : i.badRepeat s u w = false := by rfl
  badStack : i.badStack s u = false := by rfl
  waits : i.waits s u = false := by rfl

theorem auExec_of_accepts {s : State} {u w op : Nat} {up : AuUpset} {i : AuInstr} (n : Nat) (h : AuAt s u up w op) (hop : i.op = op) (ok : AuAccepts i s u w) :
    auExec u up n i s = auDone u n i w s := by
  obtain ⟨rfl, live, takes, word, wop⟩ := h
  have cu : (isCu u && i.badCu w) = false := by
    cases e : isCu u
    · rfl
    · exact ok.calUnit e
  subst hop
  simp [auExec, live, takes, word, wop, ok.assigned, ok.encoding, cu, ok.control, ok.noBlock, ok.badRepeat, ok.badStack, ok.waits, auDone, auNoted, auEffect, auCounted]

theorem auState_setAuState (s : State) (u v : Nat) : auState (setAuState u v s) u = v % 8 := rd_wr_self ..

/-- A fault of the instruction itself leaves the unit in FAULT (R342). -/
theorem auState_auFault (s : State) (u code addr : Nat) (h : code < 5) : auState (auFault u code addr s) u = 3 := by
  have h5 : code ≠ 5 := by omega
  have h6 : code ≠ 6 := by omega
  simp only [auFault, h5, h6, if_false, decide_false, Bool.or_self, Bool.false_eq_true, auState]
  rw [rd_raiseInt rfl, rd_setAu, wrs_cons, wrs_cons, wrs_cons, wrs_nil, rd_wr_num (by decide), rd_wr_num (by decide), rd_wr_self]
  rfl

/-- An attempt at an instruction ends in t: the unit waits, is in FAULT, or has carried the instruction out with the outcome d. -/
def AuEnds (u : Nat) (d t : State) : Prop := auState t u = 2 ∨ auState t u = 3 ∨ t = d

theorem AuEnds.fault {u : Nat} {d s : State} {code addr : Nat} (h : code < 5) : AuEnds u d (auFault u code addr s) :=
  .inr (.inl (auState_auFault s u code addr h))

/-- An instruction at the program counter is carried out, waits, or raises a fault (R342). -/
theorem auEnds_auExec {s : State} {u w op : Nat} {up : AuUpset} {i : AuInstr} (n : Nat) (h : AuAt s u up w op) (hop : i.op = op) :
    AuEnds u (auDone u n i w s) (auExec u up n i s) := by
  obtain ⟨rfl, live, takes, word, wop⟩ := h
  have mine : ¬auOp w ≠ i.op := by simp [wop, hop]
  simp only [auExec, live, takes, word, Bool.not_true, Option.isSome_none, Bool.or_self, Bool.false_eq_true, if_false, if_neg mine]
  iterate 5
    split
    · exact AuEnds.fault (by decide)
  split
  · exact .inl (auState_setAuState ..)
  · exact .inr (.inr rfl)

/-! ### What the passage to the next instruction leaves alone -/

/-- The fields that carrying an instruction out writes beside its effect. -/
def flowFields : List Fld := [F.AU_STAT_STATE, F.AU_STAT_PC, F.AU_INSNS, F.AU_STALLS]

/-- A field of another row. -/
def flowless (f : Fld) : Bool := !(flowFields.any fun g => g.num == f.num % 1024)

/-- The mask of what carrying an instruction out may write beside its effect: these fields, and the units. -/
def flowMask : Nat := flowFields.foldl (fun m g => m ||| 1 <<< (16 + g.num)) 129

theorem testBit_flowMask {f : Fld} (h : flowless f = true) : flowMask.testBit (16 + f.num % 1024) = false := by
  refine testBit_foldl _ _ _ (Nat.testBit_lt_two_pow ?_) (by simpa only [flowless, Bool.not_eq_true'] using h)
  exact Nat.lt_of_lt_of_le (by decide : 129 < 2 ^ 16) (Nat.pow_le_pow_right (by decide) (by omega))

theorem auCounted_keeps (s : State) (u n : Nat) (i : AuInstr) (w : Nat) : Keeps flowMask s (auCounted u n i w s) :=
  setAuState_keeps (addWrap_keeps (addWrap_keeps (Keeps.refl _ s) (by decide)) (by decide)) (by decide)

theorem auDone_keeps (s : State) (u n : Nat) (i : AuInstr) (w : Nat) : Keeps flowMask (auEffect u n i w s) (auDone u n i w s) :=
  auHaltCheck_keeps (auAdvance_keeps (setAu_keeps (Keeps.refl _ _) (by decide)) (by decide)) (by decide)

theorem rd_auCounted {s : State} {u n w : Nat} {i : AuInstr} {p : Page} {f : Fld} (h : flowless f = true) :
    rd (auCounted u n i w s) p f = rd s p f := (auCounted_keeps s u n i w).rd p f (testBit_flowMask h)

theorem rd_auDone {s : State} {u n w : Nat} {i : AuInstr} {p : Page} {f : Fld} (h : flowless f = true) :
    rd (auDone u n i w s) p f = rd (auEffect u n i w s) p f := (auDone_keeps s u n i w).rd p f (testBit_flowMask h)

theorem rdb_auDone {s : State} {u n w : Nat} {i : AuInstr} {p : Page} {f : Fld} (h : flowless f = true) :
    rdb (auDone u n i w s) p f = rdb (auEffect u n i w s) p f := by rw [rdb, rd_auDone h, rdb]

theorem rdb_auCounted {s : State} {u n w : Nat} {i : AuInstr} {p : Page} {f : Fld} (h : flowless f = true) :
    rdb (auCounted u n i w s) p f = rdb s p f := by rw [rdb, rd_auCounted h, rdb]

@[simp] theorem auX_auDone (s : State) (u n : Nat) (i : AuInstr) (w k : Nat) : auX (auDone u n i w s) u k = auX (auEffect u n i w s) u k := rd_auDone rfl

@[simp] theorem arPtr_auDone (s : State) (u n : Nat) (i : AuInstr) (w k : Nat) : arPtr (auDone u n i w s) u k = arPtr (auEffect u n i w s) u k := rd_auDone rfl

@[simp] theorem auX_auCounted (s : State) (u n : Nat) (i : AuInstr) (w k : Nat) : auX (auCounted u n i w s) u k = auX s u k := rd_auCounted rfl

@[simp] theorem arPtr_auCounted (s : State) (u n : Nat) (i : AuInstr) (w k : Nat) : arPtr (auCounted u n i w s) u k = arPtr s u k := rd_auCounted rfl

@[simp] theorem auOf_auCounted (s : State) (u n : Nat) (i : AuInstr) (w : Nat) : auOf (auCounted u n i w s) u = auOf s u := rfl

@[simp] theorem auData_auCounted (s : State) (u n : Nat) (i : AuInstr) (w a : Nat) : auData (auCounted u n i w s) u a = auData s u a := rfl

/-- A step of the program counter moves the delay slots, the repeat and the block on, and nothing else of the unit. -/
theorem auOf_auAdvance (s : State) (u : Nat) (was : Option Nat) :
    ∃ slots rpt block, auOf (auAdvance u was s) u = { auOf s u with slots := slots, rpt := rpt, block := block } := by
  unfold auAdvance
  dsimp only
  repeat' split
  all_goals exact ⟨_, _, _, by simp only [auOf_wr, auOf_setAu]; rfl⟩

theorem auOf_auHaltCheck (s : State) (u : Nat) : ∃ b, auOf (auHaltCheck u s) u = { auOf s u with haltReq := b } := by
  unfold auHaltCheck
  dsimp only
  split
  · exact ⟨false, auOf_setAu ..⟩
  · exact ⟨_, rfl⟩

/-- The memory and the tap of a unit are as the effect of its instruction leaves them. -/
theorem auOf_auDone (s : State) (u n : Nat) (i : AuInstr) (w : Nat) :
    (auOf (auDone u n i w s) u).data = (auOf (auEffect u n i w s) u).data ∧ (auOf (auDone u n i w s) u).tap = (auOf (auEffect u n i w s) u).tap ∧
      (auOf (auDone u n i w s) u).lost = (auOf (auEffect u n i w s) u).lost := by
  obtain ⟨halt, h₁⟩ := auOf_auHaltCheck (auAdvance u (auOf s u).rpt (auNoted u i w (auEffect u n i w s))) u
  obtain ⟨slots, rpt, block, h₂⟩ := auOf_auAdvance (auNoted u i w (auEffect u n i w s)) u (auOf s u).rpt
  rw [auDone, h₁, h₂, auNoted, auOf_setAu]
  exact ⟨rfl, rfl, rfl⟩

@[simp] theorem auData_auDone (s : State) (u n : Nat) (i : AuInstr) (w a : Nat) : auData (auDone u n i w s) u a = auData (auEffect u n i w s) u a := by
  rw [auData, (auOf_auDone s u n i w).1, auData]

/-! ### The count of instructions and the program counter (R328, R334, R335) -/

@[simp] theorem rd_auHaltCheck {s : State} {u : Nat} {p : Page} {f : Fld} (h : f.num % 1024 ≠ 400) : rd (auHaltCheck u s) p f = rd s p f := by
  unfold auHaltCheck
  dsimp only
  split
  · exact rd_wr_num h
  · rfl

/-- The program counter moves to the place after an instruction, which depends on what repeats and what transfer is due (R334, R335). -/
theorem pc_auAdvance (s : State) (u : Nat) (was : Option Nat) :
    rd (auAdvance u was s) (.au u) F.AU_STAT_PC = auPlaceAfter { auOf s u with rpt := was } (rd s (.au u) F.AU_STAT_PC) := by
  have width : F.AU_STAT_PC.width = 12 := rfl
  rcases was with _ | _ | _ | again
  case some.succ.succ => rfl
  all_goals
    rcases hs : (auOf s u).slots with _ | ⟨_ | _ | left, _ | target⟩
    case none =>
      rcases hb : (auOf s u).block with _ | ⟨start, last, times⟩
      · simp [auAdvance, auPlaceAfter, hs, hb, width]
      · by_cases at_last : rd s (.au u) F.AU_STAT_PC = last
        · by_cases more : 1 < times <;> simp [auAdvance, auPlaceAfter, hs, hb, width, at_last, more]
        · simp [auAdvance, auPlaceAfter, hs, hb, width, at_last]
    all_goals simp [auAdvance, auPlaceAfter, hs, width]

/-- An instruction leaves the count of instructions to the step around it. -/
def CountKept (i : AuInstr) : Prop := ∀ u w x, rd (i.run u w x) (.au u) F.AU_INSNS = rd x (.au u) F.AU_INSNS

/-- An instruction leaves the flow of control to the step around it. -/
structure FlowKept (i : AuInstr) : Prop where
  count : CountKept i
  pc : ∀ u w x, rd (i.run u w x) (.au u) F.AU_STAT_PC = rd x (.au u) F.AU_STAT_PC
  slots : ∀ u w x, (auOf (i.run u w x) u).slots = (auOf x u).slots
  block : ∀ u w x, (auOf (i.run u w x) u).block = (auOf x u).block

theorem insns_auDone {i : AuInstr} (h : CountKept i) (s : State) (u n w : Nat) :
    rd (auDone u n i w s) (.au u) F.AU_INSNS = (rd s (.au u) F.AU_INSNS + 1) % 2 ^ 64 := by
  have counted : rd (auCounted u n i w s) (.au u) F.AU_INSNS = (rd s (.au u) F.AU_INSNS + 1) % 2 ^ 64 := by
    rw [auCounted, setAuState, rd_wr_num (by decide), addWrap, rd_wr_num (by decide), addWrap, rd_wr_self]
    rfl
  have past : rd (auDone u n i w s) (.au u) F.AU_INSNS = rd (auEffect u n i w s) (.au u) F.AU_INSNS := by
    rw [auDone, rd_auHaltCheck (by decide)]
    exact (auAdvance_keeps (Keeps.refl _ _) (Nat.or_self _)).rd _ _ (by decide)
  rw [past, auEffect, h, counted]

theorem pc_auDone {i : AuInstr} (h : FlowKept i) (s : State) (u n w : Nat) :
    rd (auDone u n i w s) (.au u) F.AU_STAT_PC = auPlaceAfter (auOf s u) (rd s (.au u) F.AU_STAT_PC) := by
  have counted : rd (auCounted u n i w s) (.au u) F.AU_STAT_PC = rd s (.au u) F.AU_STAT_PC := by
    rw [auCounted, setAuState, rd_wr_num (by decide), addWrap, rd_wr_num (by decide), addWrap, rd_wr_num (by decide)]
  have noted : rd (auNoted u i w (auEffect u n i w s)) (.au u) F.AU_STAT_PC = rd s (.au u) F.AU_STAT_PC := by
    rw [auNoted, rd_setAu, auEffect, h.pc, counted]
  rw [auDone, rd_auHaltCheck (by decide), pc_auAdvance, noted, auPlaceAfter, auPlaceAfter]
  simp only [auNoted, auOf_setAu, auEffect, h.slots, h.block, auOf_auCounted]

/-- NOP (R327). -/
def instrNop : AuInstr := auPlain 0x00 (fun w => bits w 25 0 != 0) (fun _ => []) fun _ _ s => s

theorem countKept_of_keeps {i : AuInstr} {T : Nat} (h : ∀ u w x, Keeps T x (i.run u w x)) (count : T.testBit (16 + F.AU_INSNS.num % 1024) = false := by decide) :
    CountKept i := fun u w x => (h u w x).rd _ _ count

theorem flowKept_of_keeps {i : AuInstr} {T : Nat} (h : ∀ u w x, Keeps T x (i.run u w x)) (count : T.testBit (16 + F.AU_INSNS.num % 1024) = false := by decide)
    (pc : T.testBit (16 + F.AU_STAT_PC.num % 1024) = false := by decide) (units : T.testBit 7 = false := by decide) : FlowKept i where
  count := countKept_of_keeps h count
  pc u w x := (h u w x).rd _ _ pc
  slots u w x := by rw [auOf_congr ((h u w x).au units)]
  block u w x := by rw [auOf_congr ((h u w x).au units)]

/-- A post-modify writes a pointer alone (R329). -/
@[simp] theorem auOf_postModify (s : State) (u n code v : Nat) : auOf (postModify u n code s) v = auOf s v :=
  auOf_congr ((postModify_keeps (Keeps.refl _ s) (Nat.or_self _)).au (by decide)) v

theorem auOf_tapPop (s : State) (u : Nat) : auOf (tapPop u s) u =
    { auOf s u with tap := (auOf s u).tap.drop 1 ++ (if (auOf s u).lost = 0 then [] else [⟨min (auOf s u).lost 0xFFFFFFFF, 2 ^ 12, true⟩]), lost := 0 } := by
  unfold tapPop
  dsimp only
  split
  · rename_i none_lost
    rw [putAu, auOf_congr (wrs_au ..), auOf_setAu, List.append_nil, ← none_lost]
  · rw [putAu, auOf_congr (wrs_au ..), auOf_setAu]

/-- The tap has given up the entry t, and a reference that AUTOREF sets is set to it (R339, R340). -/
def tapTaken (u : Nat) (t : TapEnt) (s : State) : State :=
  let x := tapPop u s
  let y := setAu x u { auOf x u with firstRef := false }
  if rdb y (.au u) F.AU_TAP_AUTOREF && (auOf x u).firstRef then setReft u (t.value * 2 ^ 16) y else y

/-- The distance of a stamp from the reference, rounded (R340). -/
def tapDistance (u : Nat) (t : TapEnt) (s : State) : Int := (t.value : Int) - ((auReft s u + 2 ^ 15) / 2 ^ 16 : Nat)

/-- What TAPD gives of a stamp, of which the distance and the information go to registers (R340). -/
def tapGiven (u xd xe : Nat) (t : TapEnt) (s : State) : State :=
  setAuX u xe t.info (setAuX u xd (ofSigned 32 (max (-(2 ^ 31)) (min (tapDistance u t s) (2 ^ 31 - 1))))
    (if tapDistance u t s < -(2 ^ 31) || 2 ^ 31 - 1 < tapDistance u t s then wrb s (.au u) F.AU_FLAGS_TAPSAT true else s))

/-- The reference moves on by a step (R340). -/
def reftStepped (u : Nat) (s : State) : State :=
  setReft u (auReft s u + rd s (.au u) F.AU_REFSTEP * 2 ^ 16 + rd s (.au u) F.AU_REFSTEP_FRAC) s

section
variable {s : State} {u xd xe : Nat} {e : TapEnt} {rest : List TapEnt}

theorem tapTake_of_marker (h : (auOf s u).tap = e :: rest) (mark : e.mark = true) :
    tapTake u xd xe s = setAuX u xe e.info (setAuX u xd e.value (tapPop u s)) := by
  simp [tapTake, h, mark]

theorem tapTake_of_stamp (h : (auOf s u).tap = e :: rest) (mark : e.mark = false) :
    tapTake u xd xe s = reftStepped u (tapGiven u xd xe e (tapTaken u e s)) := by
  simp only [tapTake, h, mark]
  rfl

end

theorem auOf_setReft (s : State) (u v : Nat) : auOf (setReft u v s) u = auOf s u := auOf_congr (wrs_au ..) u

theorem auOf_tapTaken (u : Nat) (t : TapEnt) (s : State) : auOf (tapTaken u t s) u = { auOf (tapPop u s) u with firstRef := false } := by
  unfold tapTaken
  dsimp only
  split <;> simp only [auOf_setReft, auOf_setAu]

theorem auOf_tapGiven (u xd xe : Nat) (t : TapEnt) (s : State) : auOf (tapGiven u xd xe t s) u = auOf s u := by
  have written (k v : Nat) (t : State) : auOf (setAuX u k v t) u = auOf t u := auOf_wr ..
  rw [tapGiven, written, written]
  split
  · exact auOf_wr ..
  · rfl

/-- TAPD takes an entry from the tap and may use up the AUTOREF that is due: nothing else of the unit changes (R339, R340). -/
theorem auOf_tapTake {s : State} {u : Nat} (xd xe : Nat) {e : TapEnt} {rest : List TapEnt} (h : (auOf s u).tap = e :: rest) :
    ∃ b, auOf (tapTake u xd xe s) u = { auOf (tapPop u s) u with firstRef := b } := by
  cases mark : e.mark with
  | true => exact ⟨_, by rw [tapTake_of_marker h mark]; rfl⟩
  | false => exact ⟨false, by rw [tapTake_of_stamp h mark, reftStepped, auOf_setReft, auOf_tapGiven, auOf_tapTaken]⟩

theorem flowKept_st : FlowKept instrSt where
  count := countKept_of_keeps fun _ _ _ => instrSt_keeps
  pc _ _ _ := instrSt_keeps.rd _ _ (by decide)
  slots u w x := by simp [instrSt, auPlain, setAuData]
  block u w x := by simp [instrSt, auPlain, setAuData]

theorem flowKept_tapd : FlowKept instrTapd := by
  have flow (u xd xe : Nat) (x : State) : (auOf (tapTake u xd xe x) u).slots = (auOf x u).slots ∧ (auOf (tapTake u xd xe x) u).block = (auOf x u).block := by
    rcases h : (auOf x u).tap with _ | ⟨e, rest⟩
    · simp [tapTake, h]
    · obtain ⟨b, hb⟩ := auOf_tapTake xd xe h
      rw [hb, auOf_tapPop]
      exact ⟨rfl, rfl⟩
  exact { count := countKept_of_keeps fun _ _ _ => instrTapd_keeps
          pc := fun _ _ _ => instrTapd_keeps.rd _ _ (by decide)
          slots := fun u w x => (flow u (bits w 24 22) (bits w 21 19) x).1
          block := fun u w x => (flow u (bits w 24 22) (bits w 21 19) x).2 }

/-- The commands that compute run one instruction each, of their opcode, which leaves the flow of control to the step around it (Table 12-2). -/
theorem exec_auComputes {u waited op : Nat} {up : AuUpset} {c : Instr} (h : (c, op) ∈ auComputes u up waited) :
    ∃ n i, (∀ s, exec c s = .next (auExec u up n i s)) ∧ i.op = op ∧ FlowKept i := by
  simp only [auComputes, List.mem_cons, Prod.mk.injEq, List.not_mem_nil, or_false] at h
  rcases h with ⟨rfl, rfl⟩ | ⟨rfl, rfl⟩ | ⟨rfl, rfl⟩ | ⟨rfl, rfl⟩ | ⟨rfl, rfl⟩ | ⟨rfl, rfl⟩ | ⟨rfl, rfl⟩ | ⟨rfl, rfl⟩ | ⟨rfl, rfl⟩ | ⟨rfl, rfl⟩ | ⟨rfl, rfl⟩ |
    ⟨rfl, rfl⟩ | ⟨rfl, rfl⟩ | ⟨rfl, rfl⟩
  · exact ⟨0, instrNop, fun _ => rfl, rfl, flowKept_of_keeps fun _ _ x => Keeps.refl 0 x⟩
  · exact ⟨0, instrCmac, fun _ => rfl, rfl, flowKept_of_keeps fun _ _ _ => instrCmac_keeps⟩
  · exact ⟨0, instrCmacx, fun _ => rfl, rfl, flowKept_of_keeps fun _ _ _ => instrCmacx_keeps⟩
  · exact ⟨0, instrRnd, fun _ => rfl, rfl, flowKept_of_keeps fun _ _ _ => instrRnd_keeps⟩
  · exact ⟨0, instrMva, fun _ => rfl, rfl, flowKept_of_keeps fun _ _ _ => instrMva_keeps⟩
  · exact ⟨0, instrLd, fun _ => rfl, rfl, flowKept_of_keeps fun _ _ _ => instrLd_keeps⟩
  · exact ⟨0, instrSt, fun _ => rfl, rfl, flowKept_st⟩
  · exact ⟨0, instrLdi, fun _ => rfl, rfl, flowKept_of_keeps fun _ _ _ => instrLdi_keeps⟩
  · exact ⟨0, instrAlu, fun _ => rfl, rfl, flowKept_of_keeps fun _ _ _ => instrAlu_keeps⟩
  · exact ⟨0, instrAddi, fun _ => rfl, rfl, flowKept_of_keeps fun _ _ _ => instrAddi_keeps⟩
  · exact ⟨0, instrLda, fun _ => rfl, rfl, flowKept_of_keeps fun _ _ _ => instrLda_keeps⟩
  · exact ⟨waited, instrTapd, fun _ => rfl, rfl, flowKept_tapd⟩
  · exact ⟨0, instrSig, fun _ => rfl, rfl, flowKept_of_keeps fun _ _ _ => instrSig_keeps⟩
  · exact ⟨0, instrClrf, fun _ => rfl, rfl, flowKept_of_keeps fun _ _ _ => instrClrf_keeps⟩

/-- The commands of control flow, repeats and waits run one instruction each, of their opcode, which leaves the count to the step around it (Table 12-2). -/
theorem exec_auFlows {u waited op : Nat} {up : AuUpset} {c : Instr} (h : (c, op) ∈ auFlows u up waited) :
    ∃ n i, (∀ s, exec c s = .next (auExec u up n i s)) ∧ i.op = op ∧ CountKept i := by
  simp only [auFlows, List.mem_cons, Prod.mk.injEq, List.not_mem_nil, or_false] at h
  rcases h with ⟨rfl, rfl⟩ | ⟨rfl, rfl⟩ | ⟨rfl, rfl⟩ | ⟨rfl, rfl⟩ | ⟨rfl, rfl⟩ | ⟨rfl, rfl⟩ | ⟨rfl, rfl⟩ | ⟨rfl, rfl⟩ | ⟨rfl, rfl⟩
  · exact ⟨0, instrBr, fun _ => rfl, rfl, countKept_of_keeps fun _ _ _ => instrBr_keeps⟩
  · exact ⟨0, instrCall, fun _ => rfl, rfl, countKept_of_keeps fun _ _ _ => instrCall_keeps⟩
  · exact ⟨0, instrRet, fun _ => rfl, rfl, countKept_of_keeps fun _ _ _ => instrRet_keeps⟩
  · exact ⟨0, instrReti, fun _ => rfl, rfl, countKept_of_keeps fun _ _ _ => instrReti_keeps⟩
  · exact ⟨0, instrRpt, fun _ => rfl, rfl, countKept_of_keeps fun _ _ _ => instrRpt_keeps⟩
  · exact ⟨0, instrRptr, fun _ => rfl, rfl, countKept_of_keeps fun _ _ _ => instrRptr_keeps⟩
  · exact ⟨0, instrRptb, fun _ => rfl, rfl, countKept_of_keeps fun _ _ _ => instrRptb_keeps⟩
  · exact ⟨waited, instrWait, fun _ => rfl, rfl, countKept_of_keeps fun _ _ _ => instrWait_keeps⟩
  · exact ⟨0, instrHalt, fun _ => rfl, rfl, countKept_of_keeps fun _ _ _ => instrHalt_keeps⟩

/-- An instruction that completes counts one (R328). -/
theorem insns_of_completes {s : State} {u n w op : Nat} {up : AuUpset} {i : AuInstr} (h : AuAt s u up w op) (hop : i.op = op) (kept : CountKept i)
    (free : auState (auExec u up n i s) u ≠ 2) (sound : auState (auExec u up n i s) u ≠ 3) :
    rd (auExec u up n i s) (.au u) F.AU_INSNS = (rd s (.au u) F.AU_INSNS + 1) % 2 ^ 64 := by
  rcases auEnds_auExec n h hop with waits | faults | done
  · exact absurd waits free
  · exact absurd faults sound
  · rw [done, insns_auDone kept]

/-- An instruction that computes and completes goes on at the place after it (R334, R335). -/
theorem pc_of_completes {s : State} {u n w op : Nat} {up : AuUpset} {i : AuInstr} (h : AuAt s u up w op) (hop : i.op = op) (kept : FlowKept i)
    (free : auState (auExec u up n i s) u ≠ 2) (sound : auState (auExec u up n i s) u ≠ 3) :
    rd (auExec u up n i s) (.au u) F.AU_STAT_PC = auPlaceAfter (auOf s u) (rd s (.au u) F.AU_STAT_PC) := by
  rcases auEnds_auExec n h hop with waits | faults | done
  · exact absurd waits free
  · exact absurd faults sound
  · rw [done, pc_auDone kept]

/-- The rule for one instruction that a unit accepts: the command answers the state in which it has been carried out. -/
theorem exec_of_accepts {s : State} {u w op : Nat} {up : AuUpset} {c : Instr} {n : Nat} {i : AuInstr} (h : AuAt s u up w op) (runs : exec c s = .next (auExec u up n i s))
    (ok : AuAccepts i s u w) (hop : i.op = op := by rfl) : exec c s = .next (auDone u n i w s) := by
  rw [runs, auExec_of_accepts n h hop ok]

/-! ### Post-modified pointers (R329) -/

/-- The step of a post-modify. -/
def arStep (code mod : Nat) : Int := if code = 1 then 1 else if code = 2 then -1 else if code = 3 then toSigned 14 mod else 0

/-- Where a post-modify leaves a pointer: unmoved, moved modulo 2^14, or within its buffer. -/
def arNext (code ptr base len mod : Nat) : Int :=
  if code = 0 then ptr else if len = 0 then ((ptr : Int) + arStep code mod) % 16384 else ((base : Int) + ((ptr : Int) - base + arStep code mod) % len) % 16384

theorem fldKey_AU_AR_PTR {u j k : Nat} (h : j ≠ k) : fldKey (.au u) (F.AU_AR_PTR j) ≠ fldKey (.au u) (F.AU_AR_PTR k) := by
  simp only [fldKey, F.AU_AR_PTR]
  omega

theorem arPtr_postModify_self (s : State) (u n code : Nat) :
    (arPtr (postModify u n code s) u n : Int) = arNext code (arPtr s u n) (rd s (.au u) (F.AU_AR_BASE n)) (rd s (.au u) (F.AU_AR_LEN n)) (rd s (.au u) (F.AU_AR_MOD n)) := by
  have width : (F.AU_AR_PTR n).width = 14 := rfl
  have written (x : Int) : (arPtr (wr s (.au u) (F.AU_AR_PTR n) (x % 16384).toNat) u n : Int) = x % 16384 := by
    rw [arPtr, rd_wr_self, width]
    omega
  rcases code with _ | _ | _ | _ | more
  case zero => rfl
  all_goals
    by_cases whole : rd s (.au u) (F.AU_AR_LEN n) = 0 <;> simp [postModify, arNext, arStep, whole, written]

theorem arPtr_postModify_other (s : State) {u m n : Nat} (h : m ≠ n) (code : Nat) : arPtr (postModify u n code s) u m = arPtr s u m := by
  unfold postModify
  dsimp only
  split
  · rfl
  · exact rd_wr_other (fldKey_AU_AR_PTR h)

theorem rd_postModify {s : State} {u n code : Nat} {p : Page} {f : Fld} (h : apart f (F.AU_AR_PTR n) = true) : rd (postModify u n code s) p f = rd s p f := by
  unfold postModify
  dsimp only
  split
  · rfl
  · exact rd_wr_apart h

/-- Two states agree on the address registers of a unit. -/
structure SameAr (u : Nat) (s t : State) : Prop where
  ptr : ∀ n, arPtr t u n = arPtr s u n
  base : ∀ n, rd t (.au u) (F.AU_AR_BASE n) = rd s (.au u) (F.AU_AR_BASE n)
  len : ∀ n, rd t (.au u) (F.AU_AR_LEN n) = rd s (.au u) (F.AU_AR_LEN n)
  mod : ∀ n, rd t (.au u) (F.AU_AR_MOD n) = rd s (.au u) (F.AU_AR_MOD n)

/-- A post-modify depends on the address registers alone. -/
theorem SameAr.postModify {u : Nat} {s t : State} (h : SameAr u s t) (n code : Nat) : SameAr u (postModify u n code s) (postModify u n code t) where
  ptr m := by
    by_cases e : m = n
    · subst e
      have moved := arPtr_postModify_self t u m code
      rw [h.ptr, h.base, h.len, h.mod, ← arPtr_postModify_self] at moved
      exact_mod_cast moved
    · rw [arPtr_postModify_other _ e, arPtr_postModify_other _ e, h.ptr]
  base m := by rw [rd_postModify rfl, rd_postModify rfl, h.base]
  len m := by rw [rd_postModify rfl, rd_postModify rfl, h.len]
  mod m := by rw [rd_postModify rfl, rd_postModify rfl, h.mod]

/-- A bit that is clear, as a part of its word. -/
theorem bits_eq_zero_of_testBit {v k : Nat} (h : v.testBit k = false) : bits v k k = 0 := by
  refine Nat.zero_of_testBit_eq_false fun j => ?_
  rw [testBit_bits]
  by_cases e : j = 0
  · simp [e, h]
  · simp [e]

/-! ### The multiply-accumulate instructions (R331, R332, R343) -/

theorem not_isCu {u : Nat} (h : u < 17) : isCu u = false := decide_eq_false (Nat.not_le.2 h)

theorem isCu_iff {u : Nat} : isCu u = true ↔ 17 ≤ u := by simp [isCu]

/-- A unit's accumulator with the parts that are kept of exact sums; a calibration unit has real parts only (R343). -/
def accStored (u w : Nat) (re im : Int) (s : State) : State :=
  let t := wr s (.au u) (F.AU_A_RE (bits w 25 25)) (accKeep (rdb s (.au u) F.AU_CTRL_SAT_EN) re)
  if isCu u then t else wr t (.au u) (F.AU_A_IM (bits w 25 25)) (accKeep (rdb s (.au u) F.AU_CTRL_SAT_EN) im)

/-- The flag of the accumulator that an instruction names. -/
def ovfFlag (w : Nat) : Fld := if bits w 25 25 = 0 then F.AU_FLAGS_OVF_A0 else F.AU_FLAGS_OVF_A1

/-- The exact sum of the real parts. -/
def accRe (u w : Nat) (prod : Int × Int) (s : State) : Int := accSum w (toSigned 40 (rd s (.au u) (F.AU_A_RE (bits w 25 25)))) prod.1

/-- The exact sum of the imaginary parts. -/
def accIm (u w : Nat) (prod : Int × Int) (s : State) : Int := accSum w (toSigned 40 (rd s (.au u) (F.AU_A_IM (bits w 25 25)))) prod.2

/-- An accumulate keeps what fits of the exact sums; a sum beyond 40 bits raises the flag and the interrupt (R332). -/
theorem accumulate_eq (u w : Nat) (prod : Int × Int) (s : State) :
    accumulate u w prod s =
      if accOut (accRe u w prod s) || (!isCu u && accOut (accIm u w prod s)) then
        raiseInt (wrb (accStored u w (accRe u w prod s) (accIm u w prod s) s) (.au u) (ovfFlag w) true) (.au u) 12
      else accStored u w (accRe u w prod s) (accIm u w prod s) s := rfl

theorem flowless_ovfFlag (w : Nat) : flowless (ovfFlag w) = true := by unfold ovfFlag; split <;> rfl

theorem apart_ovfFlag (w n : Nat) : apart (ovfFlag w) (F.AU_AR_PTR n) = true := by unfold ovfFlag; split <;> rfl

/-- The parts of the accumulators, as any field that neither an event nor an overflow flag shares, are those stored. -/
theorem rd_accumulate {u w : Nat} {prod : Int × Int} {s : State} {p : Page} {f : Fld} (still : quiet f = true) (a0 : apart f F.AU_FLAGS_OVF_A0 = true)
    (a1 : apart f F.AU_FLAGS_OVF_A1 = true) : rd (accumulate u w prod s) p f = rd (accStored u w (accRe u w prod s) (accIm u w prod s) s) p f := by
  rw [accumulate_eq]
  split
  · rw [rd_raiseInt still, wrb]
    unfold ovfFlag
    split
    · exact rd_wr_apart a0
    · exact rd_wr_apart a1
  · rfl

theorem fldKey_AU_A_RE {u j k : Nat} (h : j ≠ k) : fldKey (.au u) (F.AU_A_RE j) ≠ fldKey (.au u) (F.AU_A_RE k) := by
  simp only [fldKey, F.AU_A_RE]
  omega

theorem fldKey_AU_A_IM {u j k : Nat} (h : j ≠ k) : fldKey (.au u) (F.AU_A_IM j) ≠ fldKey (.au u) (F.AU_A_IM k) := by
  simp only [fldKey, F.AU_A_IM]
  omega

section
variable (u w : Nat) (prod : Int × Int) (s : State)

theorem re_accumulate : rd (accumulate u w prod s) (.au u) (F.AU_A_RE (bits w 25 25)) = accKeep (rdb s (.au u) F.AU_CTRL_SAT_EN) (accRe u w prod s) := by
  rw [rd_accumulate rfl rfl rfl, accStored]
  have stored := (rd_wr_self s (.au u) (F.AU_A_RE (bits w 25 25)) (accKeep (rdb s (.au u) F.AU_CTRL_SAT_EN) (accRe u w prod s))).trans
    (Nat.mod_eq_of_lt (accKeep_lt ..))
  exact rd_ite stored ((rd_wr_apart rfl).trans stored)

theorem im_accumulate (complex : isCu u = false) :
    rd (accumulate u w prod s) (.au u) (F.AU_A_IM (bits w 25 25)) = accKeep (rdb s (.au u) F.AU_CTRL_SAT_EN) (accIm u w prod s) := by
  rw [rd_accumulate rfl rfl rfl, accStored, complex]
  exact (rd_wr_self ..).trans (Nat.mod_eq_of_lt (accKeep_lt ..))

/-- The other accumulator is left alone. -/
theorem other_accumulate {a : Nat} (h : a ≠ bits w 25 25) :
    rd (accumulate u w prod s) (.au u) (F.AU_A_RE a) = rd s (.au u) (F.AU_A_RE a) ∧ rd (accumulate u w prod s) (.au u) (F.AU_A_IM a) = rd s (.au u) (F.AU_A_IM a) := by
  rw [rd_accumulate rfl rfl rfl, rd_accumulate rfl rfl rfl, accStored]
  have re : rd (wr s (.au u) (F.AU_A_RE (bits w 25 25)) (accKeep (rdb s (.au u) F.AU_CTRL_SAT_EN) (accRe u w prod s))) (.au u) (F.AU_A_RE a) = rd s (.au u) (F.AU_A_RE a) :=
    rd_wr_other (fldKey_AU_A_RE h)
  exact ⟨rd_ite re ((rd_wr_apart rfl).trans re), rd_ite (rd_wr_apart rfl) ((rd_wr_other (fldKey_AU_A_IM h)).trans (rd_wr_apart rfl))⟩

/-- A sum beyond 40 bits raises the interrupt and the flag of its accumulator (R332). -/
theorem overflow_accumulate (out : (accOut (accRe u w prod s) || (!isCu u && accOut (accIm u w prod s))) = true) :
    (rd (accumulate u w prod s) (.au u) F.INT_RAW).testBit 12 = true ∧ rd (accumulate u w prod s) (.au u) (ovfFlag w) = 1 := by
  rw [accumulate_eq, if_pos out]
  refine ⟨raised_raiseInt _ _ _ (by decide), ?_⟩
  unfold ovfFlag
  split
  · rw [rd_raiseInt rfl, wrb, rd_wr_self]; rfl
  · rw [rd_raiseInt rfl, wrb, rd_wr_self]; rfl

theorem sameAr_accumulate : SameAr u s (accumulate u w prod s) :=
  have kept := accumulate_keeps (u := u) (w := w) (prod := prod) (Keeps.refl _ s) (Nat.or_self _)
  { ptr := kept.rd_array (.au u) F.AU_AR_PTR, base := kept.rd_array (.au u) F.AU_AR_BASE, len := kept.rd_array (.au u) F.AU_AR_LEN, mod := kept.rd_array (.au u) F.AU_AR_MOD }

end

theorem SameAr.trans {u : Nat} {r s t : State} (h : SameAr u r s) (h' : SameAr u s t) : SameAr u r t where
  ptr n := (h'.ptr n).trans (h.ptr n)
  base n := (h'.base n).trans (h.base n)
  len n := (h'.len n).trans (h.len n)
  mod n := (h'.mod n).trans (h.mod n)

theorem sameAr_auCounted (s : State) (u n : Nat) (i : AuInstr) (w : Nat) : SameAr u s (auCounted u n i w s) where
  ptr _ := rd_auCounted rfl
  base _ := rd_auCounted rfl
  len _ := rd_auCounted rfl
  mod _ := rd_auCounted rfl

/-- The pointers of CMAC, and the one of CMACX, move on. -/
def macMove (u w op : Nat) (s : State) : State :=
  postModify u (bits w 16 14) (bits w 13 12) (if op = 1 then postModify u (bits w 21 19) (bits w 18 17) s else s)

theorem rd_macMove {u w op : Nat} {s : State} {p : Page} {f : Fld} (h : ∀ n, apart f (F.AU_AR_PTR n) = true) : rd (macMove u w op s) p f = rd s p f := by
  rw [macMove, rd_postModify (h _)]
  exact rd_ite (rd_postModify (h _)) rfl

theorem SameAr.macMove {u : Nat} {s t : State} (h : SameAr u s t) (w op : Nat) : SameAr u (macMove u w op s) (macMove u w op t) := by
  unfold Machine.macMove
  split
  · exact (h.postModify _ _).postModify _ _
  · exact h.postModify _ _

section
variable (u w : Nat) (s : State)

theorem run_cmac : instrCmac.run u w s =
    macMove u w 1 (accumulate u w (auProduct u (auData s u (arPtr s u (bits w 21 19))) (auData s u (arPtr s u (bits w 16 14))) w) s) := by
  simp only [instrCmac, auPlain, macMove, if_true]

theorem run_cmacx : instrCmacx.run u w s =
    macMove u w 2 (accumulate u w (auProduct u (auX s u (bits w 21 19)) (auData s u (arPtr s u (bits w 16 14))) w) s) := by
  simp only [instrCmacx, auPlain, macMove, OfNat.ofNat_ne_one, if_false]

end

/-- The effect of a multiply-accumulate instruction with the factors x and y (Table 12-2). -/
def MacEffect (s : State) (u w op x y : Nat) (i : AuInstr) : Prop :=
  auEffect u 0 i w s = macMove u w op (accumulate u w (auProduct u x y w) (auCounted u 0 i w s))

/-- CMAC takes both factors from the data memory, CMACX one from a register. -/
theorem exec_mac {s : State} {u w op x : Nat} {up : AuUpset} {c : Instr} (here : AuAt s u up w op) (operands : bits w 11 0 = 0) (real : 17 ≤ u → w.testBit 25 = false)
    (row : c = .cmac u up ∧ op = 1 ∧ x = auData s u (arPtr s u (bits w 21 19)) ∨ c = .cmacx u up ∧ op = 2 ∧ bits w 18 17 = 0 ∧ x = auX s u (bits w 21 19)) :
    ∃ i, exec c s = .next (auDone u 0 i w s) ∧ MacEffect s u w op x (auData s u (arPtr s u (bits w 16 14))) i := by
  rcases row with ⟨rfl, rfl, rfl⟩ | ⟨rfl, rfl, unmoved, rfl⟩
  · have ok : AuAccepts instrCmac s u w := { encoding := by simp [instrCmac, auPlain, operands], calUnit := fun h => real (isCu_iff.1 h) }
    refine ⟨instrCmac, exec_of_accepts here rfl ok, ?_⟩
    rw [MacEffect, auEffect, run_cmac]
    simp only [auData_auCounted, arPtr_auCounted]
  · have ok : AuAccepts instrCmacx s u w := { encoding := by simp [instrCmacx, auPlain, operands, unmoved], calUnit := fun h => real (isCu_iff.1 h) }
    refine ⟨instrCmacx, exec_of_accepts here rfl ok, ?_⟩
    rw [MacEffect, auEffect, run_cmacx]
    simp only [auData_auCounted, arPtr_auCounted, auX_auCounted]

/-- The product of two complex words (R331). -/
theorem auProduct_complex {u x y w : Nat} {bi : Int} (complex : u < 17) (hbi : bi = if w.testBit 22 then -toSigned 16 (y / 2 ^ 16) else toSigned 16 (y / 2 ^ 16)) :
    auProduct u x y w = (toSigned 16 x * toSigned 16 y - toSigned 16 (x / 2 ^ 16) * bi, toSigned 16 x * bi + toSigned 16 (x / 2 ^ 16) * toSigned 16 y) := by
  rw [auProduct, not_isCu complex, hbi]
  rfl

section
variable {s : State} {u w op x y : Nat} {i : AuInstr}

theorem MacEffect.rd_auDone (h : MacEffect s u w op x y i) {f : Fld} (flow : flowless f = true) (ptr : ∀ n, apart f (F.AU_AR_PTR n) = true) :
    rd (auDone u 0 i w s) (.au u) f = rd (accumulate u w (auProduct u x y w) (auCounted u 0 i w s)) (.au u) f := by
  rw [Machine.rd_auDone flow, h, rd_macMove ptr]

theorem MacEffect.re (h : MacEffect s u w op x y i) : PartIs (rd (auDone u 0 i w s) (.au u) (F.AU_A_RE (bits w 25 25))) (rdb s (.au u) F.AU_CTRL_SAT_EN)
    (accSum w (toSigned 40 (rd s (.au u) (F.AU_A_RE (bits w 25 25)))) (auProduct u x y w).1) := by
  rw [h.rd_auDone rfl fun _ => rfl, re_accumulate, accRe, rdb_auCounted rfl, rd_auCounted rfl]
  exact partIs_accKeep ..

theorem MacEffect.im (h : MacEffect s u w op x y i) (complex : u < 17) : PartIs (rd (auDone u 0 i w s) (.au u) (F.AU_A_IM (bits w 25 25))) (rdb s (.au u) F.AU_CTRL_SAT_EN)
    (accSum w (toSigned 40 (rd s (.au u) (F.AU_A_IM (bits w 25 25)))) (auProduct u x y w).2) := by
  rw [h.rd_auDone rfl fun _ => rfl, im_accumulate _ _ _ _ (not_isCu complex), accIm, rdb_auCounted rfl, rd_auCounted rfl]
  exact partIs_accKeep ..

/-- A sum beyond 40 bits raises the interrupt and the flag of its accumulator (R332). -/
theorem MacEffect.overflow (h : MacEffect s u w op x y i) (complex : u < 17)
    (out : accOut (accSum w (toSigned 40 (rd s (.au u) (F.AU_A_RE (bits w 25 25)))) (auProduct u x y w).1) = true ∨
      accOut (accSum w (toSigned 40 (rd s (.au u) (F.AU_A_IM (bits w 25 25)))) (auProduct u x y w).2) = true) :
    (rd (auDone u 0 i w s) (.au u) F.INT_RAW).testBit 12 = true ∧ rd (auDone u 0 i w s) (.au u) (ovfFlag w) = 1 := by
  rw [h.rd_auDone rfl fun _ => rfl, h.rd_auDone (flowless_ovfFlag w) (apart_ovfFlag w)]
  apply overflow_accumulate
  rw [not_isCu complex, accRe, accIm, rd_auCounted rfl, rd_auCounted rfl]
  simpa using out

theorem MacEffect.other (h : MacEffect s u w op x y i) {a : Nat} (ha : a ≠ bits w 25 25) :
    rd (auDone u 0 i w s) (.au u) (F.AU_A_RE a) = rd s (.au u) (F.AU_A_RE a) ∧ rd (auDone u 0 i w s) (.au u) (F.AU_A_IM a) = rd s (.au u) (F.AU_A_IM a) := by
  obtain ⟨re, im⟩ := other_accumulate u w (auProduct u x y w) (auCounted u 0 i w s) ha
  rw [h.rd_auDone rfl fun _ => rfl, h.rd_auDone rfl fun _ => rfl, re, im, rd_auCounted rfl, rd_auCounted rfl]
  exact ⟨rfl, rfl⟩

theorem MacEffect.arPtr (h : MacEffect s u w op x y i) (n : Nat) : arPtr (auDone u 0 i w s) u n = arPtr (macMove u w op s) u n := by
  have moved := ((sameAr_auCounted s u 0 i w).trans (sameAr_accumulate u w (auProduct u x y w) _)).macMove w op
  rw [arPtr_auDone, h, moved.ptr]

end

/-! ### The rounding and the moving instructions (R333) -/

/-- The real part that RND gives, and whether it saturated. -/
def rndRe (u w : Nat) (s : State) : Nat × Bool := round16 (toSigned 40 (rd s (.au u) (F.AU_A_RE (bits w 25 25)))) (bits w 21 16)

/-- The imaginary part that RND gives, and whether it saturated: 0 in a calibration unit (R343). -/
def rndIm (u w : Nat) (s : State) : Nat × Bool := if isCu u then (0, false) else round16 (toSigned 40 (rd s (.au u) (F.AU_A_IM (bits w 25 25)))) (bits w 21 16)

/-- The register that RND writes. -/
def rndStored (u w : Nat) (s : State) : State := setAuX u (bits w 24 22) ((rndRe u w s).1 + (rndIm u w s).1 * 2 ^ 16) s

theorem run_rnd (u w : Nat) (s : State) : instrRnd.run u w s =
    if (rndRe u w s).2 || (rndIm u w s).2 then wrb (rndStored u w s) (.au u) F.AU_FLAGS_RSAT true else rndStored u w s := by
  unfold rndStored rndRe rndIm
  rfl

theorem round16_lt (v : Int) (sh : Nat) : (round16 v sh).1 < 2 ^ 16 := by rw [round16_fst]; exact ofSigned_lt 16 _

theorem rndIm_eq (u w : Nat) (s : State) :
    rndIm u w s = if u < 17 then round16 (toSigned 40 (rd s (.au u) (F.AU_A_IM (bits w 25 25)))) (bits w 21 16) else (0, false) := by
  by_cases complex : u < 17
  · rw [rndIm, not_isCu complex, if_pos complex]
    rfl
  · rw [rndIm, isCu_iff.2 (Nat.not_lt.1 complex), if_neg complex]
    rfl

theorem rndIm_lt (u w : Nat) (s : State) : (rndIm u w s).1 < 2 ^ 16 := by
  unfold rndIm
  split
  · decide
  · exact round16_lt ..

section
variable (u w : Nat) (s : State)

/-- The register that RND writes holds both parts. -/
theorem auX_rnd : auX (instrRnd.run u w s) u (bits w 24 22) = (rndRe u w s).1 + (rndIm u w s).1 * 2 ^ 16 := by
  have re : (rndRe u w s).1 < 2 ^ 16 := round16_lt ..
  have im := rndIm_lt u w s
  have stored : auX (rndStored u w s) u (bits w 24 22) = (rndRe u w s).1 + (rndIm u w s).1 * 2 ^ 16 := by
    rw [rndStored, auX_setAuX_self]
    omega
  rw [run_rnd]
  exact rd_ite ((rd_wr_apart rfl).trans stored) stored

theorem low_rnd : toSigned 16 (auX (instrRnd.run u w s) u (bits w 24 22)) =
    max (-32768) (min (roundHalfEven (toSigned 40 (rd s (.au u) (F.AU_A_RE (bits w 25 25)))) (bits w 21 16)) 32767) := by
  rw [auX_rnd, toSigned_low, rndRe, round16_fst, toSigned_ofSigned_clamp16]

theorem high_rnd : toSigned 16 (auX (instrRnd.run u w s) u (bits w 24 22) / 2 ^ 16) =
    if u < 17 then max (-32768) (min (roundHalfEven (toSigned 40 (rd s (.au u) (F.AU_A_IM (bits w 25 25)))) (bits w 21 16)) 32767) else 0 := by
  have low : (rndRe u w s).1 < 2 ^ 16 := round16_lt ..
  rw [auX_rnd, Nat.add_mul_div_right _ _ (by decide), Nat.div_eq_of_lt low, Nat.zero_add, rndIm_eq]
  split
  · rw [round16_fst, toSigned_ofSigned_clamp16]
  · rfl

/-- RSAT is set where a part that the unit has saturated, and else stays (R333). -/
theorem rsat_rnd {re im : Int} (hre : re = roundHalfEven (toSigned 40 (rd s (.au u) (F.AU_A_RE (bits w 25 25)))) (bits w 21 16))
    (him : im = roundHalfEven (toSigned 40 (rd s (.au u) (F.AU_A_IM (bits w 25 25)))) (bits w 21 16)) : rd (instrRnd.run u w s) (.au u) F.AU_FLAGS_RSAT =
      if re < -32768 ∨ 32767 < re ∨ (u < 17 ∧ (im < -32768 ∨ 32767 < im)) then 1 else rd s (.au u) F.AU_FLAGS_RSAT := by
  have saturated : ((rndRe u w s).2 || (rndIm u w s).2) = true ↔ re < -32768 ∨ 32767 < re ∨ (u < 17 ∧ (im < -32768 ∨ 32767 < im)) := by
    rw [rndRe, rndIm_eq, apply_ite Prod.snd, round16_snd, round16_snd, ← hre, ← him]
    by_cases complex : u < 17 <;> simp [complex, or_assoc]
  rw [run_rnd]
  by_cases sat : ((rndRe u w s).2 || (rndIm u w s).2) = true
  · rw [if_pos sat, if_pos (saturated.1 sat)]
    exact rd_wr_self ..
  · rw [if_neg sat, if_neg (mt saturated.2 sat)]
    exact rd_wr_apart rfl

end

theorem run_mva (u w : Nat) (s : State) : instrMva.run u w s =
    let v := rd s (.au u) (if bits w 21 20 < 2 then F.AU_A_RE (bits w 25 25) else F.AU_A_IM (bits w 25 25))
    setAuX u (bits w 24 22) (if bits w 21 20 % 2 = 0 then v % 2 ^ 32 else ofSigned 32 (toSigned 8 (v / 2 ^ 32))) s := rfl

section
variable (u w : Nat) (s : State)

theorem run_ld : instrLd.run u w s = postModify u (bits w 21 19) (bits w 18 17) (setAuX u (bits w 24 22) (auData s u (arPtr s u (bits w 21 19))) s) := rfl

theorem run_st : instrSt.run u w s = postModify u (bits w 21 19) (bits w 18 17) (setAuData u (arPtr s u (bits w 21 19)) (auX s u (bits w 24 22)) s) := rfl

end

@[simp] theorem auX_postModify (s : State) (u n code k : Nat) : auX (postModify u n code s) u k = auX s u k := rd_postModify rfl

@[simp] theorem auData_postModify (s : State) (u n code a : Nat) : auData (postModify u n code s) u a = auData s u a := by
  rw [auData, auOf_postModify, auData]

theorem sameAr_setAuX (s : State) (u k v : Nat) : SameAr u s (setAuX u k v s) where
  ptr _ := rd_wr_apart rfl
  base _ := rd_wr_apart rfl
  len _ := rd_wr_apart rfl
  mod _ := rd_wr_apart rfl

theorem sameAr_setAuData (s : State) (u a v : Nat) : SameAr u s (setAuData u a v s) := ⟨fun _ => rfl, fun _ => rfl, fun _ => rfl, fun _ => rfl⟩

/-! ### Registers, flags and address registers -/

theorem run_ldi (u w : Nat) (s : State) : instrLdi.run u w s =
    setAuX u (bits w 24 22) (if w.testBit 21 then bits w 15 0 * 2 ^ 16 + auX s u (bits w 24 22) % 2 ^ 16 else bits w 15 0) s := rfl

section
variable (u v : Nat) (s : State)

theorem rd_setZN {f : Fld} (z : apart f F.AU_FLAGS_Z = true) (n : apart f F.AU_FLAGS_N = true) : rd (setZN u v s) (.au u) f = rd s (.au u) f := by
  rw [setZN, wrs_cons, wrs_cons, wrs_nil, rd_wr_apart n, rd_wr_apart z]

/-- Z says whether a result of 32 bits is 0 (Table 12-1). -/
theorem z_setZN {v : Nat} (h : v < 2 ^ 32) : rdb (setZN u v s) (.au u) F.AU_FLAGS_Z = decide (v = 0) := by
  rw [rdb, setZN, wrs_cons, wrs_cons, wrs_nil, rd_wr_apart rfl, rd_wr_self, Nat.mod_eq_of_lt h]
  by_cases e : v = 0 <;> simp [e, b2n, F.AU_FLAGS_Z]

/-- N is the sign of a result of 32 bits (Table 12-1). -/
theorem n_setZN : rdb (setZN u v s) (.au u) F.AU_FLAGS_N = v.testBit 31 := by
  rw [rdb, setZN, wrs_cons, wrs_cons, wrs_nil, rd_wr_self, show F.AU_FLAGS_N.width = 1 from rfl, pow_one, Nat.mod_mod, Nat.testBit_eq_decide_div_mod_eq]
  rfl

theorem auX_setZN (k : Nat) : auX (setZN u v s) u k = auX s u k := rd_setZN u v s rfl rfl

end

theorem run_alu {u w fn v : Nat} {s : State} (hfn : fn = bits w 25 22) (h : aluResult fn (auX s u (bits w 18 16)) (auX s u (bits w 15 13)) = v) :
    instrAlu.run u w s = setZN u v (if fn = 8 then s else setAuX u (bits w 21 19) v s) := by
  simp only [instrAlu, auPlain, ← hfn, h]

theorem run_addi {u w v : Nat} {s : State} (h : ofSigned 32 ((auX s u (bits w 24 22) : Int) + toSigned 16 (bits w 15 0)) = v) :
    instrAddi.run u w s = setZN u v (setAuX u (bits w 24 22) v s) := by
  simp only [instrAddi, auPlain, h]

/-- The field of an address register that LDA names (R330). -/
def ldaField (k n : Nat) : Fld := if k = 0 then F.AU_AR_PTR n else if k = 1 then F.AU_AR_BASE n else if k = 2 then F.AU_AR_LEN n else F.AU_AR_MOD n

theorem run_lda (u w : Nat) (s : State) : instrLda.run u w s =
    wr s (.au u) (ldaField (bits w 22 21) (bits w 25 23)) (if w.testBit 20 then auX s u (bits w 16 14) % 2 ^ 14 else bits w 13 0) := by
  have named : bits w 22 21 < 4 := bits_lt w 22 21
  simp only [instrLda, auPlain]
  interval_cases bits w 22 21 <;> rfl

theorem ldaField_num {k : Nat} (hk : k < 4) (n : Nat) : (ldaField k n).num = 434 + k := by interval_cases k <;> rfl

theorem ldaField_width {k : Nat} (hk : k < 4) (n : Nat) : (ldaField k n).width = 14 := by interval_cases k <;> rfl

theorem flowless_ldaField {k : Nat} (hk : k < 4) (n : Nat) : flowless (ldaField k n) = true := by interval_cases k <;> rfl

/-- LDA writes the field that it names, and leaves the others of the address register alone. -/
theorem rd_lda {s : State} {u k j n v x : Nat} (hk : k < 4) (hj : j < 4) (hx : x % 2 ^ 14 = v) :
    rd (wr s (.au u) (ldaField k n) x) (.au u) (ldaField j n) = if k = j then v else rd s (.au u) (ldaField j n) := by
  by_cases e : k = j
  · rw [if_pos e, e, rd_wr_self, ldaField_width hj, hx]
  · rw [if_neg e]
    refine rd_wr_num ?_
    rw [ldaField_num hk, ldaField_num hj]
    omega

/-! ### The tap (R339, R340) -/

theorem rd_setReft {s : State} {u v : Nat} {p : Page} {f : Fld} (whole : apart f F.AU_REFT = true) (frac : apart f F.AU_REFT_FRAC = true) :
    rd (setReft u v s) p f = rd s p f := by
  rw [setReft, wrs_cons, wrs_cons, wrs_nil, rd_wr_apart frac, rd_wr_apart whole]

@[simp] theorem auX_setReft (s : State) (u v k : Nat) : auX (setReft u v s) u k = auX s u k := rd_setReft rfl rfl

/-- The reference holds 64 bits and 16 of its fraction. -/
theorem auReft_setReft (s : State) (u v : Nat) : auReft (setReft u v s) u = v % 2 ^ 80 := by
  rw [auReft, setReft, wrs_cons, wrs_cons, wrs_nil, rd_wr_apart rfl, rd_wr_self, rd_wr_self]
  simp only [F.AU_REFT, F.AU_REFT_FRAC]
  omega

theorem auReft_congr {s t : State} {u : Nat} (whole : rd t (.au u) F.AU_REFT = rd s (.au u) F.AU_REFT) (frac : rd t (.au u) F.AU_REFT_FRAC = rd s (.au u) F.AU_REFT_FRAC) :
    auReft t u = auReft s u := by rw [auReft, whole, frac, auReft]

theorem auReft_auCounted (s : State) (u n : Nat) (i : AuInstr) (w : Nat) : auReft (auCounted u n i w s) u = auReft s u :=
  auReft_congr (rd_auCounted rfl) (rd_auCounted rfl)

theorem auReft_auDone (s : State) (u n : Nat) (i : AuInstr) (w : Nat) : auReft (auDone u n i w s) u = auReft (auEffect u n i w s) u :=
  auReft_congr (rd_auDone rfl) (rd_auDone rfl)

theorem rd_tapPop {s : State} {u : Nat} {p : Page} {f : Fld} (depth : apart f F.AU_STAT_DEPTH = true) (level : apart f F.AU_TAP_STAT_LEVEL = true) :
    rd (tapPop u s) p f = rd s p f := by
  have put (x : Au) : rd (putAu u x s) p f = rd s p f := by
    rw [putAu, wrs_cons, wrs_cons, wrs_nil, rd_wr_apart level, rd_wr_apart depth, rd_setAu]
  unfold tapPop
  exact rd_ite (put _) (put _)

/-- The reference that a stamp is measured against: with AUTOREF due, the stamp itself (R340). -/
theorem auReft_tapTaken {s : State} {u : Nat} {t : TapEnt} (range : t.value < 2 ^ 64) :
    auReft (tapTaken u t s) u = if rdb s (.au u) F.AU_TAP_AUTOREF && (auOf s u).firstRef then t.value * 2 ^ 16 else auReft s u := by
  have auto (x : Au) : rdb (setAu (tapPop u s) u x) (.au u) F.AU_TAP_AUTOREF = rdb s (.au u) F.AU_TAP_AUTOREF := by
    rw [rdb, rd_setAu, rd_tapPop rfl rfl, rdb]
  have first : (auOf (tapPop u s) u).firstRef = (auOf s u).firstRef := by rw [auOf_tapPop]
  unfold tapTaken
  dsimp only
  rw [auto, first]
  split
  · rw [auReft_setReft]; omega
  · exact auReft_congr (rd_tapPop rfl rfl) (rd_tapPop rfl rfl)

theorem rd_tapTaken {s : State} {u : Nat} {t : TapEnt} {p : Page} {f : Fld} (depth : apart f F.AU_STAT_DEPTH = true) (level : apart f F.AU_TAP_STAT_LEVEL = true)
    (whole : apart f F.AU_REFT = true) (frac : apart f F.AU_REFT_FRAC = true) : rd (tapTaken u t s) p f = rd s p f := by
  unfold tapTaken
  exact rd_ite ((rd_setReft whole frac).trans (rd_tapPop depth level)) (rd_tapPop depth level)

theorem rd_tapGiven {s : State} {u xd xe : Nat} {t : TapEnt} {p : Page} {f : Fld} (x : ∀ k, apart f (F.AU_X k) = true) (sat : apart f F.AU_FLAGS_TAPSAT = true) :
    rd (tapGiven u xd xe t s) p f = rd s p f := by
  rw [tapGiven, setAuX, rd_wr_apart (x _), setAuX, rd_wr_apart (x _)]
  exact rd_ite (rd_wr_apart sat) rfl

theorem run_tapd (u w : Nat) (s : State) : instrTapd.run u w s = tapTake u (bits w 24 22) (bits w 21 19) s := rfl

section
variable {s : State} {u xd xe : Nat} {e : TapEnt} {rest : List TapEnt} (h : (auOf s u).tap = e :: rest)
include h

/-- The oldest entry leaves the tap, and the loss marker that waits enters it (R339). -/
theorem tap_tapTake : (auOf (tapTake u xd xe s) u).tap = rest ++ (if (auOf s u).lost = 0 then [] else [⟨min (auOf s u).lost (2 ^ 32 - 1), 2 ^ 12, true⟩]) := by
  obtain ⟨_, units⟩ := auOf_tapTake xd xe h
  rw [units, auOf_tapPop, h]
  rfl

theorem lost_tapTake : (auOf (tapTake u xd xe s) u).lost = 0 := by
  obtain ⟨_, units⟩ := auOf_tapTake xd xe h
  rw [units, auOf_tapPop]

/-- TAPD gives the information of the entry. -/
theorem info_tapTake (info : e.info < 2 ^ 32) : auX (tapTake u xd xe s) u xe = e.info := by
  cases mark : e.mark with
  | true => rw [tapTake_of_marker h mark, auX_setAuX_self, Nat.mod_eq_of_lt info]
  | false => rw [tapTake_of_stamp h mark, reftStepped, auX_setReft, tapGiven, auX_setAuX_self, Nat.mod_eq_of_lt info]

theorem value_tapTake_of_marker (mark : e.mark = true) (two : xd ≠ xe) : auX (tapTake u xd xe s) u xd = e.value % 2 ^ 32 := by
  rw [tapTake_of_marker h mark, auX_setAuX_other _ two, auX_setAuX_self]

theorem auReft_tapTake_of_marker (mark : e.mark = true) : auReft (tapTake u xd xe s) u = auReft s u := by
  have kept {f : Fld} (x : ∀ k, apart f (F.AU_X k) = true) (depth : apart f F.AU_STAT_DEPTH = true) (level : apart f F.AU_TAP_STAT_LEVEL = true) :
      rd (tapTake u xd xe s) (.au u) f = rd s (.au u) f := by
    rw [tapTake_of_marker h mark, setAuX, rd_wr_apart (x _), setAuX, rd_wr_apart (x _), rd_tapPop depth level]
  exact auReft_congr (kept (fun _ => rfl) rfl rfl) (kept (fun _ => rfl) rfl rfl)

variable (mark : e.mark = false) (range : e.value < 2 ^ 64) {r : Nat}
  (hr : r = if rdb s (.au u) F.AU_TAP_AUTOREF && (auOf s u).firstRef then e.value * 2 ^ 16 else auReft s u)
include mark range hr

/-- A stamp gives its distance from the reference, within 32 bits (R340). -/
theorem value_tapTake_of_stamp (two : xd ≠ xe) :
    toSigned 32 (auX (tapTake u xd xe s) u xd) = max (-(2 ^ 31)) (min ((e.value : Int) - ((r + 2 ^ 15) / 2 ^ 16 : Nat)) (2 ^ 31 - 1)) := by
  rw [tapTake_of_stamp h mark, reftStepped, auX_setReft, tapGiven, auX_setAuX_other _ two, auX_setAuX_self, toSigned_mod, toSigned_ofSigned_clamp32, tapDistance,
    auReft_tapTaken range, ← hr]

/-- The reference moves on by a step behind a stamp (R340). -/
theorem auReft_tapTake_of_stamp :
    auReft (tapTake u xd xe s) u = (r + rd s (.au u) F.AU_REFSTEP * 2 ^ 16 + rd s (.au u) F.AU_REFSTEP_FRAC) % 2 ^ 80 := by
  have now : auReft (tapGiven u xd xe e (tapTaken u e s)) u = r := by
    rw [hr, ← auReft_tapTaken range]
    exact auReft_congr (rd_tapGiven (fun _ => rfl) rfl) (rd_tapGiven (fun _ => rfl) rfl)
  rw [tapTake_of_stamp h mark, reftStepped, auReft_setReft, now]
  rw [rd_tapGiven (fun _ => rfl) rfl, rd_tapTaken rfl rfl rfl rfl, rd_tapGiven (fun _ => rfl) rfl, rd_tapTaken rfl rfl rfl rfl]

end

/-! ### Messages and flags -/

theorem run_sig (u w : Nat) (s : State) : instrSig.run u w s = raiseInt (wr s (.au u) F.AU_MSG_CODE (bits w 7 0)) (.au u) 9 := rfl

/-- A flag that CLRF clears where a bit of its word is set. -/
def clearFlag (u w b : Nat) (f : Fld) (s : State) : State := if w.testBit b then wrb s (.au u) f false else s

theorem run_clrf (u w : Nat) (s : State) : instrClrf.run u w s =
    clearFlag u w 3 F.AU_FLAGS_TAPSAT (clearFlag u w 2 F.AU_FLAGS_RSAT (clearFlag u w 1 F.AU_FLAGS_OVF_A1 (clearFlag u w 0 F.AU_FLAGS_OVF_A0 s))) := rfl

section
variable (u w b : Nat) (s : State)

theorem rd_clearFlag_self (f : Fld) : rd (clearFlag u w b f s) (.au u) f = if w.testBit b then 0 else rd s (.au u) f := by
  unfold clearFlag
  split
  · rw [wrb, rd_wr_self]; exact Nat.zero_mod _
  · rfl

theorem rd_clearFlag_other {f g : Fld} (h : apart f g = true) : rd (clearFlag u w b g s) (.au u) f = rd s (.au u) f := by
  unfold clearFlag
  exact rd_ite (rd_wr_apart h) rfl

end

/-! ### The instructions that move data and compute -/

/-- Settles O35: an instruction that a unit accepts has its effect between its count and the step of the program counter, so that each clause reads the effect off. -/
theorem analysisArithmetic : Obligations.AnalysisArithmetic := by
  unfold Obligations.AnalysisArithmetic
  refine ⟨?completes, ?nop, ?mac, ?rnd, ?mva, ?loadStore, ?ldi, ?alu, ?addi, ?lda, ?tapd, ?sig, ?clrf⟩
  case completes =>
    intro s u w op waited up c here row
    by_cases computes : (c, op) ∈ auComputes u up waited
    · obtain ⟨n, i, runs, hop, kept⟩ := exec_auComputes computes
      exact ⟨_, runs s, fun free sound => ⟨insns_of_completes here hop kept.count free sound, fun _ => pc_of_completes here hop kept free sound⟩⟩
    · obtain ⟨n, i, runs, hop, kept⟩ := exec_auFlows ((List.mem_append.1 row).resolve_left computes)
      exact ⟨_, runs s, fun free sound => ⟨insns_of_completes here hop kept free sound, fun row' => absurd row' computes⟩⟩
  case nop =>
    intro s u w up here operands
    have ok : AuAccepts instrNop s u w := { encoding := by simp [instrNop, auPlain, operands] }
    refine ⟨_, exec_of_accepts here rfl ok, insns_auDone (fun _ _ _ => rfl) .., fun k _ => ?_, fun a => ?_⟩
    · exact (auX_auDone ..).trans (auX_auCounted ..)
    · exact (auData_auDone ..).trans (auData_auCounted ..)
  case mac =>
    rintro s u w op a x up c here operands real rfl row
    obtain ⟨i, runs, effect⟩ := exec_mac here operands real row
    refine ⟨_, runs, ?_⟩
    rintro y rfl
    refine ⟨fun complex bi re im hbi hre him => ?_, fun cal => ?_, fun a _ other => effect.other other, fun n _ => effect.arPtr n⟩
    · have isRe := effect.re
      have isIm := effect.im complex
      have beyond := effect.overflow complex
      rw [auProduct_complex complex hbi, ← hre] at isRe
      rw [auProduct_complex complex hbi, ← him] at isIm
      rw [auProduct_complex complex hbi, ← hre, ← him, accOut_iff, accOut_iff, or_assoc] at beyond
      exact ⟨isRe, isIm, beyond⟩
    · have isRe := effect.re
      rwa [bits_eq_zero_of_testBit (real cal), auProduct, isCu_iff.2 cal] at isRe
  case rnd =>
    rintro s u w a sh up here operands rfl range real rfl
    have ok : AuAccepts instrRnd s u w := { encoding := by simp [instrRnd, auPlain, operands, range], calUnit := fun h => real (isCu_iff.1 h) }
    refine ⟨_, _, _, exec_of_accepts here rfl ok, nearestEven_roundHalfEven .., nearestEven_roundHalfEven .., ?_, ?_, ?_, fun a _ => ?_⟩
    · rw [auX_auDone, auEffect, low_rnd, rd_auCounted rfl]
    · rw [auX_auDone, auEffect, high_rnd, rd_auCounted rfl]
    · rw [rd_auDone rfl, auEffect, rsat_rnd _ _ _ rfl rfl, rd_auCounted rfl, rd_auCounted rfl, rd_auCounted rfl]
    · have kept := instrRnd_keeps (u := u) (w := w) (s := auCounted u 0 instrRnd w s)
      rw [rd_auDone rfl, rd_auDone rfl, auEffect, kept.rd_array (.au u) F.AU_A_RE, kept.rd_array (.au u) F.AU_A_IM, rd_auCounted rfl, rd_auCounted rfl]
      exact ⟨rfl, rfl⟩
  case mva =>
    intro s u w v up here operands real hv
    have ok : AuAccepts instrMva s u w := { encoding := by simp [instrMva, auPlain, operands], calUnit := fun h => by simp [instrMva, real (isCu_iff.1 h)] }
    have same : rd (auCounted u 0 instrMva w s) (.au u) (if bits w 21 20 < 2 then F.AU_A_RE (bits w 25 25) else F.AU_A_IM (bits w 25 25)) = v := by
      rw [hv]
      exact rd_auCounted (by split <;> rfl)
    refine ⟨_, exec_of_accepts here rfl ok, ?_⟩
    rw [auX_auDone, auEffect, run_mva, same, auX_setAuX_self]
    split
    · exact Nat.mod_mod ..
    · have ⟨lo, hi⟩ := toSigned_mem (w := 8) (by decide) (v / 2 ^ 32)
      rw [toSigned_mod]
      exact toSigned_ofSigned (by decide) (by omega) (by omega)
  case loadStore =>
    rintro s u w n code up rfl rfl one operands
    refine ⟨fun here => ?ld, fun here => ?st, ?pointer⟩
    case ld =>
      have ok : AuAccepts instrLd s u w := { encoding := by simp [instrLd, auPlain, one, operands] }
      have moved := ((sameAr_auCounted s u 0 instrLd w).trans (sameAr_setAuX _ u (bits w 24 22) (auData s u (arPtr s u (bits w 21 19))))).postModify (bits w 21 19) (bits w 18 17)
      have effect : auEffect u 0 instrLd w s = _ := run_ld u w (auCounted u 0 instrLd w s)
      rw [arPtr_auCounted, auData_auCounted] at effect
      refine ⟨_, exec_of_accepts here rfl ok, ?_, ?_⟩
      · rw [auX_auDone, effect, auX_postModify, auX_setAuX_self]
      · rw [arPtr_auDone, effect, moved.ptr]
    case st =>
      have ok : AuAccepts instrSt s u w := { encoding := by simp [instrSt, auPlain, one, operands] }
      have moved := ((sameAr_auCounted s u 0 instrSt w).trans (sameAr_setAuData _ u (arPtr s u (bits w 21 19)) (auX s u (bits w 24 22)))).postModify (bits w 21 19) (bits w 18 17)
      have effect : auEffect u 0 instrSt w s = _ := run_st u w (auCounted u 0 instrSt w s)
      rw [arPtr_auCounted, auX_auCounted] at effect
      refine ⟨_, exec_of_accepts here rfl ok, ?_, ?_, fun a ha other => ?_⟩
      · rw [auData_auDone, effect, auData_postModify, auData_setAuData_self, Nat.mod_eq_of_lt (auX_lt ..)]
      · rw [arPtr_auDone, effect, moved.ptr]
      · rw [auData_auDone, effect, auData_postModify, auData_setAuData_other _ ha (arPtr_lt ..) other, auData_auCounted]
    case pointer =>
      rintro step ptr base len rfl rfl rfl rfl
      rw [arPtr_postModify_self, arNext, arStep]
      norm_cast
  case ldi =>
    rintro s u w d up here one operands rfl
    have ok : AuAccepts instrLdi s u w := { encoding := by simp [instrLdi, auPlain, one, operands] }
    have imm : bits w 15 0 < 2 ^ 16 := bits_lt w 15 0
    refine ⟨_, exec_of_accepts here rfl ok, ?_⟩
    rw [auX_auDone, auEffect, run_ldi, auX_setAuX_self, auX_auCounted]
    split <;> omega
  case alu =>
    intro s u w fn a b v up here hfn range operands ha hb add sub and or xor shl asr shr sat
    have result : aluResult fn a b = v := by
      unfold aluResult
      dsimp only
      split
      case h_1 => exact (add rfl).symm
      case h_2 => exact (sub (.inl rfl)).symm
      case h_3 => exact (and rfl).symm
      case h_4 => exact (or rfl).symm
      case h_5 => exact (xor rfl).symm
      case h_6 => rw [shl rfl, Nat.shiftLeft_eq]
      case h_7 => exact (eq_ofSigned_of_cast (asr rfl)).symm
      case h_8 => rw [shr rfl, Nat.shiftRight_eq_div_pow]
      case h_9 => exact (sub (.inr rfl)).symm
      case h_10 =>
        have last : fn = 9 := by grind
        rw [saturated16_eq, eq_ofSigned (by decide) (sat last).1 (sat last).2]
    have small : v < 2 ^ 32 := by
      rw [← result, ha, hb]
      exact aluResult_lt (auX_lt ..) (auX_lt ..)
    have ok : AuAccepts instrAlu s u w := { encoding := by simp [instrAlu, auPlain, operands, ← hfn, range] }
    have given : aluResult fn (auX (auCounted u 0 instrAlu w s) u (bits w 18 16)) (auX (auCounted u 0 instrAlu w s) u (bits w 15 13)) = v := by
      rw [auX_auCounted, auX_auCounted, ← ha, ← hb, result]
    refine ⟨_, exec_of_accepts here rfl ok, ?_⟩
    rw [auX_auDone, rdb_auDone rfl, rdb_auDone rfl, auEffect, run_alu hfn given]
    refine ⟨?_, z_setZN _ _ small, n_setZN ..⟩
    rw [auX_setZN]
    split
    · exact auX_auCounted ..
    · rw [auX_setAuX_self, Nat.mod_eq_of_lt small]
  case addi =>
    rintro s u w d v up here one operands rfl hv
    have ok : AuAccepts instrAddi s u w := { encoding := by simp [instrAddi, auPlain, one, operands] }
    have result := eq_ofSigned_of_cast hv
    have small : v < 2 ^ 32 := result ▸ ofSigned_lt 32 _
    have given : ofSigned 32 ((auX (auCounted u 0 instrAddi w s) u (bits w 24 22) : Int) + toSigned 16 (bits w 15 0)) = v := by
      rw [auX_auCounted, ← result]
    refine ⟨_, exec_of_accepts here rfl ok, ?_⟩
    rw [auX_auDone, rdb_auDone rfl, rdb_auDone rfl, auEffect, run_addi given]
    refine ⟨?_, z_setZN _ _ small, n_setZN ..⟩
    rw [auX_setZN, auX_setAuX_self, Nat.mod_eq_of_lt small]
  case lda =>
    rintro s u w n v up here operands rfl hv
    have ok : AuAccepts instrLda s u w := { encoding := by simp [instrLda, auPlain, operands] }
    have value : (if w.testBit 20 then auX (auCounted u 0 instrLda w s) u (bits w 16 14) % 2 ^ 14 else bits w 13 0) % 2 ^ 14 = v := by
      rw [hv, auX_auCounted]
      split
      · exact Nat.mod_mod ..
      · exact Nat.mod_mod ..
    have field (j : Nat) (hj : j < 4) : rd (auDone u 0 instrLda w s) (.au u) (ldaField j (bits w 25 23)) =
        if bits w 22 21 = j then v else rd s (.au u) (ldaField j (bits w 25 23)) := by
      rw [rd_auDone (flowless_ldaField hj _), auEffect, run_lda, rd_lda (bits_lt w 22 21) hj value, rd_auCounted (flowless_ldaField hj _)]
    exact ⟨_, exec_of_accepts here rfl ok, field 0 (by decide), field 1 (by decide), field 2 (by decide), field 3 (by decide)⟩
  case tapd =>
    rintro s u w xd xe waited e rest up here one operands rfl rfl tap info range
    have ok : AuAccepts instrTapd s u w := { encoding := by simp [instrTapd, auPlain, one, operands], waits := by simp [instrTapd, tap] }
    have effect : auEffect u waited instrTapd w s = _ := run_tapd u w (auCounted u waited instrTapd w s)
    have tap' : (auOf (auCounted u waited instrTapd w s) u).tap = e :: rest := tap
    obtain ⟨-, tapIs, lostIs⟩ := auOf_auDone s u waited instrTapd w
    refine ⟨_, exec_of_accepts here rfl ok, ?_⟩
    rw [auX_auDone, auX_auDone, auReft_auDone, tapIs, lostIs, effect]
    refine ⟨fun _ => info_tapTake tap' info, tap_tapTake tap', lost_tapTake tap', fun mark => ⟨value_tapTake_of_marker tap' mark, ?_⟩, fun mark r hr => ?_⟩
    · rw [auReft_tapTake_of_marker tap' mark, auReft_auCounted]
    · rw [← rdb_auCounted rfl, ← auReft_auCounted s u waited instrTapd w] at hr
      refine ⟨value_tapTake_of_stamp tap' mark range hr, ?_⟩
      rw [auReft_tapTake_of_stamp tap' mark range hr, rd_auCounted rfl, rd_auCounted rfl]
  case sig =>
    intro s u w up operands here
    have ok : AuAccepts instrSig s u w := { encoding := by simp [instrSig, auPlain, operands] }
    refine ⟨_, exec_of_accepts here rfl ok, ?_, ?_⟩ <;> rw [rd_auDone rfl, auEffect, run_sig]
    · rw [rd_raiseInt rfl, rd_wr_self]
      exact Nat.mod_mod ..
    · exact raised_raiseInt _ _ _ (by decide)
  case clrf =>
    intro s u w up operands here
    have ok : AuAccepts instrClrf s u w := { encoding := by simp [instrClrf, auPlain, operands] }
    refine ⟨_, exec_of_accepts here rfl ok, ?_, ?_, ?_, ?_⟩ <;> rw [rd_auDone rfl, auEffect, run_clrf]
    · rw [rd_clearFlag_other _ _ _ _ rfl, rd_clearFlag_other _ _ _ _ rfl, rd_clearFlag_other _ _ _ _ rfl, rd_clearFlag_self, rd_auCounted rfl]
    · rw [rd_clearFlag_other _ _ _ _ rfl, rd_clearFlag_other _ _ _ _ rfl, rd_clearFlag_self, rd_clearFlag_other _ _ _ _ rfl, rd_auCounted rfl]
    · rw [rd_clearFlag_other _ _ _ _ rfl, rd_clearFlag_self, rd_clearFlag_other _ _ _ _ rfl, rd_clearFlag_other _ _ _ _ rfl, rd_auCounted rfl]
    · rw [rd_clearFlag_self, rd_clearFlag_other _ _ _ _ rfl, rd_clearFlag_other _ _ _ _ rfl, rd_clearFlag_other _ _ _ _ rfl, rd_auCounted rfl]

end Sys2Proof.Machine
end
